-- ==== Sys2Proof/Word.lean ====
section
/-!
DEFINITION. The words of the machine: bytes, the 64-bit register word (R381) and the 64-byte square (R7, R44), with
their plainest arithmetic.
-/
namespace Sys2Proof

/-- A byte. -/
abbrev Byte := BitVec 8

/-- A 64-bit register word (R381). -/
abbrev Word := BitVec 64

/-- A square of 64 bytes; byte 0 is the first byte on the link (R7) and the most significant byte here. -/
abbrev Square := BitVec 512

/-- Bits `[lo + w - 1 : lo]` of a number (bit 0 least significant, R7). -/
def bitsOf (v lo w : Nat) : Nat := (v >>> lo) % 2 ^ w

/-- Bit `i` of a number. -/
def bitOf (v i : Nat) : Bool := v.testBit i

/-- `v` with bits `[lo + w - 1 : lo]` replaced by the low `w` bits of `x`. -/
def setBits (v lo w x : Nat) : Nat :=
  v - (bitsOf v lo w <<< lo) + ((x % 2 ^ w) <<< lo)

/-- 0 or 1 for a Bool. -/
def b2n (b : Bool) : Nat := if b then 1 else 0

end Sys2Proof
end

