-- ==== Sys2Proof/Syntax.lean ====
section
/-!
DEFINITION. The commands of the block: one constructor of `Instr` per row of the opcode table, with the operands the
spec gives the step. What the outside measures or sends (an amplitude crossing, a received row, a value read from host
memory) is an operand; what the module itself holds is not.
-/
namespace Sys2Proof

/-- The privileged masters that reach the map (R384). -/
inductive Master where
  | arbiter | commander | manager
  deriving DecidableEq, Repr

/-- A master's 12-bit identity (R384). -/
def Master.id : Master → Nat
  | .arbiter => 0x000
  | .commander => 0x001
  | .manager => 0x002

/-- Which part of a 64-bit register an access covers: all of it, bits [31:0], or bits [63:32] (R381). -/
inductive Half where
  | full | low | high
  deriving DecidableEq, Repr

/-- Something that has gone wrong in the buffer's records, which the auditor's map shows (R147, R148): descriptor `pid` refers at its place
`i` to another square, or a square in use stands on the free list. Squares are named as in R126. -/
inductive Upset where
  | redirect (pid : BitVec 32) (i : Fin 65) (addr : BitVec 22)
  | freed (addr : BitVec 22)
  deriving DecidableEq, Repr

/-- An event of the management port's own PCI Express link (R379); a link that comes up brings the highest speed and width that its partner
supports (R377). -/
inductive MgmtEvent where
  | linkDown | hotReset | flr | d3hot | d0 | perst
  | linkUp (gen : BitVec 3) (width : BitVec 5)
  deriving DecidableEq, Repr

/-- An error that reaches the collector (R424, R429): its unit and code, what the checker was doing, whether the pair
stays asserted. -/
structure ErrIn where
  unit : BitVec 10
  code : BitVec 16
  access : BitVec 8 := 0
  master : BitVec 12 := 0xFFF
  addr : BitVec 64 := 0
  syndrome : BitVec 64 := 0
  stays : Bool := false
  deriving DecidableEq, Repr

/-- A region that has a targeted test (R437): a unit of R426, a lane, a block of 256 squares, a memory row or a table
entry. -/
inductive TestRegion where
  | unit (u : BitVec 10)
  | lane (l : Fin 512)
  | block (b : BitVec 14)
  | memRow (r : BitVec 32)
  | tableEntry (off : BitVec 26)
  deriving DecidableEq, Repr

/-- What a targeted test measured (R437): whether nothing failed in a built-in test, self-check, march or pattern; of a lane's live margin,
the most corrected symbols in a 1 ms window of the 100 ms and the least EYE_MIN; of a lane's held test, the bit errors and whether an eye
opening was found at −8/64 and at +8/64 UI; of a lane tile, whether its built-in test passed, and the lanes whose held test failed; of a
pseudo-channel, its failing rows. -/
inductive TestResult where
  | check (ok : Bool)
  | margin (symbols : BitVec 32) (eye : BitVec 7)
  | pattern (errors : BitVec 64) (early late : Bool)
  | tile (ok : Bool) (lanes : BitVec 32)
  | march (rows : BitVec 20)
  deriving DecidableEq, Repr

/-- Why an emergency shutdown starts (R472). -/
inductive ShutdownCause where
  | overvoltage | rail | thermal
  deriving DecidableEq, Repr

/-- The reference clocks (R477). -/
inductive RefClk where
  | fabric
  | host (p : Fin 4)
  | mgmt
  | ref25
  deriving DecidableEq, Repr

/-- What the host answers a read with (R204, R241): the bytes, or an error. -/
inductive HostAns where
  | ok (bytes : List (BitVec 8))
  | ur | ca | poison | timeout
  deriving DecidableEq, Repr

/-- How a management command reaches the module (R188): as the next in-band request of the arbiter's queue, or by a
CGC_CMD write of a master, with CGC_CMD_ARG. -/
inductive CmdSrc where
  | inband
  | cmd (m : Master)
  deriving DecidableEq, Repr

/-- A handler's verdict (R316, R317): a response of a SERVICE handler or none, or the choice of an UNEXPECTED handler;
what the handler's program decides is outside the spec. -/
inductive Verdict where
  | respond (bytes : List (BitVec 8))
  | silent
  | stage
  | refuse (retryUs : BitVec 16)
  deriving DecidableEq, Repr

/-- What one invocation of a handler does (R316): its verdict, and the 8-byte words it writes to its own region of module memory, by their
index in the region. -/
structure HandlerRun where
  verdict : Verdict
  writes : List (BitVec 25 × BitVec 64) := []
  deriving DecidableEq, Repr

/-- What the accesses of a boot or of a SEC command to flash and fuses come to (R400, R404, R418, R423): copy A and copy B can be read without
error; what is written, or burnt, is written without error. -/
structure FlashRun where
  readA : Bool := true
  readB : Bool := true
  done : Bool := true
  deriving DecidableEq, Repr

/-- How a lock operation arrives (R349): as the next LOCK_REQ or LOCK_FWD at service 1, or by an LCK_OP write. -/
inductive LockSrc where
  | packet (fwd : Bool)
  | reg (m : Master)
  deriving DecidableEq, Repr

/-- Who makes an access to registers: a privileged master on the map (R384), or a function on its own BAR2 (R231). -/
inductive Who where
  /-- a master of R384, at a map offset -/
  | master (m : Master)
  /-- function f at an offset of its BAR2 -/
  | fn (f : Fin 512)
  /-- the host at an offset of function f's BAR0 (R207) -/
  | bar0 (f : Fin 512)
  /-- at an offset of function f's BAR4, or of the management port's BAR2, which is function 512 (R206, R378) -/
  | msix (f : Fin 513)
  /-- a configuration request to function f, or to the management port as function 512, that carries a bus number (R202, R377): the
  capability, in the order of R202's table, in bits [25:12], and the offset in it in bits [11:0] -/
  | config (f : Fin 513) (bus : BitVec 8)
  deriving DecidableEq, Repr


/-- The commands of the block: one constructor per row of the opcode table, in the table's order. -/
inductive Instr where
  /-- WAKE_REQUEST (R13): An asynchronous wake request, or a transfer arriving at a crossing into a stopped island, starts that island's clock within 500 ns. -/
  | wakeRequest (k : Fin 26)
  /-- DEPARTURE_NOTICE (R19): When the last square of a packet is first transmitted in a row, the output lane tile sends a departure notice to the pawn that built the packet. -/
  | departureNotice (o : Fin 259)
  /-- ENTER (R32): A write of ENTER to GLB_MAINT_CTL enters Maintenance mode and makes the writing master the owner. -/
  | enter (m : Master)
  /-- LEAVE (R38): A write of LEAVE releases every isolated unit and starts the exit from Maintenance mode. -/
  | leave (m : Master)
  /-- LEAVE_DONE (R38): When every released unit has returned or been fenced, MAINT clears and OWNER reads 0xFFF. -/
  | leaveDone
  /-- ISO_ISOLATE (R35): A GLB_ISO_CMD write with ACTION 1 isolates one unit, with or without FORCE. -/
  | isoIsolate (m : Master) (unit : BitVec 9) (force : Bool)
  /-- ISO_RELEASE (R38): A GLB_ISO_CMD write with ACTION 0 releases one isolated unit. -/
  | isoRelease (m : Master) (unit : BitVec 9) (all : Bool)
  /-- ISO_ALL (R35): A GLB_ISO_CMD write with ALL set isolates every unit, treating pawns as with FORCE. -/
  | isoAll (m : Master) (unit : BitVec 9)
  /-- ISO_COMMAND_DONE (R35): An isolation command ends within its bound, and GLB_ISO_STAT.BUSY clears with its RESULT. -/
  | isoCommandDone
  /-- HEADER_SQUARE_ARRIVE (R157): A header square arriving from a fabric input is checked, stamped, age-checked and routed once on the active bank. -/
  | headerSquareArrive (p : Fin 256)
  /-- LOSS_OF_SIGNAL (R84): A receiver whose amplitude stays below 65 mV for 1 µs declares loss of signal, and the lane goes to reset. -/
  | lossOfSignal (l : Fin 512)
  /-- SIGNAL_DETECT (R84): A receiver whose amplitude stays above 90 mV for 10 µs declares signal detect and begins to adapt. -/
  | signalDetect (l : Fin 512)
  /-- RX_ADAPT_CONVERGED (R91): Receiver adaptation converges after signal detect and then tracks continuously. -/
  | rxAdaptConverged (l : Fin 512) (atLimit : Bool) (ctle : BitVec 5) (snr : BitVec 8) (eye : BitVec 7)
  /-- COMMA_BLOCK_RX (R85): A received comma block is checked for its run and fields, counts toward comma lock and may show inverted polarity. -/
  | commaBlockRx (l : Fin 512) (spaced : Bool) (lv : BitVec 800) (skew : BitVec 16)
  /-- COMMA_LOCK_LOST (R85): The comma run is missing at two consecutive expected positions, so comma lock is lost and the lane goes to reset. -/
  | commaLockLost (l : Fin 512)
  /-- CODEWORD_RX (R88): A received RS codeword is decoded, counted as good, corrected or uncorrectable, and passed on. -/
  | codewordRx (p : Fin 256) (lv : BitVec 5440)
  /-- HEALTH_WINDOW_END (R89): At the end of a 1 ms window, a lane whose corrected symbols reached 2^HEALTH_EXP becomes unhealthy. -/
  | healthWindowEnd (l : Fin 512)
  /-- HEALTH_COMMA_TIMEOUT (R89): A lane that has not reached comma lock 40 ms after signal detect becomes unhealthy. -/
  | healthCommaTimeout (l : Fin 512)
  /-- LT_HEALTH_WRITE (R89): Writing 1 to a bit of LT_HEALTH makes that lane healthy again. -/
  | ltHealthWrite (m : Master) (t : Fin 16) (mask : BitVec 32)
  /-- LT_TX_EQ_WRITE (R81): A write to the shadow transmit equalisation set is stored if legal; otherwise it is ignored and EQ_REJECT is set. -/
  | ltTxEqWrite (m : Master) (l : Fin 512) (h : Half) (v : BitVec 64)
  /-- LT_LANE_CTL_WRITE (R93): A write to LT_LANE_CTL sets precoding, the pattern generator, the checker and loopbacks; writes to test fields are ignored unless the group is isolated. -/
  | ltLaneCtlWrite (m : Master) (l : Fin 512) (h : Half) (v : BitVec 64)
  /-- PAT_LOCK (R92): After 64 consecutive error-free levels, the pattern checker declares lock. -/
  | patLock (l : Fin 512) (lv : BitVec 160)
  /-- PAT_RESYNC (R92): When 256 of 1,024 levels are wrong, the checker loses lock, counts a resync and synchronises again. -/
  | patResync (l : Fin 512) (errs : BitVec 64)
  /-- EYE_SCAN_START (R94): A START write to LT_SCAN_CTL measures one eye-scan point at the DSP decision point. -/
  | eyeScanStart (m : Master) (l : Fin 512) (h : Half) (v : BitVec 64)
  /-- EYE_SCAN_DONE (R94): An eye-scan point completes its dwell, and LT_SCAN_RES reports DONE, the errors and the levels compared. -/
  | eyeScanDone (l : Fin 512) (errors : BitVec 24)
  /-- ROW_TX (R110): A port sends its next data, idle, replay or control row and rebuilds the trailer with acknowledgement, credit and time fields. -/
  | rowTx (p : Fin 256)
  /-- ROW_RX (R111): A received row is checked and handled as bad, in order, duplicate, gap or idle, and its acknowledgement and credit fields are applied. -/
  | rowRx (p : Fin 256)
  /-- BADROW_LIMIT (R124): The bad-row count in a 1 ms window reaches BADROW_LIMIT, which reports a Corrected fault and may reset the link with cause 8. -/
  | badrowLimit (p : Fin 256)
  /-- REPLAY_TIMEOUT (R116): No progress in the acknowledged sequence for REPLAY_TIMEOUT starts a replay from the oldest row and raises REPLAY_RUN. -/
  | replayTimeout (p : Fin 256)
  /-- REPLAY_LIMIT (R116): REPLAY_RUN reaches REPLAY_MAX, and the link resets with cause 5. -/
  | replayLimit (p : Fin 256)
  /-- RTT_WINDOW_END (R125): At the end of a 1 ms window in which data rows were sent, LNK_RTT.RTT_MIN is updated. -/
  | rttWindowEnd (p : Fin 256)
  /-- CAP_ROW_RX (R106): A CAP control row is received and checked in CONFIG for leader, VL_MASK and self loop. -/
  | capRowRx (p : Fin 256) (done : Bool) (reqs : BitVec 64)
  /-- EQ_ROW_RX (R106): An EQ control row brings transmit-equalisation requests and answers, and EQ_DONE. -/
  | eqRowRx (p : Fin 256) (done : Bool) (reqs : BitVec 64)
  /-- CONFIRM_ROW_RX (R109): A CONFIRM row brings READY, which moves the leader or follower toward UP. -/
  | confirmRowRx (p : Fin 256)
  /-- LRESET_RX (R107): A received LRESET resets the link from UP with cause 2, or confirms or is absorbed in an ongoing reset. -/
  | lresetRx (p : Fin 256)
  /-- RESET_INTERVAL_END (R104): The LRESET and electrical-idle intervals of RESET end, and the port enters DETECT when the start limit allows. -/
  | resetIntervalEnd (p : Fin 256)
  /-- TRAIN_TIMEOUT (R105): Training that has not reached UP within TRAIN_TIMEOUT returns the port to RESET with cause 9 or 10. -/
  | trainTimeout (p : Fin 256)
  /-- DEGRADE_TIMEOUT (R108): A side still in DETECT 20 ms after leaving RESET switches to degraded width. -/
  | degradeTimeout (p : Fin 256)
  /-- RETRAIN (R104): A write of RETRAIN to LNK_CTL resets and trains the link with cause 1. -/
  | retrain (m : Master) (p : Fin 256)
  /-- DISABLE (R503): Setting or clearing LNK_CTL.DISABLE takes the port to DISABLED after 1 µs of LRESET rows, or lets it return to RESET. -/
  | disable (m : Master) (p : Fin 256) (on : Bool)
  /-- TIME_FRAME (R123): A complete time frame from the peer gives delay and offset in LNK_TIME_DELAY and LNK_TIME_OFFSET. -/
  | timeFrame (p : Fin 256)
  /-- ADMIT (R132): A local input presents a packet, which is policed and admitted against the VL0 reserve, the guarantee and the dynamic region, or made to wait. -/
  | admitPkt (i : Fin 7) (vl : Fin 16)
  /-- ADMIT_RETRY (R132): A waiting packet's admission test runs again when a square is freed. -/
  | admitRetry (i : Fin 7) (vl : Fin 16)
  /-- SQUARE_FREE (R129): A square whose last read or discard is done is freed, its source is released and credit is returned when the link generation matches. -/
  | squareFree (pid : BitVec 32)
  /-- OUTPUT_SCHEDULE (R149): An output that can start a packet selects VL0 or a traffic class by DWRR and reserves link credits for it. -/
  | outputSchedule (o : Fin 259)
  /-- CUT_THROUGH_RESUME (R138): An output stalled on an unwritten square of a cut-through packet continues when the square is written. -/
  | cutThroughResume (p : Fin 256)
  /-- ENTRY_DEADLINE (R140): In the 64 ns tick in which the first of a queued entry's age and residence deadlines passes, the entry is discarded. -/
  | entryDeadline (o : Fin 259) (vl : Fin 16) (pid : BitVec 32)
  /-- AUDIT_PASS (R148): A buffer auditor pass completes and acts on leaked, doubly free and doubly referenced squares. -/
  | auditPass (upsets : List Upset)
  /-- SHAPER_TICK (R152): Once per square time, each enabled shaper updates its credit. -/
  | shaperTick (p : Fin 256)
  /-- POLICER_REFILL (R153): Each switch-core cycle the policer buckets refill, and held packets are coloured again. -/
  | policerRefill (f : Fin 512)
  /-- REMOTE_DECAY (R166): At each 8 µs boundary, every remote delay estimate that got no sample is halved. -/
  | remoteDecay
  /-- SHADOW_COPY_DONE (R179): The copy of the new active bank into the shadow bank of a strobe part completes, releasing any held strobe. -/
  | shadowCopyDone (part : Fin 32)
  /-- RTE_CFG_WRITE (R180): A write to shadow RTE_CFG is stored if SPLIT and NGROUPS are legal; otherwise it is ignored and CFG_REJECT is set. -/
  | rteCfgWrite (m : Master) (h : Half) (v : BitVec 64)
  /-- THROTTLE_WINDOW_END (R182): At the end of each 2 µs window, each function's fetch gap doubles if it was affected, and halves otherwise. -/
  | throttleWindowEnd
  /-- GRANT_REQ_RX (R187): A GRANT_REQ is consumed, recorded and placed in the host port's round-robin list. -/
  | grantReqRx
  /-- GRANT_ISSUE (R187): When budget allows, the pawn grants the next list entry up to GRANT_CHUNK more bytes and sends GRANT. -/
  | grantIssue (h : Fin 4)
  /-- MGMT_REQ_RX (R195): An in-band MGMT_REQ is CRC-, key-, tag-, PSN- and permission-checked and queued for execution. -/
  | mgmtReqRx
  /-- MGMT_RESP_RX (R196): A MGMT_RESP at service 0 is discarded and counted; at service 3 in Stack mode it goes to stack control. -/
  | mgmtRespRx
  /-- QUENCH_FN (R189): Sets the sender's quench bit on a function and stops its Request and Forward packets. -/
  | quenchFn (src : CmdSrc)
  /-- UNQUENCH_FN (R189): Clears the sender's quench bit on a function. -/
  | unquenchFn (src : CmdSrc)
  /-- QUENCH_JOB (R189): Sets the sender's quench bit on a job context. -/
  | quenchJob (src : CmdSrc)
  /-- UNQUENCH_JOB (R189): Clears the sender's quench bit on a job context. -/
  | unquenchJob (src : CmdSrc)
  /-- QUENCH_ALL (R189): Sets the sender's module quench bit. -/
  | quenchAll (src : CmdSrc)
  /-- UNQUENCH_ALL (R189): Clears the sender's module quench bit. -/
  | unquenchAll (src : CmdSrc)
  /-- TEARDOWN_JOB (R191): Quenches a job context and then tears it down. -/
  | teardownJob (src : CmdSrc)
  /-- TEARDOWN_JOB_DONE (R191): A job teardown ends, and TEARDOWN_PENDING clears. -/
  | teardownJobDone (j : BitVec 12)
  /-- TREE_STOP (R337): Unseats the named tree tree-wide with reason TREE_STOP. -/
  | treeStop (src : CmdSrc)
  /-- STROBE (R388): An in-band command requests a castle strobe on a strobe group mask. -/
  | strobe (src : CmdSrc)
  /-- PROBE_SEND (R199): Makes the probe responder build one PROBE to a target module. -/
  | probeSend (src : CmdSrc)
  /-- REG_READ (R196): An in-band command reads one register as master 0x002 and returns its value. -/
  | regRead
  /-- REG_WRITE (R196): An in-band command writes one register as master 0x002. -/
  | regWrite
  /-- PROBE_RX (R198): The probe responder takes a PROBE and answers with one PROBE_ECHO. -/
  | probeRx
  /-- PROBE_ECHO_RX (R198): The probe responder records an arriving PROBE_ECHO in CGC_PROBE_LAST0 to CGC_PROBE_LAST4. -/
  | probeEchoRx
  /-- DOORBELL (R207): A memory write of len + 1 bytes to BAR0 sets pending on the named work queue, or is dropped for an unknown QID. -/
  | doorbell (f : Fin 512) (off : BitVec 22) (len : Fin 64)
  /-- SERVE (R212): The queue engine scans a pending queue while fetch is allowed and consumes every owned entry. -/
  | serve (f : Fin 512) (q : BitVec 17) (ans : List HostAns)
  /-- HPT_ADMIN_DB (R223): A write to the admin doorbell sets pending on the function's admin queue. -/
  | hptAdminDb (f : Fin 512)
  /-- ADMIN_ENABLE (R231): A change of HPT_ADMIN_CFG.ENABLE creates the admin queue, or removes it when quiet. -/
  | adminEnable (f : Fin 512) (h : Half) (v : BitVec 64) (ans : HostAns)
  /-- HPT_CQ_ACK (R219): An 8-byte write frees completion-queue slots up to HEAD and may arm the queue's vector. -/
  | hptCqAck (f : Fin 512) (wide : Bool) (v : BitVec 64)
  /-- HPT_EQ_ACK (R219): An 8-byte write frees event-queue slots up to HEAD and may arm the vector. -/
  | hptEqAck (f : Fin 512) (wide : Bool) (v : BitVec 64)
  /-- HOST_READ_COMPLETION (R204): A payload or operand read returns from host memory, or fails and completes its work entry with HOST_ERROR. -/
  | hostReadCompletion (p : Fin 4) (id : BitVec 32) (ans : HostAns)
  /-- NOP (R215): A work entry that completes OK and may close a batch. -/
  | nop (w : BitVec 32)
  /-- PUT (R273): A work entry that sends a remote write as sprayed PUT packets. -/
  | put (w : BitVec 32)
  /-- GET (R274): A work entry that sends a remote read as pinned GET_REQ pieces. -/
  | get (w : BitVec 32)
  /-- SEND (R296): A work entry that sends a message eager or by rendezvous, with its MSN. -/
  | send (w : BitVec 32)
  /-- ATOMIC (R275): A work entry that sends a remote atomic operation. -/
  | atomic (w : BitVec 32)
  /-- FLUSH (R277): A work entry that flushes earlier placements on its connection. -/
  | flush (w : BitVec 32)
  /-- LOCK (R352): A work entry that sends a LOCK_REQ to service 1 of the target module. -/
  | lock (w : BitVec 32)
  /-- COLL (R330): A work entry that contributes to a collective operation on a seated tree. -/
  | coll (w : BitVec 32)
  /-- SVC (R215): A work entry that sends an SVC_REQ to an engine-hosted service. -/
  | svc (w : BitVec 32)
  /-- RECV (R294): A receive that searches the unexpected messages and otherwise posts with a post stamp, or takes a held message. -/
  | recv (w : BitVec 32)
  /-- PROBE (R310): A receive-queue entry that peeks at, or holds, the first eligible unexpected message. -/
  | probe (w : BitVec 32)
  /-- CANCEL (R312): A receive-queue entry that removes the oldest posted receive with the named USER. -/
  | cancel (w : BitVec 32)
  /-- CREATE_WQ (R224): Admin command that creates a work queue and assigns it a pawn. -/
  | createWq (f : Fin 512)
  /-- DESTROY_WQ (R226): Admin command that removes a quiet work queue. -/
  | destroyWq (f : Fin 512) (ans : HostAns)
  /-- CREATE_CQ (R224): Admin command that creates a completion queue. -/
  | createCq (f : Fin 512)
  /-- DESTROY_CQ (R226): Admin command that removes a completion queue no work queue names. -/
  | destroyCq (f : Fin 512)
  /-- CREATE_EQ (R224): Admin command that creates an event queue. -/
  | createEq (f : Fin 512)
  /-- DESTROY_EQ (R226): Admin command that removes an event queue nothing names. -/
  | destroyEq (f : Fin 512)
  /-- CREATE_JOB (R224): Admin command that creates a job context with its rank table. -/
  | createJob (f : Fin 512)
  /-- DESTROY_JOB (R226): Admin command that removes a job context no queue names and clears its quench bits. -/
  | destroyJob (f : Fin 512)
  /-- RANK_WRITE (R224): Admin command that writes rank-table entries from host memory. -/
  | rankWrite (f : Fin 512) (ans : List HostAns)
  /-- FN_RESET (R224): Admin command that completes OK and then tears down the target function with cause 2. -/
  | fnReset (f : Fin 512)
  /-- SET_VF_QUOTA (R224): Admin command by which a PF sets a VF's quotas. -/
  | setVfQuota (f : Fin 512)
  /-- SET_COUNTER_ACCESS (R461): Admin command by which a PF allows or forbids counter pages. -/
  | setCounterAccess (f : Fin 512)
  /-- QUERY_FN (R224): Admin command that returns HPT_FN_USED of the target. -/
  | queryFn (f : Fin 512)
  /-- CREATE_XCTX (R233): Admin command that creates a stage-1 translation context. -/
  | createXctx (f : Fin 512)
  /-- DESTROY_XCTX (R254): Admin command that removes an unused translation context, invalidating its caches and resolving its page requests. -/
  | destroyXctx (f : Fin 512)
  /-- INVALIDATE (R246): Admin command that broadcasts an invalidation of a range or a whole context to every translation cache. -/
  | invalidate (f : Fin 512)
  /-- INVALIDATE_DONE (R246): Every cache has acknowledged and every access through the old mapping has gone, so the INVALIDATE completion is written. -/
  | invalidateDone (f : Fin 512)
  /-- PAGE_RESUME (R252): Admin command that resolves a page request by retry or fail. -/
  | pageResume (f : Fin 512)
  /-- SET_DEVICE_WINDOW (R240): Admin command by which a PF sets a device window and invalidates its host port's caches. -/
  | setDeviceWindow (f : Fin 512)
  /-- SET_STAGE2 (R235): Admin command by which a PF sets a VF's stage-2 root, lifetime, ODP and enable. -/
  | setStage2 (f : Fin 512)
  /-- REG_MR (R283): Admin command that registers a memory region and returns its RKEY. -/
  | regMr (f : Fin 512)
  /-- DEREG_MR (R283): Admin command that deregisters a region and raises its key generation. -/
  | deregMr (f : Fin 512)
  /-- CREATE_DOMAIN (R291): Admin command that creates a matching domain and assigns its home pawn. -/
  | createDomain (f : Fin 512)
  /-- DESTROY_DOMAIN (R314): Admin command that removes an idle domain and discards its unexpected eager messages. -/
  | destroyDomain (f : Fin 512)
  /-- REG_RESULT_BUF (R329): Admin command that registers a function's result buffer on a tree. -/
  | regResultBuf (f : Fin 512)
  /-- DEREG_RESULT_BUF (R329): Admin command that removes a function's result buffer registration. -/
  | deregResultBuf (f : Fin 512)
  /-- FLR (R227): Initiate Function Level Reset written to a function starts its teardown with cause 1. -/
  | flr (f : Fin 512)
  /-- VF_ENABLE_CHANGE (R227): Clearing VF Enable or changing NumVFs tears down every VF with cause 3. -/
  | vfEnableChange (p : Fin 4) (enable : Bool) (n : BitVec 7)
  /-- D3HOT_TO_D0 (R227): A function's move from D3hot to D0 tears it down with cause 4. -/
  | d3hotToD0 (f : Fin 512)
  /-- HOST_LINK_DOWN (R227): Host port link down or hot reset tears down every function of the port with cause 5. -/
  | hostLinkDown (p : Fin 4)
  /-- HP_PERST (R483): HPp_PERST_L low resets the host port link and tears down its functions with cause 5. -/
  | hpPerst (p : Fin 4) (ns : BitVec 32)
  /-- HPT_FN_TEARDOWN (R227): A START write to HPT_FN_TEARDOWNf tears down function f with cause 6. -/
  | hptFnTeardown (m : Master) (f : Fin 512) (h : Half) (v : BitVec 64)
  /-- TEARDOWN_TAG_TIMEOUT (R228): After 50 ms of waiting, a teardown retires the outstanding non-posted tags. -/
  | teardownTagTimeout (f : Fin 512)
  /-- TEARDOWN_END (R228): A teardown ends: queues go ABSENT, the function's registers reset, TEARDOWN clears and VF_TEARDOWN_DONE is posted. -/
  | teardownEnd (f : Fin 512)
  /-- TRANSLATION_WALK (R238): An access that misses the caches walks the stage-1 and stage-2 tables and checks the attributes. -/
  | translationWalk (ans : List HostAns)
  /-- CACHE_ENTRY_EXPIRE (R243): A translation cache entry reaches its lifetime and is no longer used. -/
  | cacheEntryExpire (p : Fin 4)
  /-- REQUEST_ARRIVE (R262): A Request or Forward packet reaching its pawn is checked against connection state and PSN, and is accepted, refused or treated as a duplicate. -/
  | requestArrive (fwd : Bool)
  /-- REPLY_ARRIVE (R262): A Reply packet with a matching context epoch is consumed, placing data, results or grants; any other is discarded. -/
  | replyArrive
  /-- ACK_RX (R271): An ACK, SACK or NAK releases PSNs, updates the window and RTO estimates, and acts on its code. -/
  | ackRx
  /-- ACK_DELAY (R266): ACK_DELAY passes after an uncovered acceptance, and an ACK or SACK is sent. -/
  | ackDelay (f : Fin 512) (peer : BitVec 32) (cn : BitVec 16)
  /-- REORDER_HOLD (R269): E is still missing after REORDER_HOLD, so NAK_SEQ, or the pending refusal, is sent. -/
  | reorderHold (f : Fin 512) (peer : BitVec 32) (cn : BitVec 16)
  /-- RETRANSMISSION_TIMEOUT (R270): RTO expires on the oldest outstanding packet, which is resent while RTO doubles and RETRY rises, failing the connection at RETRY_MAX. -/
  | retransmissionTimeout (f : Fin 512) (peer : BitVec 32) (cn : BitVec 16)
  /-- RETRY_US (R271): RETRY_US after a retry NAK passes, and the packets named are resent. -/
  | retryUs (f : Fin 512) (peer : BitVec 32) (cn : BitVec 16)
  /-- NAK_RETRY_LIMIT (R271): Retry NAKs go on without progress for NAK_RETRY_LIMIT, and the connection fails. -/
  | nakRetryLimit (f : Fin 512) (peer : BitVec 32) (cn : BitVec 16)
  /-- IDLE_CLOSE (R264): A connection quiet for IDLE_CLOSE sends CLOSE_REQ and enters CLOSING. -/
  | idleClose (f : Fin 512) (peer : BitVec 32) (cn : BitVec 16)
  /-- TOMBSTONE_EXPIRE (R261): A tombstone, or a FAILED context serving as one, is freed when its age-limit period ends. -/
  | tombstoneExpire
  /-- STORE_WAIT_END (R272): Room in the retransmission store lets a waiting pawn build its next data packet. -/
  | storeWaitEnd (n : Fin 104)
  /-- ATOMIC_COMPLETE (R275): The AtomicOp completes at the target, and ATOMIC_RESULT is cached and sent. -/
  | atomicComplete (p : Fin 4) (ans : HostAns)
  /-- FLUSH_READ_DONE (R277): The FLUSH's zero-length read completes, and FLUSH_DONE is sent. -/
  | flushReadDone (p : Fin 4)
  /-- XPT_CONN_SEL (R289): A write selects a connection, and the XPT_CONN_VIEW registers reflect it within 1 µs. -/
  | xptConnSel (m : Master) (h : Half) (v : BitVec 64)
  /-- ARRIVE (R300): The home pawn handles a SEND_EAGER or RTS by MSN: matched, held early, made unexpected or refused. -/
  | arrive
  /-- GET_RDV_SEND (R306): A rendezvous pull piece is sent as GET_RDV once its landing record and budget are available. -/
  | getRdvSend (m : BitVec 32)
  /-- KEY_DRAIN_END (R298): A send key's drain of one age limit ends, its generation rises and its index returns to the pool. -/
  | keyDrainEnd (idx : BitVec 24)
  /-- HANDLER_INVOKE (R316): A SERVICE or UNEXPECTED handler slot runs on its pawn and returns a verdict. -/
  | handlerInvoke (k : Fin 8) (v : HandlerRun)
  /-- HANDLER_OVERRUN (R317): An invocation reaches its cycle budget and gets the default verdict; 16 overruns in 1 ms disable the slot. -/
  | handlerOverrun (k : Fin 8)
  /-- SEAT (R324): A COL_TREE_CMD write with ACTION SEAT starts seating a valid tree entry. -/
  | seat (mst : Master) (i : BitVec 12)
  /-- UNSEAT (R337): A COL_TREE_CMD write with ACTION UNSEAT unseats the tree tree-wide. -/
  | unseat (mst : Master) (i : BitVec 12)
  /-- COL_TREE_A_WRITE (R323): A shadow COL_TREE_A write naming a non-leaf role in Endpoint mode is ignored and sets REJECT. -/
  | colTreeAWrite (m : Master) (i : BitVec 12) (h : Half) (v : BitVec 64)
  /-- CTL_RESERVE (R327): A RESERVE from a child is absorbed; when all children have reported, the module reserves its resources and reports up. -/
  | ctlReserve
  /-- CTL_CONFIRM (R327): A CONFIRM seats the entry, records TOTAL and is replicated to the children. -/
  | ctlConfirm
  /-- CTL_SEAT_FAIL (R327): A SEAT_FAIL releases the resources, returns the entry to INSTALLED and is replicated. -/
  | ctlSeatFail
  /-- CTL_ARRIVE (R332): A barrier or broadcast ARRIVE is combined into its slot and forwarded up when complete. -/
  | ctlArrive
  /-- CTL_RELEASE (R332): A RELEASE frees its slot, completes barrier entries and is replicated down. -/
  | ctlRelease
  /-- CTL_CHUNK_DONE (R332): A CHUNK_DONE frees its slot and completes reduce entries at non-root modules. -/
  | ctlChunkDone
  /-- CTL_ABORT (R345): An ABORT ends the operation, completes local entries ABORTED and is sent on. -/
  | ctlAbort
  /-- CTL_UNSEAT (R337): An UNSEAT is sent on, aborts the open operation and returns the entry to INSTALLED. -/
  | ctlUnseat
  /-- COLL_UP_RX (R332): A child's operand or partial result is combined into its slot; a complete slot sends up, or completes the chunk at the root. -/
  | collUpRx
  /-- COLL_DOWN_RX (R332): A down result frees its slot, is written to the result buffers and is replicated to the children. -/
  | collDownRx
  /-- OPERAND_READ (R334): A leaf rook's operand read returns from host memory and is contributed into its slot. -/
  | operandRead (p : Fin 4) (id : BitVec 32) (ans : HostAns)
  /-- SEAT_TIMEOUT (R327): A module still in SEATING after SEAT_TIMEOUT unseats the tree with reason RESEAT. -/
  | seatTimeout (m : Fin 4096)
  /-- START_TIMEOUT (R343): START_TIMEOUT passes before the first down packet, and the operation aborts with TIMEOUT_START. -/
  | startTimeout (m : Fin 4096)
  /-- CHUNK_TIMEOUT (R343): CHUNK_TIMEOUT passes on a slot or sent chunk, and the operation aborts with TIMEOUT_CHUNK. -/
  | chunkTimeout (m : Fin 4096)
  /-- LOCK_REQ_RX (R350): A LOCK_REQ at service 1 is age-checked, forwarded if its group moved, or executed with a LOCK_RESULT sent. -/
  | lockReqRx
  /-- LOCK_FWD_RX (R355): A LOCK_FWD at the group's home is age-checked and executed, or answered MOVED. -/
  | lockFwdRx
  /-- LOCK_RESULT_RX (R353): A LOCK_RESULT completes the matching LOCK work entry, or is discarded as stale. -/
  | lockResultRx
  /-- LOCK_RETRY (R354): With no result 2 × REQ_AGE_US after the last transmission, the request is retried or fails after RETRIES. -/
  | lockRetry (w : BitVec 32)
  /-- READ (R350): Lock operation that reads a word after the access check. -/
  | read (src : LockSrc) (w : BitVec 16)
  /-- CAS (R350): Lock operation that compares, checks ownership and swaps a word. -/
  | cas (src : LockSrc) (w : BitVec 16)
  /-- CLEAR_ORPHAN (R358): Lock operation by which the holder clears a word's orphan bit. -/
  | clearOrphan (src : LockSrc) (w : BitVec 16)
  /-- PURGE_FN (R356): Packet operation that force-releases every word owned by the requester. -/
  | purgeFn (fwd : Bool)
  /-- PURGE_JOB (R356): Packet operation that force-releases the requester's words of one job. -/
  | purgeJob (fwd : Bool)
  /-- LCK_PURGE_MODULE (R356): LCK_PURGE with KIND 0 force-releases every word owned by a module. -/
  | lckPurgeModule (m : Master) (target : BitVec 18)
  /-- LCK_PURGE_FA (R356): LCK_PURGE with KIND 1 force-releases every word owned by an FA. -/
  | lckPurgeFa (m : Master)
  /-- LCK_PURGE_WORD (R356): LCK_PURGE with KIND 2 force-releases one word. -/
  | lckPurgeWord (m : Master) (w : BitVec 18)
  /-- PURGE_SEND (R357): 2 × REQ_AGE_US after a function's packets stop, PURGE_FN or PURGE_JOB goes to every module on its peer list. -/
  | purgeSend
  /-- HELLO (R361): A HELLO on a stack port is checked, and the peer is accepted or counted as bad. -/
  | hello
  /-- HEARTBEAT_SEND (R373): Every HB_PERIOD_US the master sends HEARTBEAT to each member. -/
  | heartbeatSend
  /-- HEARTBEAT (R373): A member takes a HEARTBEAT, and the standby master checks its MSEQ for staleness. -/
  | heartbeat
  /-- DIGEST_SEND (R366): Every DIGEST_US, or on an external port change, a leaf sends DIGEST to every present member. -/
  | digestSend
  /-- DIGEST (R366): A received DIGEST updates the eligibility and scores of the sender's remote candidates. -/
  | digest
  /-- DIGEST_STALE (R366): A member's newest digest becomes older than 4 × DIGEST_US, and its candidates become ineligible. -/
  | digestStale (i : Fin 12)
  /-- RELAY_WRITE (R369): The master's relayed table write is applied at the member. -/
  | relayWrite
  /-- RELAY_READ (R367): The master reads a member register through the stack. -/
  | relayRead
  /-- STROBE_ARM (R370): A member records ARM and answers once its parts have finished copying. -/
  | strobeArm
  /-- STROBE_COMMIT (R370): A member schedules its swap at T, or swaps at once when late. -/
  | strobeCommit
  /-- STROBE_CANCEL (R370): A member drops its ARM. -/
  | strobeCancel
  /-- STROBE_LEAD_EXPIRE (R370): With an answer missing at STROBE_LEAD_US, the master cancels the stack-wide strobe. -/
  | strobeLeadExpire
  /-- ARM_LAPSE (R370): A member drops its ARM after 2 × STROBE_LEAD_US without COMMIT. -/
  | armLapse
  /-- STACK_SWAP (R370): At fabric time T, the master and every committed member swap their banks. -/
  | stackSwap
  /-- FAULT_REPORT (R372): The master sets the member's bit in STK_FAULTS. -/
  | faultReport
  /-- PSN_MIRROR (R373): The standby master records a mirrored LAST_RX_PSN and tracks MSEQ and FULL. -/
  | psnMirror
  /-- MIRROR_MISS (R373): No answer to a PSN_MIRROR within 20 µs: the master executes anyway and sets STANDBY_STALE. -/
  | mirrorMiss
  /-- HB_MISS (R374): HB_MISS heartbeats are missed, and the standby master sends MASTER_QUERY, or the master clears a silent member from PRESENT. -/
  | hbMiss
  /-- MASTER_QUERY (R374): A member answers OK or BUSY on the loss of the master. -/
  | masterQuery
  /-- TAKEOVER (R374): Members set MASTER_NOW to the new master, and an old master becomes DEPOSED. -/
  | takeover
  /-- MEMBER_SYNC (R375): A starting member's tables have been relayed and strobed, so it joins PRESENT and its ports train. -/
  | memberSync (i : Fin 12)
  /-- MEMBER_READ (R368): In-band command at the master that reads a register of a member. -/
  | memberRead
  /-- MEMBER_WRITE (R368): In-band command at the master that writes a register of a member. -/
  | memberWrite
  /-- GLB_STROBE (R388): A write of the strobe group mask to GLB_STROBE requests a castle strobe. -/
  | glbStrobe (m : Master) (h : Half) (mask : BitVec 64)
  /-- CASTLE_STROBE (R388): In its turn and once copying ends, the strobe swaps every part of its group in one cycle. -/
  | castleStrobe
  /-- RECONF_STOP (R390): GLB_RECONF_CTL STOP stops a port group, lane tile or host port for reconfiguration. -/
  | reconfStop (m : Master) (kind : BitVec 2) (index : BitVec 7)
  /-- RECONF_APPLY (R391): GLB_RECONF_CTL APPLY checks and applies new width, rate or host-port values and restarts the unit. -/
  | reconfApply (m : Master) (kind : BitVec 2) (index : BitVec 7)
  /-- RECONF_RESUME (R391): GLB_RECONF_CTL RESUME restarts a stopped unit unchanged. -/
  | reconfResume (m : Master) (kind : BitVec 2) (index : BitVec 7)
  /-- RECONF_DONE (R390): A reconfiguration action ends within its bound, and BUSY clears. -/
  | reconfDone
  /-- APERTURE_ACCESS (R394): An access to the module-memory aperture reads, or writes where permitted, at BASE plus the offset. -/
  | apertureAccess (m : Master) (off : BitVec 26) (size : BitVec 8) (data : Option (BitVec 64))
  /-- GLB_LOCK_WRITE (R385): Writing 1 to a GLB_LOCK bit locks the RWL fields of its block until reset. -/
  | glbLockWrite (m : Master) (mask : BitVec 4)
  /-- REGISTER_WRITE (R381): A write to a register with no row of its own, applied under its access codes, size and island state. -/
  | registerWrite (m : Who) (off : BitVec 26) (size : BitVec 8) (v : BitVec 64)
  /-- MGMT_PORT_EVENT (R379): A management port link down, hot reset, FLR, D3hot or MGMT_PERST_L affects only its own PCI Express state. -/
  | mgmtPortEvent (e : MgmtEvent)
  /-- BOOT_SEQUENCE (R396): On release, the arbiter verifies an Opening, applies it and releases the mode, or enters Recovery mode. -/
  | bootSequence (recoveryL : Bool) (flash : FlashRun)
  /-- BOOT (R400): SEC command that boots the selected source in Recovery mode. -/
  | boot (m : Master)
  /-- FLASH_WRITE_A (R400): SEC command that verifies the staged image and writes it to flash copy A. -/
  | flashWriteA (m : Master)
  /-- FLASH_WRITE_B (R400): SEC command that verifies the staged image and writes it to flash copy B. -/
  | flashWriteB (m : Master)
  /-- VERIFY_STAGED (R400): SEC command that checks the staged image without applying it. -/
  | verifyStaged (m : Master)
  /-- ENROLL (R420): SEC command that checks an ownership token and writes a new owner record. -/
  | enroll (m : Master)
  /-- CHALLENGE (R422): SEC command that writes 32 random bytes for a debug unlock. -/
  | challenge (m : Master)
  /-- UNLOCK (R422): SEC command that checks a debug token and unlocks its scopes. -/
  | unlock (m : Master)
  /-- ATTEST (R421): SEC command that writes a signed attestation report, using one token. -/
  | attest (m : Master)
  /-- READ_CERT (R416): SEC command that copies the identity certificate into the SEC buffer. -/
  | readCert (m : Master)
  /-- ATTEST_TOKEN (R421): Every 2 s the attestation bucket gains one token, up to 64. -/
  | attestToken
  /-- LOAD_WINDOW_WRITE (R400): A write to the load window fills the selected staging page, or is discarded while a SEC command runs. -/
  | loadWindowWrite (m : Master) (off : BitVec 14) (size : BitVec 8) (v : BitVec 64)
  /-- ERROR_PAIR (R430): An error reaching the collector captures or merges into its class record, starts the clock and schedules a test. -/
  | errorPair (errs : List ErrIn)
  /-- PAIR_BROKEN (R424): An error pair held equal for 8 cycles raises PAIR_BROKEN against its unit. -/
  | pairBroken (unit : BitVec 10)
  /-- FLT_STATUS_CLEAR (R431): Writing 1 to a SET bit clears the class when its cause is gone, and otherwise counts an ignored clear. -/
  | fltStatusClear (m : Master) (mask : BitVec 4)
  /-- FLT_ACK (R432): Writing a class bit to FLT_ACK stops its chess clock and sets ACKED. -/
  | fltAck (m : Master) (mask : BitVec 4)
  /-- FLAG_FALL (R433): A chess clock expires, FELL is set and the class's escalation acts. -/
  | flagFall (c : Fin 4)
  /-- FATAL_AUTO_RESET (R433): RESET_DELAY_MS after Fatal flag fall with FATAL_AUTO_RESET, the power island starts a warm reset. -/
  | fatalAutoReset
  /-- RATE_HIT (R434): A unit's Corrected count in a 1 s window reaches CORR_RATE, and the Corrected clock starts. -/
  | rateHit (unit : BitVec 10)
  /-- INJECT (R435): FLT_INJ START feeds a checker inverted check bits or a held pair, once or continuously. -/
  | inject (m : Master) (unit : BitVec 10) (code : BitVec 16) (kind : BitVec 2) (cont : Bool)
  /-- INJECT_STOP (R435): FLT_INJ START with KIND 3 ends continuous injection. -/
  | injectStop (m : Master) (unit : BitVec 10) (code : BitVec 16)
  /-- TEST_START (R436): A scheduled targeted test starts when its unit may be tested. -/
  | testStart (r : TestRegion)
  /-- TEST_VERDICT (R438): A targeted test ends as transient or lasting, and the verdict is applied or held for the responder. -/
  | testVerdict (r : TestRegion) (pass : TestResult)
  /-- TEST (R440): FLT_CMD action that runs a unit's test now. -/
  | test (m : Master) (unit : BitVec 10)
  /-- RELEASE (R440): FLT_CMD action that returns a held unit to service. -/
  | release (m : Master) (unit : BitVec 10)
  /-- FENCE (R440): FLT_CMD action that fences a unit permanently. -/
  | fence (m : Master) (unit : BitVec 10)
  /-- SPARE (R440): FLT_CMD action that fences a unit and activates a spare. -/
  | spare (m : Master) (unit : BitVec 10)
  /-- UNFENCE (R440): FLT_CMD action that removes a unit's fence-log entry from the next reset. -/
  | unfence (m : Master) (unit : BitVec 10)
  /-- BANK_TEST (R146): A fenced buffer bank that has emptied runs its self-test. -/
  | bankTest (bank : Fin 390) (pass : Bool)
  /-- TABLE_REWRITE (R443): The arbiter rewrites an uncorrectable table entry from its copy and reads it back. -/
  | tableRewrite (off : BitVec 26) (readBackOk spareLeft : Bool)
  /-- ARB_LOCKSTEP (R444): The lockstep pair disagrees, so the processor halts and headless forwarding begins. -/
  | arbLockstep
  /-- ARB_WATCHDOG (R444): The firmware misses the 100 ms watchdog, so the processor halts and headless forwarding begins. -/
  | arbWatchdog
  /-- RESTART (R446): FLT_ARB_CTL.RESTART, or an automatic start, restarts the arbiter's processor. -/
  | restart (m : Master)
  /-- RESTART_DONE (R446): A restart completes and waiting work runs, or it fails and sets RESTART_FAIL. -/
  | restartDone (ok : Bool)
  /-- HEADLESS_LIMIT (R447): 24 h headless raises HEADLESS_LIMIT and applies the Fatal actions at once. -/
  | headlessLimit
  /-- AGEING_READ (R448): Every hour the power island reads its ageing monitors and updates the life predictions. -/
  | ageingRead (k : Fin 26) (nominal lower drift : BitVec 16) (em esr : BitVec 8)
  /-- LIFE_STORE (R448): Every 24 h the life predictions are stored in protected flash. -/
  | lifeStore
  /-- ON_PAIR (R453): A follower applies the offset of a complete pair from its parent by step or slew, and tracks lock. -/
  | onPair (p : Fin 256)
  /-- PARENT_TIMEOUT (R452): No complete pair from the parent for 100 µs loses the parent and enters holdover. -/
  | parentTimeout
  /-- REATTACH (R452): REATTACH_US after a parent loss, the follower may select a parent again. -/
  | reattach
  /-- HOLDOVER_EXPIRE (R454): Holdover lasts HOLDOVER_S, and VALID falls. -/
  | holdoverExpire
  /-- ROLE_CHANGE (R454): A write changing TIM_CFG.ROLE makes the module a source or puts it into holdover as a follower. -/
  | roleChange (m : Master) (source : Bool)
  /-- LOAD (R451): TIM_SET_CTL.LOAD loads TIM_SET.NS on a source and sets VALID. -/
  | load (m : Master)
  /-- ARM (R456): TIM_SET_CTL.ARM makes the load wait for the next PPS_IN edge. -/
  | arm (m : Master)
  /-- PPS_IN (R456): A PPS_IN edge on a source loads the armed time or disciplines the rate, or is counted as bad. -/
  | ppsIn
  /-- PPS_MISSED (R456): No PPS_IN edge within 1.1 s counts TIM_PPS_MISSED. -/
  | ppsMissed
  /-- PPS_OUT (R456): At each whole second of valid fabric time, PPS_OUT rises for 100 ms. -/
  | ppsOut
  /-- TIM_NOW_READ (R466): A read of TIM_NOW returns fabric time and latches the fraction for that master. -/
  | timNowRead (m : Master)
  /-- TAKE (R462): PMON_SNAP_CTL.TAKE copies every counter into the snapshot bank at one time. -/
  | take (m : Master)
  /-- SNAP_PERIOD (R462): At each SNAP_US boundary a periodic snapshot is taken. -/
  | snapPeriod
  /-- SAMPLE_RECORD (R464): A tagged item ends, and one record is written to the sample ring or dropped. -/
  | sampleRecord
  /-- SAMPLER_ENABLE (R465): Enabling a sampler resets WR, RD and SEQ to zero. -/
  | samplerEnable (m : Master) (pkt work : Bool)
  /-- POWER_UP (R471): Input rising through 34 V charges the bulk, ramps the rails and releases the arbiter island. -/
  | powerUp (clkSel : Bool)
  /-- POWER_DOWN (R472): Input falling through 32 V idles transmitters, resets islands and switches off the rails. -/
  | powerDown
  /-- EMERGENCY_SHUTDOWN (R472): Overvoltage, a rail outside ±12 % or a junction above 115 °C runs power-down from step 2. -/
  | emergencyShutdown (cause : ShutdownCause)
  /-- SHUTDOWN_RETRY (R473): 1 s after an emergency shutdown, once cool enough, the module powers up again unless held off. -/
  | shutdownRetry (tjMax : BitVec 8)
  /-- INPUT_RANGE (R468): The input leaves 36 to 75 V, so IN_LOW or IN_HIGH is set and INPUT_RANGE is reported. -/
  | inputRange (vin : BitVec 16)
  /-- RAIL_FAULT (R470): A rail out of tolerance for 10 µs or over its current limit sets FAULT and raises RAIL_FAULT. -/
  | railFault (r : Fin 7)
  /-- OVER_TEMP (R476): A junction above 105 °C raises OVER_TEMP. -/
  | overTemp (k : Fin 26) (tj : BitVec 8)
  /-- TELEMETRY_UPDATE (R474): Every 100 µs PWR_INPUT is updated and energy is accumulated. -/
  | telemetryUpdate (vin iin pin : BitVec 16) (rails : List (BitVec 16 × BitVec 16 × Bool)) (islands : List (BitVec 16 × BitVec 8))
  /-- BUDGET_WINDOW (R475): At the end of a 10 ms window, average power above LIMIT_W sets OVER_BUDGET. -/
  | budgetWindow (avg : BitVec 16)
  /-- REFERENCE_LOSS (R479): Loss of a reference clock is detected and acted on for the fabric, host, management or 25 MHz reference. -/
  | referenceLoss (r : RefClk)
  /-- REFERENCE_RETURN (R479): After the 25 MHz reference has been present for 10 ms, the clocks return to it. -/
  | referenceReturn
  /-- ISLAND_STOP (R480): PWR_ISL_CMD STOP stops an island's clock when permitted. -/
  | islandStop (m : Master) (k : BitVec 5)
  /-- ISLAND_WAKE (R480): PWR_ISL_CMD WAKE starts a stopped island. -/
  | islandWake (m : Master) (k : BitVec 5)
  /-- ISLAND_PARK (R480): PWR_ISL_CMD PARK removes an island's power when permitted. -/
  | islandPark (m : Master) (k : BitVec 5)
  /-- ISLAND_RESET (R481): PWR_ISL_CMD RESET resets an island with its crossings, leaving it running. -/
  | islandReset (m : Master) (k : BitVec 5)
  /-- PG_RESET (R482): PWR_PG_RESET GO resets one port group's link layer, with cause 11. -/
  | pgReset (m : Master) (g : BitVec 7)
  /-- WARM (R485): PWR_RESET_CMD WARM schedules a warm reset 100 µs later and stops taking management requests. -/
  | warm (m : Master)
  /-- WARM_RESET (R484): A warm reset resets every island except the power island and boots an Opening. -/
  | warmReset
  /-- MODULE_RESET (R484): RESET_L low resets every island except the power island and samples RECOVERY_L at release. -/
  | moduleReset
  /-- TAP_RESET (R494): TRST_L low or Test-Logic-Reset returns the test access port to normal operation. -/
  | tapReset
  /-- IDCODE (R498): TAP instruction that selects the 32-bit identification register. -/
  | idcode
  /-- SAMPLE_PRELOAD (R495): TAP instruction that samples or preloads the boundary register. -/
  | samplePreload (cells : BitVec 1794)
  /-- EXTEST (R496): TAP instruction that drives and captures the boundary cells, refused without ALL. -/
  | extest
  /-- CLAMP (R496): TAP instruction that holds the boundary outputs with bypass selected, requiring ALL. -/
  | clamp
  /-- HIGHZ (R496): TAP instruction that floats the outputs, requiring ALL. -/
  | highz
  /-- EXTEST_PULSE (R496): IEEE 1149.6 AC test instruction on isolated lanes. -/
  | extestPulse
  /-- EXTEST_TRAIN (R496): IEEE 1149.6 AC test instruction with pulse trains on isolated lanes. -/
  | extestTrain
  /-- BYPASS (R495): TAP instruction that selects the bypass register. -/
  | bypass
  /-- BASE_WIN_END (R185): At each 10 ms BASE_WIN boundary of fabric time, every connection sets prev_min to cur_min and cur_min to infinity. -/
  | baseWinEnd
  /-- FETCH_GAP_PASSED (R182): When gap(f) ns have passed since the last fetch of a throttled function, fetch is allowed again and a serve left pending resumes. -/
  | fetchGapPassed (f : Fin 512)
  /-- HOST_LINK_UP (R201): An enabled host port's PCI Express link finishes training, LINK_UP rises and its functions become reachable. -/
  | hostLinkUp (p : Fin 4) (gen : BitVec 3) (width : BitVec 5) (flit : Bool)
  /-- VF_ENABLE_SET (R205): A configuration write setting VF Enable creates VFs 1 to NumVFs, or, during a cause-3 teardown, has them created at step 5. -/
  | vfEnableSet (p : Fin 4) (n : BitVec 7)
  /-- REFERENCE_RESTORED (R479): A lost fabric, host-port or management-port reference returns and its PWR_CLK_STAT bit clears. -/
  | referenceRestored (r : RefClk)
  /-- REGISTER_READ (R382): A map read by a master wakes a stopped island, returns all ones from a parked one, or is counted and recorded when misaligned or refused. -/
  | registerRead (m : Who) (off : BitVec 26) (size : BitVec 8)
  /-- SEC_COMMAND_DONE (R423): A running SEC command such as a flash write, verify, enrol or attest ends, SEC_CMD_STAT.BUSY clears and RESULT is set. -/
  | secCommandDone (flash : FlashRun)
  /-- ISLAND_ACTION_DONE (R480): A stop, park or reset of an island ends, the island reaches its new state and PWR_ISL_STAT.BUSY clears. -/
  | islandActionDone
  deriving DecidableEq, Repr

end Sys2Proof
end

