-- ==== Sys2Proof/Machine/Operands.lean ====
section
/-!
DEFINITION. The operand forms of the commands: squares and packets with every field of R45 to R59 at its byte and bit
position, the opcode set (R53), fabric addresses (R61), the CRC (R50), flow hash (R48), origin stamp (R67) and
congestion stamp (R68), and the splitting of messages (R60).
-/
namespace Sys2Proof.Machine

/-- Bytes `off … off + len - 1` of a square as a big-endian number (R7). -/
def sqGet (q : Square) (off len : Nat) : Nat :=
  bitsOf q.toNat (8 * (64 - off - len)) (8 * len)

/-- A square with bytes `off … off + len - 1` replaced by the big-endian number `v`. -/
def sqPut (q : Square) (off len v : Nat) : Square :=
  BitVec.ofNat 512 (setBits q.toNat (8 * (64 - off - len)) (8 * len) v)

/-- A packet (R44): its header square and its payload squares, in order. -/
structure Pkt where
  hdr : Square
  pay : List Square
  deriving DecidableEq, Repr

/-- The number of squares of a packet (R44). -/
def Pkt.squares (p : Pkt) : Nat := 1 + p.pay.length

/-- Header bytes by position. -/
def Pkt.g (p : Pkt) (off len : Nat) : Nat := sqGet p.hdr off len

/-- Replace header bytes by position. -/
def Pkt.u (p : Pkt) (off len v : Nat) : Pkt := { p with hdr := sqPut p.hdr off len v }

/-! Header square (R45). -/
def Pkt.destFa (p : Pkt) : Nat := p.g 0 4
def Pkt.srcFa (p : Pkt) : Nat := p.g 4 4
def Pkt.route (p : Pkt) : Nat := p.g 8 4
def Pkt.opw (p : Pkt) : Nat := p.g 12 4
def Pkt.conn (p : Pkt) : Nat := p.g 16 2
def Pkt.epoch (p : Pkt) : Nat := p.g 18 2
def Pkt.origin (p : Pkt) : Nat := p.g 20 4
def Pkt.psn (p : Pkt) : Nat := p.g 24 4
def Pkt.crc (p : Pkt) : Nat := p.g 28 4

/-! Route word (R46). -/
def Pkt.vl (p : Pkt) : Nat := bitsOf p.route 28 4
def Pkt.stage (p : Pkt) : Nat := bitsOf p.route 26 2
def Pkt.pin (p : Pkt) : Bool := bitOf p.route 25
def Pkt.nonmin (p : Pkt) : Bool := bitOf p.route 24
def Pkt.via (p : Pkt) : Bool := bitOf p.route 23
def Pkt.intGroup (p : Pkt) : Nat := bitsOf p.route 8 14
def Pkt.cstamp (p : Pkt) : Nat := bitsOf p.route 0 8

/-- Replace bits `[lo + w - 1 : lo]` of the route word: the only part of a packet a router changes (R49). -/
def Pkt.setRoute (p : Pkt) (lo w v : Nat) : Pkt := p.u 8 4 (setBits p.route lo w v)

/-! Opcode word (R47). -/
def Pkt.opcode (p : Pkt) : Nat := bitsOf p.opw 24 8
def Pkt.cls (p : Pkt) : Nat := bitsOf p.opw 21 3
def Pkt.ptype (p : Pkt) : Bool := bitOf p.opw 20
def Pkt.nsq (p : Pkt) : Nat := bitsOf p.opw 14 6
def Pkt.open_ (p : Pkt) : Bool := bitOf p.opw 8
def Pkt.retx (p : Pkt) : Bool := bitOf p.opw 9
def Pkt.ackreq (p : Pkt) : Bool := bitOf p.opw 10
def Pkt.event (p : Pkt) : Bool := bitOf p.opw 11
def Pkt.flowHash (p : Pkt) : Nat := bitsOf p.opw 0 8

/-! Message layout (R55). -/
def Pkt.domain (p : Pkt) : Nat := p.g 32 2
def Pkt.srcRank (p : Pkt) : Nat := p.g 36 4
def Pkt.tag (p : Pkt) : Nat := p.g 40 8
def Pkt.msn (p : Pkt) : Nat := p.g 48 4
/-- MOFFSET of a SEND_EAGER, RKEY of an RTS (R55). -/
def Pkt.msgOff (p : Pkt) : Nat := p.g 52 4
def Pkt.msgLen (p : Pkt) : Nat := p.g 56 4

/-! RMA layout (R56). -/
def Pkt.raddr (p : Pkt) : Nat := p.g 32 8
def Pkt.rkey (p : Pkt) : Nat := p.g 40 4
def Pkt.actl (p : Pkt) : Nat := p.g 44 4
def Pkt.moffset (p : Pkt) : Nat := p.g 48 4
def Pkt.mlen (p : Pkt) : Nat := p.g 52 4
def Pkt.operandB (p : Pkt) : Nat := p.g 48 8
def Pkt.operandA (p : Pkt) : Nat := p.g 56 8
def Pkt.imm (p : Pkt) : Nat := p.g 56 8
/-- RESULT [127:0] of an ATOMIC_RESULT (R56). -/
def Pkt.result (p : Pkt) : Nat := p.g 48 16

/-! Ack layout (R58). -/
def Pkt.echoOrigin (p : Pkt) : Nat := p.g 32 4
def Pkt.echoCstamp (p : Pkt) : Nat := p.g 36 1
def Pkt.ackCode (p : Pkt) : Nat := p.g 37 1
def Pkt.retryUs (p : Pkt) : Nat := p.g 38 2

/-! Grant, Lock, Collective, Management and Probe layouts (R59). -/
def Pkt.mref (p : Pkt) : Nat := p.g 32 4
def Pkt.gval (p : Pkt) : Nat := p.g 36 4
def Pkt.lockGroup (p : Pkt) : Nat := p.g 32 1
def Pkt.lockWord (p : Pkt) : Nat := p.g 33 1
def Pkt.lop (p : Pkt) : Nat := p.g 34 1
def Pkt.lockStatus (p : Pkt) : Nat := p.g 35 1
def Pkt.lockOrphan (p : Pkt) : Nat := p.g 36 1
def Pkt.lockCompare (p : Pkt) : Nat := p.g 40 8
def Pkt.lockSwap (p : Pkt) : Nat := p.g 48 8
def Pkt.reqId (p : Pkt) : Nat := p.g 56 4
def Pkt.tree (p : Pkt) : Nat := p.g 32 2
def Pkt.opseq (p : Pkt) : Nat := p.g 34 2
def Pkt.opmode (p : Pkt) : Nat := p.g 36 1
def Pkt.ctype (p : Pkt) : Nat := p.g 37 1
def Pkt.ckind (p : Pkt) : Nat := p.g 38 1
def Pkt.cstatus (p : Pkt) : Nat := p.g 39 1
def Pkt.chunk (p : Pkt) : Nat := p.g 40 4
def Pkt.nchunk (p : Pkt) : Nat := p.g 44 4
def Pkt.contrib (p : Pkt) : Nat := p.g 48 4
def Pkt.ctl (p : Pkt) : Nat := p.g 52 1
def Pkt.keyId (p : Pkt) : Nat := p.g 32 2
def Pkt.cmd (p : Pkt) : Nat := p.g 34 2
def Pkt.len (p : Pkt) : Nat := p.g 36 4
def Pkt.arg (p : Pkt) : Nat := p.g 40 8
def Pkt.gmac (p : Pkt) : Nat := p.g 48 16
def Pkt.probeId (p : Pkt) : Nat := p.g 32 8
def Pkt.txTime (p : Pkt) : Nat := p.g 40 8
def Pkt.rxTime (p : Pkt) : Nat := p.g 48 8

/-! The message classes (R52). -/
def clsRequest : Nat := 0
def clsForward : Nat := 1
def clsReply : Nat := 2
def clsCollective : Nat := 3
def clsManagement : Nat := 4
def clsProbe : Nat := 5

/-- The VL that class, stage and opcode direction fix (R52). -/
def vlOf (cls stage opcode : Nat) : Nat :=
  match cls with
  | 0 => 1 + stage
  | 1 => 5 + stage
  | 2 => 9 + stage
  | 3 => if opcode % 2 = 0 then 13 else 14
  | 4 => 0
  | _ => 15

/-- Which packet types an opcode may have (R53). -/
inductive OpType where
  | control | data | either
  deriving DecidableEq, Repr

/-- The defined opcodes and their types (R53). -/
def opType : Nat → Option OpType
  | 0x01 => some .either | 0x02 => some .control | 0x03 => some .either | 0x04 => some .control
  | 0x05 => some .either | 0x06 => some .control | 0x07 => some .control | 0x08 => some .control
  | 0x09 => some .control | 0x0A => some .either | 0x20 => some .control | 0x21 => some .control
  | 0x40 => some .control | 0x41 => some .data | 0x42 => some .either | 0x43 => some .control
  | 0x44 => some .control | 0x45 => some .control | 0x46 => some .control | 0x47 => some .control
  | 0x48 => some .either | 0x60 => some .data | 0x61 => some .data | 0x62 => some .control
  | 0x63 => some .control | 0x80 => some .either | 0x81 => some .either | 0xA0 => some .control
  | 0xA1 => some .control | _ => none

/-- PTYPE is allowed for the opcode (R53, R54 condition 2). -/
def typeOk (opcode : Nat) (data : Bool) : Bool :=
  match opType opcode with
  | some .either => true
  | some .control => !data
  | some .data => data
  | none => false

/-! Fabric addresses (R61). -/
def faModule (fa : Nat) : Nat := bitsOf fa 14 18
def faSvc (fa : Nat) : Bool := bitOf fa 13
def faHport (fa : Nat) : Nat := bitsOf fa 11 2
def faFunc (fa : Nat) : Nat := bitsOf fa 4 7
def faService (fa : Nat) : Nat := bitsOf fa 0 13

/-- An FA is structurally valid (R61). -/
def faValid (fa : Nat) : Bool :=
  if faSvc fa then decide (faService fa ≤ 3) || (decide (0x100 ≤ faService fa) && decide (faService fa ≤ 0x1FFF))
  else bitsOf fa 0 4 == 0

/-- The FA of a host function, numbered 128 × host port + function (R61). -/
def faOfFn (module f : Nat) : Nat := module * 0x4000 + (f / 128) * 0x800 + (f % 128) * 0x10

/-- The FA of a service of a module (R61). -/
def faOfSvc (module service : Nat) : Nat := module * 0x4000 + 0x2000 + service

/-- The module-wide number of the function an FA names (R61, R200). -/
def faFn (fa : Nat) : Nat := 128 * faHport fa + faFunc fa

/-- The header conditions 1 to 5 of R54; `count` is the number of squares the link layer marked for the packet. -/
def headerOk (p : Pkt) (count : Nat) : Bool :=
  decide (p.opcode / 32 = p.cls) && typeOk p.opcode p.ptype && (p.ptype || p.nsq == 0) &&
  decide (p.vl = vlOf p.cls p.stage p.opcode) && (decide (p.cls < 3) || p.stage == 0) &&
  faValid p.destFa && faValid p.srcFa &&
  decide (count = if p.ptype then p.nsq + 2 else 1)

/-! CRC-32 of IEEE 802.3 (R50). -/
def crcBit (c : Nat) : Nat := if c % 2 = 1 then (c / 2) ^^^ 0xEDB88320 else c / 2

/-- One byte into the reflected CRC register. -/
def crcByte (c b : Nat) : Nat :=
  crcBit (crcBit (crcBit (crcBit (crcBit (crcBit (crcBit (crcBit (c ^^^ b))))))))

/-- CRC-32 of a list of bytes: initial value and final complement as R50 gives. -/
def crc32 (bs : List Nat) : Nat := (bs.foldl crcByte 0xFFFFFFFF) ^^^ 0xFFFFFFFF

/-- The bytes of a number, most significant first. -/
def bytesBE (v len : Nat) : List Nat := (List.range len).map (fun i => bitsOf v (8 * (len - 1 - i)) 8)

/-- Bytes `off … off + len - 1` of a square, in transmission order. -/
def sqBytes (q : Square) (off len : Nat) : List Nat := bytesBE (sqGet q off len) len

/-- The end-to-end CRC of a packet: header bytes 0–7, 12–27 and 32–63, then every payload byte (R50). -/
def pktCrc (p : Pkt) : Nat :=
  crc32 (sqBytes p.hdr 0 8 ++ sqBytes p.hdr 12 16 ++ sqBytes p.hdr 32 32 ++
    p.pay.flatMap (fun q => sqBytes q 0 64))

/-- The consumer's CRC check (R51). -/
def crcOk (p : Pkt) : Bool := decide (p.crc = pktCrc p)

/-- FLOW_HASH: the low 8 bits of the CRC-32 over SRC_FA, DEST_FA and CONN (R48). -/
def flowHash (src dst conn : Nat) : Nat :=
  crc32 (bytesBE src 4 ++ bytesBE dst 4 ++ bytesBE conn 2) % 256

/-- What a builder puts in bytes 0 to 27 of a header square. ORIGIN is written at the hand-over (R67). -/
structure HdrSpec where
  dest : Nat
  src : Nat
  opcode : Nat
  pin : Bool := false
  conn : Nat := 0
  epoch : Nat := 0
  psn : Nat := 0
  open_ : Bool := false
  retx : Bool := false
  ackreq : Bool := false
  event : Bool := false
  deriving DecidableEq, Repr

/-- The FLOW_HASH a builder writes: zero in the Collective, Management and Probe classes (R48). -/
def builderHash (h : HdrSpec) : Nat := if h.opcode < 0x60 then flowHash h.src h.dest h.conn else 0

/-- Build a packet (R45 to R48): stage 0, the VL of R52, CSTAMP zero (R68); `area` is the opcode area as a square whose
bytes 32–63 are used; `pay` are the payload squares. The CRC is written last by `seal`. -/
def mkPkt (h : HdrSpec) (area : Square) (pay : List Square) : Pkt :=
  let cls := h.opcode / 32
  let route := vlOf cls 0 h.opcode * 2 ^ 28 + b2n h.pin * 2 ^ 25
  let nsq := if pay.isEmpty then 0 else pay.length - 1
  let opw := h.opcode * 2 ^ 24 + cls * 2 ^ 21 + b2n (!pay.isEmpty) * 2 ^ 20 + nsq * 2 ^ 14 +
    b2n h.event * 2 ^ 11 + b2n h.ackreq * 2 ^ 10 + b2n h.retx * 2 ^ 9 + b2n h.open_ * 2 ^ 8 + builderHash h
  let q := BitVec.ofNat 512 (bitsOf area.toNat 0 256)
  let q := sqPut q 0 4 h.dest
  let q := sqPut q 4 4 h.src
  let q := sqPut q 8 4 route
  let q := sqPut q 12 4 opw
  let q := sqPut q 16 2 h.conn
  let q := sqPut q 18 2 h.epoch
  let q := sqPut q 24 4 h.psn
  { hdr := q, pay := pay }

/-- An opcode area from (byte position, length, value) triples; the other bytes are zero (R8). -/
def mkArea (l : List (Nat × Nat × Nat)) : Square :=
  l.foldl (fun q (o, n, v) => sqPut q o n v) 0

/-- Write ORIGIN (R67) and then the CRC (R50). -/
def Pkt.seal (p : Pkt) (origin : Nat) : Pkt :=
  let p := p.u 20 4 (origin % 2 ^ 32)
  p.u 28 4 (pktCrc p)

/-- ORIGIN of a fabric time in ns: bits [37:6] (R67). -/
def originOf (ns : Nat) : Nat := bitsOf ns 6 32

/-- A packet's age in ns at fabric time `ns` (R67). -/
def ageOf (ns origin : Nat) : Nat := ((originOf ns + 2 ^ 32 - origin) % 2 ^ 32) * 64

/-- The largest `e ≥ 1` with 128 · 2^(e-1) ≤ d, up to 16 (the loop of R68). -/
def cstampExp (d : Nat) : Nat → Nat → Nat
  | 0, e => e
  | fuel + 1, e => if e < 16 ∧ 128 * 2 ^ e ≤ d then cstampExp d fuel (e + 1) else e

/-- The congestion stamp code of a queueing delay in ns: `encode` of R68. -/
def cstampEncode (d : Nat) : Nat :=
  if d < 128 then d / 8
  else
    let e := cstampExp d 16 1
    if e = 16 then 0xFF else 16 * e + (d / (8 * 2 ^ (e - 1)) - 16)

/-- The delay in ns a congestion stamp code stands for (R68). -/
def cstampDecode (c : Nat) : Nat :=
  let e := c / 16
  let m := c % 16
  if e = 0 then m * 8 else (16 + m) * 2 ^ (e - 1) * 8

/-! Messages in packets (R60). -/

/-- The number of packets of an `n`-byte message. -/
def pktCount (n : Nat) : Nat := if n = 0 then 1 else (n + 4095) / 4096

/-- L of the packet at index `k` of an `mlen`-byte message. -/
def pktLen (mlen k : Nat) : Nat := min 4096 (mlen - 4096 * k)

/-- The payload squares that `bytes` bytes take. -/
def squaresFor (bytes : Nat) : Nat := (bytes + 63) / 64

/-- A packet's MOFFSET is a multiple of 4,096 and its squares are those of its L (R60). -/
def splitOk (moffset mlen : Nat) (p : Pkt) : Bool :=
  decide (moffset % 4096 = 0) && (decide (moffset < mlen) || (mlen == 0 && moffset == 0)) &&
  decide (p.pay.length = squaresFor (min 4096 (mlen - moffset)))

/-- Bytes of a payload as one little-endian number of `len` bytes (host memory order, R7). -/
def payBytes (p : Pkt) : List Nat := p.pay.flatMap (fun q => sqBytes q 0 64)

/-- A list of bytes as a little-endian number. -/
def leOf : List Nat → Nat
  | [] => 0
  | b :: bs => b + 256 * leOf bs

/-- The `len` bytes of a number, least significant first. -/
def bytesLE (v len : Nat) : List Nat := (List.range len).map (fun i => bitsOf v (8 * i) 8)

/-- A square from at most 64 bytes, byte 0 first, zero filled (R44). -/
def sqOfBytes (bs : List Nat) : Square :=
  BitVec.ofNat 512 ((bs.take 64).foldl (fun a b => a * 256 + b % 256) 0 * 256 ^ (64 - (bs.take 64).length))

/-- Split bytes into squares, the last one zero filled; at most 64 squares (R44). -/
def toSquares : Nat → List Nat → List Square
  | 0, _ => []
  | n + 1, bs => if bs.isEmpty then [] else sqOfBytes (bs.take 64) :: toSquares n (bs.drop 64)

/-- Signed reading of a `w`-bit number. -/
def signedOf (w v : Nat) : Int := if v < 2 ^ (w - 1) then (v : Int) else (v : Int) - 2 ^ w

/-- A `w`-bit two's complement code of an integer. -/
def unsignedOf (w : Nat) (i : Int) : Nat := (i % (2 ^ w : Int)).toNat

end Sys2Proof.Machine
end

