-- ==== Sys2Proof/Machine/Arith.lean ====
section
/-!
DEFINITION. Arithmetic of the collective formats (R59, R336 to R340) and of the fp64 atomic (R275), computed exactly on
integers and rounded once.
-/
namespace Sys2Proof.Machine

/-- A floating format: exponent bits, fraction bits, bias, and whether it is E4M3, which has no infinity. -/
structure Fmt where
  eb : Nat
  mb : Nat
  bias : Nat
  e4m3 : Bool := false
  deriving DecidableEq, Repr

/-- The format of a floating TYPE (R59). -/
def fmtOf : Nat → Fmt
  | 4 => { eb := 4, mb := 3, bias := 7, e4m3 := true }
  | 5 => { eb := 5, mb := 2, bias := 15 }
  | 6 => { eb := 5, mb := 10, bias := 15 }
  | 7 => { eb := 8, mb := 7, bias := 127 }
  | 8 => { eb := 8, mb := 23, bias := 127 }
  | _ => { eb := 11, mb := 52, bias := 1023 }

namespace Fmt

def width (f : Fmt) : Nat := 1 + f.eb + f.mb
def sign (f : Fmt) (v : Nat) : Bool := bitOf v (f.eb + f.mb)
def expo (f : Fmt) (v : Nat) : Nat := bitsOf v f.mb f.eb
def frac (f : Fmt) (v : Nat) : Nat := bitsOf v 0 f.mb
def magn (f : Fmt) (v : Nat) : Nat := bitsOf v 0 (f.eb + f.mb)
def isNaN (f : Fmt) (v : Nat) : Bool :=
  if f.e4m3 then f.magn v == 0x7F else f.expo v == 2 ^ f.eb - 1 && f.frac v != 0
def isInf (f : Fmt) (v : Nat) : Bool := !f.e4m3 && f.expo v == 2 ^ f.eb - 1 && f.frac v == 0
/-- The canonical quiet NaN (R336). -/
def qNaN (f : Fmt) : Nat := if f.e4m3 then 0x7F else (2 ^ f.eb - 1) * 2 ^ f.mb + 2 ^ (f.mb - 1)
def inf (f : Fmt) (neg : Bool) : Nat := b2n neg * 2 ^ (f.eb + f.mb) + (2 ^ f.eb - 1) * 2 ^ f.mb
/-- What an overflow gives: infinity, or 448 in E4M3. -/
def maxOut (f : Fmt) (neg : Bool) : Nat := if f.e4m3 then b2n neg * 0x80 + 0x7E else f.inf neg

/-- Significand of a finite value, and the power of two it is scaled by above the least one, 2^(1 − bias − mb). -/
def sig (f : Fmt) (v : Nat) : Nat := if f.expo v = 0 then f.frac v else 2 ^ f.mb + f.frac v
def scale (f : Fmt) (v : Nat) : Nat := f.expo v - 1
/-- A finite value as an integer multiple of 2^(1 − bias − mb). -/
def units (f : Fmt) (v : Nat) : Int :=
  let n : Int := (f.sig v * 2 ^ f.scale v : Nat)
  if f.sign v then -n else n

/-- n · 2^t rounded to an integer, to nearest with ties to even. -/
def rne (n : Nat) (t : Int) : Nat :=
  if 0 ≤ t then n * 2 ^ t.toNat
  else
    let k := (-t).toNat
    let q := n / 2 ^ k
    let r := n % 2 ^ k
    if 2 ^ (k - 1) < r ∨ (r = 2 ^ (k - 1) ∧ q % 2 = 1) then q + 1 else q

/-- Round ±n · 2^d least units once into the format; whether it overflowed. -/
def round (f : Fmt) (neg : Bool) (n : Nat) (d : Int) : Nat × Bool :=
  if n = 0 then (b2n neg * 2 ^ (f.eb + f.mb), false)
  else
    let top : Int := (Nat.log2 n : Int) + d
    let sh := if top ≤ (f.mb : Int) then 0 else (top - (f.mb : Int)).toNat
    let m := rne n (d - (sh : Int))
    let (m, sh) := if m = 2 ^ (f.mb + 1) then (2 ^ f.mb, sh + 1) else (m, sh)
    let ex := if m < 2 ^ f.mb then 0 else sh + 1
    let fr := m % 2 ^ f.mb
    let big := if f.e4m3 then decide (15 < ex) || (ex == 15 && fr == 7) else decide (2 ^ f.eb - 1 ≤ ex)
    if big then (f.maxOut neg, true) else (b2n neg * 2 ^ (f.eb + f.mb) + ex * 2 ^ f.mb + fr, false)

/-- Sum of two elements (R336): the result and whether a sum of finite operands overflowed. -/
def add (f : Fmt) (a b : Nat) : Nat × Bool :=
  if f.isNaN a || f.isNaN b then (f.qNaN, false)
  else if f.isInf a then (if f.isInf b && f.sign a != f.sign b then (f.qNaN, false) else (f.inf (f.sign a), false))
  else if f.isInf b then (f.inf (f.sign b), false)
  else
    let z := f.units a + f.units b
    if z = 0 then (b2n (f.sign a && f.sign b) * 2 ^ (f.eb + f.mb), false) else f.round (decide (z < 0)) z.natAbs 0

/-- Numeric order with −0 below +0, as an integer. -/
def order (f : Fmt) (v : Nat) : Int := if f.sign v then -(f.magn v : Int) - 1 else (f.magn v : Int)

end Fmt

/-- The STATUS flags of R59: NaN 1, infinity 2, saturation 4. -/
def floatFlags (f : Fmt) (a b r : Nat) (sat : Bool) : Nat :=
  b2n (f.isNaN a || f.isNaN b || f.isNaN r) + 2 * b2n (f.isInf a || f.isInf b) + 4 * b2n sat

/-- Combine one element pair natively (R336): operator, TYPE; result and flags. -/
def combineElem (oper ty a b : Nat) : Nat × Nat :=
  let w := match ty with | 0 => 32 | 1 => 64 | 2 => 32 | 3 => 64 | _ => (fmtOf ty).width
  let signed := ty ≤ 1
  let num := fun (v : Nat) => if signed then signedOf w v else (v : Int)
  if oper = 3 then (a &&& b, 0)
  else if oper = 4 then (a ||| b, 0)
  else if oper = 5 then (a ^^^ b, 0)
  else if ty < 4 then
    if oper = 0 then ((a + b) % 2 ^ w, 0)
    else if oper = 1 then (if num a ≤ num b then a else b, 0)
    else (if num a ≤ num b then b else a, 0)
  else
    let f := fmtOf ty
    if oper = 0 then
      let (r, sat) := f.add a b
      (r, floatFlags f a b r sat)
    else
      let r := if f.isNaN a || f.isNaN b then f.qNaN
        else if oper = 1 then (if f.order a ≤ f.order b then a else b)
        else (if f.order a ≤ f.order b then b else a)
      (r, floatFlags f a b r false)

/-! Anchored mode (R338 to R340). -/

/-- P of a floating TYPE: W − 22 (R339). -/
def anchP (ty : Nat) : Nat := match ty with | 8 => 74 | 9 => 106 | _ => 42
/-- W of a floating TYPE in bits. -/
def anchW (ty : Nat) : Nat := match ty with | 8 => 96 | 9 => 128 | _ => 64

/-- The special code of an element (R338). -/
def specialCode (f : Fmt) (v : Nat) : Nat := if f.isNaN v then 3 else if f.isInf v then (if f.sign v then 2 else 1) else 0

/-- Exponent of a finite element that is not zero (R338). -/
def elemExp (f : Fmt) (v : Nat) : Int := (max 1 (f.expo v) : Nat) - (f.bias : Int)

/-- The anchor of a block (R338): the largest exponent, 0x8000 for a block of zeros and specials. -/
def blockAnchor (f : Fmt) (l : List Nat) : Nat :=
  match (l.filter (fun v => specialCode f v == 0 && f.magn v != 0)).map (elemExp f) with
  | [] => 0x8000
  | e :: es => unsignedOf 16 (es.foldl max e)

/-- The special map of a block. -/
def blockMap (f : Fmt) (l : List Nat) : Nat :=
  (l.zipIdx).foldl (fun a x => a ||| specialCode f x.1 * 2 ^ (2 * x.2)) 0

/-- The W-bit integer of an element (R339), and whether it saturated. -/
def anchElem (ty anchor v : Nat) : Nat × Bool :=
  let f := fmtOf ty
  if f.magn v = 0 ∨ specialCode f v ≠ 0 ∨ anchor = 0x8000 then (0, false)
  else
    let p := anchP ty
    let t : Int := (p : Int) - signedOf 16 anchor + (f.scale v : Int) + (1 - (f.bias : Int) - (f.mb : Int))
    let x := if 0 ≤ t then f.sig v * 2 ^ t.toNat else f.sig v / 2 ^ (-t).toNat
    let (x, sat) := if 2 ^ (p + 1) ≤ x then (2 ^ (p + 1) - 1, true) else (x, false)
    (unsignedOf (anchW ty) (if f.sign v then -(x : Int) else (x : Int)), sat)

/-- The result element of an integer sum (R340) and its flags. -/
def anchResult (ty anchor code sum : Nat) : Nat × Nat :=
  let f := fmtOf ty
  if code = 3 then (f.qNaN, 1)
  else if code = 1 then (f.inf false, 2)
  else if code = 2 then (f.inf true, 2)
  else
    let z := signedOf (anchW ty) sum
    if z = 0 then (0, 0)
    else
      let d : Int := signedOf 16 anchor - (anchP ty : Int) - (1 - (f.bias : Int) - (f.mb : Int))
      let (r, sat) := f.round (decide (z < 0)) z.natAbs d
      (r, 4 * b2n sat)

/-- binary64 addition (R275). -/
def fp64Add (a b : Nat) : Nat := ((fmtOf 9).add a b).1
def fp64NaN (v : Nat) : Bool := (fmtOf 9).isNaN v

end Sys2Proof.Machine
end

