-- ==== Sys2Proof/Machine/Gmac.lean ====
section
/-!
DEFINITION. The tag of in-band management (R194): AES-256-GMAC of NIST SP 800-38D over the header bytes and the payload. The
block cipher is AES-256 of FIPS 197.
-/
namespace Sys2Proof.Machine

/-! AES-256 (FIPS 197). A column of the state, and a word of the key schedule, is a 32-bit number whose first byte is the most
significant. -/

/-- The substitution box, entry 0 most significant. -/
def aesBox : Nat :=
  0x637C777BF26B6FC53001672BFED7AB76CA82C97DFA5947F0ADD4A2AF9CA472C0B7FD9326363FF7CC34A5E5F171D8311504C723C31896059A071280E2EB27B27509832C1A1B6E5AA0523BD6B329E32F8453D100ED20FCB15B6ACBBE394A4C58CFD0EFAAFB434D338545F9027F503C9FA851A3408F929D38F5BCB6DA2110FFF3D2CD0C13EC5F974417C4A77E3D645D197360814FDC222A908846EEB814DE5E0BDBE0323A0A4906245CC2D3AC629195E479E7C8376D8DD54EA96C56F4EA657AAE08BA78252E1CA6B4C6E8DD741F4BBD8B8A703EB5664803F60E613557B986C11D9EE1F8981169D98E949B1E87E9CE5528DF8CA1890DBFE6426841992D0FB054BB16

def aesSub (b : Nat) : Nat := bitsOf aesBox (8 * (255 - b)) 8

/-- Byte r of a word. -/
def wordByte (w r : Nat) : Nat := bitsOf w (8 * (3 - r)) 8

/-- The word of four bytes. -/
def wordOf (f : Nat → Nat) : Nat := f 0 * 2 ^ 24 + f 1 * 2 ^ 16 + f 2 * 2 ^ 8 + f 3

/-- The key schedule after n more words, newest first. -/
def aesExpand : Nat → List Nat → List Nat
  | 0, ws => ws
  | n + 1, ws =>
    let i := ws.length
    let t := ws.headD 0
    let t := if i % 8 = 0 then wordOf (fun r => aesSub (wordByte t ((r + 1) % 4))) ^^^ (2 ^ (i / 8 - 1) * 2 ^ 24)
      else if i % 8 = 4 then wordOf (fun r => aesSub (wordByte t r)) else t
    aesExpand n ((ws.getD 7 0 ^^^ t) :: ws)

/-- The 60 words of the schedule of a 256-bit key, in order. -/
def aesKeys (key : Nat) : List Nat := (aesExpand 52 ((List.range 8).map (fun i => bitsOf key (32 * i) 32))).reverse

/-- Multiplication by x in GF(2⁸). -/
def aesX (b : Nat) : Nat := if b < 128 then 2 * b else (2 * b) ^^^ 0x11B

/-- MixColumns of one column. -/
def aesMix (w : Nat) : Nat :=
  wordOf (fun r =>
    let a := wordByte w r
    let b := wordByte w ((r + 1) % 4)
    aesX a ^^^ aesX b ^^^ b ^^^ wordByte w ((r + 2) % 4) ^^^ wordByte w ((r + 3) % 4))

/-- SubBytes and ShiftRows of a state of four columns. -/
def aesShift (st : List Nat) : List Nat :=
  (List.range 4).map (fun c => wordOf (fun r => aesSub (wordByte (st.getD ((c + r) % 4) 0) r)))

/-- AddRoundKey of round i. -/
def aesAdd (keys : List Nat) (i : Nat) (st : List Nat) : List Nat := List.zipWith (· ^^^ ·) st ((keys.drop (4 * i)).take 4)

/-- Encryption of a 128-bit block under a 256-bit key. -/
def aes256 (key block : Nat) : Nat :=
  let keys := aesKeys key
  let st := aesAdd keys 0 ((List.range 4).map (fun c => bitsOf block (32 * (3 - c)) 32))
  let st := (List.range 13).foldl (fun st i => aesAdd keys (i + 1) ((aesShift st).map aesMix)) st
  (aesAdd keys 14 (aesShift st)).foldl (fun a w => a * 2 ^ 32 + w) 0 % 2 ^ 128

/-- One step of the GF(2¹²⁸) product: the bits of `x` left, the running product and the shifted operand. -/
def gfStep (x : Nat) : Nat → Nat → Nat → Nat
  | 0, z, _ => z
  | n + 1, z, v =>
    let z := if bitOf x n then z ^^^ v else z
    let v := if bitOf v 0 then (v / 2) ^^^ (0xE1 * 2 ^ 120) else v / 2
    gfStep x n z v

/-- Product in GF(2¹²⁸) in the bit order of GCM. -/
def gfMul (x y : Nat) : Nat := gfStep x 128 0 y

/-- GHASH of 16-byte blocks. -/
def ghash (h : Nat) (blocks : List Nat) : Nat := blocks.foldl (fun y b => gfMul (y ^^^ b) h) 0

/-- Bytes as 16-byte blocks, the last one zero filled. -/
def blocksOf : Nat → List Nat → List Nat
  | 0, _ => []
  | n + 1, bs =>
    if bs.isEmpty then []
    else
      let b := bs.take 16
      (b.foldl (fun a x => a * 256 + x) 0 * 256 ^ (16 - b.length)) :: blocksOf n (bs.drop 16)

/-- The tag of GMAC: key, 96-bit IV, additional data. -/
def gmacTag (key iv : Nat) (aad : List Nat) : Nat :=
  let e := aes256 key
  let h := e 0
  let s := ghash h (blocksOf (aad.length / 16 + 1) aad ++ [aad.length * 8 * 2 ^ 64])
  s ^^^ e (iv * 2 ^ 32 + 1)

/-- The tag a management packet must carry under a key (R194). -/
def pktTag (key : Nat) (p : Pkt) : Nat :=
  gmacTag key (p.srcFa * 2 ^ 64 + p.origin * 2 ^ 32 + p.psn)
    (sqBytes p.hdr 0 8 ++ sqBytes p.hdr 12 16 ++ sqBytes p.hdr 32 16 ++ p.pay.flatMap (fun q => sqBytes q 0 64))

/-- Write ORIGIN, the tag and then the CRC of a management packet (R67, R194). -/
def Pkt.sealMgmt (p : Pkt) (key origin : Nat) : Pkt :=
  let p := p.u 20 4 (origin % 2 ^ 32)
  let p := p.u 48 16 (pktTag key p)
  p.u 28 4 (pktCrc p)

end Sys2Proof.Machine
end

