-- ==== Sys2Proof/Config.lean ====
section
/-!
DEFINITION. What the spec leaves to the part: values it does not state. Each is an opaque constant with no body, so that
no proof can see what it is (log entries 3 to 6).
-/
namespace Sys2Proof

/-- The n-th 32-bit value of the switch core's random generator (R167), and of every other random draw of the module
that the spec leaves unspecified: free values. -/
opaque Config.rand32 : Nat → BitVec 32

/-- The n-th 256-bit value of the arbiter's entropy source: the challenge of R422. A free value. -/
opaque Config.entropy : Nat → BitVec 256

/-- The n-th value of an unstated result of ordinary data (a corner of an arithmetic format, a moment the spec does not
fix). A free value. -/
opaque Config.freeWord : Nat → BitVec 64

/-- The fused device secret from which the keys of the device identity are derived (R416), and what R416 leaves open of the KDF's input: bytes
that the counter and the length take, less one, and the context. Free values. -/
opaque Config.deviceSecret : BitVec 256
opaque Config.kdfCounter : Fin 4
opaque Config.kdfLength : Fin 8
opaque Config.kdfContext : List Nat

/-- The per-message number of an ECDSA signature of the device identity, by the leaf index of its report (R421). A free value. -/
opaque Config.idNonce : Nat → BitVec 384

/-- What the part makes of the seed of the device identity's HSS key (R416, R417), the way to whose leaves no rule gives: the public key, and
the signature with a leaf index over a message. Free values. -/
opaque Config.idHssKey : List Nat → List Nat
opaque Config.idHss : List Nat → Nat → List Nat → List Nat

/-- The issuer's signatures of the device identity certificate, as protected flash holds them (R403, R416). Free values. -/
opaque Config.idCert : List Nat

/-- The SHA-384 hashes of the fused vendor roots (R415): root number to (ECDSA hash, HSS hash). -/
opaque Config.vendorRoot : Nat → BitVec 384 × BitVec 384

/-- What the power-on fuses hold (R395, R418): identity, stepping letter, stepping digit, variant (0 H4, 1 S0),
the 128-bit
thermometer of the SVN, revocation bits. -/
opaque Config.fuseIdentity : BitVec 64
opaque Config.fuseStepLet : BitVec 4
opaque Config.fuseStepNum : BitVec 4
opaque Config.fuseVariant : Bool
opaque Config.fuseRevoked : BitVec 2
opaque Config.fuseSvn : BitVec 128

/-- What no digest says of another stack member (R363, R366): 1,792 divided by width times lane rate of its port p, and
the stack port by which spine i leads toward member j. Free values. -/
opaque Config.remoteSlots : Nat → Nat → Nat
opaque Config.spinePort : Nat → Nat → Nat

/-- The module of a tree's root, by tree number, as a module that is not the root names it before anything has come down the tree (R62). A
free value. -/
opaque Config.rootModule : Nat → BitVec 18

/-- Bit errors that the line gives the pattern checker of a lane in the nanosecond that begins at a local time (R92), as far as it can
carry them. Free values. -/
opaque Config.lineErrors : Nat → Nat → BitVec 64

/-- The state from which a lane's pattern generator begins, which R92 does not give. A free value. -/
opaque Config.patSeed : Nat → BitVec 31

/-- The choices of the buffer's write allocator among the banks and squares that R127 admits, by their number. Free values. -/
opaque Config.pickSquare : Nat → Nat

/-- Header squares that an input queue of the engine complex holds (R21); a queue holds at least one. A free value. -/
opaque Config.engQueue : Nat

/-- Where the capability after a capability of a function's configuration space lies, by the function's kind (0 PF, 1 VF, 2 management
port) and the capability's place in R202's table; for place 0, where the first one lies. Free values. -/
opaque Config.capNext : Nat → Nat → BitVec 12

/-- The fault code of the Corrected fault of a forgone takeover, which no rule names (R373). A free value. -/
opaque Config.takeoverCode : BitVec 16

/-- The ROM identity and every non-secret fuse as the part lays them out to be measured, by the thermometer of the SVN, which alone changes in
service (R418, R419). Free values. -/
opaque Config.romFuses : BitVec 128 → List Nat

/-- Spare rows of the HBM3E stack, whose number no rule gives (R442); the address in module memory of the first byte of the context of the
connection with a given key, and how many more bytes it has; the pseudo-channel to which a remapping, by its number, takes a block; what a
word of module memory whose contents are lost holds, by the draw and the word. Free values. -/
opaque Config.memSpareRows : Nat
opaque Config.ctxAt : Nat → BitVec 35
opaque Config.ctxBytes : BitVec 12
opaque Config.remapChannel : Nat → Nat → Nat
opaque Config.lostWord : Nat → Nat → BitVec 64

/-- Whether the entry of the connection cache that an uncorrectable error hits holds a modified context, by the draw (R428). Free values. -/
opaque Config.ctxModified : Nat → Bool

end Sys2Proof
end

