-- ==== Sys2Proof/Machine/LineCode.lean ====
section
/-!
DEFINITION. The line coding of a logical port (R72 to R80, R92): PAM4 levels, the scrambler, RS(544,514) over GF(2¹⁰), precoding, run
breaking, the comma block, and the test patterns, as functions on values. What a port and its lanes hold of them stands in
`TxLine`, `RxLine` and `LaneSt`.
-/
namespace Sys2Proof.Machine

/-- A PAM4 level (R76). -/
abbrev Level := Fin 4

/-! PAM4 (R76, R86). -/

/-- The Gray mapping of a bit pair to a level; it is its own inverse (R76). -/
def gray (b : Level) : Level := if b = 2 then 3 else if b = 3 then 2 else b

/-- The five levels of a 10-bit symbol, bits [9:8] first (R76). -/
def symLevels (v : Nat) : List Level := [8, 6, 4, 2, 0].map (fun lo => gray (Fin.ofNat 4 (bitsOf v lo 2)))

/-- The symbol that levels carry (R76). -/
def levelsSym (l : List Level) : Nat := l.foldl (fun a v => 4 * a + (gray v).val) 0

/-- Levels in groups of five, as symbols; `n` is the number of groups. -/
def symsOf : Nat → List Level → List Nat
  | 0, _ => []
  | n + 1, l => levelsSym (l.take 5) :: symsOf n (l.drop 5)

/-- A level on an inverted lane (R86). -/
def invertLevel (v : Level) : Level := 3 - v

/-- The two bits of each level, first bit first. -/
def levelBits (l : List Level) : List Bool := l.flatMap (fun v => [bitOf (gray v).val 1, bitOf (gray v).val 0])

/-! The scrambler x⁵⁸ + x³⁹ + 1 (R73). Bit i of its state is the key bit i + 1 steps back. -/

/-- The state after a comma block: all ones. -/
def scrOnes : Nat := 2 ^ 58 - 1

/-- The key bit of a step: the bit that is shifted in. DESIGN CHOICE (log entry 121): R73 gives the polynomial and the state after a comma block,
and not which bit is the key stream. -/
def scrKey (st : Nat) : Bool := bitOf st 38 != bitOf st 57

/-- Scramble or descramble the `n` low bits of `v`, most significant first: the state after them, and the result. -/
def scramble : Nat → Nat → Nat → Nat × Nat
  | 0, st, _ => (st, 0)
  | n + 1, st, v =>
    let k := scrKey st
    match scramble n ((2 * st + b2n k) % 2 ^ 58) v with
    | (e, r) => (e, b2n (bitOf v n != k) * 2 ^ n + r)

/-! GF(2¹⁰) with x¹⁰ + x³ + 1, and RS(544,514) (R74). -/

/-- Multiplication by α. -/
def sfTimes (a : Nat) : Nat := if 512 ≤ a then (2 * a) ^^^ 0x409 else 2 * a

/-- The product of two field elements. -/
def sfMul (a b : Nat) : Nat :=
  if a = 0 ∨ b = 0 then 0
  else (List.range 10).foldl (fun r i => sfTimes r ^^^ (if bitOf b (9 - i) then a else 0)) 0

/-- The inverse of a non-zero element: a¹⁰²², the product of a², a⁴ and so on up to a⁵¹². -/
def sfInv (a : Nat) : Nat :=
  ((List.range 9).foldl (fun (r, x) _ => let y := sfMul x x; (sfMul r y, y)) (1, a)).1

/-- αⁿ. -/
def sfAlpha : Nat → Nat
  | 0 => 1
  | n + 1 => sfTimes (sfAlpha n)

/-- Sum of two polynomials, lowest coefficient first. -/
def sfAdd : List Nat → List Nat → List Nat
  | [], q => q
  | p, [] => p
  | a :: p, b :: q => (a ^^^ b) :: sfAdd p q

/-- The value of a polynomial, lowest coefficient first. -/
def sfEval (p : List Nat) (x : Nat) : Nat := p.foldr (fun c a => sfMul a x ^^^ c) 0

/-- The product of two polynomials. -/
def sfProd : List Nat → List Nat → List Nat
  | [], _ => []
  | a :: p, q => sfAdd (q.map (sfMul a)) (0 :: sfProd p q)

/-- The generator polynomial, with roots α⁰ to α²⁹, lowest coefficient first. -/
def rsGen : List Nat := (List.range 30).foldl (fun p i => sfProd [sfAlpha i, 1] p) [1]

/-- The 30 parity symbols of a message, in order of transmission: the remainder of m(x) · x³⁰ by the generator. -/
def rsParity (msg : List Nat) : List Nat :=
  let g := (rsGen.take 30).reverse
  msg.foldl (fun (r : List Nat) m =>
    let f := m ^^^ r.headD 0
    (List.zip (r.tail ++ [0]) g).map (fun c => c.1 ^^^ sfMul f c.2)) (List.replicate 30 0)

/-- A codeword: 514 message symbols and 30 parity symbols. -/
def rsEncode (msg : List Nat) : List Nat := msg ++ rsParity msg

/-- Syndrome i of a received word, its first symbol the highest coefficient. -/
def rsSyndrome (r : List Nat) (i : Nat) : Nat := r.foldl (fun a c => sfMul a (sfAlpha i) ^^^ c) 0

/-- A step of the Berlekamp–Massey algorithm for syndrome n: the locator, the previous one, its length, the shift, and the previous
discrepancy. -/
def rsLocateStep (syn : List Nat) (n : Nat) : List Nat × List Nat × Nat × Nat × Nat → List Nat × List Nat × Nat × Nat × Nat
  | (c, b, len, m, d0) =>
    let d := (List.range (len + 1)).foldl (fun a i => a ^^^ sfMul (c.getD i 0) (if i ≤ n then syn.getD (n - i) 0 else 0)) 0
    let c' := sfAdd c (List.replicate m 0 ++ b.map (sfMul (sfMul d (sfInv d0))))
    if d = 0 then (c, b, len, m + 1, d0)
    else if 2 * len ≤ n then (c', c, n + 1 - len, 1, d)
    else (c', b, len, m + 1, d0)

/-- The error locator of the syndromes, lowest coefficient first, and its degree. -/
def rsLocator (syn : List Nat) : List Nat × Nat :=
  match (List.range 30).foldl (fun a n => rsLocateStep syn n a) ([1], [1], 0, 1, 1) with
  | (c, _, len, _, _) => (c, len)

/-- Among the `n` positions from `i` on, those at which the locator is zero; x stands for the inverse of the first of them. -/
def rsRoots (loc : List Nat) : Nat → Nat → Nat → List Nat
  | 0, _, _ => []
  | n + 1, i, x => if sfEval loc x = 0 then i :: rsRoots loc n (i + 1) (sfTimes x) else rsRoots loc n (i + 1) (sfTimes x)

/-- Positions (0 to 543, in order of transmission) that the locator names: position i stands for α⁵⁴³⁻ⁱ. -/
def rsPositions (loc : List Nat) : List Nat := rsRoots loc 544 0 (sfAlpha (1023 - 543))

/-- The error value at a position (R74): Forney's formula for the first root α⁰. -/
def rsValue (syn loc : List Nat) (i : Nat) : Nat :=
  let x := sfAlpha (543 - i)
  let y := sfAlpha (1023 - (543 - i))
  let om := (sfProd (syn.take 30) loc).take 30
  let der := (List.range loc.length).map (fun j => if j % 2 = 0 then loc.getD (j + 1) 0 else 0)
  sfMul (sfMul x (sfEval om y)) (sfInv (sfEval der y))

/-- Decode a received word of 544 symbols: the codeword within 15 symbols of it and the positions that were corrected; none where
there is no such codeword (R74, R88). -/
def rsDecode (r : List Nat) : Option (List Nat × List Nat) :=
  let syn := (List.range 30).map (rsSyndrome r)
  if syn.all (· == 0) then some (r, [])
  else
    match rsLocator syn with
    | (loc, len) =>
      let pos := rsPositions loc
      let fixed := pos.foldl (fun (w : List Nat) i => w.set i (w.getD i 0 ^^^ rsValue syn loc i)) r
      if len ≤ 15 ∧ pos.length = len ∧ (List.range 30).all (fun i => rsSyndrome fixed i == 0) then some (fixed, pos) else none

/-- `n` symbols of 10 bits of a number, most significant first (R74). -/
def symbolsOf (n v : Nat) : List Nat := (List.range n).map (fun i => bitsOf v (10 * (n - 1 - i)) 10)

/-- The number that symbols form, first symbol most significant. -/
def ofSymbols (l : List Nat) : Nat := l.foldl (fun a v => a * 2 ^ 10 + v % 2 ^ 10) 0

/-- Message bits of a codeword. -/
def cwBits : Nat := 5140

/-- The codeword of 5,140 message bits: scrambled and encoded (R72 steps 1 and 2); the scrambler's state after it. -/
def codeword (scr bits : Nat) : Nat × List Nat :=
  match scramble cwBits scr bits with
  | (e, v) => (e, rsEncode (symbolsOf 514 v))

/-- The symbols of port lane index j among w (R75). -/
def laneSymbols (w j : Nat) (cw : List Nat) : List Nat :=
  (List.range (cw.length / w)).map (fun k => cw.getD (k * w + j) 0)

/-- The codeword that the symbols of w lanes form, by port lane index (R75). -/
def gatherLanes (w : Nat) (l : List (List Nat)) : List Nat :=
  (List.range 544).map (fun i => (l.getD (i % w) []).getD (i / w) 0)

/-! Precoding and run breaking (R77, R78). -/

/-- Precode levels after the level y; the last level sent. -/
def precode : Level → List Level → List Level × Level
  | y, [] => ([], y)
  | y, x :: l => match precode (x - y) l with | (r, e) => ((x - y) :: r, e)

/-- Undo precoding after the level y; the last level received. -/
def unprecode : Level → List Level → List Level × Level
  | y, [] => ([], y)
  | y, v :: l => match unprecode v l with | (r, e) => ((v + y) :: r, e)

/-- The level adjacent to v that breaks a run (R78). -/
def adjacent (v : Level) : Level := if v = 0 then 1 else if v = 1 then 2 else if v = 2 then 1 else 2

/-- Break runs after a run of n levels v: the 41st identical level is replaced (R78). -/
def breakRuns : Level → Nat → List Level → List Level × Level × Nat
  | v, n, [] => ([], v, n)
  | v, n, x :: l =>
    let t := if x = v ∧ 40 ≤ n then adjacent x else x
    match breakRuns t (if t = v then n + 1 else 1) l with
    | (r, e) => (t :: r, e)

/-- The run of equal levels that ends a list. -/
def tailRun (l : List Level) : Level × Nat :=
  match l.reverse with
  | [] => (0, 0)
  | v :: r => (v, (r.takeWhile (· == v)).length + 1)

/-! The comma block (R79, R80). -/

/-- One bit of the CRC-16 with polynomial 0x1021, not reflected. -/
def crc16Bit (c : Nat) (b : Bool) : Nat :=
  let t := 2 * (c % 0x8000)
  if bitOf c 15 != b then t ^^^ 0x1021 else t

/-- CHECK over bits [75:16] of a comma word, bit 75 first (R80). -/
def commaCheck (w : Nat) : Nat := (List.range 60).foldl (fun c i => crc16Bit c (bitOf w (75 - i))) 0xFFFF

/-- A comma word copy whose CHECK is good (R80). -/
def commaGood (w : Nat) : Bool := decide (bitsOf w 0 16 = commaCheck w)

/-- The fields of a usable comma word (R80). -/
structure CommaWord where
  laneId : Nat
  plane : Nat
  width : Nat
  rate : Nat
  precode : Bool
  mdl : Nat
  ccount : Nat
  deriving DecidableEq, Repr

/-- The fields of a comma word (R80). -/
def commaFields (w : Nat) : CommaWord :=
  { laneId := bitsOf w 67 9, plane := bitsOf w 64 3, width := bitsOf w 62 2, rate := bitsOf w 60 2
    precode := bitOf w 59, mdl := bitsOf w 41 18, ccount := bitsOf w 33 8 }

/-- The comma word with given fields and its CHECK (R80). -/
def commaWord (c : CommaWord) : Nat :=
  let v := c.laneId % 2 ^ 9 * 2 ^ 67 + c.plane % 8 * 2 ^ 64 + c.width % 4 * 2 ^ 62 + c.rate % 4 * 2 ^ 60 + b2n c.precode * 2 ^ 59 +
    c.mdl % 2 ^ 18 * 2 ^ 41 + c.ccount % 256 * 2 ^ 33
  v + commaCheck v

/-- The two levels of a field bit (R79). -/
def fieldLevels (b : Bool) : List Level := if b then [3, 0] else [0, 3]

/-- The 400 levels of a comma block that carries word w (R79). -/
def commaLevels (w : Nat) : List Level :=
  let bits := (List.range 76).flatMap (fun i => fieldLevels (bitOf w (75 - i)))
  (List.range 16).map (fun i => if i % 2 = 0 then (3 : Level) else 0) ++ List.replicate 64 3 ++ List.replicate 16 0 ++ bits ++ bits

/-- Level k of 400 received levels. -/
def levelAt (b : BitVec 800) (k : Nat) : Level := Fin.ofNat 4 (bitsOf b.toNat (2 * (399 - k)) 2)

/-- 400 levels as a number, the first most significant. -/
def blockOf (l : List Level) : BitVec 800 := BitVec.ofNat 800 (l.foldl (fun a v => 4 * a + v.val) 0)

/-- The comma run in 400 received levels: upright (`false`) when 64 levels at 3 stand between levels at 0, inverted (`true`) when 64
levels at 0 stand between levels at 3 (R79, R86). -/
def commaRun (b : BitVec 800) : Option Bool :=
  let run := fun (v o : Level) => levelAt b 15 == o && levelAt b 80 == o && (List.range 64).all (fun i => levelAt b (16 + i) == v)
  if run 3 0 then some false else if run 0 3 then some true else none

/-- A level of a block after polarity correction. -/
def blockLevel (b : BitVec 800) (inverted : Bool) (k : Nat) : Level := if inverted then invertLevel (levelAt b k) else levelAt b k

/-- Copy c of the comma word of a block; none where a pair of levels is no field bit. -/
def commaCopy (b : BitVec 800) (inverted : Bool) (c : Nat) : Option Nat :=
  (List.range 76).foldl (fun (a : Option Nat) i =>
    let p := (blockLevel b inverted (96 + 152 * c + 2 * i), blockLevel b inverted (97 + 152 * c + 2 * i))
    match a with
    | none => none
    | some v => if p = (3, 0) then some (2 * v + 1) else if p = (0, 3) then some (2 * v) else none) (some 0)

/-- The usable fields of a comma block: those of a copy whose CHECK is good, unless both are good and differ or neither is good
(R80). -/
def commaUsable (w0 w1 : Option Nat) : Option CommaWord :=
  let good := fun (w : Option Nat) => w.filter (fun v => commaGood v)
  match good w0, good w1 with
  | some a, some b => if a = b then some (commaFields a) else none
  | some a, none => some (commaFields a)
  | none, some b => some (commaFields b)
  | none, none => none

/-! Test patterns (R92). -/

/-- The distances of a pattern's recurrence: each bit is the exclusive or of the bits so far back; none for PAT_SEL 0. -/
def patTaps : Nat → List Nat
  | 1 => [7, 6]
  | 2 => [13, 12, 2, 1]
  | 3 => [31, 28]
  | _ => []

/-- Bits of a pattern's state: its longest distance. -/
def patLen (sel : Nat) : Nat := (patTaps sel).headD 0

/-- The bit that follows bits so far, newest first. -/
def patNext (sel : Nat) (back : List Bool) : Bool := (patTaps sel).foldl (fun a d => a != back.getD (d - 1) false) false

/-- `n` more bits of a pattern after the bits so far, newest first. -/
def patBits (sel : Nat) : Nat → List Bool → List Bool
  | 0, _ => []
  | n + 1, back => let b := patNext sel back; b :: patBits sel n ((b :: back).take 31)

/-- Bits paired into levels, the first of a pair the more significant (R92). -/
def pairLevels : List Bool → List Level
  | a :: b :: l => gray (Fin.ofNat 4 (2 * b2n a + b2n b)) :: pairLevels l
  | _ => []

/-- A generator's state that is not all zero: bit i of the number is the bit i + 1 steps back. -/
def patSeed (sel seed : Nat) : Nat := if seed % 2 ^ patLen sel = 0 then 1 else seed % 2 ^ patLen sel

/-- The next `n` levels that the generator of a pattern sends from a state, and the state after them. -/
def patLevels (sel seed n : Nat) : List Level × Nat :=
  let k := patLen sel
  let bits := patBits sel (2 * n) ((List.range k).map (bitOf (patSeed sel seed)))
  (pairLevels bits, bits.foldl (fun a b => (2 * a + b2n b) % 2 ^ k) (patSeed sel seed))

/-- The last 128 bits follow the pattern, each from the bits received before it, and those are not all zero. -/
def patFollows (sel : Nat) (bits : List Bool) : Bool :=
  let k := patLen sel
  let n := bits.length - 128
  decide (0 < k) && ((bits.drop (n - k)).take k).any id &&
    (List.range 128).all (fun i => bits.getD (n + i) false == patNext sel (((bits.drop (n + i - k)).take k).reverse))

/-- The checker's finding on received levels whose last 64 are without error: the polarity in which they follow the pattern (R92). -/
def patLocks (sel : Nat) (l : List Level) : Option Bool :=
  if l.length < 64 + (patLen sel + 1) / 2 then none
  else if patFollows sel (levelBits l) then some false
  else if patFollows sel (levelBits (l.map invertLevel)) then some true
  else none

/-- The levels of port lane index j among w in the received levels of a codeword, lane by lane (R75). -/
def cwLevels (b : BitVec 5440) (w j : Nat) : List Level :=
  (List.range (2720 / w)).map (fun k => Fin.ofNat 4 (bitsOf b.toNat (2 * (2719 - (2720 / w * j + k))) 2))

/-- The levels of a codeword time on the lanes of a port, lane by lane, as `cwLevels` reads them. -/
def cwJoin (l : List (List Level)) : BitVec 5440 := BitVec.ofNat 5440 (l.flatten.foldl (fun a v => 4 * a + v.val) 0)

/-- The levels of 160 bits, first most significant. -/
def patOf (b : BitVec 160) : List Level := (List.range 80).map (fun k => Fin.ofNat 4 (bitsOf b.toNat (2 * (79 - k)) 2))

/-- Levels per ns at a RATE code: 28, 56 or 112 GBd (R71). -/
def levelRate (rate : Nat) : Nat := if rate = 1 then 28 else if rate = 2 then 56 else if rate = 3 then 112 else 0

end Sys2Proof.Machine
end

