-- ==== Sys2Proof/Machine/SMap.lean ====
section
/-!
DEFINITION. Sparse tables as plain data: a list of (key, value) pairs in one canonical form, keys strictly rising and no
entry equal to the value `d` that an unlisted key reads as. Equal tables are equal lists.
-/
namespace Sys2Proof.Machine

/-- A sparse table from numbers to `α`. -/
abbrev SMap (α : Type) := List (Nat × α)

namespace SMap

/-- The value at key `k`; `d` where the table lists nothing. -/
def get {α : Type} (d : α) : SMap α → Nat → α
  | [], _ => d
  | (k', v) :: m, k => if k' = k then v else get d m k

/-- Put an entry for `k` in its place, replacing one that is there. -/
def put {α : Type} : SMap α → Nat → α → SMap α
  | [], k, v => [(k, v)]
  | (k', v') :: m, k, v =>
    if k' = k then (k, v) :: m
    else if k < k' then (k, v) :: (k', v') :: m
    else (k', v') :: put m k v

/-- Remove the entry for `k`. -/
def erase {α : Type} (m : SMap α) (k : Nat) : SMap α := m.filter (fun e => e.1 != k)

/-- Write `v` at key `k`; writing the value an unlisted key reads as removes the entry. -/
def set {α : Type} [DecidableEq α] (d : α) (m : SMap α) (k : Nat) (v : α) : SMap α :=
  if v = d then erase m k else put m k v

/-- Change the value at key `k` by `f`. -/
def modify {α : Type} [DecidableEq α] (d : α) (m : SMap α) (k : Nat) (f : α → α) : SMap α :=
  set d m k (f (get d m k))

/-- Keep only the entries whose keys satisfy `p` (the others return to the default). -/
def keep {α : Type} (m : SMap α) (p : Nat → Bool) : SMap α := m.filter (fun e => p e.1)

/-- The keys listed. -/
def keys {α : Type} (m : SMap α) : List Nat := m.map Prod.fst

/-- Change every listed entry by `f` (entries that become `d` are removed). -/
def mapAll {α : Type} [DecidableEq α] (d : α) (m : SMap α) (f : Nat → α → α) : SMap α :=
  m.foldr (fun e l => set d l e.1 (f e.1 e.2)) []

/-- The canonical form: keys strictly rising, no entry equal to `d`. -/
def wf {α : Type} [DecidableEq α] (d : α) (m : SMap α) : Bool :=
  decide ((m.map Prod.fst).Pairwise (· < ·)) && m.all (fun e => !decide (e.2 = d))

end SMap
end Sys2Proof.Machine
end

