-- ==== Sys2Proof/Machine/PartsFabric.lean ====
section
/-!
DEFINITION. Plain-data parts of the state: lanes, links, the packet buffer and its queues, and the routing and policing
state that no register holds (chapters 4 to 7). What a register shows stands in the register file alone.
-/
namespace Sys2Proof.Machine

/-- A lane's state beyond its registers (R77 to R94). -/
structure LaneSt where
  /-- active bank of the equalisation set, as the word of LT_TX_EQ; LT_TX_EQ_ACT holds the set in force (R83) -/
  bank : Nat := 0
  /-- transmitter: precoding is on; last level before run breaking, and the run of levels that ends the stream (R77, R78); CCOUNT of
  the next comma block (R80) -/
  txPrec : Bool := false
  txY : Level := 0
  txRun : Level × Nat := (0, 0)
  ccount : Nat := 0
  /-- receiver: last level received since the comma block (R77) -/
  rxY : Level := 0
  /-- local time of the last signal detect (R89) -/
  detectAt : Option Nat := none
  /-- comma runs found at the exact spacing, and the usable blocks among them (R85) -/
  runs : Nat := 0
  usable : Nat := 0
  /-- comma errors in a row (R89) -/
  badRun : Nat := 0
  /-- last usable comma word since the lane left reset (R87) -/
  word : Option CommaWord := none
  /-- skew of the last comma block against the port's first lane, in UI (R87) -/
  skew : Nat := 0
  /-- corrected symbols in the current 1 ms window, and that window's number (R89) -/
  symWin : Nat := 0
  symIdx : Nat := 0
  /-- the 1 ms window since which LT_RX_ADAPT has read AT_LIMIT (R89) -/
  limitFrom : Option Nat := none
  /-- local time at which the pattern checker took lock (R92) -/
  lockAt : Nat := 0
  /-- the generator's last bits, bit i of the number i + 1 steps back; 0 before it has sent any (R92) -/
  gen : Nat := 0
  /-- levels driven under near-end loopback that the receiver has not taken yet, oldest first (R93) -/
  near : List Level := []
  /-- the eye scan that runs: its DWELL and the local time of its start (R94) -/
  scan : Option (Nat × Nat) := none
  deriving DecidableEq, Repr

/-- The transmit stream of a logical port (R72 to R79). -/
structure TxLine where
  /-- a comma block has begun the stream -/
  live : Bool := false
  /-- by port lane index, the module lanes that carry it: two when degraded (R108) -/
  lanes : List (List Nat) := []
  /-- message bits not yet in a codeword, and their number -/
  msg : Nat := 0
  len : Nat := 0
  /-- the scrambler, and the codewords since the last comma block -/
  scr : Nat := scrOnes
  cw : Nat := 0
  deriving DecidableEq, Repr

/-- The receive stream of a logical port after decoding (R73, R88, R101). -/
structure RxLine where
  /-- a comma block has followed alignment -/
  live : Bool := false
  /-- message bits not yet taken as rows, their number, and which of them lie in uncorrectable codewords -/
  msg : Nat := 0
  len : Nat := 0
  bad : Nat := 0
  scr : Nat := scrOnes
  /-- message bits of each codeword not yet taken, oldest first, and the fabric time at which the codeword crossed the pads (R123) -/
  times : List (Nat × Nat) := []
  /-- units of 128 bits passed in the search for delineation, and the good rows in a row at each of the 33 phases -/
  pos : Nat := 0
  runs : List Nat := []
  deriving DecidableEq, Repr

/-- A row in the replay buffer (R110): squares, HDR, SHARED, ABORT and SEQ, with the local time of its first
transmission (LNK_RTT). -/
structure RepRow where
  seq : Nat
  squares : List Square
  hdr : Nat
  shared : Nat
  abort : Bool
  firstTx : Nat
  deriving DecidableEq, Repr

/-- A square handed to a port for transmission. -/
structure TxSq where
  pid : Nat
  sq : Square
  hdr : Bool
  /-- sent on a shared credit (R118) -/
  shared : Bool
  vl : Nat
  /-- squares of its packet, used at the header square's debit -/
  count : Nat
  /-- its place in the packet, from 0 -/
  idx : Nat
  /-- last square of its packet -/
  last : Bool
  abort : Bool
  /-- what its sending charges: the shaper of traffic class 0 to 3, the VL0 shaper (4), or none (5) (R151, R155) -/
  cls : Nat
  /-- departure reference of the builder, for the last square (R19) -/
  dep : Option Nat
  deriving DecidableEq, Repr

/-- A square received in order and not yet taken by the switch core. -/
structure RxSq where
  sq : Square
  hdr : Bool
  shared : Bool
  /-- the packet whose last square this is, is aborted (R99) -/
  abort : Bool
  /-- its row's CRC check, in local and in fabric ns (R458) -/
  stamp : Nat
  fstamp : Nat
  deriving DecidableEq, Repr

/-- The packet being received on a port (R103): its buffer number, and the squares still to come. -/
structure RxCur where
  pid : Nat
  left : Nat
  deriving DecidableEq, Repr

/-- A time frame being received (R122): its slots so far. -/
structure FrameRx where
  t2 : Nat
  slots : List Nat
  /-- all 16 rows have arrived good and the frame waits for `TIME_FRAME` -/
  complete : Bool := false
  deriving DecidableEq, Repr

/-- A logical port's link state beyond its LNK registers (chapter 5). Times are local ns; fabric times are in
units of 2⁻¹⁶ ns. -/
structure PortSt where
  /-- own VL_MASK and SHARED_GRANT from the Opening or a reconfiguration (R106, R391) -/
  vlMask : Nat := 0
  grant : Nat := 0
  /-- stopped by STOP (R390) -/
  stopped : Bool := false
  /-- marked a stack port by the port map; accepted peer (R361) -/
  stack : Bool := false
  accepted : Bool := false
  resetAt : Nat := 0
  lastTrain : Option Nat := none
  trainAt : Nat := 0
  /-- training at degraded width (R108) -/
  degraded : Bool := false
  /-- the transmit and the receive stream (R72) -/
  line : TxLine := {}
  rxl : RxLine := {}
  /-- LRESET rows are sent in DISABLED until this local time, with this message (R503) -/
  lreset : Option (Nat × Square) := none
  /-- row delineation held, consecutive bad rows (R101) -/
  delineated : Bool := false
  badRun : Nat := 0
  /-- alignment of the port's lanes: passed, lane order code, ID mismatch, skew in UI (R87) -/
  aligned : Bool := false
  order : Nat := 0
  mismatch : Bool := false
  skew : Nat := 0
  /-- EQ: own token, own request set, own EQ_DONE, the peer's EQ_DONE, the peer token answered and the answers (R106) -/
  token : Nat := 0
  tokenAnswered : Bool := true
  eqReq : Nat := 0
  eqDone : Bool := false
  peerDone : Bool := false
  peerToken : Nat := 0
  eqResp : Nat := 0
  peerReady : Bool := false
  /-- precode requests of the peer in this training, applied at the next comma block (R77, R106) -/
  precodeReq : Option Nat := none
  /-- a first row that is not a control row has arrived in UP (R109) -/
  sawData : Bool := false
  /-- receiver: expected sequence E and the NAK wait (R111) -/
  e : Nat := 0
  nakWait : Bool := false
  /-- sender: rows held, previous acknowledged sequence, last replay (its E, its start, and the next row to send, 4,096
  when it is complete), a run of empty NAKs (R113, R114), last progress (R116), a has advanced since the last replay started -/
  replay : List RepRow := []
  lastA : Nat := 0xFFF
  replaying : Option (Nat × Nat × Nat) := none
  nakEmpty : Option Nat := none
  progressAt : Nat := 0
  advanced : Bool := true
  /-- reserved credits: key v for rd(v), 16 for rs (R118) -/
  reserved : SMap Nat := []
  /-- last value received of each peer counter: key v, 16 shared (R120) -/
  lastCr : SMap Nat := []
  /-- own shared counter, last values sent and the round-robin position (R119) -/
  rxShared : Nat := 0
  lastSent : SMap Nat := []
  rr : Nat := 0
  /-- transmit: squares handed over; the packet number whose read is unfinished, its queue, and what its squares charge (`TxSq.cls`);
  charges of the squares sent and not yet accounted for by a square time (R152), oldest first -/
  tx : List TxSq := []
  curTx : Option (Nat × Nat) := none
  curTc : Nat := 5
  sent : List Nat := []
  /-- receive: squares not yet taken, the packet in progress -/
  rx : List RxSq := []
  rxCur : Option RxCur := none
  /-- link generation (R129) -/
  gen : Nat := 0
  /-- rows sent in UP since the last mark row, own frame number, T1 of the current frame (R122) -/
  txRow : Nat := 0
  frame : Nat := 0
  t1Cur : Option Nat := none
  /-- the first bit of the current frame's mark row has not crossed the pads yet (R123) -/
  t1Due : Bool := false
  /-- slots of the frame being sent, fixed at its mark row (R122) -/
  frameTx : List Nat := []
  /-- departure times of own marks by frame number, frame being received, last complete frame received (arrival,
  number), its slots -/
  marks : SMap Nat := []
  frameRx : Option FrameRx := none
  /-- fabric time at which the first bit of the row last taken crossed the pads (R123) -/
  rowFt : Nat := 0
  /-- the last complete time frame received: its arrival in fabric time, and its number (R122) -/
  lastFrame : Option (Nat × Nat) := none
  /-- time of the last complete pair (R452) -/
  pairAt : Nat := 0
  /-- a complete pair the servo has not yet used (R453) -/
  pairNew : Bool := false
  peerSteps : Nat := 255
  peerT1T2 : Bool := false
  /-- bad rows in the current 1 ms window and its number (R124) -/
  badWin : Nat := 0
  badIdx : Nat := 0
  badHit : Bool := false
  /-- least round trip in the current 1 ms window, that window's number, and whether data rows were sent in it (R125) -/
  rttWin : Option Nat := none
  rttIdx : Nat := 0
  rttSent : Bool := false
  /-- remote delay estimate R(o), whether it was sampled in its 8 µs window, and that window's number (R166) -/
  remote : Nat := 0
  remoteHit : Bool := false
  remoteWin : Nat := 0
  /-- VL0 shaper credit in 1/4,096 square (R151) -/
  vl0Cred : Int := 130 * 4096
  deriving DecidableEq, Repr

/-- The remote delay estimate in window w (R166): the boundary that ended its window halves it when the window brought no sample. -/
def PortSt.decay (st : PortSt) (w : Nat) : PortSt :=
  if st.remoteWin = w then st
  else { st with remote := if st.remoteHit then st.remote else st.remote / 2, remoteHit := false, remoteWin := w }

/-- Where a stored packet's squares are charged (R130). -/
inductive Region where
  | link | vl0 | guar | dyn
  deriving DecidableEq, Repr

/-- The tag of a stored square (R129), with the region it is charged to (R130). -/
structure SqTag where
  /-- logical port 0 to 255, or 256 + local input -/
  inp : Nat
  vl : Nat
  shared : Bool
  gen : Nat
  region : Region
  deriving DecidableEq, Repr

/-- The buffer's banks and its free list (R126, R127, R146 to R148). A square is named by its physical bank times 8,192 plus its index. -/
structure SwcSt where
  /-- the squares that are not on the free list, with their tags -/
  tags : SMap (Option SqTag) := []
  /-- banks in use by number: 0 the physical bank of that number, b + 1 physical bank b, 391 none -/
  banks : SMap Nat := []
  /-- number + 1 that a fenced physical bank had -/
  was : SMap Nat := []
  /-- banks written in a switch-core cycle: the cycle, and the list -/
  wrote : Nat × List Nat := (0, [])
  /-- reads that banks give: the cycle, and the square (R126) -/
  reads : List (Nat × Nat) := []
  /-- the model's own field: choices that the allocator has made -/
  picks : Nat := 0
  /-- squares allocated or freed since the auditor's pass began, and those its last pass found leaked -/
  touched : List Nat := []
  leaked : List Nat := []
  /-- the bank of the tree tables that is active, 0 or 1 (R389) -/
  treeBank : Nat := 0
  /-- crossing discard counter of each island (R15) -/
  crossings : SMap Nat := []
  deriving DecidableEq, Repr

/-- A packet in the buffer (R129, R134): its descriptor. `pkt` holds the squares written so far; the stored header is never modified
(R135). -/
structure BufPkt where
  pkt : Pkt
  /-- logical port 0 to 255, or 256 + local input -/
  inp : Nat
  vl : Nat
  count : Nat
  written : Nat
  /-- the squares it refers to, in order (R126) -/
  addr : List Nat
  gen : Nat
  region : Region
  freed : Nat
  /-- queues (16 · output + VL) whose entries still refer to it: the reference count of R134 is their number -/
  outs : List Nat
  /-- discarded and counted on arrival (R143) -/
  dead : Bool
  /-- no further square will be written; missing ones are supplied as zero squares with ABORT (R121, R138) -/
  cut : Bool
  /-- the packet arrived with ABORT (R121) -/
  aborted : Bool
  /-- its stamp (R458) in local ns and in fabric ns, and the write of its header square (R68) -/
  stamp : Nat
  fstamp : Nat
  wroteAt : Nat
  /-- function and job context its builder acted for (R190) -/
  fn : Option Nat
  job : Option Nat
  /-- departure reference of the builder (R19) -/
  dep : Option Nat
  deriving DecidableEq, Repr

/-- An entry of an output queue (R134 to R138): the packet, the route word its copy carries, the squares read, and
whether its read has begun. -/
structure QEntry where
  pid : Nat
  route : Nat
  read : Nat
  reading : Bool
  /-- squares go on shared credits -/
  shared : Bool
  /-- from this square on its read gives zero squares: an uncorrectable error (R145) -/
  bad : Option Nat := none
  /-- bank of the tree tables that the lookup read (R389) -/
  bank : Nat := 0
  deriving DecidableEq, Repr

/-- One way a packet leaves: the output (0 to 258, R156) and its route word on it. -/
structure OutSel where
  out : Nat
  route : Nat
  /-- bank of the tree tables that the lookup read, for the collective complex (R389) -/
  bank : Nat := 0
  deriving DecidableEq, Repr

/-- A packet handed to the collective complex: its input, the bank its tree and mask entries were read from (R389), and its stamp in local
and in fabric time (R458). -/
structure ColPkt where
  pkt : Pkt
  inp : Nat
  bank : Nat := 0
  stamp : Nat := 0
  fstamp : Nat := 0
  deriving DecidableEq, Repr

/-- A packet of a local input between its build and its admission (R132). -/
structure LocalPkt where
  pkt : Pkt
  /-- function whose policer acts on it and its colour attribute (R153, R154) -/
  fn : Option Nat
  yellow : Bool
  /-- pawn that built it (R181), and its job context when it acted for one (R190) -/
  pawn : Option Nat
  job : Option Nat
  /-- departure reference of the builder (R19) -/
  dep : Option Nat
  /-- presented: stamped, routed, and waiting for space -/
  waiting : Bool
  /-- held by its policer -/
  held : Bool
  outs : List OutSel
  stamp : Nat
  fstamp : Nat := 0
  /-- an output that gets no copy: the one an ABORT or UNSEAT came from (R337, R345) -/
  skip : Option Nat := none
  /-- the bank of the tree tables that its lookup reads, when it was built before a strobe (R328, R389) -/
  bank : Option Nat := none
  deriving DecidableEq, Repr

/-- A policer's buckets in units of 1/1,750,000 square (R153). -/
structure PolSt where
  c : Nat := 0
  p : Nat := 0
  deriving DecidableEq, Repr

/-- Scheduler state of an output (R149, R150): the class whose turn it is, and the next VL of each class. -/
structure SchedSt where
  turn : Nat := 0
  inTurn : Bool := false
  nextVl : SMap Nat := []
  deriving DecidableEq, Repr

/-- What the newest digest of a member says of one of its ports (R366). -/
structure DigestEnt where
  up : Bool := false
  vlMask : Nat := 0
  q : Nat := 0
  r : Nat := 0
  deriving DecidableEq, Repr

end Sys2Proof.Machine
end

