-- ==== Sys2Proof/Machine/PartsHost.lean ====
section
/-!
DEFINITION. Plain-data parts of the state: queues in host memory, work entries, translation, connections, matching,
collectives, locks, management requests and the stack (chapters 8 to 15). Function numbers are module-wide, 128 · host
port + function (R200).
-/
namespace Sys2Proof.Machine

/-! ## Queues and work (chapter 9) -/

/-- A work queue (R208, R212, R225): state 1 ACTIVE, 2 STALLED, 3 TEARDOWN. The admin queue is QID 65,536. -/
structure Wq where
  fn : Nat
  qid : Nat
  recv : Bool := false
  yellow : Bool := false
  base : Nat
  log : Nat
  cq : Nat
  job : Nat := 0xFFFF
  xctx : Nat := 0xFFFF
  pawn : Nat := 0
  state : Nat := 1
  pos : Nat := 0
  phase : Bool := true
  pending : Bool := false
  /-- entries consumed and not yet covered by a completion, in entry order -/
  ents : List Nat := []
  /-- entries consumed since the last one that closes a run (R217) -/
  runLen : Nat := 0
  /-- pending remote error (R280): status, detail and connection -/
  remoteErr : Option (Nat × Nat × Nat) := none
  /-- the admin command in execution waits for `INVALIDATE_DONE`: the reads and atomics it waits for (R246), and its result -/
  inv : Option (List Nat × List (Nat × Nat)) := none
  deriving DecidableEq, Repr

/-- A completion or event queue (R208, R219, R222): index of the next write, slots written and not freed, slots
reserved. -/
structure Ring where
  fn : Nat
  h : Nat
  base : Nat
  log : Nat
  vector : Nat
  next : Nat := 0
  used : Nat := 0
  reserved : Nat := 0
  armed : Bool := false
  /-- EQ_OVERFLOW has been written and no slot freed since (R222) -/
  overflow : Bool := false
  deriving DecidableEq, Repr

/-- What a completion says (R218). -/
structure Cqe where
  user : Nat
  tag : Nat := 0
  bytes : Nat := 0
  src : Nat := 0
  qid : Nat
  count : Nat := 1
  status : Nat := 0
  detail : Nat := 0
  deriving DecidableEq, Repr

/-- A consumed work entry and what has been done for it. -/
structure WorkEnt where
  fn : Nat
  qid : Nat
  /-- its number -/
  num : Nat := 0
  /-- the 64 bytes of the entry, byte 0 least significant (R214) -/
  ent : BitVec 512
  /-- holds a completion slot (R217) -/
  opens : Bool := false
  fin : Option Cqe := none
  started : Bool := false
  /-- resolved target and connection (R65, R257) -/
  dest : Option Nat := none
  cid : Option Nat := none
  /-- bytes or pieces handed to reads, read back, and placed -/
  issued : Nat := 0
  readB : Nat := 0
  placed : Nat := 0
  /-- packets built; PSNs among them that have departed (R19); every packet has been built -/
  sent : Nat := 0
  gone : List Nat := []
  built : Bool := false
  /-- LANE of its connection, fixed when it is consumed (R257) -/
  lane : Nat := 0
  /-- payload read and not yet sent, by offset (eager sends before their MSN, R296) -/
  held : SMap (List Square) := []
  msn : Option Nat := none
  /-- send key of a rendezvous (R298) -/
  key : Option Nat := none
  /-- grants (R186): request sent, bytes below which the sender may send -/
  asked : Bool := false
  granted : Nat := 0
  /-- landing pages that were found unusable, or a status to complete with -/
  err : Option (Nat × Nat) := none
  /-- post stamp of a posted receive; the message matched to a receive -/
  stamp : Option Nat := none
  msg : Option Nat := none
  /-- lock requests (R354): REQ_ID, transmissions, local time of the last one -/
  reqId : Nat := 0
  txCount : Nat := 0
  lastTx : Nat := 0
  /-- collectives: operation number, chunks written, flags -/
  opseq : Option Nat := none
  chunksDn : List Nat := []
  flags : Nat := 0
  deriving DecidableEq, Repr

/-- What an outstanding host read is for. -/
inductive ReadFor where
  /-- payload of a PUT, SEND or SVC packet: entry, offset, length -/
  | payload (w off len : Nat)
  /-- operands of a 128-bit compare-and-swap: entry -/
  | operand (w : Nat)
  /-- a packet of a piece served at the target: connection, epoch, PSN, offset, length, and the piece's MLEN -/
  | piece (cid epoch psn off len mlen : Nat)
  /-- the operand of a COLL entry for sequence number q (R334) -/
  | coll (w q : Nat)
  deriving DecidableEq, Repr

/-- A read issued to host memory and not yet answered, with the context it was translated in, the range of the translations it used, and
the index of the remote key it was made for. -/
structure HostRead where
  id : Nat
  fn : Nat
  why : ReadFor
  xctx : Nat := 0xFFFF
  addr : Nat := 0
  len : Nat := 0
  key : Option Nat := none
  deriving DecidableEq, Repr

/-- A ring write that waits for its translation (R253). -/
structure HeldWrite where
  fn : Nat
  /-- base of the ring it goes to -/
  base : Nat
  fpa : Nat
  len : Nat
  data : Nat
  /-- the message to send after it -/
  vector : Option Nat
  /-- its translation faulted: it waits for a PAGE_RESUME -/
  stalled : Bool := false
  deriving DecidableEq, Repr

/-- The PCI Express face of a function (R202, R205, R206, R228, R229). The words of its configuration space stand under capability · 4096
+ offset, each as the exclusive or with its reset value, and those of its MSI-X table under 4 · vector + word, where a mask bit is listed
that differs from all others. -/
structure PciFn where
  /-- bus number of the last configuration write -/
  bus : Nat := 0
  regs : SMap Nat := []
  /-- configuration writes accepted during a teardown, oldest first: word, covered bits, value -/
  late : List (Nat × Nat × Nat) := []
  msix : SMap Nat := []
  /-- speed and width that the management port's link has trained at; none: the highest and widest it supports (R377) -/
  link : Option (Nat × Nat) := none
  deriving DecidableEq, Repr

/-- A function beyond its registers (R205, R227). -/
structure FnSt where
  /-- local times: trigger of the teardown, and Request-class packets stopped (R357) -/
  tornAt : Option Nat := none
  /-- configuration writes that begin at step 5 (R229): VFs to create -/
  recreate : Option Nat := none
  tagsRetired : Bool := false
  /-- a VF that stops existing at step 5 (R205, R229) -/
  gone : Bool := false
  /-- VF MSE as it was when the VF's teardown began, in effect until its step 5 (R229) -/
  mse : Option Bool := none
  /-- peer list of R357 -/
  peers : List Nat := []
  peerOvf : Bool := false
  /-- local time of the last fetch (R182) -/
  lastFetch : Option Nat := none
  deriving DecidableEq, Repr

/-- A job context (R224): rank table base in module memory (8-byte words), entries. -/
structure Job where
  fn : Nat
  jobId : Nat
  entries : Nat
  base : Nat
  xctx : Nat
  eq : Nat
  deriving DecidableEq, Repr

/-! ## Translation (chapter 10) -/

/-- A stage-1 context (R233). -/
structure Xctx where
  root : Nat
  life : Nat
  eq : Nat
  odp : Bool
  deriving DecidableEq, Repr

/-- An access to translate (R234, R239): function, context (0xFFFF none), input address; read, write and atomic; through
a remote key; a ring access. -/
structure XReq where
  fn : Nat
  xctx : Nat
  addr : Nat
  wr : Bool
  atomic : Bool := false
  remote : Bool := false
  ring : Bool := false
  pawn : Option Nat := none
  /-- work queue of the access, for the page request -/
  qid : Nat := 0
  /-- what makes the access: a work entry, a packet or a ring -/
  own : Nat := 0
  deriving DecidableEq, Repr

/-- A cached combined translation (R239, R242): input base, size as a power of two, output base, attribute bits in the
order R, W, A, REMOTE, PEER, and expiry in fabric ns. -/
structure XEnt where
  fn : Nat
  xctx : Nat
  base : Nat
  log : Nat
  out : Nat
  /-- function-physical base of the page, for invalidations of stage 2 -/
  fpa : Nat
  attr : Nat
  expire : Nat
  deriving DecidableEq, Repr

/-- A cached table pointer (R242): stage, function, context, level of the table it points to, the input prefix above it, the bus address
it was read from, the table's address, the fabric time of the earliest table read that contributed to it, and its expiry (R243). -/
structure WEnt where
  stage2 : Bool
  fn : Nat
  xctx : Nat
  level : Nat
  pre : Nat
  src : Nat
  table : Nat
  readAt : Nat
  expire : Nat
  deriving DecidableEq, Repr

/-- A translation fault (R248), with the BUS cause of kind 3. -/
structure XFault where
  kind : Nat
  stage2 : Bool
  level : Nat
  bus : Nat := 0
  /-- input address at that stage -/
  addr : Nat := 0
  deriving DecidableEq, Repr

/-- An unresolved page request (R250): function, context (0xFFFF stage 2), page, token, the DETAIL of its fault, and the work
queues stalled on it with their faulting entries. -/
structure PageReq where
  token : Nat
  fn : Nat
  xctx : Nat
  page : Nat
  detail : Nat := 1
  waiters : List (Nat × Nat × Nat) := []
  deriving DecidableEq, Repr

/-- The translation units' state. -/
structure TrnSt where
  ctxs : SMap (Option Xctx) := []
  micro : SMap (List XEnt) := []
  shared : SMap (List XEnt) := []
  walk : SMap (List WEnt) := []
  /-- accesses that wait for their walk, oldest first -/
  walks : List XReq := []
  /-- walks that ended in a fault their access has not taken yet -/
  faults : List (XReq × XFault) := []
  pages : List PageReq := []
  nextToken : SMap Nat := []
  /-- ring accesses of VFs that wait (R253) -/
  heldWr : List HeldWrite := []
  /-- functions whose ring faulted -/
  ringFault : List (Nat × Nat) := []
  deriving DecidableEq, Repr

/-! ## Transport (chapter 11) -/

/-- An outstanding packet (R258, R267): its PSN, the packet as built, the work entry it belongs to, local time of its
last transmission, whether its answer ends it, and the bytes it counts in flight. -/
structure OutPkt where
  psn : Nat
  pkt : Pkt
  work : Option Nat
  last : Nat
  /-- released only by its own answer (GET_REQ, GET_RDV, ATOMIC, FLUSH, GRANT_REQ, CLOSE_REQ) -/
  answer : Bool
  bytes : Nat
  /-- squares in the retransmission store -/
  store : Nat
  /-- queue and job context it was built for, its colour, and whether it was first sent with OPEN -/
  qid : Nat := 0
  job : Option Nat := none
  yellow : Bool := false
  open_ : Bool := false
  /-- fabric time of its departure, for gets (R184) -/
  dep : Option Nat := none
  deriving DecidableEq, Repr

/-- A landing record (R274, R306): the piece that PSN asks for, where it lands, and the offsets placed. -/
structure Landing where
  psn : Nat
  work : Nat
  off : Nat
  len : Nat
  got : List Nat := []
  sampled : Bool := false
  /-- matched message whose pull the piece belongs to -/
  msg : Option Nat := none
  deriving DecidableEq, Repr

/-- Where a message stands at its receiver (R299 to R313). -/
inductive MsgState where
  | early | unexpected | held | matched
  deriving DecidableEq, Repr

/-- A message at its receiver, under its entry index while it is early, unexpected or held, and under 2²² and up once it is
matched. -/
structure Msg where
  cid : Nat
  epoch : Nat
  fn : Nat
  dom : Nat
  msn : Nat
  src : Nat
  tag : Nat
  mlen : Nat
  rts : Bool
  rkey : Nat
  event : Bool
  state : MsgState
  /-- staged payload by packet index; indices accounted for -/
  staged : SMap (List Square) := []
  got : List Nat := []
  /-- the receive it is matched to -/
  recv : Option Nat := none
  /-- order in the unexpected list -/
  order : Nat := 0
  /-- pull (R306): landing range translated, bytes to pull, bytes asked for, bytes placed, closing sent -/
  ready : Bool := false
  total : Nat := 0
  asked : Nat := 0
  pulled : Nat := 0
  closing : Bool := false
  deriving DecidableEq, Repr

/-- A recorded grant request (R187): PSN, MREF, MLEN and GOFFSET; the message it is for, once a packet of it has been placed (a PUT by
its first PSN above 2⁶⁴, a message by domain and MSN), and the indices of its placed packets. -/
structure GrantReq where
  psn : Nat
  mref : Nat
  mlen : Nat
  goff : Nat := 0
  key : Option Nat := none
  got : List Nat := []
  deriving DecidableEq, Repr

/-- A connection context of one local function (R258). -/
structure Conn where
  fn : Nat
  peer : Nat
  conn : Nat
  pawn : Nat
  /-- 1 OPENING, 2 OPEN, 3 CLOSING -/
  state : Nat
  epoch : Nat
  nextPsn : Nat := 0
  outst : List OutPkt := []
  /-- expected PSN and the accepted PSNs above it -/
  e : Nat := 0
  bitmap : List Nat := []
  /-- accepted packets' acknowledgement (R266): count and time of the first uncovered one, and the packet that triggers -/
  ackCount : Nat := 0
  ackFrom : Option Nat := none
  ackDelay : Nat := 0
  trigOrigin : Nat := 0
  trigCstamp : Nat := 0
  /-- reorder hold (R269): start or last NAK_SEQ, and its length -/
  hold : Option Nat := none
  holdNs : Nat := 0
  /-- pending refusal (R268): PSN, code, RETRY_US -/
  refusal : Option (Nat × Nat × Nat) := none
  /-- window (R185): W, minima and the number of the 10 ms window they are of, bytes released toward the next increase, last cut -/
  w : Nat
  curMin : Option Nat := none
  prevMin : Option Nat := none
  baseWin : Nat := 0
  acc : Nat := 0
  tDec : Nat := 0
  /-- timer (R270): srtt, rttvar, RTO, RETRY -/
  srtt : Option Nat := none
  rttvar : Nat := 0
  rto : Nat
  retry : Nat := 0
  /-- retry NAK in force (R271): code, PSN, due time; PSNs whose resend is due and held back by a quench; since when the oldest PSN has
  not changed under retry codes, and the limit then -/
  nakRetry : Option (Nat × Nat × Nat) := none
  nakHeld : List Nat := []
  nakSince : Option Nat := none
  nakLimit : Nat := 0
  lastCode : Nat := 0
  /-- local time for which the timers have been frozen is kept by moving their starts; last seen frozen -/
  frozenAt : Option Nat := none
  atomics : List (Nat × Nat) := []
  landings : List Landing := []
  /-- sequence records of either direction by domain number (R299): 1 + the next MSN, 0 where there is no record -/
  seqTx : SMap Nat := []
  seqRx : SMap Nat := []
  /-- accepted bytes of PUTs by first PSN (R273) -/
  puts : SMap Nat := []
  /-- packets waiting for their operation (reads or atomics) by PSN -/
  inOp : List (Nat × Pkt) := []
  /-- reads of a piece still outstanding, by PSN -/
  inReads : SMap Nat := []
  lastPlace : Option Nat := none
  lastUse : Nat := 0
  /-- IDLE_CLOSE when the quiet timer last started (R264, R289) -/
  idle : Nat := 0
  /-- operations whose violation has been reported, by first PSN (R285) -/
  viol : List Nat := []
  /-- grant requests recorded (R187) -/
  gr : List GrantReq := []
  /-- packets placed while a grant request may still be on its way to its record: message, MLEN, index (R187) -/
  ahead : List (Nat × Nat × Nat) := []
  /-- its part of its host port's OUTSTANDING (R187) -/
  outB : Int := 0
  /-- the context has been lost with a pseudo-channel (R288, R442) -/
  lost : Bool := false
  deriving DecidableEq, Repr

/-- A tombstone (R261): key, epoch, end of its period in local ns; `ctx`: a FAILED context that serves as its own
tombstone because the pool is full. -/
structure Tomb where
  cid : Nat
  epoch : Nat
  until_ : Nat
  ctx : Bool := false
  deriving DecidableEq, Repr

/-- A memory region or send key (R282, R298): owner, context, rights, range, event queue; when its drain ends. -/
structure Mr where
  fn : Nat
  xctx : Nat
  rights : Nat
  addr : Nat
  len : Nat
  eq : Nat
  /-- the SEND whose key this is -/
  work : Option Nat := none
  draining : Option Nat := none
  deriving DecidableEq, Repr

/-- An atomic issued at the target (R275): connection, epoch, packet, host port, bus address, and the compare value of the
CAS in progress of an fp64 add. -/
structure AtomicOp where
  cid : Nat
  epoch : Nat
  pkt : Pkt
  port : Nat
  bus : Nat
  cmp : Option Nat := none
  deriving DecidableEq, Repr

/-- The transport's state. -/
structure XptSt where
  conns : SMap (Option Conn) := []
  tombs : List Tomb := []
  /-- epoch counter (R260) -/
  epoch : Option Nat := none
  mrs : SMap (Option Mr) := []
  gens : SMap Nat := []
  nextMr : Nat := 0
  freeMr : List Nat := []
  /-- packets handed to home pawns (R315) and grant requests not yet consumed, with their connection -/
  homeIn : List (Nat × Pkt) := []
  grantIn : List (Nat × Pkt) := []
  /-- grant lists by host port (R187), as connection and PSN of the GRANT_REQ, and bytes outstanding -/
  grants : SMap (List (Nat × Nat)) := []
  outst : SMap Int := []
  /-- pawns that wait for the retransmission store, with the squares they need (R272) -/
  storeWait : List (Nat × Nat) := []
  /-- atomics issued at the target, in order of arrival -/
  atomicOps : List AtomicOp := []
  /-- zero-length reads of flushes (R277): connection, epoch and PSN -/
  flushOps : List (Nat × Nat × Nat) := []
  /-- the engine complex's end-to-end CRC counter (R51), which no register shows -/
  e2eCrc : Nat := 0
  deriving DecidableEq, Repr

/-! ## Matching (chapter 12) -/

/-- A domain (R290). -/
structure Dom where
  fn : Nat
  num : Nat
  job : Nat
  rank : Nat
  eager : Nat
  eq : Nat
  handler : Option Nat
  srcUnexp : Nat
  srcEarly : Nat
  domUnexp : Nat
  domMsgs : Nat
  span : Nat
  home : Nat
  nextStamp : Nat := 0
  /-- posted receives, by stamp -/
  posted : List Nat := []
  deriving DecidableEq, Repr

/-- The matching state. -/
structure MtcSt where
  doms : SMap (Option Dom) := []
  msgs : SMap (Option Msg) := []
  nextMsg : Nat := 0
  nextOrder : Nat := 0
  gens : SMap Nat := []
  /-- overruns in the current 1 ms window, by slot, and the window (R317) -/
  overRuns : SMap Nat := []
  overIdx : Nat := 0
  deriving DecidableEq, Repr

/-! ## Collectives (chapter 13) -/

/-- What a slot holds (R332): its sequence number, the children and local contributors that have contributed, the bytes
combined so far, the sum of CONTRIB, flags, the time of its first use, and whether its up packet has been sent (at the
root: its chunk completed). -/
structure Slot where
  q : Nat
  kids : List Nat := []
  locals : List Nat := []
  data : List Nat := []
  contrib : Nat := 0
  flags : Nat := 0
  /-- when it came into use: in the windows' time base, in local time, and the base then (R343, R459) -/
  since : Nat := 0
  sinceNow : Nat := 0
  base : Nat := 0
  sent : Bool := false
  deriving DecidableEq, Repr

/-- A registration (R329): function, context, range, event queue, contributor index, OPSEQ of its next entry. -/
structure Reg where
  fn : Nat
  xctx : Nat
  addr : Nat
  len : Nat
  eq : Nat
  idx : Nat
  next : Nat := 0
  deriving DecidableEq, Repr

/-- The open operation of a tree (R331): OPSEQ, operator and anchored bit, TYPE, KIND; chunks of the native or data pass and
of the anchor pass, 0 while not known; LEN once a local entry has told it. -/
structure CollOp where
  n : Nat
  opmode : Nat
  ty : Nat
  kind : Nat
  nmain : Nat := 0
  na : Nat := 0
  len : Option Nat := none
  slots : List Slot := []
  /-- sequence numbers whose down packet has arrived -/
  seen : List Nat := []
  /-- down buffer: bytes and flags of the chunks whose local writes are not all issued -/
  down : SMap (List Nat × Nat) := []
  /-- anchor store by anchor chunk -/
  anchors : SMap (List Nat) := []
  deriving DecidableEq, Repr

/-- A tree beyond its registers: RESERVEs received (child, CONTRIB), seating, the open operation, the number of the next, the
last one ended and whether it completed, reasons of aborted ones, the root's FA when a down packet has told it. -/
structure TreeSt where
  reserves : List (Nat × Nat) := []
  seatAt : Nat := 0
  reserved : Bool := false
  reported : Bool := false
  op : Option CollOp := none
  nextOp : Nat := 0
  lastOp : Option (Nat × Bool) := none
  aborts : SMap Nat := []
  rootFa : Option Nat := none
  deriving DecidableEq, Repr

/-! ## Management requests, probes and locks (chapters 8 and 14) -/

/-- An accepted request in the arbiter's request queue (R195). -/
structure MgmtReq where
  slot : Nat
  cmd : Nat
  arg : Nat
  psn : Nat
  src : Nat
  len : Nat
  data : Bool
  value : Nat
  /-- port it arrived on (HELLO) -/
  port : Nat
  pay : List Square
  /-- PSN of the mirror it waits for at the master of a stack (R373) -/
  mirror : Option Nat := none
  /-- it is being carried out and its response is still to come -/
  begun : Bool := false
  deriving DecidableEq, Repr

/-- A purge to send (R357): function's FA, LOP, JOB_ID, target module, due local time, transmissions, REQ_ID. -/
structure Purge where
  fa : Nat
  lop : Nat
  job : Nat
  target : Nat
  due : Nat
  tx : Nat := 0
  /-- built, and no ORIGIN written yet -/
  built : Bool := false
  reqId : Nat
  deriving DecidableEq, Repr

/-- The arbiter's request side. -/
structure CgcSt where
  reqs : List MgmtReq := []
  /-- functions affected in the current window; congested inputs and pawns (R181) -/
  affected : List Nat := []
  /-- functions affected in a window whose predecessor has not been ended yet: window and function (R457) -/
  affLate : List (Nat × Nat) := []
  /-- congested inputs, and congested pawns (R181) -/
  congIn : List Nat := []
  congPawn : List Nat := []
  /-- job contexts in teardown (R191) -/
  jobsDown : List Nat := []
  deriving DecidableEq, Repr

/-- The lock unit beyond its registers: HOLDER_JOB of each word, purges to send, next REQ_ID. -/
structure LckSt where
  holderJob : SMap Nat := []
  purges : List Purge := []
  nextReq : Nat := 0
  deriving DecidableEq, Repr

/-! ## The stack (chapter 15) -/

/-- A stack-control request sent and not yet answered: slot PSN, command, member, local time. -/
structure StkReq where
  psn : Nat
  cmd : Nat
  member : Nat
  at_ : Nat
  arg : Nat
  deriving DecidableEq, Repr

/-- The stack beyond its registers. -/
structure StkSt where
  sent : List StkReq := []
  /-- the ARM held: mask and local time; the committed time T in µs -/
  arm : Option (Nat × Nat) := none
  commit : Option Nat := none
  /-- ARM received and not yet answered while its parts copy -/
  armWait : Option MgmtReq := none
  /-- stack-wide strobe at the master: mask, start, members still to answer, the request -/
  strobe : Option (Nat × Nat × List Nat × Option MgmtReq) := none
  /-- MSEQ sent or last received; a FULL mirror since STALE was set, and its MSEQ -/
  mseq : Nat := 0
  full : Option Nat := none
  fullSet : List Nat := []
  /-- mirrored LAST_RX_PSN by slot -/
  mirror : SMap Nat := []
  /-- local time of the last heartbeat, by member the last response, and the queries' answers -/
  lastHb : Nat := 0
  hbResp : SMap Nat := []
  hbSent : Nat := 0
  okVotes : List Nat := []
  queried : List Nat := []
  /-- members being synced: i while tables are relayed, 16 + i during the strobe, 32 + i after it (R375) -/
  syncing : List Nat := []
  /-- responses of RELAY_READ and RELAY_WRITE awaited by MEMBER_READ and MEMBER_WRITE: PSN sent, request -/
  relays : List (Nat × MgmtReq) := []
  /-- fault classes already reported to the master since their SET rose (R372) -/
  reported : List Nat := []
  /-- stack ports that have entered UP and whose HELLO is not yet sent (R361) -/
  helloDue : List Nat := []
  /-- local time of the last DIGEST sent, and the external ports that were UP in it (R366) -/
  digSent : Nat := 0
  upSeen : List Nat := []
  /-- local time of the last MASTER_QUERY (R374) -/
  queryAt : Nat := 0
  /-- mirrored registers received in the order of a sync; a stack-wide strobe has swapped here after all of them (R375) -/
  relayed : Nat := 0
  strobed : Bool := false
  /-- local time at which this module became the master (R374) -/
  masterAt : Nat := 0
  deriving DecidableEq, Repr

end Sys2Proof.Machine
end

