-- ==== Sys2Proof/Machine/PartsModule.lean ====
section
/-!
DEFINITION. Plain-data parts of the state: the arbiter's order of commands, the Opening, security state, the fault
collector, the time unit, sampling, the power island and the test access port (chapters 2 and 16 to 21).
-/
namespace Sys2Proof.Machine

/-- Where a castle strobe came from (R388). -/
inductive StrobeSrc where
  /-- a GLB_STROBE write -/
  | reg
  /-- the in-band STROBE command; the request waits for its response -/
  | inband
  /-- STROBE through CGC_CMD -/
  | cmd
  /-- a stack STROBE_COMMIT or the master's own swap (R370) -/
  | stack
  deriving DecidableEq, Repr

/-- A command in the arbiter's one order of arrival (R34). Masters are their 12-bit identities (R384). -/
inductive ArbCmd where
  | enter (master : Nat)
  | isolate (unit : Nat) (force : Bool)
  | isolateAll
  | release (unit : Nat)
  | releaseAll
  | leave
  | strobe (mask : Nat) (src : StrobeSrc)
  | reconf (kind index action : Nat)
  | island (k action : Nat)
  deriving DecidableEq, Repr

/-- The arbiter's command order: the waiting commands, first the one in execution; and whether that one has begun (R34, R35). -/
structure ArbSt where
  queue : List ArbCmd := []
  begun : Bool := false
  /-- units whose island was parked when they were isolated (R38) -/
  wasParked : List Nat := []
  /-- released units whose return a LEAVE waits for (R38) -/
  returning : List Nat := []
  /-- units stopped by STOP: (kind, index) (R390) -/
  stoppedUnits : List (Nat × Nat) := []
  deriving DecidableEq, Repr

/-- One host port's entry of HOST_PORTS (R410). -/
structure HostPortCfg where
  enable : Bool
  maxGen : Nat
  maxX8 : Bool
  totalVfs : Nat
  wq : Nat
  cq : Nat
  eq : Nat
  job : Nat
  deriving DecidableEq, Repr

/-- A key slot of SECURITY_POLICY (R413); `key` is the unwrapped key. -/
structure KeySlot where
  valid : Bool
  role : Nat
  perm : Nat
  srcFa : Nat
  key : Nat
  deriving DecidableEq, Repr

/-- A handler slot of ENGINE_IMAGES (R412). -/
structure HandlerCfg where
  slot : Nat
  hook : Nat
  service : Nat
  cycles : Nat
  regionMib : Nat
  deriving DecidableEq, Repr

/-- A verified Opening, taken apart into the parameters of R405 to R413 and R449. -/
structure Opening where
  svn : Nat
  imageId : Nat
  commitSvn : Bool
  mode : Nat
  stackRole : Nat
  moduleId : Nat
  svcPawns : List Nat
  ageLimit : Nat
  stackId : Nat
  members : Nat
  member : Nat
  masterIdx : Nat
  standbyIdx : Nat
  /-- entry of each port group (R406) -/
  portMap : List Nat
  /-- RATE code of each tile (R407) -/
  rates : List Nat
  /-- starting LT_TX_EQ of each lane (R407) -/
  txEq : List Nat
  vlMask : List Nat
  /-- SHARED_GRANT of each logical port (R408) -/
  grants : List Nat
  guarVl : List Nat
  /-- (aperture writable, size in MiB) of partitions 1 to 9 (R409) -/
  parts : List (Bool × Nat)
  hostPorts : List HostPortCfg
  /-- (map offset, value) writes of TABLE_DEFAULTS, in order (R411) -/
  defaults : List (Nat × Nat)
  handlers : List HandlerCfg
  reconfAllowed : Bool
  debugAllowed : Nat
  lockAtBoot : Nat
  keySlots : List KeySlot
  /-- FF_CORR, FF_DEFER, FF_UNCORR, FF_FATAL, CORR_RATE, ALERT_EN, HANDLER, flags, LIFE_WARN, RESET_DELAY_MS (R449) -/
  faultPolicy : List Nat
  deriving DecidableEq, Repr

/-- A SEC command that runs and what its end reports (R423): the token or nonce it took with it. -/
structure SecRun where
  cmd : Nat
  result : Nat := 0
  detail : Nat := 0
  data : List Nat := []
  deriving DecidableEq, Repr

/-- Security state of the arbiter island (R400, R415 to R422). Flash and staging are byte tables. -/
structure SecSt where
  /-- external SPI flash; an unlisted byte is erased, 0xFF (R398) -/
  flash : SMap Nat := []
  /-- staging RAM (R400) -/
  staging : SMap Nat := []
  /-- image length declared before the last warm reset, with which the staging RAM is kept (R400, R484) -/
  keptLen : Nat := 0
  /-- SEC buffer 0xC000 to 0xFFFF (R423) -/
  buffer : SMap Nat := []
  /-- measurement registers M0 to M7 (R419) -/
  meas : List Nat := [0, 0, 0, 0, 0, 0, 0, 0]
  /-- measurement log, oldest first: register, event, time in µs, digest -/
  log : List (Nat × Nat × Nat × Nat) := []
  /-- latest unused challenge (R422) -/
  challenge : Option Nat := none
  /-- debug scopes unlocked (R422) -/
  scopes : Nat := 0
  /-- running command and its outcome, reported when it ends (R423) -/
  running : Option SecRun := none
  /-- 2 s periods since release that have given the attestation bucket its token (R421) -/
  tokens : Nat := 0
  /-- owner root hashes of the owner record, and of a new record that takes effect at the next boot (R420) -/
  owner : Option (Nat × Nat) := none
  newOwner : Option (Option (Nat × Nat) × Nat) := none
  /-- fuse bits of the SVN thermometer that have been burnt in service (R418) -/
  burned : Nat := 0
  /-- the issuer's signatures of the device identity certificate in protected flash (R416) -/
  cert : List Nat := Config.idCert
  deriving DecidableEq, Repr

/-- A checker as the collector sees it: unit and code (R426, R428). -/
abbrev Checker := Nat × Nat

/-- A class of the collector beyond FLT_STATUS and its record (R430 to R433). -/
structure ClassSt where
  /-- local time at which the chess clock started, while it runs -/
  clock : Option Nat := none
  /-- stopped by an acknowledgement -/
  stopped : Bool := false
  /-- units that raised an error of the class since the clock started -/
  units : List Nat := []
  /-- checkers that still assert their pair -/
  asserting : List Checker := []
  /-- units held by an error of the class and not yet released, fenced or spared -/
  holding : List Nat := []
  deriving DecidableEq, Repr

/-- Continuous or pending injection (R435). -/
structure Injection where
  unit : Nat
  code : Nat
  kind : Nat
  cont : Bool
  deriving DecidableEq, Repr

/-- A remapping of 4 KiB blocks of module memory (R442): a block of a lasting row, or every block of a fenced pseudo-channel. -/
inductive Remap where
  | row (b : Nat)
  | channel (k : Nat)
  deriving DecidableEq, Repr

/-- The fault collector beyond its registers (chapter 18). -/
structure FltSt where
  /-- the collector has started since the last cold reset (R425) -/
  started : Bool := false
  /-- the classes with their flags and clocks (R430) -/
  classes : SMap ClassSt := []
  /-- injections that stand (R435) -/
  inj : List Injection := []
  /-- tests scheduled and running, with the unit whose error or FLT_CMD asked for them (R436) -/
  pending : List (TestRegion × Nat) := []
  running : List (TestRegion × Nat) := []
  /-- regions with a transient verdict and its powered time (R438) -/
  transient : List (TestRegion × Nat) := []
  /-- units with a lasting verdict among the tests of the present round (R438) -/
  failed : List Nat := []
  /-- the address of each unit's last error (R433) -/
  lastAddr : SMap Nat := []
  /-- the units that are fenced, a test of theirs running or not (R438, R441) -/
  fenced : List Nat := []
  /-- unit of the FLT_CMD TEST that runs (R440) -/
  cmdUnit : Option Nat := none
  /-- units fenced at flag fall whose verdict is open (R438), units whose spare waits for the arbiter (R445), and units in
  whose place a spare has been activated -/
  fellFenced : List Nat := []
  spareDue : List Nat := []
  spared : List Nat := []
  /-- uncorrectable entries of active banks: map offset, fields of the arbiter's copy by register key, unit (R443) -/
  badTable : List (Nat × SMap Nat × Nat) := []
  /-- 4 KiB blocks of module memory repaired with a spare row, those remapped to unused space, and the remappings, latest first
  (R442) -/
  sparedRows : Nat := 0
  remapped : Nat := 0
  remaps : List Remap := []
  /-- powered time before this power-up, and local time since then without power, in ns; the stored life predictions by island (R441,
  R448) -/
  poweredBase : Nat := 0
  unpowered : Nat := 0
  life : SMap Nat := []
  /-- window number of each unit's CORR_WIN (R434) -/
  corrIdx : SMap Nat := []
  /-- due time of a Fatal automatic reset (R433) -/
  resetAt : Option Nat := none
  /-- local time of the loss of the arbiter's processor, and of the last automatic restart (R444) -/
  lostAt : Option Nat := none
  lastAuto : Option Nat := none
  /-- a restart runs (R446) -/
  restarting : Bool := false
  /-- islands for which LIFE_LOW has been raised (R448) -/
  lifeLow : List Nat := []
  /-- banks fenced by a spare or without one, and banks under test (R146) -/
  fencedBanks : List Nat := []
  /-- hour of powered time in which each island's monitors were last read, and day in which the predictions were last stored
  (R448) -/
  ageHour : SMap Nat := []
  storeDay : Nat := 0
  /-- fences whose entry in the log waits for IN_LOW to clear (R441, R468) -/
  logDue : List Nat := []
  deriving DecidableEq, Repr

/-- The time unit beyond its registers (R451 to R456); fabric time is in units of 2⁻¹⁶ ns. -/
structure TimeSt where
  ft : Nat := 0
  /-- steps of fabric time and changes of the windows' base so far: each ends the windows in progress (R459) -/
  epoch : Nat := 0
  /-- the windows of the remote delay decay, fetch throttling and base delay in progress (R166, R181, R185) -/
  decayWin : Nat := 0
  throttleWin : Nat := 0
  baseWin : Nat := 0
  /-- fraction latched for each master by its last TIM_NOW read (R466) -/
  latch : SMap Nat := []
  /-- the servo's integral part, and the good offsets in a row (R453) -/
  integ : Int := 0
  good : Nat := 0
  /-- correction still to be slewed (R453) -/
  slew : Int := 0
  /-- the frame interval in ns, local time of the last offset, and local time at which the next interval begins (R453, R454) -/
  gap : Nat := 0
  servoAt : Option Nat := none
  nextAt : Nat := 0
  /-- by how much fabric time advanced in the last nanosecond -/
  adv : Nat := 65536
  /-- local time at which holdover began; VALID when it began -/
  holdAt : Option Nat := none
  /-- local time until which no parent is selected (R452) -/
  reattachAt : Nat := 0
  /-- local time at which VALID fell, none when fabric time has not been valid since the last warm or cold reset (R141) -/
  fellAt : Option Nat := none
  /-- the island replica's fabric time at that moment: it runs on and never steps (R459) -/
  fellFt : Nat := 0
  /-- and the rate at which it runs on: 2⁻¹⁶ ns for each local ns (R141) -/
  fellAdv : Nat := 65536
  /-- local time of the last PPS_IN edge (R456) -/
  ppsAt : Nat := 0
  ppsMissed : Bool := false
  /-- local time at which PPS_OUT last rose, none when its pulse was cut short (R456) -/
  ppsRose : Option Nat := none
  deriving DecidableEq, Repr

/-- A tagged item of a sampler (R463, R464): what its record will hold. -/
structure Tagged where
  /-- packet number, or work entry number -/
  id : Nat
  flags : Nat
  cls : Nat
  a : Nat
  b : Nat
  c : Nat
  t0 : Nat
  stages : List (Option Nat)
  psn : Nat
  deriving DecidableEq, Repr

/-- Samplers and snapshots (R462 to R465). -/
structure PmonSt where
  pkts : List Tagged := []
  works : List Tagged := []
  /-- ended items whose record is not written yet -/
  ended : List (Nat × Tagged) := []
  seq : Nat := 0
  /-- snapshot bank: the counters by map key (R462) -/
  snap : SMap Nat := []
  /-- local time of the last snapshot, and of the last periodic one (R462) -/
  snapAt : Option Nat := none
  periodAt : Option Nat := none
  deriving DecidableEq, Repr

/-- State of the input and of the module's supply (R471 to R473). -/
inductive PowerState where
  | off | on | down | heldOff
  deriving DecidableEq, Repr

/-- The power island beyond its registers (chapter 20). -/
structure PwrSt where
  state : PowerState := .on
  /-- the next boot samples RECOVERY_L: the release follows a cold power-up or RESET_L (R40) -/
  sample : Bool := true
  /-- powered time of the last emergency shutdown since the input last fell below 28 V (R473) -/
  lastEmerg : Option Nat := none
  thermal : Bool := false
  /-- due time of a commanded warm reset (R485) -/
  warmAt : Option Nat := none
  /-- local time from which a retry may follow a shutdown (R473) -/
  retryAt : Option Nat := none
  /-- number of the current 10 ms budget window (R475) -/
  budgetIdx : Nat := 0
  /-- number of the 100 µs period of the last telemetry update (R474) -/
  telIdx : Nat := 0
  /-- local time since which a lost 25 MHz reference is present again (R479) -/
  ref25Back : Option Nat := none
  deriving DecidableEq, Repr

/-- The test access port (R494 to R497). -/
structure TapSt where
  /-- opcode of the instruction in the instruction register -/
  ir : Nat := 0x01
  /-- the last instruction loaded was refused (R494) -/
  refused : Bool := false
  /-- the instruction the port acts as -/
  active : Nat := 0x01
  /-- boundary register, 1,794 cells, cell 0 nearest TDI (R497): a set bit per cell -/
  boundary : Nat := 0
  /-- cells that drive their lands while an instruction drives them, and their contents; no contents under HIGHZ -/
  drive : Option (Nat × Nat) := none
  deriving DecidableEq, Repr

end Sys2Proof.Machine
end

