-- ==== Sys2Proof/Machine/RegMap.lean ====
section
/-!
DEFINITION. The register map of R380: for every register field of the chapters' register tables its place in the map,
its width and its reset value (the `R.*` names, in the manual's spelling), and the one table `regTable` of all registers
with their access codes (R9), from which a register's 64-bit word is put together and a written word taken apart.
A field whose reset column reads Opening, Fused, Flash or Sampled has reset 0 here (log entry 2) and gets its value from
the row that loads it (`BOOT_SEQUENCE`, `POWER_UP`).
-/
namespace Sys2Proof.Machine

/-- A register field: `key` is eight times the register's map offset plus the number of the field's lowest bit (so the
keys of different fields differ), `width` its bits, `rst` its reset value. -/
structure FRef where
  key : Nat
  width : Nat
  rst : Nat
  deriving DecidableEq, Repr

/-- The access codes of R9 that decide what a read returns and what a write does. -/
inductive Acc where
  | ro | rw | w1c | wo
  deriving DecidableEq, Repr

/-- One field of a register's table row: low bit, width, reset value, access code, and the codes RWL (locked by its
block's lock bit), RWS (survives a warm reset) and TV (held in triplicate) where the table gives them. -/
structure FieldDef where
  lo : Nat
  width : Nat
  rst : Nat
  acc : Acc
  rwl : Bool := false
  rws : Bool := false
  tv : Bool := false
  deriving DecidableEq, Repr

/-- A register or an array of registers: the offset of its first instance, its dimensions as (count, stride) from the
outermost to the innermost, and its fields. -/
structure RegDef where
  name : String
  base : Nat
  dims : List (Nat × Nat)
  fields : List FieldDef
  deriving DecidableEq, Repr

namespace R

abbrev GLB_IDENTITY_IDENTITY : FRef := ⟨8 * (0x0), 64, 0⟩
abbrev GLB_INFO_MODULE_ID : FRef := ⟨8 * (0x8), 18, 0⟩
abbrev GLB_INFO_STEP_NUM : FRef := ⟨8 * (0x8) + 20, 4, 0⟩
abbrev GLB_INFO_STEP_LET : FRef := ⟨8 * (0x8) + 24, 4, 0⟩
abbrev GLB_ISLAND_STAT_ISL (j : Nat) : FRef := ⟨8 * (0x10) + 2 * j, 2, 0⟩
abbrev GLB_LOCK_SEC_LOCK : FRef := ⟨8 * (0x18), 1, 0⟩
abbrev GLB_LOCK_PWR_LOCK : FRef := ⟨8 * (0x18) + 1, 1, 0⟩
abbrev GLB_LOCK_FLT_LOCK : FRef := ⟨8 * (0x18) + 2, 1, 0⟩
abbrev GLB_LOCK_TIM_LOCK : FRef := ⟨8 * (0x18) + 3, 1, 0⟩
abbrev GLB_APERTURE_WRITE_EN : FRef := ⟨8 * (0x20), 1, 0⟩
abbrev GLB_APERTURE_BASE : FRef := ⟨8 * (0x20) + 20, 15, 0⟩
abbrev GLB_ACC_STAT_REASON : FRef := ⟨8 * (0x28), 4, 0⟩
abbrev GLB_ACC_STAT_WRITE : FRef := ⟨8 * (0x28) + 4, 1, 0⟩
abbrev GLB_ACC_STAT_MASTER : FRef := ⟨8 * (0x28) + 8, 12, 0xfff⟩
abbrev GLB_ACC_ADDR_OFFSET : FRef := ⟨8 * (0x30), 26, 0⟩
abbrev GLB_IRQ_STROBE_DONE : FRef := ⟨8 * (0x38), 1, 0⟩
abbrev GLB_IRQ_ISO_DONE : FRef := ⟨8 * (0x38) + 1, 1, 0⟩
abbrev GLB_IRQ_RECONF_DONE : FRef := ⟨8 * (0x38) + 2, 1, 0⟩
abbrev GLB_IRQ_EN : FRef := ⟨8 * (0x38) + 16, 3, 0⟩
abbrev GLB_MODE_STAT_MODE : FRef := ⟨8 * (0x100), 3, 0⟩
abbrev GLB_MODE_STAT_MAINT : FRef := ⟨8 * (0x100) + 3, 1, 0⟩
abbrev GLB_MODE_STAT_STACK_ROLE : FRef := ⟨8 * (0x100) + 4, 2, 0⟩
abbrev GLB_MODE_STAT_RECOVERY_CAUSE : FRef := ⟨8 * (0x100) + 8, 4, 0⟩
abbrev GLB_MODE_STAT_VARIANT : FRef := ⟨8 * (0x100) + 16, 1, 0⟩
abbrev GLB_MODE_STAT_SERVICE_PAWNS : FRef := ⟨8 * (0x100) + 20, 4, 0⟩
abbrev GLB_MAINT_CTL_ENTER : FRef := ⟨8 * (0x108), 1, 0⟩
abbrev GLB_MAINT_CTL_LEAVE : FRef := ⟨8 * (0x108) + 1, 1, 0⟩
abbrev GLB_MAINT_CTL_OWNER : FRef := ⟨8 * (0x108) + 16, 12, 0xfff⟩
abbrev GLB_ISO_CMD_UNIT : FRef := ⟨8 * (0x110), 9, 0⟩
abbrev GLB_ISO_CMD_ACTION : FRef := ⟨8 * (0x110) + 12, 1, 0⟩
abbrev GLB_ISO_CMD_FORCE : FRef := ⟨8 * (0x110) + 13, 1, 0⟩
abbrev GLB_ISO_CMD_ALL : FRef := ⟨8 * (0x110) + 14, 1, 0⟩
abbrev GLB_ISO_STAT_BUSY : FRef := ⟨8 * (0x118), 1, 0⟩
abbrev GLB_ISO_STAT_RESULT : FRef := ⟨8 * (0x118) + 4, 4, 0⟩
abbrev GLB_ISO_STAT_LAST_UNIT : FRef := ⟨8 * (0x118) + 16, 9, 0⟩
abbrev GLB_ISO_MAP_ISO (n : Nat) : FRef := ⟨8 * (0x120 + 0x8 * n), 64, 0⟩
abbrev GLB_STROBE_MASK : FRef := ⟨8 * (0x200), 64, 0⟩
abbrev GLB_STROBE_STAT_BUSY : FRef := ⟨8 * (0x208), 1, 0⟩
abbrev GLB_STROBE_STAT_RESULT : FRef := ⟨8 * (0x208) + 1, 3, 0⟩
abbrev GLB_STROBE_STAT_COPYING : FRef := ⟨8 * (0x208) + 4, 4, 0⟩
abbrev GLB_STROBE_STAT_MASK_PARTS : FRef := ⟨8 * (0x208) + 8, 4, 0⟩
abbrev GLB_STROBE_STAT_REFUSED : FRef := ⟨8 * (0x208) + 16, 16, 0⟩
abbrev GLB_STROBE_STAT_MASK_TILES : FRef := ⟨8 * (0x208) + 32, 16, 0⟩
abbrev GLB_STROBE_STAT_COUNT : FRef := ⟨8 * (0x208) + 48, 16, 0⟩
abbrev GLB_RECONF_CTL_KIND : FRef := ⟨8 * (0x300), 2, 0⟩
abbrev GLB_RECONF_CTL_INDEX : FRef := ⟨8 * (0x300) + 2, 7, 0⟩
abbrev GLB_RECONF_CTL_ACTION : FRef := ⟨8 * (0x300) + 12, 2, 0⟩
abbrev GLB_RECONF_ARG_ARG : FRef := ⟨8 * (0x308), 64, 0⟩
abbrev GLB_RECONF_STAT_BUSY : FRef := ⟨8 * (0x310), 1, 0⟩
abbrev GLB_RECONF_STAT_RESULT : FRef := ⟨8 * (0x310) + 1, 4, 0⟩
abbrev GLB_RECONF_STAT_LAST_KIND : FRef := ⟨8 * (0x310) + 5, 2, 0⟩
abbrev GLB_RECONF_STAT_LAST_INDEX : FRef := ⟨8 * (0x310) + 7, 7, 0⟩
abbrev GLB_RECONF_STAT_STOPPED : FRef := ⟨8 * (0x310) + 14, 50, 0⟩
abbrev SEC_BOOT_STAT_PHASE : FRef := ⟨8 * (0x10000), 4, 0⟩
abbrev SEC_BOOT_STAT_BOOTED : FRef := ⟨8 * (0x10000) + 4, 2, 0⟩
abbrev SEC_BOOT_STAT_SVN_BURN_FAIL : FRef := ⟨8 * (0x10000) + 6, 1, 0⟩
abbrev SEC_BOOT_STAT_BOOT_MS : FRef := ⟨8 * (0x10000) + 16, 16, 0⟩
abbrev SEC_BOOT_CFG_PREFER : FRef := ⟨8 * (0x10008), 1, 0⟩
abbrev SEC_BOOT_CFG_SOURCE : FRef := ⟨8 * (0x10008) + 1, 1, 0⟩
abbrev SEC_CMD_CMD : FRef := ⟨8 * (0x10010), 8, 0⟩
abbrev SEC_CMD_STAT_BUSY : FRef := ⟨8 * (0x10018), 1, 0⟩
abbrev SEC_CMD_STAT_RESULT : FRef := ⟨8 * (0x10018) + 1, 4, 0⟩
abbrev SEC_CMD_STAT_DETAIL : FRef := ⟨8 * (0x10018) + 8, 4, 0⟩
abbrev SEC_CMD_STAT_LAST_CMD : FRef := ⟨8 * (0x10018) + 16, 8, 0⟩
abbrev SEC_COPY_STAT_REASON_A : FRef := ⟨8 * (0x10020), 4, 15⟩
abbrev SEC_COPY_STAT_REASON_B : FRef := ⟨8 * (0x10020) + 4, 4, 15⟩
abbrev SEC_COPY_STAT_REASON_STAGED : FRef := ⟨8 * (0x10020) + 8, 4, 15⟩
abbrev SEC_COPY_STAT_SVN_A : FRef := ⟨8 * (0x10020) + 16, 8, 0⟩
abbrev SEC_COPY_STAT_SVN_B : FRef := ⟨8 * (0x10020) + 24, 8, 0⟩
abbrev SEC_COPY_STAT_SVN_STAGED : FRef := ⟨8 * (0x10020) + 32, 8, 0⟩
abbrev SEC_IMAGE_IMAGE_ID : FRef := ⟨8 * (0x10028), 64, 0⟩
abbrev SEC_SVN_FUSED : FRef := ⟨8 * (0x10030), 8, 0⟩
abbrev SEC_SVN_RUNNING : FRef := ⟨8 * (0x10030) + 8, 8, 0⟩
abbrev SEC_OWNER_OWNED : FRef := ⟨8 * (0x10038), 1, 0⟩
abbrev SEC_OWNER_PENDING : FRef := ⟨8 * (0x10038) + 1, 1, 0⟩
abbrev SEC_OWNER_REVOKED : FRef := ⟨8 * (0x10038) + 2, 2, 0⟩
abbrev SEC_OWNER_OWNER_SEQ : FRef := ⟨8 * (0x10038) + 32, 32, 0⟩
abbrev SEC_LOAD_CTL_PAGE : FRef := ⟨8 * (0x10040), 10, 0⟩
abbrev SEC_LOAD_CTL_LENGTH : FRef := ⟨8 * (0x10040) + 32, 25, 0⟩
abbrev SEC_HSS_STAT_NEXT_Q : FRef := ⟨8 * (0x10048), 30, 0⟩
abbrev SEC_HSS_STAT_EXHAUSTED : FRef := ⟨8 * (0x10048) + 31, 1, 0⟩
abbrev SEC_HSS_STAT_BUCKET : FRef := ⟨8 * (0x10048) + 32, 7, 64⟩
abbrev SEC_LOG_STAT_ENTRIES : FRef := ⟨8 * (0x10050), 9, 0⟩
abbrev SEC_LOG_STAT_OVERFLOW : FRef := ⟨8 * (0x10050) + 9, 1, 0⟩
abbrev SEC_MEAS_MEAS (k w : Nat) : FRef := ⟨8 * (0x10100 + 0x30 * k + 0x8 * w), 64, 0⟩
abbrev PWR_INPUT_VIN : FRef := ⟨8 * (0x20000), 16, 0⟩
abbrev PWR_INPUT_IIN : FRef := ⟨8 * (0x20000) + 16, 16, 0⟩
abbrev PWR_INPUT_PIN : FRef := ⟨8 * (0x20000) + 32, 16, 0⟩
abbrev PWR_ENERGY_UJ : FRef := ⟨8 * (0x20008), 64, 0⟩
abbrev PWR_STAT_IN_LOW : FRef := ⟨8 * (0x20010), 1, 0⟩
abbrev PWR_STAT_IN_HIGH : FRef := ⟨8 * (0x20010) + 1, 1, 0⟩
abbrev PWR_STAT_OVER_BUDGET : FRef := ⟨8 * (0x20010) + 2, 1, 0⟩
abbrev PWR_STAT_RAIL_BAD : FRef := ⟨8 * (0x20010) + 3, 1, 0⟩
abbrev PWR_STAT_HOT : FRef := ⟨8 * (0x20010) + 4, 1, 0⟩
abbrev PWR_STAT_TJ_MAX : FRef := ⟨8 * (0x20010) + 8, 8, 0⟩
abbrev PWR_BUDGET_LIMIT_W : FRef := ⟨8 * (0x20018), 12, 0⟩
abbrev PWR_CLK_STAT_FAB_LOST : FRef := ⟨8 * (0x20020), 1, 0⟩
abbrev PWR_CLK_STAT_HP_LOST : FRef := ⟨8 * (0x20020) + 1, 4, 0⟩
abbrev PWR_CLK_STAT_MGMT_LOST : FRef := ⟨8 * (0x20020) + 5, 1, 0⟩
abbrev PWR_CLK_STAT_REF25_LOST : FRef := ⟨8 * (0x20020) + 6, 1, 0⟩
abbrev PWR_STRAP_RECOVERY_L : FRef := ⟨8 * (0x20028), 1, 0⟩
abbrev PWR_STRAP_ARB_CLK_SEL : FRef := ⟨8 * (0x20028) + 1, 1, 0⟩
abbrev PWR_RESET_CMD_ACTION : FRef := ⟨8 * (0x20030), 4, 0⟩
abbrev PWR_RESET_STAT_LAST_CAUSE : FRef := ⟨8 * (0x20038), 4, 0⟩
abbrev PWR_RESET_STAT_WARM_COUNT : FRef := ⟨8 * (0x20038) + 16, 16, 0⟩
abbrev PWR_ISL_CMD_ISLAND : FRef := ⟨8 * (0x20040), 5, 0⟩
abbrev PWR_ISL_CMD_ACTION : FRef := ⟨8 * (0x20040) + 8, 3, 0⟩
abbrev PWR_ISL_STAT_BUSY : FRef := ⟨8 * (0x20048), 1, 0⟩
abbrev PWR_ISL_STAT_RESULT : FRef := ⟨8 * (0x20048) + 1, 3, 0⟩
abbrev PWR_ISL_STAT_LAST_ISLAND : FRef := ⟨8 * (0x20048) + 8, 5, 0⟩
abbrev PWR_ISL_STAT_LAST_GROUP : FRef := ⟨8 * (0x20048) + 16, 7, 0⟩
abbrev PWR_PG_RESET_GROUP : FRef := ⟨8 * (0x20050), 7, 0⟩
abbrev PWR_PG_RESET_GO : FRef := ⟨8 * (0x20050) + 8, 1, 0⟩
abbrev PWR_RAIL_VOUT (r : Nat) : FRef := ⟨8 * (0x20100 + 0x8 * r), 16, 0⟩
abbrev PWR_RAIL_IOUT (r : Nat) : FRef := ⟨8 * (0x20100 + 0x8 * r) + 16, 16, 0⟩
abbrev PWR_RAIL_PGOOD (r : Nat) : FRef := ⟨8 * (0x20100 + 0x8 * r) + 32, 1, 0⟩
abbrev PWR_RAIL_FAULT (r : Nat) : FRef := ⟨8 * (0x20100 + 0x8 * r) + 33, 1, 0⟩
abbrev PWR_ISL_P_POWER (k : Nat) : FRef := ⟨8 * (0x20200 + 0x8 * k), 16, 0⟩
abbrev PWR_ISL_P_TJ (k : Nat) : FRef := ⟨8 * (0x20200 + 0x8 * k) + 16, 8, 0⟩
abbrev FLT_STATUS_SET : FRef := ⟨8 * (0x30000), 4, 0⟩
abbrev FLT_STATUS_ACKED : FRef := ⟨8 * (0x30000) + 4, 4, 0⟩
abbrev FLT_STATUS_FELL : FRef := ⟨8 * (0x30000) + 8, 4, 0⟩
abbrev FLT_STATUS_ALERT : FRef := ⟨8 * (0x30000) + 12, 1, 0⟩
abbrev FLT_STATUS_RESET_REQ : FRef := ⟨8 * (0x30000) + 13, 1, 0⟩
abbrev FLT_STATUS_HEADLESS : FRef := ⟨8 * (0x30000) + 14, 1, 0⟩
abbrev FLT_STATUS_HEADLESS_END : FRef := ⟨8 * (0x30000) + 15, 1, 0⟩
abbrev FLT_ACK_ACK : FRef := ⟨8 * (0x30008), 4, 0⟩
abbrev FLT_CLOCK_REMAIN (j : Nat) : FRef := ⟨8 * (0x30010) + 16 * j, 16, 0⟩
abbrev FLT_POLICY0_FF (j : Nat) : FRef := ⟨8 * (0x30018) + 16 * j, 16, 0⟩
abbrev FLT_POLICY1_CORR_RATE : FRef := ⟨8 * (0x30020), 16, 0⟩
abbrev FLT_POLICY1_ALERT_EN : FRef := ⟨8 * (0x30020) + 16, 4, 0⟩
abbrev FLT_POLICY1_HANDLER : FRef := ⟨8 * (0x30020) + 20, 4, 0⟩
abbrev FLT_POLICY1_FATAL_AUTO_RESET : FRef := ⟨8 * (0x30020) + 24, 1, 0⟩
abbrev FLT_POLICY1_INJ_LIVE : FRef := ⟨8 * (0x30020) + 25, 1, 0⟩
abbrev FLT_POLICY1_LIFE_WARN : FRef := ⟨8 * (0x30020) + 32, 8, 0⟩
abbrev FLT_POLICY1_RESET_DELAY_MS : FRef := ⟨8 * (0x30020) + 48, 16, 0⟩
abbrev FLT_INJ_UNIT : FRef := ⟨8 * (0x30028), 10, 0⟩
abbrev FLT_INJ_CODE : FRef := ⟨8 * (0x30028) + 10, 16, 0⟩
abbrev FLT_INJ_KIND : FRef := ⟨8 * (0x30028) + 26, 2, 0⟩
abbrev FLT_INJ_CONT : FRef := ⟨8 * (0x30028) + 28, 1, 0⟩
abbrev FLT_INJ_START : FRef := ⟨8 * (0x30028) + 31, 1, 0⟩
abbrev FLT_INJ_STAT_ACTIVE : FRef := ⟨8 * (0x30030), 1, 0⟩
abbrev FLT_INJ_STAT_RESULT : FRef := ⟨8 * (0x30030) + 1, 3, 0⟩
abbrev FLT_CMD_UNIT : FRef := ⟨8 * (0x30038), 10, 0⟩
abbrev FLT_CMD_ACTION : FRef := ⟨8 * (0x30038) + 12, 3, 0⟩
abbrev FLT_CMD_STAT_BUSY : FRef := ⟨8 * (0x30040), 1, 0⟩
abbrev FLT_CMD_STAT_RESULT : FRef := ⟨8 * (0x30040) + 1, 4, 0⟩
abbrev FLT_CMD_STAT_LAST_UNIT : FRef := ⟨8 * (0x30040) + 5, 10, 0⟩
abbrev FLT_ARB_CTL_RESTART : FRef := ⟨8 * (0x30048), 1, 0⟩
abbrev FLT_ARB_CTL_AUTO_RESTART : FRef := ⟨8 * (0x30048) + 1, 1, 1⟩
abbrev FLT_ARB_STAT_STATE : FRef := ⟨8 * (0x30050), 2, 0⟩
abbrev FLT_ARB_STAT_RESTART_FAIL : FRef := ⟨8 * (0x30050) + 2, 1, 0⟩
abbrev FLT_ARB_STAT_AUTO_USED : FRef := ⟨8 * (0x30050) + 3, 1, 0⟩
abbrev FLT_ARB_STAT_HEADLESS_MIN : FRef := ⟨8 * (0x30050) + 16, 11, 0⟩
abbrev FLT_ARB_STAT_RESTARTS : FRef := ⟨8 * (0x30050) + 32, 16, 0⟩
abbrev FLT_REC (c w : Nat) : FRef := ⟨8 * (0x30100 + 0x40 * c + 0x8 * w), 64, 0⟩
abbrev FLT_LIFE_NOMINAL (k : Nat) : FRef := ⟨8 * (0x30800 + 0x8 * k), 16, 0⟩
abbrev FLT_LIFE_LOWER (k : Nat) : FRef := ⟨8 * (0x30800 + 0x8 * k) + 16, 16, 0⟩
abbrev FLT_LIFE_RO_DRIFT (k : Nat) : FRef := ⟨8 * (0x30800 + 0x8 * k) + 32, 16, 0⟩
abbrev FLT_LIFE_EM_USED (k : Nat) : FRef := ⟨8 * (0x30800 + 0x8 * k) + 48, 8, 0⟩
abbrev FLT_LIFE_ESR_RISE (k : Nat) : FRef := ⟨8 * (0x30800 + 0x8 * k) + 56, 8, 0⟩
abbrev FLT_UNIT_STATE (u : Nat) : FRef := ⟨8 * (0x31000 + 0x8 * u), 3, 0⟩
abbrev FLT_UNIT_VERDICT (u : Nat) : FRef := ⟨8 * (0x31000 + 0x8 * u) + 3, 2, 0⟩
abbrev FLT_UNIT_TEST_PENDING (u : Nat) : FRef := ⟨8 * (0x31000 + 0x8 * u) + 5, 1, 0⟩
abbrev FLT_UNIT_RATE_HIT (u : Nat) : FRef := ⟨8 * (0x31000 + 0x8 * u) + 6, 1, 0⟩
abbrev FLT_UNIT_LOGGED (u : Nat) : FRef := ⟨8 * (0x31000 + 0x8 * u) + 7, 1, 0⟩
abbrev FLT_UNIT_CORR_WIN (u : Nat) : FRef := ⟨8 * (0x31000 + 0x8 * u) + 8, 16, 0⟩
abbrev FLT_UNIT_ERRORS (u : Nat) : FRef := ⟨8 * (0x31000 + 0x8 * u) + 24, 24, 0⟩
abbrev FLT_UNIT_LAST_CODE (u : Nat) : FRef := ⟨8 * (0x31000 + 0x8 * u) + 48, 16, 0⟩
abbrev FLT_FENCE_LOG_UNIT (n : Nat) : FRef := ⟨8 * (0x33000 + 0x8 * n), 10, 0⟩
abbrev FLT_FENCE_LOG_VALID (n : Nat) : FRef := ⟨8 * (0x33000 + 0x8 * n) + 10, 1, 0⟩
abbrev FLT_FENCE_LOG_CLEARING (n : Nat) : FRef := ⟨8 * (0x33000 + 0x8 * n) + 11, 1, 0⟩
abbrev FLT_FENCE_LOG_CODE (n : Nat) : FRef := ⟨8 * (0x33000 + 0x8 * n) + 16, 16, 0⟩
abbrev FLT_FENCE_LOG_POWERED_H (n : Nat) : FRef := ⟨8 * (0x33000 + 0x8 * n) + 32, 32, 0⟩
abbrev TIM_CFG_ROLE : FRef := ⟨8 * (0x40000), 1, 0⟩
abbrev TIM_CFG_PPS_IN_EN : FRef := ⟨8 * (0x40000) + 1, 1, 0⟩
abbrev TIM_CFG_PPS_OUT_EN : FRef := ⟨8 * (0x40000) + 2, 1, 0⟩
abbrev TIM_CFG_MAX_STEPS : FRef := ⟨8 * (0x40000) + 8, 6, 32⟩
abbrev TIM_CFG_REATTACH_US : FRef := ⟨8 * (0x40000) + 16, 16, 200⟩
abbrev TIM_CFG_HOLDOVER_S : FRef := ⟨8 * (0x40000) + 32, 18, 0x15180⟩
abbrev TIM_SERVO_STEP_NS : FRef := ⟨8 * (0x40008), 16, 0x3e8⟩
abbrev TIM_SERVO_LOCK_NS : FRef := ⟨8 * (0x40008) + 16, 8, 20⟩
abbrev TIM_SERVO_KP_SHIFT : FRef := ⟨8 * (0x40008) + 24, 4, 2⟩
abbrev TIM_SERVO_KI_SHIFT : FRef := ⟨8 * (0x40008) + 28, 4, 6⟩
abbrev TIM_STAT_VALID : FRef := ⟨8 * (0x40010), 1, 0⟩
abbrev TIM_STAT_STATE : FRef := ⟨8 * (0x40010) + 1, 2, 0⟩
abbrev TIM_STAT_STEPS : FRef := ⟨8 * (0x40010) + 8, 8, 255⟩
abbrev TIM_STAT_PARENT : FRef := ⟨8 * (0x40010) + 16, 9, 511⟩
abbrev TIM_STAT_HOLD_S : FRef := ⟨8 * (0x40010) + 32, 16, 0⟩
abbrev TIM_NOW_NS : FRef := ⟨8 * (0x40018), 64, 0⟩
abbrev TIM_NOW_FRAC_FRAC : FRef := ⟨8 * (0x40020), 16, 0⟩
abbrev TIM_SET_NS : FRef := ⟨8 * (0x40028), 64, 0⟩
abbrev TIM_SET_CTL_LOAD : FRef := ⟨8 * (0x40030), 1, 0⟩
abbrev TIM_SET_CTL_ARM : FRef := ⟨8 * (0x40030) + 1, 1, 0⟩
abbrev TIM_SET_CTL_ARMED : FRef := ⟨8 * (0x40030) + 2, 1, 0⟩
abbrev TIM_LAST_OFFSET_O : FRef := ⟨8 * (0x40038), 64, 0⟩
abbrev TIM_IRQ_VALID_CHG : FRef := ⟨8 * (0x40040), 1, 0⟩
abbrev TIM_IRQ_PARENT_CHG : FRef := ⟨8 * (0x40040) + 1, 1, 0⟩
abbrev TIM_IRQ_TIME_STEP : FRef := ⟨8 * (0x40040) + 2, 1, 0⟩
abbrev TIM_IRQ_PPS_FAULT : FRef := ⟨8 * (0x40040) + 3, 1, 0⟩
abbrev TIM_IRQ_SNAP_DONE : FRef := ⟨8 * (0x40040) + 4, 1, 0⟩
abbrev TIM_IRQ_EN : FRef := ⟨8 * (0x40040) + 16, 5, 0⟩
abbrev STK_CFG_MEMBER : FRef := ⟨8 * (0x80000), 4, 0⟩
abbrev STK_CFG_MASTER_IDX : FRef := ⟨8 * (0x80000) + 4, 4, 0⟩
abbrev STK_CFG_STANDBY_IDX : FRef := ⟨8 * (0x80000) + 8, 4, 0⟩
abbrev STK_CFG_SPINE : FRef := ⟨8 * (0x80000) + 12, 1, 0⟩
abbrev STK_CFG_MIRROR : FRef := ⟨8 * (0x80000) + 13, 1, 1⟩
abbrev STK_CFG_MEMBERS : FRef := ⟨8 * (0x80000) + 16, 12, 0⟩
abbrev STK_CFG_STACK_ID : FRef := ⟨8 * (0x80000) + 32, 32, 0⟩
abbrev STK_STAT_ROLE_NOW : FRef := ⟨8 * (0x80008), 2, 0⟩
abbrev STK_STAT_MASTER_NOW : FRef := ⟨8 * (0x80008) + 4, 4, 0⟩
abbrev STK_STAT_DEPOSED : FRef := ⟨8 * (0x80008) + 8, 1, 0⟩
abbrev STK_STAT_STANDBY_STALE : FRef := ⟨8 * (0x80008) + 9, 1, 0⟩
abbrev STK_STAT_PRESENT : FRef := ⟨8 * (0x80008) + 16, 12, 0⟩
abbrev STK_TIMING_HB_PERIOD_US : FRef := ⟨8 * (0x80010), 16, 0x3e8⟩
abbrev STK_TIMING_HB_MISS : FRef := ⟨8 * (0x80010) + 16, 4, 10⟩
abbrev STK_TIMING_STROBE_LEAD_US : FRef := ⟨8 * (0x80010) + 20, 16, 50⟩
abbrev STK_TIMING_DIGEST_US : FRef := ⟨8 * (0x80010) + 36, 12, 32⟩
abbrev STK_FAULTS_CORR : FRef := ⟨8 * (0x80018), 12, 0⟩
abbrev STK_FAULTS_DEFER : FRef := ⟨8 * (0x80018) + 16, 12, 0⟩
abbrev STK_FAULTS_UNCORR : FRef := ⟨8 * (0x80018) + 32, 12, 0⟩
abbrev STK_FAULTS_FATAL : FRef := ⟨8 * (0x80018) + 48, 12, 0⟩
abbrev STK_STROBE_STAT_ARMED : FRef := ⟨8 * (0x80020), 1, 0⟩
abbrev STK_STROBE_STAT_CANCELLED : FRef := ⟨8 * (0x80020) + 1, 1, 0⟩
abbrev STK_STROBE_STAT_T_US : FRef := ⟨8 * (0x80020) + 16, 48, 0⟩
abbrev STK_PORT_PEER_PEER (n j : Nat) : FRef := ⟨8 * (0x80040 + 0x8 * n) + 4 * j, 4, 15⟩
abbrev STK_ROW (i w : Nat) : FRef := ⟨8 * (0x80100 + 0x10 * i + 0x8 * w), 64, 0⟩
abbrev STK_ROW_ACT (i w : Nat) : FRef := ⟨8 * (0x80200 + 0x10 * i + 0x8 * w), 64, 0⟩
abbrev LT_TILE_STAT_RATE (t : Nat) : FRef := ⟨8 * (0x100000 + 0x10000 * t), 2, 0⟩
abbrev LT_TILE_STAT_STATE (t : Nat) : FRef := ⟨8 * (0x100000 + 0x10000 * t) + 2, 2, 0⟩
abbrev LT_TILE_STAT_WIDTH (t : Nat) : FRef := ⟨8 * (0x100000 + 0x10000 * t) + 16, 16, 0⟩
abbrev LT_HEALTH_UNHEALTHY (t : Nat) : FRef := ⟨8 * (0x100008 + 0x10000 * t), 32, 0⟩
abbrev LT_HEALTH_CFG_HEALTH_EXP (t : Nat) : FRef := ⟨8 * (0x100010 + 0x10000 * t), 5, 16⟩
abbrev LT_LANE_CTL_PRECODE_REQ (t l : Nat) : FRef := ⟨8 * (0x100100 + 0x10000 * t + 0x80 * l), 2, 0⟩
abbrev LT_LANE_CTL_PAT_SEL (t l : Nat) : FRef := ⟨8 * (0x100100 + 0x10000 * t + 0x80 * l) + 4, 2, 0⟩
abbrev LT_LANE_CTL_PAT_GEN (t l : Nat) : FRef := ⟨8 * (0x100100 + 0x10000 * t + 0x80 * l) + 6, 1, 0⟩
abbrev LT_LANE_CTL_PAT_CHK (t l : Nat) : FRef := ⟨8 * (0x100100 + 0x10000 * t + 0x80 * l) + 7, 1, 0⟩
abbrev LT_LANE_CTL_LPBK (t l : Nat) : FRef := ⟨8 * (0x100100 + 0x10000 * t + 0x80 * l) + 8, 2, 0⟩
abbrev LT_LANE_STAT_STATE (t l : Nat) : FRef := ⟨8 * (0x100108 + 0x10000 * t + 0x80 * l), 2, 0⟩
abbrev LT_LANE_STAT_POL_INV (t l : Nat) : FRef := ⟨8 * (0x100108 + 0x10000 * t + 0x80 * l) + 2, 1, 0⟩
abbrev LT_LANE_STAT_PRECODE_ON (t l : Nat) : FRef := ⟨8 * (0x100108 + 0x10000 * t + 0x80 * l) + 3, 1, 0⟩
abbrev LT_LANE_STAT_COMMA_LOCK (t l : Nat) : FRef := ⟨8 * (0x100108 + 0x10000 * t + 0x80 * l) + 4, 1, 0⟩
abbrev LT_LANE_STAT_LOS (t l : Nat) : FRef := ⟨8 * (0x100108 + 0x10000 * t + 0x80 * l) + 5, 1, 1⟩
abbrev LT_LANE_STAT_EQ_REJECT (t l : Nat) : FRef := ⟨8 * (0x100108 + 0x10000 * t + 0x80 * l) + 6, 1, 0⟩
abbrev LT_LANE_STAT_REMOTE_LANE (t l : Nat) : FRef := ⟨8 * (0x100108 + 0x10000 * t + 0x80 * l) + 7, 9, 0⟩
abbrev LT_LANE_STAT_REMOTE_PLANE (t l : Nat) : FRef := ⟨8 * (0x100108 + 0x10000 * t + 0x80 * l) + 16, 3, 0⟩
abbrev LT_LANE_STAT_REMOTE_MODULE (t l : Nat) : FRef := ⟨8 * (0x100108 + 0x10000 * t + 0x80 * l) + 32, 18, 0⟩
abbrev LT_TX_EQ_PRE (t l : Nat) : FRef := ⟨8 * (0x100110 + 0x10000 * t + 0x80 * l), 7, 0⟩
abbrev LT_TX_EQ_MAIN (t l : Nat) : FRef := ⟨8 * (0x100110 + 0x10000 * t + 0x80 * l) + 8, 7, 0⟩
abbrev LT_TX_EQ_POST (t l : Nat) : FRef := ⟨8 * (0x100110 + 0x10000 * t + 0x80 * l) + 16, 7, 0⟩
abbrev LT_TX_EQ_ADAPT_EN (t l : Nat) : FRef := ⟨8 * (0x100110 + 0x10000 * t + 0x80 * l) + 24, 1, 0⟩
abbrev LT_TX_EQ_ACT_PRE (t l : Nat) : FRef := ⟨8 * (0x100118 + 0x10000 * t + 0x80 * l), 7, 0⟩
abbrev LT_TX_EQ_ACT_MAIN (t l : Nat) : FRef := ⟨8 * (0x100118 + 0x10000 * t + 0x80 * l) + 8, 7, 0⟩
abbrev LT_TX_EQ_ACT_POST (t l : Nat) : FRef := ⟨8 * (0x100118 + 0x10000 * t + 0x80 * l) + 16, 7, 0⟩
abbrev LT_TX_EQ_ACT_ADAPT_EN (t l : Nat) : FRef := ⟨8 * (0x100118 + 0x10000 * t + 0x80 * l) + 24, 1, 0⟩
abbrev LT_RX_ADAPT_ADAPT (t l : Nat) : FRef := ⟨8 * (0x100120 + 0x10000 * t + 0x80 * l), 2, 0⟩
abbrev LT_RX_ADAPT_CTLE (t l : Nat) : FRef := ⟨8 * (0x100120 + 0x10000 * t + 0x80 * l) + 2, 5, 0⟩
abbrev LT_RX_ADAPT_SNR (t l : Nat) : FRef := ⟨8 * (0x100120 + 0x10000 * t + 0x80 * l) + 8, 8, 0⟩
abbrev LT_RX_ADAPT_EYE_MIN (t l : Nat) : FRef := ⟨8 * (0x100120 + 0x10000 * t + 0x80 * l) + 16, 7, 0⟩
abbrev LT_SCAN_CTL_EYE (t l : Nat) : FRef := ⟨8 * (0x100130 + 0x10000 * t + 0x80 * l), 2, 0⟩
abbrev LT_SCAN_CTL_H_OFF (t l : Nat) : FRef := ⟨8 * (0x100130 + 0x10000 * t + 0x80 * l) + 8, 6, 0⟩
abbrev LT_SCAN_CTL_V_OFF (t l : Nat) : FRef := ⟨8 * (0x100130 + 0x10000 * t + 0x80 * l) + 16, 8, 0⟩
abbrev LT_SCAN_CTL_DWELL (t l : Nat) : FRef := ⟨8 * (0x100130 + 0x10000 * t + 0x80 * l) + 24, 4, 0⟩
abbrev LT_SCAN_CTL_START (t l : Nat) : FRef := ⟨8 * (0x100130 + 0x10000 * t + 0x80 * l) + 31, 1, 0⟩
abbrev LT_SCAN_RES_DONE (t l : Nat) : FRef := ⟨8 * (0x100138 + 0x10000 * t + 0x80 * l), 1, 0⟩
abbrev LT_SCAN_RES_ERRORS (t l : Nat) : FRef := ⟨8 * (0x100138 + 0x10000 * t + 0x80 * l) + 8, 24, 0⟩
abbrev LT_SCAN_RES_LEVELS (t l : Nat) : FRef := ⟨8 * (0x100138 + 0x10000 * t + 0x80 * l) + 32, 32, 0⟩
abbrev LT_PAT_STAT_PAT_LOCK (t l : Nat) : FRef := ⟨8 * (0x100150 + 0x10000 * t + 0x80 * l), 1, 0⟩
abbrev LT_PAT_STAT_PAT_INV (t l : Nat) : FRef := ⟨8 * (0x100150 + 0x10000 * t + 0x80 * l) + 1, 1, 0⟩
abbrev LT_PAT_STAT_RESYNC (t l : Nat) : FRef := ⟨8 * (0x100150 + 0x10000 * t + 0x80 * l) + 16, 16, 0⟩
abbrev LT_PORT_STAT_ALIGNED (t k : Nat) : FRef := ⟨8 * (0x102000 + 0x10000 * t + 0x40 * k), 1, 0⟩
abbrev LT_PORT_STAT_LANE_ORDER (t k : Nat) : FRef := ⟨8 * (0x102000 + 0x10000 * t + 0x40 * k) + 1, 2, 0⟩
abbrev LT_PORT_STAT_ID_MISMATCH (t k : Nat) : FRef := ⟨8 * (0x102000 + 0x10000 * t + 0x40 * k) + 3, 1, 0⟩
abbrev LT_PORT_STAT_SKEW (t k : Nat) : FRef := ⟨8 * (0x102000 + 0x10000 * t + 0x40 * k) + 8, 16, 0⟩
abbrev LNK_CTL_RETRAIN (g s : Nat) : FRef := ⟨8 * (0x200000 + 0x1000 * g + 0x800 * s), 1, 0⟩
abbrev LNK_CTL_DISABLE (g s : Nat) : FRef := ⟨8 * (0x200000 + 0x1000 * g + 0x800 * s) + 1, 1, 0⟩
abbrev LNK_CTL_DEGRADE_EN (g s : Nat) : FRef := ⟨8 * (0x200000 + 0x1000 * g + 0x800 * s) + 2, 1, 0⟩
abbrev LNK_CTL_RETRAIN_ON_LIMIT (g s : Nat) : FRef := ⟨8 * (0x200000 + 0x1000 * g + 0x800 * s) + 3, 1, 0⟩
abbrev LNK_STAT_STATE (g s : Nat) : FRef := ⟨8 * (0x200008 + 0x1000 * g + 0x800 * s), 3, 0⟩
abbrev LNK_STAT_WIDTH (g s : Nat) : FRef := ⟨8 * (0x200008 + 0x1000 * g + 0x800 * s) + 3, 2, 3⟩
abbrev LNK_STAT_DEGRADED (g s : Nat) : FRef := ⟨8 * (0x200008 + 0x1000 * g + 0x800 * s) + 5, 1, 0⟩
abbrev LNK_STAT_RX_HALF (g s : Nat) : FRef := ⟨8 * (0x200008 + 0x1000 * g + 0x800 * s) + 6, 1, 0⟩
abbrev LNK_STAT_LEADER (g s : Nat) : FRef := ⟨8 * (0x200008 + 0x1000 * g + 0x800 * s) + 7, 1, 0⟩
abbrev LNK_STAT_SELF_LOOP (g s : Nat) : FRef := ⟨8 * (0x200008 + 0x1000 * g + 0x800 * s) + 8, 1, 0⟩
abbrev LNK_STAT_CAUSE (g s : Nat) : FRef := ⟨8 * (0x200008 + 0x1000 * g + 0x800 * s) + 12, 4, 0⟩
abbrev LNK_STAT_PEER_LPORT (g s : Nat) : FRef := ⟨8 * (0x200008 + 0x1000 * g + 0x800 * s) + 16, 8, 0⟩
abbrev LNK_PEER_ID_IDENTITY (g s : Nat) : FRef := ⟨8 * (0x200010 + 0x1000 * g + 0x800 * s), 64, 0⟩
abbrev LNK_REPLAY_STAT_OCCUPANCY (g s : Nat) : FRef := ⟨8 * (0x200018 + 0x1000 * g + 0x800 * s), 10, 0⟩
abbrev LNK_REPLAY_STAT_WINDOW (g s : Nat) : FRef := ⟨8 * (0x200018 + 0x1000 * g + 0x800 * s) + 16, 10, 0⟩
abbrev LNK_REPLAY_STAT_NEXT_SEQ (g s : Nat) : FRef := ⟨8 * (0x200018 + 0x1000 * g + 0x800 * s) + 32, 12, 0⟩
abbrev LNK_REPLAY_STAT_OLDEST_SEQ (g s : Nat) : FRef := ⟨8 * (0x200018 + 0x1000 * g + 0x800 * s) + 44, 12, 0⟩
abbrev LNK_REPLAY_STAT_REPLAYING (g s : Nat) : FRef := ⟨8 * (0x200018 + 0x1000 * g + 0x800 * s) + 56, 1, 0⟩
abbrev LNK_REPLAY_STAT_REPLAY_RUN (g s : Nat) : FRef := ⟨8 * (0x200018 + 0x1000 * g + 0x800 * s) + 57, 4, 0⟩
abbrev LNK_ERR_CFG_BADROW_LIMIT (g s : Nat) : FRef := ⟨8 * (0x200020 + 0x1000 * g + 0x800 * s), 16, 256⟩
abbrev LNK_ERR_CFG_REPLAY_MAX (g s : Nat) : FRef := ⟨8 * (0x200020 + 0x1000 * g + 0x800 * s) + 16, 4, 8⟩
abbrev LNK_ERR_CFG_REPLAY_TIMEOUT (g s : Nat) : FRef := ⟨8 * (0x200020 + 0x1000 * g + 0x800 * s) + 20, 12, 0⟩
abbrev LNK_ERR_CFG_REPLAY_HOLD (g s : Nat) : FRef := ⟨8 * (0x200020 + 0x1000 * g + 0x800 * s) + 32, 16, 0⟩
abbrev LNK_ERR_CFG_TRAIN_TIMEOUT (g s : Nat) : FRef := ⟨8 * (0x200020 + 0x1000 * g + 0x800 * s) + 48, 8, 100⟩
abbrev LNK_RTT_RTT_MIN (g s : Nat) : FRef := ⟨8 * (0x200028 + 0x1000 * g + 0x800 * s), 20, 0x960⟩
abbrev LNK_CRED_SHARED_AVAIL (g s : Nat) : FRef := ⟨8 * (0x200030 + 0x1000 * g + 0x800 * s), 14, 0⟩
abbrev LNK_CRED_SHARED_GRANT (g s : Nat) : FRef := ⟨8 * (0x200030 + 0x1000 * g + 0x800 * s) + 16, 14, 0⟩
abbrev LNK_CRED_SHARED_PEER_VL_MASK (g s : Nat) : FRef := ⟨8 * (0x200030 + 0x1000 * g + 0x800 * s) + 32, 16, 0⟩
abbrev LNK_TIME_DELAY_DELAY (g s : Nat) : FRef := ⟨8 * (0x200038 + 0x1000 * g + 0x800 * s), 48, 0⟩
abbrev LNK_TIME_OFFSET_OFFSET (g s : Nat) : FRef := ⟨8 * (0x200040 + 0x1000 * g + 0x800 * s), 64, 0⟩
abbrev LNK_CRED_VL_DED_AVAIL (g s v : Nat) : FRef := ⟨8 * (0x200100 + 0x1000 * g + 0x800 * s + 0x8 * v), 7, 0⟩
abbrev LNK_CRED_VL_RX_COUNT (g s v : Nat) : FRef := ⟨8 * (0x200100 + 0x1000 * g + 0x800 * s + 0x8 * v) + 16, 14, 0⟩
abbrev SWC_BUF_STAT_DYN_FREE : FRef := ⟨8 * (0x300000), 22, 0⟩
abbrev SWC_BUF_STAT_DYN_SIZE : FRef := ⟨8 * (0x300000) + 22, 22, 0⟩
abbrev SWC_BUF_STAT_SPARES_LEFT : FRef := ⟨8 * (0x300000) + 44, 3, 6⟩
abbrev SWC_BUF_STAT_TIME_VALID : FRef := ⟨8 * (0x300000) + 47, 1, 0⟩
abbrev SWC_AGE_CFG_AGE_LIMIT : FRef := ⟨8 * (0x300008), 10, 0⟩
abbrev SWC_AUDIT_CTL_RETURN_EN : FRef := ⟨8 * (0x300010), 1, 1⟩
abbrev SWC_AUDIT_CTL_PASSES : FRef := ⟨8 * (0x300010) + 16, 16, 0⟩
abbrev SWC_AUDIT_LAST_ADDR : FRef := ⟨8 * (0x300018), 22, 0⟩
abbrev SWC_AUDIT_LAST_KIND : FRef := ⟨8 * (0x300018) + 22, 2, 0⟩
abbrev SWC_VL_TC_TC (j : Nat) : FRef := ⟨8 * (0x300080) + 2 * j, 2, 0⟩
abbrev SWC_VL_TC_ACT_TC (j : Nat) : FRef := ⟨8 * (0x300088) + 2 * j, 2, 0⟩
abbrev SWC_BANK_FENCE (k : Nat) : FRef := ⟨8 * (0x300040 + 0x8 * k), 64, 0⟩
abbrev SWC_LOCAL_CFG_ALPHA (i : Nat) : FRef := ⟨8 * (0x301000 + 0x40 * i), 4, 0⟩
abbrev SWC_LOCAL_CFG_GUAR_VL (i : Nat) : FRef := ⟨8 * (0x301000 + 0x40 * i) + 16, 16, 0⟩
abbrev SWC_LOCAL_OCC_DYN_USED (i : Nat) : FRef := ⟨8 * (0x301008 + 0x40 * i), 22, 0⟩
abbrev SWC_LOCAL_OCC_VL0_USED (i : Nat) : FRef := ⟨8 * (0x301008 + 0x40 * i) + 22, 4, 0⟩
abbrev SWC_LOCAL_OCC_GUAR_USED (i : Nat) : FRef := ⟨8 * (0x301008 + 0x40 * i) + 26, 22, 0⟩
abbrev SWC_LOCAL_OCC_WAITING (i : Nat) : FRef := ⟨8 * (0x301008 + 0x40 * i) + 48, 16, 0⟩
abbrev SWC_OUT_CFG_BETA (o : Nat) : FRef := ⟨8 * (0x310000 + 0x200 * o), 4, 0⟩
abbrev SWC_OUT_CFG_DEPTH_MIN (o : Nat) : FRef := ⟨8 * (0x310000 + 0x200 * o) + 16, 16, 0x400⟩
abbrev SWC_DWRR_QUANTUM (o t : Nat) : FRef := ⟨8 * (0x310010 + 0x200 * o + 0x8 * t), 16, 65⟩
abbrev SWC_DWRR_DEFICIT (o t : Nat) : FRef := ⟨8 * (0x310010 + 0x200 * o + 0x8 * t) + 32, 16, 0⟩
abbrev SWC_SHP_RATE (o t : Nat) : FRef := ⟨8 * (0x310030 + 0x200 * o + 0x8 * t), 13, 0x1000⟩
abbrev SWC_SHP_HI (o t : Nat) : FRef := ⟨8 * (0x310030 + 0x200 * o + 0x8 * t) + 16, 16, 130⟩
abbrev SWC_SHP_LO (o t : Nat) : FRef := ⟨8 * (0x310030 + 0x200 * o + 0x8 * t) + 32, 16, 65⟩
abbrev SWC_SHP_EN (o t : Nat) : FRef := ⟨8 * (0x310030 + 0x200 * o + 0x8 * t) + 48, 1, 0⟩
abbrev SWC_SHP_TOKEN_INIT (o t : Nat) : FRef := ⟨8 * (0x310030 + 0x200 * o + 0x8 * t) + 49, 1, 1⟩
abbrev SWC_SHP_ACT_RATE (o t : Nat) : FRef := ⟨8 * (0x310050 + 0x200 * o + 0x8 * t), 13, 0x1000⟩
abbrev SWC_SHP_ACT_HI (o t : Nat) : FRef := ⟨8 * (0x310050 + 0x200 * o + 0x8 * t) + 16, 16, 130⟩
abbrev SWC_SHP_ACT_LO (o t : Nat) : FRef := ⟨8 * (0x310050 + 0x200 * o + 0x8 * t) + 32, 16, 65⟩
abbrev SWC_SHP_ACT_EN (o t : Nat) : FRef := ⟨8 * (0x310050 + 0x200 * o + 0x8 * t) + 48, 1, 0⟩
abbrev SWC_SHP_ACT_TOKEN_INIT (o t : Nat) : FRef := ⟨8 * (0x310050 + 0x200 * o + 0x8 * t) + 49, 1, 1⟩
abbrev SWC_SHP_CRED_CREDIT (o t : Nat) : FRef := ⟨8 * (0x310070 + 0x200 * o + 0x8 * t), 32, 0⟩
abbrev SWC_DEPTH_DEPTH (o v : Nat) : FRef := ⟨8 * (0x310100 + 0x200 * o + 0x8 * v), 22, 0⟩
abbrev SWC_POL_RATE_C_RATE (f : Nat) : FRef := ⟨8 * (0x340000 + 0x40 * f), 24, 0⟩
abbrev SWC_POL_RATE_C_BURST (f : Nat) : FRef := ⟨8 * (0x340000 + 0x40 * f) + 24, 24, 65⟩
abbrev SWC_POL_RATE_P_RATE (f : Nat) : FRef := ⟨8 * (0x340008 + 0x40 * f), 24, 0⟩
abbrev SWC_POL_RATE_P_BURST (f : Nat) : FRef := ⟨8 * (0x340008 + 0x40 * f) + 24, 24, 65⟩
abbrev SWC_POL_CTL_EN (f : Nat) : FRef := ⟨8 * (0x340010 + 0x40 * f), 1, 0⟩
abbrev SWC_POL_CTL_AWARE (f : Nat) : FRef := ⟨8 * (0x340010 + 0x40 * f) + 1, 1, 0⟩
abbrev SWC_POL_CTL_ACT_G (f : Nat) : FRef := ⟨8 * (0x340010 + 0x40 * f) + 2, 2, 0⟩
abbrev SWC_POL_CTL_ACT_Y (f : Nat) : FRef := ⟨8 * (0x340010 + 0x40 * f) + 4, 2, 0⟩
abbrev SWC_POL_CTL_ACT_R (f : Nat) : FRef := ⟨8 * (0x340010 + 0x40 * f) + 6, 2, 1⟩
abbrev SWC_POL_CTL_TOKEN_INIT (f : Nat) : FRef := ⟨8 * (0x340010 + 0x40 * f) + 8, 1, 1⟩
abbrev SWC_POL_RATE_C_ACT_RATE (f : Nat) : FRef := ⟨8 * (0x340018 + 0x40 * f), 24, 0⟩
abbrev SWC_POL_RATE_C_ACT_BURST (f : Nat) : FRef := ⟨8 * (0x340018 + 0x40 * f) + 24, 24, 65⟩
abbrev SWC_POL_RATE_P_ACT_RATE (f : Nat) : FRef := ⟨8 * (0x340020 + 0x40 * f), 24, 0⟩
abbrev SWC_POL_RATE_P_ACT_BURST (f : Nat) : FRef := ⟨8 * (0x340020 + 0x40 * f) + 24, 24, 65⟩
abbrev SWC_POL_CTL_ACT_EN (f : Nat) : FRef := ⟨8 * (0x340028 + 0x40 * f), 1, 0⟩
abbrev SWC_POL_CTL_ACT_AWARE (f : Nat) : FRef := ⟨8 * (0x340028 + 0x40 * f) + 1, 1, 0⟩
abbrev SWC_POL_CTL_ACT_ACT_G (f : Nat) : FRef := ⟨8 * (0x340028 + 0x40 * f) + 2, 2, 0⟩
abbrev SWC_POL_CTL_ACT_ACT_Y (f : Nat) : FRef := ⟨8 * (0x340028 + 0x40 * f) + 4, 2, 0⟩
abbrev SWC_POL_CTL_ACT_ACT_R (f : Nat) : FRef := ⟨8 * (0x340028 + 0x40 * f) + 6, 2, 1⟩
abbrev SWC_POL_CTL_ACT_TOKEN_INIT (f : Nat) : FRef := ⟨8 * (0x340028 + 0x40 * f) + 8, 1, 1⟩
abbrev SWC_POL_TOK_C (f : Nat) : FRef := ⟨8 * (0x340030 + 0x40 * f), 24, 0⟩
abbrev SWC_POL_TOK_P (f : Nat) : FRef := ⟨8 * (0x340030 + 0x40 * f) + 24, 24, 0⟩
abbrev SWC_POL_TOK_HELD (f : Nat) : FRef := ⟨8 * (0x340030 + 0x40 * f) + 48, 16, 0⟩
abbrev RTE_CFG_SPLIT : FRef := ⟨8 * (0x400000), 4, 0⟩
abbrev RTE_CFG_NGROUPS : FRef := ⟨8 * (0x400000) + 16, 15, 0⟩
abbrev RTE_CFG_ACT_SPLIT : FRef := ⟨8 * (0x400008), 4, 0⟩
abbrev RTE_CFG_ACT_NGROUPS : FRef := ⟨8 * (0x400008) + 16, 15, 0⟩
abbrev RTE_ROLL_CFG_HALF : FRef := ⟨8 * (0x400010), 4, 8⟩
abbrev RTE_ROLL_CFG_RW : FRef := ⟨8 * (0x400010) + 4, 4, 4⟩
abbrev RTE_ROLL_CFG_NM_THRESH : FRef := ⟨8 * (0x400010) + 8, 16, 0x7d0⟩
abbrev RTE_ROLL_CFG_NM_BIAS : FRef := ⟨8 * (0x400010) + 24, 16, 200⟩
abbrev RTE_ROLL_CFG_RSHIFT : FRef := ⟨8 * (0x400010) + 40, 4, 3⟩
abbrev RTE_ROLL_CFG_NM_EN : FRef := ⟨8 * (0x400010) + 44, 1, 1⟩
abbrev RTE_ROLL_CFG_REMOTE_EN : FRef := ⟨8 * (0x400010) + 45, 1, 1⟩
abbrev RTE_STAT_BANK : FRef := ⟨8 * (0x400018), 1, 0⟩
abbrev RTE_STAT_COPYING : FRef := ⟨8 * (0x400018) + 1, 1, 0⟩
abbrev RTE_STAT_CFG_REJECT : FRef := ⟨8 * (0x400018) + 2, 1, 0⟩
abbrev RTE_STAT_STROBES : FRef := ⟨8 * (0x400018) + 16, 16, 0⟩
abbrev RTE_STAGE_LAST_DEST_FA : FRef := ⟨8 * (0x400020), 32, 0⟩
abbrev RTE_STAGE_LAST_INPUT : FRef := ⟨8 * (0x400020) + 32, 9, 0⟩
abbrev RTE_STAGE_LAST_CLASS : FRef := ⟨8 * (0x400020) + 41, 3, 0⟩
abbrev RTE_STAGE_LAST_REASON : FRef := ⟨8 * (0x400020) + 44, 4, 0⟩
abbrev RTE_DROP_LAST_DEST_FA : FRef := ⟨8 * (0x400028), 32, 0⟩
abbrev RTE_DROP_LAST_INPUT : FRef := ⟨8 * (0x400028) + 32, 9, 0⟩
abbrev RTE_DROP_LAST_CLASS : FRef := ⟨8 * (0x400028) + 41, 3, 0⟩
abbrev RTE_DROP_LAST_REASON : FRef := ⟨8 * (0x400028) + 44, 4, 0⟩
abbrev RTE_PORT_LVL_DLVL_OUT (p : Nat) : FRef := ⟨8 * (0x401000 + 0x10 * p), 3, 0⟩
abbrev RTE_PORT_LVL_DLVL_IN (p : Nat) : FRef := ⟨8 * (0x401000 + 0x10 * p) + 3, 3, 0⟩
abbrev RTE_PORT_LVL_CLVL_OUT (p : Nat) : FRef := ⟨8 * (0x401000 + 0x10 * p) + 6, 3, 0⟩
abbrev RTE_PORT_LVL_CLVL_IN (p : Nat) : FRef := ⟨8 * (0x401000 + 0x10 * p) + 9, 3, 0⟩
abbrev RTE_PORT_LVL_MLVL_OUT (p : Nat) : FRef := ⟨8 * (0x401000 + 0x10 * p) + 12, 3, 0⟩
abbrev RTE_PORT_LVL_MLVL_IN (p : Nat) : FRef := ⟨8 * (0x401000 + 0x10 * p) + 15, 3, 0⟩
abbrev RTE_PORT_LVL_PEER_GROUP (p : Nat) : FRef := ⟨8 * (0x401000 + 0x10 * p) + 18, 14, 0⟩
abbrev RTE_PORT_LVL_ACT_DLVL_OUT (p : Nat) : FRef := ⟨8 * (0x401008 + 0x10 * p), 3, 0⟩
abbrev RTE_PORT_LVL_ACT_DLVL_IN (p : Nat) : FRef := ⟨8 * (0x401008 + 0x10 * p) + 3, 3, 0⟩
abbrev RTE_PORT_LVL_ACT_CLVL_OUT (p : Nat) : FRef := ⟨8 * (0x401008 + 0x10 * p) + 6, 3, 0⟩
abbrev RTE_PORT_LVL_ACT_CLVL_IN (p : Nat) : FRef := ⟨8 * (0x401008 + 0x10 * p) + 9, 3, 0⟩
abbrev RTE_PORT_LVL_ACT_MLVL_OUT (p : Nat) : FRef := ⟨8 * (0x401008 + 0x10 * p) + 12, 3, 0⟩
abbrev RTE_PORT_LVL_ACT_MLVL_IN (p : Nat) : FRef := ⟨8 * (0x401008 + 0x10 * p) + 15, 3, 0⟩
abbrev RTE_PORT_LVL_ACT_PEER_GROUP (p : Nat) : FRef := ⟨8 * (0x401008 + 0x10 * p) + 18, 14, 0⟩
abbrev RTE_REMOTE_R (p : Nat) : FRef := ⟨8 * (0x402000 + 0x8 * p), 20, 0⟩
abbrev RTE_LOC_TBL (k w : Nat) : FRef := ⟨8 * (0x410000 + 0x40 * k + 0x8 * w), 64, 0⟩
abbrev RTE_LOC_TBL_ACT (k w : Nat) : FRef := ⟨8 * (0x420000 + 0x40 * k + 0x8 * w), 64, 0⟩
abbrev RTE_MC_TBL (k w : Nat) : FRef := ⟨8 * (0x440000 + 0x40 * k + 0x8 * w), 64, 0⟩
abbrev RTE_MC_TBL_ACT (k w : Nat) : FRef := ⟨8 * (0x480000 + 0x40 * k + 0x8 * w), 64, 0⟩
abbrev RTE_GRP_TBL (k w : Nat) : FRef := ⟨8 * (0x500000 + 0x40 * k + 0x8 * w), 64, 0⟩
abbrev RTE_GRP_TBL_ACT (k w : Nat) : FRef := ⟨8 * (0x600000 + 0x40 * k + 0x8 * w), 64, 0⟩
abbrev CGC_THR_CFG_OCC_ON : FRef := ⟨8 * (0x800000), 22, 0x40000⟩
abbrev CGC_THR_CFG_OCC_OFF : FRef := ⟨8 * (0x800000) + 22, 22, 0x30000⟩
abbrev CGC_THR_CFG_PQ_ON : FRef := ⟨8 * (0x800000) + 44, 10, 512⟩
abbrev CGC_THR_CFG_PQ_OFF : FRef := ⟨8 * (0x800000) + 54, 10, 256⟩
abbrev CGC_GAP_CFG_GAP_MIN : FRef := ⟨8 * (0x800008), 16, 64⟩
abbrev CGC_GAP_CFG_GAP_MAX : FRef := ⟨8 * (0x800008) + 16, 24, 0x10000⟩
abbrev CGC_GAP_CFG_THR_EN : FRef := ⟨8 * (0x800008) + 40, 1, 1⟩
abbrev CGC_WIN_CFG_AI : FRef := ⟨8 * (0x800010), 16, 0x1000⟩
abbrev CGC_WIN_CFG_BETA : FRef := ⟨8 * (0x800010) + 16, 8, 205⟩
abbrev CGC_WIN_CFG_MD_MAX : FRef := ⟨8 * (0x800010) + 24, 8, 128⟩
abbrev CGC_WIN_CFG_SLACK : FRef := ⟨8 * (0x800010) + 32, 20, 0xfa0⟩
abbrev CGC_WIN_CFG_WIN_EN : FRef := ⟨8 * (0x800010) + 52, 1, 1⟩
abbrev CGC_WIN_LIM_W_INIT : FRef := ⟨8 * (0x800018), 20, 0x1000⟩
abbrev CGC_WIN_LIM_W_MIN : FRef := ⟨8 * (0x800018) + 20, 20, 64⟩
abbrev CGC_WIN_LIM_W_MAX : FRef := ⟨8 * (0x800018) + 40, 20, 0x40000⟩
abbrev CGC_GRANT_CFG_GRANT_THRESH : FRef := ⟨8 * (0x800020), 16, 64⟩
abbrev CGC_GRANT_CFG_GRANT_CHUNK : FRef := ⟨8 * (0x800020) + 16, 16, 256⟩
abbrev CGC_GRANT_CFG_UNSCHED : FRef := ⟨8 * (0x800020) + 32, 16, 16⟩
abbrev CGC_GRANT_CFG_GRANT_EN : FRef := ⟨8 * (0x800020) + 48, 1, 1⟩
abbrev CGC_CMD_CMD : FRef := ⟨8 * (0x800080), 16, 0⟩
abbrev CGC_CMD_ARG_ARG : FRef := ⟨8 * (0x800088), 64, 0⟩
abbrev CGC_CMD_STAT_BUSY : FRef := ⟨8 * (0x800090), 1, 0⟩
abbrev CGC_CMD_STAT_RESULT : FRef := ⟨8 * (0x800090) + 8, 8, 0⟩
abbrev CGC_CMD_STAT_LAST_CMD : FRef := ⟨8 * (0x800090) + 16, 16, 0⟩
abbrev CGC_CMD_STAT_TEARDOWN_PENDING : FRef := ⟨8 * (0x800090) + 32, 1, 0⟩
abbrev CGC_CMD_STAT_ALL_CMDR : FRef := ⟨8 * (0x800090) + 33, 1, 0⟩
abbrev CGC_CMD_STAT_ALL_FM : FRef := ⟨8 * (0x800090) + 34, 1, 0⟩
abbrev CGC_GRANT_BUDGET_BUDGET (h : Nat) : FRef := ⟨8 * (0x800040 + 0x8 * h), 24, 0x1000⟩
abbrev CGC_GRANT_BUDGET_OUTSTANDING (h : Nat) : FRef := ⟨8 * (0x800040 + 0x8 * h) + 24, 24, 0⟩
abbrev CGC_GRANT_BUDGET_PENDING (h : Nat) : FRef := ⟨8 * (0x800040 + 0x8 * h) + 48, 16, 0⟩
abbrev CGC_PROBE_LAST0_PROBE_ID : FRef := ⟨8 * (0x800098), 64, 0⟩
abbrev CGC_PROBE_LAST1_TX_TIME : FRef := ⟨8 * (0x8000a0), 64, 0⟩
abbrev CGC_PROBE_LAST2_RX_TIME : FRef := ⟨8 * (0x8000a8), 64, 0⟩
abbrev CGC_PROBE_LAST3_ARRIVAL : FRef := ⟨8 * (0x8000b0), 64, 0⟩
abbrev CGC_PROBE_LAST4_ECHO_SRC : FRef := ⟨8 * (0x8000b8), 32, 0⟩
abbrev CGC_KEY_SLOT_VALID (k : Nat) : FRef := ⟨8 * (0x800100 + 0x10 * k), 1, 0⟩
abbrev CGC_KEY_SLOT_ROLE (k : Nat) : FRef := ⟨8 * (0x800100 + 0x10 * k) + 1, 1, 0⟩
abbrev CGC_KEY_SLOT_PERM (k : Nat) : FRef := ⟨8 * (0x800100 + 0x10 * k) + 16, 8, 0⟩
abbrev CGC_KEY_SLOT_SRC_FA (k : Nat) : FRef := ⟨8 * (0x800100 + 0x10 * k) + 32, 32, 0⟩
abbrev CGC_KEY_PSN_LAST_RX_PSN (k : Nat) : FRef := ⟨8 * (0x800108 + 0x10 * k), 32, 0⟩
abbrev CGC_KEY_PSN_TX_PSN (k : Nat) : FRef := ⟨8 * (0x800108 + 0x10 * k) + 32, 32, 0⟩
abbrev CGC_FN_STAT_Q_CMDR (f : Nat) : FRef := ⟨8 * (0x801000 + 0x8 * f), 1, 0⟩
abbrev CGC_FN_STAT_Q_FM (f : Nat) : FRef := ⟨8 * (0x801000 + 0x8 * f) + 1, 1, 0⟩
abbrev CGC_FN_STAT_AFFECTED (f : Nat) : FRef := ⟨8 * (0x801000 + 0x8 * f) + 2, 1, 0⟩
abbrev CGC_FN_STAT_GAP (f : Nat) : FRef := ⟨8 * (0x801000 + 0x8 * f) + 16, 24, 0⟩
abbrev CGC_QUENCH_JOB (n : Nat) : FRef := ⟨8 * (0x802000 + 0x8 * n), 64, 0⟩
abbrev HPT_PORT_CFG_ENABLE (p : Nat) : FRef := ⟨8 * (0x900000 + 0x40000 * p), 1, 0⟩
abbrev HPT_PORT_CFG_MAX_GEN (p : Nat) : FRef := ⟨8 * (0x900000 + 0x40000 * p) + 1, 3, 0⟩
abbrev HPT_PORT_CFG_MAX_X8 (p : Nat) : FRef := ⟨8 * (0x900000 + 0x40000 * p) + 4, 1, 0⟩
abbrev HPT_PORT_CFG_TOTAL_VFS (p : Nat) : FRef := ⟨8 * (0x900000 + 0x40000 * p) + 8, 7, 0⟩
abbrev HPT_PORT_CFG_JOB_POOL (p : Nat) : FRef := ⟨8 * (0x900000 + 0x40000 * p) + 16, 13, 0⟩
abbrev HPT_PORT_STAT_LINK_UP (p : Nat) : FRef := ⟨8 * (0x900008 + 0x40000 * p), 1, 0⟩
abbrev HPT_PORT_STAT_GEN (p : Nat) : FRef := ⟨8 * (0x900008 + 0x40000 * p) + 1, 3, 0⟩
abbrev HPT_PORT_STAT_WIDTH (p : Nat) : FRef := ⟨8 * (0x900008 + 0x40000 * p) + 4, 5, 0⟩
abbrev HPT_PORT_STAT_FLIT (p : Nat) : FRef := ⟨8 * (0x900008 + 0x40000 * p) + 9, 1, 0⟩
abbrev HPT_PORT_STAT_VF_ENABLE (p : Nat) : FRef := ⟨8 * (0x900008 + 0x40000 * p) + 16, 1, 0⟩
abbrev HPT_PORT_STAT_NUM_VFS (p : Nat) : FRef := ⟨8 * (0x900008 + 0x40000 * p) + 24, 7, 0⟩
abbrev HPT_PORT_POOL_WQ (p : Nat) : FRef := ⟨8 * (0x900010 + 0x40000 * p), 21, 0⟩
abbrev HPT_PORT_POOL_CQ (p : Nat) : FRef := ⟨8 * (0x900010 + 0x40000 * p) + 21, 19, 0⟩
abbrev HPT_PORT_POOL_EQ (p : Nat) : FRef := ⟨8 * (0x900010 + 0x40000 * p) + 40, 14, 0⟩
abbrev HPT_FN_STAT_ENABLED (p f : Nat) : FRef := ⟨8 * (0x910000 + 0x40000 * p + 0x100 * f), 1, 0⟩
abbrev HPT_FN_STAT_TEARDOWN (p f : Nat) : FRef := ⟨8 * (0x910000 + 0x40000 * p + 0x100 * f) + 1, 1, 0⟩
abbrev HPT_FN_STAT_CAUSE (p f : Nat) : FRef := ⟨8 * (0x910000 + 0x40000 * p + 0x100 * f) + 2, 3, 0⟩
abbrev HPT_FN_STAT_ADMIN_READY (p f : Nat) : FRef := ⟨8 * (0x910000 + 0x40000 * p + 0x100 * f) + 5, 1, 0⟩
abbrev HPT_FN_STAT_COUNTERS_ALLOWED (p f : Nat) : FRef := ⟨8 * (0x910000 + 0x40000 * p + 0x100 * f) + 6, 1, 0⟩
abbrev HPT_FN_TEARDOWN_START (p f : Nat) : FRef := ⟨8 * (0x910008 + 0x40000 * p + 0x100 * f), 1, 0⟩
abbrev HPT_FN_TEARDOWN_ACTIVE (p f : Nat) : FRef := ⟨8 * (0x910008 + 0x40000 * p + 0x100 * f) + 1, 1, 0⟩
abbrev HPT_FN_TEARDOWN_LAST_US (p f : Nat) : FRef := ⟨8 * (0x910008 + 0x40000 * p + 0x100 * f) + 8, 24, 0⟩
abbrev HPT_FN_QUOTA_WQ (p f : Nat) : FRef := ⟨8 * (0x910010 + 0x40000 * p + 0x100 * f), 17, 0⟩
abbrev HPT_FN_QUOTA_CQ (p f : Nat) : FRef := ⟨8 * (0x910010 + 0x40000 * p + 0x100 * f) + 17, 17, 0⟩
abbrev HPT_FN_QUOTA_EQ (p f : Nat) : FRef := ⟨8 * (0x910010 + 0x40000 * p + 0x100 * f) + 34, 12, 0⟩
abbrev HPT_FN_QUOTA_JOB (p f : Nat) : FRef := ⟨8 * (0x910010 + 0x40000 * p + 0x100 * f) + 46, 13, 0⟩
abbrev HPT_FN_USED_WQ (p f : Nat) : FRef := ⟨8 * (0x910018 + 0x40000 * p + 0x100 * f), 17, 0⟩
abbrev HPT_FN_USED_CQ (p f : Nat) : FRef := ⟨8 * (0x910018 + 0x40000 * p + 0x100 * f) + 17, 17, 0⟩
abbrev HPT_FN_USED_EQ (p f : Nat) : FRef := ⟨8 * (0x910018 + 0x40000 * p + 0x100 * f) + 34, 12, 0⟩
abbrev HPT_FN_USED_JOB (p f : Nat) : FRef := ⟨8 * (0x910018 + 0x40000 * p + 0x100 * f) + 46, 13, 0⟩
abbrev HPT_FN_INFO_FA (p f : Nat) : FRef := ⟨8 * (0x920000 + 0x40000 * p + 0x100 * f), 32, 0⟩
abbrev HPT_FN_INFO_COUNTERS_ALLOWED (p f : Nat) : FRef := ⟨8 * (0x920000 + 0x40000 * p + 0x100 * f) + 32, 1, 0⟩
abbrev HPT_FN_STATUS_TEARDOWN (p f : Nat) : FRef := ⟨8 * (0x920008 + 0x40000 * p + 0x100 * f), 1, 0⟩
abbrev HPT_FN_STATUS_CAUSE (p f : Nat) : FRef := ⟨8 * (0x920008 + 0x40000 * p + 0x100 * f) + 1, 3, 0⟩
abbrev HPT_FN_STATUS_ADMIN_READY (p f : Nat) : FRef := ⟨8 * (0x920008 + 0x40000 * p + 0x100 * f) + 4, 1, 0⟩
abbrev HPT_FN_STATUS_QUENCHED (p f : Nat) : FRef := ⟨8 * (0x920008 + 0x40000 * p + 0x100 * f) + 5, 1, 0⟩
abbrev HPT_ADMIN_WQ_BASE_BASE (p f : Nat) : FRef := ⟨8 * (0x920010 + 0x40000 * p + 0x100 * f), 64, 0⟩
abbrev HPT_ADMIN_CQ_BASE_BASE (p f : Nat) : FRef := ⟨8 * (0x920018 + 0x40000 * p + 0x100 * f), 64, 0⟩
abbrev HPT_ADMIN_CFG_LOG_SIZE (p f : Nat) : FRef := ⟨8 * (0x920020 + 0x40000 * p + 0x100 * f), 4, 6⟩
abbrev HPT_ADMIN_CFG_ENABLE (p f : Nat) : FRef := ⟨8 * (0x920020 + 0x40000 * p + 0x100 * f) + 4, 1, 0⟩
abbrev HPT_ADMIN_CFG_VECTOR (p f : Nat) : FRef := ⟨8 * (0x920020 + 0x40000 * p + 0x100 * f) + 16, 11, 0⟩
abbrev TRN_CFG_PAGE_RETRY_US : FRef := ⟨8 * (0xa00000), 16, 50⟩
abbrev TRN_STAT_INV_BUSY : FRef := ⟨8 * (0xa00008), 1, 0⟩
abbrev TRN_STAT_PENDING0 : FRef := ⟨8 * (0xa00008) + 16, 13, 0⟩
abbrev TRN_STAT_PENDING1 : FRef := ⟨8 * (0xa00008) + 29, 13, 0⟩
abbrev TRN_STAT_PENDING2 : FRef := ⟨8 * (0xa00008) + 42, 13, 0⟩
abbrev TRN_FAULT_ADDR_ADDR : FRef := ⟨8 * (0xa00010), 64, 0⟩
abbrev TRN_FAULT_INFO_FUNC : FRef := ⟨8 * (0xa00018), 9, 0⟩
abbrev TRN_FAULT_INFO_DETAIL : FRef := ⟨8 * (0xa00018) + 9, 8, 0⟩
abbrev TRN_FAULT_INFO_ACCESS : FRef := ⟨8 * (0xa00018) + 17, 5, 0⟩
abbrev TRN_FAULT_INFO_BUS : FRef := ⟨8 * (0xa00018) + 22, 2, 0⟩
abbrev TRN_FAULT_INFO_XCTX : FRef := ⟨8 * (0xa00018) + 24, 11, 0⟩
abbrev TRN_FAULT_INFO_PENDING3 : FRef := ⟨8 * (0xa00018) + 35, 13, 0⟩
abbrev TRN_DWIN_BASE_ENABLE (p k : Nat) : FRef := ⟨8 * (0xa01000 + 0x100 * p + 0x10 * k), 1, 0⟩
abbrev TRN_DWIN_BASE_BASE (p k : Nat) : FRef := ⟨8 * (0xa01000 + 0x100 * p + 0x10 * k) + 12, 52, 0⟩
abbrev TRN_DWIN_SIZE_SIZE (p k : Nat) : FRef := ⟨8 * (0xa01008 + 0x100 * p + 0x10 * k), 64, 0⟩
abbrev TRN_S2_ROOT_ROOT (f : Nat) : FRef := ⟨8 * (0xa02000 + 0x10 * f) + 12, 40, 0⟩
abbrev TRN_S2_CFG_ENABLE (f : Nat) : FRef := ⟨8 * (0xa02008 + 0x10 * f), 1, 0⟩
abbrev TRN_S2_CFG_ODP (f : Nat) : FRef := ⟨8 * (0xa02008 + 0x10 * f) + 1, 1, 0⟩
abbrev TRN_S2_CFG_LIFETIME_US (f : Nat) : FRef := ⟨8 * (0xa02008 + 0x10 * f) + 32, 17, 0⟩
abbrev XPT_RTO_CFG_RTO_MIN : FRef := ⟨8 * (0xb00000), 20, 0x1f40⟩
abbrev XPT_RTO_CFG_RTO_INIT : FRef := ⟨8 * (0xb00000) + 20, 20, 0x186a0⟩
abbrev XPT_RTO_CFG_RTO_MAX : FRef := ⟨8 * (0xb00000) + 40, 16, 0x2710⟩
abbrev XPT_RTO_CFG_RETRY_MAX : FRef := ⟨8 * (0xb00000) + 56, 4, 7⟩
abbrev XPT_ACK_CFG_ACK_DELAY : FRef := ⟨8 * (0xb00008), 16, 0x7d0⟩
abbrev XPT_ACK_CFG_ACK_COALESCE : FRef := ⟨8 * (0xb00008) + 16, 8, 8⟩
abbrev XPT_ACK_CFG_REORDER_HOLD : FRef := ⟨8 * (0xb00008) + 32, 16, 0x2710⟩
abbrev XPT_CONN_CFG_IDLE_CLOSE : FRef := ⟨8 * (0xb00010), 16, 0⟩
abbrev XPT_CONN_CFG_NAK_RETRY_LIMIT : FRef := ⟨8 * (0xb00010) + 16, 16, 0x3e8⟩
abbrev XPT_CONN_CFG_GET_PIECE : FRef := ⟨8 * (0xb00010) + 32, 4, 4⟩
abbrev XPT_CONN_CFG_CTX_RETRY_US : FRef := ⟨8 * (0xb00010) + 48, 16, 20⟩
abbrev XPT_POOL_STAT_CTX_USED : FRef := ⟨8 * (0xb00018), 23, 0⟩
abbrev XPT_POOL_STAT_CTX_CACHED : FRef := ⟨8 * (0xb00018) + 23, 17, 0⟩
abbrev XPT_POOL_STAT_TOMBSTONES : FRef := ⟨8 * (0xb00018) + 40, 17, 0⟩
abbrev XPT_STORE_STAT_SIZE : FRef := ⟨8 * (0xb00020), 24, 0⟩
abbrev XPT_STORE_STAT_USED : FRef := ⟨8 * (0xb00020) + 24, 24, 0⟩
abbrev XPT_STORE_STAT_WAITING : FRef := ⟨8 * (0xb00020) + 48, 16, 0⟩
abbrev XPT_MR_STAT_MR_USED : FRef := ⟨8 * (0xb00028), 25, 0⟩
abbrev XPT_LAST_FAIL_PEER_FA : FRef := ⟨8 * (0xb00030), 32, 0⟩
abbrev XPT_LAST_FAIL_CONN : FRef := ⟨8 * (0xb00030) + 32, 16, 0⟩
abbrev XPT_LAST_FAIL_DETAIL : FRef := ⟨8 * (0xb00030) + 48, 8, 0⟩
abbrev XPT_LAST_FAIL_FN_FUNC : FRef := ⟨8 * (0xb00038), 9, 0⟩
abbrev XPT_LAST_FAIL_FN_EPOCH : FRef := ⟨8 * (0xb00038) + 16, 16, 0⟩
abbrev XPT_CONN_SEL_PEER_FA : FRef := ⟨8 * (0xb00040), 32, 0⟩
abbrev XPT_CONN_SEL_CONN : FRef := ⟨8 * (0xb00040) + 32, 16, 0⟩
abbrev XPT_CONN_SEL_FUNC : FRef := ⟨8 * (0xb00040) + 48, 9, 0⟩
abbrev XPT_CONN_VIEW0_FOUND : FRef := ⟨8 * (0xb00048), 1, 0⟩
abbrev XPT_CONN_VIEW0_STATE : FRef := ⟨8 * (0xb00048) + 1, 3, 0⟩
abbrev XPT_CONN_VIEW0_EPOCH : FRef := ⟨8 * (0xb00048) + 16, 16, 0⟩
abbrev XPT_CONN_VIEW0_NEXT_PSN : FRef := ⟨8 * (0xb00048) + 32, 32, 0⟩
abbrev XPT_CONN_VIEW1_E : FRef := ⟨8 * (0xb00050), 32, 0⟩
abbrev XPT_CONN_VIEW1_OLDEST : FRef := ⟨8 * (0xb00050) + 32, 32, 0⟩
abbrev XPT_CONN_VIEW2_W : FRef := ⟨8 * (0xb00058), 32, 0⟩
abbrev XPT_CONN_VIEW2_RTO_US : FRef := ⟨8 * (0xb00058) + 32, 14, 0⟩
abbrev XPT_CONN_VIEW2_RETRY : FRef := ⟨8 * (0xb00058) + 46, 4, 0⟩
abbrev XPT_CONN_VIEW2_ATOMICS : FRef := ⟨8 * (0xb00058) + 50, 4, 0⟩
abbrev XPT_FN_CFG_LANE_BITS (f : Nat) : FRef := ⟨8 * (0xb01000 + 0x8 * f), 3, 0⟩
abbrev MTC_CFG_STAGE_RETRY_US : FRef := ⟨8 * (0xc00000), 16, 20⟩
abbrev MTC_CFG_RDV_PIECE : FRef := ⟨8 * (0xc00000) + 16, 4, 8⟩
abbrev MTC_CFG_RDV_INFLIGHT : FRef := ⟨8 * (0xc00000) + 20, 4, 4⟩
abbrev MTC_POOL_STAT0_RECV_POSTED : FRef := ⟨8 * (0xc00008), 25, 0⟩
abbrev MTC_POOL_STAT0_ENTRIES : FRef := ⟨8 * (0xc00008) + 25, 23, 0⟩
abbrev MTC_POOL_STAT1_SEQ_RECORDS : FRef := ⟨8 * (0xc00010), 24, 0⟩
abbrev MTC_POOL_STAT1_DOMAINS : FRef := ⟨8 * (0xc00010) + 24, 19, 0⟩
abbrev MTC_STAGE_STAT_SIZE : FRef := ⟨8 * (0xc00018), 28, 0⟩
abbrev MTC_STAGE_STAT_USED : FRef := ⟨8 * (0xc00018) + 28, 28, 0⟩
abbrev MTC_DOM_SEL_FUNC : FRef := ⟨8 * (0xc00020), 9, 0⟩
abbrev MTC_DOM_SEL_DOMAIN : FRef := ⟨8 * (0xc00020) + 16, 16, 0⟩
abbrev MTC_DOM_VIEW0_FOUND : FRef := ⟨8 * (0xc00028), 1, 0⟩
abbrev MTC_DOM_VIEW0_HOME : FRef := ⟨8 * (0xc00028) + 1, 7, 0⟩
abbrev MTC_DOM_VIEW0_JOB : FRef := ⟨8 * (0xc00028) + 8, 12, 0⟩
abbrev MTC_DOM_VIEW0_MY_RANK : FRef := ⟨8 * (0xc00028) + 32, 32, 0⟩
abbrev MTC_DOM_VIEW1_NEXT_STAMP : FRef := ⟨8 * (0xc00030), 64, 0⟩
abbrev MTC_DOM_VIEW2_POSTED : FRef := ⟨8 * (0xc00038), 24, 0⟩
abbrev MTC_DOM_VIEW2_UNEXP_SQ : FRef := ⟨8 * (0xc00038) + 24, 24, 0⟩
abbrev MTC_DOM_VIEW2_UNEXP_MSGS : FRef := ⟨8 * (0xc00038) + 48, 16, 0⟩
abbrev MTC_PAWN_STAT_STATE (n : Nat) : FRef := ⟨8 * (0xc01000 + 0x8 * n), 2, 0⟩
abbrev MTC_PAWN_STAT_SERVICE (n : Nat) : FRef := ⟨8 * (0xc01000 + 0x8 * n) + 2, 1, 0⟩
abbrev MTC_PAWN_STAT_SPARE (n : Nat) : FRef := ⟨8 * (0xc01000 + 0x8 * n) + 3, 1, 0⟩
abbrev MTC_PAWN_STAT_WQS (n : Nat) : FRef := ⟨8 * (0xc01000 + 0x8 * n) + 8, 16, 0⟩
abbrev MTC_PAWN_STAT_CONNS (n : Nat) : FRef := ⟨8 * (0xc01000 + 0x8 * n) + 24, 20, 0⟩
abbrev MTC_PAWN_STAT_DOMAINS (n : Nat) : FRef := ⟨8 * (0xc01000 + 0x8 * n) + 44, 16, 0⟩
abbrev MTC_SLOT_VALID (k : Nat) : FRef := ⟨8 * (0xc02000 + 0x10 * k), 1, 0⟩
abbrev MTC_SLOT_HOOK (k : Nat) : FRef := ⟨8 * (0xc02000 + 0x10 * k) + 1, 2, 0⟩
abbrev MTC_SLOT_DISABLED (k : Nat) : FRef := ⟨8 * (0xc02000 + 0x10 * k) + 3, 1, 0⟩
abbrev MTC_SLOT_SERVICE (k : Nat) : FRef := ⟨8 * (0xc02000 + 0x10 * k) + 16, 16, 0⟩
abbrev MTC_SLOT_CYCLES (k : Nat) : FRef := ⟨8 * (0xc02000 + 0x10 * k) + 32, 11, 0⟩
abbrev MTC_SLOT_STAT_RUNS (k : Nat) : FRef := ⟨8 * (0xc02008 + 0x10 * k), 32, 0⟩
abbrev MTC_SLOT_STAT_OVERRUNS (k : Nat) : FRef := ⟨8 * (0xc02008 + 0x10 * k) + 32, 16, 0⟩
abbrev COL_CFG_START_TIMEOUT : FRef := ⟨8 * (0xd00000), 16, 0x2710⟩
abbrev COL_CFG_CHUNK_TIMEOUT : FRef := ⟨8 * (0xd00000) + 16, 20, 0x3e8⟩
abbrev COL_CFG_SEAT_TIMEOUT : FRef := ⟨8 * (0xd00000) + 36, 16, 100⟩
abbrev COL_STAT_SLOTS_FREE : FRef := ⟨8 * (0xd00008), 12, 0⟩
abbrev COL_STAT_SEATED : FRef := ⟨8 * (0xd00008) + 12, 13, 0⟩
abbrev COL_STAT_PART_FREE : FRef := ⟨8 * (0xd00008) + 25, 20, 0⟩
abbrev COL_TREE_CMD_INDEX : FRef := ⟨8 * (0xd00010), 12, 0⟩
abbrev COL_TREE_CMD_ACTION : FRef := ⟨8 * (0xd00010) + 12, 2, 0⟩
abbrev COL_CMD_STAT_BUSY : FRef := ⟨8 * (0xd00018), 1, 0⟩
abbrev COL_CMD_STAT_RESULT : FRef := ⟨8 * (0xd00018) + 1, 3, 0⟩
abbrev COL_CMD_STAT_REJECT : FRef := ⟨8 * (0xd00018) + 4, 1, 0⟩
abbrev COL_ROOK_STAT_STATE (r : Nat) : FRef := ⟨8 * (0xd00200 + 0x8 * r), 2, 0⟩
abbrev COL_ROOK_STAT_SPARE (r : Nat) : FRef := ⟨8 * (0xd00200 + 0x8 * r) + 2, 1, 0⟩
abbrev COL_ROOK_STAT_SLOTS_FREE (r : Nat) : FRef := ⟨8 * (0xd00200 + 0x8 * r) + 3, 7, 64⟩
abbrev COL_ROOK_STAT_TREES (r : Nat) : FRef := ⟨8 * (0xd00200 + 0x8 * r) + 10, 13, 0⟩
abbrev COL_TREE_A (m : Nat) : FRef := ⟨8 * (0xd10000 + 0x10 * m), 64, 0⟩
abbrev COL_TREE_B (m : Nat) : FRef := ⟨8 * (0xd10008 + 0x10 * m), 64, 0⟩
abbrev COL_TREE_A_ACT (m : Nat) : FRef := ⟨8 * (0xd20000 + 0x10 * m), 64, 0⟩
abbrev COL_TREE_B_ACT (m : Nat) : FRef := ⟨8 * (0xd20008 + 0x10 * m), 64, 0⟩
abbrev COL_TREE_STAT_STATE (m : Nat) : FRef := ⟨8 * (0xd30000 + 0x10 * m), 2, 0⟩
abbrev COL_TREE_STAT_SEAT_RESULT (m : Nat) : FRef := ⟨8 * (0xd30000 + 0x10 * m) + 2, 3, 0⟩
abbrev COL_TREE_STAT_ROOK (m : Nat) : FRef := ⟨8 * (0xd30000 + 0x10 * m) + 5, 6, 0⟩
abbrev COL_TREE_STAT_TOTAL (m : Nat) : FRef := ⟨8 * (0xd30000 + 0x10 * m) + 11, 21, 0⟩
abbrev COL_TREE_STAT_REGISTERED (m : Nat) : FRef := ⟨8 * (0xd30000 + 0x10 * m) + 32, 5, 0⟩
abbrev COL_TREE_OP_OP_STATE (m : Nat) : FRef := ⟨8 * (0xd30008 + 0x10 * m), 2, 0⟩
abbrev COL_TREE_OP_OPSEQ (m : Nat) : FRef := ⟨8 * (0xd30008 + 0x10 * m) + 2, 16, 0⟩
abbrev COL_TREE_OP_LAST_REASON (m : Nat) : FRef := ⟨8 * (0xd30008 + 0x10 * m) + 18, 4, 0⟩
abbrev COL_TREE_OP_Q_DOWN (m : Nat) : FRef := ⟨8 * (0xd30008 + 0x10 * m) + 22, 32, 0⟩
abbrev LCK_CFG_REQ_AGE_US : FRef := ⟨8 * (0xe00000), 16, 500⟩
abbrev LCK_CFG_RETRIES : FRef := ⟨8 * (0xe00000) + 16, 4, 8⟩
abbrev LCK_OP_LOCK : FRef := ⟨8 * (0xe00008), 16, 0⟩
abbrev LCK_OP_LOP : FRef := ⟨8 * (0xe00008) + 16, 8, 0⟩
abbrev LCK_OP_COMPARE_COMPARE : FRef := ⟨8 * (0xe00010), 64, 0⟩
abbrev LCK_OP_SWAP_SWAP : FRef := ⟨8 * (0xe00018), 64, 0⟩
abbrev LCK_OP_RESULT_STATUS : FRef := ⟨8 * (0xe00020), 3, 0⟩
abbrev LCK_OP_RESULT_ORPHAN : FRef := ⟨8 * (0xe00020) + 3, 1, 0⟩
abbrev LCK_OP_OLD_OLD : FRef := ⟨8 * (0xe00028), 64, 0⟩
abbrev LCK_PURGE_KIND : FRef := ⟨8 * (0xe00030), 2, 0⟩
abbrev LCK_PURGE_TARGET : FRef := ⟨8 * (0xe00030) + 2, 18, 0⟩
abbrev LCK_PURGE_FA_FA : FRef := ⟨8 * (0xe00038), 32, 0⟩
abbrev LCK_GRP_CFG_EN (g : Nat) : FRef := ⟨8 * (0xe01000 + 0x100 * g), 1, 0⟩
abbrev LCK_GRP_CFG_MOVED (g : Nat) : FRef := ⟨8 * (0xe01000 + 0x100 * g) + 1, 1, 0⟩
abbrev LCK_GRP_CFG_HOME (g : Nat) : FRef := ⟨8 * (0xe01000 + 0x100 * g) + 2, 18, 0⟩
abbrev LCK_GRP_ACL_KIND (g e : Nat) : FRef := ⟨8 * (0xe01010 + 0x100 * g + 0x8 * e), 2, 0⟩
abbrev LCK_GRP_ACL (g e : Nat) : FRef := ⟨8 * (0xe01010 + 0x100 * g + 0x8 * e) + 2, 32, 0⟩
abbrev LCK_ORPHAN (n : Nat) : FRef := ⟨8 * (0xe12000 + 0x8 * n), 64, 0⟩
abbrev LCK_WORD (w : Nat) : FRef := ⟨8 * (0xe20000 + 0x8 * w), 64, 0⟩
abbrev PMON_CNT (c : Nat) : FRef := ⟨8 * (0xf00000 + 0x8 * c), 64, 0⟩
abbrev PMON_SNAP (c : Nat) : FRef := ⟨8 * (0xf40000 + 0x8 * c), 64, 0⟩
abbrev PMON_SNAP_CTL_TAKE : FRef := ⟨8 * (0xf80000), 1, 0⟩
abbrev PMON_SNAP_CTL_SNAP_US : FRef := ⟨8 * (0xf80000) + 8, 24, 0⟩
abbrev PMON_SNAP_TIME_NS : FRef := ⟨8 * (0xf80008), 64, 0⟩
abbrev PMON_SAMPLE_CFG_PKT_EN : FRef := ⟨8 * (0xf80010), 1, 0⟩
abbrev PMON_SAMPLE_CFG_WORK_EN : FRef := ⟨8 * (0xf80010) + 1, 1, 0⟩
abbrev PMON_SAMPLE_CFG_OVERWRITE : FRef := ⟨8 * (0xf80010) + 2, 1, 0⟩
abbrev PMON_SAMPLE_CFG_MEAN_PKT : FRef := ⟨8 * (0xf80010) + 8, 5, 16⟩
abbrev PMON_SAMPLE_CFG_MEAN_WORK : FRef := ⟨8 * (0xf80010) + 16, 5, 16⟩
abbrev PMON_SAMPLE_CFG_CLASS_MASK : FRef := ⟨8 * (0xf80010) + 24, 8, 63⟩
abbrev PMON_SAMPLE_CFG_FN_FILTER : FRef := ⟨8 * (0xf80010) + 32, 10, 0x3ff⟩
abbrev PMON_RING_CFG_RING_LOG : FRef := ⟨8 * (0xf80018), 5, 10⟩
abbrev PMON_RING_CFG_RING_BASE : FRef := ⟨8 * (0xf80018) + 12, 36, 0⟩
abbrev PMON_RING_WR_WR : FRef := ⟨8 * (0xf80020), 32, 0⟩
abbrev PMON_RING_RD_RD : FRef := ⟨8 * (0xf80028), 32, 0⟩
abbrev GLB_ACC_BAD : FRef := ⟨8 * (0x400), 64, 0⟩
abbrev GLB_ACC_REFUSED : FRef := ⟨8 * (0x408), 64, 0⟩
abbrev GLB_STROBES : FRef := ⟨8 * (0x410), 64, 0⟩
abbrev GLB_RECONF_DONE : FRef := ⟨8 * (0x418), 64, 0⟩
abbrev PWR_INPUT_RANGE : FRef := ⟨8 * (0x20300), 64, 0⟩
abbrev PWR_BUDGET_OVER : FRef := ⟨8 * (0x20308), 64, 0⟩
abbrev PWR_REF_LOSS : FRef := ⟨8 * (0x20310), 64, 0⟩
abbrev PWR_EMERG_SHUTDOWN : FRef := ⟨8 * (0x20318), 64, 0⟩
abbrev FLT_CNT_CORR : FRef := ⟨8 * (0x30200), 64, 0⟩
abbrev FLT_CNT_DEFER : FRef := ⟨8 * (0x30208), 64, 0⟩
abbrev FLT_CNT_UNCORR : FRef := ⟨8 * (0x30210), 64, 0⟩
abbrev FLT_CNT_FATAL : FRef := ⟨8 * (0x30218), 64, 0⟩
abbrev FLT_FLAG_FALLS : FRef := ⟨8 * (0x30220), 64, 0⟩
abbrev FLT_CLEAR_IGNORED : FRef := ⟨8 * (0x30228), 64, 0⟩
abbrev FLT_PAIR_BROKEN : FRef := ⟨8 * (0x30230), 64, 0⟩
abbrev FLT_INJECTED : FRef := ⟨8 * (0x30238), 64, 0⟩
abbrev TIM_STEPS : FRef := ⟨8 * (0x40100), 64, 0⟩
abbrev TIM_PARENT_CHANGES : FRef := ⟨8 * (0x40108), 64, 0⟩
abbrev TIM_HOLDOVERS : FRef := ⟨8 * (0x40110), 64, 0⟩
abbrev TIM_PPS_BAD : FRef := ⟨8 * (0x40118), 64, 0⟩
abbrev TIM_PPS_MISSED : FRef := ⟨8 * (0x40120), 64, 0⟩
abbrev STK_DISC_NOEGRESS : FRef := ⟨8 * (0x80400), 64, 0⟩
abbrev STK_DISC_LVL : FRef := ⟨8 * (0x80408), 64, 0⟩
abbrev STK_HELLO_BAD : FRef := ⟨8 * (0x80410), 64, 0⟩
abbrev STK_DIGEST_RX : FRef := ⟨8 * (0x80418), 64, 0⟩
abbrev STK_HB_MISSED : FRef := ⟨8 * (0x80420), 64, 0⟩
abbrev STK_TAKEOVER : FRef := ⟨8 * (0x80428), 64, 0⟩
abbrev STK_TAKEOVER_DENIED : FRef := ⟨8 * (0x80430), 64, 0⟩
abbrev STK_STROBE_LATE : FRef := ⟨8 * (0x80438), 64, 0⟩
abbrev STK_STROBE_CANCEL : FRef := ⟨8 * (0x80440), 64, 0⟩
abbrev STK_MIRROR_MISS : FRef := ⟨8 * (0x80448), 64, 0⟩
abbrev STK_RELAY_WRITES : FRef := ⟨8 * (0x80450), 64, 0⟩
abbrev LT_LANE_SYM (t l : Nat) : FRef := ⟨8 * (0x100128 + 0x10000 * t + 0x80 * l), 64, 0⟩
abbrev LT_PAT_ERR (t l : Nat) : FRef := ⟨8 * (0x100140 + 0x10000 * t + 0x80 * l), 64, 0⟩
abbrev LT_PAT_UI (t l : Nat) : FRef := ⟨8 * (0x100148 + 0x10000 * t + 0x80 * l), 64, 0⟩
abbrev LT_FEC_CORR (t k : Nat) : FRef := ⟨8 * (0x102008 + 0x10000 * t + 0x40 * k), 64, 0⟩
abbrev LT_FEC_UNCORR (t k : Nat) : FRef := ⟨8 * (0x102010 + 0x10000 * t + 0x40 * k), 64, 0⟩
abbrev LT_FEC_SYM (t k : Nat) : FRef := ⟨8 * (0x102018 + 0x10000 * t + 0x40 * k), 64, 0⟩
abbrev LT_COMMA_ERR (t k : Nat) : FRef := ⟨8 * (0x102020 + 0x10000 * t + 0x40 * k), 64, 0⟩
abbrev LT_ALIGN_ERR (t k : Nat) : FRef := ⟨8 * (0x102028 + 0x10000 * t + 0x40 * k), 64, 0⟩
abbrev LNK_ROWS_TX (g s : Nat) : FRef := ⟨8 * (0x200200 + 0x1000 * g + 0x800 * s), 64, 0⟩
abbrev LNK_ROWS_REPLAY (g s : Nat) : FRef := ⟨8 * (0x200208 + 0x1000 * g + 0x800 * s), 64, 0⟩
abbrev LNK_ROWS_RX (g s : Nat) : FRef := ⟨8 * (0x200210 + 0x1000 * g + 0x800 * s), 64, 0⟩
abbrev LNK_BAD_ROWS (g s : Nat) : FRef := ⟨8 * (0x200218 + 0x1000 * g + 0x800 * s), 64, 0⟩
abbrev LNK_DUP_ROWS (g s : Nat) : FRef := ⟨8 * (0x200220 + 0x1000 * g + 0x800 * s), 64, 0⟩
abbrev LNK_GAP_ROWS (g s : Nat) : FRef := ⟨8 * (0x200228 + 0x1000 * g + 0x800 * s), 64, 0⟩
abbrev LNK_NAK_TX (g s : Nat) : FRef := ⟨8 * (0x200230 + 0x1000 * g + 0x800 * s), 64, 0⟩
abbrev LNK_NAK_RX (g s : Nat) : FRef := ⟨8 * (0x200238 + 0x1000 * g + 0x800 * s), 64, 0⟩
abbrev LNK_NAK_EMPTY (g s : Nat) : FRef := ⟨8 * (0x200240 + 0x1000 * g + 0x800 * s), 64, 0⟩
abbrev LNK_REPLAY_TO (g s : Nat) : FRef := ⟨8 * (0x200248 + 0x1000 * g + 0x800 * s), 64, 0⟩
abbrev LNK_FULL_IDLE (g s : Nat) : FRef := ⟨8 * (0x200250 + 0x1000 * g + 0x800 * s), 64, 0⟩
abbrev LNK_ABORT_PKTS (g s : Nat) : FRef := ⟨8 * (0x200258 + 0x1000 * g + 0x800 * s), 64, 0⟩
abbrev LNK_RESETS (g s : Nat) : FRef := ⟨8 * (0x200260 + 0x1000 * g + 0x800 * s), 64, 0⟩
abbrev LNK_TRAIN_FAIL (g s : Nat) : FRef := ⟨8 * (0x200268 + 0x1000 * g + 0x800 * s), 64, 0⟩
abbrev LNK_ABSORBED (g s : Nat) : FRef := ⟨8 * (0x200270 + 0x1000 * g + 0x800 * s), 64, 0⟩
abbrev SWC_DISC_AGE : FRef := ⟨8 * (0x300200), 64, 0⟩
abbrev SWC_DISC_HDR : FRef := ⟨8 * (0x300208), 64, 0⟩
abbrev SWC_DISC_EP_TRANSIT : FRef := ⟨8 * (0x300210), 64, 0⟩
abbrev SWC_DISC_NO_FUNC : FRef := ⟨8 * (0x300218), 64, 0⟩
abbrev SWC_DISC_NO_SVC : FRef := ⟨8 * (0x300220), 64, 0⟩
abbrev SWC_DISC_PORT_DOWN : FRef := ⟨8 * (0x300228), 64, 0⟩
abbrev SWC_DISC_ECC : FRef := ⟨8 * (0x300230), 64, 0⟩
abbrev SWC_DISC_AUDIT : FRef := ⟨8 * (0x300238), 64, 0⟩
abbrev SWC_DISC_POLICE : FRef := ⟨8 * (0x300240), 64, 0⟩
abbrev SWC_AGE_UNCHECKED : FRef := ⟨8 * (0x300248), 64, 0⟩
abbrev SWC_CUT_THROUGH : FRef := ⟨8 * (0x300250), 64, 0⟩
abbrev SWC_ECC_CORR : FRef := ⟨8 * (0x300258), 64, 0⟩
abbrev SWC_AUDIT_LEAK : FRef := ⟨8 * (0x300260), 64, 0⟩
abbrev SWC_AUDIT_RETURNED : FRef := ⟨8 * (0x300268), 64, 0⟩
abbrev SWC_AUDIT_DOUBLE : FRef := ⟨8 * (0x300270), 64, 0⟩
abbrev SWC_PREV_LINK_FREED : FRef := ⟨8 * (0x300278), 64, 0⟩
abbrev RTE_DISC_NOROUTE : FRef := ⟨8 * (0x400100), 64, 0⟩
abbrev RTE_DISC_STAGE : FRef := ⟨8 * (0x400108), 64, 0⟩
abbrev RTE_DISC_LEVEL : FRef := ⟨8 * (0x400110), 64, 0⟩
abbrev RTE_DISC_TREE : FRef := ⟨8 * (0x400118), 64, 0⟩
abbrev RTE_MC_SKIP : FRef := ⟨8 * (0x400120), 64, 0⟩
abbrev RTE_NONMIN_DETOUR : FRef := ⟨8 * (0x400128), 64, 0⟩
abbrev RTE_NONMIN_VALIANT : FRef := ⟨8 * (0x400130), 64, 0⟩
abbrev RTE_VIA_REACHED : FRef := ⟨8 * (0x400138), 64, 0⟩
abbrev RTE_STAGE_INC : FRef := ⟨8 * (0x400140), 64, 0⟩
abbrev CGC_THROTTLE_ON : FRef := ⟨8 * (0x800200), 64, 0⟩
abbrev CGC_QUENCH_DISC : FRef := ⟨8 * (0x800208), 64, 0⟩
abbrev CGC_AUTH_NOKEY : FRef := ⟨8 * (0x800210), 64, 0⟩
abbrev CGC_AUTH_FAIL : FRef := ⟨8 * (0x800218), 64, 0⟩
abbrev CGC_AUTH_REPLAY : FRef := ⟨8 * (0x800220), 64, 0⟩
abbrev CGC_AUTH_PERM : FRef := ⟨8 * (0x800228), 64, 0⟩
abbrev CGC_STOP_RX : FRef := ⟨8 * (0x800230), 64, 0⟩
abbrev CGC_MGMT_QFULL : FRef := ⟨8 * (0x800238), 64, 0⟩
abbrev CGC_GRANT_REQ_RX : FRef := ⟨8 * (0x800240), 64, 0⟩
abbrev CGC_GRANT_TX : FRef := ⟨8 * (0x800248), 64, 0⟩
abbrev CGC_PROBE_RX : FRef := ⟨8 * (0x800250), 64, 0⟩
abbrev CGC_PROBE_ECHO_RX : FRef := ⟨8 * (0x800258), 64, 0⟩
abbrev CGC_PROBE_DISC : FRef := ⟨8 * (0x800260), 64, 0⟩
abbrev CGC_MGMT_RESP_DISC : FRef := ⟨8 * (0x800268), 64, 0⟩
abbrev CGC_E2E_CRC : FRef := ⟨8 * (0x800270), 64, 0⟩
abbrev HPT_LINK_DOWN (p : Nat) : FRef := ⟨8 * (0x900100 + 0x40000 * p), 64, 0⟩
abbrev HPT_UNEXP_CPL (p : Nat) : FRef := ⟨8 * (0x900108 + 0x40000 * p), 64, 0⟩
abbrev HPT_HOST_ERR (p : Nat) : FRef := ⟨8 * (0x900110 + 0x40000 * p), 64, 0⟩
abbrev HPT_TEARDOWNS (p : Nat) : FRef := ⟨8 * (0x900118 + 0x40000 * p), 64, 0⟩
abbrev HPT_FN_DB (p f : Nat) : FRef := ⟨8 * (0x910040 + 0x40000 * p + 0x100 * f), 64, 0⟩
abbrev HPT_FN_DB_DROP (p f : Nat) : FRef := ⟨8 * (0x910048 + 0x40000 * p + 0x100 * f), 64, 0⟩
abbrev HPT_FN_FETCHED (p f : Nat) : FRef := ⟨8 * (0x910050 + 0x40000 * p + 0x100 * f), 64, 0⟩
abbrev HPT_FN_MALFORMED (p f : Nat) : FRef := ⟨8 * (0x910058 + 0x40000 * p + 0x100 * f), 64, 0⟩
abbrev HPT_FN_CQE (p f : Nat) : FRef := ⟨8 * (0x910060 + 0x40000 * p + 0x100 * f), 64, 0⟩
abbrev HPT_FN_ACK_ERR (p f : Nat) : FRef := ⟨8 * (0x910068 + 0x40000 * p + 0x100 * f), 64, 0⟩
abbrev HPT_FN_EQ_DROP (p f : Nat) : FRef := ⟨8 * (0x910070 + 0x40000 * p + 0x100 * f), 64, 0⟩
abbrev TRN_WALKS : FRef := ⟨8 * (0xa00100), 64, 0⟩
abbrev TRN_WALK_READS : FRef := ⟨8 * (0xa00108), 64, 0⟩
abbrev TRN_MICRO_HIT : FRef := ⟨8 * (0xa00110), 64, 0⟩
abbrev TRN_SHARED_HIT : FRef := ⟨8 * (0xa00118), 64, 0⟩
abbrev TRN_WALK_HIT : FRef := ⟨8 * (0xa00120), 64, 0⟩
abbrev TRN_EXPIRED : FRef := ⟨8 * (0xa00128), 64, 0⟩
abbrev TRN_FAULT_NP : FRef := ⟨8 * (0xa00130), 64, 0⟩
abbrev TRN_FAULT_PERM : FRef := ⟨8 * (0xa00138), 64, 0⟩
abbrev TRN_FAULT_BUS : FRef := ⟨8 * (0xa00140), 64, 0⟩
abbrev TRN_FAULT_DEV : FRef := ⟨8 * (0xa00148), 64, 0⟩
abbrev TRN_PAGE_REQ : FRef := ⟨8 * (0xa00150), 64, 0⟩
abbrev TRN_PAGE_REQ_FULL : FRef := ⟨8 * (0xa00158), 64, 0⟩
abbrev TRN_PAGE_RESUME : FRef := ⟨8 * (0xa00160), 64, 0⟩
abbrev TRN_INVALIDATE : FRef := ⟨8 * (0xa00168), 64, 0⟩
abbrev XPT_OPENS : FRef := ⟨8 * (0xb00100), 64, 0⟩
abbrev XPT_OPEN_TIES : FRef := ⟨8 * (0xb00108), 64, 0⟩
abbrev XPT_CLOSE_IDLE : FRef := ⟨8 * (0xb00110), 64, 0⟩
abbrev XPT_CLOSE_DECLINED : FRef := ⟨8 * (0xb00118), 64, 0⟩
abbrev XPT_CONN_FAILED : FRef := ⟨8 * (0xb00120), 64, 0⟩
abbrev XPT_TOMBSTONE_HIT : FRef := ⟨8 * (0xb00128), 64, 0⟩
abbrev XPT_NO_CONTEXT_TX : FRef := ⟨8 * (0xb00130), 64, 0⟩
abbrev XPT_RETX_RTO : FRef := ⟨8 * (0xb00138), 64, 0⟩
abbrev XPT_RETX_NAK : FRef := ⟨8 * (0xb00140), 64, 0⟩
abbrev XPT_DUP_RX : FRef := ⟨8 * (0xb00148), 64, 0⟩
abbrev XPT_AHEAD_DISC : FRef := ⟨8 * (0xb00150), 64, 0⟩
abbrev XPT_ACK_TX : FRef := ⟨8 * (0xb00158), 64, 0⟩
abbrev XPT_SACK_TX : FRef := ⟨8 * (0xb00160), 64, 0⟩
abbrev XPT_NAK_SEQ_TX : FRef := ⟨8 * (0xb00168), 64, 0⟩
abbrev XPT_REFUSAL_TX : FRef := ⟨8 * (0xb00170), 64, 0⟩
abbrev XPT_ATOMIC_REPLAY : FRef := ⟨8 * (0xb00178), 64, 0⟩
abbrev XPT_STALE_REPLY : FRef := ⟨8 * (0xb00180), 64, 0⟩
abbrev XPT_ACCESS_VIOL : FRef := ⟨8 * (0xb00188), 64, 0⟩
abbrev XPT_FADD_RETRY : FRef := ⟨8 * (0xb00190), 64, 0⟩
abbrev XPT_CTX_MISS : FRef := ⟨8 * (0xb00198), 64, 0⟩
abbrev XPT_STORE_WAIT : FRef := ⟨8 * (0xb001a0), 64, 0⟩
abbrev XPT_PEND_LOST : FRef := ⟨8 * (0xb001a8), 64, 0⟩
abbrev MTC_MATCH_POSTED : FRef := ⟨8 * (0xc00100), 64, 0⟩
abbrev MTC_MATCH_UNEXP : FRef := ⟨8 * (0xc00108), 64, 0⟩
abbrev MTC_UNEXP_TAKEN : FRef := ⟨8 * (0xc00110), 64, 0⟩
abbrev MTC_EARLY_HELD : FRef := ⟨8 * (0xc00118), 64, 0⟩
abbrev MTC_CASCADE : FRef := ⟨8 * (0xc00120), 64, 0⟩
abbrev MTC_NAK_STAGING : FRef := ⟨8 * (0xc00128), 64, 0⟩
abbrev MTC_NAK_NODOMAIN : FRef := ⟨8 * (0xc00130), 64, 0⟩
abbrev MTC_NAK_INVALID : FRef := ⟨8 * (0xc00138), 64, 0⟩
abbrev MTC_TRUNCATED : FRef := ⟨8 * (0xc00140), 64, 0⟩
abbrev MTC_CANCELLED : FRef := ⟨8 * (0xc00148), 64, 0⟩
abbrev MTC_CANCEL_MISS : FRef := ⟨8 * (0xc00150), 64, 0⟩
abbrev MTC_PROBE_HIT : FRef := ⟨8 * (0xc00158), 64, 0⟩
abbrev MTC_PROBE_MISS : FRef := ⟨8 * (0xc00160), 64, 0⟩
abbrev MTC_RDV_PULLS : FRef := ⟨8 * (0xc00168), 64, 0⟩
abbrev MTC_RDV_DRAIN_SERVED : FRef := ⟨8 * (0xc00170), 64, 0⟩
abbrev MTC_KEY_WAIT : FRef := ⟨8 * (0xc00178), 64, 0⟩
abbrev MTC_DISC_DESTROY : FRef := ⟨8 * (0xc00180), 64, 0⟩
abbrev MTC_MSG_FAILED : FRef := ⟨8 * (0xc00188), 64, 0⟩
abbrev MTC_HANDLER_RUNS : FRef := ⟨8 * (0xc00190), 64, 0⟩
abbrev MTC_HANDLER_OVERRUN : FRef := ⟨8 * (0xc00198), 64, 0⟩
abbrev COL_OPS_DONE : FRef := ⟨8 * (0xd00100), 64, 0⟩
abbrev COL_OPS_ABORTED : FRef := ⟨8 * (0xd00108), 64, 0⟩
abbrev COL_CHUNKS_UP : FRef := ⟨8 * (0xd00110), 64, 0⟩
abbrev COL_CHUNKS_DOWN : FRef := ⟨8 * (0xd00118), 64, 0⟩
abbrev COL_DISC_STALE : FRef := ⟨8 * (0xd00120), 64, 0⟩
abbrev COL_CRC_ERR : FRef := ⟨8 * (0xd00128), 64, 0⟩
abbrev COL_SEAT_OK : FRef := ⟨8 * (0xd00130), 64, 0⟩
abbrev COL_SEAT_FAIL : FRef := ⟨8 * (0xd00138), 64, 0⟩
abbrev COL_UNSEAT : FRef := ⟨8 * (0xd00140), 64, 0⟩
abbrev COL_TIMEOUTS : FRef := ⟨8 * (0xd00148), 64, 0⟩
abbrev COL_FLAG_NAN : FRef := ⟨8 * (0xd00150), 64, 0⟩
abbrev COL_FLAG_INF : FRef := ⟨8 * (0xd00158), 64, 0⟩
abbrev COL_FLAG_SAT : FRef := ⟨8 * (0xd00160), 64, 0⟩
abbrev COL_RESULT_FAULT : FRef := ⟨8 * (0xd00168), 64, 0⟩
abbrev LCK_OPS : FRef := ⟨8 * (0xe00100), 64, 0⟩
abbrev LCK_DENIED : FRef := ⟨8 * (0xe00108), 64, 0⟩
abbrev LCK_NOT_OWNER : FRef := ⟨8 * (0xe00110), 64, 0⟩
abbrev LCK_AGED : FRef := ⟨8 * (0xe00118), 64, 0⟩
abbrev LCK_FWD : FRef := ⟨8 * (0xe00120), 64, 0⟩
abbrev LCK_FORCED : FRef := ⟨8 * (0xe00128), 64, 0⟩
abbrev LCK_STALE_RESULT : FRef := ⟨8 * (0xe00130), 64, 0⟩
abbrev LCK_UNSERVED : FRef := ⟨8 * (0xe00138), 64, 0⟩
abbrev LCK_PEER_OVF : FRef := ⟨8 * (0xe00140), 64, 0⟩
abbrev PMON_SAMPLE_SKIP : FRef := ⟨8 * (0xf80100), 64, 0⟩
abbrev PMON_SAMPLE_DROP : FRef := ⟨8 * (0xf80108), 64, 0⟩

end R

/-- Registers of the GLB block. -/
def regsGLB : List RegDef := [
  { name := "GLB_IDENTITY", base := 0x0, dims := [],
    fields := [{ lo := 0, width := 64, rst := 0, acc := .ro, tv := true }] },
  { name := "GLB_INFO", base := 0x8, dims := [],
    fields := [{ lo := 0, width := 18, rst := 0, acc := .ro },
      { lo := 20, width := 4, rst := 0, acc := .ro },
      { lo := 24, width := 4, rst := 0, acc := .ro }] },
  { name := "GLB_ISLAND_STAT", base := 0x10, dims := [],
    fields := [{ lo := 0, width := 2, rst := 0, acc := .ro },
      { lo := 2, width := 2, rst := 0, acc := .ro },
      { lo := 4, width := 2, rst := 0, acc := .ro },
      { lo := 6, width := 2, rst := 0, acc := .ro },
      { lo := 8, width := 2, rst := 0, acc := .ro },
      { lo := 10, width := 2, rst := 0, acc := .ro },
      { lo := 12, width := 2, rst := 0, acc := .ro },
      { lo := 14, width := 2, rst := 0, acc := .ro },
      { lo := 16, width := 2, rst := 0, acc := .ro },
      { lo := 18, width := 2, rst := 0, acc := .ro },
      { lo := 20, width := 2, rst := 0, acc := .ro },
      { lo := 22, width := 2, rst := 0, acc := .ro },
      { lo := 24, width := 2, rst := 0, acc := .ro },
      { lo := 26, width := 2, rst := 0, acc := .ro },
      { lo := 28, width := 2, rst := 0, acc := .ro },
      { lo := 30, width := 2, rst := 0, acc := .ro },
      { lo := 32, width := 2, rst := 0, acc := .ro },
      { lo := 34, width := 2, rst := 0, acc := .ro },
      { lo := 36, width := 2, rst := 0, acc := .ro },
      { lo := 38, width := 2, rst := 0, acc := .ro },
      { lo := 40, width := 2, rst := 0, acc := .ro },
      { lo := 42, width := 2, rst := 0, acc := .ro },
      { lo := 44, width := 2, rst := 0, acc := .ro },
      { lo := 46, width := 2, rst := 0, acc := .ro },
      { lo := 48, width := 2, rst := 0, acc := .ro },
      { lo := 50, width := 2, rst := 0, acc := .ro }] },
  { name := "GLB_LOCK", base := 0x18, dims := [],
    fields := [{ lo := 0, width := 1, rst := 0, acc := .rw, tv := true },
      { lo := 1, width := 1, rst := 0, acc := .rw, tv := true },
      { lo := 2, width := 1, rst := 0, acc := .rw, tv := true },
      { lo := 3, width := 1, rst := 0, acc := .rw, tv := true }] },
  { name := "GLB_APERTURE", base := 0x20, dims := [],
    fields := [{ lo := 0, width := 1, rst := 0, acc := .rw },
      { lo := 20, width := 15, rst := 0, acc := .rw }] },
  { name := "GLB_ACC_STAT", base := 0x28, dims := [],
    fields := [{ lo := 0, width := 4, rst := 0, acc := .ro },
      { lo := 4, width := 1, rst := 0, acc := .ro },
      { lo := 8, width := 12, rst := 4095, acc := .ro }] },
  { name := "GLB_ACC_ADDR", base := 0x30, dims := [],
    fields := [{ lo := 0, width := 26, rst := 0, acc := .ro }] },
  { name := "GLB_IRQ", base := 0x38, dims := [],
    fields := [{ lo := 0, width := 1, rst := 0, acc := .w1c },
      { lo := 1, width := 1, rst := 0, acc := .w1c },
      { lo := 2, width := 1, rst := 0, acc := .w1c },
      { lo := 16, width := 3, rst := 0, acc := .rw }] },
  { name := "GLB_MODE_STAT", base := 0x100, dims := [],
    fields := [{ lo := 0, width := 3, rst := 0, acc := .ro },
      { lo := 3, width := 1, rst := 0, acc := .ro },
      { lo := 4, width := 2, rst := 0, acc := .ro },
      { lo := 8, width := 4, rst := 0, acc := .ro },
      { lo := 16, width := 1, rst := 0, acc := .ro },
      { lo := 20, width := 4, rst := 0, acc := .ro }] },
  { name := "GLB_MAINT_CTL", base := 0x108, dims := [],
    fields := [{ lo := 0, width := 1, rst := 0, acc := .wo },
      { lo := 1, width := 1, rst := 0, acc := .wo },
      { lo := 16, width := 12, rst := 4095, acc := .ro }] },
  { name := "GLB_ISO_CMD", base := 0x110, dims := [],
    fields := [{ lo := 0, width := 9, rst := 0, acc := .wo },
      { lo := 12, width := 1, rst := 0, acc := .wo },
      { lo := 13, width := 1, rst := 0, acc := .wo },
      { lo := 14, width := 1, rst := 0, acc := .wo }] },
  { name := "GLB_ISO_STAT", base := 0x118, dims := [],
    fields := [{ lo := 0, width := 1, rst := 0, acc := .ro },
      { lo := 4, width := 4, rst := 0, acc := .ro },
      { lo := 16, width := 9, rst := 0, acc := .ro }] }]

/-- Registers of the GLB block. -/
def regsGLB2 : List RegDef := [
  { name := "GLB_ISO_MAP", base := 0x120, dims := [(5, 0x8)],
    fields := [{ lo := 0, width := 64, rst := 0, acc := .ro }] },
  { name := "GLB_STROBE", base := 0x200, dims := [],
    fields := [{ lo := 0, width := 64, rst := 0, acc := .wo }] },
  { name := "GLB_STROBE_STAT", base := 0x208, dims := [],
    fields := [{ lo := 0, width := 1, rst := 0, acc := .ro },
      { lo := 1, width := 3, rst := 0, acc := .ro },
      { lo := 4, width := 4, rst := 0, acc := .ro },
      { lo := 8, width := 4, rst := 0, acc := .ro },
      { lo := 16, width := 16, rst := 0, acc := .ro },
      { lo := 32, width := 16, rst := 0, acc := .ro },
      { lo := 48, width := 16, rst := 0, acc := .ro }] },
  { name := "GLB_RECONF_CTL", base := 0x300, dims := [],
    fields := [{ lo := 0, width := 2, rst := 0, acc := .wo },
      { lo := 2, width := 7, rst := 0, acc := .wo },
      { lo := 12, width := 2, rst := 0, acc := .wo }] },
  { name := "GLB_RECONF_ARG", base := 0x308, dims := [],
    fields := [{ lo := 0, width := 64, rst := 0, acc := .rw }] },
  { name := "GLB_RECONF_STAT", base := 0x310, dims := [],
    fields := [{ lo := 0, width := 1, rst := 0, acc := .ro },
      { lo := 1, width := 4, rst := 0, acc := .ro },
      { lo := 5, width := 2, rst := 0, acc := .ro },
      { lo := 7, width := 7, rst := 0, acc := .ro },
      { lo := 14, width := 50, rst := 0, acc := .ro }] },
  { name := "GLB_ACC_BAD", base := 0x400, dims := [],
    fields := [{ lo := 0, width := 64, rst := 0, acc := .ro }] },
  { name := "GLB_ACC_REFUSED", base := 0x408, dims := [],
    fields := [{ lo := 0, width := 64, rst := 0, acc := .ro }] },
  { name := "GLB_STROBES", base := 0x410, dims := [],
    fields := [{ lo := 0, width := 64, rst := 0, acc := .ro }] },
  { name := "GLB_RECONF_DONE", base := 0x418, dims := [],
    fields := [{ lo := 0, width := 64, rst := 0, acc := .ro }] }]

/-- Registers of the SEC block. -/
def regsSEC : List RegDef := [
  { name := "SEC_BOOT_STAT", base := 0x10000, dims := [],
    fields := [{ lo := 0, width := 4, rst := 0, acc := .ro },
      { lo := 4, width := 2, rst := 0, acc := .ro },
      { lo := 6, width := 1, rst := 0, acc := .ro },
      { lo := 16, width := 16, rst := 0, acc := .ro }] },
  { name := "SEC_BOOT_CFG", base := 0x10008, dims := [],
    fields := [{ lo := 0, width := 1, rst := 0, acc := .rw, rwl := true, rws := true },
      { lo := 1, width := 1, rst := 0, acc := .rw, rwl := true, rws := true }] },
  { name := "SEC_CMD", base := 0x10010, dims := [],
    fields := [{ lo := 0, width := 8, rst := 0, acc := .wo }] },
  { name := "SEC_CMD_STAT", base := 0x10018, dims := [],
    fields := [{ lo := 0, width := 1, rst := 0, acc := .ro },
      { lo := 1, width := 4, rst := 0, acc := .ro },
      { lo := 8, width := 4, rst := 0, acc := .ro },
      { lo := 16, width := 8, rst := 0, acc := .ro }] },
  { name := "SEC_COPY_STAT", base := 0x10020, dims := [],
    fields := [{ lo := 0, width := 4, rst := 15, acc := .ro },
      { lo := 4, width := 4, rst := 15, acc := .ro },
      { lo := 8, width := 4, rst := 15, acc := .ro },
      { lo := 16, width := 8, rst := 0, acc := .ro },
      { lo := 24, width := 8, rst := 0, acc := .ro },
      { lo := 32, width := 8, rst := 0, acc := .ro }] },
  { name := "SEC_IMAGE", base := 0x10028, dims := [],
    fields := [{ lo := 0, width := 64, rst := 0, acc := .ro }] },
  { name := "SEC_SVN", base := 0x10030, dims := [],
    fields := [{ lo := 0, width := 8, rst := 0, acc := .ro, tv := true },
      { lo := 8, width := 8, rst := 0, acc := .ro }] },
  { name := "SEC_OWNER", base := 0x10038, dims := [],
    fields := [{ lo := 0, width := 1, rst := 0, acc := .ro },
      { lo := 1, width := 1, rst := 0, acc := .ro },
      { lo := 2, width := 2, rst := 0, acc := .ro, tv := true },
      { lo := 32, width := 32, rst := 0, acc := .ro }] },
  { name := "SEC_LOAD_CTL", base := 0x10040, dims := [],
    fields := [{ lo := 0, width := 10, rst := 0, acc := .rw },
      { lo := 32, width := 25, rst := 0, acc := .rw }] },
  { name := "SEC_HSS_STAT", base := 0x10048, dims := [],
    fields := [{ lo := 0, width := 30, rst := 0, acc := .ro },
      { lo := 31, width := 1, rst := 0, acc := .ro },
      { lo := 32, width := 7, rst := 64, acc := .ro }] },
  { name := "SEC_LOG_STAT", base := 0x10050, dims := [],
    fields := [{ lo := 0, width := 9, rst := 0, acc := .ro },
      { lo := 9, width := 1, rst := 0, acc := .ro }] },
  { name := "SEC_MEAS", base := 0x10100, dims := [(8, 0x30), (6, 0x8)],
    fields := [{ lo := 0, width := 64, rst := 0, acc := .ro }] }]

/-- Registers of the PWR block. -/
def regsPWR : List RegDef := [
  { name := "PWR_INPUT", base := 0x20000, dims := [],
    fields := [{ lo := 0, width := 16, rst := 0, acc := .ro },
      { lo := 16, width := 16, rst := 0, acc := .ro },
      { lo := 32, width := 16, rst := 0, acc := .ro }] },
  { name := "PWR_ENERGY", base := 0x20008, dims := [],
    fields := [{ lo := 0, width := 64, rst := 0, acc := .ro }] },
  { name := "PWR_STAT", base := 0x20010, dims := [],
    fields := [{ lo := 0, width := 1, rst := 0, acc := .ro },
      { lo := 1, width := 1, rst := 0, acc := .ro },
      { lo := 2, width := 1, rst := 0, acc := .w1c },
      { lo := 3, width := 1, rst := 0, acc := .ro },
      { lo := 4, width := 1, rst := 0, acc := .ro },
      { lo := 8, width := 8, rst := 0, acc := .ro }] },
  { name := "PWR_BUDGET", base := 0x20018, dims := [],
    fields := [{ lo := 0, width := 12, rst := 0, acc := .rw, rwl := true }] },
  { name := "PWR_CLK_STAT", base := 0x20020, dims := [],
    fields := [{ lo := 0, width := 1, rst := 0, acc := .ro },
      { lo := 1, width := 4, rst := 0, acc := .ro },
      { lo := 5, width := 1, rst := 0, acc := .ro },
      { lo := 6, width := 1, rst := 0, acc := .ro }] },
  { name := "PWR_STRAP", base := 0x20028, dims := [],
    fields := [{ lo := 0, width := 1, rst := 0, acc := .ro },
      { lo := 1, width := 1, rst := 0, acc := .ro }] },
  { name := "PWR_RESET_CMD", base := 0x20030, dims := [],
    fields := [{ lo := 0, width := 4, rst := 0, acc := .wo }] },
  { name := "PWR_RESET_STAT", base := 0x20038, dims := [],
    fields := [{ lo := 0, width := 4, rst := 0, acc := .ro },
      { lo := 16, width := 16, rst := 0, acc := .ro }] },
  { name := "PWR_ISL_CMD", base := 0x20040, dims := [],
    fields := [{ lo := 0, width := 5, rst := 0, acc := .wo },
      { lo := 8, width := 3, rst := 0, acc := .wo }] },
  { name := "PWR_ISL_STAT", base := 0x20048, dims := [],
    fields := [{ lo := 0, width := 1, rst := 0, acc := .ro },
      { lo := 1, width := 3, rst := 0, acc := .ro },
      { lo := 8, width := 5, rst := 0, acc := .ro },
      { lo := 16, width := 7, rst := 0, acc := .ro }] },
  { name := "PWR_PG_RESET", base := 0x20050, dims := [],
    fields := [{ lo := 0, width := 7, rst := 0, acc := .wo },
      { lo := 8, width := 1, rst := 0, acc := .wo }] },
  { name := "PWR_RAIL", base := 0x20100, dims := [(7, 0x8)],
    fields := [{ lo := 0, width := 16, rst := 0, acc := .ro },
      { lo := 16, width := 16, rst := 0, acc := .ro },
      { lo := 32, width := 1, rst := 0, acc := .ro },
      { lo := 33, width := 1, rst := 0, acc := .ro }] }]

/-- Registers of the PWR block. -/
def regsPWR2 : List RegDef := [
  { name := "PWR_ISL_P", base := 0x20200, dims := [(26, 0x8)],
    fields := [{ lo := 0, width := 16, rst := 0, acc := .ro },
      { lo := 16, width := 8, rst := 0, acc := .ro }] },
  { name := "PWR_INPUT_RANGE", base := 0x20300, dims := [],
    fields := [{ lo := 0, width := 64, rst := 0, acc := .ro }] },
  { name := "PWR_BUDGET_OVER", base := 0x20308, dims := [],
    fields := [{ lo := 0, width := 64, rst := 0, acc := .ro }] },
  { name := "PWR_REF_LOSS", base := 0x20310, dims := [],
    fields := [{ lo := 0, width := 64, rst := 0, acc := .ro }] },
  { name := "PWR_EMERG_SHUTDOWN", base := 0x20318, dims := [],
    fields := [{ lo := 0, width := 64, rst := 0, acc := .ro }] }]

/-- Registers of the FLT block. -/
def regsFLT : List RegDef := [
  { name := "FLT_STATUS", base := 0x30000, dims := [],
    fields := [{ lo := 0, width := 4, rst := 0, acc := .w1c, rws := true },
      { lo := 4, width := 4, rst := 0, acc := .ro },
      { lo := 8, width := 4, rst := 0, acc := .ro },
      { lo := 12, width := 1, rst := 0, acc := .ro },
      { lo := 13, width := 1, rst := 0, acc := .ro },
      { lo := 14, width := 1, rst := 0, acc := .ro },
      { lo := 15, width := 1, rst := 0, acc := .ro }] },
  { name := "FLT_ACK", base := 0x30008, dims := [],
    fields := [{ lo := 0, width := 4, rst := 0, acc := .wo }] },
  { name := "FLT_CLOCK", base := 0x30010, dims := [],
    fields := [{ lo := 0, width := 16, rst := 0, acc := .ro },
      { lo := 16, width := 16, rst := 0, acc := .ro },
      { lo := 32, width := 16, rst := 0, acc := .ro },
      { lo := 48, width := 16, rst := 0, acc := .ro }] },
  { name := "FLT_POLICY0", base := 0x30018, dims := [],
    fields := [{ lo := 0, width := 16, rst := 0, acc := .rw, rwl := true },
      { lo := 16, width := 16, rst := 0, acc := .rw, rwl := true },
      { lo := 32, width := 16, rst := 0, acc := .rw, rwl := true },
      { lo := 48, width := 16, rst := 0, acc := .rw, rwl := true }] },
  { name := "FLT_POLICY1", base := 0x30020, dims := [],
    fields := [{ lo := 0, width := 16, rst := 0, acc := .rw, rwl := true },
      { lo := 16, width := 4, rst := 0, acc := .rw, rwl := true },
      { lo := 20, width := 4, rst := 0, acc := .rw, rwl := true },
      { lo := 24, width := 1, rst := 0, acc := .rw, rwl := true },
      { lo := 25, width := 1, rst := 0, acc := .ro },
      { lo := 32, width := 8, rst := 0, acc := .rw, rwl := true },
      { lo := 48, width := 16, rst := 0, acc := .rw, rwl := true }] },
  { name := "FLT_INJ", base := 0x30028, dims := [],
    fields := [{ lo := 0, width := 10, rst := 0, acc := .wo },
      { lo := 10, width := 16, rst := 0, acc := .wo },
      { lo := 26, width := 2, rst := 0, acc := .wo },
      { lo := 28, width := 1, rst := 0, acc := .wo },
      { lo := 31, width := 1, rst := 0, acc := .wo }] },
  { name := "FLT_INJ_STAT", base := 0x30030, dims := [],
    fields := [{ lo := 0, width := 1, rst := 0, acc := .ro },
      { lo := 1, width := 3, rst := 0, acc := .ro }] },
  { name := "FLT_CMD", base := 0x30038, dims := [],
    fields := [{ lo := 0, width := 10, rst := 0, acc := .wo },
      { lo := 12, width := 3, rst := 0, acc := .wo }] },
  { name := "FLT_CMD_STAT", base := 0x30040, dims := [],
    fields := [{ lo := 0, width := 1, rst := 0, acc := .ro },
      { lo := 1, width := 4, rst := 0, acc := .ro },
      { lo := 5, width := 10, rst := 0, acc := .ro }] },
  { name := "FLT_ARB_CTL", base := 0x30048, dims := [],
    fields := [{ lo := 0, width := 1, rst := 0, acc := .wo },
      { lo := 1, width := 1, rst := 1, acc := .rw }] },
  { name := "FLT_ARB_STAT", base := 0x30050, dims := [],
    fields := [{ lo := 0, width := 2, rst := 0, acc := .ro },
      { lo := 2, width := 1, rst := 0, acc := .ro },
      { lo := 3, width := 1, rst := 0, acc := .ro },
      { lo := 16, width := 11, rst := 0, acc := .ro },
      { lo := 32, width := 16, rst := 0, acc := .ro }] },
  { name := "FLT_REC", base := 0x30100, dims := [(4, 0x40), (8, 0x8)],
    fields := [{ lo := 0, width := 64, rst := 0, acc := .ro }] }]

/-- Registers of the FLT block. -/
def regsFLT2 : List RegDef := [
  { name := "FLT_LIFE", base := 0x30800, dims := [(26, 0x8)],
    fields := [{ lo := 0, width := 16, rst := 0, acc := .ro },
      { lo := 16, width := 16, rst := 0, acc := .ro },
      { lo := 32, width := 16, rst := 0, acc := .ro },
      { lo := 48, width := 8, rst := 0, acc := .ro },
      { lo := 56, width := 8, rst := 0, acc := .ro }] },
  { name := "FLT_UNIT", base := 0x31000, dims := [(717, 0x8)],
    fields := [{ lo := 0, width := 3, rst := 0, acc := .ro },
      { lo := 3, width := 2, rst := 0, acc := .ro },
      { lo := 5, width := 1, rst := 0, acc := .ro },
      { lo := 6, width := 1, rst := 0, acc := .ro },
      { lo := 7, width := 1, rst := 0, acc := .ro },
      { lo := 8, width := 16, rst := 0, acc := .ro },
      { lo := 24, width := 24, rst := 0, acc := .ro, rws := true },
      { lo := 48, width := 16, rst := 0, acc := .ro, rws := true }] },
  { name := "FLT_FENCE_LOG", base := 0x33000, dims := [(64, 0x8)],
    fields := [{ lo := 0, width := 10, rst := 0, acc := .ro },
      { lo := 10, width := 1, rst := 0, acc := .ro },
      { lo := 11, width := 1, rst := 0, acc := .ro },
      { lo := 16, width := 16, rst := 0, acc := .ro },
      { lo := 32, width := 32, rst := 0, acc := .ro }] },
  { name := "FLT_CNT_CORR", base := 0x30200, dims := [],
    fields := [{ lo := 0, width := 64, rst := 0, acc := .ro }] },
  { name := "FLT_CNT_DEFER", base := 0x30208, dims := [],
    fields := [{ lo := 0, width := 64, rst := 0, acc := .ro }] },
  { name := "FLT_CNT_UNCORR", base := 0x30210, dims := [],
    fields := [{ lo := 0, width := 64, rst := 0, acc := .ro }] },
  { name := "FLT_CNT_FATAL", base := 0x30218, dims := [],
    fields := [{ lo := 0, width := 64, rst := 0, acc := .ro }] },
  { name := "FLT_FLAG_FALLS", base := 0x30220, dims := [],
    fields := [{ lo := 0, width := 64, rst := 0, acc := .ro }] },
  { name := "FLT_CLEAR_IGNORED", base := 0x30228, dims := [],
    fields := [{ lo := 0, width := 64, rst := 0, acc := .ro }] },
  { name := "FLT_PAIR_BROKEN", base := 0x30230, dims := [],
    fields := [{ lo := 0, width := 64, rst := 0, acc := .ro }] },
  { name := "FLT_INJECTED", base := 0x30238, dims := [],
    fields := [{ lo := 0, width := 64, rst := 0, acc := .ro }] }]

/-- Registers of the TIM block. -/
def regsTIM : List RegDef := [
  { name := "TIM_CFG", base := 0x40000, dims := [],
    fields := [{ lo := 0, width := 1, rst := 0, acc := .rw, rwl := true },
      { lo := 1, width := 1, rst := 0, acc := .rw, rwl := true },
      { lo := 2, width := 1, rst := 0, acc := .rw },
      { lo := 8, width := 6, rst := 32, acc := .rw, rwl := true },
      { lo := 16, width := 16, rst := 200, acc := .rw, rwl := true },
      { lo := 32, width := 18, rst := 86400, acc := .rw, rwl := true }] },
  { name := "TIM_SERVO", base := 0x40008, dims := [],
    fields := [{ lo := 0, width := 16, rst := 1000, acc := .rw, rwl := true },
      { lo := 16, width := 8, rst := 20, acc := .rw, rwl := true },
      { lo := 24, width := 4, rst := 2, acc := .rw, rwl := true },
      { lo := 28, width := 4, rst := 6, acc := .rw, rwl := true }] },
  { name := "TIM_STAT", base := 0x40010, dims := [],
    fields := [{ lo := 0, width := 1, rst := 0, acc := .ro },
      { lo := 1, width := 2, rst := 0, acc := .ro },
      { lo := 8, width := 8, rst := 255, acc := .ro },
      { lo := 16, width := 9, rst := 511, acc := .ro },
      { lo := 32, width := 16, rst := 0, acc := .ro }] },
  { name := "TIM_NOW", base := 0x40018, dims := [],
    fields := [{ lo := 0, width := 64, rst := 0, acc := .ro }] },
  { name := "TIM_NOW_FRAC", base := 0x40020, dims := [],
    fields := [{ lo := 0, width := 16, rst := 0, acc := .ro }] },
  { name := "TIM_SET", base := 0x40028, dims := [],
    fields := [{ lo := 0, width := 64, rst := 0, acc := .rw }] },
  { name := "TIM_SET_CTL", base := 0x40030, dims := [],
    fields := [{ lo := 0, width := 1, rst := 0, acc := .wo },
      { lo := 1, width := 1, rst := 0, acc := .wo },
      { lo := 2, width := 1, rst := 0, acc := .ro }] },
  { name := "TIM_LAST_OFFSET", base := 0x40038, dims := [],
    fields := [{ lo := 0, width := 64, rst := 0, acc := .ro }] },
  { name := "TIM_IRQ", base := 0x40040, dims := [],
    fields := [{ lo := 0, width := 1, rst := 0, acc := .w1c },
      { lo := 1, width := 1, rst := 0, acc := .w1c },
      { lo := 2, width := 1, rst := 0, acc := .w1c },
      { lo := 3, width := 1, rst := 0, acc := .w1c },
      { lo := 4, width := 1, rst := 0, acc := .w1c },
      { lo := 16, width := 5, rst := 0, acc := .rw }] },
  { name := "TIM_STEPS", base := 0x40100, dims := [],
    fields := [{ lo := 0, width := 64, rst := 0, acc := .ro }] },
  { name := "TIM_PARENT_CHANGES", base := 0x40108, dims := [],
    fields := [{ lo := 0, width := 64, rst := 0, acc := .ro }] },
  { name := "TIM_HOLDOVERS", base := 0x40110, dims := [],
    fields := [{ lo := 0, width := 64, rst := 0, acc := .ro }] }]

/-- Registers of the TIM block. -/
def regsTIM2 : List RegDef := [
  { name := "TIM_PPS_BAD", base := 0x40118, dims := [],
    fields := [{ lo := 0, width := 64, rst := 0, acc := .ro }] },
  { name := "TIM_PPS_MISSED", base := 0x40120, dims := [],
    fields := [{ lo := 0, width := 64, rst := 0, acc := .ro }] }]

/-- Registers of the STK block. -/
def regsSTK : List RegDef := [
  { name := "STK_CFG", base := 0x80000, dims := [],
    fields := [{ lo := 0, width := 4, rst := 0, acc := .ro },
      { lo := 4, width := 4, rst := 0, acc := .ro },
      { lo := 8, width := 4, rst := 0, acc := .ro },
      { lo := 12, width := 1, rst := 0, acc := .ro },
      { lo := 13, width := 1, rst := 1, acc := .rw },
      { lo := 16, width := 12, rst := 0, acc := .ro },
      { lo := 32, width := 32, rst := 0, acc := .ro }] },
  { name := "STK_STAT", base := 0x80008, dims := [],
    fields := [{ lo := 0, width := 2, rst := 0, acc := .ro },
      { lo := 4, width := 4, rst := 0, acc := .ro },
      { lo := 8, width := 1, rst := 0, acc := .ro },
      { lo := 9, width := 1, rst := 0, acc := .ro },
      { lo := 16, width := 12, rst := 0, acc := .ro }] },
  { name := "STK_TIMING", base := 0x80010, dims := [],
    fields := [{ lo := 0, width := 16, rst := 1000, acc := .rw },
      { lo := 16, width := 4, rst := 10, acc := .rw },
      { lo := 20, width := 16, rst := 50, acc := .rw },
      { lo := 36, width := 12, rst := 32, acc := .rw }] },
  { name := "STK_FAULTS", base := 0x80018, dims := [],
    fields := [{ lo := 0, width := 12, rst := 0, acc := .w1c },
      { lo := 16, width := 12, rst := 0, acc := .w1c },
      { lo := 32, width := 12, rst := 0, acc := .w1c },
      { lo := 48, width := 12, rst := 0, acc := .w1c }] },
  { name := "STK_STROBE_STAT", base := 0x80020, dims := [],
    fields := [{ lo := 0, width := 1, rst := 0, acc := .ro },
      { lo := 1, width := 1, rst := 0, acc := .ro },
      { lo := 16, width := 48, rst := 0, acc := .ro }] },
  { name := "STK_PORT_PEER", base := 0x80040, dims := [(16, 0x8)],
    fields := [{ lo := 0, width := 4, rst := 15, acc := .ro },
      { lo := 4, width := 4, rst := 15, acc := .ro },
      { lo := 8, width := 4, rst := 15, acc := .ro },
      { lo := 12, width := 4, rst := 15, acc := .ro },
      { lo := 16, width := 4, rst := 15, acc := .ro },
      { lo := 20, width := 4, rst := 15, acc := .ro },
      { lo := 24, width := 4, rst := 15, acc := .ro },
      { lo := 28, width := 4, rst := 15, acc := .ro },
      { lo := 32, width := 4, rst := 15, acc := .ro },
      { lo := 36, width := 4, rst := 15, acc := .ro },
      { lo := 40, width := 4, rst := 15, acc := .ro },
      { lo := 44, width := 4, rst := 15, acc := .ro },
      { lo := 48, width := 4, rst := 15, acc := .ro },
      { lo := 52, width := 4, rst := 15, acc := .ro },
      { lo := 56, width := 4, rst := 15, acc := .ro },
      { lo := 60, width := 4, rst := 15, acc := .ro }] },
  { name := "STK_ROW", base := 0x80100, dims := [(12, 0x10), (2, 0x8)],
    fields := [{ lo := 0, width := 64, rst := 0, acc := .rw }] },
  { name := "STK_ROW_ACT", base := 0x80200, dims := [(12, 0x10), (2, 0x8)],
    fields := [{ lo := 0, width := 64, rst := 0, acc := .ro }] },
  { name := "STK_DISC_NOEGRESS", base := 0x80400, dims := [],
    fields := [{ lo := 0, width := 64, rst := 0, acc := .ro }] },
  { name := "STK_DISC_LVL", base := 0x80408, dims := [],
    fields := [{ lo := 0, width := 64, rst := 0, acc := .ro }] },
  { name := "STK_HELLO_BAD", base := 0x80410, dims := [],
    fields := [{ lo := 0, width := 64, rst := 0, acc := .ro }] },
  { name := "STK_DIGEST_RX", base := 0x80418, dims := [],
    fields := [{ lo := 0, width := 64, rst := 0, acc := .ro }] }]

/-- Registers of the STK block. -/
def regsSTK2 : List RegDef := [
  { name := "STK_HB_MISSED", base := 0x80420, dims := [],
    fields := [{ lo := 0, width := 64, rst := 0, acc := .ro }] },
  { name := "STK_TAKEOVER", base := 0x80428, dims := [],
    fields := [{ lo := 0, width := 64, rst := 0, acc := .ro }] },
  { name := "STK_TAKEOVER_DENIED", base := 0x80430, dims := [],
    fields := [{ lo := 0, width := 64, rst := 0, acc := .ro }] },
  { name := "STK_STROBE_LATE", base := 0x80438, dims := [],
    fields := [{ lo := 0, width := 64, rst := 0, acc := .ro }] },
  { name := "STK_STROBE_CANCEL", base := 0x80440, dims := [],
    fields := [{ lo := 0, width := 64, rst := 0, acc := .ro }] },
  { name := "STK_MIRROR_MISS", base := 0x80448, dims := [],
    fields := [{ lo := 0, width := 64, rst := 0, acc := .ro }] },
  { name := "STK_RELAY_WRITES", base := 0x80450, dims := [],
    fields := [{ lo := 0, width := 64, rst := 0, acc := .ro }] }]

/-- Registers of the LT block. -/
def regsLT : List RegDef := [
  { name := "LT_TILE_STAT", base := 0x100000, dims := [(16, 0x10000)],
    fields := [{ lo := 0, width := 2, rst := 0, acc := .ro },
      { lo := 2, width := 2, rst := 0, acc := .ro },
      { lo := 16, width := 16, rst := 0, acc := .ro }] },
  { name := "LT_HEALTH", base := 0x100008, dims := [(16, 0x10000)],
    fields := [{ lo := 0, width := 32, rst := 0, acc := .w1c }] },
  { name := "LT_HEALTH_CFG", base := 0x100010, dims := [(16, 0x10000)],
    fields := [{ lo := 0, width := 5, rst := 16, acc := .rw }] },
  { name := "LT_LANE_CTL", base := 0x100100, dims := [(16, 0x10000), (32, 0x80)],
    fields := [{ lo := 0, width := 2, rst := 0, acc := .rw },
      { lo := 4, width := 2, rst := 0, acc := .rw },
      { lo := 6, width := 1, rst := 0, acc := .rw },
      { lo := 7, width := 1, rst := 0, acc := .rw },
      { lo := 8, width := 2, rst := 0, acc := .rw }] },
  { name := "LT_LANE_STAT", base := 0x100108, dims := [(16, 0x10000), (32, 0x80)],
    fields := [{ lo := 0, width := 2, rst := 0, acc := .ro },
      { lo := 2, width := 1, rst := 0, acc := .ro },
      { lo := 3, width := 1, rst := 0, acc := .ro },
      { lo := 4, width := 1, rst := 0, acc := .ro },
      { lo := 5, width := 1, rst := 1, acc := .ro },
      { lo := 6, width := 1, rst := 0, acc := .w1c },
      { lo := 7, width := 9, rst := 0, acc := .ro },
      { lo := 16, width := 3, rst := 0, acc := .ro },
      { lo := 32, width := 18, rst := 0, acc := .ro }] },
  { name := "LT_TX_EQ", base := 0x100110, dims := [(16, 0x10000), (32, 0x80)],
    fields := [{ lo := 0, width := 7, rst := 0, acc := .rw },
      { lo := 8, width := 7, rst := 0, acc := .rw },
      { lo := 16, width := 7, rst := 0, acc := .rw },
      { lo := 24, width := 1, rst := 0, acc := .rw }] },
  { name := "LT_TX_EQ_ACT", base := 0x100118, dims := [(16, 0x10000), (32, 0x80)],
    fields := [{ lo := 0, width := 7, rst := 0, acc := .ro },
      { lo := 8, width := 7, rst := 0, acc := .ro },
      { lo := 16, width := 7, rst := 0, acc := .ro },
      { lo := 24, width := 1, rst := 0, acc := .ro }] },
  { name := "LT_RX_ADAPT", base := 0x100120, dims := [(16, 0x10000), (32, 0x80)],
    fields := [{ lo := 0, width := 2, rst := 0, acc := .ro },
      { lo := 2, width := 5, rst := 0, acc := .ro },
      { lo := 8, width := 8, rst := 0, acc := .ro },
      { lo := 16, width := 7, rst := 0, acc := .ro }] },
  { name := "LT_SCAN_CTL", base := 0x100130, dims := [(16, 0x10000), (32, 0x80)],
    fields := [{ lo := 0, width := 2, rst := 0, acc := .rw },
      { lo := 8, width := 6, rst := 0, acc := .rw },
      { lo := 16, width := 8, rst := 0, acc := .rw },
      { lo := 24, width := 4, rst := 0, acc := .rw },
      { lo := 31, width := 1, rst := 0, acc := .wo }] },
  { name := "LT_SCAN_RES", base := 0x100138, dims := [(16, 0x10000), (32, 0x80)],
    fields := [{ lo := 0, width := 1, rst := 0, acc := .ro },
      { lo := 8, width := 24, rst := 0, acc := .ro },
      { lo := 32, width := 32, rst := 0, acc := .ro }] },
  { name := "LT_PAT_STAT", base := 0x100150, dims := [(16, 0x10000), (32, 0x80)],
    fields := [{ lo := 0, width := 1, rst := 0, acc := .ro },
      { lo := 1, width := 1, rst := 0, acc := .ro },
      { lo := 16, width := 16, rst := 0, acc := .ro }] },
  { name := "LT_PORT_STAT", base := 0x102000, dims := [(16, 0x10000), (8, 0x40)],
    fields := [{ lo := 0, width := 1, rst := 0, acc := .ro },
      { lo := 1, width := 2, rst := 0, acc := .ro },
      { lo := 3, width := 1, rst := 0, acc := .ro },
      { lo := 8, width := 16, rst := 0, acc := .ro }] }]

/-- Registers of the LT block. -/
def regsLT2 : List RegDef := [
  { name := "LT_LANE_SYM", base := 0x100128, dims := [(16, 0x10000), (32, 0x80)],
    fields := [{ lo := 0, width := 64, rst := 0, acc := .ro }] },
  { name := "LT_PAT_ERR", base := 0x100140, dims := [(16, 0x10000), (32, 0x80)],
    fields := [{ lo := 0, width := 64, rst := 0, acc := .ro }] },
  { name := "LT_PAT_UI", base := 0x100148, dims := [(16, 0x10000), (32, 0x80)],
    fields := [{ lo := 0, width := 64, rst := 0, acc := .ro }] },
  { name := "LT_FEC_CORR", base := 0x102008, dims := [(16, 0x10000), (8, 0x40)],
    fields := [{ lo := 0, width := 64, rst := 0, acc := .ro }] },
  { name := "LT_FEC_UNCORR", base := 0x102010, dims := [(16, 0x10000), (8, 0x40)],
    fields := [{ lo := 0, width := 64, rst := 0, acc := .ro }] },
  { name := "LT_FEC_SYM", base := 0x102018, dims := [(16, 0x10000), (8, 0x40)],
    fields := [{ lo := 0, width := 64, rst := 0, acc := .ro }] },
  { name := "LT_COMMA_ERR", base := 0x102020, dims := [(16, 0x10000), (8, 0x40)],
    fields := [{ lo := 0, width := 64, rst := 0, acc := .ro }] },
  { name := "LT_ALIGN_ERR", base := 0x102028, dims := [(16, 0x10000), (8, 0x40)],
    fields := [{ lo := 0, width := 64, rst := 0, acc := .ro }] }]

/-- Registers of the LNK block. -/
def regsLNK : List RegDef := [
  { name := "LNK_CTL", base := 0x200000, dims := [(128, 0x1000), (2, 0x800)],
    fields := [{ lo := 0, width := 1, rst := 0, acc := .wo },
      { lo := 1, width := 1, rst := 0, acc := .rw },
      { lo := 2, width := 1, rst := 0, acc := .rw },
      { lo := 3, width := 1, rst := 0, acc := .rw }] },
  { name := "LNK_STAT", base := 0x200008, dims := [(128, 0x1000), (2, 0x800)],
    fields := [{ lo := 0, width := 3, rst := 0, acc := .ro },
      { lo := 3, width := 2, rst := 3, acc := .ro },
      { lo := 5, width := 1, rst := 0, acc := .ro },
      { lo := 6, width := 1, rst := 0, acc := .ro },
      { lo := 7, width := 1, rst := 0, acc := .ro },
      { lo := 8, width := 1, rst := 0, acc := .ro },
      { lo := 12, width := 4, rst := 0, acc := .ro },
      { lo := 16, width := 8, rst := 0, acc := .ro }] },
  { name := "LNK_PEER_ID", base := 0x200010, dims := [(128, 0x1000), (2, 0x800)],
    fields := [{ lo := 0, width := 64, rst := 0, acc := .ro }] },
  { name := "LNK_REPLAY_STAT", base := 0x200018, dims := [(128, 0x1000), (2, 0x800)],
    fields := [{ lo := 0, width := 10, rst := 0, acc := .ro },
      { lo := 16, width := 10, rst := 0, acc := .ro },
      { lo := 32, width := 12, rst := 0, acc := .ro },
      { lo := 44, width := 12, rst := 0, acc := .ro },
      { lo := 56, width := 1, rst := 0, acc := .ro },
      { lo := 57, width := 4, rst := 0, acc := .ro }] },
  { name := "LNK_ERR_CFG", base := 0x200020, dims := [(128, 0x1000), (2, 0x800)],
    fields := [{ lo := 0, width := 16, rst := 256, acc := .rw },
      { lo := 16, width := 4, rst := 8, acc := .rw },
      { lo := 20, width := 12, rst := 0, acc := .rw },
      { lo := 32, width := 16, rst := 0, acc := .rw },
      { lo := 48, width := 8, rst := 100, acc := .rw }] },
  { name := "LNK_RTT", base := 0x200028, dims := [(128, 0x1000), (2, 0x800)],
    fields := [{ lo := 0, width := 20, rst := 2400, acc := .ro }] },
  { name := "LNK_CRED_SHARED", base := 0x200030, dims := [(128, 0x1000), (2, 0x800)],
    fields := [{ lo := 0, width := 14, rst := 0, acc := .ro },
      { lo := 16, width := 14, rst := 0, acc := .ro },
      { lo := 32, width := 16, rst := 0, acc := .ro }] },
  { name := "LNK_TIME_DELAY", base := 0x200038, dims := [(128, 0x1000), (2, 0x800)],
    fields := [{ lo := 0, width := 48, rst := 0, acc := .ro }] },
  { name := "LNK_TIME_OFFSET", base := 0x200040, dims := [(128, 0x1000), (2, 0x800)],
    fields := [{ lo := 0, width := 64, rst := 0, acc := .ro }] },
  { name := "LNK_CRED_VL", base := 0x200100, dims := [(128, 0x1000), (2, 0x800), (16, 0x8)],
    fields := [{ lo := 0, width := 7, rst := 0, acc := .ro },
      { lo := 16, width := 14, rst := 0, acc := .ro }] },
  { name := "LNK_ROWS_TX", base := 0x200200, dims := [(128, 0x1000), (2, 0x800)],
    fields := [{ lo := 0, width := 64, rst := 0, acc := .ro }] },
  { name := "LNK_ROWS_REPLAY", base := 0x200208, dims := [(128, 0x1000), (2, 0x800)],
    fields := [{ lo := 0, width := 64, rst := 0, acc := .ro }] }]

/-- Registers of the LNK block. -/
def regsLNK2 : List RegDef := [
  { name := "LNK_ROWS_RX", base := 0x200210, dims := [(128, 0x1000), (2, 0x800)],
    fields := [{ lo := 0, width := 64, rst := 0, acc := .ro }] },
  { name := "LNK_BAD_ROWS", base := 0x200218, dims := [(128, 0x1000), (2, 0x800)],
    fields := [{ lo := 0, width := 64, rst := 0, acc := .ro }] },
  { name := "LNK_DUP_ROWS", base := 0x200220, dims := [(128, 0x1000), (2, 0x800)],
    fields := [{ lo := 0, width := 64, rst := 0, acc := .ro }] },
  { name := "LNK_GAP_ROWS", base := 0x200228, dims := [(128, 0x1000), (2, 0x800)],
    fields := [{ lo := 0, width := 64, rst := 0, acc := .ro }] },
  { name := "LNK_NAK_TX", base := 0x200230, dims := [(128, 0x1000), (2, 0x800)],
    fields := [{ lo := 0, width := 64, rst := 0, acc := .ro }] },
  { name := "LNK_NAK_RX", base := 0x200238, dims := [(128, 0x1000), (2, 0x800)],
    fields := [{ lo := 0, width := 64, rst := 0, acc := .ro }] },
  { name := "LNK_NAK_EMPTY", base := 0x200240, dims := [(128, 0x1000), (2, 0x800)],
    fields := [{ lo := 0, width := 64, rst := 0, acc := .ro }] },
  { name := "LNK_REPLAY_TO", base := 0x200248, dims := [(128, 0x1000), (2, 0x800)],
    fields := [{ lo := 0, width := 64, rst := 0, acc := .ro }] },
  { name := "LNK_FULL_IDLE", base := 0x200250, dims := [(128, 0x1000), (2, 0x800)],
    fields := [{ lo := 0, width := 64, rst := 0, acc := .ro }] },
  { name := "LNK_ABORT_PKTS", base := 0x200258, dims := [(128, 0x1000), (2, 0x800)],
    fields := [{ lo := 0, width := 64, rst := 0, acc := .ro }] },
  { name := "LNK_RESETS", base := 0x200260, dims := [(128, 0x1000), (2, 0x800)],
    fields := [{ lo := 0, width := 64, rst := 0, acc := .ro }] },
  { name := "LNK_TRAIN_FAIL", base := 0x200268, dims := [(128, 0x1000), (2, 0x800)],
    fields := [{ lo := 0, width := 64, rst := 0, acc := .ro }] }]

/-- Registers of the LNK block. -/
def regsLNK3 : List RegDef := [
  { name := "LNK_ABSORBED", base := 0x200270, dims := [(128, 0x1000), (2, 0x800)],
    fields := [{ lo := 0, width := 64, rst := 0, acc := .ro }] }]

/-- Registers of the SWC block. -/
def regsSWC : List RegDef := [
  { name := "SWC_BUF_STAT", base := 0x300000, dims := [],
    fields := [{ lo := 0, width := 22, rst := 0, acc := .ro },
      { lo := 22, width := 22, rst := 0, acc := .ro },
      { lo := 44, width := 3, rst := 6, acc := .ro },
      { lo := 47, width := 1, rst := 0, acc := .ro }] },
  { name := "SWC_AGE_CFG", base := 0x300008, dims := [],
    fields := [{ lo := 0, width := 10, rst := 0, acc := .ro }] },
  { name := "SWC_AUDIT_CTL", base := 0x300010, dims := [],
    fields := [{ lo := 0, width := 1, rst := 1, acc := .rw },
      { lo := 16, width := 16, rst := 0, acc := .ro }] },
  { name := "SWC_AUDIT_LAST", base := 0x300018, dims := [],
    fields := [{ lo := 0, width := 22, rst := 0, acc := .ro },
      { lo := 22, width := 2, rst := 0, acc := .ro }] },
  { name := "SWC_VL_TC", base := 0x300080, dims := [],
    fields := [{ lo := 0, width := 2, rst := 0, acc := .ro },
      { lo := 2, width := 2, rst := 0, acc := .rw },
      { lo := 4, width := 2, rst := 0, acc := .rw },
      { lo := 6, width := 2, rst := 0, acc := .rw },
      { lo := 8, width := 2, rst := 0, acc := .rw },
      { lo := 10, width := 2, rst := 0, acc := .rw },
      { lo := 12, width := 2, rst := 0, acc := .rw },
      { lo := 14, width := 2, rst := 0, acc := .rw },
      { lo := 16, width := 2, rst := 0, acc := .rw },
      { lo := 18, width := 2, rst := 0, acc := .rw },
      { lo := 20, width := 2, rst := 0, acc := .rw },
      { lo := 22, width := 2, rst := 0, acc := .rw },
      { lo := 24, width := 2, rst := 0, acc := .rw },
      { lo := 26, width := 2, rst := 0, acc := .rw },
      { lo := 28, width := 2, rst := 0, acc := .rw },
      { lo := 30, width := 2, rst := 0, acc := .rw }] },
  { name := "SWC_VL_TC_ACT", base := 0x300088, dims := [],
    fields := [{ lo := 0, width := 2, rst := 0, acc := .ro },
      { lo := 2, width := 2, rst := 0, acc := .ro },
      { lo := 4, width := 2, rst := 0, acc := .ro },
      { lo := 6, width := 2, rst := 0, acc := .ro },
      { lo := 8, width := 2, rst := 0, acc := .ro },
      { lo := 10, width := 2, rst := 0, acc := .ro },
      { lo := 12, width := 2, rst := 0, acc := .ro },
      { lo := 14, width := 2, rst := 0, acc := .ro },
      { lo := 16, width := 2, rst := 0, acc := .ro },
      { lo := 18, width := 2, rst := 0, acc := .ro },
      { lo := 20, width := 2, rst := 0, acc := .ro },
      { lo := 22, width := 2, rst := 0, acc := .ro },
      { lo := 24, width := 2, rst := 0, acc := .ro },
      { lo := 26, width := 2, rst := 0, acc := .ro },
      { lo := 28, width := 2, rst := 0, acc := .ro },
      { lo := 30, width := 2, rst := 0, acc := .ro }] },
  { name := "SWC_BANK_FENCE", base := 0x300040, dims := [(7, 0x8)],
    fields := [{ lo := 0, width := 64, rst := 0, acc := .ro }] },
  { name := "SWC_LOCAL_CFG", base := 0x301000, dims := [(7, 0x40)],
    fields := [{ lo := 0, width := 4, rst := 0, acc := .rw },
      { lo := 16, width := 16, rst := 0, acc := .ro }] },
  { name := "SWC_LOCAL_OCC", base := 0x301008, dims := [(7, 0x40)],
    fields := [{ lo := 0, width := 22, rst := 0, acc := .ro },
      { lo := 22, width := 4, rst := 0, acc := .ro },
      { lo := 26, width := 22, rst := 0, acc := .ro },
      { lo := 48, width := 16, rst := 0, acc := .ro }] },
  { name := "SWC_OUT_CFG", base := 0x310000, dims := [(259, 0x200)],
    fields := [{ lo := 0, width := 4, rst := 0, acc := .rw },
      { lo := 16, width := 16, rst := 1024, acc := .rw }] },
  { name := "SWC_DWRR", base := 0x310010, dims := [(259, 0x200), (4, 0x8)],
    fields := [{ lo := 0, width := 16, rst := 65, acc := .rw },
      { lo := 32, width := 16, rst := 0, acc := .ro }] },
  { name := "SWC_SHP", base := 0x310030, dims := [(259, 0x200), (4, 0x8)],
    fields := [{ lo := 0, width := 13, rst := 4096, acc := .rw },
      { lo := 16, width := 16, rst := 130, acc := .rw },
      { lo := 32, width := 16, rst := 65, acc := .rw },
      { lo := 48, width := 1, rst := 0, acc := .rw },
      { lo := 49, width := 1, rst := 1, acc := .rw }] }]

/-- Registers of the SWC block. -/
def regsSWC2 : List RegDef := [
  { name := "SWC_SHP_ACT", base := 0x310050, dims := [(259, 0x200), (4, 0x8)],
    fields := [{ lo := 0, width := 13, rst := 4096, acc := .ro },
      { lo := 16, width := 16, rst := 130, acc := .ro },
      { lo := 32, width := 16, rst := 65, acc := .ro },
      { lo := 48, width := 1, rst := 0, acc := .ro },
      { lo := 49, width := 1, rst := 1, acc := .ro }] },
  { name := "SWC_SHP_CRED", base := 0x310070, dims := [(259, 0x200), (4, 0x8)],
    fields := [{ lo := 0, width := 32, rst := 0, acc := .ro }] },
  { name := "SWC_DEPTH", base := 0x310100, dims := [(259, 0x200), (16, 0x8)],
    fields := [{ lo := 0, width := 22, rst := 0, acc := .ro }] },
  { name := "SWC_POL_RATE_C", base := 0x340000, dims := [(512, 0x40)],
    fields := [{ lo := 0, width := 24, rst := 0, acc := .rw },
      { lo := 24, width := 24, rst := 65, acc := .rw }] },
  { name := "SWC_POL_RATE_P", base := 0x340008, dims := [(512, 0x40)],
    fields := [{ lo := 0, width := 24, rst := 0, acc := .rw },
      { lo := 24, width := 24, rst := 65, acc := .rw }] },
  { name := "SWC_POL_CTL", base := 0x340010, dims := [(512, 0x40)],
    fields := [{ lo := 0, width := 1, rst := 0, acc := .rw },
      { lo := 1, width := 1, rst := 0, acc := .rw },
      { lo := 2, width := 2, rst := 0, acc := .rw },
      { lo := 4, width := 2, rst := 0, acc := .rw },
      { lo := 6, width := 2, rst := 1, acc := .rw },
      { lo := 8, width := 1, rst := 1, acc := .rw }] },
  { name := "SWC_POL_RATE_C_ACT", base := 0x340018, dims := [(512, 0x40)],
    fields := [{ lo := 0, width := 24, rst := 0, acc := .ro },
      { lo := 24, width := 24, rst := 65, acc := .ro }] },
  { name := "SWC_POL_RATE_P_ACT", base := 0x340020, dims := [(512, 0x40)],
    fields := [{ lo := 0, width := 24, rst := 0, acc := .ro },
      { lo := 24, width := 24, rst := 65, acc := .ro }] },
  { name := "SWC_POL_CTL_ACT", base := 0x340028, dims := [(512, 0x40)],
    fields := [{ lo := 0, width := 1, rst := 0, acc := .ro },
      { lo := 1, width := 1, rst := 0, acc := .ro },
      { lo := 2, width := 2, rst := 0, acc := .ro },
      { lo := 4, width := 2, rst := 0, acc := .ro },
      { lo := 6, width := 2, rst := 1, acc := .ro },
      { lo := 8, width := 1, rst := 1, acc := .ro }] },
  { name := "SWC_POL_TOK", base := 0x340030, dims := [(512, 0x40)],
    fields := [{ lo := 0, width := 24, rst := 0, acc := .ro },
      { lo := 24, width := 24, rst := 0, acc := .ro },
      { lo := 48, width := 16, rst := 0, acc := .ro }] },
  { name := "SWC_DISC_AGE", base := 0x300200, dims := [],
    fields := [{ lo := 0, width := 64, rst := 0, acc := .ro }] },
  { name := "SWC_DISC_HDR", base := 0x300208, dims := [],
    fields := [{ lo := 0, width := 64, rst := 0, acc := .ro }] }]

/-- Registers of the SWC block. -/
def regsSWC3 : List RegDef := [
  { name := "SWC_DISC_EP_TRANSIT", base := 0x300210, dims := [],
    fields := [{ lo := 0, width := 64, rst := 0, acc := .ro }] },
  { name := "SWC_DISC_NO_FUNC", base := 0x300218, dims := [],
    fields := [{ lo := 0, width := 64, rst := 0, acc := .ro }] },
  { name := "SWC_DISC_NO_SVC", base := 0x300220, dims := [],
    fields := [{ lo := 0, width := 64, rst := 0, acc := .ro }] },
  { name := "SWC_DISC_PORT_DOWN", base := 0x300228, dims := [],
    fields := [{ lo := 0, width := 64, rst := 0, acc := .ro }] },
  { name := "SWC_DISC_ECC", base := 0x300230, dims := [],
    fields := [{ lo := 0, width := 64, rst := 0, acc := .ro }] },
  { name := "SWC_DISC_AUDIT", base := 0x300238, dims := [],
    fields := [{ lo := 0, width := 64, rst := 0, acc := .ro }] },
  { name := "SWC_DISC_POLICE", base := 0x300240, dims := [],
    fields := [{ lo := 0, width := 64, rst := 0, acc := .ro }] },
  { name := "SWC_AGE_UNCHECKED", base := 0x300248, dims := [],
    fields := [{ lo := 0, width := 64, rst := 0, acc := .ro }] },
  { name := "SWC_CUT_THROUGH", base := 0x300250, dims := [],
    fields := [{ lo := 0, width := 64, rst := 0, acc := .ro }] },
  { name := "SWC_ECC_CORR", base := 0x300258, dims := [],
    fields := [{ lo := 0, width := 64, rst := 0, acc := .ro }] },
  { name := "SWC_AUDIT_LEAK", base := 0x300260, dims := [],
    fields := [{ lo := 0, width := 64, rst := 0, acc := .ro }] },
  { name := "SWC_AUDIT_RETURNED", base := 0x300268, dims := [],
    fields := [{ lo := 0, width := 64, rst := 0, acc := .ro }] }]

/-- Registers of the SWC block. -/
def regsSWC4 : List RegDef := [
  { name := "SWC_AUDIT_DOUBLE", base := 0x300270, dims := [],
    fields := [{ lo := 0, width := 64, rst := 0, acc := .ro }] },
  { name := "SWC_PREV_LINK_FREED", base := 0x300278, dims := [],
    fields := [{ lo := 0, width := 64, rst := 0, acc := .ro }] }]

/-- Registers of the RTE block. -/
def regsRTE : List RegDef := [
  { name := "RTE_CFG", base := 0x400000, dims := [],
    fields := [{ lo := 0, width := 4, rst := 0, acc := .rw },
      { lo := 16, width := 15, rst := 0, acc := .rw }] },
  { name := "RTE_CFG_ACT", base := 0x400008, dims := [],
    fields := [{ lo := 0, width := 4, rst := 0, acc := .ro },
      { lo := 16, width := 15, rst := 0, acc := .ro }] },
  { name := "RTE_ROLL_CFG", base := 0x400010, dims := [],
    fields := [{ lo := 0, width := 4, rst := 8, acc := .rw },
      { lo := 4, width := 4, rst := 4, acc := .rw },
      { lo := 8, width := 16, rst := 2000, acc := .rw },
      { lo := 24, width := 16, rst := 200, acc := .rw },
      { lo := 40, width := 4, rst := 3, acc := .rw },
      { lo := 44, width := 1, rst := 1, acc := .rw },
      { lo := 45, width := 1, rst := 1, acc := .rw }] },
  { name := "RTE_STAT", base := 0x400018, dims := [],
    fields := [{ lo := 0, width := 1, rst := 0, acc := .ro },
      { lo := 1, width := 1, rst := 0, acc := .ro },
      { lo := 2, width := 1, rst := 0, acc := .w1c },
      { lo := 16, width := 16, rst := 0, acc := .ro }] },
  { name := "RTE_STAGE_LAST", base := 0x400020, dims := [],
    fields := [{ lo := 0, width := 32, rst := 0, acc := .ro },
      { lo := 32, width := 9, rst := 0, acc := .ro },
      { lo := 41, width := 3, rst := 0, acc := .ro },
      { lo := 44, width := 4, rst := 0, acc := .ro }] },
  { name := "RTE_DROP_LAST", base := 0x400028, dims := [],
    fields := [{ lo := 0, width := 32, rst := 0, acc := .ro },
      { lo := 32, width := 9, rst := 0, acc := .ro },
      { lo := 41, width := 3, rst := 0, acc := .ro },
      { lo := 44, width := 4, rst := 0, acc := .ro }] },
  { name := "RTE_PORT_LVL", base := 0x401000, dims := [(256, 0x10)],
    fields := [{ lo := 0, width := 3, rst := 0, acc := .rw },
      { lo := 3, width := 3, rst := 0, acc := .rw },
      { lo := 6, width := 3, rst := 0, acc := .rw },
      { lo := 9, width := 3, rst := 0, acc := .rw },
      { lo := 12, width := 3, rst := 0, acc := .rw },
      { lo := 15, width := 3, rst := 0, acc := .rw },
      { lo := 18, width := 14, rst := 0, acc := .rw }] },
  { name := "RTE_PORT_LVL_ACT", base := 0x401008, dims := [(256, 0x10)],
    fields := [{ lo := 0, width := 3, rst := 0, acc := .ro },
      { lo := 3, width := 3, rst := 0, acc := .ro },
      { lo := 6, width := 3, rst := 0, acc := .ro },
      { lo := 9, width := 3, rst := 0, acc := .ro },
      { lo := 12, width := 3, rst := 0, acc := .ro },
      { lo := 15, width := 3, rst := 0, acc := .ro },
      { lo := 18, width := 14, rst := 0, acc := .ro }] },
  { name := "RTE_REMOTE", base := 0x402000, dims := [(256, 0x8)],
    fields := [{ lo := 0, width := 20, rst := 0, acc := .ro }] },
  { name := "RTE_LOC_TBL", base := 0x410000, dims := [(1024, 0x40), (8, 0x8)],
    fields := [{ lo := 0, width := 64, rst := 0, acc := .rw }] },
  { name := "RTE_LOC_TBL_ACT", base := 0x420000, dims := [(1024, 0x40), (8, 0x8)],
    fields := [{ lo := 0, width := 64, rst := 0, acc := .ro }] },
  { name := "RTE_MC_TBL", base := 0x440000, dims := [(4096, 0x40), (8, 0x8)],
    fields := [{ lo := 0, width := 64, rst := 0, acc := .rw }] }]

/-- Registers of the RTE block. -/
def regsRTE2 : List RegDef := [
  { name := "RTE_MC_TBL_ACT", base := 0x480000, dims := [(4096, 0x40), (8, 0x8)],
    fields := [{ lo := 0, width := 64, rst := 0, acc := .ro }] },
  { name := "RTE_GRP_TBL", base := 0x500000, dims := [(16384, 0x40), (8, 0x8)],
    fields := [{ lo := 0, width := 64, rst := 0, acc := .rw }] },
  { name := "RTE_GRP_TBL_ACT", base := 0x600000, dims := [(16384, 0x40), (8, 0x8)],
    fields := [{ lo := 0, width := 64, rst := 0, acc := .ro }] },
  { name := "RTE_DISC_NOROUTE", base := 0x400100, dims := [],
    fields := [{ lo := 0, width := 64, rst := 0, acc := .ro }] },
  { name := "RTE_DISC_STAGE", base := 0x400108, dims := [],
    fields := [{ lo := 0, width := 64, rst := 0, acc := .ro }] },
  { name := "RTE_DISC_LEVEL", base := 0x400110, dims := [],
    fields := [{ lo := 0, width := 64, rst := 0, acc := .ro }] },
  { name := "RTE_DISC_TREE", base := 0x400118, dims := [],
    fields := [{ lo := 0, width := 64, rst := 0, acc := .ro }] },
  { name := "RTE_MC_SKIP", base := 0x400120, dims := [],
    fields := [{ lo := 0, width := 64, rst := 0, acc := .ro }] },
  { name := "RTE_NONMIN_DETOUR", base := 0x400128, dims := [],
    fields := [{ lo := 0, width := 64, rst := 0, acc := .ro }] },
  { name := "RTE_NONMIN_VALIANT", base := 0x400130, dims := [],
    fields := [{ lo := 0, width := 64, rst := 0, acc := .ro }] },
  { name := "RTE_VIA_REACHED", base := 0x400138, dims := [],
    fields := [{ lo := 0, width := 64, rst := 0, acc := .ro }] },
  { name := "RTE_STAGE_INC", base := 0x400140, dims := [],
    fields := [{ lo := 0, width := 64, rst := 0, acc := .ro }] }]

/-- Registers of the CGC block. -/
def regsCGC : List RegDef := [
  { name := "CGC_THR_CFG", base := 0x800000, dims := [],
    fields := [{ lo := 0, width := 22, rst := 262144, acc := .rw },
      { lo := 22, width := 22, rst := 196608, acc := .rw },
      { lo := 44, width := 10, rst := 512, acc := .rw },
      { lo := 54, width := 10, rst := 256, acc := .rw }] },
  { name := "CGC_GAP_CFG", base := 0x800008, dims := [],
    fields := [{ lo := 0, width := 16, rst := 64, acc := .rw },
      { lo := 16, width := 24, rst := 65536, acc := .rw },
      { lo := 40, width := 1, rst := 1, acc := .rw }] },
  { name := "CGC_WIN_CFG", base := 0x800010, dims := [],
    fields := [{ lo := 0, width := 16, rst := 4096, acc := .rw },
      { lo := 16, width := 8, rst := 205, acc := .rw },
      { lo := 24, width := 8, rst := 128, acc := .rw },
      { lo := 32, width := 20, rst := 4000, acc := .rw },
      { lo := 52, width := 1, rst := 1, acc := .rw }] },
  { name := "CGC_WIN_LIM", base := 0x800018, dims := [],
    fields := [{ lo := 0, width := 20, rst := 4096, acc := .rw },
      { lo := 20, width := 20, rst := 64, acc := .rw },
      { lo := 40, width := 20, rst := 262144, acc := .rw }] },
  { name := "CGC_GRANT_CFG", base := 0x800020, dims := [],
    fields := [{ lo := 0, width := 16, rst := 64, acc := .rw },
      { lo := 16, width := 16, rst := 256, acc := .rw },
      { lo := 32, width := 16, rst := 16, acc := .rw },
      { lo := 48, width := 1, rst := 1, acc := .rw }] },
  { name := "CGC_CMD", base := 0x800080, dims := [],
    fields := [{ lo := 0, width := 16, rst := 0, acc := .wo }] },
  { name := "CGC_CMD_ARG", base := 0x800088, dims := [],
    fields := [{ lo := 0, width := 64, rst := 0, acc := .rw }] },
  { name := "CGC_CMD_STAT", base := 0x800090, dims := [],
    fields := [{ lo := 0, width := 1, rst := 0, acc := .ro },
      { lo := 8, width := 8, rst := 0, acc := .ro },
      { lo := 16, width := 16, rst := 0, acc := .ro },
      { lo := 32, width := 1, rst := 0, acc := .ro },
      { lo := 33, width := 1, rst := 0, acc := .ro },
      { lo := 34, width := 1, rst := 0, acc := .ro }] },
  { name := "CGC_GRANT_BUDGET", base := 0x800040, dims := [(4, 0x8)],
    fields := [{ lo := 0, width := 24, rst := 4096, acc := .rw },
      { lo := 24, width := 24, rst := 0, acc := .ro },
      { lo := 48, width := 16, rst := 0, acc := .ro }] },
  { name := "CGC_PROBE_LAST0", base := 0x800098, dims := [],
    fields := [{ lo := 0, width := 64, rst := 0, acc := .ro }] },
  { name := "CGC_PROBE_LAST1", base := 0x8000a0, dims := [],
    fields := [{ lo := 0, width := 64, rst := 0, acc := .ro }] },
  { name := "CGC_PROBE_LAST2", base := 0x8000a8, dims := [],
    fields := [{ lo := 0, width := 64, rst := 0, acc := .ro }] }]

/-- Registers of the CGC block. -/
def regsCGC2 : List RegDef := [
  { name := "CGC_PROBE_LAST3", base := 0x8000b0, dims := [],
    fields := [{ lo := 0, width := 64, rst := 0, acc := .ro }] },
  { name := "CGC_PROBE_LAST4", base := 0x8000b8, dims := [],
    fields := [{ lo := 0, width := 32, rst := 0, acc := .ro }] },
  { name := "CGC_KEY_SLOT", base := 0x800100, dims := [(16, 0x10)],
    fields := [{ lo := 0, width := 1, rst := 0, acc := .ro },
      { lo := 1, width := 1, rst := 0, acc := .ro },
      { lo := 16, width := 8, rst := 0, acc := .ro },
      { lo := 32, width := 32, rst := 0, acc := .ro }] },
  { name := "CGC_KEY_PSN", base := 0x800108, dims := [(16, 0x10)],
    fields := [{ lo := 0, width := 32, rst := 0, acc := .ro },
      { lo := 32, width := 32, rst := 0, acc := .ro }] },
  { name := "CGC_FN_STAT", base := 0x801000, dims := [(512, 0x8)],
    fields := [{ lo := 0, width := 1, rst := 0, acc := .ro },
      { lo := 1, width := 1, rst := 0, acc := .ro },
      { lo := 2, width := 1, rst := 0, acc := .ro },
      { lo := 16, width := 24, rst := 0, acc := .ro }] },
  { name := "CGC_QUENCH_JOB", base := 0x802000, dims := [(128, 0x8)],
    fields := [{ lo := 0, width := 64, rst := 0, acc := .ro }] },
  { name := "CGC_THROTTLE_ON", base := 0x800200, dims := [],
    fields := [{ lo := 0, width := 64, rst := 0, acc := .ro }] },
  { name := "CGC_QUENCH_DISC", base := 0x800208, dims := [],
    fields := [{ lo := 0, width := 64, rst := 0, acc := .ro }] },
  { name := "CGC_AUTH_NOKEY", base := 0x800210, dims := [],
    fields := [{ lo := 0, width := 64, rst := 0, acc := .ro }] },
  { name := "CGC_AUTH_FAIL", base := 0x800218, dims := [],
    fields := [{ lo := 0, width := 64, rst := 0, acc := .ro }] },
  { name := "CGC_AUTH_REPLAY", base := 0x800220, dims := [],
    fields := [{ lo := 0, width := 64, rst := 0, acc := .ro }] },
  { name := "CGC_AUTH_PERM", base := 0x800228, dims := [],
    fields := [{ lo := 0, width := 64, rst := 0, acc := .ro }] }]

/-- Registers of the CGC block. -/
def regsCGC3 : List RegDef := [
  { name := "CGC_STOP_RX", base := 0x800230, dims := [],
    fields := [{ lo := 0, width := 64, rst := 0, acc := .ro }] },
  { name := "CGC_MGMT_QFULL", base := 0x800238, dims := [],
    fields := [{ lo := 0, width := 64, rst := 0, acc := .ro }] },
  { name := "CGC_GRANT_REQ_RX", base := 0x800240, dims := [],
    fields := [{ lo := 0, width := 64, rst := 0, acc := .ro }] },
  { name := "CGC_GRANT_TX", base := 0x800248, dims := [],
    fields := [{ lo := 0, width := 64, rst := 0, acc := .ro }] },
  { name := "CGC_PROBE_RX", base := 0x800250, dims := [],
    fields := [{ lo := 0, width := 64, rst := 0, acc := .ro }] },
  { name := "CGC_PROBE_ECHO_RX", base := 0x800258, dims := [],
    fields := [{ lo := 0, width := 64, rst := 0, acc := .ro }] },
  { name := "CGC_PROBE_DISC", base := 0x800260, dims := [],
    fields := [{ lo := 0, width := 64, rst := 0, acc := .ro }] },
  { name := "CGC_MGMT_RESP_DISC", base := 0x800268, dims := [],
    fields := [{ lo := 0, width := 64, rst := 0, acc := .ro }] },
  { name := "CGC_E2E_CRC", base := 0x800270, dims := [],
    fields := [{ lo := 0, width := 64, rst := 0, acc := .ro }] }]

/-- Registers of the HPT block. -/
def regsHPT : List RegDef := [
  { name := "HPT_PORT_CFG", base := 0x900000, dims := [(4, 0x40000)],
    fields := [{ lo := 0, width := 1, rst := 0, acc := .ro },
      { lo := 1, width := 3, rst := 0, acc := .ro },
      { lo := 4, width := 1, rst := 0, acc := .ro },
      { lo := 8, width := 7, rst := 0, acc := .ro },
      { lo := 16, width := 13, rst := 0, acc := .ro }] },
  { name := "HPT_PORT_STAT", base := 0x900008, dims := [(4, 0x40000)],
    fields := [{ lo := 0, width := 1, rst := 0, acc := .ro },
      { lo := 1, width := 3, rst := 0, acc := .ro },
      { lo := 4, width := 5, rst := 0, acc := .ro },
      { lo := 9, width := 1, rst := 0, acc := .ro },
      { lo := 16, width := 1, rst := 0, acc := .ro },
      { lo := 24, width := 7, rst := 0, acc := .ro }] },
  { name := "HPT_PORT_POOL", base := 0x900010, dims := [(4, 0x40000)],
    fields := [{ lo := 0, width := 21, rst := 0, acc := .ro },
      { lo := 21, width := 19, rst := 0, acc := .ro },
      { lo := 40, width := 14, rst := 0, acc := .ro }] },
  { name := "HPT_FN_STAT", base := 0x910000, dims := [(4, 0x40000), (128, 0x100)],
    fields := [{ lo := 0, width := 1, rst := 0, acc := .ro },
      { lo := 1, width := 1, rst := 0, acc := .ro },
      { lo := 2, width := 3, rst := 0, acc := .ro },
      { lo := 5, width := 1, rst := 0, acc := .ro },
      { lo := 6, width := 1, rst := 0, acc := .ro }] },
  { name := "HPT_FN_TEARDOWN", base := 0x910008, dims := [(4, 0x40000), (128, 0x100)],
    fields := [{ lo := 0, width := 1, rst := 0, acc := .wo },
      { lo := 1, width := 1, rst := 0, acc := .ro },
      { lo := 8, width := 24, rst := 0, acc := .ro }] },
  { name := "HPT_FN_QUOTA", base := 0x910010, dims := [(4, 0x40000), (128, 0x100)],
    fields := [{ lo := 0, width := 17, rst := 0, acc := .ro },
      { lo := 17, width := 17, rst := 0, acc := .ro },
      { lo := 34, width := 12, rst := 0, acc := .ro },
      { lo := 46, width := 13, rst := 0, acc := .ro }] },
  { name := "HPT_FN_USED", base := 0x910018, dims := [(4, 0x40000), (128, 0x100)],
    fields := [{ lo := 0, width := 17, rst := 0, acc := .ro },
      { lo := 17, width := 17, rst := 0, acc := .ro },
      { lo := 34, width := 12, rst := 0, acc := .ro },
      { lo := 46, width := 13, rst := 0, acc := .ro }] },
  { name := "HPT_FN_INFO", base := 0x920000, dims := [(4, 0x40000), (128, 0x100)],
    fields := [{ lo := 0, width := 32, rst := 0, acc := .ro },
      { lo := 32, width := 1, rst := 0, acc := .ro }] },
  { name := "HPT_FN_STATUS", base := 0x920008, dims := [(4, 0x40000), (128, 0x100)],
    fields := [{ lo := 0, width := 1, rst := 0, acc := .ro },
      { lo := 1, width := 3, rst := 0, acc := .ro },
      { lo := 4, width := 1, rst := 0, acc := .ro },
      { lo := 5, width := 1, rst := 0, acc := .ro }] },
  { name := "HPT_ADMIN_WQ_BASE", base := 0x920010, dims := [(4, 0x40000), (128, 0x100)],
    fields := [{ lo := 0, width := 64, rst := 0, acc := .rw }] },
  { name := "HPT_ADMIN_CQ_BASE", base := 0x920018, dims := [(4, 0x40000), (128, 0x100)],
    fields := [{ lo := 0, width := 64, rst := 0, acc := .rw }] },
  { name := "HPT_ADMIN_CFG", base := 0x920020, dims := [(4, 0x40000), (128, 0x100)],
    fields := [{ lo := 0, width := 4, rst := 6, acc := .rw },
      { lo := 4, width := 1, rst := 0, acc := .rw },
      { lo := 16, width := 11, rst := 0, acc := .rw }] }]

/-- Registers of the HPT block. -/
def regsHPT2 : List RegDef := [
  { name := "HPT_LINK_DOWN", base := 0x900100, dims := [(4, 0x40000)],
    fields := [{ lo := 0, width := 64, rst := 0, acc := .ro }] },
  { name := "HPT_UNEXP_CPL", base := 0x900108, dims := [(4, 0x40000)],
    fields := [{ lo := 0, width := 64, rst := 0, acc := .ro }] },
  { name := "HPT_HOST_ERR", base := 0x900110, dims := [(4, 0x40000)],
    fields := [{ lo := 0, width := 64, rst := 0, acc := .ro }] },
  { name := "HPT_TEARDOWNS", base := 0x900118, dims := [(4, 0x40000)],
    fields := [{ lo := 0, width := 64, rst := 0, acc := .ro }] },
  { name := "HPT_FN_DB", base := 0x910040, dims := [(4, 0x40000), (128, 0x100)],
    fields := [{ lo := 0, width := 64, rst := 0, acc := .ro }] },
  { name := "HPT_FN_DB_DROP", base := 0x910048, dims := [(4, 0x40000), (128, 0x100)],
    fields := [{ lo := 0, width := 64, rst := 0, acc := .ro }] },
  { name := "HPT_FN_FETCHED", base := 0x910050, dims := [(4, 0x40000), (128, 0x100)],
    fields := [{ lo := 0, width := 64, rst := 0, acc := .ro }] },
  { name := "HPT_FN_MALFORMED", base := 0x910058, dims := [(4, 0x40000), (128, 0x100)],
    fields := [{ lo := 0, width := 64, rst := 0, acc := .ro }] },
  { name := "HPT_FN_CQE", base := 0x910060, dims := [(4, 0x40000), (128, 0x100)],
    fields := [{ lo := 0, width := 64, rst := 0, acc := .ro }] },
  { name := "HPT_FN_ACK_ERR", base := 0x910068, dims := [(4, 0x40000), (128, 0x100)],
    fields := [{ lo := 0, width := 64, rst := 0, acc := .ro }] },
  { name := "HPT_FN_EQ_DROP", base := 0x910070, dims := [(4, 0x40000), (128, 0x100)],
    fields := [{ lo := 0, width := 64, rst := 0, acc := .ro }] }]

/-- Registers of the TRN block. -/
def regsTRN : List RegDef := [
  { name := "TRN_CFG", base := 0xa00000, dims := [],
    fields := [{ lo := 0, width := 16, rst := 50, acc := .rw }] },
  { name := "TRN_STAT", base := 0xa00008, dims := [],
    fields := [{ lo := 0, width := 1, rst := 0, acc := .ro },
      { lo := 16, width := 13, rst := 0, acc := .ro },
      { lo := 29, width := 13, rst := 0, acc := .ro },
      { lo := 42, width := 13, rst := 0, acc := .ro }] },
  { name := "TRN_FAULT_ADDR", base := 0xa00010, dims := [],
    fields := [{ lo := 0, width := 64, rst := 0, acc := .ro }] },
  { name := "TRN_FAULT_INFO", base := 0xa00018, dims := [],
    fields := [{ lo := 0, width := 9, rst := 0, acc := .ro },
      { lo := 9, width := 8, rst := 0, acc := .ro },
      { lo := 17, width := 5, rst := 0, acc := .ro },
      { lo := 22, width := 2, rst := 0, acc := .ro },
      { lo := 24, width := 11, rst := 0, acc := .ro },
      { lo := 35, width := 13, rst := 0, acc := .ro }] },
  { name := "TRN_DWIN_BASE", base := 0xa01000, dims := [(4, 0x100), (16, 0x10)],
    fields := [{ lo := 0, width := 1, rst := 0, acc := .ro },
      { lo := 12, width := 52, rst := 0, acc := .ro }] },
  { name := "TRN_DWIN_SIZE", base := 0xa01008, dims := [(4, 0x100), (16, 0x10)],
    fields := [{ lo := 0, width := 64, rst := 0, acc := .ro }] },
  { name := "TRN_S2_ROOT", base := 0xa02000, dims := [(512, 0x10)],
    fields := [{ lo := 12, width := 40, rst := 0, acc := .ro }] },
  { name := "TRN_S2_CFG", base := 0xa02008, dims := [(512, 0x10)],
    fields := [{ lo := 0, width := 1, rst := 0, acc := .ro },
      { lo := 1, width := 1, rst := 0, acc := .ro },
      { lo := 32, width := 17, rst := 0, acc := .ro }] },
  { name := "TRN_WALKS", base := 0xa00100, dims := [],
    fields := [{ lo := 0, width := 64, rst := 0, acc := .ro }] },
  { name := "TRN_WALK_READS", base := 0xa00108, dims := [],
    fields := [{ lo := 0, width := 64, rst := 0, acc := .ro }] },
  { name := "TRN_MICRO_HIT", base := 0xa00110, dims := [],
    fields := [{ lo := 0, width := 64, rst := 0, acc := .ro }] },
  { name := "TRN_SHARED_HIT", base := 0xa00118, dims := [],
    fields := [{ lo := 0, width := 64, rst := 0, acc := .ro }] }]

/-- Registers of the TRN block. -/
def regsTRN2 : List RegDef := [
  { name := "TRN_WALK_HIT", base := 0xa00120, dims := [],
    fields := [{ lo := 0, width := 64, rst := 0, acc := .ro }] },
  { name := "TRN_EXPIRED", base := 0xa00128, dims := [],
    fields := [{ lo := 0, width := 64, rst := 0, acc := .ro }] },
  { name := "TRN_FAULT_NP", base := 0xa00130, dims := [],
    fields := [{ lo := 0, width := 64, rst := 0, acc := .ro }] },
  { name := "TRN_FAULT_PERM", base := 0xa00138, dims := [],
    fields := [{ lo := 0, width := 64, rst := 0, acc := .ro }] },
  { name := "TRN_FAULT_BUS", base := 0xa00140, dims := [],
    fields := [{ lo := 0, width := 64, rst := 0, acc := .ro }] },
  { name := "TRN_FAULT_DEV", base := 0xa00148, dims := [],
    fields := [{ lo := 0, width := 64, rst := 0, acc := .ro }] },
  { name := "TRN_PAGE_REQ", base := 0xa00150, dims := [],
    fields := [{ lo := 0, width := 64, rst := 0, acc := .ro }] },
  { name := "TRN_PAGE_REQ_FULL", base := 0xa00158, dims := [],
    fields := [{ lo := 0, width := 64, rst := 0, acc := .ro }] },
  { name := "TRN_PAGE_RESUME", base := 0xa00160, dims := [],
    fields := [{ lo := 0, width := 64, rst := 0, acc := .ro }] },
  { name := "TRN_INVALIDATE", base := 0xa00168, dims := [],
    fields := [{ lo := 0, width := 64, rst := 0, acc := .ro }] }]

/-- Registers of the XPT block. -/
def regsXPT : List RegDef := [
  { name := "XPT_RTO_CFG", base := 0xb00000, dims := [],
    fields := [{ lo := 0, width := 20, rst := 8000, acc := .rw },
      { lo := 20, width := 20, rst := 100000, acc := .rw },
      { lo := 40, width := 16, rst := 10000, acc := .rw },
      { lo := 56, width := 4, rst := 7, acc := .rw }] },
  { name := "XPT_ACK_CFG", base := 0xb00008, dims := [],
    fields := [{ lo := 0, width := 16, rst := 2000, acc := .rw },
      { lo := 16, width := 8, rst := 8, acc := .rw },
      { lo := 32, width := 16, rst := 10000, acc := .rw }] },
  { name := "XPT_CONN_CFG", base := 0xb00010, dims := [],
    fields := [{ lo := 0, width := 16, rst := 0, acc := .rw },
      { lo := 16, width := 16, rst := 1000, acc := .rw },
      { lo := 32, width := 4, rst := 4, acc := .rw },
      { lo := 48, width := 16, rst := 20, acc := .rw }] },
  { name := "XPT_POOL_STAT", base := 0xb00018, dims := [],
    fields := [{ lo := 0, width := 23, rst := 0, acc := .ro },
      { lo := 23, width := 17, rst := 0, acc := .ro },
      { lo := 40, width := 17, rst := 0, acc := .ro }] },
  { name := "XPT_STORE_STAT", base := 0xb00020, dims := [],
    fields := [{ lo := 0, width := 24, rst := 0, acc := .ro },
      { lo := 24, width := 24, rst := 0, acc := .ro },
      { lo := 48, width := 16, rst := 0, acc := .ro }] },
  { name := "XPT_MR_STAT", base := 0xb00028, dims := [],
    fields := [{ lo := 0, width := 25, rst := 0, acc := .ro }] },
  { name := "XPT_LAST_FAIL", base := 0xb00030, dims := [],
    fields := [{ lo := 0, width := 32, rst := 0, acc := .ro },
      { lo := 32, width := 16, rst := 0, acc := .ro },
      { lo := 48, width := 8, rst := 0, acc := .ro }] },
  { name := "XPT_LAST_FAIL_FN", base := 0xb00038, dims := [],
    fields := [{ lo := 0, width := 9, rst := 0, acc := .ro },
      { lo := 16, width := 16, rst := 0, acc := .ro }] },
  { name := "XPT_CONN_SEL", base := 0xb00040, dims := [],
    fields := [{ lo := 0, width := 32, rst := 0, acc := .rw },
      { lo := 32, width := 16, rst := 0, acc := .rw },
      { lo := 48, width := 9, rst := 0, acc := .rw }] },
  { name := "XPT_CONN_VIEW0", base := 0xb00048, dims := [],
    fields := [{ lo := 0, width := 1, rst := 0, acc := .ro },
      { lo := 1, width := 3, rst := 0, acc := .ro },
      { lo := 16, width := 16, rst := 0, acc := .ro },
      { lo := 32, width := 32, rst := 0, acc := .ro }] },
  { name := "XPT_CONN_VIEW1", base := 0xb00050, dims := [],
    fields := [{ lo := 0, width := 32, rst := 0, acc := .ro },
      { lo := 32, width := 32, rst := 0, acc := .ro }] },
  { name := "XPT_CONN_VIEW2", base := 0xb00058, dims := [],
    fields := [{ lo := 0, width := 32, rst := 0, acc := .ro },
      { lo := 32, width := 14, rst := 0, acc := .ro },
      { lo := 46, width := 4, rst := 0, acc := .ro },
      { lo := 50, width := 4, rst := 0, acc := .ro }] }]

/-- Registers of the XPT block. -/
def regsXPT2 : List RegDef := [
  { name := "XPT_FN_CFG", base := 0xb01000, dims := [(512, 0x8)],
    fields := [{ lo := 0, width := 3, rst := 0, acc := .rw }] },
  { name := "XPT_OPENS", base := 0xb00100, dims := [],
    fields := [{ lo := 0, width := 64, rst := 0, acc := .ro }] },
  { name := "XPT_OPEN_TIES", base := 0xb00108, dims := [],
    fields := [{ lo := 0, width := 64, rst := 0, acc := .ro }] },
  { name := "XPT_CLOSE_IDLE", base := 0xb00110, dims := [],
    fields := [{ lo := 0, width := 64, rst := 0, acc := .ro }] },
  { name := "XPT_CLOSE_DECLINED", base := 0xb00118, dims := [],
    fields := [{ lo := 0, width := 64, rst := 0, acc := .ro }] },
  { name := "XPT_CONN_FAILED", base := 0xb00120, dims := [],
    fields := [{ lo := 0, width := 64, rst := 0, acc := .ro }] },
  { name := "XPT_TOMBSTONE_HIT", base := 0xb00128, dims := [],
    fields := [{ lo := 0, width := 64, rst := 0, acc := .ro }] },
  { name := "XPT_NO_CONTEXT_TX", base := 0xb00130, dims := [],
    fields := [{ lo := 0, width := 64, rst := 0, acc := .ro }] },
  { name := "XPT_RETX_RTO", base := 0xb00138, dims := [],
    fields := [{ lo := 0, width := 64, rst := 0, acc := .ro }] },
  { name := "XPT_RETX_NAK", base := 0xb00140, dims := [],
    fields := [{ lo := 0, width := 64, rst := 0, acc := .ro }] },
  { name := "XPT_DUP_RX", base := 0xb00148, dims := [],
    fields := [{ lo := 0, width := 64, rst := 0, acc := .ro }] },
  { name := "XPT_AHEAD_DISC", base := 0xb00150, dims := [],
    fields := [{ lo := 0, width := 64, rst := 0, acc := .ro }] }]

/-- Registers of the XPT block. -/
def regsXPT3 : List RegDef := [
  { name := "XPT_ACK_TX", base := 0xb00158, dims := [],
    fields := [{ lo := 0, width := 64, rst := 0, acc := .ro }] },
  { name := "XPT_SACK_TX", base := 0xb00160, dims := [],
    fields := [{ lo := 0, width := 64, rst := 0, acc := .ro }] },
  { name := "XPT_NAK_SEQ_TX", base := 0xb00168, dims := [],
    fields := [{ lo := 0, width := 64, rst := 0, acc := .ro }] },
  { name := "XPT_REFUSAL_TX", base := 0xb00170, dims := [],
    fields := [{ lo := 0, width := 64, rst := 0, acc := .ro }] },
  { name := "XPT_ATOMIC_REPLAY", base := 0xb00178, dims := [],
    fields := [{ lo := 0, width := 64, rst := 0, acc := .ro }] },
  { name := "XPT_STALE_REPLY", base := 0xb00180, dims := [],
    fields := [{ lo := 0, width := 64, rst := 0, acc := .ro }] },
  { name := "XPT_ACCESS_VIOL", base := 0xb00188, dims := [],
    fields := [{ lo := 0, width := 64, rst := 0, acc := .ro }] },
  { name := "XPT_FADD_RETRY", base := 0xb00190, dims := [],
    fields := [{ lo := 0, width := 64, rst := 0, acc := .ro }] },
  { name := "XPT_CTX_MISS", base := 0xb00198, dims := [],
    fields := [{ lo := 0, width := 64, rst := 0, acc := .ro }] },
  { name := "XPT_STORE_WAIT", base := 0xb001a0, dims := [],
    fields := [{ lo := 0, width := 64, rst := 0, acc := .ro }] },
  { name := "XPT_PEND_LOST", base := 0xb001a8, dims := [],
    fields := [{ lo := 0, width := 64, rst := 0, acc := .ro }] }]

/-- Registers of the MTC block. -/
def regsMTC : List RegDef := [
  { name := "MTC_CFG", base := 0xc00000, dims := [],
    fields := [{ lo := 0, width := 16, rst := 20, acc := .rw },
      { lo := 16, width := 4, rst := 8, acc := .rw },
      { lo := 20, width := 4, rst := 4, acc := .rw }] },
  { name := "MTC_POOL_STAT0", base := 0xc00008, dims := [],
    fields := [{ lo := 0, width := 25, rst := 0, acc := .ro },
      { lo := 25, width := 23, rst := 0, acc := .ro }] },
  { name := "MTC_POOL_STAT1", base := 0xc00010, dims := [],
    fields := [{ lo := 0, width := 24, rst := 0, acc := .ro },
      { lo := 24, width := 19, rst := 0, acc := .ro }] },
  { name := "MTC_STAGE_STAT", base := 0xc00018, dims := [],
    fields := [{ lo := 0, width := 28, rst := 0, acc := .ro },
      { lo := 28, width := 28, rst := 0, acc := .ro }] },
  { name := "MTC_DOM_SEL", base := 0xc00020, dims := [],
    fields := [{ lo := 0, width := 9, rst := 0, acc := .rw },
      { lo := 16, width := 16, rst := 0, acc := .rw }] },
  { name := "MTC_DOM_VIEW0", base := 0xc00028, dims := [],
    fields := [{ lo := 0, width := 1, rst := 0, acc := .ro },
      { lo := 1, width := 7, rst := 0, acc := .ro },
      { lo := 8, width := 12, rst := 0, acc := .ro },
      { lo := 32, width := 32, rst := 0, acc := .ro }] },
  { name := "MTC_DOM_VIEW1", base := 0xc00030, dims := [],
    fields := [{ lo := 0, width := 64, rst := 0, acc := .ro }] },
  { name := "MTC_DOM_VIEW2", base := 0xc00038, dims := [],
    fields := [{ lo := 0, width := 24, rst := 0, acc := .ro },
      { lo := 24, width := 24, rst := 0, acc := .ro },
      { lo := 48, width := 16, rst := 0, acc := .ro }] },
  { name := "MTC_PAWN_STAT", base := 0xc01000, dims := [(104, 0x8)],
    fields := [{ lo := 0, width := 2, rst := 0, acc := .ro },
      { lo := 2, width := 1, rst := 0, acc := .ro },
      { lo := 3, width := 1, rst := 0, acc := .ro },
      { lo := 8, width := 16, rst := 0, acc := .ro },
      { lo := 24, width := 20, rst := 0, acc := .ro },
      { lo := 44, width := 16, rst := 0, acc := .ro }] },
  { name := "MTC_SLOT", base := 0xc02000, dims := [(8, 0x10)],
    fields := [{ lo := 0, width := 1, rst := 0, acc := .ro },
      { lo := 1, width := 2, rst := 0, acc := .ro },
      { lo := 3, width := 1, rst := 0, acc := .ro },
      { lo := 16, width := 16, rst := 0, acc := .ro },
      { lo := 32, width := 11, rst := 0, acc := .ro }] },
  { name := "MTC_SLOT_STAT", base := 0xc02008, dims := [(8, 0x10)],
    fields := [{ lo := 0, width := 32, rst := 0, acc := .ro },
      { lo := 32, width := 16, rst := 0, acc := .ro }] },
  { name := "MTC_MATCH_POSTED", base := 0xc00100, dims := [],
    fields := [{ lo := 0, width := 64, rst := 0, acc := .ro }] }]

/-- Registers of the MTC block. -/
def regsMTC2 : List RegDef := [
  { name := "MTC_MATCH_UNEXP", base := 0xc00108, dims := [],
    fields := [{ lo := 0, width := 64, rst := 0, acc := .ro }] },
  { name := "MTC_UNEXP_TAKEN", base := 0xc00110, dims := [],
    fields := [{ lo := 0, width := 64, rst := 0, acc := .ro }] },
  { name := "MTC_EARLY_HELD", base := 0xc00118, dims := [],
    fields := [{ lo := 0, width := 64, rst := 0, acc := .ro }] },
  { name := "MTC_CASCADE", base := 0xc00120, dims := [],
    fields := [{ lo := 0, width := 64, rst := 0, acc := .ro }] },
  { name := "MTC_NAK_STAGING", base := 0xc00128, dims := [],
    fields := [{ lo := 0, width := 64, rst := 0, acc := .ro }] },
  { name := "MTC_NAK_NODOMAIN", base := 0xc00130, dims := [],
    fields := [{ lo := 0, width := 64, rst := 0, acc := .ro }] },
  { name := "MTC_NAK_INVALID", base := 0xc00138, dims := [],
    fields := [{ lo := 0, width := 64, rst := 0, acc := .ro }] },
  { name := "MTC_TRUNCATED", base := 0xc00140, dims := [],
    fields := [{ lo := 0, width := 64, rst := 0, acc := .ro }] },
  { name := "MTC_CANCELLED", base := 0xc00148, dims := [],
    fields := [{ lo := 0, width := 64, rst := 0, acc := .ro }] },
  { name := "MTC_CANCEL_MISS", base := 0xc00150, dims := [],
    fields := [{ lo := 0, width := 64, rst := 0, acc := .ro }] },
  { name := "MTC_PROBE_HIT", base := 0xc00158, dims := [],
    fields := [{ lo := 0, width := 64, rst := 0, acc := .ro }] },
  { name := "MTC_PROBE_MISS", base := 0xc00160, dims := [],
    fields := [{ lo := 0, width := 64, rst := 0, acc := .ro }] }]

/-- Registers of the MTC block. -/
def regsMTC3 : List RegDef := [
  { name := "MTC_RDV_PULLS", base := 0xc00168, dims := [],
    fields := [{ lo := 0, width := 64, rst := 0, acc := .ro }] },
  { name := "MTC_RDV_DRAIN_SERVED", base := 0xc00170, dims := [],
    fields := [{ lo := 0, width := 64, rst := 0, acc := .ro }] },
  { name := "MTC_KEY_WAIT", base := 0xc00178, dims := [],
    fields := [{ lo := 0, width := 64, rst := 0, acc := .ro }] },
  { name := "MTC_DISC_DESTROY", base := 0xc00180, dims := [],
    fields := [{ lo := 0, width := 64, rst := 0, acc := .ro }] },
  { name := "MTC_MSG_FAILED", base := 0xc00188, dims := [],
    fields := [{ lo := 0, width := 64, rst := 0, acc := .ro }] },
  { name := "MTC_HANDLER_RUNS", base := 0xc00190, dims := [],
    fields := [{ lo := 0, width := 64, rst := 0, acc := .ro }] },
  { name := "MTC_HANDLER_OVERRUN", base := 0xc00198, dims := [],
    fields := [{ lo := 0, width := 64, rst := 0, acc := .ro }] }]

/-- Registers of the COL block. -/
def regsCOL : List RegDef := [
  { name := "COL_CFG", base := 0xd00000, dims := [],
    fields := [{ lo := 0, width := 16, rst := 10000, acc := .rw },
      { lo := 16, width := 20, rst := 1000, acc := .rw },
      { lo := 36, width := 16, rst := 100, acc := .rw }] },
  { name := "COL_STAT", base := 0xd00008, dims := [],
    fields := [{ lo := 0, width := 12, rst := 0, acc := .ro },
      { lo := 12, width := 13, rst := 0, acc := .ro },
      { lo := 25, width := 20, rst := 0, acc := .ro }] },
  { name := "COL_TREE_CMD", base := 0xd00010, dims := [],
    fields := [{ lo := 0, width := 12, rst := 0, acc := .wo },
      { lo := 12, width := 2, rst := 0, acc := .wo }] },
  { name := "COL_CMD_STAT", base := 0xd00018, dims := [],
    fields := [{ lo := 0, width := 1, rst := 0, acc := .ro },
      { lo := 1, width := 3, rst := 0, acc := .ro },
      { lo := 4, width := 1, rst := 0, acc := .w1c }] },
  { name := "COL_ROOK_STAT", base := 0xd00200, dims := [(36, 0x8)],
    fields := [{ lo := 0, width := 2, rst := 0, acc := .ro },
      { lo := 2, width := 1, rst := 0, acc := .ro },
      { lo := 3, width := 7, rst := 64, acc := .ro },
      { lo := 10, width := 13, rst := 0, acc := .ro }] },
  { name := "COL_TREE_A", base := 0xd10000, dims := [(4096, 0x10)],
    fields := [{ lo := 0, width := 64, rst := 0, acc := .rw }] },
  { name := "COL_TREE_B", base := 0xd10008, dims := [(4096, 0x10)],
    fields := [{ lo := 0, width := 64, rst := 0, acc := .rw }] },
  { name := "COL_TREE_A_ACT", base := 0xd20000, dims := [(4096, 0x10)],
    fields := [{ lo := 0, width := 64, rst := 0, acc := .ro }] },
  { name := "COL_TREE_B_ACT", base := 0xd20008, dims := [(4096, 0x10)],
    fields := [{ lo := 0, width := 64, rst := 0, acc := .ro }] },
  { name := "COL_TREE_STAT", base := 0xd30000, dims := [(4096, 0x10)],
    fields := [{ lo := 0, width := 2, rst := 0, acc := .ro },
      { lo := 2, width := 3, rst := 0, acc := .ro },
      { lo := 5, width := 6, rst := 0, acc := .ro },
      { lo := 11, width := 21, rst := 0, acc := .ro },
      { lo := 32, width := 5, rst := 0, acc := .ro }] },
  { name := "COL_TREE_OP", base := 0xd30008, dims := [(4096, 0x10)],
    fields := [{ lo := 0, width := 2, rst := 0, acc := .ro },
      { lo := 2, width := 16, rst := 0, acc := .ro },
      { lo := 18, width := 4, rst := 0, acc := .ro },
      { lo := 22, width := 32, rst := 0, acc := .ro }] },
  { name := "COL_OPS_DONE", base := 0xd00100, dims := [],
    fields := [{ lo := 0, width := 64, rst := 0, acc := .ro }] }]

/-- Registers of the COL block. -/
def regsCOL2 : List RegDef := [
  { name := "COL_OPS_ABORTED", base := 0xd00108, dims := [],
    fields := [{ lo := 0, width := 64, rst := 0, acc := .ro }] },
  { name := "COL_CHUNKS_UP", base := 0xd00110, dims := [],
    fields := [{ lo := 0, width := 64, rst := 0, acc := .ro }] },
  { name := "COL_CHUNKS_DOWN", base := 0xd00118, dims := [],
    fields := [{ lo := 0, width := 64, rst := 0, acc := .ro }] },
  { name := "COL_DISC_STALE", base := 0xd00120, dims := [],
    fields := [{ lo := 0, width := 64, rst := 0, acc := .ro }] },
  { name := "COL_CRC_ERR", base := 0xd00128, dims := [],
    fields := [{ lo := 0, width := 64, rst := 0, acc := .ro }] },
  { name := "COL_SEAT_OK", base := 0xd00130, dims := [],
    fields := [{ lo := 0, width := 64, rst := 0, acc := .ro }] },
  { name := "COL_SEAT_FAIL", base := 0xd00138, dims := [],
    fields := [{ lo := 0, width := 64, rst := 0, acc := .ro }] },
  { name := "COL_UNSEAT", base := 0xd00140, dims := [],
    fields := [{ lo := 0, width := 64, rst := 0, acc := .ro }] },
  { name := "COL_TIMEOUTS", base := 0xd00148, dims := [],
    fields := [{ lo := 0, width := 64, rst := 0, acc := .ro }] },
  { name := "COL_FLAG_NAN", base := 0xd00150, dims := [],
    fields := [{ lo := 0, width := 64, rst := 0, acc := .ro }] },
  { name := "COL_FLAG_INF", base := 0xd00158, dims := [],
    fields := [{ lo := 0, width := 64, rst := 0, acc := .ro }] },
  { name := "COL_FLAG_SAT", base := 0xd00160, dims := [],
    fields := [{ lo := 0, width := 64, rst := 0, acc := .ro }] }]

/-- Registers of the COL block. -/
def regsCOL3 : List RegDef := [
  { name := "COL_RESULT_FAULT", base := 0xd00168, dims := [],
    fields := [{ lo := 0, width := 64, rst := 0, acc := .ro }] }]

/-- Registers of the LCK block. -/
def regsLCK : List RegDef := [
  { name := "LCK_CFG", base := 0xe00000, dims := [],
    fields := [{ lo := 0, width := 16, rst := 500, acc := .rw },
      { lo := 16, width := 4, rst := 8, acc := .rw }] },
  { name := "LCK_OP", base := 0xe00008, dims := [],
    fields := [{ lo := 0, width := 16, rst := 0, acc := .wo },
      { lo := 16, width := 8, rst := 0, acc := .wo }] },
  { name := "LCK_OP_COMPARE", base := 0xe00010, dims := [],
    fields := [{ lo := 0, width := 64, rst := 0, acc := .rw }] },
  { name := "LCK_OP_SWAP", base := 0xe00018, dims := [],
    fields := [{ lo := 0, width := 64, rst := 0, acc := .rw }] },
  { name := "LCK_OP_RESULT", base := 0xe00020, dims := [],
    fields := [{ lo := 0, width := 3, rst := 0, acc := .ro },
      { lo := 3, width := 1, rst := 0, acc := .ro }] },
  { name := "LCK_OP_OLD", base := 0xe00028, dims := [],
    fields := [{ lo := 0, width := 64, rst := 0, acc := .ro }] },
  { name := "LCK_PURGE", base := 0xe00030, dims := [],
    fields := [{ lo := 0, width := 2, rst := 0, acc := .wo },
      { lo := 2, width := 18, rst := 0, acc := .wo }] },
  { name := "LCK_PURGE_FA", base := 0xe00038, dims := [],
    fields := [{ lo := 0, width := 32, rst := 0, acc := .rw }] },
  { name := "LCK_GRP_CFG", base := 0xe01000, dims := [(256, 0x100)],
    fields := [{ lo := 0, width := 1, rst := 0, acc := .rw },
      { lo := 1, width := 1, rst := 0, acc := .rw },
      { lo := 2, width := 18, rst := 0, acc := .rw }] },
  { name := "LCK_GRP_ACL", base := 0xe01010, dims := [(256, 0x100), (16, 0x8)],
    fields := [{ lo := 0, width := 2, rst := 0, acc := .rw },
      { lo := 2, width := 32, rst := 0, acc := .rw }] },
  { name := "LCK_ORPHAN", base := 0xe12000, dims := [(1024, 0x8)],
    fields := [{ lo := 0, width := 64, rst := 0, acc := .ro }] },
  { name := "LCK_WORD", base := 0xe20000, dims := [(65536, 0x8)],
    fields := [{ lo := 0, width := 64, rst := 0, acc := .ro }] }]

/-- Registers of the LCK block. -/
def regsLCK2 : List RegDef := [
  { name := "LCK_OPS", base := 0xe00100, dims := [],
    fields := [{ lo := 0, width := 64, rst := 0, acc := .ro }] },
  { name := "LCK_DENIED", base := 0xe00108, dims := [],
    fields := [{ lo := 0, width := 64, rst := 0, acc := .ro }] },
  { name := "LCK_NOT_OWNER", base := 0xe00110, dims := [],
    fields := [{ lo := 0, width := 64, rst := 0, acc := .ro }] },
  { name := "LCK_AGED", base := 0xe00118, dims := [],
    fields := [{ lo := 0, width := 64, rst := 0, acc := .ro }] },
  { name := "LCK_FWD", base := 0xe00120, dims := [],
    fields := [{ lo := 0, width := 64, rst := 0, acc := .ro }] },
  { name := "LCK_FORCED", base := 0xe00128, dims := [],
    fields := [{ lo := 0, width := 64, rst := 0, acc := .ro }] },
  { name := "LCK_STALE_RESULT", base := 0xe00130, dims := [],
    fields := [{ lo := 0, width := 64, rst := 0, acc := .ro }] },
  { name := "LCK_UNSERVED", base := 0xe00138, dims := [],
    fields := [{ lo := 0, width := 64, rst := 0, acc := .ro }] },
  { name := "LCK_PEER_OVF", base := 0xe00140, dims := [],
    fields := [{ lo := 0, width := 64, rst := 0, acc := .ro }] }]

/-- Registers of the PMON block. -/
def regsPMON : List RegDef := [
  { name := "PMON_CNT", base := 0xf00000, dims := [(24576, 0x8)],
    fields := [{ lo := 0, width := 64, rst := 0, acc := .ro }] },
  { name := "PMON_SNAP", base := 0xf40000, dims := [(24576, 0x8)],
    fields := [{ lo := 0, width := 64, rst := 0, acc := .ro }] },
  { name := "PMON_SNAP_CTL", base := 0xf80000, dims := [],
    fields := [{ lo := 0, width := 1, rst := 0, acc := .wo },
      { lo := 8, width := 24, rst := 0, acc := .rw }] },
  { name := "PMON_SNAP_TIME", base := 0xf80008, dims := [],
    fields := [{ lo := 0, width := 64, rst := 0, acc := .ro }] },
  { name := "PMON_SAMPLE_CFG", base := 0xf80010, dims := [],
    fields := [{ lo := 0, width := 1, rst := 0, acc := .rw },
      { lo := 1, width := 1, rst := 0, acc := .rw },
      { lo := 2, width := 1, rst := 0, acc := .rw },
      { lo := 8, width := 5, rst := 16, acc := .rw },
      { lo := 16, width := 5, rst := 16, acc := .rw },
      { lo := 24, width := 8, rst := 63, acc := .rw },
      { lo := 32, width := 10, rst := 1023, acc := .rw }] },
  { name := "PMON_RING_CFG", base := 0xf80018, dims := [],
    fields := [{ lo := 0, width := 5, rst := 10, acc := .rw },
      { lo := 12, width := 36, rst := 0, acc := .rw }] },
  { name := "PMON_RING_WR", base := 0xf80020, dims := [],
    fields := [{ lo := 0, width := 32, rst := 0, acc := .ro }] },
  { name := "PMON_RING_RD", base := 0xf80028, dims := [],
    fields := [{ lo := 0, width := 32, rst := 0, acc := .rw }] },
  { name := "PMON_SAMPLE_SKIP", base := 0xf80100, dims := [],
    fields := [{ lo := 0, width := 64, rst := 0, acc := .ro }] },
  { name := "PMON_SAMPLE_DROP", base := 0xf80108, dims := [],
    fields := [{ lo := 0, width := 64, rst := 0, acc := .ro }] }]

/-- Every register of the map. -/
def regTable : List RegDef :=
  regsGLB ++
  regsGLB2 ++
  regsSEC ++
  regsPWR ++
  regsPWR2 ++
  regsFLT ++
  regsFLT2 ++
  regsTIM ++
  regsTIM2 ++
  regsSTK ++
  regsSTK2 ++
  regsLT ++
  regsLT2 ++
  regsLNK ++
  regsLNK2 ++
  regsLNK3 ++
  regsSWC ++
  regsSWC2 ++
  regsSWC3 ++
  regsSWC4 ++
  regsRTE ++
  regsRTE2 ++
  regsCGC ++
  regsCGC2 ++
  regsCGC3 ++
  regsHPT ++
  regsHPT2 ++
  regsTRN ++
  regsTRN2 ++
  regsXPT ++
  regsXPT2 ++
  regsXPT3 ++
  regsMTC ++
  regsMTC2 ++
  regsMTC3 ++
  regsCOL ++
  regsCOL2 ++
  regsCOL3 ++
  regsLCK ++
  regsLCK2 ++
  regsPMON

end Sys2Proof.Machine
end

