-- ==== Sys2Proof/Machine/State.lean ====
section
/-!
DEFINITION. The state of the module as plain data, the reasons a command can stop with, and the state after reset.
-/
namespace Sys2Proof.Machine

/-- What the module does to the outside, in the order it does it: rows on fabric links, messages and writes on its PCI
Express ports, answers to register accesses, pins. -/
inductive Output where
  /-- a row handed to the line coding of logical port p (R98) -/
  | row (p : Nat) (bits : BitVec 4224)
  /-- PAM4 levels driven on module lane l (R72) -/
  | levels (l : Nat) (v : List Level)
  /-- what module lane l's transmitter takes from now on: 0 the link layer, 1 to 3 the pattern of that PAT_SEL, 4 the received levels
  (R93) -/
  | laneSource (l src : Nat)
  /-- MSI-X message of vector n of the management port (R378): address and data -/
  | mgmtVector (n addr data : Nat)
  /-- the data of a register or aperture read by a master (R381) -/
  | readData (master off : Nat) (v : Word)
  /-- a rising edge of PPS_OUT that lasts 100 ms (R456) -/
  | ppsOut
  /-- a posted write of host port p: Routing ID (R205), bus address, and bytes `off` to `off + len - 1` of the data (R204) -/
  | hostWrite (p rid bus : Nat) (data : List Square) (off len : Nat)
  /-- a read issued to host memory: number, host port, Routing ID, bus address, length (R204, R277) -/
  | hostRead (id p rid bus len : Nat)
  /-- the read of a translation-table entry: host port, Routing ID, bus address; 8 bytes (R238) -/
  | tableRead (p rid bus : Nat)
  /-- a PCI Express AtomicOp: host port, Routing ID, bus address, ACTL, operands (R275) -/
  | hostAtomic (p rid bus actl a b : Nat)
  /-- MSI-X message of vector n of function f (R219): Routing ID, address and data -/
  | fnVector (f rid n addr data : Nat)
  /-- data returned to a function's read of its registers or counter pages (R231) -/
  | fnRead (f off : Nat) (v : Word)
  /-- data returned to a read of another BAR of function f, 512 the management port (R207, R206, R378) -/
  | barRead (f bar off : Nat) (v : Word)
  /-- data returned to a configuration read of function f, 512 the management port (R202) -/
  | configRead (f off : Nat) (v : Word)
  /-- a read of a BAR of function f was answered Unsupported Request (R229) -/
  | unsupported (f off : Nat)
  /-- host links and lanes: link of host port p taken down or allowed to train (R390, R483) -/
  | hostLink (p : Nat) (up : Bool)
  /-- the 32-bit identification register shifted out (R498) -/
  | tapId (v : BitVec 32)
  /-- the instruction register of the test access port as it is captured (R494) -/
  | tapIr (v : BitVec 8)
  deriving DecidableEq, Repr

/-- Faults of a step. The module itself never stops: errors are its own state (chapter 18). No meaning raises one; the
type has one constructor so that it is inhabited. -/
inductive Fault where
  /-- raised by nothing; safe -/
  | never
  deriving DecidableEq, Repr

/-- Refusals of a step. -/
inductive Refusal where
  /-- a command that has no meaning in this model yet; raised by the dispatch only; safe -/
  | notModelled (mnemonic : String)
  deriving DecidableEq, Repr

/-- The state of the module. `pending` holds the commands that wait, first in, first out; a register's fields stand in
`flds` under `FRef.key`, as the exclusive or with the field's reset value, so that reset values are not listed. -/
structure State where
  pending : List Instr := []
  /-- register file of the 64 MiB map (R380) -/
  flds : SMap Nat := []
  /-- local time of the arbiter island in ns (R459) -/
  now : Nat := 0
  /-- the model's own field: draws taken so far from the free values of Config -/
  rng : Nat := 0
  /-- what the module has done to the outside, newest first -/
  out : List Output := []
  /-- module memory, 24 GiB, by 8-byte word address (R393) -/
  mem : SMap Nat := []
  /-- chapters 4 to 7 -/
  lanes : SMap LaneSt := []
  ports : SMap PortSt := []
  buf : SMap (Option BufPkt) := []
  nextPid : Nat := 0
  oq : SMap (List QEntry) := []
  lin : SMap (List LocalPkt) := []
  guarUsed : SMap Nat := []
  pol : SMap PolSt := []
  sched : SMap SchedSt := []
  swc : SwcSt := {}
  /-- departure notices not yet sent: (port, departure reference) (R19) -/
  departures : List (Nat × Nat) := []
  /-- strobe parts still copying, and shadow registers written since their swap (R179, R388) -/
  copying : List Nat := []
  sinceSwap : List Nat := []
  /-- newest digest entries by 256 · member + port, and each member's newest digest: local time + 1 (R366) -/
  digests : SMap DigestEnt := []
  digestAt : SMap Nat := []
  /-- packets handed to the engine complex by class, oldest first (R21) -/
  engReq : List Pkt := []
  engFwd : List Pkt := []
  engRep : List Pkt := []
  /-- packets handed to the collective complex -/
  colIn : List ColPkt := []
  /-- logical ports that have left UP and that the collective complex has not yet looked at (R343) -/
  colDown : List Nat := []
  /-- packets handed to the arbiter island with their input and the fabric ns of their stamp -/
  arbIn : List (Pkt × Nat × Nat) := []
  /-- the management port's own link: up, and in D3hot (R379) -/
  mgmtUp : Bool := true
  mgmtD3 : Bool := false
  /-- PCI Express state of the functions, 512 the management port (R202, R377), and the pending bits of MSI-X (R219): 2,048 · function
  + vector -/
  pci : SMap PciFn := [(512, { regs := [(0x0004, 0x6), (0x3000, 0x80000000), (0xF000, 1)] })]
  msgPba : SMap Nat := []
  /-- chapters 8 to 15 -/
  wqs : SMap (Option Wq) := []
  cqs : SMap (Option Ring) := []
  eqs : SMap (Option Ring) := []
  work : SMap (Option WorkEnt) := []
  nextWork : Nat := 0
  reads : List HostRead := []
  nextRead : Nat := 0
  fns : SMap FnSt := []
  jobs : SMap (Option Job) := []
  trn : TrnSt := {}
  xpt : XptSt := {}
  mtc : MtcSt := {}
  trees : SMap TreeSt := []
  regs : SMap (List Reg) := []
  cgc : CgcSt := {}
  lck : LckSt := {}
  stk : StkSt := {}
  arb : ArbSt := {}
  sec : SecSt := {}
  flt : FltSt := {}
  time : TimeSt := {}
  pmon : PmonSt := {}
  pwr : PwrSt := {}
  tap : TapSt := {}
  opening : Option Opening := none
  deriving DecidableEq, Repr

/-- The module right after a cold reset, at the release of the arbiter island: every register at its reset value,
memory and every queue empty, no command waiting. -/
def State.reset : State := {}

end Sys2Proof.Machine
end

