-- ==== Sys2Proof/Machine/Ops.lean ====
section
/-!
DEFINITION. The named operations every meaning is built from: reading and writing register fields and counters, time,
outputs, free values, isolation and port state, fault reports (R427 to R432), and management interrupts.
-/
namespace Sys2Proof.Machine

/-- What a meaning answers. -/
abbrev Out := Host.Outcome State Fault Refusal

namespace State

/-! One field of the state replaced. -/

def withPending (s : State) (v : List Instr) : State := { s with pending := v }
def withNow (s : State) (v : Nat) : State := { s with now := v }
def withFlds (s : State) (v : SMap Nat) : State := { s with flds := v }
def withRng (s : State) (v : Nat) : State := { s with rng := v }
def withOut (s : State) (v : List Output) : State := { s with out := v }
def withMem (s : State) (v : SMap Nat) : State := { s with mem := v }
def withLanes (s : State) (v : SMap LaneSt) : State := { s with lanes := v }
def withPorts (s : State) (v : SMap PortSt) : State := { s with ports := v }
def withBuf (s : State) (v : SMap (Option BufPkt)) : State := { s with buf := v }
def withNextPid (s : State) (v : Nat) : State := { s with nextPid := v }
def withOq (s : State) (v : SMap (List QEntry)) : State := { s with oq := v }
def withLin (s : State) (v : SMap (List LocalPkt)) : State := { s with lin := v }
def withGuarUsed (s : State) (v : SMap Nat) : State := { s with guarUsed := v }
def withPol (s : State) (v : SMap PolSt) : State := { s with pol := v }
def withSched (s : State) (v : SMap SchedSt) : State := { s with sched := v }
def withSwc (s : State) (v : SwcSt) : State := { s with swc := v }
def withDepartures (s : State) (v : List (Nat × Nat)) : State := { s with departures := v }
def withCopying (s : State) (v : List Nat) : State := { s with copying := v }
def withSinceSwap (s : State) (v : List Nat) : State := { s with sinceSwap := v }
def withDigests (s : State) (v : SMap DigestEnt) : State := { s with digests := v }
def withDigestAt (s : State) (v : SMap Nat) : State := { s with digestAt := v }
def withEngReq (s : State) (v : List Pkt) : State := { s with engReq := v }
def withEngFwd (s : State) (v : List Pkt) : State := { s with engFwd := v }
def withEngRep (s : State) (v : List Pkt) : State := { s with engRep := v }
def withColIn (s : State) (v : List ColPkt) : State := { s with colIn := v }
def withColDown (s : State) (v : List Nat) : State := { s with colDown := v }
def withArbIn (s : State) (v : List (Pkt × Nat × Nat)) : State := { s with arbIn := v }
def withMgmtUp (s : State) (v : Bool) : State := { s with mgmtUp := v }
def withMgmtD3 (s : State) (v : Bool) : State := { s with mgmtD3 := v }
def withPci (s : State) (v : SMap PciFn) : State := { s with pci := v }
def withMsgPba (s : State) (v : SMap Nat) : State := { s with msgPba := v }
def withWqs (s : State) (v : SMap (Option Wq)) : State := { s with wqs := v }
def withCqs (s : State) (v : SMap (Option Ring)) : State := { s with cqs := v }
def withEqs (s : State) (v : SMap (Option Ring)) : State := { s with eqs := v }
def withWork (s : State) (v : SMap (Option WorkEnt)) : State := { s with work := v }
def withNextWork (s : State) (v : Nat) : State := { s with nextWork := v }
def withReads (s : State) (v : List HostRead) : State := { s with reads := v }
def withNextRead (s : State) (v : Nat) : State := { s with nextRead := v }
def withFns (s : State) (v : SMap FnSt) : State := { s with fns := v }
def withJobs (s : State) (v : SMap (Option Job)) : State := { s with jobs := v }
def withTrn (s : State) (v : TrnSt) : State := { s with trn := v }
def withXpt (s : State) (v : XptSt) : State := { s with xpt := v }
def withMtc (s : State) (v : MtcSt) : State := { s with mtc := v }
def withTrees (s : State) (v : SMap TreeSt) : State := { s with trees := v }
def withRegs (s : State) (v : SMap (List Reg)) : State := { s with regs := v }
def withCgc (s : State) (v : CgcSt) : State := { s with cgc := v }
def withLck (s : State) (v : LckSt) : State := { s with lck := v }
def withStk (s : State) (v : StkSt) : State := { s with stk := v }
def withArb (s : State) (v : ArbSt) : State := { s with arb := v }
def withSec (s : State) (v : SecSt) : State := { s with sec := v }
def withFlt (s : State) (v : FltSt) : State := { s with flt := v }
def withTime (s : State) (v : TimeSt) : State := { s with time := v }
def withPmon (s : State) (v : PmonSt) : State := { s with pmon := v }
def withPwr (s : State) (v : PwrSt) : State := { s with pwr := v }
def withTap (s : State) (v : TapSt) : State := { s with tap := v }
def withOpening (s : State) (v : Option Opening) : State := { s with opening := v }

/-- The value of a register field. -/
def rd (s : State) (f : FRef) : Nat := (f.rst ^^^ SMap.get 0 s.flds f.key) % 2 ^ f.width

/-- Write a register field; only its `width` low bits are kept. -/
def wr (s : State) (f : FRef) (v : Nat) : State :=
  (s.withFlds (SMap.set 0 s.flds f.key (f.rst ^^^ (v % 2 ^ f.width))))

/-- A one-bit field as a Bool. -/
def rdB (s : State) (f : FRef) : Bool := s.rd f == 1

/-- Write a one-bit field. -/
def wrB (s : State) (f : FRef) (b : Bool) : State := s.wr f (b2n b)

/-- Add to a counter (R460): it only increases. -/
def bumpBy (s : State) (f : FRef) (n : Nat) : State := s.wr f (s.rd f + n)

/-- Count one event. -/
def bump (s : State) (f : FRef) : State := s.bumpBy f 1

/-- Add to counter i of function f (R460). -/
def bumpFn (s : State) (f i n : Nat) : State := s.bumpBy (R.PMON_CNT (16 * f + i)) n

/-- Add to counter i of the function, if there is one. -/
def bumpFnO (s : State) (f : Option Nat) (i n : Nat) : State := match f with | some f => s.bumpFn f i n | none => s

/-- Add to a field that saturates at its largest value. -/
def satAdd (s : State) (f : FRef) (n : Nat) : State := s.wr f (min (2 ^ f.width - 1) (s.rd f + n))

/-- Return every field of the registers in map offsets `lo` to `hi` to its reset value. -/
def resetRange (s : State) (lo hi : Nat) : State :=
  (s.withFlds (s.flds.keep (fun k => !(decide (lo ≤ k / 8) && decide (k / 8 ≤ hi)))))

/-- Record something done to the outside. -/
def emit (s : State) (o : Output) : State := s.withOut (o :: s.out)

/-- Take the next draw number of the free values. -/
def draw (s : State) : State := s.withRng (s.rng + 1)

/-- The next 32-bit random value (R167); the caller takes the draw with `draw`. -/
def rand (s : State) : Nat := (Config.rand32 s.rng).toNat

/-- Lane l. -/
def lane (s : State) (l : Nat) : LaneSt := SMap.get {} s.lanes l
def setLane (s : State) (l : Nat) (v : LaneSt) : State := s.withLanes (SMap.set {} s.lanes l v)

/-- Logical port p. -/
def port (s : State) (p : Nat) : PortSt := SMap.get {} s.ports p
def setPort (s : State) (p : Nat) (v : PortSt) : State := s.withPorts (SMap.set {} s.ports p v)
def modPort (s : State) (p : Nat) (f : PortSt → PortSt) : State := s.setPort p (f (s.port p))

/-- The packet with buffer number pid. -/
def bufPkt (s : State) (pid : Nat) : Option BufPkt := SMap.get none s.buf pid
def setBuf (s : State) (pid : Nat) (v : Option BufPkt) : State := s.withBuf (SMap.set none s.buf pid v)

/-- Output queue of output o and VL v. -/
def queue (s : State) (o v : Nat) : List QEntry := SMap.get [] s.oq (o * 16 + v)
def setQueue (s : State) (o v : Nat) (q : List QEntry) : State := s.withOq (SMap.set [] s.oq (o * 16 + v) q)

/-- Packets of local input i on VL v between build and admission. -/
def localQ (s : State) (i v : Nat) : List LocalPkt := SMap.get [] s.lin (i * 16 + v)
def setLocalQ (s : State) (i v : Nat) (q : List LocalPkt) : State := s.withLin (SMap.set [] s.lin (i * 16 + v) q)

/-! Time. -/

/-- Fabric time in ns (R451). -/
def ns (s : State) : Nat := s.time.ft / 65536

/-- Fabric time is valid (R454). -/
def timeValid (s : State) : Bool := s.rdB R.TIM_STAT_VALID

/-- The time base "Fabric" of R459: fabric time while valid, the replica of local time otherwise. -/
def winTime (s : State) : Nat := if s.timeValid then s.ns else s.now

/-- A boundary of windows of `len` ns has been crossed in the nanosecond that ends now (R457). -/
def crossed (s : State) (len : Nat) : Bool :=
  if s.timeValid then decide (s.time.ft % (65536 * len) < s.time.adv) else decide (s.now % len = 0)

/-- The window of `len` ns in progress in the time base "Fabric"; a step of fabric time or a change of the base begins another (R459). -/
def winIdx (s : State) (len : Nat) : Nat := s.time.epoch * 2 ^ 96 + s.winTime / len

/-! Mode, variant and identity. -/
def mode (s : State) : Nat := s.rd R.GLB_MODE_STAT_MODE
def isS0 (s : State) : Bool := s.rdB R.GLB_MODE_STAT_VARIANT
def moduleId (s : State) : Nat := s.rd R.GLB_INFO_MODULE_ID
/-- Recovery mode: no base mode is released (R24, R40). Boot before step 11 answers in the same way (R397). -/
def inRecovery (s : State) : Bool := s.mode == 0

/-! Islands (R10, R395): 0 running, 1 stopped, 2 parked, 3 under test. -/
def island (s : State) (k : Nat) : Nat :=
  if s.isS0 && decide (19 ≤ k) && decide (k ≤ 22) then 2 else s.rd (R.GLB_ISLAND_STAT_ISL k)
/-- Set an island's state, with the copy a lane tile shows in LT_TILE_STAT. -/
def setIsland (s : State) (k v : Nat) : State :=
  let s := s.wr (R.GLB_ISLAND_STAT_ISL k) v
  if k < 16 then s.wr (R.LT_TILE_STAT_STATE k) v else s
def running (s : State) (k : Nat) : Bool := s.island k == 0
/-- A crossing into the island refuses transfers (R14). -/
def refuses (s : State) (k : Nat) : Bool := decide (2 ≤ s.island k)

/-! Isolation (R33). -/
def isolated (s : State) (u : Nat) : Bool := bitOf (s.rd (R.GLB_ISO_MAP_ISO (u / 64))) (u % 64)
def setIsolated (s : State) (u : Nat) (b : Bool) : State :=
  s.wr (R.GLB_ISO_MAP_ISO (u / 64)) (setBits (s.rd (R.GLB_ISO_MAP_ISO (u / 64))) (u % 64) 1 (b2n b))

/-! Ports (R69, R70). -/
/-- WIDTH code of a port group: 0 unused, 1 x2 + x2, 2 x4, 3 x8. -/
def groupWidth (s : State) (g : Nat) : Nat := bitsOf (s.rd (R.LT_TILE_STAT_WIDTH (g / 8))) (2 * (g % 8)) 2
/-- Logical port p is formed (R70). -/
def formed (s : State) (p : Nat) : Bool :=
  match s.groupWidth (p / 2) with
  | 1 => true
  | 2 => p % 2 == 0
  | 3 => p % 4 == 0
  | _ => false
/-- Lanes of a logical port at its configured width. -/
def portLanes (s : State) (p : Nat) : Nat :=
  match s.groupWidth (p / 2) with
  | 1 => 2
  | 2 => 4
  | 3 => 8
  | _ => 0
/-- Module lane of port lane index i (R70). -/
def portLane (s : State) (p i : Nat) : Nat := 4 * (p / 2) + (if s.groupWidth (p / 2) == 1 then 2 * (p % 2) else 0) + i
/-- The module lanes of a logical port. -/
def lanesOf (s : State) (p : Nat) : List Nat := (List.range (s.portLanes p)).map (s.portLane p)
/-- The logical port a module lane belongs to (R70). -/
def portOfLane (s : State) (l : Nat) : Nat :=
  let g := l / 4
  match s.groupWidth g with
  | 1 => 2 * g + (l % 4) / 2
  | 3 => 4 * (g / 2)
  | _ => 2 * g
/-- Link state of a port (LNK_STAT.STATE): 0 DISABLED to 7 UP. -/
def linkState (s : State) (p : Nat) : Nat := s.rd (R.LNK_STAT_STATE (p / 2) (p % 2))
def setLinkState (s : State) (p v : Nat) : State := s.wr (R.LNK_STAT_STATE (p / 2) (p % 2)) v
/-- A port group, or the tile it lies in, is isolated (R33). -/
def groupIsolated (s : State) (g : Nat) : Bool := s.isolated (16 + g) || s.isolated (g / 8)
/-- A unit is held or fenced, a test of it running or not (R427, R441); FLT_UNIT.STATE shows a test as 2 in place of what it
interrupts. -/
def unitDown (s : State) (u : Nat) : Bool :=
  let st := s.rd (R.FLT_UNIT_STATE u)
  st == 1 || st == 3 || (st == 2 && ((SMap.get {} s.flt.classes 2).holding.contains u || s.flt.fenced.contains u))
/-- The arbiter's processor runs (R444). -/
def arbRuns (s : State) : Bool := s.rd R.FLT_ARB_STAT_STATE == 0
/-- A port group is out of service: isolated, held or fenced, or in a tile that refuses transfers (R14, R35, R439). -/
def groupDown (s : State) (g : Nat) : Bool :=
  s.groupIsolated g || s.unitDown (16 + g) || s.unitDown (g / 8) || s.refuses (g / 8)
/-- A logical port carries traffic: formed, in UP and not isolated. -/
def portUp (s : State) (p : Nat) : Bool := s.formed p && s.linkState p == 7 && !s.groupDown (p / 2)
/-- Logical ports formed, in order. -/
def formedPorts (s : State) : List Nat := (List.range 256).filter s.formed

/-! PCI Express (R202, R205, R206, R377, R378): function 512 is the management port. Resets and bit positions are those of the base
specification (log entry 93). -/

def pciFn (s : State) (f : Nat) : PciFn := SMap.get {} s.pci f
def setPci (s : State) (f : Nat) (v : PciFn) : State := s.withPci (SMap.set {} s.pci f v)
/-- A bit of a configuration word whose reset is 0, as it is in effect. -/
def cfgBit (s : State) (f key i : Nat) : Bool := bitOf (SMap.get 0 (s.pciFn f).regs key) i
/-- The function is in D3hot. -/
def inD3 (s : State) (f : Nat) : Bool := if f = 512 then s.mgmtD3 else s.cfgBit f 0x2004 0
/-- The function may issue requests: Bus Master Enable, in D0. -/
def busMaster (s : State) (f : Nat) : Bool := s.cfgBit f 0x0004 2 && !s.inD3 f
/-- Routing ID of function f: its PF's plus n (R205). -/
def routingId (s : State) (f : Nat) : Nat := 256 * (s.pciFn (f - f % 128)).bus + f % 128

/-! Messages (R219, R378). Vector n of function f is message 2,048 · f + n. -/

/-- MSI-X messages of the function are enabled. -/
def msgOn (s : State) (k : Nat) : Bool := s.cfgBit (k / 2048) 0x3000 31 && s.busMaster (k / 2048)
/-- A message is masked: the function's mask, or its entry's. -/
def msgMasked (s : State) (k : Nat) : Bool :=
  s.cfgBit (k / 2048) 0x3000 30 || (bitOf (SMap.get 0 (s.pciFn (k / 2048)).msix (4 * (k % 2048) + 3)) 0 == s.cfgBit (k / 2048) 0xF000 0)
/-- The message of an entry of the MSI-X table. -/
def msixMsg (s : State) (k : Nat) : Output :=
  let f := k / 2048
  let n := k % 2048
  let w := fun i => SMap.get 0 (s.pciFn f).msix (4 * n + i)
  let addr := w 0 + 2 ^ 32 * w 1
  if f = 512 then .mgmtVector n addr (w 2) else .fnVector f (s.routingId f) n addr (w 2)
/-- Send a message; a masked vector sets its pending bit instead (R219). -/
def sendMsg (s : State) (k : Nat) : State :=
  if !s.msgOn k then s
  else if s.msgMasked k then s.withMsgPba (SMap.set 0 s.msgPba k 1)
  else s.emit (s.msixMsg k)
/-- Send the pending messages of function f that nothing masks now. -/
def flushMsgs (s : State) (f : Nat) : State :=
  s.msgPba.foldl (fun (s : State) e =>
    if e.1 / 2048 = f ∧ s.msgOn e.1 = true ∧ s.msgMasked e.1 = false then (s.withMsgPba (SMap.set 0 s.msgPba e.1 0)).emit (s.msixMsg e.1) else s) s
/-- The MSI-X table and pending bits of function f take their reset values (R228). -/
def resetVectors (s : State) (f : Nat) : State :=
  (s.setPci f { s.pciFn f with msix := [] }).withMsgPba (SMap.keep s.msgPba (fun k => k / 2048 != f))
/-- The management port's configuration space, MSI-X table and power state take their reset values (R379); what its link has trained at
stays. -/
def resetMgmt (s : State) : State := ((s.withMgmtD3 false).setPci 512 { link := (s.pciFn 512).link }).resetVectors 512
/-- The management port's link goes down (R379). -/
def mgmtDown (s : State) : State := ((s.withMgmtUp false).setPci 512 {}).resetMgmt
/-- The management port's link comes up at the highest speed and width that both ends support (R377). -/
def mgmtTrain (s : State) (gen width : Nat) : State :=
  (s.withMgmtUp true).setPci 512 { s.pciFn 512 with link := if 3 ≤ gen ∧ 4 ≤ width then none else some (min 3 gen, min 4 width) }
/-- Send MSI-X vector n of the management port (R378). -/
def vector (s : State) (n : Nat) : State := s.sendMsg (2 ^ 20 + n)
/-- Send MSI-X vector n of function f (R219). -/
def fnVector (s : State) (f n : Nat) : State := s.sendMsg (2048 * f + n)

/-- Raise GLB_IRQ status bit n: a bit that rises while enabled sends vector 1 (R395). -/
def glbIrq (s : State) (n : Nat) : State :=
  let f := match n with | 0 => R.GLB_IRQ_STROBE_DONE | 1 => R.GLB_IRQ_ISO_DONE | _ => R.GLB_IRQ_RECONF_DONE
  let rises := s.rd f == 0
  let s := s.wr f 1
  if rises && bitOf (s.rd R.GLB_IRQ_EN) n then s.vector 1 else s

/-- Raise TIM_IRQ status bit n: a bit that rises while enabled sends vector 3 (R466). -/
def timIrq (s : State) (n : Nat) : State :=
  let f := match n with
    | 0 => R.TIM_IRQ_VALID_CHG | 1 => R.TIM_IRQ_PARENT_CHG | 2 => R.TIM_IRQ_TIME_STEP
    | 3 => R.TIM_IRQ_PPS_FAULT | _ => R.TIM_IRQ_SNAP_DONE
  let rises := s.rd f == 0
  let s := s.wr f 1
  if rises && bitOf (s.rd R.TIM_IRQ_EN) n then s.vector 3 else s

/-! Fault collector (R424 to R438). -/

def cls (s : State) (c : Nat) : ClassSt := SMap.get {} s.flt.classes c
def setCls (s : State) (c : Nat) (v : ClassSt) : State :=
  (s.withFlt { s.flt with classes := SMap.set {} s.flt.classes c v })

/-- The collector, started, shows alert (R425). -/
def alertNow (s : State) : Bool :=
  (s.rd R.FLT_STATUS_SET &&& s.rd R.FLT_POLICY1_ALERT_EN) != 0 || s.rd R.FLT_STATUS_FELL != 0 ||
    s.rdB R.FLT_STATUS_HEADLESS

/-- FLT_ALERT and FLT_ALERT_L show alert: from power-up until the collector starts, and then as FLT_STATUS.ALERT says (R425). -/
def alertPins (s : State) : Bool := !s.flt.started || s.rdB R.FLT_STATUS_ALERT

/-- FLT_STATUS.ALERT follows the collector. -/
def refreshAlert (s : State) : State := s.wrB R.FLT_STATUS_ALERT s.alertNow

end State

/-- Class of a fault code as the table of R428 gives it; none for a reserved code. PAIR_BROKEN is given as
Uncorrected-contained, which R427 turns into Fatal for a unit that cannot be held. -/
def codeClass : Nat → Option Nat
  | 0x0101 => some 2 | 0x0102 => some 2 | 0x0103 => some 0 | 0x0104 => some 1
  | 0x0201 => some 0 | 0x0202 => some 0 | 0x0203 => some 0 | 0x0204 => some 0 | 0x0205 => some 0
  | 0x0301 => some 0 | 0x0302 => some 2 | 0x0401 => some 0 | 0x0402 => some 2 | 0x0403 => some 0
  | 0x0501 => some 0 | 0x0502 => some 2 | 0x0601 => some 0 | 0x0602 => some 1
  | 0x0701 => some 0 | 0x0702 => some 1 | 0x0703 => some 3 | 0x0704 => some 0 | 0x0705 => some 0
  | 0x0706 => some 0 | 0x0707 => some 0 | 0x0708 => some 1
  | 0x0801 => some 0 | 0x0802 => some 0 | 0x0803 => some 1
  | 0x0A01 => some 0 | 0x0A02 => some 1 | 0x0A03 => some 2 | 0x0A04 => some 3
  | 0x0B01 => some 2 | 0x0B02 => some 2 | 0x0B03 => some 0 | 0x0B04 => some 0 | 0x0B05 => some 0
  | 0x0B06 => some 0 | 0x0B07 => some 0 | 0x0B08 => some 2 | 0x0B09 => some 3
  | 0x0C01 => some 0 | 0x0C02 => some 3 | 0x0C03 => some 3 | 0x0C04 => some 0
  | _ => none

/-- A unit that can be held (R427): every unit number but 678 to 681, 715 and 716. -/
def holdable (u : Nat) : Bool := decide (u ≤ 714) && !(decide (678 ≤ u) && decide (u ≤ 681))

/-- The class an error is raised with on a unit (R427). -/
def raisedClass (u code : Nat) : Nat :=
  match codeClass code with
  | some 2 => if holdable u then 2 else 3
  | some c => c
  | none => 0

/-- An error as the collector captures it (R429). -/
structure FaultIn where
  unit : Nat
  code : Nat
  cls : Nat
  access : Nat := 0
  master : Nat := 0xFFF
  addr : Nat := 0
  syndrome : Nat := 0
  injected : Bool := false
  promoted : Bool := false
  deriving DecidableEq, Repr

/-- The region of a whole unit (R437). -/
def regionOf (u : Nat) : TestRegion := .unit (BitVec.ofNat 10 u)

/-- The region of unit u as FLT_CMD and a hold test it: the lanes of a port group, else the unit; none for a unit that the
table of R437 does not list. -/
def unitRegions (u : Nat) : List TestRegion :=
  if 16 ≤ u ∧ u < 144 then (List.range 4).map (fun i => .lane (Fin.ofNat 512 (4 * (u - 16) + i)))
  else if u < 678 ∨ (682 ≤ u ∧ u ≤ 714) then [regionOf u] else []

/-- The regions whose tests an error schedules (R436, R437): the block, row or entry that its address names, else the
unit's. -/
def regionsOf (u code addr : Nat) : List TestRegion :=
  if code = 0x0601 ∨ code = 0x0602 ∨ code = 0x0701 ∨ code = 0x0702 then [.block (BitVec.ofNat 14 (addr / 256))]
  else if code = 0x0707 ∨ code = 0x0708 then [.tableEntry (BitVec.ofNat 26 addr)]
  else if code = 0x0A01 ∨ code = 0x0A02 then [.memRow (BitVec.ofNat 32 (addr / 4096))]
  else unitRegions u

/-- The regions whose tests an error schedules; one that escalation raises schedules its unit's as well (R433, R436). -/
def errRegions (e : FaultIn) : List TestRegion :=
  let l := regionsOf e.unit e.code e.addr
  if e.promoted then l ++ (unitRegions e.unit).filter (fun r => !l.contains r) else l

namespace State

/-- Word 0 of a class record (R429). -/
def recWord0 (s : State) (e : FaultIn) : Nat :=
  let flags := e.cls + 4 * b2n e.injected + 8 * b2n e.promoted + 16 * b2n (!s.timeValid)
  e.code + flags * 2 ^ 16 + e.access * 2 ^ 24 + e.unit * 2 ^ 32 + e.master * 2 ^ 48

/-- The time a record shows: fabric time, or local time while it is not valid (R429). -/
def recTime (s : State) : Nat := if s.timeValid then s.ns else s.now

/-- Counter of the errors of class c. -/
def clsCounter : Nat → FRef
  | 0 => R.FLT_CNT_CORR | 1 => R.FLT_CNT_DEFER | 2 => R.FLT_CNT_UNCORR | _ => R.FLT_CNT_FATAL

/-- Capture the first error of a class in its record (R430). -/
def capture (s : State) (e : FaultIn) : State :=
  let c := e.cls
  let s := s.wr (R.FLT_REC c 0) (s.recWord0 e)
  let s := s.wr (R.FLT_REC c 1) e.addr
  let s := s.wr (R.FLT_REC c 2) e.syndrome
  let s := s.wr (R.FLT_REC c 3) s.recTime
  let s := s.wr (R.FLT_REC c 4) (if s.timeValid then s.time.ft % 65536 else 0)
  let s := s.wr (R.FLT_REC c 5) 0
  let s := s.wr (R.FLT_REC c 6) 0
  s.wr (R.FLT_REC c 7) 0

/-- Merge a further error of the class into its record: COUNT saturates (R429, R430). -/
def merge (s : State) (c : Nat) : State :=
  let w := s.rd (R.FLT_REC c 4)
  let s := s.wr (R.FLT_REC c 4) (setBits w 32 32 (min (2 ^ 32 - 1) (bitsOf w 32 32 + 1)))
  s.wr (R.FLT_REC c 5) s.recTime

/-- An acknowledgement of class c: its clock stops and does not restart until the class is cleared (R432). -/
def stopClock (s : State) (c : Nat) : State :=
  (s.setCls c { s.cls c with clock := none, stopped := true }).wr R.FLT_STATUS_ACKED (s.rd R.FLT_STATUS_ACKED ||| 2 ^ c)

/-- Count an error in its unit's FLT_UNIT: ERRORS, LAST_CODE and, for Corrected, CORR_WIN of the current 1 s window of
local time (R434). -/
def countUnit (s : State) (e : FaultIn) : State :=
  let s := s.satAdd (R.FLT_UNIT_ERRORS e.unit) 1
  let s := s.wr (R.FLT_UNIT_LAST_CODE e.unit) e.code
  let s := s.withFlt { s.flt with lastAddr := SMap.set 0 s.flt.lastAddr e.unit e.addr }
  if e.cls = 0 then
    let w := s.now / 1000000000
    let s := if SMap.get 0 s.flt.corrIdx e.unit = w then s
      else ((s.wr (R.FLT_UNIT_CORR_WIN e.unit) 0).withFlt { s.flt with corrIdx := SMap.set 0 s.flt.corrIdx e.unit w })
    s.satAdd (R.FLT_UNIT_CORR_WIN e.unit) 1
  else s

/-- Powered time in ns (R438, R444, R447, R448). -/
def powered (s : State) : Nat := s.flt.poweredBase + s.now - s.flt.unpowered

/-- The region got a transient verdict less than 24 h of powered time ago (R438). -/
def wasTransient (s : State) (r : TestRegion) : Bool :=
  s.flt.transient.any (fun t => t.1 == r && decide (s.powered < t.2 + 86400000000000))

/-- A test of the region is pending or running. -/
def testDue (s : State) (r : TestRegion) : Bool := (s.flt.pending ++ s.flt.running).any (fun t => t.1 == r)

/-- FLT_UNIT.TEST_PENDING follows the pending tests of unit u. -/
def showPending (s : State) (u : Nat) : State := s.wrB (R.FLT_UNIT_TEST_PENDING u) (s.flt.pending.any (fun t => t.2 == u))

/-- A test of some region of unit u is pending or running. -/
def unitDue (s : State) (u : Nat) : Bool := (s.flt.pending ++ s.flt.running).any (fun t => t.2 == u)

/-- Before tests of unit u are scheduled: with none due, they begin a round, whose verdict is their own (R438). -/
def openRound (s : State) (u : Nat) : State :=
  if s.unitDue u then s else s.withFlt { s.flt with failed := s.flt.failed.filter (· != u) }

/-- Add a test to those that wait, unless one of the region is pending or running (R436). -/
def addTest (s : State) (u : Nat) (r : TestRegion) : State :=
  if s.testDue r then s else (s.withFlt { s.flt with pending := s.flt.pending ++ [(r, u)] } : State).showPending u

/-- An error of class c in a region is judged lasting without a test: a second one of class 1 or above after a transient verdict
(R438). -/
def judgedAtOnce (s : State) (c : Nat) (r : TestRegion) : Bool := decide (1 ≤ c) && !s.testDue r && s.wasTransient r

/-- Schedule the test of a region for an error of class c on unit u, unless one is pending or running, or judge it at once (R436,
R438). -/
def scheduleTest (s : State) (c u : Nat) (r : TestRegion) : State :=
  if s.judgedAtOnce c r then (s.wr (R.FLT_UNIT_VERDICT u) 2).withFlt { s.flt with failed := s.flt.failed ++ [u] }
  else s.addTest u r

/-- An error reaches the collector (R430): the first of its class is captured, sets SET and sends vector 0; a further one
merges. It counts in its unit and class counter, and schedules its test. With HANDLER bit 0 the arbiter, while it runs,
acknowledges at capture (R432). The hold of R427 is added by `reportHold`. -/
def report (s : State) (e : FaultIn) : State :=
  let first := !bitOf (s.rd R.FLT_STATUS_SET) e.cls
  let s := s.bump (clsCounter e.cls)
  let s := if e.injected then s.bump R.FLT_INJECTED else s
  let s := s.countUnit e
  let s := if first then
      let s := s.capture e
      let s := s.wr R.FLT_STATUS_SET (s.rd R.FLT_STATUS_SET ||| 2 ^ e.cls)
      let s := if e.cls = 0 then s else s.setCls e.cls { s.cls e.cls with clock := some s.now }
      let s := if bitOf (s.rd R.FLT_POLICY1_HANDLER) e.cls || s.rd R.FLT_ARB_STAT_STATE != 0 then s else s.stopClock e.cls
      s.vector 0
    else s.merge e.cls
  let k := s.cls e.cls
  let s := if k.units.contains e.unit then s else s.setCls e.cls { k with units := k.units ++ [e.unit] }
  let s := (errRegions e).foldl (fun s r => s.scheduleTest e.cls e.unit r) (s.openRound e.unit)
  s.refreshAlert

/-- A checker's error with the class its code has on the unit; `access` is 0 for an internal check and 3 for one of a packet (R429). -/
def fault (s : State) (unit code : Nat) (addr access : Nat := 0) : State :=
  s.report { unit := unit, code := code, cls := raisedClass unit code, access := access, addr := addr }

end State
end Sys2Proof.Machine
end

