-- ==== Sys2Proof/Machine/SwitchOps.lean ====
section
/-!
DEFINITION. The shared buffer's operations (chapter 6): banks and squares, depths, discards, freeing, ages, enqueueing and reads.
-/
namespace Sys2Proof.Machine.State

/-! Banks and squares (R126, R127, R146). A square is named by physical bank · 8,192 + index. -/

/-- The switch-core cycle of the local time, at 1.75 GHz. -/
def cycle (s : State) : Nat := s.now * 7 / 4

/-- The physical bank in use under number n (R126); none where a fenced bank found no spare (R146). -/
def bankAt (s : State) (n : Nat) : Option Nat :=
  match SMap.get 0 s.swc.banks n with
  | 0 => some n
  | 391 => none
  | b => some (b - 1)

/-- Physical bank b is in use. -/
def bankInUse (s : State) (b : Nat) : Bool :=
  (decide (b < 384) && SMap.get 0 s.swc.banks b == 0) || s.swc.banks.any (fun e => e.2 == b + 1)

/-- The tag of a square that is not on the free list. -/
def tagOf (s : State) (a : Nat) : Option SqTag := SMap.get none s.swc.tags a
def setTag (s : State) (a : Nat) (t : Option SqTag) : State := s.withSwc { s.swc with tags := SMap.set none s.swc.tags a t }

/-- Squares of physical bank b that are not on the free list. -/
def bankUsed (s : State) (b : Nat) : Nat := (s.swc.tags.filter (fun e => e.1 / 8192 == b)).length

/-- The square address of R126 that a square is reported by: under the number of its bank, or the one that its fenced bank had. -/
def shownAddr (s : State) (a : Nat) : Nat :=
  let b := a / 8192
  let n := if SMap.get 0 s.swc.was b != 0 then SMap.get 0 s.swc.was b - 1
    else ((List.range 384).find? (fun n => s.bankAt n == some b)).getD b
  n * 8192 + a % 8192

/-- The square that a square address of R126 names. -/
def squareAt (s : State) (addr : Nat) : Option Nat := (s.bankAt (addr / 8192)).map (fun b => b * 8192 + addr % 8192)

/-- The auditor counts a square allocated or freed during its pass as in use (R147). -/
def touchSq (s : State) (a : Nat) : State :=
  if s.swc.touched.contains a then s else s.withSwc { s.swc with touched := a :: s.swc.touched }

/-- Note a bank written in this cycle; a cycle writes at most 128 squares (R127, R128). -/
def noteWrite (s : State) (b : Nat) : State :=
  s.withSwc { s.swc with wrote := (s.cycle, if s.swc.wrote.1 = s.cycle ∧ s.swc.wrote.2.length < 128 then b :: s.swc.wrote.2 else [b]) }

/-- Two squares that one bank cannot give in one cycle (R126, R127). -/
def bankClash (a b : Nat) : Bool := a / 8192 == b / 8192 && a != b

/-- The first cycle from `c` on, of `n` more at most, in which the bank of square a gives no other square. -/
def readCycle (reads : List (Nat × Nat)) (a : Nat) : Nat → Nat → Nat
  | 0, c => c
  | n + 1, c => if reads.any (fun x => x.1 == c && bankClash a x.2) then readCycle reads a n (c + 1) else c

/-- One output reads squares one after another from cycle `c` on, each in the first cycle in which its bank is free for it. -/
def readInTurn : List Nat → Nat → List (Nat × Nat) → List (Nat × Nat)
  | [], _, reads => reads
  | a :: l, c, reads =>
    let k := readCycle reads a reads.length c
    readInTurn l (k + 1) (if reads.contains (k, a) then reads else (k, a) :: reads)

/-- The squares that an output reads take their cycles from their banks (R126, R127, log entry 83). -/
def noteReads (s : State) (l : List Nat) : State :=
  s.withSwc { s.swc with reads := readInTurn l s.cycle (s.swc.reads.filter (fun x => decide (s.cycle ≤ x.1))) }

/-- A square lies in a block whose test is due: the allocator avoids it (R437). -/
def heldBlock (s : State) (a : Nat) : Bool :=
  !(s.flt.pending.isEmpty && s.flt.running.isEmpty) && s.testDue (.block (BitVec.ofNat 14 (s.shownAddr a / 256)))

/-- Bank b has a free square outside the blocks under test. -/
def bankOpen (s : State) (b : Nat) : Bool :=
  decide ((s.swc.tags.filter (fun e => e.1 / 8192 == b && !s.heldBlock e.1)).length +
    256 * ((List.range 32).filter (fun k => s.heldBlock (8192 * b + 256 * k))).length < 8192)

/-- The banks that R127 lets the allocator write next: in use, with a free square, not written in this cycle, and not the bank of the
packet's previous square. -/
def openBanks (s : State) (prev : Option Nat) : List Nat :=
  let busy := if s.swc.wrote.1 = s.cycle ∧ s.swc.wrote.2.length < 128 then s.swc.wrote.2 else []
  (List.range 390).filter (fun b => s.bankInUse b && !busy.contains b && prev.map (· / 8192) != some b && s.bankOpen b)

/-- The free squares of a bank, outside the blocks under test. -/
def openSquares (s : State) (b : Nat) : List Nat :=
  ((List.range 8192).map (8192 * b + ·)).filter (fun a => (s.tagOf a).isNone && !s.heldBlock a)

/-- An element of a list by a choice that the spec leaves open. -/
def pick (l : List Nat) (k : Nat) : Nat := l.getD (Config.pickSquare k % l.length) 0

/-- The write allocator gives a square to a write with the given tag (R127). -/
def allocate (s : State) (prev : Option Nat) (t : SqTag) : State × Nat :=
  let b := pick (s.openBanks prev) s.swc.picks
  let a := pick (s.openSquares b) (s.swc.picks + 1)
  ((((s.withSwc { s.swc with picks := s.swc.picks + 2 } : State).noteWrite b).setTag a (some t)).touchSq a, a)

/-- Squares for the n writes of a packet, after its previous square. -/
def allocateN : Nat → State → Option Nat → SqTag → State × List Nat
  | 0, s, _, _ => (s, [])
  | n + 1, s, prev, t =>
    match s.allocate prev t with
    | (s, a) => match allocateN n s (some a) t with
      | (s, l) => (s, a :: l)

/-- depth(o, v): the squares queued for output o on VL v, less those already read (R132). -/
def depth (s : State) (o v : Nat) : Nat :=
  ((s.queue o v).map (fun e => match s.bufPkt e.pid with
    | some b => b.count - e.read
    | none => 0)).sum

/-- Q(o): the depths of all VLs of an output (R166). -/
def depthAll (s : State) (o : Nat) : Nat := ((List.range 16).map (s.depth o)).sum

/-- The age limit in ns (R139). -/
def ageLimit (s : State) : Nat := s.rd R.SWC_AGE_CFG_AGE_LIMIT * 1000000

/-- A packet's age in ns; a stamp in the future counts as age zero (R140). -/
def agePos (ns origin : Nat) : Nat := if ageOf ns origin ≥ 2 ^ 31 * 64 then 0 else ageOf ns origin

/-- Whether a packet of the four data classes. -/
def dataClass (p : Pkt) : Bool := decide (p.cls ≤ 3)

/-- The age check of R140 and R141, with its allowance of 3 % of the time since VALID fell, at a fabric and a local time: none when it passes, else the counter of the discard. -/
def ageCheckAt (s : State) (ns now : Nat) (p : Pkt) : Option FRef :=
  if s.timeValid then
    if agePos ns p.origin > s.ageLimit then some R.SWC_DISC_AGE else none
  else
    match s.time.fellAt with
    | none => if dataClass p then some R.SWC_AGE_UNCHECKED else none
    | some fell =>
      let allow := (now - fell) * 3 / 100
      if allow ≥ s.ageLimit then
        if dataClass p then some R.SWC_DISC_AGE else none
      else
        let replica := (s.time.fellFt + (now - fell) * s.time.fellAdv) / 65536
        if agePos replica p.origin > s.ageLimit - allow then some R.SWC_DISC_AGE else none

/-- The age check now. -/
def ageCheck (s : State) (p : Pkt) : Option FRef := s.ageCheckAt s.ns s.now p

/-- The residence deadline of R140 has passed. -/
def residenceOver (s : State) (b : BufPkt) : Bool := decide (s.now ≥ b.stamp + s.ageLimit)

/-- While fabric time is not valid, endpoints hold back what the age limit protects (R142). -/
def timeHeld (s : State) : Bool := !s.timeValid

/-- The output refuses entries: a fabric port not in UP, a local output whose crossing refuses transfers (R144). -/
def outputDown (s : State) (o : Nat) : Bool :=
  if o < 256 then !s.portUp o
  else if o = 256 then s.refuses 17
  else if o = 257 then s.refuses 18
  else false

/-- Remove a packet that no queue refers to and whose squares are all freed. -/
def reap (s : State) (pid : Nat) : State :=
  match s.bufPkt pid with
  | some b => if b.outs.isEmpty && decide (b.freed = b.written) && (decide (b.written = b.count) || b.cut)
      then s.setBuf pid none else s
  | none => s

/-- Take one entry of a packet out of a queue; the packet's reference count falls (R134). -/
def removeEntry (s : State) (key pid : Nat) : State :=
  let o := key / 16
  let v := key % 16
  let s := s.setQueue o v ((s.queue o v).filter (fun e => e.pid != pid))
  match s.bufPkt pid with
  | some b => (s.setBuf pid (some { b with outs := b.outs.filter (· != key) })).reap pid
  | none => s

/-- Discard a queued entry and count it (R143). -/
def discardEntry (s : State) (key pid : Nat) (counter : FRef) : State := (s.bump counter).removeEntry key pid

/-- The sampler's record of a packet that leaves, is consumed or is discarded ends here (R464); see Pmon. -/
def endTagged (s : State) (pid : Nat) (flags : Nat) : State :=
  match s.pmon.pkts.find? (fun t => t.id == pid) with
  | some t => (s.withPmon { s.pmon with
      pkts := s.pmon.pkts.filter (fun t => t.id != pid)
      ended := s.pmon.ended ++ [(1, { t with flags := t.flags ||| flags })] })
  | none => s

/-- Stamp stage `i` (0 for S1) of a tagged packet, once (R463). -/
def stampTagged (s : State) (pid i : Nat) : State :=
  (s.withPmon { s.pmon with pkts := s.pmon.pkts.map (fun t =>
      if t.id == pid && (t.stages.getD i none).isNone then { t with stages := t.stages.set i (some s.ns) } else t) })

/-- Stamp stage `i` (0 for S1) of a tagged work entry, once (R463). -/
def stampWork (s : State) (w i : Nat) : State :=
  (s.withPmon { s.pmon with works := s.pmon.works.map (fun t =>
      if t.id == w && (t.stages.getD i none).isNone then { t with stages := t.stages.set i (some s.ns) } else t) })

/-- Put a packet in the queue of one output; an entry for an output that is down is discarded on enqueue (R144). -/
def enqueueOne (s : State) (pid : Nat) (x : OutSel) : State :=
  if s.outputDown x.out then s.bump R.SWC_DISC_PORT_DOWN
  else
    let v := bitsOf x.route 28 4
    let key := 16 * x.out + v
    match s.bufPkt pid with
    | some b =>
      let s := s.setBuf pid (some { b with outs := b.outs ++ [key] })
      s.setQueue x.out v (s.queue x.out v ++ [{ pid := pid, route := x.route, read := 0, reading := false, shared := false, bank := x.bank }])
    | none => s

/-- Queue a stored packet at each of its outputs (R134). -/
def enqueue (s : State) (pid : Nat) (l : List OutSel) : State := l.foldl (fun s x => s.enqueueOne pid x) s

/-- Store a packet's descriptor under a fresh buffer number. -/
def store (s : State) (b : BufPkt) : State × Nat :=
  (((s.setBuf s.nextPid (some b)).withNextPid (s.nextPid + 1)), s.nextPid)

/-- The squares of a packet that may be freed: those its slowest remaining reader has read, all that are written when
nothing refers to it (R129, R134). -/
def freeable (s : State) (pid : Nat) (b : BufPkt) : Nat :=
  b.outs.foldl (fun m key =>
    match (s.queue (key / 16) (key % 16)).find? (fun e => e.pid == pid) with
    | some e => min m e.read
    | none => m) b.written

/-- Squares of the dynamic region that local packets hold. -/
def dynUsed (s : State) : Nat := ((List.range 7).map (fun i => s.rd (R.SWC_LOCAL_OCC_DYN_USED i))).sum

/-- Release one square to the region it was taken from (R133). With ALPHA above 0 the region may hold more squares than its size (R132):
then none of it is free until it holds fewer again. -/
def releaseRegion (s : State) (t : SqTag) : State :=
  let i := t.inp - 256
  match t.region with
  | .link => s
  | .vl0 => s.wr (R.SWC_LOCAL_OCC_VL0_USED i) (s.rd (R.SWC_LOCAL_OCC_VL0_USED i) - 1)
  | .guar =>
    let k := i * 16 + t.vl
    let s := s.withGuarUsed (SMap.set 0 s.guarUsed k (SMap.get 0 s.guarUsed k - 1))
    s.wr (R.SWC_LOCAL_OCC_GUAR_USED i) (s.rd (R.SWC_LOCAL_OCC_GUAR_USED i) - 1)
  | .dyn =>
    let excess := decide (s.rd R.SWC_BUF_STAT_DYN_SIZE < s.dynUsed)
    let s := s.wr (R.SWC_LOCAL_OCC_DYN_USED i) (s.rd (R.SWC_LOCAL_OCC_DYN_USED i) - 1)
    if excess then s else s.wr R.SWC_BUF_STAT_DYN_FREE (s.rd R.SWC_BUF_STAT_DYN_FREE + 1)

/-- Credit for one freed square of a fabric input: the receiver's counter rises when the link generation is current,
otherwise the square counts in SWC_PREV_LINK_FREED (R119, R129). -/
def returnCredit (s : State) (t : SqTag) : State :=
  let st := s.port t.inp
  if t.gen = st.gen then
    if t.shared then s.setPort t.inp { st with rxShared := (st.rxShared + 1) % 16384 }
    else
      let f := R.LNK_CRED_VL_RX_COUNT (t.inp / 2) (t.inp % 2) t.vl
      s.wr f (s.rd f + 1)
  else s.bump R.SWC_PREV_LINK_FREED

/-- A square goes back to the free list, and its tag says to whom its space or credit returns (R129, R133). -/
def freeAddr (s : State) (a : Nat) : State :=
  match s.tagOf a with
  | none => s
  | some t =>
    let s := (s.setTag a none).touchSq a
    if t.inp < 256 then s.returnCredit t else s.releaseRegion t

/-- Free the next square of a packet, if one may be freed (R129). -/
def freeSquare (s : State) (pid : Nat) : State :=
  match s.bufPkt pid with
  | none => s
  | some b =>
    if b.freed < s.freeable pid b then
      let s := s.setBuf pid (some { b with freed := b.freed + 1 })
      let s := match b.addr[b.freed]? with | some a => s.freeAddr a | none => s
      s.reap pid
    else s

/-- Discard the entries of an output whose read has not begun, as when its port leaves UP (R144). -/
def flushOutput (s : State) (o : Nat) : State :=
  (List.range 16).foldl (fun s v =>
    ((s.queue o v).filter (fun e => !e.reading)).foldl (fun s e =>
      (s.endTagged e.pid 4).discardEntry (16 * o + v) e.pid R.SWC_DISC_PORT_DOWN) s) s

/-- End the reads in progress at an output (R144): they end with the port. -/
def endReads (s : State) (o : Nat) : State :=
  (List.range 16).foldl (fun s v =>
    ((s.queue o v).filter (fun e => e.reading)).foldl (fun s e => s.removeEntry (16 * o + v) e.pid) s) s

/-- CSTAMP at the start of a read: the larger of the stored stamp and the code of the queueing delay at this output
(R68, R135). -/
def readRoute (s : State) (b : BufPkt) (route : Nat) : Nat :=
  setBits route 0 8 (max b.pkt.cstamp (cstampEncode (s.now - b.wroteAt)))

/-- The stored packet with the route word its copy carries (R135). -/
def readCopy (s : State) (b : BufPkt) (route : Nat) : Pkt := b.pkt.u 8 4 (s.readRoute b route)

/-- Hand the squares of the packet being read at a fabric output over to its lane tile: those written and not yet read,
and, when no more will be written, zero squares up to the packet's count with ABORT on the last (R121, R138); after an uncorrectable
error zero squares from it on (R145). -/
def pushTx (s : State) (p : Nat) : State :=
  let st := s.port p
  match st.curTx with
  | none => s
  | some (pid, key) =>
    match s.bufPkt pid, (s.queue (key / 16) (key % 16)).find? (fun e => e.pid == pid) with
    | some b, some e =>
      let all := b.pkt.hdr :: b.pkt.pay
      let upto := if b.cut then b.count else b.written
      let mk := fun (i : Nat) =>
        let lost := match e.bad with | some k => decide (k ≤ i) | none => false
        let q := if lost then 0 else if i = 0 then (b.pkt.u 8 4 e.route).hdr else if i < b.written then all.getD i 0 else 0
        ({ pid := pid, sq := q, hdr := i == 0, shared := e.shared, vl := key % 16, count := b.count, idx := i, last := i + 1 == b.count
           abort := (i + 1 == b.count) && (b.cut || b.aborted || e.bad.isSome), cls := st.curTc
           dep := if i + 1 == b.count then b.dep else none } : TxSq)
      let new := (List.range (upto - e.read)).map (fun j => mk (e.read + j))
      let s := s.setPort p { st with tx := st.tx ++ new, curTx := if upto = b.count then none else st.curTx }
      if upto = b.count then s.removeEntry key pid
      else s.setQueue (key / 16) (key % 16)
        ((s.queue (key / 16) (key % 16)).map (fun x => if x.pid == pid then { x with read := upto } else x))
    | _, _ => s.setPort p { st with curTx := none }

/-- The packet in progress at a fabric output goes on (R138): the squares written since take their cycles and go to the lane tile. -/
def resumeTx (s : State) (p : Nat) : State :=
  match (s.port p).curTx with
  | none => s.pushTx p
  | some (pid, key) =>
    match s.bufPkt pid, (s.queue (key / 16) (key % 16)).find? (fun e => e.pid == pid) with
    | some b, some e => (s.noteReads (b.addr.drop e.read)).pushTx p
    | _, _ => s.pushTx p

/-- The first transmission of a Request or Forward packet counts for the function that its builder acted for (R460). -/
def countTx (s : State) (pid : Nat) : State :=
  match s.bufPkt pid with
  | some b =>
    (match b.fn with
    | some f => if b.pkt.cls ≤ 1 && !b.pkt.retx then (s.bumpFn f 7 1).bumpFn f 8 (64 * b.pkt.pay.length) else s
    | none => s)
  | none => s

/-- No more squares of a stored packet will come: entries whose read has begun are completed with zero squares, the
others are discarded; the packet is counted in `counter`, unless it was discarded on arrival (R121, R138, R143). -/
def cutPacket (s : State) (pid : Nat) (counter : Option FRef) : State :=
  match s.bufPkt pid with
  | none => s
  | some b =>
    let s := match counter with | some c => if b.dead then s else s.bump c | none => s
    let s := s.setBuf pid (some { b with cut := true })
    let s := b.outs.foldl (fun s key =>
      match (s.queue (key / 16) (key % 16)).find? (fun e => e.pid == pid) with
      | some e => if e.reading then (if key / 16 < 256 then s.resumeTx (key / 16) else s) else s.removeEntry key pid
      | none => s) s
    s.reap pid

/-- An uncorrectable error found in square k of a stored packet (R145): where its read has begun and square k has not been sent, that
square and the later ones go out as zero and the last is marked ABORT; the entries whose read has not begun are discarded. -/
def loseSquare (s : State) (pid k : Nat) : State :=
  match s.bufPkt pid with
  | none => s
  | some b =>
    let waiting := b.outs.filter (fun key => !(s.queue (key / 16) (key % 16)).any (fun e => e.pid == pid && e.reading))
    let here := fun (st : PortSt) => st.tx.any (fun q => q.pid == pid && q.idx == k)
    let s := b.outs.foldl (fun s key => s.setQueue (key / 16) (key % 16)
      ((s.queue (key / 16) (key % 16)).map (fun e =>
        if e.pid == pid && e.reading && (decide (e.read ≤ k) || here (s.port (key / 16))) then { e with bad := some (min k (e.bad.getD k)) }
        else e))) s
    let s := s.withPorts (SMap.mapAll {} s.ports (fun _ st => if here st then { st with tx := st.tx.map (fun q =>
      if q.pid == pid then { q with sq := if k ≤ q.idx then 0 else q.sq, abort := q.abort || q.last } else q) } else st))
    if waiting.isEmpty then s
    else waiting.foldl (fun s key => s.removeEntry key pid) (s.bump R.SWC_DISC_ECC)

/-- The packet, and the place in it, of a square that a descriptor refers to. -/
def holderOf (s : State) (a : Nat) : Option (Nat × Nat) :=
  s.buf.findSome? (fun e => match e.2 with
    | some b => match (b.addr.drop b.freed).idxOf? a with
      | some i => some (e.1, b.freed + i)
      | none => none
    | none => none)

/-- A local output whose crossing begins to refuse transfers discards the entries queued for it (R14, R144). -/
def setIslandState (s : State) (k v : Nat) : State :=
  let s := s.setIsland k v
  if v < 2 then s else if k = 17 then s.flushOutput 256 else if k = 18 then s.flushOutput 257 else s

/-- Packets inside the crossing between the switch core and an island that is being reset are lost; the switch core counts them (R15). -/
def crossingLoss (s : State) (n : Nat) : State := s.withSwc { s.swc with crossings := SMap.set 0 s.swc.crossings 16 (SMap.get 0 s.swc.crossings 16 + n) }

end Sys2Proof.Machine.State
end

