-- ==== Sys2Proof/Machine/QuenchOps.lean ====
section
/-!
DEFINITION. Functions, quench bits, the freeze of a connection's timers by quench and invalid fabric time (R142, R189, R190), and the
choice of a pawn (R315).
-/
namespace Sys2Proof.Machine

/-- Kind of a function: 0 PF, 1 VF, 2 the management port. -/
def fnKind (f : Nat) : Nat := if f = 512 then 2 else if f % 128 = 0 then 0 else 1

/-- Bits of a configuration word that a write sets: PF, VF and management port. Word 0xF000 is the model's own: every vector that its
MSI-X table does not list is unmasked. -/
def cfgRw (kind key : Nat) : Nat :=
  if key = 0xF000 then 1
  else
  match kind with
  | 0 =>
    match key with
    | 0x0004 => 0x0146 | 0x000C => 0xFF | 0x0010 => 0xFFC00000 | 0x0014 => 0xFFFFFFFF | 0x0018 => 0xFFF00000 | 0x001C => 0xFFFFFFFF
    | 0x0020 => 0xFFFF0000 | 0x0024 => 0xFFFFFFFF | 0x003C => 0xFF
    | 0x1008 => 0x79FF | 0x1010 => 0xC0 | 0x1028 => 0x105F
    | 0x2004 => 0x3 | 0x3000 => 0xC0000000
    | 0x4008 => 0x005FF010 | 0x400C => 0x005FF010 | 0x4014 => 0xF1C1
    | 0x6008 => 0x18 | 0x6010 => 0xFFFF | 0x6020 => 0x11 | 0x6024 => 0xFFC00000 | 0x6028 => 0xFFFFFFFF | 0x602C => 0xFFF00000
    | 0x6030 => 0xFFFFFFFF | 0x6034 => 0xFFFF0000 | 0x6038 => 0xFFFFFFFF
    | 0x7004 => 0x7F0000 | 0x9004 => 0x80000000
    | _ => 0
  | 1 =>
    match key with
    | 0x0004 => 0x0004 | 0x2004 => 0x3 | 0x3000 => 0xC0000000 | 0x7004 => 0x7F0000
    | _ => 0
  | _ =>
    match key with
    | 0x0004 => 0x0146 | 0x000C => 0xFF | 0x0010 => 0xFC000000 | 0x0014 => 0xFFFFFFFF | 0x0018 => 0xFFFF0000 | 0x001C => 0xFFFFFFFF
    | 0x003C => 0xFF | 0x1008 => 0x79FF | 0x1010 => 0xC0 | 0x3000 => 0xC0000000
    | 0x4008 => 0x005FF010 | 0x400C => 0x005FF010 | 0x4014 => 0xF1C1
    | _ => 0

/-- Bits that the writing of a one clears: the error bits of Device Status, and AER status. -/
def cfgW1c (key : Nat) : Nat := match key with | 0x1008 => 0xF0000 | 0x4004 => 0x005FF010 | 0x4010 => 0xF1C1 | _ => 0

/-- Reset value of the stored bits of a word. -/
def cfgRst (kind key : Nat) : Nat :=
  if kind = 1 then 0
  else
    match key with
    | 0x1008 => 0x2810 | 0x4008 => 0x00400000 | 0x400C => 0x00462010 | 0x4014 => 0xE000
    | 0x6020 => if kind = 0 then 1 else 0 | 0x9004 => if kind = 0 then 0x80000000 else 0
    | _ => 0

/-- A write of the bits of `mask` to a word of stored configuration space. D1 and D2 are no power states. -/
def cfgPut (kind : Nat) (regs : SMap Nat) (e : Nat × Nat × Nat) : SMap Nat :=
  match e with
  | (key, mask, v) =>
    let old := SMap.get 0 regs key ^^^ cfgRst kind key
    let rw := if key = 0x2004 ∧ (v % 4 = 1 ∨ v % 4 = 2) then 0 else mask &&& cfgRw kind key
    let new := (old ^^^ (old &&& rw)) ||| (v &&& rw)
    let w1c := v &&& mask &&& cfgW1c key
    SMap.set 0 regs key ((new ^^^ (new &&& w1c)) ^^^ cfgRst kind key)

namespace State

/-! Functions. -/
def fnEnabled (s : State) (f : Nat) : Bool := s.rdB (R.HPT_FN_STAT_ENABLED (f / 128) (f % 128))
def fnTeardown (s : State) (f : Nat) : Bool := s.rdB (R.HPT_FN_STAT_TEARDOWN (f / 128) (f % 128))
def fnLive (s : State) (f : Nat) : Bool := s.fnEnabled f && !s.fnTeardown f
def fnSt (s : State) (f : Nat) : FnSt := SMap.get {} s.fns f
def setFn (s : State) (f : Nat) (v : FnSt) : State := s.withFns (SMap.set {} s.fns f v)
def isPF (f : Nat) : Bool := f % 128 == 0
def fnFa (s : State) (f : Nat) : Nat := faOfFn s.moduleId f

/-- The host's enumeration of a function, for which the table has no row: memory space, bus mastering and MSI-X enabled, every vector
unmasked (log entry 93). In a teardown it begins at its end (R229). -/
def enumerated (s : State) (f : Nat) : State :=
  let c := s.pciFn f
  let l := [(0x0004, 0xFFFFFFFF, 0x6), (0x3000, 0xFFFFFFFF, 0x80000000), (0xF000, 0xFFFFFFFF, 1)]
  if f < 512 ∧ s.fnTeardown f = true then s.setPci f { c with late := c.late ++ l }
  else s.setPci f { c with regs := l.foldl (cfgPut (fnKind f)) c.regs, msix := c.msix.filter (fun e => e.1 % 4 != 3) }

/-- Bits of Device Status that an uncorrectable error sets (R202; log entry 93): by its severity, which a VF has from its PF, Fatal or
Non-Fatal Error Detected, and Unsupported Request Detected. -/
def errDetected (s : State) (f bit : Nat) : Nat :=
  let g := if f = 512 then f else f - f % 128
  let sev := SMap.get 0 (s.pciFn g).regs 0x400C ^^^ cfgRst (fnKind g) 0x400C
  (if bitOf sev bit then 2 ^ 18 else 2 ^ 17) ||| (if bit = 20 then 2 ^ 19 else 0)
/-- Advanced Error Reporting logs an error of the function (R204): the bit of its uncorrectable status, the first error's number while
the status was clear, and the bits of Device Status. -/
def aerLog (s : State) (f bit : Nat) : State :=
  let c := s.pciFn f
  let st := SMap.get 0 c.regs 0x4004
  let regs := if st = 0 then SMap.set 0 c.regs 0x4018 bit else c.regs
  let regs := SMap.set 0 regs 0x1008 (SMap.get 0 regs 0x1008 ||| s.errDetected f bit)
  s.setPci f { c with regs := SMap.set 0 regs 0x4004 (st ||| 2 ^ bit) }
/-- A completion on host port p that answers no request (R228, R230): it is counted, and the PF logs an unexpected completion. -/
def unexpectedCpl (s : State) (p : Nat) : State := (s.bump (R.HPT_UNEXP_CPL p)).aerLog (128 * p) 16
/-- The bit of a failed read (R204); none for data. -/
def aerBit : HostAns → Option Nat
  | .ok _ => none
  | .poison => some 12
  | .timeout => some 14
  | .ca => some 15
  | .ur => some 20
/-- A read of function f answered so: AER logs an error. -/
def aerRead (s : State) (f : Nat) (a : HostAns) : State := match aerBit a with | some b => s.aerLog f b | none => s
/-- A fetch read of a ring answered so: an error counts in HPT_HOST_ERR as well (R204). -/
def ringRead (s : State) (f : Nat) (a : HostAns) : State :=
  match aerBit a with | some _ => (s.bump (R.HPT_HOST_ERR (f / 128))).aerRead f a | none => s

/-! SR-IOV (R205, R229). -/

/-- Stored configuration words as they read: those in effect, with the writes accepted during a teardown (R229). -/
def cfgRegs (s : State) (f : Nat) : SMap Nat := (s.pciFn f).late.foldl (cfgPut (fnKind f)) (s.pciFn f).regs
/-- A configuration word is written: at once, or in a teardown at its end (R229). -/
def putCfg (s : State) (f : Nat) (w : Nat × Nat × Nat) : State :=
  let c := s.pciFn f
  s.setPci f (if decide (f < 512) && s.fnTeardown f then { c with late := c.late ++ [w] } else { c with regs := cfgPut (fnKind f) c.regs w })
/-- VF Enable of a PF in effect: a teardown that resets the configuration space at its trigger ends it there. -/
def vfOn (s : State) (pf : Nat) : Bool :=
  s.rdB (R.HPT_PORT_STAT_VF_ENABLE (pf / 128)) &&
    (!s.fnTeardown pf || s.rd (R.HPT_FN_STAT_CAUSE (pf / 128) 0) == 2 || s.rd (R.HPT_FN_STAT_CAUSE (pf / 128) 0) == 6)
/-- VF Enable as it reads. -/
def vfEnable (s : State) (pf : Nat) : Bool := (s.fnSt pf).recreate.isSome || s.vfOn pf
/-- NumVFs as it reads. -/
def numVfs (s : State) (pf : Nat) : Nat :=
  match (s.fnSt pf).recreate with
  | some n => n
  | none => if s.vfOn pf then s.rd (R.HPT_PORT_STAT_NUM_VFS (pf / 128)) else SMap.get 0 (s.cfgRegs pf) 0x6010
/-- Memory Space Enable in effect: the Command register's, and for a VF its PF's VF MSE while VF Enable is set. -/
def memSpace (s : State) (f : Nat) : Bool :=
  if f % 128 = 0 then s.cfgBit f 0x0004 1
  else s.vfOn (f - f % 128) && (s.fnSt f).mse.getD (s.cfgBit (f - f % 128) 0x6008 3)

/-! Quench (R189). -/
def allQuenched (s : State) : Bool := s.rdB R.CGC_CMD_STAT_ALL_CMDR || s.rdB R.CGC_CMD_STAT_ALL_FM
def fnQuenched (s : State) (f : Nat) : Bool :=
  s.allQuenched || s.rdB (R.CGC_FN_STAT_Q_CMDR f) || s.rdB (R.CGC_FN_STAT_Q_FM f)
def jobBits (s : State) (j : Nat) : Nat := bitsOf (s.rd (R.CGC_QUENCH_JOB (j / 32))) (2 * (j % 32)) 2
def setJobBits (s : State) (j v : Nat) : State :=
  s.wr (R.CGC_QUENCH_JOB (j / 32)) (setBits (s.rd (R.CGC_QUENCH_JOB (j / 32))) (2 * (j % 32)) 2 v)
def jobQuenched (s : State) (j : Nat) : Bool := decide (j < 4096) && s.jobBits j != 0
/-- A builder acting for function f and a job context is quenched. -/
def quenched (s : State) (f j : Nat) : Bool := s.fnQuenched f || s.jobQuenched j
/-- HPT_FN_STATUS.QUENCHED of the functions follows the quench bits. -/
def showQuench (s : State) (f : Nat) : State :=
  s.wrB (R.HPT_FN_STATUS_QUENCHED (f / 128) (f % 128)) (s.fnQuenched f)


/-! The freeze of R142 and R190. -/

def conn (s : State) (cid : Nat) : Option Conn := SMap.get none s.xpt.conns cid
def setConn (s : State) (cid : Nat) (c : Option Conn) : State :=
  (s.withXpt { s.xpt with conns := SMap.set none s.xpt.conns cid c })

/-- The time that passes now does not count toward the connection's retransmission timer, RETRY and NAK_RETRY_LIMIT. -/
def frozen (s : State) (c : Conn) : Bool :=
  !s.timeValid || c.outst.any (fun o => s.fnQuenched c.fn || (match o.job with | some j => s.jobQuenched j | none => false))

/-- Begin or end the freeze of a connection; at its end the starts of its timers move by the frozen time that they counted. -/
def freezeConn (s : State) (c : Conn) : Conn :=
  match c.frozenAt, s.frozen c with
  | none, true => { c with frozenAt := some s.now }
  | some t, false =>
    let skip := fun (x : Nat) => x + (s.now - max t x)
    { c with frozenAt := none, nakSince := c.nakSince.map skip
             outst := c.outst.map (fun o => { o with last := skip o.last }) }
  | _, _ => c

/-- Follow a change of the quench bits or of the validity of fabric time on every connection. -/
def sweepFrozen (s : State) : State :=
  (s.withXpt { s.xpt with conns := s.xpt.conns.map (fun e => (e.1, e.2.map s.freezeConn)) })

/-- A connection's number in the table: local function, peer FA, CONN (R256). -/
def cidOf (f peer c : Nat) : Nat := f * 2 ^ 48 + peer * 2 ^ 16 + c

/-- QID of the admin queue in the table of work queues. -/
def adminQ : Nat := 65536

/-! Pawns (R315). -/

/-- A non-service pawn in service. -/
def pawnActive (s : State) (n : Nat) : Bool :=
  s.rd (R.MTC_PAWN_STAT_STATE n) == 1 && !s.rdB (R.MTC_PAWN_STAT_SERVICE n) && !s.rdB (R.MTC_PAWN_STAT_SPARE n)
def pawnWqs (s : State) (n : Nat) : Nat := (s.wqs.filter (fun e =>
  match e.2 with | some k => k.pawn == n && k.qid != adminQ | none => false)).length
def pawnConns (s : State) (n : Nat) : Nat := (s.xpt.conns.filter (fun e => match e.2 with | some c => c.pawn == n | none => false)).length
def pawnDoms (s : State) (n : Nat) : Nat := (s.mtc.doms.filter (fun e => match e.2 with | some d => d.home == n | none => false)).length

/-- The active pawn with the fewest of `count`, lowest number first. -/
def choosePawn (s : State) (count : Nat → Nat) : Option Nat :=
  ((List.range 104).filter s.pawnActive).foldl (fun best n =>
    match best with | none => some n | some b => if count n < count b then some n else some b) none

/-- The lowest service pawn in service: the model's choice of the pawn of a service number (log entry 15). -/
def servicePawn (s : State) : Nat :=
  ((List.range 104).find? (fun n => s.rd (R.MTC_PAWN_STAT_STATE n) == 1 && s.rdB (R.MTC_PAWN_STAT_SERVICE n))).getD 0

end State
end Sys2Proof.Machine
end

