-- ==== Sys2Proof/Machine/TimeOps.lean ====
section
/-!
DEFINITION. The time unit's shared operations (R451 to R454): validity, steps, the loss and the choice of a parent.
-/
namespace Sys2Proof.Machine.State

/-- REQ_AGE_US in ns; below 10 acts as 10 (R354). -/
def reqAge (s : State) : Nat := max 10 (s.rd R.LCK_CFG_REQ_AGE_US) * 1000

/-- The level of the PPS_OUT pin: high for 100 ms from its edge, low while PPS_OUT_EN or VALID is 0 (R456). -/
def ppsPin (s : State) : Bool :=
  s.rdB R.TIM_CFG_PPS_OUT_EN && s.timeValid && (match s.time.ppsRose with | some t => decide (s.now < t + 100000000) | none => false)

/-- The retry timers of lock requests and purges do not count the time since fabric time became invalid (R142). -/
def skipLockTime (s : State) : State :=
  let fell := s.time.fellAt.getD 0
  let skip := fun (x : Nat) => s.now - max fell x
  let s := s.withWork (SMap.mapAll none s.work (fun _ e => e.map (fun x =>
    if bitsOf x.ent.toNat 0 8 = 6 ∧ x.qid ≠ adminQ ∧ x.asked = true then { x with lastTx := x.lastTx + skip x.lastTx } else x)))
  s.withLck { s.lck with purges := s.lck.purges.map (fun q => { q with due := q.due + skip (q.due - 2 * s.reqAge) }) }

/-- Set TIM_STAT.VALID, with the event VALID_CHG and the switch core's copy; the moment it falls is kept for R141. -/
def setValid (s : State) (v : Bool) : State :=
  if s.timeValid = v then s
  else
    let s := if v then (s.skipLockTime.withTime { s.time with fellAt := none, epoch := s.time.epoch + 1 })
      else (s.withTime { s.time with ppsRose := none, fellAt := some s.now, fellFt := s.time.ft, fellAdv := s.time.adv, epoch := s.time.epoch + 1 })
    let s := s.wrB R.TIM_STAT_VALID v
    let s := s.wrB R.SWC_BUF_STAT_TIME_VALID v
    (s.sweepFrozen).timIrq 0

/-- Fabric time takes the value `ft` (units of 2⁻¹⁶ ns) by a step: while VALID is 1 it raises TIME_STEP and counts, and on
a follower VALID falls (R454), for which the island replicas run on from the time before the step (R141, R459). -/
def stepTime (s : State) (ft : Nat) : State :=
  let wasValid := s.timeValid
  let s := if wasValid && !s.rdB R.TIM_CFG_ROLE then s.setValid false else s
  let s := s.withTime { s.time with ft := ft % 2 ^ 80, epoch := s.time.epoch + 1, integ := 0, good := 0, slew := 0, adv := 65536 }
  if wasValid then (s.bump R.TIM_STEPS).timIrq 2 else s

/-- REATTACH_US in ns; a value below 50 acts as 50 (R452). -/
def reattachNs (s : State) : Nat := max 50 (s.rd R.TIM_CFG_REATTACH_US) * 1000

/-- Enter holdover: advertise 255, select no parent for REATTACH_US; with HOLDOVER_S 0 holdover is never valid (R452,
R454). The time unit keeps the servo's last rate, its integral part. -/
def enterHoldover (s : State) : State :=
  let s := s.wr R.TIM_STAT_STATE 2
  let s := s.wr R.TIM_STAT_STEPS 255
  let s := s.wr R.TIM_STAT_PARENT 0x1FF
  let s := s.wr R.TIM_STAT_HOLD_S 0
  let s := s.bump R.TIM_HOLDOVERS
  let s := s.withTime { s.time with holdAt := some s.now, reattachAt := s.now + s.reattachNs, servoAt := none }
  if s.rd R.TIM_CFG_HOLDOVER_S = 0 then s.setValid false else s

/-- The parent is lost (R452). -/
def loseParent (s : State) : State :=
  if s.rd R.TIM_STAT_PARENT = 0x1FF then s
  else ((s.enterHoldover).bump R.TIM_PARENT_CHANGES).timIrq 1

/-- MAX_STEPS; 0 acts as 32. -/
def maxSteps (s : State) : Nat := if s.rd R.TIM_CFG_MAX_STEPS = 0 then 32 else s.rd R.TIM_CFG_MAX_STEPS

/-- Own STEPS for the candidate test: 256 without a parent (R452). -/
def ownSteps (s : State) : Nat := if s.rd R.TIM_STAT_PARENT = 0x1FF then 256 else s.rd R.TIM_STAT_STEPS

/-- A port is a candidate parent (R452). -/
def parentCandidate (s : State) (p : Nat) : Bool :=
  s.portUp p && (s.port p).peerT1T2 && decide ((s.port p).peerSteps + 1 < s.ownSteps) &&
    decide ((s.port p).peerSteps + 1 ≤ s.maxSteps)

/-- `a` is preferred to `b`: fewer steps, then the lower peer IDENTITY (R452). -/
def betterParent (s : State) (a b : Nat) : Bool :=
  let sa := (s.port a).peerSteps
  let sb := (s.port b).peerSteps
  decide (sa < sb) || (sa == sb && decide (s.rd (R.LNK_PEER_ID_IDENTITY (a / 2) (a % 2)) <
    s.rd (R.LNK_PEER_ID_IDENTITY (b / 2) (b % 2))))

/-- The candidate a follower takes (R452). -/
def bestParent (s : State) : Option Nat :=
  ((List.range 256).filter s.parentCandidate).foldl (fun best p =>
    match best with
    | none => some p
    | some b => if s.betterParent p b then some p else best) none

/-- A follower without a parent, past its REATTACH_US, selects one (R452). What is left of HOLDOVER_S runs until R453 locks it to the
new parent (R454). -/
def selectParent (s : State) : State :=
  if s.rdB R.TIM_CFG_ROLE || s.rd R.TIM_STAT_PARENT != 0x1FF || decide (s.now < s.time.reattachAt) then s
  else
    match s.bestParent with
    | none => s
    | some p =>
      let s := s.wr R.TIM_STAT_PARENT p
      let s := s.wr R.TIM_STAT_STEPS ((s.port p).peerSteps + 1)
      let s := s.wr R.TIM_STAT_STATE 1
      let s := s.withTime { s.time with servoAt := none }
      let s := s.modPort p (fun st => { st with pairAt := s.now })
      (s.bump R.TIM_PARENT_CHANGES).timIrq 1

end Sys2Proof.Machine.State
end

