-- ==== Sys2Proof/Machine/LinkOps.lean ====
section
/-!
DEFINITION. The link layer's shared operations (chapter 5): the row format (R98 to R100), link reset (R121), entry into UP
(R109), and leaving for DISABLED (R503).
-/
namespace Sys2Proof.Machine

/-- The trailer's fields and the squares of a row (R98, R99). `ty`: 0 idle, 1 data, 2 control. -/
structure Row where
  squares : List Square
  seq : BitVec 12
  ackSeq : BitVec 12
  nak : Bool
  replay : Bool
  ty : BitVec 2
  nsq : BitVec 4
  hdr : BitVec 8
  shared : BitVec 8
  crVl : BitVec 4
  crPool : Bool
  crCount : BitVec 14
  tmark : Bool
  tslot : BitVec 4
  tdata : BitVec 16
  abort : Bool
  deriving DecidableEq, Repr

/-- The eight square positions of a row; unused positions are zero (R102). -/
def rowSquares (l : List Square) : Nat :=
  (List.range 8).foldl (fun a i => a * 2 ^ 512 + (l.getD i 0).toNat) 0

/-- Trailer bits [127:32] (R99). -/
def rowTrailer (r : Row) : Nat :=
  r.seq.toNat * 2 ^ 84 + r.ackSeq.toNat * 2 ^ 72 + b2n r.nak * 2 ^ 71 + b2n r.replay * 2 ^ 70 + r.ty.toNat * 2 ^ 68 +
  r.nsq.toNat * 2 ^ 64 + r.hdr.toNat * 2 ^ 56 + r.shared.toNat * 2 ^ 48 + r.crVl.toNat * 2 ^ 44 +
  b2n r.crPool * 2 ^ 43 + r.crCount.toNat * 2 ^ 29 + b2n r.tmark * 2 ^ 28 + r.tslot.toNat * 2 ^ 24 +
  r.tdata.toNat * 2 ^ 8 + b2n r.abort * 2 ^ 7

/-- Bytes 0 to 523 of a row as a number. -/
def rowBody (r : Row) : Nat := rowSquares r.squares * 2 ^ 96 + rowTrailer r

/-- The row's CRC over bytes 0 to 523 (R100). -/
def rowCrc (body : Nat) : Nat := crc32 (bytesBE body 524)

/-- A row as its 4,224 bits, byte 0 most significant (R98). -/
def rowEncode (r : Row) : BitVec 4224 := BitVec.ofNat 4224 (rowBody r * 2 ^ 32 + rowCrc (rowBody r))

/-- The row's CRC holds (R100). -/
def rowCrcOk (b : BitVec 4224) : Bool := decide (bitsOf b.toNat 0 32 = rowCrc (b.toNat / 2 ^ 32))

/-- The fields of a row (R98, R99). -/
def rowDecode (b : BitVec 4224) : Row :=
  let t := b.toNat
  let f := fun (lo w : Nat) => bitsOf t lo w
  { squares := (List.range 8).map (fun i => BitVec.ofNat 512 (f (128 + 512 * (7 - i)) 512))
    seq := BitVec.ofNat 12 (f 116 12)
    ackSeq := BitVec.ofNat 12 (f 104 12)
    nak := bitOf t 103
    replay := bitOf t 102
    ty := BitVec.ofNat 2 (f 100 2)
    nsq := BitVec.ofNat 4 (f 96 4)
    hdr := BitVec.ofNat 8 (f 88 8)
    shared := BitVec.ofNat 8 (f 80 8)
    crVl := BitVec.ofNat 4 (f 76 4)
    crPool := bitOf t 75
    crCount := BitVec.ofNat 14 (f 61 14)
    tmark := bitOf t 60
    tslot := BitVec.ofNat 4 (f 56 4)
    tdata := BitVec.ofNat 16 (f 40 16)
    abort := bitOf t 39 }

/-! The control message, square 0 of a control row (R106). -/
def cmType (q : Square) : Nat := sqGet q 0 1
def cmPortCfg (q : Square) : Nat := sqGet q 1 1
def cmIdentity (q : Square) : Nat := sqGet q 2 8
def cmLport (q : Square) : Nat := sqGet q 10 1
def cmFlags (q : Square) : Nat := sqGet q 11 1
def cmPrecode (q : Square) : Nat := sqGet q 12 1
def cmToken (q : Square) : Nat := sqGet q 13 1
def cmVlMask (q : Square) : Nat := sqGet q 14 2
def cmGrant (q : Square) : Nat := sqGet q 16 2
def cmEqReq (q : Square) (i : Nat) : Nat := sqGet q (18 + i) 1
def cmEqResp (q : Square) (i : Nat) : Nat := sqGet q (26 + i) 1

/-- The replay window of a port of `w` lanes, in rows (R110). -/
def windowRows (w : Nat) : Nat := if w = 2 then 248 else if w = 8 then 992 else 496

namespace State

/-! LNK register fields of logical port p. -/
def lnkAvail (p : Nat) : FRef := R.LNK_CRED_SHARED_AVAIL (p / 2) (p % 2)
def lnkDed (p v : Nat) : FRef := R.LNK_CRED_VL_DED_AVAIL (p / 2) (p % 2) v
def lnkPeerMask (s : State) (p : Nat) : Nat := s.rd (R.LNK_CRED_SHARED_PEER_VL_MASK (p / 2) (p % 2))
def lnkCause (p : Nat) : FRef := R.LNK_STAT_CAUSE (p / 2) (p % 2)

/-- Occupancy, oldest sequence and replay state as LNK_REPLAY_STAT shows them. -/
def syncReplay (s : State) (p : Nat) : State :=
  let st := s.port p
  let s := s.wr (R.LNK_REPLAY_STAT_OCCUPANCY (p / 2) (p % 2)) st.replay.length
  let s := s.wr (R.LNK_REPLAY_STAT_OLDEST_SEQ (p / 2) (p % 2))
    (match st.replay with | r :: _ => r.seq | [] => s.rd (R.LNK_REPLAY_STAT_NEXT_SEQ (p / 2) (p % 2)))
  s.wrB (R.LNK_REPLAY_STAT_REPLAYING (p / 2) (p % 2))
    (match st.replaying with | some (_, _, n) => n != 4096 | none => false)

/-- Zero the credits and counters of a link (R121). -/
def zeroCredits (s : State) (p : Nat) : State :=
  let s := s.wr (lnkAvail p) 0
  let s := (List.range 16).foldl (fun s v => (s.wr (lnkDed p v) 0).wr (R.LNK_CRED_VL_RX_COUNT (p / 2) (p % 2) v) 0) s
  s.modPort p (fun st => { st with reserved := [], lastCr := [], lastSent := [], rr := 0, rxShared := 0 })

/-- The ports of a port group, and of its partner when the two form an x8 port (R35). -/
def portsOfGroup (s : State) (g : Nat) : List Nat :=
  if s.groupWidth g = 3 then [4 * (g / 2)] else [2 * g, 2 * g + 1].filter s.formed

/-- Running width of a training (R108): configured, or one step below it. -/
def runningLanes (s : State) (p : Nat) : Nat := if (s.port p).degraded then s.portLanes p / 2 else s.portLanes p
def widthCode (w : Nat) : Nat := if w = 2 then 0 else if w = 4 then 1 else 2

/-! Lanes (R84 to R87). -/

def lnState (l : Nat) : FRef := R.LT_LANE_STAT_STATE (l / 32) (l % 32)
def lnLock (l : Nat) : FRef := R.LT_LANE_STAT_COMMA_LOCK (l / 32) (l % 32)

/-- Put the lanes of a port in a state: 1 training, 2 up (R84). -/
def setLanes (s : State) (p v : Nat) : State := (s.lanesOf p).foldl (fun s l => s.wr (lnState l) v) s

/-- A lane goes to reset (R84 to R86): its receiver starts over. -/
def laneToReset (s : State) (l : Nat) : State :=
  let s := s.wr (lnState l) 0
  let s := s.wr (lnLock l) 0
  let s := s.wr (R.LT_LANE_STAT_POL_INV (l / 32) (l % 32)) 0
  let s := s.wr (R.LT_RX_ADAPT_ADAPT (l / 32) (l % 32)) 0
  let st := s.lane l
  s.setLane l { st with detectAt := none, runs := 0, usable := 0, badRun := 0, word := none, skew := 0, limitFrom := none, rxY := 0 }

/-- The set in force of lane l's transmitter, as a word of LT_TX_EQ (R83). -/
def inForce (s : State) (l v : Nat) : State :=
  let t := l / 32
  let i := l % 32
  let s := (s.wr (R.LT_TX_EQ_ACT_PRE t i) v).wr (R.LT_TX_EQ_ACT_MAIN t i) (v / 2 ^ 8)
  (s.wr (R.LT_TX_EQ_ACT_POST t i) (v / 2 ^ 16)).wr (R.LT_TX_EQ_ACT_ADAPT_EN t i) (v / 2 ^ 24)

/-- The shadow bank of lane l's equalisation set as a word, and a word put there (R83). -/
def eqShadow (s : State) (l : Nat) : Nat :=
  let t := l / 32
  let i := l % 32
  s.rd (R.LT_TX_EQ_PRE t i) + s.rd (R.LT_TX_EQ_MAIN t i) * 2 ^ 8 + s.rd (R.LT_TX_EQ_POST t i) * 2 ^ 16 +
    s.rd (R.LT_TX_EQ_ADAPT_EN t i) * 2 ^ 24
def setEqShadow (s : State) (l v : Nat) : State :=
  let t := l / 32
  let i := l % 32
  let s := (s.wr (R.LT_TX_EQ_PRE t i) v).wr (R.LT_TX_EQ_MAIN t i) (v / 2 ^ 8)
  (s.wr (R.LT_TX_EQ_POST t i) (v / 2 ^ 16)).wr (R.LT_TX_EQ_ADAPT_EN t i) (v / 2 ^ 24)

/-- Show a port group's alignment (R97): an x8 port in both groups; for two x2 ports ALIGNED only when both are, and otherwise the
worse of the two. -/
def syncAlign (s : State) (g : Nat) : State :=
  let ps := s.portsOfGroup g
  let sts := ps.map s.port
  let put := fun (s : State) (g : Nat) =>
    let t := g / 8
    let k := g % 8
    let s := s.wrB (R.LT_PORT_STAT_ALIGNED t k) (sts.all PortSt.aligned && !sts.isEmpty)
    let s := s.wr (R.LT_PORT_STAT_LANE_ORDER t k) ((sts.map PortSt.order).foldl max 0)
    let s := s.wrB (R.LT_PORT_STAT_ID_MISMATCH t k) (sts.any PortSt.mismatch)
    s.wr (R.LT_PORT_STAT_SKEW t k) ((sts.map PortSt.skew).foldl max 0)
  if s.groupWidth g = 3 then put (put s (g / 2 * 2)) (g / 2 * 2 + 1) else put s g

/-- The lanes of a port are no longer aligned: what alignment measured is gone, and so is the receive stream (R87, R101). -/
def unalign (s : State) (p : Nat) : State :=
  (s.modPort p (fun st => { st with
    aligned := false, order := 0, mismatch := false, skew := 0, rxl := {}, delineated := false, badRun := 0 })).syncAlign (p / 2)

/-- The comma MODULE that the first lane of a port receives (R361): the module at the port's far end, by which it is also named as a tree's
parent (R62, R80). -/
def commaModule (s : State) (p : Nat) : Nat := s.rd (R.LT_LANE_STAT_REMOTE_MODULE (s.portLane p 0 / 32) (s.portLane p 0 % 32))

/-! The transmit stream (R72 to R80). -/

/-- What lane l's transmitter takes (R93): 4 the received levels under far-end loopback, 1 to 3 the generator's pattern, 0 the link
layer. Loopbacks and patterns act while the port group is isolated (R37). -/
def laneSource (s : State) (l : Nat) : Nat :=
  let t := l / 32
  let i := l % 32
  if !s.groupIsolated (l / 4) then 0
  else if s.rd (R.LT_LANE_CTL_LPBK t i) = 3 then 4
  else if s.rdB (R.LT_LANE_CTL_PAT_GEN t i) then s.rd (R.LT_LANE_CTL_PAT_SEL t i)
  else 0

/-- Near-end loopback: the lane's receiver takes its own transmitter's levels (R93). -/
def nearLoop (s : State) (l : Nat) : Bool :=
  s.groupIsolated (l / 4) && (s.rd (R.LT_LANE_CTL_LPBK (l / 32) (l % 32)) == 1 || s.rd (R.LT_LANE_CTL_LPBK (l / 32) (l % 32)) == 2)

/-- Levels leave lane l's transmitter; under near-end loopback its receiver has them to take as well, the newest 8,192 (R93). -/
def sendLevels (s : State) (l : Nat) (v : List Level) : State :=
  let s := s.emit (.levels l v)
  if s.nearLoop l then
    let near := (s.lane l).near ++ v
    s.setLane l { s.lane l with near := near.drop (near.length - 8192) }
  else s

/-- `n` levels of lane l's generator, which begins from a free state (R92, log entry 120). -/
def drivePattern (s : State) (l n : Nat) : State :=
  let sel := s.laneSource l
  let g := (s.lane l).gen
  match patLevels sel (if g % 2 ^ patLen sel = 0 then (Config.patSeed l).toNat else g) n with
  | (v, e) => (s.setLane l { s.lane l with gen := e }).sendLevels l v

/-- The link layer's levels on lane l: driven unless loopback or a pattern has the transmitter, which then sends as many levels of its
own (R93). -/
def drive (s : State) (l : Nat) (v : List Level) : State :=
  match s.laneSource l with
  | 0 => s.sendLevels l v
  | 4 => s
  | _ => s.drivePattern l v.length

/-- By port lane index of the running width, the module lanes that carry it: at degraded width both halves (R108). -/
def txLanes (s : State) (p : Nat) : List (List Nat) :=
  let w := s.runningLanes p
  (List.range w).map (fun j => if (s.port p).degraded then [s.portLane p j, s.portLane p (w + j)] else [s.portLane p j])

/-- A comma block on lane l, port lane index j of w (R79, R80): it announces the lane's precoding, and the level before the first one
after it is 0. -/
def sendComma (s : State) (w j l : Nat) : State :=
  let st := s.lane l
  let lv := commaLevels (commaWord
    { laneId := l, plane := j, width := widthCode w, rate := s.rd (R.LT_TILE_STAT_RATE (l / 32)), precode := st.txPrec
      mdl := s.moduleId, ccount := st.ccount })
  (s.setLane l { st with ccount := (st.ccount + 1) % 256, txY := 0, txRun := tailRun lv }).drive l lv

/-- Comma blocks on every lane of a port's stream; the peer's precode request is applied at them (R77, R79, R106), translated
through the lane order measured. -/
def sendCommas (s : State) (p : Nat) : State :=
  let st := s.port p
  let ls := st.line.lanes
  let w := ls.length
  let s := (List.range w).foldl (fun s j => (ls.getD j []).foldl (fun s l =>
    let on := match st.precodeReq with
      | some r => bitOf r (if st.order = 1 then w - 1 - j else j)
      | none => (s.lane l).txPrec
    sendComma (s.setLane l { s.lane l with txPrec := on }) w j l) s) s
  s.modPort p (fun st => { st with line := { st.line with scr := scrOnes, cw := 0 } })

/-- Symbols on lane l: Gray-mapped, precoded where it is on, runs broken, driven (R76 to R78). -/
def sendSymbols (s : State) (l : Nat) (syms : List Nat) : State :=
  let st := s.lane l
  let x := syms.flatMap symLevels
  let (y, last) := if st.txPrec then precode st.txY x else (x, st.txY)
  match breakRuns st.txRun.1 st.txRun.2 y with
  | (z, v, n) => (s.setLane l { st with txY := last, txRun := (v, n) }).drive l z

/-- The first bit of a mark row crosses the pads: the departure time of its frame (R123). -/
def noteMark (s : State) (p : Nat) : State :=
  s.modPort p (fun st =>
    if st.t1Due then { st with t1Due := false, t1Cur := some s.time.ft, marks := SMap.set 0 st.marks st.frame (s.time.ft + 1) } else st)

/-- Form a codeword of the oldest message bits and send it on the lanes (R73 to R75); the first bit of the newest row is always among
them. -/
def sendCodeword (s : State) (p : Nat) : State :=
  let s := s.noteMark p
  let ln := (s.port p).line
  match codeword ln.scr (ln.msg / 2 ^ (ln.len - cwBits)) with
  | (scr, cw) =>
    let s := s.modPort p (fun st => { st with
      line := { ln with scr := scr, cw := ln.cw + 1, msg := ln.msg % 2 ^ (ln.len - cwBits), len := ln.len - cwBits } })
    (List.range ln.lanes.length).foldl (fun s j =>
      (ln.lanes.getD j []).foldl (fun s l => s.sendSymbols l (laneSymbols ln.lanes.length j cw)) s) s

/-- A row enters the line coding of its port (R72): a stream that has not begun begins with comma blocks (R101); a codeword leaves as
soon as its message bits are there, and comma blocks follow 4,096 × 544 symbols of each lane (R79). -/
def lineTx (s : State) (p : Nat) (bits : BitVec 4224) : State :=
  let s := if (s.port p).line.live then s
    else (s.modPort p (fun st => { st with line := { live := true, lanes := s.txLanes p } })).sendCommas p
  let s := s.modPort p (fun st => { st with
    line := { st.line with msg := st.line.msg * 2 ^ 4224 + bits.toNat, len := st.line.len + 4224 } })
  if (s.port p).line.len < cwBits then s
  else
    let ln := (s.port p).line
    (if ln.cw = 4096 * ln.lanes.length then s.sendCommas p else s).sendCodeword p

/-- Send a row on port p. -/
def putRow (s : State) (p : Nat) (bits : BitVec 4224) : State := (s.emit (.row p bits)).lineTx p bits

/-- The transmit stream ends: the next row begins a new one, not precoded until the peer asks (R77, R101). -/
def endLine (s : State) (p : Nat) : State :=
  (s.lanesOf p).foldl (fun s l => s.setLane l { s.lane l with txPrec := false, txY := 0, txRun := (0, 0) })
    (s.modPort p (fun st => { st with line := {}, precodeReq := none }))

/-- The lanes of a port whose signal the running or starting width uses: half of them when degraded (R108). -/
def usedLanes (s : State) (p : Nat) : List Nat :=
  if (s.port p).degraded then
    let w := s.portLanes p / 2
    let off := if s.rdB (R.LNK_STAT_RX_HALF (p / 2) (p % 2)) then w else 0
    (List.range w).map (fun i => s.portLane p (off + i))
  else s.lanesOf p

/-! Control rows (R102, R106). -/

/-- PRECODE_REQ bits of a port, by the index of its receive lanes in use: the automatic setting is on at 224 Gb/s (R77). -/
def precodeBits (s : State) (p : Nat) : Nat :=
  (s.usedLanes p).zipIdx.foldl (fun a (x : Nat × Nat) =>
    let on := match s.rd (R.LT_LANE_CTL_PRECODE_REQ (x.1 / 32) (x.1 % 32)) with
      | 1 => false
      | 2 => true
      | _ => s.rd (R.LT_TILE_STAT_RATE (x.1 / 32)) == 3
    a + b2n on * 2 ^ x.2) 0

/-- The switch core holds no square received on the port before its last reset (R109), and none waits to enter it. -/
def noOldSquares (s : State) (p : Nat) : Bool :=
  (s.port p).rx.isEmpty && s.swc.tags.all (fun e => match e.2 with | some t => t.inp != p | none => true)

/-- READY is sent (R109): the leader when both sides report EQ_DONE and no old square is held, the follower when it also
has the leader's READY. -/
def readyNow (s : State) (p : Nat) : Bool :=
  let st := s.port p
  s.linkState p == 6 && st.eqDone && st.peerDone && s.noOldSquares p &&
    (s.rdB (R.LNK_STAT_LEADER (p / 2) (p % 2)) || st.peerReady)

/-- The control message a port sends in its state (R106). -/
def ctrlMsg (s : State) (p ctype : Nat) : Square :=
  let st := s.port p
  let cfg := s.rd (R.LT_TILE_STAT_RATE (p / 16)) + 4 * widthCode (s.portLanes p) + 16 * widthCode (s.runningLanes p)
  let flags := s.rd (R.LNK_STAT_LEADER (p / 2) (p % 2)) + 2 * b2n st.eqDone + 4 * b2n (s.readyNow p) + 8 * b2n st.degraded
  mkArea [(0, 1, ctype), (1, 1, cfg), (2, 8, s.rd R.GLB_IDENTITY_IDENTITY), (10, 1, p), (11, 1, flags),
    (12, 1, s.precodeBits p), (13, 1, st.token + 16 * st.peerToken), (14, 2, st.vlMask), (16, 2, st.grant),
    (18, 8, st.eqReq), (26, 8, st.eqResp)]

/-- A control row (R102). -/
def ctrlRow (q : Square) : Row :=
  { squares := [q], seq := 0, ackSeq := 0, nak := false, replay := false, ty := 2, nsq := 1, hdr := 0, shared := 0
    crVl := 0, crPool := false, crCount := 0, tmark := false, tslot := 0, tdata := 0, abort := false }

/-- LRESET rows go out for 1 µs where the lanes run (R104, R503). -/
def startLreset (s : State) (p : Nat) : State :=
  let runs := decide (2 ≤ s.linkState p) || (s.linkState p == 1 && decide (s.now < (s.port p).resetAt + 1000))
  if runs then s.modPort p (fun st => { st with lreset := some (s.now + 1000, s.ctrlMsg p 4) }) else s

/-- Squares of the packet a header square announces (R44, R47). -/
def announced (p : Pkt) : Nat := if p.ptype then p.nsq + 2 else 1

/-- The squares that a port has received and the switch core has not taken, without a last packet that is not whole: the link's reset
discards that one (R121), and the others stay (R144). -/
def completeRx (l : List RxSq) : List RxSq :=
  let tail := (l.reverse.takeWhile (fun q => !q.hdr)).length
  match l[l.length - tail - 1]? with
  | some h => if tail + 1 < announced { hdr := h.sq, pay := [] } then l.take (l.length - tail - 1) else l
  | none => l

/-- What every departure of a link from its state does (R121, R144): the replay buffer and credits are emptied, the
packet being received is cut, reads in progress end, queued entries are discarded, and a parent lost over this port is
lost (R452). -/
def dropLink (s : State) (p : Nat) : State :=
  let wasUp := s.linkState p == 7
  let cur := (s.port p).rxCur
  let s := s.modPort p (fun st => { st with
    replay := [], replaying := none, nakEmpty := none, nakWait := false, e := 0, lastA := 0xFFF, tx := [], curTx := none
    curTc := 5, sent := [], rx := completeRx st.rx, rxCur := none, badRun := 0, delineated := false, sawData := false
    txRow := 0, t1Cur := none, t1Due := false, marks := [], frameRx := none, lastFrame := none, frameTx := []
    peerSteps := 255, peerT1T2 := false, accepted := false
    eqDone := false, peerDone := false, peerReady := false, eqReq := 0, eqResp := 0, peerToken := 0, tokenAnswered := true })
  let s := s.zeroCredits p
  let s := s.wr (R.LNK_REPLAY_STAT_NEXT_SEQ (p / 2) (p % 2)) 0
  let s := s.wr (R.LNK_REPLAY_STAT_REPLAY_RUN (p / 2) (p % 2)) 0
  let s := s.syncReplay p
  let s := s.wr (R.LNK_STAT_WIDTH (p / 2) (p % 2)) 3
  let s := s.wrB (R.LNK_STAT_DEGRADED (p / 2) (p % 2)) false
  let s := match cur with | some c => s.cutPacket c.pid none | none => s
  let s := if wasUp then (s.endReads p).flushOutput p else s
  let s := if wasUp then (s.withColDown (s.colDown ++ [p])) else s
  let s := if (s.port p).stack then s.wr (R.STK_PORT_PEER_PEER (p / 16) (p % 16)) 15 else s
  if wasUp && s.rd R.TIM_STAT_PARENT == p then s.loseParent else s

/-- The lanes of a port go to reset and are no longer aligned (R84, R86). -/
def lanesDown (s : State) (p : Nat) : State := ((s.lanesOf p).foldl laneToReset s).unalign p

/-- Enter RESET with a cause (R104, R121); a Corrected fault is reported unless the cause is 1 or 11 (R124). -/
def linkReset (s : State) (p cause : Nat) : State :=
  let s := s.dropLink p
  let s := s.setLinkState p 1
  let s := s.wr (lnkCause p) cause
  let s := s.lanesDown p
  let s := s.modPort p (fun st => { st with resetAt := s.now })
  let s := s.bump (R.LNK_RESETS (p / 2) (p % 2))
  if cause = 1 ∨ cause = 11 then s else s.fault (16 + p / 2) 0x0201 p

/-- A reset request (R107): from UP it resets the link; from RESET to CONFIRM it is absorbed and counted; a port in
DISABLED has nothing to reset. -/
def requestReset (s : State) (p cause : Nat) : State :=
  if s.linkState p = 7 then s.linkReset p cause
  else if s.linkState p = 0 then s
  else s.bump (R.LNK_ABSORBED (p / 2) (p % 2))

/-- Enter DISABLED (R104, R503) with the cause 11 of the reset-cause table; LRESET rows go out first. -/
def linkDisable (s : State) (p : Nat) : State :=
  let s := s.startLreset p
  let s := s.dropLink p
  let s := s.setLinkState p 0
  let s := s.wr (lnkCause p) 11
  s.lanesDown p

/-- Enter UP (R109, R361): a stack port owes a HELLO; credits as granted, counters and sequences at zero, the link generation rises (R129), the VL0 shaper
is full (R151), RTT_MIN reads 2,400. -/
def enterUp (s : State) (p : Nat) : State :=
  let s := s.setLinkState p 7
  let s := s.zeroCredits p
  let s := s.wr (lnkAvail p) (s.rd (R.LNK_CRED_SHARED_GRANT (p / 2) (p % 2)))
  let s := (List.range 16).foldl (fun s v => if bitOf (s.lnkPeerMask p) v then s.wr (lnkDed p v) 65 else s) s
  let s := s.wr (R.LNK_RTT_RTT_MIN (p / 2) (p % 2)) 2400
  let s := s.wr (R.LNK_STAT_WIDTH (p / 2) (p % 2)) (widthCode (s.runningLanes p))
  let s := s.wrB (R.LNK_STAT_DEGRADED (p / 2) (p % 2)) (s.port p).degraded
  let s := s.modPort p (fun st => { st with
    gen := st.gen + 1, e := 0, nakWait := false, lastA := 0xFFF, replay := [], replaying := none, nakEmpty := none
    progressAt := s.now, advanced := true, vl0Cred := 130 * 4096, rttWin := none, rttSent := false, rttIdx := s.winIdx 1000000, sawData := false, txRow := 0 })
  let s := s.setLanes p 2
  let s := s.syncReplay p
  let s := if (s.port p).stack then (s.withStk { s.stk with helloDue := s.stk.helloDue ++ [p] }) else s
  if (s.port p).degraded then s.fault (16 + p / 2) 0x0203 p else s

end State
end Sys2Proof.Machine
end

