-- ==== Sys2Proof/Machine/MapOps.lean ====
section
/-!
DEFINITION. Accesses to the map (R380 to R385): which island a location lives in, whether an access is carried out, and
the record of one that is not; and which registers are double-banked (R155, R179, R387).
-/
namespace Sys2Proof.Machine

/-- The strobe part of a double-banked register, whether it lies in the active bank, and the offset of its counterpart in the
other bank (R387). Part 0 routing tables, 1 VL maps, 2 shapers and policers, 3 tree tables, 16 + t lane tile t, whose active bank is no register
(`LaneSt.bank`). -/
def bankOf (off : Nat) : Option (Nat × Bool × Nat) :=
  if off < 0x80100 then none
  else if off < 0x801C0 then some (0, false, off + 0x100)
  else if off < 0x80200 then none
  else if off < 0x802C0 then some (0, true, off - 0x100)
  else if off < 0x100000 then none
  else if off < 0x200000 then
    let r := off % 0x10000
    if r < 0x110 ∨ 0x1110 ≤ r then none
    else if (r - 0x110) % 0x80 / 8 = 0 then some (16 + (off - 0x100000) / 0x10000, false, off)
    else none
  else if off < 0x300000 then none
  else if off = 0x300080 then some (1, false, 0x300088)
  else if off = 0x300088 then some (1, true, 0x300080)
  else if off < 0x310000 then none
  else if off < 0x330600 then
    let r := off % 0x200
    if r < 0x30 then none
    else if r < 0x50 then some (2, false, off + 0x20)
    else if r < 0x70 then some (2, true, off - 0x20)
    else none
  else if off < 0x340000 then none
  else if off < 0x348000 then
    let r := off % 0x40
    if r < 0x18 then some (2, false, off + 0x18)
    else if r < 0x30 then some (2, true, off - 0x18)
    else none
  else if off < 0x400000 then none
  else if off = 0x400000 then some (0, false, 0x400008)
  else if off = 0x400008 then some (0, true, 0x400000)
  else if off < 0x401000 then none
  else if off < 0x402000 then (if off % 16 < 8 then some (1, false, off + 8) else some (1, true, off - 8))
  else if off < 0x410000 then none
  else if off < 0x420000 then some (0, false, off + 0x10000)
  else if off < 0x430000 then some (0, true, off - 0x10000)
  else if off < 0x440000 then none
  else if off < 0x480000 then some (3, false, off + 0x40000)
  else if off < 0x4C0000 then some (3, true, off - 0x40000)
  else if off < 0x500000 then none
  else if off < 0x600000 then some (0, false, off + 0x100000)
  else if off < 0x700000 then some (0, true, off - 0x100000)
  else if off < 0xD10000 then none
  else if off < 0xD20000 then some (3, false, off + 0x10000)
  else if off < 0xD30000 then some (3, true, off - 0x10000)
  else none

namespace State

/-- Offset of the register that a key of the register file lies in. -/
def keyOff (k : Nat) : Nat := k / 64 * 8

/-- A double-banked register at `off` takes part in strobes and copies in this mode: STK_ROW only in Stack mode (R387). -/
def strobes (s : State) (off : Nat) : Bool := decide (0x100000 ≤ off) || s.mode == 4

/-- Exchange the banks of the parts (R179): each field's content goes to its counterpart. -/
def swapBanks (s : State) (parts : List Nat) : State :=
  let dest := fun (k : Nat) => match bankOf (keyOff k) with
    | some (part, _, off) => if parts.contains part && s.strobes off then some (8 * off + k % 64) else none
    | none => none
  let kept := s.flds.keep (fun k => (dest k).isNone)
  (s.withFlds (s.flds.foldl (fun m e => match dest e.1 with | some k => SMap.set 0 m k e.2 | none => m) kept))

/-- Record an access that is not carried out (R382, R395) and its reason. -/
def recordAcc (s : State) (reason : Nat) (write : Bool) (m off : Nat) : State :=
  let s := s.wr R.GLB_ACC_STAT_REASON reason
  let s := s.wrB R.GLB_ACC_STAT_WRITE write
  let s := s.wr R.GLB_ACC_STAT_MASTER m
  s.wr R.GLB_ACC_ADDR_OFFSET off

/-- The island a map location's state lives in (R380). PMON is kept by the arbiter island here; an entry whose counter
lives in a parked island is handled by `pmonIsland`. -/
def blockIsland (off : Nat) : Nat :=
  if off < 0x20000 then 24
  else if off < 0x30000 then 25
  else if off < 0x100000 then 24
  else if off < 0x200000 then (off - 0x100000) / 0x10000
  else if off < 0x280000 then (off - 0x200000) / 0x8000
  else if off < 0x300000 then 24
  else if off < 0x900000 then 16
  else if off < 0xA00000 then (if (off - 0x900000) / 0x40000 < 4 then 19 + (off - 0x900000) / 0x40000 else 24)
  else if off < 0xD00000 then 17
  else if off < 0xE00000 then 18
  else if off < 0xF00000 then 24
  else if off < 0x1000000 then 24
  else 23

/-- The blocks that answer in Recovery mode: GLB, SEC, PWR, FLT and TIM (R382). -/
def answersInRecovery (off : Nat) : Bool := decide (off < 0x80000)

/-- The FLT registers that stay reachable while the arbiter's processor is lost or restarting (R445): FLT_STATUS, FLT_ACK,
FLT_CLOCK, FLT_REC, FLT_UNIT, FLT_ARB_CTL and FLT_ARB_STAT. -/
def reachableHeadless (off : Nat) : Bool :=
  let o := off / 8 * 8
  o == 0x30000 || o == 0x30008 || o == 0x30010 || o == 0x30048 || o == 0x30050 ||
    (decide (0x30100 ≤ o) && decide (o < 0x30200)) || (decide (0x31000 ≤ o) && decide (o < 0x33000))

/-- Something holds the port in DISABLED (R104), a requested reset among it (R433); the external ports of a stack member that is not
yet in PRESENT are held (R375). -/
def heldDisabled (s : State) (p : Nat) : Bool :=
  !s.formed p || s.rdB (R.LNK_CTL_DISABLE (p / 2) (p % 2)) || s.groupDown (p / 2) || s.island (p / 16) != 0 ||
    (s.port p).stopped || s.rdB R.FLT_STATUS_RESET_REQ || (s.mode == 4 && !(s.port p).stack && !bitOf (s.rd R.STK_STAT_PRESENT) (s.rd R.STK_CFG_MEMBER))

/-- A port leaves DISABLED for RESET when its condition has ended, and its transmit stream begins anew (R101, R104). -/
def leaveDisabled (s : State) (p : Nat) : State :=
  if s.linkState p = 0 && !s.heldDisabled p then
    let s := s.setLinkState p 1
    s.modPort p (fun st => { st with resetAt := s.now, line := {}, lreset := none })
  else s

/-- Wake a stopped island (R13); the ports of a lane tile that nothing else holds train again (R95). -/
def wake (s : State) (k : Nat) : State :=
  if s.island k = 1 then
    let s := s.setIsland k 0
    if k < 16 then (List.range 16).foldl (fun (s : State) i => s.leaveDisabled (16 * k + i)) s else s
  else s

/-- An access by master `m` arrives: the module is powered, and for the commander the management port's link is up and not in
D3hot (R379). -/
def arrives (s : State) (m : Nat) : Bool := !(m == 1 && (s.mgmtD3 || !s.mgmtUp)) && s.pwr.state == .on

/-- An access of the commander meets the port in D3hot (R379): Unsupported Request, which a read's completion carries. -/
def mgmtRefuse (s : State) (m : Nat) (write : Bool) (off : Nat) : State :=
  if m = 1 ∧ s.mgmtD3 = true ∧ s.mgmtUp = true ∧ s.pwr.state = .on then
    (if write then s else s.emit (.unsupported 512 off)).aerLog 512 20
  else s

/-- Refuse an access (R382): it is counted, and recorded with reason 2. -/
def refuseAcc (s : State) (write : Bool) (m off : Nat) : State := (s.bump R.GLB_ACC_REFUSED).recordAcc 2 write m off

/-- An access by master `m` at map offset `off` reaches its island (R382): a stopped island is woken; a parked island, one
under test, a block that does not answer in Recovery mode, and anything but the FLT registers of R445 while the
arbiter's processor is not running refuse, which is counted and recorded with reason 2. -/
def gate (s : State) (m : Nat) (write : Bool) (off : Nat) : State × Bool :=
  let k := blockIsland off
  if !s.arrives m then (if write then s.mgmtRefuse m write off else s, false)
  else if (s.rd R.FLT_ARB_STAT_STATE != 0 && !reachableHeadless off) || s.refuses k ||
      (s.inRecovery && !answersInRecovery off) then (s.refuseAcc write m off, false)
  else (s.wake k, true)

/-- Do `f` when the access reaches its island. -/
def gated (s : State) (m : Master) (off : Nat) (f : State → State) : State :=
  match s.gate m.id true off with
  | (s, true) => f s
  | (s, false) => s

/-- Note a write to a shadow register while its part is copying, so that the copy keeps it (R179). -/
def noteShadow (s : State) (off : Nat) : State :=
  if s.copying.isEmpty || s.sinceSwap.contains off then s else (s.withSinceSwap (off :: s.sinceSwap))

end State

/-- The new value of a 64-bit register when a write covers the part `h` of it (R381). -/
def mergeHalf (h : Half) (old new : Nat) : Nat :=
  match h with
  | .full => new
  | .low => setBits old 0 32 new
  | .high => setBits old 32 32 (new / 2 ^ 32)

/-- A write of part `h` covers bits [31:0], where every command field lies (R381). -/
def coversLow (h : Half) : Bool := h != .high

end Sys2Proof.Machine
end

