-- ==== Sys2Proof/Machine/LaneTile.lean ====
section
/-!
DEFINITION. Lane tiles and lanes (chapter 4): signal, comma blocks and alignment, decoding and health, transmit
equalisation, patterns and scans.
-/
namespace Sys2Proof.Machine

namespace State

/-- A lane is unhealthy (R89). -/
def unhealthy (s : State) (l : Nat) : Bool := bitOf (s.rd (R.LT_HEALTH_UNHEALTHY (l / 32))) (l % 32)
def setUnhealthy (s : State) (l : Nat) : State :=
  s.wr (R.LT_HEALTH_UNHEALTHY (l / 32)) (s.rd (R.LT_HEALTH_UNHEALTHY (l / 32)) ||| 2 ^ (l % 32))

/-- A lane loses its signal or its comma lock: it goes to reset, and when it is in use the port's lanes are no longer aligned and the
link is asked to reset with cause 3 (R84, R85, R104, R108). -/
def laneLost (s : State) (l : Nat) : State :=
  let p := s.portOfLane l
  let s := s.laneToReset l
  if s.formed p && (s.usedLanes p).contains l then (s.unalign p).requestReset p 3 else s

/-- 80 ns of skew in UI at a rate code (R71, R87). -/
def skewLimit (rate : Nat) : Nat := 80 * (if rate = 1 then 28 else if rate = 2 then 56 else 112)

/-- The alignment check of R87 over some lanes: none while a lane has no usable word, else lane order code (0, 1 or 2),
ID mismatch, and skew. -/
def alignCheck (s : State) (p : Nat) (lanes : List Nat) : Option (Nat × Bool × Nat) :=
  let ws := lanes.map (fun l => (s.lane l).word)
  if lanes.isEmpty || ws.any Option.isNone || lanes.any (fun l => s.rd (lnLock l) = 0) then none
  else
    let cs := ws.filterMap id
    let rate := s.rd (R.LT_TILE_STAT_RATE (p / 16))
    let m0 := (cs.headD { laneId := 0, plane := 0, width := 0, rate := 0, precode := false, mdl := 0, ccount := 0 }).mdl
    let mismatch := cs.any (fun c => c.mdl != m0 || c.width != widthCode lanes.length || c.rate != rate)
    let planes := cs.map CommaWord.plane
    let straight := decide (planes = List.range lanes.length)
    let reversed := decide (planes = (List.range lanes.length).reverse)
    let sk := lanes.map (fun l => (s.lane l).skew)
    let skew := sk.foldl max 0 - sk.foldl min (sk.headD 0)
    let order := if decide (skew > skewLimit rate) then 2 else if straight then 0 else if reversed then 1 else 2
    some (order, mismatch, skew)

/-- The alignment check over the lanes that a training uses, and the half they are: the lower half of a degraded receiver when every
lane there is healthy and passes, otherwise the upper half; a half that passes with an unhealthy lane does not qualify when it is the
lower one. From CONFIG on an aligned half stays (R87, R108). -/
def alignFound (s : State) (p : Nat) : Option (Nat × Bool × Nat) × Nat :=
  if (s.port p).degraded then
    let w := s.portLanes p / 2
    let half := fun (h : Nat) => (List.range w).map (fun i => s.portLane p (h * w + i))
    let passes := fun (r : Option (Nat × Bool × Nat)) => match r with | some (o, m, _) => decide (o < 2) && !m | none => false
    let low := s.alignCheck p (half 0)
    let up := s.alignCheck p (half 1)
    if 4 ≤ s.linkState p ∧ (s.port p).aligned = true then
      let h := s.rd (R.LNK_STAT_RX_HALF (p / 2) (p % 2))
      (if h = 0 then low else up, h)
    else if passes low && (half 0).all (fun l => !s.unhealthy l) then (low, 0)
    else if passes up || low.isNone || passes low then (up, 1)
    else (low, 0)
  else (s.alignCheck p (s.lanesOf p), s.rd (R.LNK_STAT_RX_HALF (p / 2) (p % 2)))

/-- Check the alignment of a port in training (R87). DESIGN CHOICE (log entry 103): a held misalignment counts one alignment error, when it
begins. -/
def portAlign (s : State) (p : Nat) : State :=
  match s.alignFound p with
  | (none, _) => s
  | (some (order, mismatch, skew), half) =>
    let st := s.port p
    let ok := decide (order < 2) && !mismatch
    let held := decide (2 ≤ st.order) || st.mismatch
    let s := s.wr (R.LNK_STAT_RX_HALF (p / 2) (p % 2)) half
    let s := s.modPort p (fun st => { st with aligned := ok, order := order, mismatch := mismatch, skew := skew })
    let s := if ok || held then s else s.bump (R.LT_ALIGN_ERR (p / 16) (p / 2 % 8))
    s.syncAlign (p / 2)

/-- HEALTH_EXP: 8 to 24, other values act as 24. -/
def healthExp (s : State) (t : Nat) : Nat :=
  let e := s.rd (R.LT_HEALTH_CFG_HEALTH_EXP t)
  if 8 ≤ e ∧ e ≤ 24 then e else 24

/-- The receiver of lane l begins to adapt (R85, R91); a lane of a port in training is in training. -/
def adaptLane (s : State) (l : Nat) : State :=
  let s := s.wr (R.LT_RX_ADAPT_ADAPT (l / 32) (l % 32)) 1
  let st := s.linkState (s.portOfLane l)
  let s := if 2 ≤ st ∧ st ≤ 6 then s.wr (lnState l) 1 else s
  s.setLane l { s.lane l with detectAt := some s.now, runs := 0, usable := 0 }

/-- Lane l takes comma lock (R85). -/
def takeLock (s : State) (l : Nat) : State :=
  let st := s.linkState (s.portOfLane l)
  (if 2 ≤ st ∧ st ≤ 6 then s.wr (lnState l) 1 else s).wr (lnLock l) 1

/-- A port in training goes to degraded width (R108): its transmit stream begins anew at that width, and its lanes are aligned anew. -/
def degrade (s : State) (p : Nat) : State := ((s.modPort p (fun st => { st with degraded := true })).endLine p).unalign p

end State

open State

/-- LOSS_OF_SIGNAL (R84). -/
def execLossOfSignal (l : Fin 512) (s : State) : Out :=
  .next ((s.wr (R.LT_LANE_STAT_LOS (l / 32) (l % 32)) 1).laneLost l)

/-- SIGNAL_DETECT (R84, R85): the receiver begins to adapt. -/
def execSignalDetect (l : Fin 512) (s : State) : Out :=
  .next ((s.wr (R.LT_LANE_STAT_LOS (l / 32) (l % 32)) 0).adaptLane l)

namespace State

/-- The 1 ms windows of a lane that have ended are judged: it becomes unhealthy when its adaptation read AT_LIMIT for a whole window, and
keeps what its corrected symbols gave (R89). -/
def judgeWindow (s : State) (l : Nat) : State :=
  let st := s.lane l
  let win := s.winIdx 1000000
  if win = st.symIdx then s
  else
    let whole := match st.limitFrom with
      | some k => decide (k ≤ st.symIdx) || (k / 2 ^ 96 == win / 2 ^ 96 && decide (k < win))
      | none => false
    let s := s.setLane l { st with
      symWin := 0, symIdx := win
      limitFrom := st.limitFrom.map (fun k => if k / 2 ^ 96 == win / 2 ^ 96 then k else win) }
    if whole then s.setUnhealthy l else s

end State

/-- The first 1 ms window that lies whole after now: the one that begins at this instant, or the next. -/
def State.firstWhole (s : State) : Nat := if s.winTime % 1000000 = 0 then s.winIdx 1000000 else s.winIdx 1000000 + 1

/-- RX_ADAPT_CONVERGED (R91): the values LT_RX_ADAPT reports. -/
def execRxAdaptConverged (l : Fin 512) (atLimit : Bool) (ctle : BitVec 5) (snr : BitVec 8) (eye : BitVec 7)
    (s : State) : Out :=
  let t := l / 32
  let i := l % 32
  let s := s.judgeWindow l
  let s := s.wr (R.LT_RX_ADAPT_ADAPT t i) (if atLimit then 3 else 2)
  let s := s.wr (R.LT_RX_ADAPT_CTLE t i) ctle.toNat
  let s := s.wr (R.LT_RX_ADAPT_SNR t i) snr.toNat
  let s := s.wr (R.LT_RX_ADAPT_EYE_MIN t i) eye.toNat
  let st := s.lane l
  .next (s.setLane l { st with limitFrom := if atLimit then some (st.limitFrom.getD s.firstWhole) else none })

/-- A comma block's fields are used, or the block counts as a comma error and, as the fourth in a row, makes its lane
unhealthy (R80, R85, R89). -/
def commaFieldsRx (s : State) (l : Nat) (w : Option CommaWord) : State :=
  let t := l / 32
  let i := l % 32
  match w with
  | some c =>
    let s := s.wr (R.LT_LANE_STAT_REMOTE_LANE t i) c.laneId
    let s := s.wr (R.LT_LANE_STAT_REMOTE_PLANE t i) c.plane
    let s := s.wr (R.LT_LANE_STAT_REMOTE_MODULE t i) c.mdl
    let s := s.wrB (R.LT_LANE_STAT_PRECODE_ON t i) c.precode
    let st := s.lane l
    s.setLane l { st with word := some c, usable := st.usable + 1, badRun := 0 }
  | none =>
    let st := s.lane l
    let s := s.bump (R.LT_COMMA_ERR t (i / 4))
    let s := s.setLane l { st with badRun := st.badRun + 1 }
    if st.badRun + 1 ≥ 4 then s.setUnhealthy l else s

namespace State

/-- A comma block bounds the decoding of its port (R73, R77, R101): the descrambler starts over, and on a port already aligned the row
stream begins at the first one. -/
def commaBoundary (s : State) (p : Nat) : State :=
  s.modPort p (fun st => { st with rxl := { st.rxl with scr := scrOnes, live := st.rxl.live || st.aligned } })

/-- Comma words of the degraded width switch a port in training that may degrade to it (R108). -/
def widthSwitch (s : State) (p : Nat) (w : Option CommaWord) : State :=
  match w with
  | some c =>
    if s.rdB (R.LNK_CTL_DEGRADE_EN (p / 2) (p % 2)) && decide (2 < s.portLanes p) && !(s.port p).degraded &&
        c.width == widthCode (s.portLanes p / 2) && decide (2 ≤ s.linkState p) && decide (s.linkState p ≤ 6) then s.degrade p
    else s
  | none => s

/-- A port in training looks at its lanes after a comma block (R87, R104, R108): it is aligned, and leaves DETECT for ALIGN when every
lane in use has comma lock. -/
def trainLanes (s : State) (p : Nat) : State :=
  if !s.formed p || decide (s.linkState p < 2) || s.linkState p == 7 then s
  else
    let s := s.portAlign p
    if s.linkState p == 2 && (s.usedLanes p).all (fun l => s.rdB (lnLock l)) then s.setLinkState p 3 else s

/-- Received levels of lane l leave on its transmitter under far-end loopback, after polarity correction (R93). -/
def loopBack (s : State) (l : Nat) (v : List Level) : State := if s.laneSource l = 4 then s.emit (.levels l v) else s

/-- What lane l's receiver takes of `n` levels: under near-end loopback its own transmitter's, none when it has sent too few (R93). -/
def takeNear (s : State) (l n : Nat) : State × Option (List Level) :=
  let near := (s.lane l).near
  if near.length < n then (s, none) else (s.setLane l { s.lane l with near := near.drop n }, some (near.take n))

end State

namespace State

/-- 400 levels arrive at lane l's receiver (R79, R80, R85, R86, R93). -/
def blockRx (s : State) (l : Nat) (spaced : Bool) (lv : BitVec 800) (skew : Nat) : State :=
  match commaRun lv with
  | none => s.loopBack l ((List.range 400).map (blockLevel lv (s.rdB (R.LT_LANE_STAT_POL_INV (l / 32) (l % 32)))))
  | some inv =>
    let p := s.portOfLane l
    let locked := s.rdB (lnLock l)
    let s := if locked then s else s.wrB (R.LT_LANE_STAT_POL_INV (l / 32) (l % 32)) inv
    let pol := s.rdB (R.LT_LANE_STAT_POL_INV (l / 32) (l % 32))
    let st := s.lane l
    let s := s.setLane l { st with
      runs := if spaced then st.runs + 1 else 1
      usable := if spaced then st.usable else 0
      skew := skew, rxY := 0 }
    let s := commaFieldsRx s l (commaUsable (commaCopy lv pol 0) (commaCopy lv pol 1))
    let st := s.lane l
    let s := if st.runs ≥ 3 ∧ st.usable ≥ 2 then s.takeLock l else s
    let s := s.loopBack l ((List.range 400).map (blockLevel lv pol))
    let s := if s.formed p then (s.commaBoundary p).widthSwitch p (s.lane l).word else s
    s.trainLanes p

end State

/-- COMMA_BLOCK_RX (R80, R85 to R87): 400 received levels, at the exact spacing from the last comma run or not. The run, upright or
inverted, counts; the third at the exact spacing takes comma lock. DESIGN CHOICE (log entry 103): the two usable blocks are counted over the
whole series of exact spacings. Levels without a comma run are no comma block; far-end loopback sends them back all the same. A lane without a
signal receives nothing; under near-end loopback it receives what its own transmitter sent (R93). -/
def execCommaBlockRx (l : Fin 512) (spaced : Bool) (lv : BitVec 800) (skew : BitVec 16) (s : State) : Out :=
  if s.nearLoop l then
    match s.takeNear l 400 with
    | (s, some v) => .next (s.blockRx l spaced (blockOf v) skew.toNat)
    | (s, none) => .next s
  else if s.rd (R.LT_LANE_STAT_LOS (l / 32) (l % 32)) = 1 then .next s
  else .next (s.blockRx l spaced lv skew.toNat)

/-- COMMA_LOCK_LOST (R85). -/
def execCommaLockLost (l : Fin 512) (s : State) : Out := .next (s.laneLost l)

namespace State

/-- Symbols on `w` lanes in local port lane order, read in the sender's order (R87). -/
def inOrder {α : Type} (order : Nat) (x : List α) : List α := if order = 1 then x.reverse else x

/-- Levels of lane l after polarity correction (R86). -/
def upright (s : State) (l : Nat) (v : List Level) : List Level :=
  if s.rdB (R.LT_LANE_STAT_POL_INV (l / 32) (l % 32)) then v.map invertLevel else v

/-- The symbols that levels of lane l carry, after precoding is undone (R76, R77). -/
def laneRx (s : State) (l : Nat) (v : List Level) : State × List Nat :=
  let v := s.upright l v
  let st := s.lane l
  let (x, y) := if s.rdB (R.LT_LANE_STAT_PRECODE_ON (l / 32) (l % 32)) then unprecode st.rxY v else (v, st.rxY)
  (s.setLane l { st with rxY := y }, symsOf (x.length / 5) x)

/-- One corrected symbol is counted against lane l and its 1 ms window, which makes the lane unhealthy when it reaches 2^HEALTH_EXP
(R88, R89). -/
def countSymbol (s : State) (l : Nat) : State :=
  let s := s.judgeWindow l
  let s := s.bump (R.LT_LANE_SYM (l / 32) (l % 32))
  let n := (s.lane l).symWin + 1
  let s := s.setLane l { s.lane l with symWin := n }
  if n ≥ 2 ^ s.healthExp (l / 32) then s.setUnhealthy l else s

/-- The message bits of a codeword, descrambled, join the port's row stream, marked when the codeword is uncorrectable (R73, R88). -/
def streamBits (s : State) (p : Nat) (word : List Nat) (marked : Bool) : State :=
  s.modPort p (fun st =>
    let r := st.rxl
    if !r.live then st
    else
      match scramble cwBits r.scr (ofSymbols (word.take 514)) with
      | (e, v) => { st with rxl := { r with
          scr := e, msg := r.msg * 2 ^ cwBits + v, len := r.len + cwBits
          bad := r.bad * 2 ^ cwBits + (if marked then 2 ^ cwBits - 1 else 0)
          times := r.times ++ [(cwBits, s.time.ft)] } })

/-- A received codeword on `lanes`, in local port lane order (R72 in reverse, R88). -/
def decodeWord (s : State) (p : Nat) (lanes : List Nat) (lv : BitVec 5440) : State :=
  let w := lanes.length
  let (s, syms) := (List.range w).foldl (fun (acc : State × List (List Nat)) j =>
    match acc.1.laneRx (lanes.getD j 0) (cwLevels lv w j) with
    | (s, x) => (s, acc.2 ++ [x])) (s, [])
  let word := gatherLanes w (inOrder (s.port p).order syms)
  let t := p / 16
  let k := p / 2 % 8
  match rsDecode word with
  | none => (s.bump (R.LT_FEC_UNCORR t k)).streamBits p word true
  | some (fixed, pos) =>
    let s := if pos.isEmpty then s else (s.bump (R.LT_FEC_CORR t k)).bumpBy (R.LT_FEC_SYM t k) pos.length
    let s := pos.foldl (fun s i => s.countSymbol ((inOrder (s.port p).order lanes).getD (i % w) 0)) s
    s.streamBits p fixed false

end State

namespace State

/-- What a port's lanes in use receive in a codeword time: `lv`, but on a lane under near-end loopback what its own transmitter sent, as
far as it sent enough (R93). -/
def nearWord (s : State) (lanes : List Nat) (lv : BitVec 5440) : State × BitVec 5440 :=
  if lanes.any s.nearLoop then
    let w := lanes.length
    match (List.range w).foldl (fun (acc : State × List (List Level)) j =>
        let l := lanes.getD j 0
        if acc.1.nearLoop l then
          match acc.1.takeNear l (2720 / w) with
          | (s, v) => (s, acc.2 ++ [v.getD (List.replicate (2720 / w) 0)])
        else (acc.1, acc.2 ++ [cwLevels lv w j])) (s, []) with
    | (s, x) => (s, cwJoin x)
  else (s, lv)

end State

/-- CODEWORD_RX (R74, R88, R93): the levels of one codeword on the lanes in use of a port, lane by lane. They go back under far-end
loopback, and an aligned port decodes them. -/
def execCodewordRx (p : Fin 256) (lv : BitVec 5440) (s : State) : Out :=
  let lanes := s.usedLanes p
  let w := lanes.length
  match s.nearWord lanes lv with
  | (s, lv) =>
  let s := (List.range w).foldl (fun s j => loopBack s (lanes.getD j 0) (s.upright (lanes.getD j 0) (cwLevels lv w j))) s
  .next (if s.formed p && (s.port p).aligned then s.decodeWord p lanes lv else s)

/-- HEALTH_WINDOW_END (R89). -/
def execHealthWindowEnd (l : Fin 512) (s : State) : Out := .next (s.judgeWindow l)

/-- HEALTH_COMMA_TIMEOUT (R89): no comma lock 40 ms after signal detect. -/
def execHealthCommaTimeout (l : Fin 512) (s : State) : Out :=
  match (s.lane l).detectAt with
  | some t0 => .next (if s.now ≥ t0 + 40000000 ∧ s.rd (lnLock l) = 0 then s.setUnhealthy l else s)
  | none => .next s

/-- LT_HEALTH_WRITE (R89): a 1 makes the lane healthy again. -/
def execLtHealthWrite (m : Master) (t : Fin 16) (mask : BitVec 32) (s : State) : Out :=
  .next (s.gated m (0x100008 + 0x10000 * t) (fun s =>
    let f := R.LT_HEALTH_UNHEALTHY t
    s.wr f (s.rd f &&& (mask.toNat ^^^ 0xFFFFFFFF))))

/-- A coefficient set is legal (R81); the codes are 7-bit two's complement. -/
def eqLegal (pre main post : Nat) : Bool :=
  let a := signedOf 7 pre
  let b := signedOf 7 main
  let c := signedOf 7 post
  decide (-16 ≤ a ∧ a ≤ 0 ∧ 24 ≤ b ∧ b ≤ 63 ∧ -24 ≤ c ∧ c ≤ 0 ∧ -a + b + -c ≤ 63)

/-- LT_TX_EQ_WRITE (R81): a legal set goes to the shadow bank; an illegal one is ignored and sets EQ_REJECT. -/
def execLtTxEqWrite (m : Master) (l : Fin 512) (h : Half) (v : BitVec 64) (s : State) : Out :=
  let t := l / 32
  let i := l % 32
  let off : Nat := 0x100110 + 0x10000 * t + 0x80 * i
  .next (s.gated m off (fun s =>
    if coversLow h then
      if eqLegal (bitsOf v.toNat 0 7) (bitsOf v.toNat 8 7) (bitsOf v.toNat 16 7) then
        let s := s.wr (R.LT_TX_EQ_PRE t i) (bitsOf v.toNat 0 7)
        let s := s.wr (R.LT_TX_EQ_MAIN t i) (bitsOf v.toNat 8 7)
        let s := s.wr (R.LT_TX_EQ_POST t i) (bitsOf v.toNat 16 7)
        (s.wr (R.LT_TX_EQ_ADAPT_EN t i) (bitsOf v.toNat 24 1)).noteShadow off
      else s.wr (R.LT_LANE_STAT_EQ_REJECT t i) 1
    else s))

namespace State

/-- Levels that the checker of lane l has compared since it took lock (R92). -/
def patLevelsSince (s : State) (l : Nat) : Nat := (s.now - (s.lane l).lockAt) * levelRate (s.rd (R.LT_TILE_STAT_RATE (l / 32)))

/-- Bit errors that the checker of lane l has counted since it took lock: none when it hears its own generator, else the sum of what the
line gave in each ns, free values of at most two bits a level (log entry 104). -/
def patErrorsSince (s : State) (l : Nat) : Nat :=
  if s.nearLoop l then 0
  else
    let n := 2 * levelRate (s.rd (R.LT_TILE_STAT_RATE (l / 32))) + 1
    ((List.range (s.now - (s.lane l).lockAt)).map (fun i => (Config.lineErrors l ((s.lane l).lockAt + i)).toNat % n)).sum

/-- Every locked checker's counts so far are put into LT_PAT_ERR and LT_PAT_UI (R92). -/
def settlePats (s : State) : State :=
  s.lanes.foldl (fun s e =>
    let t := e.1 / 32
    let i := e.1 % 32
    if s.rdB (R.LT_PAT_STAT_PAT_LOCK t i) then
      ((s.bumpBy (R.LT_PAT_ERR t i) (s.patErrorsSince e.1)).bumpBy (R.LT_PAT_UI t i) (s.patLevelsSince e.1)).setLane e.1
        { s.lane e.1 with lockAt := s.now }
    else s) s

/-- A checker in lock stops: what it counted stands in LT_PAT_ERR and LT_PAT_UI (R92). -/
def patStop (s : State) (l : Nat) (errs : Nat) : State :=
  let t := l / 32
  let i := l % 32
  if s.rdB (R.LT_PAT_STAT_PAT_LOCK t i) then
    ((s.bumpBy (R.LT_PAT_ERR t i) errs).bumpBy (R.LT_PAT_UI t i) (s.patLevelsSince l)).wr (R.LT_PAT_STAT_PAT_LOCK t i) 0
  else s

/-- The test fields of LT_LANE_CTL are written (R92, R93): the checker starts with no lock and no resyncs and stops with its lock; a
change of the transmitter's source shows. -/
def testFields (s : State) (l v : Nat) : State :=
  let t := l / 32
  let i := l % 32
  let chk := bitOf v 7
  let starts := chk && !s.rdB (R.LT_LANE_CTL_PAT_CHK t i)
  let s := if !chk || starts then s.patStop l (s.patErrorsSince l) else s
  let s := if starts then s.wr (R.LT_PAT_STAT_RESYNC t i) 0 else s
  let s := s.wr (R.LT_LANE_CTL_PAT_GEN t i) (bitsOf v 6 1)
  let s := s.wr (R.LT_LANE_CTL_PAT_CHK t i) (bitsOf v 7 1)
  let s := if s.rd (R.LT_LANE_CTL_LPBK t i) = bitsOf v 8 2 then s else s.setLane l { s.lane l with near := [] }
  s.wr (R.LT_LANE_CTL_LPBK t i) (bitsOf v 8 2)

end State

/-- LT_LANE_CTL_WRITE (R92, R93, R97): PAT_GEN, PAT_CHK and LPBK are ignored unless the port group is isolated. A checker in lock of
another pattern loses its lock. -/
def execLtLaneCtlWrite (m : Master) (l : Fin 512) (h : Half) (v : BitVec 64) (s : State) : Out :=
  let t := l / 32
  let i := l % 32
  .next (s.gated m (0x100100 + 0x10000 * t + 0x80 * i) (fun s =>
    if coversLow h then
      let was := s.laneSource l
      let s := if s.rd (R.LT_LANE_CTL_PAT_SEL t i) = bitsOf v.toNat 4 2 then s else s.patStop l (s.patErrorsSince l)
      let s := s.wr (R.LT_LANE_CTL_PRECODE_REQ t i) (bitsOf v.toNat 0 2)
      let s := s.wr (R.LT_LANE_CTL_PAT_SEL t i) (bitsOf v.toNat 4 2)
      let s := if s.groupIsolated (l / 4) then s.testFields l v.toNat else s
      if s.laneSource l = was then s else s.emit (.laneSource l (s.laneSource l))
    else s))

/-- PAT_LOCK (R92, R93): of the last 80 levels received the last 64 follow the pattern, in either polarity; under near-end loopback they
are the generator's own. Far-end loopback sends the 80 levels back. -/
def execPatLock (l : Fin 512) (lv : BitVec 160) (s : State) : Out :=
  let t := l / 32
  let i := l % 32
  let sel := s.rd (R.LT_LANE_CTL_PAT_SEL t i)
  let s := s.loopBack l (s.upright l (patOf lv))
  let found := if s.nearLoop l then (if s.laneSource l = sel ∧ sel ≠ 0 then some false else none) else patLocks sel (patOf lv)
  .next (match found with
    | some inv =>
      if s.rdB (R.LT_LANE_CTL_PAT_CHK t i) && !s.rdB (R.LT_PAT_STAT_PAT_LOCK t i) && s.groupIsolated (l / 4) then
        ((s.wr (R.LT_PAT_STAT_PAT_LOCK t i) 1).wrB (R.LT_PAT_STAT_PAT_INV t i) inv).setLane l { s.lane l with lockAt := s.now }
      else s
    | none => s)

/-- PAT_RESYNC (R92): of the bits of the last 1,024 levels, `errs` are wrong, at least 256 and no more than the levels since lock hold:
lock is lost and one resync counted. A checker that hears its own generator has no errors. -/
def execPatResync (l : Fin 512) (errs : BitVec 64) (s : State) : Out :=
  let t := l / 32
  let i := l % 32
  .next (if s.rdB (R.LT_PAT_STAT_PAT_LOCK t i) && decide (256 ≤ errs.toNat) && !s.nearLoop l &&
      decide (errs.toNat ≤ 2 * min 1024 (s.patLevelsSince l)) then
      (s.patStop l (max errs.toNat (s.patErrorsSince l))).satAdd (R.LT_PAT_STAT_RESYNC t i) 1
    else s)

/-- EYE_SCAN_START (R94): the offsets are stored; START begins one point when the port group is isolated (R37) and no scan
runs on the lane. -/
def execEyeScanStart (m : Master) (l : Fin 512) (h : Half) (v : BitVec 64) (s : State) : Out :=
  let t := l / 32
  let i := l % 32
  .next (s.gated m (0x100130 + 0x10000 * t + 0x80 * i) (fun s =>
    if coversLow h then
      let s := s.wr (R.LT_SCAN_CTL_EYE t i) (bitsOf v.toNat 0 2)
      let s := s.wr (R.LT_SCAN_CTL_H_OFF t i) (bitsOf v.toNat 8 6)
      let s := s.wr (R.LT_SCAN_CTL_V_OFF t i) (bitsOf v.toNat 16 8)
      let s := s.wr (R.LT_SCAN_CTL_DWELL t i) (bitsOf v.toNat 24 4)
      let st := s.lane l
      if bitOf v.toNat 31 && s.groupIsolated (l / 4) && st.scan.isNone then
        (s.wr (R.LT_SCAN_RES_DONE t i) 0).setLane l { st with scan := some (bitsOf v.toNat 24 4, s.now) }
      else s
    else s))

/-- EYE_SCAN_DONE (R94): the dwell of the point, 2^DWELL × 2²⁰ levels at the lane's rate, is over. -/
def execEyeScanDone (l : Fin 512) (errors : BitVec 24) (s : State) : Out :=
  let t := l / 32
  let i := l % 32
  let st := s.lane l
  .next (match st.scan with
    | some (dwell, start) =>
      if 2 ^ (dwell + 20) ≤ (s.now - start) * levelRate (s.rd (R.LT_TILE_STAT_RATE t)) then
        let s := s.wr (R.LT_SCAN_RES_DONE t i) 1
        let s := s.wr (R.LT_SCAN_RES_ERRORS t i) errors.toNat
        (s.wr (R.LT_SCAN_RES_LEVELS t i) (2 ^ dwell)).setLane l { st with scan := none }
      else s
    | none => s)

end Sys2Proof.Machine
end

