-- ==== Sys2Proof/Machine/Link.lean ====
section
/-!
DEFINITION. The link layer's commands (chapter 5): sending and receiving rows, replay, credits, training and time frames.
-/
namespace Sys2Proof.Machine
open State

namespace State

/-- Start a replay from sequence `e` (R114, R116); one that starts before `a` has advanced since the last replay counts in
REPLAY_RUN. -/
def startReplay (s : State) (p e : Nat) : State :=
  let st := s.port p
  let f := R.LNK_REPLAY_STAT_REPLAY_RUN (p / 2) (p % 2)
  let s := if st.advanced then s else s.wr f (min 15 (s.rd f + 1))
  let s := s.setPort p { st with replaying := some (e, s.now, e), advanced := false }
  s.syncReplay p

/-- REPLAY_HOLD in ns; 0 means RTT_MIN + 256 ns. -/
def replayHold (s : State) (p : Nat) : Nat :=
  let v := s.rd (R.LNK_ERR_CFG_REPLAY_HOLD (p / 2) (p % 2))
  if v = 0 then s.rd (R.LNK_RTT_RTT_MIN (p / 2) (p % 2)) + 256 else v

/-- REPLAY_TIMEOUT in ns; 0 means 4 × RTT_MIN, at least 2 µs. -/
def replayTimeout (s : State) (p : Nat) : Nat :=
  let v := s.rd (R.LNK_ERR_CFG_REPLAY_TIMEOUT (p / 2) (p % 2))
  if v = 0 then max (4 * s.rd (R.LNK_RTT_RTT_MIN (p / 2) (p % 2))) 2000 else v * 100

/-- REPLAY_MAX; 0 acts as 8. -/
def replayMax (s : State) (p : Nat) : Nat :=
  let v := s.rd (R.LNK_ERR_CFG_REPLAY_MAX (p / 2) (p % 2))
  if v = 0 then 8 else v

/-- The value of receive counter `i` of a port: dedicated counter of VL i, or the shared counter for 16 (R119). -/
def rxCounter (s : State) (p i : Nat) : Nat :=
  if i = 16 then (s.port p).rxShared else s.rd (R.LNK_CRED_VL_RX_COUNT (p / 2) (p % 2) i)

/-- The counter the next trailer carries: the next in round-robin order that has changed since it was last sent, else
the next in the order (R119). -/
def nextCounter (s : State) (p : Nat) : Nat :=
  let st := s.port p
  let order := ((List.range 17).map (fun i => (st.rr + i) % 17)).filter (fun i => i == 16 || bitOf st.vlMask i)
  match order.find? (fun i => s.rxCounter p i != SMap.get 0 st.lastSent i) with
  | some i => i
  | none => order.headD 16

/-- The slots of a time frame sent now (R122). -/
def frameSlots (s : State) (p : Nat) : List Nat :=
  let st := s.port p
  let t1 := st.t1Cur.getD 0
  let (t2, echo) := st.lastFrame.getD (0, 0)
  let ns1 := t1 / 65536
  let ns2 := t2 / 65536
  let words := fun (n : Nat) => [bitsOf n 48 16, bitsOf n 32 16, bitsOf n 16 16, bitsOf n 0 16]
  let flags := b2n st.t1Cur.isSome + 2 * b2n st.lastFrame.isSome
  words ns1 ++ [t1 % 65536] ++ words ns2 ++ [t2 % 65536] ++
    [st.frame * 256 + echo, s.rd R.TIM_STAT_STEPS * 256 + flags, 0, 0, 0, 0]

/-- Debit the credits of a packet whose header square is transmitted for the first time, and release its reservation
(R118). -/
def debit (s : State) (p : Nat) (q : TxSq) : State :=
  let st := s.port p
  let key := if q.shared then 16 else q.vl
  let f := if q.shared then lnkAvail p else lnkDed p q.vl
  let s := s.wr f (s.rd f - q.count)
  s.setPort p { st with reserved := SMap.set 0 st.reserved key (SMap.get 0 st.reserved key - q.count) }

/-- The squares the next data row carries: at most 8, and the row ends after the last square of an aborted packet
(R103). -/
def takeRow : Nat → List TxSq → List TxSq
  | 0, _ => []
  | _, [] => []
  | n + 1, q :: qs => if q.last && q.abort then [q] else q :: takeRow n qs

/-- A number whose bit i is 1 when the i-th element satisfies `f`. -/
def maskOf {α : Type} (l : List α) (f : α → Bool) : Nat :=
  l.reverse.foldl (fun a q => 2 * a + b2n (f q)) 0

/-- Complete the trailer of a row sent in UP with the acknowledgement, credit and time fields (R99, R112, R119, R122) and
send it. -/
def sendUp (s : State) (p : Nat) (r : Row) : State :=
  let st := s.port p
  let i := s.nextCounter p
  let cnt := s.rxCounter p i
  let n := st.txRow % 256
  let mark := n == 0
  let slots := if mark then s.frameSlots p else st.frameTx
  let st := { st with lastSent := SMap.set 0 st.lastSent i cnt, rr := (i + 1) % 17, txRow := st.txRow + 1 }
  let st := if mark then { st with
      frame := (st.frame + 1) % 256
      t1Due := true
      frameTx := slots } else st
  let r := { r with
    nak := st.nakWait
    ackSeq := BitVec.ofNat 12 (if st.nakWait then st.e else st.e + 4095)
    crVl := BitVec.ofNat 4 (if i = 16 then 0 else i)
    crPool := i == 16
    crCount := BitVec.ofNat 14 cnt
    tmark := mark
    tslot := BitVec.ofNat 4 (if n < 16 then n else 0)
    tdata := BitVec.ofNat 16 (if n < 16 then slots.getD n 0 else 0) }
  (s.setPort p st).putRow p (rowEncode r)

/-- An idle row (R102): SEQ is the next sequence number the sender will assign. -/
def idleRow (s : State) (p : Nat) : Row :=
  { ctrlRow 0 with squares := [], ty := 0, nsq := 0, seq := BitVec.ofNat 12 (s.rd (R.LNK_REPLAY_STAT_NEXT_SEQ (p / 2) (p % 2))) }

/-- A held row as a data row (R110). -/
def dataRow (r : RepRow) (replay : Bool) : Row :=
  { ctrlRow 0 with
    squares := r.squares, ty := 1, nsq := BitVec.ofNat 4 r.squares.length, seq := BitVec.ofNat 12 r.seq, replay := replay
    hdr := BitVec.ofNat 8 r.hdr, shared := BitVec.ofNat 8 r.shared, abort := r.abort }

/-- Send the next row of a replay (R114): where that row has been acknowledged meanwhile, the oldest one still held. -/
def sendReplay (s : State) (p : Nat) (e start next : Nat) : State :=
  let st := s.port p
  match (st.replay.find? (fun r => r.seq == next)).or st.replay.head? with
  | some r =>
    let newest := match st.replay.getLast? with | some l => l.seq == r.seq | none => true
    let s := s.setPort p { st with replaying := some (e, start, if newest then 4096 else (r.seq + 1) % 4096) }
    ((s.bump (R.LNK_ROWS_REPLAY (p / 2) (p % 2))).sendUp p (dataRow r true)).syncReplay p
  | none =>
    let s := s.setPort p { st with replaying := some (e, start, 4096) }
    (s.sendUp p (s.idleRow p)).syncReplay p

/-- The 1 ms window of a port's round trips ends (R125): RTT_MIN takes the least one of a window in which data rows were sent. DESIGN CHOICE
(log entry 121): a round trip counts in the window in which its acknowledgement arrives. -/
def closeRtt (s : State) (p : Nat) : State :=
  let st := s.port p
  let win := s.winIdx 1000000
  if win = st.rttIdx then s
  else
    let s := s.setPort p { st with rttWin := none, rttSent := false, rttIdx := win }
    match st.rttSent, st.rttWin with
    | true, some v => s.wr (R.LNK_RTT_RTT_MIN (p / 2) (p % 2)) (min v 0xFFFFF)
    | _, _ => s

/-- Send a new data row of the squares waiting at the port (R103, R110, R118); the last squares of packets give departure
notices (R19). -/
def sendNew (s : State) (p : Nat) : State :=
  let s := s.closeRtt p
  let st := s.port p
  let qs := takeRow 8 st.tx
  let seqF := R.LNK_REPLAY_STAT_NEXT_SEQ (p / 2) (p % 2)
  let seq := s.rd seqF
  let r : RepRow := { seq := seq, squares := qs.map TxSq.sq, hdr := maskOf qs TxSq.hdr, shared := maskOf qs TxSq.shared
                      abort := qs.any (fun q => q.last && q.abort), firstTx := s.now }
  let s := s.setPort p { st with
    tx := st.tx.drop qs.length, replay := st.replay ++ [r], rttSent := true
    sent := st.sent ++ (qs.map TxSq.cls).filter (· != 5)
    progressAt := if st.replay.isEmpty then s.now else st.progressAt }
  let s := (qs.filter TxSq.hdr).foldl (fun s q => ((s.debit p q).countTx q.pid).stampTagged q.pid 4) s
  let s := s.withDepartures (s.departures ++ (qs.filter TxSq.last).filterMap (fun (q : TxSq) => q.dep.map (fun d => (p, d))))
  let s := (qs.filter TxSq.last).foldl (fun s q => s.endTagged q.pid 0) s
  let s := s.wr seqF ((seq + 1) % 4096)
  let s := s.bump (R.LNK_ROWS_TX (p / 2) (p % 2))
  (s.sendUp p (dataRow r false)).syncReplay p

/-- The replay window of a port (R110). -/
def window (s : State) (p : Nat) : Nat := windowRows (s.portLanes p)

/-- What a port in UP sends next (R110, R114, R115): the rows of a replay before any new row; idle rows while the window
is full or nothing waits. -/
def sendInUp (s : State) (p : Nat) : State :=
  let st := s.port p
  match st.replaying with
  | some (e, start, next) =>
    if next != 4096 then s.sendReplay p e start next
    else if st.replay.length ≥ s.window p then (s.bump (R.LNK_FULL_IDLE (p / 2) (p % 2))).sendUp p (s.idleRow p)
    else if st.tx.isEmpty then s.sendUp p (s.idleRow p)
    else s.sendNew p
  | none =>
    if st.replay.length ≥ s.window p then (s.bump (R.LNK_FULL_IDLE (p / 2) (p % 2))).sendUp p (s.idleRow p)
    else if st.tx.isEmpty then s.sendUp p (s.idleRow p)
    else s.sendNew p

end State

namespace State

/-- The generators of a port's lanes send the levels of one codeword time (R92, log entry 120). -/
def sendPatterns (s : State) (p : Nat) : State :=
  let ls := s.lanesOf p
  ls.foldl (fun s l => if s.laneSource l = 0 ∨ s.laneSource l = 4 then s else s.drivePattern l (2720 / ls.length)) s

/-- A control row of type `ctype` goes out on port p. -/
def sendCtrl (s : State) (p ctype : Nat) : State := s.putRow p (rowEncode (ctrlRow (s.ctrlMsg p ctype)))

end State

/-- ROW_TX (R72, R104, R110, R503): the next row of the port's state enters the line coding; electrical idle sends none. In DISABLED the
LRESET rows of the first 1 µs are the ones of the state that was left, and after it only pattern generators send (R92). -/
def execRowTx (p : Fin 256) (s : State) : Out :=
  .next (match s.linkState p with
    | 0 => (match (s.port p).lreset with
      | some (t, q) => if s.now < t then s.putRow p (rowEncode (ctrlRow q)) else s.sendPatterns p
      | none => s.sendPatterns p)
    | 1 => if s.now < (s.port p).resetAt + 1000 then s.sendCtrl p 4 else s
    | 5 => s.sendCtrl p 2
    | 6 => s.sendCtrl p 3
    | 7 => s.sendInUp p
    | _ => s.sendCtrl p 1)

namespace State

/-- Write a payload square of the packet in progress into the buffer (R129). The last square of an aborted packet
discards the entries that have not begun to read; when none has, the packet counts in LNK_ABORT_PKTS (R121). -/
def writeSquare (s : State) (p : Nat) (c : RxCur) (q : RxSq) : State :=
  match s.bufPkt c.pid with
  | none => s.modPort p (fun st => { st with rxCur := if c.left = 1 then none else some { c with left := c.left - 1 } })
  | some b =>
    let last := c.left == 1
    let (s, a) := s.allocate b.addr.getLast? { inp := p, vl := b.vl, shared := q.shared, gen := b.gen, region := .link }
    let b := { b with pkt := { b.pkt with pay := b.pkt.pay ++ [q.sq] }, written := b.written + 1, addr := b.addr ++ [a], aborted := b.aborted || (last && q.abort) }
    let s := s.setBuf c.pid (some b)
    let s := s.modPort p (fun st => { st with rxCur := if last then none else some { c with left := c.left - 1 } })
    if last && q.abort then
      let begun := b.outs.filter (fun key => ((s.queue (key / 16) (key % 16)).any (fun e => e.pid == c.pid && e.reading)))
      let s := (b.outs.filter (fun key => !begun.contains key)).foldl (fun s key => s.removeEntry key c.pid) s
      if begun.isEmpty then s.bump (R.LNK_ABORT_PKTS (p / 2) (p % 2)) else s
    else s

/-- Take the squares waiting on a port up to the next header square (R103): payload squares go to the packet in progress;
a header square that comes too early cuts that packet short (R54, R138); a square that belongs to no packet is a link
protocol error. -/
def drainRx : Nat → State → Nat → State
  | 0, s, _ => s
  | fuel + 1, s, p =>
    let st := s.port p
    match st.rx with
    | [] => s
    | q :: qs =>
      if q.hdr then
        match st.rxCur with
        | some c => (s.setPort p { st with rxCur := none }).cutPacket c.pid (some R.SWC_DISC_HDR)
        | none => s
      else
        match st.rxCur with
        | some c => drainRx fuel ((s.setPort p { st with rx := qs }).writeSquare p c q) p
        | none => (s.setPort p { st with rx := qs }).requestReset p 7

/-- Enter the NAK wait for E if the receiver is not already waiting (R111). -/
def enterNakWait (s : State) (p : Nat) : State :=
  if (s.port p).nakWait then s
  else (s.modPort p (fun st => { st with nakWait := true })).bump (R.LNK_NAK_TX (p / 2) (p % 2))

/-- Count a bad row in its 1 ms window (R124). -/
def countBad (s : State) (p : Nat) : State :=
  let w := s.winIdx 1000000
  let s := s.bump (R.LNK_BAD_ROWS (p / 2) (p % 2))
  s.modPort p (fun st => if st.badIdx = w then { st with badWin := st.badWin + 1 }
    else { st with badIdx := w, badWin := 1, badHit := false })

/-- Row delineation is lost: the search begins anew (R101). -/
def loseRows (s : State) (p : Nat) : State :=
  s.modPort p (fun st => { st with delineated := false, badRun := 0, rxl := { st.rxl with pos := 0, runs := [] } })

/-- A bad row (R100, R101, R111): discarded and counted; 16 in a row lose delineation. -/
def badRow (s : State) (p : Nat) : State :=
  let s := s.countBad p
  let s := s.modPort p (fun st => { st with badRun := st.badRun + 1, frameRx := none })
  if (s.port p).badRun ≥ 16 then (s.loseRows p).requestReset p 4
  else if s.linkState p = 7 then s.enterNakWait p
  else s

/-- The oldest 4,224 bits of a port's receive stream, and whether one of them lies in an uncorrectable codeword (R88, R98); none while
fewer have arrived. -/
def headRow (s : State) (p : Nat) : Option (BitVec 4224 × Bool) :=
  let r := (s.port p).rxl
  if r.len < 4224 then none
  else some (BitVec.ofNat 4224 (r.msg / 2 ^ (r.len - 4224)), r.bad / 2 ^ (r.len - 4224) != 0)

/-- The codewords of a receive stream and their times when its oldest n bits are gone. -/
def dropTimes : Nat → List (Nat × Nat) → List (Nat × Nat)
  | _, [] => []
  | n, (k, t) :: l => if n < k then (k - n, t) :: l else dropTimes (n - k) l

/-- Drop the oldest n bits of a port's receive stream. -/
def dropBits (s : State) (p n : Nat) : State :=
  s.modPort p (fun st =>
    let r := st.rxl
    let k := r.len - n
    { st with rxl := { r with msg := r.msg % 2 ^ k, bad := r.bad % 2 ^ k, len := k, times := dropTimes n r.times } })

/-- Fabric time at which the oldest bit of a port's receive stream crossed the pads (R123). -/
def headTime (s : State) (p : Nat) : Nat := match (s.port p).rxl.times with | (_, t) :: _ => t | [] => s.time.ft

/-- The row at the head of a delineated stream is good and is taken. -/
def takeHead (s : State) (p : Nat) : State :=
  let t := s.headTime p
  (s.dropBits p 4224).modPort p (fun st => { st with badRun := 0, rowFt := t })

/-- One step of the search for rows (R101): the bits at this phase are a good row or not; the fourth good one in a row at one phase
takes delineation and waits to be taken, otherwise the search goes on 128 bits later. -/
def searchRow (s : State) (p : Nat) (good : Bool) : State :=
  let r := (s.port p).rxl
  let runs := if r.runs.isEmpty then List.replicate 33 0 else r.runs
  let n := if good then runs.getD (r.pos % 33) 0 + 1 else 0
  if 4 ≤ n then s.modPort p (fun st => { st with delineated := true, badRun := 0 })
  else (s.modPort p (fun st => { st with rxl := { r with pos := r.pos + 1, runs := runs.set (r.pos % 33) n } })).dropBits p 128

/-- NSQ is within the range of the row type (R102). -/
def nsqOk (r : Row) : Bool :=
  match r.ty.toNat with
  | 0 => r.nsq == 0
  | 1 => decide (1 ≤ r.nsq.toNat) && decide (r.nsq.toNat ≤ 8)
  | _ => r.nsq == 1

/-- The control message of a control row that is in range. -/
def ctrlOf (r : Row) : Option Square := if r.ty = 2 ∧ nsqOk r = true then some (r.squares.getD 0 0) else none

/-- The control message of type `ctype` at the head of a delineated stream, in a good row. -/
def headCtrl (s : State) (p ctype : Nat) : Option Square :=
  match s.headRow p with
  | some (b, marked) =>
    if (s.port p).delineated && !marked && rowCrcOk b then (ctrlOf (rowDecode b)).filter (fun q => cmType q == ctype) else none
  | none => none

/-- A received credit counter (R120): δ credits are added to its pool; more than the pool's outstanding credits is a
credit protocol error. -/
def creditRx (s : State) (p : Nat) (r : Row) : State :=
  let key := if r.crPool then 16 else r.crVl.toNat
  let st := s.port p
  let delta := (r.crCount.toNat + 16384 - SMap.get 0 st.lastCr key) % 16384
  let f := if r.crPool then lnkAvail p else lnkDed p r.crVl.toNat
  let cap := if r.crPool then s.rd (R.LNK_CRED_SHARED_GRANT (p / 2) (p % 2))
    else if bitOf (s.lnkPeerMask p) r.crVl.toNat then 65 else 0
  if delta > cap - s.rd f then s.requestReset p 6
  else
    let s := s.setPort p { st with lastCr := SMap.set 0 st.lastCr key r.crCount.toNat }
    s.wr f (s.rd f + delta)

/-- A NAK for `e` (R114). -/
def nakRx (s : State) (p e : Nat) : State :=
  let st := s.port p
  if e = s.rd (R.LNK_REPLAY_STAT_NEXT_SEQ (p / 2) (p % 2)) then
    if st.nakEmpty = some e then s
    else (s.setPort p { st with nakEmpty := some e }).bump (R.LNK_NAK_EMPTY (p / 2) (p % 2))
  else
    let ignore := match st.replaying with
      | some (e0, start, _) => e0 == e && decide (s.now < start + s.replayHold p)
      | none => false
    if ignore then s else (s.bump (R.LNK_NAK_RX (p / 2) (p % 2))).startReplay p e

/-- The acknowledgement of a good trailer (R113): rows up to `a` are released; `a` behind the last one received or beyond
the newest sent is a link protocol error. -/
def ackRx (s : State) (p : Nat) (r : Row) : State :=
  let s := s.closeRtt p
  let st := s.port p
  let a := if r.nak then (r.ackSeq.toNat + 4095) % 4096 else r.ackSeq.toNat
  let newest := (s.rd (R.LNK_REPLAY_STAT_NEXT_SEQ (p / 2) (p % 2)) + 4095) % 4096
  let dist := (a + 4096 - st.lastA) % 4096
  if dist > (newest + 4096 - st.lastA) % 4096 then s.requestReset p 7
  else
    let acked := st.replay.filter (fun x => decide ((a + 4096 - x.seq) % 4096 < 2048))
    let rest := st.replay.filter (fun x => !decide ((a + 4096 - x.seq) % 4096 < 2048))
    let rtt := acked.foldl (fun (m : Option Nat) x =>
      some (match m with | none => s.now - x.firstTx | some v => min v (s.now - x.firstTx))) st.rttWin
    let s := s.setPort p { st with
      replay := rest, rttWin := rtt, lastA := a, nakEmpty := if r.nak then st.nakEmpty else none
      progressAt := if dist > 0 then s.now else st.progressAt, advanced := st.advanced || decide (dist > 0) }
    let s := if dist > 0 then s.wr (R.LNK_REPLAY_STAT_REPLAY_RUN (p / 2) (p % 2)) 0 else s
    let s := s.syncReplay p
    let s := s.creditRx p r
    if r.nak && s.linkState p == 7 then s.nakRx p r.ackSeq.toNat else s

/-- The time slice of a good row (R122, R123): a mark row starts a frame at the time its first bit crossed the pads; the frame is complete with 16 good
rows. -/
def frameRxRow (s : State) (p : Nat) (r : Row) : State :=
  s.modPort p (fun st =>
    if r.tmark then { st with frameRx := some { t2 := st.rowFt, slots := [r.tdata.toNat] } }
    else match st.frameRx with
      | some f =>
        if f.complete then st
        else if r.tslot.toNat = f.slots.length then
          { st with frameRx := some { f with slots := f.slots ++ [r.tdata.toNat], complete := f.slots.length + 1 == 16 } }
        else { st with frameRx := none }
      | none => st)

/-- The squares of a row accepted in order (R111). -/
def acceptRow (s : State) (p : Nat) (r : Row) : State :=
  let n := r.nsq.toNat
  let qs := (List.range n).map (fun i =>
    ({ sq := r.squares.getD i 0, hdr := bitOf r.hdr.toNat i, shared := bitOf r.shared.toNat i
       abort := r.abort && i + 1 == n, stamp := s.now, fstamp := s.ns } : RxSq))
  let s := s.modPort p (fun st => { st with e := (st.e + 1) % 4096, nakWait := false, rx := st.rx ++ qs })
  let s := s.bump (R.LNK_ROWS_RX (p / 2) (p % 2))
  drainRx 9 s p

/-- A data row in UP by its sequence number (R111). -/
def dataRx (s : State) (p : Nat) (r : Row) : State :=
  let d := (r.seq.toNat + 4096 - (s.port p).e) % 4096
  if d = 0 then s.acceptRow p r
  else if d ≥ 2048 then s.bump (R.LNK_DUP_ROWS (p / 2) (p % 2))
  else (s.bump (R.LNK_GAP_ROWS (p / 2) (p % 2))).enterNakWait p

/-- An idle row in UP: it ends the NAK wait when its SEQ equals E (R111). -/
def idleRx (s : State) (p : Nat) (r : Row) : State :=
  s.modPort p (fun st => if st.nakWait && r.seq.toNat == st.e then { st with nakWait := false } else st)

/-- A good data or idle row in UP: its squares by sequence, then acknowledgement, credit and time fields. -/
def upRow (s : State) (p : Nat) (r : Row) : State :=
  let s := s.modPort p (fun st => { st with sawData := true })
  let s := if r.ty = 1 then s.dataRx p r else s.idleRx p r
  if s.linkState p = 7 then
    let s := s.ackRx p r
    if s.linkState p = 7 then s.frameRxRow p r else s
  else s

/-- A good control message that arrives in UP (R102, R107, R109): an LRESET resets the link with cause 2; others are
discarded until the first row that is not a control row, and are protocol errors after it. -/
def ctrlInUp (s : State) (p : Nat) (q : Square) : State :=
  if cmType q = 4 then s.requestReset p 2
  else if s.rdB (R.LNK_STAT_LEADER (p / 2) (p % 2)) && !(s.port p).sawData then s
  else s.requestReset p 7

end State

/-- BADROW_LIMIT (R124): once per window. -/
def execBadrowLimit (p : Fin 256) (s : State) : Out :=
  let st := s.port p
  let limit := max 1 (s.rd (R.LNK_ERR_CFG_BADROW_LIMIT (p / 2) (p % 2)))
  .next (if st.badWin ≥ limit && !st.badHit then
      let s := s.setPort p { st with badHit := true }
      let s := s.fault (16 + p / 2) 0x0204 p
      if s.rdB (R.LNK_CTL_RETRAIN_ON_LIMIT (p / 2) (p % 2)) then s.requestReset p 8 else s
    else s)

/-- REPLAY_TIMEOUT (R116). DESIGN CHOICE (log entry 105): the next timeout runs from the replay that this one starts. -/
def execReplayTimeout (p : Fin 256) (s : State) : Out :=
  let st := s.port p
  .next (match st.replay with
    | r :: _ =>
      if s.linkState p = 7 && decide (s.now ≥ st.progressAt + s.replayTimeout p) then
        ((s.bump (R.LNK_REPLAY_TO (p / 2) (p % 2))).setPort p { st with progressAt := s.now }).startReplay p r.seq
      else s
    | [] => s)

/-- REPLAY_LIMIT (R116): REPLAY_RUN has reached REPLAY_MAX. -/
def execReplayLimit (p : Fin 256) (s : State) : Out :=
  .next (if s.rd (R.LNK_REPLAY_STAT_REPLAY_RUN (p / 2) (p % 2)) ≥ s.replayMax p then s.requestReset p 5 else s)

/-- RTT_WINDOW_END (R125). -/
def execRttWindowEnd (p : Fin 256) (s : State) : Out := .next (s.closeRtt p)

namespace State

/-- Training fails: counted and reported (R124), and the port returns to RESET. -/
def trainFail (s : State) (p cause : Nat) : State :=
  let s := s.bump (R.LNK_TRAIN_FAIL (p / 2) (p % 2))
  let s := s.fault (16 + p / 2) 0x0202 p
  s.linkReset p cause

/-- The checks of CONFIG (R106): VL0 in the peer's VL_MASK, the leader by IDENTITY and then LPORT, and the self loop. -/
def configCheck (s : State) (p : Nat) (q : Square) : State :=
  let own := s.rd R.GLB_IDENTITY_IDENTITY
  let s := s.wr (R.LNK_PEER_ID_IDENTITY (p / 2) (p % 2)) (cmIdentity q)
  let s := s.wr (R.LNK_STAT_PEER_LPORT (p / 2) (p % 2)) (cmLport q)
  let s := s.wr (R.LNK_CRED_SHARED_GRANT (p / 2) (p % 2)) (cmGrant q)
  let s := s.wr (R.LNK_CRED_SHARED_PEER_VL_MASK (p / 2) (p % 2)) (cmVlMask q)
  if !bitOf (cmVlMask q) 0 then s.trainFail p 10
  else if cmIdentity q = own ∧ cmLport q = p then (s.wr (R.LNK_STAT_SELF_LOOP (p / 2) (p % 2)) 1).trainFail p 10
  else
    let leader := decide (own < cmIdentity q) || (own == cmIdentity q && decide (p < cmLport q))
    (s.wrB (R.LNK_STAT_LEADER (p / 2) (p % 2)) leader).setLinkState p 5

end State

/-- A transmit set after a request byte, and its answer code (R82, R106): 1 applied, 2 AT_LIMIT, 0 none. -/
def applyEq (set : Nat × Nat × Nat) (req : Nat) : (Nat × Nat × Nat) × Nat :=
  let (a, b, c) := set
  let enc := fun (i : Int) => unsignedOf 7 i
  match bitsOf req 6 2 with
  | 1 =>
    match bitsOf req 0 3 with
    | 1 => ((enc 0, 63, enc 0), 1)
    | 2 => ((enc (-4), 52, enc (-7)), 1)
    | 3 => ((enc (-6), 45, enc (-12)), 1)
    | 4 => ((enc (-10), 41, enc (-12)), 1)
    | _ => (set, 0)
  | 2 =>
    let d : Int := if bitOf req 3 then -1 else 1
    let set' := match bitsOf req 4 2 with
      | 0 => (enc (signedOf 7 a + d), b, c)
      | 1 => (a, enc (signedOf 7 b + d), c)
      | 2 => (a, b, enc (signedOf 7 c + d))
      | _ => set
    if eqLegal set'.1 set'.2.1 set'.2.2 then (set', 1) else (set, 2)
  | _ => (set, 0)

namespace State

/-- One request byte is applied to the set in force of lane l; the answer (R82): HOLD while ADAPT_EN is 0. -/
def requestLane (s : State) (l req : Nat) : State × Nat :=
  let t := l / 32
  let i := l % 32
  if s.rd (R.LT_TX_EQ_ACT_ADAPT_EN t i) = 0 then (s, if bitsOf req 6 2 = 0 then 0 else 3)
  else
    match applyEq (s.rd (R.LT_TX_EQ_ACT_PRE t i), s.rd (R.LT_TX_EQ_ACT_MAIN t i), s.rd (R.LT_TX_EQ_ACT_POST t i)) req with
    | ((a, b, c), ans) =>
      (((s.wr (R.LT_TX_EQ_ACT_PRE t i) a).wr (R.LT_TX_EQ_ACT_MAIN t i) b).wr (R.LT_TX_EQ_ACT_POST t i) c, ans)

/-- The peer's request set is applied to the transmitters, by the peer's receive lane through the measured lane order; at degraded width
to both halves (R82, R106, R108). The answers go back in EQ_RESP. -/
def applyRequests (s : State) (p : Nat) (q : Square) : State :=
  let ls := s.txLanes p
  let w := ls.length
  let (s, resp) := (List.range w).foldl (fun (acc : State × Nat) i =>
    let j := if (s.port p).order = 1 then w - 1 - i else i
    let r := (ls.getD j []).foldl (fun (a : State × Nat) l => requestLane a.1 l (cmEqReq q i)) (acc.1, 0)
    (r.1, acc.2 + r.2 * 2 ^ (8 * (7 - j)))) (s, 0)
  s.modPort p (fun st => { st with eqResp := resp, peerToken := bitsOf (cmToken q) 0 4 })

/-- A control message in the equalisation session, from DETECT to the end of EQ (R82, R105, R106): the peer's requests, answers and
precode request; `reqs` is the request set this side's receivers would issue next and `done` says that they are satisfied. A new set goes
out only after the last was answered. -/
def eqSession (s : State) (p : Nat) (q : Square) (done : Bool) (reqs : Nat) : State :=
  let s := if bitsOf (cmToken q) 0 4 != (s.port p).peerToken then s.applyRequests p q else s
  s.modPort p (fun st =>
    let st := { st with peerDone := bitOf (cmFlags q) 1, precodeReq := some (cmPrecode q), eqDone := st.eqDone || done
                        tokenAnswered := st.tokenAnswered || bitsOf (cmToken q) 4 4 == st.token }
    if reqs != 0 && st.tokenAnswered && !done then
      { st with token := (st.token + 1) % 16, eqReq := reqs, tokenAnswered := false }
    else st)

/-- EQ ends when both sides report EQ_DONE (R104). -/
def eqAdvance (s : State) (p : Nat) : State :=
  if s.linkState p = 5 && (s.port p).eqDone && (s.port p).peerDone then s.setLinkState p 6 else s

/-- A control row of type `ctype` at the head of the stream is taken and handled by `f`; outside a stream that has one there is none. -/
def onCtrl (s : State) (p ctype : Nat) (f : State → Square → State) : State :=
  match s.headCtrl p ctype with
  | some q => f (s.takeHead p) q
  | none => s

end State

/-- CAP_ROW_RX (R104, R106): in ALIGN an aligned port enters CONFIG, where the message is checked. -/
def execCapRowRx (p : Fin 256) (done : Bool) (reqs : BitVec 64) (s : State) : Out :=
  .next (s.onCtrl p 1 (fun s q =>
    match s.linkState p with
    | 3 => let s := s.eqSession p q done reqs.toNat
           if (s.port p).aligned then (s.setLinkState p 4).configCheck p q else s
    | 4 => (s.eqSession p q done reqs.toNat).configCheck p q
    | 5 => (s.eqSession p q done reqs.toNat).eqAdvance p
    | 7 => s.ctrlInUp p q
    | _ => s))

/-- EQ_ROW_RX (R82, R106): with EQ_DONE on both sides the port enters CONFIRM. -/
def execEqRowRx (p : Fin 256) (done : Bool) (reqs : BitVec 64) (s : State) : Out :=
  .next (s.onCtrl p 2 (fun s q =>
    match s.linkState p with
    | 3 | 4 | 5 => (s.eqSession p q done reqs.toNat).eqAdvance p
    | 7 => s.ctrlInUp p q
    | _ => s))

/-- LRESET_RX (R107): resets the link from UP with cause 2; is absorbed from DETECT to CONFIRM. In RESET, where the lanes are in reset
and no row stream stands, an LRESET only confirms the reset. -/
def execLresetRx (p : Fin 256) (s : State) : Out :=
  .next (s.onCtrl p 4 (fun s _ => if s.linkState p = 1 then s else s.requestReset p 2))

/-- RESET_INTERVAL_END (R104, R107, R108): 1 µs of LRESET and 10 µs of electrical idle are over and 1 ms has passed since
the last start; DETECT begins at the width the health map gives, each transmitter with the set of its
active bank; receivers that have a signal adapt again (R83, R85). -/
def execResetIntervalEnd (p : Fin 256) (s : State) : Out :=
  let st := s.port p
  let startOk := match st.lastTrain with | some t => decide (s.now ≥ t + 1000000) | none => true
  if s.linkState p = 1 && decide (s.now ≥ st.resetAt + 11000) && startOk then
    let deg := s.rdB (R.LNK_CTL_DEGRADE_EN (p / 2) (p % 2)) && decide (2 < s.portLanes p) && (s.lanesOf p).any s.unhealthy
    let s := (s.endLine p).unalign p
    let s := s.modPort p (fun st => { st with
      lastTrain := some s.now, trainAt := s.now, degraded := deg, token := 0, tokenAnswered := true, eqReq := 0, eqResp := 0
      eqDone := false, peerDone := false, peerToken := 0, peerReady := false })
    let s := s.wr (R.LNK_STAT_SELF_LOOP (p / 2) (p % 2)) 0
    let s := (s.lanesOf p).foldl (fun s l => s.inForce l (s.lane l).bank) s
    let s := (s.setLanes p 1).setLinkState p 2
    .next ((s.lanesOf p).foldl (fun s l => if s.rd (R.LT_LANE_STAT_LOS (l / 32) (l % 32)) = 0 then s.adaptLane l else s) s)
  else .next s

/-- TRAIN_TIMEOUT (R105): below 10 ms acts as 10; the cause is 10 while R87 holds the port, otherwise 9. -/
def execTrainTimeout (p : Fin 256) (s : State) : Out :=
  let st := s.port p
  let limit := max 10 (s.rd (R.LNK_ERR_CFG_TRAIN_TIMEOUT (p / 2) (p % 2))) * 1000000
  .next (if 2 ≤ s.linkState p ∧ s.linkState p ≤ 6 ∧ s.now ≥ st.trainAt + limit then
      s.trainFail p (if st.order = 2 || st.mismatch then 10 else 9)
    else s)

/-- DEGRADE_TIMEOUT (R108). -/
def execDegradeTimeout (p : Fin 256) (s : State) : Out :=
  let st := s.port p
  .next (if s.linkState p = 2 && decide (s.now ≥ st.trainAt + 20000000) && s.rdB (R.LNK_CTL_DEGRADE_EN (p / 2) (p % 2)) &&
      decide (2 < s.portLanes p) && !st.degraded then s.degrade p else s)

/-- Map offset of a register of logical port p's slot. -/
def lnkOff (p off : Nat) : Nat := 0x200000 + 0x1000 * (p / 2) + 0x800 * (p % 2) + off

/-- RETRAIN (R104, R107). -/
def execRetrain (m : Master) (p : Fin 256) (s : State) : Out :=
  .next (s.gated m (lnkOff p 0) (fun s => if s.formed p then s.requestReset p 1 else s))

/-- DISABLE (R104, R503). -/
def execDisable (m : Master) (p : Fin 256) (on : Bool) (s : State) : Out :=
  .next (s.gated m (lnkOff p 0) (fun s =>
    if s.formed p then
      let s := s.wrB (R.LNK_CTL_DISABLE (p / 2) (p % 2)) on
      if on then (if s.linkState p = 0 then s else s.linkDisable p) else s.leaveDisabled p
    else s))

/-- A time in units of 2⁻¹⁶ ns from four 16-bit words and a fraction (R122). -/
def slotTime (l : List Nat) (i : Nat) : Nat :=
  ((((l.getD i 0) * 65536 + l.getD (i + 1) 0) * 65536 + l.getD (i + 2) 0) * 65536 + l.getD (i + 3) 0) * 65536 + l.getD (i + 4) 0

/-- TIME_FRAME (R122, R123, R452): the complete frame gives the peer's STEPS and, when its T1 belongs to the peer's last
complete frame and its ECHO to an own mark, delay and offset; a parent whose STEPS reach the follower's own is lost, and otherwise the
follower's are the parent's plus one (R451); a follower without a parent may take one. -/
def execTimeFrame (p : Fin 256) (s : State) : Out :=
  let st := s.port p
  match st.frameRx with
  | some f =>
    if f.complete then
      let sl := f.slots
      let flags := sl.getD 11 0
      let frameNo := sl.getD 10 0 / 256
      let echo := sl.getD 10 0 % 256
      let t1Ok := bitOf flags 0
      let t2Ok := bitOf flags 1
      let t3 := SMap.get 0 st.marks echo
      let pair := t1Ok && t2Ok && decide (t3 ≠ 0) && (match st.lastFrame with | some (_, n) => n == frameNo | none => false)
      let s := if pair then
          let t1 : Int := slotTime sl 0
          let t4 : Int := slotTime sl 5
          let t2 : Int := (st.lastFrame.getD (0, 0)).1
          let delay := ((t4 - ((t3 - 1 : Nat) : Int)) + (t2 - t1)) / 2
          let offset := t1 + delay - t2
          let s := s.wr (R.LNK_TIME_DELAY_DELAY (p / 2) (p % 2)) (unsignedOf 48 delay)
          s.wr (R.LNK_TIME_OFFSET_OFFSET (p / 2) (p % 2)) (unsignedOf 64 offset)
        else s
      let s := s.setPort p { st with
        frameRx := none, lastFrame := some (f.t2, (frameNo + 1) % 256), peerSteps := flags / 256
        peerT1T2 := t1Ok && t2Ok, pairAt := if pair then s.now else st.pairAt, pairNew := pair }
      let s := if s.rd R.TIM_STAT_PARENT = p.val then
          if flags / 256 ≥ s.rd R.TIM_STAT_STEPS then s.loseParent else s.wr R.TIM_STAT_STEPS (flags / 256 + 1)
        else s
      .next s.selectParent
    else .next s
  | none => .next s

end Sys2Proof.Machine
end

