-- ==== Sys2Proof/Machine/Routing.lean ====
section
/-!
DEFINITION. The lookup (R157 to R171) and its form inside a stack (R362 to R366): where a packet leaves and the route word
it carries there.
-/
namespace Sys2Proof.Machine

/-- A candidate of a routing entry or stack row (R160): its port, weight, and the member that holds it (R362). -/
structure Cand where
  port : Nat
  weight : Nat
  mbr : Nat
  deriving DecidableEq, Repr

/-- A routing entry (R160, R362). -/
structure RteEntry where
  valid : Bool
  nmode : Nat
  seed : Nat
  slvl : Nat
  smlvl : Nat
  min : List Cand
  nm : List Cand
  deriving DecidableEq, Repr

/-- A candidate judged for a packet: whether it meets conditions 1 to 3 of R161, whether it is eligible, the stage it gives,
and its score in units of 1/`scoreUnit` ns. -/
structure Judged where
  c : Cand
  meets : Bool
  elig : Bool
  stage : Nat
  score : Nat
  deriving DecidableEq, Repr

/-- Scores are exact: one ns is this many units, so that every square time of R166 is a whole number of them. -/
def scoreUnit : Nat := 1792 * 514 * 512 * 2228224 * 4

/-- A score of Q squares at a port where 1,792 / (width · lane rate) is `slots`, and a remote delay (R166): one square
takes 512 bits at width · rate · 514/544 · 512/528 · 2,228,224/2,228,304. -/
def scoreOf (q slots r rw : Nat) : Nat :=
  q * (512 * 544 * 528 * 2228304) * slots * 4 + r * rw * (1792 * 514 * 512 * 2228224)

/-- Lane rate in Gb/s of a RATE code (R71); 0 for an unused tile. -/
def rateOf (code : Nat) : Nat := match code with | 1 => 56 | 2 => 112 | 3 => 224 | _ => 0

/-- h of R165: the low 16 bits of the CRC-32 over SEED, FLOW_HASH, DEST_FA and SRC_FA. -/
def pinHash (seed : Nat) (p : Pkt) : Nat :=
  crc32 (bytesBE seed 2 ++ [p.flowHash] ++ bytesBE p.destFa 4 ++ bytesBE p.srcFa 4) % 65536

/-- The first element whose running sum of `e` exceeds `t`. -/
def pickSum {α : Type} (e : α → Nat) : List α → Nat → Option α
  | [], _ => none
  | c :: cs, t => if t < e c then some c else pickSum e cs (t - e c)

/-- The pinned choice over eligible candidates (R165). -/
def pinPick (seed : Nat) (p : Pkt) (l : List Judged) : Option Judged :=
  let w := (l.map (fun j => j.c.weight)).sum
  if w = 0 then none else pickSum (fun j => j.c.weight) l (pinHash seed p % w)

/-- e(c) of R167. -/
def rollWeight (half : Nat) (j : Judged) : Nat :=
  (j.c.weight * 65536) >>> (min 16 (j.score / (scoreUnit * 2 ^ half)))

/-- The roll (R167) with a 32-bit random value. -/
def rollPick (half rand : Nat) (l : List Judged) : Option Judged :=
  let e := (l.map (rollWeight half)).sum
  pickSum (rollWeight half) l ((rand * e) / 2 ^ 32)

namespace State

/-- Width times lane rate of a port's running link (R137). -/
def squareRate (s : State) (p : Nat) : Nat := s.runningLanes p * rateOf (s.rd (R.LT_TILE_STAT_RATE (p / 16)))

/-- Split point, own group and the group count of the active bank (R158). -/
def split (s : State) : Nat := s.rd R.RTE_CFG_ACT_SPLIT
def ownGroup (s : State) : Nat := s.moduleId / 2 ^ s.split
def groupOf (s : State) (fa : Nat) : Nat := faModule fa / 2 ^ s.split
def localOf (s : State) (fa : Nat) : Nat := faModule fa % 2 ^ s.split

/-- The level class of a packet: 0 D, 1 C, 2 M (R162). -/
def lvlKind (cls : Nat) : Nat := if cls ≤ 2 then 0 else if cls = 3 then 1 else 2
def lvlOut (s : State) (kind p : Nat) : Nat :=
  match kind with
  | 0 => s.rd (R.RTE_PORT_LVL_ACT_DLVL_OUT p)
  | 1 => s.rd (R.RTE_PORT_LVL_ACT_CLVL_OUT p)
  | _ => s.rd (R.RTE_PORT_LVL_ACT_MLVL_OUT p)
def lvlIn (s : State) (kind p : Nat) : Nat :=
  match kind with
  | 0 => s.rd (R.RTE_PORT_LVL_ACT_DLVL_IN p)
  | 1 => s.rd (R.RTE_PORT_LVL_ACT_CLVL_IN p)
  | _ => s.rd (R.RTE_PORT_LVL_ACT_MLVL_IN p)
/-- in_level of R162: 0 for a local input. -/
def inLevel (s : State) (inp cls : Nat) : Nat := if inp < 256 then s.lvlIn (lvlKind cls) inp else 0

/-- A routing entry from its eight register words (R160, R362). -/
def entryOf (w : Nat → Nat) : RteEntry :=
  let cand := fun (base mb i : Nat) =>
    let c := bitsOf (w (base + i / 4)) (16 * (i % 4)) 16
    ({ port := c % 256, weight := bitsOf c 8 4, mbr := bitsOf (w (4 + (mb + i) / 8)) (8 * ((mb + i) % 8)) 4 } : Cand)
  let ctl := bitsOf (w 4) 16 8
  { valid := bitOf ctl 0, nmode := bitsOf ctl 1 2, seed := bitsOf (w 4) 0 16
    slvl := bitsOf (w 4) 24 3, smlvl := bitsOf (w 4) 27 3
    min := (List.range 8).map (cand 0 4), nm := (List.range 8).map (cand 2 12) }
def grpEntry (s : State) (g : Nat) : RteEntry := entryOf (fun w => s.rd (R.RTE_GRP_TBL_ACT g w))
def locEntry (s : State) (k : Nat) : RteEntry := entryOf (fun w => s.rd (R.RTE_LOC_TBL_ACT k w))

/-- Score of a local port (R166); R(o) takes no part while REMOTE_EN is 0. -/
def portScore (s : State) (o : Nat) : Nat :=
  let wr := s.squareRate o
  scoreOf (s.depthAll o) (if wr = 0 then 0 else 1792 / wr)
    (if s.rdB R.RTE_ROLL_CFG_REMOTE_EN then (s.port o).remote else 0) (s.rd R.RTE_ROLL_CFG_RW)

/-! Stack state the lookup reads. -/
def inStack (s : State) : Bool := s.mode == 4
def ownMember (s : State) : Nat := s.rd R.STK_CFG_MEMBER
def peerMember (s : State) (p : Nat) : Nat := s.rd (R.STK_PORT_PEER_PEER (p / 16) (p % 16))
/-- A port that the stack and its routing may use: in UP, and a stack port only with an accepted peer (R361). -/
def portUsable (s : State) (p : Nat) : Bool := s.portUp p && (!s.inStack || !(s.port p).stack || (s.port p).accepted)
/-- The newest digest of a member is at most 4 × DIGEST_US old (R366). -/
def digestFresh (s : State) (m : Nat) : Bool :=
  let t := SMap.get 0 s.digestAt m
  decide (t ≠ 0) && decide (s.now ≤ (t - 1) + 4 * (max 8 (s.rd R.STK_TIMING_DIGEST_US)) * 1000)

/-- Conditions 1 and 2 of R161, and the mask of VLs for condition 3, for a candidate; a remote one by its member's newest
digest (R366). -/
def candUp (s : State) (c : Cand) : Bool :=
  decide (1 ≤ c.weight) &&
  (if s.inStack && c.mbr != s.ownMember then s.digestFresh c.mbr && (SMap.get {} s.digests (256 * c.mbr + c.port)).up
   else s.portUsable c.port)
def candMask (s : State) (c : Cand) : Nat :=
  if s.inStack && c.mbr != s.ownMember then (SMap.get {} s.digests (256 * c.mbr + c.port)).vlMask
  else s.rd (R.LNK_CRED_SHARED_PEER_VL_MASK (c.port / 2) (c.port % 2))
def candScore (s : State) (c : Cand) : Nat :=
  if s.inStack && c.mbr != s.ownMember then
    let d := SMap.get {} s.digests (256 * c.mbr + c.port)
    scoreOf d.q (Config.remoteSlots c.mbr c.port) (if s.rdB R.RTE_ROLL_CFG_REMOTE_EN then d.r else 0)
      (s.rd R.RTE_ROLL_CFG_RW)
  else s.portScore c.port

/-- Judge a candidate for a packet arriving at level `lin` (R161, R163, R164); `lvl` gives the level of its link. -/
def judge (s : State) (p : Pkt) (lin : Nat) (lvl : Cand → Nat) (c : Cand) : Judged :=
  let out := lvl c
  if p.cls ≤ 2 then
    let st := p.stage + (if out < lin then 1 else 0)
    let meets := s.candUp c && (decide (st ≥ 4) || bitOf (s.candMask c) (vlOf p.cls st p.opcode))
    { c := c, meets := meets, elig := meets && decide (st ≤ 3), stage := st, score := s.candScore c }
  else
    let meets := s.candUp c && bitOf (s.candMask c) (vlOf p.cls 0 p.opcode)
    { c := c, meets := meets, elig := meets && decide (out ≥ lin), stage := 0, score := s.candScore c }

/-- The level of a candidate's link: its port's OUT value, or in a stack the entry's SLVL or SMLVL (R364). -/
def lvlFor (s : State) (e : RteEntry) (cls : Nat) (c : Cand) : Nat :=
  if s.inStack then (if cls ≤ 2 then e.slvl else e.smlvl) else s.lvlOut (lvlKind cls) c.port

/-- The choice over eligible candidates: by the pin hash for pinned, Management and Probe packets, else by the roll. -/
def choose (s : State) (p : Pkt) (seed : Nat) (l : List Judged) : State × Option Judged :=
  if p.pin || decide (3 ≤ p.cls) then (s, pinPick seed p l)
  else if l.isEmpty then (s, none)
  else (s.draw, rollPick (s.rd R.RTE_ROLL_CFG_HALF) s.rand l)

/-- Record a routing discard in RTE_DROP_LAST (R180): reason 1 no route, 2 level, 3 tree. -/
def dropLast (s : State) (p : Pkt) (inp reason : Nat) : State :=
  let s := s.wr R.RTE_DROP_LAST_DEST_FA p.destFa
  let s := s.wr R.RTE_DROP_LAST_INPUT inp
  let s := s.wr R.RTE_DROP_LAST_CLASS p.cls
  s.wr R.RTE_DROP_LAST_REASON reason
def noRoute (s : State) (p : Pkt) (inp : Nat) : State := (s.bump R.RTE_DISC_NOROUTE).dropLast p inp 1
/-- A fifth-stage discard (R163). -/
def stageDisc (s : State) (p : Pkt) (inp : Nat) : State :=
  let s := s.bump R.RTE_DISC_STAGE
  let s := s.wr R.RTE_STAGE_LAST_DEST_FA p.destFa
  let s := s.wr R.RTE_STAGE_LAST_INPUT inp
  let s := s.wr R.RTE_STAGE_LAST_CLASS p.cls
  s.fault 678 0x0704 p.destFa 3
/-- A level discard (R164). -/
def levelDisc (s : State) (p : Pkt) (inp : Nat) : State :=
  ((s.bump R.RTE_DISC_LEVEL).dropLast p inp 2).fault 678 0x0705 p.destFa 3

/-- The group Valiant draws (R168): uniform over the groups but the own and the destination's; none below 3 groups. -/
def drawGroup (s : State) (p : Pkt) : State × Option Nat :=
  let n := s.rd R.RTE_CFG_ACT_NGROUPS
  if n < 3 then (s, none)
  else
    let a := min s.ownGroup (s.groupOf p.destFa)
    let b := max s.ownGroup (s.groupOf p.destFa)
    let ex := ((if a = b then [a] else [a, b]).filter (· < n))
    let g := s.rand * (n - ex.length) / 2 ^ 32
    (s.draw, some (ex.foldl (fun g e => if g ≥ e then g + 1 else g) g))

/-- The alternative set A of R168 and its group, for a packet that may go non-minimal. -/
def altSet (s : State) (p : Pkt) (lin : Nat) (e : RteEntry) : State × List Judged × Option Nat :=
  if e.nmode = 1 && !s.inStack then (s, e.nm.map (s.judge p lin (s.lvlFor e p.cls)), none)
  else if e.nmode = 2 then
    match s.drawGroup p with
    | (s, some g) =>
      let eg := s.grpEntry g
      (s, if eg.valid then eg.min.map (s.judge p lin (s.lvlFor eg p.cls)) else [], some g)
    | (s, none) => (s, [], none)
  else (s, [], none)

/-- Least score of some judged candidates. -/
def minScore (l : List Judged) : Option Nat :=
  l.foldl (fun m j => match m with | none => some j.score | some x => some (min x j.score)) none

/-- Whether a packet goes non-minimal (R168): A is not empty, and s_min is infinite or above both bounds. -/
def goesNonmin (s : State) (elig alt : List Judged) : Bool :=
  match minScore elig, minScore alt with
  | _, none => false
  | none, some _ => true
  | some sm, some sa =>
    decide (sm > s.rd R.RTE_ROLL_CFG_NM_THRESH * scoreUnit) &&
      decide (sm > 2 * sa + s.rd R.RTE_ROLL_CFG_NM_BIAS * scoreUnit)

/-- The packet with the route word its stage and VL give (R163). -/
def carried (p : Pkt) (stage : Nat) : Pkt :=
  (p.setRoute 26 2 stage).setRoute 28 4 (vlOf p.cls stage p.opcode)

/-- RTE_STAGE_INC counts the stages that falling levels add; DESIGN CHOICE (log entry 121): not the stage that reaching the intermediate
group adds, which RTE_VIA_REACHED counts. Choose a candidate of entry `e` as the module does where the packet enters it (R163 to R168): the candidate and the
packet with its new route word, or a discard. -/
def chooseEntry (s : State) (p : Pkt) (inp lin : Nat) (e : RteEntry) : State × Option (Judged × Pkt) :=
  let lvl := s.lvlFor e p.cls
  if 3 ≤ p.cls then
    let all := (e.min ++ e.nm).map (s.judge p lin lvl)
    match s.choose p e.seed (all.filter Judged.elig) with
    | (s, some j) => (s, some (j, carried p 0))
    | (s, none) => (if all.any Judged.meets then s.levelDisc p inp else s.noRoute p inp, none)
  else
    let mins := e.min.map (s.judge p lin lvl)
    let may := !p.pin && !p.nonmin && p.stage == 0 && s.rdB R.RTE_ROLL_CFG_NM_EN && (e.nmode == 1 || e.nmode == 2)
    let (s, alt, g) := if may then s.altSet p lin e else (s, [], none)
    let elig := mins.filter Judged.elig
    let altE := alt.filter Judged.elig
    let non := s.goesNonmin elig altE
    match s.choose p e.seed (if non then altE else elig) with
    | (s, some j) =>
      let s := if j.stage > p.stage then s.bump R.RTE_STAGE_INC else s
      let p' := carried p j.stage
      if non then
        let s := s.bump (if e.nmode = 1 then R.RTE_NONMIN_DETOUR else R.RTE_NONMIN_VALIANT)
        let ig := match g with | some g => g | none => s.rd (R.RTE_PORT_LVL_ACT_PEER_GROUP j.c.port)
        (s, some (j, ((p'.setRoute 24 1 1).setRoute 23 1 0).setRoute 8 14 ig))
      else (s, some (j, p'))
    | (s, none) =>
      (if mins.any Judged.meets || alt.any Judged.meets then s.stageDisc p inp else s.noRoute p inp, none)

/-- The entry of R159, with what reaching the intermediate group changes: the packet, lin and the entry; none for an
INT_GROUP that names no entry. `ingress`: the route word may change here (R364). -/
def entryFor (s : State) (p : Pkt) (lin : Nat) (ingress : Bool) : State × Pkt × Nat × Option RteEntry × Bool :=
  let reached := ingress && p.nonmin && !p.via && s.ownGroup == p.intGroup
  if reached && p.stage == 3 then (s, p, 0, none, true)
  else
    let (s, p, lin) := if reached then
        ((s.bump R.RTE_VIA_REACHED), ((p.setRoute 23 1 1).setRoute 26 2 (p.stage + 1)), 0)
      else (s, p, lin)
    if p.nonmin && !p.via then
      (s, p, lin, if p.intGroup ≥ 2 ^ (18 - s.split) then none else some (s.grpEntry p.intGroup), false)
    else if s.groupOf p.destFa = s.ownGroup then (s, p, lin, some (s.locEntry (s.localOf p.destFa)), false)
    else (s, p, lin, some (s.grpEntry (s.groupOf p.destFa)), false)

/-! Rows of the stack table (R363). -/

/-- Candidates of the active stack row toward a member. -/
def rowCands (s : State) (i : Nat) : List Cand :=
  (List.range 8).map (fun k =>
    let c := bitsOf (s.rd (R.STK_ROW_ACT i (k / 4))) (16 * (k % 4)) 16
    { port := c % 256, weight := bitsOf c 8 4, mbr := s.ownMember })

/-- A row candidate toward member i is eligible (R363): in UP, its peer accepted, and, where the peer is another member (a
spine), that spine's port toward i is in UP by the spine's newest digest. -/
def rowElig (s : State) (i : Nat) (c : Cand) : Bool :=
  decide (1 ≤ c.weight) && s.portUp c.port && (s.port c.port).accepted &&
  (let m := s.peerMember c.port
   m == i || (s.digestFresh m && (SMap.get {} s.digests (256 * m + Config.spinePort m i)).up))

/-- Send toward a member on its stack row (R364). -/
def sendRow (s : State) (p : Pkt) (inp seed i : Nat) : State × List OutSel :=
  let l := ((s.rowCands i).filter (s.rowElig i)).map
    (fun c => { c := c, meets := true, elig := true, stage := p.stage, score := s.portScore c.port : Judged })
  match s.choose p seed l with
  | (s, some j) => (s, [{ out := j.c.port, route := p.route }])
  | (s, none) => (s.noRoute p inp, [])

/-- The choice of an egress leaf (R364): a choice whose port has another level than `want` is no longer eligible, and the choice is made
again among the others. -/
def pickLevel : Nat → State → Pkt → RteEntry → Nat → List Judged → State × List OutSel
  | 0, s, p, _, _, _ => ((s.bump R.STK_DISC_LVL).fault 678 0x0705 p.destFa 3, [])
  | n + 1, s, p, e, want, l =>
    match s.choose p e.seed l with
    | (s, some j) =>
      if s.lvlOut (lvlKind p.cls) j.c.port = want then (s, [{ out := j.c.port, route := p.route }])
      else pickLevel n s p e want (l.filter (· != j))
    | (s, none) => ((s.bump R.STK_DISC_LVL).fault 678 0x0705 p.destFa 3, [])

/-- A packet that arrives on a stack port (R364): at a spine, and at the egress leaf. Its route word stays. -/
def stackTransit (s : State) (p : Pkt) (inp : Nat) (e : RteEntry) : State × List OutSel :=
  let vl := p.vl
  let cands := (if 3 ≤ p.cls then e.min ++ e.nm else e.min).filter
    (fun c => s.candUp c && bitOf (s.candMask c) vl)
  let mk := fun (c : Cand) => ({ c := c, meets := true, elig := true, stage := p.stage, score := s.candScore c } : Judged)
  if s.rdB R.STK_CFG_SPINE then
    let reach := fun (m : Nat) => (List.range 256).any (fun q => s.portUp q && (s.port q).accepted && s.peerMember q == m)
    let d := cands.filter (fun c => reach c.mbr)
    let d' := d.filter (fun c => c.mbr != s.peerMember inp)
    match s.choose p e.seed ((if d'.isEmpty then d else d').map mk) with
    | (s, some j) => s.sendRow p inp e.seed j.c.mbr
    | (s, none) => (s.noRoute p inp, [])
  else
    let own := cands.filter (fun c => c.mbr == s.ownMember)
    if own.isEmpty then (s.bump R.STK_DISC_NOEGRESS, [])
    else pickLevel own.length s p e (if p.cls ≤ 2 then e.slvl else e.smlvl) (own.map mk)

/-! Local delivery. -/

/-- A service number is hosted by the engine complex: service 1, and the services of the Opening's SERVICE handlers (R26, R28,
R316). -/
def hostsService (s : State) (n : Nat) : Bool :=
  n == 1 || (match s.opening with | some o => o.handlers.any (fun h => h.hook == 1 && h.service == n) | none => false)

/-- Deliver a packet to local output o unless R142 discards it. -/
def deliverTo (s : State) (p : Pkt) (o : Nat) : State × List OutSel :=
  if o = 256 && s.timeHeld && decide (p.cls ≤ 1) && (!faSvc p.destFa || faService p.destFa == 1) then
    (s.bump R.SWC_AGE_UNCHECKED, [])
  else (s, [{ out := o, route := p.route }])

/-- A Management or Probe packet for the own module, outside a stack (R21). -/
def mgmtLocal (s : State) (p : Pkt) : State × List OutSel :=
  if faSvc p.destFa && faService p.destFa == 0 then s.deliverTo p 258 else (s.bump R.SWC_DISC_NO_SVC, [])

/-- Local delivery in a stack (R365). A deposed master consumes nothing for the stack (R374). -/
def stackLocal (s : State) (p : Pkt) (inp : Nat) : State × List OutSel :=
  let n := faService p.destFa
  let toMaster := fun (s : State) (o : Nat) =>
    if s.rd R.STK_STAT_MASTER_NOW = s.ownMember && !s.rdB R.STK_STAT_DEPOSED then
      (if o = 256 && !s.hostsService n then (s.bump R.SWC_DISC_NO_SVC, []) else s.deliverTo p o)
    else s.sendRow p inp 0 (s.rd R.STK_STAT_MASTER_NOW)
  if !faSvc p.destFa then
    (s.bump (if 4 ≤ p.cls then R.SWC_DISC_NO_SVC else R.SWC_DISC_NO_FUNC), [])
  else if p.cls = 4 && n == 3 then
    let target := if p.opcode = 0x80 then bitsOf p.cmd 8 4 else p.keyId % 16
    if target = 15 then
      -- the peer on the port: a packet from a stack port is for this member; an own HELLO names its port in ARG
      let q := bitsOf p.arg 32 8
      (if inp < 256 then s.deliverTo p 258
       else if s.portUp q && (s.port q).stack then (s, [{ out := q, route := p.route }])
       else (s.noRoute p inp, []))
    else if target = s.ownMember then s.deliverTo p 258
    else s.sendRow p inp 0 target
  else if 4 ≤ p.cls then (if n = 0 then toMaster s 258 else (s.bump R.SWC_DISC_NO_SVC, []))
  else if n = 1 || 0x100 ≤ n then toMaster s 256
  else (s.bump R.SWC_DISC_NO_SVC, [])

/-- Local delivery (R21, R26 to R29). -/
def localDeliver (s : State) (p : Pkt) (inp : Nat) : State × List OutSel :=
  if s.inStack then s.stackLocal p inp
  else if 4 ≤ p.cls then s.mgmtLocal p
  else if faSvc p.destFa then
    (if s.hostsService (faService p.destFa) then s.deliverTo p 256 else (s.bump R.SWC_DISC_NO_SVC, []))
  else if s.mode = 3 then (s.bump R.SWC_DISC_NO_FUNC, [])
  else s.deliverTo p 256

/-! Collective packets (R170, R171). -/

/-- The active tree entry of a TREE number. -/
def treeEntry (s : State) (tree : Nat) : Option Nat :=
  (List.range 4096).find? (fun m =>
    let a := s.rd (R.COL_TREE_A_ACT m)
    bitsOf a 0 16 == tree && bitOf a 16)

def treeDisc (s : State) (p : Pkt) (inp : Nat) : State × List OutSel :=
  ((s.bump R.RTE_DISC_TREE).dropLast p inp 3, [])

/-- One member port of a mask: its copy, or a skip (R171, R361). -/
def memberPort (s : State) (p : Pkt) (lin q : Nat) : State × List OutSel :=
  if !s.portUsable q then (s.bump R.RTE_MC_SKIP, [])
  else if s.lvlOut 1 q < lin then ((s.bump R.RTE_MC_SKIP).fault 678 0x0706 q 3, [])
  else (s, [{ out := q, route := p.route }])

/-- The copies of a down packet (R134, R171, R371). DESIGN CHOICE (log entry 121): a mask entry with VALID 0 discards it as R170 does where
there is no tree. -/
def replicate (s : State) (p : Pkt) (inp m : Nat) : State × List OutSel :=
  let w := fun (i : Nat) => s.rd (R.RTE_MC_TBL_ACT m i)
  if !bitOf (w 4) 7 then s.treeDisc p inp
  else
    let lin := s.inLevel inp 3
    let ports := (List.range 256).filter (fun q => bitOf (w (q / 64)) (q % 64) && q != inp)
    let (s, l) := ports.foldl (fun (acc : State × List OutSel) q =>
      let (s, x) := acc.1.memberPort p lin q
      (s, acc.2 ++ x)) (s, [])
    let members := if s.inStack then (List.range 12).filter (fun i => bitOf (w 4) (16 + i)) else []
    let (s, l) := members.foldl (fun (acc : State × List OutSel) i =>
      match ((acc.1.rowCands i).filter (acc.1.rowElig i)).head? with
      | some c =>
        if c.port = inp then acc
        else
          let (s, x) := acc.1.memberPort p lin c.port
          (s, acc.2 ++ x)
      | none => (acc.1.bump R.RTE_MC_SKIP, acc.2)) (s, l)
    (s, if bitOf (w 4) 4 then l ++ [{ out := 257, route := p.route, bank := s.swc.treeBank }] else l)

/-- A packet of the own rook toward the parent (R170). DESIGN CHOICE (log entry 121): a stack port whose peer is not accepted takes none, and
the packet counts as R170 counts a packet without a tree. -/
def toParent (s : State) (p : Pkt) (inp m : Nat) : State × List OutSel :=
  let q := bitsOf (s.rd (R.COL_TREE_A_ACT m)) 19 8
  if s.inStack && (s.port q).stack && !(s.port q).accepted then s.treeDisc p inp else (s, [{ out := q, route := p.route }])

/-- Where a Collective-class packet goes (R170): an up packet to the own collective complex, or from it to the parent
port; a down packet to its mask. -/
def routeColl (s : State) (p : Pkt) (inp : Nat) : State × List OutSel :=
  match s.treeEntry p.tree with
  | none => s.treeDisc p inp
  | some m =>
    let seated := s.rd (R.COL_TREE_STAT_STATE m) == 3
    if p.opcode = 0x60 ∨ p.opcode = 0x61 then
      if !seated then s.treeDisc p inp
      else if p.opcode = 0x61 then s.replicate p inp m
      else if inp = 257 then s.toParent p inp m
      else if faModule p.destFa = s.moduleId && faSvc p.destFa && faService p.destFa == 2 then
        (s, [{ out := 257, route := p.route, bank := s.swc.treeBank }])
      else s.treeDisc p inp
    else if p.opcode = 0x62 then
      if inp = 257 then s.toParent p inp m
      else (s, [{ out := 257, route := p.route, bank := s.swc.treeBank }])
    else s.replicate p inp m

/-- The one lookup of R157: the outputs of a packet and the route word on each; a discard is counted and leaves none.
`inp` is the logical port, or 256 + local input. -/
def route (s : State) (p : Pkt) (inp : Nat) : State × List OutSel :=
  if p.cls = 3 then s.routeColl p inp
  else if faModule p.destFa = s.moduleId then s.localDeliver p inp
  else if s.mode = 1 && decide (inp < 256) then (s.bump R.SWC_DISC_EP_TRANSIT, [])
  else
    let lin := s.inLevel inp p.cls
    let ingress := !(s.inStack && decide (inp < 256) && (s.port inp).stack)
    match s.entryFor p lin ingress with
    | (s, p, _, none, true) => (s.stageDisc p inp, [])
    | (s, p, _, none, false) => (s.noRoute p inp, [])
    | (s, p, lin, some e, _) =>
      if !e.valid then (s.noRoute p inp, [])
      else if !ingress then s.stackTransit p inp e
      else
        match s.chooseEntry p inp lin e with
        | (s, some (j, p')) =>
          if s.inStack && j.c.mbr != s.ownMember then s.sendRow p' inp e.seed j.c.mbr
          else (s, [{ out := j.c.port, route := p'.route }])
        | (s, none) => (s, [])

/-- A sample of the remote delay of port o (R166): RTE_REMOTE saturates; RSHIFT 0 acts as 1. A window that has ended halves the estimate
first (R457). -/
def remoteSample (s : State) (o code : Nat) : State :=
  let st := (s.port o).decay (s.winIdx 8000)
  let d : Int := cstampDecode code
  let sh := max 1 (s.rd R.RTE_ROLL_CFG_RSHIFT)
  let r := (st.remote : Int) + (d - (st.remote : Int)) / (2 ^ sh : Nat)
  s.setPort o { st with remote := min (2 ^ 20 - 1) r.toNat, remoteHit := true }

end State
end Sys2Proof.Machine
end

