-- ==== Sys2Proof/Machine/SwitchCore.lean ====
section
/-!
DEFINITION. The switch core's commands (chapters 6 and 7): arrival and admission, scheduling and reads, freeing, deadlines,
the auditor, shapers and policers, and the decay of remote delays.
-/
namespace Sys2Proof.Machine
open State

namespace State

/-- MEANx in its range (R463). -/
def sampleMean (v : Nat) : Nat := if 8 ≤ v ∧ v ≤ 24 then v else 24

/-- The packet sampler considers a packet; `t0` is its stamp at its first stamping point (R458, R463). -/
def samplePkt (s : State) (p : Pkt) (inp pid t0 : Nat) : State :=
  if s.rdB R.PMON_SAMPLE_CFG_PKT_EN && bitOf (s.rd R.PMON_SAMPLE_CFG_CLASS_MASK) p.cls then
    let hit := decide (s.rand < 2 ^ (32 - sampleMean (s.rd R.PMON_SAMPLE_CFG_MEAN_PKT)))
    let s := s.draw
    if hit then
      if s.pmon.pkts.length ≥ 64 then s.bump R.PMON_SAMPLE_SKIP
      else (s.withPmon { s.pmon with pkts := s.pmon.pkts ++ [{
        id := pid, flags := b2n s.timeValid, cls := p.cls + 16 * p.vl, a := p.destFa, b := p.srcFa, c := inp, t0 := t0
        stages := [none, none, none, none, none, none, none], psn := p.psn }] })
    else s
  else s

/-- Note a tagged packet's output and whether it is multicast (R464). -/
def noteOutput (s : State) (pid : Nat) (l : List OutSel) : State :=
  match l with
  | [] => s
  | x :: rest => (s.withPmon { s.pmon with pkts := s.pmon.pkts.map (fun t =>
      if t.id == pid then { t with c := setBits t.c 16 9 x.out, flags := t.flags ||| (2 * b2n (!rest.isEmpty)) } else t) })

/-- The one-time decision on an arriving or presented packet, stamped `ns` and `now` in fabric and local time (R54, R140, R157, R458): its
outputs, or a counted discard. DESIGN CHOICE (log entry 121): an acknowledgement that is discarded here gives R166 no sample. -/
def decideAt (s : State) (p : Pkt) (count inp ns now : Nat) : State × List OutSel :=
  if !headerOk p count then (s.bump R.SWC_DISC_HDR, [])
  else
    match s.ageCheckAt ns now p with
    | some c => (s.bump c, [])
    | none =>
      let s := if inp < 256 && (p.opcode == 0x40 || p.opcode == 0x41) then s.remoteSample inp p.echoCstamp else s
      s.route p inp

/-- The decision on a packet stamped now. -/
def decideOut (s : State) (p : Pkt) (count inp : Nat) : State × List OutSel := s.decideAt p count inp s.ns s.now

end State

/-- HEADER_SQUARE_ARRIVE (R54, R129, R131, R134, R140, R157): the header square at the head of a port's receive stream is
checked, stamped and routed once, and the packet is stored and queued. A discarded packet is stored without an output, so
that its squares are freed with their credits. -/
def execHeaderSquareArrive (p : Fin 256) (s : State) : Out :=
  let st := s.port p
  .next (match st.rx, st.rxCur with
    | q :: qs, none =>
      if q.hdr then
        let pkt : Pkt := { hdr := q.sq, pay := [] }
        let count := announced pkt
        let pid := s.nextPid
        let s := s.samplePkt pkt p pid q.fstamp
        let whole := q.abort && count == 1
        let (s, outs) := if whole then (s.bump (R.LNK_ABORT_PKTS (p / 2) (p % 2)), []) else s.decideAt pkt count p q.fstamp q.stamp
        let s := (s.stampTagged pid 0).noteOutput pid outs
        let tag : SqTag := { inp := p, vl := pkt.vl, shared := q.shared, gen := st.gen, region := .link }
        let (s, a) := s.allocate none tag
        let (s, _) := s.store { pkt := pkt, inp := p, vl := pkt.vl, count := count, written := 1, addr := [a]
                                gen := st.gen, region := .link, freed := 0, outs := [], dead := outs.isEmpty, cut := false, aborted := q.abort
                                stamp := q.stamp, fstamp := q.fstamp, wroteAt := s.now, fn := none, job := none, dep := none }
        let s := (s.stampTagged pid 1).enqueue pid outs
        let s := if outs.isEmpty then s.endTagged pid 4 else s
        let s := s.modPort p (fun st => { st with rx := qs, rxCur := if count ≤ 1 then none else some { pid := pid, left := count - 1 } })
        drainRx (qs.length + 1) s p
      else s
    | _, _ => s)

namespace State

/-- The exponent of ALPHA or BETA (R156): two's complement, −4 to 3; other values act as 3. Offset by 4. -/
def expo4 (v : Nat) : Nat := let i := signedOf 4 v; if i < -4 ∨ i > 3 then 7 else (i + 4).toNat

/-- 2^(exponent) · F compared with a number of squares, exactly: 16 · n > 2^(exponent + 4) · F. -/
def above (n e f : Nat) : Bool := decide (n * 16 > f * 2 ^ e)

/-- depth(o, v) + n is above max(DEPTH_MIN, β · F) (R132). -/
def tooDeep (s : State) (o v n : Nat) : Bool :=
  let d := s.depth o v + n
  decide (d > s.rd (R.SWC_OUT_CFG_DEPTH_MIN o)) && above d (expo4 (s.rd (R.SWC_OUT_CFG_BETA o))) (s.rd R.SWC_BUF_STAT_DYN_FREE)

/-- The admission test of R132 for a packet of n squares of local input i on VL v: its region, with the region's
accounts, or none when it waits. -/
def admitTest (s : State) (i v n : Nat) (outs : List OutSel) : Option (State × Region) :=
  if outs.any (fun x => let ov := bitsOf x.route 28 4; ov != 0 && s.tooDeep x.out ov n) then none
  else if v = 0 ∧ s.rd (R.SWC_LOCAL_OCC_VL0_USED i) + n ≤ 8 then
    some (s.wr (R.SWC_LOCAL_OCC_VL0_USED i) (s.rd (R.SWC_LOCAL_OCC_VL0_USED i) + n), .vl0)
  else if v ≠ 0 ∧ SMap.get 0 s.guarUsed (i * 16 + v) + n ≤ s.rd (R.SWC_LOCAL_CFG_GUAR_VL i) then
    let s := s.withGuarUsed (SMap.set 0 s.guarUsed (i * 16 + v) (SMap.get 0 s.guarUsed (i * 16 + v) + n))
    some (s.wr (R.SWC_LOCAL_OCC_GUAR_USED i) (s.rd (R.SWC_LOCAL_OCC_GUAR_USED i) + n), .guar)
  else
    let f := s.rd R.SWC_BUF_STAT_DYN_FREE
    let d := s.rd (R.SWC_LOCAL_OCC_DYN_USED i) + n
    if !above d (expo4 (s.rd (R.SWC_LOCAL_CFG_ALPHA i))) f then
      some ((s.wr (R.SWC_LOCAL_OCC_DYN_USED i) d).wr R.SWC_BUF_STAT_DYN_FREE (f - n), .dyn)
    else none

/-- Mark a function as affected in the 2 µs window that is in progress when its packet waits at a congested input (R181, R457). -/
def noteAffected (s : State) (f : Option Nat) : State :=
  match f with
  | some f =>
    let w := s.winIdx 2000
    if w ≠ s.time.throttleWin then
      (if s.cgc.affLate.contains (w, f) then s else s.withCgc { s.cgc with affLate := s.cgc.affLate ++ [(w, f)] })
    else if s.cgc.affected.contains f then s else (s.withCgc { s.cgc with affected := f :: s.cgc.affected })
  | none => s

/-- The packets that wait for admission at a local input. -/
def waitingAt (s : State) (i : Nat) : List LocalPkt :=
  (List.range 16).flatMap (fun v => match s.localQ i v with
    | x :: rest => if x.waiting then x :: rest else []
    | [] => [])

/-- Congestion of a local input follows its DYN_USED; while it is congested, the functions whose packets wait there are affected
(R181). -/
def noteCongestion (s : State) (i : Nat) : State :=
  let on := s.rd R.CGC_THR_CFG_OCC_ON
  let off := min on (s.rd R.CGC_THR_CFG_OCC_OFF)
  let d := s.rd (R.SWC_LOCAL_OCC_DYN_USED i)
  let c := s.cgc.congIn
  let c := if d ≥ on then (if c.contains i then c else i :: c) else if d < off then c.filter (· != i) else c
  let s := s.withCgc { s.cgc with congIn := c }
  if c.contains i then (s.waitingAt i).foldl (fun s x => s.noteAffected x.fn) s else s

/-- SWC_LOCAL_OCC.WAITING counts the packets that wait for admission: a waiting head and those behind it (R132), saturating. -/
def noteWaiting (s : State) (i : Nat) : State :=
  let n := (s.waitingAt i).length
  s.wr (R.SWC_LOCAL_OCC_WAITING i) (min 65535 n)

/-- Packets of function f that a policer holds, saturating. -/
def noteHeld (s : State) (f : Nat) : State :=
  let n := ((List.range 7).map (fun i => ((List.range 16).map (fun v =>
    ((s.localQ i v).filter (fun x => x.held && x.fn == some f)).length)).sum)).sum
  s.wr (R.SWC_POL_TOK_HELD f) (min 65535 n)

/-- A pawn's outbound queue: the packets it has built that admission has not taken (R181). -/
def pawnQueue (s : State) (n : Nat) : List LocalPkt :=
  (List.range 7).flatMap (fun i => (List.range 16).flatMap (fun v => (s.localQ i v).filter (fun x => x.pawn == some n)))

/-- Congestion of a pawn follows the packets it has built that admission has not taken; while it is congested, the
functions that own them are affected (R181). -/
def notePawn (s : State) (pawn : Option Nat) : State :=
  match pawn with
  | none => s
  | some n =>
    let mine := s.pawnQueue n
    let on := s.rd R.CGC_THR_CFG_PQ_ON
    let off := min on (s.rd R.CGC_THR_CFG_PQ_OFF)
    let c := s.cgc.congPawn
    let c := if on ≤ mine.length then (if c.contains n then c else n :: c)
      else if mine.length < off then c.filter (· != n) else c
    let s := s.withCgc { s.cgc with congPawn := c }
    if c.contains n then mine.foldl (fun s x => s.noteAffected x.fn) s else s

/-- Hand a built packet to a local input (R132). -/
def build (s : State) (i : Nat) (p : Pkt) (fn job pawn dep : Option Nat) (yellow : Bool) (skip : Option Nat := none) : State :=
  (((s.setLocalQ i p.vl (s.localQ i p.vl ++ [{
    pkt := p, fn := fn, yellow := yellow, pawn := pawn, job := job, dep := dep, waiting := false, held := false, outs := []
    stamp := 0, skip := skip }])).noteWaiting i).noteCongestion i).notePawn pawn

/-! Management packets (R193, R196) and the admission of a probe (R199). -/

/-- The service that stack control or management uses on this module: 3 under a stack-control slot. -/
def slotService (s : State) (k : Nat) : Nat := if s.rd (R.CGC_KEY_SLOT_ROLE k) = 1 then 3 else 0

/-- Send a management packet under key slot k, with the slot's next PSN; answers that PSN. DESIGN CHOICE (log entry 110): PIN is 1. -/
def sendMgmt (s : State) (op k dest cmd arg len : Nat) (pay : List Square) : State × Nat :=
  let psn := s.rd (R.CGC_KEY_PSN_TX_PSN k)
  let s := s.wr (R.CGC_KEY_PSN_TX_PSN k) (psn + 1)
  let area := mkArea [(32, 2, k), (34, 2, cmd), (36, 4, len), (40, 8, arg)]
  let p := mkPkt { dest := dest, src := faOfSvc s.moduleId (s.slotService k), opcode := op, pin := true, psn := psn } area pay
  (s.build 2 p none none none none false, psn)

/-- Answer a request (R196). -/
def respond (s : State) (r : MgmtReq) (result : Nat) (value : Option Nat := none) : State :=
  let pay := match value with | some v => [sqOfBytes (bytesLE v 8)] | none => []
  (s.sendMgmt 0x81 r.slot r.src r.cmd (r.psn * 2 ^ 32 + result) (match value with | some _ => 8 | none => 0) pay).1

/-- Remove the request with this slot and PSN. -/
def dropReq (s : State) (r : MgmtReq) : State :=
  (s.withCgc { s.cgc with reqs := s.cgc.reqs.filter (fun x => !(x.slot == r.slot && x.psn == r.psn)) })

/-- The mark that the PROBE of a command carries to its admission: of a CGC_CMD write, or of the request of a slot and PSN. -/
def probeMark : Option MgmtReq → Nat
  | none => 2 ^ 98
  | some r => 2 ^ 97 + r.slot * 2 ^ 32 + r.psn

/-- The PROBE of a command has been admitted: the command returns OK (R199). One that the header decision discards ends its command in
the same way (DESIGN CHOICE, log entry 111). -/
def probeAdmitted (s : State) (x : LocalPkt) : State :=
  if x.dep = some (probeMark none) then (s.wr R.CGC_CMD_STAT_BUSY 0).wr R.CGC_CMD_STAT_RESULT 0
  else
    match s.cgc.reqs.find? (fun r => r.begun && x.dep == some (probeMark (some r))) with
    | some r => (s.dropReq r).respond r 0
    | none => s

/-- Run the admission test for the head packet of (i, v): it is stored and queued, or waits (R132). -/
def tryAdmit (s : State) (i v : Nat) (x : LocalPkt) (rest : List LocalPkt) : State :=
  match s.admitTest i v x.pkt.squares x.outs with
  | some (s, reg) =>
    let pid := s.nextPid
    let s := s.samplePkt x.pkt (256 + i) pid x.fstamp
    let s := (s.stampTagged pid 0).noteOutput pid x.outs
    let n := x.pkt.squares
    let s := match x.dep with | some d => s.stampWork (d / 2 ^ 32) 1 | none => s
    let (s, l) := allocateN n s none { inp := 256 + i, vl := v, shared := false, gen := 0, region := reg }
    let (s, _) := s.store { pkt := x.pkt, inp := 256 + i, vl := v, count := n, written := n, addr := l, gen := 0
                            region := reg, freed := 0, outs := [], dead := false, cut := false, aborted := false
                            stamp := x.stamp, fstamp := x.fstamp, wroteAt := s.now
                            fn := x.fn, job := x.job, dep := if x.pkt.opcode = 0xA0 then none else x.dep }
    let s := (s.stampTagged pid 1).enqueue pid x.outs
    ((((s.setLocalQ i v rest).noteCongestion i).noteWaiting i).notePawn x.pawn).probeAdmitted x
  | none =>
    ((s.setLocalQ i v ({ x with waiting := true } :: rest)).noteCongestion i).noteWaiting i

/-! Policers (R153, R154). Buckets are held in 1/1,750,000 square, so that one switch-core cycle adds RATE units. -/

def polUnit : Nat := 1750000

def burst (v : Nat) : Nat := max 65 v

/-- colour(n) of R154: 0 green, 1 yellow, 2 red, with the debit. -/
def colour (s : State) (f n : Nat) (yellow : Bool) : State × Nat :=
  let b := SMap.get {} s.pol f
  let set := fun (s : State) (b : PolSt) =>
    let s := s.withPol (SMap.set {} s.pol f b)
    (s.wr (R.SWC_POL_TOK_C f) (b.c / polUnit)).wr (R.SWC_POL_TOK_P f) (b.p / polUnit)
  if b.p < n * polUnit then (s, 2)
  else if (s.rdB (R.SWC_POL_CTL_ACT_AWARE f) && yellow) || decide (b.c < n * polUnit) then
    (set s { b with p := b.p - n * polUnit }, 1)
  else (set s { c := b.c - n * polUnit, p := b.p - n * polUnit }, 0)

/-- The action of a colour: 0 PASS, 1 HOLD, 2 DROP; 3 acts as 1. -/
def colourAction (s : State) (f col : Nat) : Nat :=
  let a := s.rd (match col with
    | 0 => R.SWC_POL_CTL_ACT_ACT_G f | 1 => R.SWC_POL_CTL_ACT_ACT_Y f | _ => R.SWC_POL_CTL_ACT_ACT_R f)
  if a = 3 then 1 else a

/-- Police a packet at its admission: the state and the action. A held evaluation debits nothing. -/
def police (s : State) (x : LocalPkt) : State × Nat :=
  match x.fn with
  | some f =>
    if decide (x.pkt.cls ≤ 1) && s.rdB (R.SWC_POL_CTL_ACT_EN f) then
      let (s', col) := s.colour f x.pkt.squares x.yellow
      let a := s.colourAction f col
      if a = 1 then (s, 1) else (s', a)
    else (s, 0)
  | none => (s, 0)

/-- Another packet of function f is held by the policer: Request and Forward packets of f wait behind it (R154). -/
def heldBehind (s : State) (x : LocalPkt) : Bool :=
  match x.fn with
  | some f => decide (x.pkt.cls ≤ 1) && (List.range 7).any (fun i => (List.range 16).any (fun v =>
      (s.localQ i v).any (fun y => y.held && y.fn == some f)))
  | none => false

/-- Packets that an endpoint does not build while fabric time is not valid (R142): Request, Forward and Reply class, and
rook up packets. They wait here unbuilt, and take their ORIGIN when they are presented. -/
def holdsBack (p : Pkt) : Bool := decide (p.cls ≤ 2) || p.opcode == 0x60

/-- The key of a key slot (R193). -/
def slotKey (s : State) (k : Nat) : Nat :=
  match s.opening with
  | some o => (match o.keySlots[k]? with | some x => x.key | none => 0)
  | none => 0

/-- A LOCK_REQ, of an entry or a purge, takes its ORIGIN now: the start of its retry interval (R354). -/
def noteOrigin (s : State) (x : LocalPkt) : State :=
  match x.dep with
  | some d =>
    if x.pkt.opcode = 0x09 then
      match (SMap.get none s.work (d / 2 ^ 32) : Option WorkEnt) with
      | some e => (s.withWork (SMap.set none s.work (d / 2 ^ 32) (some { e with lastTx := s.now, asked := true })))
      | none => s
    else s
  | none =>
    if x.pkt.opcode = 0x09 then
      s.withLck { s.lck with purges := s.lck.purges.map (fun (q : Purge) =>
        if q.built && q.fa == x.pkt.srcFa && q.reqId == x.pkt.reqId then { q with built := false, due := s.now + 2 * s.reqAge } else q) }
    else s

/-- What is written at the hand-over: ORIGIN (R67), the tag of a management packet (R194), TX_TIME of a PROBE (R199), CRC. -/
def sealPkt (s : State) (p : Pkt) : Pkt :=
  if p.cls = 4 then p.sealMgmt (s.slotKey p.keyId) (originOf s.ns)
  else if p.opcode = 0xA0 then (p.u 40 8 s.ns).seal (originOf s.ns)
  else p.seal (originOf s.ns)

/-- The one lookup of a local packet: one that was built before a strobe of the tree tables reads the bank that was active then (R328, R389;
log entry 125). -/
def decideLocal (s : State) (x : LocalPkt) (p : Pkt) (inp : Nat) : State × List OutSel :=
  let b := x.bank.getD s.swc.treeBank
  if b = s.swc.treeBank then s.decideOut p p.squares inp
  else
    let (s, outs) := (s.swapBanks [3]).decideOut p p.squares inp
    (s.swapBanks [3], outs.map (fun o => { o with bank := b }))

/-- Present the head packet of local input i on VL v (R132): stamped (R67), sealed, checked, routed, policed, tested. -/
def present (s : State) (i v : Nat) (x : LocalPkt) (rest : List LocalPkt) : State :=
  if x.waiting || x.held || s.heldBehind x || (s.timeHeld && holdsBack x.pkt) then s
  else
    let pkt := s.sealPkt x.pkt
    let (s, outs) := s.decideLocal x pkt (256 + i)
    let outs := outs.filter (fun o => some o.out != x.skip)
    let x := { x with pkt := pkt, outs := outs, stamp := s.now, fstamp := s.ns }
    let s := s.noteOrigin x
    if outs.isEmpty then ((s.setLocalQ i v rest).notePawn x.pawn).probeAdmitted x
    else
      match s.police x with
      | (s, 0) => s.tryAdmit i v x rest
      | (s, 1) =>
        let s := (s.bumpFnO x.fn 12 1).setLocalQ i v ({ x with held := true } :: rest)
        match x.fn with | some f => s.noteHeld f | none => s
      | (s, _) => (((s.bump R.SWC_DISC_POLICE).bumpFnO x.fn 12 1).setLocalQ i v rest).notePawn x.pawn

end State

/-- ADMIT (R132). -/
def execAdmit (i : Fin 7) (vl : Fin 16) (s : State) : Out :=
  .next (match s.localQ i vl with
    | x :: rest => s.present i vl x rest
    | [] => s)

/-- ADMIT_RETRY (R132): the waiting head is tested again. -/
def execAdmitRetry (i : Fin 7) (vl : Fin 16) (s : State) : Out :=
  .next (match s.localQ i vl with
    | x :: rest => if x.waiting then s.tryAdmit i vl x rest else s
    | [] => s)

/-- SQUARE_FREE (R119, R129, R133, R134): one square of a packet is freed. -/
def execSquareFree (pid : BitVec 32) (s : State) : Out :=
  let i := match s.bufPkt pid.toNat with | some b => b.inp | none => 0
  let s := s.freeSquare pid.toNat
  .next (if 256 ≤ i then s.noteCongestion (i - 256) else s)

namespace State

/-- A cut-through read may begin before the last square is written (R137); a packet whose squares are all held, or that
will get no more, may always be read. -/
def mayRead (s : State) (o : Nat) (b : BufPkt) : Bool :=
  decide (b.written = b.count) || b.cut ||
    (decide (o < 256) && decide (b.inp < 256) && decide (s.squareRate o ≤ s.squareRate b.inp))

/-- The pool that can back a packet of n squares on VL v at a fabric port: shared, dedicated or none (R118); none on a VL outside the
peer's VL_MASK (R117). -/
def creditPool (s : State) (p v n : Nat) : Option Bool :=
  let st := s.port p
  if !bitOf (s.lnkPeerMask p) v then none
  else if s.rd (lnkAvail p) - SMap.get 0 st.reserved 16 ≥ n then some true
  else if s.rd (lnkDed p v) - SMap.get 0 st.reserved v ≥ n then some false
  else none

/-- The pawn a Request or Forward packet goes to: its connection's, or the one a new connection would get (R315); a service pawn for a
packet to a service (R26; DESIGN CHOICE: the lowest active one, log entry 15). -/
def pawnFor (s : State) (p : Pkt) : Nat :=
  if faSvc p.destFa then s.servicePawn
  else match s.conn (cidOf (faFn p.destFa) p.srcFa p.conn) with
  | some c => c.pawn
  | none => (s.choosePawn s.pawnConns).getD 0

/-- The engine complex's input queue of the packet's class and pawn is full (R21). -/
def engFull (s : State) (p : Pkt) : Bool :=
  let q := (if p.cls = 0 then s.engReq else s.engFwd).filter (fun x => s.pawnFor x == s.pawnFor p)
  decide (p.cls ≤ 1) && !q.isEmpty && decide (Config.engQueue ≤ q.length)

/-- The head of queue (o, v) is eligible (R149). A local consumer takes every packet but a Request or Forward packet whose queue is full
(R21, R175, R176). -/
def headReady (s : State) (o v : Nat) : Option (QEntry × BufPkt) :=
  match s.queue o v with
  | e :: _ =>
    match s.bufPkt e.pid with
    | some b =>
      let age := (s.ageCheck b.pkt).isNone && !s.residenceOver b
      let ok := if o < 256 then (s.creditPool o v b.count).isSome else o != 256 || !s.engFull b.pkt
      if !e.reading && age && ok && s.mayRead o b then some (e, b) else none
    | none => none
  | [] => none

/-- Traffic class of a VL (R149, R155). -/
def tcOf (s : State) (v : Nat) : Nat := s.rd (R.SWC_VL_TC_ACT_TC v)

/-- The next VL of a traffic class with an eligible head, round robin from its position (R149). -/
def classHead (s : State) (o t : Nat) : Option Nat :=
  let sc := SMap.get {} s.sched o
  let from_ := SMap.get 0 sc.nextVl t
  let shaped := decide (o < 256) && s.rdB (R.SWC_SHP_ACT_EN o t) && decide (signedOf 32 (s.rd (R.SWC_SHP_CRED_CREDIT o t)) < 0)
  if shaped then none
  else ((List.range 16).map (fun i => (from_ + i) % 16)).find? (fun v => v != 0 && s.tcOf v == t && (s.headReady o v).isSome)

/-- Deficit-weighted round robin over the traffic classes (R150): the VL that sends next. DESIGN CHOICE (log entry 121): a deficit beyond the
16 bits of DEFICIT wraps. -/
def dwrr : Nat → State → Nat → State × Option Nat
  | 0, s, _ => (s, none)
  | fuel + 1, s, o =>
    let sc := SMap.get {} s.sched o
    let t := sc.turn
    let next := s.withSched (SMap.set {} s.sched o { sc with turn := (t + 1) % 4, inTurn := false })
    match s.classHead o t with
    | none => dwrr fuel (next.wr (R.SWC_DWRR_DEFICIT o t) 0) o
    | some v =>
      let q := max 65 (s.rd (R.SWC_DWRR_QUANTUM o t))
      let d := if sc.inTurn then s.rd (R.SWC_DWRR_DEFICIT o t) else s.rd (R.SWC_DWRR_DEFICIT o t) + q
      let n := match s.headReady o v with | some (_, b) => b.count | none => 0
      if n ≤ d then
        let s := s.wr (R.SWC_DWRR_DEFICIT o t) (d - n)
        ((s.withSched (SMap.set {} s.sched o { sc with inTurn := true, nextVl := SMap.set 0 sc.nextVl t ((v + 1) % 16) })), some v)
      else dwrr fuel (next.wr (R.SWC_DWRR_DEFICIT o t) d) o

/-- What output o would start now (R149): VL0 first, under its ceiling at fabric ports (R151), then its traffic classes; and the state
after that choice. -/
def select (s : State) (o : Nat) : State × Option Nat :=
  if o < 256 && (!s.portUp o || (s.port o).curTx.isSome) || 256 ≤ o && s.outputDown o then (s, none)
  else if (s.headReady o 0).isSome && (decide (256 ≤ o) || decide (0 ≤ (s.port o).vl0Cred)) then (s, some 0)
  else dwrr 8 s o

/-- The header square that output o would read now, if any. -/
def wants (s : State) (o : Nat) : Option Nat :=
  match s.select o with
  | (_, some v) => (s.headReady o v).bind (fun x => x.2.addr.head?)
  | (_, none) => none

/-- Place of output o in this cycle's order; the order rotates by one output each cycle (R127). -/
def readRank (s : State) (o : Nat) : Nat := (o + 259 - s.cycle % 259) % 259

/-- Output o waits for the next cycle (R127): the bank of the square it would read has given another square in this cycle, or an output
before it in this cycle's order asks for another square of that bank. -/
def readWaits (s : State) (o : Nat) : Bool :=
  match s.wants o with
  | none => false
  | some a =>
    s.swc.reads.any (fun x => x.1 == s.cycle && bankClash a x.2) ||
      (List.range 259).any (fun q => decide (s.readRank q < s.readRank o) && (match s.wants q with | some b => bankClash a b | none => false))

/-- A read takes the packet's squares from their banks, from this cycle on. -/
def noteRead (s : State) (b : BufPkt) : State := s.noteReads b.addr

/-- Begin the read of the head of (o, v) at a fabric port: credits are reserved (R118), CSTAMP is raised (R135) and the
squares held go to the lane tile. -/
def startFabric (s : State) (p v : Nat) (e : QEntry) (b : BufPkt) (tc : Nat) : State :=
  let shared := (s.creditPool p v b.count).getD false
  let key := if shared then 16 else v
  let s := s.modPort p (fun st => { st with reserved := SMap.set 0 st.reserved key (SMap.get 0 st.reserved key + b.count)
                                            curTx := some (e.pid, 16 * p + v), curTc := tc })
  let s := if b.written < b.count && !b.cut then s.bump R.SWC_CUT_THROUGH else s
  let route := s.readRoute b e.route
  let s := s.setQueue p v ((s.queue p v).map (fun x =>
    if x.pid == e.pid then { x with reading := true, shared := shared, route := route } else x))
  ((s.stampTagged e.pid 2).stampTagged e.pid 3).pushTx p

/-- The arbiter island takes a packet into its request queue or its probe queue of 64 entries, or discards and counts it
(R176, R196, R198). -/
def toArbiter (s : State) (p : Pkt) (inp st : Nat) : State :=
  let probe := fun (q : Pkt × Nat × Nat) => q.1.cls == 5
  if p.cls = 5 then
    if 64 ≤ (s.arbIn.filter probe).length then s.bump R.CGC_PROBE_DISC else (s.withArbIn (s.arbIn ++ [(p, inp, st)]))
  else if 64 ≤ (s.arbIn.filter (fun q => !probe q)).length + s.cgc.reqs.length then s.bump R.CGC_MGMT_QFULL
  else (s.withArbIn (s.arbIn ++ [(p, inp, st)]))

/-- Deliver the head of (o, v) whole to a local consumer (R21, R170); a packet marked aborted is dropped. A stopped complex is woken and
takes the packet (R13). Delivery is the departure of a packet that stays in the module (log entry 11). -/
def deliver (s : State) (o v : Nat) (e : QEntry) (b : BufPkt) : State :=
  let p := s.readCopy b e.route
  let s := (((s.stampTagged e.pid 2).stampTagged e.pid 3).stampTagged e.pid 4).endTagged e.pid 0
  let s := s.countTx e.pid
  let s := s.removeEntry (16 * o + v) e.pid
  let s := match b.dep with | some d => (s.withDepartures (s.departures ++ [(o, d)])) | none => s
  if b.cut || b.aborted then s
  else if o = 258 then s.toArbiter p b.inp b.fstamp
  else if o = 257 then
    ((s.wake 18).withColIn (s.colIn ++ [{ pkt := p, inp := b.inp, bank := e.bank, stamp := b.stamp, fstamp := b.fstamp }]))
  else
    let s := s.wake 17
    if p.cls = 0 then (s.withEngReq (s.engReq ++ [p]))
    else if p.cls = 1 then (s.withEngFwd (s.engFwd ++ [p]))
    else (s.withEngRep (s.engRep ++ [p]))

/-- Start the head of (o, v); tc is its traffic class, 4 for VL0. -/
def startRead (s : State) (o v tc : Nat) : State :=
  match s.headReady o v with
  | some (e, b) => (if o < 256 then s.startFabric o v e b tc else s.deliver o v e b).noteRead b
  | none => s

end State

/-- OUTPUT_SCHEDULE (R127, R149, R150): an output that can start a packet starts the one it selects, unless its bank gives another square
in this cycle. -/
def execOutputSchedule (o : Fin 259) (s : State) : Out :=
  .next (if s.readWaits o.val then s
    else match s.select o.val with
      | (t, some v) => t.startRead o.val v (if v = 0 then 4 else t.tcOf v)
      | (t, none) => t)

/-- CUT_THROUGH_RESUME (R138): the squares written since go to the lane tile. -/
def execCutThroughResume (p : Fin 256) (s : State) : Out := .next (s.resumeTx p)

/-- ENTRY_DEADLINE (R140, R141): the entry's age or residence deadline has passed and its read has not begun. -/
def execEntryDeadline (o : Fin 259) (vl : Fin 16) (pid : BitVec 32) (s : State) : Out :=
  .next (match (s.queue o vl).find? (fun e => e.pid == pid.toNat), s.bufPkt pid.toNat with
    | some e, some b =>
      if !e.reading && (s.residenceOver b || (s.ageCheck b.pkt) == some R.SWC_DISC_AGE) then
        (s.endTagged pid.toNat 4).discardEntry (16 * o + vl) pid.toNat R.SWC_DISC_AGE
      else s
    | _, _ => s)

namespace State

/-- Report square a in SWC_AUDIT_LAST and to the collector (R148): kind 1 leaked, 2 free and referenced, 3 referenced twice. -/
def auditFind (s : State) (a kind : Nat) : State :=
  let n := s.shownAddr a
  let s := (s.wr R.SWC_AUDIT_LAST_ADDR n).wr R.SWC_AUDIT_LAST_KIND kind
  if kind = 1 then (s.bump R.SWC_AUDIT_LEAK).fault 678 0x0701 n else (s.bump R.SWC_AUDIT_DOUBLE).fault 678 0x0702 n

/-- The auditor discards a packet at every output whose read has not begun (R143, R148). -/
def auditDiscard (s : State) (pid : Nat) : State :=
  match s.bufPkt pid with
  | some b =>
    let s := b.outs.foldl (fun s key =>
      match (s.queue (key / 16) (key % 16)).find? (fun e => e.pid == pid) with
      | some e => if e.reading then s else s.removeEntry key pid
      | none => s) s
    ((s.endTagged pid 4).bump R.SWC_DISC_AUDIT)
  | none => s

/-- The auditor's map (R147): the squares that descriptors refer to and have not freed, with the packets that refer to them. -/
def auditMap (s : State) : List (Nat × Nat) :=
  s.buf.flatMap (fun e => match e.2 with | some b => (b.addr.drop b.freed).map (fun a => (a, e.1)) | none => [])

/-- What has gone wrong in the buffer's own records. -/
def upset (s : State) (u : Upset) : State :=
  match u with
  | .redirect pid i a =>
    match s.bufPkt pid.toNat, s.squareAt a.toNat with
    | some b, some x => s.setBuf pid.toNat (some { b with addr := b.addr.set i.val x })
    | _, _ => s
  | .freed a => match s.squareAt a.toNat with | some x => s.setTag x none | none => s

/-- A square that a descriptor refers to and that stands on the free list leaves it (R148), with the tag its descriptor gives. DESIGN CHOICE
(log entry 121): its SHARED bit is 0. -/
def takeBack (s : State) (a pid : Nat) : State :=
  match s.bufPkt pid with
  | some b => s.setTag a (some { inp := b.inp, vl := b.vl, shared := false, gen := b.gen, region := b.region })
  | none => s

/-- A leaked square (R148): reported; returned when the last pass found it leaked too and RETURN_EN is 1. -/
def auditLeak (s : State) (prev : List Nat) (a : Nat) : State :=
  let s := s.auditFind a 1
  if prev.contains a && s.rdB R.SWC_AUDIT_CTL_RETURN_EN then (s.freeAddr a).bump R.SWC_AUDIT_RETURNED
  else s.withSwc { s.swc with leaked := s.swc.leaked ++ [a] }

/-- One pass compared and acted on (R147, R148). A square allocated or freed during the pass counts as in use. -/
def audit (s : State) : State :=
  let m := s.auditMap
  let quiet := fun (a : Nat) => !s.swc.touched.contains a
  let lost := (s.swc.tags.map Prod.fst).filter (fun a => quiet a && !m.any (fun x => x.1 == a))
  let free := m.filter (fun x => quiet x.1 && (s.tagOf x.1).isNone)
  let twice := m.filter (fun x => m.any (fun y => y.1 == x.1 && y.2 != x.2))
  let prev := s.swc.leaked
  let s := s.withSwc { s.swc with leaked := [] }
  let s := lost.foldl (fun s a => s.auditLeak prev a) s
  let s := free.foldl (fun s x => if (s.tagOf x.1).isSome then s else (s.auditFind x.1 2).takeBack x.1 x.2) s
  let s := (twice.map Prod.fst).eraseDups.foldl (fun s a => s.auditFind a 3) s
  let s := (twice.map Prod.snd).eraseDups.foldl (fun s pid => s.auditDiscard pid) s
  s.withSwc { s.swc with touched := [] }

end State

/-- AUDIT_PASS (R147, R148): a pass completes over the buffer's records as they stand after what has gone wrong in them. -/
def execAuditPass (l : List Upset) (s : State) : Out :=
  let s := (l.foldl State.upset s).audit
  .next (s.wr R.SWC_AUDIT_CTL_PASSES (s.rd R.SWC_AUDIT_CTL_PASSES + 1))

/-- One update of a shaper's credit (R152). -/
def shaperStep (credit : Int) (rate hi lo : Nat) (sends waiting : Bool) : Int :=
  let c := if sends then credit + rate - 4096
    else if waiting then min (credit + rate) (hi * 4096)
    else if credit > 0 then 0
    else if credit < 0 then min (credit + rate) 0
    else 0
  max c (-((lo * 4096 : Nat) : Int))

/-- SHAPER_TICK (R151, R152): one square time of a fabric port, in which the oldest square sent and not yet accounted for charges its
class. A shaper whose EN is 0 holds its credit (R155). DESIGN CHOICE (log entry 121): a RATE above 4,096 acts as written. -/
def execShaperTick (p : Fin 256) (s : State) : Out :=
  let st := s.port p
  let sends := fun (t : Nat) => st.sent.head? == some t
  let waits := fun (t : Nat) => st.tx.any (fun q => q.cls == t) ||
    (List.range 16).any (fun v => (if v = 0 then 4 else s.tcOf v) == t && !(s.queue p v).isEmpty)
  let s1 := s.setPort p { st with vl0Cred := shaperStep st.vl0Cred 40 130 65 (sends 4) (waits 4), sent := st.sent.drop 1 }
  .next ((List.range 4).foldl (fun s t =>
    if s.rdB (R.SWC_SHP_ACT_EN p t) then
      let c := signedOf 32 (s.rd (R.SWC_SHP_CRED_CREDIT p t))
      let rate := max 1 (s.rd (R.SWC_SHP_ACT_RATE p t))
      s.wr (R.SWC_SHP_CRED_CREDIT p t)
        (unsignedOf 32 (shaperStep c rate (s.rd (R.SWC_SHP_ACT_HI p t)) (s.rd (R.SWC_SHP_ACT_LO p t)) (sends t) (waits t)))
    else s) s1)

namespace State

/-- Colour the held packets of function f at (i, v) again (R154): the first that still holds keeps the later ones. -/
def recolour (f : Nat) (s : State) (k : Nat × Nat) : State :=
  match s.localQ k.1 k.2 with
  | x :: rest =>
    if x.held && x.fn == some f then
      match s.police { x with held := false } with
      | (s, 0) => (s.tryAdmit k.1 k.2 { x with held := false } rest).noteHeld f
      | (s, 1) => s
      | (s, _) => ((((s.bump R.SWC_DISC_POLICE).bumpFn f 12 1).setLocalQ k.1 k.2 rest).noteHeld f).notePawn x.pawn
    else s
  | [] => s

end State

/-- POLICER_REFILL (R153, R154): one switch-core cycle adds CIR and PIR; a policer whose EN is 0 holds its buckets. -/
def execPolicerRefill (f : Fin 512) (s : State) : Out :=
  let s := if s.rdB (R.SWC_POL_CTL_ACT_EN f) then
      let b := SMap.get {} s.pol f
      let c := min (burst (s.rd (R.SWC_POL_RATE_C_ACT_BURST f)) * polUnit) (b.c + s.rd (R.SWC_POL_RATE_C_ACT_RATE f))
      let p := min (burst (s.rd (R.SWC_POL_RATE_P_ACT_BURST f)) * polUnit) (b.p + s.rd (R.SWC_POL_RATE_P_ACT_RATE f))
      let s := s.withPol (SMap.set {} s.pol f.val { c := c, p := p })
      (s.wr (R.SWC_POL_TOK_C f) (c / polUnit)).wr (R.SWC_POL_TOK_P f) (p / polUnit)
    else s
  .next (((List.range 7).flatMap (fun i => (List.range 16).map (fun v => (i, v)))).foldl (recolour f) s)

/-- REMOTE_DECAY (R166, R459): the 8 µs window has ended, and every estimate without a sample in it is halved. -/
def execRemoteDecay (s : State) : Out :=
  let w := s.winIdx 8000
  .next (if w = s.time.decayWin then s
    else (s.withPorts (SMap.mapAll {} s.ports (fun _ st => st.decay w))).withTime { s.time with decayWin := w })

namespace State

/-- A drop notice (R154, R190) of a LOCK_REQ that had no ORIGIN yet: the pawn takes it as lost, and its retry interval runs from the
notice (DESIGN CHOICE, log entry 111). -/
def noteDrop (s : State) (x : LocalPkt) : State :=
  match x.dep with
  | some d =>
    (match (SMap.get none s.work (d / 2 ^ 32) : Option WorkEnt) with
    | some e =>
      if x.pkt.opcode = 0x09 ∧ e.asked = false then
        s.withWork (SMap.set none s.work (d / 2 ^ 32) (some { e with lastTx := s.now, asked := true }))
      else s
    | none => s)
  | none => s

/-- Stop the Request and Forward packets of the builders that `hit` names by function and job context (R190): waiting or
held ones, and admitted ones whose read has not begun, are discarded and counted. -/
def stopPackets (s : State) (hit : Option Nat → Option Nat → Bool) : State :=
  let s := ((List.range 7).flatMap (fun i => (List.range 16).map (fun v => (i, v)))).foldl (fun s k =>
    let l := s.localQ k.1 k.2
    let stop := fun (x : LocalPkt) => decide (x.pkt.cls ≤ 1) && hit x.fn x.job
    let s := s.bumpBy R.CGC_QUENCH_DISC (l.filter stop).length
    let s := (l.filter stop).foldl (fun (s : State) x => (s.bumpFnO x.fn 13 1).noteDrop x) s
    let s := (s.setLocalQ k.1 k.2 (l.filter (fun x => !stop x))).noteWaiting k.1
    (l.filter stop).foldl (fun (s : State) x =>
      let s := s.notePawn x.pawn
      match x.fn with | some f => if x.held then s.noteHeld f else s | none => s) s) s
  s.buf.foldl (fun s kv =>
    match kv.2 with
    | some b =>
      if decide (b.pkt.cls ≤ 1) && hit b.fn b.job then
        b.outs.foldl (fun s key =>
          match (s.queue (key / 16) (key % 16)).find? (fun e => e.pid == kv.1) with
          | some e => if e.reading then s else (s.bumpFnO b.fn 13 1).discardEntry key kv.1 R.CGC_QUENCH_DISC
          | none => s) s
      else s
    | none => s) s

end State
end Sys2Proof.Machine
end

