-- ==== Sys2Proof/Machine/HostOps.lean ====
section
/-!
DEFINITION. The host complexes' shared operations (chapters 8 to 10): functions and quench, rings, events, completions,
address translation and page requests, rank tables, and module memory words.
-/
namespace Sys2Proof.Machine

/-- The outcome of a cached lookup. -/
inductive XRes where
  | hit (bus : Nat)
  | fault (f : XFault)
  | miss
  deriving DecidableEq, Repr

/-- A stalled queue joins a page request (R250). -/
def PageReq.join (q : PageReq) (waiter : Option (Nat × Nat × Nat)) : PageReq :=
  match waiter with
  | some w => if q.waiters.contains w then q else { q with waiters := q.waiters ++ [w] }
  | none => q

namespace State

/-! Tables by key. -/
def wq (s : State) (f q : Nat) : Option Wq := SMap.get none s.wqs (f * 131072 + q)
def setWq (s : State) (f q : Nat) (v : Option Wq) : State := s.withWqs (SMap.set none s.wqs (f * 131072 + q) v)
def cqOf (s : State) (f h : Nat) : Option Ring := SMap.get none s.cqs (f * 65536 + h)
def setCq (s : State) (f h : Nat) (v : Option Ring) : State := s.withCqs (SMap.set none s.cqs (f * 65536 + h) v)
def eqOf (s : State) (f h : Nat) : Option Ring := SMap.get none s.eqs (f * 2048 + h)
def setEq (s : State) (f h : Nat) (v : Option Ring) : State := s.withEqs (SMap.set none s.eqs (f * 2048 + h) v)
def workEnt (s : State) (w : Nat) : Option WorkEnt := SMap.get none s.work w
def setWork (s : State) (w : Nat) (v : Option WorkEnt) : State := s.withWork (SMap.set none s.work w v)
def modWork (s : State) (w : Nat) (f : WorkEnt → WorkEnt) : State :=
  match s.workEnt w with | some x => s.setWork w (some (f x)) | none => s
def job (s : State) (j : Nat) : Option Job := SMap.get none s.jobs j
def xctxOf (s : State) (f h : Nat) : Option Xctx := SMap.get none s.trn.ctxs (f * 1024 + h)
/-! Module memory (R393): 8-byte words by byte address. -/
def memWord (s : State) (a : Nat) : Nat := SMap.get 0 s.mem (a / 8)
def setMemWord (s : State) (a v : Nat) : State := s.withMem (SMap.set 0 s.mem (a / 8) (v % 2 ^ 64))

/-! Module memory (R409). -/

/-- Base and size in bytes of partition `id`, 1 to 9. -/
def partition (s : State) (id : Nat) : Nat × Nat :=
  match s.opening with
  | none => (0, 0)
  | some o => (((o.parts.take (id - 1)).map Prod.snd).sum * 2 ^ 20, ((o.parts.getD (id - 1) (false, 0)).2) * 2 ^ 20)

/-- Squares of the retransmission store and of matching's staging (R272, R308). A partition with more than its SIZE field can say has its own
size. -/
def storeSize (s : State) : Nat := let n := (s.partition 5).2 / 64; if n < 2 ^ 24 then s.rd R.XPT_STORE_STAT_SIZE else n
def stageSize (s : State) : Nat := let n := (s.partition 4).2 / 64; if n < 2 ^ 28 then s.rd R.MTC_STAGE_STAT_SIZE else n

/-- What a field of w bits shows of n: n, and a free value when n does not fit, since no rule says (log entry 101). -/
def shown (s : State) (w n : Nat) : Nat := if n < 2 ^ w then n else (Config.freeWord s.rng).toNat % 2 ^ w

/-! Fields of a work or admin entry (R214, R223): bytes `off … off + len - 1`, little-endian. -/
def fld (e : BitVec 512) (off len : Nat) : Nat := bitsOf e.toNat (8 * off) (8 * len)

/-! Translation (R233 to R249). -/

/-- A bus address lies in an enabled device window of host port p (R240). -/
def inWindow (s : State) (p bus : Nat) : Bool :=
  (List.range 16).any (fun k => s.rdB (R.TRN_DWIN_BASE_ENABLE p k) &&
    decide (s.rd (R.TRN_DWIN_BASE_BASE p k) * 4096 ≤ bus) &&
    decide (bus < s.rd (R.TRN_DWIN_BASE_BASE p k) * 4096 + s.rd (R.TRN_DWIN_SIZE_SIZE p k)))

/-- Attributes an access needs (R239): R 1, W 2, A 4, REMOTE 8. -/
def attrNeed (r : XReq) : Nat :=
  (if r.atomic then 7 else if r.wr then 2 else 1) ||| (if r.remote then 8 else 0)

/-- A cached entry answers an access: it covers it, has not expired and passes the checks (R239, R243, R245). -/
def entCovers (r : XReq) (e : XEnt) : Bool :=
  e.fn == r.fn && e.xctx == r.xctx && decide (e.base ≤ r.addr) && decide (r.addr < e.base + 2 ^ e.log)
def entBus (r : XReq) (e : XEnt) : Nat := e.out + (r.addr - e.base)
def entPasses (s : State) (r : XReq) (e : XEnt) : Bool :=
  e.attr &&& attrNeed r == attrNeed r && (!s.inWindow (r.fn / 128) (entBus r e) || (bitOf e.attr 4 && !r.ring))

/-- Same access, for a walk or a fault that waits: no other access takes it (R242). -/
def sameAcc (a b : XReq) : Bool :=
  a.own == b.own && a.fn == b.fn && a.xctx == b.xctx && a.addr / 4096 == b.addr / 4096 && a.wr == b.wr && a.atomic == b.atomic &&
    a.remote == b.remote && a.ring == b.ring

/-- Least-recently-used insertion into a list of n entries. -/
def lruPut {α : Type} (n : Nat) (same : α → Bool) (x : α) (l : List α) : List α := (x :: l.filter (fun y => !same y)).take n

def fillMicro (s : State) (pawn : Option Nat) (e : XEnt) : State :=
  match pawn with
  | some n =>
    let l := lruPut 64 (fun y => y == e) e (SMap.get [] s.trn.micro n)
    (s.withTrn { s.trn with micro := SMap.set [] s.trn.micro n l })
  | none => s
def fillShared (s : State) (e : XEnt) : State :=
  let l := lruPut 16384 (fun y => y == e) e (SMap.get [] s.trn.shared (e.fn / 128))
  (s.withTrn { s.trn with shared := SMap.set [] s.trn.shared (e.fn / 128) l })

/-- A fault is reported in the TRN registers and counters (R255). -/
def noteFault (s : State) (r : XReq) (f : XFault) : State :=
  let s := s.bump (match f.kind with | 1 => R.TRN_FAULT_NP | 2 => R.TRN_FAULT_PERM | 3 => R.TRN_FAULT_BUS | _ => R.TRN_FAULT_DEV)
  let s := (s.bumpFn r.fn 14 1).wr R.TRN_FAULT_ADDR_ADDR f.addr
  let s := s.wr R.TRN_FAULT_INFO_FUNC r.fn
  let s := s.wr R.TRN_FAULT_INFO_DETAIL (f.kind + 8 * b2n f.stage2 + 16 * f.level)
  let s := s.wr R.TRN_FAULT_INFO_ACCESS (b2n (!r.wr || r.atomic) + 2 * b2n (r.wr || r.atomic) + 4 * b2n r.atomic +
    8 * b2n r.remote + 16 * b2n r.ring)
  let s := s.wr R.TRN_FAULT_INFO_BUS f.bus
  s.wr R.TRN_FAULT_INFO_XCTX (if f.stage2 then 0x7FF else r.xctx)

/-- The fault of an access of a VF whose stage 2 is not enabled (R235): its first translation by stage 2, that of the level-0 entry of its
context, faults; no context, or a ROOT that has no stage-2 address, is a fault of stage 1 (log entry 25). -/
def stage2Off (s : State) (r : XReq) : XFault :=
  let one : XFault := { kind := 2, stage2 := false, level := 0, addr := r.addr }
  if r.xctx = 0xFFFF then { one with stage2 := true }
  else
    match s.xctxOf r.fn r.xctx with
    | none => one
    | some c => if 2 ^ 48 ≤ c.root then { one with addr := c.root } else { one with stage2 := true, addr := c.root + 8 * bitsOf r.addr 39 9 }

/-- Translate one access (R234 to R245): at once where no stage is walked, from the caches, from a walk that ended in a
fault for it, or a miss that waits for its walk (`TRANSLATION_WALK`). -/
def xlate (s : State) (r : XReq) : State × XRes :=
  let pf := isPF r.fn
  let p := r.fn / 128
  if r.xctx = 0xFFFF && pf then
    if !r.ring && s.inWindow p r.addr then
      let f : XFault := { kind := 2, stage2 := false, level := 0, addr := r.addr }
      (s.noteFault r f, .fault f)
    else (s, .hit r.addr)
  else if r.xctx ≠ 0xFFFF && decide (r.addr ≥ 2 ^ 48) then
    let f : XFault := { kind := 2, stage2 := false, level := 0, addr := r.addr }
    (s.noteFault r f, .fault f)
  else if !pf && s.rd (R.TRN_S2_CFG_ENABLE r.fn) = 0 then
    let f := s.stage2Off r
    (s.noteFault r f, .fault f)
  else
    let live := fun (e : XEnt) => entCovers r e && decide (s.ns < e.expire) && s.entPasses r e
    let micro := match r.pawn with | some n => SMap.get [] s.trn.micro n | none => []
    match micro.find? live with
    | some e => ((s.bump R.TRN_MICRO_HIT).fillMicro r.pawn e, .hit (entBus r e))
    | none =>
      match (SMap.get [] s.trn.shared p).find? live with
      | some e => (((s.bump R.TRN_SHARED_HIT).fillShared e).fillMicro r.pawn e, .hit (entBus r e))
      | none =>
        match s.trn.faults.find? (fun x => sameAcc x.1 r) with
        | some x => ((s.withTrn { s.trn with faults := s.trn.faults.filter (fun y => !sameAcc y.1 r) }), .fault x.2)
        | none =>
          if s.trn.walks.any (fun x => sameAcc x r) then (s, .miss)
          else ((s.withTrn { s.trn with walks := s.trn.walks ++ [r] }), .miss)

/-- Translate the pages of a range of `len` bytes: the bus address of each page's part with its offset and length, in order.
The first fault or miss ends it. -/
def xlateRange (s : State) (r : XReq) (len : Nat) : State × Except (Option XFault) (List (Nat × Nat × Nat)) :=
  let first := r.addr / 4096
  let n := if len = 0 then 1 else (r.addr + len - 1) / 4096 - first + 1
  (List.range n).foldl (fun (acc : State × Except (Option XFault) (List (Nat × Nat × Nat))) i =>
    match acc with
    | (s, .error e) => (s, .error e)
    | (s, .ok l) =>
      let a := if i = 0 then r.addr else (first + i) * 4096
      let e := min (r.addr + len) ((first + i + 1) * 4096)
      match s.xlate { r with addr := a } with
      | (s, .hit bus) => (s, .ok (l ++ [(bus, a - r.addr, e - a)]))
      | (s, .fault f) => (s, .error (some f))
      | (s, .miss) => (s, .error none)) (s, .ok [])

/-- The range of the cached translations that an access of `len` bytes used (R246): that of their whole pages. -/
def xlatedRange (s : State) (r : XReq) (len : Nat) : Nat × Nat :=
  let ents := (match r.pawn with | some n => SMap.get [] s.trn.micro n | none => []) ++ SMap.get [] s.trn.shared (r.fn / 128)
  let at_ := fun (a : Nat) => ents.find? (fun e => entCovers { r with addr := a } e && s.entPasses { r with addr := a } e)
  let last := r.addr + (len - 1)
  let lo := match at_ r.addr with | some e => e.base | none => r.addr
  let hi := match at_ last with | some e => e.base + 2 ^ e.log | none => last + 1
  (lo, hi - lo)

/-! Rings, events and page requests (R210, R217 to R222, R250, R253). -/

/-- Write to a ring at its bus address, with the message that follows it. -/
def busWrite (s : State) (f bus len data : Nat) (vec : Option Nat) : State :=
  let bytes := BitVec.ofNat 512 ((bytesLE data len).foldl (fun a b => a * 256 + b) 0 * 256 ^ (64 - len))
  let s := s.emit (.hostWrite (f / 128) (s.routingId f) bus [bytes] 0 len)
  match vec with | some v => s.fnVector f v | none => s

/-- Write the next 32-byte entry of a ring through `w`; `data` is bytes 0 to 30. An armed queue's vector follows and is
disarmed. -/
def ringPushVia (w : State → Nat → Nat → Nat → Nat → Nat → Option Nat → State) (s : State) (r : Ring) (data : Nat) : State × Ring :=
  let size := 2 ^ r.log
  let phase := r.next / size % 2 == 0
  let d := data % 2 ^ 248 + b2n phase * 2 ^ 255
  let vec := if r.armed && r.vector != 0xFFFF then some r.vector else none
  let s := w s r.fn r.base (r.base + 32 * (r.next % size)) 32 d vec
  (s, { r with next := r.next + 1, used := r.used + 1, armed := false })

/-- Post an event (R221, R222, R228) through `w`; `data` is bytes 4 to 27 as one little-endian number. 0xFFFF names queue 0. -/
def eventVia (w : State → Nat → Nat → Nat → Nat → Nat → Option Nat → State) (s : State) (f eq ty qid data : Nat) : State :=
  let h := if eq = 0xFFFF then 0 else eq
  let drop := R.HPT_FN_EQ_DROP (f / 128) (f % 128)
  match s.eqOf f h with
  | none => s.bump drop
  | some r =>
    if s.fnTeardown f then s
    else if r.overflow then s.bump drop
    else if 2 ^ r.log - r.used ≤ 1 then
      let (s, r) := ringPushVia w s r (0xFFFF + 1 * 2 ^ 32)
      (s.bump drop).setEq f h (some { r with overflow := true })
    else
      let (s, r) := ringPushVia w s r (ty + qid % 2 ^ 16 * 2 ^ 16 + (data % 2 ^ 192) * 2 ^ 32)
      s.setEq f h (some r)

/-- A write to a PF's ring is never translated (R235, R253); a function in teardown gets no entry (R228). -/
def ringWritePf (s : State) (f _base fpa len data : Nat) (vec : Option Nat) : State :=
  if s.fnTeardown f then s else s.busWrite f fpa len data vec

/-- Unresolved page requests of host port p as the registers show them. -/
def showPages (s : State) (p : Nat) : State :=
  let n := (s.trn.pages.filter (fun q => q.fn / 128 == p)).length
  s.wr (match p with | 0 => R.TRN_STAT_PENDING0 | 1 => R.TRN_STAT_PENDING1 | 2 => R.TRN_STAT_PENDING2
                     | _ => R.TRN_FAULT_INFO_PENDING3) n

/-- DETAIL of a fault (R248). -/
def xDetail (f : XFault) : Nat := f.kind + 8 * b2n f.stage2 + 16 * f.level

/-- ACCESS of an access (R250). -/
def xAccess (r : XReq) : Nat :=
  b2n (!r.wr || r.atomic) + 2 * b2n (r.wr || r.atomic) + 4 * b2n r.atomic + 8 * b2n r.remote + 16 * b2n r.ring

/-- Open or join the page request of a fault (R250), posting its event through `post` (function, queue, QID, data); false
when the host port holds 4,096. `waiter`: a stalled queue. -/
def pageRequestVia (post : State → Nat → Nat → Nat → Nat → State) (s : State) (r : XReq) (f : XFault)
    (waiter : Option (Nat × Nat × Nat)) : State × Bool :=
  let ctx := if f.stage2 then 0xFFFF else r.xctx
  let page := f.addr / 4096
  let p := r.fn / 128
  let same := fun (q : PageReq) => q.fn == r.fn && q.xctx == ctx && q.page == page
  if s.trn.pages.any same then
    let l := s.trn.pages.map (fun q => if same q then q.join waiter else q)
    ((s.withTrn { s.trn with pages := l }), true)
  else if (s.trn.pages.filter (fun q => q.fn / 128 == p)).length ≥ 4096 then (s.bump R.TRN_PAGE_REQ_FULL, false)
  else
    let tok := SMap.get 0 s.trn.nextToken p
    let s := (s.withTrn { s.trn with
      nextToken := SMap.set 0 s.trn.nextToken p ((tok + 1) % 2 ^ 32)
      pages := s.trn.pages ++ [({ token := tok, fn := r.fn, xctx := ctx, page := page, detail := xDetail f, waiters := waiter.toList } : PageReq)] })
    let data := ctx + (r.fn % 128) * 2 ^ 16 + f.addr % 2 ^ 64 * 2 ^ 32 + xDetail f * 2 ^ 96 + xAccess r * 2 ^ 104 + tok * 2 ^ 128
    let s := s.bump R.TRN_PAGE_REQ
    let s := if f.stage2 then post s (128 * p) 0 r.qid data
      else post s r.fn (match s.xctxOf r.fn r.xctx with | some c => c.eq | none => 0) r.qid data
    (s.showPages p, true)

/-- The page request of a ring fault: a stage-2 request, whatever the kind (R253), posted to the PF's default queue. -/
def ringFault (s : State) (r : XReq) (f : XFault) : State :=
  (pageRequestVia (fun s f eq q d => eventVia ringWritePf s f eq 2 q d) s r { f with stage2 := true } none).1

/-- Hold a ring write (R253). -/
def holdWrite (s : State) (h : HeldWrite) : State := s.withTrn { s.trn with heldWr := s.trn.heldWr ++ [h] }

/-- Write to a ring of function f at a function-physical address: translated by stage 2 for a VF. A write that cannot be
translated yet waits, and later writes to the same ring wait behind it; one that faults is a ring fault (R253). -/
def ringWrite (s : State) (f base fpa len data : Nat) (vec : Option Nat) : State :=
  let h : HeldWrite := { fn := f, base := base, fpa := fpa, len := len, data := data, vector := vec }
  if s.fnTeardown f then s
  else if s.trn.heldWr.any (fun h => h.fn == f && h.base == base) then s.holdWrite h
  else
    let r : XReq := { fn := f, xctx := 0xFFFF, addr := fpa, wr := true, ring := true, own := base }
    match s.xlate r with
    | (s, .hit bus) => s.busWrite f bus len data vec
    | (s, .miss) => s.holdWrite h
    | (s, .fault x) => (s.ringFault r x).holdWrite { h with stalled := true }

/-- Try the held ring writes of function f again, in order; those of a ring whose first one faulted go on waiting. -/
def flushHeld (s : State) (f : Nat) : State :=
  let stuck := fun (h : HeldWrite) => s.trn.heldWr.any (fun g => g.fn == h.fn && g.base == h.base && g.stalled)
  let l := s.trn.heldWr.filter (fun h => h.fn == f && !stuck h)
  let s := s.withTrn { s.trn with heldWr := s.trn.heldWr.filter (fun h => h.fn != f || stuck h) }
  l.foldl (fun s h => s.ringWrite h.fn h.base h.fpa h.len h.data h.vector) s

/-- PAGE_RESUME of a stage-2 page of function f retries the ring accesses that it holds (R253). -/
def resumeRings (s : State) (f page : Nat) : State :=
  let slotPage := fun (q : Nat) => (s.wq f q).map (fun k => (k.base + 64 * k.pos) / 4096)
  (s.withTrn { s.trn with
    ringFault := s.trn.ringFault.filter (fun x => x.1 != f || slotPage x.2 != some page)
    heldWr := s.trn.heldWr.map (fun h => if h.fn == f && h.fpa / 4096 == page then { h with stalled := false } else h) } : State).flushHeld f

def ringPush (s : State) (r : Ring) (data : Nat) : State × Ring := ringPushVia ringWrite s r data
def event (s : State) (f eq ty qid data : Nat) : State := eventVia ringWrite s f eq ty qid data

/-- Open or join the page request of a fault (R250). -/
def pageRequest (s : State) (r : XReq) (f : XFault) (waiter : Option (Nat × Nat × Nat)) : State × Bool :=
  pageRequestVia (fun s f eq q d => s.event f eq 2 q d) s r f waiter

/-- The ODP flag that governs a fault (R249). -/
def faultOdp (s : State) (r : XReq) (f : XFault) : Bool :=
  if f.stage2 then s.rdB (R.TRN_S2_CFG_ODP r.fn) else (match s.xctxOf r.fn r.xctx with | some c => c.odp | none => false)

/-- The bytes of a completion entry (R218). -/
def cqeBits (c : Cqe) : Nat :=
  c.user + c.tag % 2 ^ 64 * 2 ^ 64 + c.bytes % 2 ^ 32 * 2 ^ 128 + c.src % 2 ^ 32 * 2 ^ 160 + c.qid % 2 ^ 16 * 2 ^ 192 +
    c.count * 2 ^ 208 + c.status * 2 ^ 224 + c.detail % 256 * 2 ^ 232

/-- Write a completion into a completion queue, in a slot reserved for it or not; none for a function in teardown (R228). -/
def writeCqe (s : State) (f cq : Nat) (c : Cqe) (reserved : Bool) : State :=
  match s.cqOf f cq with
  | none => s
  | some r =>
    if s.fnTeardown f then s else
    let (s, r) := s.ringPush { r with reserved := if reserved then r.reserved - 1 else r.reserved } (cqeBits c)
    (s.setCq f cq (some r)).bump (R.HPT_FN_CQE (f / 128) (f % 128))

/-- Slots of a completion queue that are free and not reserved. -/
def cqFree (r : Ring) : Nat := 2 ^ r.log - r.used - r.reserved

/-- Reserve one slot. -/
def reserveSlot (s : State) (f cq : Nat) : State :=
  match s.cqOf f cq with
  | some r => s.setCq f cq (some { r with reserved := r.reserved + 1 })
  | none => s

/-- Entries of the run that is open after the entries `ws`, of which `n` come before them (R217). -/
def openLen (s : State) : List Nat → Nat → Nat
  | [], n => n
  | w :: ws, n =>
    match s.workEnt w with
    | some x => openLen s ws (if bitOf (fld x.ent 1 1) 0 || x.fin.any (fun c => c.status != 0) || n + 1 == 65535 then 0 else n + 1)
    | none => openLen s ws (n + 1)

/-- The run at the head of a queue holds a completion slot: its own, or one that is free now, as the rest of a run needs that closed
before its end. -/
def runSlot (s : State) (k : Wq) : Option State :=
  match k.ents with
  | [] => some s
  | w :: _ =>
    match s.workEnt w with
    | none => some s
    | some x =>
      if x.opens then some s
      else
        match s.cqOf k.fn k.cq with
        | some r => if 0 < cqFree r then some ((s.reserveSlot k.fn k.cq).setWork w (some { x with opens := true })) else none
        | none => some s

/-- Length of the run that closes now at the head of an initiator queue, if one does (R217): the first entry that closes a
run, with every entry before it complete. -/
def runLength (s : State) : List Nat → Nat → Option (Nat × Cqe)
  | [], _ => none
  | w :: ws, n =>
    match s.workEnt w with
    | some x =>
      match x.fin with
      | some c => if bitOf (fld x.ent 1 1) 0 || c.status != 0 || n + 1 == 65535 then some (n + 1, c) else runLength s ws (n + 1)
      | none => none
    | none => runLength s ws (n + 1)

/-- Write the completions of the runs that close, each in the slot its run holds; the rest of a run that closed before its end waits for
a slot when none is free (R216, R217). -/
def closeRuns : Nat → State → Nat → Nat → State
  | 0, s, _, _ => s
  | fuel + 1, s, f, q =>
    match s.wq f q with
    | none => s
    | some k =>
      match s.runSlot k with
      | none => s
      | some s =>
        match s.runLength k.ents 0 with
        | none => s
        | some (n, c) =>
          let s := s.writeCqe f k.cq { c with count := n } true
          let rest := k.ents.drop n
          let s := s.setWq f q (some { k with ents := rest, runLen := s.openLen rest 0 })
          let s := (k.ents.take n).foldl (fun s w => s.setWork w none) s
          closeRuns fuel s f q

/-- The length of the open run follows the entries that have completed (R217): an entry that failed closed its run. -/
def refreshRun (s : State) (f q : Nat) : State :=
  match s.wq f q with
  | some k => s.setWq f q (some { k with runLen := s.openLen k.ents 0 })
  | none => s

/-- Runs that wait for a slot of completion queue h of function f close now (R217). -/
def resumeRuns (s : State) (f h : Nat) : State :=
  s.wqs.foldl (fun s e =>
    match e.2 with
    | some k => if k.fn = f ∧ k.cq = h ∧ k.recv = false ∧ k.qid ≠ adminQ then closeRuns (k.ents.length + 1) s f k.qid else s
    | none => s) s

/-- The sampler's record of a work entry ends when its completion is written (R464). -/
def endWorkTag (s : State) (w status : Nat) : State :=
  match s.pmon.works.find? (fun t => t.id == w) with
  | some t => (s.withPmon { s.pmon with
      works := s.pmon.works.filter (fun t => t.id != w)
      ended := s.pmon.ended ++ [(2, { t with
        c := status, flags := t.flags ||| (8 * b2n (status != 0)), stages := t.stages.set 4 (some s.ns) })] })
  | none => s

/-- A work entry completes (R216, R223): an initiator's waits for its run, a receive's or an admin command's is written now. Nothing is written for a
function in teardown. -/
def finish (s : State) (w : Nat) (status detail : Nat) (tag : Nat := 0) (bytes : Nat := 0) (src : Nat := 0) : State :=
  match s.workEnt w with
  | none => s
  | some x =>
    if x.fin.isSome then s
    else
      let c : Cqe := { user := fld x.ent 48 8, tag := tag, bytes := bytes, src := src, qid := x.qid, status := status, detail := detail }
      let s := s.endWorkTag w status
      let s := s.setWork w (some { x with fin := some c })
      match s.wq x.fn x.qid with
      | none => s.setWork w none
      | some k =>
        if k.recv || k.qid == adminQ then
          let s := s.writeCqe x.fn k.cq c true
          (s.setWq x.fn x.qid (some { k with ents := k.ents.filter (· != w) })).setWork w none
        else closeRuns (k.ents.length + 1) (s.refreshRun x.fn x.qid) x.fn x.qid

/-- An initiator-side fault of a work entry (R249, R251): the queue stalls on a page request, or the entry completes with
LOCAL_FAULT. -/
def localFault (s : State) (w : Nat) (r : XReq) (f : XFault) : State :=
  match s.workEnt w with
  | none => s
  | some x =>
    if f.kind = 1 && s.faultOdp r f then
      match s.pageRequest r f (some (x.fn, x.qid, w)) with
      | (s, true) => (match s.wq x.fn x.qid with
        | some k => s.setWq x.fn x.qid (some { k with state := 2 })
        | none => s)
      | (s, false) => s.finish w 9 (xDetail f)
    else s.finish w 9 (xDetail f)

/-- The commands of invalidation that wait for their acknowledgements, and TRN_STAT.INV_BUSY (R246, R255). -/
def invBusy (s : State) : Bool :=
  s.wqs.any (fun e => match e.2 with
    | some k => k.inv.isSome && !(k.ents.head?.bind s.workEnt).any (fun x => fld x.ent 0 1 == 0x21)
    | none => false)
def showInv (s : State) : State := s.wrB R.TRN_STAT_INV_BUSY s.invBusy

/-! Ranks (R64, R65). -/

/-- Resolve a rank through a job context's table: the peer's FA. -/
def resolveRank (s : State) (j rank : Nat) : Option Nat :=
  match s.job j with
  | some k =>
    let e := s.memWord (k.base + 8 * rank)
    let fa := bitsOf e 0 32
    if rank < k.entries && bitOf e 63 && faValid fa && !faSvc fa then some fa else none
  | none => none

/-- The queue of a work entry, when it is ACTIVE and fabric time is valid and nothing quenches it (R142, R190, R251). -/
def canBuild (s : State) (x : WorkEnt) : Option Wq :=
  match s.wq x.fn x.qid with
  | some k => if k.state = 1 && !s.timeHeld && !s.quenched x.fn k.job && !s.fnTeardown x.fn then some k else none
  | none => none

end State
end Sys2Proof.Machine
end

