-- ==== Sys2Proof/Machine/HostQueues.lean ====
section
/-!
DEFINITION. Doorbells, the scan, consumption, acknowledgements, and the entries that need no other unit (chapter 9), with
the geometry of collective operations that the check of a COLL entry needs (R330, R333).
-/
namespace Sys2Proof.Machine

/-! Collective geometry (R333). -/

/-- Bytes of an element of a TYPE. -/
def elemSize : Nat → Nat
  | 0 => 4 | 1 => 8 | 2 => 4 | 3 => 8 | 4 => 1 | 5 => 1 | 6 => 2 | 7 => 2 | 8 => 4 | _ => 8

/-- Elements of a data chunk of an anchored operation. -/
def anchElems (ty : Nat) : Nat := match ty with | 8 => 320 | 9 => 256 | _ => 512

def ceilDiv (a b : Nat) : Nat := (a + b - 1) / b

/-- Anchor chunks of an operation of e elements. -/
def anchorChunks (e : Nat) : Nat := ceilDiv (ceilDiv e 64) 224

/-- Fields of a COLL entry's OPMODE (R330). -/
def collOper (opmode : Nat) : Nat := opmode / 16
def collAnch (opmode : Nat) : Bool := bitOf opmode 3
def isFloat (ty : Nat) : Bool := decide (4 ≤ ty)

/-- Conditions under which fetch of work reaches function f (R201, R206). -/
def State.fnReach (s : State) (f : Nat) : Bool :=
  s.fnEnabled f && s.rdB (R.HPT_PORT_STAT_LINK_UP (f / 128)) && !s.refuses (19 + f / 128)
/-- A memory request to a BAR of function f is taken: Memory Space Enable is in effect, and the function is not in D3hot (R229). -/
def State.decodes (s : State) (f : Nat) : Bool := s.fnReach f && s.memSpace f && !s.inD3 f
/-- A configuration request reaches function f, 512 the management port: the port's link is up and the function exists (R205). -/
def State.cfgReach (s : State) (f : Nat) : Bool := if f = 512 then s.mgmtUp && s.pwr.state == .on else s.fnReach f
/-- A memory write that function f does not take is an Unsupported Request without a completion: AER logs it (R202, R229). -/
def State.barDrop (s : State) (f : Nat) : State := if s.cfgReach f then s.aerLog f 20 else s

namespace State

/-! Use counts and quotas (R208). -/
def wqList (s : State) (f : Nat) : List Wq := s.wqs.filterMap (fun e =>
  match e.2 with | some k => if k.fn == f && k.qid != adminQ then some k else none | none => none)
def cqList (s : State) (f : Nat) : List Ring := s.cqs.filterMap (fun e =>
  match e.2 with | some k => if k.fn == f && k.h != 0 then some k else none | none => none)
def eqList (s : State) (f : Nat) : List Ring := s.eqs.filterMap (fun e =>
  match e.2 with | some k => if k.fn == f then some k else none | none => none)
def jobList (s : State) (f : Nat) : List Nat := s.jobs.filterMap (fun e =>
  match e.2 with | some k => if k.fn == f then some e.1 else none | none => none)

/-- The registrations of a tree number (R329). -/
def regsOf (s : State) (tree : Nat) : List Reg := SMap.get [] s.regs tree

/-- MAX_ANCHOR and TOTAL of a tree number's active entry, and whether it is the root. -/
def collLimits (s : State) (tree : Nat) : Nat × Nat × Bool :=
  match s.treeEntry tree with
  | some m => (bitsOf (s.rd (R.COL_TREE_B_ACT m)) 32 16, s.rd (R.COL_TREE_STAT_TOTAL m), bitsOf (s.rd (R.COL_TREE_A_ACT m)) 17 2 == 2)
  | none => (0, 0, false)

/-- Bytes of result that a contributor receives, by KIND, SOURCE and whether its module is the root (R332). -/
def resultBytes (kind len : Nat) (source root : Bool) : Nat :=
  match kind with
  | 0 => 0
  | 1 => if source then 0 else len
  | 2 => if root then len else 0
  | _ => len

/-- COLL entries that are malformed (R330): DETAIL. -/
def collMalformed (s : State) (f : Nat) (e : BitVec 512) : Option Nat :=
  let tree := fld e 2 2
  let len := fld e 16 4
  let opmode := fld e 32 1
  let ty := fld e 33 1
  let kind := fld e 34 1
  let off := fld e 40 8
  let el := len / elemSize ty
  match (s.regsOf tree).find? (fun r => r.fn == f) with
  | none => some 5
  | some r =>
    let ment := s.collLimits tree
    if collOper opmode > 5 ∨ ty > 9 ∨ kind > 3 then some 5
    else if collAnch opmode && (collOper opmode != 0 || !isFloat ty) then some 5
    else if collAnch opmode && (decide (2 ≤ kind) && decide (anchorChunks el > ment.1) || decide (2 ^ 20 < ment.2.1)) then some 5
    else if decide (3 ≤ collOper opmode) && isFloat ty then some 5
    else if (if kind = 0 then len ≠ 1 else len % elemSize ty ≠ 0) then some 3
    else if off + resultBytes kind len (bitOf (fld e 35 1) 0) ment.2.2 > r.len then some 5
    else none

/-- Width in bytes of an atomic (R275). -/
def atomicWidth (actl : Nat) : Nat := match actl with | 0 => 4 | 4 => 16 | _ => 8

/-- The domain a RECV or PROBE names exists and is bound to the queue's job context (R293). -/
def domOk (s : State) (k : Wq) (dom : Nat) : Bool :=
  match SMap.get none s.mtc.doms (k.fn * 65536 + dom) with
  | some d => d.job == k.job
  | none => false

/-- Malformed work entries (R213, R215, R293, R330, R352): the DETAIL of the first condition that holds. -/
def malformed (s : State) (k : Wq) (e : BitVec 512) : Option Nat :=
  let op := fld e 0 1
  let aux := fld e 2 2
  let len := fld e 16 4
  let laddr := fld e 8 8
  let ini := decide (op ≤ 8)
  let rcv := decide (0x10 ≤ op) && decide (op ≤ 0x12)
  if !(ini || rcv) || (ini && k.recv) || (rcv && !k.recv) then some 1
  else if ((1 ≤ op && decide (op ≤ 6)) || op == 8) && k.job == 0xFFFF then some 2
  else if ([0, 4, 5, 6, 0x11, 0x12].contains op && len != 0) || (op == 7 && len == 0) || (op == 8 && decide (len > 4096)) then some 3
  else if op = 4 ∧ (laddr % (if aux = 4 then 16 else 8) ≠ 0 ∨ fld e 24 8 % atomicWidth aux ≠ 0) then some 4
  else if op = 6 ∧ laddr % 8 ≠ 0 then some 4
  else if op = 0x11 ∧ fld e 40 1 = 1 ∧ laddr % 8 ≠ 0 then some 4
  else if op = 4 ∧ aux > 4 then some 5
  else if op = 8 ∧ (aux < 0x100 ∨ 0x1FFF < aux) then some 5
  else if op = 6 ∧ fld e 20 1 > 2 then some 5
  else if op = 3 ∧ s.domOk k aux = false then some 5
  else if (op = 0x10 ∨ op = 0x11) ∧ (!s.domOk k aux || decide (fld e 40 1 > 1)) = true then some 5
  else if op = 7 then s.collMalformed k.fn e
  else none

/-- The work sampler considers an entry at its fetch (R463). -/
def sampleWork (s : State) (w : Nat) (k : Wq) (e : BitVec 512) : State :=
  let filter := s.rd R.PMON_SAMPLE_CFG_FN_FILTER
  if s.rdB R.PMON_SAMPLE_CFG_WORK_EN && (filter == 0x3FF || filter == k.fn) then
    let hit := decide (s.rand < 2 ^ (32 - sampleMean (s.rd R.PMON_SAMPLE_CFG_MEAN_WORK)))
    let s := s.draw
    if hit then
      if s.pmon.works.length ≥ 64 then s.bump R.PMON_SAMPLE_SKIP
      else (s.withPmon { s.pmon with works := s.pmon.works ++ [({
        id := w, flags := b2n s.timeValid, cls := fld e 0 1, a := k.qid % 65536 + k.fn * 65536, b := fld e 16 4, c := 0
        t0 := s.ns, stages := [none, none, none, none, none, none, none], psn := fld e 48 4 } : Tagged)] })
    else s
  else s

/-- An ACMD that R224 defines. -/
def acmdDefined (a : Nat) : Bool :=
  (decide (1 ≤ a) && decide (a ≤ 0x0D)) || (decide (0x10 ≤ a) && decide (a ≤ 0x15)) || a == 0x20 || a == 0x21 || a == 0x28 ||
    a == 0x29 || a == 0x30 || a == 0x31

/-- Complete the undefined commands at the head of a function's admin queue with BAD_OPCODE (R223, R224). -/
def adminSettle : Nat → State → Nat → State
  | 0, s, _ => s
  | fuel + 1, s, f =>
    match s.wq f adminQ with
    | some k =>
      match k.ents with
      | w :: _ =>
        match s.workEnt w with
        | some x => if acmdDefined (fld x.ent 0 1) then s else adminSettle fuel (s.finish w 4 0) f
        | none => s
      | [] => s
    | none => s

/-- consume(e) (R213, R217): the entry joins its queue's run, or opens one with a reserved slot; a malformed entry
completes at once, and closes its run. A work entry goes to the engine complex, and wakes it (R13). -/
def consume (s : State) (k : Wq) (e : BitVec 512) : State :=
  let w := s.nextWork
  let admin := k.qid == adminQ
  let bad := if admin then none else s.malformed k e
  let opens := k.recv || admin || k.runLen == 0
  let closes := bitOf (fld e 1 1) 0 || k.runLen + 1 == 65535 || bad.isSome
  let lane := k.qid % 2 ^ (min 4 (s.rd (R.XPT_FN_CFG_LANE_BITS k.fn)))
  let x : WorkEnt := { fn := k.fn, qid := k.qid, num := w, ent := e, opens := opens, lane := lane }
  let s := if admin then s else s.wake 17
  let s := if opens then s.reserveSlot k.fn k.cq else s
  let s := if admin then s else (s.bump (R.HPT_FN_FETCHED (k.fn / 128) (k.fn % 128))).sampleWork w k e
  let s := ((s.setWork w (some x)).withNextWork (w + 1))
  let s := s.setWq k.fn k.qid (some { k with ents := k.ents ++ [w], runLen := if closes then 0 else k.runLen + 1 })
  let s := if admin then s else s.setFn k.fn { s.fnSt k.fn with lastFetch := some s.now }
  match bad with
  | some d => (s.bump (R.HPT_FN_MALFORMED (k.fn / 128) (k.fn % 128))).finish w 3 d
  | none => if admin then s.adminSettle 4097 k.fn else s

/-- A ring of function f at a base holds a write (R253). -/
def writeHeld (s : State) (f base : Nat) : Bool := s.trn.heldWr.any (fun h => h.fn == f && h.base == base)

/-- A ring that queue k reads or completes into has a held access (R253). -/
def ringHeld (s : State) (k : Wq) : Bool :=
  s.trn.ringFault.contains (k.fn, k.qid) || (match s.cqOf k.fn k.cq with | some r => s.writeHeld k.fn r.base | none => false)

/-- The fetch gap of R182 permits a fetch. -/
def gapOver (s : State) (f : Nat) : Bool :=
  !s.rdB R.CGC_GAP_CFG_THR_EN || match s.rd (R.CGC_FN_STAT_GAP f), (s.fnSt f).lastFetch with
  | 0, _ => true
  | g, some t => decide (t + g ≤ s.now)
  | _, none => true

/-- fetch_allowed(q) of R212. Admin commands run while fabric time is not valid (R142) and are no work entries of R182. -/
def fetchAllowed (s : State) (k : Wq) : Bool :=
  let admin := k.qid == adminQ
  k.state == 1 && !s.quenched k.fn k.job && (admin || (s.gapOver k.fn && s.timeValid)) && !s.ringHeld k &&
    (!(k.recv || admin || k.runLen == 0) ||
      (match s.cqOf k.fn k.cq with | some r => decide (0 < cqFree r) | none => false))

def setPending (s : State) (f q : Nat) (b : Bool) : State :=
  match s.wq f q with | some k => s.setWq f q (some { k with pending := b }) | none => s

/-- The read access of the slot at pos. -/
def slotReq (k : Wq) : XReq := { fn := k.fn, xctx := 0xFFFF, addr := k.base + 64 * k.pos, wr := false, ring := true, qid := k.qid }

/-- A ring whose slot cannot be translated: a stage-2 page request, and the queue waits for it (R253). -/
def ringStall (s : State) (k : Wq) (x : XFault) : State :=
  let s := s.ringFault (slotReq k) x
  s.withTrn { s.trn with ringFault := s.trn.ringFault ++ [(k.fn, k.qid)] }

/-- Translate the slot at pos for a fresh read: true when the read can be made. -/
def freshSlot (s : State) (k : Wq) : State × Bool :=
  match s.xlate (slotReq k) with
  | (s, .hit _) => (s, true)
  | (s, .miss) => (s, false)
  | (s, .fault x) => (s.ringStall k x, false)

/-- The bytes of a read answer as a 64-byte entry. -/
def entOf (bs : List (BitVec 8)) : BitVec 512 := BitVec.ofNat 512 (leOf (bs.map BitVec.toNat))

/-- The loop of serve(q) (R212): one answer of the host to each fresh read. Without an answer the scan waits, still
pending; a fetch error counts in HPT_HOST_ERR, is logged, and acts as an entry that is not owned (R204). -/
def serveLoop : List HostAns → State → Nat → Nat → State
  | ans, s, f, q =>
    match s.wq f q with
    | none => s
    | some k =>
      if !s.fetchAllowed k then s.setPending f q true
      else
        match s.freshSlot k with
        | (s, false) => s.setPending f q true
        | (s, true) =>
          match ans with
          | [] => s.setPending f q true
          | .ok bs :: rest =>
            let e := entOf bs
            if bitOf (fld e 63 1) 7 != k.phase then s
            else
              let pos := (k.pos + 1) % 2 ^ k.log
              let s := s.consume k e
              let s := match s.wq f q with
                | some k => s.setWq f q (some { k with pos := pos, phase := if pos = 0 then !k.phase else k.phase })
                | none => s
              serveLoop rest s f q
          | a :: _ => s.ringRead f a
termination_by structural ans => ans

/-- Set pending on a work queue by a doorbell, or drop it (R207, R228). -/
def ring (s : State) (f q : Nat) : State :=
  let drop := s.bump (R.HPT_FN_DB_DROP (f / 128) (f % 128))
  if s.fnTeardown f then drop
  else
    match s.wq f q with
    | some k => if k.qid == adminQ then drop
      else (s.setWq f q (some { k with pending := true })).bump (R.HPT_FN_DB (f / 128) (f % 128))
    | none => drop

end State

open State

/-- DOORBELL (R207): a BAR0 write of `len` + 1 bytes rings every slot it touches. -/
def execDoorbell (f : Fin 512) (off : BitVec 22) (len : Fin 64) (s : State) : Out :=
  if !s.decodes f then .next (s.barDrop f)
  else
    let s := s.wake (19 + f / 128)
    let first := off.toNat / 64
    let last := (off.toNat + len) / 64
    .next ((List.range (last - first + 1)).foldl (fun s i => s.ring f ((first + i) % 65536)) s)

/-- SERVE (R212 to R217): the scan of a pending queue; `q` 65,536 is the admin queue. A function that is not a bus master reads nothing
(R229). -/
def execServe (f : Fin 512) (q : BitVec 17) (ans : List HostAns) (s : State) : Out :=
  .next (match s.wq f q.toNat with
    | some k => if k.pending && k.state != 3 && !s.fnTeardown f && s.busMaster f then serveLoop ans (s.setPending f q.toNat false) f q.toNat else s
    | none => s)

/-- HPT_ADMIN_DB (R223, R228, R229). -/
def execHptAdminDb (f : Fin 512) (s : State) : Out :=
  if !s.decodes f then .next (s.barDrop f)
  else if s.fnTeardown f then .next (s.bump (R.HPT_FN_DB_DROP (f / 128) (f % 128)))
  else .next (s.setPending f adminQ true)

namespace State

/-- Show ADMIN_READY. -/
def showReady (s : State) (f : Nat) (b : Bool) : State :=
  (s.wrB (R.HPT_FN_STAT_ADMIN_READY (f / 128) (f % 128)) b).wrB (R.HPT_FN_STATUS_ADMIN_READY (f / 128) (f % 128)) b

/-- The admin queue is quiet (R226): nothing in execution and the slot at pos, read afresh, is not owned. -/
def quiet (k : Wq) (ans : HostAns) : Bool :=
  k.ents.isEmpty && k.state == 1 &&
    (match ans with | .ok bs => bitOf (fld (entOf bs) 63 1) 7 != k.phase | _ => true)

end State

/-- ADMIN_ENABLE (R223, R231): a write of HPT_ADMIN_CFG by its function. BASE, LOG_SIZE and VECTOR change only while ENABLE
is 0; a LOG_SIZE outside 6 to 12 is not taken (log entry 12). `ans` is the fresh read that removal takes, through stage 2 (R209); while
that read waits for a walk the write is not accepted. -/
def execAdminEnable (f : Fin 512) (h : Half) (v : BitVec 64) (ans : HostAns) (s : State) : Out :=
  let p := f.val / 128
  let n := f.val % 128
  if !s.decodes f then .next (s.barDrop f)
  else if s.fnTeardown f || !coversLow h then .next s
  else if s.rd (R.HPT_ADMIN_CFG_ENABLE p n) = 0 then
    let log := bitsOf v.toNat 0 4
    let s := if 6 ≤ log ∧ log ≤ 12 then s.wr (R.HPT_ADMIN_CFG_LOG_SIZE p n) log else s
    let s := s.wr (R.HPT_ADMIN_CFG_VECTOR p n) (bitsOf v.toNat 16 11)
    if bitOf v.toNat 4 then
      let log := s.rd (R.HPT_ADMIN_CFG_LOG_SIZE p n)
      let s := s.wr (R.HPT_ADMIN_CFG_ENABLE p n) 1
      let s := s.setWq f adminQ (some { fn := f, qid := adminQ, base := s.rd (R.HPT_ADMIN_WQ_BASE_BASE p n), log := log, cq := 0 })
      let s := s.setCq f 0 (some { fn := f, h := 0, base := s.rd (R.HPT_ADMIN_CQ_BASE_BASE p n), log := log
                                   vector := s.rd (R.HPT_ADMIN_CFG_VECTOR p n) })
      .next (s.showReady f true)
    else .next s
  else if bitOf v.toNat 4 then .next s
  else
    match s.wq f adminQ with
    | some k =>
      if s.ringHeld k then .next s
      else
        match s.freshSlot k with
        | (s, true) =>
          let s := s.ringRead f ans
          .next (if quiet k ans then (((s.wr (R.HPT_ADMIN_CFG_ENABLE p n) 0).setWq f adminQ none).setCq f 0 none).showReady f false else s)
        | (s, false) => .next s
    | none => .next s

namespace State

/-- Acknowledge slots of a ring (R219): the ring after it, whether the vector is sent at once, or none when the write is
ignored. DESIGN CHOICE (log entry 122): ARM 0 leaves an armed queue armed. -/
def ackRing (r : Ring) (head : Nat) (arm : Bool) : Option (Ring × Bool) :=
  let size := 2 ^ r.log
  let n := ((head % size) + size - (r.next - r.used) % size) % size
  if n > r.used then none
  else
    let used := r.used - n
    let now := arm && decide (0 < used)
    some ({ r with used := used, overflow := r.overflow && n == 0, armed := if now then false else r.armed || arm }, now)

def ackErr (s : State) (f : Nat) : State := s.bump (R.HPT_FN_ACK_ERR (f / 128) (f % 128))

end State

/-- HPT_CQ_ACK (R219, R232): `wide` is an aligned 8-byte write. -/
def execHptCqAck (f : Fin 512) (wide : Bool) (v : BitVec 64) (s : State) : Out :=
  if !s.decodes f then .next (s.barDrop f)
  else if s.fnTeardown f then .next s
  else if !wide then .next (s.ackErr f)
  else
    match s.cqOf f (bitsOf v.toNat 0 16) with
    | none => .next (s.ackErr f)
    | some r =>
      match ackRing r (bitsOf v.toNat 16 20) (bitOf v.toNat 63) with
      | none => .next (s.ackErr f)
      | some (r', now) =>
        let s := s.setCq f (bitsOf v.toNat 0 16) (some r')
        let s := if now && r.vector != 0xFFFF then s.fnVector f r.vector else s
        .next (s.resumeRuns f (bitsOf v.toNat 0 16))

/-- HPT_EQ_ACK (R219, R222, R232). -/
def execHptEqAck (f : Fin 512) (wide : Bool) (v : BitVec 64) (s : State) : Out :=
  if !s.decodes f then .next (s.barDrop f)
  else if s.fnTeardown f then .next s
  else if !wide then .next (s.ackErr f)
  else
    match s.eqOf f (bitsOf v.toNat 0 11) with
    | none => .next (s.ackErr f)
    | some r =>
      match ackRing r (bitsOf v.toNat 16 16) (bitOf v.toNat 63) with
      | none => .next (s.ackErr f)
      | some (r', now) =>
        let s := s.setEq f (bitsOf v.toNat 0 11) (some r')
        .next (if now && r.vector != 0xFFFF then s.fnVector f r.vector else s)

/-- FETCH_GAP_PASSED (R182): the gap since the last fetch of f is over; its queues may be scanned again. -/
def execFetchGapPassed (f : Fin 512) (s : State) : Out :=
  .next (if s.gapOver f then s.setFn f { s.fnSt f with lastFetch := none } else s)

namespace State

/-- The end of a 2 µs window in which the functions `l` were affected (R182). -/
def endWindow (s : State) (l : List Nat) : State :=
  let lo := max 1 (s.rd R.CGC_GAP_CFG_GAP_MIN)
  let hi := max lo (s.rd R.CGC_GAP_CFG_GAP_MAX)
  let en := s.rdB R.CGC_GAP_CFG_THR_EN
  (List.range 512).foldl (fun (t : State) f =>
    let aff := l.contains f
    let g := s.rd (R.CGC_FN_STAT_GAP f)
    let g' := if !en then 0 else if aff then min hi (max lo (2 * g)) else if g / 2 < lo then 0 else g / 2
    let t := (t.wrB (R.CGC_FN_STAT_AFFECTED f) aff).wr (R.CGC_FN_STAT_GAP f) g'
    if g = 0 ∧ g' ≠ 0 then t.bump R.CGC_THROTTLE_ON else t) s

end State

/-- THROTTLE_WINDOW_END (R181, R182, R457): the end of a 2 µs window of fabric time. Functions affected since the boundary count in the
window that their moment lies in. -/
def execThrottleWindowEnd (s : State) : Out :=
  let win := s.winIdx 2000
  let late := fun (w : Nat) => (s.cgc.affLate.filter (fun x => x.1 == w)).map Prod.snd
  let s' := (((s.cgc.affLate.map Prod.fst).eraseDups.filter (· != win)).map late).foldl endWindow (s.endWindow s.cgc.affected)
  -- a function that still owns a packet waiting at a congested input or pawn is affected in the new window as well
  let still := (List.range 512).filter (fun f => s.cgc.congIn.any (fun i => (s.waitingAt i).any (fun x => x.fn == some f)) ||
    s.cgc.congPawn.any (fun n => (s.pawnQueue n).any (fun x => x.fn == some f)) || (late win).contains f)
  .next (if win = s.time.throttleWin then s
    else (s'.withTime { s'.time with throttleWin := win } : State).withCgc { s'.cgc with affected := still, affLate := [] })

/-- HOST_LINK_UP (R201): the link of an enabled host port is up at the highest rate and width that both ends support, and the host
enumerates the PF (log entry 93). -/
def execHostLinkUp (p : Fin 4) (gen : BitVec 3) (width : BitVec 5) (flit : Bool) (s : State) : Out :=
  let maxw := if s.rdB (R.HPT_PORT_CFG_MAX_X8 p) then 8 else 16
  if !s.rdB (R.HPT_PORT_CFG_ENABLE p) || s.rdB (R.HPT_PORT_STAT_LINK_UP p) || s.refuses (19 + p) || gen == 0 ||
      s.arb.stoppedUnits.contains (2, p.val) || s.rdB R.FLT_STATUS_RESET_REQ || bitOf (s.rd R.PWR_CLK_STAT_HP_LOST) p ||
      !([1, 2, 4, 8, 16].contains width.toNat) then .next s
  else
    let s := s.wr (R.HPT_PORT_STAT_LINK_UP p) 1
    let g := min gen.toNat (s.rd (R.HPT_PORT_CFG_MAX_GEN p))
    let s := s.wr (R.HPT_PORT_STAT_GEN p) g
    let s := s.wr (R.HPT_PORT_STAT_WIDTH p) (min width.toNat maxw)
    .next ((s.wrB (R.HPT_PORT_STAT_FLIT p) (flit || g == 6)).enumerated (128 * p))

namespace State

/-- VFs 1 to n of host port p exist (R205). -/
def createVfs (s : State) (p n : Nat) : State :=
  let s := (s.wr (R.HPT_PORT_STAT_VF_ENABLE p) 1).wr (R.HPT_PORT_STAT_NUM_VFS p) n
  (List.range n).foldl (fun s i => s.wr (R.HPT_FN_STAT_ENABLED p (i + 1)) 1) s

end State

namespace State

/-- VF Enable is set with NumVFs n (R205, R229): VFs 1 to n exist, each as after a reset; while functions of the port are in teardown they
are created at its end. A NumVFs above TotalVFs is not taken. -/
def vfEnableSet (s : State) (p : Fin 4) (n : Nat) : State :=
  let pf := 128 * p.val
  if !s.fnReach pf || decide (s.rd (R.HPT_PORT_CFG_TOTAL_VFS p) < n) then s
  else if (List.range 127).any (fun i => s.fnTeardown (pf + i + 1)) || s.fnTeardown pf then
    s.setFn pf { s.fnSt pf with recreate := some n }
  else if s.rdB (R.HPT_PORT_STAT_VF_ENABLE p) then s
  else (s.withPci (SMap.keep s.pci (fun f => f / 128 != p.val || f % 128 == 0))).createVfs p n

/-- The host writes NumVFs n, sets VF MSE and enumerates VFs 1 to n of host port p (log entry 93). -/
def enumerateVfs (s : State) (p n : Nat) : State :=
  let pf := 128 * p
  let s := (s.putCfg pf (0x6010, 0xFFFF, n)).putCfg pf (0x6008, 0x8, 0x8)
  (List.range n).foldl (fun s i => s.enumerated (pf + i + 1)) s

end State

/-- VF_ENABLE_SET (R205, R229): VF Enable is written with NumVFs n, and the VFs are enumerated. -/
def execVfEnableSet (p : Fin 4) (n : BitVec 7) (s : State) : Out :=
  let ok := s.fnReach (128 * p.val) && decide (n.toNat ≤ s.rd (R.HPT_PORT_CFG_TOTAL_VFS p)) && !s.rdB (R.HPT_PORT_STAT_VF_ENABLE p)
  let t := s.vfEnableSet p n.toNat
  .next (if ok then t.enumerateVfs p n.toNat else t)

/-- NOP (R215). -/
def execNop (w : BitVec 32) (s : State) : Out :=
  .next (match s.workEnt w.toNat with
    | some x => if fld x.ent 0 1 = 0 ∧ x.qid ≠ adminQ then (match s.canBuild x with
      | some _ => (s.stampWork w.toNat 0).finish w.toNat 0 0
      | none => s) else s
    | none => s)

end Sys2Proof.Machine
end

