-- ==== Sys2Proof/Machine/Translation.lean ====
section
/-!
DEFINITION. Table walks, cache expiry and invalidation (chapter 10). A walk takes one answer of the host per table read and
runs as one step; without enough answers nothing changes.
-/
namespace Sys2Proof.Machine

/-- A walk in progress: the answers left, the bus addresses read, the earliest table read that contributes (R243), the walk-cache entries it
used, and those it will put there. -/
structure Wk where
  ans : List HostAns
  reads : List Nat := []
  used : List WEnt := []
  earliest : Nat
  fills : List WEnt := []
  deriving DecidableEq, Repr

/-- Go on from a cached pointer. -/
def Wk.use (k : Wk) (e : WEnt) : Wk := { k with used := k.used ++ [e], earliest := min k.earliest e.readAt }

/-- A leaf found: output base and size as a power of two, attributes, level. -/
structure Leaf where
  out : Nat
  log : Nat
  attr : Nat
  level : Nat
  deriving DecidableEq, Repr

/-- How a walk ends. -/
inductive WRes where
  | leaf (k : Wk) (l : Leaf)
  | fault (k : Wk) (f : XFault)
  /-- a read has no answer yet -/
  | need
  deriving DecidableEq, Repr

/-- The PCI Express cause of a failed read (R241). -/
def busCause : HostAns → Nat
  | .ur => 0 | .ca => 1 | .poison => 2 | _ => 3

/-- The table entry of level n for an input address lies at this offset (R237). -/
def tblOff (n a : Nat) : Nat := 8 * bitsOf a (39 - 9 * n) 9

/-- Bits of a page of a leaf at level n (R237). -/
def leafLog (n : Nat) : Nat := 39 - 9 * n

/-- The leaf an entry is (R237): ADDR without the bits a larger page ignores, and its attributes. -/
def leafOf (e n : Nat) : Leaf :=
  { out := bitsOf e (leafLog n) (52 - leafLog n) * 2 ^ leafLog n, log := leafLog n, attr := bitsOf e 2 5, level := n }

namespace State

/-- One table read (R238, R240, R241): a window is never read. -/
def readTable (s : State) (k : Wk) (p bus : Nat) (stage2 : Bool) (level addr : Nat) : Except (Option (Wk × XFault)) (Wk × Nat) :=
  if s.inWindow p bus then .error (some (k, { kind := 4, stage2 := stage2, level := level, addr := addr }))
  else
    match k.ans with
    | [] => .error none
    | .ok bs :: rest => .ok ({ k with ans := rest, reads := k.reads ++ [bus] }, leOf ((bs.take 8).map BitVec.toNat))
    | a :: rest => .error (some ({ k with ans := rest, reads := k.reads ++ [bus] },
        { kind := 3, stage2 := stage2, level := level, bus := busCause a, addr := addr }))

/-- The deepest walk-cache entry for an input address that has not expired (R242, R243), nor would make the walk's own translation, which
lives `lim` from its earliest read, expired. -/
def walkHit (s : State) (p : Nat) (stage2 : Bool) (fn xctx a lim : Nat) : Option WEnt :=
  [3, 2, 1].findSome? (fun l => (SMap.get [] s.trn.walk p).find? (fun e =>
    e.stage2 == stage2 && e.fn == fn && e.xctx == xctx && e.level == l && e.pre == a / 2 ^ (48 - 9 * l) &&
      decide (s.ns < e.expire) && decide (s.ns < e.readAt + lim)))

/-- Walk a table from level `n` down (R237); `trans` gives the bus address of a table read and its cost in the walk. A pointer read is
kept with the earliest read that led to it, and lives `life` from then (R243). -/
def walkFrom (s : State) (p : Nat) (stage2 : Bool) (fn xctx a life : Nat) (trans : Wk → Nat → Nat → WRes) :
    Nat → Wk → Nat → Nat → WRes
  | 0, _, _, _ => .need
  | fuel + 1, k, n, table =>
    match trans k (table + tblOff n a) n with
    | .need => .need
    | .fault k f => .fault k f
    | .leaf k b =>
      match s.readTable k p b.out stage2 n a with
      | .error none => .need
      | .error (some (k, f)) => .fault k f
      | .ok (k, e) =>
        if !bitOf e 0 then .fault k { kind := 1, stage2 := stage2, level := n, addr := a }
        else if n = 3 ∨ ((n = 1 ∨ n = 2) ∧ bitOf e 1 = true) then .leaf k (leafOf e n)
        else
          let t := bitsOf e 12 40 * 4096
          let k := { k with fills := k.fills ++ [{
            stage2 := stage2, fn := fn, xctx := xctx, level := n + 1, pre := a / 2 ^ (48 - 9 * (n + 1)), src := b.out, table := t
            readAt := k.earliest, expire := k.earliest + life }] }
          walkFrom s p stage2 fn xctx a life trans fuel k (n + 1) t

/-- Lifetime of a VF's stage 2 in ns (R243). -/
def life2 (s : State) (fn : Nat) : Nat := s.rd (R.TRN_S2_CFG_LIFETIME_US fn) * 1000

/-- Walk stage 2 of a VF (R235, R236): none while its PF has not enabled it. `lim` is the least lifetime of the contexts walked. -/
def walk2 (s : State) (bypass : Bool) (fn a lim : Nat) (k : Wk) : WRes :=
  let p := fn / 128
  let life := s.life2 fn
  let direct := fun (k : Wk) (b _n : Nat) => WRes.leaf k { out := b, log := 12, attr := 31, level := 3 }
  if a ≥ 2 ^ 48 ∨ s.rd (R.TRN_S2_CFG_ENABLE fn) = 0 then .fault k { kind := 2, stage2 := true, level := 0, addr := a }
  else
    let begin_ := { k with earliest := s.ns }
    let r := match (if bypass then none else s.walkHit p true fn 0xFFFF a lim) with
      | some e => s.walkFrom p true fn 0xFFFF a life direct 4 (begin_.use e) e.level e.table
      | none => s.walkFrom p true fn 0xFFFF a life direct 4 begin_ 0 (s.rd (R.TRN_S2_ROOT_ROOT fn) * 4096)
    match r with
    | .leaf k' l => .leaf { k' with earliest := min k.earliest k'.earliest } l
    | r => r

/-- The bus address of a stage-1 table read (R238): translated by stage 2 for a VF, where the read needs R. DESIGN CHOICE (log entry 25): a table
pointer or ROOT of a VF at 2⁴⁸ or above is a permission fault of stage 1 at the level of the entry that would be read. -/
def table1 (s : State) (bypass : Bool) (fn lim : Nat) (k : Wk) (fpa n : Nat) : WRes :=
  if isPF fn then .leaf k { out := fpa, log := 12, attr := 31, level := 3 }
  else if fpa ≥ 2 ^ 48 then .fault k { kind := 2, stage2 := false, level := n, addr := fpa }
  else
    match s.walk2 bypass fn fpa lim k with
    | .leaf k l =>
      if bitOf l.attr 0 then .leaf k { l with out := l.out + fpa % 2 ^ l.log }
      else .fault k { kind := 2, stage2 := true, level := l.level, addr := fpa }
    | r => r

/-- Walk stage 1 of a context. -/
def walk1 (s : State) (bypass : Bool) (fn xctx : Nat) (c : Xctx) (a : Nat) (k : Wk) : WRes :=
  let p := fn / 128
  let life := if isPF fn then c.life * 1000 else min (c.life * 1000) (s.life2 fn)
  match (if bypass then none else s.walkHit p false fn xctx a life) with
  | some e => s.walkFrom p false fn xctx a life (s.table1 bypass fn life) 4 (k.use e) e.level e.table
  | none => s.walkFrom p false fn xctx a life (s.table1 bypass fn life) 4 k 0 c.root

/-- The checks of R239 on the leaves walked: the fault, if one fails. -/
def checkLeaves (s : State) (r : XReq) (bus : Nat) (l1 l2 : Option Leaf) (fpa : Nat) : Option XFault :=
  let win := s.inWindow (r.fn / 128) bus
  if win && r.ring then some { kind := 4, stage2 := true, level := 3, addr := r.addr }
  else
    let need := attrNeed r ||| (if win then 16 else 0)
    let lacks := fun (l : Option Leaf) => match l with | some l => l.attr &&& need != need | none => false
    if lacks l1 then some { kind := 2, stage2 := false, level := (l1.map Leaf.level).getD 0, addr := r.addr }
    else if lacks l2 then some { kind := 2, stage2 := true, level := (l2.map Leaf.level).getD 0, addr := fpa }
    else none

/-- What a complete walk answers: the combined entry with its expiry, and the fault of the checks, if any. -/
inductive WEnd where
  | done (k : Wk) (e : XEnt) (bad : Option XFault)
  | fault (k : Wk) (f : XFault)
  | need
  deriving DecidableEq, Repr

/-- The combined translation of a walk: one page of the smaller leaf, the AND of the attributes (R239, R243). -/
def combine (s : State) (r : XReq) (k : Wk) (l1 l2 : Option Leaf) (fpa life : Nat) : WEnd :=
  let log := min ((l1.map Leaf.log).getD 48) ((l2.map Leaf.log).getD 48)
  let bus := match l2 with | some l => l.out + fpa % 2 ^ l.log | none => fpa
  let attr := (match l1 with | some l => l.attr | none => 31) &&& (match l2 with | some l => l.attr | none => 31)
  .done k { fn := r.fn, xctx := r.xctx, base := r.addr - r.addr % 2 ^ log, log := log, out := bus - bus % 2 ^ log
            fpa := fpa - fpa % 2 ^ log, attr := attr
            expire := k.earliest + life } (s.checkLeaves r bus l1 l2 fpa)

/-- Walk an access through its stages (R234 to R241). -/
def walkAccess (s : State) (bypass : Bool) (r : XReq) (ans : List HostAns) : WEnd :=
  let k : Wk := { ans := ans, earliest := s.ns }
  if r.xctx = 0xFFFF then
    match s.walk2 bypass r.fn r.addr (s.life2 r.fn) k with
    | .leaf k l => s.combine r k none (some l) r.addr (s.life2 r.fn)
    | .fault k f => .fault k f
    | .need => .need
  else
    match s.xctxOf r.fn r.xctx with
    | none => .fault k { kind := 2, stage2 := false, level := 0, addr := r.addr }
    | some c =>
      match s.walk1 bypass r.fn r.xctx c r.addr k with
      | .fault k f => .fault k f
      | .need => .need
      | .leaf k l =>
        let fpa := l.out + r.addr % 2 ^ l.log
        if isPF r.fn then s.combine r k (some l) none fpa (c.life * 1000)
        else if l.out ≥ 2 ^ 48 then .fault k { kind := 2, stage2 := false, level := l.level, addr := r.addr }
        else
          match s.walk2 bypass r.fn fpa (min (c.life * 1000) (s.life2 r.fn)) k with
          | .leaf k l2 => s.combine r k (some l) (some l2) fpa (min (c.life * 1000) (s.life2 r.fn))
          | .fault k f => .fault k f
          | .need => .need

/-- A walk has made its table reads (R238): it is counted, and what it used and read goes to the front of the walk cache (R242, R243). -/
def endWalk (s : State) (r : XReq) (k : Wk) : State :=
  let p := r.fn / 128
  let s := k.reads.foldl (fun s bus => s.emit (.tableRead p (s.routingId r.fn) bus)) s
  let s := (s.bump R.TRN_WALKS).bumpBy R.TRN_WALK_READS k.reads.length
  let s := s.bumpBy R.TRN_WALK_HIT k.used.length
  let l := (k.used ++ k.fills).foldl (fun l e => lruPut 1024 (fun (y : WEnt) =>
    y.stage2 == e.stage2 && y.fn == e.fn && y.xctx == e.xctx && y.level == e.level && y.pre == e.pre) e l) (SMap.get [] s.trn.walk p)
  (s.withTrn { s.trn with walk := SMap.set [] s.trn.walk p l })

/-- The answer that a bus cause stands for (R241). -/
def causeAns : Nat → HostAns
  | 0 => .ur | 1 => .ca | 2 => .poison | _ => .timeout

/-- Note the fault that ends a walk, and a failed table read under AER (R241); its access takes it when it is tried again. -/
def keepFault (s : State) (r : XReq) (f : XFault) : State :=
  let s := s.noteFault r f
  let s := if f.kind = 3 then s.aerRead r.fn (causeAns f.bus) else s
  (s.withTrn { s.trn with faults := s.trn.faults ++ [(r, f)] })

end State

open State

/-- TRANSLATION_WALK (R238 to R248): the oldest access that waits for its walk. Where a cached entry, shared or of any pawn, failed the
checks, the walk bypasses every cache (R245). Held ring writes of its function that waited for it are tried again. -/
def execTranslationWalk (ans : List HostAns) (s : State) : Out :=
  .next (match s.trn.walks with
    | [] => s
    | r :: rest =>
      let live := fun (l : List XEnt) => l.filter (fun e => entCovers r e && decide (s.ns < e.expire))
      let shared := live (SMap.get [] s.trn.shared (r.fn / 128))
      let micro := live (match r.pawn with | some n => SMap.get [] s.trn.micro n | none => [])
      let bypass := !shared.isEmpty || s.trn.micro.any (fun m => !(live m.2).isEmpty)
      let drop := fun (s : State) => (s.withTrn { s.trn with walks := rest })
      if (shared ++ micro).any (entPasses s r) then (drop s).flushHeld r.fn
      else
        match s.walkAccess bypass r ans with
        | .need => s
        | .fault k f => (((drop s).endWalk r k).keepFault r f).flushHeld r.fn
        | .done k e bad =>
          let s := (((drop s).endWalk r k).fillShared e).fillMicro r.pawn e
          let s := match bad with | some f => s.keepFault r f | none => s
          s.flushHeld r.fn)

/-- CACHE_ENTRY_EXPIRE (R243): entries of host port p past their lifetime leave the caches, counted in TRN_EXPIRED. -/
def execCacheEntryExpire (p : Fin 4) (s : State) : Out :=
  let dead := fun (e : XEnt) => e.fn / 128 == p.val && decide (e.expire ≤ s.ns)
  let n := ((SMap.get [] s.trn.shared p).filter dead).length + (s.trn.micro.map (fun m => (m.2.filter dead).length)).sum
  let t := { s.trn with
    shared := SMap.set [] s.trn.shared p ((SMap.get [] s.trn.shared p).filter (fun e => !dead e))
    micro := SMap.mapAll [] s.trn.micro (fun _ l => l.filter (fun e => !dead e)) }
  .next ((s.withTrn t).bumpBy R.TRN_EXPIRED n)

namespace State

/-- Drop every cached entry that `hit` names, and the walk-cache entries that `hitW` names (R246). -/
def invalidate (s : State) (hit : XEnt → Bool) (hitW : WEnt → Bool) : State :=
  let t := { s.trn with
    shared := SMap.mapAll [] s.trn.shared (fun _ l => l.filter (fun e => !hit e))
    micro := SMap.mapAll [] s.trn.micro (fun _ l => l.filter (fun e => !hit e))
    walk := SMap.mapAll [] s.trn.walk (fun _ l => l.filter (fun e => !hitW e)) }
  (s.withTrn t)

/-- Invalidate a whole context. -/
def invalidateCtx (s : State) (f x : Nat) : State :=
  s.invalidate (fun e => e.fn == f && e.xctx == x) (fun e => !e.stage2 && e.fn == f && e.xctx == x)

/-- Invalidate a whole stage 2: every translation of the function derives from it. -/
def invalidateS2 (s : State) (f : Nat) : State := s.invalidate (fun e => e.fn == f) (fun e => e.stage2 && e.fn == f)

/-- Resolve every page request of a function, or of one context of it, without waking anything (R252, R254). -/
def dropPages (s : State) (hit : PageReq → Bool) : State :=
  let s := s.withTrn { s.trn with pages := s.trn.pages.filter (fun q => !hit q) }
  (List.range 4).foldl showPages s

end State
end Sys2Proof.Machine
end

