-- ==== Sys2Proof/Machine/ConnOps.lean ====
section
/-!
DEFINITION. The operations on connections (chapter 11): contexts, tombstones, building of packets, acknowledgements,
release, windows and timeouts, and the failure of a connection with its effect on matching (R313).
-/
namespace Sys2Proof.Machine

/-- What a Request- or Forward-class packet of a connection is built from. -/
structure ReqSpec where
  op : Nat
  pin : Bool := true
  event : Bool := false
  /-- last packet of its work entry (R266) -/
  last : Bool := false
  area : List (Nat × Nat × Nat) := []
  pay : List Square := []
  work : Option Nat := none
  qid : Nat := 0
  job : Option Nat := none
  yellow : Bool := false
  /-- bytes it counts in flight (R183) -/
  bytes : Nat := 0
  answer : Bool := false
  deriving DecidableEq, Repr

/-- A message stages ceil(MLEN / 64) squares when it is eager (R301). -/
def Msg.squares (m : Msg) : Nat := if m.rts then 0 else squaresFor m.mlen

/-- Squares held in the retransmission store for an entry: read and not yet sent. -/
def WorkEnt.heldSq (x : WorkEnt) : Nat := if x.fin.isSome then 0 else (x.held.map (fun e => e.2.length)).sum

namespace State

/-! Configured values (R185, R264, R270). -/
def wMin (s : State) : Nat := max 64 (s.rd R.CGC_WIN_LIM_W_MIN) * 64
/-- DESIGN CHOICE (log entry 122): with W_MAX below W_MIN, W_MIN is both limits (R200). -/
def wMax (s : State) : Nat := max s.wMin (s.rd R.CGC_WIN_LIM_W_MAX * 64)
def wInit (s : State) : Nat := min s.wMax (max s.wMin (s.rd R.CGC_WIN_LIM_W_INIT * 64))
/-- The window in force: W_MAX with WIN_EN 0 (R185). -/
def effW (s : State) (c : Conn) : Nat := if s.rdB R.CGC_WIN_CFG_WIN_EN then c.w else s.wMax
def rtoMin (s : State) : Nat := max 8000 (s.rd R.XPT_RTO_CFG_RTO_MIN)
def rtoInit (s : State) : Nat := max s.rtoMin (s.rd R.XPT_RTO_CFG_RTO_INIT)
def rtoMax (s : State) : Nat := s.rd R.XPT_RTO_CFG_RTO_MAX * 1000
def idleNs (s : State) : Nat := max (s.rd R.XPT_CONN_CFG_IDLE_CLOSE * 1000000) (2 * s.ageLimit)

/-- A connection is used: its quiet timer starts (R264, R289). -/
def used (s : State) (c : Conn) : Conn := { c with lastUse := s.now, idle := s.idleNs }

/-- Payload bytes in flight (R183). -/
def inflight (c : Conn) : Nat := (c.outst.map OutPkt.bytes).sum

/-- Bytes whose read for a packet of the connection has been issued and has not returned. -/
def readBytes (s : State) (cid : Nat) : Nat := (s.reads.map (fun r => match r.why with
  | .payload w _ l => (match s.workEnt w with | some x => if x.cid == some cid then l else 0 | none => 0)
  | _ => 0)).sum

/-- Payload bytes of PUTs of the connection that have been read and are not yet sent. -/
def heldBytes (s : State) (cid : Nat) : Nat := (s.work.map (fun e => match e.2 with
  | some x => if x.cid == some cid && fld x.ent 0 1 == 1 && x.fin.isNone then x.readB - min x.readB (4096 * x.sent) else 0
  | none => 0)).sum

/-- A packet of L bytes, or a get of MLEN L, may start (R183). -/
def mayStart (s : State) (c : Conn) (l : Nat) : Bool :=
  let b := inflight c
  b == 0 || decide (b + l ≤ s.effW c)

/-- The payload of a packet of L bytes may be read ahead: with what is in flight, being read and held unsent, it fits the window
(R183). -/
def mayFetch (s : State) (cid : Nat) (c : Conn) (l : Nat) : Bool :=
  let b := inflight c + s.readBytes cid + s.heldBytes cid
  b == 0 || decide (b + l ≤ s.effW c)

/-- The sender's PSN window (R265). -/
def psnRoom (c : Conn) (n : Nat) : Bool :=
  match c.outst with | o :: _ => decide ((c.nextPsn + n + 2 ^ 32 - o.psn) % 2 ^ 32 ≤ 4095) | [] => true

/-- Reads issued for packets of the connection that have no PSN yet. -/
def readsOf (s : State) (cid : Nat) : Nat := (s.reads.filter (fun r => match r.why with
  | .payload w _ _ => (match s.workEnt w with | some x => x.cid == some cid | none => false)
  | _ => false)).length

/-! The retransmission store (R272). -/

/-- Squares held: outstanding data packets, payload read and not sent, and payload whose read is under way. -/
def storeUsed (s : State) : Nat :=
  (s.xpt.conns.map (fun e => match e.2 with | some c => (c.outst.map OutPkt.store).sum | none => 0)).sum +
  (s.work.map (fun e => match e.2 with | some x => x.heldSq | none => 0)).sum +
  (s.reads.map (fun r => match r.why with | .payload _ _ l => squaresFor l | .operand _ => 1 | _ => 0)).sum

/-- A new data packet of n squares may be built by the pawn; otherwise the pawn waits, counted once (R272). -/
def storeRoom (s : State) (pawn n : Nat) : State × Bool :=
  if n = 0 then (s, true)
  else if s.xpt.storeWait.any (fun x => x.1 == pawn) then (s, false)
  else if s.storeUsed + n ≤ s.storeSize then (s, true)
  else (((s.bump R.XPT_STORE_WAIT).withXpt { s.xpt with storeWait := s.xpt.storeWait ++ [(pawn, n)] }), false)

/-! Contexts and tombstones (R258, R260, R261). -/

def ctxUsed (s : State) : Nat := s.xpt.conns.length + (s.xpt.tombs.filter Tomb.ctx).length
def tombCount (s : State) : Nat := (s.xpt.tombs.filter (fun t => !t.ctx)).length
def ctxFull (s : State) : Bool := decide (4194304 ≤ s.ctxUsed)
def tombFull (s : State) : Bool := decide (65536 ≤ s.tombCount)
def tombed (s : State) (cid epoch : Nat) : Bool :=
  s.xpt.tombs.any (fun t => t.cid == cid && t.epoch == epoch && decide (s.now < t.until_))
def addTomb (s : State) (cid epoch : Nat) : State :=
  (s.withXpt { s.xpt with tombs := s.xpt.tombs ++ [{ cid := cid, epoch := epoch, until_ := s.now + s.ageLimit, ctx := s.tombFull }] })

/-- The next epoch for a key: the counter, skipping 0 and tombstoned values. -/
def nextEpoch : Nat → State → Nat → Nat → Nat
  | 0, _, _, e => e
  | fuel + 1, s, cid, e => if e = 0 ∨ s.tombed cid e = true then nextEpoch fuel s cid ((e + 1) % 65536) else e

/-- Use a context: the 65,536 used last are on die (R258). -/
def touch (s : State) (cid : Nat) : State :=
  match s.conn cid with
  | some c =>
    let later := (s.xpt.conns.filter (fun e => match e.2 with | some d => decide (c.lastUse < d.lastUse) | none => false)).length
    let s := if 65536 ≤ later then s.bump R.XPT_CTX_MISS else s
    s.setConn cid (some (s.used c))
  | none => s

/-- Create a context (R258, R260, R262); none when no pawn is active. -/
def newConn (s : State) (f peer cn state epoch : Nat) : State × Bool :=
  match s.choosePawn s.pawnConns with
  | none => (s, false)
  | some n =>
    ((s.setConn (cidOf f peer cn) (some { fn := f, peer := peer, conn := cn, pawn := n, state := state, epoch := epoch
                                          w := if s.rdB R.CGC_WIN_CFG_WIN_EN then s.wInit else s.wMax
                                          rto := s.rtoInit, lastUse := s.now, idle := s.idleNs, baseWin := s.winIdx 10000000 })).bump R.XPT_OPENS, true)

/-- Open a connection for local work (R260). -/
def openConn (s : State) (f peer cn : Nat) : State × Bool :=
  if s.ctxFull then (s, false)
  else
    let (s, e) := match s.xpt.epoch with
      | some e => (s, (e + 1) % 65536)
      | none => (s.draw, (Config.entropy s.rng).toNat % 65536)
    let e := nextEpoch (s.xpt.tombs.length + 2) s (cidOf f peer cn) e
    let s := s.withXpt { s.xpt with epoch := some e }
    s.newConn f peer cn 1 e

/-! Building (R259, R266, R273). -/

/-- The local input a packet of function f enters by: its host complex with payload, the engine complex without. -/
def inputOf (f : Nat) (pay : List Square) : Nat := if pay.isEmpty then 0 else 3 + f / 128

/-- What a departure notice says of a request packet: its entry and PSN, or its connection and PSN for a GET_RDV, which has no
entry (R184). -/
def depOf (cid psn : Nat) (work : Option Nat) (op : Nat) : Option Nat :=
  match work with
  | some w => some (w * 2 ^ 32 + psn)
  | none => if op = 0x20 then some (2 ^ 96 + cid * 2 ^ 32 + psn) else none

/-- Send a Request- or Forward-class packet on a connection; answers its PSN. -/
def sendReq (s : State) (cid : Nat) (q : ReqSpec) : State × Nat :=
  match s.conn cid with
  | none => (s, 0)
  | some c =>
    let half := decide (s.effW c ≤ 2 * (inflight c + q.bytes))
    let psn := c.nextPsn
    let p := mkPkt { dest := c.peer, src := s.fnFa c.fn, opcode := q.op, pin := q.pin, conn := c.conn, epoch := c.epoch
                     psn := psn, open_ := c.state == 1, ackreq := q.last || half, event := q.event } (mkArea q.area) q.pay
    let o : OutPkt := { psn := psn, pkt := p, work := q.work, last := s.now, answer := q.answer
                        bytes := q.bytes, store := q.pay.length, qid := q.qid, job := q.job, yellow := q.yellow
                        open_ := c.state == 1 }
    let s := s.setConn cid (some (s.freezeConn (s.used { c with nextPsn := (psn + 1) % 2 ^ 32, outst := c.outst ++ [o] })))
    let s := match q.work with | some w => s.modWork w (fun x => { x with sent := x.sent + 1 }) | none => s
    (s.build (inputOf c.fn q.pay) p (some c.fn) q.job (some c.pawn) (depOf cid psn q.work q.op) q.yellow, psn)

/-- Send a Reply-class packet from function f on a connection key; a context of that incarnation has sent a packet (R264). -/
def sendReply (s : State) (f peer cn epoch op psn : Nat) (pin : Bool) (area : List (Nat × Nat × Nat)) (pay : List Square) : State :=
  let p := mkPkt { dest := peer, src := s.fnFa f, opcode := op, pin := pin, conn := cn, epoch := epoch, psn := psn } (mkArea area) pay
  let cid := cidOf f peer cn
  let pawn := (s.conn cid).map Conn.pawn
  let s := match s.conn cid with
    | some c => if c.epoch = epoch then s.setConn cid (some (s.used c)) else s
    | none => s
  s.build (inputOf f pay) p (some f) none pawn none false

/-- The Ack layout (R58). -/
def ackArea (origin cstamp code retry : Nat) : List (Nat × Nat × Nat) := [(32, 4, origin), (36, 1, cstamp), (37, 1, code), (38, 2, retry)]

/-- The PSNs a SACK marks, as its payload square (R58): bit i stands for E + 1 + i. -/
def sackSquare (c : Conn) : Square :=
  BitVec.ofNat 512 (c.bitmap.foldl (fun a q =>
    let i := (q + 2 ^ 32 - (c.e + 1)) % 2 ^ 32
    if i < 256 then a ||| 2 ^ (511 - i) else a) 0)

/-- Send an ACK, SACK or NAK with PSN E − 1 (R266, R268, R269). -/
def sendAck (s : State) (cid code retry : Nat) : State :=
  match s.conn cid with
  | none => s
  | some c =>
    let cum := (c.e + 2 ^ 32 - 1) % 2 ^ 32
    let q := sackSquare c
    let sack := code == 0 && q != 0
    let s := if code = 0 then (s.setConn cid (some { c with ackCount := 0, ackFrom := none })).bump
        (if sack then R.XPT_SACK_TX else R.XPT_ACK_TX) else s
    s.sendReply c.fn c.peer c.conn c.epoch (if sack then 0x41 else 0x40) cum true
      (ackArea c.trigOrigin c.trigCstamp code retry) (if sack then [q] else [])

/-- A packet that triggers the next acknowledgement (R266). -/
def trigger (s : State) (cid : Nat) (p : Pkt) : State :=
  match s.conn cid with
  | some c => s.setConn cid (some { c with trigOrigin := p.origin, trigCstamp := p.cstamp })
  | none => s

/-- Answer a packet for which no context is used (R262). -/
def answerKey (s : State) (f : Nat) (p : Pkt) (code retry : Nat) : State :=
  s.sendReply f p.srcFa p.conn p.epoch 0x40 0xFFFFFFFF true (ackArea p.origin p.cstamp code retry) []

/-- NAK_EPOCH for a packet, whatever function it names (R262). -/
def nakEpoch (s : State) (p : Pkt) : State := s.answerKey (faFn p.destFa) p 5 0

/-! Windows and timeouts (R184, R185, R270). -/

/-- The loop of R185 that raises W by AI for every window of bytes. -/
def growW (ai mx : Nat) : Nat → Nat → Nat → Nat × Nat
  | 0, acc, w => (acc, w)
  | fuel + 1, acc, w => if w ≤ acc then growW ai mx fuel (acc - w) (min mx (w + ai)) else (acc, w)

/-- on_sample of R185. -/
def onSample (s : State) (c : Conn) (d b : Nat) : Conn :=
  let cur := match c.curMin with | some m => min m d | none => d
  let base := match c.prevMin with | some m => min m cur | none => cur
  let target := base + s.rd R.CGC_WIN_CFG_SLACK
  let c := { c with curMin := some cur, w := min s.wMax (max s.wMin c.w) }
  if !s.rdB R.CGC_WIN_CFG_WIN_EN then { c with w := s.wMax }
  else if d ≤ target then
    let (acc, w) := growW (s.rd R.CGC_WIN_CFG_AI) s.wMax ((c.acc + b) / 64 + 1) (c.acc + b) c.w
    { c with acc := acc, w := w }
  else if c.tDec + d ≤ s.ns then
    let cut := min (s.rd R.CGC_WIN_CFG_MD_MAX) (s.rd R.CGC_WIN_CFG_BETA * (d - target) / d)
    { c with w := max s.wMin (c.w - c.w * cut / 256), tDec := s.ns, acc := 0 }
  else c

/-- The minima of a connection in the 10 ms window w (R185, R457): a boundary makes the current minimum the previous one, and a second one
leaves none. -/
def baseWindow (c : Conn) (w : Nat) : Conn :=
  if c.baseWin = w then c
  else { c with baseWin := w, curMin := none
                prevMin := if c.baseWin / 2 ^ 96 = w / 2 ^ 96 ∧ c.baseWin + 1 < w then none else c.curMin }

/-- srtt, rttvar and RTO of a sample (R270); divisions round down. -/
def onRtt (s : State) (c : Conn) (d : Nat) : Conn :=
  let (sr, rv) := match c.srtt with
    | none => (d, d / 2)
    | some sr =>
      let rv := ((c.rttvar : Int) + (((d : Int) - sr).natAbs - (c.rttvar : Int)) / 4).toNat
      (((sr : Int) + ((d : Int) - sr) / 8).toNat, rv)
  { c with srtt := some sr, rttvar := rv, rto := min s.rtoMax (max s.rtoMin (sr + 4 * rv)) }

/-- A delay sample with the bytes it newly releases (R184). -/
def sample (s : State) (cid d b : Nat) : State :=
  match s.conn cid with
  | some c => s.setConn cid (some (s.onRtt (s.onSample (baseWindow c (s.winIdx 10000000)) d b) d))
  | none => s

/-- Delay since an echoed ORIGIN (R184). -/
def echoDelay (s : State) (origin : Nat) : Nat := ageOf s.ns origin

/-! Reply landing space (R173, R186, R274, R353). -/

/-- 64-byte slots of the landing partition (R409); before an Opening, those of the least size it may have. -/
def landSize (s : State) : Nat := if s.opening.isSome then (s.partition 8).2 / 64 else 4194304

/-- Slots in use: landing records of pieces, recorded grant requests, messages that have asked for a grant and lock requests, until they
complete. -/
def landUsed (s : State) : Nat :=
  (s.xpt.conns.map (fun e => match e.2 with | some c => c.landings.length + c.gr.length | none => 0)).sum +
  (s.work.filter (fun e => match e.2 with
    | some x => x.fin.isNone && x.qid != adminQ && ((fld x.ent 0 1 == 6 && x.started) || ((fld x.ent 0 1 == 1 || fld x.ent 0 1 == 3) && x.asked))
    | none => false)).length

/-- n more slots may be reserved. -/
def landRoom (s : State) (n : Nat) : Bool := decide (s.landUsed + n ≤ s.landSize)

/-! Release (R267). -/

/-- Release the outstanding packets that `hit` names; a change of the oldest one ends the run of timeouts and retries.
Answers the payload bytes released. -/
def release (s : State) (cid : Nat) (hit : OutPkt → Bool) : State × Nat :=
  match s.conn cid with
  | none => (s, 0)
  | some c =>
    let gone := c.outst.filter hit
    let rest := c.outst.filter (fun o => !hit o)
    let moved := decide (rest.head?.map OutPkt.psn ≠ c.outst.head?.map OutPkt.psn)
    let c' := { c with outst := rest, retry := if moved then 0 else c.retry
                       nakSince := if moved then none else c.nakSince
                       nakRetry := if rest.isEmpty then none else c.nakRetry
                       nakHeld := c.nakHeld.filter (fun q => rest.any (fun o => o.psn == q)) }
    let s := s.setConn cid (some (s.freezeConn c'))
    let s := gone.foldl (fun s o => match o.work with
      | some w => if rest.any (fun r => r.work == some w) || !(s.workEnt w).all WorkEnt.built then s else s.stampWork w 3
      | none => s) s
    (s, (gone.map OutPkt.bytes).sum)

/-- PSN a is at or before b on a connection's own series. -/
def psnLe (a b : Nat) : Bool := decide ((b + 2 ^ 32 - a) % 2 ^ 32 < 2 ^ 31)

/-! Resends (R270, R271). -/

/-- A quench or invalid time keeps an outstanding packet of a connection from being built again (R142, R190). -/
def heldBack (s : State) (c : Conn) (o : OutPkt) : Bool := s.timeHeld || s.quenched c.fn (o.job.getD 0xFFFF)

/-- Resend an outstanding packet from the store, with RETX, ACKREQ and a new ORIGIN, unless it is held back. -/
def resend (s : State) (cid : Nat) (o : OutPkt) (openIt : Bool) (counter : FRef) : State :=
  match s.conn cid with
  | none => s
  | some c =>
    if s.heldBack c o then s
    else
      let op := o.pkt.opw ||| 2 ^ 9 ||| 2 ^ 10 ||| (if o.open_ || openIt then 2 ^ 8 else 0)
      let p := (o.pkt.u 12 4 op).u 18 2 c.epoch
      let o' := { o with last := s.now, open_ := o.open_ || openIt, pkt := (o.pkt.u 18 2 c.epoch) }
      let s := s.setConn cid (some (s.used { c with outst := c.outst.map (fun x => if x.psn == o.psn then o' else x) }))
      ((s.bump counter).bumpFn c.fn 9 1).build 0 p (some c.fn) o.job (some c.pawn) (depOf cid o.psn o.work o.pkt.opcode) o.yellow

/-! Matching's part in a failure (R313). -/

def msgOf (s : State) (m : Nat) : Option Msg := SMap.get none s.mtc.msgs m
def setMsg (s : State) (m : Nat) (v : Option Msg) : State := s.withMtc { s.mtc with msgs := SMap.set none s.mtc.msgs m v }

/-- Free the entry of a message; its index's generation rises (R310). -/
def freeMsg (s : State) (m : Nat) : State :=
  let s := s.setMsg m none
  if m < 2 ^ 22 then (s.withMtc { s.mtc with gens := SMap.modify 0 s.mtc.gens m (fun g => (g + 1) % 1024) }) else s

/-- Packets of a message accounted for. -/
def msgWhole (m : Msg) : Bool := decide (m.got.length = pktCount m.mlen)

/-- The receive of a matched message is still incomplete (R304, R306): packets or pulled bytes are missing; one whose data are all staged
goes on. -/
def msgOpen (m : Msg) : Bool := if m.rts then true else !msgWhole m

/-- The sequence records of a connection incarnation fail (R313); `st` is the status and DETAIL of a receive: that of R271 for the one
whose pull a NAK names (R306), REMOTE_FAILED otherwise. -/
def failMatching (s : State) (cid epoch : Nat) (st : Nat → Nat × Nat) : State :=
  s.mtc.msgs.foldl (fun s e =>
    match e.2 with
    | none => s
    | some m =>
      if m.cid != cid || m.epoch != epoch then s
      else
        match m.state with
        | .matched =>
          if !msgOpen m then s
          else
            let s := match m.recv with | some w => s.finish w (st w).1 (st w).2 m.tag 0 m.src | none => s
            (s.bump R.MTC_MSG_FAILED).freeMsg e.1
        | .early => (s.bump R.MTC_MSG_FAILED).freeMsg e.1
        | _ => if m.rts || !msgWhole m then (s.bump R.MTC_MSG_FAILED).freeMsg e.1 else s) s

/-! Keys (R282, R298). -/
def mrOf (s : State) (i : Nat) : Option Mr := SMap.get none s.xpt.mrs i
def setMr (s : State) (i : Nat) (v : Option Mr) : State := s.withXpt { s.xpt with mrs := SMap.set none s.xpt.mrs i v }
def mrGen (s : State) (i : Nat) : Nat := SMap.get 0 s.xpt.gens i
/-- The key of an index: [31:8] index, [7:0] generation. -/
def keyOf (s : State) (i : Nat) : Nat := i * 256 + s.mrGen i
/-- A free index: freed ones before new ones, oldest freed first. -/
def takeMr (s : State) : Option (State × Nat) :=
  match s.xpt.freeMr with
  | i :: rest => some ((s.withXpt { s.xpt with freeMr := rest }), i)
  | [] => if s.xpt.nextMr < 2 ^ 24 then some ((s.withXpt { s.xpt with nextMr := s.xpt.nextMr + 1 }), s.xpt.nextMr) else none
/-- Release an index: its generation rises and it returns to the pool. -/
def freeMrIdx (s : State) (i : Nat) : State :=
  let s := s.setMr i none
  (s.withXpt { s.xpt with gens := SMap.set 0 s.xpt.gens i ((s.mrGen i + 1) % 256), freeMr := s.xpt.freeMr ++ [i] })
/-- A send key enters its drain of one age limit (R298, R313). -/
def drainKey (s : State) (key : Option Nat) : State :=
  match key with
  | some k => (match s.mrOf (k / 256) with
    | some m => if m.draining.isSome then s else s.setMr (k / 256) (some { m with work := none, draining := some (s.now + s.ageLimit) })
    | none => s)
  | none => s

/-! Completion under R279 and R280. -/

/-- Complete an entry whose own conditions are met; a FLUSH, or an entry with FENCE, reports the queue's pending remote error
on its connection (R280). -/
def complete (s : State) (w status detail bytes : Nat) (src : Nat := 0) : State :=
  match s.workEnt w with
  | none => s
  | some x =>
    let s := s.drainKey x.key
    match s.wq x.fn x.qid with
    | some k =>
      (match k.remoteErr with
      | some (st, d, cid) =>
        if (fld x.ent 0 1 == 5 || bitOf (fld x.ent 1 1) 1) && x.cid == some cid && status == 0 then
          (s.setWq x.fn x.qid (some { k with remoteErr := none })).finish w st d 0 0 src
        else s.finish w status detail 0 bytes src
      | none => s.finish w status detail 0 bytes src)
    | none => s.finish w status detail 0 bytes src

/-- A PUT or eager SEND fails after it has completed (R280). -/
def remoteErr (s : State) (f q cid status detail : Nat) : State :=
  match s.wq f q with
  | some k => if k.remoteErr.isSome then s.bump R.XPT_PEND_LOST
    else s.setWq f q (some { k with remoteErr := some (status, detail, cid) })
  | none => s

/-- Distinct elements of a list, in order. -/
def distinct (l : List Nat) : List Nat := l.foldl (fun a x => if a.contains x then a else a ++ [x]) []

/-- Change a connection's part of its host port's OUTSTANDING, and the register (R187). -/
def changeOutst (s : State) (cid : Nat) (n : Int) : State :=
  match s.conn cid with
  | none => s
  | some c =>
    let p := c.fn / 128
    let o := SMap.get 0 s.xpt.outst p + n
    let s := s.setConn cid (some { c with outB := c.outB + n })
    let s := s.withXpt { s.xpt with outst := SMap.set 0 s.xpt.outst p o }
    s.wr (R.CGC_GRANT_BUDGET_OUTSTANDING p) ((o.toNat + 1023) / 1024)

/-- Bytes of packet i of a message that lie below an offset. -/
def pktBelow (mlen i off : Nat) : Nat := min (pktLen mlen i) (off - 4096 * i)

/-- Packets of a message have been placed: the granted bytes among them leave OUTSTANDING (R187). `key` names the message; the first
request of its length that is for no other message is its own (log entry 16); without one they are kept for a request on its way. `is` are
the placed packets, `seen` those that a request just found for it counts as well. -/
def grantPlaced (s : State) (cid key mlen : Nat) (is seen : List Nat) : State :=
  match s.conn cid with
  | none => s
  | some c =>
    match (match c.gr.find? (fun g => g.key == some key) with
      | some g => some g
      | none => c.gr.find? (fun g => g.key.isNone && g.mlen == mlen)) with
    | none => s.setConn cid (some { c with ahead := c.ahead ++ is.map (fun i => (key, mlen, i)) })
    | some g =>
      let new := ((if g.key.isNone then seen ++ is else is).filter (fun i => !g.got.contains i)).eraseDups
      let s := s.setConn cid (some { c with gr := c.gr.map (fun x =>
        if x.psn == g.psn then { x with key := some key, got := x.got ++ new } else x) })
      s.changeOutst cid (-((new.map (fun i => pktBelow g.mlen i g.goff)).sum : Int))

/-- The key of a PUT in its grant request. -/
def putKey (first : Nat) : Nat := 2 ^ 64 + first
/-- The key of a message in its grant request. -/
def msgKey (dom msn : Nat) : Nat := dom * 2 ^ 32 + msn

/-- A context is released: what it still had granted or pulled leaves OUTSTANDING (log entry 16). -/
def dropConn (s : State) (cid : Nat) : State :=
  match s.conn cid with
  | some c => (s.changeOutst cid (-c.outB)).setConn cid none
  | none => s

/-- The connection an entry uses, or will use: its own, or the one its rank names, resolved once (R65). -/
def cidFor (s : State) (x : WorkEnt) : Option Nat :=
  match x.cid with
  | some c => some c
  | none =>
    if 1 ≤ fld x.ent 0 1 ∧ fld x.ent 0 1 ≤ 5 ∧ x.qid ≠ adminQ then
      match s.wq x.fn x.qid with
      | some k =>
        ((match x.dest with | some fa => some fa | none => s.resolveRank k.job (fld x.ent 4 4)).map (fun fa => cidOf x.fn fa x.lane))
      | none => none
    else none

/-- The entries consumed for a connection and not complete (R264, R287). -/
def openWork (s : State) (cid : Nat) : List Nat :=
  s.work.filterMap (fun e => match e.2 with
    | some x => if x.fin.isNone && s.cidFor x == some cid then some e.1 else none
    | none => none)

/-- PENDING of a host port: entries that wait for a grant, saturating. -/
def showGrants (s : State) (p : Nat) : State :=
  s.wr (R.CGC_GRANT_BUDGET_PENDING p) (min 65535 (SMap.get [] s.xpt.grants p).length)

/-- A connection fails (R287). `nak`: the work entry that a NAK_ACCESS or NAK_INVALID names, with its status and DETAIL. -/
def failConn (s : State) (cid detail : Nat) (nak : Option (Nat × Nat × Nat)) : State :=
  match s.conn cid with
  | none => s
  | some c =>
    let st := fun (w : Nat) => match nak with | some (x, st, d) => if x = w then (st, d) else (12, detail) | none => (12, detail)
    let open_ := s.openWork cid
    let late := distinct ((c.outst.filter (fun o => o.pkt.opcode == 1 || o.pkt.opcode == 3)).filterMap (fun o =>
      match o.work with
      | some w => if open_.contains w then none else some w
      | none => none))
    let qidOf := fun (w : Nat) => match c.outst.find? (fun o => o.work == some w) with | some o => o.qid | none => 0
    let s := open_.foldl (fun s w => s.complete w (st w).1 (st w).2 0) s
    let s := late.foldl (fun s w => s.remoteErr c.fn (qidOf w) cid (st w).1 (st w).2) s
    let s := s.failMatching cid c.epoch st
    let s := (s.bump R.XPT_CONN_FAILED).wr R.XPT_LAST_FAIL_PEER_FA c.peer
    let s := (s.wr R.XPT_LAST_FAIL_CONN c.conn).wr R.XPT_LAST_FAIL_DETAIL detail
    let s := (s.wr R.XPT_LAST_FAIL_FN_FUNC c.fn).wr R.XPT_LAST_FAIL_FN_EPOCH c.epoch
    let s := s.event c.fn 0 4 0 (c.peer + c.conn * 2 ^ 32 + c.epoch * 2 ^ 48 + detail * 2 ^ 64 + open_.length * 2 ^ 96)
    let s := (s.withXpt { s.xpt with
      homeIn := s.xpt.homeIn.filter (fun h => h.1 != cid), grantIn := s.xpt.grantIn.filter (fun h => h.1 != cid)
      grants := SMap.mapAll [] s.xpt.grants (fun _ l => l.filter (fun g => g.1 != cid)) })
    ((s.showGrants (c.fn / 128)).dropConn cid).addTomb cid c.epoch

/-- The context of a connection is lost in a fenced pseudo-channel (R442). -/
def loseContext (s : State) (cid : Nat) : State :=
  match s.conn cid with
  | some c => s.setConn cid (some { c with lost := true })
  | none => s

/-- A use of a connection's context: one found lost fails with DETAIL 0x81 (R288). -/
def useContext (s : State) (cid : Nat) : State :=
  match s.conn cid with
  | some c => if c.lost then s.failConn cid 0x81 none else s
  | none => s

/-! Acceptance and refusal (R265 to R269). -/

/-- ACKREQ, ACK_COALESCE and ACK_DELAY (R266): count an acceptance and send the ACK it calls for. -/
def ackAccepted (s : State) (cid : Nat) (p : Pkt) : State :=
  match s.conn cid with
  | none => s
  | some c =>
    let c := { c with ackCount := c.ackCount + 1, ackFrom := if c.ackFrom.isSome then c.ackFrom else some s.now
                      ackDelay := if c.ackFrom.isSome then c.ackDelay else s.rd R.XPT_ACK_CFG_ACK_DELAY
                      trigOrigin := p.origin, trigCstamp := p.cstamp }
    let s := s.setConn cid (some c)
    if p.ackreq || decide (max 1 (s.rd R.XPT_ACK_CFG_ACK_COALESCE) ≤ c.ackCount) then s.sendAck cid 0 0 else s

/-- E passes every contiguous accepted PSN. -/
def advanceE : Nat → Conn → Conn
  | 0, c => c
  | fuel + 1, c =>
    if c.bitmap.contains c.e then
      advanceE fuel { c with bitmap := c.bitmap.filter (· != c.e), e := (c.e + 1) % 2 ^ 32, hold := none }
    else c

/-- Send the refusal recorded at E (R268); NAK_ACCESS and NAK_INVALID fail the receiver's context. -/
def sendRefusal (s : State) (cid code retry : Nat) : State :=
  let s := (s.sendAck cid code retry).bump R.XPT_REFUSAL_TX
  if code = 6 ∨ code = 7 then s.failConn cid code none else s

/-- REORDER_HOLD (R269, R289). -/
def reorderHold (s : State) : Nat := let n := s.rd R.XPT_ACK_CFG_REORDER_HOLD; if n = 0 then 1000 else n

/-- A grant request of the connection may still be on its way to its record (R187): a PSN below an accepted one is missing, or one has not
been consumed. -/
def grantDue (s : State) (cid : Nat) (c : Conn) : Bool := !c.bitmap.isEmpty || s.xpt.grantIn.any (fun h => h.1 == cid)

/-- Mark a PSN accepted (R265), with the reorder hold; with `ack`, an acknowledgement that it calls for, and the refusal that E has
reached. -/
def markPsn (s : State) (cid : Nat) (p : Pkt) (ack : Bool) : State :=
  match s.conn cid with
  | none => s
  | some c =>
    let δ := (p.psn + 2 ^ 32 - c.e) % 2 ^ 32
    let old := c.e
    let c := { c with inOp := c.inOp.filter (fun x => x.1 != p.psn) }
    if δ ≥ 4096 ∨ c.bitmap.contains p.psn = true then s.setConn cid (some c)
    else
      let c := { c with bitmap := c.bitmap ++ [p.psn] }
      let c := advanceE (c.bitmap.length + 1) c
      let c := { c with hold := if c.bitmap.isEmpty then none else (if c.hold.isSome then c.hold else some s.now)
                        holdNs := if c.hold.isSome then c.holdNs else s.reorderHold
                        ahead := if s.grantDue cid c then c.ahead else []
                        refusal := match c.refusal with
                          | some (q, a, b) => if psnLe c.e q then some (q, a, b) else none
                          | none => none }
      let s := (s.setConn cid (some c)).bumpFn c.fn 10 1
      let s := if ack then s.ackAccepted cid p else s
      match c.refusal with
      | some (q, code, retry) => if ack && q == c.e && c.e != old then s.sendRefusal cid code retry else s
      | none => s

def acceptPsn (s : State) (cid : Nat) (p : Pkt) : State := s.markPsn cid p true

/-- Refuse a packet (R268). -/
def refuse (s : State) (cid : Nat) (p : Pkt) (code retry : Nat) : State :=
  match s.conn cid with
  | none => s
  | some c =>
    let c := { c with inOp := c.inOp.filter (fun x => x.1 != p.psn), trigOrigin := p.origin, trigCstamp := p.cstamp }
    if p.psn = c.e then
      (s.setConn cid (some { c with refusal := some (p.psn, code, retry) })).sendRefusal cid code retry
    else
      match c.refusal with
      | some (q, _, _) =>
        if psnLe p.psn q && p.psn != q then s.setConn cid (some { c with refusal := some (p.psn, code, retry) })
        else (s.setConn cid (some c)).bump R.XPT_AHEAD_DISC
      | none => s.setConn cid (some { c with refusal := some (p.psn, code, retry) })

/-- A packet whose operation is under way. -/
def putInOp (s : State) (cid : Nat) (p : Pkt) : State :=
  match s.conn cid with
  | some c => s.setConn cid (some { c with inOp := c.inOp ++ [(p.psn, p)] })
  | none => s

/-- A consumer reports a CRC failure (R51). -/
def e2eFail (s : State) (unit : Nat) : State := s.fault unit 0x0801 0 3

/-- A packet fails the CRC check of the engine complex (R51): counted, and reported on unit 679. -/
def engCrcFail (s : State) : State := (s.withXpt { s.xpt with e2eCrc := s.xpt.e2eCrc + 1 } : State).e2eFail 679

end State
end Sys2Proof.Machine
end

