-- ==== Sys2Proof/Machine/Transport.lean ====
section
/-!
DEFINITION. The transport's target side (chapter 11): arrivals, the remote access check, placement, reads and atomics served,
duplicates, grants and closes, with the placement of matched messages (R304) that replies share.
-/
namespace Sys2Proof.Machine

/-- What becomes of an arriving packet's operation (R265). -/
inductive Serve where
  | accept
  | refuse (code retry : Nat)
  /-- under way: accepted when its reads return, or when the packets below it are -/
  | later
  /-- accepted and answered: no acknowledgement is due -/
  | done
  /-- waits for a translation: the packet stays where it is -/
  | wait
  deriving DecidableEq, Repr

/-- What becomes of a placement. -/
inductive Place where
  | done
  | wait
  | fault (f : XFault)
  deriving DecidableEq, Repr

namespace State

/-- Issue the placement of bytes `skip … skip + len - 1` of a payload at `r.addr` (R20, R239). -/
def place (s : State) (r : XReq) (pay : List Square) (skip len : Nat) : State × Place :=
  if len = 0 then (s, .done)
  else
    match s.xlateRange r len with
    | (s, .ok segs) => (segs.foldl (fun s g => s.emit (.hostWrite (r.fn / 128) (s.routingId r.fn) g.1 pay (skip + g.2.1) g.2.2)) (s.bumpFn r.fn 11 len), .done)
    | (s, .error none) => (s, .wait)
    | (s, .error (some f)) => (s, .fault f)

/-- The parts of a range that lie in usable pages, as bus address, offset and length, with the first fault; none while a page waits for
its walk. -/
def usableParts (s : State) (r : XReq) (len : Nat) : State × Option (List (Nat × Nat × Nat) × Option XFault) :=
  if len = 0 then (s, some ([], none))
  else
    let first := r.addr / 4096
    let n := (r.addr + len - 1) / 4096 - first + 1
    let step := fun (acc : State × Option (List (Nat × Nat × Nat) × Option XFault)) (i : Nat) =>
      match acc with
      | (s, none) => (s, none)
      | (s, some (l, bad)) =>
        let a := if i = 0 then r.addr else (first + i) * 4096
        let e := min (r.addr + len) ((first + i + 1) * 4096)
        match s.xlate { r with addr := a } with
        | (s, .hit bus) => (s, some (l ++ [(bus, a - r.addr, e - a)], bad))
        | (s, .fault f) => (s, some (l, some (bad.getD f)))
        | (s, .miss) => (s, none)
    (List.range n).foldl step (s, some ([], none))

/-- Bytes of parts. -/
def partBytes (segs : List (Nat × Nat × Nat)) : Nat := (segs.map (fun g => g.2.2)).sum

/-- Issue the host writes of parts of a payload. -/
def writeParts (s : State) (r : XReq) (pay : List Square) (segs : List (Nat × Nat × Nat)) : State :=
  segs.foldl (fun s g => s.emit (.hostWrite (r.fn / 128) (s.routingId r.fn) g.1 pay g.2.1 g.2.2)) (s.bumpFn r.fn 11 (partBytes segs))

/-- Place what lies in usable pages of a range (R251): the first fault is answered, and the data of its page and of every further unusable
page are discarded; nothing is placed while a page waits for its walk. -/
def placeUsable (s : State) (r : XReq) (pay : List Square) (len : Nat) : State × Place :=
  match s.usableParts r len with
  | (s, none) => (s, .wait)
  | (s, some (segs, bad)) => (s.writeParts r pay segs, match bad with | some f => .fault f | none => .done)

/-- The bus address of the last byte placed, for a later FLUSH (R277). -/
def lastBus (s : State) (r : XReq) : Option Nat := match s.xlate r with | (_, .hit b) => some b | _ => none

/-- Issue a read of `len` bytes at `r.addr` under a new number (R204), for the remote key of index `key` or none; the pages' parts are one
read of the host model. -/
def issueRead (s : State) (r : XReq) (len : Nat) (why : ReadFor) (segs : List (Nat × Nat × Nat)) (key : Option Nat := none) : State :=
  let id := s.nextRead
  let used := s.xlatedRange r len
  let s := ((s.withNextRead (id + 1)).withReads (s.reads ++
    [({ id := id, fn := r.fn, why := why, xctx := r.xctx, addr := used.1, len := used.2, key := key } : HostRead)]))
  if len = 0 then s.emit (.hostRead id (r.fn / 128) (s.routingId r.fn) 0 0)
  else segs.foldl (fun s g => s.emit (.hostRead id (r.fn / 128) (s.routingId r.fn) g.1 g.2.2)) s

/-! Completion of receives (R304, R306). -/

/-- Post REMOTE_EVENT (R286). -/
def remoteEvent (s : State) (f eq src imm mlen rkey : Nat) : State :=
  s.event f eq 1 0 (src + imm * 2 ^ 32 + mlen * 2 ^ 96 + rkey * 2 ^ 128)

/-- The receive of a matched message completes when every packet is accounted for and nothing staged is left, or every pulled
byte is placed. -/
def recvDone (s : State) (m : Nat) : State :=
  match s.msgOf m with
  | none => s
  | some g =>
    let whole := if g.rts then g.ready && decide (g.pulled = g.total) else msgWhole g && g.staged.isEmpty
    if !whole then s
    else
      let s := match g.recv with
        | some w => (match s.workEnt w with
          | some x =>
            let len := fld x.ent 16 4
            let s := if g.mlen > len then s.bump R.MTC_TRUNCATED else s
            let s := match x.err with
              | some (st, d) => s.finish w st d g.tag 0 g.src
              | none => s.finish w (if g.mlen ≤ len then 0 else 13) 0 g.tag (min g.mlen len) g.src
            if g.event then
              let eq := match (SMap.get none s.mtc.doms (g.fn * 65536 + g.dom) : Option Dom) with | some d => d.eq | none => 0
              s.remoteEvent g.fn eq (g.cid / 2 ^ 16 % 2 ^ 32) 0 g.mlen 0
            else s
          | none => s)
        | none => s
      if g.rts && !g.closing then s.setMsg m (some { g with recv := none }) else s.freeMsg m

/-- The receive of a matched message is gone: its staged payload is given up. -/
def dropReceive (s : State) (m : Nat) (g : Msg) : State :=
  (s.setMsg m (some { g with recv := none, staged := [], ready := true, pulled := g.total })).grantPlaced
    g.cid (msgKey g.dom g.msn) g.mlen (g.staged.map Prod.fst) []

/-- A receive fails by a translation fault at its initiator side (R249, R305): its queue stalls, or it completes with
LOCAL_FAULT and the message is consumed. -/
def recvFault (s : State) (m w : Nat) (r : XReq) (f : XFault) : State :=
  match s.workEnt w with
  | none => s
  | some x =>
    let s := s.localFault w r f
    match s.workEnt w with
    | some y => if y.fin.isNone && x.fin.isNone then s
      else (match s.msgOf m with
        | some g => s.dropReceive m g
        | none => s)
    | none => (match s.msgOf m with
        | some g => (s.dropReceive m g).recvDone m
        | none => s)

/-- The access of a receive's buffer. -/
def recvReq (s : State) (x : WorkEnt) (off : Nat) : XReq :=
  match s.wq x.fn x.qid with
  | some k => { fn := x.fn, xctx := k.xctx, addr := fld x.ent 8 8 + off, wr := true, pawn := some k.pawn, qid := x.qid, own := x.num + 1 }
  | none => { fn := x.fn, xctx := 0xFFFF, addr := fld x.ent 8 8 + off, wr := true, qid := x.qid, own := x.num + 1 }

/-- The connection's last placement: its bus address, for a later FLUSH (R277). -/
def notePlaced (s : State) (cid epoch : Nat) (r : XReq) (n : Nat) : State :=
  if n = 0 then s
  else
    match s.conn cid with
    | some c => if c.epoch = epoch then s.setConn cid (some { c with lastPlace := s.lastBus { r with addr := r.addr + (n - 1) } }) else s
    | none => s

/-- Copy the staged packets of a matched message into its buffer, lowest index first (R301, R305). -/
def copyStaged : Nat → State → Nat → State
  | 0, s, _ => s
  | fuel + 1, s, m =>
    match s.msgOf m with
    | none => s
    | some g =>
      match g.staged, g.recv with
      | (i, pay) :: rest, some w =>
        (match s.workEnt w with
        | none => s
        | some x =>
          let len := fld x.ent 16 4
          let off := 4096 * i
          let l := pktLen g.mlen i
          let n := min l (len - off)
          let r := s.recvReq x off
          match (if off < len then s.place r pay 0 n else (s, .done)) with
          | (s, .done) =>
            let s := s.notePlaced g.cid g.epoch r n
            copyStaged fuel ((s.setMsg m (some { g with staged := rest })).grantPlaced g.cid (msgKey g.dom g.msn) g.mlen [i] []) m
          | (s, .wait) => s
          | (s, .fault f) => s.recvFault m w r f)
      | _, _ => s.recvDone m

/-! The remote access check (R284, R285). -/

/-- PSN of the first packet of the operation that a packet belongs to. -/
def opFirst (p : Pkt) : Nat :=
  let i := if p.opcode = 1 then p.moffset / 4096 else if p.opcode = 3 then p.msgOff / 4096 else 0
  (p.psn + 2 ^ 32 - i) % 2 ^ 32

/-- Who makes the accesses of a packet of a connection (R242). -/
def pktOwn (cid epoch psn : Nat) : Nat := 2 ^ 128 + cid * 2 ^ 48 + epoch * 2 ^ 32 + psn

/-- Report a violation at the target: one event and the count for each failed operation (R285). -/
def violation (s : State) (cid : Nat) (p : Pkt) (reason detail addr len : Nat) (mr : Option Mr) : State :=
  match s.conn cid with
  | none => s
  | some c =>
    if c.viol.contains (opFirst p) then s
    else
      let eq := if reason ≥ 3 then (match mr with | some m => m.eq | none => 0) else 0
      let d := p.srcFa + addr % 2 ^ 64 * 2 ^ 32 + (if p.opcode = 3 then 0 else p.rkey) * 2 ^ 96 + reason * 2 ^ 128 + detail * 2 ^ 136 +
        p.opcode * 2 ^ 144 + len % 2 ^ 32 * 2 ^ 160
      ((s.setConn cid (some { c with viol := c.viol ++ [opFirst p] })).bump R.XPT_ACCESS_VIOL).event c.fn eq 3 0 d

/-- Checks KEY, OWNER, RIGHTS and RANGE (R284), the last of every byte addressed; an error is the REASON. Right bit 0 read, 1 write, 2 atomic. -/
def keyCheck (s : State) (f key right addr len : Nat) : Except (Nat × Option Mr) Mr :=
  match s.mrOf (key / 256) with
  | none => .error (1, none)
  | some m =>
    if s.mrGen (key / 256) ≠ key % 256 then .error (1, none)
    else if m.fn ≠ f then .error (2, some m)
    else if !bitOf m.rights right then .error (3, some m)
    else if len ≠ 0 ∧ (addr < m.addr ∨ m.addr + m.len < addr + len) then .error (4, some m)
    else .ok m

/-- RETRY_US of a NAK_PAGE (R249). -/
def pageRetry (s : State) : Nat := max 1 (s.rd R.TRN_CFG_PAGE_RETRY_US)

/-- The outcome of a translation fault at the target (R249, R284). -/
def targetFault (s : State) (cid : Nat) (p : Pkt) (r : XReq) (f : XFault) (len : Nat) (mr : Option Mr) : State × Serve :=
  if f.kind = 1 && s.faultOdp r f then
    let (s, _) := s.pageRequest r f none
    (s, .refuse 2 s.pageRetry)
  else (s.violation cid p (if f.kind ≤ 2 then 5 else 6) (xDetail f) r.addr len mr, .refuse 6 0)

/-! Operations at the target (R273 to R277). -/

/-- Bytes pulled that are placed leave OUTSTANDING (R187). -/
def placedBytes (s : State) (cid n : Nat) : State := s.changeOutst cid (-(n : Int))

/-- The packets of the PUT with a first PSN that have been accepted. -/
def acceptedOf (c : Conn) (first mlen : Nat) : List Nat :=
  (List.range (pktCount mlen)).filter (fun i =>
    let q := (first + i) % 2 ^ 32
    decide (2 ^ 31 ≤ (q + 2 ^ 32 - c.e) % 2 ^ 32) || c.bitmap.contains q)

/-- PUT (R273, R284). -/
def servePut (s : State) (cid : Nat) (c : Conn) (p : Pkt) : State × Serve :=
  if !splitOk p.moffset p.mlen p then (s, .refuse 7 0)
  else
    let l := min 4096 (p.mlen - p.moffset)
    let addr := p.raddr + p.moffset
    match s.keyCheck c.fn p.rkey 1 addr l with
    | .error (reason, mr) => (s.violation cid p reason 0 addr l mr, .refuse 6 0)
    | .ok m =>
      let r : XReq := { fn := m.fn, xctx := m.xctx, addr := addr, wr := true, remote := true, pawn := some c.pawn, own := pktOwn cid c.epoch p.psn }
      match s.place r p.pay 0 l with
      | (s, .wait) => (s, .wait)
      | (s, .fault f) => s.targetFault cid p r f l (some m)
      | (s, .done) =>
        let first := (p.psn + 2 ^ 32 - p.moffset / 4096) % 2 ^ 32
        let s := s.grantPlaced cid (putKey first) p.mlen [p.moffset / 4096] (acceptedOf c first p.mlen)
        let n := SMap.get 0 c.puts first + l
        let whole := decide (n = p.mlen)
        let s := s.notePlaced cid c.epoch r l
        let s := match s.conn cid with
          | some c => s.setConn cid (some { c with puts := SMap.set 0 c.puts first (if whole then 0 else n) })
          | none => s
        (if p.event && whole then s.remoteEvent c.fn m.eq p.srcFa p.imm p.mlen p.rkey else s, .accept)

/-- Send one GET_DATA of a piece (R60, R274). -/
def sendGetData (s : State) (c : Conn) (psn off mlen : Nat) (pay : List Square) : State :=
  s.sendReply c.fn c.peer c.conn c.epoch 0x42 psn false [(48, 4, off), (52, 4, mlen)] pay

/-- A piece of zero bytes for a draining key (R307). -/
def sendZeros (s : State) (c : Conn) (p : Pkt) : State :=
  (List.range (pktCount p.mlen)).foldl (fun s i =>
    s.sendGetData c p.psn (4096 * i) p.mlen (List.replicate (squaresFor (pktLen p.mlen i)) 0)) (s.bump R.MTC_RDV_DRAIN_SERVED)

/-- The SEND of a key completes when the closing GET_RDV is accepted and no read made for the key is outstanding (R298). -/
def sendDone (s : State) (w : Nat) : State :=
  match s.workEnt w with
  | some x =>
    if x.flags = 1 && !(s.reads.any (fun r => r.key.isSome && r.key == x.key.map (· / 256))) then s.complete w 0 0 x.placed else s
  | none => s

/-- GET_REQ and GET_RDV (R274, R284, R307): every page is translated, then one read is issued per data packet. -/
def serveGet (s : State) (cid : Nat) (c : Conn) (p : Pkt) : State × Serve :=
  let rdv := p.opcode == 0x20
  let mr := s.mrOf (p.rkey / 256)
  let live := match mr with | some m => s.mrGen (p.rkey / 256) == p.rkey % 256 && m.fn == c.fn | none => false
  let drain := match mr with | some m => m.draining.isSome | none => false
  if rdv && live && drain then (s.sendZeros c p, .accept)
  else
    let base := if rdv then (match mr with | some m => m.addr | none => 0) else 0
    let addr := base + p.raddr
    match s.keyCheck c.fn p.rkey 0 addr p.mlen with
    | .error (reason, mr) => (s.violation cid p reason 0 addr p.mlen mr, .refuse 6 0)
    | .ok m =>
      if p.mlen = 0 then
        if rdv then (match m.work with
          | some w => ((s.modWork w (fun x => { x with flags := 1, placed := p.raddr })).sendDone w, .accept)
          | none => (s, .accept))
        else (s.sendGetData c p.psn 0 0 [], .accept)
      else
        let r : XReq := { fn := m.fn, xctx := m.xctx, addr := addr, wr := false, remote := true, pawn := some c.pawn
                          own := pktOwn cid c.epoch p.psn }
        let n := pktCount p.mlen
        let step := fun (acc : State × Except (Option XFault) (List (List (Nat × Nat × Nat)))) (i : Nat) =>
          match acc with
          | (s, .error e) => (s, .error e)
          | (s, .ok l) =>
            match s.xlateRange { r with addr := addr + 4096 * i } (pktLen p.mlen i) with
            | (s, .ok segs) => (s, .ok (l ++ [segs]))
            | (s, .error e) => (s, .error e)
        match (List.range n).foldl step (s, .ok []) with
        | (s, .error none) => (s, .wait)
        | (s, .error (some f)) => s.targetFault cid p { r with addr := f.addr } f p.mlen (some m)
        | (s, .ok l) =>
          let s := (l.zipIdx).foldl (fun s g =>
            s.issueRead { r with addr := addr + 4096 * g.2 } (pktLen p.mlen g.2)
              (.piece cid c.epoch p.psn (4096 * g.2) (pktLen p.mlen g.2) p.mlen) g.1 (some (p.rkey / 256))) s
          let s := match s.conn cid with
            | some c => s.setConn cid (some { c with inReads := SMap.set 0 c.inReads p.psn (SMap.get 0 c.inReads p.psn + n) })
            | none => s
          (s, .later)

/-- The request an atomic's step sends on PCI Express. -/
def issueAtomic (s : State) (o : AtomicOp) : State :=
  let a := bitsOf o.pkt.actl 0 4
  let rid := s.routingId (o.cid / 2 ^ 48)
  match a, o.cmp with
  | 2, none => s.emit (.hostRead s.nextRead o.port rid o.bus 8)
  | 2, some c => s.emit (.hostAtomic o.port rid o.bus 3 c (fp64Add c o.pkt.operandA))
  | 4, _ =>
    let b := payBytes o.pkt
    s.emit (.hostAtomic o.port rid o.bus 4 (leOf (b.take 16)) (leOf ((b.drop 16).take 16)))
  | a, _ => s.emit (.hostAtomic o.port rid o.bus a o.pkt.operandA o.pkt.operandB)

/-- An atomic's request may be issued: no fp64 add that arrived before it at its host port is still under way, so that atomics are
executed in their order of arrival (R275). -/
def atomicRuns (l : List AtomicOp) (o : AtomicOp) : Bool :=
  !((l.takeWhile (fun x => x != o)).any (fun x => x.port == o.port && x.pkt.actl == 2))

/-- Change the list of atomics under way, and issue those that may now run. -/
def setAtomics (s : State) (l : List AtomicOp) : State :=
  let old := s.xpt.atomicOps
  (l.filter (fun o => atomicRuns l o && !(old.contains o && atomicRuns old o))).foldl issueAtomic (s.withXpt { s.xpt with atomicOps := l })

/-- ATOMIC (R56, R275): a reserved ACTL or a misaligned target is NAK_INVALID. -/
def serveAtomic (s : State) (cid : Nat) (c : Conn) (p : Pkt) : State × Serve :=
  let a := p.actl
  let n := atomicWidth a
  if a > 4 ∨ p.raddr % n ≠ 0 ∨ (a = 4) ≠ (p.pay.length = 1) then (s, .refuse 7 0)
  else
    match s.keyCheck c.fn p.rkey 2 p.raddr n with
    | .error (reason, mr) => (s.violation cid p reason 0 p.raddr n mr, .refuse 6 0)
    | .ok m =>
      let r : XReq := { fn := m.fn, xctx := m.xctx, addr := p.raddr, wr := true, atomic := true, remote := true, pawn := some c.pawn
                        own := pktOwn cid c.epoch p.psn }
      match s.xlate r with
      | (s, .miss) => (s, .wait)
      | (s, .fault f) => s.targetFault cid p r f n (some m)
      | (s, .hit bus) =>
        let o : AtomicOp := { cid := cid, epoch := c.epoch, pkt := p, port := c.fn / 128, bus := bus }
        (s.setAtomics (s.xpt.atomicOps ++ [o]), .later)

/-- Answer a FLUSH (R277): a zero-length read behind the connection's last placement; at once when there was none (log entry
13). -/
def answerFlush (s : State) (cid : Nat) (c : Conn) (p : Pkt) : State :=
  match c.lastPlace with
  | none => s.sendReply c.fn c.peer c.conn c.epoch 0x45 p.psn true [] []
  | some bus =>
    let s := s.emit (.hostRead s.nextRead (c.fn / 128) (s.routingId c.fn) bus 0)
    (s.withXpt { s.xpt with flushOps := s.xpt.flushOps ++ [(cid, c.epoch, p.psn)] })

/-! Grants (R186, R187). -/

/-- Send a GRANT with the current GOFFSET of a recorded request. -/
def sendGrant (s : State) (c : Conn) (psn mref goff : Nat) : State :=
  (s.bump R.CGC_GRANT_TX).sendReply c.fn c.peer c.conn c.epoch 0x44 psn true [(32, 4, mref), (36, 4, goff)] []

/-! Close (R264). -/

/-- Nothing outstanding in either series and no incomplete work on the connection. -/
def connQuiet (s : State) (cid : Nat) (c : Conn) : Bool :=
  c.outst.isEmpty && c.bitmap.isEmpty && c.inOp.isEmpty && c.landings.isEmpty &&
    (s.openWork cid).isEmpty &&
    !(s.mtc.msgs.any (fun e => match e.2 with | some m => m.cid == cid && m.epoch == c.epoch && m.state == .matched | none => false))

/-- Answer a CLOSE_REQ (R264): in CLOSING and while the connection is quiet with CLOSE_ACK; otherwise the packet is accepted as an
ordinary one. -/
def serveClose (s : State) (cid : Nat) (c : Conn) (p : Pkt) : State × Serve :=
  let ack := fun (s : State) => s.sendReply c.fn c.peer c.conn c.epoch 0x46 p.psn true [] []
  if c.state = 3 then (ack s, .done)
  else if s.connQuiet cid c then ((ack s).dropConn cid, .later)
  else (s, .accept)

/-! Arrival (R262, R265). -/

/-- Carry out the operation of a packet in the window. -/
def serveOp (s : State) (cid : Nat) (c : Conn) (p : Pkt) : State × Serve :=
  match p.opcode with
  | 0x01 => s.servePut cid c p
  | 0x02 => s.serveGet cid c p
  | 0x20 => s.serveGet cid c p
  | 0x05 => s.serveAtomic cid c p
  | 0x06 => (s, .later)
  | 0x07 =>
    ((s.withXpt { s.xpt with grantIn := s.xpt.grantIn ++ [(cid, p)] }), .accept)
  | 0x08 => s.serveClose cid c p
  | _ => ((s.withXpt { s.xpt with homeIn := s.xpt.homeIn ++ [(cid, p)] }), .later)

/-- Accept the FLUSH that stands at E, and those after it (R277). -/
def acceptFlush : Nat → State → Nat → State
  | 0, s, _ => s
  | fuel + 1, s, cid =>
    match s.conn cid with
    | none => s
    | some c =>
      match c.inOp.find? (fun x => x.1 == c.e && x.2.opcode == 6) with
      | some x => acceptFlush fuel ((s.acceptPsn cid x.2).answerFlush cid c x.2) cid
      | none => s

/-- A packet's operation is done: it is accepted, and flushes behind it may be (R265, R277). -/
def accepted (s : State) (cid : Nat) (p : Pkt) : State :=
  let s := s.acceptPsn cid p
  match s.conn cid with
  | some c => s.acceptFlush (c.inOp.length + 1) cid
  | none => s

/-- A duplicate (R281). -/
def duplicate (s : State) (cid : Nat) (c : Conn) (p : Pkt) : State × Bool :=
  let old := s
  let s := (s.bump R.XPT_DUP_RX).trigger cid p
  let ok := fun (s : State) => (s.sendAck cid 0 0, true)
  match p.opcode with
  | 0x05 =>
    match c.atomics.find? (fun a => a.1 == p.psn) with
    | some a => ok ((s.bump R.XPT_ATOMIC_REPLAY).sendReply c.fn c.peer c.conn c.epoch 0x43 p.psn true [(44, 4, p.actl), (48, 16, a.2)] [])
    | none => ok s
  | 0x06 => ok (s.answerFlush cid c p)
  | 0x07 => (match c.gr.find? (fun g => g.psn == p.psn) with
    | some g => ok (s.sendGrant c p.psn g.mref g.goff)
    | none => ok s)
  | 0x08 => (match s.serveClose cid c p with
    | (s, .later) => (s, true)
    | (s, .done) => (s, true)
    | (s, _) => ok s)
  | op =>
    if op = 0x02 ∨ op = 0x20 then
      match old.serveGet cid c p with
      | (s, .wait) => (s, false)
      | (s, _) => ok ((s.bump R.XPT_DUP_RX).trigger cid p)
    else ok s

/-- Process a packet of a context's epoch by its PSN (R265); false when it waits for a translation. -/
def processReq (s : State) (cid : Nat) (p : Pkt) : State × Bool :=
  match s.conn cid with
  | none => (s, true)
  | some c =>
    let s' := s.touch cid
    let δ := (p.psn + 2 ^ 32 - c.e) % 2 ^ 32
    if δ ≥ 2 ^ 31 ∨ c.bitmap.contains p.psn = true then
      (match s.duplicate cid c p with
      | (t, false) => (((s.withTrn t.trn).withFlds t.flds), false)
      | (s, true) => (s.touch cid, true))
    else if δ ≥ 4096 then (s'.bump R.XPT_AHEAD_DISC, true)
    else if c.inOp.any (fun x => x.1 == p.psn) then (s', true)
    else
      match s'.serveOp cid c p with
      | (s', .wait) => (((s.withTrn s'.trn).withFlds s'.flds), false)
      | (s', .accept) => (s'.accepted cid p, true)
      | (s', .done) => (s'.markPsn cid p false, true)
      | (s', .refuse code retry) => (s'.refuse cid p code retry, true)
      | (s', .later) =>
        let s' := s'.putInOp cid p
        (s'.acceptFlush (c.inOp.length + 1) cid, true)

/-- Create a context for an arriving OPEN and process the packet (R262). -/
def arriveNew (s : State) (f : Nat) (p : Pkt) : State × Bool :=
  if s.ctxFull || s.tombFull then
    ((s.bump R.XPT_NO_CONTEXT_TX).answerKey f p 4 (max 1 (s.rd R.XPT_CONN_CFG_CTX_RETRY_US)), true)
  else
    match s.newConn f p.srcFa p.conn 2 p.epoch with
    | (s, true) => s.processReq (cidOf f p.srcFa p.conn) p
    | (s, false) => ((s.bump R.XPT_NO_CONTEXT_TX).answerKey f p 4 (max 1 (s.rd R.XPT_CONN_CFG_CTX_RETRY_US)), true)

/-- The table of R262; false when the packet waits for a translation and stays at the head of its queue. -/
def arriveReq (s : State) (p : Pkt) : State × Bool :=
  let f := faFn p.destFa
  let cid := cidOf f p.srcFa p.conn
  if !s.fnLive f then (s.nakEpoch p, true)
  else
  let s := s.useContext cid
  if s.tombed cid p.epoch then ((s.bump R.XPT_TOMBSTONE_HIT).nakEpoch p, true)
  else
    match s.conn cid with
    | none =>
      if p.opcode = 0x08 then (s.sendReply f p.srcFa p.conn p.epoch 0x46 p.psn true [] [], true)
      else if !p.open_ then (s.nakEpoch p, true)
      else s.arriveNew f p
    | some c =>
      if c.epoch = p.epoch then s.processReq cid p
      else if c.state = 1 then
        if s.fnFa f < p.srcFa then ((s.bump R.XPT_OPEN_TIES).addTomb cid p.epoch, true)
        else
          let s := s.addTomb cid c.epoch
          let s := s.setConn cid (some { c with epoch := p.epoch })
          let s := c.outst.foldl (fun s o => s.resend cid o true R.XPT_RETX_NAK) s
          s.processReq cid p
      else if p.open_ then (s.failConn cid 5 none).arriveNew f p
      else (s.nakEpoch p, true)

/-- The first packet of a queue that `hit` names, and the queue without it. -/
def takePkt (hit : Pkt → Bool) : List Pkt → Option (Pkt × List Pkt)
  | [] => none
  | p :: ps => if hit p then some (p, ps) else (takePkt hit ps).map (fun x => (x.1, p :: x.2))

/-- The transport's opcodes of the Request and Forward classes. -/
def isXpt (p : Pkt) : Bool := decide (1 ≤ p.opcode ∧ p.opcode ≤ 8) || p.opcode == 0x20

end State

open State

/-- REQUEST_ARRIVE (R142, R262, R265): the oldest transport packet handed to the engine complex in its class. -/
def execRequestArrive (fwd : Bool) (s : State) : Out :=
  let q := if fwd then s.engFwd else s.engReq
  .next (match takePkt isXpt q with
    | none => s
    | some (p, rest) =>
      let drop := fun (s : State) => if fwd then (s.withEngFwd rest) else (s.withEngReq rest)
      if s.timeHeld then (drop s).bump R.SWC_AGE_UNCHECKED
      else if !crcOk p then (drop s).engCrcFail
      else
        match (drop s).arriveReq p with
        | (t, true) => t
        | (t, false) => if fwd then (t.withEngFwd q) else (t.withEngReq q))

namespace State

/-- The connection that a reply names. -/
def replyCid (p : Pkt) : Nat := cidOf (faFn p.destFa) p.srcFa p.conn

/-- A Reply-class packet's context, when it exists with the packet's epoch (R262); the first Reply of its epoch opens it
(R260). -/
def replyConn (s : State) (p : Pkt) : Option (State × Nat × Conn) :=
  let cid := replyCid p
  match s.conn cid with
  | some c =>
    if c.epoch = p.epoch then
      let c := if c.state = 1 then { c with state := 2 } else c
      some ((s.setConn cid (some c)).touch cid, cid, s.used c)
    else none
  | none => none

/-- First GET_DATA of a piece: a delay sample from the recorded departure, rounded down to 64 ns (R184); it releases the piece's bytes
when it is the only one. -/
def getSample (s : State) (cid : Nat) (c : Conn) (psn : Nat) (first : Bool) (b : Nat) : State :=
  match c.outst.find? (fun o => o.psn == psn) with
  | some o => (match o.dep with
    | some t => if first then s.sample cid ((s.ns - t) / 64 * 64) b else s
    | none => s)
  | none => s

/-- A piece of a GET or pull is whole: it is released, and its entry may complete (R267, R274, R306). -/
def pieceDone (s : State) (cid : Nat) (l : Landing) : State :=
  let (s, _) := s.release cid (fun o => o.psn == l.psn)
  let s := match s.conn cid with
    | some c => s.setConn cid (some { c with landings := c.landings.filter (fun x => x.psn != l.psn) })
    | none => s
  match l.msg with
  | some m =>
    match s.msgOf m with
    | some g => if g.recv.isNone then s else (s.setMsg m (some { g with pulled := g.pulled + l.len })).recvDone m
    | none => s
  | none =>
    let s := s.modWork l.work (fun x => { x with placed := x.placed + l.len })
    match s.workEnt l.work with
    | some x => if x.built && x.placed == fld x.ent 16 4 then (match x.err with
        | some (st, d) => s.complete l.work st d x.placed
        | none => s.complete l.work 0 0 x.placed) else s
    | none => s

/-- GET_DATA (R60, R274): the first copy of each packet is placed. DESIGN CHOICE (log entry 110): a badly split one is discarded without an
answer, for a consumer of a reply emits nothing (R172). -/
def getData (s : State) (cid : Nat) (c : Conn) (p : Pkt) : State × Bool :=
  match c.landings.find? (fun l => l.psn == p.psn) with
  | none => (s, true)
  | some l =>
    let i := p.moffset / 4096
    if p.mlen ≠ l.len ∨ !splitOk p.moffset p.mlen p ∨ l.got.contains i = true then (s, true)
    else
      let n := pktLen l.len i
      let x := (s.workEnt l.work).getD { fn := c.fn, qid := 0, ent := 0 }
      let r := s.recvReq x (l.off + p.moffset)
      let dead := (s.workEnt l.work).isNone || x.fin.isSome
      match (if dead then (s, .done) else s.placeUsable r p.pay n) with
      | (s, .wait) => (s, false)
      | (s, res) =>
        let s := match res with
          | .fault f => s.modWork l.work (fun x => { x with err := some (x.err.getD (9, xDetail f)) })
          | _ => s
        let l' := { l with got := l.got ++ [i], sampled := true }
        let s := s.getSample cid c p.psn (!l.sampled) (if l'.got.length = pktCount l.len then l.len else 0)
        let s := match s.conn cid with
          | some c => s.setConn cid (some { c with landings := c.landings.map (fun y => if y.psn == l.psn then l' else y) })
          | none => s
        let s := if l.msg.isSome then s.placedBytes cid n else s
        (if l'.got.length = pktCount l.len then s.pieceDone cid l' else s, true)

/-- The answer of an operation: GET_DATA, ATOMIC_RESULT, GRANT, FLUSH_DONE or CLOSE_ACK. -/
def answer (s : State) (cid : Nat) (c : Conn) (p : Pkt) : State × Bool :=
  match p.opcode with
  | 0x42 => s.getData cid c p
  | 0x43 =>
    (match c.outst.find? (fun o => o.psn == p.psn && o.pkt.opcode == 5) with
    | none => (s, true)
    | some o =>
      let w := o.work.getD 0
      match s.workEnt w with
      | none => ((s.release cid (fun x => x.psn == p.psn)).1, true)
      | some x =>
        let n := if fld x.ent 2 2 = 4 then 16 else 8
        let r := s.recvReq x 0
        match s.place r [sqOfBytes (bytesLE p.result n)] 0 n with
        | (s, .wait) => (s, false)
        | (s, .fault f) => (((s.release cid (fun x => x.psn == p.psn)).1).complete w 9 (xDetail f) 0, true)
        | (s, .done) => (((s.release cid (fun x => x.psn == p.psn)).1).complete w 0 0 n, true))
  | 0x44 =>
    let s := (s.release cid (fun o => o.psn == p.psn && o.pkt.opcode == 7)).1
    (s.modWork p.mref (fun x => if x.cid == some cid && x.asked then { x with granted := max x.granted p.gval } else x), true)
  | 0x45 =>
    let (s, _) := s.release cid (fun o => psnLe o.psn p.psn && (!o.answer || o.psn == p.psn))
    (match c.outst.find? (fun o => o.psn == p.psn && o.pkt.opcode == 6) with
    | some o => (match o.work with | some w => s.complete w 0 0 0 | none => s)
    | none => s, true)
  | _ =>
    if c.state = 3 then ((s.dropConn cid).bump R.XPT_CLOSE_IDLE, true) else (s, true)

/-- A response of an engine-hosted service completes the function's oldest outstanding SVC entry; its payload goes to LADDR
(log entry 14). -/
def svcResp (s : State) (p : Pkt) : State × Bool :=
  let f := faFn p.destFa
  match s.work.find? (fun e => match e.2 with
    | some x => x.fn == f && fld x.ent 0 1 == 8 && x.built && x.fin.isNone && x.dest == some p.srcFa
    | none => false) with
  | some (w, some x) =>
    let r := s.recvReq x 0
    let n := 64 * p.pay.length
    match s.place r p.pay 0 n with
    | (s, .wait) => (s, false)
    | (s, .fault f) => (s.complete w 9 (xDetail f) 0, true)
    | (s, .done) => (s.complete w 0 0 n, true)
  | _ => (s, true)

/-- A Reply packet that REPLY_ARRIVE consumes. -/
def isAnswer (p : Pkt) : Bool := decide (0x42 ≤ p.opcode ∧ p.opcode ≤ 0x46) || p.opcode == 0x48

end State

/-- REPLY_ARRIVE (R173, R262, R267, R274 to R279): the oldest reply that carries data, a result, a grant or an end. -/
def execReplyArrive (s : State) : Out :=
  .next (match takePkt isAnswer s.engRep with
    | none => s
    | some (p, rest) =>
      let t := s.withEngRep rest
      if !crcOk p then t.engCrcFail
      else if p.opcode = 0x48 then
        (match t.svcResp p with | (t, true) => t | (t, false) => (t.withEngRep s.engRep))
      else
        let t := t.useContext (replyCid p)
        match t.replyConn p with
        | none => t.bump R.XPT_STALE_REPLY
        | some (t, cid, c) =>
          match t.answer cid c p with
          | (t, true) => t
          | (t, false) => (t.withEngRep s.engRep))

namespace State

/-- The PSNs a SACK marks beyond PSN + 1 (R58). -/
def sackMarks (p : Pkt) (psn : Nat) : Bool :=
  match p.pay with
  | q :: _ =>
    let i := (psn + 2 ^ 33 - p.psn - 2) % 2 ^ 32
    decide (i < 256) && bitOf q.toNat (511 - i)
  | [] => false

/-- Packets that an ACK or SACK releases (R267): those whose own answer does not end them. -/
def ackHit (p : Pkt) (o : OutPkt) : Bool := !o.answer && (psnLe o.psn p.psn || (p.opcode == 0x41 && sackMarks p o.psn))

/-- Release, sample and the end of a declined close (R264, R267). -/
def ackRelease (s : State) (cid : Nat) (c : Conn) (p : Pkt) (smp : Bool) : State :=
  let closing := c.outst.find? (fun o => o.pkt.opcode == 8)
  let (s, b) := s.release cid (ackHit p)
  let s := if smp then s.sample cid (s.echoDelay p.echoOrigin) b else s
  match closing with
  | some o =>
    if c.state = 3 && p.ackCode == 0 && psnLe o.psn p.psn then
      let s := (s.release cid (fun x => x.psn == o.psn)).1
      match s.conn cid with
      | some c => (s.setConn cid (some (s.used { c with state := 2 }))).bump R.XPT_CLOSE_DECLINED
      | none => s
    else s
  | none => s

/-- The work entry of an outstanding packet: its own, or the receive whose pull it is of. -/
def pktWork (c : Conn) (psn : Nat) : Option Nat :=
  match (c.outst.find? (fun o => o.psn == psn)).bind OutPkt.work with
  | some w => some w
  | none => (c.landings.find? (fun (l : Landing) => l.psn == psn)).map Landing.work

/-- The sender's action by code (R271). A work entry that a NAK_ACCESS names gets the REASON as DETAIL; the NAK carries none (R58), so it is a
free one (log entry 124). -/
def onAck (s : State) (cid : Nat) (c : Conn) (p : Pkt) : State :=
  let named := (p.psn + 1) % 2 ^ 32
  let workOf := fun (c : Conn) => pktWork c named
  match p.ackCode with
  | 0 => s.ackRelease cid c p true
  | 1 =>
    let s := s.ackRelease cid c p true
    match s.conn cid with
    | some c => (match c.outst.find? (fun o => o.psn == named) with
      | some o => if s.now < o.last + c.srtt.getD 0 then s else s.resend cid o false R.XPT_RETX_NAK
      | none => s)
    | none => s
  | 5 => s.failConn cid 5 none
  | 6 => s.draw.failConn cid 6 ((workOf c).map (fun w => (w, 11, 1 + (Config.freeWord s.rng).toNat % 7)))
  | 7 => s.failConn cid 7 ((workOf c).map (fun w => (w, 12, 7)))
  | code =>
    if code = 2 ∨ code = 3 ∨ code = 4 then
      let s := s.bumpFn c.fn 15 1
      let s := if p.psn = 0xFFFFFFFF ∧ code = 4 then s else s.ackRelease cid c p false
      match s.conn cid with
      | some c => s.setConn cid (some { c with
          nakRetry := some (code, named, s.now + p.retryUs * 1000), lastCode := code
          nakSince := if c.nakSince.isSome then c.nakSince else some s.now
          nakLimit := if c.nakSince.isSome then c.nakLimit else s.rd R.XPT_CONN_CFG_NAK_RETRY_LIMIT * 1000000 })
      | none => s
    else s

end State

/-- ACK_RX (R267, R271). -/
def execAckRx (s : State) : Out :=
  .next (match takePkt (fun p => p.opcode == 0x40 || p.opcode == 0x41) s.engRep with
    | none => s
    | some (p, rest) =>
      let t := s.withEngRep rest
      if !crcOk p then t.engCrcFail
      else
        let t := t.useContext (replyCid p)
        match t.replyConn p with
        | none => t.bump R.XPT_STALE_REPLY
        | some (t, cid, c) => t.onAck cid c p)

/-- ACK_DELAY (R266). -/
def execAckDelay (f : Fin 512) (peer : BitVec 32) (cn : BitVec 16) (s : State) : Out :=
  let cid := cidOf f peer.toNat cn.toNat
  let s := s.useContext cid
  .next (match s.conn cid with
    | some c => (match c.ackFrom with
      | some t => if t + c.ackDelay ≤ s.now then s.sendAck cid 0 0 else s
      | none => s)
    | none => s)

/-- REORDER_HOLD (R269): NAK_SEQ, or the refusal at E, while E is missing. -/
def execReorderHold (f : Fin 512) (peer : BitVec 32) (cn : BitVec 16) (s : State) : Out :=
  let cid := cidOf f peer.toNat cn.toNat
  let s := s.useContext cid
  .next (match s.conn cid with
    | some c => (match c.hold with
      | some t =>
        if t + c.holdNs ≤ s.now ∧ c.bitmap ≠ [] then
          let s := s.setConn cid (some { c with hold := some s.now, holdNs := s.reorderHold })
          match c.refusal with
          | some (q, code, retry) =>
            if q = c.e then s.sendRefusal cid code retry else (s.sendAck cid 1 0).bump R.XPT_NAK_SEQ_TX
          | none => (s.sendAck cid 1 0).bump R.XPT_NAK_SEQ_TX
        else s
      | none => s)
    | none => s)

/-- RETRANSMISSION_TIMEOUT (R270). -/
def execRetransmissionTimeout (f : Fin 512) (peer : BitVec 32) (cn : BitVec 16) (s : State) : Out :=
  let cid := cidOf f peer.toNat cn.toNat
  let s := s.useContext cid
  .next (match s.conn cid with
    | some c => (match c.outst with
      | o :: _ =>
        if s.now < o.last + c.rto || s.frozen c then s
        else
          let n := c.retry + 1
          if max 1 (s.rd R.XPT_RTO_CFG_RETRY_MAX) ≤ n then s.failConn cid 0x80 none
          else
            let s := s.setConn cid (some { c with retry := n, rto := min (max s.rtoMax c.rto) (2 * c.rto) })
            s.resend cid o false R.XPT_RETX_RTO
      | [] => s)
    | none => s)

namespace State

/-- The outstanding packets that a retry code on a PSN names (R271): every one of the connection for code 4, else that of the PSN and those of
its work entry. -/
def retryNames (c : Conn) (code psn : Nat) (o : OutPkt) : Bool :=
  code == 4 || o.psn == psn || ((pktWork c psn).isSome && pktWork c o.psn == pktWork c psn)

end State

/-- RETRY_US (R271): the packets a retry code names are sent again, and with them those of an earlier one that a quench held back; those it
still holds back wait. -/
def execRetryUs (f : Fin 512) (peer : BitVec 32) (cn : BitVec 16) (s : State) : Out :=
  let cid := cidOf f peer.toNat cn.toNat
  let s := s.useContext cid
  .next (match s.conn cid with
    | some c =>
      let due := c.nakRetry.filter (fun x => decide (x.2.2 ≤ s.now))
      let named := fun (o : OutPkt) => due.any (fun x => retryNames c x.1 x.2.1 o)
      let opens := due.any (fun x => x.1 == 4)
      let again := (c.outst.filter (fun o => named o || c.nakHeld.contains o.psn)).map
        (fun o => { o with open_ := o.open_ || (opens && named o) })
      let held := again.filter (s.heldBack c)
      let s := s.setConn cid (some { c with
        nakRetry := if due.isSome then none else c.nakRetry
        nakHeld := held.map OutPkt.psn
        outst := c.outst.map (fun o => { o with open_ := o.open_ || (opens && named o) }) })
      (again.filter (fun o => !s.heldBack c o)).foldl (fun s o => s.resend cid o false R.XPT_RETX_NAK) s
    | none => s)

/-- NAK_RETRY_LIMIT (R271). -/
def execNakRetryLimit (f : Fin 512) (peer : BitVec 32) (cn : BitVec 16) (s : State) : Out :=
  let cid := cidOf f peer.toNat cn.toNat
  let s := s.useContext cid
  .next (match s.conn cid with
    | some c => (match c.nakSince with
      | some t => if c.nakLimit ≠ 0 ∧ t + c.nakLimit ≤ s.now ∧ s.frozen c = false then s.failConn cid c.lastCode none else s
      | none => s)
    | none => s)

/-- IDLE_CLOSE (R264): a quiet connection sends CLOSE_REQ. -/
def execIdleClose (f : Fin 512) (peer : BitVec 32) (cn : BitVec 16) (s : State) : Out :=
  let cid := cidOf f peer.toNat cn.toNat
  let s := s.useContext cid
  .next (match s.conn cid with
    | some c =>
      if c.state = 2 ∧ s.connQuiet cid c = true ∧ c.lastUse + c.idle ≤ s.now ∧ s.timeHeld = false ∧ s.fnQuenched c.fn = false then
        ((s.setConn cid (some { c with state := 3 })).sendReq cid { op := 0x08, answer := true }).1
      else s
    | none => s)

/-- TOMBSTONE_EXPIRE (R261). -/
def execTombstoneExpire (s : State) : Out :=
  .next (s.withXpt { s.xpt with tombs := s.xpt.tombs.filter (fun t => decide (s.now < t.until_)) })

/-- STORE_WAIT_END (R272): the store has room for pawn n's next packet. -/
def execStoreWaitEnd (n : Fin 104) (s : State) : Out :=
  .next (match s.xpt.storeWait.find? (fun x => x.1 == n.val) with
    | some x => if s.storeUsed + x.2 ≤ s.storeSize then
        (s.withXpt { s.xpt with storeWait := s.xpt.storeWait.filter (fun y => y.1 != n.val) }) else s
    | none => s)

namespace State

/-- An atomic's result is cached, sent and accepted (R275, R276). -/
def atomicDone (s : State) (o : AtomicOp) (res : Nat) : State :=
  let s := s.useContext o.cid
  match s.conn o.cid with
  | some c =>
    if c.epoch ≠ o.epoch then s
    else
      let s := s.setConn o.cid (some { c with atomics := ((o.pkt.psn, res) :: c.atomics).take 8 })
      let s := s.sendReply c.fn c.peer c.conn c.epoch 0x43 o.pkt.psn true [(44, 4, o.pkt.actl), (48, 16, res)] []
      s.accepted o.cid o.pkt
  | none => s

/-- A result of a binary64 sum that is NaN: the spec does not state its payload, so it is a free one. -/
def freeNaN (s : State) (v : Nat) : State × Nat :=
  if fp64NaN v then (s.draw, 0x7FF8000000000000 ||| ((Config.freeWord s.rng).toNat % 2 ^ 51) ||| ((Config.freeWord s.rng).toNat / 2 ^ 63 * 2 ^ 63))
  else (s, v)

end State

/-- ATOMIC_COMPLETE (R275): the host answers the oldest request of an atomic on host port p. An fp64 add reads, and repeats
its compare-and-swap until it succeeds. -/
def execAtomicComplete (p : Fin 4) (ans : HostAns) (s : State) : Out :=
  .next (match s.xpt.atomicOps.find? (fun o => o.port == p.val) with
    | none => s.unexpectedCpl p
    | some o =>
      let s := s.wake 17
      let s' := (s.setAtomics (s.xpt.atomicOps.filter (fun x => x != o))).aerRead (o.cid / 2 ^ 48) ans
      match ans with
      | .ok bs =>
        let v := leOf (bs.map BitVec.toNat) % 2 ^ (8 * atomicWidth o.pkt.actl)
        if o.pkt.actl = 2 then
          if o.cmp = some v then s'.atomicDone o v
          else
            let s := if o.cmp.isSome then s.bump R.XPT_FADD_RETRY else s
            let o' := { o with cmp := some v }
            let (s, sum) := s.freeNaN (fp64Add v o.pkt.operandA)
            let s := s.emit (.hostAtomic o.port (s.routingId (o.cid / 2 ^ 48)) o.bus 3 v sum)
            (s.withXpt { s.xpt with atomicOps := s.xpt.atomicOps.map (fun x => if x == o then o' else x) })
        else s'.atomicDone o v
      | _ =>
        let s' := s'.useContext o.cid
        match s'.conn o.cid with
        | some c => if c.epoch ≠ o.epoch then s' else
          ((s'.violation o.cid o.pkt 7 0 o.pkt.raddr (atomicWidth o.pkt.actl) (s'.mrOf (o.pkt.rkey / 256)))).refuse o.cid o.pkt 6 0
        | none => s')

/-- FLUSH_READ_DONE (R277): the oldest zero-length read of host port p returns. -/
def execFlushReadDone (p : Fin 4) (s : State) : Out :=
  .next (match s.xpt.flushOps.find? (fun o => o.1 / 2 ^ 48 / 128 == p.val) with
    | none => s.unexpectedCpl p
    | some o =>
      let s := ((s.wake 17).withXpt { s.xpt with flushOps := s.xpt.flushOps.erase o }).useContext o.1
      match s.conn o.1 with
      | some c => if c.epoch = o.2.1 then s.sendReply c.fn c.peer c.conn c.epoch 0x45 o.2.2 true [] [] else s
      | none => s)

/-- XPT_CONN_SEL (R289): the views are read from the connection it names. -/
def execXptConnSel (m : Master) (h : Half) (v : BitVec 64) (s : State) : Out :=
  .next (s.gated m 0xB00040 (fun s =>
    let old := s.rd R.XPT_CONN_SEL_PEER_FA + s.rd R.XPT_CONN_SEL_CONN * 2 ^ 32 + s.rd R.XPT_CONN_SEL_FUNC * 2 ^ 48
    let n := mergeHalf h old v.toNat
    ((s.wr R.XPT_CONN_SEL_PEER_FA (bitsOf n 0 32)).wr R.XPT_CONN_SEL_CONN (bitsOf n 32 16)).wr R.XPT_CONN_SEL_FUNC (bitsOf n 48 9)))

/-- BASE_WIN_END (R185): the end of a 10 ms window of fabric time. -/
def execBaseWinEnd (s : State) : Out :=
  let w := s.winIdx 10000000
  .next (if w = s.time.baseWin then s
    else (s.withTime { s.time with baseWin := w } : State).withXpt { s.xpt with conns := s.xpt.conns.map (fun e =>
    (e.1, e.2.map (fun c => baseWindow c w))) })

namespace State

/-- The record of a grant request: packets of a message of its length that were placed before it are its own (R187). -/
def newGrant (c : Conn) (psn mref mlen : Nat) : GrantReq :=
  let key := ((c.ahead.filter (fun a => a.2.1 == mlen && !c.gr.any (fun g => g.key == some a.1))).head?).map Prod.fst
  { psn := psn, mref := mref, mlen := mlen, key := key
    got := ((c.ahead.filter (fun a => key == some a.1)).map (fun a => a.2.2)).eraseDups }

end State

/-- GRANT_REQ_RX (R187): a GRANT_REQ is recorded and joins its host port's list. -/
def execGrantReqRx (s : State) : Out :=
  .next (match s.xpt.grantIn with
    | [] => s
    | (cid, p) :: rest =>
      let s := ((s.bump R.CGC_GRANT_REQ_RX).withXpt { s.xpt with grantIn := rest }).useContext cid
      match s.conn cid with
      | none => s
      | some c =>
        let h := c.fn / 128
        let g := newGrant c p.psn p.mref p.gval
        let s := s.setConn cid (some { c with gr := c.gr ++ [g], ahead := c.ahead.filter (fun a => g.key != some a.1) })
        let s := s.withXpt { s.xpt with grants := SMap.set [] s.xpt.grants h (SMap.get [] s.xpt.grants h ++ [(cid, p.psn)]) }
        s.showGrants h)

namespace State

def grantChunk (s : State) : Nat := (if s.rd R.CGC_GRANT_CFG_GRANT_CHUNK = 0 then 4 else s.rd R.CGC_GRANT_CFG_GRANT_CHUNK) * 1024

/-- Budget for a further grant or pull of host port h (R187). -/
def budgetOk (s : State) (h : Nat) : Bool :=
  decide (SMap.get 0 s.xpt.outst h + (s.grantChunk : Int) ≤ ((s.rd (R.CGC_GRANT_BUDGET_BUDGET h) * 1024 : Nat) : Int))

/-- Add bytes to OUTSTANDING. -/
def addOutst (s : State) (cid n : Nat) : State := s.changeOutst cid (n : Int)

end State

/-- GRANT_ISSUE (R187): the next entry of host port h's round robin gets up to GRANT_CHUNK more; bytes of it that were placed ahead of
their grant leave OUTSTANDING at once. -/
def execGrantIssue (h : Fin 4) (s : State) : Out :=
  .next (if !s.budgetOk h || s.timeHeld then s
    else
      match SMap.get [] s.xpt.grants h.val with
      | [] => s
      | (cid, psn) :: rest =>
        let s := s.useContext cid
        match s.conn cid with
        | none =>
          ((s.withXpt { s.xpt with grants := SMap.set [] s.xpt.grants h.val (rest.filter (fun g => g.1 != cid)) })).showGrants h
        | some c =>
          match c.gr.find? (fun g => g.psn == psn) with
          | none => s
          | some g =>
            let n := min s.grantChunk (g.mlen - g.goff)
            let goff := g.goff + n
            let early := (g.got.map (fun i => pktBelow g.mlen i goff - pktBelow g.mlen i g.goff)).sum
            let s := s.setConn cid (some { c with gr := c.gr.map (fun x => if x.psn == psn then { x with goff := goff } else x) })
            let rest := if goff = g.mlen then rest else rest ++ [(cid, psn)]
            let s := s.withXpt { s.xpt with grants := SMap.set [] s.xpt.grants h.val rest }
            ((s.addOutst cid (n - early)).sendGrant c psn g.mref goff).showGrants h)

end Sys2Proof.Machine
end

