-- ==== Sys2Proof/Machine/Sender.lean ====
section
/-!
DEFINITION. The initiator's work entries (chapters 8, 11 and 12): PUT, GET, SEND, ATOMIC, FLUSH and SVC, the host reads
behind them, departure notices, and grants as their sender sees them.
-/
namespace Sys2Proof.Machine.State

/-! Where an entry goes (R65, R257, R278). -/

/-- Domain `dom` of function f. -/
def domain (s : State) (f dom : Nat) : Option Dom := SMap.get none s.mtc.doms (f * 65536 + dom)
def setDom (s : State) (f dom : Nat) (d : Option Dom) : State :=
  (s.withMtc { s.mtc with doms := SMap.set none s.mtc.doms (f * 65536 + dom) d })

/-- The work opcode of an entry. -/
def wop (x : WorkEnt) : Nat := fld x.ent 0 1
def wlen (x : WorkEnt) : Nat := fld x.ent 16 4
def wladdr (x : WorkEnt) : Nat := fld x.ent 8 8
def waux (x : WorkEnt) : Nat := fld x.ent 2 2
def wfence (x : WorkEnt) : Bool := bitOf (fld x.ent 1 1) 1
def wevent (x : WorkEnt) : Bool := bitOf (fld x.ent 1 1) 2

/-- Entries consumed before w that are not complete, with their numbers. -/
def earlier (s : State) (w : Nat) : List (Nat × WorkEnt) :=
  s.work.filterMap (fun e => match e.2 with
    | some y => if e.1 < w && y.fin.isNone then some (e.1, y) else none
    | none => none)

/-- The two conditions of FENCE (R278). -/
def fenceOk (s : State) (w : Nat) (x : WorkEnt) (cid : Nat) : Bool :=
  !((s.earlier w).any (fun e => e.2.fn == x.fn && e.2.qid == x.qid && s.cidFor e.2 == some cid)) &&
    (match s.conn cid with
    | some c => !(c.outst.any (fun o => o.qid == x.qid && o.pkt.opcode == 1 && o.work.any (fun v => decide (v < w))))
    | none => true)

/-- The packets of a PUT take consecutive PSNs (R273): another entry's new packet waits while a PUT of the connection has
some packets built and some not. -/
def connFree (s : State) (cid w : Nat) : Bool :=
  !(s.work.any (fun e => match e.2 with
    | some y => e.1 != w && y.cid == some cid && wop y == 1 && decide (0 < y.sent) && !y.built && y.fin.isNone
    | none => false))

/-- The common start of an entry that names a rank: its rank is resolved once (R65), its connection opened (R260), and its
FENCE met (R278). Answers the entry, its queue, its connection's number and the connection when it may build. -/
def startWork (s : State) (w op : Nat) : State × Option (WorkEnt × Wq × Nat × Conn) :=
  match s.workEnt w with
  | none => (s, none)
  | some x =>
    if wop x ≠ op ∨ x.qid = adminQ ∨ x.fin.isSome = true then (s, none)
    else
      match s.canBuild x with
      | none => (s, none)
      | some k =>
        let s := s.stampWork w 0
        match (match x.dest with | some fa => some fa | none => s.resolveRank k.job (fld x.ent 4 4)) with
        | none => (s.complete w 8 0 0, none)
        | some fa =>
          let x := { x with dest := some fa }
          let s := s.setWork w (some x)
          let cid := cidOf x.fn fa x.lane
          let s := s.useContext cid
          match x.cid with
          | some cid => (match s.conn cid with
            | some c => if c.state = 3 then (s, none) else (s, some (x, k, cid, c))
            | none => (s, none))
          | none =>
            if wfence x && !s.fenceOk w x cid then (s, none)
            else
              let (s, ok) := match s.conn cid with
                | some c => (s, c.state != 3)
                | none => s.openConn x.fn fa x.lane
              if !ok then (s, none)
              else
                match s.conn cid with
                | some c =>
                  let x := { x with cid := some cid, started := true }
                  (s.setWork w (some x), some (x, k, cid, c))
                | none => (s, none)

/-- The access of an entry's own buffer. -/
def ownReq (x : WorkEnt) (k : Wq) (off : Nat) (wr : Bool) : XReq :=
  { fn := x.fn, xctx := k.xctx, addr := wladdr x + off, wr := wr, pawn := some k.pawn, qid := x.qid, own := x.num + 1 }

/-- The fields of a packet built for an entry. -/
def reqFor (x : WorkEnt) (k : Wq) (w : Nat) (q : ReqSpec) : ReqSpec :=
  { q with work := some w, qid := x.qid, job := if k.job = 0xFFFF then none else some k.job, yellow := k.yellow }

/-! Grants as the sender sees them (R186). -/

/-- The entry's message needs a grant. -/
def needsGrant (s : State) (n : Nat) : Bool :=
  s.rdB R.CGC_GRANT_CFG_GRANT_EN && decide (s.rd R.CGC_GRANT_CFG_GRANT_THRESH * 1024 ≤ n) && decide (0 < n)

/-- Bytes below which the entry may send. -/
def grantLimit (s : State) (x : WorkEnt) (n : Nat) : Nat :=
  if s.needsGrant n then
    max (min (min (s.rd R.CGC_GRANT_CFG_UNSCHED) (s.rd R.CGC_GRANT_CFG_GRANT_THRESH) * 1024) n) x.granted
  else n

/-- Send the GRANT_REQ of an entry once, with a landing slot reserved (R186); its MREF is the entry's number. -/
def askGrant (s : State) (w cid n : Nat) : State :=
  match s.workEnt w, s.conn cid with
  | some x, some c =>
    (match s.wq x.fn x.qid with
    | some k =>
      if s.needsGrant n && !x.asked && s.landRoom 1 && psnRoom c 1 && s.connFree cid w then
        let s := s.setWork w (some { x with asked := true })
        (s.sendReq cid { reqFor x k w { op := 7, answer := true, area := [(32, 4, w), (36, 4, n)] } with work := none }).1
      else s
    | none => s)
  | _, _ => s

/-! Payload reads. -/

/-- Issue the read of the next packet's payload of an entry; false when it must wait or has failed. `win`: the window counts
now. -/
def readNext (s : State) (w cid : Nat) (win : Bool) : State × Bool :=
  match s.workEnt w, s.conn cid with
  | some x, some c =>
    (match s.wq x.fn x.qid with
    | none => (s, false)
    | some k =>
      let n := wlen x
      let off := x.issued
      let l := min 4096 (n - off)
      if n ≤ off ∨ x.fin.isSome = true ∨ k.state ≠ 1 then (s, false)
      else if win && (decide (s.grantLimit x n < off + l) || !s.mayFetch cid c l || !psnRoom c (1 + s.readsOf cid)) then (s, false)
      else
        match s.storeRoom c.pawn (squaresFor l) with
        | (s, false) => (s, false)
        | (s, true) =>
          let r := ownReq x k off false
          match s.xlateRange r l with
          | (s, .error none) => (s, false)
          | (s, .error (some f)) => (s.localFault w { r with addr := f.addr } f, false)
          | (s, .ok segs) => ((s.issueRead r l (.payload w off l) segs).modWork w (fun x => { x with issued := off + l }), true))
  | _, _ => (s, false)

def readAll (win : Bool) : Nat → State → Nat → Nat → State
  | 0, s, _, _ => s
  | fuel + 1, s, w, cid =>
    match s.readNext w cid win with
    | (s, true) => readAll win fuel s w cid
    | (s, false) => s

/-! PUT (R273). -/

/-- Build the PUT packets whose payload is on hand, in offset order, within the window (R183). DESIGN CHOICE (log entry 110): bytes 56 to 63
carry the entry's immediate value with EVENT 0 as well (R56). -/
def buildPut : Nat → State → Nat → Nat → State
  | 0, s, _, _ => s
  | fuel + 1, s, w, cid =>
    match s.workEnt w, s.conn cid with
    | some x, some c =>
      let n := wlen x
      let off := 4096 * x.sent
      match s.canBuild x with
      | none => s
      | some k =>
        let l := pktLen n x.sent
        if x.built || x.fin.isSome || !psnRoom c 1 || !s.connFree cid w || !s.mayStart c l then s
        else
          match (if n = 0 then some [] else (x.held.find? (fun h => h.1 == off)).map Prod.snd) with
          | none => s
          | some pay =>
            let last := decide (n ≤ off + l)
            let s := s.setWork w (some { x with held := SMap.erase x.held off, built := last })
            let s := (s.sendReq cid (reqFor x k w {
              op := 1, pin := false, event := wevent x, last := last, bytes := l, pay := pay
              area := [(32, 8, fld x.ent 24 8), (40, 4, fld x.ent 20 4), (48, 4, off), (52, 4, n), (56, 8, fld x.ent 32 8)] })).1
            buildPut fuel s w cid
    | _, _ => s

/-! SEND (R296 to R298). -/

/-- Sequence records of the module (R299). -/
def seqRecords (s : State) : Nat :=
  (s.xpt.conns.map (fun e => match e.2 with | some c => c.seqTx.length + c.seqRx.length | none => 0)).sum

/-- Take the next MSN of a domain's sequence record; none while the pool is full or an earlier SEND of the queue on the
connection and domain has none yet. -/
def takeMsn (s : State) (w cid dom : Nat) (x : WorkEnt) : Option (State × Nat) :=
  match s.conn cid with
  | none => none
  | some c =>
    let rec_ := SMap.get 0 c.seqTx dom
    let before := (s.earlier w).any (fun e => e.2.fn == x.fn && e.2.qid == x.qid && wop e.2 == 3 && waux e.2 == dom &&
      e.2.msn.isNone && s.cidFor e.2 == some cid)
    if before || (rec_ == 0 && decide (8388608 ≤ s.seqRecords)) then none
    else
      let msn := rec_ - 1
      some ((s.setConn cid (some { c with seqTx := SMap.set 0 c.seqTx dom ((msn + 1) % 2 ^ 32 + 1) })).modWork w
        (fun x => { x with msn := some msn }), msn)

/-- The Message layout of an entry (R55). -/
def msgArea (x : WorkEnt) (d : Dom) (msn off : Nat) : List (Nat × Nat × Nat) :=
  [(32, 2, d.num), (36, 4, d.rank), (40, 8, fld x.ent 24 8), (48, 4, msn), (52, 4, off), (56, 4, wlen x)]

/-- Build the SEND_EAGER packets of a message that has its MSN, in offset order, within the window and the grant. -/
def buildEager : Nat → State → Nat → Nat → Dom → State
  | 0, s, _, _, _ => s
  | fuel + 1, s, w, cid, d =>
    match s.workEnt w, s.conn cid with
    | some x, some c =>
      let n := wlen x
      let off := 4096 * x.sent
      let l := pktLen n x.sent
      match s.canBuild x, x.msn with
      | some k, some msn =>
        if x.built || x.fin.isSome || !psnRoom c 1 || !s.connFree cid w || !s.mayStart c l ||
            decide (s.grantLimit x n < off + l) then s
        else
          match (if n = 0 then some [] else (x.held.find? (fun h => h.1 == off)).map Prod.snd) with
          | none => s
          | some pay =>
            let last := decide (n ≤ off + l)
            let s := s.setWork w (some { x with held := SMap.erase x.held off, built := last })
            let s := (s.sendReq cid (reqFor x k w {
              op := 3, event := wevent x, last := last, bytes := l, pay := pay, area := msgArea x d msn off })).1
            buildEager fuel s w cid d
      | _, _ => s
    | _, _ => s

/-- The MSN of an eager message whose whole payload is on hand. -/
def eagerMsn (s : State) (w cid : Nat) (d : Dom) : State :=
  match s.workEnt w with
  | some x =>
    if x.msn.isNone && x.readB == wlen x then (match s.takeMsn w cid d.num x with | some (s, _) => s | none => s) else s
  | none => s

/-- A rendezvous SEND: its key, its MSN and its RTS (R298). -/
def sendRts (s : State) (w cid : Nat) (x : WorkEnt) (k : Wq) (c : Conn) (d : Dom) : State :=
  if x.built || !psnRoom c 1 || !s.connFree cid w then s
  else
    match s.takeMsn w cid d.num x with
    | none => s
    | some (s', msn) =>
      match s'.takeMr with
      | none => if x.flags = 2 then s else (s.bump R.MTC_KEY_WAIT).modWork w (fun x => { x with flags := 2 })
      | some (s, i) =>
        let s := s.setMr i (some { fn := x.fn, xctx := k.xctx, rights := 1, addr := wladdr x, len := wlen x, eq := 0, work := some w })
        let key := s.keyOf i
        let s := s.modWork w (fun x => { x with key := some key, built := true, flags := 0 })
        (s.sendReq cid (reqFor x k w { op := 4, event := wevent x, last := true, area := msgArea x d msn key })).1

end Sys2Proof.Machine.State

namespace Sys2Proof.Machine
open State

/-- PUT (R186, R273): the entry sends what its window, grant and store allow now. -/
def execPut (w : BitVec 32) (s : State) : Out :=
  let w := w.toNat
  .next (match s.startWork w 1 with
    | (s, none) => s
    | (s, some (x, _, cid, _)) =>
      let n := wlen x
      let s := s.askGrant w cid n
      let s := buildPut (pktCount n) s w cid
      readAll true (pktCount n) s w cid)

namespace State

/-- Bytes of a piece (R274, R306): 4 KiB × 2^code, codes above 8 act as 8. -/
def pieceSize (code : Nat) : Nat := 4096 * 2 ^ min 8 code

/-- Send the next piece of a GET; false when it waits, failed or was the last (R274, R251). -/
def getNext (s : State) (w cid : Nat) : State × Bool :=
  match s.workEnt w, s.conn cid with
  | some x, some c =>
    (match s.canBuild x with
    | none => (s, false)
    | some k =>
      let n := wlen x
      let off := x.issued
      let l := min (pieceSize (s.rd R.XPT_CONN_CFG_GET_PIECE)) (n - off)
      if x.built || x.fin.isSome || !psnRoom c 1 || !s.connFree cid w || !s.mayStart c l || !s.landRoom 1 then (s, false)
      else
        let r := ownReq x k off true
        match (if l = 0 then (s, .ok []) else s.xlateRange r l) with
        | (s, .error none) => (s, false)
        | (s, .error (some f)) => (s.localFault w { r with addr := f.addr } f, false)
        | (s, .ok _) =>
          let last := decide (n ≤ off + l)
          let s := s.setWork w (some { x with issued := off + l, built := last })
          let (s, psn) := s.sendReq cid (reqFor x k w {
            op := 2, last := last, bytes := l, answer := true
            area := [(32, 8, fld x.ent 24 8 + off), (40, 4, fld x.ent 20 4), (52, 4, l)] })
          let s := match s.conn cid with
            | some c => s.setConn cid (some { c with landings := c.landings ++ [{ psn := psn, work := w, off := off, len := l }] })
            | none => s
          (s, !last))
  | _, _ => (s, false)

def getAll : Nat → State → Nat → Nat → State
  | 0, s, _, _ => s
  | fuel + 1, s, w, cid => match s.getNext w cid with | (s, true) => getAll fuel s w cid | (s, false) => s

end State

/-- GET (R251, R274): the pieces that may be sent now. -/
def execGet (w : BitVec 32) (s : State) : Out :=
  .next (match s.startWork w.toNat 2 with
    | (s, none) => s
    | (s, some (x, _, cid, _)) => getAll (pktCount (wlen x)) s w.toNat cid)

/-- SEND (R296 to R299): eager or by rendezvous, as its domain's EAGER_MAX says. -/
def execSend (w : BitVec 32) (s : State) : Out :=
  let w := w.toNat
  .next (match s.startWork w 3 with
    | (s, none) => s
    | (s, some (x, k, cid, c)) =>
      match s.domain x.fn (waux x) with
      | none => s.complete w 3 5 0
      | some d =>
        let n := wlen x
        if n ≤ d.eager then
          let s := if x.msn.isNone then readAll false (pktCount n) s w cid else s
          let s := s.eagerMsn w cid d
          let s := s.askGrant w cid n
          buildEager (pktCount n) s w cid d
        else s.sendRts w cid x k c d)

/-- ATOMIC (R275, R276): at most 8 outstanding on a connection; the 128-bit compare-and-swap first reads its operands. -/
def execAtomic (w : BitVec 32) (s : State) : Out :=
  let w := w.toNat
  .next (match s.startWork w 4 with
    | (s, none) => s
    | (s, some (x, k, cid, c)) =>
      let a := waux x
      let wide := a == 4
      let ready := !wide || x.readB == 32
      if x.built then s
      else if !ready then
        match (if x.issued ≠ 0 then (s, false) else s.storeRoom c.pawn 1) with
        | (s, false) => s
        | (s, true) =>
          let r := ownReq x k 0 false
          match s.xlateRange r 32 with
          | (s, .error none) => s
          | (s, .error (some f)) => s.localFault w { r with addr := f.addr } f
          | (s, .ok segs) => (s.issueRead r 32 (.operand w) segs).modWork w (fun x => { x with issued := 32 })
      else
        let pay := if wide then (SMap.get [] x.held 0) else []
        if 8 ≤ (c.outst.filter (fun o => o.pkt.opcode == 5)).length || !psnRoom c 1 || !s.connFree cid w ||
            (wide && !s.mayStart c 32) then s
        else
          let s := s.setWork w (some { x with held := [], built := true })
          (s.sendReq cid (reqFor x k w {
            op := 5, last := true, answer := true, bytes := if wide then 32 else 0, pay := pay
            area := [(32, 8, fld x.ent 24 8), (40, 4, fld x.ent 20 4), (44, 4, a)] ++
              (if wide then [] else [(48, 8, fld x.ent 40 8), (56, 8, fld x.ent 32 8)]) })).1)

/-- FLUSH (R277): it takes its PSN after every packet of the earlier PUTs and SENDs of its connection. -/
def execFlush (w : BitVec 32) (s : State) : Out :=
  let w := w.toNat
  .next (match s.startWork w 5 with
    | (s, none) => s
    | (s, some (x, k, cid, c)) =>
      let open_ := (s.earlier w).any (fun e => (wop e.2 == 1 || wop e.2 == 3) && e.2.fn == x.fn && !e.2.built &&
        s.cidFor e.2 == some cid)
      if x.built || open_ || !psnRoom c 1 || !s.connFree cid w then s
      else
        let s := s.setWork w (some { x with built := true })
        (s.sendReq cid (reqFor x k w { op := 6, last := true, answer := true })).1)

namespace State

/-- The packet of an SVC entry: no connection, so CONN, EPOCH and PSN are zero. -/
def sendSvc (s : State) (w : Nat) (x : WorkEnt) (k : Wq) (fa : Nat) (pay : List Square) : State :=
  let p := mkPkt { dest := fa, src := s.fnFa x.fn, opcode := 0x0A, pin := true, event := wevent x } 0 pay
  let s := s.setWork w (some { x with held := [], built := true, sent := 1, dest := some fa })
  s.build (inputOf x.fn pay) p (some x.fn) (if k.job = 0xFFFF then none else some k.job) (some k.pawn) (some (w * 2 ^ 32)) k.yellow

end State

/-- SVC (R65, R66, R215, R316): one SVC_REQ to the service AUX of the rank's module, with LEN bytes of payload. The rank is resolved
once. -/
def execSvc (w : BitVec 32) (s : State) : Out :=
  let w := w.toNat
  .next (match s.workEnt w with
    | none => s
    | some x =>
      if wop x ≠ 8 ∨ x.qid = adminQ ∨ x.fin.isSome = true ∨ x.built = true then s
      else
        match s.canBuild x with
        | none => s
        | some k =>
          let s := s.stampWork w 0
          let n := wlen x
          let target := (s.resolveRank k.job (fld x.ent 4 4)).map (fun fa => faOfSvc (faModule fa) (waux x))
          match (match x.dest with | some svc => some svc | none => target) with
          | none => s.complete w 8 0 0
          | some svc =>
            let x := { x with dest := some svc }
            let s := s.setWork w (some x)
            if x.readB = n then s.sendSvc w x k svc (SMap.get [] x.held 0)
            else if x.issued ≠ 0 then s
            else
              match s.storeRoom k.pawn (squaresFor n) with
              | (s, false) => s
              | (s, true) =>
                let r := ownReq x k 0 false
                match s.xlateRange r n with
                | (s, .error none) => s
                | (s, .error (some f)) => s.localFault w { r with addr := f.addr } f
                | (s, .ok segs) => (s.issueRead r n (.payload w 0 n) segs).modWork w (fun x => { x with issued := n }))

namespace State

/-- Squares of a read's bytes: `len` of them, missing ones zero. -/
def squaresOf (bs : List (BitVec 8)) (len : Nat) : List Square :=
  let l := (bs.map BitVec.toNat).take len
  toSquares 64 (l ++ List.replicate (len - l.length) 0)

/-- The context of an entry's connection is used (R288). -/
def useFor (s : State) (w : Nat) : State :=
  match (s.workEnt w).bind WorkEnt.cid with
  | some cid => s.useContext cid
  | none => s

/-- The payload of an entry has come back: build what may be built now. -/
def payloadBack (s : State) (w off : Nat) (pay : List Square) (len : Nat) : State :=
  let s := s.useFor w
  match s.workEnt w with
  | none => s
  | some x =>
    if x.fin.isSome then s
    else
      let s := s.setWork w (some { x with held := SMap.put x.held off pay, readB := x.readB + len })
      match wop x, x.cid with
      | 1, some cid => buildPut (pktCount (wlen x)) s w cid
      | 3, some cid => (match s.domain x.fn (waux x) with
        | some d => buildEager (pktCount (wlen x)) (s.eagerMsn w cid d) w cid d
        | none => s)
      | 8, _ => (match s.canBuild x, s.workEnt w, x.dest with
        | some k, some y, some svc => s.sendSvc w y k svc pay
        | _, _, _ => s)
      | _, _ => s

/-- A read of a served piece has come back (R274, R298, R307): its GET_DATA is sent, and with the last one the GET is accepted. -/
def pieceBack (s : State) (cid epoch psn off mlen : Nat) (pay : List Square) : State :=
  let s := s.useContext cid
  match s.conn cid with
  | none => s
  | some c =>
    let n := SMap.get 0 c.inReads psn
    if c.epoch ≠ epoch ∨ n = 0 then s
    else
      let s := s.setConn cid (some { c with inReads := SMap.set 0 c.inReads psn (n - 1) })
      let req := c.inOp.find? (fun x => x.1 == psn)
      let s := s.sendGetData c psn off mlen pay
      if n = 1 then
        match req with
        | some x => s.accepted cid x.2
        | none => s
      else s

/-- A read made for a send key has come back: its SEND may complete (R298). -/
def keyDone (s : State) (key : Option Nat) : State :=
  match key.bind s.mrOf with
  | some m => (match m.work with | some w => s.sendDone w | none => s)
  | none => s

/-- A read of a served piece failed: NAK_ACCESS with REASON 7 (R284); one made for a duplicate sends nothing. The first address is that of the
piece in the connection's context: a GET_RDV's RADDR counts from the key's region. -/
def pieceFail (s : State) (cid epoch psn off len : Nat) : State :=
  let s := s.useContext cid
  match s.conn cid with
  | none => s
  | some c =>
    if c.epoch ≠ epoch ∨ SMap.get 0 c.inReads psn = 0 then s
    else
      let left := fun (n : Nat) => s.setConn cid (some { c with inReads := SMap.set 0 c.inReads psn n })
      match c.inOp.find? (fun x => x.1 == psn) with
      | some x =>
        let mr := s.mrOf (x.2.rkey / 256)
        let base := if x.2.opcode = 0x20 then (mr.map Mr.addr).getD 0 else 0
        ((left 0).violation cid x.2 7 0 (base + x.2.raddr + off) len mr).refuse cid x.2 6 0
      | none => left (SMap.get 0 c.inReads psn - 1)

/-- The pawn records the departure time of an outstanding request (R184). -/
def noteDeparture (s : State) (cid psn : Nat) : State :=
  match s.conn cid with
  | some c => s.setConn cid (some { c with outst := c.outst.map (fun (y : OutPkt) => if y.psn == psn then { y with dep := some s.ns } else y) })
  | none => s

end State

/-- HOST_READ_COMPLETION (R204, R272, R274): the host answers outstanding read `id` of host port p. An answer to no
outstanding read is an unexpected completion; a rook's read is answered by `OPERAND_READ`. -/
def execHostReadCompletion (p : Fin 4) (id : BitVec 32) (ans : HostAns) (s : State) : Out :=
  .next (match s.reads.find? (fun r => r.id == id.toNat && r.fn / 128 == p.val) with
    | none => s.unexpectedCpl p
    | some r =>
      let old := s
      let s := ((s.withReads (s.reads.filter (fun x => x.id != r.id))).aerRead r.fn ans).wake 17
      match r.why, ans with
      | .coll _ _, _ => old
      | .payload w off len, .ok bs => s.payloadBack w off (squaresOf bs len) len
      | .operand w, .ok bs => s.modWork w (fun x => { x with held := SMap.put x.held 0 (squaresOf bs 32), readB := 32 })
      | .piece cid epoch psn off len mlen, .ok bs => (s.pieceBack cid epoch psn off mlen (squaresOf bs len)).keyDone r.key
      | .payload w _ _, _ => s.complete w 10 0 0
      | .operand w, _ => s.complete w 10 0 0
      | .piece cid epoch psn off len _, _ => (s.pieceFail cid epoch psn off len).keyDone r.key)

/-- DEPARTURE_NOTICE (R19): the oldest notice of output o (256 to 258 are the local outputs) reaches the pawn that built the
packet. A PUT and an eager SEND complete with the last one (R279, R297). -/
def execDepartureNotice (o : Fin 259) (s : State) : Out :=
  .next (match s.departures.find? (fun d => d.1 == o.val) with
    | none => s
    | some d =>
      let s := (s.withDepartures (s.departures.erase d)).wake 17
      let w := d.2 / 2 ^ 32
      let psn := d.2 % 2 ^ 32
      if 2 ^ 96 ≤ d.2 then s.noteDeparture (w - 2 ^ 64) psn
      else
      match s.workEnt w with
      | none => s
      | some x =>
        let s := match x.cid with
          | some cid => s.noteDeparture cid psn
          | none => s
        let x := { x with gone := if x.gone.contains psn then x.gone else x.gone ++ [psn] }
        let s := s.setWork w (some x)
        if x.built && x.gone.length == x.sent then
          let s := s.stampWork w 2
          if wop x = 1 ∨ (wop x = 3 ∧ x.key = none) then s.complete w 0 0 (wlen x) else s
        else s)

/-- KEY_DRAIN_END (R298): the drain of a send key has lasted one age limit; its generation rises and its index is free. -/
def execKeyDrainEnd (idx : BitVec 24) (s : State) : Out :=
  .next (match s.mrOf idx.toNat with
    | some m => (match m.draining with
      | some t => if t ≤ s.now then s.freeMrIdx idx.toNat else s
      | none => s)
    | none => s)

end Sys2Proof.Machine
end

