-- ==== Sys2Proof/Machine/Matching.lean ====
section
/-!
DEFINITION. Message matching (chapter 12): arrivals by MSN, receives, probes, cancels, rendezvous pulls and handler slots.
A message under an entry index below 2²² is early, unexpected or held; a matched one stands under 2²² and up.
-/
namespace Sys2Proof.Machine

/-- The outcome of a match or a delivery. -/
inductive MStep where
  | accept
  | refuse (code retry : Nat)
  | wait
  deriving DecidableEq, Repr

/-- What happens to a message that finds no receive (R316): it is staged, it is refused with a RETRY_US, or the domain's
handler must run first. -/
inductive Choice where
  | stage
  | refuse (retry : Nat)
  | handler
  deriving DecidableEq, Repr

namespace State

/-! Accounts (R301, R308). -/

/-- A message counts against the unexpected limits. -/
def isUnexp (m : Msg) : Bool := m.state == .unexpected || m.state == .held

def liveMsgs (s : State) : List (Nat × Msg) := s.mtc.msgs.filterMap (fun e => e.2.map (fun m => (e.1, m)))
def entriesUsed (s : State) : Nat := (s.liveMsgs.filter (fun e => decide (e.1 < 2 ^ 22))).length

/-- Squares staged or reserved in the module (R308). -/
def stageUsed (s : State) : Nat :=
  (s.liveMsgs.map (fun e => if e.2.state == .matched then (e.2.staged.map (fun x => x.2.length)).sum else e.2.squares)).sum

/-- Posted receives of the module (R294). -/
def postedCount (s : State) : Nat := (s.mtc.doms.map (fun e => match e.2 with | some d => d.posted.length | none => 0)).sum

/-- Squares of the messages that `hit` names. -/
def squaresWhere (s : State) (hit : Msg → Bool) : Nat := ((s.liveMsgs.filter (fun e => hit e.2)).map (fun e => e.2.squares)).sum

/-- Room in the entry pool and the partition for a message of n squares. -/
def poolRoom (s : State) (n : Nat) : Bool :=
  decide (s.entriesUsed < 4194304) && (n == 0 || decide (s.stageUsed + n ≤ s.stageSize))

/-- reserve_early's limits (R301). A message of no squares needs its entry only. -/
def earlyRoom (s : State) (cid epoch : Nat) (d : Dom) (n : Nat) : Bool :=
  s.poolRoom n &&
  (n == 0 || decide (s.squaresWhere (fun m => m.state == .early && m.cid == cid && m.epoch == epoch && m.dom == d.num) + n ≤ d.srcEarly))

/-- The unexpected limits (R301, R308). -/
def unexpRoom (s : State) (cid epoch : Nat) (d : Dom) (n : Nat) : Bool :=
  s.poolRoom n &&
  (n == 0 || decide (s.squaresWhere (fun m => isUnexp m && m.cid == cid && m.epoch == epoch && m.dom == d.num) + n ≤ d.srcUnexp)) &&
  (n == 0 || decide (s.squaresWhere (fun m => isUnexp m && m.fn == d.fn && m.dom == d.num) + n ≤ d.domUnexp)) &&
  decide ((s.liveMsgs.filter (fun e => isUnexp e.2 && e.2.fn == d.fn && e.2.dom == d.num)).length < d.domMsgs)

/-- The lowest free entry index. -/
def freeEntry : Nat → List Nat → Nat → Nat
  | 0, _, i => i
  | fuel + 1, l, i => if l.contains i then freeEntry fuel l (i + 1) else i
def newEntry (s : State) : Nat := freeEntry (s.mtc.msgs.length + 1) (s.mtc.msgs.map Prod.fst) 0

/-! Messages. -/

/-- The message record a packet starts. -/
def msgFrom (cid : Nat) (c : Conn) (p : Pkt) (st : MsgState) : Msg :=
  { cid := cid, epoch := c.epoch, fn := c.fn, dom := p.domain, msn := p.msn, src := p.srcRank, tag := p.tag, mlen := p.msgLen
    rts := p.opcode == 4, rkey := if p.opcode = 4 then p.msgOff else 0, event := p.event, state := st }

/-- The record of a packet's message. -/
def findMsg (s : State) (cid epoch : Nat) (p : Pkt) : Option (Nat × Msg) :=
  s.liveMsgs.find? (fun e => e.2.cid == cid && e.2.epoch == epoch && e.2.dom == p.domain && e.2.msn == p.msn)

/-- A packet agrees with its message's record (R303). -/
def sameMsg (m : Msg) (p : Pkt) : Bool :=
  m.src == p.srcRank && m.tag == p.tag && m.mlen == p.msgLen && m.rts == (p.opcode == 4)

/-- Index of a packet in its message. -/
def pktIndex (p : Pkt) : Nat := if p.opcode = 4 then 0 else p.msgOff / 4096

/-- Hold a packet's bytes in its message's staging. -/
def stagePkt (m : Msg) (p : Pkt) : Msg :=
  let i := pktIndex p
  if m.got.contains i then m
  else { m with got := m.got ++ [i], staged := if m.rts then m.staged else SMap.put m.staged i p.pay }

/-- Eligibility (R292) of the receive entry w for an envelope. -/
def eligible (s : State) (w src tag : Nat) : Bool :=
  match s.workEnt w with
  | some x =>
    let r := fld x.ent 4 4
    (r == 0xFFFFFFFF || r == src) && ((fld x.ent 24 8 ^^^ tag) &&& (2 ^ 64 - 1 - fld x.ent 32 8)) == 0
  | none => false

/-- Bind a message to a receive: it moves to a matched record (R304, R305). -/
def bindMsg (s : State) (m : Msg) (w : Nat) : State × Nat :=
  let key := 2 ^ 22 + s.mtc.nextMsg
  let s := s.withMtc { s.mtc with nextMsg := s.mtc.nextMsg + 1 }
  let len := match s.workEnt w with | some x => fld x.ent 16 4 | none => 0
  let s := s.setMsg key (some { m with state := .matched, recv := some w, total := min m.mlen len })
  (s.modWork w (fun x => { x with msg := some key }), key)

/-- Make a message unexpected under an entry index (R295). -/
def makeUnexp (s : State) (i : Nat) (m : Msg) : State :=
  let s := s.setMsg i (some { m with state := .unexpected, order := s.mtc.nextOrder })
  ((s.bump R.MTC_MATCH_UNEXP).withMtc { s.mtc with nextOrder := s.mtc.nextOrder + 1 })

/-- The posted receive a message takes (R295): the eligible one with the least stamp. -/
def pickPosted (s : State) (d : Dom) (m : Msg) : Option Nat := d.posted.find? (fun w => s.eligible w m.src m.tag)

/-- Take a receive out of its domain's posted list. -/
def unpost (s : State) (d : Dom) (w : Nat) : State :=
  match s.domain d.fn d.num with
  | some d => s.setDom d.fn d.num (some { d with posted := d.posted.filter (· != w) })
  | none => s

/-- The match step of a message whose room, if it becomes unexpected, is reserved: the cascade of R300. -/
def matchEarly (s : State) (i : Nat) (m : Msg) : State :=
  match s.domain m.fn m.dom with
  | none => s
  | some d =>
    match s.pickPosted d m with
    | some w =>
      let s := ((s.unpost d w).freeMsg i).bump R.MTC_MATCH_POSTED
      let (s, key) := s.bindMsg m w
      copyStaged (m.staged.length + 1) s key
    | none => s.makeUnexp i m

/-- A UNEXPECTED handler that would run for the domain (R316, R317). -/
def unexpHandler (s : State) (d : Dom) : Option Nat :=
  match d.handler with
  | some k => if s.rdB (R.MTC_SLOT_VALID k) && s.rd (R.MTC_SLOT_HOOK k) == 2 && !s.rdB (R.MTC_SLOT_DISABLED k) then some k else none
  | none => none

/-- NAK_STAGING's RETRY_US (R309, R318). -/
def stageRetry (s : State) : Nat := max 1 (s.rd R.MTC_CFG_STAGE_RETRY_US)

def nakStaging (s : State) : State × MStep := (s.bump R.MTC_NAK_STAGING, .refuse 3 s.stageRetry)

def nakInvalid (s : State) : State × MStep := (s.bump R.MTC_NAK_INVALID, .refuse 7 0)

/-- A packet of a matched eager message is placed, or falls to no receive: it leaves OUTSTANDING with those placed before it (R187). -/
def msgPlaced (s : State) (cid : Nat) (m : Msg) (p : Pkt) : State :=
  if m.rts then s
  else s.grantPlaced cid (msgKey m.dom m.msn) m.mlen [pktIndex p] (m.got.filter (fun i => !m.staged.any (fun e => e.1 == i)))

/-- deliver(s, p) (R303, R304): the packet of a message that has had its match step. -/
def deliver_ (s : State) (cid epoch : Nat) (p : Pkt) : State × MStep :=
  match s.findMsg cid epoch p with
  | none => s.nakInvalid
  | some (i, m) =>
    if !sameMsg m p || m.state == .early then s.nakInvalid
    else if m.got.contains (pktIndex p) then (s, .accept)
    else
      match m.state, m.recv with
      | .matched, some w =>
        if m.rts then (s, .accept)
        else
          match s.workEnt w with
          | none => (((s.setMsg i (some { m with got := m.got ++ [pktIndex p] })).msgPlaced cid m p).recvDone i, .accept)
          | some x =>
            let len := fld x.ent 16 4
            let l := min 4096 (m.mlen - p.msgOff)
            let n := min l (len - p.msgOff)
            let r := { s.recvReq x p.msgOff with own := pktOwn cid epoch p.psn }
            match (if p.msgOff < len then s.place r p.pay 0 n else (s, .done)) with
            | (s, .wait) => (s, .wait)
            | (s, .fault f) =>
              (match s.targetFault cid p { r with addr := f.addr } f n none with
              | (s, .refuse code retry) => (s, .refuse code retry)
              | (s, _) => (s, .wait))
            | (s, .done) =>
              let s := s.notePlaced cid epoch r n
              (((s.setMsg i (some { m with got := m.got ++ [pktIndex p] })).msgPlaced cid m p).recvDone i, .accept)
      | .matched, none => (((s.setMsg i (some { m with got := m.got ++ [pktIndex p] })).msgPlaced cid m p).recvDone i, .accept)
      | _, _ => (s.setMsg i (some (stagePkt m p)), .accept)

/-- The while loop of R300: early messages that have become expected. -/
def cascade : Nat → State → Nat → Nat → State
  | 0, s, _, _ => s
  | fuel + 1, s, cid, dom =>
    match s.conn cid with
    | none => s
    | some c =>
      let rec_ := SMap.get 0 c.seqRx dom
      match s.liveMsgs.find? (fun e => e.2.cid == cid && e.2.epoch == c.epoch && e.2.dom == dom && e.2.msn + 1 == rec_ && e.2.state == .early) with
      | none => s
      | some (i, m) =>
        let s := s.setConn cid (some { c with seqRx := SMap.set 0 c.seqRx dom (rec_ % 2 ^ 32 + 1) })
        cascade fuel ((s.matchEarly i m).bump R.MTC_CASCADE) cid dom

/-- NEXT of a record advances past a matched message, the packet's own bytes are handled, and the cascade runs. -/
def afterMatch (s : State) (cid : Nat) (p : Pkt) : State × MStep :=
  match s.conn cid with
  | none => (s, .accept)
  | some c =>
    let s := s.setConn cid (some { c with seqRx := SMap.set 0 c.seqRx p.domain ((p.msn + 1) % 2 ^ 32 + 1) })
    match s.deliver_ cid c.epoch p with
    | (s, r) => (cascade (s.mtc.msgs.length + 1) s cid p.domain, r)

/-- arrive(p, c) of R300; `ch` is what an unexpected message meets. -/
def arriveMsg (s : State) (cid : Nat) (c : Conn) (p : Pkt) (ch : Dom → Choice) : State × MStep :=
  match s.domain c.fn p.domain with
  | none => (s.bump R.MTC_NAK_NODOMAIN, .refuse 3 s.stageRetry)
  | some d =>
    let eager := p.opcode == 3
    if eager && (decide (262144 < p.msgLen) || !splitOk p.msgOff p.msgLen p) then s.nakInvalid
    else
      let rec0 := SMap.get 0 c.seqRx d.num
      if rec0 = 0 ∧ 8388608 ≤ s.seqRecords then s.nakStaging
      else
        let next := if rec0 = 0 then 0 else rec0 - 1
        let s := if rec0 = 0 then s.setConn cid (some { c with seqRx := SMap.set 0 c.seqRx d.num 1 }) else s
        let k := (p.msn + 2 ^ 32 - next) % 2 ^ 32
        let n := if eager then squaresFor p.msgLen else 0
        if k ≥ 2 ^ 31 then s.deliver_ cid c.epoch p
        else if k > 0 then
          match s.findMsg cid c.epoch p with
          | some (i, m) => if !sameMsg m p then s.nakInvalid else (s.setMsg i (some (stagePkt m p)), .accept)
          | none =>
            if d.span < k || !s.earlyRoom cid c.epoch d n then s.nakStaging
            else
              let i := s.newEntry
              ((s.setMsg i (some (stagePkt (msgFrom cid c p .early) p))).bump R.MTC_EARLY_HELD, .accept)
        else
          let m := msgFrom cid c p .matched
          let m := if m.rts then { m with got := [0] } else m
          match s.pickPosted d m with
          | some w =>
            let s := (s.unpost d w).bump R.MTC_MATCH_POSTED
            let (s, _) := s.bindMsg m w
            s.afterMatch cid p
          | none =>
            match ch d with
            | .handler => (s, .wait)
            | .refuse retry => (s.bump R.MTC_NAK_STAGING, .refuse 3 (max 1 retry))
            | .stage =>
              if !s.unexpRoom cid c.epoch d n then s.nakStaging
              else (s.makeUnexp s.newEntry m).afterMatch cid p

/-- Handle the packet at the head of the home pawns' queue with `ch`; it stays there while it waits. -/
def arriveHead (s : State) (ch : Dom → Choice) : State :=
  match s.xpt.homeIn with
  | [] => s
  | (cid, p) :: rest =>
    let drop := fun (s : State) => (s.withXpt { s.xpt with homeIn := rest })
    let s := s.useContext cid
    match s.conn cid with
    | none => drop s
    | some c =>
      if c.epoch ≠ p.epoch then drop s
      else
        match s.arriveMsg cid c p ch with
        | (s, .wait) => s
        | (s, .accept) =>
          (drop s).accepted cid p
        | (s, .refuse code retry) => (drop s).refuse cid p code retry

end State

open State

/-- ARRIVE (R294 to R304): the home pawn handles the oldest SEND_EAGER or RTS handed to it. A message that would become
unexpected in a domain with an enabled handler waits for `HANDLER_INVOKE` or `HANDLER_OVERRUN`. -/
def execArrive (s : State) : Out :=
  .next (s.arriveHead (fun d => if (s.unexpHandler d).isSome then .handler else .stage))

namespace State

/-- An entry of a receive queue may take its step: every earlier entry of its queue has taken its own (R294). -/
def recvTurn (s : State) (w op : Nat) : Option (WorkEnt × Wq) :=
  match s.workEnt w with
  | none => none
  | some x =>
    if wop x ≠ op ∨ x.qid = adminQ ∨ x.fin.isSome = true then none
    else if (s.earlier w).any (fun e => e.2.fn == x.fn && e.2.qid == x.qid && !e.2.started) then none
    else
      match s.wq x.fn x.qid with
      | some k => if k.state = 1 && !s.fnTeardown x.fn then some (x, k) else none
      | none => none

/-- The unexpected message a receive or probe finds (R305, R310). -/
def pickUnexp (s : State) (fn dom w : Nat) : Option (Nat × Msg) :=
  (s.liveMsgs.filter (fun e => e.2.state == .unexpected && e.2.fn == fn && e.2.dom == dom && s.eligible w e.2.src e.2.tag)).foldl
    (fun best e => match best with
      | none => some e
      | some b => if e.2.order < b.2.order then some e else some b) none

/-- A receive takes a message that stands under entry index i (R305, R311). -/
def takeMsg (s : State) (i : Nat) (m : Msg) (w : Nat) : State :=
  let s := s.freeMsg i
  let (s, key) := s.bindMsg m w
  let s := s.modWork w (fun x => { x with started := true })
  if m.rts then s else copyStaged (m.staged.length + 1) s key

end State

/-- RECV (R293, R294, R305, R311). A receive whose copy waited for a page or a walk goes on with it. -/
def execRecv (w : BitVec 32) (s : State) : Out :=
  let w := w.toNat
  .next (match s.recvTurn w 0x10 with
    | none => s
    | some (x, _) =>
      match x.msg with
      | some m => (match s.msgOf m with
        | some g => if g.rts then s else copyStaged (g.staged.length + 1) s m
        | none => s)
      | none =>
        if x.started then s
        else
          let s := s.stampWork w 0
          match s.domain x.fn (waux x) with
          | none => s.finish w 3 5
          | some d =>
            if fld x.ent 40 1 = 1 then
              let h := fld x.ent 44 4
              (match s.msgOf (h / 1024) with
              | some m =>
                if m.state = .held ∧ m.fn = x.fn ∧ m.dom = d.num ∧ SMap.get 0 s.mtc.gens (h / 1024) = h % 1024 then
                  s.takeMsg (h / 1024) m w
                else s.finish w 6 0
              | none => s.finish w 6 0)
            else
              match s.pickUnexp x.fn d.num w with
              | some (i, m) => (s.takeMsg i m w).bump R.MTC_UNEXP_TAKEN
              | none =>
                if 16777216 ≤ s.postedCount then s.finish w 5 0
                else
                  let s := s.setDom x.fn d.num (some { d with nextStamp := (d.nextStamp + 1) % 2 ^ 64, posted := d.posted ++ [w] })
                  s.modWork w (fun x => { x with stamp := some d.nextStamp, started := true }))

/-- PROBE (R310): peek, or hold with a HANDLE written at LADDR. -/
def execProbe (w : BitVec 32) (s : State) : Out :=
  let w := w.toNat
  .next (match s.recvTurn w 0x11 with
    | none => s
    | some (x, k) =>
      let s := s.stampWork w 0
      match s.domain x.fn (waux x) with
      | none => s.finish w 3 5
      | some d =>
        match s.pickUnexp x.fn d.num w with
        | none => (s.bump R.MTC_PROBE_MISS).finish w 6 0
        | some (i, m) =>
          if fld x.ent 40 1 = 0 then (s.bump R.MTC_PROBE_HIT).finish w 0 0 m.tag m.mlen m.src
          else
            let handle := i * 1024 + SMap.get 0 s.mtc.gens i
            let r := ownReq x k 0 true
            match s.place r [sqOfBytes (bytesLE handle 8)] 0 8 with
            | (s, .wait) => s
            | (s, .fault f) => s.localFault w r f
            | (s, .done) =>
              ((s.setMsg i (some { m with state := .held })).bump R.MTC_PROBE_HIT).finish w 0 0 m.tag m.mlen m.src)

/-- CANCEL (R312). -/
def execCancel (w : BitVec 32) (s : State) : Out :=
  let w := w.toNat
  .next (match s.recvTurn w 0x12 with
    | none => s
    | some (x, k) =>
      let s := s.stampWork w 0
      let user := fld x.ent 32 8
      let cand := k.ents.filterMap (fun v => match s.workEnt v with
        | some y => (match y.stamp with
          | some t => if fld y.ent 48 8 == user && y.fin.isNone && y.msg.isNone then some (t, v, y) else none
          | none => none)
        | none => none)
      match cand.foldl (fun (best : Option (Nat × Nat × WorkEnt)) c => match best with
          | none => some c
          | some b => if c.1 < b.1 then some c else some b) none with
      | none => (s.bump R.MTC_CANCEL_MISS).finish w 6 0
      | some (_, v, y) =>
        let s := match s.domain y.fn (waux y) with | some d => s.unpost d v | none => s
        ((s.bump R.MTC_CANCELLED).finish v 14 0).finish w 0 0)

namespace State

/-- Translate the pages of a pull's landing range, going on where the last step stopped: every one is usable, or the step
waits or faults (R251, R306). -/
def pullRange : Nat → State → Nat → Nat → State × Option XFault
  | 0, s, _, _ => (s, none)
  | fuel + 1, s, m, w =>
    match s.msgOf m, s.workEnt w with
    | some g, some x =>
      if g.total ≤ g.asked then (s.setMsg m (some { g with ready := true, asked := 0 }), none)
      else
        let r := s.recvReq x g.asked
        match s.xlate r with
        | (s, .miss) => (s, none)
        | (s, .fault f) => (s, some f)
        | (s, .hit _) => pullRange fuel (s.setMsg m (some { g with asked := min g.total ((r.addr / 4096 + 1) * 4096 - wladdr x) })) m w
    | _, _ => (s, none)

/-- RDV_INFLIGHT; 0 acts as 1. -/
def rdvInflight (s : State) : Nat := max 1 (s.rd R.MTC_CFG_RDV_INFLIGHT)

/-- Send a GRANT-free GET_RDV of a pull: offset, length; length 0 is the closing one (R306), the last packet of the receive. -/
def sendRdv (s : State) (cid : Nat) (g : Msg) (off len qid : Nat) (job : Option Nat) : State × Nat :=
  s.sendReq cid { op := 0x20, last := len == 0, area := [(32, 8, off), (40, 4, g.rkey), (52, 4, len)], qid := qid, job := job
                  bytes := len, answer := len != 0 }

/-- A builder of the domain may build now. -/
def pullOk (s : State) (g : Msg) (cid : Nat) (c : Conn) : Bool :=
  let j := match s.domain g.fn g.dom with | some d => d.job | none => 0xFFFF
  !s.timeHeld && !s.quenched g.fn j && !s.fnTeardown g.fn && psnRoom c 1 && s.connFree cid s.nextWork && c.state != 3

end State

/-- GET_RDV_SEND (R187, R251, R306): message m is pulled: its landing range is translated, then a piece goes out when a
landing record, the budget and the window allow, and after the last one the closing GET_RDV. -/
def execGetRdvSend (m : BitVec 32) (s : State) : Out :=
  let m := m.toNat
  .next (match s.msgOf m with
    | none => s
    | some g =>
      let s := s.useContext g.cid
      match s.conn g.cid with
      | none => s
      | some c =>
        let job := (s.domain g.fn g.dom).map Dom.job
        if !g.rts || g.state != .matched then s
        else
          match g.recv.bind (fun w => (s.workEnt w).map (fun x => (w, x))) with
          | none =>
            if g.pulled = g.total ∧ c.landings.all (fun y => y.msg != some m) = true ∧ s.pullOk g g.cid c = true then ((s.sendRdv g.cid g g.asked 0 0 job).1).freeMsg m else s
          | some (w, x) =>
            if !(match s.wq x.fn x.qid with | some k => k.state == 1 | none => false) then s
            else if !g.ready then
              match pullRange (g.total / 4096 + 3) s m w with
              | (s, some f) =>
                let r : XReq := s.recvReq x g.asked
                let s := s.recvFault m w ({ r with addr := f.addr } : XReq) f
                (match s.workEnt w, s.msgOf m with
                | none, some g => s.setMsg m (some { g with asked := 0 })
                | _, _ => s)
              | (s, none) =>
                (match s.msgOf m with
                | some g => if g.ready then (s.bump R.MTC_RDV_PULLS).recvDone m else s
                | none => s)
            else if g.total ≤ g.asked then s
            else
              let h := g.fn / 128
              let l := min (pieceSize (s.rd R.MTC_CFG_RDV_PIECE)) (g.total - g.asked)
              let out := (c.landings.filter (fun y => y.msg == some m)).length
              if s.rdvInflight ≤ out || !s.budgetOk h || !s.pullOk g g.cid c || !s.mayStart c l || !s.landRoom 1 then s
              else
                let (s, psn) := (s.addOutst g.cid l).sendRdv g.cid g g.asked l x.qid job
                let s := match s.conn g.cid with
                  | some c => s.setConn g.cid (some { c with
                      landings := c.landings ++ [({ psn := psn, work := w, off := g.asked, len := l, msg := some m } : Landing)] })
                  | none => s
                s.setMsg m (some { g with asked := g.asked + l }))

namespace State

/-- Base and bytes of slot k's region of the handler partition (R317, R412): the regions stand there in the order of the slots (log entry
124). -/
def handlerRegion (s : State) (k : Nat) : Nat × Nat :=
  match s.opening with
  | none => (0, 0)
  | some o =>
    let size := fun (hit : Nat → Bool) => ((o.handlers.filter (fun h => hit h.slot)).map HandlerCfg.regionMib).sum * 2 ^ 20
    ((s.partition 7).1 + size (fun j => decide (j < k)), size (fun j => j == k))

/-- The words that a handler of slot k writes; none outside its region. -/
def handlerWrites (s : State) (k : Nat) (l : List (BitVec 25 × BitVec 64)) : State :=
  let reg := s.handlerRegion k
  l.foldl (fun s w => if 8 * w.1.toNat < reg.2 then s.setMemWord (reg.1 + 8 * w.1.toNat) w.2.toNat else s) s

/-- An invocation of slot k: counted, with what it writes. -/
def countRun (s : State) (k : Nat) (l : List (BitVec 25 × BitVec 64)) : State :=
  ((s.bump R.MTC_HANDLER_RUNS).bump (R.MTC_SLOT_STAT_RUNS k)).handlerWrites k l

/-- The SVC_REQ that the SERVICE handler of slot k takes, and the queue without it. -/
def svcReq (s : State) (k : Nat) : Option (Pkt × List Pkt) :=
  takePkt (fun p => p.opcode == 0x0A && faSvc p.destFa && faService p.destFa == s.rd (R.MTC_SLOT_SERVICE k)) s.engReq

/-- The SVC_RESP of a handler, up to 4,096 bytes: connection fields as in the request (R57, R316). DESIGN CHOICE (log entry 110): bytes 32 to
63 of its header, which the service would define (R59), are zero. -/
def svcAnswer (s : State) (p : Pkt) (bs : List (BitVec 8)) : State :=
  let pay := toSquares 64 (bs.map BitVec.toNat)
  let q := mkPkt { dest := p.srcFa, src := p.destFa, opcode := 0x48, pin := true, conn := p.conn, epoch := p.epoch, psn := p.psn } 0 pay
  s.build 0 q none none none none false

/-- The slot whose handler the message at the head of the home pawns' queue waits for. -/
def headSlot (s : State) : Option Nat :=
  match s.xpt.homeIn with
  | (cid, p) :: _ => (match s.conn cid with
    | some c => (s.domain c.fn p.domain).bind (fun d => s.unexpHandler d)
    | none => none)
  | [] => none

/-- The head message would become unexpected: only then does a handler run (R316). -/
def headUnexp (s : State) : Bool :=
  match s.xpt.homeIn with
  | (cid, p) :: _ => (match s.conn cid with
    | some c => c.epoch == p.epoch && (match s.arriveMsg cid c p (fun _ => .handler), s.arriveMsg cid c p (fun _ => .refuse 0) with
      | (_, .wait), (_, .refuse _ _) => true
      | _, _ => false)
    | none => false)
  | [] => false

/-- Home pawn of the message at the head. -/
def headHome (s : State) : Nat :=
  match s.xpt.homeIn with
  | (cid, p) :: _ => (match s.conn cid with
    | some c => (match s.domain c.fn p.domain with | some d => d.home | none => 0)
    | none => 0)
  | [] => 0

/-- Run slot k's handler with its writes and verdict (R316); the default verdict is `silent` for SERVICE and `stage` for UNEXPECTED. -/
def runHandler (s : State) (k : Nat) (v : HandlerRun) : State :=
  if s.rd (R.MTC_SLOT_HOOK k) = 1 then
    match s.svcReq k with
    | none => s
    | some (p, rest) =>
      let s := s.withEngReq rest
      if !crcOk p then s.engCrcFail
      else if s.rdB (R.MTC_SLOT_DISABLED k) then s
      else
        match v.verdict with
        | .respond bs => (s.countRun k v.writes).svcAnswer p bs
        | _ => s.countRun k v.writes
  else if s.headSlot = some k ∧ s.headUnexp = true then
    (s.countRun k v.writes).arriveHead (fun _ => match v.verdict with | .refuse r => .refuse r.toNat | _ => .stage)
  else s

end State

/-- HANDLER_INVOKE (R316, R317): slot k runs within its budget and answers v. -/
def execHandlerInvoke (k : Fin 8) (v : HandlerRun) (s : State) : Out :=
  .next (if s.rdB (R.MTC_SLOT_VALID k) then s.runHandler k v else s)

/-- HANDLER_OVERRUN (R317, R459): the invocation reaches its cycle budget: the default verdict, and the count of the 1 ms window. -/
def execHandlerOverrun (k : Fin 8) (s : State) : Out :=
  let waits := if s.rd (R.MTC_SLOT_HOOK k) = 1 then (s.svcReq k).isSome else s.headSlot == some k.val && s.headUnexp
  .next (if !s.rdB (R.MTC_SLOT_VALID k) || s.rdB (R.MTC_SLOT_DISABLED k) || !waits then s
    else
      let hook := s.rd (R.MTC_SLOT_HOOK k)
      let pawn := if hook = 1 then s.servicePawn else s.headHome
      let s := s.runHandler k { verdict := if hook = 1 then .silent else .stage }
      let s := (s.bump R.MTC_HANDLER_OVERRUN).satAdd (R.MTC_SLOT_STAT_OVERRUNS k) 1
      let win := s.winIdx 1000000
      let runs := if s.mtc.overIdx = win then s.mtc.overRuns else []
      let n := SMap.get 0 runs k.val + 1
      let s := s.withMtc { s.mtc with overRuns := SMap.set 0 runs k.val n, overIdx := win }
      if n = 16 then (s.wr (R.MTC_SLOT_DISABLED k) 1).fault (148 + pawn) 0x0403 else s)

end Sys2Proof.Machine
end

