-- ==== Sys2Proof/Machine/CollOps.lean ====
section
/-!
DEFINITION. The collective complex's operations (chapter 13): tree entries, seating, unseating, operations with their slots,
contributions and results, and aborts.
-/
namespace Sys2Proof.Machine

/-! Byte lists of chunks (R321, R333). -/

/-- Split bytes into little-endian elements of k bytes; an incomplete last one is dropped. -/
def elemsOf (k : Nat) : Nat → List Nat → List Nat
  | 0, _ => []
  | fuel + 1, bs => if bs.length < k ∨ k = 0 then [] else leOf (bs.take k) :: elemsOf k fuel (bs.drop k)

/-- The bytes of elements of k bytes. -/
def bytesOf (k : Nat) (es : List Nat) : List Nat := es.flatMap (fun e => bytesLE e k)

/-- Elements of one native chunk (R333). -/
def nativeElems (ty : Nat) : Nat := 4096 / elemSize ty

/-- Blocks of an anchor chunk, elements it covers. -/
def anchorSpan : Nat := 224 * 64

/-- Chunks of an operand of `len` bytes: of the native or data pass, and of the anchor pass. -/
def chunkCounts (opmode ty kind len : Nat) : Nat × Nat :=
  let e := len / elemSize ty
  if kind = 0 then (1, 0)
  else if collAnch opmode && decide (2 ≤ kind) then (ceilDiv e (anchElems ty), anchorChunks e)
  else (ceilDiv len 4096, 0)

namespace CollOp

/-- Sequence numbers of the operation (R332). -/
def total (o : CollOp) : Nat := o.na + o.nmain
/-- The operation runs in anchored mode. -/
def anch (o : CollOp) : Bool := collAnch o.opmode && decide (2 ≤ o.kind)
/-- The pass and CHUNK of a sequence number. -/
def pass (o : CollOp) (q : Nat) : Nat × Nat := if !o.anch then (0, q) else if q < o.na then (1, q) else (2, q - o.na)
/-- NCHUNK of a pass. -/
def count (o : CollOp) (pass : Nat) : Nat := if pass = 1 then o.na else o.nmain
/-- The element range of the operand that sequence number q covers: first element and number, when LEN is known. -/
def elems (o : CollOp) (q : Nat) : Nat × Nat :=
  let per := match (o.pass q).1 with | 0 => nativeElems o.ty | 1 => anchorSpan | _ => anchElems o.ty
  let e := (o.len.getD 0) / elemSize o.ty
  ((o.pass q).2 * per, min per (e - (o.pass q).2 * per))
/-- Squares of an up payload, when they are known (R333). -/
def upSquares (o : CollOp) (q : Nat) : Option Nat :=
  match o.pass q with
  | (1, _) => some 63
  | (p, c) =>
    let per := if p = 0 then nativeElems o.ty else anchElems o.ty
    let sz := if p = 0 then elemSize o.ty else anchW o.ty / 8
    if c + 1 < o.nmain then some (squaresFor (per * sz))
    else match o.len with
      | some _ => some (squaresFor ((o.elems q).2 * sz))
      | none => none

end CollOp

/-- Combine the payloads of two contributions of one pass (R336, R338, R339). -/
def collCombine (pass opmode ty : Nat) (a b : List Nat) : List Nat × Nat :=
  if pass = 0 then
    let k := elemSize ty
    let r := ((elemsOf k a.length a).zip (elemsOf k b.length b)).map (fun x => combineElem (collOper opmode) ty x.1 x.2)
    (bytesOf k (r.map Prod.fst), r.foldl (fun f x => f ||| x.2) 0)
  else if pass = 1 then
    let an := ((elemsOf 2 224 (a.take 448)).zip (elemsOf 2 224 (b.take 448))).map (fun x =>
      if signedOf 16 x.1 < signedOf 16 x.2 then x.2 else x.1)
    let mp := ((a.drop 448).zip (b.drop 448)).map (fun x => x.1 ||| x.2)
    (bytesOf 2 an ++ mp, 0)
  else
    let k := anchW ty / 8
    let r := ((elemsOf k a.length a).zip (elemsOf k b.length b)).map (fun x => (x.1 + x.2) % 2 ^ anchW ty)
    (bytesOf k r, 0)

/-- The anchor record of block b in the anchor store: anchor and special map (R338). -/
def anchorRec (anchors : SMap (List Nat)) (b : Nat) : Nat × Nat :=
  let bs := SMap.get [] anchors (b / 224)
  let i := b % 224
  (leOf ((bs.drop (2 * i)).take 2), leOf ((bs.drop (448 + 16 * i)).take 16))

/-- A leaf's anchor chunk for the operand elements it covers (R338). -/
def leafAnchors (ty : Nat) (es : List Nat) : List Nat :=
  let f := fmtOf ty
  let blocks := (List.range 224).map (fun i => (es.drop (64 * i)).take 64)
  bytesOf 2 (blocks.map (fun l => if l.isEmpty then 0 else blockAnchor f l)) ++
    bytesOf 16 (blocks.map (fun l => blockMap f l))

/-- A leaf's data chunk: W-bit integers, first element e0 (R339), and its flags. -/
def leafInts (ty e0 : Nat) (anchors : SMap (List Nat)) (es : List Nat) : List Nat × Nat :=
  let r := es.zipIdx.map (fun x => anchElem ty (anchorRec anchors ((e0 + x.2) / 64)).1 x.1)
  (bytesOf (anchW ty / 8) (r.map Prod.fst), if r.any Prod.snd then 4 else 0)

/-- The root's rounding of a data chunk (R340): first element e0. -/
def roundChunk (ty e0 : Nat) (anchors : SMap (List Nat)) (sums : List Nat) : List Nat × Nat :=
  let k := anchW ty / 8
  let r := (elemsOf k sums.length sums).zipIdx.map (fun x =>
    let e := e0 + x.2
    let a := anchorRec anchors (e / 64)
    anchResult ty a.1 (bitsOf a.2 (2 * (e % 64)) 2) x.1)
  (bytesOf (elemSize ty) (r.map Prod.fst), r.foldl (fun f x => f ||| x.2) 0)

/-- Flags of a contribution before any combination: its own NaNs and infinities (R336). -/
def ownFlags (ty : Nat) (bs : List Nat) : Nat :=
  if isFloat ty then (elemsOf (elemSize ty) bs.length bs).foldl (fun f v => f ||| floatFlags (fmtOf ty) v v v false) 0 else 0

namespace State

/-! The tree entry (R322). -/
def tree (s : State) (m : Nat) : TreeSt := SMap.get {} s.trees m
def setTree (s : State) (m : Nat) (t : TreeSt) : State := s.withTrees (SMap.set {} s.trees m t)
def treeA (s : State) (m : Nat) : Nat := s.rd (R.COL_TREE_A_ACT m)
def treeNum (s : State) (m : Nat) : Nat := bitsOf (s.treeA m) 0 16
def treeRoot (s : State) (m : Nat) : Bool := bitsOf (s.treeA m) 17 2 == 2
def treeParent (s : State) (m : Nat) : Nat := bitsOf (s.treeA m) 19 8
def treeWindow (s : State) (m : Nat) : Nat := bitsOf (s.treeA m) 27 4 + 1
def treeLocals (s : State) (m : Nat) : Nat := bitsOf (s.treeA m) 31 5
def treeState (s : State) (m : Nat) : Nat := s.rd (R.COL_TREE_STAT_STATE m)
def maskWord (s : State) (m i : Nat) : Nat := s.rd (R.RTE_MC_TBL_ACT m i)
/-- Ports of PORT_MASK. -/
def maskPorts (s : State) (m : Nat) : List Nat := (List.range 256).filter (fun q => bitOf (s.maskWord m (q / 64)) (q % 64))
/-- The children: ports, and 256 + i for member i of STACK_MASK (R322, R371). -/
def children (s : State) (m : Nat) : List Nat :=
  s.maskPorts m ++ (if s.inStack then ((List.range 12).filter (fun i => bitOf (s.maskWord m 4) (16 + i))).map (256 + ·) else [])
/-- The child a packet from input `inp` comes from. -/
def childOf (s : State) (m inp : Nat) : Option Nat :=
  if (s.maskPorts m).contains inp then some inp
  else if s.inStack && decide (inp < 256) then
    let i := bitsOf (s.rd (R.STK_PORT_PEER_PEER (inp / 16) (inp % 16))) 0 4
    if (s.children m).contains (256 + i) then some (256 + i) else none
  else none

/-! Packets of the rook. -/

/-- The Collective layout (R59). -/
def collArea (tree opseq opmode ty kind status chunk nchunk contrib ctl : Nat) : List (Nat × Nat × Nat) :=
  [(32, 2, tree), (34, 2, opseq), (36, 1, opmode), (37, 1, ty), (38, 1, kind), (39, 1, status), (40, 4, chunk), (44, 4, nchunk),
   (48, 4, contrib), (52, 1, ctl)]

/-- The service of the tree's root, as a module that is not the root knows it from what has come down the tree (R62); before that, a free
value (log entry 36). -/
def rootOf (s : State) (m : Nat) : Nat :=
  if s.treeRoot m then faOfSvc s.moduleId 2 else ((s.tree m).rootFa).getD (faOfSvc (Config.rootModule (s.treeNum m)).toNat 2)

/-- Send an up packet toward the parent (R62), named by the comma MODULE that PARENT receives. PIN is 0 (R46). -/
def collUp (s : State) (m op : Nat) (area : List (Nat × Nat × Nat)) (pay : List Square) : State :=
  if s.treeRoot m then s
  else
    let dest := faOfSvc (s.commaModule (s.treeParent m)) 2
    s.build 1 (mkPkt { dest := dest, src := faOfSvc s.moduleId 2, opcode := op, pin := false } (mkArea area) pay) none none none none false

/-- Send a down packet to the children, but for child `skip` (R62, R345). -/
def collDown (s : State) (m op : Nat) (area : List (Nat × Nat × Nat)) (pay : List Square) (skip : Option Nat) : State :=
  let fa := s.rootOf m
  s.build 1 (mkPkt { dest := fa, src := fa, opcode := op, pin := false } (mkArea area) pay) none none none none false skip

/-- A control packet of the tree, up and down, but for where it came from: `none` here, a child's port, or `some 256` the
parent (whose packet the switch core has replicated to the children already). -/
def sendBoth (s : State) (m opseq status chunk nchunk contrib ctl : Nat) (src : Option Nat) : State :=
  if src = some 256 then s
  else
    let area := collArea (s.treeNum m) opseq 0 0 0 status chunk nchunk contrib ctl
    (s.collUp m 0x62 area []).collDown m 0x63 area [] src

/-! Registers that follow the operation. -/
def showOp (s : State) (m : Nat) : State :=
  let t := s.tree m
  let st := match t.op, t.lastOp with | some _, _ => 1 | none, some (_, false) => 2 | _, _ => 0
  let s := s.wr (R.COL_TREE_OP_OP_STATE m) st
  s.wr (R.COL_TREE_OP_OPSEQ m) (match t.op with | some o => o.n | none => t.nextOp)

def flagCount (s : State) (fl : Nat) : State :=
  let s := if bitOf fl 0 then s.bump R.COL_FLAG_NAN else s
  let s := if bitOf fl 1 then s.bump R.COL_FLAG_INF else s
  if bitOf fl 2 then s.bump R.COL_FLAG_SAT else s

/-! Local entries of an operation. -/

/-- Incomplete COLL entries of a tree that have OPSEQ n, with their registration. -/
def collEnts (s : State) (m n : Nat) : List (Nat × WorkEnt × Reg) :=
  s.work.filterMap (fun e => match e.2 with
    | some x => if wop x == 7 && waux x == s.treeNum m && x.opseq == some n && x.fin.isNone && x.qid != adminQ then
        ((s.regsOf (s.treeNum m)).find? (fun r => r.fn == x.fn)).map (fun r => (e.1, x, r)) else none
    | none => none)

/-- Fields of a COLL entry's ARGS (R330). -/
def cOpmode (x : WorkEnt) : Nat := fld x.ent 32 1 &&& 0xF8
def cType (x : WorkEnt) : Nat := fld x.ent 33 1
def cKind (x : WorkEnt) : Nat := fld x.ent 34 1
def cSource (x : WorkEnt) : Bool := bitOf (fld x.ent 35 1) 0
def cResOff (x : WorkEnt) : Nat := fld x.ent 40 8

/-- Bytes of result that an entry's contributor receives (R332). -/
def resultLen (s : State) (m : Nat) (x : WorkEnt) : Nat :=
  resultBytes (cKind x) (wlen x) (cSource x) (s.treeRoot m)

/-! Abort (R344, R345). -/

/-- Post COLL_ABORT to the event queue of each registration. -/
def abortEvents (s : State) (m n reason flags det q : Nat) : State :=
  (s.regsOf (s.treeNum m)).foldl (fun s r =>
    s.event r.fn r.eq 5 0 (s.treeNum m + n * 2 ^ 16 + reason * 2 ^ 32 + flags * 2 ^ 40 + det * 2 ^ 64 + q * 2 ^ 96)) s

/-- Abort operation n, open or not (R345). `send`: step 1 is done, towards everyone but `src`. -/
def abortOp (s : State) (m n reason q det : Nat) (send : Bool) (unseated : Bool) (src : Option Nat) : State :=
  let s := if send then s.sendBoth m n 8 q det reason 3 src else s
  let ents := s.collEnts m n
  let t := s.tree m
  let s := s.setTree m { t with op := none, lastOp := some (n, false), nextOp := (n + 1) % 65536
                                aborts := SMap.put t.aborts n reason }
  let s := ents.foldl (fun s e => s.finish e.1 16 reason) s
  let s := s.wr (R.COL_TREE_OP_LAST_REASON m) reason
  let s := (s.showOp m).bump R.COL_OPS_ABORTED
  s.abortEvents m n reason (2 * b2n unseated) det q

/-- Abort the open operation for a reason found here. -/
def abortHere (s : State) (m reason q : Nat) : State :=
  match (s.tree m).op with
  | some o => s.abortOp m o.n reason q s.moduleId true false none
  | none => s

/-! Resources (R320) and unseating (R337). -/

/-- Units of 4 KiB that the entry needs in the collective partition. -/
def treeUnits (s : State) (m : Nat) : Nat :=
  let loc := decide (1 ≤ s.treeLocals m)
  let anchor := ceilDiv (bitsOf (s.rd (R.COL_TREE_B_ACT m)) 32 16 * 4032) 4096
  (if loc then s.treeWindow m else 0) + (if loc || s.treeRoot m then anchor else 0)

def rookFree (s : State) (r : Nat) : Nat := s.rd (R.COL_ROOK_STAT_SLOTS_FREE r)
def rookActive (s : State) (r : Nat) : Bool := s.rd (R.COL_ROOK_STAT_STATE r) == 1 && !s.rdB (R.COL_ROOK_STAT_SPARE r)

/-- SLOTS_FREE of all active rooks, and the trees seated. -/
def showCol (s : State) : State :=
  let s := s.wr R.COL_STAT_SLOTS_FREE (((List.range 36).filter s.rookActive).map s.rookFree).sum
  s.wr R.COL_STAT_SEATED ((s.trees.filter (fun (e : Nat × TreeSt) => s.treeState e.1 == 3)).length)

/-- The active rook with the most free slots, lowest number first (R320). -/
def pickRook (s : State) : Option Nat :=
  ((List.range 36).filter s.rookActive).foldl (fun best r => match best with
    | none => some r
    | some b => if s.rookFree b < s.rookFree r then some r else some b) none

/-- Free 4 KiB units of the collective partition (R320). A partition with more than PART_FREE can say is counted by its trees. -/
def partFree (s : State) : Nat :=
  let n := (s.partition 6).2 / 4096
  if n < 2 ^ 20 then s.rd R.COL_STAT_PART_FREE
  else n - ((s.trees.filter (fun (e : Nat × TreeSt) => e.2.reserved)).map (fun (e : Nat × TreeSt) => s.treeUnits e.1)).sum

/-- Release what the entry holds. -/
def releaseTree (s : State) (m : Nat) : State :=
  let t := s.tree m
  if !t.reserved then s
  else
    let r := s.rd (R.COL_TREE_STAT_ROOK m)
    let s := s.wr (R.COL_ROOK_STAT_SLOTS_FREE r) (min 64 (s.rookFree r + s.treeWindow m))
    let s := s.wr (R.COL_ROOK_STAT_TREES r) (s.rd (R.COL_ROOK_STAT_TREES r) - 1)
    let s := s.wr R.COL_STAT_PART_FREE (s.rd R.COL_STAT_PART_FREE + s.treeUnits m)
    (s.setTree m { t with reserved := false }).showCol

/-- Reserve the entry's resources: 0, or the SEAT_RESULT of the failure. -/
def reserveTree (s : State) (m : Nat) : State × Nat :=
  match s.pickRook with
  | none => (s, 1)
  | some r =>
    let w := s.treeWindow m
    if s.rookFree r < w then (s, 1)
    else if s.partFree < s.treeUnits m then (s, 2)
    else
      let s := s.wr (R.COL_ROOK_STAT_SLOTS_FREE r) (s.rookFree r - w)
      let s := s.bump (R.COL_ROOK_STAT_TREES r)
      let s := s.wr R.COL_STAT_PART_FREE (s.rd R.COL_STAT_PART_FREE - s.treeUnits m)
      let s := s.wr (R.COL_TREE_STAT_ROOK m) r
      ((s.setTree m { s.tree m with reserved := true }).showCol, 0)

/-- The entry returns to INSTALLED. -/
def toInstalled (s : State) (m : Nat) : State :=
  let s := s.releaseTree m
  let s := s.wr (R.COL_TREE_STAT_STATE m) 1
  ((s.setTree m { s.tree m with reserves := [], reported := false, op := none, rootFa := none }).showOp m).showCol

/-- Entries of the tree that have an OPSEQ and wait. -/
def collWaiting (s : State) (m : Nat) : List Nat :=
  s.work.filterMap (fun e => match e.2 with
    | some x => if wop x == 7 && waux x == s.treeNum m && x.opseq.isSome && x.fin.isNone && x.qid != adminQ then some e.1 else none
    | none => none)

/-- Unseat tree-wide (R337). -/
def unseat (s : State) (m reason det : Nat) (src : Option Nat) : State :=
  if s.treeState m < 2 then s
  else
    let s := s.sendBoth m 0 0 0 det reason 4 src
    let s := match (s.tree m).op with
      | some o => s.abortOp m o.n reason (o.seen.foldl max 0) det false true none
      | none => s
    let s := (s.collWaiting m).foldl (fun s w => s.finish w 16 10) s
    (s.bump R.COL_UNSEAT).toInstalled m

/-- End a SEATING that failed with a SEAT_RESULT. -/
def seatFailed (s : State) (m result : Nat) : State :=
  ((s.wr (R.COL_TREE_STAT_SEAT_RESULT m) result).bump R.COL_SEAT_FAIL).toInstalled m

/-- Enter SEATED with TOTAL (R327). -/
def enterSeated (s : State) (m total : Nat) : State :=
  let s := s.wr (R.COL_TREE_STAT_STATE m) 3
  let s := s.wr (R.COL_TREE_STAT_TOTAL m) (min (2 ^ 21 - 1) total)
  let s := (s.wr (R.COL_TREE_STAT_SEAT_RESULT m) 0).bump R.COL_SEAT_OK
  let s := s.wr (R.COL_TREE_OP_Q_DOWN m) 0
  let t := s.tree m
  let s := s.setTree m { t with reserves := [], reported := false, op := none, nextOp := 0, lastOp := none, aborts := [] }
  let s := s.withRegs (SMap.set [] s.regs (s.treeNum m) ((s.regsOf (s.treeNum m)).map (fun (r : Reg) => { r with next := 0 })))
  (s.showOp m).showCol

/-- Steps 1 to 3 of R327, when every child has reported. -/
def trySeat (s : State) (m : Nat) : State :=
  let t := s.tree m
  let kids := s.children m
  if s.treeState m ≠ 2 ∨ t.reported = true ∨ !(kids.all (fun k => t.reserves.any (fun r => r.1 == k))) then s
  else
    let s := s.setTree m { t with reported := true }
    let sum := (t.reserves.filter (fun r => kids.contains r.1)).foldl (fun a r => a + r.2) 0
    let childBad := t.reserves.any (fun r => kids.contains r.1 && r.2 == 0)
    let (s, res) := if childBad then (s, 4) else s.reserveTree m
    let total := s.treeLocals m + sum
    if s.treeRoot m then
      if res = 0 then
        (s.collDown m 0x63 (collArea (s.treeNum m) 0 0 0 0 0 0 0 total 1) [] none).enterSeated m total
      else (s.collDown m 0x63 (collArea (s.treeNum m) 0 0 0 0 0 0 0 0 5) [] none).seatFailed m res
    else
      let s := if res = 0 then s else s.wr (R.COL_TREE_STAT_SEAT_RESULT m) res
      s.collUp m 0x62 (collArea (s.treeNum m) 0 0 0 0 0 0 0 (if res = 0 then total else 0) 1) []

/-! Slots and contributions (R331, R332). -/

/-- q may be used: its slot's last down packet has arrived and, with local contributors, its down buffer is freed. -/
def mayUse (s : State) (m : Nat) (o : CollOp) (q : Nat) : Bool :=
  let w := s.treeWindow m
  decide (q < w) || (o.seen.contains (q - w) && (s.treeLocals m == 0 || (SMap.get ([], 0) o.down (q - w)).1.isEmpty))

def slotOf (o : CollOp) (q : Nat) : Option Slot := o.slots.find? (fun x => x.q == q)
def setOp (s : State) (m : Nat) (o : CollOp) : State := s.setTree m { s.tree m with op := some o }

/-- Open an operation (R331): no down packet of it has arrived. -/
def openOp (s : State) (m : Nat) (o : CollOp) : State := ((s.setOp m o).wr (R.COL_TREE_OP_Q_DOWN m) 0).showOp m

/-- The slots of an operation agree with its payload lengths (R331). -/
def slotsFit (o : CollOp) : Bool :=
  o.slots.all (fun x => match o.upSquares x.q with
    | some n => decide (o.kind < 2) || x.data.isEmpty || x.data.length == 64 * n
    | none => true)

/-- Put a contribution of q into its slot. -/
def contribute (s : State) (m : Nat) (o : CollOp) (q : Nat) (kid loc : List Nat) (data : List Nat) (contrib flags : Nat) : State :=
  let old := (slotOf o q).getD { q := q, since := s.winTime, sinceNow := s.now, base := s.time.epoch }
  let fresh := old.kids.isEmpty && old.locals.isEmpty
  let (d, fl) := if fresh then (data, 0) else collCombine (o.pass q).1 o.opmode o.ty old.data data
  let sl := { old with kids := old.kids ++ kid, locals := old.locals ++ loc, data := d, contrib := old.contrib + contrib
                       flags := old.flags ||| flags ||| fl }
  s.setOp m { o with slots := o.slots.filter (fun x => x.q != q) ++ [sl] }

/-- A slot holds every contribution (R332). -/
def slotWhole (s : State) (m : Nat) (x : Slot) : Bool :=
  (s.children m).all (fun k => x.kids.contains k) && x.locals.length == s.treeLocals m

def squaresOfBytes (bs : List Nat) : List Square := toSquares 64 bs

/-- The area of a packet of sequence number q. -/
def chunkArea (s : State) (m : Nat) (o : CollOp) (q flags contrib ctl : Nat) : List (Nat × Nat × Nat) :=
  let (p, c) := o.pass q
  if ctl = 0 then collArea (s.treeNum m) o.n (o.opmode + p) o.ty o.kind flags c (o.count p) contrib 0
  else collArea (s.treeNum m) o.n (o.opmode + p) o.ty o.kind flags q (o.count p) contrib ctl

/-- The SOURCE entry of a broadcast at this module. -/
def sourceEnt (s : State) (m : Nat) (o : CollOp) : Option (Nat × WorkEnt × Reg) := (s.collEnts m o.n).find? (fun e => cSource e.2.1)

/-- Read the operand of entry w for sequence number q; the access of an entry's operand (R334). Answers whether it was
issued. It goes through the context named at registration (R234), and a rook has no micro cache (R242); while fabric time is not valid,
no operand is read (R142). -/
def readOperand (s : State) (m : Nat) (o : CollOp) (w : Nat) (x : WorkEnt) (q : Nat) : State × Bool :=
  match s.wq x.fn x.qid with
  | none => (s, false)
  | some k =>
    if k.state ≠ 1 ∨ s.timeHeld = true then (s, false)
    else
      let sz := if o.kind = 1 then 1 else elemSize o.ty
      let (e0, n) := if o.kind = 1 then (4096 * q, min 4096 (wlen x - 4096 * q)) else o.elems q
      let xc := match (s.regsOf (s.treeNum m)).find? (fun g => g.fn == x.fn) with | some g => g.xctx | none => k.xctx
      let r : XReq := { ownReq x k (e0 * sz) false with xctx := xc, pawn := none }
      match s.xlateRange r (n * sz) with
      | (s, .error none) => (s, false)
      | (s, .error (some f)) =>
        let s := s.localFault w { r with addr := f.addr } f
        (match s.workEnt w with
        | some y => if y.fin.isSome then (s.abortHere m 4 q, false) else (s, false)
        | none => (s.abortHere m 4 q, false))
      | (s, .ok segs) => (s.issueRead r (n * sz) (.coll w q) segs, true)

/-- A complete chunk at the root (R332). -/
def rootChunk (s : State) (m : Nat) (o : CollOp) (x : Slot) : State :=
  let total := s.rd (R.COL_TREE_STAT_TOTAL m)
  let mark := fun (s : State) => match (s.tree m).op with
    | some o => s.setOp m { o with slots := o.slots.map (fun (y : Slot) => if y.q == x.q then { y with sent := true } else y) }
    | none => s
  if min (2 ^ 21 - 1) x.contrib ≠ total then s.abortHere m 3 x.q
  else if o.kind = 0 then (mark s).collDown m 0x63 (s.chunkArea m o x.q x.flags total 2) [] none
  else if o.kind = 1 then
    match s.sourceEnt m o with
    | none => if x.q = 0 then s.abortHere m 3 0 else s
    | some (w, e, _) => (match s.readOperand m o w e x.q with
      | (s, true) => mark s
      | (s, false) => s)
  else
    let (p, c) := o.pass x.q
    let (data, fl) := if p = 2 then roundChunk o.ty (c * anchElems o.ty) o.anchors x.data else (x.data, 0)
    let data := match o.len with
      | some _ => if p = 1 then data else data.take ((o.elems x.q).2 * elemSize o.ty)
      | none => data
    let fl := x.flags ||| fl
    let s := mark s
    -- the root keeps the combined records of an anchor chunk (R338)
    let s := match (s.tree m).op with
      | some o => if p = 1 then s.setOp m { o with anchors := SMap.put o.anchors c x.data } else s
      | none => s
    if o.kind = 2 ∧ p ≠ 1 then
      let s := match (s.tree m).op with
        | some o => if s.treeLocals m = 0 then s else s.setOp m { o with down := SMap.put o.down x.q (data, fl) }
        | none => s
      s.collDown m 0x63 (s.chunkArea m o x.q fl total 6) [] none
    else s.collDown m 0x61 (s.chunkArea m o x.q fl total 0) (squaresOfBytes data) none

/-- Send up or complete the slots that are whole (R332). -/
def sendSlots (s : State) (m : Nat) : State :=
  match (s.tree m).op with
  | none => s
  | some o => o.slots.foldl (fun s x =>
      match (s.tree m).op with
      | none => s
      | some o =>
        if x.sent || !s.slotWhole m x || !s.mayUse m o x.q then s
        else if s.treeRoot m then s.rootChunk m o x
        else
          let s := s.setOp m { o with slots := o.slots.map (fun y => if y.q == x.q then { y with sent := true } else y) }
          if o.kind ≤ 1 then s.collUp m 0x62 (s.chunkArea m o x.q x.flags x.contrib 2) []
          else (s.bump R.COL_CHUNKS_UP).collUp m 0x60 (s.chunkArea m o x.q x.flags x.contrib 0) (squaresOfBytes x.data)) s

/-- Translate every page of an entry's result range before its first contribution (R334): true when all are usable. -/
def resultRange : Nat → State → Nat → Nat → Reg → State × Bool
  | 0, s, _, _, _ => (s, false)
  | fuel + 1, s, m, w, g =>
    match s.workEnt w with
    | none => (s, false)
    | some x =>
      let n := s.resultLen m x
      if x.asked || n ≤ x.granted then (s.setWork w (some { x with asked := true }), true)
      else
        let a := g.addr + cResOff x + x.granted
        let r : XReq := { fn := x.fn, xctx := g.xctx, addr := a, wr := true, pawn := none, qid := x.qid, own := x.num + 1 }
        match s.xlate r with
        | (s, .miss) => (s, false)
        | (s, .fault f) =>
          let s := s.localFault w r f
          (match s.workEnt w with
          | some y => if y.fin.isSome then (s.abortHere m 4 0, false) else (s, false)
          | none => (s.abortHere m 4 0, false))
        | (s, .hit _) => resultRange fuel (s.setWork w (some { x with granted := x.granted + (4096 - a % 4096) })) m w g

/-- The anchor chunks that cover sequence number q have arrived (R339). -/
def anchorsHere (o : CollOp) (q : Nat) : Bool :=
  match o.pass q with
  | (2, _) =>
    let (e0, n) := o.elems q
    (List.range o.na).all (fun c => (decide (e0 + n ≤ c * anchorSpan)) || decide ((c + 1) * anchorSpan ≤ e0) || o.seen.contains c)
  | _ => true

/-- One local entry's next contributions (R332, R334): `issued` is the next sequence number. -/
def feed : Nat → State → Nat → Nat → State
  | 0, s, _, _ => s
  | fuel + 1, s, m, w =>
    match s.workEnt w, (s.tree m).op with
    | some x, some o =>
      (match (s.regsOf (s.treeNum m)).find? (fun r => r.fn == x.fn), s.wq x.fn x.qid with
      | some g, some k =>
        let q := x.issued
        if x.fin.isSome || k.state != 1 || x.opseq != some o.n || decide (o.total ≤ q) || !s.mayUse m o q || !anchorsHere o q then s
        else
          match resultRange (s.resultLen m x / 4096 + 3) s m w g with
          | (s, false) => s
          | (s, true) =>
            if o.kind ≤ 1 then
              let s := s.modWork w (fun x => { x with issued := q + 1 })
              feed fuel (s.contribute m o q [] [g.idx] [] 1 0) m w
            else
              match s.readOperand m o w x q with
              | (s, true) => feed fuel (s.modWork w (fun x => { x with issued := q + 1 })) m w
              | (s, false) => s
      | _, _ => s)
    | _, _ => s

/-- Write one down chunk to one contributor (R334, R335): false while it waits for a walk. A host port outside HOST_MASK gets no result
(R171). -/
def writeResult (s : State) (m : Nat) (o : CollOp) (q : Nat) (data : List Nat) (w : Nat) (x : WorkEnt) (g : Reg) : State × Bool :=
  if x.chunksDn.contains q then (s, true)
  else
    let done := fun (s : State) => s.modWork w (fun x => { x with chunksDn := x.chunksDn ++ [q] })
    let n := s.resultLen m x
    let off := (if o.kind = 1 then 4096 * q else (o.elems q).1 * elemSize o.ty)
    let l := min data.length (n - off)
    if (o.pass q).1 = 1 ∨ l = 0 ∨ bitOf (s.maskWord m 4) (x.fn / 128) = false then (done s, true)
    else
      let r : XReq := { fn := x.fn, xctx := g.xctx, addr := g.addr + cResOff x + off, wr := true
                        pawn := none, qid := x.qid, own := x.num + 1 }
      match s.usableParts r l with
      | (s, none) => (s, false)
      | (s, some (segs, bad)) =>
        let s := (done (s.writeParts r (squaresOfBytes data) segs)).modWork w (fun x => { x with placed := x.placed + partBytes segs })
        match bad with
        | none => (s, true)
        | some f => ((s.bump R.COL_RESULT_FAULT).modWork w (fun x => { x with err := some (x.err.getD (9, xDetail f)) }), true)

/-- Issue the host writes of the down buffers; one is freed when all of its writes are issued (R332). -/
def drainDown (s : State) (m : Nat) : State :=
  match (s.tree m).op with
  | none => s
  | some o => o.down.foldl (fun s d =>
      let (s, ok) := (s.collEnts m o.n).foldl (fun (acc : State × Bool) e =>
        let (s, b) := acc.1.writeResult m o d.1 d.2.1 e.1 e.2.1 e.2.2
        (s, acc.2 && b)) (s, true)
      if ok then (match (s.tree m).op with
        | some o => s.setOp m { o with down := SMap.erase o.down d.1 }
        | none => s) else s) s

/-- A local entry has all that its KIND asks for (R332). -/
def entDone (s : State) (m : Nat) (o : CollOp) (x : WorkEnt) : Bool :=
  let all := decide (0 < o.nmain) && (List.range o.total).all (fun q => o.seen.contains q)
  if o.kind = 1 && cSource x then x.built
  else all && (s.resultLen m x == 0 || (List.range o.total).all (fun q => x.chunksDn.contains q || (o.pass q).1 == 1))

/-- Complete the local entries that are done (R335). -/
def endEnts (s : State) (m : Nat) : State :=
  match (s.tree m).op with
  | none => s
  | some o => (s.collEnts m o.n).foldl (fun s e =>
      match s.workEnt e.1 with
      | some x => if s.entDone m o x then (match x.err with
          | some (st, d) => s.finish e.1 st d 0 x.placed
          | none => s.finish e.1 0 (x.flags % 8) 0 x.placed) else s
      | none => s) s

/-- The parameters of an operation agree, and the counts a newcomer tells are filled in; none on a mismatch (R331). -/
def agree (o : CollOp) (opmode ty kind nmain na : Nat) (len : Option Nat) : Option CollOp :=
  if o.opmode ≠ opmode ∨ o.ty ≠ ty ∨ o.kind ≠ kind then none
  else if (o.nmain ≠ 0 ∧ nmain ≠ 0 ∧ o.nmain ≠ nmain) ∨ (o.na ≠ 0 ∧ na ≠ 0 ∧ o.na ≠ na) then none
  else match o.len, len with
    | some a, some b => if a = b then some o else none
    | a, b => some { o with nmain := max o.nmain nmain, na := max o.na na, len := if a.isSome then a else b }

/-- An entry's operation: it opens, joins or waits (R331). -/
def joinOp (s : State) (m w : Nat) : State :=
  match s.workEnt w with
  | none => s
  | some x =>
    let t := s.tree m
    match x.opseq with
    | none => s
    | some n =>
      let (nm, na) := chunkCounts (cOpmode x) (cType x) (cKind x) (wlen x)
      match t.op with
      | none =>
        if n = t.nextOp then
          let o : CollOp := { n := n, opmode := cOpmode x, ty := cType x, kind := cKind x, nmain := nm, na := na, len := some (wlen x) }
          let s := s.openOp m o
          if cKind x = 1 ∧ cSource x = true ∧ s.treeRoot m = false then s.abortHere m 3 0 else s
        else s
      | some o =>
        if n ≠ o.n then s
        else
          match agree o (cOpmode x) (cType x) (cKind x) nm na (some (wlen x)) with
          | some o => if (cKind x = 1 ∧ cSource x = true ∧ s.treeRoot m = false) ∨ slotsFit o = false then s.abortHere m 3 0 else s.setOp m o
          | none => s.abortHere m 3 0

/-- The open operation ends when every down packet has arrived, every write is issued and every local entry is complete. -/
def tryEnd (s : State) (m : Nat) : State × Bool :=
  match (s.tree m).op with
  | none => (s, false)
  | some o =>
    let all := decide (0 < o.nmain) && (List.range o.total).all (fun q => o.seen.contains q)
    if all && o.down.isEmpty && (s.collEnts m o.n).isEmpty then
      let t := s.tree m
      let s := s.setTree m { t with op := none, lastOp := some (o.n, true), nextOp := (o.n + 1) % 65536 }
      ((s.showOp m).bump R.COL_OPS_DONE, true)
    else (s, false)

/-- One round of everything that may go on at a tree: joins, writes, contributions, packets, completions. -/
def pumpOnce (s : State) (m : Nat) : State :=
  if s.treeState m ≠ 3 then s
  else
    let s := (s.collWaiting m).foldl (fun s w =>
      match s.workEnt w with
      | some x => if !x.started && x.opseq == some (match (s.tree m).op with | some o => o.n | none => (s.tree m).nextOp) then
          (s.modWork w (fun x => { x with started := true })).joinOp m w else s
      | none => s) s
    let s := s.drainDown m
    let s := match (s.tree m).op with
      | some o => (s.collEnts m o.n).foldl (fun s (e : Nat × WorkEnt × Reg) => feed (o.total + 1) s m e.1) s
      | none => s
    (s.sendSlots m).endEnts m

/-- Rounds until the open operation no longer ends; each end may open the next (R331). -/
def pump : Nat → State → Nat → State
  | 0, s, _ => s
  | fuel + 1, s, m =>
    match (s.pumpOnce m).tryEnd m with
    | (s, true) => pump fuel s m
    | (s, false) => s

def pumpTree (s : State) (m : Nat) : State := pump ((s.collWaiting m).length + 2) s m

/-- How long a slot of a tree has been in use at a moment, local and fabric (R343, R459): in the windows' time base while that has not
changed, else in local time (log entry 125). -/
def slotAge (s : State) (x : Slot) (now fs : Nat) : Nat :=
  if x.base = s.time.epoch then (if s.timeValid then fs else now) - x.since else now - x.sinceNow

/-- The limit of a slot of the open operation (R343): START_TIMEOUT before the down packet of sequence 0, CHUNK_TIMEOUT after it. -/
def slotLimit (s : State) (o : CollOp) : Nat :=
  if o.seen.contains 0 then (if s.rd R.COL_CFG_CHUNK_TIMEOUT = 0 then 10 else s.rd R.COL_CFG_CHUNK_TIMEOUT) * 1000
  else max 1 (s.rd R.COL_CFG_START_TIMEOUT) * 1000000

/-- The oldest slot of the open operation whose limit has passed at a moment aborts it (R343); the limit itself is past (R457, R459). -/
def colTimeout (s : State) (m now fs : Nat) : State :=
  match (s.tree m).op with
  | some o => (match o.slots.find? (fun x => decide (s.slotLimit o ≤ s.slotAge x now fs)) with
    | some x => ((s.bump R.COL_TIMEOUTS).abortHere m (if o.seen.contains 0 then 2 else 1) x.q).pumpTree m
    | none => s)
  | none => s

/-- Ports that have left UP abort the open operations of their trees (R343). -/
def collEvents (s : State) : State :=
  let l := s.colDown
  if l.isEmpty then s
  else
    let s := s.withColDown []
    s.trees.foldl (fun s e =>
      let m := e.1
      let hit := l.any (fun p => (s.treeParent m == p && !s.treeRoot m) || (s.maskPorts m).contains p)
      if hit && s.treeState m == 3 then (s.abortHere m 9 0).pumpTree m else s) s

end State
end Sys2Proof.Machine
end

