-- ==== Sys2Proof/Machine/Collective.lean ====
section
/-!
DEFINITION. The commands of in-network collectives (chapter 13). Packets handed to the collective complex are taken in order;
one of a tree's next operation waits until the open one ends (R331).
-/
namespace Sys2Proof.Machine.State

/-! The complex's input. -/

/-- The control subcodes of R326. -/
def ctlKnown (p : Pkt) : Bool :=
  if p.opcode = 0x62 then decide (1 ≤ p.ctl ∧ p.ctl ≤ 4) else if p.opcode = 0x63 then decide (1 ≤ p.ctl ∧ p.ctl ≤ 6) else true

/-- The packet belongs to an operation (and not to seating). -/
def ofOp (p : Pkt) : Bool :=
  p.opcode == 0x60 || p.opcode == 0x61 || p.ctl == 2 || p.ctl == 3 || (p.opcode == 0x63 && p.ctl == 6)

/-- It belongs to the operation after the open one. -/
def isNext (s : State) (m : Nat) (p : Pkt) : Bool :=
  ofOp p && s.treeState m == 3 && (match (s.tree m).op with | some o => p.opseq == (o.n + 1) % 65536 | none => false)

/-- The sequence number that a down packet of the open operation carries (R326, R332). -/
def downSeq (o : CollOp) (p : Pkt) : Nat := if p.opcode = 0x63 then p.chunk else if p.opmode % 8 = 2 then o.na + p.chunk else p.chunk

/-- The module's own copies of down packets that it has not taken yet. -/
def downHere (s : State) : List Pkt :=
  s.colIn.map ColPkt.pkt ++ (List.range 16).flatMap (fun v => (s.queue 257 v).filterMap (fun e => (s.bufPkt e.pid).map BufPkt.pkt))

/-- An up packet of the open operation whose slot is freed by a down packet that has arrived and is still on its way here: the slot is free
from that arrival on (R332), so the packet waits for it. -/
def waitsDown (s : State) (m : Nat) (p : Pkt) : Bool :=
  match (s.tree m).op with
  | some o =>
    let q := (if p.opmode % 8 = 2 then o.na else 0) + p.chunk
    let w := s.treeWindow m
    (p.opcode == 0x60 || (p.opcode == 0x62 && p.ctl == 2)) && p.opseq == o.n && decide (w ≤ q) && !o.seen.contains (q - w) &&
      s.downHere.any (fun d => (d.opcode == 0x61 || (d.opcode == 0x63 && (d.ctl == 2 || d.ctl == 6))) && d.tree == p.tree &&
        d.opseq == o.n && downSeq o d == q - w)
  | none => false

/-- Do `f` on the bank of the tree tables that the packet carries (R389). -/
def onBank (s : State) (b : Nat) (f : State → State) : State :=
  if b = s.swc.treeBank then f s else (f (s.swapBanks [3])).swapBanks [3]

/-- The tree entry of the packet, in its bank (R389). -/
def colEntry (s : State) (x : ColPkt) : Option Nat :=
  if x.bank = s.swc.treeBank then s.treeEntry x.pkt.tree else (s.swapBanks [3]).treeEntry x.pkt.tree

/-- The first packet that may be taken, with its tree entry and the queue without it. Packets with a bad CRC (R51), a reserved subcode
(R326) or no tree entry are discarded on the way. -/
def colScan : List ColPkt → State → List ColPkt → State × Option (ColPkt × Nat × List ColPkt)
  | [], s, kept => ((s.withColIn kept), none)
  | x :: rest, s, kept =>
    if !crcOk x.pkt then colScan rest ((s.bump R.COL_CRC_ERR).e2eFail 680) kept
    else
      match s.colEntry x with
      | none => colScan rest (s.bump R.COL_DISC_STALE) kept
      | some m =>
        if !ctlKnown x.pkt then colScan rest (s.bump R.COL_DISC_STALE) kept
        else if s.isNext m x.pkt || s.waitsDown m x.pkt then colScan rest s (kept ++ [x])
        else ((s.withColIn (kept ++ x :: rest)), some (x, m, kept ++ rest))

/-- Take the next packet when `hit` names it, and do `f` with it, its input and its tree entry, on its bank. A limit of the tree's open
operation that lies at the packet's stamp or before it has passed first (R343, R459). -/
def withCol (s : State) (hit : Pkt → Bool) (f : State → Pkt → Nat → Nat → State) : State :=
  let s := s.collEvents
  match colScan s.colIn s [] with
  | (s, some (x, m, rest)) => if hit x.pkt then (s.withColIn rest).onBank x.bank (fun s => f (s.colTimeout m x.stamp x.fstamp) x.pkt x.inp m) else s
  | (s, none) => s

def stale (s : State) : State := s.bump R.COL_DISC_STALE

/-- The sequence number of a packet, with its pass (R332). -/
def seqOf (o : CollOp) (p : Pkt) : Nat := if p.opmode % 8 = 2 then o.na + p.chunk else p.chunk

/-- The operation an up packet or entry belongs to: open, opened by it (R331), or aborted for a mismatch. -/
def opFor (s : State) (m : Nat) (p : Pkt) (mayOpen : Bool) : State × Option CollOp :=
  let t := s.tree m
  let pass := p.opmode % 8
  let md := p.opmode / 8 * 8
  let anch := collAnch md && decide (2 ≤ p.ckind)
  let nm := if pass = 1 then 0 else p.nchunk
  let na := if pass = 1 then p.nchunk else 0
  if s.treeState m ≠ 3 then (s.stale, none)
  else
    match t.op with
    | none =>
      if !mayOpen || p.opseq != t.nextOp then (s.stale, none)
      else
        let o : CollOp := { n := p.opseq, opmode := md, ty := p.ctype, kind := p.ckind, nmain := nm, na := na }
        let s := s.openOp m o
        if anch != (pass == 1) || decide (p.nchunk ≤ p.chunk) then (s.abortHere m 3 p.chunk, none) else (s, some o)
    | some o =>
      if p.opseq ≠ o.n then (s.stale, none)
      else
        match agree o md p.ctype p.ckind nm na none with
        | some o' =>
          if anch != (pass == 1 || pass == 2) || (pass == 2 && o'.na == 0) || decide (p.nchunk ≤ p.chunk) then
            (s.abortHere m 3 (seqOf o p), none)
          else (s.setOp m o', some o')
        | none => (s.abortHere m 3 (seqOf o p), none)

/-- A contribution of a child (R331, R332). -/
def childIn (s : State) (p : Pkt) (inp m : Nat) (data : Bool) : State :=
  match s.childOf m inp with
  | none => s.stale
  | some k =>
    match s.opFor m p true with
    | (s, none) => s.pumpTree m
    | (s, some o) =>
      let q := seqOf o p
      let w := s.treeWindow m
      let sizeOk := !data || ((match o.upSquares q with | some n => p.pay.length == n | none => true) &&
        (match slotOf o q with | some x => x.data.isEmpty || x.data.length == 64 * p.pay.length | none => true))
      if (decide (2 ≤ o.kind)) != data || !sizeOk then (s.abortHere m 3 q).pumpTree m
      else if !(decide (q < w) || o.seen.contains (q - w)) || o.seen.contains q ||
          (match slotOf o q with | some x => x.kids.contains k | none => false) then s.stale
      else (s.contribute m o q [k] [] (if data then payBytes p else []) p.contrib (p.cstatus % 8)).pumpTree m

/-- A CHUNK of a RELEASE or CHUNK_DONE is the sequence number itself (R326): the packet as `opFor` reads it. -/
def asSeq (o : Option CollOp) (p : Pkt) : Pkt :=
  match o with
  | some o => if p.opmode % 8 = 2 then p.u 40 4 (p.chunk - o.na) else p
  | none => p

/-- A down packet arrives (R332): its slot is freed, its flags are kept, its data goes to the down buffer or the anchor store. -/
def downIn (s : State) (p : Pkt) (m : Nat) (data : Bool) : State :=
  match s.opFor m (if p.opcode = 0x63 then asSeq (s.tree m).op p else p) false with
  | (s, none) => s.pumpTree m
  | (s, some o) =>
    let q := if p.opcode = 0x63 then p.chunk else seqOf o p
    if o.seen.contains q then s.stale
    else
      let pass := (o.pass q).1
      let bytes := payBytes p
      let keep := data && decide (1 ≤ s.treeLocals m)
      let o := { o with
        slots := o.slots.filter (fun x => x.q != q), seen := o.seen ++ [q]
        down := if keep && pass != 1 then SMap.put o.down q (bytes, p.cstatus % 8) else o.down
        anchors := if data && pass == 1 && (decide (1 ≤ s.treeLocals m) || s.treeRoot m) then SMap.put o.anchors (o.pass q).2 bytes
          else o.anchors }
      let s := (s.setOp m o).wr (R.COL_TREE_OP_Q_DOWN m) (max q (s.rd (R.COL_TREE_OP_Q_DOWN m)))
      let s := s.setTree m { s.tree m with rootFa := some p.srcFa }
      let s := (s.collEnts m o.n).foldl (fun s e => s.modWork e.1 (fun x => { x with flags := x.flags ||| (p.cstatus % 8) })) s
      let s := if data then s.bump R.COL_CHUNKS_DOWN else s
      (s.flagCount (p.cstatus % 8)).pumpTree m

/-- Where a control packet came from: a child, the parent (256) or the module itself (none). -/
def ctlSrc (s : State) (m : Nat) (p : Pkt) (inp : Nat) : Option (Option Nat) :=
  if p.opcode = 0x63 then (if inp = 257 then none else some (some 256))
  else (s.childOf m inp).map (fun _ => some inp)

end Sys2Proof.Machine.State

namespace Sys2Proof.Machine
open State

/-- COLL (R330, R331): the entry takes its OPSEQ, and its operation goes on as far as it may. -/
def execColl (w : BitVec 32) (s : State) : Out :=
  let w := w.toNat
  let s := s.collEvents
  .next (match s.workEnt w with
    | none => s
    | some x =>
      if wop x ≠ 7 ∨ x.qid = adminQ ∨ x.fin.isSome = true ∨ s.fnTeardown x.fn = true then s
      else
        let before := (s.earlier w).any (fun e => wop e.2 == 7 && e.2.fn == x.fn && waux e.2 == waux x && e.2.qid != adminQ && e.2.opseq.isNone)
        match s.treeEntry (waux x) with
        | none => s.finish w 16 10
        | some m =>
          if s.treeState m ≠ 3 then s.finish w 16 10
          else if x.opseq.isSome then s.pumpTree m
          else if before then s
          else
            let s := s.stampWork w 0
            let l := s.regsOf (waux x)
            match l.find? (fun r => r.fn == x.fn) with
            | none => s.finish w 3 5
            | some r =>
              let s := s.withRegs (SMap.set [] s.regs (waux x) (l.map (fun (y : Reg) => if y.fn == x.fn then { y with next := (y.next + 1) % 65536 } else y)))
              let s := s.setWork w (some { x with opseq := some r.next })
              let t := s.tree m
              let reason := SMap.get 0 t.aborts r.next
              if reason ≠ 0 ∧ (t.nextOp + 65535 - r.next) % 65536 < 32768 then s.finish w 16 reason else s.pumpTree m)

/-- SEAT (R16, R324, R327): COL_TREE_CMD with ACTION SEAT for entry i. -/
def execSeat (mst : Master) (i : BitVec 12) (s : State) : Out :=
  .next (s.gated mst 0xD00010 (fun s =>
    let m := i.toNat
    let st := s.treeState m
    let a := s.treeA m
    let role := bitsOf a 17 2
    let ports := s.maskPorts m
    let twice := (List.range 4096).any (fun j => j != m && bitOf (s.treeA j) 16 && s.treeNum j == s.treeNum m)
    let ok := bitOf a 16 && !twice && bitOf (s.maskWord m 4) 4 &&
      (role != 0 || (ports.isEmpty && decide (1 ≤ s.treeLocals m))) && (role != 1 || !ports.isEmpty) &&
      !ports.contains (s.treeParent m) && (role == 2 || s.formed (s.treeParent m))
    let s := s.wr R.COL_CMD_STAT_RESULT (if st = 0 then 2 else if st ≠ 1 then 4 else if ok then 0 else 3)
    if st ≠ 1 || !ok then s
    else
      let s := s.wake 18
      let s := (s.wr (R.COL_TREE_STAT_STATE m) 2).wr (R.COL_TREE_STAT_SEAT_RESULT m) 0
      (s.setTree m { s.tree m with seatAt := s.now }).trySeat m))

/-- UNSEAT (R337): COL_TREE_CMD with ACTION UNSEAT. Its packets carry the reason TREE_STOP of a commanded stop (log entry 18). -/
def execUnseat (mst : Master) (i : BitVec 12) (s : State) : Out :=
  .next (s.gated mst 0xD00010 (fun s =>
    let m := i.toNat
    let s := s.wr R.COL_CMD_STAT_RESULT (if s.treeState m = 0 then 2 else 0)
    s.unseat m 5 s.moduleId none))

/-- CTL_RESERVE (R327). -/
def execCtlReserve (s : State) : Out :=
  .next (s.withCol (fun p => p.opcode == 0x62 && p.ctl == 1) (fun s p inp m =>
    match s.childOf m inp with
    | none => s.stale
    | some k =>
      if s.treeState m = 3 then s.unseat m 11 s.moduleId none
      else
        let t := s.tree m
        (s.setTree m { t with reserves := t.reserves.filter (fun r => r.1 != k) ++ [(k, p.contrib)] }).trySeat m))

/-- CTL_CONFIRM (R327): the switch core has replicated it to the children. -/
def execCtlConfirm (s : State) : Out :=
  .next (s.withCol (fun p => p.opcode == 0x63 && p.ctl == 1) (fun s p inp m =>
    if inp = 257 then s
    else if s.treeState m ≠ 2 ∨ (s.tree m).reserved = false then s.stale
    else (s.setTree m { s.tree m with rootFa := some p.srcFa }).enterSeated m p.contrib))

/-- CTL_SEAT_FAIL (R327). -/
def execCtlSeatFail (s : State) : Out :=
  .next (s.withCol (fun p => p.opcode == 0x63 && p.ctl == 5) (fun s _ inp m =>
    if inp = 257 then s
    else if s.treeState m ≠ 2 then s.stale
    else
      let r := s.rd (R.COL_TREE_STAT_SEAT_RESULT m)
      s.seatFailed m (if r = 0 then 5 else r)))

/-- CTL_ARRIVE (R332). -/
def execCtlArrive (s : State) : Out :=
  .next (s.withCol (fun p => p.opcode == 0x62 && p.ctl == 2) (fun s p inp m => s.childIn p inp m false))

/-- CTL_RELEASE (R332). -/
def execCtlRelease (s : State) : Out :=
  .next (s.withCol (fun p => p.opcode == 0x63 && p.ctl == 2) (fun s p _ m => s.downIn p m false))

/-- CTL_CHUNK_DONE (R332). -/
def execCtlChunkDone (s : State) : Out :=
  .next (s.withCol (fun p => p.opcode == 0x63 && p.ctl == 6) (fun s p _ m => s.downIn p m false))

/-- CTL_ABORT (R345), up or down. -/
def execCtlAbort (s : State) : Out :=
  .next (s.withCol (fun p => p.ctl == 3 && (p.opcode == 0x62 || p.opcode == 0x63)) (fun s p inp m =>
    match s.ctlSrc m p inp with
    | none => if p.opcode = 0x63 then s else s.stale
    | some src =>
      let t := s.tree m
      if s.treeState m ≠ 3 then s.stale
      else
        let n := p.opseq
        let cur := match t.op with | some o => o.n | none => t.nextOp
        if n = cur then (s.abortOp m n p.contrib p.chunk p.nchunk true false src).pumpTree m
        else if t.lastOp = some (n, true) then s.abortEvents m n p.contrib 1 p.nchunk p.chunk
        else s.stale))

/-- CTL_UNSEAT (R337), up or down. -/
def execCtlUnseat (s : State) : Out :=
  .next (s.withCol (fun p => p.ctl == 4 && (p.opcode == 0x62 || p.opcode == 0x63)) (fun s p inp m =>
    match s.ctlSrc m p inp with
    | none => s
    | some src => s.unseat m p.contrib p.nchunk src))

/-- COLL_UP_RX (R331, R332). -/
def execCollUpRx (s : State) : Out :=
  .next (s.withCol (fun p => p.opcode == 0x60) (fun s p inp m => s.childIn p inp m true))

/-- COLL_DOWN_RX (R332): the switch core has replicated it to the children. -/
def execCollDownRx (s : State) : Out :=
  .next (s.withCol (fun p => p.opcode == 0x61) (fun s p _ m => s.downIn p m true))

namespace State

/-- The bytes of an operand read become a contribution (R336 to R339), or the data of a broadcast chunk. -/
def operandBack (s : State) (w q : Nat) (bs : List Nat) : State :=
  match s.workEnt w with
  | none => s
  | some x =>
    match s.treeEntry (waux x) with
    | none => s
    | some m =>
      match (s.tree m).op, (s.regsOf (waux x)).find? (fun r => r.fn == x.fn) with
      | some o, some g =>
        if x.fin.isSome || x.opseq != some o.n then s
        else if o.kind = 1 then
          let s := s.collDown m 0x61 (s.chunkArea m o q 0 (s.rd (R.COL_TREE_STAT_TOTAL m)) 0) (squaresOfBytes bs) none
          let s := s.modWork w (fun x => { x with readB := x.readB + 1, built := x.readB + 1 == o.nmain })
          s.pumpTree m
        else
          let es := elemsOf (elemSize o.ty) bs.length bs
          let (data, fl) := match (o.pass q).1 with
            | 0 => (bs, ownFlags o.ty bs)
            | 1 => (leafAnchors o.ty es, 0)
            | _ => leafInts o.ty (o.elems q).1 o.anchors es
          let pad := data ++ List.replicate (64 * squaresFor data.length - data.length) 0
          (s.contribute m o q [] [g.idx] pad 1 fl).pumpTree m
      | _, _ => s

end State

/-- OPERAND_READ (R204, R334): the host answers a rook's read. An error completes the entry with HOST_ERROR and aborts the
operation with LOCAL_ERROR. -/
def execOperandRead (p : Fin 4) (id : BitVec 32) (ans : HostAns) (s : State) : Out :=
  let s := s.collEvents
  .next (match s.reads.find? (fun r => r.id == id.toNat && r.fn / 128 == p.val) with
    | none => s.unexpectedCpl p
    | some r =>
      match r.why with
      | .coll w q =>
        let s := (s.withReads (s.reads.filter (fun x => x.id != r.id))).aerRead r.fn ans
        (match ans with
        | .ok bs =>
          let len := (match s.workEnt w with
            | some x => (match (s.treeEntry (waux x)).bind (fun m => (s.tree m).op) with
              | some o => if o.kind = 1 then min 4096 (wlen x - 4096 * q) else (o.elems q).2 * elemSize o.ty
              | none => 0)
            | none => 0)
          let l := (bs.map BitVec.toNat).take len
          s.operandBack w q (l ++ List.replicate (len - l.length) 0)
        | _ =>
          match s.workEnt w with
          | none => s
          | some x =>
            let open_ := x.fin.isNone
            let s := s.finish w 10 0
            match s.treeEntry (waux x) with
            | some m => if open_ && (match (s.tree m).op with | some o => x.opseq == some o.n | none => false) then
                (s.abortHere m 4 q).pumpTree m else s
            | none => s)
      | _ => s)

/-- SEAT_TIMEOUT (R327). -/
def execSeatTimeout (m : Fin 4096) (s : State) : Out :=
  let s := s.collEvents
  let lim := max 1 (s.rd R.COL_CFG_SEAT_TIMEOUT) * 1000000
  .next (if s.treeState m = 2 ∧ (s.tree m).seatAt + lim ≤ s.now then
      ((s.wr (R.COL_TREE_STAT_SEAT_RESULT m) 3).bump R.COL_SEAT_FAIL).unseat m 11 s.moduleId none
    else s)

/-- START_TIMEOUT (R343): before the down packet of sequence 0. -/
def execStartTimeout (m : Fin 4096) (s : State) : Out :=
  let s := s.collEvents
  .next (match (s.tree m).op with
    | some o => if o.seen.contains 0 then s else s.colTimeout m s.now s.ns
    | none => s)

/-- CHUNK_TIMEOUT (R343): after it. -/
def execChunkTimeout (m : Fin 4096) (s : State) : Out :=
  let s := s.collEvents
  .next (match (s.tree m).op with
    | some o => if o.seen.contains 0 then s.colTimeout m s.now s.ns else s
    | none => s)

namespace State

/-- A strobe is about to change tree entry m or its mask entry (R328): a seated or seating tree is unseated. -/
def treeChanged (s : State) (m : Nat) : State := s.unseat m 7 s.moduleId none

/-- After a strobe the entry is INSTALLED or EMPTY as its VALID says, unless it has stayed seated or seating (R325). -/
def treeState_ (s : State) (m : Nat) : State :=
  if s.treeState m ≥ 2 then s
  else
    let v := bitOf (s.treeA m) 16
    let s := s.wr (R.COL_TREE_STAT_STATE m) (b2n v)
    if v then s else s.setTree m {}

/-- Registrations of tree numbers that have no active entry, or whose JOB_ID has changed, are dropped (R329). -/
def dropRegs (s : State) (jobBefore : Nat → Option Nat) : State :=
  (s.withRegs (s.regs.filter (fun e => match s.treeEntry e.1 with
      | some m => jobBefore e.1 == some (bitsOf (s.rd (R.COL_TREE_B_ACT m)) 0 32)
      | none => false)))

/-- JOB_ID of a tree number's active entry. -/
def treeJob (s : State) (tree : Nat) : Option Nat := (s.treeEntry tree).map (fun m => bitsOf (s.rd (R.COL_TREE_B_ACT m)) 0 32)

/-- REGISTERED follows the registrations. -/
def showRegs (s : State) (tree : Nat) : State :=
  match s.treeEntry tree with
  | some m => s.wr (R.COL_TREE_STAT_REGISTERED m) (s.regsOf tree).length
  | none => s

end State
end Sys2Proof.Machine
end

