-- ==== Sys2Proof/Machine/Lock.lean ====
section
/-!
DEFINITION. The lock unit (chapter 14): its operations in one order, requests by packet and by register, retries, force
release and purges.
-/
namespace Sys2Proof.Machine.State

/-! Words (R348). -/

/-- Bits [43:0] of a word: the holder's identity. -/
def holder (w : Nat) : Nat := w % 2 ^ 44

def lockWord (s : State) (w : Nat) : Nat := s.rd (R.LCK_WORD w)
def orphanBit (s : State) (w : Nat) : Bool := bitOf (s.rd (R.LCK_ORPHAN (w / 64))) (w % 64)
def setOrphan (s : State) (w : Nat) (b : Bool) : State :=
  s.wr (R.LCK_ORPHAN (w / 64)) (setBits (s.rd (R.LCK_ORPHAN (w / 64))) (w % 64) 1 (b2n b))
def setHolderJob (s : State) (w j : Nat) : State := s.withLck { s.lck with holderJob := SMap.set 0 s.lck.holderJob w j }

/-- The words that are not zero. -/
def usedWords (s : State) : List Nat :=
  let lo := 8 * 0xE20000
  (s.flds.filter (fun e => decide (lo ≤ e.1) && decide (e.1 < lo + 64 * 65536))).map (fun e => (e.1 - lo) / 64)

/-- Force-release the held words that `hit` names (R356). -/
def forceRelease (s : State) (hit : Nat → Nat → Bool) : State :=
  (s.usedWords.filter (fun w => holder (s.lockWord w) != 0 && hit w (s.lockWord w))).foldl (fun s w =>
    ((((s.wr (R.LCK_WORD w) 0).setOrphan w true).setHolderJob w 0).bump R.LCK_FORCED)) s

/-- OWNER_FA of a word. -/
def ownerFa (w : Nat) : Nat := w % 2 ^ 32

/-! Operations (R350). -/

/-- The access check of a group (R351). -/
def lockAccess (s : State) (g src job : Nat) : Bool :=
  s.rdB (R.LCK_GRP_CFG_EN g) && (List.range 16).any (fun e =>
    let v := s.rd (R.LCK_GRP_ACL g e)
    match s.rd (R.LCK_GRP_ACL_KIND g e) with
    | 1 => v == src
    | 2 => v % 2 ^ 18 == faModule src
    | 3 => v == job
    | _ => false)

/-- What the unit answers. -/
structure LockRes where
  status : Nat
  old : Nat
  orphan : Bool
  deriving DecidableEq, Repr

/-- READ, CAS and CLEAR_ORPHAN on word w by identity i (R350); `access`: the access check passed; `job`: JOB_ID to record. -/
def lockOp (s : State) (w lop cmp swap i job : Nat) (access : Bool) : State × LockRes :=
  let old := s.lockWord w
  let s := s.bump R.LCK_OPS
  let no := fun (s : State) (st : Nat) => (s, ({ status := st, old := old, orphan := s.orphanBit w } : LockRes))
  if s.rdB (R.LCK_GRP_CFG_MOVED (w / 256)) then no s 6
  else if lop > 2 then no s 5
  else if !access then no (s.bump R.LCK_DENIED) 4
  else if lop = 0 then no s 0
  else if lop = 1 then
    if old ≠ cmp then no s 1
    else if holder old ≠ 0 ∧ holder old ≠ i then no (s.bump R.LCK_NOT_OWNER) 2
    else if (holder swap ≠ 0 ∧ holder swap ≠ i) ∨ bitsOf swap 44 4 ≠ 0 then no s 3
    else
      let s := s.wr (R.LCK_WORD w) swap
      no (if holder old = 0 ∧ holder swap = i then s.setHolderJob w job else s) 0
  else if holder old ≠ i then no (s.bump R.LCK_NOT_OWNER) 2
  else no (s.setOrphan w false) 0

/-- Identity of a packet requester (R349). -/
def lockIdent (src : Nat) : Nat := src + 0xFFF * 2 ^ 32

/-- Execute the lock request of a packet (R350, R351, R356). -/
def lockPacket (s : State) (p : Pkt) : State × LockRes :=
  let w := p.lockGroup * 256 + p.lockWord
  let job := p.psn
  let i := lockIdent p.srcFa
  if p.lop = 3 ∨ p.lop = 4 then
    let s := s.bump R.LCK_OPS
    let s := s.forceRelease (fun v x => holder x == i && (p.lop == 3 || SMap.get 0 s.lck.holderJob v == job))
    (s, { status := 0, old := 0, orphan := false })
  else s.lockOp w p.lop p.lockCompare p.lockSwap i job (s.lockAccess (w / 256) p.srcFa job)

/-- Send a LOCK_RESULT (R353). DESIGN CHOICE (log entry 122): SWAP is zero in a result, of which R59 gives no value. -/
def lockResult (s : State) (p : Pkt) (r : LockRes) : State :=
  let area := mkArea [(32, 1, p.lockGroup), (33, 1, p.lockWord), (34, 1, p.lop), (35, 1, r.status), (36, 1, b2n r.orphan),
    (40, 8, r.old), (56, 4, p.reqId)]
  let q := mkPkt { dest := p.srcFa, src := faOfSvc s.moduleId 1, opcode := 0x47, pin := true, psn := p.psn } area []
  s.build 0 q none none none none false

/-- A LOCK_FWD to the group's home with the requester's fields unchanged (R355). -/
def lockFwd (s : State) (p : Pkt) (home : Nat) : State :=
  let area := mkArea [(32, 1, p.lockGroup), (33, 1, p.lockWord), (34, 1, p.lop), (40, 8, p.lockCompare), (48, 8, p.lockSwap), (56, 4, p.reqId)]
  let q := mkPkt { dest := faOfSvc home 1, src := p.srcFa, opcode := 0x21, pin := true, psn := p.psn } area []
  (s.bump R.LCK_FWD).build 0 q none none none none false

/-- The arbiter's processor does not serve the unit. -/
def lockStopped (s : State) : Bool := s.rd R.FLT_ARB_STAT_STATE != 0 || s.flt.restarting

/-- A lock request at service 1 (R51, R142, R354, R355). -/
def lockArrive (s : State) (p : Pkt) : State :=
  let fwd := p.opcode == 0x21
  let moved := s.rdB (R.LCK_GRP_CFG_MOVED p.lockGroup) && p.lop != 3 && p.lop != 4
  let age := ageOf s.ns p.origin
  if !crcOk p then s.engCrcFail
  else if s.timeHeld then s.bump R.SWC_AGE_UNCHECKED
  else if s.lockStopped then s.bump R.LCK_UNSERVED
  else if s.reqAge < age ∨ ((fwd || moved) && decide (s.reqAge / 2 < age)) = true then s.bump R.LCK_AGED
  else if moved && !fwd then s.lockFwd p (s.rd (R.LCK_GRP_CFG_HOME p.lockGroup))
  else
    let (s, r) := s.lockPacket p
    s.lockResult p r

/-- The head lock request of a class, when `hit` names it. -/
def withLock (s : State) (fwd : Bool) (hit : Pkt → Bool) : State :=
  let op := if fwd then 0x21 else 0x09
  let q := if fwd then s.engFwd else s.engReq
  match takePkt (fun p => p.opcode == op && faSvc p.destFa) q with
  | none => s
  | some (p, rest) =>
    if hit p then (if fwd then (s.withEngFwd rest) else (s.withEngReq rest)).lockArrive p else s

/-- An LCK_OP write (R349, R359): the operands stand in LCK_OP_COMPARE and LCK_OP_SWAP. -/
def lockReg (s : State) (m : Master) (w lop : Nat) : State :=
  s.gated m 0xE00008 (fun s =>
    if s.lockStopped then s
    else
      let i := faOfSvc s.moduleId 0 + m.id * 2 ^ 32
      let (s, r) := s.lockOp w lop (s.rd R.LCK_OP_COMPARE_COMPARE) (s.rd R.LCK_OP_SWAP_SWAP) i 0 true
      ((s.wr R.LCK_OP_RESULT_STATUS r.status).wrB R.LCK_OP_RESULT_ORPHAN r.orphan).wr R.LCK_OP_OLD_OLD r.old)

/-- One lock operation by its path. -/
def lockRow (s : State) (src : LockSrc) (w lop : Nat) : State :=
  match src with
  | .packet fwd => s.withLock fwd (fun p => p.lop == lop)
  | .reg m => s.lockReg m w lop

end Sys2Proof.Machine.State

namespace Sys2Proof.Machine
open State

/-- LOCK_REQ_RX (R350, R354, R355). -/
def execLockReqRx (s : State) : Out := .next (s.withLock false (fun _ => true))

/-- LOCK_FWD_RX (R355). -/
def execLockFwdRx (s : State) : Out := .next (s.withLock true (fun _ => true))

/-- READ (R350). -/
def execRead (src : LockSrc) (w : BitVec 16) (s : State) : Out := .next (s.lockRow src w.toNat 0)

/-- CAS (R350). -/
def execCas (src : LockSrc) (w : BitVec 16) (s : State) : Out := .next (s.lockRow src w.toNat 1)

/-- CLEAR_ORPHAN (R350, R358). -/
def execClearOrphan (src : LockSrc) (w : BitVec 16) (s : State) : Out := .next (s.lockRow src w.toNat 2)

/-- PURGE_FN (R350, R356): by packet only. -/
def execPurgeFn (fwd : Bool) (s : State) : Out := .next (s.withLock fwd (fun p => p.lop == 3))

/-- PURGE_JOB (R350, R356): by packet only. -/
def execPurgeJob (fwd : Bool) (s : State) : Out := .next (s.withLock fwd (fun p => p.lop == 4))

/-- LCK_PURGE with KIND 0 (R356). -/
def execLckPurgeModule (m : Master) (target : BitVec 18) (s : State) : Out :=
  .next (s.gated m 0xE00030 (fun s => s.forceRelease (fun _ x => faModule (ownerFa x) == target.toNat)))

/-- LCK_PURGE with KIND 1 (R356): the FA stands in LCK_PURGE_FA. -/
def execLckPurgeFa (m : Master) (s : State) : Out :=
  .next (s.gated m 0xE00030 (fun s => s.forceRelease (fun _ x => ownerFa x == s.rd R.LCK_PURGE_FA_FA)))

/-- LCK_PURGE with KIND 2 (R356). -/
def execLckPurgeWord (m : Master) (w : BitVec 18) (s : State) : Out :=
  .next (s.gated m 0xE00030 (fun s => s.forceRelease (fun v _ => v == w.toNat)))

namespace State

/-- A module joins a function's peer list (R357). -/
def addPeer (s : State) (f target : Nat) : State :=
  let st := s.fnSt f
  if st.peers.contains target then s
  else if st.peers.length ≥ 256 then
    ((s.setFn f { st with peerOvf := true }).bump R.LCK_PEER_OVF).fault 714 0x0B06
  else s.setFn f { st with peers := st.peers ++ [target] }

/-- Send the LOCK_REQ of an entry, first or again (R353, R354). -/
def sendLock (s : State) (w : Nat) (x : WorkEnt) (k : Wq) (fa : Nat) : State :=
  let lock := waux x
  let lop := fld x.ent 20 1
  let swap := fld x.ent 40 8
  let jobId := match s.job k.job with | some j => j.jobId | none => 0
  let s := if lop = 1 ∧ holder swap = lockIdent (s.fnFa x.fn) then s.addPeer x.fn (faModule fa) else s
  let area := mkArea [(32, 1, lock / 256), (33, 1, lock % 256), (34, 1, lop), (40, 8, fld x.ent 32 8), (48, 8, swap), (56, 4, x.reqId)]
  let p := mkPkt { dest := faOfSvc (faModule fa) 1, src := s.fnFa x.fn, opcode := 0x09, pin := true, psn := jobId } area []
  let s := s.setWork w (some { x with txCount := x.txCount + 1, lastTx := s.now, asked := false, built := true, sent := 1 })
  s.build 0 p (some x.fn) (if k.job = 0xFFFF then none else some k.job) (some k.pawn) (some (w * 2 ^ 32)) k.yellow

/-- Write OLD from the landing slot of an answered entry to its LADDR and complete it (R352); DETAIL stands in `flags`. It waits for a walk
or, stalled, for its page. -/
def lockLand (s : State) (w : Nat) : State :=
  match s.workEnt w with
  | none => s
  | some x =>
    let r := s.recvReq x 0
    match s.place r [sqOfBytes (bytesLE x.granted 8)] 0 8 with
    | (s, .wait) => s
    | (s, .fault g) => s.localFault w r g
    | (s, .done) => (s.stampWork w 3).complete w 0 x.flags 8

/-- The entry's result stands in its landing slot. -/
def lockLanded (x : WorkEnt) : Bool := x.readB == 1

end State

/-- LOCK (R173, R352, R353): a landing slot is reserved before the request; an entry whose result has landed goes on with its write. -/
def execLock (w : BitVec 32) (s : State) : Out :=
  let w := w.toNat
  .next (match s.workEnt w with
    | none => s
    | some x =>
      if wop x ≠ 6 ∨ x.qid = adminQ ∨ x.fin.isSome = true then s
      else if lockLanded x then (match s.wq x.fn x.qid with | some k => if k.state = 1 then s.lockLand w else s | none => s)
      else if x.built then s
      else
        match s.canBuild x with
        | none => s
        | some k =>
          let s := s.stampWork w 0
          match s.resolveRank k.job (fld x.ent 4 4) with
          | none => s.complete w 8 0 0
          | some fa =>
            if !s.landRoom 1 then s
            else
            let id := s.lck.nextReq
            let s := s.withLck { s.lck with nextReq := (id + 1) % 2 ^ 32 }
            s.sendLock w { x with dest := some fa, reqId := id, started := true } k fa)

/-- LOCK_RESULT_RX (R352, R353, R354). -/
def execLockResultRx (s : State) : Out :=
  .next (match takePkt (fun p => p.opcode == 0x47) s.engRep with
    | none => s
    | some (p, rest) =>
      let t := s.withEngRep rest
      if !crcOk p then t.engCrcFail
      else
        let f := faFn p.destFa
        match t.work.find? (fun e => match e.2 with
          | some x => x.fn == f && wop x == 6 && x.qid != adminQ && x.started && x.fin.isNone && x.reqId == p.reqId && !faSvc p.destFa && !lockLanded x
          | none => false) with
        | some (w, some x) =>
          let detail := p.lockStatus % 8 + 64 * b2n (decide (1 < x.txCount)) + 128 * (p.lockOrphan % 2)
          let t := t.setWork w (some { x with readB := 1, granted := p.lockCompare, flags := detail })
          (match t.wq x.fn x.qid with
          | some k => if k.state = 1 then t.lockLand w else t
          | none => t)
        | _ =>
          let hit := fun (q : Purge) => q.fa == p.destFa && q.reqId == p.reqId && decide (0 < q.tx)
          if t.lck.purges.any hit then (t.withLck { t.lck with purges := t.lck.purges.filter (fun q => !hit q) })
          else t.bump R.LCK_STALE_RESULT)

namespace State

/-- RETRIES; 0 acts as 1. -/
def lockRetries (s : State) : Nat := max 1 (s.rd R.LCK_CFG_RETRIES)

end State

/-- LOCK_RETRY (R142, R354): 2 × REQ_AGE_US of valid fabric time have passed since the ORIGIN of the last transmission. -/
def execLockRetry (w : BitVec 32) (s : State) : Out :=
  let w := w.toNat
  .next (match s.workEnt w with
    | none => s
    | some x =>
      if wop x ≠ 6 ∨ x.qid = adminQ ∨ x.fin.isSome = true ∨ x.started = false ∨ x.asked = false ∨ lockLanded x = true ∨ s.timeHeld = true ∨ s.now < x.lastTx + 2 * s.reqAge then s
      else if s.lockRetries ≤ x.txCount then s.complete w 12 0x80 0
      else
        match s.canBuild x, x.dest with
        | some k, some fa => s.sendLock w x k fa
        | _, _ => s)

namespace State

/-- Plan the purges of a function's peer list (R357), due 2 × REQ_AGE_US after its packets stopped. -/
def planPurges (s : State) (f lop jobId : Nat) : State :=
  let fa := s.fnFa f
  let due := s.now + 2 * s.reqAge
  (s.fnSt f).peers.foldl (fun s t =>
    let id := s.lck.nextReq
    (s.withLck { s.lck with
        nextReq := (id + 1) % 2 ^ 32
        purges := s.lck.purges ++ [{ fa := fa, lop := lop, job := jobId, target := t, due := due, reqId := id }] })) s

/-- Send one purge; a PURGE_FN that has been sent takes its target off the peer list of its function (R357). Its retry runs from its ORIGIN. -/
def sendPurge (s : State) (q : Purge) : State :=
  let area := mkArea [(34, 1, q.lop), (56, 4, q.reqId)]
  let p := mkPkt { dest := faOfSvc q.target 1, src := q.fa, opcode := 0x09, pin := true, psn := q.job } area []
  let q' : Purge := { q with tx := q.tx + 1, built := true }
  let s := s.withLck { s.lck with purges := s.lck.purges.map (fun (x : Purge) => if x.reqId == q.reqId then q' else x) }
  let s := if q.lop = 3 ∧ q.tx = 0 then
      let f := faFn q.fa
      let more := s.lck.purges.any (fun x => x.fa == q.fa && x.lop == 3 && x.tx == 0)
      s.setFn f { s.fnSt f with peers := (s.fnSt f).peers.filter (· != q.target), peerOvf := more && (s.fnSt f).peerOvf }
    else s
  s.build 0 p none none none none false

end State

/-- PURGE_SEND (R142, R354, R357): every purge that is due is sent, or given up after RETRIES transmissions. -/
def execPurgeSend (s : State) : Out :=
  .next (if s.timeHeld then s else s.lck.purges.foldl (fun s q =>
    if q.built || s.now < q.due then s
    else if s.lockRetries ≤ q.tx then (s.withLck { s.lck with purges := s.lck.purges.filter (fun (x : Purge) => x.reqId != q.reqId) })
    else s.sendPurge q) s)

end Sys2Proof.Machine
end

