-- ==== Sys2Proof/Machine/Teardown.lean ====
section
/-!
DEFINITION. Function teardown (R227 to R229, R288): its triggers, its steps 1 to 3 at the trigger, the retirement of tags, and
its end.
-/
namespace Sys2Proof.Machine

namespace State

/-- Function status as HPT_FN_STATf, HPT_FN_TEARDOWNf and HPT_FN_STATUS show it (R228, R230, R231). -/
def showTeardown (s : State) (f : Nat) (on : Bool) : State :=
  let p := f / 128
  let n := f % 128
  ((s.wrB (R.HPT_FN_STAT_TEARDOWN p n) on).wrB (R.HPT_FN_STATUS_TEARDOWN p n) on).wrB (R.HPT_FN_TEARDOWN_ACTIVE p n) on

/-- Its connections fail with DETAIL 0x82; the peers of the OPEN ones learn it by an unsolicited ACK (R288). -/
def closeConns (s : State) (f : Nat) : State :=
  s.xpt.conns.foldl (fun s e =>
    match e.2 with
    | some c =>
      if c.fn != f then s
      else
        let s := if c.state = 2 then s.sendAck e.1 5 0 else s
        s.failConn e.1 0x82 none
    | none => s) s

/-- The trees that hold the function's result buffers are aborted, and its registrations end (R228, R344). -/
def leaveTrees (s : State) (f : Nat) : State :=
  s.regs.foldl (fun s e =>
    if e.2.any (fun r => r.fn == f) then
      let s := match s.treeEntry e.1 with | some m => s.abortHere m 8 ((s.rd (R.COL_TREE_OP_Q_DOWN m))) | none => s
      let s := s.withRegs (SMap.set [] s.regs e.1 ((s.regsOf e.1).filter (fun r => r.fn != f)))
      let s := match s.treeEntry e.1 with | some m => s.pumpTree m | none => s
      s.showRegs e.1
    else s) s

/-- Domains, messages, regions, keys and job contexts of the function are released (R228, R314). -/
def dropObjects (s : State) (f : Nat) : State :=
  let s := s.liveMsgs.foldl (fun s e => if e.2.fn = f then s.freeMsg e.1 else s) s
  let s := s.withMtc { s.mtc with doms := s.mtc.doms.filter (fun e => e.1 / 65536 != f) }
  let s := s.xpt.mrs.foldl (fun s e => match e.2 with | some m => if m.fn = f then s.freeMrIdx e.1 else s | none => s) s
  (s.withJobs (s.jobs.filter (fun e => match e.2 with | some j => j.fn != f | none => false)))

/-- Its translation contexts leave every cache, its page requests are resolved, and what waits for translation ends (R228,
R252). -/
def dropTranslation (s : State) (f : Nat) : State :=
  let s := s.invalidate (fun e => e.fn == f) (fun e => e.fn == f)
  let s := (s.withTrn { s.trn with
    ctxs := s.trn.ctxs.filter (fun e => e.1 / 1024 != f)
    walks := s.trn.walks.filter (fun r => r.fn != f)
    faults := s.trn.faults.filter (fun r => r.1.fn != f)
    heldWr := s.trn.heldWr.filter (fun h => h.fn != f)
    ringFault := s.trn.ringFault.filter (fun q => q.1 != f) })
  s.dropPages (fun q => q.fn == f)

/-- Its work ends without completions; its queues enter TEARDOWN. -/
def dropWork (s : State) (f : Nat) : State :=
  ((s.withWork (s.work.filter (fun e => match e.2 with | some x => x.fn != f | none => false))).withWqs (SMap.mapAll none s.wqs (fun _ k => k.map (fun (k : Wq) => if k.fn = f then { k with state := 3, ents := [], pending := false, inv := none } else k)))).showInv

/-- Configuration space at the trigger of a teardown: a Function Level Reset, a move to D0, the end of the VFs or of the link resets it at
once, so that decode ends; FN_RESET and START leave it as it is (R229). -/
def cfgTorn (s : State) (f cause : Nat) : State :=
  let c := s.pciFn f
  if cause = 2 ∨ cause = 6 then s
  else s.setPci f { c with regs := [], late := [], bus := if cause = 5 then 0 else c.bus }

/-- Configuration space at the end of a teardown: its reset values, with the writes accepted since applied (R228, R229). -/
def cfgEnd (s : State) (f : Nat) : State :=
  let c := s.pciFn f
  s.setPci f { c with regs := c.late.foldl (cfgPut (fnKind f)) [], late := [] }

/-- Steps 1 to 3 of R228 for one function; a trigger during a teardown is absorbed (R227). -/
def teardownOne (s : State) (cause f : Nat) : State :=
  if !s.fnEnabled f || s.fnTeardown f then s
  else
    let p := f / 128
    let mse := s.memSpace f
    let s := s.showTeardown f true
    let s := (s.wr (R.HPT_FN_STAT_CAUSE p (f % 128)) cause).wr (R.HPT_FN_STATUS_CAUSE p (f % 128)) cause
    let s := s.bump (R.HPT_TEARDOWNS p)
    let s := s.setFn f { s.fnSt f with tornAt := some s.now, tagsRetired := false, lastFetch := none
                                       mse := if isPF f then none else some mse }
    let s := s.cfgTorn f cause
    let s := s.stopPackets (fun fn _ => fn == some f)
    let s := s.closeConns f
    let s := s.setAtomics (s.xpt.atomicOps.filter (fun a => a.cid / 2 ^ 48 != f || atomicRuns s.xpt.atomicOps a))
    let s := s.leaveTrees f
    let s := s.dropWork f
    let s := s.dropObjects f
    let s := s.forceRelease (fun _ w => ownerFa w == s.fnFa f)
    let s := s.planPurges f 3 0
    let s := if (s.fnSt f).peers.isEmpty then s.setFn f { s.fnSt f with peerOvf := false } else s
    s.dropTranslation f

/-- A VF stops existing at the end of its teardown. -/
def markGone (s : State) (f : Nat) : State := s.setFn f { s.fnSt f with gone := true }

/-- The VFs of host port p that exist. -/
def vfsOf (s : State) (p : Nat) : List Nat := ((List.range 127).map (fun i => 128 * p + i + 1)).filter s.fnEnabled

/-- Teardown of a function; that of a PF includes every VF (R227). -/
def teardownFn (s : State) (cause f : Nat) : State :=
  if isPF f then
    let vfs := s.vfsOf (f / 128)
    let s := s.teardownOne cause f
    vfs.foldl (fun s v => (s.teardownOne cause v).markGone v) s
  else s.teardownOne cause f

/-- The host port's link is down, and every function of it is torn down with cause 5 (R227). -/
def hostPortDown (s : State) (p : Nat) : State :=
  let s := if s.rdB (R.HPT_PORT_STAT_LINK_UP p) then s.bump (R.HPT_LINK_DOWN p) else s
  let s := ((s.wr (R.HPT_PORT_STAT_LINK_UP p) 0).wr (R.HPT_PORT_STAT_GEN p) 0).wr (R.HPT_PORT_STAT_WIDTH p) 0
  let s := s.wr (R.HPT_PORT_STAT_FLIT p) 0
  s.teardownFn 5 (128 * p)

/-- A command on function f's configuration space reaches it. -/
def onFn (s : State) (f : Nat) (g : State → State) : State := if s.fnReach f then g s else s

end State

open State

/-- FLR (R227): Initiate Function Level Reset is written. -/
def execFlr (f : Fin 512) (s : State) : Out := .next (s.onFn f (fun s => s.teardownFn 1 f))

/-- D3HOT_TO_D0 (R202, R227). -/
def execD3hotToD0 (f : Fin 512) (s : State) : Out := .next (s.onFn f (fun s => s.teardownFn 4 f))

namespace State

/-- VFs that configuration writes during the teardown asked for are created when no VF of the port is in teardown (R229). -/
def applyRecreate (s : State) (p : Nat) : State :=
  let pf := 128 * p
  if s.fnTeardown pf || (List.range 127).any (fun i => s.fnTeardown (pf + i + 1)) then s
  else
    match (s.fnSt pf).recreate with
    | some n => (s.setFn pf { s.fnSt pf with recreate := none }).createVfs p n
    | none => s

end State

/-- VF_ENABLE_CHANGE (R227, R229): VF Enable cleared, or NumVFs changed to n while it is set; every VF goes, and in the second
case n VFs are created when the last one has gone. A VF Enable that was set during a teardown and is cleared again creates none. -/
def execVfEnableChange (p : Fin 4) (enable : Bool) (n : BitVec 7) (s : State) : Out :=
  .next (s.onFn (128 * p.val) (fun s =>
    let pf := 128 * p.val
    let due := (s.fnSt pf).recreate
    let on := s.rdB (R.HPT_PORT_STAT_VF_ENABLE p)
    if (!on && due.isNone) || (enable && (n.toNat == due.getD (s.rd (R.HPT_PORT_STAT_NUM_VFS p)) ||
        decide (s.rd (R.HPT_PORT_CFG_TOTAL_VFS p) < n.toNat))) then s
    else
      let s := (s.vfsOf p).foldl (fun s v => (s.teardownOne 3 v).markGone v) s
      let s := if enable then (if on then s.wr (R.HPT_PORT_STAT_NUM_VFS p) n.toNat else s).putCfg pf (0x6010, 0xFFFF, n.toNat)
        else (s.wr (R.HPT_PORT_STAT_VF_ENABLE p) 0).wr (R.HPT_PORT_STAT_NUM_VFS p) 0
      (s.setFn pf { s.fnSt pf with recreate := if enable then some n.toNat else none }).applyRecreate p))

/-- HOST_LINK_DOWN (R227): link down or hot reset. -/
def execHostLinkDown (p : Fin 4) (s : State) : Out :=
  .next (if s.rdB (R.HPT_PORT_STAT_LINK_UP p) then s.hostPortDown p else s)

/-- HP_PERST (R483): HPp_PERST_L is low for `ns` nanoseconds; pulses shorter than 1 µs are ignored. -/
def execHpPerst (p : Fin 4) (ns : BitVec 32) (s : State) : Out :=
  .next (if ns.toNat < 1000 then s else s.hostPortDown p)

/-- HPT_FN_TEARDOWN (R227, R230): a write of HPT_FN_TEARDOWNf by a master; START is bit 0. -/
def execHptFnTeardown (m : Master) (f : Fin 512) (h : Half) (v : BitVec 64) (s : State) : Out :=
  .next (s.gated m (0x910008 + 0x40000 * (f.val / 128) + 0x100 * (f.val % 128)) (fun s =>
    if coversLow h && bitOf v.toNat 0 then s.teardownFn 6 f else s))

namespace State

/-- Non-posted requests of function f that have no completion yet (R228). -/
def npOpen (s : State) (f : Nat) : Bool :=
  s.reads.any (fun r => r.fn == f) || s.xpt.atomicOps.any (fun a => a.cid / 2 ^ 48 == f) ||
    s.xpt.flushOps.any (fun a => a.1 / 2 ^ 48 == f)

end State

namespace State

/-- Retire the tags of function f that are still open (R228). -/
def retireTags (s : State) (f : Nat) : State :=
  let s := s.setFn f { s.fnSt f with tagsRetired := true }
  let s := s.withReads (s.reads.filter (fun r => r.fn != f))
  let s := s.withXpt { s.xpt with flushOps := s.xpt.flushOps.filter (fun a => a.1 / 2 ^ 48 != f) }
  s.setAtomics (s.xpt.atomicOps.filter (fun a => a.cid / 2 ^ 48 != f))

end State

/-- TEARDOWN_TAG_TIMEOUT (R228): 50 ms after the wait began, the tags still open are retired. -/
def execTeardownTagTimeout (f : Fin 512) (s : State) : Out :=
  .next (match (s.fnSt f).tornAt with
    | some t => if !s.fnTeardown f || decide (s.now < t + 50000000) then s else s.retireTags f
    | none => s)

namespace State

/-- What the PF of host port p had set ends with a teardown of the PF (R228, R235, R240): quotas, counter access, stage-2
settings and device windows. -/
def dropPfSettings (s : State) (p : Nat) : State :=
  let s := (List.range 128).foldl (fun s n =>
    let s := (((s.wr (R.HPT_FN_QUOTA_WQ p n) 0).wr (R.HPT_FN_QUOTA_CQ p n) 0).wr (R.HPT_FN_QUOTA_EQ p n) 0).wr (R.HPT_FN_QUOTA_JOB p n) 0
    s.wr (R.HPT_FN_STAT_COUNTERS_ALLOWED p n) 0) s
  let s := s.resetRange (0x1000 + 0xA00000 + 0x100 * p) (0x1000 + 0xA00000 + 0x100 * p + 0xFF)
  s.resetRange (0xA02000 + 0x10 * (128 * p)) (0xA02000 + 0x10 * (128 * p) + 0x7FF)

/-- Steps 4 and 5 of R228: queues go ABSENT, BAR2 registers reset, and the PF learns of a VF's end. The cause stays
readable. -/
def endTeardown (s : State) (f : Nat) : State :=
  match (s.fnSt f).tornAt with
  | some t =>
    if !s.fnTeardown f || s.npOpen f then s
    else
      let p := f / 128
      let n := f % 128
      let s := (((s.withWqs (s.wqs.filter (fun e => e.1 / 131072 != f))).withCqs (s.cqs.filter (fun e => e.1 / 65536 != f))).withEqs (s.eqs.filter (fun e => e.1 / 2048 != f)))
      let s := s.resetRange (0x920010 + 0x40000 * p + 0x100 * n) (0x92003F + 0x40000 * p + 0x100 * n)
      let s := ((s.showReady f false).resetVectors f).cfgEnd f
      let s := s.wr (R.HPT_FN_TEARDOWN_LAST_US p n) (min (2 ^ 24 - 1) ((s.now - t) / 1000))
      let s := s.showTeardown f false
      let s := if isPF f then
          ((s.dropPfSettings p).wr (R.HPT_PORT_STAT_VF_ENABLE p) 0).wr (R.HPT_PORT_STAT_NUM_VFS p) 0
        else if (s.fnSt f).gone then s.wr (R.HPT_FN_STAT_ENABLED p n) 0 else s
      let s := s.setFn f { s.fnSt f with tornAt := none, gone := false, mse := none }
      let s := if isPF f then s else s.event (128 * p) 0 6 0 n
      s.applyRecreate p
  | none => s

end State

/-- TEARDOWN_END (R228, R229): no tag is open. -/
def execTeardownEnd (f : Fin 512) (s : State) : Out := .next (s.endTeardown f)

end Sys2Proof.Machine
end

