-- ==== Sys2Proof/Machine/Admin.lean ====
section
/-!
DEFINITION. The admin commands (R223, R224, R226, R254, R283, R291, R329). Each executes the entry at the head of a
function's admin queue, checks it in the order of R224, and writes its completion before the next one starts.
-/
namespace Sys2Proof.Machine

/-- What an admin command completes with. -/
structure Adm where
  status : Nat
  detail : Nat := 0
  result : Nat := 0
  deriving DecidableEq, Repr

/-! Statuses (R220). -/
def admOk (result : Nat := 0) : Adm := { status := 0, result := result }
def admBad : Adm := { status := 3, detail := 5 }
def admErr (status : Nat) : Adm := { status := status }

namespace State

/-- The command at the head of a function's admin queue. -/
def adminHead (s : State) (f acmd : Nat) : Option (Nat × WorkEnt × Wq) :=
  if s.fnTeardown f then none
  else
    match s.wq f adminQ with
    | some k =>
      match k.ents with
      | w :: _ => (match s.workEnt w with
        | some x => if fld x.ent 0 1 = acmd then some (w, x, k) else none
        | none => none)
      | [] => none
    | none => none

/-- Conditions 2 to 4 of R224: the target function, or the status. -/
def adminTarget (s : State) (f : Nat) (e : BitVec 512) (pfOnly : Bool) : Except Nat Nat :=
  let t := fld e 2 2
  let g := if t = 0xFFFF then f else f - f % 128 + t
  if (!isPF f && (pfOnly || g != f)) then .error 7
  else if (t ≠ 0xFFFF ∧ 128 ≤ t) ∨ s.fnEnabled g = false then .error 6
  else if s.fnTeardown g then .error 2
  else .ok g

/-- Write the completion of the command and turn to the next one. -/
def adminEnd (s : State) (f w : Nat) (r : Adm) : State := (s.finish w r.status r.detail r.result).adminSettle 4097 f

/-- Run the head command `acmd` of function f: `body` gets the entry and the target, and answers none while it waits. -/
def admin (s : State) (f acmd : Nat) (pfOnly : Bool) (body : State → BitVec 512 → Nat → State × Option Adm) : State :=
  match s.adminHead f acmd with
  | none => s
  | some (w, x, k) =>
    if k.inv.isSome then s
    else
      match s.adminTarget f x.ent pfOnly with
      | .error st => s.adminEnd f w (admErr st)
      | .ok g =>
        match body s x.ent g with
        | (s, none) => s
        | (s, some r) => s.adminEnd f w r

/-- A command that acts on its issuer alone: another target is not permitted (R254, R283). -/
def adminSelf (s : State) (f acmd : Nat) (pfOnly : Bool) (body : State → BitVec 512 → State × Option Adm) : State :=
  s.admin f acmd pfOnly (fun s e g => if g = f then body s e else (s, some (admErr 7)))

/-! Objects named by commands. -/

/-- An event queue argument, a handle of R208: 0xFFFF is queue 0. -/
def eqOk (s : State) (f h : Nat) : Bool := h == 0xFFFF || (decide (h < 2048) && (s.eqOf f h).isSome)
/-- A translation context argument: 0xFFFF is "no stage 1" (R234). -/
def xctxOk (s : State) (f h : Nat) : Bool := h == 0xFFFF || (decide (h < 1024) && (s.xctxOf f h).isSome)
/-- A job context of function f. -/
def jobOk (s : State) (f j : Nat) : Bool := match s.job j with | some k => k.fn == f | none => false

/-- The lowest handle from `i` on that is free. -/
def lowFree : Nat → (Nat → Bool) → Nat → Nat
  | 0, _, i => i
  | fuel + 1, used, i => if used i then lowFree fuel used (i + 1) else i

/-! Quotas (R208). A PF keeps what its host port's share leaves after the quotas of its VFs. -/
def quotaSum (s : State) (q : Nat → FRef) : Nat := ((List.range 127).map (fun i => s.rd (q (i + 1)))).sum
def wqQuota (s : State) (f : Nat) : Nat :=
  let p := f / 128
  if isPF f then s.rd (R.HPT_PORT_POOL_WQ p) - s.quotaSum (R.HPT_FN_QUOTA_WQ p) else s.rd (R.HPT_FN_QUOTA_WQ p (f % 128))
/-- Admin completion queues count in the pool. -/
def cqQuota (s : State) (f : Nat) : Nat :=
  let p := f / 128
  if isPF f then
    s.rd (R.HPT_PORT_POOL_CQ p) - s.quotaSum (R.HPT_FN_QUOTA_CQ p) -
      ((List.range 128).filter (fun n => (s.cqOf (128 * p + n) 0).isSome)).length
  else s.rd (R.HPT_FN_QUOTA_CQ p (f % 128))
def eqQuota (s : State) (f : Nat) : Nat :=
  let p := f / 128
  if isPF f then s.rd (R.HPT_PORT_POOL_EQ p) - s.quotaSum (R.HPT_FN_QUOTA_EQ p) else s.rd (R.HPT_FN_QUOTA_EQ p (f % 128))
def jobQuota (s : State) (f : Nat) : Nat :=
  let p := f / 128
  if isPF f then s.rd (R.HPT_PORT_CFG_JOB_POOL p) - s.quotaSum (R.HPT_FN_QUOTA_JOB p) else s.rd (R.HPT_FN_QUOTA_JOB p (f % 128))

/-- HPT_FN_USED of function f (R230). -/
def fnUsed (s : State) (f : Nat) : Nat :=
  (s.wqList f).length + (s.cqList f).length * 2 ^ 17 + (s.eqList f).length * 2 ^ 34 + (s.jobList f).length * 2 ^ 46

/-! Rank tables in module memory (R64, R409). -/

/-- The lowest place in the RANK partition that has room for n entries and overlaps no job's table. -/
def rankPlace (s : State) (n : Nat) : Option Nat :=
  let (base, size) := s.partition 3
  let tables := s.jobs.filterMap (fun e => e.2.map (fun j => (j.base, j.base + 8 * j.entries)))
  let fits := fun (a : Nat) => decide (base ≤ a) && decide (a + 8 * n ≤ base + size) &&
    tables.all (fun t => decide (a + 8 * n ≤ t.1) || decide (t.2 ≤ a))
  (base :: tables.map Prod.snd).foldl (fun best a =>
    if !fits a then best else match best with | none => some a | some b => some (min a b)) none

/-! What a completion of INVALIDATE waits for (R246). -/

/-- Atomics and zero-length reads of functions that `hit` names, as connection and PSN. -/
def npAtomics (s : State) (hit : Nat → Bool) : List (Nat × Nat) :=
  (s.xpt.atomicOps.filter (fun a => hit (a.cid / 2 ^ 48))).map (fun a => (a.cid, a.pkt.psn)) ++
    (s.xpt.flushOps.filter (fun a => hit (a.1 / 2 ^ 48))).map (fun a => (a.1, a.2.2))

/-- Wait for the reads that `hit` names and the atomics of functions that `hitF` names; an invalidation is counted and
awaits acknowledgement. -/
def invWait (s : State) (f : Nat) (hit : HostRead → Bool) (hitF : Nat → Bool) : State :=
  let s := s.bump R.TRN_INVALIDATE
  (match s.wq f adminQ with
  | some k => s.setWq f adminQ (some { k with inv := some ((s.reads.filter hit).map HostRead.id, s.npAtomics hitF) })
  | none => s).showInv

/-- Every access that used the old mapping has returned. -/
def invOver (s : State) (v : List Nat × List (Nat × Nat)) : Bool :=
  v.1.all (fun i => !s.reads.any (fun r => r.id == i)) && v.2.all (fun a => !(s.npAtomics (fun _ => true)).contains a)

/-- Accesses of the scope that wait for a walk's fault walk again (R247). -/
def dropFaults (s : State) (hit : XReq → Bool) : State :=
  (s.withTrn { s.trn with faults := s.trn.faults.filter (fun x => !hit x.1) })

/-- Two ranges overlap. -/
def overlap (a la b lb : Nat) : Bool := decide (a < b + lb) && decide (b < a + la)

end State

open State

/-! ## Queues, jobs and functions (R224, R226) -/

namespace State

/-- A LOG_SIZE within its range, a 4 KiB-aligned base (R209) and a vector of R202. -/
def ringArgs (log top base vec : Nat) : Bool :=
  decide (6 ≤ log) && decide (log ≤ top) && base % 4096 == 0 && (vec == 0xFFFF || decide (vec < 2048))

end State

/-- CREATE_WQ. Completion queue 0 is the admin queue's own (R208): a work queue that names it names none. -/
def execCreateWq (f : Fin 512) (s : State) : Out :=
  .next (s.admin f 0x01 false (fun s e g =>
    let b := fld e 4 1
    let cq := fld e 16 2
    let j := fld e 18 2
    if !ringArgs (b % 16) 16 (fld e 8 8) 0xFFFF then (s, some admBad)
    else if cq == 0 || (s.cqOf g cq).isNone || !(j == 0xFFFF || s.jobOk g j) || !s.xctxOk g (fld e 20 2) then (s, some (admErr 6))
    else if (s.wqList g).length ≥ s.wqQuota g then (s, some (admErr 5))
    else
      match s.choosePawn s.pawnWqs with
      | none => (s, some (admErr 5))
      | some n =>
        let q := lowFree 65536 (fun i => (s.wq g i).isSome) 0
        if 65536 ≤ q then (s, some (admErr 5))
        else
          let k : Wq := { fn := g, qid := q, recv := bitOf b 4, yellow := bitOf b 5, base := fld e 8 8, log := b % 16, cq := cq
                          job := j, xctx := fld e 20 2, pawn := n }
          (s.setWq g q (some k), some (admOk (q + n * 2 ^ 16)))))

/-- DESTROY_WQ (R226): `ans` answers the fresh read of the slot at pos. The slot of an open run returns. -/
def execDestroyWq (f : Fin 512) (ans : HostAns) (s : State) : Out :=
  .next (s.admin f 0x02 false (fun s e g =>
    let q := fld e 4 2
    match s.wq g q with
    | none => (s, some (admErr 6))
    | some k =>
      if k.state ≠ 1 ∨ k.ents.any (fun w => match s.workEnt w with | some x => x.fin.isNone | none => false) ∨ s.ringHeld k then
        (s, some (admErr 1))
      else
        match s.xlate (slotReq k) with
        | (s, .miss) => (s, none)
        | (s, .fault x) => (s.ringStall k x, some (admErr 1))
        | (s, .hit _) =>
          let s := s.ringRead g ans
          if !quiet { k with ents := [] } ans then (s, some (admErr 1))
          else
            let held := (k.ents.filter (fun w => match s.workEnt w with | some x => x.opens | none => false)).length
            let s := match s.cqOf g k.cq with
              | some r => s.setCq g k.cq (some { r with reserved := r.reserved - held })
              | none => s
            let s := (k.ents.foldl (fun s w => s.setWork w none) s).dropFaults (fun r => r.ring && r.fn == g && r.qid == q)
            (s.setWq g q none, some admOk)))

/-- CREATE_CQ. -/
def execCreateCq (f : Fin 512) (s : State) : Out :=
  .next (s.admin f 0x03 false (fun s e g =>
    let log := fld e 4 1 % 32
    if !ringArgs log 20 (fld e 8 8) (fld e 16 2) then (s, some admBad)
    else if (s.cqList g).length ≥ s.cqQuota g then (s, some (admErr 5))
    else
      let h := lowFree 65536 (fun i => (s.cqOf g i).isSome) 1
      if 65536 ≤ h then (s, some (admErr 5))
      else (s.setCq g h (some { fn := g, h := h, base := fld e 8 8, log := log, vector := fld e 16 2 }), some (admOk h))))

/-- DESTROY_CQ (R226); a ring with a held write is busy (R253). -/
def execDestroyCq (f : Fin 512) (s : State) : Out :=
  .next (s.admin f 0x04 false (fun s e g =>
    let h := fld e 4 2
    if (s.cqOf g h).isNone then (s, some (admErr 6))
    else if (match s.cqOf g h with | some r => s.writeHeld g r.base | none => false) then (s, some (admErr 1))
    else if s.wqs.any (fun x => match x.2 with | some k => k.fn == g && k.cq == h | none => false) then (s, some (admErr 1))
    else (s.setCq g h none, some admOk)))

/-- CREATE_EQ. -/
def execCreateEq (f : Fin 512) (s : State) : Out :=
  .next (s.admin f 0x05 false (fun s e g =>
    let log := fld e 4 1 % 32
    if !ringArgs log 16 (fld e 8 8) (fld e 16 2) then (s, some admBad)
    else if (s.eqList g).length ≥ s.eqQuota g then (s, some (admErr 5))
    else
      let h := lowFree 2048 (fun i => (s.eqOf g i).isSome) 0
      if 2048 ≤ h then (s, some (admErr 5))
      else (s.setEq g h (some { fn := g, h := h, base := fld e 8 8, log := log, vector := fld e 16 2 }), some (admOk h))))

namespace State

/-- A job context, translation context, region, domain or registration of function g names event queue h (R226); 0xFFFF names
queue 0. -/
def eqNamed (s : State) (g h : Nat) : Bool :=
  let is := fun (q : Nat) => q == h || (q == 0xFFFF && h == 0)
  s.jobs.any (fun e => match e.2 with | some j => j.fn == g && is j.eq | none => false) ||
  s.trn.ctxs.any (fun e => match e.2 with | some c => e.1 / 1024 == g && is c.eq | none => false) ||
  s.xpt.mrs.any (fun e => match e.2 with | some m => m.fn == g && m.work.isNone && m.draining.isNone && is m.eq | none => false) ||
  s.mtc.doms.any (fun e => match e.2 with | some d => d.fn == g && is d.eq | none => false) ||
  s.regs.any (fun e => e.2.any (fun r => r.fn == g && is r.eq))

/-- A work queue, job context, region or registration of function g names translation context x (R254). -/
def xctxNamed (s : State) (g x : Nat) : Bool :=
  s.wqs.any (fun e => match e.2 with | some k => k.fn == g && k.xctx == x | none => false) ||
  s.jobs.any (fun e => match e.2 with | some j => j.fn == g && j.xctx == x | none => false) ||
  s.xpt.mrs.any (fun e => match e.2 with | some m => m.fn == g && m.draining.isNone && m.xctx == x | none => false) ||
  s.regs.any (fun e => e.2.any (fun r => r.fn == g && r.xctx == x))

/-- A job context ends: its quench bits clear (R189) and its purges are planned (R357). -/
def endJob (s : State) (j : Nat) (k : Job) : State :=
  let s := s.planPurges k.fn 4 k.jobId
  let s := s.withJobs (SMap.set none s.jobs j none)
  (s.setJobBits j 0).sweepFrozen

end State

/-- DESTROY_EQ (R226); a ring with a held write is busy (R253). -/
def execDestroyEq (f : Fin 512) (s : State) : Out :=
  .next (s.admin f 0x06 false (fun s e g =>
    let h := fld e 4 2
    if h ≥ 2048 ∨ (s.eqOf g h).isNone then (s, some (admErr 6))
    else if s.eqNamed g h || (match s.eqOf g h with | some r => s.writeHeld g r.base | none => false) then (s, some (admErr 1))
    else (s.setEq g h none, some admOk)))

/-- CREATE_JOB (R64, R208, R224). -/
def execCreateJob (f : Fin 512) (s : State) : Out :=
  .next (s.admin f 0x07 false (fun s e g =>
    let n := fld e 4 4
    let x := fld e 12 2
    let q := fld e 14 2
    if !s.xctxOk g x || !s.eqOk g q then (s, some (admErr 6))
    else if (s.jobList g).length ≥ s.jobQuota g then (s, some (admErr 5))
    else
      let j := lowFree 4096 (fun i => (s.job i).isSome) 0
      match s.rankPlace n with
      | none => (s, some (admErr 5))
      | some a =>
        if 4096 ≤ j then (s, some (admErr 5))
        else
          let k : Job := { fn := g, jobId := fld e 8 4, entries := n, base := a, xctx := x, eq := if q = 0xFFFF then 0 else q }
          ((s.withJobs (SMap.set none s.jobs j (some k))), some (admOk (j + a * 2 ^ 16)))))

/-- DESTROY_JOB (R189, R226, R290, R357). -/
def execDestroyJob (f : Fin 512) (s : State) : Out :=
  .next (s.admin f 0x08 false (fun s e g =>
    let j := fld e 4 2
    match s.job j with
    | some k =>
      if k.fn ≠ g then (s, some (admErr 6))
      else if s.wqs.any (fun x => match x.2 with | some k => k.job == j | none => false) ||
          s.mtc.doms.any (fun x => match x.2 with | some d => d.job == j | none => false) then (s, some (admErr 1))
      else (s.endJob j k, some admOk)
    | none => (s, some (admErr 6))))

namespace State

/-- Write entries first … of a rank table from the bytes read (R66): each as one 8-byte word. -/
def writeRanks (s : State) (base : Nat) : List Nat → Nat → State
  | bs, 0 => let _ := bs; s
  | bs, n + 1 => writeRanks (s.setMemWord base (leOf (bs.take 8))) (base + 8) (bs.drop 8) n

/-- The bytes of a range, page by page, until a fault, a failed read or the end; none where a walk or an answer is missing.
`answers` go to the pages in order. -/
def rankBytes : Nat → State → XReq → Nat → List HostAns → List Nat → State × Option (List Nat × Adm)
  | 0, s, _, _, _, acc => (s, some (acc, admOk))
  | fuel + 1, s, r, len, ans, acc =>
    if len = 0 then (s, some (acc, admOk))
    else
      let n := min len (4096 - r.addr % 4096)
      match s.xlate r with
      | (s, .miss) => (s, none)
      | (s, .fault x) => (s, some (acc, { status := 9, detail := xDetail x }))
      | (s, .hit _) =>
        match ans with
        | [] => (s, none)
        | .ok bs :: rest =>
          let l := (bs.map BitVec.toNat).take n
          rankBytes fuel s { r with addr := r.addr + n } (len - n) rest (acc ++ l ++ List.replicate (n - l.length) 0)
        | a :: _ => (s.aerRead r.fn a, some (acc, admErr 10))

end State

/-- RANK_WRITE (R64, R66, R224): `ans` answers the reads of its source, one for each page. The entries before a fault, or before
a failed read, are written and counted. -/
def execRankWrite (f : Fin 512) (ans : List HostAns) (s : State) : Out :=
  .next (s.admin f 0x09 false (fun s e g =>
    let n := fld e 12 4
    let first := fld e 8 4
    let j := fld e 4 2
    if n < 1 ∨ 512 < n then (s, some admBad)
    else
      match s.job j with
      | none => (s, some (admErr 6))
      | some k =>
        if k.fn ≠ g then (s, some (admErr 6))
        else if k.entries < first + n then (s, some admBad)
        else
          match rankBytes (n + 2) s { fn := g, xctx := k.xctx, addr := fld e 16 8, wr := false, own := 2 ^ 127 + f.val } (8 * n) ans [] with
          | (s, none) => (s, none)
          | (s, some (bs, r)) =>
            let m := bs.length / 8
            (s.writeRanks (k.base + 8 * first) bs m, some { r with result := m })))

/-- FN_RESET (R224): the completion, then the teardown with cause 2. -/
def execFnReset (f : Fin 512) (s : State) : Out :=
  .next (match s.adminHead f 0x0A with
    | none => s
    | some (w, x, _) =>
      match s.adminTarget f x.ent false with
      | .error st => s.adminEnd f w (admErr st)
      | .ok g =>
        let s := (s.finish w 0 0).teardownFn 2 g
        if s.fnTeardown f then s else s.adminSettle 4097 f)

/-- SET_VF_QUOTA (R208, R224): to a VF of the PF; within the host port's share. -/
def execSetVfQuota (f : Fin 512) (s : State) : Out :=
  .next (s.admin f 0x0B true (fun s e g =>
    let w := fld e 4 4
    let c := fld e 8 2
    let q := fld e 10 2
    let j := fld e 12 2
    let p := g / 128
    let n := g % 128
    if isPF g then (s, some (admErr 7))
    else if 65536 < w ∨ 2048 < q ∨ 4096 < j then (s, some admBad)
    else
      let t := (((s.wr (R.HPT_FN_QUOTA_WQ p n) w).wr (R.HPT_FN_QUOTA_CQ p n) c).wr (R.HPT_FN_QUOTA_EQ p n) q).wr (R.HPT_FN_QUOTA_JOB p n) j
      let pf := 128 * p
      let admins := ((List.range 128).filter (fun i => (s.cqOf (128 * p + i) 0).isSome)).length
      let below := decide (w < (s.wqList g).length) || decide (c < (s.cqList g).length) || decide (q < (s.eqList g).length) ||
        decide (j < (s.jobList g).length)
      let beyond := decide (s.rd (R.HPT_PORT_POOL_WQ p) < t.quotaSum (R.HPT_FN_QUOTA_WQ p) + (s.wqList pf).length) ||
        decide (s.rd (R.HPT_PORT_POOL_CQ p) < t.quotaSum (R.HPT_FN_QUOTA_CQ p) + (s.cqList pf).length + admins) ||
        decide (s.rd (R.HPT_PORT_POOL_EQ p) < t.quotaSum (R.HPT_FN_QUOTA_EQ p) + (s.eqList pf).length) ||
        decide (s.rd (R.HPT_PORT_CFG_JOB_POOL p) < t.quotaSum (R.HPT_FN_QUOTA_JOB p) + (s.jobList pf).length)
      if below || beyond then (s, some (admErr 5)) else (t, some admOk)))

/-- SET_COUNTER_ACCESS (R206, R224). -/
def execSetCounterAccess (f : Fin 512) (s : State) : Out :=
  .next (s.admin f 0x0C true (fun s e g =>
    (s.wr (R.HPT_FN_STAT_COUNTERS_ALLOWED (g / 128) (g % 128)) (fld e 4 1 % 2), some admOk)))

/-- QUERY_FN (R224). -/
def execQueryFn (f : Fin 512) (s : State) : Out :=
  .next (s.admin f 0x0D false (fun s _ g => (s, some (admOk (s.fnUsed g)))))

/-! ## Translation (R233, R246, R252, R254) -/

namespace State

/-- A lifetime argument: 0 for 10,000 µs; none outside 1 to 100,000. -/
def lifeArg (v : Nat) : Option Nat := if v = 0 then some 10000 else if v ≤ 100000 then some v else none
/-- A table address: 4 KiB-aligned, below 2⁵² (R237). -/
def rootOk (a : Nat) : Bool := a % 4096 == 0 && decide (a < 2 ^ 52)

end State

/-- CREATE_XCTX. -/
def execCreateXctx (f : Fin 512) (s : State) : Out :=
  .next (s.adminSelf f 0x10 false (fun s e =>
    let q := fld e 20 2
    match lifeArg (fld e 16 4) with
    | none => (s, some admBad)
    | some life =>
      if !rootOk (fld e 8 8) then (s, some admBad)
      else if !s.eqOk f q then (s, some (admErr 6))
      else
        let h := lowFree 1024 (fun i => (s.xctxOf f i).isSome) 0
        if 1024 ≤ h ∨ 16384 ≤ s.trn.ctxs.length then (s, some (admErr 5))
        else
          let c : Xctx := { root := fld e 8 8, life := life, eq := if q = 0xFFFF then 0 else q, odp := bitOf (fld e 22 1) 0 }
          ((s.withTrn { s.trn with ctxs := SMap.set none s.trn.ctxs (f.val * 1024 + h) (some c) }), some (admOk h))))

/-- DESTROY_XCTX: the context, its cached translations and its page requests go; completed by `INVALIDATE_DONE`. -/
def execDestroyXctx (f : Fin 512) (s : State) : Out :=
  .next (s.adminSelf f 0x11 false (fun s e =>
    let h := fld e 4 2
    if h ≥ 1024 ∨ (s.xctxOf f h).isNone then (s, some (admErr 6))
    else if s.xctxNamed f h then (s, some (admErr 1))
    else
      let s := s.invalidateCtx f h
      let s := s.withTrn { s.trn with ctxs := SMap.set none s.trn.ctxs (f.val * 1024 + h) none }
      let s := s.dropPages (fun q => q.fn == f && q.xctx == h)
      let s := s.dropFaults (fun r => r.fn == f && r.xctx == h)
      (s.invWait f (fun r => r.fn == f && r.xctx == h) (fun g => g == f), none)))

/-- INVALIDATE (R246, R247): broadcast to every cache; completed by `INVALIDATE_DONE`. -/
def execInvalidate (f : Fin 512) (s : State) : Out :=
  .next (s.admin f 0x12 false (fun s e g =>
    let h := fld e 4 2
    let scope := fld e 6 1
    let a := fld e 8 8
    let n := fld e 16 4 * 4096
    let stage2 := h == 0xFFFF
    if stage2 && (!isPF f || isPF g) then (s, some (admErr 7))
    else if !stage2 && g != f then (s, some (admErr 7))
    else if 1 < scope ∨ (scope = 0 ∧ (a % 4096 ≠ 0 ∨ n = 0)) then (s, some admBad)
    else if !stage2 && !(decide (h < 1024) && (s.xctxOf f h).isSome) then (s, some (admErr 6))
    else
      let all := scope == 1
      let s := s.invalidate
        (fun c => c.fn == g && (if stage2 then all || overlap c.fpa (2 ^ c.log) a n else c.xctx == h && (all || overlap c.base (2 ^ c.log) a n)))
        (fun w => w.fn == g && (if stage2 then w.stage2 else !w.stage2 && w.xctx == h))
      let s := s.dropFaults (fun r => r.fn == g && (stage2 || r.xctx == h))
      (s.invWait f (fun r => r.fn == g && (stage2 || (r.xctx == h && (all || overlap r.addr r.len a n)))) (fun x => x == g), none)))

namespace State

/-- The window that a SET_DEVICE_WINDOW entry of function f declares (R254). -/
def setWindow (s : State) (f : Nat) (e : BitVec 512) : State :=
  let k := fld e 4 1
  let p := f / 128
  let s := s.wr (R.TRN_DWIN_BASE_ENABLE p k) (fld e 5 1 % 2)
  (s.wr (R.TRN_DWIN_BASE_BASE p k) (fld e 8 8 / 4096)).wr (R.TRN_DWIN_SIZE_SIZE p k) (fld e 16 8)

end State

/-- INVALIDATE_DONE (R246, R254): every cache has acknowledged and the accesses through the old mapping have returned, so the
completion is written. -/
def execInvalidateDone (f : Fin 512) (s : State) : Out :=
  .next (match s.wq f adminQ with
    | some k =>
      match k.inv, k.ents with
      | some v, w :: _ =>
        let ent := match s.workEnt w with | some x => x.ent | none => 0
        if fld ent 0 1 = 0x21 ∨ !s.invOver v then s
        else
          let s := if fld ent 0 1 = 0x14 then s.setWindow f ent else s
          let s := s.setWq f adminQ (some { k with inv := none })
          s.showInv.adminEnd f w admOk
      | _, _ => s
    | none => s)

namespace State

/-- The faulting entry of a stalled queue ends with LOCAL_FAULT (R252); a message matched to it is consumed (R305, R306). -/
def failHeld (s : State) (w detail : Nat) : State :=
  match s.workEnt w with
  | none => s
  | some x =>
    let s := s.finish w 9 detail
    match x.msg.bind (fun m => (s.msgOf m).map (fun g => (m, g))) with
    | some (m, g) => if x.fin.isNone ∧ g.recv = some w then (s.dropReceive m g).recvDone m else s
    | none => s

end State

/-- PAGE_RESUME (R250, R252, R253). -/
def execPageResume (f : Fin 512) (s : State) : Out :=
  .next (s.admin f 0x13 false (fun s e g =>
    let tok := fld e 4 4
    let act := fld e 8 1
    if 1 < act then (s, some admBad)
    else
      match s.trn.pages.find? (fun q => q.token == tok && q.fn / 128 == f.val / 128) with
      | none => (s, some (admErr 6))
      | some q =>
        if (if q.xctx = 0xFFFF then !isPF f || q.fn != g else q.fn != f || g != f) then (s, some (admErr 7))
        else
          let s := (s.dropPages (fun x => x.token == tok && x.fn / 128 == f.val / 128)).bump R.TRN_PAGE_RESUME
          let s := q.waiters.foldl (fun s x =>
            let s := match s.wq x.1 x.2.1 with
              | some k => if k.state = 2 then s.setWq x.1 x.2.1 (some { k with state := 1 }) else s
              | none => s
            if act = 1 then s.failHeld x.2.2 (q.detail / 8 * 8 + 1) else s) s
          let s := if q.xctx = 0xFFFF then s.resumeRings q.fn q.page else s
          (s, some admOk)))

/-- SET_DEVICE_WINDOW (R240, R254): invalidates every entry of the host port's functions; completed by `INVALIDATE_DONE`, with which the
window applies. -/
def execSetDeviceWindow (f : Fin 512) (s : State) : Out :=
  .next (s.adminSelf f 0x14 true (fun s e =>
    let k := fld e 4 1
    let p := f.val / 128
    let base := fld e 8 8
    let size := fld e 16 8
    if 16 ≤ k ∨ base % 4096 ≠ 0 ∨ size = 0 ∨ size % 4096 ≠ 0 then (s, some admBad)
    else
      let s := s.invalidate (fun c => c.fn / 128 == p) (fun w => w.fn / 128 == p)
      let s := s.dropFaults (fun r => r.fn / 128 == p)
      (s.invWait f (fun r => r.fn / 128 == p) (fun g => g / 128 == p), none)))

/-- SET_STAGE2 (R235): a change of an enabled setting invalidates the VF's whole stage 2. -/
def execSetStage2 (f : Fin 512) (s : State) : Out :=
  .next (s.admin f 0x15 true (fun s e g =>
    let b := fld e 22 1
    if isPF g then (s, some (admErr 7))
    else
      match lifeArg (fld e 16 4) with
      | none => (s, some admBad)
      | some life =>
        if !rootOk (fld e 8 8) then (s, some admBad)
        else
          let same := s.rd (R.TRN_S2_ROOT_ROOT g) == fld e 8 8 / 4096 && s.rd (R.TRN_S2_CFG_LIFETIME_US g) == life &&
            s.rd (R.TRN_S2_CFG_ODP g) == bitsOf b 0 1 && bitOf b 1
          let was := s.rd (R.TRN_S2_CFG_ENABLE g) == 1 && !same
          let s := s.wr (R.TRN_S2_ROOT_ROOT g) (fld e 8 8 / 4096)
          let s := (s.wr (R.TRN_S2_CFG_LIFETIME_US g) life).wr (R.TRN_S2_CFG_ODP g) (bitsOf b 0 1)
          let s := s.wr (R.TRN_S2_CFG_ENABLE g) (bitsOf b 1 1)
          if !was then (s, some admOk)
          else
            let s := (s.invalidateS2 g).dropFaults (fun r => r.fn == g)
            (s.invWait f (fun r => r.fn == g) (fun x => x == g), none)))

/-! ## Regions (R282, R283) -/

/-- REG_MR. -/
def execRegMr (f : Fin 512) (s : State) : Out :=
  .next (s.adminSelf f 0x20 false (fun s e =>
    let x := fld e 4 2
    let a := fld e 8 8
    let len := fld e 16 8
    let q := fld e 24 2
    if len = 0 ∨ 2 ^ 48 < len ∨ 2 ^ 48 < a + len then (s, some admBad)
    else if !s.xctxOk f x || !s.eqOk f q then (s, some (admErr 6))
    else
      match s.takeMr with
      | none => (s, some (admErr 5))
      | some (s, i) =>
        let m : Mr := { fn := f, xctx := x, rights := fld e 6 1 % 8, addr := a, len := len, eq := if q = 0xFFFF then 0 else q }
        (s.setMr i (some m), some (admOk (s.keyOf i)))))

namespace State

/-- Accesses that passed the check of key index i and have not returned: reads of pieces and atomics (R283). -/
def keyReads (s : State) (i : Nat) : List Nat := (s.reads.filter (fun r => r.key == some i)).map HostRead.id
def keyAtomics (s : State) (i : Nat) : List (Nat × Nat) :=
  (s.xpt.atomicOps.filter (fun a => a.pkt.rkey / 256 == i)).map (fun a => (a.cid, a.pkt.psn))

end State

/-- DEREG_MR: the key stops at once; the completion waits for the accesses that had passed its check. -/
def execDeregMr (f : Fin 512) (s : State) : Out :=
  .next (match s.adminHead f 0x21 with
    | none => s
    | some (w, x, k) =>
      match k.inv with
      | some v => if s.invOver v then (s.setWq f adminQ (some { k with inv := none })).adminEnd f w admOk else s
      | none =>
        match s.adminTarget f x.ent false with
        | .error st => s.adminEnd f w (admErr st)
        | .ok g =>
          let key := fld x.ent 4 4
          let i := key / 256
          if g ≠ f.val then s.adminEnd f w (admErr 7)
          else
            match s.mrOf i with
            | some m =>
              if m.fn ≠ f.val ∨ m.work.isSome ∨ m.draining.isSome ∨ s.keyOf i ≠ key then s.adminEnd f w (admErr 6)
              else
                let v := (s.keyReads i, s.keyAtomics i)
                let s := s.freeMrIdx i
                if s.invOver v then s.adminEnd f w admOk else s.setWq f adminQ (some { k with inv := some v })
            | none => s.adminEnd f w (admErr 6))

/-! ## Domains (R290, R291, R314) -/

namespace State

/-- Zero selects a default (R291). -/
def orDefault (v d : Nat) : Nat := if v = 0 then d else v

end State

/-- CREATE_DOMAIN. -/
def execCreateDomain (f : Fin 512) (s : State) : Out :=
  .next (s.adminSelf f 0x28 false (fun s e =>
    let num := fld e 4 2
    let j := fld e 6 2
    let rank := fld e 8 4
    let eager := fld e 12 4
    let q := fld e 16 2
    let hd := fld e 18 1
    let slot := hd % 8
    if (262144 < eager ∧ eager ≠ 0xFFFFFFFF) ∨
        (bitOf hd 3 = true ∧ (s.rd (R.MTC_SLOT_VALID slot) ≠ 1 ∨ s.rd (R.MTC_SLOT_HOOK slot) ≠ 2)) then (s, some admBad)
    else if (s.domain f num).isSome then (s, some (admErr 1))
    else
      match s.job j with
      | none => (s, some (admErr 6))
      | some k =>
        if k.fn ≠ f.val ∨ s.eqOk f q = false then (s, some (admErr 6))
        else if k.entries ≤ rank then (s, some admBad)
        else
          match s.choosePawn s.pawnDoms with
          | none => (s, some (admErr 5))
          | some n =>
            if 262144 ≤ s.mtc.doms.length then (s, some (admErr 5))
            else
              let d : Dom := {
                fn := f, num := num, job := j, rank := rank, eager := if eager = 0xFFFFFFFF then 16384 else eager
                eq := if q = 0xFFFF then 0 else q, handler := if bitOf hd 3 then some slot else none
                srcUnexp := orDefault (fld e 20 4) 4096, srcEarly := orDefault (fld e 24 4) 1024
                domUnexp := orDefault (fld e 28 4) 262144, domMsgs := orDefault (fld e 32 4) 65536
                span := orDefault (fld e 36 1) 64, home := n }
              (s.setDom f num (some d), some (admOk n))))

namespace State

/-- What keeps a domain busy (R314). -/
def domBusy (s : State) (d : Dom) : Bool :=
  !d.posted.isEmpty || s.liveMsgs.any (fun e => e.2.fn == d.fn && e.2.dom == d.num &&
    (e.2.state == .matched || e.2.state == .held || e.2.rts))

/-- Free the sequence records of a domain of function f. -/
def dropSeq (s : State) (f dom : Nat) : State :=
  (s.withXpt { s.xpt with conns := s.xpt.conns.map (fun e => (e.1, e.2.map (fun (c : Conn) =>
      if c.fn = f then { c with seqTx := SMap.set 0 c.seqTx dom 0, seqRx := SMap.set 0 c.seqRx dom 0 } else c))) })

end State

/-- DESTROY_DOMAIN. -/
def execDestroyDomain (f : Fin 512) (s : State) : Out :=
  .next (s.adminSelf f 0x29 false (fun s e =>
    let num := fld e 4 2
    match s.domain f num with
    | none => (s, some (admErr 6))
    | some d =>
      if s.domBusy d then (s, some (admErr 1))
      else
        let s := s.liveMsgs.foldl (fun s m =>
          if m.2.fn = f.val ∧ m.2.dom = num then (s.bump R.MTC_DISC_DESTROY).freeMsg m.1 else s) s
        ((s.dropSeq f num).setDom f num none, some admOk)))

/-! ## Result buffers (R329) -/

/-- REG_RESULT_BUF. The registration goes to the collective complex, and wakes it (R13). -/
def execRegResultBuf (f : Fin 512) (s : State) : Out :=
  .next (s.adminSelf f 0x30 false (fun s e =>
    let tree := fld e 4 2
    let x := fld e 6 2
    let a := fld e 8 8
    let len := fld e 16 8
    let q := fld e 24 2
    if len = 0 ∨ 2 ^ 48 < len then (s, some admBad)
    else
      match s.treeEntry tree with
      | none => (s, some (admErr 6))
      | some m =>
        let jobId := bitsOf (s.rd (R.COL_TREE_B_ACT m)) 0 32
        let mine := s.jobs.any (fun j => match j.2 with | some k => k.fn == f && k.jobId == jobId | none => false)
        let l := s.regsOf tree
        if !mine || !bitOf (s.maskWord m 4) (f.val / 128) then (s, some (admErr 7))
        else if !s.xctxOk f x || !s.eqOk f q then (s, some (admErr 6))
        else if l.any (fun r => r.fn == f) then (s, some (admErr 1))
        else if s.treeLocals m ≤ l.length then (s, some (admErr 5))
        else
          let i := lowFree 32 (fun i => l.any (fun r => r.idx == i)) 0
          let r : Reg := { fn := f, xctx := x, addr := a, len := len, eq := if q = 0xFFFF then 0 else q, idx := i
                           next := (s.tree m).nextOp }
          let s := (s.wake 18).withRegs (SMap.set [] s.regs tree (l ++ [r]))
          (s.showRegs tree, some (admOk i))))

/-- DEREG_RESULT_BUF. -/
def execDeregResultBuf (f : Fin 512) (s : State) : Out :=
  .next (s.adminSelf f 0x31 false (fun s e =>
    let tree := fld e 4 2
    let l := s.regsOf tree
    if !l.any (fun r => r.fn == f) then (s, some (admErr 6))
    else if s.work.any (fun e => match e.2 with
        | some x => x.fn == f && wop x == 7 && waux x == tree && x.fin.isNone && x.qid != adminQ
        | none => false) then (s, some (admErr 1))
    else
      let s := s.withRegs (SMap.set [] s.regs tree (l.filter (fun r => r.fn != f)))
      (s.showRegs tree, some admOk)))

end Sys2Proof.Machine
end

