-- ==== Sys2Proof/Machine/Command.lean ====
section
/-!
DEFINITION. Management requests and the stop commands (R188 to R199): authentication, execution in band and through CGC_CMD,
job teardown, and the probe responder.
-/
namespace Sys2Proof.Machine

namespace State

/-! Requests and responses (R188, R193 to R196). -/

/-- PERM bit of a command, if it is defined here (R188, R193, R367, R368). -/
def permOf (s : State) (cmd : Nat) : Option Nat :=
  if 1 ≤ cmd ∧ cmd ≤ 8 then some 0
  else if cmd = 9 then some 1
  else if cmd = 0x0A ∨ cmd = 0x10 then some 2
  else if cmd = 0x11 then some 3
  else if !s.inStack then none
  else if cmd = 0x12 then some 2
  else if cmd = 0x13 then some 3
  else if cmd / 4096 = 1 ∧ 1 ≤ cmd % 256 ∧ cmd % 256 ≤ 0x0C then some 4
  else none

/-- A stop command (R191): it passes every other management request. -/
def isStop (cmd : Nat) : Bool := decide (1 ≤ cmd) && decide (cmd ≤ 9)

/-- The value a request's payload carries: byte 0 is bits [7:0] (R196). -/
def reqValue (p : Pkt) : Nat := match p.pay with | q :: _ => leOf (sqBytes q 0 8) | [] => 0

/-- Own stack-control slot (R367). -/
def ownSlot (s : State) : Nat := s.ownMember

/-- Send a stack-control request to a member, and remember it (R367). -/
def sendStk (s : State) (member code arg len : Nat) (pay : List Square) : State × Nat :=
  let cmd := 0x1000 + member * 256 + code
  let (s, psn) := s.sendMgmt 0x80 s.ownSlot (faOfSvc s.moduleId 3) cmd arg len pay
  ((s.withStk { s.stk with sent := s.stk.sent ++ [({ psn := psn, cmd := cmd, member := member, at_ := s.now, arg := arg } : StkReq)] }), psn)

/-- This module is the master of its stack now (R360, R374). -/
def isMaster (s : State) : Bool :=
  s.inStack && s.rd R.STK_STAT_MASTER_NOW == s.ownMember && !s.rdB R.STK_STAT_DEPOSED

/-- The mirror of a slot's LAST_RX_PSN to the standby master (R373); answers the PSN it was sent with. -/
def sendMirror (s : State) (slot : Nat) (full : Bool) : State × Nat :=
  let m := (s.stk.mseq + 1) % 65536
  let s := s.withStk { s.stk with mseq := m }
  s.sendStk (s.rd R.STK_CFG_STANDBY_IDX) 0x0A
    (slot + 16 * b2n full + m * 2 ^ 16 + s.rd (R.CGC_KEY_PSN_LAST_RX_PSN slot) * 2 ^ 32) 0 []

/-- Take the oldest packet of the arbiter island that `hit` names. -/
def takeArb (hit : Pkt → Bool) : List (Pkt × Nat × Nat) → Option ((Pkt × Nat × Nat) × List (Pkt × Nat × Nat))
  | [] => none
  | x :: rest => if hit x.1 then some (x, rest) else (takeArb hit rest).map (fun r => (r.1, x :: r.2))

/-- The MGMT_REQ that is taken next: stop commands pass the others (R191). -/
def nextMgmt (l : List (Pkt × Nat × Nat)) : Option ((Pkt × Nat × Nat) × List (Pkt × Nat × Nat)) :=
  match takeArb (fun p => p.opcode == 0x80 && isStop p.cmd) l with
  | some x => some x
  | none => takeArb (fun p => p.opcode == 0x80) l

/-- CRC check of the arbiter island (R51, R195, R198). -/
def arbCrc (s : State) (p : Pkt) : State × Bool :=
  if crcOk p then (s, true) else ((s.bump R.CGC_E2E_CRC).e2eFail 714, false)

/-- The request of a packet. -/
def reqOf (p : Pkt) (inp : Nat) : MgmtReq :=
  { slot := p.keyId, cmd := p.cmd, arg := p.arg, psn := p.psn, src := p.srcFa, len := p.len, data := p.ptype
    value := reqValue p, port := inp, pay := p.pay }

/-- Checks 1 to 4 of R195, and the acceptance of a request. At the master of a stack, a request under a fabric-manager slot
waits for its mirror at the standby master (R373); a standby master that has taken over has none. -/
def checkReq (s : State) (p : Pkt) (inp : Nat) : State :=
  let k := p.keyId
  if 16 ≤ k ∨ s.rd (R.CGC_KEY_SLOT_VALID k) ≠ 1 ∨ s.rd (R.CGC_KEY_SLOT_SRC_FA k) ≠ p.srcFa ∨
      (s.rd (R.CGC_KEY_SLOT_ROLE k) = 1 ∧ s.inStack = false) then s.bump R.CGC_AUTH_NOKEY
  else if pktTag (s.slotKey k) p ≠ p.gmac then (s.bump R.CGC_AUTH_FAIL).fault 714 0x0B04 0 3
  else
    let d := (p.psn + 2 ^ 32 - s.rd (R.CGC_KEY_PSN_LAST_RX_PSN k)) % 2 ^ 32
    if d = 0 ∨ 2 ^ 31 ≤ d then s.bump R.CGC_AUTH_REPLAY
    else
      let s := s.wr (R.CGC_KEY_PSN_LAST_RX_PSN k) p.psn
      let r := reqOf p inp
      match s.permOf r.cmd with
      | none => s.respond r 3
      | some b =>
        if !bitOf (s.rd (R.CGC_KEY_SLOT_PERM k)) b then (s.bump R.CGC_AUTH_PERM).respond r 2
        else
          let s := if isStop r.cmd then s.bump R.CGC_STOP_RX else s
          let (s, mir) := if s.isMaster && s.rd (R.CGC_KEY_SLOT_ROLE k) == 0 && s.rd R.STK_CFG_STANDBY_IDX != s.ownMember then
              (match s.sendMirror k false with | (s, n) => (s, some n))
            else (s, none)
          (s.withCgc { s.cgc with reqs := s.cgc.reqs ++ [{ r with mirror := mir }] })

end State

open State

/-- MGMT_REQ_RX (R191, R195): the next MGMT_REQ at the arbiter island: the oldest stop command, else the oldest request. While the
processor does not run it is discarded (R445). -/
def execMgmtReqRx (s : State) : Out :=
  .next (match nextMgmt s.arbIn with
    | none => s
    | some ((p, inp, _), rest) =>
      let s := s.withArbIn rest
      if !s.arbRuns || s.pwr.warmAt.isSome then s
      else match s.arbCrc p with
        | (s, false) => s
        | (s, true) => s.checkReq p inp)

namespace State

/-- The request that is next: stop commands first, each kind in order of acceptance (R191). -/
def nextReq (s : State) : Option MgmtReq :=
  let l := s.cgc.reqs.filter (fun r => !r.begun)
  match l.find? (fun r => isStop r.cmd) with
  | some r => some r
  | none => l.head?

/-- Mark the request as begun. -/
def beginReq (s : State) (r : MgmtReq) : State :=
  (s.withCgc { s.cgc with reqs := s.cgc.reqs.map (fun (x : MgmtReq) => if x.slot == r.slot && x.psn == r.psn then { x with begun := true } else x) })

/-- Run an in-band command `cmd` when it is next; `f` answers the result and a value, or none while the answer is to come. -/
def inbandRow (s : State) (cmd : Nat → Bool) (f : State → MgmtReq → State × Option (Nat × Option Nat)) : State :=
  if !s.arbRuns then s
  else
    match s.nextReq with
    | none => s
    | some r =>
      if !cmd r.cmd || r.mirror.isSome then s
      else
        let s := s.wr R.CGC_CMD_STAT_LAST_CMD r.cmd
        match f s r with
        | (s, some (res, v)) => (s.dropReq r).respond r res v
        | (s, none) => s.beginReq r

/-- Run a command of R188 from either side: `f` gets whether the fabric manager holds it, the master identity and ARG, and
answers the result, or none while the answer is to come. -/
def mgmtRow (s : State) (src : CmdSrc) (cmd : Nat) (f : State → Bool → Nat → Nat → State × Option Nat) : State :=
  match src with
  | .inband => s.inbandRow (· == cmd) (fun s r => match f s true 2 r.arg with | (s, o) => (s, o.map (fun x => (x, none))))
  | .cmd m => s.gated m 0x800080 (fun s =>
      if s.rdB R.CGC_CMD_STAT_BUSY then s.wr R.CGC_CMD_STAT_RESULT 1
      else
        let s := s.wr R.CGC_CMD_STAT_LAST_CMD cmd
        let s := if isStop cmd then s.bump R.CGC_STOP_RX else s
        match f s (m == .manager) m.id (s.rd R.CGC_CMD_ARG_ARG) with
        | (s, some r) => s.wr R.CGC_CMD_STAT_RESULT r
        | (s, none) => s.wr R.CGC_CMD_STAT_BUSY 1)

/-! Quench (R189 to R191). -/

/-- Set or clear a holder's bit on a function. -/
def quenchFn (s : State) (fm : Bool) (f : Nat) (on : Bool) : State :=
  let s := s.wrB (if fm then R.CGC_FN_STAT_Q_FM f else R.CGC_FN_STAT_Q_CMDR f) on
  let s := if on then s.stopPackets (fun fn _ => fn == some f) else s
  (s.showQuench f).sweepFrozen

/-- Set or clear a holder's bit on a job context. -/
def quenchJob (s : State) (fm : Bool) (j : Nat) (on : Bool) : State :=
  let s := s.setJobBits j (setBits (s.jobBits j) (b2n fm) 1 (b2n on))
  let s := if on then s.stopPackets (fun _ job => job == some j) else s
  s.sweepFrozen

/-- Set or clear a holder's bit on the module. -/
def quenchAll (s : State) (fm : Bool) (on : Bool) : State :=
  let s := s.wrB (if fm then R.CGC_CMD_STAT_ALL_FM else R.CGC_CMD_STAT_ALL_CMDR) on
  let s := if on then s.stopPackets (fun fn _ => fn.isSome) else s
  ((List.range 512).foldl showQuench s).sweepFrozen

/-! Job teardown (R191, R313). -/

/-- The entries of a queue end without completions, and their slots return. -/
def dropEntries (s : State) (k : Wq) : State :=
  let held := (k.ents.filter (fun w => match s.workEnt w with | some x => x.opens && (x.fin.isNone || !k.recv) | none => false)).length
  let s := match s.cqOf k.fn k.cq with
    | some r => s.setCq k.fn k.cq (some { r with reserved := r.reserved - held })
    | none => s
  let s := k.ents.foldl (fun s w => match s.workEnt w with
    | some x => (s.drainKey x.key).setWork w none
    | none => s) s
  s.setWq k.fn k.qid (some { k with ents := [], runLen := 0, job := 0xFFFF, state := if k.state = 2 then 1 else k.state })

/-- Its domains, and the messages in them, are released. -/
def dropJobDomains (s : State) (j : Nat) : State :=
  s.mtc.doms.foldl (fun s e => match e.2 with
    | some d =>
      if d.job ≠ j then s
      else
        let s := s.liveMsgs.foldl (fun s m => if m.2.fn = d.fn ∧ m.2.dom = d.num then s.freeMsg m.1 else s) s
        (s.dropSeq d.fn d.num).setDom d.fn d.num none
    | none => s) s

/-- TEARDOWN_JOB on a context in use (R191): quenched, its work ended, its domains released. Its queues stay, without a job
context (R226). While its teardown is pending, a further holder's command still quenches it. -/
def teardownJob (s : State) (fm : Bool) (j : Nat) : State :=
  match s.job j with
  | none => s
  | some _ =>
    if s.cgc.jobsDown.contains j then s.quenchJob fm j true
    else
      let s := s.quenchJob fm j true
      let s := s.wqs.foldl (fun s e => match e.2 with
        | some k => if k.job = j ∧ k.qid ≠ adminQ then s.dropEntries k else s
        | none => s) s
      let s := s.dropJobDomains j
      ((s.wr R.CGC_CMD_STAT_TEARDOWN_PENDING 1).withCgc { s.cgc with jobsDown := s.cgc.jobsDown ++ [j] })

end State

/-- QUENCH_FN (R189, R190). -/
def execQuenchFn (src : CmdSrc) (s : State) : Out :=
  .next (s.mgmtRow src 1 (fun s fm _ a => (s.quenchFn fm (a % 512) true, some 0)))

/-- UNQUENCH_FN (R189). -/
def execUnquenchFn (src : CmdSrc) (s : State) : Out :=
  .next (s.mgmtRow src 2 (fun s fm _ a => (s.quenchFn fm (a % 512) false, some 0)))

/-- QUENCH_JOB (R189, R190). -/
def execQuenchJob (src : CmdSrc) (s : State) : Out :=
  .next (s.mgmtRow src 3 (fun s fm _ a => (s.quenchJob fm (a % 4096) true, some 0)))

/-- UNQUENCH_JOB (R189). -/
def execUnquenchJob (src : CmdSrc) (s : State) : Out :=
  .next (s.mgmtRow src 4 (fun s fm _ a => (s.quenchJob fm (a % 4096) false, some 0)))

/-- QUENCH_ALL (R189, R190). -/
def execQuenchAll (src : CmdSrc) (s : State) : Out :=
  .next (s.mgmtRow src 5 (fun s fm _ _ => (s.quenchAll fm true, some 0)))

/-- UNQUENCH_ALL (R189). -/
def execUnquenchAll (src : CmdSrc) (s : State) : Out :=
  .next (s.mgmtRow src 6 (fun s fm _ _ => (s.quenchAll fm false, some 0)))

/-- TEARDOWN_JOB (R191). -/
def execTeardownJob (src : CmdSrc) (s : State) : Out :=
  .next (s.mgmtRow src 7 (fun s fm _ a => (s.teardownJob fm (a % 4096), some 0)))

/-- TEARDOWN_JOB_DONE (R189, R191, R357): the context is released, its quench bits clear, its purges are planned. -/
def execTeardownJobDone (j : BitVec 12) (s : State) : Out :=
  .next (if !s.cgc.jobsDown.contains j.toNat then s
    else
      let l := s.cgc.jobsDown.filter (· != j.toNat)
      let s := s.withCgc { s.cgc with jobsDown := l }
      let s := match s.job j.toNat with | some k => s.endJob j.toNat k | none => s
      if l.isEmpty then s.wr R.CGC_CMD_STAT_TEARDOWN_PENDING 0 else s)

/-! ## Probes (R198, R199) -/

namespace State

/-- Build a PROBE (R199); TX_TIME is written at the hand-over. DESIGN CHOICE (log entry 110): PIN is 0. -/
def sendProbe (s : State) (target id mark : Nat) : State :=
  let p := mkPkt { dest := faOfSvc target 0, src := faOfSvc s.moduleId 0, opcode := 0xA0 } (mkArea [(32, 8, id)]) []
  s.build 2 p none none none (some mark) false

/-- PROBE_SEND by a master with argument a: BAD_ARG, or a PROBE whose admission answers the command (R199). -/
def probeCmd (s : State) (id a mark : Nat) : State × Option Nat :=
  if bitsOf a 18 14 ≠ 0 then (s, some 4) else (s.sendProbe (bitsOf a 0 18) (bitsOf a 32 32 + id * 2 ^ 32) mark, none)

/-- Take the head of the probe queue when it has opcode `op`. -/
def withProbe (s : State) (op : Nat) (f : State → Pkt → Nat → State) : State :=
  match takeArb (fun p => p.cls == 5) s.arbIn with
  | none => s
  | some ((p, _, t), rest) =>
    if p.opcode ≠ op then s
    else
      match (s.withArbIn rest : State).arbCrc p with
      | (s, false) => s
      | (s, true) => f s p t

end State

/-- PROBE_SEND (R199). -/
def execProbeSend (src : CmdSrc) (s : State) : Out :=
  .next (match src with
    | .inband => s.inbandRow (· == 0x0A) (fun s r => match s.probeCmd 2 r.arg (probeMark (some r)) with
      | (s, o) => (s, o.map (fun x => (x, none))))
    | .cmd _ => s.mgmtRow src 0x0A (fun s _ id a => s.probeCmd id a (probeMark none)))

/-- PROBE_RX (R198). -/
def execProbeRx (s : State) : Out :=
  .next (s.withProbe 0xA0 (fun s p t =>
    if !faSvc p.srcFa || faService p.srcFa != 0 then s.bump R.CGC_PROBE_DISC
    else
      let e := mkPkt { dest := p.srcFa, src := faOfSvc s.moduleId 0, opcode := 0xA1 }
        (mkArea [(32, 8, p.probeId), (40, 8, p.txTime), (48, 8, t)]) []
      (s.bump R.CGC_PROBE_RX).build 2 e none none none none false))

/-- PROBE_ECHO_RX (R198). -/
def execProbeEchoRx (s : State) : Out :=
  .next (s.withProbe 0xA1 (fun s p t =>
    let s := (s.wr R.CGC_PROBE_LAST0_PROBE_ID p.probeId).wr R.CGC_PROBE_LAST1_TX_TIME p.txTime
    let s := (s.wr R.CGC_PROBE_LAST2_RX_TIME p.rxTime).wr R.CGC_PROBE_LAST3_ARRIVAL t
    (s.wr R.CGC_PROBE_LAST4_ECHO_SRC p.srcFa).bump R.CGC_PROBE_ECHO_RX))

end Sys2Proof.Machine
end

