-- ==== Sys2Proof/Machine/RegFile.lean ====
section
/-!
DEFINITION. The register file by map offset (R8, R9, R380): which register an offset names, its word, and a write of its fields.
-/
namespace Sys2Proof.Machine

/-- `q` is the distance of an instance of an array with these dimensions from its first instance. -/
def inDims : List (Nat × Nat) → Nat → Bool
  | [], q => q == 0
  | (n, st) :: rest, q => decide (q / st < n) && inDims rest (q % st)

/-- The register at an 8-byte-aligned map offset; none where no block defines one. -/
def regAt (off : Nat) : Option RegDef :=
  if off % 8 ≠ 0 then none
  else regTable.find? (fun d => decide (d.base ≤ off) && inDims d.dims (off - d.base))

/-- A field of the register at `off` in the register file. -/
def fieldRef (off : Nat) (f : FieldDef) : FRef := ⟨8 * off + f.lo, f.width, f.rst⟩

/-- The block of an offset has RWL fields, and this is its lock bit (R385). -/
def blockLock (off : Nat) : Option FRef :=
  if off < 0x10000 then none
  else if off < 0x20000 then some R.GLB_LOCK_SEC_LOCK
  else if off < 0x30000 then some R.GLB_LOCK_PWR_LOCK
  else if off < 0x40000 then some R.GLB_LOCK_FLT_LOCK
  else if off < 0x80000 then some R.GLB_LOCK_TIM_LOCK
  else none

/-- The bits that exist of word `w` of a routing entry (R160, R362): eight bytes of candidates and weights; the seed, CTL, SLVL and the first
member nibbles; the member nibbles of bytes 40 to 51. -/
def entryBits (w : Nat) : Nat :=
  if w < 4 then 0x0FFF0FFF0FFF0FFF else if w = 4 then 0x0F0F0F0F3F07FFFF else if w = 5 then 0x0F0F0F0F0F0F0F0F else if w = 6 then 0x0F0F0F0F else 0

/-- The bits that exist of word `w` of a multicast mask entry (R171). -/
def maskBits (w : Nat) : Nat := if w < 4 then 2 ^ 64 - 1 else if w = 4 then 0x0FFF009F else 0

/-- The bits of the register at `off` that exist, of a table whose entries are whole words; the others are reserved, read zero and ignore
writes (R8, R160, R171, R322). -/
def liveBits (off : Nat) : Nat :=
  if off < 0x410000 then 2 ^ 64 - 1
  else if off < 0x430000 then entryBits (off % 64 / 8)
  else if off < 0x440000 then 2 ^ 64 - 1
  else if off < 0x4C0000 then maskBits (off % 64 / 8)
  else if off < 0x500000 then 2 ^ 64 - 1
  else if off < 0x700000 then entryBits (off % 64 / 8)
  else if off < 0xD10000 then 2 ^ 64 - 1
  else if off < 0xD30000 then (if off % 16 < 8 then 2 ^ 36 - 1 else 2 ^ 48 - 1)
  else 2 ^ 64 - 1

namespace State

/-- The map offset whose register answers in the LNK block (R125): the odd half of an x8 port shows the even half, and the slot
of a second port reads zero unless the group carries two x2 ports. -/
def lnkTarget (s : State) (o : Nat) : Option Nat :=
  let g := (o - 0x200000) / 0x1000
  if s.groupWidth g = 3 ∧ g % 2 = 1 then (if o % 0x1000 < 0x800 then some (o - 0x1000) else none)
  else if 0x800 ≤ o % 0x1000 ∧ s.groupWidth g ≠ 1 then none
  else some o

/-- The word of a register's stored fields; WO fields read zero. -/
def fieldsWord (s : State) (off : Nat) (d : RegDef) : Nat :=
  (d.fields.map (fun f => if f.acc = .wo then 0 else s.rd (fieldRef off f) * 2 ^ f.lo)).sum

/-- The register's block is locked. -/
def blockLocked (s : State) (off : Nat) : Bool := match blockLock off with | some l => s.rdB l | none => false

/-- Write the fields of a register that a write of bits [lo, hi) covers: RW fields take the value, but for RWL fields of a locked
block; a 1 clears a W1C bit (R9, R381, R385). -/
def writeFields (s : State) (off : Nat) (d : RegDef) (lo hi v : Nat) : State :=
  d.fields.foldl (fun s f =>
    let a := max lo f.lo
    let b := min hi (f.lo + f.width)
    if b ≤ a then s
    else
      let old := s.rd (fieldRef off f)
      let new := setBits old (a - f.lo) (b - a) (bitsOf v a (b - a))
      match f.acc with
      | .rw => if f.rwl && s.blockLocked off then s else s.wr (fieldRef off f) new
      | .w1c => s.wr (fieldRef off f) (old - (old &&& (bitsOf v a (b - a) * 2 ^ (a - f.lo))))
      | .ro => s
      | .wo => s) s

/-- A value put into the RW fields of a register. -/
def putRw (s : State) (off v : Nat) : State :=
  match regAt off with
  | none => s
  | some d => (d.fields.filter (fun f => f.acc == .rw)).foldl (fun (s : State) f => s.wr (fieldRef off f) ((v &&& liveBits off) / 2 ^ f.lo)) s

/-- RW fields of the registers in map offsets `lo` to `hi` at their reset values. -/
def resetRw (s : State) (lo hi : Nat) : State :=
  (s.withFlds (s.flds.keep (fun k => !(decide (lo ≤ k / 8) && decide (k / 8 ≤ hi) &&
      (match regAt (k / 64 * 8) with | some d => d.fields.any (fun f => f.lo == k % 64 && f.acc == .rw) | none => false)))))

end State
end Sys2Proof.Machine
end

