-- ==== Sys2Proof/Machine/UnitOps.lean ====
section
/-!
DEFINITION. Units taken out of service and brought back (R35, R38, R439), island resets (R481), and what the Opening gives a
tile, a port group and a host port (R406 to R410).
-/
namespace Sys2Proof.Machine.State

/-! What the Opening gives (R406 to R408, R410). -/

/-- The Opening's WIDTH code of port group g. -/
def openWidth (o : Opening) (g : Nat) : Nat := bitsOf (o.portMap.getD g 0) 0 2

/-- Both banks of the lane equalisation sets of tile t, and the sets in force, take the Opening's (R96, R407). -/
def openEq (s : State) (o : Opening) (t : Nat) : State :=
  (List.range 32).foldl (fun s i =>
    let l := 32 * t + i
    let v := o.txEq.getD l 0
    ((s.setLane l { s.lane l with bank := v % 2 ^ 25 }).setEqShadow l v).inForce l v) s

/-- Width of port group g: its WIDTH code, in LT_TILE_STAT, and the replay window that goes with it (R112). -/
def setWidth (s : State) (g w : Nat) : State :=
  let s := s.wr (R.LT_TILE_STAT_WIDTH (g / 8)) (setBits (s.rd (R.LT_TILE_STAT_WIDTH (g / 8))) (2 * (g % 8)) 2 w)
  let n := if w = 0 then 0 else windowRows (if w = 1 then 2 else if w = 3 then 8 else 4)
  (s.wr (R.LNK_REPLAY_STAT_WINDOW g 0) n).wr (R.LNK_REPLAY_STAT_WINDOW g 1) n

/-- LNK fields that the Opening sets for port group g: DEGRADE_EN, and the records of TABLE_DEFAULTS that lie in its block
(R406, R411). -/
def openLnk (s : State) (o : Opening) (g : Nat) : State :=
  let d := b2n (bitOf (o.portMap.getD g 0) 2)
  let s := (s.wr (R.LNK_CTL_DEGRADE_EN g 0) d).wr (R.LNK_CTL_DEGRADE_EN g 1) d
  (o.defaults.filter (fun x => decide (0x200000 + 0x1000 * g ≤ x.1) && decide (x.1 < 0x201000 + 0x1000 * g))).foldl
    (fun (s : State) x => s.putRw x.1 x.2) s

/-- Squares reserved for the fabric logical ports formed and the live local inputs (R130). -/
def reserved (s : State) (o : Opening) : Nat :=
  let ports := (s.formedPorts.map (fun p => 65 * ((List.range 16).filter (bitOf (s.port p).vlMask)).length + (s.port p).grant)).sum
  let live := [0, 1, 2] ++ ((List.range 4).filter (fun p => s.rdB (R.HPT_PORT_CFG_ENABLE p))).map (· + 3)
  ports + (live.map (fun i => 8 + 15 * o.guarVl.getD i 0)).sum

/-- Squares of the banks in use (R126, R146). -/
def bankSquares (s : State) : Nat := 3145728 - 8192 * (s.flt.fencedBanks.length - 6)

/-! Rooks and pawns as MTC_PAWN_STAT and COL_ROOK_STAT show them (R318, R347). -/

/-- Pawn n takes no part: absent on the variant, or held in reset in Switch and Stack mode (R26). -/
def pawnAbsent (s : State) (n : Nat) : Bool :=
  (s.isS0 && decide (8 ≤ n)) ||
    ((s.mode == 3 || s.mode == 4) && !s.rdB (R.MTC_PAWN_STAT_SERVICE n) && !s.rdB (R.MTC_PAWN_STAT_SPARE n))

/-- STATE of a pawn or rook: 1 active; 2 isolated, held or in the self-check that ends an isolation; 3 fenced. -/
def engineState (s : State) (u : Nat) : Nat :=
  if s.rd (R.FLT_UNIT_STATE u) = 3 then 3
  else if s.isolated u || s.unitDown u || s.arb.returning.contains u then 2 else 1

def showPawn (s : State) (n : Nat) : State :=
  s.wr (R.MTC_PAWN_STAT_STATE n) (if s.pawnAbsent n then 0 else s.engineState (148 + n))
def showRook (s : State) (r : Nat) : State := s.wr (R.COL_ROOK_STAT_STATE r) (s.engineState (252 + r))

/-! Taking a unit out (R35, R439). -/

/-- Entries in flight, started and not ended, of pawn n: those of its send queues and those on its connections. -/
def pawnWork (s : State) (n : Nat) : List Nat :=
  let on := fun (x : WorkEnt) => match x.cid.bind s.conn with | some c => c.pawn == n | none => false
  s.work.filterMap (fun e => match e.2 with
    | some x => match s.wq x.fn x.qid with
      | some k => if (k.pawn == n || on x) && !k.recv && k.qid != adminQ && x.started && x.fin.isNone then some e.1 else none
      | none => none
    | none => none)

/-- Pawn n has an operation in flight: such an entry, or a connection with packets outstanding. -/
def pawnBusy (s : State) (n : Nat) : Bool :=
  !(s.pawnWork n).isEmpty || s.xpt.conns.any (fun e => match e.2 with
    | some c => c.pawn == n && !c.outst.isEmpty
    | none => false)

/-- The queues, connections and domains of pawn n pass to the pawns that R315 chooses. -/
def movePawn (s : State) (n : Nat) : State :=
  let s := s.wqs.foldl (fun s e => match e.2 with
    | some k => if k.pawn = n then (match s.choosePawn s.pawnWqs with
        | some m => s.setWq k.fn k.qid (some { k with pawn := m })
        | none => s) else s
    | none => s) s
  let s := s.xpt.conns.foldl (fun s e => match e.2 with
    | some c => if c.pawn = n then (match s.choosePawn s.pawnConns with
        | some m => s.setConn e.1 (some { c with pawn := m })
        | none => s) else s
    | none => s) s
  s.mtc.doms.foldl (fun s e => match e.2 with
    | some d => if d.home = n then (match s.choosePawn s.pawnDoms with
        | some m => s.setDom d.fn d.num (some { d with home := m })
        | none => s) else s
    | none => s) s

/-- Pawn n leaves service as with FORCE: operations in flight end with ENGINE_ISOLATED. -/
def takePawn (s : State) (n : Nat) : State :=
  let s := s.showPawn n
  let s := (s.pawnWork n).foldl (fun s w => s.complete w 15 0 0) s
  s.movePawn n

/-- Trees with slots on rook r are unseated with reason ROOK_ISOLATED (R35, R337). -/
def takeRook (s : State) (r : Nat) : State :=
  let s := s.showRook r
  (List.range 4096).foldl (fun s m =>
    if s.treeState m ≥ 2 && (s.tree m).reserved && s.rd (R.COL_TREE_STAT_ROOK m) == r then s.unseat m 6 s.moduleId none else s) s

/-- Port p is in DISABLED with cause 11 (R390, R433): a link that was not goes down with LRESET (R503). -/
def disablePort (s : State) (p : Nat) : State := if s.linkState p = 0 then s.wr (lnkCause p) 11 else s.linkDisable p

/-- The ports of a port group go down (R35). -/
def takeGroup (s : State) (g : Nat) : State := (s.portsOfGroup g).foldl disablePort s

/-- A lane tile goes under test, and its port groups go down. -/
def takeTile (s : State) (t : Nat) : State :=
  let s := (List.range 8).foldl (fun s i => s.takeGroup (8 * t + i)) s
  s.setIsland t 3

/-- A host port: functions torn down with cause 5, link disabled, host complex under test. -/
def takeHost (s : State) (p : Nat) : State :=
  let s := (s.hostPortDown p).emit (.hostLink p false)
  s.setIsland (19 + p) 3

/-- Note that the island of a tile or host port was parked when it was taken out (R38). -/
def noteParked (s : State) (u : Nat) : State :=
  let k := if u < 16 then u else u - 144 + 19
  if (u < 16 ∨ (144 ≤ u ∧ u < 148)) ∧ s.island k = 2 then (s.withArb { s.arb with wasParked := s.arb.wasParked ++ [u] }) else s

/-- Take unit u of R33 out of service. -/
def takeUnit (s : State) (u : Nat) : State :=
  let s := s.noteParked u
  if u < 16 then s.takeTile u
  else if u < 144 then s.takeGroup (u - 16)
  else if u < 148 then s.takeHost (u - 144)
  else if u < 252 then s.takePawn (u - 148)
  else s.takeRook (u - 252)

/-! Island resets (R481). -/

/-- Squares between port p's lane tile and the switch core when the tile is reset are lost, and the switch core counts them (R15). -/
def loseCrossing (s : State) (p : Nat) : State :=
  let st := s.port p
  let s := (s.crossingLoss (st.rx.length + st.tx.length)).setPort p { st with rx := [], tx := [] }
  match st.rxCur with
  | some c => (s.modPort p (fun st => { st with rxCur := none })).cutPacket c.pid none
  | none => s

/-- Every LT and LNK register of tile t at its reset or Opening value, counters cleared, lanes healthy and in reset; the rate
and widths in force stay (R96, R392, R481). -/
def resetTile (s : State) (t : Nat) : State :=
  let rate := s.rd (R.LT_TILE_STAT_RATE t)
  let widths := (List.range 8).map (fun i => s.groupWidth (8 * t + i))
  let s := (List.range 16).foldl (fun s i => s.loseCrossing (16 * t + i)) s
  let s := (List.range 16).foldl (fun s i => if s.linkState (16 * t + i) = 0 then s else s.dropLink (16 * t + i)) s
  let s := s.resetRange (0x100000 + 0x10000 * t) (0x10FFFF + 0x10000 * t)
  let s := s.resetRange (0x200000 + 0x8000 * t) (0x207FFF + 0x8000 * t)
  let s := (List.range 32).foldl (fun s l => s.setLane (32 * t + l) {}) s
  let s := (List.range 16).foldl (fun s i =>
    (s.modPort (16 * t + i) (fun st => { st with line := {}, lreset := none, precodeReq := none })).unalign (16 * t + i)) s
  let s := s.wr (R.LT_TILE_STAT_RATE t) rate
  let s := (List.range 8).foldl (fun s i => s.setWidth (8 * t + i) (widths.getD i 0)) s
  let s := match s.opening with
    | some o => (List.range 8).foldl (fun (s : State) i => s.openLnk o (8 * t + i)) (s.openEq o t)
    | none => s
  let s := s.setIsland t 0
  (List.range 16).foldl (fun s i => s.leaveDisabled (16 * t + i)) s

/-- Packets of local input i between its island and the switch core when the island is reset are lost, and counted (R15). -/
def loseLocal (s : State) (i : Nat) : State :=
  let s := s.crossingLoss ((List.range 16).map (fun v => (s.localQ i v).length)).sum
  let s := (List.range 16).foldl (fun s v => s.setLocalQ i v []) s
  (s.noteWaiting i).noteCongestion i

/-- A counter of the HPT block (R230), by its place in the block. -/
def hostCounter (r : Nat) : Bool :=
  (decide (0x100 ≤ r) && decide (r < 0x120)) ||
    (decide (0x10000 ≤ r) && decide (r < 0x20000) && decide (0x40 ≤ r % 0x100) && decide (r % 0x100 < 0x78))

/-- Every HPT register of host port p at its reset or Opening value, the counters with it at an island reset (R481) but not at a restart of
the port (R230, R391); the values of R390 in force stay, and an enabled port presents its PF and trains. -/
def resetHost (s : State) (p : Nat) (counters : Bool) : State :=
  let s := s.loseLocal (3 + p)
  let s := s.hostPortDown p
  let s := (List.range 128).foldl (fun s n => (s.retireTags (128 * p + 127 - n)).endTeardown (128 * p + 127 - n)) s
  let en := s.rdB (R.HPT_PORT_CFG_ENABLE p)
  let gen := s.rd (R.HPT_PORT_CFG_MAX_GEN p)
  let x8 := s.rd (R.HPT_PORT_CFG_MAX_X8 p)
  let vfs := s.rd (R.HPT_PORT_CFG_TOTAL_VFS p)
  let jobs := s.rd (R.HPT_PORT_CFG_JOB_POOL p)
  let wq := s.rd (R.HPT_PORT_POOL_WQ p)
  let cq := s.rd (R.HPT_PORT_POOL_CQ p)
  let eq := s.rd (R.HPT_PORT_POOL_EQ p)
  let base := 0x900000 + 0x40000 * p
  let s := s.withFlds (s.flds.keep (fun k => !(decide (base ≤ k / 8) && decide (k / 8 < base + 0x40000) &&
    (counters || !hostCounter (keyOff k - base)))))
  let s := (((s.wrB (R.HPT_PORT_CFG_ENABLE p) en).wr (R.HPT_PORT_CFG_MAX_GEN p) gen).wr (R.HPT_PORT_CFG_MAX_X8 p) x8)
  let s := (s.wr (R.HPT_PORT_CFG_TOTAL_VFS p) vfs).wr (R.HPT_PORT_CFG_JOB_POOL p) jobs
  let s := ((s.wr (R.HPT_PORT_POOL_WQ p) wq).wr (R.HPT_PORT_POOL_CQ p) cq).wr (R.HPT_PORT_POOL_EQ p) eq
  let s := s.withFns (s.fns.filter (fun e => e.1 / 128 != p))
  let s := s.setIsland (19 + p) 0
  let s := if en then (s.wr (R.HPT_FN_STAT_ENABLED p 0) 1).emit (.hostLink p true) else s
  (List.range 128).foldl (fun s n => s.showQuench (128 * p + n)) s

/-- The engine complex: its translation caches are empty; contexts survive in module memory. Packets inside its crossings are lost (R15). -/
def resetEngines (s : State) : State :=
  let s := s.loseLocal 0
  let s := s.crossingLoss (s.engReq.length + s.engFwd.length + s.engRep.length)
  let s := ((s.withEngReq []).withEngFwd []).withEngRep []
  let s := s.invalidate (fun _ => true) (fun _ => true)
  ((s.setIsland 17 0).withTrn { s.trn with micro := [] })

/-- The collective complex: every slot is cleared (R481), and packets inside its crossings are lost (R15). -/
def resetCollective (s : State) : State :=
  let s := ((s.loseLocal 1).crossingLoss s.colIn.length).withColIn []
  let s := s.withTrees (SMap.mapAll {} s.trees (fun _ t => { t with op := t.op.map (fun o => { o with slots := [] }) }))
  s.setIsland 18 0

/-- The reset of island k that a command gives. -/
def resetIsland (s : State) (k : Nat) : State :=
  if k < 16 then s.resetTile k
  else if k = 17 then s.resetEngines
  else if k = 18 then s.resetCollective
  else if 19 ≤ k ∧ k ≤ 22 then s.resetHost (k - 19) true
  else s.setIsland k 0

/-! Bringing a unit back (R38). -/

/-- Nothing keeps unit u out of service. -/
def unitFree (s : State) (u : Nat) : Bool := !s.isolated u && !s.unitDown u

/-- Unit u returns when nothing keeps it out: a tile or host complex by an island reset, or to the parked state it had; a
port group's ports go to RESET; a pawn or rook, whose island wakes, begins its self-check, which no other test of it precedes. -/
def returnUnit (s : State) (u : Nat) : State :=
  if !s.unitFree u then s
  else if u < 16 ∨ (144 ≤ u ∧ u < 148) then
    let k := if u < 16 then u else u - 144 + 19
    if s.arb.wasParked.contains u then ((s.setIsland k 2).withArb { s.arb with wasParked := s.arb.wasParked.filter (· != u) })
    else s.resetIsland k
  else if u < 144 then (s.portsOfGroup (u - 16)).foldl leaveDisabled s
  else
    let s := s.wake (if u < 252 then 17 else 18)
    let s := s.withArb { s.arb with returning := if s.arb.returning.contains u then s.arb.returning else s.arb.returning ++ [u] }
    let r := regionOf u
    let s := s.openRound u
    let s := s.withFlt { s.flt with
      pending := s.flt.pending.filter (fun t => t.1 != r), running := s.flt.running.filter (fun t => t.1 != r) ++ [(r, u)] }
    let s := (s.showPending u).wr (R.FLT_UNIT_STATE u) 2
    if u < 252 then s.showPawn (u - 148) else s.showRook (u - 252)

/-- A port group has returned: each of its ports has left RESET for DETECT, or LNK_CTL.DISABLE holds it in DISABLED; DEDUCED: or anything
else does, such as a fence, a hold or a parked tile (log entry 108). -/
def groupBack (s : State) (g : Nat) : Bool :=
  (s.portsOfGroup g).all (fun p => decide (2 ≤ s.linkState p) || (s.linkState p == 0 && s.heldDisabled p))

/-- The units that are absent (R34). -/
def unitAbsent (s : State) (u : Nat) : Bool :=
  decide (288 ≤ u) || (s.isS0 && ((decide (144 ≤ u) && decide (u < 148)) || (decide (156 ≤ u) && decide (u < 252))))

/-! Isolation and the test access port (R37, R496, R497). -/

/-- Every unit of the module is isolated: ALL (R37). -/
def allIsolated (s : State) : Bool := (List.range 288).all (fun u => s.unitAbsent u || s.isolated u)

/-- Mask of the cells from cell a on, n of them. -/
def cellRun (a n : Nat) : Nat := (2 ^ n - 1) * 2 ^ a

/-- Cells that exist and drive: all 1,794 but, on S0, the host ports' (R497). -/
def cellsAll : Nat := if Config.fuseVariant then cellRun 0 66 + cellRun 258 1536 else cellRun 0 1794

/-- Cells of the lanes whose isolation is in place for the AC tests: lane tiles, host ports, and the management port while its link
is down (R37, R496). -/
def acCells (s : State) : Nat :=
  if s.allIsolated then cellsAll
  else
    (if s.mgmtUp then 0 else cellRun 54 12) +
      ((List.range 4).map (fun p => if s.isolated (144 + p) && !s.isS0 then cellRun (66 + 48 * p) 48 else 0)).sum +
      ((List.range 16).map (fun t => if s.isolated t then cellRun (258 + 96 * t) 96 else 0)).sum

/-- The instruction that acts ends when the isolation it relies on ends: the port acts as BYPASS (R496). -/
def tapCheck (s : State) : State :=
  let ends := (decide (3 ≤ s.tap.active) && decide (s.tap.active ≤ 5) && !s.allIsolated) ||
    ((s.tap.active == 6 || s.tap.active == 7) && (match s.tap.drive with | some (m, _) => m &&& s.acCells != m | none => false))
  if ends then (s.withTap { s.tap with active := 0xFF, drive := none }) else s

end Sys2Proof.Machine.State
end

