-- ==== Sys2Proof/Machine/Strobe.lean ====
section
/-!
DEFINITION. The castle strobe (R155, R179, R387, R388): the swap of a strobe group, what it changes at once, and the copy into the new
shadow bank.
-/
namespace Sys2Proof.Machine

/-- The first register of the table entry that a shadow register belongs to: an entry is copied whole (R179). -/
def entryBase (off : Nat) : Nat :=
  if (0x410000 ≤ off ∧ off < 0x700000) then off / 64 * 64
  else if (0x80100 ≤ off ∧ off < 0x80300) ∨ (0xD10000 ≤ off ∧ off < 0xD30000) then off / 16 * 16
  else if 0x340000 ≤ off ∧ off < 0x348000 then off / 64 * 64
  else off / 8 * 8

/-- The strobe part of a mask bit that is set; none is reserved (R387). -/
def maskOk (mask : Nat) : Bool := mask != 0 && (mask &&& 0xFFFFFFFF0000FFF0) == 0
def maskParts (mask : Nat) : List Nat := (List.range 32).filter (bitOf mask)

namespace State

/-- Copy the active bank of a part into its shadow bank, except the entries written since the swap (R179). -/
def copyBank (s : State) (part : Nat) : State :=
  let skip := s.sinceSwap.map entryBase
  let drops := fun (k : Nat) => match bankOf (keyOff k) with
    | some (q, act, off) => q == part && !act && s.strobes off && !skip.contains (entryBase (keyOff k))
    | none => false
  let kept := s.flds.keep (fun k => !drops k)
  (s.withFlds (s.flds.foldl (fun m e => match bankOf (keyOff e.1) with
      | some (q, act, off) =>
        if q = part && act && s.strobes off && !skip.contains (entryBase off) then SMap.set 0 m (8 * off + e.1 % 64) e.2 else m
      | none => m) kept))

/-- The COPYING bits of GLB_STROBE_STAT and RTE_STAT follow the parts that copy (R179, R388). -/
def showCopying (s : State) : State :=
  let s := s.wr R.GLB_STROBE_STAT_COPYING (((List.range 4).filter s.copying.contains).foldl (fun a i => a + 2 ^ i) 0)
  s.wrB R.RTE_STAT_COPYING ([0, 1, 3].any s.copying.contains)

/-- Tokens of every shaper and policer after their sets have swapped (R155). -/
def initTokens (s : State) : State :=
  let s := (List.range 1036).foldl (fun s i =>
    let o := i / 4
    let t := i % 4
    s.wr (R.SWC_SHP_CRED_CREDIT o t) (if s.rdB (R.SWC_SHP_ACT_TOKEN_INIT o t) then s.rd (R.SWC_SHP_ACT_HI o t) * 4096 else 0)) s
  (List.range 512).foldl (fun s f =>
    let on := s.rdB (R.SWC_POL_CTL_ACT_TOKEN_INIT f)
    let c := if on then max 65 (s.rd (R.SWC_POL_RATE_C_ACT_BURST f)) else 0
    let p := if on then max 65 (s.rd (R.SWC_POL_RATE_P_ACT_BURST f)) else 0
    let s := s.withPol (SMap.set {} s.pol f { c := c * polUnit, p := p * polUnit })
    (s.wr (R.SWC_POL_TOK_C f) c).wr (R.SWC_POL_TOK_P f) p) s

/-- Tree entry m or its mask entry differs between the banks (R328). -/
def treeDiffers (s : State) (m : Nat) : Bool :=
  s.rd (R.COL_TREE_A m) != s.rd (R.COL_TREE_A_ACT m) || s.rd (R.COL_TREE_B m) != s.rd (R.COL_TREE_B_ACT m) ||
    (List.range 8).any (fun w => s.rd (R.RTE_MC_TBL m w) != s.rd (R.RTE_MC_TBL_ACT m w))

/-- The collective complex's packets that wait for their lookup keep the bank that is active now (R328, R389): an UNSEAT goes where the
tree's old entry says. -/
def keepBank (s : State) : State :=
  s.withLin (SMap.mapAll [] s.lin (fun _ l => l.map (fun x =>
    if x.pkt.cls == 3 && !x.waiting && x.bank.isNone then { x with bank := some s.swc.treeBank } else x)))

/-- A packet of the bank that is now the shadow bank is still on its way to its lookup or to the collective complex. -/
def oldBankUse (s : State) : Bool :=
  let old := fun (b : Nat) => b != s.swc.treeBank
  s.lin.any (fun e => e.2.any (fun x => !x.waiting && x.bank.any old)) || s.colIn.any (fun x => old x.bank) ||
    (List.range 16).any (fun v => (s.queue 257 v).any (fun e => old e.bank))

/-- The swap of the tree tables: trees whose entries change are unseated first, entries take their state, registrations end
(R325, R328, R329). -/
def beforeTrees (s : State) : State :=
  ((List.range 4096).foldl (fun s m => if s.treeState m ≥ 2 && s.treeDiffers m then s.treeChanged m else s) s).keepBank
def afterTrees (s : State) (jobs : Nat → Option Nat) (olds : List Nat) : State :=
  let s := ((List.range 4096).foldl (fun s m => s.treeState_ m) s).dropRegs jobs
  let s := olds.foldl (fun s m => s.wr (R.COL_TREE_STAT_REGISTERED m) 0) s
  s.regs.foldl (fun s e => s.showRegs e.1) s

/-- The equalisation sets of lane tile t swap (R83): the new active bank is in force at once on a lane that is not training. -/
def swapLanes (s : State) (t : Nat) : State :=
  (List.range 32).foldl (fun s i =>
    let l := 32 * t + i
    let old := (s.lane l).bank
    let new := s.eqShadow l
    let s := (s.setLane l { s.lane l with bank := new }).setEqShadow l old
    if s.rd (lnState l) = 1 then s else s.inForce l new) s

/-- The active bank of lane tile t is copied into its shadow bank, except the sets written since the swap (R179). -/
def copyLanes (s : State) (t : Nat) : State :=
  (List.range 32).foldl (fun s i =>
    let l := 32 * t + i
    if s.sinceSwap.contains (0x100110 + 0x10000 * t + 0x80 * i) then s else s.setEqShadow l (s.lane l).bank) s

/-- A packet in progress at a strobe is charged under the old shaper set (R155): the squares it still has to send charge no bucket of the
new one. VL0's shaper has no shadow set. -/
def oldCharges (s : State) : State :=
  let free := fun (c : Nat) => if c < 4 then 5 else c
  s.withPorts (SMap.mapAll {} s.ports (fun _ st =>
    { st with curTc := free st.curTc, tx := st.tx.map (fun q => { q with cls := free q.cls }), sent := st.sent.map free }))

/-- The tree tables have swapped (R328, R389): the collective complex wakes (R13), and packets already on their way to it keep their bank. -/
def flipTrees (s : State) : State := (s.withSwc { s.swc with treeBank := 1 - s.swc.treeBank }).wake 18

/-- The arbiter's copies are those of the banks that have become active (R443): an entry of one that has become a shadow bank waits for no
repair any more, and stays zero. -/
def renewCopies (s : State) (parts : List Nat) : State :=
  s.withFlt { s.flt with badTable := s.flt.badTable.filter (fun b => match bankOf b.1 with | some (q, _, _) => !parts.contains q | none => true) }

/-- The swap of a strobe group (R388): a stopped tile wakes, a tile that is parked or under test refuses, the rest swaps in
one cycle and begins to copy; GLB_STROBE_STAT shows it. -/
def swapGroup (s : State) (mask : Nat) : State :=
  let parts := maskParts mask
  let refused := (List.range 16).filter (fun t => parts.contains (16 + t) && s.refuses t)
  let done := parts.filter (fun q => decide (q < 16) || !refused.contains (q - 16))
  let s := done.foldl (fun s q => if 16 ≤ q then s.wake (q - 16) else s) s
  let s := if done.contains 3 then s.beforeTrees else s
  let jobs := fun (tree : Nat) => s.treeJob tree
  let olds := s.regs.filterMap (fun e => s.treeEntry e.1)
  let s := (s.swapBanks (done.filter (· < 16))).renewCopies done
  let s := if done.contains 0 then
      (s.wr R.RTE_STAT_BANK (1 - s.rd R.RTE_STAT_BANK)).bump R.RTE_STAT_STROBES
    else s
  let s := if done.contains 2 then s.oldCharges.initTokens else s
  let s := if done.contains 3 then s.flipTrees.afterTrees jobs olds else s
  let s := done.foldl (fun s q => if 16 ≤ q then s.swapLanes (q - 16) else s) s
  let s := ((s.withCopying (s.copying ++ done)).withSinceSwap (if s.copying.isEmpty then [] else s.sinceSwap.filter (fun off => match bankOf (off / 8 * 8) with
      | some (q, _, _) => !done.contains q
      | none => false)))
  let s := (s.bump R.GLB_STROBES).bump R.GLB_STROBE_STAT_COUNT
  let s := s.wr R.GLB_STROBE_STAT_RESULT (if refused.isEmpty then 0 else 5)
  let s := s.wr R.GLB_STROBE_STAT_REFUSED (refused.foldl (fun a t => a + 2 ^ t) 0)
  s.showCopying

end State

namespace State

/-- The copy of a strobe part completes (R179, R388); that of the tree tables not before every packet that is handled on the old bank
(R389; log entry 125). -/
def copyDone (s : State) (part : Nat) : State :=
  if !s.copying.contains part || (part == 3 && s.oldBankUse) then s
  else
    let s := if part < 16 then s.copyBank part else s.copyLanes (part - 16)
    let s := ((s.withCopying (s.copying.filter (· != part))).withSinceSwap (s.sinceSwap.filter (fun off => match bankOf (off / 8 * 8) with
        | some (q, _, _) => q != part
        | none => false)))
    s.showCopying

end State

end Sys2Proof.Machine
end

