-- ==== Sys2Proof/Machine/Order.lean ====
section
/-!
DEFINITION. The arbiter's one order of arrival (R34) and the commands that wait in it: Maintenance mode and isolation (R32 to
R38), castle strobes (R388), stop, change and restart (R390 to R392), and island commands (R480).
-/
namespace Sys2Proof.Machine

namespace State

/-! Isolation (R34 to R36). -/

/-- Port groups that go with unit u: both halves of an x8 port (R35). -/
def partners (s : State) (u : Nat) : List Nat :=
  if 16 ≤ u ∧ u < 144 ∧ s.groupWidth (u - 16) = 3 then [16 + 2 * ((u - 16) / 2), 17 + 2 * ((u - 16) / 2)] else [u]

/-- The unit, or the tile it lies in, is stopped by STOP (R392). -/
def unitStopped (s : State) (u : Nat) : Bool :=
  if u < 16 then s.arb.stoppedUnits.contains (1, u)
  else if u < 144 then s.arb.stoppedUnits.contains (0, u - 16) || s.arb.stoppedUnits.contains (1, (u - 16) / 8)
  else if u < 148 then s.arb.stoppedUnits.contains (2, u - 144)
  else false

/-- Service pawns in service. -/
def activeService (s : State) : List Nat :=
  (List.range 104).filter (fun n => s.rd (R.MTC_PAWN_STAT_STATE n) == 1 && s.rdB (R.MTC_PAWN_STAT_SERVICE n) &&
    !s.rdB (R.MTC_PAWN_STAT_SPARE n))

/-- Isolate the listed units. -/
def isolateUnits (s : State) (l : List Nat) : State :=
  l.foldl (fun s u =>
    if s.isolated u then s
    else
      let free := s.unitFree u
      let s := s.setIsolated u true
      if free then s.takeUnit u else s) s

/-- Begin an isolation (R34 to R36, R392): a result where it ends at once, none where it runs. DESIGN CHOICE: a unit already isolated
answers OK before FORCE is looked at (log entry 109). -/
def beginIsolate (s : State) (u : Nat) (force : Bool) : State × Option Nat :=
  if s.unitAbsent u then (s, some 5)
  else if s.isolated u then (s, some 0)
  else if s.unitStopped u then (s, some 6)
  else
    let pawn := decide (148 ≤ u) && decide (u < 252)
    if (force && !pawn) || (pawn && s.activeService == [u - 148]) then (s, some 6)
    else if pawn && !force && s.pawnBusy (u - 148) then (s, some 4)
    else (s.isolateUnits (s.partners u), none)

/-- Begin an isolation of ALL (R35). A unit stopped by STOP refuses it (R392). -/
def beginIsolateAll (s : State) : State × Option Nat :=
  if !s.arb.stoppedUnits.isEmpty then (s, some 6)
  else (s.isolateUnits ((List.range 288).filter (fun u => !s.unitAbsent u)), none)

/-- The lanes of a lane tile or port group. -/
def unitLanes (u : Nat) : List Nat :=
  if u < 16 then (List.range 32).map (32 * u + ·) else if u < 144 then (List.range 4).map (4 * (u - 16) + ·) else []

/-- A lane that is no longer isolated ends its patterns and loopbacks (R37, R92, R93): its checker stops and its transmitter goes back
to the link layer. `was` is what the transmitter took before. -/
def endLaneTests (s : State) (l was : Nat) : State :=
  if s.groupIsolated (l / 4) then s
  else
    let s := s.patStop l (s.patErrorsSince l)
    if was = 0 then s else s.emit (.laneSource l 0)

/-- Release the listed units that are isolated (R38). -/
def releaseUnits (s : State) (l : List Nat) : State :=
  let l := l.filter s.isolated
  let lanes := (l.flatMap unitLanes).map (fun i => (i, s.laneSource i))
  let s := l.foldl (fun s u => s.setIsolated u false) s
  let s := lanes.foldl (fun (s : State) x => s.endLaneTests x.1 x.2) s
  (l.foldl (fun (s : State) u => s.returnUnit u) s).tapCheck

/-- Begin a release. DESIGN CHOICE: the release of a unit that is not isolated ends at once with OK (log entry 109). -/
def beginRelease (s : State) (u : Nat) : State × Option Nat :=
  if s.unitAbsent u then (s, some 5)
  else if !s.isolated u then (s, some 0)
  else (s.releaseUnits (s.partners u), none)

/-- Begin LEAVE (R38): every isolated unit is released, and LEAVE waits for those that take time to return. -/
def beginLeave (s : State) : State :=
  let l := (List.range 288).filter s.isolated
  let groups := l.filter (fun u => decide (16 ≤ u) && decide (u < 144))
  let s := s.releaseUnits l
  (s.withArb { s.arb with returning := s.arb.returning ++ groups })

/-! Stop, change and restart (R390 to R392). -/

/-- The `stopped` mark of the ports of group g follows the stopped units. -/
def markStopped (s : State) (g : Nat) : State :=
  let b := s.unitStopped (16 + g)
  (s.modPort (2 * g) (fun (x : PortSt) => { x with stopped := b })).modPort (2 * g + 1) (fun (x : PortSt) => { x with stopped := b })

/-- The module's unit number of a reconfigurable unit. -/
def reconfUnit (kind i : Nat) : Nat := if kind = 0 then 16 + i else if kind = 1 then i else 144 + i

/-- KIND and INDEX name a unit (R390). DEDUCED: STOP of one that is none answers BAD_ARG, and APPLY and RESUME, which it was not stopped
for, NOT_STOPPED (log entry 123). -/
def reconfNamed (kind i : Nat) : Bool :=
  match kind with
  | 0 => decide (i < 128)
  | 1 => decide (i < 16)
  | 2 => decide (i < 4)
  | _ => false

/-- Groups whose marks and ports belong to a unit. -/
def reconfGroups (s : State) (kind i : Nat) : List Nat :=
  match kind with
  | 0 => (s.partners (16 + i)).map (· - 16)
  | 1 => (List.range 8).map (8 * i + ·)
  | _ => []

/-- STOP (R390, R392). -/
def beginStop (s : State) (kind i : Nat) : State × Option Nat :=
  let u := reconfUnit kind i
  if s.arb.stoppedUnits.contains (kind, i) then (s, some 0)
  else if s.isolated u || (kind == 0 && s.isolated (i / 8)) || s.unitAbsent u then (s, some 5)
  else
    let gs := s.reconfGroups kind i
    let s := s.withArb { s.arb with stoppedUnits := s.arb.stoppedUnits ++ (if kind = 0 then gs.map (fun g => (0, g)) else [(kind, i)]) }
    let s := gs.foldl (fun (s : State) g => (s.takeGroup g).markStopped g) s
    let s := if kind = 1 then (if s.island i = 2 then s else s.setIsland i 1)
      else if kind = 2 then
        let s := (s.hostPortDown i).emit (.hostLink i false)
        if s.island (19 + i) = 2 then s else s.setIsland (19 + i) 1
      else s
    (s, none)

/-- Take a unit off the stopped list, and its ports' marks with it. -/
def unstop (s : State) (kind : Nat) (l : List Nat) : State :=
  let s := s.withArb { s.arb with stoppedUnits := s.arb.stoppedUnits.filter (fun x => !(x.1 == kind && l.contains x.2)) }
  let gs := match kind with
    | 0 => l
    | 1 => l.flatMap (fun t => (List.range 8).map (8 * t + ·))
    | _ => []
  gs.foldl markStopped s

/-- The ports of port groups leave DISABLED where nothing holds them. -/
def restartGroups (s : State) (gs : List Nat) : State :=
  gs.foldl (fun s g => (s.portsOfGroup g).foldl leaveDisabled s) s

/-- RESUME (R391). -/
def beginResume (s : State) (kind i : Nat) : State × Option Nat :=
  if !s.arb.stoppedUnits.contains (kind, i) then (s, some 2)
  else
    let gs := s.reconfGroups kind i
    let s := s.unstop kind (if kind = 0 then gs else [i])
    let s := if kind = 1 then (if s.island i = 1 then s.setIsland i 0 else s)
      else if kind = 2 then
        let s := if s.island (19 + i) = 1 then s.setIsland (19 + i) 0 else s
        if s.rdB (R.HPT_PORT_CFG_ENABLE i) then s.emit (.hostLink i true) else s
      else s
    (s.restartGroups gs, none)

/-- Ports formed at group g by a WIDTH code, each with its SHARED_GRANT and VL_MASK (R70, R391). -/
def formGroup (s : State) (g w grant mask : Nat) : State :=
  let s := s.setWidth g w
  let set := fun (x : PortSt) => ({ x with grant := grant, vlMask := mask } : PortSt)
  (s.modPort (2 * g) set).modPort (2 * g + 1) set

/-- The state with the values of an APPLY in place, the unit still stopped. -/
def withValues (s : State) (kind i v : Nat) : State :=
  match kind with
  | 0 =>
    let w := v % 4
    let grant := bitsOf v 2 14
    let mask := fun (g : Nat) => match s.opening with | some o => o.vlMask.getD g 1 | none => 1
    let was := s.groupWidth i = 3
    if w = 3 then (s.formGroup i 3 grant (mask i)).formGroup (i + 1) 3 grant (mask (i + 1))
    else
      let s := if was then s.setWidth (4 * (i / 2) / 2 + (1 - i % 2)) 0 else s
      s.formGroup i w grant (mask i)
  | 1 => s.wr (R.LT_TILE_STAT_RATE i) (v % 4)
  | _ =>
    let s := (s.wr (R.HPT_PORT_CFG_ENABLE i) (v % 2)).wr (R.HPT_PORT_CFG_MAX_GEN i) (bitsOf v 1 3)
    (s.wr (R.HPT_PORT_CFG_MAX_X8 i) (bitsOf v 4 1)).wr (R.HPT_PORT_CFG_TOTAL_VFS i) (bitsOf v 8 7)

/-- Every value of ARG equals the value in force (R391). -/
def sameValues (s : State) (kind i v : Nat) : Bool :=
  match kind with
  | 0 => s.groupWidth i == v % 4 && (v % 4 == 0 || (s.port (2 * i)).grant == bitsOf v 2 14)
  | 1 => s.rd (R.LT_TILE_STAT_RATE i) == v % 4
  | _ => s.rd (R.HPT_PORT_CFG_ENABLE i) == v % 2 && s.rd (R.HPT_PORT_CFG_MAX_GEN i) == bitsOf v 1 3 &&
      s.rd (R.HPT_PORT_CFG_MAX_X8 i) == bitsOf v 4 1 && s.rd (R.HPT_PORT_CFG_TOTAL_VFS i) == bitsOf v 8 7

/-- Largest SHARED_GRANT of a WIDTH code (R117). -/
def grantMax (w : Nat) : Nat := if w = 3 then 8192 else if w = 2 then 4096 else 2048

/-- DYN_SIZE and DYN_FREE follow the reservations (R130, R146). -/
def showDyn (s : State) : State :=
  match s.opening with
  | some o =>
    let size := s.bankSquares - s.reserved o
    (s.wr R.SWC_BUF_STAT_DYN_SIZE size).wr R.SWC_BUF_STAT_DYN_FREE (size - s.dynUsed)
  | none => s

/-- The checks of APPLY after the first, in order (R391): the result of the first that fails. -/
def applyFails (s : State) (kind i v : Nat) : Option Nat :=
  let w := v % 4
  let t := s.withValues kind i v
  if (kind = 0 ∧ w ≠ 0 ∧ grantMax w < bitsOf v 2 14) ∨ (kind = 2 ∧ (bitsOf v 1 3 = 0 ∨ 6 < bitsOf v 1 3)) then some 3
  else if kind = 0 ∧ w = 3 ∧ (i % 2 = 1 ∨ s.arb.stoppedUnits.contains (0, i + 1) = false) then some 6
  else if (s.mode = 1 ∧ 32 < t.formedPorts.length) ∨ (kind = 2 ∧ v % 2 = 1 ∧ (s.mode = 3 ∨ s.mode = 4 ∨ s.isS0 = true)) then some 5
  else
    match s.opening with
    | some o =>
      if s.bankSquares < t.reserved o + 262144 then some 4
      else if !o.reconfAllowed && !s.sameValues kind i v then some 7
      else none
    | none => some 7

/-- APPLY (R391). A tile that was parked leaves that state by an island reset (R14, R480). -/
def beginApply (s : State) (kind i : Nat) : State × Option Nat :=
  let v := s.rd R.GLB_RECONF_ARG_ARG
  if !s.arb.stoppedUnits.contains (kind, i) then (s, some 2)
  else
    match s.applyFails kind i v with
    | some r => (s, some r)
    | none =>
      let s := s.withValues kind i v
      let gs := if kind = 0 then (if v % 4 = 3 then [i, i + 1] else [i]) else s.reconfGroups kind i
      let s := s.unstop kind (if kind = 0 then gs else [i])
      let s := s.showDyn
      let s := if kind = 1 then (if v % 4 = 0 then s.setIsland i 2 else if s.island i = 2 then s.resetTile i else s.setIsland i 0)
        else if kind = 2 then
          let s := s.resetHost i false
          if v % 2 = 1 then s else s.wr (R.HPT_FN_STAT_ENABLED i 0) 0
        else s
      (s.restartGroups gs, none)

/-! Island commands (R480). -/

/-- The condition of an island action (R480). -/
def islandMay (s : State) (k action : Nat) : Bool :=
  let tileDown := fun (t : Nat) => (List.range 16).all (fun i => s.linkState (16 * t + i) == 0)
  if k < 16 then action == 4 || tileDown k
  else if 19 ≤ k ∧ k ≤ 22 then action == 4 || !s.rdB (R.HPT_PORT_CFG_ENABLE (k - 19))
  else if k = 17 then
    if action = 1 then (List.range 104).all (fun n => s.rd (R.MTC_PAWN_STAT_STATE n) != 1 || s.rdB (R.MTC_PAWN_STAT_SPARE n))
    else action == 4 && (List.range 104).all (fun n => s.unitAbsent (148 + n) || s.isolated (148 + n))
  else if k = 18 then
    if action = 1 then s.rd R.COL_STAT_SEATED == 0 else action == 4 && (List.range 36).all (fun r => s.isolated (252 + r))
  else false

/-- Begin an island action (R480): 1 STOP, 2 WAKE, 3 PARK, 4 RESET. -/
def beginIsland (s : State) (k action : Nat) : State × Option Nat :=
  let u := if k < 16 then some k else if 19 ≤ k ∧ k ≤ 22 then some (k - 19 + 144) else none
  let out := match u with | some u => s.isolated u || s.unitStopped u | none => false
  if s.inRecovery then (s, some 4)
  else if 26 ≤ k ∨ (s.isS0 = true ∧ 19 ≤ k ∧ k ≤ 22) then (s, some 3)
  else if s.island k = 3 || out then (s, some 2)
  else if action = 2 then
    (if s.island k = 2 then (s, some 2) else (s.wake k, some 0))
  else if s.island k = 2 ∧ action ≠ 4 then (s, some (if action = 3 then 0 else 2))
  else if !s.islandMay k action then (s, some 2)
  else if action = 1 then (s.setIsland k 1, none)
  else if action = 3 then (s.setIslandState k 2, none)
  else (s.resetIsland k, none)

/-! The order (R34). -/

/-- Begin a command whose turn has come; a result where it ends at once. A strobe waits for its copies (`CASTLE_STROBE`). -/
def beginCmd (s : State) : ArbCmd → State × Option Nat
  | .enter m => ((s.wr R.GLB_MODE_STAT_MAINT 1).wr R.GLB_MAINT_CTL_OWNER m, some 0)
  | .isolate u force => s.beginIsolate u force
  | .isolateAll => s.beginIsolateAll
  | .release u => s.beginRelease u
  | .releaseAll => (s.releaseUnits (List.range 288), none)
  | .leave => (s.beginLeave, none)
  | .strobe _ _ => (s, none)
  | .reconf kind i action =>
    if s.inRecovery then (s, some 8)
    else if !reconfNamed kind i then (s, some (if action = 1 then 3 else 2))
    else match action with
      | 1 => s.beginStop kind i
      | 2 => s.beginApply kind i
      | _ => s.beginResume kind i
  | .island k action => s.beginIsland k action

/-- A strobe of the queue other than its head. -/
def strobeWaits (l : List ArbCmd) : Bool := l.any (fun c => match c with | .strobe _ _ => true | _ => false)

/-- A command leaves the order: its BUSY bit clears, its RESULT shows, its event is raised. -/
def endCmd (s : State) (c : ArbCmd) (r : Nat) : State :=
  match c with
  | .strobe _ _ =>
    let s := s.wrB R.GLB_STROBE_STAT_BUSY (strobeWaits s.arb.queue)
    s.glbIrq 0
  | .reconf _ _ _ => (((s.wr R.GLB_RECONF_STAT_BUSY 0).wr R.GLB_RECONF_STAT_RESULT r).bump R.GLB_RECONF_DONE).glbIrq 2
  | .island _ _ => (s.wr R.PWR_ISL_STAT_BUSY 0).wr R.PWR_ISL_STAT_RESULT r
  | _ => ((s.wr R.GLB_ISO_STAT_BUSY 0).wr R.GLB_ISO_STAT_RESULT r).glbIrq 1

/-- Begin the commands at the head of the order, as long as they end at once. -/
def runOrder : Nat → State → State
  | 0, s => s
  | fuel + 1, s =>
    match s.arb.queue with
    | [] => s
    | c :: rest =>
      if s.arb.begun then s
      else
        match (s.withArb { s.arb with begun := true } : State).beginCmd c with
        | (s, none) => s
        | (s, some r) =>
          runOrder fuel ((s.withArb { s.arb with queue := rest, begun := false } : State).endCmd c r)

/-- A command arrives (R34). -/
def pushOrder (s : State) (c : ArbCmd) : State :=
  runOrder (s.arb.queue.length + 2) (s.withArb { s.arb with queue := s.arb.queue ++ [c] })

/-- The head of the order ends with a result, and the next begins. -/
def endHead (s : State) (r : Nat) : State :=
  match s.arb.queue with
  | [] => s
  | c :: rest =>
    let s := (s.withArb { s.arb with queue := rest, begun := false } : State).endCmd c r
    runOrder (s.arb.queue.length + 1) s

/-- A write to GLB_ISO_CMD, or LEAVE, by master m (R32, R34). DESIGN CHOICE: outside Maintenance mode LEAVE answers NOT_MAINT, as an
isolation command does (log entry 109). -/
def isoWrite (s : State) (m : Master) (off : Nat) (u : Nat) (c : ArbCmd) : State :=
  s.gated m off (fun s =>
    if s.rdB R.GLB_ISO_STAT_BUSY then s.wr R.GLB_ISO_STAT_RESULT 1
    else
      let s := s.wr R.GLB_ISO_STAT_LAST_UNIT u
      if !s.rdB R.GLB_MODE_STAT_MAINT then s.wr R.GLB_ISO_STAT_RESULT 2
      else if s.rd R.GLB_MAINT_CTL_OWNER ≠ m.id then s.wr R.GLB_ISO_STAT_RESULT 3
      else (s.wr R.GLB_ISO_STAT_BUSY 1).pushOrder c)

end State

open State

/-- ENTER (R32). DESIGN CHOICE: the present owner may write it again, with the result OK; ENTER and LEAVE keep LAST_UNIT (log entry 109). -/
def execEnter (m : Master) (s : State) : Out :=
  .next (s.gated m 0x108 (fun s =>
    if s.rdB R.GLB_ISO_STAT_BUSY then s.wr R.GLB_ISO_STAT_RESULT 1
    else if s.inRecovery then s.wr R.GLB_ISO_STAT_RESULT 7
    else
      let o := s.rd R.GLB_MAINT_CTL_OWNER
      if o = 0xFFF ∨ o = m.id ∨ (o = 2 ∧ m = .commander) then (s.wr R.GLB_ISO_STAT_BUSY 1).pushOrder (.enter m.id)
      else s.wr R.GLB_ISO_STAT_RESULT 3))

/-- LEAVE (R32, R38). -/
def execLeave (m : Master) (s : State) : Out :=
  .next (s.isoWrite m 0x108 (s.rd R.GLB_ISO_STAT_LAST_UNIT) .leave)

/-- LEAVE_DONE (R38): every released unit has returned or been fenced. -/
def execLeaveDone (s : State) : Out :=
  .next (match s.arb.queue with
    | .leave :: _ =>
      let l := s.arb.returning.filter (fun u => !(decide (16 ≤ u) && decide (u < 144) && s.groupBack (u - 16)))
      if !l.isEmpty then s
      else
        let s := s.withArb { s.arb with returning := [] }
        ((s.wr R.GLB_MODE_STAT_MAINT 0).wr R.GLB_MAINT_CTL_OWNER 0xFFF).endHead 0
    | _ => s)

/-- ISO_ISOLATE (R35). -/
def execIsoIsolate (m : Master) (u : BitVec 9) (force : Bool) (s : State) : Out :=
  .next (s.isoWrite m 0x110 u.toNat (.isolate u.toNat force))

/-- ISO_RELEASE (R38): one unit, or with ALL every unit. -/
def execIsoRelease (m : Master) (u : BitVec 9) (all : Bool) (s : State) : Out :=
  .next (s.isoWrite m 0x110 u.toNat (if all then .releaseAll else .release u.toNat))

/-- ISO_ALL (R35). DESIGN CHOICE: LAST_UNIT takes the UNIT field of an ALL command (log entry 109). -/
def execIsoAll (m : Master) (u : BitVec 9) (s : State) : Out := .next (s.isoWrite m 0x110 u.toNat .isolateAll)

/-- ISO_COMMAND_DONE (R35): the isolation or release in execution ends. -/
def execIsoCommandDone (s : State) : Out :=
  .next (match s.arb.queue with
    | .isolate _ _ :: _ => s.endHead 0
    | .isolateAll :: _ => s.endHead 0
    | .release _ :: _ => s.endHead 0
    | .releaseAll :: _ => s.endHead 0
    | _ => s)

/-- WAKE_REQUEST (R13): an asynchronous wake request to island k. -/
def execWakeRequest (k : Fin 26) (s : State) : Out := .next (s.wake k)

/-! ## Castle strobes -/

namespace State

/-- A strobe request enters the order: BUSY, and the bits of its mask. -/
def acceptStrobe (s : State) (mask : Nat) (src : StrobeSrc) : State :=
  let s := s.wr R.GLB_STROBE_STAT_BUSY 1
  let s := (s.wr R.GLB_STROBE_STAT_MASK_PARTS mask).wr R.GLB_STROBE_STAT_MASK_TILES (mask / 2 ^ 16)
  s.pushOrder (.strobe mask src)

/-- The in-band request that waits for a strobe's end. -/
def strobeReq (s : State) : Option MgmtReq := s.cgc.reqs.find? (fun r => r.begun && r.cmd == 9)

/-- The strobe at the head of the order has swapped: it ends, and the command that asked for it is answered. -/
def strobeEnded (s : State) (src : StrobeSrc) : State :=
  let s := match src with
    | .inband => (match s.strobeReq with | some r => (s.dropReq r).respond r 0 | none => s)
    | .cmd => (s.wr R.CGC_CMD_STAT_BUSY 0).wr R.CGC_CMD_STAT_RESULT 0
    | _ => s
  s.endHead 0

/-- CASTLE_STROBE's effect: the strobe at the head swaps once no part of its group copies. No strobe is issued while the
arbiter's processor does not run (R445). -/
def castle (s : State) : State :=
  match s.arb.queue with
  | .strobe mask src :: _ =>
    if !s.arbRuns || (maskParts mask).any s.copying.contains then s else (s.swapGroup mask).strobeEnded src
  | _ => s

end State

/-- GLB_STROBE (R387, R388): a write of the mask. The write of bits [31:0] issues the strobe. -/
def execGlbStrobe (m : Master) (h : Half) (mask : BitVec 64) (s : State) : Out :=
  .next (s.gated m 0x200 (fun s =>
    if !coversLow h then s
    else
      let mask := if h = .full then mask.toNat else mask.toNat % 2 ^ 32
      if s.rdB R.GLB_STROBE_STAT_BUSY then s.wr R.GLB_STROBE_STAT_RESULT 1
      else if s.inRecovery then s.wr R.GLB_STROBE_STAT_RESULT 6
      else if !maskOk mask then s.wr R.GLB_STROBE_STAT_RESULT 4
      else s.acceptStrobe mask .reg))

/-- CASTLE_STROBE (R388). -/
def execCastleStrobe (s : State) : Out := .next s.castle

/-! ## Stop, change and restart -/

namespace State

/-- A GLB_RECONF_CTL write (R390). -/
def reconfWrite (s : State) (m : Master) (kind i action : Nat) : State :=
  s.gated m 0x300 (fun s =>
    if s.rdB R.GLB_RECONF_STAT_BUSY then s.wr R.GLB_RECONF_STAT_RESULT 1
    else
      let s := (s.wr R.GLB_RECONF_STAT_LAST_KIND kind).wr R.GLB_RECONF_STAT_LAST_INDEX i
      (s.wr R.GLB_RECONF_STAT_BUSY 1).pushOrder (.reconf kind i action))

end State

/-- RECONF_STOP (R390). -/
def execReconfStop (m : Master) (kind : BitVec 2) (i : BitVec 7) (s : State) : Out := .next (s.reconfWrite m kind.toNat i.toNat 1)

/-- RECONF_APPLY (R391). -/
def execReconfApply (m : Master) (kind : BitVec 2) (i : BitVec 7) (s : State) : Out := .next (s.reconfWrite m kind.toNat i.toNat 2)

/-- RECONF_RESUME (R391). -/
def execReconfResume (m : Master) (kind : BitVec 2) (i : BitVec 7) (s : State) : Out := .next (s.reconfWrite m kind.toNat i.toNat 3)

/-- RECONF_DONE (R390): the reconfiguration action in execution ends. -/
def execReconfDone (s : State) : Out :=
  .next (match s.arb.queue with
    | .reconf _ _ _ :: _ => s.endHead 0
    | _ => s)

/-! ## Island commands (R480) -/

namespace State

/-- A PWR_ISL_CMD write. -/
def islandWrite (s : State) (m : Master) (k action : Nat) : State :=
  s.gated m 0x20040 (fun s =>
    if s.rdB R.PWR_ISL_STAT_BUSY then s.wr R.PWR_ISL_STAT_RESULT 1
    else ((s.wr R.PWR_ISL_STAT_LAST_ISLAND k).wr R.PWR_ISL_STAT_BUSY 1).pushOrder (.island k action))

end State

/-- ISLAND_STOP (R480). -/
def execIslandStop (m : Master) (k : BitVec 5) (s : State) : Out := .next (s.islandWrite m k.toNat 1)

/-- ISLAND_WAKE (R480). -/
def execIslandWake (m : Master) (k : BitVec 5) (s : State) : Out := .next (s.islandWrite m k.toNat 2)

/-- ISLAND_PARK (R480). -/
def execIslandPark (m : Master) (k : BitVec 5) (s : State) : Out := .next (s.islandWrite m k.toNat 3)

/-- ISLAND_RESET (R480, R481). -/
def execIslandReset (m : Master) (k : BitVec 5) (s : State) : Out := .next (s.islandWrite m k.toNat 4)

/-- ISLAND_ACTION_DONE (R480): the island action in execution ends. -/
def execIslandActionDone (s : State) : Out :=
  .next (match s.arb.queue with
    | .island _ _ :: _ => s.endHead 0
    | _ => s)

end Sys2Proof.Machine
end

