-- ==== Sys2Proof/Machine/Stack.lean ====
section
/-!
DEFINITION. The stack (chapter 15): HELLO, digests, relays, the stack-wide strobe, heartbeats, mirrors and takeover; with them
the rest of the management commands (R188) and the writes of mirrored tables (R180, R323, R369).
-/
namespace Sys2Proof.Machine

namespace State

/-! Members and timing (R360, R376). -/

def hbPeriod (s : State) : Nat := max 100 (s.rd R.STK_TIMING_HB_PERIOD_US) * 1000
def hbMiss (s : State) : Nat := max 3 (s.rd R.STK_TIMING_HB_MISS)
def strobeLead (s : State) : Nat := max 20 (s.rd R.STK_TIMING_STROBE_LEAD_US)
def digestPeriod (s : State) : Nat := max 8 (s.rd R.STK_TIMING_DIGEST_US) * 1000

def isMember (s : State) (i : Nat) : Bool := bitOf (s.rd R.STK_CFG_MEMBERS) i
def inPresent (s : State) (i : Nat) : Bool := bitOf (s.rd R.STK_STAT_PRESENT) i
def setPresent (s : State) (i : Nat) (b : Bool) : State :=
  s.wr R.STK_STAT_PRESENT (setBits (s.rd R.STK_STAT_PRESENT) i 1 (b2n b))
/-- The other members in PRESENT. -/
def presentOthers (s : State) : List Nat := (List.range 12).filter (fun i => s.inPresent i && i != s.ownMember)
/-- The other members of MEMBERS. -/
def allOthers (s : State) : List Nat := (List.range 12).filter (fun i => s.isMember i && i != s.ownMember)
/-- External ports of the module that are formed. -/
def externalPorts (s : State) : List Nat := s.formedPorts.filter (fun p => !(s.port p).stack)

/-- A payload of one 8-byte value (R196). -/
def valuePay (v : Nat) : List Square := [sqOfBytes (bytesLE v 8)]

/-! Requests of the module's own accord. -/

/-- HELLO on port p (R361). -/
def sendHello (s : State) (p : Nat) : State := (s.sendStk 15 0x01 (s.rd R.STK_CFG_STACK_ID + p * 2 ^ 32) 0 []).1

/-- FAULT_REPORT of class c to the master (R372): the payload is the record. -/
def sendFault (s : State) (c : Nat) : State :=
  let rec_ := (List.range 8).flatMap (fun w => bytesLE (s.rd (R.FLT_REC c w)) 8)
  (s.sendStk (s.rd R.STK_STAT_MASTER_NOW) 0x09 c 64 [sqOfBytes rec_]).1

/-- What a member sends at once: HELLO on a stack port that has entered UP, and FAULT_REPORT for the first error of each
class. -/
def stackEvents (s : State) : State :=
  if !s.inStack then s
  else
    let due := s.stk.helloDue
    let s := due.foldl sendHello (s.withStk { s.stk with helloDue := [] })
    let set := (List.range 4).filter (bitOf (s.rd R.FLT_STATUS_SET))
    let new := set.filter (fun c => !s.stk.reported.contains c)
    let s := s.withStk { s.stk with reported := set }
    if s.rd R.STK_STAT_MASTER_NOW = s.ownMember then s else new.foldl sendFault s

/-- One nanosecond passes: local time counts, fabric time counts and takes its part of a correction (R453), whose integral part is
slewed again in every frame interval that brings no offset (R454), and the
collective complex sees the ports that left UP (R343), and a member of a stack sends what it owes (R361, R372). Powered time passes while
the module is on (R448). -/
def tick (s : State) : State :=
  let next := s.time.gap != 0 && decide (s.time.nextAt ≤ s.now)
  let slew := if next then s.time.slew + s.time.integ else s.time.slew
  let d : Int := if slew < 0 then max (-6) slew else min 6 slew
  let s := if s.pwr.state == .on then s else s.withFlt { s.flt with unpowered := s.flt.unpowered + 1 }
  let s := (s.withNow (s.now + 1)).withTime { s.time with
    ft := ((s.time.ft : Int) + 65536 + d).toNat % 2 ^ 80, slew := slew - d, adv := (65536 + d).toNat
    nextAt := if next then s.now + s.time.gap else s.time.nextAt }
  s.collEvents.stackEvents

/-- Relay a write of a mirrored table to every present member (R369). -/
def relayTable (s : State) (off v : Nat) : State :=
  if s.isMaster && s.rdB R.STK_CFG_MIRROR then
    s.presentOthers.foldl (fun s i => (s.sendStk i 0x04 off 8 (valuePay v)).1) s
  else s

/-- The mirrored tables' shadow registers (R369). -/
def mirroredOffs : List Nat :=
  0x400000 :: ((List.range 8192).map (fun i => 0x410000 + 8 * i) ++ (List.range 131072).map (fun i => 0x500000 + 8 * i))

/-- The place of a mirrored shadow register in the order in which a sync relays them, and their number. -/
def mirroredPlace (off : Nat) : Option Nat :=
  if off = 0x400000 then some 0
  else if off % 8 ≠ 0 then none
  else if 0x410000 ≤ off ∧ off < 0x420000 then some (1 + (off - 0x410000) / 8)
  else if 0x500000 ≤ off ∧ off < 0x600000 then some (8193 + (off - 0x500000) / 8)
  else none
def mirroredCount : Nat := 139265

/-- A relayed write of the next mirrored register of a sync has arrived (R375). -/
def noteRelay (s : State) (off : Nat) : State :=
  if mirroredPlace off = some s.stk.relayed then s.withStk { s.stk with relayed := s.stk.relayed + 1 } else s

/-- Value of a mirrored shadow register. -/
def mirroredVal (s : State) (off : Nat) : Nat :=
  if off = 0x400000 then s.rd R.RTE_CFG_SPLIT + s.rd R.RTE_CFG_NGROUPS * 2 ^ 16
  else if off < 0x500000 then s.rd (R.RTE_LOC_TBL ((off - 0x410000) / 64) ((off - 0x410000) % 64 / 8))
  else s.rd (R.RTE_GRP_TBL ((off - 0x500000) / 64) ((off - 0x500000) % 64 / 8))

/-- The master begins to sync member i (R375): every mirrored table by RELAY_WRITE. -/
def beginSync (s : State) (i : Nat) : State :=
  let s := s.withStk { s.stk with syncing := s.stk.syncing ++ [i] }
  mirroredOffs.foldl (fun s off => (s.sendStk i 0x04 off 8 (valuePay (s.mirroredVal off))).1) s

/-! The stack-wide strobe (R370). -/

/-- Fabric time in µs. -/
def us (s : State) : Nat := s.ns / 1000

/-- Swap for the stack: the strobe takes its place in the order, and swaps at once when it is at the head. -/
def stackSwap (s : State) (mask : Nat) : State :=
  let s := (s.withStk { s.stk with strobed := s.stk.strobed || s.isMaster || decide (s.stk.relayed = mirroredCount) } : State).acceptStrobe mask .stack
  match s.arb.queue with
  | .strobe _ .stack :: _ => s.castle
  | _ => s

/-- Every answer has arrived: COMMIT to every member that was asked, T for the master, and the fabric manager's answer. -/
def commitStrobe (s : State) (mask : Nat) (asked : List Nat) (req : Option MgmtReq) : State :=
  let t := s.us + s.strobeLead
  let s := asked.foldl (fun s i => (s.sendStk i 0x07 (t % 2 ^ 48) 0 []).1) s
  let s := ((s.wr R.STK_STROBE_STAT_T_US t).withStk { s.stk with arm := some (mask, s.now), commit := some t, strobe := none })
  match req with
  | some r => (s.dropReq r).respond r 0
  | none => s

/-- The members a stack-wide strobe asks: those in PRESENT, and those whose sync it ends. -/
def strobeAsks (s : State) : List Nat :=
  s.presentOthers ++ ((List.range 12).filter (fun i => s.stk.syncing.contains (16 + i) && !s.inPresent i))

/-- Step 1 of R370 at the master. -/
def beginStackStrobe (s : State) (mask : Nat) (req : Option MgmtReq) : State :=
  let asked := s.strobeAsks
  let s := asked.foldl (fun s i => (s.sendStk i 0x06 mask 0 []).1) s
  let s := s.wr R.STK_STROBE_STAT_CANCELLED 0
  if asked.isEmpty then s.commitStrobe mask [] req
  else (s.withStk { s.stk with strobe := some (mask, s.now, asked, req) })

/-- An ARM at this member is dropped (R370). -/
def dropArm (s : State) : State :=
  let s := match s.stk.armWait with | some r => (s.dropReq r).respond r 1 | none => s
  ((s.wr R.STK_STROBE_STAT_ARMED 0).withStk { s.stk with arm := none, commit := none, armWait := none })

/-! Takeover (R374). -/

/-- This module becomes the master: mirrored PSNs, every lock word free with its orphan bit set, every ARM lapsed. -/
def takeOver (s : State) : State :=
  let s := s.dropArm
  let s := ((s.wr R.STK_STAT_MASTER_NOW s.ownMember).wr R.STK_STAT_ROLE_NOW 1).bump R.STK_TAKEOVER
  let s := s.stk.mirror.foldl (fun s e => if e.2 = 0 then s else s.wr (R.CGC_KEY_PSN_LAST_RX_PSN e.1) (e.2 - 1)) s
  let s := s.usedWords.foldl (fun s w => (s.wr (R.LCK_WORD w) 0).setHolderJob w 0) s
  let s := (List.range 1024).foldl (fun s n => s.wr (R.LCK_ORPHAN n) (2 ^ 64 - 1)) s
  let s := (s.withStk { s.stk with mseq := 0, full := none, fullSet := [], okVotes := [], queried := [], strobe := none, masterAt := s.now,
                                        lastHb := s.now, hbResp := s.presentOthers.foldl (fun m i => SMap.set 0 m i (s.now + 1)) [] })
  s.presentOthers.foldl (fun s i => (s.sendStk i 0x0C 0 0 []).1) s

/-- A master that is deposed serves as a plain member (R374). -/
def depose (s : State) : State := (s.wr R.STK_STAT_DEPOSED 1).wr R.STK_STAT_ROLE_NOW 3

/-- The standby master forgoes a takeover while its mirror is stale: counted, with one Corrected fault (R373). -/
def forgoTakeOver (s : State) : State :=
  (s.bump R.STK_TAKEOVER_DENIED).report { unit := 714, code := Config.takeoverCode.toNat, cls := 0 }

/-- More than half of the queried members have confirmed the loss of the master: the takeover, or the end of one that is forgone. -/
def tryTakeOver (s : State) : State :=
  if s.stk.queried.length < 2 * (s.stk.queried.filter s.stk.okVotes.contains).length then
    if s.rdB R.STK_STAT_STANDBY_STALE then (s.withStk { s.stk with queried := [], okVotes := [] } : State).forgoTakeOver else s.takeOver
  else s

/-! Responses (R196, R367). -/

/-- Remove the sent request with this PSN. -/
def dropSent (s : State) (psn : Nat) : State :=
  (s.withStk { s.stk with sent := s.stk.sent.filter (fun x => x.psn != psn) })

/-- The master follows an answered mirror with a full set: one PSN_MIRROR for each fabric-manager slot (R373). -/
def fullMirrors (s : State) : State :=
  let slots := (List.range 16).filter (fun k => s.rd (R.CGC_KEY_SLOT_VALID k) == 1 && s.rd (R.CGC_KEY_SLOT_ROLE k) == 0)
  let r := slots.foldl (fun (x : State × List Nat) k =>
    match x.1.sendMirror k (some k == slots.getLast?) with | (s, psn) => (s, x.2 ++ [psn])) (s, [])
  (r.1.withStk { r.1.stk with fullSet := r.2 })

/-- A PSN_MIRROR has been answered (R373). -/
def mirrorAnswered (s : State) (psn : Nat) : State :=
  let s := s.withCgc { s.cgc with reqs := s.cgc.reqs.map (fun (r : MgmtReq) => if r.mirror = some psn then { r with mirror := none } else r) }
  if s.stk.fullSet.contains psn then
    let l := s.stk.fullSet.filter (· != psn)
    let s := s.withStk { s.stk with fullSet := l }
    if l.isEmpty then s.wr R.STK_STAT_STANDBY_STALE 0 else s
  else if s.rdB R.STK_STAT_STANDBY_STALE then s.fullMirrors
  else s

/-- The response of member `x.member` to request x: RESULT and the value its payload carries. -/
def stkResponse (s : State) (x : StkReq) (result value : Nat) (hasValue : Bool) : State :=
  let s := s.dropSent x.psn
  let i := x.member
  match x.cmd % 256 with
  | 0x02 =>
    let s := s.withStk { s.stk with hbResp := SMap.set 0 s.stk.hbResp i (s.now + 1) }
    if s.isMaster && !s.inPresent i && !(s.stk.syncing.contains i || s.stk.syncing.contains (16 + i) || s.stk.syncing.contains (32 + i))
      then s.beginSync i else s
  | 0x06 =>
    match s.stk.strobe with
    | some (mask, t, l, req) =>
      if result ≠ 0 then s
      else
        let l' := l.filter (· != i)
        if l'.isEmpty then s.commitStrobe mask s.strobeAsks req
        else (s.withStk { s.stk with strobe := some (mask, t, l', req) })
    | none => s
  | 0x0A => s.mirrorAnswered x.psn
  | 0x0B =>
    if result = 0 then
      (s.withStk { s.stk with okVotes := if s.stk.okVotes.contains i then s.stk.okVotes else s.stk.okVotes ++ [i] } : State).tryTakeOver
    else s.bump R.STK_TAKEOVER_DENIED
  | _ =>
    match s.stk.relays.find? (fun r => r.1 == x.psn) with
    | some (_, r) =>
      let s := s.withStk { s.stk with relays := s.stk.relays.filter (fun y => y.1 != x.psn) }
      (s.dropReq r).respond r result (if hasValue then some value else none)
    | none => s

end State

open State

/-- MGMT_RESP_RX (R196, R365): at service 0 it is discarded and counted; at service 3 of a stack it answers a request of the
own slot. -/
def execMgmtRespRx (s : State) : Out :=
  .next (match takeArb (fun p => p.opcode == 0x81) s.arbIn with
    | none => s
    | some ((p, _, _), rest) =>
      let s := s.withArbIn rest
      if faService p.destFa ≠ 3 then s.bump R.CGC_MGMT_RESP_DISC
      else if !s.arbRuns then s
      else match s.arbCrc p with
        | (s, false) => s
        | (s, true) =>
          if p.keyId ≠ s.ownSlot ∨ s.rd (R.CGC_KEY_SLOT_VALID p.keyId) ≠ 1 ∨ pktTag (s.slotKey p.keyId) p ≠ p.gmac then s
          else
            match s.stk.sent.find? (fun x => x.psn == p.arg / 2 ^ 32 && x.cmd == p.cmd) with
            | some x => s.stkResponse x (p.arg % 256) (reqValue p) (p.ptype && p.len == 8)
            | none => s)

/-- TREE_STOP (R188, R337, R371): the tree is unseated with reason TREE_STOP. The master of a stack passes it on to every
other member as a TREE_STOP through the member's CGC_CMD (log entry 40). -/
def execTreeStop (src : CmdSrc) (s : State) : Out :=
  .next (s.mgmtRow src 8 (fun s _ _ a =>
    let s := match s.treeEntry (a % 65536) with | some m => s.unseat m 5 s.moduleId none | none => s
    let s := if s.isMaster then s.allOthers.foldl (fun (s : State) i =>
        ((s.sendStk i 0x04 0x800088 8 (valuePay (a % 65536))).1.sendStk i 0x04 0x800080 8 (valuePay 8)).1) s
      else s
    (s, some 0)))

/-- STROBE (R188, R388): in band it waits while a strobe has not ended; at the master of a stack it runs stack-wide (R370). -/
def execStrobe (src : CmdSrc) (s : State) : Out :=
  .next (match src with
    | .inband =>
      if s.rdB R.GLB_STROBE_STAT_BUSY || s.stk.strobe.isSome || s.stk.commit.isSome then s
      else s.inbandRow (· == 9) (fun s r =>
        if !maskOk r.arg then (s, some (4, none))
        else if s.isMaster then (s.beginStackStrobe r.arg (some r), none)
        else (s.acceptStrobe r.arg .inband, none))
    | .cmd _ => s.mgmtRow src 9 (fun s _ _ a =>
        if s.rdB R.GLB_STROBE_STAT_BUSY then (s, some 1)
        else if !maskOk a then (s, some 4)
        else (s.acceptStrobe a .cmd, none)))

/-- SHADOW_COPY_DONE (R179, R370, R388): the copy of a strobe part completes; an ARM that waited for it is answered. -/
def execShadowCopyDone (part : Fin 32) (s : State) : Out :=
  let s := s.copyDone part
  .next (match s.stk.armWait, s.stk.arm with
    | some r, some (mask, _) =>
      if (maskParts mask).any s.copying.contains then s
      else (s.withStk { s.stk with armWait := none } : State).dropReq r |>.respond r 0
    | _, _ => s)

/-- SPLIT and NGROUPS of a word for RTE_CFG are in range (R180). -/
def rteCfgOk (w : Nat) : Bool :=
  decide (4 ≤ w % 16 ∧ w % 16 ≤ 10) && decide (bitsOf w 16 15 ≠ 0) && decide (bitsOf w 16 15 ≤ 2 ^ (18 - w % 16))

/-- RTE_CFG_WRITE (R180, R369): a write to the shadow RTE_CFG. -/
def execRteCfgWrite (m : Master) (h : Half) (v : BitVec 64) (s : State) : Out :=
  .next (s.gated m 0x400000 (fun s =>
    let w := mergeHalf h (s.mirroredVal 0x400000) v.toNat
    if !rteCfgOk w then s.wr R.RTE_STAT_CFG_REJECT 1
    else
      let split := w % 16
      let n := bitsOf w 16 15
      let s := ((s.wr R.RTE_CFG_SPLIT split).wr R.RTE_CFG_NGROUPS n).noteShadow 0x400000
      s.relayTable 0x400000 (split + n * 2 ^ 16)))

/-- COL_TREE_A_WRITE (R323): a write to shadow COL_TREE_A of entry i; ROLE is bits [18:17], VALID bit 16. -/
def execColTreeAWrite (m : Master) (i : BitVec 12) (h : Half) (v : BitVec 64) (s : State) : Out :=
  .next (s.gated m (0xD10000 + 0x10 * i.toNat) (fun s =>
    let w := mergeHalf h (s.rd (R.COL_TREE_A i.toNat)) v.toNat &&& liveBits (0xD10000 + 0x10 * i.toNat)
    if s.mode = 1 ∧ bitOf w 16 = true ∧ bitsOf w 17 2 ≠ 0 then s.wr R.COL_CMD_STAT_REJECT 1
    else (s.wr (R.COL_TREE_A i.toNat) w).noteShadow (0xD10000 + 0x10 * i.toNat)))

/-! ## Stack control -/

namespace State

/-- A stack-control request with command code `code` (R367). -/
def stkRow (s : State) (code : Nat) (f : State → MgmtReq → State × Option (Nat × Option Nat)) : State :=
  s.inbandRow (fun c => c / 4096 == 1 && c % 256 == code) f

end State

/-- HELLO (R361): from key slot i on port p. -/
def execHello (s : State) : Out :=
  .next (s.stkRow 0x01 (fun s r =>
    let p := r.port
    let i := r.slot
    if decide (p < 256) && (s.port p).stack && s.commaModule p == s.moduleId && r.arg % 2 ^ 32 == s.rd R.STK_CFG_STACK_ID &&
        s.isMember i && i != s.ownMember then
      let s := s.modPort p (fun (x : PortSt) => { x with accepted := true })
      (s.wr (R.STK_PORT_PEER_PEER (p / 16) (p % 16)) i, some (0, none))
    else
      let s := if p < 256 then (s.modPort p (fun (x : PortSt) => { x with accepted := false })).wr (R.STK_PORT_PEER_PEER (p / 16) (p % 16)) 15
        else s
      ((s.bump R.STK_HELLO_BAD).fault (16 + p % 256 / 2) 0x0205 p 3, some (4, none))))

/-- HEARTBEAT_SEND (R373): the master, every HB_PERIOD_US. -/
def execHeartbeatSend (s : State) : Out :=
  .next (if !s.isMaster || decide (s.stk.hbSent ≠ 0 ∧ s.now < s.stk.hbSent + s.hbPeriod) then s
    else
      let s := s.withStk { s.stk with hbSent := s.now }
      (s.allOthers.foldl (fun s i => (s.sendStk i 0x02 (s.us % 2 ^ 48 + s.stk.mseq * 2 ^ 48) 0 []).1) s).stackEvents)

/-- HEARTBEAT (R373). -/
def execHeartbeat (s : State) : Out :=
  .next (s.stkRow 0x02 (fun s r =>
    let s := s.withStk { s.stk with lastHb := s.now, okVotes := [], queried := [] }
    let m := bitsOf r.arg 48 16
    if s.rd R.STK_CFG_STANDBY_IDX ≠ s.ownMember ∨ s.isMaster = true then (s, some (0, none))
    else if m ≠ s.stk.mseq then
      (((s.wr R.STK_STAT_STANDBY_STALE 1).withStk { s.stk with full := none }), some (0, none))
    else if s.stk.full = some m then (s.wr R.STK_STAT_STANDBY_STALE 0, some (0, none))
    else (s, some (0, none))))

/-- An entry of a DIGEST for port p (R366), its fields most significant byte first (R7). -/
def digestEntry (s : State) (p : Nat) : List Nat :=
  [p, b2n (s.portUp p)] ++ bytesBE (s.lnkPeerMask p) 2 ++ bytesBE (s.depthAll p % 2 ^ 22) 4 ++ bytesBE ((s.port p).remote % 2 ^ 20) 4 ++
    bytesBE 0 4

/-- DIGEST_SEND (R363, R366): every DIGEST_US, or when a port it tells of has entered or left UP: a leaf of its external ports. DEDUCED (log
entry 47): a spine of its stack ports, of which R363 needs to know. -/
def execDigestSend (s : State) : Out :=
  .next (if !s.inStack then s
    else
      let ports := if s.rdB R.STK_CFG_SPINE then s.formedPorts.filter (fun p => (s.port p).stack) else s.externalPorts
      let up := ports.filter s.portUp
      if s.now < s.stk.digSent + s.digestPeriod ∧ up = s.stk.upSeen then s
      else
        let s := s.withStk { s.stk with digSent := s.now, upSeen := up }
        let bytes := ports.flatMap (digestEntry s)
        let pay := (List.range (squaresFor bytes.length)).map (fun k => sqOfBytes ((bytes.drop (64 * k)).take 64))
        (s.presentOthers.foldl (fun s i => (s.sendStk i 0x03 0 bytes.length pay).1) s).stackEvents)

/-- DIGEST (R366). -/
def execDigest (s : State) : Out :=
  .next (s.stkRow 0x03 (fun s r =>
    let bytes := r.pay.flatMap (fun q => sqBytes q 0 64)
    let s := (List.range (r.len / 16)).foldl (fun (s : State) k =>
      let e := ((bytes.drop (16 * k)).take 16).foldl (fun a b => a * 256 + b) 0
      let d : DigestEnt := { up := bitOf e 112, vlMask := bitsOf e 96 16, q := bitsOf e 64 22, r := bitsOf e 32 20 }
      (s.withDigests (SMap.set {} s.digests (256 * r.slot + bitsOf e 120 8) d))) s
    (((s.withDigestAt (SMap.set 0 s.digestAt r.slot (s.now + 1))) : State).bump R.STK_DIGEST_RX, some (0, none))))

/-- DIGEST_STALE (R366): the newest digest of member i has become older than 4 × DIGEST_US. -/
def execDigestStale (i : Fin 12) (s : State) : Out :=
  .next (if SMap.get 0 s.digestAt i = 0 || s.digestFresh i then s
    else (s.withDigests (SMap.mapAll {} s.digests (fun k d => if k / 256 = i.val then { d with up := false } else d))))

/-- STROBE_ARM (R370). -/
def execStrobeArm (s : State) : Out :=
  .next (s.stkRow 0x06 (fun s r =>
    if !maskOk r.arg then (s, some (4, none))
    else
      let s := (s.wr R.STK_STROBE_STAT_ARMED 1).wr R.STK_STROBE_STAT_CANCELLED 0
      let s := s.withStk { s.stk with arm := some (r.arg, s.now), commit := none }
      if (maskParts r.arg).any s.copying.contains then ((s.withStk { s.stk with armWait := some r }), none)
      else (s, some (0, none))))

/-- STROBE_COMMIT (R370): T in the future is kept; a late one swaps at once. -/
def execStrobeCommit (s : State) : Out :=
  .next (s.stkRow 0x07 (fun s r =>
    match s.stk.arm with
    | none => (s, some (4, none))
    | some (mask, _) =>
      let t := r.arg % 2 ^ 48
      let s := s.wr R.STK_STROBE_STAT_T_US t
      if s.us < t then ((s.withStk { s.stk with commit := some t }), some (0, none))
      else
        let s := (s.bump R.STK_STROBE_LATE).fault 714 0x0B07
        (s.dropArm.stackSwap mask, some (0, none))))

/-- STROBE_CANCEL (R370). -/
def execStrobeCancel (s : State) : Out :=
  .next (s.stkRow 0x08 (fun s _ => ((s.dropArm).wr R.STK_STROBE_STAT_CANCELLED 1, some (0, none))))

/-- STROBE_LEAD_EXPIRE (R370): an answer is missing at STROBE_LEAD_US. -/
def execStrobeLeadExpire (s : State) : Out :=
  .next (match s.stk.strobe with
    | some (_, t, _, req) =>
      if s.now < t + s.strobeLead * 1000 then s
      else
        let s := s.strobeAsks.foldl (fun s i => (s.sendStk i 0x08 0 0 []).1) s
        let s := (s.bump R.STK_STROBE_CANCEL).wr R.STK_STROBE_STAT_CANCELLED 1
        let s := s.withStk { s.stk with strobe := none, syncing := s.stk.syncing.map (fun i => if 16 ≤ i && i < 32 then i - 16 else i) }
        match req with
        | some r => (s.dropReq r).respond r 1
        | none => s
    | none => s)

/-- ARM_LAPSE (R370): 2 × STROBE_LEAD_US without a COMMIT. -/
def execArmLapse (s : State) : Out :=
  .next (match s.stk.arm, s.stk.commit with
    | some (_, t), none => if s.now < t + 2 * s.strobeLead * 1000 then s else s.dropArm
    | _, _ => s)

/-- STACK_SWAP (R370): fabric time has reached T. -/
def execStackSwap (s : State) : Out :=
  .next (match s.stk.arm, s.stk.commit with
    | some (mask, _), some t =>
      if s.us < t then s
      else
        let s := s.dropArm
        let s := s.withStk { s.stk with syncing := s.stk.syncing.map (fun i => if 16 ≤ i && i < 32 then i + 16 else i) }
        s.stackSwap mask
    | _, _ => s)

/-- FAULT_REPORT (R372): at the master. -/
def execFaultReport (s : State) : Out :=
  .next (s.stkRow 0x09 (fun s r =>
    let f := match r.arg % 4 with | 0 => R.STK_FAULTS_CORR | 1 => R.STK_FAULTS_DEFER | 2 => R.STK_FAULTS_UNCORR | _ => R.STK_FAULTS_FATAL
    (s.wr f (setBits (s.rd f) (r.slot % 12) 1 1), some (0, none))))

/-- PSN_MIRROR (R373): at the standby master. -/
def execPsnMirror (s : State) : Out :=
  .next (s.stkRow 0x0A (fun s r =>
    let m := bitsOf r.arg 16 16
    let jump := decide (m ≠ (s.stk.mseq + 1) % 65536)
    let s := if jump then s.wr R.STK_STAT_STANDBY_STALE 1 else s
    let s := (s.withStk { s.stk with
      mseq := m, mirror := SMap.set 0 s.stk.mirror (r.arg % 16) (r.arg / 2 ^ 32 % 2 ^ 32 + 1)
      full := if jump then none else if bitOf r.arg 4 then some m else s.stk.full })
    (s, some (0, none))))

/-- MIRROR_MISS (R373): a PSN_MIRROR has had no answer for 20 µs, and its command is executed anyway. -/
def execMirrorMiss (s : State) : Out :=
  .next (match s.stk.sent.find? (fun x => x.cmd % 256 == 0x0A && decide (x.at_ + 20000 ≤ s.now) &&
      s.cgc.reqs.any (fun r => r.mirror == some x.psn)) with
    | some x =>
      let s := s.dropSent x.psn
      let s := s.withCgc { s.cgc with reqs := s.cgc.reqs.map (fun (r : MgmtReq) => if r.mirror = some x.psn then { r with mirror := none } else r) }
      (s.bump R.STK_MIRROR_MISS).wr R.STK_STAT_STANDBY_STALE 1
    | none => s)

/-- A member that has fallen silent leaves PRESENT, and the sync's relayed writes wait for no answer (R375). -/
def State.endSync (s : State) (i : Nat) : State :=
  (s.setPresent i false).withStk { s.stk with
    sent := s.stk.sent.filter (fun x => x.member != i || x.cmd % 256 != 0x04 || s.stk.relays.any (fun r => r.1 == x.psn))
    syncing := s.stk.syncing.filter (fun k => k != i && k != 16 + i && k != 32 + i) }

/-- HB_MISS (R373 to R375): the standby master has missed HB_MISS heartbeats and asks, or forgoes a takeover while its mirror
is stale; the master clears silent members from PRESENT, with a sync of theirs that runs, and is deposed when more than half of the members
are silent: one that has not answered it yet since it became the master. DEDUCED (log entry 47): the members are all of MEMBERS. -/
def execHbMiss (s : State) : Out :=
  .next (if !s.inStack then s
    else if s.isMaster then
      let silent := s.allOthers.filter (fun i =>
        decide (max (SMap.get 0 s.stk.hbResp i) (s.stk.masterAt + 1) + s.hbMiss * s.hbPeriod ≤ s.now + 1))
      let s := silent.foldl endSync s
      if s.allOthers.length + 1 < 2 * silent.length then s.depose else s
    else if s.rd R.STK_CFG_STANDBY_IDX ≠ s.ownMember ∨ s.rdB R.STK_STAT_DEPOSED = true ∨
        s.now < s.stk.lastHb + s.hbMiss * s.hbPeriod ∨ (s.stk.queryAt ≠ 0 ∧ s.now < s.stk.queryAt + s.hbPeriod) then s
    else
      let s := ((s.bump R.STK_HB_MISSED).withStk { s.stk with queryAt := s.now })
      if s.rdB R.STK_STAT_STANDBY_STALE then
        s.forgoTakeOver
      else
        let l := s.presentOthers.filter (· != s.rd R.STK_STAT_MASTER_NOW)
        let s := s.withStk { s.stk with queried := l }
        if l.isEmpty then s.takeOver else l.foldl (fun s i => (s.sendStk i 0x0B 0 0 []).1) s)

/-- MASTER_QUERY (R374): OK when no heartbeat has arrived for (HB_MISS − 1) × HB_PERIOD_US. -/
def execMasterQuery (s : State) : Out :=
  .next (s.stkRow 0x0B (fun s _ => (s, some (if s.stk.lastHb + (s.hbMiss - 1) * s.hbPeriod ≤ s.now then 0 else 1, none))))

/-- TAKEOVER (R374). -/
def execTakeover (s : State) : Out :=
  .next (s.stkRow 0x0C (fun s r =>
    let s := if s.isMaster then s.depose else s
    let s := (s.wr R.STK_STAT_MASTER_NOW r.slot).dropArm
    ((s.withStk { s.stk with lastHb := s.now }), some (0, none))))

/-- MEMBER_SYNC (R375): at the master, member i's tables have been relayed: one stack-wide strobe, after which it joins
PRESENT. At another member, i joins PRESENT; where it is the module itself, its external ports train. -/
def execMemberSync (i : Fin 12) (s : State) : Out :=
  .next (if !s.inStack || !s.isMember i then s
    else if s.isMaster && decide (i.val ≠ s.ownMember) then
      if s.stk.syncing.contains (32 + i.val) then
        let s := s.setPresent i true
        (s.withStk { s.stk with syncing := s.stk.syncing.filter (· != 32 + i.val) })
      else if s.stk.syncing.contains i && !s.stk.sent.any (fun x => x.member == i.val && x.cmd % 256 == 0x04) &&
          s.stk.strobe.isNone && s.stk.commit.isNone then
        let s := s.withStk { s.stk with syncing := s.stk.syncing.map (fun k => if k = i.val then 16 + k else k) }
        s.beginStackStrobe 1 none
      else s
    else if i.val = s.ownMember ∧ s.isMaster = false ∧ s.stk.strobed = false then s
    else
      let s := s.setPresent i true
      if i.val = s.ownMember then s.externalPorts.foldl leaveDisabled s else s)

/-! ## Rows that may enter UP -/

/-- ROW_RX (R100 to R103, R111 to R114, R120): the row at the head of the port's receive stream, or one step of the search for rows. A
control row waits for the command of its CTYPE; a data or idle row is taken here. A follower in CONFIRM enters UP on its first row that
is not a control row (R109). -/
def execRowRx (p : Fin 256) (s : State) : Out :=
  match s.headRow p with
  | none => .next s
  | some (b, marked) =>
    let good := !marked && rowCrcOk b
    if !(s.port p).delineated then .next (s.searchRow p good)
    else if !good then .next ((s.dropBits p 4224).badRow p)
    else
      let r := rowDecode b
      let named := match ctrlOf r with | some q => decide (1 ≤ cmType q) && decide (cmType q ≤ 4) | none => false
      if named then .next s
      else
        let s := s.takeHead p
        if r.ty = 3 || !nsqOk r then .next (s.requestReset p 7)
        else if r.ty = 2 then .next (if s.linkState p = 7 then s.ctrlInUp p (r.squares.getD 0 0) else s)
        else if s.linkState p = 7 then .next (s.upRow p r)
        else if s.linkState p = 6 && !s.rdB (R.LNK_STAT_LEADER (p / 2) (p % 2)) && (s.port p).peerReady then
          .next ((s.enterUp p).upRow p r).stackEvents
        else if r.ty = 1 then .next (s.requestReset p 7)
        else .next s

/-- CONFIRM_ROW_RX (R109): the leader enters UP on the follower's READY; the follower notes the leader's. A CONFIRM row
also carries the peer's EQ_DONE. -/
def execConfirmRowRx (p : Fin 256) (s : State) : Out :=
  .next (s.onCtrl p 3 (fun s q =>
    match s.linkState p with
    | 5 => (s.modPort p (fun st => { st with peerDone := bitOf (cmFlags q) 1 })).eqAdvance p
    | 6 =>
      if bitOf (cmFlags q) 2 then
        if s.rdB (R.LNK_STAT_LEADER (p / 2) (p % 2)) then (if s.readyNow p then (s.enterUp p).stackEvents else s)
        else s.modPort p (fun st => { st with peerReady := true })
      else s
    | 7 => s.ctrlInUp p q
    | _ => s))

end Sys2Proof.Machine
end

