-- ==== Sys2Proof/Machine/Pmon.lean ====
section
/-!
DEFINITION. Counters, snapshots and sampling (R460 to R467).
-/
namespace Sys2Proof.Machine

/-- Runs of module counters in ascending map order, with LT, LNK and HPT_FN left out: first offset and number (R460). -/
def counterRuns : List (Nat × Nat) :=
  [(0x400, 4), (0x20300, 4), (0x30200, 8), (0x40100, 5), (0x80400, 11), (0x300200, 16), (0x400100, 9), (0x800200, 15),
   (0x900100, 4), (0x940100, 4), (0x980100, 4), (0x9C0100, 4), (0xA00100, 14), (0xB00100, 22), (0xC00100, 20),
   (0xD00100, 14), (0xE00100, 9), (0xF80100, 2)]

/-- Map offset of the n-th counter of the runs. -/
def runOff : List (Nat × Nat) → Nat → Option Nat
  | [], _ => none
  | (o, c) :: rest, n => if n < c then some (o + 8 * n) else runOff rest (n - c)

/-- Map offset of the n-th LT counter: in each tile three of each lane, then five of each port group. -/
def ltCounterOff (n : Nat) : Nat :=
  let t := n / 136
  let r := n % 136
  0x100000 + 0x10000 * t +
    (if r < 96 then 0x100 + 0x80 * (r / 3) + (if r % 3 = 0 then 0x28 else 0x40 + 8 * (r % 3 - 1))
     else 0x2008 + 0x40 * ((r - 96) / 5) + 8 * ((r - 96) % 5))

/-- Map offset of the n-th LNK counter: fifteen of each logical port. -/
def lnkCounterOff (n : Nat) : Nat := 0x200200 + 0x1000 * (n / 30) + 0x800 * (n % 30 / 15) + 8 * (n % 15)

/-- Map offset of the register in which counter index c is kept (R460); none for an index left over. -/
def counterOff (c : Nat) : Option Nat :=
  if c < 8192 then
    let f := c / 16
    if c % 16 < 7 then some (0x910040 + 0x40000 * (f / 128) + 0x100 * (f % 128) + 8 * (c % 16)) else some (0xF00000 + 8 * c)
  else
    let n := c - 8192
    if n < 169 then runOff counterRuns n
    else if n < 169 + 2176 then some (ltCounterOff (n - 169))
    else if n < 169 + 2176 + 3840 then some (lnkCounterOff (n - 169 - 2176))
    else none

/-- The register at an offset is a counter. -/
def isCounter (off : Nat) : Bool :=
  counterRuns.any (fun r => decide (r.1 ≤ off) && decide (off < r.1 + 8 * r.2)) ||
    (decide (0xF00000 ≤ off) && decide (off < 0xF10000)) ||
    (decide (0x100000 ≤ off) && decide (off < 0x200000) &&
      (let r := off % 0x10000
       (decide (0x100 ≤ r) && decide (r < 0x1100) && ([0x28, 0x40, 0x48].contains ((r - 0x100) % 0x80))) ||
         (decide (0x2008 ≤ r) && decide (r < 0x2200) && decide ((r - 0x2000) % 0x40 ≤ 0x28) && decide (8 ≤ (r - 0x2000) % 0x40)))) ||
    (decide (0x200000 ≤ off) && decide (off < 0x280000) && decide (0x200 ≤ off % 0x800) && decide (off % 0x800 < 0x278)) ||
    (decide (0x900000 ≤ off) && decide (off < 0xA00000) &&
      (let r := off % 0x40000
       decide (0x10000 ≤ r) && decide (r < 0x18000) && decide (0x40 ≤ r % 0x100) && decide (r % 0x100 < 0x78)))

/-- The island a counter index lives in (R467). -/
def counterIsland (c : Nat) : Nat :=
  if c < 8192 then (if c % 16 < 7 then 19 + c / 2048 else 17)
  else
    let off := (counterOff c).getD 0
    if off < 0x20000 then 24
    else if off < 0x30000 then 25
    else if off < 0x100000 then 24
    else if off < 0x200000 then (off - 0x100000) / 0x10000
    else if off < 0x280000 then (off - 0x200000) / 0x8000
    else if off < 0x900000 then 16
    else if off < 0xA00000 then 19 + (off - 0x900000) / 0x40000
    else if off < 0xD00000 then 17
    else if off < 0xE00000 then 18
    else 24

namespace State

/-- A snapshot of every counter at one fabric time (R462). -/
def snapshot (s : State) : State :=
  let s := s.settlePats
  let s := s.withPmon { s.pmon with snap := s.flds.keep (fun k => isCounter (k / 64 * 8)) }
  ((s.wr R.PMON_SNAP_TIME_NS s.winTime).withPmon { s.pmon with snapAt := some s.now } : State).timIrq 4

/-- Records of the sample ring: RING_LOG outside 10 to 20 acts as 20. -/
def ringSize (s : State) : Nat :=
  let l := s.rd R.PMON_RING_CFG_RING_LOG
  2 ^ (if l < 10 ∨ 20 < l then 20 else l)

/-- The TELEM partition as byte addresses (R409). -/
def telem (s : State) : Nat × Nat :=
  match s.opening with
  | some o =>
    let start := ((o.parts.take 8).map Prod.snd).sum * 2 ^ 20
    (start, start + (o.parts.getD 8 (false, 0)).2 * 2 ^ 20)
  | none => (0, 0)

/-- The eight words of a record (R464). -/
def recordWords (kind seq : Nat) (t : Tagged) : List Nat :=
  let st := fun (i : Nat) => match t.stages.getD i none with
    | some x => (x - t.t0) % 2 ^ 32
    | none => 0xFFFFFFFF
  [kind + t.flags % 256 * 2 ^ 8 + t.cls % 256 * 2 ^ 16 + t.a % 2 ^ 32 * 2 ^ 32, t.b % 2 ^ 32 + t.c % 2 ^ 32 * 2 ^ 32, t.t0,
   st 0 + st 1 * 2 ^ 32, st 2 + st 3 * 2 ^ 32, st 4 + st 5 * 2 ^ 32, st 6 + t.psn % 2 ^ 32 * 2 ^ 32, seq]

/-- Write one record to the ring, or drop it (R465). A record that would lie outside TELEM is dropped. -/
def writeRecord (s : State) (kind : Nat) (t : Tagged) : State :=
  let size := s.ringSize
  let wr := s.rd R.PMON_RING_WR_WR
  let rd := s.rd R.PMON_RING_RD_RD
  let used := (wr + 2 ^ 32 - rd) % 2 ^ 32
  let a := s.rd R.PMON_RING_CFG_RING_BASE * 4096 + wr % size * 64
  let (lo, hi) := s.telem
  if (size ≤ used && !s.rdB R.PMON_SAMPLE_CFG_OVERWRITE) || decide (a < lo) || decide (hi < a + 64) || s.refuses 23 then
    s.bump R.PMON_SAMPLE_DROP
  else
    let ws := recordWords kind s.pmon.seq t
    let s := (List.range 8).foldl (fun s i => s.setMemWord (a + 8 * i) (ws.getD i 0)) s
    let s := if size ≤ used then s.wr R.PMON_RING_RD_RD (rd + 1) else s
    ((s.wr R.PMON_RING_WR_WR (wr + 1)).withPmon { s.pmon with seq := s.pmon.seq + 1 })

/-- A sampler is enabled (R465). -/
def sampling (s : State) : Bool := s.rdB R.PMON_SAMPLE_CFG_PKT_EN || s.rdB R.PMON_SAMPLE_CFG_WORK_EN

/-- The enables of the samplers take values; enabling either resets WR, RD and SEQ (R465). -/
def samplerEnable (s : State) (pkt work : Bool) : State :=
  let on := (pkt && !s.rdB R.PMON_SAMPLE_CFG_PKT_EN) || (work && !s.rdB R.PMON_SAMPLE_CFG_WORK_EN)
  let s := (s.wrB R.PMON_SAMPLE_CFG_PKT_EN pkt).wrB R.PMON_SAMPLE_CFG_WORK_EN work
  if on then (((s.wr R.PMON_RING_WR_WR 0).wr R.PMON_RING_RD_RD 0).withPmon { s.pmon with seq := 0 }) else s

/-- PMON_RING_RD may take a value: it lies between RD and WR (R465). -/
def ringRdOk (s : State) (v : Nat) : Bool :=
  let rd := s.rd R.PMON_RING_RD_RD
  decide ((v + 2 ^ 32 - rd) % 2 ^ 32 ≤ (s.rd R.PMON_RING_WR_WR + 2 ^ 32 - rd) % 2 ^ 32)

end State

open State

/-- TAKE (R462): one that coincides with a periodic snapshot takes no other. -/
def execTake (m : Master) (s : State) : Out :=
  .next (s.gated m 0xF80000 (fun s => if s.pmon.periodAt = some s.now then s else s.snapshot))

/-- SNAP_PERIOD (R462): at a boundary of SNAP_US. -/
def execSnapPeriod (s : State) : Out :=
  let us := s.rd R.PMON_SNAP_CTL_SNAP_US
  .next (if us = 0 || !s.crossed (us * 1000) then s
    else
      let s := s.withPmon { s.pmon with periodAt := some s.now }
      if s.pmon.snapAt = some s.now then s else s.snapshot)

/-- SAMPLE_RECORD (R464): the record of the item that ended first. -/
def execSampleRecord (s : State) : Out :=
  .next (match s.pmon.ended with
    | [] => s
    | (kind, t) :: rest => (s.withPmon { s.pmon with ended := rest } : State).writeRecord kind t)

/-- SAMPLER_ENABLE (R465): a write of the enables; enabling either resets WR, RD and SEQ. -/
def execSamplerEnable (m : Master) (pkt work : Bool) (s : State) : Out :=
  .next (s.gated m 0xF80010 (fun s => s.samplerEnable pkt work))

end Sys2Proof.Machine
end

