-- ==== Sys2Proof/Machine/Fault.lean ====
section
/-!
DEFINITION. Faults, self-test and serviceability (chapter 18): errors and holds, the chess clocks, injection, targeted tests
and their verdicts, fences and spares, the table copies, headless forwarding and ageing.
-/
namespace Sys2Proof.Machine

/-- The island a unit lies in (R10, R426). -/
def unitIsland (u : Nat) : Nat :=
  if u < 16 then u
  else if u < 144 then (u - 16) / 8
  else if u < 148 then 19 + (u - 144)
  else if u < 252 then 17
  else if u < 288 then 18
  else if u < 679 then 16
  else if u = 679 then 17
  else if u = 680 then 18
  else if u < 714 then 23
  else if u = 715 then 25
  else 24

/-- Kinds of unit that have spares (R439): pawns, rooks and buffer banks. -/
def hasSpares (u : Nat) : Bool := decide (148 ≤ u) && decide (u < 678)

/-- Kinds of unit that FLT_CMD acts on (R440): those of R439 but for the arbiter, whose test is its restart. -/
def cmdUnit (u : Nat) : Bool := holdable u && u != 714

/-- A checker for the code is present in the unit (R435): the sources of the table of R428. -/
def hasChecker (u code : Nat) : Bool :=
  let tile := decide (u < 16)
  let group := decide (16 ≤ u) && decide (u < 144)
  let host := decide (144 ≤ u) && decide (u < 148)
  let pc := decide (682 ≤ u) && decide (u < 714)
  match code with
  | 0x0101 => tile | 0x0102 => tile
  | 0x0103 => group | 0x0104 => group | 0x0201 => group | 0x0202 => group | 0x0203 => group | 0x0204 => group | 0x0205 => group
  | 0x0301 => host | 0x0302 => host
  | 0x0401 => decide (148 ≤ u) && decide (u < 252) | 0x0402 => decide (148 ≤ u) && decide (u < 252)
  | 0x0403 => decide (148 ≤ u) && decide (u < 252)
  | 0x0501 => decide (252 ≤ u) && decide (u < 288) | 0x0502 => decide (252 ≤ u) && decide (u < 288)
  | 0x0601 => decide (288 ≤ u) && decide (u < 678) | 0x0602 => decide (288 ≤ u) && decide (u < 678)
  | 0x0701 => u == 678 | 0x0702 => u == 678 | 0x0703 => u == 678 | 0x0704 => u == 678 | 0x0705 => u == 678 | 0x0706 => u == 678
  | 0x0707 => tile || host || (decide (678 ≤ u) && decide (u ≤ 681)) || u == 714
  | 0x0708 => tile || host || (decide (678 ≤ u) && decide (u ≤ 681)) || u == 714
  | 0x0801 => u == 679 || u == 680 || u == 714
  | 0x0802 => u == 679 || host | 0x0803 => u == 679 || host
  | 0x0A01 => u == 681 || pc | 0x0A02 => u == 681 || pc
  | 0x0A03 => pc | 0x0A04 => u == 681
  | 0x0B01 => u == 714 | 0x0B02 => u == 714
  | 0x0B03 => tile || host || (decide (678 ≤ u) && decide (u ≤ 681)) || u == 714 || u == 715
  | 0x0B04 => u == 714 | 0x0B05 => u == 714 | 0x0B06 => u == 714 | 0x0B07 => u == 714 | 0x0B09 => u == 714
  | 0x0B08 => true
  | 0x0C01 => u == 715 | 0x0C02 => u == 715 | 0x0C03 => u == 715 | 0x0C04 => u == 715
  | _ => false

/-- The correcting and the uncorrectable code of a checker with check bits (R428, R435). -/
def eccCodes (code : Nat) : Option (Nat × Nat) :=
  match code with
  | 0x0103 => some (0x0103, 0x0104) | 0x0104 => some (0x0103, 0x0104)
  | 0x0301 => some (0x0301, 0x0302) | 0x0302 => some (0x0301, 0x0302)
  | 0x0401 => some (0x0401, 0x0402) | 0x0402 => some (0x0401, 0x0402)
  | 0x0501 => some (0x0501, 0x0502) | 0x0502 => some (0x0501, 0x0502)
  | 0x0601 => some (0x0601, 0x0602) | 0x0602 => some (0x0601, 0x0602)
  | 0x0707 => some (0x0707, 0x0708) | 0x0708 => some (0x0707, 0x0708)
  | 0x0802 => some (0x0802, 0x0803) | 0x0803 => some (0x0802, 0x0803)
  | 0x0A01 => some (0x0A01, 0x0A02) | 0x0A02 => some (0x0A01, 0x0A02)
  | _ => none

/-- The code that an injection raises: PAIR_BROKEN, that of the check its KIND fails, or its checker's (R435). -/
def Injection.raises (j : Injection) : Nat :=
  match eccCodes j.code with
  | some (c, x) => if j.kind = 0 then c else x
  | none => j.code

namespace State

/-! Spares (R439, R440, R445). -/

/-- Unit u is kept as a spare. -/
def isSpare (s : State) (u : Nat) : Bool :=
  if 148 ≤ u ∧ u < 252 then s.rdB (R.MTC_PAWN_STAT_SPARE (u - 148))
  else if 252 ≤ u ∧ u < 288 then s.rdB (R.COL_ROOK_STAT_SPARE (u - 252))
  else false

def setSpare (s : State) (u : Nat) (b : Bool) : State :=
  if 148 ≤ u ∧ u < 252 then s.wrB (R.MTC_PAWN_STAT_SPARE (u - 148)) b
  else if 252 ≤ u ∧ u < 288 then s.wrB (R.COL_ROOK_STAT_SPARE (u - 252)) b
  else s

/-- MTC_PAWN_STAT or COL_ROOK_STAT of unit u follows its state. -/
def showUnit (s : State) (u : Nat) : State :=
  if 148 ≤ u ∧ u < 252 then s.showPawn (u - 148)
  else if 252 ≤ u ∧ u < 288 then (s.showRook (u - 252)).showCol
  else s

/-- The spare that would take the place of pawn or rook u: the lowest spare of its kind in good order. -/
def nextSpare (s : State) (u : Nat) : Option Nat :=
  if 148 ≤ u ∧ u < 252 then ((List.range 104).map (148 + ·)).find? (fun v => s.isSpare v && s.rd (R.FLT_UNIT_STATE v) == 4)
  else if 252 ≤ u ∧ u < 288 then ((List.range 36).map (252 + ·)).find? (fun v => s.isSpare v && s.rd (R.FLT_UNIT_STATE v) == 4)
  else none

/-- A spare exists for unit u: for a bank, one of the six (R146). -/
def spareFor (s : State) (u : Nat) : Bool :=
  if 288 ≤ u ∧ u < 678 then decide (s.flt.fencedBanks.length < 6) else (s.nextSpare u).isSome

/-- Activate a spare in the place of the fenced pawn or rook u, once; a spare for a service pawn takes its service (R26,
R439). It waits while the arbiter's processor does not run (R445). -/
def activateSpare (s : State) (u : Nat) : State :=
  if s.flt.spared.contains u || u < 148 || 288 ≤ u then s
  else if !s.arbRuns then
    (s.withFlt { s.flt with spareDue := if s.flt.spareDue.contains u then s.flt.spareDue else s.flt.spareDue ++ [u] })
  else
    match s.nextSpare u with
    | none => s
    | some v =>
      let s := s.withFlt { s.flt with spared := s.flt.spared ++ [u], spareDue := s.flt.spareDue.filter (· != u) }
      let s := s.wake (if u < 252 then 17 else 18)
      let s := (s.setSpare v false).wr (R.FLT_UNIT_STATE v) 0
      let s := if u < 252 && s.rdB (R.MTC_PAWN_STAT_SERVICE (u - 148)) then s.wr (R.MTC_PAWN_STAT_SERVICE (v - 148)) 1 else s
      s.showUnit v

/-! Buffer banks (R146). -/

/-- SPARES_LEFT, SWC_BANK_FENCE and the dynamic region follow the fenced banks; a region below 65,536 squares is a Fatal fault. -/
def showBanks (s : State) : State :=
  let s := s.wr R.SWC_BUF_STAT_SPARES_LEFT (6 - s.flt.fencedBanks.length)
  let s := (List.range 7).foldl (fun s k => s.wr (R.SWC_BANK_FENCE k)
    ((s.flt.fencedBanks.filter (fun b => b / 64 == k)).map (fun b => 2 ^ (b % 64))).sum) s
  let was := s.rd R.SWC_BUF_STAT_DYN_SIZE
  let s := s.showDyn
  if s.opening.isSome && decide (65536 ≤ was) && decide (s.rd R.SWC_BUF_STAT_DYN_SIZE < 65536) then s.fault 678 0x0703 else s

/-- The number of physical bank b in use (R126). -/
def bankNumber (s : State) (b : Nat) : Option Nat := (List.range 384).find? (fun n => s.bankAt n == some b)

/-- Number n names physical bank b, which no longer goes by the number that it had before a fence, or none. -/
def nameBank (s : State) (n : Nat) (b : Option Nat) : State :=
  s.withSwc { s.swc with
    banks := SMap.set 0 s.swc.banks n (match b with
      | some b => if b = n then 0 else b + 1
      | none => 391)
    was := match b with | some b => SMap.set 0 s.swc.was b 0 | none => s.swc.was }

/-- The spare that takes the place of a fenced bank: the lowest (DESIGN CHOICE, log entry 107). -/
def spareBank (s : State) : Option Nat := (List.range 390).find? (fun b => !s.bankInUse b && !s.flt.fencedBanks.contains b)

/-- The allocator stops writing to bank b, and a spare takes its number at once (R146). -/
def takeBank (s : State) (b : Nat) : State :=
  if s.flt.fencedBanks.contains b then s
  else
    let s := s.withFlt { s.flt with fencedBanks := s.flt.fencedBanks ++ [b] }
    (match s.bankNumber b with
    | some n => (s.withSwc { s.swc with was := SMap.set 0 s.swc.was b (n + 1) } : State).nameBank n s.spareBank
    | none => s).showBanks

/-- Bank b may be written again: it takes a number that has no bank, or else is a spare (R146). -/
def giveBank (s : State) (b : Nat) : State :=
  let s := s.withFlt { s.flt with fencedBanks := s.flt.fencedBanks.filter (· != b) }
  (match (List.range 384).find? (fun n => (s.bankAt n).isNone) with
  | some n => s.nameBank n (some b)
  | none => s).showBanks

/-! Module memory (R442). -/

/-- 4 KiB blocks of the partition total, and those the partition leaves unused and that hold no remapped block. -/
def partBlocks (s : State) : Nat := match s.opening with | some o => 256 * (o.parts.map Prod.snd).sum | none => 0
def unusedBlocks (s : State) : Nat := 24 * 262144 - s.partBlocks - s.flt.remapped

/-- A pseudo-channel's share of the partition total, in 4 KiB blocks. -/
def channelShare (s : State) : Nat := s.partBlocks / 32

/-- The pseudo-channel that 4 KiB block b is mapped to: of the interleaved 32, or after a remapping one that is not fenced, which the
spec does not name. -/
def blockChannel : List Remap → Nat → Nat
  | [], b => b % 32
  | e :: older, b =>
    let c := blockChannel older b
    let hit := match e with | .row x => x == b | .channel k => k == c
    let good := (List.range 32).filter (fun k => !(e :: older).contains (.channel k))
    if hit then good.getD (Config.remapChannel older.length b % good.length) 0 else c

/-- What a lost word of module memory holds: nothing valid in the rank partition, whose entry is then not VALID (R64), and a free value
elsewhere. -/
def lostWord (s : State) (w : Nat) : Nat :=
  match s.partition 3 with
  | (a, n) => if a ≤ 8 * w ∧ 8 * w < a + n then 0 else (Config.lostWord s.rng w).toNat

/-- The context of connection cid has a byte that `hit` picks. -/
def ctxIn (cid : Nat) (hit : Nat → Bool) : Bool :=
  let a := (Config.ctxAt cid).toNat
  let n := (Config.ctxBytes).toNat
  hit a || hit (a + n)

/-- The connections whose contexts `hit` picks lose them, and fail at their next use (R288). -/
def loseContexts (s : State) (hit : Nat → Bool) : State :=
  (s.xpt.conns.filterMap (fun e => if e.2.isSome && hit e.1 then some e.1 else none)).foldl (fun (s : State) c => s.loseContext c) s

/-- Fencing pseudo-channel k loses every block mapped to it: its words of module memory, and the contexts that lie there. The lost blocks
are remapped where the unused space holds them. -/
def losePc (s : State) (k : Nat) : State :=
  let at_ := fun (s : State) (b : Nat) => blockChannel s.flt.remaps b == k
  let s := (s.withMem (SMap.mapAll 0 s.mem (fun w v => if at_ s (w / 512) then s.lostWord w else v))).draw
  let s := s.loseContexts (fun c => ctxIn c (fun a => at_ s (a / 4096)))
  if s.unusedBlocks < s.channelShare then s.fault 681 0x0A04
  else (s.withFlt { s.flt with remapped := s.flt.remapped + s.channelShare, remaps := .channel k :: s.flt.remaps })

/-- A lasting memory row: a spare row repairs it, and where those are exhausted its 4 KiB block is remapped to unused space; DEDUCED:
MEM_REMAP_FULL where none is left (log entry 123). -/
def repairRow (s : State) (b : Nat) : State :=
  if s.flt.sparedRows < Config.memSpareRows then (s.withFlt { s.flt with sparedRows := s.flt.sparedRows + 1 })
  else if s.unusedBlocks = 0 then s.fault 681 0x0A04 (4096 * b)
  else (s.withFlt { s.flt with remapped := s.flt.remapped + 1, remaps := .row b :: s.flt.remaps })

/-- What a lasting verdict on a region repairs at once: a memory row. -/
def repairRegion (s : State) (r : TestRegion) : State :=
  match r with
  | .memRow b => s.repairRow b.toNat
  | _ => s

/-! The arbiter's processor (R444, R445). -/

/-- Requests and strobes that the loss of the processor discards, a stack-wide strobe that has not swapped included. -/
def dropRequests (s : State) : State :=
  let strobe := fun (c : ArbCmd) => match c with | .strobe _ _ => true | _ => false
  let had := s.arb.queue.any strobe
  let cmd := s.arb.queue.any (fun c => match c with | .strobe _ .cmd => true | _ => false)
  let head := match s.arb.queue with | c :: _ => strobe c | [] => false
  let s := (((s.withArb { s.arb with queue := s.arb.queue.filter (fun c => !strobe c), begun := if head then false else s.arb.begun }).withCgc { s.cgc with reqs := [] }).withStk { s.stk with strobe := none, arm := none, commit := none, armWait := none })
  let s := (s.withArbIn (s.arbIn.filter (fun x => x.1.opcode != 0x80))).wr R.STK_STROBE_STAT_ARMED 0
  let s := if cmd then s.wr R.CGC_CMD_STAT_BUSY 0 else s
  if had then ((s.wr R.GLB_STROBE_STAT_BUSY 0).wr R.GLB_STROBE_STAT_RESULT 6).glbIrq 0 else s

/-- A restart begins (R446). -/
def beginRestart (s : State) : State :=
  let s := s.withFlt { s.flt with restarting := true }
  (s.wr R.FLT_ARB_STAT_STATE 1).wr R.FLT_ARB_STAT_RESTARTS (s.rd R.FLT_ARB_STAT_RESTARTS + 1)

/-- The processor is lost: headless forwarding, and an automatic restart where one may run. -/
def loseProcessor (s : State) : State :=
  if s.rd R.FLT_ARB_STAT_STATE = 2 then s
  else
    let s := (s.wr R.FLT_ARB_STAT_STATE 2).wr R.FLT_STATUS_HEADLESS 1
    let s := s.withFlt { s.flt with lostAt := some s.powered, restarting := false }
    let s := (s.dropRequests.vector 0).refreshAlert
    let recent := match s.flt.lastAuto with | some t => decide (s.powered < t + 600000000000) | none => false
    if s.rdB R.FLT_ARB_CTL_AUTO_RESTART && !recent then
      (s.withFlt { s.flt with lastAuto := some s.powered } : State).beginRestart
    else s

/-! Holds, fences and releases (R427, R439 to R441). -/

/-- What taking unit u out of service does to the rest of the module (R439). -/
def outOfService (s : State) (u : Nat) (wasFree : Bool) : State :=
  if u < 288 then (if wasFree && !s.isSpare u then s.takeUnit u else s.showUnit u)
  else if u < 678 then s.takeBank (u - 288)
  else if u = 714 then s.loseProcessor
  else s

/-- Hold unit u for an error of class 2. -/
def hold (s : State) (u : Nat) : State :=
  let st := s.rd (R.FLT_UNIT_STATE u)
  if st = 5 then s
  else
    let k := s.cls 2
    let s := if k.holding.contains u || st = 3 then s else s.setCls 2 { k with holding := k.holding ++ [u] }
    if st = 1 ∨ st = 2 ∨ st = 3 then s
    else
      let free := s.unitFree u
      (s.wr (R.FLT_UNIT_STATE u) 1).outOfService u free

/-- Unit u is no longer held by any error. -/
def endHold (s : State) (u : Nat) : State :=
  [0, 1, 2, 3].foldl (fun s c => s.setCls c { s.cls c with holding := (s.cls c).holding.filter (· != u) }) s

/-- Unit u returns to service, or to the spares it belongs to, unless an isolation keeps it out. -/
def backToService (s : State) (u : Nat) : State :=
  let s := s.endHold u
  let s := s.withFlt { s.flt with
    fellFenced := s.flt.fellFenced.filter (· != u), fenced := s.flt.fenced.filter (· != u), spared := s.flt.spared.filter (· != u) }
  let s := s.withArb { s.arb with returning := s.arb.returning.filter (· != u) }
  let s := s.wr (R.FLT_UNIT_STATE u) (if s.isSpare u then 4 else 0)
  if u < 148 then s.returnUnit u
  else if u < 288 then s.showUnit u
  else if u < 678 then s.giveBank (u - 288)
  else s

/-- Enter a lasting fence in the fence log; false where the log is full, which FLT_CMD_STAT shows (R441). The entry waits while IN_LOW
is set, under which the arbiter starts no new protected-flash write (R468), and while its processor does not run (R445). -/
def logFence (s : State) (u : Nat) : State × Bool :=
  if s.rdB (R.FLT_UNIT_LOGGED u) then (s, true)
  else if s.rdB R.PWR_STAT_IN_LOW || !s.arbRuns then
    ((s.withFlt { s.flt with logDue := if s.flt.logDue.contains u then s.flt.logDue else s.flt.logDue ++ [u] }), true)
  else
    match (List.range 64).find? (fun n => !s.rdB (R.FLT_FENCE_LOG_VALID n)) with
    | none => (s.wr R.FLT_CMD_STAT_RESULT 7, false)
    | some n =>
      let s := (s.wr (R.FLT_FENCE_LOG_UNIT n) u).wr (R.FLT_FENCE_LOG_VALID n) 1
      let s := (s.wr (R.FLT_FENCE_LOG_CLEARING n) 0).wr (R.FLT_FENCE_LOG_CODE n) (s.rd (R.FLT_UNIT_LAST_CODE u))
      let s := s.wr (R.FLT_FENCE_LOG_POWERED_H n) (s.powered / 3600000000000)
      (s.wr (R.FLT_UNIT_LOGGED u) 1, true)

/-- The entries that waited are written (R445, R468). -/
def logWaiting (s : State) : State :=
  s.flt.logDue.foldl (fun (s : State) u => (s.logFence u).1) (s.withFlt { s.flt with logDue := [] })

/-- Fence unit u. One that LEAVE waits for has returned (R38). -/
def setFenced (s : State) (u : Nat) : State :=
  if s.rd (R.FLT_UNIT_STATE u) = 3 then s
  else
    let free := s.unitFree u
    let s := (s.endHold u).wr (R.FLT_UNIT_STATE u) 3
    let s := s.withFlt { s.flt with fenced := s.flt.fenced ++ [u] }
    let s := s.withArb { s.arb with returning := s.arb.returning.filter (· != u) }
    let s := s.outOfService u free
    if 682 ≤ u ∧ u < 714 then s.losePc (u - 682) else s

/-- Fence unit u for good, with a spare in its place where one exists. Answers whether the log took it. -/
def fenceForGood (s : State) (u : Nat) (spare : Bool) : State × Bool :=
  let s := s.setFenced u
  let s := s.withFlt { s.flt with fellFenced := s.flt.fellFenced.filter (· != u) }
  let s := if spare then s.activateSpare u else s
  s.logFence u

/-! Verdicts (R438). -/

/-- Unit u becomes a spare of its kind; a pawn that was a service pawn is none any more. -/
def becomeSpare (s : State) (u : Nat) : State :=
  let s := s.setSpare u true
  (if 148 ≤ u ∧ u < 252 then s.wr (R.MTC_PAWN_STAT_SERVICE (u - 148)) 0 else s).backToService u

/-- Apply a verdict to the unit whose test has ended. A lasting one keeps an isolated unit out for good (R38). -/
def applyVerdict (s : State) (u : Nat) (pass : Bool) : State :=
  let st := s.rd (R.FLT_UNIT_STATE u)
  if s.flt.fellFenced.contains u then
    if pass then (if hasSpares u then s.becomeSpare u else s.backToService u)
    else (s.fenceForGood u true).1
  else if st = 1 then
    if bitOf (s.rd R.FLT_POLICY1_HANDLER) 2 || !s.arbRuns then s
    else if pass then s.backToService u
    else (s.fenceForGood u true).1
  else if s.arb.returning.contains u && decide (148 ≤ u) && st != 3 then
    let s := s.withArb { s.arb with returning := s.arb.returning.filter (· != u) }
    if pass then s.showUnit u else (s.fenceForGood u true).1
  else if decide (u < 288) && s.isolated u && !pass && st != 3 then (s.fenceForGood u true).1
  else s

/-- FLT_UNIT.STATE of unit u when no test runs on it any more: held, fenced, or as it was. -/
def stateAfter (s : State) (u : Nat) : Nat :=
  if (s.cls 2).holding.contains u then 1
  else if s.flt.fenced.contains u then 3
  else if s.isSpare u then 4 else 0

/-- Unit u is held, fenced or isolated; a port group is so with its lane tile (R35, R439). -/
def outUnit (s : State) (u : Nat) : Bool :=
  s.unitDown u || (decide (u < 288) && s.isolated u) ||
    (decide (16 ≤ u) && decide (u < 144) && (s.isolated ((u - 16) / 8) || s.unitDown ((u - 16) / 8)))

/-- Unit u may have an out-of-service test (R436); a bank only under ALL (R37). -/
def mayTest (s : State) (u : Nat) : Bool := if 288 ≤ u ∧ u < 678 then s.allIsolated else s.outUnit u

/-- The test of a region runs while its unit is in service (R437). -/
def inServiceTest (r : TestRegion) : Bool :=
  match r with
  | .unit _ => false
  | _ => true

/-- No square that is not on the free list lies in a block of 256 squares (R437). -/
def blockFree (s : State) (r : TestRegion) : Bool :=
  match r with
  | .block k => s.swc.tags.all (fun e => s.shownAddr e.1 / 256 != k.toNat)
  | _ => true

/-- A pending test starts: on a unit that is out of service it shows testing. -/
def startTest (s : State) (r : TestRegion) (u : Nat) : State :=
  let s := s.withFlt { s.flt with pending := s.flt.pending.filter (fun (t : TestRegion × Nat) => t.1 != r), running := s.flt.running ++ [(r, u)] }
  let s := s.showPending u
  if s.outUnit u then s.wr (R.FLT_UNIT_STATE u) 2 else s

/-- Record a verdict in FLT_UNIT: a lasting one counts for every test of the round. -/
def setVerdict (s : State) (u : Nat) (pass : Bool) : State :=
  let s := if pass then s else s.withFlt { s.flt with failed := s.flt.failed ++ [u] }
  s.wr (R.FLT_UNIT_VERDICT u) (if s.flt.failed.contains u then 2 else 1)

/-- What a test measured makes its region lasting or not (R437); none where that test is not the one the region has now: the live margin
for a lane in service, the held test for one that is out of service. DEDUCED: one point without an eye opening is enough (log entry
123). -/
def testPasses (s : State) (r : TestRegion) (u : Nat) : TestResult → Option Bool
  | .check ok => match r with | .lane _ => none | .unit v => if v.toNat < 16 ∨ (682 ≤ v.toNat ∧ v.toNat < 714) then none else some ok | _ => some ok
  | .margin symbols eye => match r with
    | .lane l => if s.outUnit u then none else some (decide (symbols.toNat < 2 ^ s.healthExp (l.val / 32)) && decide (15 ≤ eye.toNat))
    | _ => none
  | .pattern errors early late => match r with
    | .lane _ => if s.outUnit u then some (errors == 0 && early && late) else none
    | _ => none
  | .tile ok lanes => match r with
    | .unit v => if v.toNat < 16 then some (ok && decide (((List.range 32).filter (bitOf lanes.toNat)).length ≤ 4)) else none
    | _ => none
  | .march rows => match r with
    | .unit v => if 682 ≤ v.toNat ∧ v.toNat < 714 then some (decide (rows.toNat ≤ 64)) else none
    | _ => none

/-- The lanes that a test found healthy are so again (R89, R437). -/
def healLanes (s : State) (r : TestRegion) (pass : Bool) (m : TestResult) : State :=
  let heal := fun (s : State) (l : Nat) => s.wr (R.LT_HEALTH_UNHEALTHY (l / 32)) (setBits (s.rd (R.LT_HEALTH_UNHEALTHY (l / 32))) (l % 32) 1 0)
  match r, m with
  | .lane l, _ => if pass then heal s l.val else s
  | .unit t, .tile _ lanes => ((List.range 32).filter (fun i => !bitOf lanes.toNat i)).foldl (fun s i => heal s (32 * t.toNat + i)) s
  | _, _ => s

/-- The test of region r on unit u has ended with a verdict. -/
def endTest (s : State) (r : TestRegion) (u : Nat) (pass : Bool) : State :=
  let s := s.withFlt { s.flt with
    running := s.flt.running.filter (fun (t : TestRegion × Nat) => t.1 != r)
    pending := s.flt.pending.filter (fun (t : TestRegion × Nat) => t.1 != r)
    transient := if pass then s.flt.transient.filter (fun (t : TestRegion × Nat) => t.1 != r) ++ [(r, s.powered)] else s.flt.transient }
  let s := (s.showPending u).setVerdict u pass
  let s := if pass then s else s.repairRegion r
  if s.unitDue u then s
  else
    let s := if s.rd (R.FLT_UNIT_STATE u) = 2 then s.wr (R.FLT_UNIT_STATE u) (s.stateAfter u) else s
    let s := s.applyVerdict u (s.rd (R.FLT_UNIT_VERDICT u) == 1)
    if s.flt.cmdUnit = some u then
      (s.withFlt { s.flt with cmdUnit := none } : State).wr R.FLT_CMD_STAT_BUSY 0
    else s

/-! Errors with the hold of their class. -/

/-- An error reaches the collector, with the immediate effect its class has on its unit (R427, R439). -/
def reportHold (s : State) (e : FaultIn) : State :=
  let fresh := e.cls == 2 && !s.unitDown e.unit
  let judged := (errRegions e).filter (s.judgedAtOnce e.cls)
  let s := if fresh then s.wr (R.FLT_UNIT_VERDICT e.unit) 0 else s
  let s := judged.foldl repairRegion (s.report e)
  if e.cls ≠ 2 then s
  else
    let service := decide (148 ≤ e.unit) && decide (e.unit < 252) && s.activeService == [e.unit - 148]
    let s := s.hold e.unit
    let s := if service && !s.spareFor e.unit then s.report { e with cls := 3 } else s
    if judged.isEmpty then s else s.applyVerdict e.unit false

/-- An error with the class of its code on its unit. -/
def raise (s : State) (u code : Nat) (addr : Nat := 0) : State :=
  s.reportHold { unit := u, code := code, cls := raisedClass u code, addr := addr }

/-! Table entries (R443). -/

/-- The fields of the register file that lie in the entry at offset off, and those that do not. -/
def entryFields (s : State) (off : Nat) : SMap Nat := s.flds.keep (fun k => entryBase (keyOff k) == off)
def otherFields (s : State) (off : Nat) : SMap Nat := s.flds.keep (fun k => entryBase (keyOff k) != off)

/-- An uncorrectable entry: in an active bank it reads as zero, and so as not VALID, until it is repaired; in a shadow bank it is set to
zero. -/
def loseEntry (s : State) (off u : Nat) : State :=
  let off := entryBase off
  match bankOf off with
  | some (_, true, _) =>
    if s.flt.badTable.any (fun b => b.1 == off) then s
    else (s.withFlds (s.otherFields off)).withFlt { s.flt with badTable := s.flt.badTable ++ [(off, s.entryFields off, u)] }
  | some (_, false, _) => s.withFlds (s.otherFields off)
  | none => s

/-- The arbiter writes an entry again from its copy. -/
def restoreEntry (s : State) (off : Nat) : State :=
  match s.flt.badTable.find? (fun b => b.1 == off) with
  | none => s
  | some (_, saved, _) =>
    let s := s.withFlds (saved.foldl (fun m (e : Nat × Nat) => SMap.set 0 m e.1 e.2) (s.otherFields off))
    (s.withFlt { s.flt with badTable := s.flt.badTable.filter (fun b => b.1 != off) })

/-! ERROR_PAIR. -/

/-- The context of connection cid has bytes in the 8-byte word at address a. -/
def ctxAround (cid a : Nat) : Bool :=
  let b := (Config.ctxAt cid).toNat
  decide (b < a + 8) && decide (a ≤ b + (Config.ctxBytes).toNat)

/-- What a Deferred error does to the one object it concerns (R428). Whether the entry of the connection cache that fails was modified is
a free value; a clean one is dropped and loaded again, which no later operation sees. -/
def objectFails (s : State) (u code addr : Nat) : State :=
  match code with
  | 0x0104 =>
    let ports := if 16 ≤ u ∧ u < 144 then s.portsOfGroup (u - 16) else []
    let named := ports.filter (· == addr)
    (if named.isEmpty then ports else named).foldl (fun s p => s.requestReset p 7) s
  | 0x0602 => (match s.holderOf (8192 * (u - 288) + addr % 8192) with | some (pid, k) => s.loseSquare pid k | none => s)
  | 0x0708 => s.loseEntry addr u
  | 0x0803 => if u = 679 ∧ Config.ctxModified s.rng = true then s.draw.failConn addr 0x81 none else s.draw
  | 0x0A02 => (s.setMemWord addr (s.lostWord (addr / 8))).draw.loseContexts (fun c => ctxAround c (addr / 8 * 8))
  | _ => s

/-- Pairs of the unit's island are masked (R424): parked, or under test unless an injection drives them. -/
def pairMasked (s : State) (u : Nat) (injected : Bool) : Bool :=
  let k := s.island (unitIsland u)
  k == 2 || (k == 3 && !injected)

/-- An injection waits for this check (R435). -/
def injectionOf (s : State) (u code : Nat) : Option Injection :=
  s.flt.inj.find? (fun j => j.unit == u && code == j.raises)

/-- The checker asserts its pair from now on, or no longer does (R424, R431). -/
def setAsserting (s : State) (u code c : Nat) (b : Bool) : State :=
  let k := s.cls c
  let l := k.asserting.filter (fun x => !(x.1 == u && x.2 == code))
  s.setCls c { k with asserting := if b then l ++ [(u, code)] else l }

/-- One error of ERROR_PAIR. -/
def onePair (s : State) (e : ErrIn) : State :=
  let u := e.unit.toNat
  let code := e.code.toNat
  let inj := s.injectionOf u code
  match codeClass code with
  | none => s
  | some _ =>
    if 716 < u || s.pairMasked u inj.isSome then s
    else
      let c := raisedClass u code
      let s := match inj with
        | some j => if j.cont then s else (s.withFlt { s.flt with inj := s.flt.inj.filter (fun x => x != j) })
        | none => s
      let s := if code = 0x0601 then s.bump R.SWC_ECC_CORR else s
      let s := if code = 0x0B08 then s.bump R.FLT_PAIR_BROKEN else s
      let s := s.reportHold { unit := u, code := code, cls := c, access := e.access.toNat, master := e.master.toNat
                              addr := e.addr.toNat, syndrome := e.syndrome.toNat, injected := inj.isSome }
      let s := s.setAsserting u code c e.stays
      s.objectFails u code e.addr.toNat

end State

open State

/-- ERROR_PAIR (R424, R427, R430): the errors of one arbiter-island cycle, lowest unit number first. -/
def execErrorPair (errs : List ErrIn) (s : State) : Out :=
  .next ((errs.mergeSort (fun a b => decide (a.unit.toNat ≤ b.unit.toNat))).foldl State.onePair s).stackEvents

/-- PAIR_BROKEN (R424): the pair has been (0, 0) or (1, 1) for 8 cycles. -/
def execPairBroken (u : BitVec 10) (s : State) : Out := .next (s.onePair { unit := u, code := 0x0B08 }).stackEvents

/-! ## Clearing, acknowledging and flag fall -/

namespace State

/-- Flag-fall time of class c in ns; 0 acts as 1 ms. -/
def flagFall (s : State) (c : Nat) : Nat := max 1 (s.rd (R.FLT_POLICY0_FF c)) * 1000000

/-- The cause of class c persists (R431). -/
def causePersists (s : State) (c : Nat) : Bool :=
  let k := s.cls c
  k.asserting.any (fun x => !s.pairMasked x.1 false) ||
    s.flt.inj.any (fun j => j.cont && k.units.contains j.unit && raisedClass j.unit j.raises == c) ||
    k.holding.any (fun u => s.rd (R.FLT_UNIT_STATE u) == 1 || s.rd (R.FLT_UNIT_STATE u) == 2) ||
    (c == 3 && !k.units.isEmpty)

/-- A clear of class c takes effect. -/
def clearClass (s : State) (c : Nat) : State :=
  let m := 2 ^ 4 - 1 - 2 ^ c
  let s := s.wr R.FLT_STATUS_SET (s.rd R.FLT_STATUS_SET &&& m)
  let s := s.wr R.FLT_STATUS_ACKED (s.rd R.FLT_STATUS_ACKED &&& m)
  let s := s.wr R.FLT_STATUS_FELL (s.rd R.FLT_STATUS_FELL &&& m)
  let k := s.cls c
  let s := s.setCls c { k with clock := none, stopped := false, units := [], asserting := [] }
  let s := if c = 0 then (List.range 717).foldl (fun s u => s.wr (R.FLT_UNIT_RATE_HIT u) 0) s else s
  (s.refreshAlert.withStk { s.stk with reported := s.stk.reported.filter (· != c) })

/-- Fatal actions of R433. -/
def fatalActions (s : State) : State :=
  let s := s.formedPorts.foldl disablePort s
  let s := (List.range 4).foldl (fun s p => (s.hostPortDown p).emit (.hostLink p false)) s
  let s := s.wr R.FLT_STATUS_RESET_REQ 1
  if s.rdB R.FLT_POLICY1_FATAL_AUTO_RESET then
    (s.withFlt { s.flt with resetAt := some (s.now + s.rd R.FLT_POLICY1_RESET_DELAY_MS * 1000000) })
  else s

/-- Flag fall of Uncorrected-contained for one held unit: fenced, a spare activated, its verdict applied by the collector once
its test has run. -/
def fallFence (s : State) (u : Nat) : State :=
  if u = 714 then (s.endHold u).wr (R.FLT_UNIT_STATE u) 3
  else
    let tested := s.rd (R.FLT_UNIT_VERDICT u) != 0 && !s.unitDue u
    let s := s.setFenced u
    let s := s.withFlt { s.flt with fellFenced := s.flt.fellFenced ++ [u] }
    let s := s.activateSpare u
    if tested then s.applyVerdict u (s.rd (R.FLT_UNIT_VERDICT u) == 1)
    else (unitRegions u).foldl (fun s r => s.addTest u r) (s.openRound u)

/-- The escalation of class c (R433). -/
def escalate (s : State) (c : Nat) : State :=
  match c with
  | 0 =>
    ((List.range 717).filter (fun u => s.rdB (R.FLT_UNIT_RATE_HIT u))).foldl (fun s u =>
      s.reportHold { unit := u, code := s.rd (R.FLT_UNIT_LAST_CODE u), cls := 1, addr := SMap.get 0 s.flt.lastAddr u, promoted := true }) s
  | 1 =>
    ((s.cls 1).units.filter holdable).foldl (fun s u =>
      s.reportHold { unit := u, code := s.rd (R.FLT_UNIT_LAST_CODE u), cls := 2, addr := SMap.get 0 s.flt.lastAddr u, promoted := true }) s
  | 2 => (s.cls 2).holding.foldl fallFence s
  | _ => s.fatalActions

end State

/-- FLT_STATUS_CLEAR (R431): a write of 1 to bits of SET. -/
def execFltStatusClear (m : Master) (mask : BitVec 4) (s : State) : Out :=
  .next (s.gated m 0x30000 (fun s =>
    (List.range 4).foldl (fun s c =>
      if !bitOf mask.toNat c || !bitOf (s.rd R.FLT_STATUS_SET) c then s
      else if s.causePersists c then s.bump R.FLT_CLEAR_IGNORED
      else s.clearClass c) s))

/-- FLT_ACK (R432): an acknowledgement at or after flag fall is late. -/
def execFltAck (m : Master) (mask : BitVec 4) (s : State) : Out :=
  .next (s.gated m 0x30008 (fun s =>
    (List.range 4).foldl (fun s c =>
      let k := s.cls c
      let late := match k.clock with | some t => decide (t + s.flagFall c ≤ s.now) | none => false
      if !bitOf mask.toNat c || !bitOf (s.rd R.FLT_STATUS_SET) c || late || bitOf (s.rd R.FLT_STATUS_FELL) c then s
      else s.stopClock c) s))

/-- FLAG_FALL (R433). -/
def execFlagFall (c : Fin 4) (s : State) : Out :=
  .next (match (s.cls c).clock with
    | none => s
    | some t =>
      if s.now < t + s.flagFall c then s
      else
        let s := s.setCls c { s.cls c with clock := none, stopped := true }
        let s := s.wr R.FLT_STATUS_FELL (s.rd R.FLT_STATUS_FELL ||| 2 ^ c.val)
        let s := (s.bump R.FLT_FLAG_FALLS).vector 0
        ((s.escalate c).refreshAlert).stackEvents)

/-- RATE_HIT (R434). -/
def execRateHit (unit : BitVec 10) (s : State) : Out :=
  let u := unit.toNat
  .next (if 716 < u || s.rdB (R.FLT_UNIT_RATE_HIT u) || SMap.get 0 s.flt.corrIdx u != s.now / 1000000000 ||
      decide (s.rd (R.FLT_UNIT_CORR_WIN u) < max 1 (s.rd R.FLT_POLICY1_CORR_RATE)) then s
    else
      let s := s.wr (R.FLT_UNIT_RATE_HIT u) 1
      let k := s.cls 0
      if k.clock.isSome || k.stopped then s else s.setCls 0 { k with clock := some s.now })

/-! ## Fault injection (R435) -/

namespace State

/-- Injection is allowed on unit u. -/
def mayInject (s : State) (u : Nat) : Bool :=
  s.rdB R.FLT_POLICY1_INJ_LIVE || s.outUnit u

/-- Stop every continuous injection. -/
def stopInjection (s : State) : State :=
  let on := s.flt.inj.filter (·.cont)
  let s := s.withFlt { s.flt with inj := s.flt.inj.filter (fun j => !j.cont) }
  let s := on.foldl (fun s j => s.setAsserting j.unit j.code (raisedClass j.unit j.code) false) s
  (s.wr R.FLT_INJ_STAT_ACTIVE 0).wr R.FLT_INJ_STAT_RESULT 0

end State

/-- INJECT (R435): KIND 0 to 2; KIND 3 stops. A checker without check bits, or a held pair, acts at once; one with check bits
waits for its next check. -/
def execInject (m : Master) (unit : BitVec 10) (code : BitVec 16) (kind : BitVec 2) (cont : Bool) (s : State) : Out :=
  let u := unit.toNat
  .next (s.gated m 0x30028 (fun s =>
    if kind = 3 then s.stopInjection
    else if s.rdB R.FLT_INJ_STAT_ACTIVE then s.wr R.FLT_INJ_STAT_RESULT 1
    else if 716 < u || !hasChecker u code.toNat then s.wr R.FLT_INJ_STAT_RESULT 3
    else if !s.mayInject u then s.wr R.FLT_INJ_STAT_RESULT 2
    else
      let raised := if kind = 2 then 0x0B08 else code.toNat
      let j : Injection := { unit := u, code := raised, kind := kind.toNat, cont := cont }
      let s := (s.wr R.FLT_INJ_STAT_RESULT 0).wrB R.FLT_INJ_STAT_ACTIVE cont
      let s := s.withFlt { s.flt with inj := s.flt.inj ++ [j] }
      if kind ≠ 2 && (eccCodes code.toNat).isSome then s
      else (s.onePair { unit := unit, code := BitVec.ofNat 16 raised, stays := cont }).stackEvents))

/-- INJECT_STOP (R435): a START write with KIND 3. -/
def execInjectStop (m : Master) (_unit : BitVec 10) (_code : BitVec 16) (s : State) : Out :=
  .next (s.gated m 0x30028 stopInjection)

/-! ## Tests (R436 to R438) -/

/-- TEST_START (R436, R437): a scheduled test starts where it may run. The arbiter sequences tests while its processor runs. -/
def execTestStart (r : TestRegion) (s : State) : Out :=
  .next (match s.flt.pending.find? (fun t => t.1 == r) with
    | none => s
    | some (_, u) =>
      let bank := match r with | .unit v => decide (288 ≤ v.toNat) && decide (v.toNat < 678) | _ => false
      let rewrite := match r with | .tableEntry _ => true | _ => false
      if !s.arbRuns || s.flt.running.any (fun t => t.2 == u) || u = 714 || bank || rewrite then s
      else if (inServiceTest r && s.blockFree r) || (!inServiceTest r && s.mayTest u) then s.startTest r u else s)

/-- TEST_VERDICT (R437, R438): a running test ends with what it measured, which makes its region transient or lasting. -/
def execTestVerdict (r : TestRegion) (m : TestResult) (s : State) : Out :=
  .next (match s.flt.running.find? (fun t => t.1 == r) with
    | none => s
    | some (_, u) =>
      match s.testPasses r u m with
      | none => s
      | some pass => if s.arbRuns then (s.healLanes r pass m).endTest r u pass else s)

/-- BANK_TEST (R37, R146): the self-test of a bank that is empty and fenced, or whose test a command has asked for under ALL. -/
def execBankTest (bank : Fin 390) (pass : Bool) (s : State) : Out :=
  let u := 288 + bank.val
  .next (if s.arbRuns && s.bankUsed bank.val == 0 && s.testDue (regionOf u) && (s.flt.fencedBanks.contains bank.val || s.allIsolated) then
      s.endTest (regionOf u) u pass
    else s)

/-- TABLE_REWRITE (R443): the entry at a map offset is rewritten from the arbiter's copy and read back. A mismatch is lasting: a
spare row takes the place of the row, or the error is raised again as Fatal. -/
def execTableRewrite (off : BitVec 26) (readBackOk spareLeft : Bool) (s : State) : Out :=
  let o := entryBase off.toNat
  .next (
    if !s.arbRuns then s
    else
      let due := (s.flt.pending ++ s.flt.running).find? (fun t => match t.1 with | .tableEntry x => entryBase x.toNat == o | _ => false)
      let unit := match s.flt.badTable.find? (fun b => b.1 == o), due with
        | some b, _ => some b.2.2
        | none, some t => some t.2
        | none, none => none
      match unit with
      | none => s
      | some u =>
        let s := if readBackOk || spareLeft then s.restoreEntry o else s
        let s := match due with | some t => s.endTest t.1 t.2 readBackOk | none => s
        if readBackOk || spareLeft then s else (s.reportHold { unit := u, code := 0x0708, cls := 3, addr := o }).stackEvents)

/-! ## FLT_CMD (R440) -/

namespace State

/-- An FLT_CMD write: BUSY, LAST_UNIT, kinds that do not support actions. `f` answers the result. -/
def fltCmd (s : State) (m : Master) (u : Nat) (f : State → State × Nat) : State :=
  s.gated m 0x30038 (fun s =>
    if s.rdB R.FLT_CMD_STAT_BUSY then s.wr R.FLT_CMD_STAT_RESULT 1
    else
      let s := s.wr R.FLT_CMD_STAT_LAST_UNIT u
      if !Sys2Proof.Machine.cmdUnit u || s.rd (R.FLT_UNIT_STATE u) = 5 then s.wr R.FLT_CMD_STAT_RESULT 5
      else match f s with | (s, r) => s.wr R.FLT_CMD_STAT_RESULT r)

end State

/-- TEST (R440): the unit's test runs now; it needs the unit held, fenced or isolated (R436). -/
def execTest (m : Master) (unit : BitVec 10) (s : State) : Out :=
  let u := unit.toNat
  .next (s.fltCmd m u (fun s =>
    if !s.mayTest u then (s, 5)
    else
      let s := (s.wr R.FLT_CMD_STAT_BUSY 1).withFlt { s.flt with cmdUnit := some u }
      let s := (unitRegions u).foldl (fun s r => s.addTest u r) (s.openRound u)
      let bank := decide (288 ≤ u) && decide (u < 678)
      match (unitRegions u).head? with
      | some r => (if bank || s.flt.running.any (fun t => t.2 == u) then s else s.startTest r u, 0)
      | none => (s, 0)))

/-- RELEASE (R440). -/
def execRelease (m : Master) (unit : BitVec 10) (s : State) : Out :=
  let u := unit.toNat
  .next (s.fltCmd m u (fun s =>
    if s.rd (R.FLT_UNIT_STATE u) ≠ 1 then (s, 2)
    else if s.rd (R.FLT_UNIT_VERDICT u) = 2 then (s, 4)
    else (s.backToService u, 0)))

/-- FENCE (R440, R441). -/
def execFence (m : Master) (unit : BitVec 10) (s : State) : Out :=
  let u := unit.toNat
  .next (s.fltCmd m u (fun s =>
    match s.fenceForGood u false with
    | (s, ok) => (s, if ok then 0 else 7)))

namespace State

/-- A spare takes, or has taken, the place of unit u: of a pawn or rook by `activateSpare`; of a bank the one that goes by its number
(R146). -/
def sparePlaced (s : State) (u : Nat) : Bool :=
  if 288 ≤ u ∧ u < 678 then
    let w := SMap.get 0 s.swc.was (u - 288)
    if s.flt.fencedBanks.contains (u - 288) && w != 0 then (s.bankAt (w - 1)).isSome else s.spareFor u
  else s.spareFor u || s.flt.spared.contains u

end State

/-- SPARE (R440). -/
def execSpare (m : Master) (unit : BitVec 10) (s : State) : Out :=
  let u := unit.toNat
  .next (s.fltCmd m u (fun s =>
    if !hasSpares u then (s, 5)
    else
      let left := s.sparePlaced u
      match s.fenceForGood u true with
      | (s, ok) => (s, if !left then 3 else if ok then 0 else 7)))

/-- UNFENCE (R440): the entry goes at the next warm or cold reset. -/
def execUnfence (m : Master) (unit : BitVec 10) (s : State) : Out :=
  let u := unit.toNat
  .next (s.fltCmd m u (fun s =>
    if m = .manager then (s, 6)
    else
      ((List.range 64).foldl (fun s n =>
        if s.rdB (R.FLT_FENCE_LOG_VALID n) && s.rd (R.FLT_FENCE_LOG_UNIT n) == u then s.wr (R.FLT_FENCE_LOG_CLEARING n) 1 else s) s, 0)))

/-! ## The arbiter's processor (R444 to R447) -/

/-- ARB_LOCKSTEP (R444). -/
def execArbLockstep (s : State) : Out := .next (s.onePair { unit := 714, code := 0x0B01 }).stackEvents

/-- ARB_WATCHDOG (R444). -/
def execArbWatchdog (s : State) : Out := .next (s.onePair { unit := 714, code := 0x0B02 }).stackEvents

/-- RESTART (R446): of master 0x001 only. A running processor stops for the restart. -/
def execRestart (m : Master) (s : State) : Out :=
  .next (s.gated m 0x30048 (fun s =>
    if m ≠ .commander || s.flt.restarting then s else s.dropRequests.beginRestart))

/-- The verdicts of held units that waited for the processor are applied, and fences that waited are logged (R438, R441, R446). -/
def State.applyWaiting (s : State) : State :=
  (((List.range 717).filter (fun u => s.rd (R.FLT_UNIT_STATE u) == 1 && s.rd (R.FLT_UNIT_VERDICT u) != 0 && !s.unitDue u)).foldl
    (fun (s : State) u => s.applyVerdict u (s.rd (R.FLT_UNIT_VERDICT u) == 1)) s).logWaiting

/-- RESTART_DONE (R446): the processor resumes, and waiting spares, verdicts and fence-log entries follow; or the module stays
headless. -/
def execRestartDone (ok : Bool) (s : State) : Out :=
  .next (
    if !s.flt.restarting then s
    else
      let s := s.withFlt { s.flt with restarting := false }
      let was := s.rd (R.FLT_UNIT_STATE 714)
      if ok then
        let s := (s.wr R.FLT_ARB_STAT_STATE 0).wr R.FLT_ARB_STAT_RESTART_FAIL 0
        let s := s.wr R.FLT_STATUS_HEADLESS 0
        let s := s.withFlt { s.flt with lostAt := none }
        let s := if s.testDue (regionOf 714) then s.endTest (regionOf 714) 714 true else s
        let s := if was = 0 then s else s.backToService 714
        let s := (s.flt.spareDue.foldl activateSpare s).applyWaiting
        runOrder (s.arb.queue.length + 1) s.refreshAlert
      else
        let s := (s.wr R.FLT_ARB_STAT_STATE 2).wr R.FLT_ARB_STAT_RESTART_FAIL 1
        let s := s.wr (R.FLT_UNIT_VERDICT 714) 2
        let s := if s.rdB R.FLT_STATUS_HEADLESS then s
          else (((s.wr R.FLT_STATUS_HEADLESS 1).vector 0).withFlt { s.flt with lostAt := some s.powered })
        s.refreshAlert)

/-- HEADLESS_LIMIT (R447): 24 h of powered time after the loss. -/
def execHeadlessLimit (s : State) : Out :=
  .next (match s.flt.lostAt with
    | none => s
    | some t =>
      if s.powered < t + 86400000000000 || s.rdB R.FLT_STATUS_HEADLESS_END then s
      else
        let s := s.reportHold { unit := 714, code := 0x0B09, cls := 3 }
        ((s.wr R.FLT_STATUS_HEADLESS_END 1).fatalActions).stackEvents)

/-! ## Ageing (R448) -/

/-- AGEING_READ (R448): once in every hour of powered time, the prediction of one island; LIFE_LOW is raised each time its lower bound falls below LIFE_WARN. ESR is
the power island's alone. -/
def execAgeingRead (k : Fin 26) (nominal lower drift : BitVec 16) (em esr : BitVec 8) (s : State) : Out :=
  if s.pwr.state != .on || decide (s.powered / 3600000000000 ≤ SMap.get 0 s.flt.ageHour k.val) then .next s
  else
  let s := s.withFlt { s.flt with ageHour := SMap.set 0 s.flt.ageHour k.val (s.powered / 3600000000000) }
  let s := (s.wr (R.FLT_LIFE_NOMINAL k) nominal.toNat).wr (R.FLT_LIFE_LOWER k) lower.toNat
  let s := (s.wr (R.FLT_LIFE_RO_DRIFT k) drift.toNat).wr (R.FLT_LIFE_EM_USED k) em.toNat
  let s := s.wr (R.FLT_LIFE_ESR_RISE k) (if k.val = 25 then esr.toNat else 0)
  let low := decide (lower.toNat < max 1 (s.rd R.FLT_POLICY1_LIFE_WARN))
  if !low then .next (s.withFlt { s.flt with lifeLow := s.flt.lifeLow.filter (· != k.val) })
  else if s.flt.lifeLow.contains k.val then .next s
  else .next ((s.withFlt { s.flt with lifeLow := s.flt.lifeLow ++ [k.val] } : State).fault 715 0x0C04 k.val).stackEvents

/-- LIFE_STORE (R448): every 24 h of powered time the predictions go to protected flash, unless IN_LOW forbids the write (R468). -/
def execLifeStore (s : State) : Out :=
  .next (if s.pwr.state != .on || decide (s.powered / 86400000000000 ≤ s.flt.storeDay) || s.rdB R.PWR_STAT_IN_LOW then s
  else s.withFlt { s.flt with storeDay := s.powered / 86400000000000, life := (List.range 26).foldl (fun m k => SMap.set 0 m k
    (s.rd (R.FLT_LIFE_NOMINAL k) + s.rd (R.FLT_LIFE_LOWER k) * 2 ^ 16 + s.rd (R.FLT_LIFE_RO_DRIFT k) * 2 ^ 32 +
      s.rd (R.FLT_LIFE_EM_USED k) * 2 ^ 48 + s.rd (R.FLT_LIFE_ESR_RISE k) * 2 ^ 56)) s.flt.life })

end Sys2Proof.Machine
end

