-- ==== Sys2Proof/Machine/Hash.lean ====
section
/-!
DEFINITION. Hashes, and what is built on them (R401, R413, R414, R419): SHA-384 and SHA-256 of FIPS 180-4, HMAC, and HKDF of
RFC 5869. Bytes are numbers below 256.
-/
namespace Sys2Proof.Machine

/-- A hash of the SHA-2 family: word bits, rounds, the two rotations and the shift of the message schedule's functions, the rotations of
the round's, how far the 64-bit round constants are shifted, the initial words. -/
structure Sha where
  w : Nat
  rounds : Nat
  small0 : Nat × Nat × Nat
  small1 : Nat × Nat × Nat
  big0 : Nat × Nat × Nat
  big1 : Nat × Nat × Nat
  kShift : Nat
  init : Nat
  deriving DecidableEq, Repr

/-- The 80 round constants of 64 bits, the first most significant. -/
def shaK : Nat :=
  0x428A2F98D728AE227137449123EF65CDB5C0FBCFEC4D3B2FE9B5DBA58189DBBC3956C25BF348B53859F111F1B605D019923F82A4AF194F9BAB1C5ED5DA6D8118D807AA98A303024212835B0145706FBE243185BE4EE4B28C550C7DC3D5FFB4E272BE5D74F27B896F80DEB1FE3B1696B19BDC06A725C71235C19BF174CF692694E49B69C19EF14AD2EFBE4786384F25E30FC19DC68B8CD5B5240CA1CC77AC9C652DE92C6F592B02754A7484AA6EA6E4835CB0A9DCBD41FBD476F988DA831153B5983E5152EE66DFABA831C66D2DB43210B00327C898FB213FBF597FC7BEEF0EE4C6E00BF33DA88FC2D5A79147930AA72506CA6351E003826F142929670A0E6E7027B70A8546D22FFC2E1B21385C26C9264D2C6DFC5AC42AED53380D139D95B3DF650A73548BAF63DE766A0ABB3C77B2A881C2C92E47EDAEE692722C851482353BA2BFE8A14CF10364A81A664BBC423001C24B8B70D0F89791C76C51A30654BE30D192E819D6EF5218D69906245565A910F40E35855771202A106AA07032BBD1B819A4C116B8D2D0C81E376C085141AB532748774CDF8EEB9934B0BCB5E19B48A8391C0CB3C5C95A634ED8AA4AE3418ACB5B9CCA4F7763E373682E6FF3D6B2B8A3748F82EE5DEFB2FC78A5636F43172F6084C87814A1F0AB728CC702081A6439EC90BEFFFA23631E28A4506CEBDE82BDE9BEF9A3F7B2C67915C67178F2E372532BCA273ECEEA26619CD186B8C721C0C207EADA7DD6CDE0EB1EF57D4F7FEE6ED17806F067AA72176FBA0A637DC5A2C898A6113F9804BEF90DAE1B710B35131C471B28DB77F523047D8432CAAB7B40C724933C9EBE0A15C9BEBC431D67C49C100D4C4CC5D4BECB3E42B6597F299CFC657E2A5FCB6FAB3AD6FAEC6C44198C4A475817

/-- SHA-384 before its truncation. -/
def sha384Of : Sha :=
  { w := 64, rounds := 80, small0 := (1, 8, 7), small1 := (19, 61, 6), big0 := (28, 34, 39), big1 := (14, 18, 41), kShift := 0
    init := 0xCBBB9D5DC1059ED8629A292A367CD5079159015A3070DD17152FECD8F70E593967332667FFC00B318EB44A8768581511DB0C2E0D64F98FA747B5481DBEFA4FA4 }

/-- SHA-256. -/
def sha256Of : Sha :=
  { w := 32, rounds := 64, small0 := (7, 18, 3), small1 := (17, 19, 10), big0 := (2, 13, 22), big1 := (6, 11, 25), kShift := 32
    init := 0x6A09E667BB67AE853C6EF372A54FF53A510E527F9B05688C1F83D9AB5BE0CD19 }

namespace Sha

/-- Rotation of a word to the right. -/
def rotr (h : Sha) (x n : Nat) : Nat := (x >>> n ||| x <<< (h.w - n)) % 2 ^ h.w

/-- Three rotations joined. -/
def big (h : Sha) (r : Nat × Nat × Nat) (x : Nat) : Nat := h.rotr x r.1 ^^^ h.rotr x r.2.1 ^^^ h.rotr x r.2.2

/-- Two rotations and a shift joined. -/
def small (h : Sha) (r : Nat × Nat × Nat) (x : Nat) : Nat := h.rotr x r.1 ^^^ h.rotr x r.2.1 ^^^ x >>> r.2.2

/-- Round i on the next sixteen schedule words and the eight working words. -/
def round (h : Sha) (st : List Nat × List Nat) (i : Nat) : List Nat × List Nat :=
  let ws := st.1
  match st.2 with
  | [a, b, c, d, e, f, g, z] =>
    let next := (ws.getD 0 0 + h.small h.small0 (ws.getD 1 0) + ws.getD 9 0 + h.small h.small1 (ws.getD 14 0)) % 2 ^ h.w
    let ch := (e &&& f) ^^^ ((2 ^ h.w - 1 - e) &&& g)
    let maj := (a &&& b) ^^^ (a &&& c) ^^^ (b &&& c)
    let k := bitsOf shaK (64 * (79 - i)) 64 >>> h.kShift
    let t := z + h.big h.big1 e + ch + k + ws.getD 0 0
    (ws.tail ++ [next], [(t + h.big h.big0 a + maj) % 2 ^ h.w, a, b, c, (d + t) % 2 ^ h.w, e, f, g])
  | _ => st

/-- The eight words after one more block of 16 words. -/
def block (h : Sha) (v ws : List Nat) : List Nat :=
  List.zipWith (fun a b => (a + b) % 2 ^ h.w) v ((List.range h.rounds).foldl h.round (ws, v)).2

/-- The eight words after the blocks of a padded message. -/
def blocks (h : Sha) : Nat → List Nat → List Nat → List Nat
  | 0, v, _ => v
  | n + 1, v, bs =>
    let word := fun (i : Nat) => ((bs.drop (h.w / 8 * i)).take (h.w / 8)).foldl (fun a b => a * 256 + b) 0
    blocks h n (h.block v ((List.range 16).map word)) (bs.drop (2 * h.w))

/-- A message with its padding: a one bit, zeros, and its length in bits in the last two words. -/
def pad (h : Sha) (bs : List Nat) : List Nat :=
  let n := bs.length
  let len := h.w / 4
  bs ++ [0x80] ++ List.replicate ((4 * h.w - (n + 1 + len) % (2 * h.w)) % (2 * h.w)) 0 ++ bytesBE (8 * n) len

/-- The eight words of the digest of a message, as one number. -/
def digest (h : Sha) (bs : List Nat) : Nat :=
  let m := h.pad bs
  let v := (List.range 8).map (fun i => bitsOf h.init (h.w * (7 - i)) h.w)
  (h.blocks (m.length / (2 * h.w)) v m).foldl (fun a x => a * 2 ^ h.w + x) 0

end Sha

/-- SHA-384 of a message, as a number of 384 bits. -/
def sha (bs : List Nat) : Nat := sha384Of.digest bs >>> 128

/-- A SHA-384 digest as its 48 bytes. -/
def shaBytes (bs : List Nat) : List Nat := bytesBE (sha bs) 48

/-- The first n bytes of a SHA-256 digest. -/
def sha256 (n : Nat) (bs : List Nat) : List Nat := (bytesBE (sha256Of.digest bs) 32).take n

/-- HMAC with SHA-384. -/
def hmac (key msg : List Nat) : List Nat :=
  let k := if 128 < key.length then shaBytes key else key
  let k := k ++ List.replicate (128 - k.length) 0
  shaBytes (k.map (· ^^^ 0x5C) ++ shaBytes (k.map (· ^^^ 0x36) ++ msg))

/-- HKDF with SHA-384 (RFC 5869): at most 48 bytes of output. -/
def hkdf (salt ikm info : List Nat) (n : Nat) : List Nat := (hmac (hmac salt ikm) (info ++ [1])).take n

end Sys2Proof.Machine
end

