-- ==== Sys2Proof/Machine/Hss.lean ====
section
/-!
DEFINITION. HSS signatures (R403, R414): LM-OTS and LMS of RFC 8554 with the SHA-256 parameter sets of NIST SP 800-208.
-/
namespace Sys2Proof.Machine

/-- Parameters of an LM-OTS type: digest bytes n, Winternitz bits w, digits p, shift of the checksum. -/
def otsParams (t : Nat) : Option (Nat × Nat × Nat × Nat) :=
  match t with
  | 1 => some (32, 1, 265, 7) | 2 => some (32, 2, 133, 6) | 3 => some (32, 4, 67, 4) | 4 => some (32, 8, 34, 0)
  | 5 => some (24, 1, 200, 8) | 6 => some (24, 2, 101, 6) | 7 => some (24, 4, 51, 4) | 8 => some (24, 8, 26, 0)
  | _ => none

/-- Parameters of an LMS type: digest bytes m and tree height h. -/
def lmsParams (t : Nat) : Option (Nat × Nat) :=
  if 5 ≤ t ∧ t ≤ 9 then some (32, 5 * (t - 4))
  else if 10 ≤ t ∧ t ≤ 14 then some (24, 5 * (t - 9))
  else none

/-- A number of n bytes at position o, most significant first. -/
def beAt (bs : List Nat) (o n : Nat) : Nat := ((bs.drop o).take n).foldl (fun a b => a * 256 + b) 0
/-- `n` bytes from position o. -/
def cut (bs : List Nat) (o n : Nat) : List Nat := (bs.drop o).take n

/-- An LMS public key: its type, its LM-OTS type, the identifier I and the root. -/
structure LmsKey where
  lms : Nat
  ots : Nat
  ident : List Nat
  root : List Nat
  deriving DecidableEq, Repr

/-- The LMS public key at position o, with its length; none for a type that is not supported, or where its two types have different n. -/
def lmsKeyAt (bs : List Nat) (o : Nat) : Option (LmsKey × Nat) :=
  match lmsParams (beAt bs o 4), otsParams (beAt bs (o + 4) 4) with
  | some (m, _), some (n, _) =>
    if m = n then some ({ lms := beAt bs o 4, ots := beAt bs (o + 4) 4, ident := cut bs (o + 8) 16, root := cut bs (o + 24) m }, 24 + m)
    else none
  | _, _ => none

/-- An LMS signature: leaf, LM-OTS type, C, y, LMS type, path. -/
structure LmsSig where
  q : Nat
  ots : Nat
  c : List Nat
  y : List (List Nat)
  lms : Nat
  path : List (List Nat)
  deriving DecidableEq, Repr

/-- The LMS signature at position o, with its length; none for a type that is not supported, or where its two types have different n. -/
def lmsSigAt (bs : List Nat) (o : Nat) : Option (LmsSig × Nat) :=
  match otsParams (beAt bs (o + 4) 4) with
  | none => none
  | some (n, _, p, _) =>
    let e := o + 8 + n * (p + 1)
    match lmsParams (beAt bs e 4) with
    | none => none
    | some (m, h) =>
      if m = n then
        some ({ q := beAt bs o 4, ots := beAt bs (o + 4) 4, c := cut bs (o + 8) n
                y := (List.range p).map (fun i => cut bs (o + 8 + n * (i + 1)) n)
                lms := beAt bs e 4, path := (List.range h).map (fun i => cut bs (e + 4 + m * i) m) }, e + 4 + m * h - o)
      else none

/-- Digit i of a string, of w bits. -/
def digitOf (bs : List Nat) (i w : Nat) : Nat := bitsOf (bs.getD (i * w / 8) 0) (8 - w * (i % (8 / w) + 1)) w

/-- The checksum of a digest's digits, in two bytes. -/
def otsSum (dg : List Nat) (n w ls : Nat) : List Nat :=
  bytesBE ((((List.range (8 * n / w)).map (fun i => 2 ^ w - 1 - digitOf dg i w)).sum * 2 ^ ls) % 65536) 2

/-- A chain of an LM-OTS key from step a, for k steps. -/
def otsChain (n : Nat) (pre : List Nat) (a : Nat) : Nat → List Nat → List Nat
  | 0, x => x
  | k + 1, x => otsChain n pre (a + 1) k (sha256 n (pre ++ [a] ++ x))

/-- The LM-OTS public key that a signature of a message leads to. -/
def otsKey (id : List Nat) (sig : LmsSig) (msg : List Nat) : List Nat :=
  match otsParams sig.ots with
  | none => []
  | some (n, w, p, ls) =>
    let head := id ++ bytesBE sig.q 4
    let dg := sha256 n (head ++ bytesBE 0x8181 2 ++ sig.c ++ msg)
    let v := dg ++ otsSum dg n w ls
    let ends := (List.range p).map (fun i =>
      let a := digitOf v i w
      otsChain n (head ++ bytesBE i 2) a (2 ^ w - 1 - a) (sig.y.getD i []))
    sha256 n (head ++ bytesBE 0x8080 2 ++ ends.flatten)

/-- The root that a node of the tree and its path lead to. -/
def lmsClimb (n : Nat) (id : List Nat) : List (List Nat) → Nat → List Nat → List Nat
  | [], _, x => x
  | z :: path, node, x =>
    lmsClimb n id path (node / 2)
      (sha256 n (id ++ bytesBE (node / 2) 4 ++ bytesBE 0x8383 2 ++ (if node % 2 = 1 then z ++ x else x ++ z)))

/-- LMS verification. -/
def lmsOk (k : LmsKey) (sig : LmsSig) (msg : List Nat) : Bool :=
  match lmsParams k.lms with
  | none => false
  | some (m, h) =>
    let node := 2 ^ h + sig.q
    sig.ots == k.ots && sig.lms == k.lms && decide (sig.q < 2 ^ h) &&
      lmsClimb m k.ident sig.path node (sha256 m (k.ident ++ bytesBE node 4 ++ bytesBE 0x8282 2 ++ otsKey k.ident sig msg)) == k.root

/-- The levels below the top of an HSS signature, from position o: a signature by the key above, and the key it signs with its bytes; then
the last signature. None where a type is not supported or the n of a level is not `m`; the signature ends at position `e`. -/
def hssLevels (bs : List Nat) (m e : Nat) : Nat → Nat → Option (List (LmsSig × LmsKey × List Nat) × LmsSig)
  | 0, o =>
    match lmsSigAt bs o with
    | some (g, l) => if g.c.length = m ∧ o + l = e then some ([], g) else none
    | none => none
  | n + 1, o =>
    match lmsSigAt bs o with
    | none => none
    | some (g, l) =>
      match lmsKeyAt bs (o + l) with
      | none => none
      | some (k, l') =>
        if g.c.length = m ∧ k.root.length = m then
          (hssLevels bs m e n (o + l + l')).map (fun r => ((g, k, cut bs (o + l) l') :: r.1, r.2))
        else none

/-- An HSS key and a signature taken apart: 1 to 3 levels, every type supported, the same n everywhere (R414). -/
def hssParts (key sig : List Nat) : Option (LmsKey × List (LmsSig × LmsKey × List Nat) × LmsSig) :=
  let l := beAt key 0 4
  match lmsKeyAt key 4 with
  | none => none
  | some (k, _) =>
    if 1 ≤ l ∧ l ≤ 3 ∧ beAt sig 0 4 + 1 = l then (hssLevels sig k.root.length sig.length (l - 1) 4).map (fun r => (k, r.1, r.2))
    else none

/-- HSS verification, level by level: each key is signed by the one above it, the message by the last. -/
def hssChain (msg : List Nat) (last : LmsSig) : LmsKey → List (LmsSig × LmsKey × List Nat) → Bool
  | k, [] => lmsOk k last msg
  | k, (g, k', bytes) :: rest => lmsOk k g bytes && hssChain msg last k' rest

/-- HSS verification of a message under a public key. -/
def hssOk (key msg sig : List Nat) : Bool :=
  match hssParts key sig with
  | some (k, levels, last) => hssChain msg last k levels
  | none => false

end Sys2Proof.Machine
end

