-- ==== Sys2Proof/Machine/Curve.lean ====
section
/-!
DEFINITION. The curve P-384 and ECDSA with SHA-384 (R403, R413, R414, R416, R421), as FIPS 186-5 gives them.
-/
namespace Sys2Proof.Machine

/-- The prime of P-384, the order of its base point, and its coefficient b. -/
def curveP : Nat := 2 ^ 384 - 2 ^ 128 - 2 ^ 96 + 2 ^ 32 - 1
def curveN : Nat := 0xFFFFFFFFFFFFFFFFFFFFFFFFFFFFFFFFFFFFFFFFFFFFFFFFC7634D81F4372DDF581A0DB248B0A77AECEC196ACCC52973
def curveB : Nat := 0xB3312FA7E23EE7E4988E056BE3F82D19181D9C6EFE8141120314088F5013875AC656398D8A2ED19D2A85C8EDD3EC2AEF

/-- A point of the curve; none is the point at infinity. -/
abbrev Point := Option (Nat × Nat)

/-- The base point. -/
def curveG : Point :=
  some (0xAA87CA22BE8B05378EB1C71EF320AD746E1D3B628BA79B9859F741E082542A385502F25DBF55296C3A545E3872760AB7,
    0x3617DE4A96262C6F5D9E98BF9292DC29F8F41DBD289A147CE9DA3113B5F0B8C00A60B1CE1D7E819D7A431D7C90EA0E5F)

/-- Power in a prime field, by the bits of the exponent from bit n - 1 down. -/
def powMod (m a e : Nat) : Nat → Nat
  | 0 => 1
  | n + 1 =>
    let r := powMod m a (e / 2) n
    let r := r * r % m
    if e % 2 = 1 then r * a % m else r

/-- Inverse modulo a prime of 384 bits. -/
def invMod (m a : Nat) : Nat := powMod m (a % m) (m - 2) 384

/-- The pair of numbers lies on the curve. -/
def onCurve (q : Nat × Nat) : Bool :=
  decide (q.1 < curveP) && decide (q.2 < curveP) &&
    decide (q.2 * q.2 % curveP = (q.1 * q.1 * q.1 + (curveP - 3) * q.1 + curveB) % curveP)

/-- Sum of two points. -/
def curveAdd (a b : Point) : Point :=
  match a, b with
  | none, _ => b
  | _, none => a
  | some (x, y), some (u, v) =>
    if x = u ∧ (y + v) % curveP = 0 then none
    else
      let l := if x = u then (3 * x * x + (curveP - 3)) * invMod curveP (2 * y) % curveP
        else (v + (curveP - y)) * invMod curveP (u + (curveP - x)) % curveP
      let z := (l * l + 2 * curveP - x - u) % curveP
      some (z, (l * (x + (curveP - z)) + (curveP - y)) % curveP)

/-- A multiple of a point, by the bits of the factor below bit n. -/
def curveMul (q : Point) (k : Nat) : Nat → Point
  | 0 => none
  | n + 1 =>
    let r := curveMul q (k / 2) n
    let r := curveAdd r r
    if k % 2 = 1 then curveAdd r q else r

/-- A number from its bytes, most significant first (R401). -/
def numBE (bs : List Nat) : Nat := bs.foldl (fun a b => a * 256 + b) 0

/-- The point whose coordinates 96 bytes hold; none where it is not on the curve. -/
def pointOf (bs : List Nat) : Point :=
  let q := (numBE (bs.take 48), numBE ((bs.drop 48).take 48))
  if onCurve q then some q else none

/-- ECDSA verification: public key X then Y, message, signature r then s. -/
def ecdsaOk (key msg sig : List Nat) : Bool :=
  let r := numBE (sig.take 48)
  let t := numBE ((sig.drop 48).take 48)
  match pointOf key with
  | none => false
  | some q =>
    if r = 0 ∨ curveN ≤ r ∨ t = 0 ∨ curveN ≤ t then false
    else
      let w := invMod curveN t
      match curveAdd (curveMul curveG (sha msg * w % curveN) 384) (curveMul (some q) (r * w % curveN) 384) with
      | none => false
      | some (x, _) => x % curveN == r

/-- ECDSA signature of a message by private key d with per-message number k. -/
def ecdsaSign (d k : Nat) (msg : List Nat) : List Nat :=
  match curveMul curveG k 384 with
  | none => bytesBE 0 96
  | some (x, _) =>
    let r := x % curveN
    bytesBE r 48 ++ bytesBE (invMod curveN k * (sha msg + r * d) % curveN) 48

/-- The shared secret of ECDH: the x coordinate; none where the other's key is no point of the curve. -/
def ecdh (d : Nat) (key : List Nat) : Option (List Nat) :=
  match pointOf key with
  | none => none
  | some q => (curveMul (some q) d 384).map (fun z => bytesBE z.1 48)

end Sys2Proof.Machine
end

