-- ==== Sys2Proof/Machine/KeyWrap.lean ====
section
/-!
DEFINITION. The unwrapping of key slots (R413): AES-KW of NIST SP 800-38F under a key that HKDF derives from an ECDH secret.
-/
namespace Sys2Proof.Machine

/-- The inverse substitution of AES: the entry of the box at which a byte stands. -/
def aesInvSub (b : Nat) : Nat := ((List.range 256).find? (fun i => aesSub i == b)).getD 0

/-- The inverse of SubBytes and ShiftRows. -/
def aesUnshift (st : List Nat) : List Nat :=
  (List.range 4).map (fun c => wordOf (fun r => aesInvSub (wordByte (st.getD ((c + 4 - r) % 4) 0) r)))

/-- The inverse of MixColumns of one column: MixColumns has order 4. -/
def aesUnmix (w : Nat) : Nat := aesMix (aesMix (aesMix w))

/-- Decryption of a 128-bit block under a 256-bit key. -/
def aesInv (key block : Nat) : Nat :=
  let keys := aesKeys key
  let st := aesUnshift (aesAdd keys 14 ((List.range 4).map (fun c => bitsOf block (32 * (3 - c)) 32)))
  let st := (List.range 13).foldl (fun st i => aesUnshift ((aesAdd keys (13 - i) st).map aesUnmix)) st
  (aesAdd keys 0 st).foldl (fun a w => a * 2 ^ 32 + w) 0 % 2 ^ 128

/-- One step of the unwrapping, step t of 6 n: the integrity word and the n blocks. -/
def unwrapStep (kek n : Nat) (st : Nat × List Nat) (t : Nat) : Nat × List Nat :=
  let i := (t - 1) % n
  let b := aesInv kek ((st.1 ^^^ t) * 2 ^ 64 + st.2.getD i 0)
  (b / 2 ^ 64, st.2.set i (b % 2 ^ 64))

/-- The 256-bit key that 40 wrapped bytes hold; none where the integrity check fails. -/
def kwUnwrap (kek : Nat) (bs : List Nat) : Option Nat :=
  let word := fun (i : Nat) => numBE ((bs.drop (8 * i)).take 8)
  let r := (List.range 24).foldl (fun st i => unwrapStep kek 4 st (24 - i)) (word 0, [word 1, word 2, word 3, word 4])
  if r.1 = 0xA6A6A6A6A6A6A6A6 then some (r.2.foldl (fun a w => a * 2 ^ 64 + w) 0) else none

/-- n bytes, at most 96, of the KDF in counter mode of NIST SP 800-108 with HMAC-SHA-384 from the device secret under a label (R416). -/
def deviceKdf (label : List Nat) (n : Nat) : List Nat :=
  let block := fun (i : Nat) => hmac (bytesBE Config.deviceSecret.toNat 32)
    (bytesBE i (Config.kdfCounter.val + 1) ++ label ++ [0] ++ Config.kdfContext ++ bytesBE (8 * n) (Config.kdfLength.val + 1))
  (block 1 ++ block 2).take n

/-- The private scalar of the device identity, under "ID ECDSA" (R416). -/
def idScalar : Nat := numBE (deviceKdf [0x49, 0x44, 0x20, 0x45, 0x43, 0x44, 0x53, 0x41] 56) % (curveN - 1) + 1

/-- The seed of the device identity's HSS key, under "ID HSS" (R416). -/
def idSeed : List Nat := deviceKdf [0x49, 0x44, 0x20, 0x48, 0x53, 0x53] 32

/-- The device identity certificate: USAGE 5, the key pair record and the issuer's signatures (R403, R416). -/
def idCertOf (signatures : List Nat) : List Nat :=
  let pub := match curveMul curveG idScalar 384 with | some (x, y) => bytesBE x 48 ++ bytesBE y 48 | none => bytesBE 0 96
  bytesLE 5 4 ++ pub ++ (Config.idHssKey idSeed ++ List.replicate 60 0).take 60 ++ bytesLE 0 4 ++ signatures

/-- "OPENING KEY SLOTS". -/
def slotInfo : List Nat := [0x4F, 0x50, 0x45, 0x4E, 0x49, 0x4E, 0x47, 0x20, 0x4B, 0x45, 0x59, 0x20, 0x53, 0x4C, 0x4F, 0x54, 0x53]

/-- The key of a slot that is wrapped for the module with an identity: E, the identity and the wrapped bytes (R413). -/
def unwrapSlot (e : List Nat) (identity : Nat) (bs : List Nat) : Option Nat :=
  match ecdh idScalar e with
  | none => none
  | some z => kwUnwrap (numBE (hkdf (bytesLE identity 8) z slotInfo 32)) bs

end Sys2Proof.Machine
end

