-- ==== Sys2Proof/Machine/Image.lean ====
section
/-!
DEFINITION. The Opening's container, its checks and its structural parameters (R401 to R415, R449). An image is read through a
function from its byte positions to bytes.
-/
namespace Sys2Proof.Machine

/-- An image or token as its bytes by position. -/
abbrev Bytes := Nat → Nat

/-- `n` bytes from position `o`. -/
def takeBytes (g : Bytes) (o n : Nat) : List Nat := (List.range n).map (fun i => g (o + i))
/-- A little-endian field (R401). -/
def leAt (g : Bytes) (o n : Nat) : Nat := leOf (takeBytes g o n)
/-- Every byte of a range is zero. -/
def zeroAt (g : Bytes) (o n : Nat) : Bool := (takeBytes g o n).all (· == 0)

/-! Signature blocks (R403, R414). -/

/-- A certificate: USAGE, subject key pair record, the issuer's signatures; it holds them in this order. `zeros`: the padding is zero. -/
structure Cert where
  usage : Nat
  subject : List Nat
  ecdsa : List Nat
  hss : List Nat
  zeros : Bool
  deriving DecidableEq, Repr

/-- A signature block taken apart. -/
structure SigBlock where
  ok : Bool
  signer : Nat
  root : List Nat
  certs : List Cert
  ecdsa : List Nat
  hss : List Nat
  len : Nat
  deriving DecidableEq, Repr

/-- Bytes an HSS signature of n bytes takes with its padding. -/
def padded (n : Nat) : Nat := (n + 7) / 8 * 8

/-- The certificates from position o: the list and the position after it. -/
def certsAt (g : Bytes) : Nat → Nat → List Cert × Nat
  | 0, o => ([], o)
  | n + 1, o =>
    let l := leAt g (o + 260) 4
    let c : Cert := { usage := leAt g o 4, subject := takeBytes g (o + 4) 160, ecdsa := takeBytes g (o + 164) 96
                      hss := takeBytes g (o + 264) (min l 65536), zeros := zeroAt g (o + 264 + l) (padded l - l) }
    match certsAt g n (o + 264 + padded l) with
    | (cs, e) => (c :: cs, e)

/-- Key parts of a key pair record: ECDSA and HSS public keys. -/
def keyEcdsa (r : List Nat) : List Nat := r.take 96
def keyHss (r : List Nat) : List Nat := (r.drop 96).take 60

/-- Each HSS signature of a chain fits the key that makes it: every parameter set is supported, with one n throughout (R414). The
list holds each subject with the signature over it; the key above signs it. -/
def hssSigned : List Nat → List (List Nat × List Nat) → Bool
  | _, [] => true
  | issuer, (subject, sig) :: rest => (hssParts (keyHss issuer) sig).isSome && hssSigned subject rest

/-- The signature block at position o (R403). -/
def sigBlockAt (g : Bytes) (o : Nat) : SigBlock :=
  let n := g (o + 5)
  match certsAt g (min n 2) (o + 176) with
  | (cs, e) =>
    let l := leAt g (e + 96) 4
    let len := e + 100 + padded l - o
    let b : SigBlock := { ok := true, signer := g (o + 4), root := takeBytes g (o + 16) 160, certs := cs
                          ecdsa := takeBytes g e 96, hss := takeBytes g (e + 100) (min l 65536), len := len }
    { b with ok := decide (leAt g o 4 = 0x4B4C4253) && (b.signer == 1 || b.signer == 2) && (n == 1 || n == 2) &&
        cs.all Cert.zeros && zeroAt g (e + 100 + l) (padded l - l) && zeroAt g (o + 6) 2 && zeroAt g (o + 12) 4 && decide (leAt g (o + 8) 4 = len) &&
        ((b.root :: cs.map Cert.subject).all (fun r => (r.drop 156).all (· == 0))) &&
        hssSigned b.root (cs.map (fun c => (c.subject, c.hss)) ++ [(b.root, b.hss)]) }

/-- Both signatures of a key over a message. -/
def sigEcdsaOk (key msg sig : List Nat) : Bool := ecdsaOk (keyEcdsa key) msg sig
def sigHssOk (key msg sig : List Nat) : Bool := hssOk (keyHss key) msg sig

/-- The chain from an issuer: every certificate verifies, intermediates carry USAGE 0, the last one the usage required. -/
def chainOk (usage : Nat) : List Nat → List Cert → Bool
  | _, [] => false
  | issuer, [c] =>
    let m := bytesLE c.usage 4 ++ c.subject
    c.usage == usage && sigEcdsaOk issuer m c.ecdsa && sigHssOk issuer m c.hss
  | issuer, c :: rest =>
    let m := bytesLE c.usage 4 ++ c.subject
    c.usage == 0 && sigEcdsaOk issuer m c.ecdsa && sigHssOk issuer m c.hss && chainOk usage c.subject rest

/-- The signing key pair of a block. -/
def SigBlock.key (b : SigBlock) : List Nat := match b.certs.getLast? with | some c => c.subject | none => b.root

/-- SHA-384 hashes of a root record's two keys. -/
def rootHashes (root : List Nat) : Nat × Nat := (sha (keyEcdsa root), sha (keyHss root))

/-- The root is that of an unrevoked vendor entry (R415). -/
def vendorRootOk (root : List Nat) : Bool :=
  [0, 1].any (fun r => !bitOf Config.fuseRevoked.toNat r &&
    rootHashes root == ((Config.vendorRoot r).1.toNat, (Config.vendorRoot r).2.toNat))

namespace State

/-- The root and SIGNER fit the ownership state (R415). -/
def signerOk (s : State) (b : SigBlock) : Bool :=
  match s.sec.owner with
  | none => b.signer == 1 && vendorRootOk b.root
  | some h => b.signer == 2 && rootHashes b.root == h

end State

/-! Header and section table (R401, R402). -/

/-- An entry of the section table. -/
structure Sec where
  type : Nat
  off : Nat
  len : Nat
  hash : List Nat
  deriving DecidableEq, Repr

def hSections (g : Bytes) : Nat := leAt g 16 4
def hSigOff (g : Bytes) : Nat := leAt g 12 4
def hLen (g : Bytes) : Nat := leAt g 8 4
def hSvn (g : Bytes) : Nat := leAt g 20 4
def hIdentity (g : Bytes) : Nat := leAt g 36 8

/-- The section table. -/
def secTable (g : Bytes) : List Sec :=
  (List.range (min (hSections g) 16)).map (fun i =>
    let a := 128 + 64 * i
    { type := leAt g a 2, off := leAt g (a + 4) 4, len := leAt g (a + 8) 4, hash := takeBytes g (a + 16) 48 })

/-- The section of a type. -/
def secOf (l : List Sec) (t : Nat) : Option Sec := l.find? (fun x => x.type == t)

/-- Reader of a section's bytes from its start; a missing section reads zero. -/
def secBytes (g : Bytes) (l : List Sec) (t : Nat) : Bytes :=
  match secOf l t with
  | some x => fun i => if i < x.len then g (x.off + i) else 0
  | none => fun _ => 0
def secLen (l : List Sec) (t : Nat) : Nat := match secOf l t with | some x => x.len | none => 0

/-- Two ranges do not overlap. -/
def apart (a b : Sec) : Bool := decide (a.off + a.len ≤ b.off) || decide (b.off + b.len ≤ a.off)

/-- Check 3 of R404. -/
def headerTableOk (g : Bytes) (s0 : Bool) : Bool :=
  let n := hSections g
  let l := secTable g
  let mode := secBytes g l 1 0
  let hosts := mode == 1 || mode == 2
  decide (leAt g 4 2 = 1) && decide (leAt g 6 2 ≤ 1) && decide (1 ≤ n ∧ n ≤ 16) && decide (hSvn g ≤ 128) && zeroAt g 44 84 &&
    decide (leAt g 32 4 < 4) && decide (hSigOff g % 8 = 0) && decide (128 + 64 * n ≤ hSigOff g) && decide (hSigOff g < hLen g) &&
    l.all (fun x => decide (x.off % 8 = 0) && decide (128 + 64 * n ≤ x.off) && decide (x.off + x.len ≤ hSigOff g) &&
      decide (1 ≤ x.type ∧ x.type ≤ 10) && decide ((l.filter (fun y => y.type == x.type)).length = 1)) &&
    (List.range n).all (fun i => decide (leAt g (128 + 64 * i + 2) 2 = 1) && zeroAt g (128 + 64 * i + 12) 4) &&
    (List.range n).all (fun i => (List.range n).all (fun j => i == j ||
      (match l[i]?, l[j]? with | some a, some b => apart a b | _, _ => true))) &&
    [1, 2, 3, 4, 5, 8, 9].all (fun t => (secOf l t).isSome) &&
    (if hosts then (secOf l 7).isSome else (secOf l 7).isNone) && !(s0 && (secOf l 7).isSome)

/-! Engine images (R412). -/

/-- A record of ENGINE_IMAGES. -/
structure EngRec where
  kind : Nat
  slot : Nat
  hook : Nat
  service : Nat
  cycles : Nat
  region : Nat
  code : Nat
  off : Nat
  len : Nat
  deriving DecidableEq, Repr

/-- The records from position o to the section's end; none where they do not fill it exactly. -/
def engRecs (g : Bytes) (endAt : Nat) : Nat → Nat → Option (List EngRec)
  | 0, _ => none
  | fuel + 1, o =>
    if o = endAt then some []
    else if endAt < o + 16 then none
    else
      let code := leAt g (o + 12) 4
      let kind := g o
      let len := 16 + code + (if kind = 3 then 0 else leAt g (o + 16 + code + 8) 4)
      let r : EngRec := { kind := kind, slot := g (o + 1), hook := g (o + 2), service := leAt g (o + 4) 2, cycles := leAt g (o + 6) 2
                          region := leAt g (o + 8) 4, code := code, off := o, len := len }
      if endAt < o + len then none else (engRecs g endAt fuel (o + len)).map (fun l => r :: l)

/-- A firmware record's own signature block holds (R412). -/
def firmwareOk (g : Bytes) (r : EngRec) : Bool :=
  let b := sigBlockAt g (r.off + 16 + r.code)
  let m := takeBytes g r.off (16 + r.code)
  b.ok && b.signer == 1 && vendorRootOk b.root && chainOk 2 b.root b.certs && sigEcdsaOk b.key m b.ecdsa && sigHssOk b.key m b.hss

/-! Parameters (R405 to R413, R449). A reserved field that no rule requires to be zero is ignored (R8). -/

/-- Records of TABLE_DEFAULTS as single writes, from position o; none where a record is cut off. -/
def defaultRecs (g : Bytes) (endAt : Nat) : Nat → Nat → Option (List (Nat × Nat))
  | 0, _ => none
  | fuel + 1, o =>
    if o = endAt then some []
    else if endAt < o + 8 then none
    else
      let n := leAt g (o + 4) 4
      let off := leAt g o 4
      if endAt < o + 8 + 8 * n ∨ off % 8 ≠ 0 then none
      else (defaultRecs g endAt fuel (o + 8 + 8 * n)).map (fun l =>
        (List.range n).map (fun i => (off + 8 * i, leAt g (o + 8 + 8 * i) 8)) ++ l)

/-- A record may target the register at an offset: RW fields of the blocks named, in no WO or W1C field (R411): TIM and STK, LNK, SWC to CGC,
TRN to PMON. -/
def defaultTarget (off : Nat) : Bool :=
  let block := (decide (0x40000 ≤ off) && decide (off < 0x100000)) || (decide (0x200000 ≤ off) && decide (off < 0x280000)) ||
    (decide (0x300000 ≤ off) && decide (off < 0x900000)) || (decide (0xA00000 ≤ off) && decide (off < 0x1000000))
  block && (match regAt off with
    | some d => d.fields.any (fun f => f.acc == .rw) && d.fields.all (fun f => f.acc != .wo && f.acc != .w1c)
    | none => false)

/-- The values of FAULT_POLICY in the order of `Opening.faultPolicy`, or the defaults (R449). -/
def policyOf (g : Bytes) (have_ : Bool) : List Nat :=
  if have_ then [leAt g 0 2, leAt g 2 2, leAt g 4 2, leAt g 6 2, leAt g 8 2, g 10 % 16, g 11 % 16, g 12, g 13, leAt g 14 2]
  else [1000, 100, 50, 10, 256, 0xC, 0x8, 0, 12, 1000]

/-- The Opening that an image's sections spell. -/
def openingOf (g : Bytes) (identity : Nat) : Opening :=
  let l := secTable g
  let st := secBytes g l 1
  let pm := secBytes g l 2
  let lp := secBytes g l 3
  let vc := secBytes g l 4
  let mp := secBytes g l 5
  let td := secBytes g l 6
  let hp := secBytes g l 7
  let ei := secBytes g l 8
  let sp := secBytes g l 9
  let recs := (engRecs ei (secLen l 8) 4096 0).getD []
  let pub := takeBytes sp 0 96
  { svn := hSvn g, imageId := leAt g 24 8, commitSvn := bitOf (leAt g 6 2) 0
    mode := st 0, stackRole := st 1, moduleId := leAt st 4 4, svcPawns := takeBytes st 8 (min (st 2) 8)
    ageLimit := leAt st 16 2, stackId := leAt st 20 4, members := leAt st 24 2 % 4096, member := st 26, masterIdx := st 27, standbyIdx := st 28
    portMap := (List.range 128).map (fun i => leAt pm (4 * i) 4)
    rates := takeBytes lp 0 16
    txEq := (List.range 512).map (fun i => leAt lp (16 + 4 * i) 4)
    vlMask := (List.range 128).map (fun i => leAt vc (8 * i) 2)
    grants := (List.range 256).map (fun p => leAt vc (8 * (p / 2) + 2 + 2 * (p % 2)) 2)
    guarVl := (List.range 7).map (fun i => leAt vc (1024 + 2 * i) 2)
    parts := (List.range 9).map (fun i => (bitOf (mp (8 * i + 1)) 0, leAt mp (8 * i + 4) 4))
    hostPorts := if (secOf l 7).isNone then [] else (List.range 4).map (fun p =>
      { enable := hp (32 * p) == 1, maxGen := hp (32 * p + 1), maxX8 := hp (32 * p + 2) == 1, totalVfs := hp (32 * p + 3)
        wq := leAt hp (32 * p + 4) 4, cq := leAt hp (32 * p + 8) 4, eq := leAt hp (32 * p + 12) 2, job := leAt hp (32 * p + 14) 2 })
    defaults := (defaultRecs td (secLen l 6) (secLen l 6 + 1) 0).getD []
    handlers := (recs.filter (fun r => r.kind == 3)).map (fun r =>
      { slot := r.slot, hook := r.hook, service := if r.hook = 1 then r.service else 0, cycles := r.cycles, regionMib := r.region })
    reconfAllowed := bitOf (leAt sp 96 8) 0, debugAllowed := bitsOf (leAt sp 96 8) 1 3, lockAtBoot := bitsOf (leAt sp 96 8) 4 4
    keySlots := (List.range 16).map (fun k =>
      let a := 104 + 56 * k
      { valid := sp a == 1, role := sp (a + 1), perm := sp (a + 2), srcFa := leAt sp (a + 4) 4
        key := if sp a == 1 then (unwrapSlot pub identity (takeBytes sp (a + 8) 40)).getD 0 else 0 })
    faultPolicy := policyOf (secBytes g l 10) (secOf l 10).isSome }

/-- Logical ports that a port map forms, of port group g. -/
def formedOf (w g : Nat) : List Nat := match w with | 1 => [2 * g, 2 * g + 1] | 2 => [2 * g] | 3 => if g % 2 = 0 then [2 * g] else [] | _ => []

/-- STRUCTURE holds (R24, R26, R360, R405). -/
def structureOk (st : Bytes) (len : Nat) (o : Opening) (s0 : Bool) : Bool :=
  let stack := o.mode == 4
  let set := fun (i : Nat) => decide (i < 12) && bitOf o.members i
  let n := ((List.range 12).filter (bitOf o.members)).length
  decide (len = 64) && decide (1 ≤ o.mode ∧ o.mode ≤ 4) && decide (1 ≤ st 2 ∧ st 2 ≤ 8) && zeroAt st 3 1 &&
    decide (o.moduleId < 2 ^ 18) && o.svcPawns.all (fun n => decide (n < if s0 then 8 else 96)) &&
    decide o.svcPawns.Nodup && decide (1 ≤ o.ageLimit ∧ o.ageLimit ≤ 1000) && zeroAt st 18 2 && zeroAt st 29 35 &&
    (if stack then
      decide (2 ≤ n) && set o.member && set o.masterIdx && set o.standbyIdx && o.masterIdx != o.standbyIdx &&
        o.stackRole == (if o.member = o.masterIdx then 1 else if o.member = o.standbyIdx then 2 else 3)
    else o.stackRole == 0 && o.stackId == 0 && o.members == 0 && o.member == 0 && o.masterIdx == 0 && o.standbyIdx == 0)

/-- PORT_MAP, LANE_PLAN and VL_CREDIT hold (R70, R71, R81, R117, R406 to R408). -/
def portsOk (vc : Bytes) (l : List Sec) (o : Opening) : Bool :=
  let w := fun (g : Nat) => bitsOf (o.portMap.getD g 0) 0 2
  let ports := (List.range 128).flatMap (fun g => formedOf (w g) g)
  let grantMax := fun (g : Nat) => if w g = 3 then 8192 else if w g = 2 then 4096 else 2048
  decide (secLen l 2 = 512) && decide (secLen l 3 = 2064) && decide (secLen l 4 = 1038) &&
    (List.range 128).all (fun g =>
      let e := o.portMap.getD g 0
      let q := if g % 2 = 0 then g + 1 else g - 1
      decide (e < 32) && (w g != 3 || (w q == 3 && bitsOf e 2 3 == bitsOf (o.portMap.getD q 0) 2 3)) &&
        (w g == 0 || o.rates.getD (g / 8) 0 != 0) && (o.mode == 4 || bitsOf e 3 2 == 0) &&
        bitOf (o.vlMask.getD g 0) 0 && zeroAt vc (8 * g + 6) 2 &&
        (formedOf (w g) g).all (fun p => decide (o.grants.getD p 0 ≤ grantMax g))) &&
    (o.mode != 1 || decide (ports.length ≤ 32)) && o.rates.all (fun r => decide (r ≤ 3)) &&
    o.txEq.all (fun v => eqLegal (bitsOf v 0 7) (bitsOf v 8 7) (bitsOf v 16 7))

/-- The dynamic region that the reservations leave (R130, R408). -/
def dynLeft (o : Opening) : Int :=
  let w := fun (g : Nat) => bitsOf (o.portMap.getD g 0) 0 2
  let ports := (List.range 128).flatMap (fun g => formedOf (w g) g)
  let vls := fun (p : Nat) => ((List.range 16).filter (bitOf (o.vlMask.getD (p / 2) 0))).length
  let live := [0, 1, 2] ++ ((List.range 4).filter (fun p => match o.hostPorts[p]? with | some h => h.enable | none => false)).map (· + 3)
  3145728 - ((ports.map (fun p => 65 * vls p + o.grants.getD p 0)).sum + (live.map (fun i => 8 + 15 * o.guarVl.getD i 0)).sum : Nat)

/-- MEM_PART holds (R409). -/
def partsOk (mp : Bytes) (len : Nat) (o : Opening) : Bool :=
  let least := [1536, 1664, 1, 64, 64, 16, (o.handlers.map HandlerCfg.regionMib).sum, 256, 64]
  decide (len = 72) && (List.range 9).all (fun i => mp (8 * i) == i + 1 && zeroAt mp (8 * i + 2) 2 &&
    decide (least.getD i 0 ≤ (o.parts.getD i (false, 0)).2)) && decide ((o.parts.map Prod.snd).sum ≤ 24576)

/-- HOST_PORTS holds (R208, R410). -/
def hostsOk (hp : Bytes) (len : Nat) (o : Opening) : Bool :=
  o.hostPorts.isEmpty ||
    (decide (len = 128) && (List.range 4).all (fun p => decide (hp (32 * p) ≤ 1) && decide (1 ≤ hp (32 * p + 1) ∧ hp (32 * p + 1) ≤ 6) &&
      decide (hp (32 * p + 2) ≤ 1) && decide (hp (32 * p + 3) ≤ 127) && zeroAt hp (32 * p + 16) 16) &&
      decide ((o.hostPorts.map HostPortCfg.wq).sum ≤ 1048576) && decide ((o.hostPorts.map HostPortCfg.cq).sum ≤ 262144) &&
      decide ((o.hostPorts.map HostPortCfg.eq).sum ≤ 8192) && decide ((o.hostPorts.map HostPortCfg.job).sum ≤ 4096))

/-- ENGINE_IMAGES holds (R316, R317, R412). -/
def enginesOk (ei : Bytes) (len : Nat) : Bool :=
  match engRecs ei len 4096 0 with
  | none => false
  | some l =>
    let h := l.filter (fun r => r.kind == 3)
    decide ((l.filter (fun r => r.kind == 1)).length = 1) && decide ((l.filter (fun r => r.kind == 2)).length = 1) &&
      decide (h.length ≤ 8) && l.all (fun r => decide (1 ≤ r.kind ∧ r.kind ≤ 3) && zeroAt ei (r.off + 3) 1 && decide (r.slot ≤ 7) &&
        decide (64 ≤ r.cycles ∧ r.cycles ≤ 1024) && decide (r.region ≤ 256)) &&
      decide (h.map EngRec.slot).Nodup && decide ((h.map EngRec.code).sum ≤ 262144) &&
      h.all (fun r => (r.hook == 1 || r.hook == 2) && decide (r.code ≤ 32768) && (r.hook == 2 || decide (0x100 ≤ r.service ∧ r.service ≤ 0x1FFF)))

/-- SECURITY_POLICY holds (R367, R413). -/
def securityOk (sp : Bytes) (len identity : Nat) (o : Opening) : Bool :=
  decide (len = 1000) &&
    (List.range 16).all (fun k => decide (sp (104 + 56 * k) ≤ 1) && decide (sp (105 + 56 * k) ≤ 1) && zeroAt sp (107 + 56 * k) 1 &&
      zeroAt sp (152 + 56 * k) 8) &&
    (identity != 0 || o.keySlots.all (fun x => !x.valid)) &&
    (o.mode != 4 || (o.keySlots.take 12).all (fun x => x.valid && x.role == 1 && bitOf x.perm 4 && x.srcFa == faOfSvc o.moduleId 3))

/-- FAULT_POLICY holds (R449). -/
def faultPolicyOk (fp : Bytes) (len : Nat) (have_ : Bool) (o : Opening) : Bool :=
  !have_ || (decide (len = 32) && (o.faultPolicy.take 5).all (fun v => decide (1 ≤ v)) &&
    decide (fp 12 < 4) && decide (1 ≤ fp 13) && zeroAt fp 16 16)

/-- Check 13 of R404. -/
def structuralOk (g : Bytes) (o : Opening) (s0 : Bool) : Bool :=
  let l := secTable g
  structureOk (secBytes g l 1) (secLen l 1) o s0 && portsOk (secBytes g l 4) l o && decide (262144 ≤ dynLeft o) &&
    partsOk (secBytes g l 5) (secLen l 5) o && hostsOk (secBytes g l 7) (secLen l 7) o &&
    (match defaultRecs (secBytes g l 6) (secLen l 6) (secLen l 6 + 1) 0 with
      | some d => d.all (fun x => defaultTarget x.1)
      | none => false) &&
    enginesOk (secBytes g l 8) (secLen l 8) && securityOk (secBytes g l 9) (secLen l 9) (hIdentity g) o &&
    faultPolicyOk (secBytes g l 10) (secLen l 10) (secOf l 10).isSome o

/-- Check 12: variant, identity, and the mode among those of the variant (R4, R5). -/
def variantOk (g : Bytes) (identity mode : Nat) (s0 : Bool) : Bool :=
  bitOf (leAt g 32 4) (b2n s0) && (hIdentity g == 0 || hIdentity g == identity) && !(s0 && (mode == 1 || mode == 2))

/-- Check 14: every VALID key slot unwraps. -/
def keysUnwrap (g : Bytes) (identity : Nat) : Bool :=
  let sp := secBytes g (secTable g) 9
  (List.range 16).all (fun k => sp (104 + 56 * k) != 1 ||
    (unwrapSlot (takeBytes sp 0 96) identity (takeBytes sp (112 + 56 * k) 40)).isSome)

namespace State

/-- The thermometer of the fuses (R418), and the fused SVN: the number of its bits that are set. -/
def thermometer (s : State) : Nat := Config.fuseSvn.toNat ||| s.sec.burned % 2 ^ 128
def fusedSvn (s : State) : Nat := ((List.range 128).filter (bitOf s.thermometer)).length

/-- The checks of R404 in order: the reason of the first that fails, 0 when none does. `limit` is the length the source holds; `read` says that
it can be read without error. -/
def imageReason (s : State) (g : Bytes) (limit : Nat) (read : Bool) : Nat :=
  let id := Config.fuseIdentity.toNat
  let s0 := Config.fuseVariant
  let l := secTable g
  let b := sigBlockAt g (hSigOff g)
  let ei := secBytes g l 8
  let o := openingOf g id
  let m := takeBytes g 0 (hSigOff g)
  if !read || leAt g 0 4 != 0x474E504F || decide (limit < min (hLen g) 16777216) then 1
  else if 16777216 < hLen g then 2
  else if !headerTableOk g s0 then 3
  else if !l.all (fun x => shaBytes (takeBytes g x.off x.len) == x.hash) then 4
  else if !b.ok || hLen g != hSigOff g + b.len then 5
  else if !s.signerOk b then 6
  else if !chainOk 1 b.root b.certs then 7
  else if !sigEcdsaOk b.key m b.ecdsa then 8
  else if !sigHssOk b.key m b.hss then 9
  else if !((engRecs ei (secLen l 8) 4096 0).getD []).all (fun r => r.kind == 3 || firmwareOk ei r) then 10
  else if hSvn g < s.fusedSvn then 11
  else if !variantOk g id o.mode s0 then 12
  else if !structuralOk g o s0 then 13
  else if !keysUnwrap g id then 14
  else 0

end State
end Sys2Proof.Machine
end

