-- ==== Sys2Proof/Machine/Time.lean ====
section
/-!
DEFINITION. Fabric time (R451 to R456, R466): the servo, the loss and choice of a parent, the source's loads and PPS pins.
-/
namespace Sys2Proof.Machine

namespace State

/-- Register values of R453 in units of 2⁻¹⁶ ns; STEP_NS below 100 acts as 100. -/
def stepLimit (s : State) : Int := (max 100 (s.rd R.TIM_SERVO_STEP_NS) * 65536 : Nat)
def lockLimit (s : State) : Int := (s.rd R.TIM_SERVO_LOCK_NS * 65536 : Nat)

/-- The servo of R453 for an offset o (peer minus own, in 2⁻¹⁶ ns): the correction is slewed over the next frame interval, which is taken
to be as long as the last one. A source under PPS_IN keeps the validity its load gave
it (R454). -/
def servo (s : State) (o : Int) : State :=
  let s := s.wr R.TIM_LAST_OFFSET_O (unsignedOf 64 o)
  if o < -s.stepLimit ∨ s.stepLimit < o then s.stepTime (((s.time.ft : Int) + o).toNat)
  else
    let integ := s.time.integ + o / 2 ^ s.rd R.TIM_SERVO_KI_SHIFT
    let corr := o / 2 ^ s.rd R.TIM_SERVO_KP_SHIFT + integ
    let good := if -s.lockLimit ≤ o ∧ o ≤ s.lockLimit then s.time.good + 1 else 0
    let gap := match s.time.servoAt with | some t => s.now - t | none => s.time.gap
    let s := s.withTime { s.time with
      integ := integ, slew := corr, good := good, gap := gap, servoAt := some s.now, nextAt := s.now + gap
      holdAt := if 8 ≤ good then none else s.time.holdAt }
    if s.timeValid || decide (good < 8) || s.rdB R.TIM_CFG_ROLE then s else s.setValid true

/-- Load TIM_SET.NS on a source (R451, R454). -/
def loadTime (s : State) : State := (s.stepTime (s.rd R.TIM_SET_NS * 65536)).setValid true

/-- A write that changes TIM_CFG.ROLE (R451, R454). -/
def roleChange (s : State) (source : Bool) : State :=
  if s.rdB R.TIM_CFG_ROLE = source then s
  else if source then
    let had := s.rd R.TIM_STAT_PARENT ≠ 0x1FF
    let s := ((s.wr R.TIM_CFG_ROLE 1).wr R.TIM_STAT_STATE 3).wr R.TIM_STAT_STEPS 0
    let s := s.wr R.TIM_STAT_PARENT 0x1FF
    let s := s.withTime { s.time with holdAt := none, ppsAt := s.now, ppsMissed := false }
    if had then (s.bump R.TIM_PARENT_CHANGES).timIrq 1 else s
  else (s.wr R.TIM_CFG_ROLE 0).enterHoldover

/-- TIM_CFG has been written, before which PPS_IN_EN was `was` (R456). -/
def noteTimCfg (s : State) (was : Bool) : State :=
  let s := if s.rdB R.TIM_CFG_PPS_OUT_EN then s else s.withTime { s.time with ppsRose := none }
  if !was && s.rdB R.TIM_CFG_PPS_IN_EN then (s.withTime { s.time with ppsAt := s.now, ppsMissed := false }) else s

/-- An access to register `off` of a block with lock bit `lock` that would write RWL fields (R385): locked, it is recorded with
reason 6 and leaves them. -/
def unlocked (s : State) (m : Master) (off : Nat) (lock : FRef) (f : State → State) : State :=
  if s.rdB lock then s.recordAcc 6 true m.id off else f s

end State

namespace State

/-- A measured offset disciplines the rate. The time unit holds its last rate while the 25 MHz reference is lost (R479) and while the
arbiter's processor does not run (R445). -/
def discipline (s : State) (o : Int) : State := if s.rdB R.PWR_CLK_STAT_REF25_LOST || !s.arbRuns then s else s.servo o

end State

open State

/-- ON_PAIR (R453): the complete pair that port p, the parent, has brought. -/
def execOnPair (p : Fin 256) (s : State) : Out :=
  .next (if s.rdB R.TIM_CFG_ROLE || s.rd R.TIM_STAT_PARENT != p.val || !(s.port p).pairNew then s
    else
      let s := s.modPort p (fun (st : PortSt) => { st with pairNew := false })
      s.discipline (signedOf 64 (s.rd (R.LNK_TIME_OFFSET_OFFSET (p / 2) (p % 2)))))

/-- PARENT_TIMEOUT (R452): no complete pair from the parent for 100 µs. -/
def execParentTimeout (s : State) : Out :=
  let p := s.rd R.TIM_STAT_PARENT
  .next (if p = 0x1FF ∨ s.now < (s.port p).pairAt + 100000 then s else s.loseParent)

/-- REATTACH (R452): REATTACH_US has passed since the loss of the parent. -/
def execReattach (s : State) : Out := .next s.selectParent

/-- HOLDOVER_EXPIRE (R454). -/
def execHoldoverExpire (s : State) : Out :=
  .next (match s.time.holdAt with
    | some t => if t + s.rd R.TIM_CFG_HOLDOVER_S * 1000000000 ≤ s.now then s.setValid false else s
    | none => s)

/-- ROLE_CHANGE (R451, R454): a write that changes TIM_CFG.ROLE. -/
def execRoleChange (m : Master) (source : Bool) (s : State) : Out :=
  .next (s.gated m 0x40000 (fun s => s.unlocked m 0x40000 R.GLB_LOCK_TIM_LOCK (fun s => s.roleChange source)))

/-- LOAD (R451): ignored on a follower. -/
def execLoad (m : Master) (s : State) : Out :=
  .next (s.gated m 0x40030 (fun s => if s.rdB R.TIM_CFG_ROLE then s.loadTime else s))

/-- ARM (R456). -/
def execArm (m : Master) (s : State) : Out := .next (s.gated m 0x40030 (fun s => s.wr R.TIM_SET_CTL_ARMED 1))

/-- PPS_IN (R456): an edge on a source loads the armed time, disciplines the rate, or is bad. -/
def execPpsIn (s : State) : Out :=
  .next (if !s.rdB R.TIM_CFG_ROLE || !s.rdB R.TIM_CFG_PPS_IN_EN then s
    else
      let seen := fun (s : State) => (s.withTime { s.time with ppsAt := s.now, ppsMissed := false } : State)
      if s.rdB R.TIM_SET_CTL_ARMED then seen ((s.wr R.TIM_SET_CTL_ARMED 0).loadTime)
      else
        let sec : Nat := 65536000000000
        let r := s.time.ft % sec
        let o : Int := if 2 * r < sec then -(r : Int) else (sec : Int) - r
        if o < -65536000000 ∨ 65536000000 < o then (s.bump R.TIM_PPS_BAD).timIrq 3
        else seen (s.discipline o))

/-- PPS_MISSED (R456): no edge within 1.1 s, counted once. -/
def execPpsMissed (s : State) : Out :=
  .next (if !s.rdB R.TIM_CFG_ROLE || !s.rdB R.TIM_CFG_PPS_IN_EN || s.time.ppsMissed || decide (s.now < s.time.ppsAt + 1100000000) then s
    else ((s.withTime { s.time with ppsMissed := true } : State).bump R.TIM_PPS_MISSED).timIrq 3)

/-- PPS_OUT (R456): fabric time crosses a whole second; the pin rises once, for 100 ms. -/
def execPpsOut (s : State) : Out :=
  .next (if s.rdB R.TIM_CFG_PPS_OUT_EN && s.timeValid && s.crossed 1000000000 && s.time.ppsRose != some s.now then
      (s.withTime { s.time with ppsRose := some s.now } : State).emit .ppsOut
    else s)

/-- TIM_NOW_READ (R466): the time, and the fraction latched for the master. -/
def execTimNowRead (m : Master) (s : State) : Out :=
  .next (match s.gate m.id false 0x40018 with
    | (s, true) =>
      (s.withTime { s.time with latch := SMap.set 0 s.time.latch m.id (s.time.ft % 65536) } : State).emit
        (.readData m.id 0x40018 (BitVec.ofNat 64 s.ns))
    | (s, false) => if s.arrives m.id then s.emit (.readData m.id 0x40018 (BitVec.allOnes 64)) else s.mgmtRefuse m.id false 0x40018)

end Sys2Proof.Machine
end

