-- ==== Sys2Proof/Machine/Boot.lean ====
section
/-!
DEFINITION. The boot: measurement, the choice of the Opening, its application and Recovery mode (R24 to R26, R40, R41, R396 to
R400, R411, R418, R419).
-/
namespace Sys2Proof.Machine

/-- GLB_LOCK bit n. -/
def lockBit : Nat → FRef
  | 0 => R.GLB_LOCK_SEC_LOCK | 1 => R.GLB_LOCK_PWR_LOCK | 2 => R.GLB_LOCK_FLT_LOCK | _ => R.GLB_LOCK_TIM_LOCK

namespace State

/-! Measurement (R419). -/

/-- Extend measurement register m by digest d for an event; the log takes at most 256 entries. -/
def extend (s : State) (m ev d : Nat) : State :=
  let new := sha (bytesBE (s.sec.meas.getD m 0) 48 ++ bytesBE d 48)
  let s := s.withSec { s.sec with meas := s.sec.meas.set m new }
  if s.sec.log.length < 256 then
    let s := s.withSec { s.sec with log := s.sec.log ++ [(m, ev, s.now / 1000, d)] }
    s.wr R.SEC_LOG_STAT_ENTRIES s.sec.log.length
  else s.wr R.SEC_LOG_STAT_OVERFLOW 1

/-- The registers M0 to M5 take the ROM and the fuses, and an image (step 7). -/
def measureImage (s : State) (g : Bytes) : State :=
  let l := secTable g
  let ei := secBytes g l 8
  let recs := (engRecs ei (secLen l 8) 4096 0).getD []
  let bytesOf := fun (r : EngRec) =>
    takeBytes ei r.off (if r.kind = 3 then r.len else 16 + r.code + (sigBlockAt ei (r.off + 16 + r.code)).len)
  let s := s.extend 0 1 (sha (Config.romFuses (BitVec.ofNat 128 s.thermometer)))
  let s := s.extend 1 2 (sha (takeBytes g 0 (128 + 64 * hSections g)))
  let s := s.extend 1 3 (sha (sigBlockAt g (hSigOff g)).root)
  let hashOf := fun (x : Sec) => x.hash.foldl (fun a b => a * 256 + b) 0
  let s := (l.filter (fun x => decide (x.type ≤ 7))).foldl (fun (s : State) x => s.extend 2 4 (hashOf x)) s
  let s := (recs.filter (fun r => r.kind != 3)).foldl (fun (s : State) r => s.extend 3 5 (sha (bytesOf r))) s
  let s := (recs.filter (fun r => r.kind == 3)).foldl (fun (s : State) r => s.extend 4 6 (sha (bytesOf r))) s
  (l.filter (fun x => x.type == 9 || x.type == 10)).foldl (fun (s : State) x => s.extend 5 7 (hashOf x)) s

/-! Sources (R398, R399). -/

/-- The bytes of a source: copy A, copy B, the staging RAM. -/
def source (s : State) (k : Nat) : Bytes :=
  match k with
  | 0 => fun i => SMap.get 255 s.sec.flash i
  | 1 => fun i => SMap.get 255 s.sec.flash (0x1000000 + i)
  | _ => fun i => SMap.get 0 s.sec.staging i

/-- Bytes that a source holds; the staging RAM holds 16 MiB (R398, R400). -/
def sourceLen (s : State) (k : Nat) : Nat :=
  if k < 2 then 0x1000000
  else min 0x1000000 (if s.rd R.SEC_LOAD_CTL_LENGTH = 0 then s.sec.keptLen else s.rd R.SEC_LOAD_CTL_LENGTH)

/-- Source k can be read without error; the staging RAM always can (R398, R404). -/
def readable (flash : FlashRun) (k : Nat) : Bool := match k with | 0 => flash.readA | 1 => flash.readB | _ => true

/-- Check the image of source k; SEC_COPY_STAT takes the reason and, where a header was read, its SVN. -/
def tryImage (s : State) (k : Nat) (flash : FlashRun) : State × Nat :=
  let g := s.source k
  let r := s.imageReason g (s.sourceLen k) (readable flash k)
  let s := s.wr (match k with | 0 => R.SEC_COPY_STAT_REASON_A | 1 => R.SEC_COPY_STAT_REASON_B | _ => R.SEC_COPY_STAT_REASON_STAGED) r
  let s := if r = 1 then s
    else s.wr (match k with | 0 => R.SEC_COPY_STAT_SVN_A | 1 => R.SEC_COPY_STAT_SVN_B | _ => R.SEC_COPY_STAT_SVN_STAGED) (hSvn g)
  (s, r)

/-- Steps 3 to 6 for the image of source k: PHASE is 2, and 3 from the check of the signature block on (R396). -/
def bootImage (s : State) (k : Nat) (flash : FlashRun) : State × Nat :=
  match (s.wr R.SEC_BOOT_STAT_PHASE 2).tryImage k flash with
  | (s, r) => (if r = 0 ∨ 5 ≤ r then s.wr R.SEC_BOOT_STAT_PHASE 3 else s, r)

/-- The source to boot: its number with reason 0, or the cause of Recovery mode with the reason of the last image tried (R399). -/
def chooseSource (s : State) (flash : FlashRun) : State × Nat × Nat :=
  let s := (s.wr R.SEC_COPY_STAT_REASON_A 15).wr R.SEC_COPY_STAT_REASON_B 15
  if s.rdB R.SEC_BOOT_CFG_SOURCE then
    let s := s.wr R.SEC_BOOT_CFG_SOURCE 0
    match s.bootImage 2 flash with
    | (s, 0) => (s, 2, 0)
    | (s, r) => (s, 3, r)
  else
    let first := s.rd R.SEC_BOOT_CFG_PREFER
    match s.bootImage first flash with
    | (s, 0) => (s, first, 0)
    | (s, _) =>
      match s.bootImage (1 - first) flash with
      | (s, 0) => (s, 1 - first, 0)
      | (s, r) => (s, 2, r)

/-! Applying an Opening (steps 8 to 11). -/

/-- Tile t is used by a port that the Opening forms. -/
def tileUsed (o : Opening) (t : Nat) : Bool := (List.range 8).any (fun i => openWidth o (8 * t + i) != 0)

/-- Host port p is enabled by the Opening. -/
def openHost (o : Opening) (p : Nat) : Bool := match o.hostPorts[p]? with | some h => h.enable | none => false

/-- The islands come to the states of R25. -/
def openIslands (s : State) (o : Opening) : State :=
  let s := (List.range 16).foldl (fun (s : State) t =>
    s.setIsland t (if o.rates.getD t 0 = 0 || (o.mode == 1 && !tileUsed o t) then 2 else 0)) s
  let s := [16, 17, 18, 23, 24, 25].foldl (fun (s : State) k => s.setIsland k 0) s
  (List.range 4).foldl (fun (s : State) p => s.setIsland (19 + p) (if openHost o p then 0 else 2)) s

/-- Tiles, port groups and logical ports (R406 to R408). -/
def openPorts (s : State) (o : Opening) : State :=
  let s := (List.range 16).foldl (fun (s : State) t => (s.wr (R.LT_TILE_STAT_RATE t) (o.rates.getD t 0)).openEq o t) s
  (List.range 128).foldl (fun (s : State) g =>
    let s := (s.setWidth g (openWidth o g)).openLnk o g
    [0, 1].foldl (fun (s : State) i => s.modPort (2 * g + i) (fun (x : PortSt) =>
      { x with vlMask := o.vlMask.getD g 0, grant := o.grants.getD (2 * g + i) 0, stack := bitOf (o.portMap.getD g 0) (3 + i) })) s) s

/-- Host ports (R410): an enabled port presents its PF. -/
def openHosts (s : State) (o : Opening) : State :=
  (List.range 4).foldl (fun (s : State) p =>
    match o.hostPorts[p]? with
    | none => s
    | some h =>
      let s := ((s.wrB (R.HPT_PORT_CFG_ENABLE p) h.enable).wr (R.HPT_PORT_CFG_MAX_GEN p) h.maxGen).wrB (R.HPT_PORT_CFG_MAX_X8 p) h.maxX8
      let s := (s.wr (R.HPT_PORT_CFG_TOTAL_VFS p) h.totalVfs).wr (R.HPT_PORT_CFG_JOB_POOL p) h.job
      let s := ((s.wr (R.HPT_PORT_POOL_WQ p) h.wq).wr (R.HPT_PORT_POOL_CQ p) h.cq).wr (R.HPT_PORT_POOL_EQ p) h.eq
      s.wrB (R.HPT_FN_STAT_ENABLED p 0) h.enable) s

/-- Units absent on the variant, and pawns and rooks held as spares from boot (R4, R26, R439). -/
def openUnits (s : State) (o : Opening) : State :=
  let s := if s.isS0 then ((List.range 252).filter s.unitAbsent).foldl (fun (s : State) u => s.wr (R.FLT_UNIT_STATE u) 5) s else s
  let s := o.svcPawns.foldl (fun (s : State) n => s.wr (R.MTC_PAWN_STAT_SERVICE n) 1) s
  let spares := if s.isS0 then (List.range 8).filter (fun n => !o.svcPawns.contains n) else (List.range 8).map (· + 96)
  let s := (spares.map (· + 148) ++ [284, 285, 286, 287]).foldl (fun (s : State) u => (s.setSpare u true).wr (R.FLT_UNIT_STATE u) 4) s
  let s := (List.range 104).foldl (fun (s : State) n => s.showPawn n) s
  ((List.range 36).foldl (fun (s : State) r => s.showRook r) s).showCol

/-- Handler slots, key slots, partitions and policies (R409, R412, R413, R449). -/
def openTables (s : State) (o : Opening) : State :=
  let s := o.handlers.foldl (fun (s : State) h =>
    (((s.wr (R.MTC_SLOT_VALID h.slot) 1).wr (R.MTC_SLOT_HOOK h.slot) h.hook).wr (R.MTC_SLOT_SERVICE h.slot) h.service).wr
      (R.MTC_SLOT_CYCLES h.slot) h.cycles) s
  let s := (List.range 16).foldl (fun (s : State) k =>
    match o.keySlots[k]? with
    | none => s
    | some x => (((s.wrB (R.CGC_KEY_SLOT_VALID k) x.valid).wr (R.CGC_KEY_SLOT_ROLE k) x.role).wr (R.CGC_KEY_SLOT_PERM k) x.perm).wr
        (R.CGC_KEY_SLOT_SRC_FA k) x.srcFa) s
  let s := s.wr R.MTC_STAGE_STAT_SIZE ((s.partition 4).2 / 64)
  let s := s.wr R.XPT_STORE_STAT_SIZE ((s.partition 5).2 / 64)
  let s := s.wr R.COL_STAT_PART_FREE ((s.partition 6).2 / 4096)
  let f := fun (i : Nat) => o.faultPolicy.getD i 0
  let s := (List.range 4).foldl (fun (s : State) c => s.wr (R.FLT_POLICY0_FF c) (f c)) s
  let s := ((s.wr R.FLT_POLICY1_CORR_RATE (f 4)).wr R.FLT_POLICY1_ALERT_EN (f 5)).wr R.FLT_POLICY1_HANDLER (f 6)
  let s := (s.wrB R.FLT_POLICY1_FATAL_AUTO_RESET (bitOf (f 7) 0)).wrB R.FLT_POLICY1_INJ_LIVE (bitOf (f 7) 1)
  let s := (s.wr R.FLT_POLICY1_LIFE_WARN (f 8)).wr R.FLT_POLICY1_RESET_DELAY_MS (f 9)
  let s := s.wr R.SWC_AGE_CFG_AGE_LIMIT o.ageLimit
  (List.range 7).foldl (fun (s : State) i => s.wr (R.SWC_LOCAL_CFG_GUAR_VL i) (o.guarVl.getD i 0)) s

/-- The stack parameters (R24, R360): the master counts itself present (R375). -/
def openStack (s : State) (o : Opening) : State :=
  if o.mode ≠ 4 then s
  else
    let s := (s.wr R.STK_CFG_STACK_ID o.stackId).wr R.STK_CFG_MEMBERS o.members
    let s := ((s.wr R.STK_CFG_MEMBER o.member).wr R.STK_CFG_MASTER_IDX o.masterIdx).wr R.STK_CFG_STANDBY_IDX o.standbyIdx
    let s := s.wrB R.STK_CFG_SPINE (s.formedPorts.all (fun p => (s.port p).stack))
    let s := s.withStk { s.stk with masterAt := s.now }
    let s := (s.wr R.STK_STAT_ROLE_NOW o.stackRole).wr R.STK_STAT_MASTER_NOW o.masterIdx
    if o.stackRole = 1 then s.wr R.STK_STAT_PRESENT (2 ^ o.member) else s

/-- Every logged unit is fenced before use, and spares are drawn in its place (R441). -/
def fenceLogged (s : State) : State :=
  ((List.range 64).filter (fun n => s.rdB (R.FLT_FENCE_LOG_VALID n))).foldl (fun (s : State) n =>
    let u := s.rd (R.FLT_FENCE_LOG_UNIT n)
    ((s.setFenced u).activateSpare u).wr (R.FLT_UNIT_LOGGED u) 1) s

/-- One value of TABLE_DEFAULTS (R8, R411): the RW fields take it, those of a shadow register in both banks. -/
def initReg (s : State) (off v : Nat) : State :=
  let s := s.putRw off v
  match bankOf off, regAt off with
  | some (_, false, o), some d =>
    (d.fields.filter (fun f => f.acc == .rw)).foldl (fun (s : State) f => s.wr (fieldRef o f) ((v &&& liveBits off) / 2 ^ f.lo)) s
  | _, _ => s

/-- One write of TABLE_DEFAULTS (R411), under the rules of a write by master 0x000: a location of LNK that does not exist takes nothing (R125),
RTE_CFG and in Endpoint mode a tree entry are refused as R180 and R323 say, TIM_CFG changes the role and the PPS input (R451, R456), and the
sampler and its ring follow R465. -/
def openDefault (mode : Nat) (s : State) (d : Nat × Nat) : State :=
  let off := d.1
  let v := d.2
  if 0x200000 ≤ off ∧ off < 0x280000 ∧ s.lnkTarget off ≠ some off then s
  else if off = 0x40000 then ((s.roleChange (bitOf v 0)).initReg off v).noteTimCfg (s.rdB R.TIM_CFG_PPS_IN_EN)
  else if off = 0x400000 ∧ !rteCfgOk v then s.wr R.RTE_STAT_CFG_REJECT 1
  else if mode = 1 ∧ 0xD10000 ≤ off ∧ off < 0xD20000 ∧ off % 16 = 0 ∧ bitOf v 16 = true ∧ bitsOf v 17 2 ≠ 0 then
    s.wr R.COL_CMD_STAT_REJECT 1
  else if off = 0xF80010 then (s.samplerEnable (bitOf v 0) (bitOf v 1)).initReg off v
  else if off = 0xF80018 ∧ s.sampling then s
  else if off = 0xF80028 ∧ !s.ringRdOk v then s
  else s.initReg off v

/-- TABLE_DEFAULTS in order, then the GLB_LOCK bits (step 10). -/
def openDefaults (s : State) (o : Opening) : State :=
  let s := o.defaults.foldl (openDefault o.mode) s
  let s := (List.range 4096).foldl (fun (s : State) m => s.treeState_ m) s
  (List.range 4).foldl (fun (s : State) i => if bitOf o.lockAtBoot i then s.wr (lockBit i) 1 else s) s

/-- Step 11: the mode is released, ports leave DISABLED, enabled host ports train, vector 2. -/
def releaseMode (s : State) (o : Opening) (k : Nat) : State :=
  let s := ((s.wr R.SEC_BOOT_STAT_PHASE 5).wr R.SEC_BOOT_STAT_BOOTED (k + 1)).wr R.SEC_BOOT_STAT_BOOT_MS (min 65535 (s.now / 1000000))
  let s := (s.wr R.SEC_IMAGE_IMAGE_ID o.imageId).wr R.SEC_SVN_RUNNING o.svn
  let s := ((s.wr R.GLB_MODE_STAT_MODE o.mode).wr R.GLB_MODE_STAT_STACK_ROLE o.stackRole).wr R.GLB_MODE_STAT_SERVICE_PAWNS o.svcPawns.length
  let s := (s.wr R.GLB_MODE_STAT_RECOVERY_CAUSE 0).wr R.GLB_INFO_MODULE_ID o.moduleId
  let s := s.openStack o
  let s := (s.openUnits o).fenceLogged
  let s := (s.showDyn).refreshAlert
  let s := (List.range 256).foldl (fun (s : State) p => s.leaveDisabled p) s
  let s := (List.range 4).foldl (fun (s : State) p =>
    if s.rdB (R.HPT_PORT_CFG_ENABLE p) && s.island (19 + p) == 0 then s.emit (.hostLink p true) else s) s
  s.vector 2

/-- The burn of COMMIT_SVN after step 11 (R418); one that fails is reported and tried again at the next boot. -/
def burnSvn (s : State) (o : Opening) (ok : Bool) : State :=
  if !o.commitSvn || decide (o.svn ≤ s.fusedSvn) then s
  else if ok then
    let s := s.withSec { s.sec with burned := s.sec.burned ||| (2 ^ o.svn - 1) }
    (s.wr R.SEC_SVN_FUSED s.fusedSvn).extend 7 9 (sha [o.svn])
  else (s.wr R.SEC_BOOT_STAT_SVN_BURN_FAIL 1).fault 714 0x0B05

/-- Boot the valid image of source k: steps 7 to 11, from step 8 on with PHASE 4. -/
def applyImage (s : State) (k : Nat) (burnOk : Bool) : State :=
  let g := s.source k
  let o := openingOf g Config.fuseIdentity.toNat
  let s := (s.measureImage g).wr R.SEC_BOOT_STAT_PHASE 4
  let s := s.withOpening (some o)
  let s := (((s.openIslands o).openPorts o).openHosts o).openTables o
  let s := s.openDefaults o
  (s.releaseMode o k).burnSvn o burnOk

/-- Step 12: Recovery mode (R25, R40, R41). -/
def enterRecovery (s : State) (cause : Nat) : State :=
  let s := (List.range 16).foldl (fun (s : State) t => s.setIsland t 2) s
  let s := [17, 18, 19, 20, 21, 22, 23].foldl (fun (s : State) k => s.setIslandState k 2) s
  let s := ((s.wr R.SEC_BOOT_STAT_PHASE 6).wr R.SEC_BOOT_STAT_BOOTED 0).wr R.SEC_BOOT_STAT_BOOT_MS (min 65535 (s.now / 1000000))
  let s := (s.wr R.GLB_MODE_STAT_MODE 0).wr R.GLB_MODE_STAT_RECOVERY_CAUSE cause
  s.vector 2

/-- Steps 3 to 12: choose an image and boot it, or enter Recovery mode. Answers the reason of R404. -/
def bootFrom (s : State) (flash : FlashRun) : State × Nat :=
  match s.chooseSource flash with
  | (s, k, 0) => (s.applyImage k flash.done, 0)
  | (s, cause, r) => (s.enterRecovery cause, r)

/-- Steps 1 and 2 with PHASE 1: fuses, the owner record and what else protected flash holds; a new owner record takes effect (R415, R420). -/
def loadFused (s : State) : State :=
  let s := s.wr R.SEC_BOOT_STAT_PHASE 1
  let s := (s.wr R.GLB_IDENTITY_IDENTITY Config.fuseIdentity.toNat).wrB R.GLB_MODE_STAT_VARIANT Config.fuseVariant
  let s := (s.wr R.GLB_INFO_STEP_NUM Config.fuseStepNum.toNat).wr R.GLB_INFO_STEP_LET Config.fuseStepLet.toNat
  let s := (s.wr R.SEC_SVN_FUSED s.fusedSvn).wr R.SEC_OWNER_REVOKED Config.fuseRevoked.toNat
  let s := match s.sec.newOwner with
    | some (o, q) => ((s.wr R.SEC_OWNER_OWNER_SEQ q).withSec { s.sec with owner := o, newOwner := none })
    | none => s
  (s.wrB R.SEC_OWNER_OWNED s.sec.owner.isSome).wr R.SEC_OWNER_PENDING 0

end State

/-- BOOT_SEQUENCE (R396): the arbiter island has been released and runs its steps. `recoveryL` is the level of RECOVERY_L, which
counts where R40 samples it; `flash` says what its accesses to flash and fuses come to. -/
def execBootSequence (recoveryL : Bool) (flash : FlashRun) (s : State) : Out :=
  if s.pwr.state != .on || s.rd R.SEC_BOOT_STAT_PHASE != 0 then .next s
  else
    let s := ((s.withFlt { s.flt with started := true }).refreshAlert).loadFused
    if s.pwr.sample then
      let s := s.wrB R.PWR_STRAP_RECOVERY_L recoveryL
      if recoveryL then .next (s.bootFrom flash).1.stackEvents
      else .next (s.enterRecovery 1)
    else .next (s.bootFrom flash).1.stackEvents

end Sys2Proof.Machine
end

