-- ==== Sys2Proof/Machine/Power.lean ====
section
/-!
DEFINITION. Power input, clocks and resets (chapter 20): power-up and power-down, telemetry, references, port group resets and the
reset types of R484.
-/
namespace Sys2Proof.Machine

namespace State

/-! Resets (R484). -/

/-- Register fields that every reset keeps: the fence log but for entries that a clear has marked, what protected flash holds of
HSS and ownership. -/
def flashFields (s : State) : SMap Nat :=
  s.flds.keep (fun k =>
    let o := k / 64 * 8
    (decide (0x33000 ≤ o) && decide (o < 0x33200) && !s.rdB (R.FLT_FENCE_LOG_CLEARING ((o - 0x33000) / 8))) ||
      k == R.SEC_HSS_STAT_NEXT_Q.key || k == R.SEC_HSS_STAT_EXHAUSTED.key || k == R.SEC_OWNER_OWNER_SEQ.key)

/-- The stored life predictions are shown (R448). -/
def showLife (s : State) : State :=
  (List.range 26).foldl (fun (s : State) k =>
    let v := SMap.get 0 s.flt.life k
    let s := (s.wr (R.FLT_LIFE_NOMINAL k) v).wr (R.FLT_LIFE_LOWER k) (v / 2 ^ 16)
    let s := (s.wr (R.FLT_LIFE_RO_DRIFT k) (v / 2 ^ 32)).wr (R.FLT_LIFE_EM_USED k) (v / 2 ^ 48)
    s.wr (R.FLT_LIFE_ESR_RISE k) (v / 2 ^ 56)) s

/-- A cold reset: everything but the fuses, protected flash and external flash. -/
def coldReset (s : State) : State :=
  let t : State := { pending := s.pending, out := s.out, rng := s.rng, flds := s.flashFields }
  let t := { t with
    sec := { flash := s.sec.flash, owner := s.sec.owner, newOwner := s.sec.newOwner, burned := s.sec.burned, cert := s.sec.cert }
    flt := { life := s.flt.life, poweredBase := s.powered, lifeLow := s.flt.lifeLow, ageHour := s.flt.ageHour, storeDay := s.flt.storeDay } }
  t.showLife

/-- Fields of the PWR block, but for the island commands' status. -/
def pwrFields (s : State) : SMap Nat :=
  s.flds.keep (fun k => decide (0x20000 ≤ k / 8) && decide (k / 8 < 0x30000) && k / 64 * 8 != 0x20048)

/-- Two tables joined. -/
def joinFlds (a b : SMap Nat) : SMap Nat := b.foldl (fun (m : SMap Nat) e => SMap.set 0 m e.1 e.2) a

/-- Host links go down at a reset; the hosts see no device. -/
def dropHosts (s : State) : State :=
  (List.range 4).foldl (fun (s : State) p => if s.rdB (R.HPT_PORT_CFG_ENABLE p) then s.emit (.hostLink p false) else s) s

/-- A module reset: a cold reset of every island but the power island. RECOVERY_L is sampled at the boot. -/
def moduleReset (s : State) : State :=
  let s := s.dropHosts
  let t := s.coldReset
  let t := { t with
    flds := joinFlds t.flds s.pwrFields, tap := s.tap, mgmtUp := s.mgmtUp, mgmtD3 := s.mgmtD3, pci := SMap.keep s.pci (fun f => f == 512)
    pwr := { s.pwr with sample := true, warmAt := none, budgetIdx := 0, telIdx := 0, ref25Back := s.pwr.ref25Back.map (fun _ => 0) } }
  (t.wr R.PWR_RESET_STAT_WARM_COUNT 0).tapCheck

/-- What a warm reset keeps beyond a module reset: RWS fields, FLT records and SET, the declared staging, the bucket, the stepping and identity
as read. -/
def warmFields (s : State) : SMap Nat :=
  s.flds.keep (fun k =>
    let o := k / 64 * 8
    o == 0x10008 || k == R.FLT_STATUS_SET.key || (decide (0x30100 ≤ o) && decide (o < 0x30200)) || k == R.SEC_HSS_STAT_BUCKET.key ||
      k == R.GLB_IDENTITY_IDENTITY.key || k == R.GLB_INFO_STEP_NUM.key || k == R.GLB_INFO_STEP_LET.key ||
      (decide (0x31000 ≤ o) && decide (o < 0x33000) && decide (24 ≤ k % 64)))

/-- Ports and lanes as a warm reset leaves them: their transmit streams, on which ports whose lanes run send LRESET rows for 1 µs
(R31, R503). -/
def lresetPorts (s : State) : SMap PortSt :=
  s.ports.foldl (fun (m : SMap PortSt) e =>
    let st := (s.startLreset e.1).port e.1
    match st.lreset with
    | some (t, q) => SMap.set {} m e.1 { line := st.line, lreset := some (t - s.now, q) }
    | none => m) []
def lresetLanes (s : State) : SMap LaneSt :=
  s.lanes.foldl (fun (m : SMap LaneSt) e =>
    SMap.set {} m e.1 { txPrec := e.2.txPrec, txY := e.2.txY, txRun := e.2.txRun, ccount := e.2.ccount }) []

/-- A warm reset (R31, R484): LAST_CAUSE takes `cause`, and the boot does not sample RECOVERY_L. -/
def warmReset (s : State) (cause : Nat) : State :=
  let count := s.rd R.PWR_RESET_STAT_WARM_COUNT
  let t := s.moduleReset
  let t := { t with
    flds := joinFlds t.flds s.warmFields, ports := s.lresetPorts, lanes := s.lresetLanes
    sec := { t.sec with staging := s.sec.staging, keptLen := s.sourceLen 2 }
    flt := { t.flt with started := s.flt.started }
    pwr := { t.pwr with sample := false } }
  (t.wr R.PWR_RESET_STAT_WARM_COUNT (count + 1)).wr R.PWR_RESET_STAT_LAST_CAUSE cause

/-! Power-down (R472, R473). -/

/-- Steps 2 to 4: transmitters idle, every island in reset, rails off. The records of the arbiter island are lost with the cold
reset that follows. -/
def powerDown (s : State) : State :=
  let t := s.moduleReset
  let t := (List.range 24).foldl (fun (t : State) k => t.setIsland k 2) t
  let t := (List.range 6).foldl (fun (t : State) r => t.wr (R.PWR_RAIL_PGOOD (r + 1)) 0) t
  (t.withPwr { t.pwr with state := .down, retryAt := none })

/-- A cold power-up: cause and straps as given, every rail in tolerance (R471), the arbiter island released. -/
def powerUp (s : State) (cause : Nat) (clkSel : Bool) (pwr : PwrSt) : State :=
  let t := s.coldReset.withPwr pwr
  let t := (List.range 7).foldl (fun (t : State) r => t.wr (R.PWR_RAIL_PGOOD r) 1) t
  (t.wr R.PWR_RESET_STAT_LAST_CAUSE cause).wrB R.PWR_STRAP_ARB_CLK_SEL clkSel

/-- Some rail has FAULT set. -/
def showRails (s : State) : State := s.wrB R.PWR_STAT_RAIL_BAD ((List.range 7).any (fun r => s.rdB (R.PWR_RAIL_FAULT r)))

/-- HOT and TJ_MAX follow the islands' junctions. -/
def showHeat (s : State) : State :=
  let tj := (List.range 26).foldl (fun a k => max a (s.rd (R.PWR_ISL_P_TJ k))) 0
  (s.wr R.PWR_STAT_TJ_MAX tj).wrB R.PWR_STAT_HOT (decide (105 < tj))

/-- Island k's hottest junction reads `tj`; one that rises above 105 °C raises OVER_TEMP (R476). -/
def setTj (s : State) (k tj : Nat) : State :=
  let was := s.rd (R.PWR_ISL_P_TJ k)
  let s := (s.wr (R.PWR_ISL_P_TJ k) tj).showHeat
  if was ≤ 105 ∧ 105 < tj then s.raise 715 0x0C03 k else s

/-- Port groups that a PG_RESET of g acts on: its partner too where the two form an x8 port (R482). -/
def pgGroups (s : State) (g : Nat) : List Nat := if s.groupWidth g = 3 then [2 * (g / 2), 2 * (g / 2) + 1] else [g]

/-- The reset of port group g's link layer (R482); the odd group of an x8 port has no port of its own. -/
def resetGroup (s : State) (g : Nat) : State :=
  let s := s.resetRw (0x200000 + 0x1000 * g) (0x200FFF + 0x1000 * g)
  let s := match s.opening with | some o => s.openLnk o g | none => s
  if s.groupWidth g = 3 ∧ g % 2 = 1 then s
  else (s.portsOfGroup g).foldl (fun (s : State) p => if s.linkState p = 0 then s.leaveDisabled p else s.linkReset p 11) s

end State

open State

/-- POWER_UP (R471): the input rises through 34 V after it has been below 28 V; ARB_CLK_SEL is sampled. -/
def execPowerUp (clkSel : Bool) (s : State) : Out :=
  .next (if s.pwr.state == .off then s.powerUp 0 clkSel {} else s)

/-- POWER_DOWN (R472): the input falls through 32 V. -/
def execPowerDown (s : State) : Out :=
  .next (if s.pwr.state == .on then (s.powerDown).wr R.PWR_STAT_IN_LOW 1 else s)

/-- EMERGENCY_SHUTDOWN (R472, R473): a second one within 1 h leaves the module off. -/
def execEmergencyShutdown (cause : ShutdownCause) (s : State) : Out :=
  .next (if s.pwr.state != .on then s
    else
      let second := match s.pwr.lastEmerg with | some t => decide (s.powered < t + 3600000000000) | none => false
      let at_ := s.powered
      let s := (s.bump R.PWR_EMERG_SHUTDOWN).powerDown
      let s := s.withPwr { s.pwr with lastEmerg := some at_, thermal := cause == .thermal, retryAt := some (s.now + 1000000000) }
      if second then ((s.wr R.PWR_RESET_STAT_LAST_CAUSE 5).withPwr { s.pwr with state := .heldOff, retryAt := none }) else s)

/-- SHUTDOWN_RETRY (R473): 1 s after an emergency shutdown; after a thermal trip every junction must read below 95 °C. `tjMax` is the
hottest junction. -/
def execShutdownRetry (tjMax : BitVec 8) (s : State) : Out :=
  .next (match s.pwr.retryAt with
    | some t =>
      if s.pwr.state != .down || decide (s.now < t) || (s.pwr.thermal && decide (95 ≤ tjMax.toNat)) then s
      else s.powerUp 4 (s.rdB R.PWR_STRAP_ARB_CLK_SEL) { lastEmerg := s.pwr.lastEmerg }
    | none => s)

/-- INPUT_RANGE (R468): the input voltage, in units of 10 mV, has crossed a limit of its range. Below 28 V the power island goes off. -/
def execInputRange (vin : BitVec 16) (s : State) : Out :=
  let v := vin.toNat
  if v < 2800 ∧ (s.pwr.state = .down ∨ s.pwr.state = .heldOff) then .next (s.withPwr { s.pwr with state := .off })
  else if s.pwr.state != .on then .next s
  else
    let low := decide (v < 3600)
    let high := decide (7500 < v)
    let rises := (low && !s.rdB R.PWR_STAT_IN_LOW) || (high && !s.rdB R.PWR_STAT_IN_HIGH)
    let s := (s.wrB R.PWR_STAT_IN_LOW low).wrB R.PWR_STAT_IN_HIGH high
    let s := if low then s else s.logWaiting
    .next (if rises then ((s.bump R.PWR_INPUT_RANGE).raise 715 0x0C01).stackEvents else s)

/-- RAIL_FAULT (R470). -/
def execRailFault (r : Fin 7) (s : State) : Out :=
  .next (if s.pwr.state != .on then s
    else (((s.wr (R.PWR_RAIL_FAULT r) 1).showRails).raise 715 0x0C02 r.val).stackEvents)

/-- OVER_TEMP (R476): island k's hottest junction now exceeds 105 °C. -/
def execOverTemp (k : Fin 26) (tj : BitVec 8) (s : State) : Out :=
  .next (if s.pwr.state != .on || decide (tj.toNat ≤ 105) then s
    else (s.setTj k tj.toNat).stackEvents)

/-- TELEMETRY_UPDATE (R474): the measured values, every 100 µs; a parked island's power reads zero. -/
def execTelemetryUpdate (vin iin pin : BitVec 16) (rails : List (BitVec 16 × BitVec 16 × Bool)) (islands : List (BitVec 16 × BitVec 8))
    (s : State) : Out :=
  .next (if s.pwr.state == .off || decide (s.now / 100000 ≤ s.pwr.telIdx) then s
    else
      let s := s.withPwr { s.pwr with telIdx := s.now / 100000 }
      let s := ((s.wr R.PWR_INPUT_VIN vin.toNat).wr R.PWR_INPUT_IIN iin.toNat).wr R.PWR_INPUT_PIN pin.toNat
      let s := s.bumpBy R.PWR_ENERGY_UJ (10 * pin.toNat)
      let s := (List.range 7).foldl (fun (s : State) r =>
        match rails[r]? with
        | some (v, i, g) => ((s.wr (R.PWR_RAIL_VOUT r) v.toNat).wr (R.PWR_RAIL_IOUT r) i.toNat).wrB (R.PWR_RAIL_PGOOD r) g
        | none => s) s
      let s := (List.range 26).foldl (fun (s : State) k =>
        match islands[k]? with
        | some (p, t) => (s.wr (R.PWR_ISL_P_POWER k) (if s.island k = 2 then 0 else p.toNat)).setTj k t.toNat
        | none => s) s
      s.stackEvents)

/-- BUDGET_WINDOW (R475): a 10 ms window of local time has ended with the average input power `avg`, in units of 0.1 W. -/
def execBudgetWindow (avg : BitVec 16) (s : State) : Out :=
  .next (if s.pwr.state != .on || decide (s.now / 10000000 ≤ s.pwr.budgetIdx) then s
    else
      let s := s.withPwr { s.pwr with budgetIdx := s.now / 10000000 }
      let l := s.rd R.PWR_BUDGET_LIMIT_W
      if l ≠ 0 ∧ 10 * l < avg.toNat then (s.wr R.PWR_STAT_OVER_BUDGET 1).bump R.PWR_BUDGET_OVER else s)

/-- Bit of PWR_CLK_STAT.HP_LOST. -/
def hpLost (s : State) (p : Nat) : Bool := bitOf (s.rd R.PWR_CLK_STAT_HP_LOST) p

namespace State

/-- Set or clear a reference's bit in PWR_CLK_STAT. -/
def setLost (s : State) (r : RefClk) (b : Bool) : State :=
  match r with
  | .fabric => s.wrB R.PWR_CLK_STAT_FAB_LOST b
  | .host p => s.wr R.PWR_CLK_STAT_HP_LOST (setBits (s.rd R.PWR_CLK_STAT_HP_LOST) p 1 (b2n b))
  | .mgmt => s.wrB R.PWR_CLK_STAT_MGMT_LOST b
  | .ref25 => s.wrB R.PWR_CLK_STAT_REF25_LOST b

/-- A reference's bit in PWR_CLK_STAT. -/
def isLost (s : State) (r : RefClk) : Bool :=
  match r with
  | .fabric => s.rdB R.PWR_CLK_STAT_FAB_LOST
  | .host p => hpLost s p
  | .mgmt => s.rdB R.PWR_CLK_STAT_MGMT_LOST
  | .ref25 => s.rdB R.PWR_CLK_STAT_REF25_LOST

/-- What the loss of a reference does (R479): a tile without its clock sends no LRESET (R503). -/
def loseRef (s : State) (r : RefClk) : State :=
  match r with
  | .fabric => (List.range 16).foldl (fun (s : State) t =>
      if s.island t = 0 && !s.inRecovery then
        let s := s.raise t 0x0101
        let s := (List.range 32).foldl (fun (s : State) l => s.laneToReset (32 * t + l)) s
        (List.range 16).foldl (fun (s : State) i => s.modPort (16 * t + i) (fun st => { st with line := {}, lreset := none })) s
      else s) s
  | .host p => if s.rdB (R.HPT_PORT_STAT_LINK_UP p) then s.hostPortDown p else s
  | .mgmt => s.mgmtDown
  | .ref25 => (((s.setValid false).withTime { (s.setValid false).time with good := 0 }).withPwr { s.pwr with ref25Back := none })

end State

/-- REFERENCE_LOSS (R479). -/
def execReferenceLoss (r : RefClk) (s : State) : Out :=
  .next (if s.pwr.state != .on || (s.isLost r && !(r == .ref25 && s.pwr.ref25Back.isSome)) then s
    else (((s.setLost r true).bump R.PWR_REF_LOSS).loseRef r).stackEvents)

/-- REFERENCE_RESTORED (R479): a lost reference is present again; the clocks return to the 25 MHz reference by `REFERENCE_RETURN`. -/
def execReferenceRestored (r : RefClk) (s : State) : Out :=
  .next (if s.pwr.state != .on || !s.isLost r then s
    else match r with
      | .ref25 => (s.withPwr { s.pwr with ref25Back := some s.now })
      | r => s.setLost r false)

/-- REFERENCE_RETURN (R479): the 25 MHz reference has been present for 10 ms. -/
def execReferenceReturn (s : State) : Out :=
  .next (match s.pwr.ref25Back with
    | some t =>
      if s.pwr.state != .on || decide (s.now < t + 10000000) then s
      else ((s.setLost .ref25 false).withPwr { s.pwr with ref25Back := none })
    | none => s)

/-- PG_RESET (R482): a write of PWR_PG_RESET with GO. -/
def execPgReset (m : Master) (g : BitVec 7) (s : State) : Out :=
  .next (s.gated m 0x20050 (fun s =>
    if s.rdB R.PWR_ISL_STAT_BUSY then s.wr R.PWR_ISL_STAT_RESULT 1
    else
      let s := s.wr R.PWR_ISL_STAT_LAST_GROUP g.toNat
      let gs := s.pgGroups g.toNat
      if s.inRecovery || s.island (g.toNat / 8) != 0 || gs.any (fun x => s.groupDown x || s.unitStopped (16 + x)) then
        s.wr R.PWR_ISL_STAT_RESULT 2
      else (gs.foldl (fun (s : State) x => s.resetGroup x) s).wr R.PWR_ISL_STAT_RESULT 0))

/-- WARM (R485): a write of WARM to PWR_RESET_CMD; no in-band request is accepted from then on until the boot ends. -/
def execWarm (m : Master) (s : State) : Out :=
  .next (s.gated m 0x20030 (fun s => (s.withPwr { s.pwr with warmAt := some (s.now + 100000) })))

/-- WARM_RESET (R484): a commanded warm reset is due; a Fatal automatic reset that is due makes one reset with it. -/
def execWarmReset (s : State) : Out :=
  .next (match s.pwr.warmAt with
    | some t => if s.pwr.state != .on || decide (s.now < t) then s else s.warmReset 2
    | none => s)

/-- FATAL_AUTO_RESET (R433): RESET_DELAY_MS have passed since the Fatal flag fell. -/
def execFatalAutoReset (s : State) : Out :=
  .next (match s.flt.resetAt with
    | some t => if s.pwr.state != .on || decide (s.now < t) then s else s.warmReset 3
    | none => s)

/-- MODULE_RESET (R473, R484): RESET_L has been low for at least 10 µs and rises; a module held off after a second emergency shutdown
powers up again. -/
def execModuleReset (s : State) : Out :=
  .next (match s.pwr.state with
    | .on => (s.moduleReset).wr R.PWR_RESET_STAT_LAST_CAUSE 1
    | .heldOff => s.powerUp 0 (s.rdB R.PWR_STRAP_ARB_CLK_SEL) {}
    | _ => s)

end Sys2Proof.Machine
end

