-- ==== Sys2Proof/Machine/Security.lean ====
section
/-!
DEFINITION. The SEC commands (R400, R415 to R423): staging and flash, ownership, attestation and secure debug.
-/
namespace Sys2Proof.Machine

/-- Masters that alone may issue ENROLL and an UNLOCK (R420, R422): 0x000 and 0x001. -/
def localMaster (m : Master) : Bool := m != .manager

namespace State

/-! The SEC buffer (R423): map offsets 0xC000 to 0xFFFF of the block. -/

/-- The buffer's bytes from offset `o` of the block. -/
def bufAt (s : State) (o : Nat) : Bytes := fun i => if o + i < 0x10000 then SMap.get 0 s.sec.buffer (o - 0xC000 + i) else 0

/-- Put bytes into the buffer from its start. -/
def putBuf (s : State) (bs : List Nat) : State :=
  (s.withSec { s.sec with buffer := ((List.range (min bs.length 0x4000)).foldl (fun (m : SMap Nat) i =>
      SMap.set 0 m i (bs.getD i 0)) s.sec.buffer) })

/-! The frame of a command (R423). -/

/-- End a command with a result. -/
def secResult (s : State) (r d : Nat) : State :=
  ((s.wr R.SEC_CMD_STAT_BUSY 0).wr R.SEC_CMD_STAT_RESULT r).wr R.SEC_CMD_STAT_DETAIL d

/-- A command runs until its end is reported. -/
def secRun (s : State) (x : SecRun) : State :=
  ((s.wr R.SEC_CMD_STAT_BUSY 1).withSec { s.sec with running := some x })

/-- A command runs, or the boot has not ended (R397, R423). -/
def secBusy (s : State) : Bool := s.rdB R.SEC_CMD_STAT_BUSY || s.rd R.SEC_BOOT_STAT_PHASE == 0

/-- A write of SEC_CMD by master m: while a command runs, and before the boot has ended, it has no effect and RESULT reads BUSY
(R397, R423). -/
def secCmd (s : State) (m : Master) (c : Nat) (f : State → State) : State :=
  s.gated m 0x10010 (fun s =>
    if s.secBusy then s.wr R.SEC_CMD_STAT_RESULT 1
    else f (s.wr R.SEC_CMD_STAT_LAST_CMD c))

/-! Flash copies (R400). -/

/-- Erase a copy and write the staged image to it but for the first 8 bytes. -/
def writeCopy (s : State) (base : Nat) : State :=
  let n := s.sourceLen 2
  let rest := s.sec.flash.keep (fun a => !(decide (base ≤ a) && decide (a < base + 0x1000000)))
  let g := s.source 2
  let flash := (List.range (n - 8)).foldl (fun (m : SMap Nat) i => SMap.set 255 m (base + 8 + i) (g (8 + i))) rest
  (s.withSec { s.sec with flash := flash })

/-- Write the first 8 bytes, and extend M7 by the staged image. -/
def writeHead (s : State) (base : Nat) : State :=
  let g := s.source 2
  let flash := (List.range 8).foldl (fun (m : SMap Nat) i => SMap.set 255 m (base + i) (g i)) s.sec.flash
  let s := s.withSec { s.sec with flash := flash }
  s.extend 7 11 (sha (takeBytes g 0 (s.sourceLen 2)))

/-- VERIFY_STAGED and FLASH_WRITE: the reason of R404 decides; `f` acts on a valid image. -/
def onStaged (s : State) (c : Nat) (f : State → State) : State :=
  match s.tryImage 2 {} with
  | (s, 0) => (f s).secRun { cmd := c }
  | (s, r) => s.secRun { cmd := c, result := 2, detail := r }

/-! Tokens (R420, R422). -/

/-- The block that follows a token of n bytes signs it under a last certificate of the usage given. -/
def tokenSigned (g : Bytes) (n usage : Nat) (signer : SigBlock → Bool) : Bool :=
  let b := sigBlockAt g n
  let m := takeBytes g 0 n
  b.ok && signer b && chainOk usage b.root b.certs && sigEcdsaOk b.key m b.ecdsa && sigHssOk b.key m b.hss

/-- A token with its signature block. -/
def tokenBytes (g : Bytes) (n : Nat) : List Nat := takeBytes g 0 (n + (sigBlockAt g n).len)

/-- The ownership token in the buffer passes, with its release where FORCE is 0 (R420). -/
def ownTokenOk (s : State) : Bool :=
  let g := s.bufAt 0xC000
  let r := s.bufAt 0xE000
  let id := Config.fuseIdentity.toNat
  let seq := s.rd R.SEC_OWNER_OWNER_SEQ
  decide (leAt g 0 4 = 0x4E574F54) && leAt g 8 8 == id && decide (seq < leAt g 16 4) &&
    tokenSigned g 116 4 (fun b => b.signer == 1 && vendorRootOk b.root) &&
    (bitOf (g 4) 0 || (leAt r 0 8 == id && leAt r 8 4 == seq &&
      tokenSigned r 12 4 (fun b => b.signer == 2 && s.sec.owner == some (rootHashes b.root))))

/-- The owner record that a token spells: both hashes zero make the module unowned. -/
def ownerOf (bs : List Nat) : Option (Nat × Nat) × Nat :=
  let g : Bytes := fun i => bs.getD i 0
  let big := fun (o : Nat) => (takeBytes g o 48).foldl (fun a b => a * 256 + b) 0
  let a := big 20
  let b := big 68
  (if a = 0 ∧ b = 0 then none else some (a, b), leAt g 16 4)

/-- The debug token in the buffer is accepted (R422). -/
def debugTokenOk (s : State) (m : Master) : Bool :=
  let g := s.bufAt 0xC000
  let allowed := match s.opening with | some o => o.debugAllowed | none => 0
  decide (leAt g 0 4 = 0x47424455) && leAt g 8 8 == Config.fuseIdentity.toNat &&
    s.sec.challenge == some (takeBytes g 16 32 |>.foldl (fun a b => a * 256 + b) 0) && (g 48 &&& allowed) == g 48 && localMaster m &&
    tokenSigned g 49 3 (fun b => s.signerOk b)

/-! Attestation (R421). -/

/-- Bytes 0 to 511 of the report, with leaf index q. -/
def reportBody (s : State) (nonce : List Nat) (q : Nat) : List Nat :=
  bytesLE 0x54544154 4 ++ bytesLE 6008 4 ++ bytesLE Config.fuseIdentity.toNat 8 ++ nonce ++
    bytesLE (if s.timeValid then s.ns else 0) 8 ++ bytesLE q 4 ++
    [s.mode + (if s.rd R.SEC_BOOT_STAT_PHASE = 6 then 128 else 0), s.sec.scopes, s.fusedSvn, s.rd R.SEC_SVN_RUNNING] ++
    bytesLE (s.rd R.SEC_IMAGE_IMAGE_ID) 8 ++ bytesLE (s.rd R.SEC_OWNER_OWNER_SEQ) 4 ++ List.replicate 52 0 ++
    (s.sec.meas.flatMap (fun m => bytesBE m 48))

/-- The whole report. -/
def report_ (s : State) (nonce : List Nat) (q : Nat) : List Nat :=
  let b := s.reportBody nonce q
  let fit := fun (l : List Nat) (n : Nat) => (l ++ List.replicate n 0).take n
  b ++ ecdsaSign idScalar (Config.idNonce q).toNat b ++ bytesLE 5396 4 ++ fit (Config.idHss idSeed q b) 5396

/-- The next leaf index is written to protected flash before the signature (R417). -/
def takeLeaf (s : State) : State × Nat :=
  let q := s.rd R.SEC_HSS_STAT_NEXT_Q
  let s := s.wr R.SEC_HSS_STAT_NEXT_Q (q + 1)
  (if q + 1 = 2 ^ 30 then s.wr R.SEC_HSS_STAT_EXHAUSTED 1 else s, q)

/-- The command that has run ends; `flash` says what its accesses to flash and fuses came to. -/
def secEnd (s : State) (x : SecRun) (flash : FlashRun) : State :=
  let ok := flash.done
  let s := s.withSec { s.sec with running := none }
  if x.result ≠ 0 then s.secResult x.result x.detail
  else if x.cmd = 1 then
    let (s, r) := s.bootFrom flash
    s.secResult (if r = 0 then 0 else 2) r
  else if x.cmd = 2 ∨ x.cmd = 3 then
    if ok then (s.writeHead (if x.cmd = 2 then 0 else 0x1000000)).secResult 0 0 else s.secResult 7 0
  else if x.cmd = 5 then
    if !ok || s.rdB R.PWR_STAT_IN_LOW then s.secResult 7 0
    else
      let s := s.withSec { s.sec with newOwner := some (ownerOf x.data) }
      ((s.wr R.SEC_OWNER_PENDING 1).extend 7 10 (sha x.data)).secResult 0 0
  else if x.cmd = 8 then
    if !ok then s.secResult 7 0
    else (s.putBuf (s.report_ (x.data.take 32) (x.data.getD 32 0))).secResult 0 0
  else if x.cmd = 9 then
    if !ok then s.secResult 7 0 else (s.putBuf (idCertOf s.sec.cert)).secResult 0 0
  else s.secResult 0 0

end State

open State

/-- BOOT (R400): accepted in Recovery mode only; it boots under SOURCE. The fuses and the owner record are read first, and the image is
fetched while it runs (R396, R420). -/
def execBoot (m : Master) (s : State) : Out :=
  .next (s.secCmd m 1 (fun s =>
    if s.rd R.SEC_BOOT_STAT_PHASE = 6 then (s.loadFused.wr R.SEC_BOOT_STAT_PHASE 2).secRun { cmd := 1 } else s.secResult 3 0))

/-- FLASH_WRITE_A (R400). -/
def execFlashWriteA (m : Master) (s : State) : Out := .next (s.secCmd m 2 (fun s => s.onStaged 2 (fun s => s.writeCopy 0)))

/-- FLASH_WRITE_B (R400). -/
def execFlashWriteB (m : Master) (s : State) : Out := .next (s.secCmd m 3 (fun s => s.onStaged 3 (fun s => s.writeCopy 0x1000000)))

/-- VERIFY_STAGED (R400). -/
def execVerifyStaged (m : Master) (s : State) : Out := .next (s.secCmd m 4 (fun s => s.onStaged 4 id))

/-- ENROLL (R420): the token at 0xC000 and the release at 0xE000 are checked. -/
def execEnroll (m : Master) (s : State) : Out :=
  .next (s.secCmd m 5 (fun s =>
    if !localMaster m then s.secResult 8 0
    else s.secRun { cmd := 5, result := if s.ownTokenOk then 0 else 6, data := tokenBytes (s.bufAt 0xC000) 116 }))

/-- CHALLENGE (R422): 32 random bytes. -/
def execChallenge (m : Master) (s : State) : Out :=
  .next (s.secCmd m 6 (fun s =>
    let c := (Config.entropy s.rng).toNat
    let s := (s.draw).putBuf (bytesBE c 32)
    { s.secRun { cmd := 6 } with sec := { (s.secRun { cmd := 6 }).sec with challenge := some c } }))

/-- UNLOCK (R422): a challenge that is answered is used up; an accepted token extends M6 and unlocks its scopes. -/
def execUnlock (m : Master) (s : State) : Out :=
  .next (s.secCmd m 7 (fun s =>
    let g := s.bufAt 0xC000
    let ok := s.debugTokenOk m
    let used := s.sec.challenge == some (takeBytes g 16 32 |>.foldl (fun a b => a * 256 + b) 0)
    let s := if used then (s.withSec { s.sec with challenge := none }) else s
    let s := if ok then
        (s.withSec { s.sec with scopes := s.sec.scopes ||| g 48 } : State).extend 6 8 (sha (tokenBytes g 49))
      else s
    s.secRun { cmd := 7, result := if ok then 0 else 6 }))

/-- ATTEST (R417, R421). -/
def execAttest (m : Master) (s : State) : Out :=
  .next (s.secCmd m 8 (fun s =>
    if s.rdB R.SEC_HSS_STAT_EXHAUSTED then s.secResult 5 0
    else if s.rd R.SEC_HSS_STAT_BUCKET = 0 then s.secResult 4 0
    else
      let s := s.wr R.SEC_HSS_STAT_BUCKET (s.rd R.SEC_HSS_STAT_BUCKET - 1)
      if s.rdB R.PWR_STAT_IN_LOW then s.secRun { cmd := 8, result := 7 }
      else
        let (s, q) := s.takeLeaf
        s.secRun { cmd := 8, data := takeBytes (s.bufAt 0xC000) 0 32 ++ [q] }))

/-- READ_CERT (R416). -/
def execReadCert (m : Master) (s : State) : Out := .next (s.secCmd m 9 (fun s => s.secRun { cmd := 9 }))

/-- ATTEST_TOKEN (R421): every 2 s. -/
def execAttestToken (s : State) : Out :=
  .next (if s.now / 2000000000 ≤ s.sec.tokens then s
    else
      let s := s.withSec { s.sec with tokens := s.sec.tokens + 1 }
      s.wr R.SEC_HSS_STAT_BUCKET (min 64 (s.rd R.SEC_HSS_STAT_BUCKET + 1)))

/-- LOAD_WINDOW_WRITE (R381, R400): a write of `size` bytes at offset 0x8000 + `off` of the SEC block. -/
def execLoadWindowWrite (m : Master) (off : BitVec 14) (size : BitVec 8) (v : BitVec 64) (s : State) : Out :=
  let o := 0x18000 + off.toNat
  .next (s.gated m o (fun s =>
    let n := size.toNat
    if !((n == 4 || n == 8) && off.toNat % n == 0) then (s.bump R.GLB_ACC_BAD).recordAcc 1 true m.id o
    else if (match s.sec.running with | some x => decide (x.cmd ≤ 4) | none => false) then s.recordAcc 2 true m.id o
    else
      let a := s.rd R.SEC_LOAD_CTL_PAGE * 16384 + off.toNat
      let put := fun (t : SMap Nat) (i : Nat) => SMap.set 0 t (a + i) (bitsOf v.toNat (8 * i) 8)
      (s.withSec { s.sec with staging := (List.range n).foldl put s.sec.staging })))

/-- SEC_COMMAND_DONE (R423): the command that runs ends. -/
def execSecCommandDone (flash : FlashRun) (s : State) : Out :=
  .next (match s.sec.running with
    | some x => if s.arbRuns && s.pwr.state == .on then (s.secEnd x flash).stackEvents else s
    | none => s)

end Sys2Proof.Machine
end

