-- ==== Sys2Proof/Machine/Tap.lean ====
section
/-!
DEFINITION. The test access port (R494 to R498).
-/
namespace Sys2Proof.Machine

namespace State

/-- The port is live while VAUX is up (R494). -/
def tapLive (s : State) (f : State → State) : State := if s.pwr.state == .off then s else f s

/-- The instruction register captures 0b0000_0X01 on the way to an update (R494). -/
def captureIr (s : State) : State := s.emit (.tapIr (BitVec.ofNat 8 (1 + 4 * b2n s.tap.refused)))

/-- The instruction with an opcode is updated; one whose requirement is not met is refused and acts as BYPASS (R496). -/
def loadIr (s : State) (code : Nat) (may : Bool) (drive : Option (Nat × Nat)) : State :=
  (s.captureIr.withTap { s.tap with
      ir := code, refused := !may, active := if may then code else 0xFF, drive := if may then drive else none })

/-- The cells in a mask drive the boundary register's contents. -/
def driveCells (s : State) (mask : Nat) : Option (Nat × Nat) := some (mask, s.tap.boundary &&& mask)

/-- EXTEST_PULSE and EXTEST_TRAIN: accepted when the isolation of some lane is in place; under ALL the commander's session over
the management port ends (R37). -/
def acTest (s : State) (code : Nat) : State :=
  let m := s.acCells
  let t := s.loadIr code (m != 0) (s.driveCells m)
  if s.allIsolated then t.mgmtDown else t

/-- CLAMP, HIGHZ and EXTEST act on every land, the management port's among them. -/
def allTest (s : State) (code : Nat) (drive : Option (Nat × Nat)) : State :=
  let t := s.loadIr code s.allIsolated drive
  if s.allIsolated then t.mgmtDown else t

end State

/-- TAP_RESET (R494): TRST_L low, or Test-Logic-Reset: IDCODE stands in the instruction register, and the lands are the module's. -/
def execTapReset (s : State) : Out :=
  .next (s.tapLive (fun s => s.withTap { s.tap with ir := 0x01, refused := false, active := 0x01, drive := none }))

/-- The identification register (R498). -/
def tapIdOf : Nat :=
  (4 * (Config.fuseStepLet.toNat - 1) + Config.fuseStepNum.toNat) % 16 * 2 ^ 28 +
    (if Config.fuseVariant then 0x1025 else 0x1024) * 2 ^ 12 + 0x547 * 2 + 1

/-- IDCODE (R498). -/
def execIdcode (s : State) : Out := 
  .next (s.tapLive (fun s => (s.loadIr 0x01 true none).emit (.tapId (BitVec.ofNat 32 tapIdOf))))

/-- SAMPLE_PRELOAD (R495, R497): the boundary register takes `cells`; on S0 the host ports' cells hold 0. -/
def execSamplePreload (cells : BitVec 1794) (s : State) : Out :=
  .next (s.tapLive (fun s =>
    let t := s.loadIr 0x02 true none
    t.withTap { t.tap with boundary := cells.toNat &&& State.cellsAll }))

/-- EXTEST (R496). -/
def execExtest (s : State) : Out := .next (s.tapLive (fun s => s.allTest 0x03 (s.driveCells State.cellsAll)))

/-- CLAMP (R496). -/
def execClamp (s : State) : Out := .next (s.tapLive (fun s => s.allTest 0x04 (s.driveCells State.cellsAll)))

/-- HIGHZ (R496): every output floats. -/
def execHighz (s : State) : Out := .next (s.tapLive (fun s => s.allTest 0x05 (some (State.cellsAll, 0))))

/-- EXTEST_PULSE (R496). -/
def execExtestPulse (s : State) : Out := .next (s.tapLive (fun s => s.acTest 0x06))

/-- EXTEST_TRAIN (R496). -/
def execExtestTrain (s : State) : Out := .next (s.tapLive (fun s => s.acTest 0x07))

/-- BYPASS (R495). -/
def execBypass (s : State) : Out := .next (s.tapLive (fun s => s.loadIr 0xFF true none))

end Sys2Proof.Machine
end

