-- ==== Sys2Proof/Machine/Registers.lean ====
section
/-!
DEFINITION. The register map as masters see it (R380, R381): what a read of a register returns, the registers whose value is a
view of other state among them, and what a write of one does.
-/
namespace Sys2Proof.Machine

/-- The state that a meaning leads to. -/
def after (o : Out) (s : State) : State := match o with | .next t => t | _ => s

/-- The register at an 8-byte-aligned map offset that management masters reach; the view of a function's BAR2 page 0 included
(R230). -/
def mapReg (off : Nat) : Option RegDef := if off < 0x1000000 then regAt off else none

/-- A block offset that masters may only read: the view of BAR2 page 0 (R230, R231). -/
def viewOnly (off : Nat) : Bool :=
  decide (0x900000 ≤ off) && decide (off < 0xA00000) && decide (0x20000 ≤ (off - 0x900000) % 0x40000)

/-! Views: registers that show state kept elsewhere. -/

namespace State

/-- FLT_CLOCK.REMAINc (R432): ms left of class c's clock, begun ones counted; 0 when it does not run. -/
def remainMs (s : State) (c : Nat) : Nat :=
  match (s.cls c).clock with
  | some t => (t + s.flagFall c - s.now + 999999) / 1000000
  | none => 0

/-- XPT_CONN_VIEW0 to 2 for the key in XPT_CONN_SEL (R289). A FAILED context keeps its key and epoch; its other fields, and
OLDEST of a connection without an outstanding packet, are free values. -/
def connView (s : State) (i : Nat) : List (FRef × Nat) :=
  let cid := cidOf (s.rd R.XPT_CONN_SEL_FUNC) (s.rd R.XPT_CONN_SEL_PEER_FA) (s.rd R.XPT_CONN_SEL_CONN)
  let free := (Config.freeWord s.rng).toNat
  match s.conn cid with
  | some c =>
    match i with
    | 0 => [(R.XPT_CONN_VIEW0_FOUND, 1), (R.XPT_CONN_VIEW0_STATE, c.state), (R.XPT_CONN_VIEW0_EPOCH, c.epoch),
            (R.XPT_CONN_VIEW0_NEXT_PSN, c.nextPsn)]
    | 1 => [(R.XPT_CONN_VIEW1_E, c.e), (R.XPT_CONN_VIEW1_OLDEST, match c.outst with | o :: _ => o.psn | [] => free)]
    | _ => [(R.XPT_CONN_VIEW2_W, s.effW c), (R.XPT_CONN_VIEW2_RTO_US, (c.rto + 999) / 1000), (R.XPT_CONN_VIEW2_RETRY, c.retry),
            (R.XPT_CONN_VIEW2_ATOMICS, (c.outst.filter (fun o => o.pkt.opcode == 5)).length)]
  | none =>
    match s.xpt.tombs.find? (fun t => t.cid == cid && t.ctx) with
    | some t =>
      match i with
      | 0 => [(R.XPT_CONN_VIEW0_FOUND, 1), (R.XPT_CONN_VIEW0_STATE, 4), (R.XPT_CONN_VIEW0_EPOCH, t.epoch),
              (R.XPT_CONN_VIEW0_NEXT_PSN, free)]
      | 1 => [(R.XPT_CONN_VIEW1_E, free), (R.XPT_CONN_VIEW1_OLDEST, free / 2 ^ 32)]
      | _ => [(R.XPT_CONN_VIEW2_W, free), (R.XPT_CONN_VIEW2_RTO_US, free / 2 ^ 32), (R.XPT_CONN_VIEW2_RETRY, free / 2 ^ 46),
              (R.XPT_CONN_VIEW2_ATOMICS, free / 2 ^ 50)]
    | none => []

/-- MTC_DOM_VIEW0 to 2 for the domain in MTC_DOM_SEL (R318). -/
def domView (s : State) (i : Nat) : List (FRef × Nat) :=
  let f := s.rd R.MTC_DOM_SEL_FUNC
  let n := s.rd R.MTC_DOM_SEL_DOMAIN
  match SMap.get none s.mtc.doms (f * 65536 + n) with
  | none => []
  | some d =>
    let mine := fun (m : Msg) => isUnexp m && m.fn == f && m.dom == n
    match i with
    | 0 => [(R.MTC_DOM_VIEW0_FOUND, 1), (R.MTC_DOM_VIEW0_HOME, d.home), (R.MTC_DOM_VIEW0_JOB, d.job),
            (R.MTC_DOM_VIEW0_MY_RANK, d.rank)]
    | 1 => [(R.MTC_DOM_VIEW1_NEXT_STAMP, d.nextStamp)]
    | _ => [(R.MTC_DOM_VIEW2_POSTED, min (2 ^ 24 - 1) d.posted.length),
            (R.MTC_DOM_VIEW2_UNEXP_SQ, min (2 ^ 24 - 1) (s.squaresWhere mine)),
            (R.MTC_DOM_VIEW2_UNEXP_MSGS, min 65535 (s.liveMsgs.filter (fun e => mine e.2)).length)]

/-- Words of M0 to M7: byte 8w in bits [7:0] (R423); a register holds its digest with byte 0 most significant. -/
def measWord (s : State) (k w : Nat) : Nat :=
  ((List.range 8).map (fun i => bitsOf (s.sec.meas.getD k 0) (8 * (47 - (8 * w + i))) 8 * 2 ^ (8 * i))).sum

/-- HPT registers of function n of host port p that show other state (R230, R231). -/
def hptView (s : State) (o : Nat) : List (FRef × Nat) :=
  let p := (o - 0x900000) / 0x40000
  let r := (o - 0x900000) % 0x40000
  let n := r % 0x10000 / 0x100
  let f := 128 * p + n
  if r = 8 then [(R.HPT_PORT_STAT_VF_ENABLE p, b2n (s.vfEnable (128 * p))), (R.HPT_PORT_STAT_NUM_VFS p, s.shown 7 (s.numVfs (128 * p)))]
  else if r < 0x10000 ∨ 128 ≤ n then []
  else if r < 0x20000 then
    if r % 0x100 = 0x10 ∧ n = 0 then
      [(R.HPT_FN_QUOTA_WQ p n, min 65536 (s.wqQuota f)), (R.HPT_FN_QUOTA_CQ p n, min 65535 (s.cqQuota f)),
       (R.HPT_FN_QUOTA_EQ p n, min 2048 (s.eqQuota f)), (R.HPT_FN_QUOTA_JOB p n, min 4096 (s.jobQuota f))]
    else if r % 0x100 = 0x18 then
      [(R.HPT_FN_USED_WQ p n, (s.wqList f).length), (R.HPT_FN_USED_CQ p n, (s.cqList f).length),
       (R.HPT_FN_USED_EQ p n, (s.eqList f).length), (R.HPT_FN_USED_JOB p n, (s.jobList f).length)]
    else []
  else if r < 0x30000 ∧ r % 0x100 = 0 then
    [(R.HPT_FN_INFO_FA p n, s.fnFa f), (R.HPT_FN_INFO_COUNTERS_ALLOWED p n, s.rd (R.HPT_FN_STAT_COUNTERS_ALLOWED p n))]
  else []

/-- Registers of the arbiter island that show other state, read by master m (R432, R434, R444, R447, R454, R466). -/
def arbView (s : State) (m o : Nat) : List (FRef × Nat) :=
  if o = 0x30010 then (List.range 4).map (fun c => (R.FLT_CLOCK_REMAIN c, s.remainMs c))
  else if o = 0x30050 then
    [(R.FLT_ARB_STAT_AUTO_USED, match s.flt.lastAuto with | some t => b2n (decide (s.powered < t + 600000000000)) | none => 0),
     (R.FLT_ARB_STAT_HEADLESS_MIN, match s.flt.lostAt with | some t => min 1440 ((s.powered - t) / 60000000000) | none => 0)]
  else if 0x31000 ≤ o ∧ o < 0x32668 then
    let u := (o - 0x31000) / 8
    [(R.FLT_UNIT_CORR_WIN u, if SMap.get 0 s.flt.corrIdx u = s.now / 1000000000 then s.rd (R.FLT_UNIT_CORR_WIN u) else 0)]
  else if o = 0x40010 then
    [(R.TIM_STAT_HOLD_S, match s.time.holdAt with
      | some t => if s.rd R.TIM_STAT_STATE = 2 then min 65535 ((s.now - t) / 1000000000) else 0
      | none => 0)]
  else if o = 0x40018 then [(R.TIM_NOW_NS, s.ns)]
  else if o = 0x40020 then [(R.TIM_NOW_FRAC_FRAC, SMap.get 0 s.time.latch m)]
  else if 0x10100 ≤ o ∧ o < 0x10280 then
    [(R.SEC_MEAS_MEAS ((o - 0x10100) / 0x30) ((o - 0x10100) % 0x30 / 8), s.measWord ((o - 0x10100) / 0x30) ((o - 0x10100) % 0x30 / 8))]
  else []

/-- Registers of the engine complex that show other state (R289, R318). -/
def engView (s : State) (o : Nat) : List (FRef × Nat) :=
  if o = 0xB00018 then
    [(R.XPT_POOL_STAT_CTX_USED, s.ctxUsed), (R.XPT_POOL_STAT_CTX_CACHED, min 65536 s.ctxUsed), (R.XPT_POOL_STAT_TOMBSTONES, s.tombCount)]
  else if o = 0xB00020 then
    [(R.XPT_STORE_STAT_SIZE, s.shown 24 s.storeSize), (R.XPT_STORE_STAT_USED, s.shown 24 s.storeUsed), (R.XPT_STORE_STAT_WAITING, min 65535 s.xpt.storeWait.length)]
  else if o = 0xB00028 then [(R.XPT_MR_STAT_MR_USED, s.xpt.mrs.length)]
  else if o = 0xB00048 then s.connView 0
  else if o = 0xB00050 then s.connView 1
  else if o = 0xB00058 then s.connView 2
  else if o = 0xC00008 then [(R.MTC_POOL_STAT0_RECV_POSTED, s.postedCount), (R.MTC_POOL_STAT0_ENTRIES, s.entriesUsed)]
  else if o = 0xC00010 then [(R.MTC_POOL_STAT1_SEQ_RECORDS, s.seqRecords), (R.MTC_POOL_STAT1_DOMAINS, s.mtc.doms.length)]
  else if o = 0xC00018 then [(R.MTC_STAGE_STAT_SIZE, s.shown 28 s.stageSize), (R.MTC_STAGE_STAT_USED, s.shown 28 s.stageUsed)]
  else if o = 0xD00008 then [(R.COL_STAT_PART_FREE, s.shown 20 s.partFree)]
  else if o = 0xC00028 then s.domView 0
  else if o = 0xC00030 then s.domView 1
  else if o = 0xC00038 then s.domView 2
  else if 0xC01000 ≤ o ∧ o < 0xC01340 then
    let n := (o - 0xC01000) / 8
    [(R.MTC_PAWN_STAT_WQS n, min 65535 (s.pawnWqs n)), (R.MTC_PAWN_STAT_CONNS n, min (2 ^ 20 - 1) (s.pawnConns n)),
     (R.MTC_PAWN_STAT_DOMAINS n, min 65535 (s.pawnDoms n))]
  else []

/-- Registers of the switch core that show other state: SWC_DEPTH (R149, R156) and RTE_REMOTE (R166). -/
def swcView (s : State) (o : Nat) : List (FRef × Nat) :=
  if 0x310000 ≤ o ∧ o < 0x330600 ∧ 0x100 ≤ o % 0x200 ∧ o % 0x200 < 0x180 then
    [(R.SWC_DEPTH_DEPTH ((o - 0x310000) / 0x200) ((o % 0x200 - 0x100) / 8),
      s.depth ((o - 0x310000) / 0x200) ((o % 0x200 - 0x100) / 8))]
  else if 0x402000 ≤ o ∧ o < 0x402800 then
    let p := (o - 0x402000) / 8
    [(R.RTE_REMOTE_R p, if s.rdB R.RTE_ROLL_CFG_REMOTE_EN then (s.port p).remote else 0)]
  else []

/-- LT_PAT_ERR and LT_PAT_UI while the checker is locked (R92). -/
def laneView (s : State) (o : Nat) : List (FRef × Nat) :=
  let t := (o - 0x100000) / 0x10000
  let r := o % 0x10000
  let i := (r - 0x100) / 0x80
  let l := 32 * t + i
  if r < 0x100 ∨ 0x1100 ≤ r ∨ !s.rdB (R.LT_PAT_STAT_PAT_LOCK t i) then []
  else if r % 0x80 = 0x40 then [(R.LT_PAT_ERR t i, s.rd (R.LT_PAT_ERR t i) + s.patErrorsSince l)]
  else if r % 0x80 = 0x48 then [(R.LT_PAT_UI t i, s.rd (R.LT_PAT_UI t i) + s.patLevelsSince l)]
  else []

/-- Every field of the register at `o` that shows other state, with its value. -/
def viewFields (s : State) (m o : Nat) : List (FRef × Nat) :=
  if o < 0x80000 then s.arbView m o
  else if o < 0x100000 then []
  else if o < 0x200000 then s.laneView o
  else if o < 0x300000 then []
  else if o < 0x800000 then s.swcView o
  else if o < 0x900000 then []
  else if o < 0xA00000 then s.hptView o
  else s.engView o

/-- A word with the bits of a field replaced. -/
def putField (w : Nat) (x : FRef × Nat) : Nat := setBits w (x.1.key % 64) x.1.width x.2

/-- The counter of index c, and its copy in the snapshot bank (R460, R462). -/
def counterWord (s : State) (c : Nat) : Nat :=
  match counterOff c with
  | some o =>
    match (if 0x100000 ≤ o ∧ o < 0x200000 then s.laneView o else []) with
    | x :: _ => x.2 % 2 ^ 64
    | [] => SMap.get 0 s.flds (8 * o)
  | none => 0
def snapWord (s : State) (c : Nat) : Nat := match counterOff c with | some o => SMap.get 0 s.pmon.snap (8 * o) | none => 0

/-- The 64-bit word of the register at the 8-byte-aligned offset `o` as master m reads it (R381); unimplemented locations read
zero (R8). -/
def regWord (s : State) (m o : Nat) : Nat :=
  if 0xF00000 ≤ o ∧ o < 0xF30000 then s.counterWord ((o - 0xF00000) / 8)
  else if 0xF40000 ≤ o ∧ o < 0xF70000 then s.snapWord ((o - 0xF40000) / 8)
  else
    match (if 0x200000 ≤ o ∧ o < 0x280000 then s.lnkTarget o else some o) with
    | none => 0
    | some o =>
      match mapReg o with
      | none => 0
      | some d => (s.viewFields m o).foldl putField (s.fieldsWord o d)

/-! Writes. -/

/-- An RWL field of the register lies under bits [lo, hi). -/
def coversLocked (d : RegDef) (lo hi : Nat) : Bool := d.fields.any (fun f => f.rwl && decide (max lo f.lo < min hi (f.lo + f.width)))

/-- A write of bits [lo, hi) of the register at `o` under its access codes alone (R381, R385): RWL fields of a locked block
keep their values and the access is recorded; bits that do not exist stay zero (R8); a shadow register's write is kept by a running copy (R179). -/
def plainWrite (s : State) (m o lo hi v : Nat) : State :=
  match mapReg o with
  | none => s
  | some d =>
    let s := if coversLocked d lo hi && s.blockLocked o then s.recordAcc 6 true m (o + lo / 8) else s
    let s := s.writeFields o d lo hi (v &&& liveBits o)
    match bankOf o with
    | some (_, false, _) => s.noteShadow o
    | _ => s

/-- SEC_CMD (R423): other values take no action; RESULT reads BUSY after any write where no command may begin. -/
def writeSecCmd (m : Master) (c : Nat) (s : State) : State :=
  match c with
  | 1 => after (execBoot m s) s
  | 2 => after (execFlashWriteA m s) s
  | 3 => after (execFlashWriteB m s) s
  | 4 => after (execVerifyStaged m s) s
  | 5 => after (execEnroll m s) s
  | 6 => after (execChallenge m s) s
  | 7 => after (execUnlock m s) s
  | 8 => after (execAttest m s) s
  | 9 => after (execReadCert m s) s
  | _ => if s.secBusy then s.wr R.SEC_CMD_STAT_RESULT 1 else s

/-- FLT_CMD (R440); no other ACTION acts, and none while another runs. -/
def writeFltCmd (m : Master) (v : Nat) (s : State) : State :=
  let u := BitVec.ofNat 10 v
  match bitsOf v 12 3 with
  | 1 => after (execTest m u s) s
  | 2 => after (execRelease m u s) s
  | 3 => after (execFence m u s) s
  | 4 => after (execSpare m u s) s
  | 5 => after (execUnfence m u s) s
  | _ => if s.rdB R.FLT_CMD_STAT_BUSY then s.wr R.FLT_CMD_STAT_RESULT 1 else s

/-- CGC_CMD (R189, R200): the in-band-only codes and undefined ones do nothing and read BAD_CMD. -/
def writeCgcCmd (m : Master) (c : Nat) (s : State) : State :=
  match c with
  | 1 => after (execQuenchFn (.cmd m) s) s
  | 2 => after (execUnquenchFn (.cmd m) s) s
  | 3 => after (execQuenchJob (.cmd m) s) s
  | 4 => after (execUnquenchJob (.cmd m) s) s
  | 5 => after (execQuenchAll (.cmd m) s) s
  | 6 => after (execUnquenchAll (.cmd m) s) s
  | 7 => after (execTeardownJob (.cmd m) s) s
  | 8 => after (execTreeStop (.cmd m) s) s
  | 9 => after (execStrobe (.cmd m) s) s
  | 0x0A => after (execProbeSend (.cmd m) s) s
  | _ => if s.rdB R.CGC_CMD_STAT_BUSY then s.wr R.CGC_CMD_STAT_RESULT 1
         else (s.wr R.CGC_CMD_STAT_LAST_CMD c).wr R.CGC_CMD_STAT_RESULT 3

/-- PWR_ISL_CMD (R480). -/
def writeIslCmd (m : Master) (v : Nat) (s : State) : State :=
  let k := BitVec.ofNat 5 v
  match bitsOf v 8 3 with
  | 1 => after (execIslandStop m k s) s
  | 2 => after (execIslandWake m k s) s
  | 3 => after (execIslandPark m k s) s
  | 4 => after (execIslandReset m k s) s
  | _ => s

/-- GLB_RECONF_CTL (R390). -/
def writeReconf (m : Master) (v : Nat) (s : State) : State :=
  let kind := BitVec.ofNat 2 v
  let i := BitVec.ofNat 7 (v / 4)
  match bitsOf v 12 2 with
  | 1 => after (execReconfStop m kind i s) s
  | 2 => after (execReconfApply m kind i s) s
  | 3 => after (execReconfResume m kind i s) s
  | _ => s

/-- GLB_ISO_CMD (R35, R38). -/
def writeIso (m : Master) (v : Nat) (s : State) : State :=
  let u := BitVec.ofNat 9 v
  let all := bitOf v 14
  if !bitOf v 12 then after (execIsoRelease m u all s) s
  else if all then after (execIsoAll m u s) s
  else after (execIsoIsolate m u (bitOf v 13) s) s

/-- LCK_OP (R349): every LOP is answered, undefined ones with BAD_OP. -/
def writeLckOp (m : Master) (v : Nat) (s : State) : State := s.lockReg m (bitsOf v 0 16) (bitsOf v 16 8)

/-- LCK_PURGE (R356). -/
def writeLckPurge (m : Master) (v : Nat) (s : State) : State :=
  match bitsOf v 0 2 with
  | 0 => after (execLckPurgeModule m (BitVec.ofNat 18 (v / 4)) s) s
  | 1 => after (execLckPurgeFa m s) s
  | 2 => after (execLckPurgeWord m (BitVec.ofNat 18 (v / 4)) s) s
  | _ => s

/-- COL_TREE_CMD (R324, R337). -/
def writeColCmd (m : Master) (v : Nat) (s : State) : State :=
  let i := BitVec.ofNat 12 v
  match bitsOf v 12 2 with
  | 1 => after (execSeat m i s) s
  | 2 => after (execUnseat m i s) s
  | _ => s

/-- FLT_INJ (R435): a START write injects, or stops with KIND 3. -/
def writeInj (m : Master) (v : Nat) (s : State) : State :=
  let u := BitVec.ofNat 10 v
  let code := BitVec.ofNat 16 (v / 2 ^ 10)
  if bitOf v 31 then after (execInject m u code (BitVec.ofNat 2 (v / 2 ^ 26)) (bitOf v 28) s) s
  else s

/-- The 5 ordinary fields of LNK_CTL beside its commands: RETRAIN, and a change of DISABLE of a formed port (R104). -/
def writeLnkCtl (m : Master) (p : Nat) (plain : State → State) (v : Nat) (s : State) : State :=
  let q : Fin 256 := Fin.ofNat 256 p
  let was := s.rdB (R.LNK_CTL_DISABLE (p / 2) (p % 2))
  let s := plain s
  let s := if was != bitOf v 1 then after (execDisable m q (bitOf v 1) s) s else s
  if bitOf v 0 then after (execRetrain m q s) s else s

/-- The strobe mask, the acknowledgements and other command registers of the arbiter and power islands; none for a register
without a command. -/
def arbCommand (m : Master) (o : Nat) (h : Half) (v : Nat) (plain : State → State) : Option (State → State) :=
  let w := BitVec.ofNat 64 v
  let low := coversLow h
  match o with
  | 0x18 => some (fun s => if low then s.wr R.GLB_LOCK_SEC_LOCK (s.rd R.GLB_LOCK_SEC_LOCK ||| bitsOf v 0 1)
      |>.wr R.GLB_LOCK_PWR_LOCK (s.rd R.GLB_LOCK_PWR_LOCK ||| bitsOf v 1 1)
      |>.wr R.GLB_LOCK_FLT_LOCK (s.rd R.GLB_LOCK_FLT_LOCK ||| bitsOf v 2 1)
      |>.wr R.GLB_LOCK_TIM_LOCK (s.rd R.GLB_LOCK_TIM_LOCK ||| bitsOf v 3 1) else s)
  | 0x108 => some (fun s =>
      let s := if low && bitOf v 0 then after (execEnter m s) s else s
      if low && bitOf v 1 then after (execLeave m s) s else s)
  | 0x110 => some (fun s => if low then writeIso m v s else s)
  | 0x200 => some (fun s => after (execGlbStrobe m h w s) s)
  | 0x300 => some (fun s => if low then writeReconf m v s else s)
  | 0x10010 => some (fun s => if low then writeSecCmd m (bitsOf v 0 8) s else s)
  | 0x20030 => some (fun s => if low && bitsOf v 0 4 == 1 then after (execWarm m s) s else s)
  | 0x20040 => some (fun s => if low then writeIslCmd m v s else s)
  | 0x20050 => some (fun s => if low && bitOf v 8 then after (execPgReset m (BitVec.ofNat 7 v) s) s else s)
  | 0x30000 => some (fun s => if low then after (execFltStatusClear m (BitVec.ofNat 4 v) s) s else s)
  | 0x30008 => some (fun s => if low then after (execFltAck m (BitVec.ofNat 4 v) s) s else s)
  | 0x30020 => some (fun s => (plain s).refreshAlert)
  | 0x30028 => some (fun s => if low then writeInj m v s else s)
  | 0x30038 => some (fun s => if low then writeFltCmd m v s else s)
  | 0x30048 => some (fun s => let s := plain s; if low && bitOf v 0 then after (execRestart m s) s else s)
  | 0x40000 => some (fun s =>
      let was := s.rdB R.TIM_CFG_PPS_IN_EN
      let s := if low && !s.rdB R.GLB_LOCK_TIM_LOCK then after (execRoleChange m (bitOf v 0) s) s else s
      (plain s).noteTimCfg was)
  | 0x40030 => some (fun s =>
      let s := if low && bitOf v 0 then after (execLoad m s) s else s
      if low && bitOf v 1 then after (execArm m s) s else s)
  | _ => none

/-- Congestion of every local input and pawn after a write of CGC_THR_CFG (R181, R200). -/
def noteThresholds (s : State) : State :=
  (List.range 104).foldl (fun s n => s.notePawn (some n)) ((List.range 7).foldl noteCongestion s)

/-- With THR_EN 0 every gap is 0 (R182). -/
def noteThrottle (s : State) : State :=
  if s.rdB R.CGC_GAP_CFG_THR_EN then s else (List.range 512).foldl (fun s f => s.wr (R.CGC_FN_STAT_GAP f) 0) s

/-- With WIN_EN 0, before or after a write of CGC_WIN_CFG, every connection holds W_MAX (R185). -/
def noteWindows (was : Bool) (s : State) : State :=
  if was && s.rdB R.CGC_WIN_CFG_WIN_EN then s
  else s.withXpt { s.xpt with conns := s.xpt.conns.map (fun e => (e.1, e.2.map (fun c => { c with w := s.wMax }))) }

/-- Command registers of the other islands, and registers whose write acts on other state. -/
def engCommand (m : Master) (o : Nat) (h : Half) (v : Nat) (plain : State → State) : Option (State → State) :=
  let w := BitVec.ofNat 64 v
  let low := coversLow h
  match o with
  | 0x400000 => some (fun s => after (execRteCfgWrite m h w s) s)
  | 0x800000 => some (fun s => (plain s).noteThresholds)
  | 0x800008 => some (fun s => (plain s).noteThrottle)
  | 0x800010 => some (fun s => noteWindows (s.rdB R.CGC_WIN_CFG_WIN_EN) (plain s))
  | 0x800080 => some (fun s => if low then writeCgcCmd m (bitsOf v 0 16) s else s)
  | 0xD00010 => some (fun s => if low then writeColCmd m v s else s)
  | 0xE00008 => some (fun s => if low then writeLckOp m v s else s)
  | 0xE00030 => some (fun s => if low then writeLckPurge m v s else s)
  | 0xF80000 => some (fun s => let s := plain s; if low && bitOf v 0 then after (execTake m s) s else s)
  | 0xF80010 => some (fun s =>
      let s := if low then after (execSamplerEnable m (bitOf v 0) (bitOf v 1) s) s else s
      plain s)
  | 0xF80018 => some (fun s => if s.sampling then s else plain s)
  | 0xF80028 => some (fun s =>
      if low && s.ringRdOk v then plain s else s)
  | _ => none

/-- Command registers of lane tiles, ports, functions and tables. -/
def arrayCommand (m : Master) (o : Nat) (h : Half) (v : Nat) (plain : State → State) : Option (State → State) :=
  let w := BitVec.ofNat 64 v
  let low := coversLow h
  if 0x100000 ≤ o ∧ o < 0x200000 then
    let t := (o - 0x100000) / 0x10000
    let r := o % 0x10000
    let l : Fin 512 := Fin.ofNat 512 (32 * t + (r - 0x100) / 0x80)
    if r = 8 then some (fun s => if low then after (execLtHealthWrite m (Fin.ofNat 16 t) (BitVec.ofNat 32 v) s) s else s)
    else if r < 0x100 ∨ 0x1100 ≤ r then none
    else
      match (r - 0x100) % 0x80 with
      | 0x00 => some (fun s => after (execLtLaneCtlWrite m l h w s) s)
      | 0x10 => some (fun s => after (execLtTxEqWrite m l h w s) s)
      | 0x30 => some (fun s => after (execEyeScanStart m l h w s) s)
      | _ => none
  else if 0x200000 ≤ o ∧ o < 0x280000 then
    let g := (o - 0x200000) / 0x1000
    some (fun s =>
      if s.lnkTarget o ≠ some o then s
      else if o % 0x800 = 0 ∧ low then writeLnkCtl m (2 * g + o % 0x1000 / 0x800) plain v s
      else plain s)
  else if 0x410000 ≤ o ∧ o < 0x420000 then
    some (fun s => let s := plain s; s.relayTable o (s.mirroredVal o))
  else if 0x500000 ≤ o ∧ o < 0x600000 then
    some (fun s => let s := plain s; s.relayTable o (s.mirroredVal o))
  else if 0x900000 ≤ o ∧ o < 0xA00000 ∧ (o - 0x900000) % 0x40000 / 0x10000 = 1 ∧ o % 0x100 = 8 ∧ (o - 0x900000) % 0x10000 < 0x8000 then
    some (fun s => after (execHptFnTeardown m (Fin.ofNat 512 (128 * ((o - 0x900000) / 0x40000) + o % 0x10000 / 0x100)) h w s) s)
  else if 0xD10000 ≤ o ∧ o < 0xD20000 ∧ o % 16 = 0 then
    some (fun s => after (execColTreeAWrite m (BitVec.ofNat 12 ((o - 0xD10000) / 16)) h w s) s)
  else none

/-- A write of part `h` of the register at the 8-byte-aligned offset `o`; `v` holds the written bits at their places. A command
is issued only when its field is covered (R381). -/
def regSet (s : State) (m : Master) (o : Nat) (h : Half) (v : Nat) : State :=
  let (lo, hi) := match h with | .full => (0, 64) | .low => (0, 32) | .high => (32, 64)
  let plain := fun (s : State) => s.plainWrite m.id o lo hi v
  if viewOnly o then s
  else
    match arbCommand m o h v plain with
    | some f => f s
    | none =>
      match engCommand m o h v plain with
      | some f => f s
      | none =>
        match arrayCommand m o h v plain with
        | some f => f s
        | none => plain s

end State
end Sys2Proof.Machine
end

