-- ==== Sys2Proof/WellFormed.lean ====
section
/-!
DEFINITION. Well-formed commands: an operand that stands for what the outside measures or sends lies in the range that the spec gives
it. What a master writes has no check here: the module itself answers a bad write.
-/
namespace Sys2Proof

/-- Units are numbered 0 to 716 (R426). -/
def unitWf (u : BitVec 10) : Bool := decide (u.toNat ≤ 716)

/-- The region of a targeted test: a unit, or a table entry that lies in the register map (R426, R436). -/
def TestRegion.wf : TestRegion → Bool
  | .unit u => unitWf u
  | .tableEntry off => decide (off.toNat < 0x1000000)
  | .lane _ | .block _ | .memRow _ => true

/-- What a test measured is what a test of the region measures (R437). -/
def TestResult.fits : TestRegion → TestResult → Bool
  | .lane _, .margin _ _ => true
  | .lane _, .pattern _ _ _ => true
  | .unit u, .tile _ _ => decide (u.toNat < 16)
  | .unit u, .march _ => decide (682 ≤ u.toNat) && decide (u.toNat < 714)
  | .unit u, .check _ => decide (16 ≤ u.toNat) && !(decide (682 ≤ u.toNat) && decide (u.toNat < 714))
  | .block _, .check _ => true
  | .memRow _, .check _ => true
  | .tableEntry _, .check _ => true
  | _, _ => false

/-- An SVC_RESP of a handler carries at most 4,096 bytes (R316). -/
def Verdict.wf : Verdict → Bool
  | .respond bytes => decide (bytes.length ≤ 4096)
  | .silent | .stage | .refuse _ => true

/-- A link comes up at a speed and a width that PCI Express has. -/
def MgmtEvent.wf : MgmtEvent → Bool
  | .linkUp gen width => decide (1 ≤ gen.toNat) && decide (gen.toNat ≤ 6) && [1, 2, 4, 8, 16].contains width.toNat
  | .linkDown | .hotReset | .flr | .d3hot | .d0 | .perst => true

/-- The command is well formed. -/
def Instr.wf : Instr → Bool
  | .wakeRequest _ => true
  | .departureNotice _ => true
  | .enter _ => true
  | .leave _ => true
  | .leaveDone => true
  | .isoIsolate _ _ _ => true
  | .isoRelease _ _ _ => true
  | .isoAll _ _ => true
  | .isoCommandDone => true
  | .headerSquareArrive _ => true
  | .lossOfSignal _ => true
  | .signalDetect _ => true
  | .rxAdaptConverged _ _ _ _ _ => true
  | .commaBlockRx _ _ _ _ => true
  | .commaLockLost _ => true
  | .codewordRx _ _ => true
  | .healthWindowEnd _ => true
  | .healthCommaTimeout _ => true
  | .ltHealthWrite _ _ _ => true
  | .ltTxEqWrite _ _ _ _ => true
  | .ltLaneCtlWrite _ _ _ _ => true
  | .patLock _ _ => true
  | .patResync _ _ => true
  | .eyeScanStart _ _ _ _ => true
  | .eyeScanDone _ _ => true
  | .rowTx _ => true
  | .rowRx _ => true
  | .badrowLimit _ => true
  | .replayTimeout _ => true
  | .replayLimit _ => true
  | .rttWindowEnd _ => true
  | .capRowRx _ _ _ => true
  | .eqRowRx _ _ _ => true
  | .confirmRowRx _ => true
  | .lresetRx _ => true
  | .resetIntervalEnd _ => true
  | .trainTimeout _ => true
  | .degradeTimeout _ => true
  | .retrain _ _ => true
  | .disable _ _ _ => true
  | .timeFrame _ => true
  | .admitPkt _ _ => true
  | .admitRetry _ _ => true
  | .squareFree _ => true
  | .outputSchedule _ => true
  | .cutThroughResume _ => true
  | .entryDeadline _ _ _ => true
  | .auditPass _ => true
  | .shaperTick _ => true
  | .policerRefill _ => true
  | .remoteDecay => true
  | .shadowCopyDone _ => true
  | .rteCfgWrite _ _ _ => true
  | .throttleWindowEnd => true
  | .grantReqRx => true
  | .grantIssue _ => true
  | .mgmtReqRx => true
  | .mgmtRespRx => true
  | .quenchFn _ => true
  | .unquenchFn _ => true
  | .quenchJob _ => true
  | .unquenchJob _ => true
  | .quenchAll _ => true
  | .unquenchAll _ => true
  | .teardownJob _ => true
  | .teardownJobDone _ => true
  | .treeStop _ => true
  | .strobe _ => true
  | .probeSend _ => true
  | .regRead => true
  | .regWrite => true
  | .probeRx => true
  | .probeEchoRx => true
  | .doorbell _ off len => decide (off.toNat + len.val < 2 ^ 22)
  | .serve _ _ _ => true
  | .hptAdminDb _ => true
  | .adminEnable _ _ _ _ => true
  | .hptCqAck _ _ _ => true
  | .hptEqAck _ _ _ => true
  | .hostReadCompletion _ _ _ => true
  | .nop _ => true
  | .put _ => true
  | .get _ => true
  | .send _ => true
  | .atomic _ => true
  | .flush _ => true
  | .lock _ => true
  | .coll _ => true
  | .svc _ => true
  | .recv _ => true
  | .probe _ => true
  | .cancel _ => true
  | .createWq _ => true
  | .destroyWq _ _ => true
  | .createCq _ => true
  | .destroyCq _ => true
  | .createEq _ => true
  | .destroyEq _ => true
  | .createJob _ => true
  | .destroyJob _ => true
  | .rankWrite _ _ => true
  | .fnReset _ => true
  | .setVfQuota _ => true
  | .setCounterAccess _ => true
  | .queryFn _ => true
  | .createXctx _ => true
  | .destroyXctx _ => true
  | .invalidate _ => true
  | .invalidateDone _ => true
  | .pageResume _ => true
  | .setDeviceWindow _ => true
  | .setStage2 _ => true
  | .regMr _ => true
  | .deregMr _ => true
  | .createDomain _ => true
  | .destroyDomain _ => true
  | .regResultBuf _ => true
  | .deregResultBuf _ => true
  | .flr _ => true
  | .vfEnableChange _ _ _ => true
  | .d3hotToD0 _ => true
  | .hostLinkDown _ => true
  | .hpPerst _ _ => true
  | .hptFnTeardown _ _ _ _ => true
  | .teardownTagTimeout _ => true
  | .teardownEnd _ => true
  | .translationWalk _ => true
  | .cacheEntryExpire _ => true
  | .requestArrive _ => true
  | .replyArrive => true
  | .ackRx => true
  | .ackDelay _ _ _ => true
  | .reorderHold _ _ _ => true
  | .retransmissionTimeout _ _ _ => true
  | .retryUs _ _ _ => true
  | .nakRetryLimit _ _ _ => true
  | .idleClose _ _ _ => true
  | .tombstoneExpire => true
  | .storeWaitEnd _ => true
  | .atomicComplete _ _ => true
  | .flushReadDone _ => true
  | .xptConnSel _ _ _ => true
  | .arrive => true
  | .getRdvSend _ => true
  | .keyDrainEnd _ => true
  | .handlerInvoke _ v => v.verdict.wf
  | .handlerOverrun _ => true
  | .seat _ _ => true
  | .unseat _ _ => true
  | .colTreeAWrite _ _ _ _ => true
  | .ctlReserve => true
  | .ctlConfirm => true
  | .ctlSeatFail => true
  | .ctlArrive => true
  | .ctlRelease => true
  | .ctlChunkDone => true
  | .ctlAbort => true
  | .ctlUnseat => true
  | .collUpRx => true
  | .collDownRx => true
  | .operandRead _ _ _ => true
  | .seatTimeout _ => true
  | .startTimeout _ => true
  | .chunkTimeout _ => true
  | .lockReqRx => true
  | .lockFwdRx => true
  | .lockResultRx => true
  | .lockRetry _ => true
  | .read _ _ => true
  | .cas _ _ => true
  | .clearOrphan _ _ => true
  | .purgeFn _ => true
  | .purgeJob _ => true
  | .lckPurgeModule _ _ => true
  | .lckPurgeFa _ => true
  | .lckPurgeWord _ _ => true
  | .purgeSend => true
  | .hello => true
  | .heartbeatSend => true
  | .heartbeat => true
  | .digestSend => true
  | .digest => true
  | .digestStale _ => true
  | .relayWrite => true
  | .relayRead => true
  | .strobeArm => true
  | .strobeCommit => true
  | .strobeCancel => true
  | .strobeLeadExpire => true
  | .armLapse => true
  | .stackSwap => true
  | .faultReport => true
  | .psnMirror => true
  | .mirrorMiss => true
  | .hbMiss => true
  | .masterQuery => true
  | .takeover => true
  | .memberSync _ => true
  | .memberRead => true
  | .memberWrite => true
  | .glbStrobe _ _ _ => true
  | .castleStrobe => true
  | .reconfStop _ _ _ => true
  | .reconfApply _ _ _ => true
  | .reconfResume _ _ _ => true
  | .reconfDone => true
  | .apertureAccess _ off _ _ => decide (0x1000000 ≤ off.toNat)
  | .glbLockWrite _ _ => true
  | .registerWrite _ _ _ _ => true
  | .mgmtPortEvent e => e.wf
  | .bootSequence _ _ => true
  | .boot _ => true
  | .flashWriteA _ => true
  | .flashWriteB _ => true
  | .verifyStaged _ => true
  | .enroll _ => true
  | .challenge _ => true
  | .unlock _ => true
  | .attest _ => true
  | .readCert _ => true
  | .attestToken => true
  | .loadWindowWrite _ _ _ _ => true
  | .errorPair errs => !errs.isEmpty && errs.all (fun e => unitWf e.unit)
  | .pairBroken unit => unitWf unit
  | .fltStatusClear _ _ => true
  | .fltAck _ _ => true
  | .flagFall _ => true
  | .fatalAutoReset => true
  | .rateHit unit => unitWf unit
  | .inject _ _ _ _ _ => true
  | .injectStop _ _ _ => true
  | .testStart r => r.wf
  | .testVerdict r m => r.wf && TestResult.fits r m
  | .test _ _ => true
  | .release _ _ => true
  | .fence _ _ => true
  | .spare _ _ => true
  | .unfence _ _ => true
  | .bankTest _ _ => true
  | .tableRewrite off _ _ => decide (off.toNat < 0x1000000)
  | .arbLockstep => true
  | .arbWatchdog => true
  | .restart _ => true
  | .restartDone _ => true
  | .headlessLimit => true
  | .ageingRead _ nominal lower _ _ _ => decide (lower.toNat ≤ nominal.toNat)
  | .lifeStore => true
  | .onPair _ => true
  | .parentTimeout => true
  | .reattach => true
  | .holdoverExpire => true
  | .roleChange _ _ => true
  | .load _ => true
  | .arm _ => true
  | .ppsIn => true
  | .ppsMissed => true
  | .ppsOut => true
  | .timNowRead _ => true
  | .take _ => true
  | .snapPeriod => true
  | .sampleRecord => true
  | .samplerEnable _ _ _ => true
  | .powerUp _ => true
  | .powerDown => true
  | .emergencyShutdown _ => true
  | .shutdownRetry _ => true
  | .inputRange _ => true
  | .railFault _ => true
  | .overTemp _ _ => true
  | .telemetryUpdate _ _ _ rails islands => rails.length == 7 && islands.length == 26
  | .budgetWindow _ => true
  | .referenceLoss _ => true
  | .referenceReturn => true
  | .islandStop _ _ => true
  | .islandWake _ _ => true
  | .islandPark _ _ => true
  | .islandReset _ _ => true
  | .pgReset _ _ => true
  | .warm _ => true
  | .warmReset => true
  | .moduleReset => true
  | .tapReset => true
  | .idcode => true
  | .samplePreload _ => true
  | .extest => true
  | .clamp => true
  | .highz => true
  | .extestPulse => true
  | .extestTrain => true
  | .bypass => true
  | .baseWinEnd => true
  | .fetchGapPassed _ => true
  | .hostLinkUp _ gen width _ => decide (1 ≤ gen.toNat) && decide (gen.toNat ≤ 6) && [1, 2, 4, 8, 16].contains width.toNat
  | .vfEnableSet _ _ => true
  | .referenceRestored _ => true
  | .registerRead _ _ _ => true
  | .secCommandDone _ => true
  | .islandActionDone => true

end Sys2Proof
end

