-- ==== Sys2Proof/Machine/Access.lean ====
section
/-!
DEFINITION. Accesses of masters to the map and of functions to their own registers (R231, R377 to R394, R461), the in-band and
stack commands that carry register accesses (R188, R196, R367, R368), and the management port's own events (R379).
-/
namespace Sys2Proof.Machine

namespace State

/-- An access has a size and an alignment that R381 carries out. -/
def sizeOk (off size : Nat) : Bool := (size == 4 || size == 8) && off % size == 0

/-- An access of another size or alignment is counted and recorded with reason 1 (R381). -/
def badAcc (s : State) (write : Bool) (m off : Nat) : State := (s.bump R.GLB_ACC_BAD).recordAcc 1 write m off

/-- The part of a 64-bit word that an access covers. -/
def halfOf (off size : Nat) : Half := if size = 8 then .full else if off % 8 = 0 then .low else .high

/-- The bits an access covers, taken from a word, or placed in one. -/
def cutWord (off size w : Nat) : Nat := if size = 8 then w else bitsOf w (8 * (off % 8)) 32
def placeWord (off size v : Nat) : Nat := if size = 8 then v % 2 ^ 64 else v % 2 ^ 32 * 2 ^ (8 * (off % 8))

/-- What a refused read returns: all ones (R382). -/
def allOnes (size : Nat) : Nat := 2 ^ (8 * min size 8) - 1

/-! The module-memory aperture (R393, R394). -/

/-- Module-memory byte address of a map offset in the aperture. -/
def apertureAddr (s : State) (off : Nat) : Nat := s.rd R.GLB_APERTURE_BASE * 2 ^ 20 + (off - 0x1000000)

/-- 24 GiB. -/
def memBytes : Nat := 24 * 2 ^ 30

/-- The address lies in a partition that the list, laid out from MiB `start`, marks aperture-writable. -/
def writableIn : List (Bool × Nat) → Nat → Nat → Bool
  | [], _, _ => false
  | (w, n) :: rest, start, mib => if start ≤ mib ∧ mib < start + n then w else writableIn rest (start + n) mib
def apertureWritable (s : State) (a : Nat) : Bool :=
  s.rdB R.GLB_APERTURE_WRITE_EN && (match s.opening with | some o => writableIn o.parts 0 (a / 2 ^ 20) | none => false)

/-- A read through the aperture. -/
def apertureRead (s : State) (m off size : Nat) : State × Nat :=
  let a := s.apertureAddr off
  if memBytes ≤ a then (s.recordAcc 5 false m off, 0) else (s, cutWord off size (s.memWord (a / 8 * 8)))

/-- A write through the aperture. -/
def apertureWrite (s : State) (m off size v : Nat) : State :=
  let a := s.apertureAddr off
  if memBytes ≤ a then s.recordAcc 5 true m off
  else if !s.apertureWritable a then s.recordAcc 4 true m off
  else s.setMemWord (a / 8 * 8) (mergeHalf (halfOf off size) (s.memWord (a / 8 * 8)) (placeWord off size v))

/-! The windows of SEC (R400, R419, R423). -/

/-- Byte i of entry n of the measurement log (R419). -/
def logByte (s : State) (n i : Nat) : Nat :=
  match s.sec.log[n]? with
  | none => 0
  | some (reg, ev, us, d) =>
    if i = 0 then reg
    else if i = 1 then ev
    else if i < 8 then 0
    else if i < 16 then bitsOf us (8 * (i - 8)) 8
    else bitsOf d (8 * (63 - i)) 8

/-- A byte of SEC's windows: the log, the load window, the buffer. -/
def secByte (s : State) (off : Nat) : Nat :=
  if off < 0x18000 then s.logByte ((off - 0x14000) / 64) ((off - 0x14000) % 64)
  else if off < 0x1C000 then SMap.get 0 s.sec.staging (s.rd R.SEC_LOAD_CTL_PAGE * 16384 + (off - 0x18000))
  else SMap.get 0 s.sec.buffer (off - 0x1C000)

/-- A little-endian read of SEC's windows. -/
def secRead (s : State) (off size : Nat) : Nat := ((List.range size).map (fun i => s.secByte (off + i) * 2 ^ (8 * i))).sum

/-- A write of the SEC buffer. -/
def secWrite (s : State) (off size v : Nat) : State :=
  let put := fun (t : SMap Nat) (i : Nat) => SMap.set 0 t (off - 0x1C000 + i) (bitsOf v (8 * i) 8)
  (s.withSec { s.sec with buffer := (List.range size).foldl put s.sec.buffer })

/-! Accesses of a master. -/

/-- Index of the counter a PMON entry shows (R467). -/
def pmonIndex (off : Nat) : Option Nat :=
  if 0xF00000 ≤ off ∧ off < 0xF30000 then some ((off - 0xF00000) / 8)
  else if 0xF40000 ≤ off ∧ off < 0xF70000 then some ((off - 0xF40000) / 8)
  else none

/-- The second condition of a PMON entry's access: its counter's island (R467). -/
def pmonGate (s : State) (m : Nat) (write : Bool) (off : Nat) : State × Bool :=
  match pmonIndex off with
  | none => (s, true)
  | some c =>
    let k := counterIsland c
    if s.refuses k then (s.refuseAcc write m off, false) else (s.wake k, true)

/-- A read by a master at a map offset: the state after it, and the data (R381, R382, R466). -/
def regRead (s : State) (m off size : Nat) : State × Nat :=
  match s.gate m false off with
  | (s, false) => (s, allOnes size)
  | (s, true) =>
    if !sizeOk off size then (s.badAcc false m off, 0)
    else match s.pmonGate m false off with
      | (s, false) => (s, allOnes size)
      | (s, true) =>
        let o := off / 8 * 8
        if 0x1000000 ≤ off then s.apertureRead m off size
        else if 0x14000 ≤ off ∧ off < 0x20000 then (s, s.secRead off size)
        else
          let v := cutWord off size (s.regWord m o)
          let s := if o = 0x40018 then (s.withTime { s.time with latch := SMap.set 0 s.time.latch m (s.time.ft % 65536) }) else s
          (if 0xB00048 ≤ o ∧ o ≤ 0xB00058 ∨ o = 0xB00020 ∨ o = 0xC00018 ∨ o = 0xD00008 then s.draw else s, v)

/-- A write by a master at a map offset (R381, R382). -/
def regWrite (s : State) (m : Master) (off size v : Nat) : State :=
  match s.gate m.id true off with
  | (s, false) => s
  | (s, true) =>
    if !sizeOk off size then s.badAcc true m.id off
    else match s.pmonGate m.id true off with
      | (s, false) => s
      | (s, true) =>
        if 0x1000000 ≤ off then s.apertureWrite m.id off size v
        else if 0x1C000 ≤ off ∧ off < 0x20000 then s.secWrite off size v
        else if 0x18000 ≤ off ∧ off < 0x1C000 then
          after (execLoadWindowWrite m (BitVec.ofNat 14 (off - 0x18000)) (BitVec.ofNat 8 size) (BitVec.ofNat 64 v) s) s
        else if 0x14000 ≤ off ∧ off < 0x18000 then s
        else s.regSet m (off / 8 * 8) (halfOf off size) (placeWord off size v)

/-- A read whose data goes to the master. -/
def readOut (s : State) (m : Master) (off size : Nat) : State :=
  if !s.arrives m.id then s.mgmtRefuse m.id false off
  else match s.regRead m.id off size with | (s, v) => s.emit (.readData m.id off (BitVec.ofNat 64 v))

/-! Accesses of a function to its BAR2 (R206, R231, R232, R461). -/

/-- Master identity of function f (R384). -/
def fnMaster (f : Nat) : Nat := if f % 128 = 0 then 0x010 + f / 128 else 0x100 + f

/-- Map offset of the view of function f's BAR2 page 0 (R230). -/
def fnView (f : Nat) : Nat := 0x920000 + 0x40000 * (f / 128) + 0x100 * (f % 128)

/-- The map offset that an access of another size records: that of the view of page 0; a counter page has none, and the value is
free. -/
def fnBad (s : State) (write : Bool) (f off : Nat) : State :=
  if off < 0x40 then s.badAcc write (fnMaster f) (fnView f + off)
  else (s.badAcc write (fnMaster f) (Config.freeWord s.rng).toNat).draw

/-- A word of the counter page of function g. -/
def counterPage (s : State) (g r : Nat) : Nat :=
  if r = 0 then s.ns
  else if r = 8 then s.time.ft % 65536 + 2 ^ 16 * b2n s.timeValid
  else if 0x40 ≤ r ∧ r < 0xC0 then s.counterWord (16 * g + (r - 0x40) / 8)
  else 0

/-- A word of function f's BAR2. -/
def fnWord (s : State) (f o : Nat) : Nat :=
  if o < 0x28 then s.regWord (fnMaster f) (fnView f + o)
  else if o < 0x10000 then 0
  else
    let n := (o - 0x10000) / 0x1000
    if !s.rdB (R.HPT_FN_STAT_COUNTERS_ALLOWED (f / 128) (f % 128)) then 0
    else if n = 0 then s.counterPage f (o % 0x1000)
    else if f % 128 = 0 ∧ n < 128 then s.counterPage (f + n) (o % 0x1000)
    else 0

/-- A read by function f. In a teardown HPT_FN_STATUS alone is readable (R229). -/
def fnRead (s : State) (f off size : Nat) : State :=
  if !s.decodes f then s
  else
    let o := off / 8 * 8
    let (s, v) := if !sizeOk off size then (s.fnBad false f off, 0)
      else if s.fnTeardown f && o != 0x08 then (s, 0)
      else (s, cutWord off size (s.fnWord f o))
    s.emit (.fnRead f off (BitVec.ofNat 64 v))

/-- A ring base register of the admin queue (R231): bits [11:0] read zero; ignored while ENABLE is 1. -/
def fnBase (s : State) (f : Nat) (r : FRef) (h : Half) (v : Nat) : State :=
  if s.rdB (R.HPT_ADMIN_CFG_ENABLE (f / 128) (f % 128)) then s
  else s.wr r (mergeHalf h (s.rd r) v / 4096 * 4096)

/-- A write by function f. In a teardown it is dropped, an admin doorbell is counted (R229). HPT_ADMIN_CFG with ENABLE 1 takes the fresh read of `ADMIN_ENABLE` and goes through that row. -/
def fnWrite (s : State) (f : Fin 512) (off size v : Nat) : State :=
  if !s.decodes f then s.barDrop f
  else if !sizeOk off size then s.fnBad true f off
  else if s.fnTeardown f && off / 8 * 8 != 0x28 then s
  else
    let p := f.val / 128
    let n := f.val % 128
    let h := halfOf off size
    let w := placeWord off size v
    match off / 8 * 8 with
    | 0x10 => s.fnBase f (R.HPT_ADMIN_WQ_BASE_BASE p n) h w
    | 0x18 => s.fnBase f (R.HPT_ADMIN_CQ_BASE_BASE p n) h w
    | 0x20 => if s.rdB (R.HPT_ADMIN_CFG_ENABLE p n) then s else after (execAdminEnable f h (BitVec.ofNat 64 w) .timeout s) s
    | 0x28 => after (execHptAdminDb f s) s
    | 0x30 => after (execHptCqAck f (size == 8) (BitVec.ofNat 64 w) s) s
    | 0x38 => after (execHptEqAck f (size == 8) (BitVec.ofNat 64 w) s) s
    | _ => s

end State

open State

/-- APERTURE_ACCESS (R393, R394): a read, or a write of `data`, at a map offset of the aperture. -/
def execApertureAccess (m : Master) (off : BitVec 26) (size : BitVec 8) (data : Option (BitVec 64)) (s : State) : Out :=
  .next (if off.toNat < 0x1000000 then s
    else match data with
      | none => s.readOut m off.toNat size.toNat
      | some v => s.regWrite m off.toNat size.toNat v.toNat)

/-- GLB_LOCK_WRITE (R385): a 1 sets a lock bit, a 0 does nothing. -/
def execGlbLockWrite (m : Master) (mask : BitVec 4) (s : State) : Out := .next (s.regWrite m 0x18 8 mask.toNat)

/-- REG_READ (R188, R196). -/
def execRegRead (s : State) : Out :=
  .next (s.inbandRow (· == 0x10) (fun s r =>
    match s.regRead 2 (r.arg % 2 ^ 26) 8 with | (s, v) => (s, some (0, some v))))

/-- REG_WRITE (R188, R196). -/
def execRegWrite (s : State) : Out :=
  .next (s.inbandRow (· == 0x11) (fun s r =>
    if !r.data || r.len != 8 then (s, some (4, none))
    else (s.regWrite .manager (r.arg % 2 ^ 26) 8 r.value, some (0, none))))

/-- RELAY_WRITE (R367, R369). -/
def execRelayWrite (s : State) : Out :=
  .next (s.stkRow 0x04 (fun s r =>
    if !r.data || r.len != 8 then (s, some (4, none))
    else (((s.bump R.STK_RELAY_WRITES).regWrite .manager (r.arg % 2 ^ 26) 8 r.value).noteRelay (r.arg % 2 ^ 26), some (0, none))))

/-- RELAY_READ (R367). -/
def execRelayRead (s : State) : Out :=
  .next (s.stkRow 0x05 (fun s r =>
    match s.regRead 2 (r.arg % 2 ^ 26) 8 with | (s, v) => (s, some (0, some v))))

namespace State

/-- A register access at member [35:32] of ARG: here, or by a relay whose response is awaited (R368). -/
def memberRow (s : State) (r : MgmtReq) (here : State → State × Option (Nat × Option Nat)) (code len : Nat) (pay : List Square) :
    State × Option (Nat × Option Nat) :=
  let i := bitsOf r.arg 32 4
  if !s.isMaster then (s, some (3, none))
  else if i = s.ownMember then here s
  else if !s.isMember i then (s, some (4, none))
  else
    match s.sendStk i code (r.arg % 2 ^ 26) len pay with
    | (s, psn) => ((s.withStk { s.stk with relays := s.stk.relays ++ [(psn, r)] }), none)

end State

/-- MEMBER_READ (R368). -/
def execMemberRead (s : State) : Out :=
  .next (s.inbandRow (· == 0x12) (fun s r =>
    s.memberRow r (fun s => match s.regRead 2 (r.arg % 2 ^ 26) 8 with | (s, v) => (s, some (0, some v))) 0x05 0 []))

/-- MEMBER_WRITE (R368). -/
def execMemberWrite (s : State) : Out :=
  .next (s.inbandRow (· == 0x13) (fun s r =>
    if s.isMaster && (!r.data || r.len != 8) then (s, some (4, none))
    else s.memberRow r (fun s => (s.regWrite .manager (r.arg % 2 ^ 26) 8 r.value, some (0, none))) 0x04 8 (valuePay r.value)))

/-- MGMT_PORT_EVENT (R379): the port's own PCI Express state alone. The link comes up only while its reference is present
(R479). -/
def execMgmtPortEvent (e : MgmtEvent) (s : State) : Out :=
  .next (match e with
    | .linkDown => s.mgmtDown
    | .hotReset => s.mgmtDown
    | .perst => s.mgmtDown
    | .flr => s.resetMgmt
    | .d3hot => (s.withMgmtD3 s.mgmtUp)
    | .d0 => (s.withMgmtD3 false)
    | .linkUp gen width =>
      if s.rdB R.PWR_CLK_STAT_MGMT_LOST || s.mgmtUp || !e.wf then s else (s.mgmtTrain gen.toNat width.toNat).enumerated 512)

end Sys2Proof.Machine
end

