-- ==== Sys2Proof/Machine/ConfigSpace.lean ====
section
/-!
DEFINITION. What the host and the commander reach of the PCI Express functions beyond their registers (R202 to R207, R228, R229, R377,
R378, R499): configuration space, BAR0 and the MSI-X tables, and the register accesses that carry them. A capability's own layout is
that of the PCI Express base specification (log entry 93).
-/
namespace Sys2Proof.Machine

/-- Capabilities of each kind (R202, R377), by their place in R202's table; 0 is the header. -/
def capHere (kind cap : Nat) : Bool :=
  match kind with
  | 0 => decide (cap ≤ 14)
  | 1 => [0, 1, 2, 3, 4, 7, 14].contains cap
  | _ => [0, 1, 2, 3, 4, 8].contains cap

/-- ID and version of a capability. -/
def capId : Nat → Nat × Nat
  | 1 => (0x10, 2) | 2 => (0x01, 3) | 3 => (0x11, 0) | 4 => (0x0001, 2) | 5 => (0x000E, 1) | 6 => (0x0010, 1) | 7 => (0x000D, 1)
  | 8 => (0x0003, 1) | 9 => (0x0025, 1) | 10 => (0x0026, 1) | 11 => (0x002A, 1) | 12 => (0x0031, 1) | 13 => (0x0027, 1)
  | 14 => (0x0023, 1) | _ => (0, 0)

/-- First word of a capability; where the next one lies is the part's. -/
def capHead (kind cap : Nat) : Nat :=
  let id := (capId cap).1
  let next := (Config.capNext kind cap).toNat
  if cap ≤ 3 then id + next % 256 * 2 ^ 8 + (if cap = 3 then 0 else (capId cap).2 * 2 ^ 16)
  else id + (capId cap).2 * 2 ^ 16 + next % 4096 * 2 ^ 20

namespace State

/-- The header's identification words (R499). -/
def cfgIdent (s : State) (kind key : Nat) : Nat :=
  match key with
  | 0x0000 => 0x1F6A + 2 ^ 16 * (match kind with | 0 => 0x1024 | 1 => 0x1025 | _ => if s.isS0 then 0x1027 else 0x1026)
  | 0x0008 => 0x10 * s.rd R.GLB_INFO_STEP_LET + s.rd R.GLB_INFO_STEP_NUM + 2 ^ 8 * (if kind = 2 then 0x088000 else 0x028000)
  | _ => 0x1F6A + 2 ^ 16 * (if kind = 2 ∧ s.isS0 = true then 2 else 1)

/-- The bits of a configuration word that no write sets. -/
def cfgFixed (s : State) (f key : Nat) : Nat :=
  let kind := fnKind f
  let p := f / 128
  let gen := if kind = 2 then 3 else s.rd (R.HPT_PORT_CFG_MAX_GEN p)
  let width := if kind = 2 then 4 else if s.rdB (R.HPT_PORT_CFG_MAX_X8 p) then 8 else 16
  match key with
  | 0x0004 => 0x00100000
  | 0x0010 => if kind = 0 then 0xC else if kind = 2 then 0x4 else 0
  | 0x0018 => if kind = 1 then 0 else 0x4
  | 0x0020 => if kind = 0 then 0x4 else 0
  | 0x0034 => (Config.capNext kind 0).toNat % 256
  | 0x1000 => capHead kind 1
  | 0x1004 => 0x10008020 + (if kind = 2 then 1 else 2)
  | 0x1008 => if kind ≠ 2 ∧ s.npOpen f = true then 2 ^ 21 else 0
  | 0x100C => gen + 2 ^ 4 * width
  | 0x1010 =>
    let at_ := (s.pciFn f).link.getD (gen, width)
    if kind = 2 then 2 ^ 16 * at_.1 + 2 ^ 20 * at_.2 else 2 ^ 16 * s.rd (R.HPT_PORT_STAT_GEN p) + 2 ^ 20 * s.rd (R.HPT_PORT_STAT_WIDTH p)
  | 0x1024 => if kind = 2 then 0 else 0x0003001F
  | 0x102C => 2 * (2 ^ gen - 1)
  | 0x1030 => gen
  | 0x2000 => capHead kind 2
  | 0x2004 => if kind = 2 then 0x8 + 3 * b2n s.mgmtD3 else 0
  | 0x3000 => capHead kind 3 + 2 ^ 16 * (if kind = 2 then 31 else 2047)
  | 0x3004 => if kind = 2 then 2 else 4
  | 0x3008 => 0x8000 + (if kind = 2 then 2 else 4)
  | 0x4000 => capHead kind 4
  | 0x5000 => capHead kind 5
  | 0x6000 => capHead kind 6
  | 0x6008 => b2n (s.vfEnable f)
  | 0x600C => s.rd (R.HPT_PORT_CFG_TOTAL_VFS p) + 2 ^ 16 * s.rd (R.HPT_PORT_CFG_TOTAL_VFS p)
  | 0x6014 => 1 + 2 ^ 16 * 1
  | 0x6018 => 2 ^ 16 * 0x1025
  | 0x601C => 0x11
  | 0x6024 => 0xC
  | 0x602C => 0x4
  | 0x6034 => 0x4
  | 0x7000 => capHead kind 7
  | 0x7004 => 0x7F
  | 0x8000 => capHead kind 8
  | 0x8004 => s.rd R.GLB_IDENTITY_IDENTITY % 2 ^ 32
  | 0x8008 => s.rd R.GLB_IDENTITY_IDENTITY / 2 ^ 32
  | 0x9000 => capHead kind 9
  | 0x9004 => 1
  | 0xA000 => capHead kind 10
  | 0xB000 => capHead kind 11
  | 0xC000 => capHead kind 12
  | 0xD000 => capHead kind 13
  | 0xE000 => capHead kind 14
  | 0xE004 => 0x1F6A + 2 ^ 20 * 0x10
  | 0xE008 => 0x0001
  | 0xE00C => b2n (s.fnTeardown f) + 2 * s.rd (R.HPT_FN_STAT_CAUSE p (f % 128))
  | _ => 0

end State

/-- Words of which only the base specification or the line says what they read: the header log of AER, Data Link Feature status, the Physical Layer capabilities and Lane Margining. -/
def cfgOpen (key : Nat) : Bool :=
  (decide (0x401C ≤ key) && decide (key < 0x402C)) || key == 0x9008 ||
    (decide (0xA004 ≤ key) && decide (key < 0xE000) && key % 0x1000 != 0)

namespace State

/-- A word of configuration space (R202, R203); a capability that is absent reads zero. -/
def cfgWord (s : State) (f key : Nat) : Nat :=
  let kind := fnKind f
  if !capHere kind (key / 4096) then 0
  else if cfgOpen key then (Config.freeWord s.rng).toNat % 2 ^ 32
  else if key = 0x0000 ∨ key = 0x0008 ∨ key = 0x002C then s.cfgIdent kind key
  else if key = 0x6010 then s.numVfs f
  else (SMap.get 0 (s.cfgRegs f) key ^^^ cfgRst kind key) ||| s.cfgFixed f key

/-- The words of an access of `size` bytes lie in one word, aligned. -/
def cfgSize (off size : Nat) : Bool := (size == 1 || size == 2 || size == 4) && off % size == 0

/-- A configuration read. -/
def cfgRead (s : State) (f off size : Nat) : State :=
  if !s.cfgReach f || !cfgSize off size then s
  else
    let key := off / 4 * 4
    let t := s.emit (.configRead f off (BitVec.ofNat 64 (bitsOf (s.cfgWord f key) (8 * (off % 4)) (8 * size))))
    if capHere (fnKind f) (key / 4096) && cfgOpen key then t.draw else t

/-- The Control word of SR-IOV is written: VF Enable rises or falls (R205, R227, R229). -/
def vfControl (s : State) (p : Fin 4) (en : Bool) : State :=
  let pf := 128 * p.val
  if en && (!s.vfEnable pf || s.fnTeardown pf) then s.vfEnableSet p (s.numVfs pf)
  else if !en && s.vfEnable pf then after (execVfEnableChange p false 0 s) s
  else s

/-- What a configuration write sets off beyond its word: a Function Level Reset, a move from D3hot to D0, messages that are no longer
masked, VF Enable and NumVFs (R202, R205, R219, R227, R379). `was`: the function was in D3hot. -/
def cfgAct (s : State) (f : Nat) (was : Bool) (key mask v : Nat) : State :=
  let v := v &&& mask
  if key = 0x1008 ∧ bitOf v 15 = true then
    (if f = 512 then after (execMgmtPortEvent .flr s) s else after (execFlr (Fin.ofNat 512 f) s) s)
  else if key = 0x2004 ∧ bitOf mask 0 = true then
    (if f = 512 then
      (if v % 4 = 3 then after (execMgmtPortEvent .d3hot s) s else if v % 4 = 0 then after (execMgmtPortEvent .d0 s) s else s)
    else if was && v % 4 == 0 then after (execD3hotToD0 (Fin.ofNat 512 f) s) s else s)
  else if key = 0x3000 ∨ key = 0x0004 then s.flushMsgs f
  else if f < 512 ∧ f % 128 = 0 ∧ key = 0x6008 ∧ bitOf mask 0 = true then s.vfControl (Fin.ofNat 4 (f / 128)) (bitOf v 0)
  else if f < 512 ∧ f % 128 = 0 ∧ key = 0x6010 ∧ s.vfEnable f = true then
    after (execVfEnableChange (Fin.ofNat 4 (f / 128)) true (BitVec.ofNat 7 v) s) s
  else s

/-- A configuration write (R202, R229): it carries the bus number; during a teardown it is accepted, and takes effect at its end. -/
def cfgWrite (s : State) (f bus off size v : Nat) : State :=
  if !s.cfgReach f || !cfgSize off size then s
  else
    let key := off / 4 * 4
    let mask := (2 ^ (8 * size) - 1) * 2 ^ (8 * (off % 4))
    let v := v % 2 ^ (8 * size) * 2 ^ (8 * (off % 4))
    let c := { s.pciFn f with bus := bus }
    let torn := decide (f < 512) && s.fnTeardown f
    let was := s.inD3 f
    let c := if !capHere (fnKind f) (key / 4096) then c
      else if torn then { c with late := c.late ++ [(key, mask, v)] }
      else { c with regs := cfgPut (fnKind f) c.regs (key, mask, v) }
    let s := s.setPci f c
    if !capHere (fnKind f) (key / 4096) then s else s.cfgAct f (was && !torn) key mask v

/-! BAR0 and the MSI-X tables (R206, R207, R229, R378). -/

/-- A memory request to a BAR of function f, 512 the management port, is taken; in a teardown its data read zero and its writes are
dropped. -/
def barReach (s : State) (f : Nat) : Bool := if f = 512 then s.arrives 1 else s.decodes f
def barDead (s : State) (f : Nat) : Bool := decide (f < 512) && s.fnTeardown f

/-- A read that is not taken gets Unsupported Request where a link carries it (R229, R379). -/
def barRefuse (s : State) (f off : Nat) : State := if s.cfgReach f then (s.emit (.unsupported f off)).aerLog f 20 else s

/-- A 4-byte word of the MSI-X table and the pending bits (R206, R378). -/
def msixWord (s : State) (f o : Nat) : Nat :=
  let n := if f = 512 then 32 else 2048
  if o < 16 * n then SMap.get 0 (s.pciFn f).msix (o / 4) ^^^ (if o / 4 % 4 = 3 then b2n (!s.cfgBit f 0xF000 0) else 0)
  else if 0x8000 ≤ o ∧ o < 0x8000 + n / 8 then
    ((List.range 32).map (fun i => SMap.get 0 s.msgPba (2048 * f + 8 * (o - 0x8000) + i) * 2 ^ i)).sum
  else 0

/-- A read of the MSI-X table or the pending bits. -/
def msixRead (s : State) (f off size : Nat) : State :=
  if !s.barReach f then s.barRefuse f off
  else
    let v := if s.barDead f || !sizeOk off size then 0
      else if size = 4 then s.msixWord f off else s.msixWord f off + 2 ^ 32 * s.msixWord f (off + 4)
    s.emit (.barRead f (if f = 512 then 2 else 4) off (BitVec.ofNat 64 v))

/-- A write of a word of the MSI-X table; the pending bits are read only. -/
def msixPut (s : State) (f o v : Nat) : State :=
  let c := s.pciFn f
  let w := if o / 4 % 4 = 3 then v % 2 ^^^ b2n (!s.cfgBit f 0xF000 0) else if o / 4 % 4 = 0 then v % 2 ^ 32 / 4 * 4 else v % 2 ^ 32
  if o < 16 * (if f = 512 then 32 else 2048) then s.setPci f { c with msix := SMap.set 0 c.msix (o / 4) w } else s
def msixWrite (s : State) (f off size v : Nat) : State :=
  if !s.barReach f then s.barDrop f
  else if s.barDead f || !sizeOk off size then s
  else
    let s := s.msixPut f off v
    let s := if size = 8 then s.msixPut f (off + 4) (v / 2 ^ 32) else s
    s.flushMsgs f

/-- A read of BAR0 returns zero (R207). -/
def bar0Read (s : State) (f off : Nat) : State :=
  if !s.barReach f then s.barRefuse f off else s.emit (.barRead f 0 off 0)

end State

open State

/-- REGISTER_READ (R202, R206, R207, R231, R381 to R383). -/
def execRegisterRead (w : Who) (off : BitVec 26) (size : BitVec 8) (s : State) : Out :=
  .next (match w with
    | .master m => s.readOut m off.toNat size.toNat
    | .fn f => if s.decodes f then s.fnRead f off.toNat size.toNat else s.barRefuse f off.toNat
    | .bar0 f => s.bar0Read f off.toNat
    | .msix f => s.msixRead f off.toNat size.toNat
    | .config f _ => s.cfgRead f off.toNat size.toNat)

/-- REGISTER_WRITE (R202, R206, R207, R231, R381 to R386). A write of BAR0 is doorbells; the value carries its first 8 bytes, which no
rule looks at. -/
def execRegisterWrite (w : Who) (off : BitVec 26) (size : BitVec 8) (v : BitVec 64) (s : State) : Out :=
  .next (match w with
    | .master m => s.regWrite m off.toNat size.toNat v.toNat
    | .fn f => s.fnWrite f off.toNat size.toNat v.toNat
    | .bar0 f => if 1 ≤ size.toNat ∧ size.toNat ≤ 64 then
        after (execDoorbell f (BitVec.ofNat 22 off.toNat) (Fin.ofNat 64 (size.toNat - 1)) s) s else s
    | .msix f => s.msixWrite f off.toNat size.toNat v.toNat
    | .config f bus => s.cfgWrite f bus.toNat off.toNat size.toNat v.toNat)

end Sys2Proof.Machine
end

