-- ==== Sys2Proof/Machine/Dispatch.lean ====
section
/-!
DEFINITION. The one dispatch: each command goes to its meaning.
-/
namespace Sys2Proof.Machine

def exec (i : Instr) (s : State) : Host.Outcome State Fault Refusal :=
  match i with
  | .wakeRequest k => Sys2Proof.Machine.execWakeRequest k s
  | .departureNotice o => Sys2Proof.Machine.execDepartureNotice o s
  | .enter m => Sys2Proof.Machine.execEnter m s
  | .leave m => Sys2Proof.Machine.execLeave m s
  | .leaveDone => Sys2Proof.Machine.execLeaveDone s
  | .isoIsolate m unit force => Sys2Proof.Machine.execIsoIsolate m unit force s
  | .isoRelease m unit all => Sys2Proof.Machine.execIsoRelease m unit all s
  | .isoAll m unit => Sys2Proof.Machine.execIsoAll m unit s
  | .isoCommandDone => Sys2Proof.Machine.execIsoCommandDone s
  | .headerSquareArrive p => Sys2Proof.Machine.execHeaderSquareArrive p s
  | .lossOfSignal l => Sys2Proof.Machine.execLossOfSignal l s
  | .signalDetect l => Sys2Proof.Machine.execSignalDetect l s
  | .rxAdaptConverged l atLimit ctle snr eye => Sys2Proof.Machine.execRxAdaptConverged l atLimit ctle snr eye s
  | .commaBlockRx l spaced lv skew => Sys2Proof.Machine.execCommaBlockRx l spaced lv skew s
  | .commaLockLost l => Sys2Proof.Machine.execCommaLockLost l s
  | .codewordRx p lv => Sys2Proof.Machine.execCodewordRx p lv s
  | .healthWindowEnd l => Sys2Proof.Machine.execHealthWindowEnd l s
  | .healthCommaTimeout l => Sys2Proof.Machine.execHealthCommaTimeout l s
  | .ltHealthWrite m t mask => Sys2Proof.Machine.execLtHealthWrite m t mask s
  | .ltTxEqWrite m l h v => Sys2Proof.Machine.execLtTxEqWrite m l h v s
  | .ltLaneCtlWrite m l h v => Sys2Proof.Machine.execLtLaneCtlWrite m l h v s
  | .patLock l lv => Sys2Proof.Machine.execPatLock l lv s
  | .patResync l errs => Sys2Proof.Machine.execPatResync l errs s
  | .eyeScanStart m l h v => Sys2Proof.Machine.execEyeScanStart m l h v s
  | .eyeScanDone l errors => Sys2Proof.Machine.execEyeScanDone l errors s
  | .rowTx p => Sys2Proof.Machine.execRowTx p s
  | .rowRx p => Sys2Proof.Machine.execRowRx p s
  | .badrowLimit p => Sys2Proof.Machine.execBadrowLimit p s
  | .replayTimeout p => Sys2Proof.Machine.execReplayTimeout p s
  | .replayLimit p => Sys2Proof.Machine.execReplayLimit p s
  | .rttWindowEnd p => Sys2Proof.Machine.execRttWindowEnd p s
  | .capRowRx p done reqs => Sys2Proof.Machine.execCapRowRx p done reqs s
  | .eqRowRx p done reqs => Sys2Proof.Machine.execEqRowRx p done reqs s
  | .confirmRowRx p => Sys2Proof.Machine.execConfirmRowRx p s
  | .lresetRx p => Sys2Proof.Machine.execLresetRx p s
  | .resetIntervalEnd p => Sys2Proof.Machine.execResetIntervalEnd p s
  | .trainTimeout p => Sys2Proof.Machine.execTrainTimeout p s
  | .degradeTimeout p => Sys2Proof.Machine.execDegradeTimeout p s
  | .retrain m p => Sys2Proof.Machine.execRetrain m p s
  | .disable m p on => Sys2Proof.Machine.execDisable m p on s
  | .timeFrame p => Sys2Proof.Machine.execTimeFrame p s
  | .admitPkt idx vl => Sys2Proof.Machine.execAdmit idx vl s
  | .admitRetry idx vl => Sys2Proof.Machine.execAdmitRetry idx vl s
  | .squareFree pid => Sys2Proof.Machine.execSquareFree pid s
  | .outputSchedule o => Sys2Proof.Machine.execOutputSchedule o s
  | .cutThroughResume p => Sys2Proof.Machine.execCutThroughResume p s
  | .entryDeadline o vl pid => Sys2Proof.Machine.execEntryDeadline o vl pid s
  | .auditPass upsets => Sys2Proof.Machine.execAuditPass upsets s
  | .shaperTick p => Sys2Proof.Machine.execShaperTick p s
  | .policerRefill f => Sys2Proof.Machine.execPolicerRefill f s
  | .remoteDecay => Sys2Proof.Machine.execRemoteDecay s
  | .shadowCopyDone part => Sys2Proof.Machine.execShadowCopyDone part s
  | .rteCfgWrite m h v => Sys2Proof.Machine.execRteCfgWrite m h v s
  | .throttleWindowEnd => Sys2Proof.Machine.execThrottleWindowEnd s
  | .grantReqRx => Sys2Proof.Machine.execGrantReqRx s
  | .grantIssue h => Sys2Proof.Machine.execGrantIssue h s
  | .mgmtReqRx => Sys2Proof.Machine.execMgmtReqRx s
  | .mgmtRespRx => Sys2Proof.Machine.execMgmtRespRx s
  | .quenchFn src => Sys2Proof.Machine.execQuenchFn src s
  | .unquenchFn src => Sys2Proof.Machine.execUnquenchFn src s
  | .quenchJob src => Sys2Proof.Machine.execQuenchJob src s
  | .unquenchJob src => Sys2Proof.Machine.execUnquenchJob src s
  | .quenchAll src => Sys2Proof.Machine.execQuenchAll src s
  | .unquenchAll src => Sys2Proof.Machine.execUnquenchAll src s
  | .teardownJob src => Sys2Proof.Machine.execTeardownJob src s
  | .teardownJobDone j => Sys2Proof.Machine.execTeardownJobDone j s
  | .treeStop src => Sys2Proof.Machine.execTreeStop src s
  | .strobe src => Sys2Proof.Machine.execStrobe src s
  | .probeSend src => Sys2Proof.Machine.execProbeSend src s
  | .regRead => Sys2Proof.Machine.execRegRead s
  | .regWrite => Sys2Proof.Machine.execRegWrite s
  | .probeRx => Sys2Proof.Machine.execProbeRx s
  | .probeEchoRx => Sys2Proof.Machine.execProbeEchoRx s
  | .doorbell f off len => Sys2Proof.Machine.execDoorbell f off len s
  | .serve f q ans => Sys2Proof.Machine.execServe f q ans s
  | .hptAdminDb f => Sys2Proof.Machine.execHptAdminDb f s
  | .adminEnable f h v ans => Sys2Proof.Machine.execAdminEnable f h v ans s
  | .hptCqAck f wide v => Sys2Proof.Machine.execHptCqAck f wide v s
  | .hptEqAck f wide v => Sys2Proof.Machine.execHptEqAck f wide v s
  | .hostReadCompletion p id ans => Sys2Proof.Machine.execHostReadCompletion p id ans s
  | .nop w => Sys2Proof.Machine.execNop w s
  | .put w => Sys2Proof.Machine.execPut w s
  | .get w => Sys2Proof.Machine.execGet w s
  | .send w => Sys2Proof.Machine.execSend w s
  | .atomic w => Sys2Proof.Machine.execAtomic w s
  | .flush w => Sys2Proof.Machine.execFlush w s
  | .lock w => Sys2Proof.Machine.execLock w s
  | .coll w => Sys2Proof.Machine.execColl w s
  | .svc w => Sys2Proof.Machine.execSvc w s
  | .recv w => Sys2Proof.Machine.execRecv w s
  | .probe w => Sys2Proof.Machine.execProbe w s
  | .cancel w => Sys2Proof.Machine.execCancel w s
  | .createWq f => Sys2Proof.Machine.execCreateWq f s
  | .destroyWq f ans => Sys2Proof.Machine.execDestroyWq f ans s
  | .createCq f => Sys2Proof.Machine.execCreateCq f s
  | .destroyCq f => Sys2Proof.Machine.execDestroyCq f s
  | .createEq f => Sys2Proof.Machine.execCreateEq f s
  | .destroyEq f => Sys2Proof.Machine.execDestroyEq f s
  | .createJob f => Sys2Proof.Machine.execCreateJob f s
  | .destroyJob f => Sys2Proof.Machine.execDestroyJob f s
  | .rankWrite f ans => Sys2Proof.Machine.execRankWrite f ans s
  | .fnReset f => Sys2Proof.Machine.execFnReset f s
  | .setVfQuota f => Sys2Proof.Machine.execSetVfQuota f s
  | .setCounterAccess f => Sys2Proof.Machine.execSetCounterAccess f s
  | .queryFn f => Sys2Proof.Machine.execQueryFn f s
  | .createXctx f => Sys2Proof.Machine.execCreateXctx f s
  | .destroyXctx f => Sys2Proof.Machine.execDestroyXctx f s
  | .invalidate f => Sys2Proof.Machine.execInvalidate f s
  | .invalidateDone f => Sys2Proof.Machine.execInvalidateDone f s
  | .pageResume f => Sys2Proof.Machine.execPageResume f s
  | .setDeviceWindow f => Sys2Proof.Machine.execSetDeviceWindow f s
  | .setStage2 f => Sys2Proof.Machine.execSetStage2 f s
  | .regMr f => Sys2Proof.Machine.execRegMr f s
  | .deregMr f => Sys2Proof.Machine.execDeregMr f s
  | .createDomain f => Sys2Proof.Machine.execCreateDomain f s
  | .destroyDomain f => Sys2Proof.Machine.execDestroyDomain f s
  | .regResultBuf f => Sys2Proof.Machine.execRegResultBuf f s
  | .deregResultBuf f => Sys2Proof.Machine.execDeregResultBuf f s
  | .flr f => Sys2Proof.Machine.execFlr f s
  | .vfEnableChange p enable n => Sys2Proof.Machine.execVfEnableChange p enable n s
  | .d3hotToD0 f => Sys2Proof.Machine.execD3hotToD0 f s
  | .hostLinkDown p => Sys2Proof.Machine.execHostLinkDown p s
  | .hpPerst p ns => Sys2Proof.Machine.execHpPerst p ns s
  | .hptFnTeardown m f h v => Sys2Proof.Machine.execHptFnTeardown m f h v s
  | .teardownTagTimeout f => Sys2Proof.Machine.execTeardownTagTimeout f s
  | .teardownEnd f => Sys2Proof.Machine.execTeardownEnd f s
  | .translationWalk ans => Sys2Proof.Machine.execTranslationWalk ans s
  | .cacheEntryExpire p => Sys2Proof.Machine.execCacheEntryExpire p s
  | .requestArrive fwd => Sys2Proof.Machine.execRequestArrive fwd s
  | .replyArrive => Sys2Proof.Machine.execReplyArrive s
  | .ackRx => Sys2Proof.Machine.execAckRx s
  | .ackDelay f peer cn => Sys2Proof.Machine.execAckDelay f peer cn s
  | .reorderHold f peer cn => Sys2Proof.Machine.execReorderHold f peer cn s
  | .retransmissionTimeout f peer cn => Sys2Proof.Machine.execRetransmissionTimeout f peer cn s
  | .retryUs f peer cn => Sys2Proof.Machine.execRetryUs f peer cn s
  | .nakRetryLimit f peer cn => Sys2Proof.Machine.execNakRetryLimit f peer cn s
  | .idleClose f peer cn => Sys2Proof.Machine.execIdleClose f peer cn s
  | .tombstoneExpire => Sys2Proof.Machine.execTombstoneExpire s
  | .storeWaitEnd n => Sys2Proof.Machine.execStoreWaitEnd n s
  | .atomicComplete p ans => Sys2Proof.Machine.execAtomicComplete p ans s
  | .flushReadDone p => Sys2Proof.Machine.execFlushReadDone p s
  | .xptConnSel m h v => Sys2Proof.Machine.execXptConnSel m h v s
  | .arrive => Sys2Proof.Machine.execArrive s
  | .getRdvSend m => Sys2Proof.Machine.execGetRdvSend m s
  | .keyDrainEnd idx => Sys2Proof.Machine.execKeyDrainEnd idx s
  | .handlerInvoke k v => Sys2Proof.Machine.execHandlerInvoke k v s
  | .handlerOverrun k => Sys2Proof.Machine.execHandlerOverrun k s
  | .seat mst idx => Sys2Proof.Machine.execSeat mst idx s
  | .unseat mst idx => Sys2Proof.Machine.execUnseat mst idx s
  | .colTreeAWrite m idx h v => Sys2Proof.Machine.execColTreeAWrite m idx h v s
  | .ctlReserve => Sys2Proof.Machine.execCtlReserve s
  | .ctlConfirm => Sys2Proof.Machine.execCtlConfirm s
  | .ctlSeatFail => Sys2Proof.Machine.execCtlSeatFail s
  | .ctlArrive => Sys2Proof.Machine.execCtlArrive s
  | .ctlRelease => Sys2Proof.Machine.execCtlRelease s
  | .ctlChunkDone => Sys2Proof.Machine.execCtlChunkDone s
  | .ctlAbort => Sys2Proof.Machine.execCtlAbort s
  | .ctlUnseat => Sys2Proof.Machine.execCtlUnseat s
  | .collUpRx => Sys2Proof.Machine.execCollUpRx s
  | .collDownRx => Sys2Proof.Machine.execCollDownRx s
  | .operandRead p id ans => Sys2Proof.Machine.execOperandRead p id ans s
  | .seatTimeout m => Sys2Proof.Machine.execSeatTimeout m s
  | .startTimeout m => Sys2Proof.Machine.execStartTimeout m s
  | .chunkTimeout m => Sys2Proof.Machine.execChunkTimeout m s
  | .lockReqRx => Sys2Proof.Machine.execLockReqRx s
  | .lockFwdRx => Sys2Proof.Machine.execLockFwdRx s
  | .lockResultRx => Sys2Proof.Machine.execLockResultRx s
  | .lockRetry w => Sys2Proof.Machine.execLockRetry w s
  | .read src w => Sys2Proof.Machine.execRead src w s
  | .cas src w => Sys2Proof.Machine.execCas src w s
  | .clearOrphan src w => Sys2Proof.Machine.execClearOrphan src w s
  | .purgeFn fwd => Sys2Proof.Machine.execPurgeFn fwd s
  | .purgeJob fwd => Sys2Proof.Machine.execPurgeJob fwd s
  | .lckPurgeModule m target => Sys2Proof.Machine.execLckPurgeModule m target s
  | .lckPurgeFa m => Sys2Proof.Machine.execLckPurgeFa m s
  | .lckPurgeWord m w => Sys2Proof.Machine.execLckPurgeWord m w s
  | .purgeSend => Sys2Proof.Machine.execPurgeSend s
  | .hello => Sys2Proof.Machine.execHello s
  | .heartbeatSend => Sys2Proof.Machine.execHeartbeatSend s
  | .heartbeat => Sys2Proof.Machine.execHeartbeat s
  | .digestSend => Sys2Proof.Machine.execDigestSend s
  | .digest => Sys2Proof.Machine.execDigest s
  | .digestStale idx => Sys2Proof.Machine.execDigestStale idx s
  | .relayWrite => Sys2Proof.Machine.execRelayWrite s
  | .relayRead => Sys2Proof.Machine.execRelayRead s
  | .strobeArm => Sys2Proof.Machine.execStrobeArm s
  | .strobeCommit => Sys2Proof.Machine.execStrobeCommit s
  | .strobeCancel => Sys2Proof.Machine.execStrobeCancel s
  | .strobeLeadExpire => Sys2Proof.Machine.execStrobeLeadExpire s
  | .armLapse => Sys2Proof.Machine.execArmLapse s
  | .stackSwap => Sys2Proof.Machine.execStackSwap s
  | .faultReport => Sys2Proof.Machine.execFaultReport s
  | .psnMirror => Sys2Proof.Machine.execPsnMirror s
  | .mirrorMiss => Sys2Proof.Machine.execMirrorMiss s
  | .hbMiss => Sys2Proof.Machine.execHbMiss s
  | .masterQuery => Sys2Proof.Machine.execMasterQuery s
  | .takeover => Sys2Proof.Machine.execTakeover s
  | .memberSync idx => Sys2Proof.Machine.execMemberSync idx s
  | .memberRead => Sys2Proof.Machine.execMemberRead s
  | .memberWrite => Sys2Proof.Machine.execMemberWrite s
  | .glbStrobe m h mask => Sys2Proof.Machine.execGlbStrobe m h mask s
  | .castleStrobe => Sys2Proof.Machine.execCastleStrobe s
  | .reconfStop m kind index => Sys2Proof.Machine.execReconfStop m kind index s
  | .reconfApply m kind index => Sys2Proof.Machine.execReconfApply m kind index s
  | .reconfResume m kind index => Sys2Proof.Machine.execReconfResume m kind index s
  | .reconfDone => Sys2Proof.Machine.execReconfDone s
  | .apertureAccess m off size data => Sys2Proof.Machine.execApertureAccess m off size data s
  | .glbLockWrite m mask => Sys2Proof.Machine.execGlbLockWrite m mask s
  | .registerWrite m off size v => Sys2Proof.Machine.execRegisterWrite m off size v s
  | .mgmtPortEvent e => Sys2Proof.Machine.execMgmtPortEvent e s
  | .bootSequence recoveryL burnOk => Sys2Proof.Machine.execBootSequence recoveryL burnOk s
  | .boot m => Sys2Proof.Machine.execBoot m s
  | .flashWriteA m => Sys2Proof.Machine.execFlashWriteA m s
  | .flashWriteB m => Sys2Proof.Machine.execFlashWriteB m s
  | .verifyStaged m => Sys2Proof.Machine.execVerifyStaged m s
  | .enroll m => Sys2Proof.Machine.execEnroll m s
  | .challenge m => Sys2Proof.Machine.execChallenge m s
  | .unlock m => Sys2Proof.Machine.execUnlock m s
  | .attest m => Sys2Proof.Machine.execAttest m s
  | .readCert m => Sys2Proof.Machine.execReadCert m s
  | .attestToken => Sys2Proof.Machine.execAttestToken s
  | .loadWindowWrite m off size v => Sys2Proof.Machine.execLoadWindowWrite m off size v s
  | .errorPair errs => Sys2Proof.Machine.execErrorPair errs s
  | .pairBroken unit => Sys2Proof.Machine.execPairBroken unit s
  | .fltStatusClear m mask => Sys2Proof.Machine.execFltStatusClear m mask s
  | .fltAck m mask => Sys2Proof.Machine.execFltAck m mask s
  | .flagFall c => Sys2Proof.Machine.execFlagFall c s
  | .fatalAutoReset => Sys2Proof.Machine.execFatalAutoReset s
  | .rateHit unit => Sys2Proof.Machine.execRateHit unit s
  | .inject m unit code kind cont => Sys2Proof.Machine.execInject m unit code kind cont s
  | .injectStop m unit code => Sys2Proof.Machine.execInjectStop m unit code s
  | .testStart r => Sys2Proof.Machine.execTestStart r s
  | .testVerdict r pass => Sys2Proof.Machine.execTestVerdict r pass s
  | .test m unit => Sys2Proof.Machine.execTest m unit s
  | .release m unit => Sys2Proof.Machine.execRelease m unit s
  | .fence m unit => Sys2Proof.Machine.execFence m unit s
  | .spare m unit => Sys2Proof.Machine.execSpare m unit s
  | .unfence m unit => Sys2Proof.Machine.execUnfence m unit s
  | .bankTest bank pass => Sys2Proof.Machine.execBankTest bank pass s
  | .tableRewrite off readBackOk spareLeft => Sys2Proof.Machine.execTableRewrite off readBackOk spareLeft s
  | .arbLockstep => Sys2Proof.Machine.execArbLockstep s
  | .arbWatchdog => Sys2Proof.Machine.execArbWatchdog s
  | .restart m => Sys2Proof.Machine.execRestart m s
  | .restartDone ok => Sys2Proof.Machine.execRestartDone ok s
  | .headlessLimit => Sys2Proof.Machine.execHeadlessLimit s
  | .ageingRead k nominal lower drift em esr => Sys2Proof.Machine.execAgeingRead k nominal lower drift em esr s
  | .lifeStore => Sys2Proof.Machine.execLifeStore s
  | .onPair p => Sys2Proof.Machine.execOnPair p s
  | .parentTimeout => Sys2Proof.Machine.execParentTimeout s
  | .reattach => Sys2Proof.Machine.execReattach s
  | .holdoverExpire => Sys2Proof.Machine.execHoldoverExpire s
  | .roleChange m source => Sys2Proof.Machine.execRoleChange m source s
  | .load m => Sys2Proof.Machine.execLoad m s
  | .arm m => Sys2Proof.Machine.execArm m s
  | .ppsIn => Sys2Proof.Machine.execPpsIn s
  | .ppsMissed => Sys2Proof.Machine.execPpsMissed s
  | .ppsOut => Sys2Proof.Machine.execPpsOut s
  | .timNowRead m => Sys2Proof.Machine.execTimNowRead m s
  | .take m => Sys2Proof.Machine.execTake m s
  | .snapPeriod => Sys2Proof.Machine.execSnapPeriod s
  | .sampleRecord => Sys2Proof.Machine.execSampleRecord s
  | .samplerEnable m pkt work => Sys2Proof.Machine.execSamplerEnable m pkt work s
  | .powerUp clkSel => Sys2Proof.Machine.execPowerUp clkSel s
  | .powerDown => Sys2Proof.Machine.execPowerDown s
  | .emergencyShutdown cause => Sys2Proof.Machine.execEmergencyShutdown cause s
  | .shutdownRetry tjMax => Sys2Proof.Machine.execShutdownRetry tjMax s
  | .inputRange vin => Sys2Proof.Machine.execInputRange vin s
  | .railFault r => Sys2Proof.Machine.execRailFault r s
  | .overTemp k tj => Sys2Proof.Machine.execOverTemp k tj s
  | .telemetryUpdate vin iin pin rails islands => Sys2Proof.Machine.execTelemetryUpdate vin iin pin rails islands s
  | .budgetWindow avg => Sys2Proof.Machine.execBudgetWindow avg s
  | .referenceLoss r => Sys2Proof.Machine.execReferenceLoss r s
  | .referenceReturn => Sys2Proof.Machine.execReferenceReturn s
  | .islandStop m k => Sys2Proof.Machine.execIslandStop m k s
  | .islandWake m k => Sys2Proof.Machine.execIslandWake m k s
  | .islandPark m k => Sys2Proof.Machine.execIslandPark m k s
  | .islandReset m k => Sys2Proof.Machine.execIslandReset m k s
  | .pgReset m g => Sys2Proof.Machine.execPgReset m g s
  | .warm m => Sys2Proof.Machine.execWarm m s
  | .warmReset => Sys2Proof.Machine.execWarmReset s
  | .moduleReset => Sys2Proof.Machine.execModuleReset s
  | .tapReset => Sys2Proof.Machine.execTapReset s
  | .idcode => Sys2Proof.Machine.execIdcode s
  | .samplePreload cells => Sys2Proof.Machine.execSamplePreload cells s
  | .extest => Sys2Proof.Machine.execExtest s
  | .clamp => Sys2Proof.Machine.execClamp s
  | .highz => Sys2Proof.Machine.execHighz s
  | .extestPulse => Sys2Proof.Machine.execExtestPulse s
  | .extestTrain => Sys2Proof.Machine.execExtestTrain s
  | .bypass => Sys2Proof.Machine.execBypass s
  | .baseWinEnd => Sys2Proof.Machine.execBaseWinEnd s
  | .fetchGapPassed f => Sys2Proof.Machine.execFetchGapPassed f s
  | .hostLinkUp p gen width flit => Sys2Proof.Machine.execHostLinkUp p gen width flit s
  | .vfEnableSet p n => Sys2Proof.Machine.execVfEnableSet p n s
  | .referenceRestored r => Sys2Proof.Machine.execReferenceRestored r s
  | .registerRead m off size => Sys2Proof.Machine.execRegisterRead m off size s
  | .secCommandDone ok => Sys2Proof.Machine.execSecCommandDone ok s
  | .islandActionDone => Sys2Proof.Machine.execIslandActionDone s

end Sys2Proof.Machine
end

