-- ==== Sys2Proof/Safety.lean ====
section
/-!
DEFINITION. The terms in which claims about the module are stated: a command that completes, an access that is carried out, what
a command leaves unchanged, and the canonical form of the state.
-/
namespace Sys2Proof.Machine
open State

/-- Command `c` on state `s` answers a next state, and `P` holds of it. -/
def Does (c : Instr) (s : State) (P : State → Prop) : Prop := ∃ t, exec c s = .next t ∧ P t

/-- A write by master m at map offset `off` is carried out by an island that runs (R382): it is neither refused nor needs to wake
anything. -/
abbrev Reaches (s : State) (m : Master) (off : Nat) : Prop := s.gate m.id true off = (s, true)

/-- Registers but for the fields with keys in `ks`, module memory and the queue of commands are as before. -/
def Keeps (s t : State) (ks : List Nat) : Prop :=
  (∀ g : FRef, g.key ∉ ks → t.rd g = s.rd g) ∧ t.mem = s.mem ∧ t.pending = s.pending

/-- The fields that show the alignment of port p's group, and of both groups of an x8 port (R97). -/
def alignKeys (s : State) (p : Nat) : List Nat :=
  (if s.groupWidth (p / 2) = 3 then [p / 4 * 2, p / 4 * 2 + 1] else [p / 2]).flatMap (fun g =>
    [(R.LT_PORT_STAT_ALIGNED (g / 8) (g % 8)).key, (R.LT_PORT_STAT_LANE_ORDER (g / 8) (g % 8)).key,
      (R.LT_PORT_STAT_ID_MISMATCH (g / 8) (g % 8)).key, (R.LT_PORT_STAT_SKEW (g / 8) (g % 8)).key])

/-- The equalisation sets in force on port p's lanes (R83). -/
def eqActKeys (s : State) (p : Nat) : List Nat :=
  (s.lanesOf p).flatMap (fun l => [(R.LT_TX_EQ_ACT_PRE (l / 32) (l % 32)).key, (R.LT_TX_EQ_ACT_MAIN (l / 32) (l % 32)).key,
    (R.LT_TX_EQ_ACT_POST (l / 32) (l % 32)).key])

/-- From s to t, port p hands row r to its line coding, which may drive levels (R72). -/
def Handed (s t : State) (p : Nat) (r : Row) : Prop :=
  ∃ ls : List Output, t.out = ls ++ .row p (rowEncode r) :: s.out ∧ ∀ o ∈ ls, ∃ (l : Nat) (v : List Level), o = .levels l v

/-- The symbols that the levels of a codeword carry on the lanes in use of port p, in the sender's order (R75 to R77, R86, R87). -/
def receivedWord (s : State) (p : Nat) (lv : BitVec 5440) : List Nat :=
  let lanes := s.usedLanes p
  gatherLanes lanes.length (inOrder (s.port p).order ((List.range lanes.length).map (fun j =>
    (s.laneRx (lanes.getD j 0) (cwLevels lv lanes.length j)).2)))

/-- No command is in the arbiter's order of arrival (R34). -/
abbrev Idle (s : State) : Prop := s.arb.queue = [] ∧ s.arb.begun = false

/-- The oldest in-band request is `r`, it waits for no mirror, and the arbiter's processor runs (R191, R373, R445). -/
abbrev InBand (s : State) (r : MgmtReq) : Prop := s.rd R.FLT_ARB_STAT_STATE = 0 ∧ s.nextReq = some r ∧ r.mirror = none

/-- `s` while it carries out the in-band request `r`: LAST_CMD shows its command (R188). -/
def taking (s : State) (r : MgmtReq) : State := s.wr R.CGC_CMD_STAT_LAST_CMD r.cmd

/-- The in-band request `r` ends with a result and perhaps a value: it leaves the queue and its response is built (R196). -/
def answered (s : State) (r : MgmtReq) (result : Nat) (value : Option Nat) : State := (s.dropReq r).respond r result value

/-- The register file and module memory stand in canonical form. -/
abbrev Canonical (s : State) : Prop := SMap.wf 0 s.flds = true ∧ SMap.wf 0 s.mem = true

/-- Entry w of work opcode op stands on connection cid and may build: it is not an admin command, not complete and not built, its
queue k is ACTIVE and nothing holds it, and the connection's context is at hand, with a free PSN and no PUT half built (R142, R251, R265, R273,
R288). -/
abbrev Builds (s : State) (w op cid : Nat) (x : WorkEnt) (k : Wq) (c : Conn) : Prop :=
  s.workEnt w = some x ∧ wop x = op ∧ x.qid ≠ adminQ ∧ x.fin = none ∧ x.built = false ∧ x.cid = some cid ∧ x.dest = some c.peer ∧
  s.canBuild x = some k ∧ s.conn cid = some c ∧ cid = cidOf x.fn c.peer x.lane ∧ c.fn = x.fn ∧ c.state ≠ 3 ∧ c.lost = false ∧
  psnRoom c 1 = true ∧ s.connFree cid w = true

/-- The field that counts the packets waiting at local input i (R156). -/
def waitKey (i : Nat) : Nat := (R.SWC_LOCAL_OCC_WAITING i).key

/-- The Request packet of connection c with the next PSN and these fields; ACKREQ is 1 in the last packet of a work entry (R45 to R48, R259,
R265, R266). -/
def reqPkt (s : State) (c : Conn) (op : Nat) (pin event : Bool) (area : List (Nat × Nat × Nat)) (ackreq : Bool := true) : Pkt :=
  mkPkt { dest := c.peer, src := s.fnFa c.fn, opcode := op, pin := pin, conn := c.conn, epoch := c.epoch, psn := c.nextPsn
          open_ := c.state == 1, ackreq := ackreq, event := event } (mkArea area) []

/-- From s to t, packet p goes out on connection cid for entry w: it is outstanding under the next PSN and waits at its local
input (R132, R258, R265). -/
def Sent (s t : State) (w cid : Nat) (c : Conn) (p : Pkt) : Prop :=
  (t.conn cid).map (fun d => (d.nextPsn, d.outst.map (fun o => (o.psn, o.pkt, o.work)))) =
    some ((c.nextPsn + 1) % 2 ^ 32, c.outst.map (fun o => (o.psn, o.pkt, o.work)) ++ [(c.nextPsn, p, some w)]) ∧
  ∃ y : LocalPkt, y.pkt = p ∧ y.waiting = false ∧ t.localQ (inputOf c.fn p.pay) p.vl = s.localQ (inputOf c.fn p.pay) p.vl ++ [y]

/-- Entry w of work opcode op stands in a receive queue and may take its step (R294). -/
abbrev Turn (s : State) (w op : Nat) (x : WorkEnt) (k : Wq) : Prop :=
  s.workEnt w = some x ∧ wop x = op ∧ x.qid ≠ adminQ ∧ x.fin = none ∧ s.earlier w = [] ∧ s.wq x.fn x.qid = some k ∧ k.state = 1 ∧
  s.fnTeardown x.fn = false

/-- Entry w with command acmd is at the head of function f's admin queue k, no earlier command is in execution, and its target g is
a function that the issuer may name, exists and is not in teardown (R223, R224). -/
abbrev AdminCmd (s : State) (f acmd w : Nat) (x : WorkEnt) (k : Wq) (g : Nat) : Prop :=
  s.fnTeardown f = false ∧ s.wq f adminQ = some k ∧ k.inv = none ∧ k.ents.head? = some w ∧ s.workEnt w = some x ∧ fld x.ent 0 1 = acmd ∧
  (fld x.ent 2 2 = 0xFFFF ∧ g = f ∨ fld x.ent 2 2 < 128 ∧ g = f - f % 128 + fld x.ent 2 2 ∧ (f % 128 = 0 ∨ g = f)) ∧
  s.fnEnabled g = true ∧ s.fnTeardown g = false

/-- The command answers with status, detail and result r from state t: its completion is written and the next command is looked at
(R223, R224). -/
def Ends (c : Instr) (s t : State) (f w : Nat) (r : Adm) : Prop := exec c s = .next (t.adminEnd f w r)

/-- h is the lowest free handle from `lo` on. -/
abbrev Lowest (free : Nat → Bool) (lo h : Nat) : Prop := lo ≤ h ∧ free h = true ∧ ∀ i, i < h → lo ≤ i → free i = false

/-- A write of SEC_CMD by m reaches the arbiter, which has booted and runs no command (R423). -/
abbrev SecReady (s : State) (m : Master) : Prop := Reaches s m 0x10010 ∧ s.rd R.SEC_CMD_STAT_BUSY = 0 ∧ s.rd R.SEC_BOOT_STAT_PHASE ≠ 0

/-- SEC command `cmd` has begun and runs: BUSY reads 1 and LAST_CMD shows it (R423). -/
def SecRuns (t : State) (x : SecRun) : Prop :=
  t.rd R.SEC_CMD_STAT_BUSY = 1 ∧ t.rd R.SEC_CMD_STAT_LAST_CMD = x.cmd ∧ t.sec.running = some x

/-- SEC command `cmd` has ended at once with a result (R423). -/
def SecEnded (t : State) (cmd result : Nat) : Prop :=
  t.rd R.SEC_CMD_STAT_BUSY = 0 ∧ t.rd R.SEC_CMD_STAT_LAST_CMD = cmd ∧ t.rd R.SEC_CMD_STAT_RESULT = result ∧ t.rd R.SEC_CMD_STAT_DETAIL = 0

/-- An FLT_CMD write by m on unit u reaches the collector, which runs no command; the unit exists and its kind takes commands (R440). -/
abbrev UnitCmd (s : State) (m : Master) (u : Nat) : Prop :=
  Reaches s m 0x30038 ∧ s.rd R.FLT_CMD_STAT_BUSY = 0 ∧ cmdUnit u = true ∧ s.rd (R.FLT_UNIT_STATE u) ≠ 5

/-- The FLT_CMD on unit u has ended with result r (R440). -/
def UnitDone (t : State) (u r : Nat) : Prop := t.rd R.FLT_CMD_STAT_RESULT = r ∧ t.rd R.FLT_CMD_STAT_LAST_UNIT = u

/-- The fence log holds unit u, in the lowest entry that was free, or already held it; it was full where the answer is `false` (R441). -/
def Logged (s t : State) (u : Nat) (ok : Bool) : Prop :=
  (ok = true → t.rd (R.FLT_UNIT_LOGGED u) = 1) ∧ (ok = false → ∀ n : Nat, n < 64 → s.rd (R.FLT_FENCE_LOG_VALID n) = 1) ∧
  (ok = true → s.rd (R.FLT_UNIT_LOGGED u) = 0 → ∃ n : Nat, n < 64 ∧ s.rd (R.FLT_FENCE_LOG_VALID n) = 0 ∧
    (∀ i : Nat, i < n → s.rd (R.FLT_FENCE_LOG_VALID i) = 1) ∧ t.rd (R.FLT_FENCE_LOG_UNIT n) = u ∧ t.rd (R.FLT_FENCE_LOG_VALID n) = 1)

/-- Fields that every reset keeps, by key: fence-log entries that no UNFENCE has marked, the HSS state and the owner's sequence (R441, R484). -/
def keptCold (s : State) (k : Nat) : Bool :=
  (decide (0x33000 ≤ k / 64 * 8) && decide (k / 64 * 8 < 0x33200) && !s.rdB (R.FLT_FENCE_LOG_CLEARING ((k / 64 * 8 - 0x33000) / 8))) ||
    [R.SEC_HSS_STAT_NEXT_Q.key, R.SEC_HSS_STAT_EXHAUSTED.key, R.SEC_OWNER_OWNER_SEQ.key].contains k

/-- Fields that a module reset keeps besides: the power island's, but for the status of island commands (R484). -/
def keptModule (s : State) (k : Nat) : Bool :=
  keptCold s k || (decide (0x20000 ≤ k / 64 * 8) && decide (k / 64 * 8 < 0x30000) && k / 64 * 8 != 0x20048)

/-- Fields that a warm reset keeps besides: RWS fields, the identity and the stepping, the fault records and SET,
FLT_UNIT's error words and the attestation bucket (R431, R484). -/
def keptWarm (s : State) (k : Nat) : Bool :=
  keptModule s k || k / 64 * 8 == 0x10008 ||
    [R.GLB_IDENTITY_IDENTITY.key, R.GLB_INFO_STEP_NUM.key, R.GLB_INFO_STEP_LET.key].contains k || (decide (0x30100 ≤ k / 64 * 8) && decide (k / 64 * 8 < 0x30200)) ||
    [R.FLT_STATUS_SET.key, R.SEC_HSS_STAT_BUCKET.key].contains k ||
    (decide (0x31000 ≤ k / 64 * 8) && decide (k / 64 * 8 < 0x33000) && decide (24 ≤ k % 64))

/-- t is s after a reset that keeps the fields with keys in `keep` (R484): they and the life predictions read as stored, every other field but those of `but` reads
its reset value; module memory, the Opening and all work are gone; flash and the owner record stay. -/
def AfterReset (s t : State) (keep : Nat → Bool) (but : List Nat) : Prop :=
  (∀ g : FRef, g.key ∉ but → ¬ (0x30800 ≤ g.key / 64 * 8 ∧ g.key / 64 * 8 < 0x308D0) →
    t.rd g = if keep g.key then s.rd g else g.rst % 2 ^ g.width) ∧
  (∀ k : Nat, k < 26 → t.rd (R.FLT_LIFE_LOWER k) = SMap.get 0 s.flt.life k / 2 ^ 16 % 2 ^ 16) ∧
  t.mem = [] ∧ t.opening = none ∧ t.work = [] ∧ t.xpt.conns = [] ∧ t.pending = s.pending ∧ t.now = 0 ∧
  t.sec.flash = s.sec.flash ∧ t.sec.owner = s.sec.owner ∧ t.sec.burned = s.sec.burned ∧ t.sec.scopes = 0 ∧ t.sec.challenge = none

end Sys2Proof.Machine
end

