-- ==== Sys2Proof/Certificates/Slice0/Obligations.lean ====
section
/-!
DEFINITION. The statements for the provers. `Sys2Proof.Claims` holds what is said of each family of commands, in the order of the
spec; each obligation is a claim or the conjunction of those that belong together.
-/
open Sys2Proof Sys2Proof.Machine Sys2Proof.Machine.State

/-- SIGNAL_DETECT, RX_ADAPT_CONVERGED, LOSS_OF_SIGNAL and COMMA_LOCK_LOST (R84, R85, R91, R104, R107): what lane l's registers show, and that nothing
else changes. The loss of a lane in use ends the alignment of its port; in UP the link resets with cause 3, in training the loss is absorbed and
counted. -/
def Sys2Proof.Claims.LaneSignal : Prop :=
  ∀ (l : Fin 512) (s : State), let t := l.val / 32; let i := l.val % 32; let p := s.portOfLane l; let st := s.linkState p
    let lost := fun (w : State) => (w.laneToReset l).unalign p
    let used := s.formed p = true ∧ l.val ∈ s.usedLanes p; let w := s.wr (R.LT_LANE_STAT_LOS t i) 1
    let abs := R.LNK_ABSORBED (p / 2) (p % 2)
    let down := fun (u : State) => u.rd (R.LT_LANE_STAT_STATE t i) = 0 ∧ u.rd (R.LT_LANE_STAT_COMMA_LOCK t i) = 0 ∧
      u.rd (R.LT_LANE_STAT_POL_INV t i) = 0 ∧ (u.lane l).word = none ∧ (used → (u.port p).aligned = false)
    let keys := [(R.LT_LANE_STAT_STATE t i).key, (R.LT_LANE_STAT_COMMA_LOCK t i).key, (R.LT_LANE_STAT_POL_INV t i).key,
      (R.LT_RX_ADAPT_ADAPT t i).key] ++ alignKeys s p
    Does (.signalDetect l) s (fun u => u.rd (R.LT_LANE_STAT_LOS t i) = 0 ∧ u.rd (R.LT_RX_ADAPT_ADAPT t i) = 1 ∧
      u.rd (R.LT_LANE_STAT_STATE t i) = (if 2 ≤ st ∧ st ≤ 6 then 1 else s.rd (R.LT_LANE_STAT_STATE t i)) ∧
      (u.lane l).detectAt = some s.now ∧
      Keeps s u [(R.LT_LANE_STAT_LOS t i).key, (R.LT_RX_ADAPT_ADAPT t i).key, (R.LT_LANE_STAT_STATE t i).key]) ∧
    (∀ (atLimit : Bool) (ctle : BitVec 5) (snr : BitVec 8) (eye : BitVec 7),
      Does (.rxAdaptConverged l atLimit ctle snr eye) s (fun u =>
        u.rd (R.LT_RX_ADAPT_ADAPT t i) = (if atLimit then 3 else 2) ∧ u.rd (R.LT_RX_ADAPT_CTLE t i) = ctle.toNat ∧
        u.rd (R.LT_RX_ADAPT_SNR t i) = snr.toNat ∧ u.rd (R.LT_RX_ADAPT_EYE_MIN t i) = eye.toNat ∧
        u.rd (R.LT_HEALTH_UNHEALTHY t) = (s.judgeWindow l).rd (R.LT_HEALTH_UNHEALTHY t) ∧
        Keeps s u [(R.LT_RX_ADAPT_ADAPT t i).key, (R.LT_RX_ADAPT_CTLE t i).key, (R.LT_RX_ADAPT_SNR t i).key,
          (R.LT_RX_ADAPT_EYE_MIN t i).key, (R.LT_HEALTH_UNHEALTHY t).key])) ∧
    (st = 0 ∨ ¬ used →
      Does (.lossOfSignal l) s (fun u => u.rd (R.LT_LANE_STAT_LOS t i) = 1 ∧ down u ∧
        Keeps s u ((R.LT_LANE_STAT_LOS t i).key :: keys)) ∧
      Does (.commaLockLost l) s (fun u => down u ∧ Keeps s u keys)) ∧
    (used → 1 ≤ st → st ≤ 6 →
      Does (.lossOfSignal l) s (fun u => u.rd (R.LT_LANE_STAT_LOS t i) = 1 ∧ down u ∧ u.rd abs = (s.rd abs + 1) % 2 ^ abs.width ∧
        Keeps s u ((R.LT_LANE_STAT_LOS t i).key :: abs.key :: keys)) ∧
      Does (.commaLockLost l) s (fun u => down u ∧ u.rd abs = (s.rd abs + 1) % 2 ^ abs.width ∧ Keeps s u (abs.key :: keys))) ∧
    (used → st = 7 → exec (.lossOfSignal l) s = .next ((lost w).linkReset p 3) ∧ exec (.commaLockLost l) s = .next ((lost s).linkReset p 3))

/-- LT_TX_EQ_WRITE (R81) and LT_LANE_CTL_WRITE (R92, R93, R97): a checker that is switched off, or set to another pattern, leaves lock, and a change
of what the transmitter takes shows. -/
def Sys2Proof.Claims.LaneControl : Prop :=
  ∀ (m : Master) (l : Fin 512) (h : Half) (v : BitVec 64) (s : State), let t := l.val / 32; let i := l.val % 32; let n := v.toNat
    h ≠ .high →
    (Reaches s m (0x100110 + 0x10000 * t + 0x80 * i) →
      (eqLegal (bitsOf n 0 7) (bitsOf n 8 7) (bitsOf n 16 7) = true →
        Does (.ltTxEqWrite m l h v) s (fun u => u.rd (R.LT_TX_EQ_PRE t i) = bitsOf n 0 7 ∧ u.rd (R.LT_TX_EQ_MAIN t i) = bitsOf n 8 7 ∧
          u.rd (R.LT_TX_EQ_POST t i) = bitsOf n 16 7 ∧ u.rd (R.LT_TX_EQ_ADAPT_EN t i) = bitsOf n 24 1 ∧
          Keeps s u [(R.LT_TX_EQ_PRE t i).key, (R.LT_TX_EQ_MAIN t i).key, (R.LT_TX_EQ_POST t i).key,
            (R.LT_TX_EQ_ADAPT_EN t i).key])) ∧
      (eqLegal (bitsOf n 0 7) (bitsOf n 8 7) (bitsOf n 16 7) = false →
        Does (.ltTxEqWrite m l h v) s (fun u => u.rd (R.LT_LANE_STAT_EQ_REJECT t i) = 1 ∧
          Keeps s u [(R.LT_LANE_STAT_EQ_REJECT t i).key]))) ∧
    (Reaches s m (0x100100 + 0x10000 * t + 0x80 * i) → let iso := s.groupIsolated (l.val / 4)
      Does (.ltLaneCtlWrite m l h v) s (fun u => u.rd (R.LT_LANE_CTL_PRECODE_REQ t i) = bitsOf n 0 2 ∧
        u.rd (R.LT_LANE_CTL_PAT_SEL t i) = bitsOf n 4 2 ∧
        u.rd (R.LT_LANE_CTL_PAT_GEN t i) = (if iso then bitsOf n 6 1 else s.rd (R.LT_LANE_CTL_PAT_GEN t i)) ∧
        u.rd (R.LT_LANE_CTL_PAT_CHK t i) = (if iso then bitsOf n 7 1 else s.rd (R.LT_LANE_CTL_PAT_CHK t i)) ∧
        u.rd (R.LT_LANE_CTL_LPBK t i) = (if iso then bitsOf n 8 2 else s.rd (R.LT_LANE_CTL_LPBK t i)) ∧
        ((iso = true ∧ n.testBit 7 = false) ∨ s.rd (R.LT_LANE_CTL_PAT_SEL t i) ≠ bitsOf n 4 2 → u.rd (R.LT_PAT_STAT_PAT_LOCK t i) = 0) ∧
        u.out = (if u.laneSource l = s.laneSource l then s.out else .laneSource l (u.laneSource l) :: s.out) ∧
        Keeps s u [(R.LT_LANE_CTL_PRECODE_REQ t i).key, (R.LT_LANE_CTL_PAT_SEL t i).key, (R.LT_LANE_CTL_PAT_GEN t i).key,
          (R.LT_LANE_CTL_PAT_CHK t i).key, (R.LT_LANE_CTL_LPBK t i).key, (R.LT_PAT_STAT_PAT_LOCK t i).key,
          (R.LT_PAT_STAT_RESYNC t i).key, (R.LT_PAT_ERR t i).key, (R.LT_PAT_UI t i).key]))

/-- Signal, adaptation, loss of signal and lane control: what each event and write leaves in a lane. -/
def Obligations.LanesAndReceivers : Prop := Sys2Proof.Claims.LaneSignal ∧ Sys2Proof.Claims.LaneControl

/-- COMMA_BLOCK_RX (R80, R85 to R87, R89, R104): 400 levels in which a comma run stands, upright or inverted, at a lane with signal and without
near-end loopback. Usable fields go to LT_LANE_STAT and an unusable block counts as a comma error, the fourth in a row making the lane unhealthy; the
third run at the exact spacing with two usable blocks takes lock. Outside training nothing else of the registers changes; in training the port is
aligned, and leaves DETECT when every lane in use has lock. Levels without a run, levels at a lane without signal, and a receiver under near-end
loopback whose transmitter has sent fewer than 400 levels change nothing (R93). -/
def Sys2Proof.Claims.CommaBlock : Prop :=
  ∀ (l : Fin 512) (spaced : Bool) (lv : BitVec 800) (skew : BitVec 16) (inv : Bool) (s : State), let t := l.val / 32; let i := l.val % 32
    let p := s.portOfLane l; let st := s.linkState p; let n := s.lane l
    let locked := s.rdB (R.LT_LANE_STAT_COMMA_LOCK t i); let pol := if locked then s.rdB (R.LT_LANE_STAT_POL_INV t i) else inv
    let runs := if spaced then n.runs + 1 else 1; let usable := if spaced then n.usable else 0
    let found := commaUsable (commaCopy lv pol 0) (commaCopy lv pol 1); let err := R.LT_COMMA_ERR t (i / 4)
    (s.nearLoop l = false → s.rd (R.LT_LANE_STAT_LOS t i) = 1 ∨ (commaRun lv = none ∧ s.laneSource l ≠ 4) →
      exec (.commaBlockRx l spaced lv skew) s = .next s) ∧
    (s.nearLoop l = true → n.near.length < 400 → exec (.commaBlockRx l spaced lv skew) s = .next s) ∧
    (s.rd (R.LT_LANE_STAT_LOS t i) = 0 → s.nearLoop l = false → commaRun lv = some inv →
    Does (.commaBlockRx l spaced lv skew) s (fun u =>
      u.rdB (R.LT_LANE_STAT_POL_INV t i) = pol ∧ (u.lane l).runs = runs ∧ (u.lane l).skew = skew.toNat ∧
      u.rdB (R.LT_LANE_STAT_COMMA_LOCK t i) = (locked || decide (3 ≤ runs ∧ 2 ≤ usable + b2n found.isSome)) ∧
      (∀ c : CommaWord, found = some c → u.rd (R.LT_LANE_STAT_REMOTE_LANE t i) = c.laneId ∧
        u.rd (R.LT_LANE_STAT_REMOTE_PLANE t i) = c.plane ∧ u.rd (R.LT_LANE_STAT_REMOTE_MODULE t i) = c.mdl ∧
        u.rdB (R.LT_LANE_STAT_PRECODE_ON t i) = c.precode ∧ (u.lane l).word = some c ∧ u.rd err = s.rd err) ∧
      (found = none → u.rd err = (s.rd err + 1) % 2 ^ err.width ∧ (u.lane l).badRun = n.badRun + 1 ∧ (u.lane l).word = n.word ∧
        (3 ≤ n.badRun → u.unhealthy l = true)) ∧
      (let keys := [(R.LT_LANE_STAT_REMOTE_LANE t i).key, (R.LT_LANE_STAT_REMOTE_PLANE t i).key, (R.LT_LANE_STAT_REMOTE_MODULE t i).key,
          (R.LT_LANE_STAT_PRECODE_ON t i).key, (R.LT_LANE_STAT_COMMA_LOCK t i).key, (R.LT_LANE_STAT_POL_INV t i).key, err.key,
          (R.LT_HEALTH_UNHEALTHY t).key];
        (st < 2 ∨ st = 7 → Keeps s u keys) ∧
        Keeps s u (keys ++ alignKeys s p ++ [(R.LT_LANE_STAT_STATE t i).key, (R.LT_ALIGN_ERR (p / 16) (p / 2 % 8)).key,
          (R.LNK_STAT_STATE (p / 2) (p % 2)).key, (R.LNK_STAT_RX_HALF (p / 2) (p % 2)).key])) ∧
      (s.formed p = true → st = 2 → u.linkState p = if ∀ k ∈ u.usedLanes p, u.rd (lnLock k) = 1 then 3 else 2)))

/-- CODEWORD_RX, HEALTH_WINDOW_END, HEALTH_COMMA_TIMEOUT and LT_HEALTH_WRITE (R74, R75, R88, R89, R93): an aligned port decodes what its lanes
received, counts corrected and uncorrectable codewords, and takes the descrambled message bits; a lane whose corrected symbols of a 1 ms window reach 2^HEALTH_EXP is unhealthy at once;
a window that ends is judged, where an adaptation that read AT_LIMIT through all of it makes the lane unhealthy; 40 ms without lock
after signal detect, and a write, set and clear UNHEALTHY. -/
def Sys2Proof.Claims.LaneHealth : Prop :=
  (∀ (p : Fin 256) (lv : BitVec 5440) (s : State), let t := p.val / 16; let k := p.val / 2 % 8; let lanes := s.usedLanes p; let st := s.port p
    let corr := R.LT_FEC_CORR t k; let sym := R.LT_FEC_SYM t k; let unc := R.LT_FEC_UNCORR t k; let word := receivedWord s p lv
    let stream := fun (w : List Nat) (u : State) => st.rxl.live = true → (u.port p).rxl.len = st.rxl.len + 5140 ∧
      (u.port p).rxl.msg = st.rxl.msg * 2 ^ 5140 + (scramble 5140 st.rxl.scr (ofSymbols (w.take 514))).2
    (∀ l ∈ lanes, s.laneSource l ≠ 4 ∧ s.nearLoop l = false) →
    let full := fun (l : Nat) (u : State) => 2 ^ u.healthExp (l / 32) ≤ (u.lane l).symWin
    (s.formed p = false ∨ st.aligned = false → exec (.codewordRx p lv) s = .next s) ∧
    (s.formed p = true → st.aligned = true →
      (rsDecode word = none → Does (.codewordRx p lv) s (fun u => u.rd unc = (s.rd unc + 1) % 2 ^ unc.width ∧ stream word u ∧
        Keeps s u [unc.key])) ∧
      (∀ w : List Nat, rsDecode word = some (w, []) → Does (.codewordRx p lv) s (fun u => stream w u ∧ Keeps s u [])) ∧
      (∀ (w pos : List Nat), rsDecode word = some (w, pos) → pos ≠ [] → Does (.codewordRx p lv) s (fun u =>
        u.rd corr = (s.rd corr + 1) % 2 ^ corr.width ∧ u.rd sym = (s.rd sym + pos.length) % 2 ^ sym.width ∧ stream w u ∧
        ((∀ l ∈ lanes, full l s → s.unhealthy l = true) → ∀ l ∈ lanes, full l u → u.unhealthy l = true) ∧
        Keeps s u (corr.key :: sym.key :: lanes.flatMap (fun l => [(R.LT_LANE_SYM (l / 32) (l % 32)).key, (R.LT_HEALTH_UNHEALTHY (l / 32)).key])))))) ∧
  (∀ (l : Fin 512) (s : State), let f := R.LT_HEALTH_UNHEALTHY (l.val / 32); let st := s.lane l; let win := s.winIdx 1000000
    let bad := ∃ k : Nat, st.limitFrom = some k ∧ (k ≤ st.symIdx ∨ k / 2 ^ 96 = win / 2 ^ 96 ∧ k < win)
    (win = st.symIdx → exec (.healthWindowEnd l) s = .next s) ∧
    (win ≠ st.symIdx → Does (.healthWindowEnd l) s (fun u => (u.lane l).symWin = 0 ∧ (u.lane l).symIdx = win ∧ Keeps s u [f.key] ∧
      (bad → u.rd f = (s.rd f ||| 2 ^ (l.val % 32)) % 2 ^ 32) ∧ (¬ bad → u.rd f = s.rd f))) ∧
    ∀ (t0 : Nat), st.detectAt = some t0 → t0 + 40000000 ≤ s.now →
      s.rd (R.LT_LANE_STAT_COMMA_LOCK (l.val / 32) (l.val % 32)) = 0 →
      Does (.healthCommaTimeout l) s (fun u => u.unhealthy l = true ∧ Keeps s u [f.key])) ∧
  (∀ (m : Master) (t : Fin 16) (mask : BitVec 32) (s : State), Reaches s m (0x100008 + 0x10000 * t.val) →
    Does (.ltHealthWrite m t mask) s (fun u => Keeps s u [(R.LT_HEALTH_UNHEALTHY t.val).key] ∧
      ∀ i : Fin 32, u.unhealthy (32 * t.val + i.val) = (s.unhealthy (32 * t.val + i.val) && !mask.toNat.testBit i.val)))

/-- PAT_LOCK, PAT_RESYNC, EYE_SCAN_START and EYE_SCAN_DONE (R92, R94): the pattern checker and the eye scan of lane l. A checker takes lock on levels
that follow its pattern in either polarity, and under near-end loopback on its own generator's; 256 errors
within 1,024 levels lose it, and no other number does; a scan ends when its dwell is over
and reports 2^DWELL × 2²⁰ levels. -/
def Sys2Proof.Claims.LanePattern : Prop :=
  ∀ (l : Fin 512) (s : State), let t := l.val / 32; let i := l.val % 32; let sel := s.rd (R.LT_LANE_CTL_PAT_SEL t i)
    let rate := levelRate (s.rd (R.LT_TILE_STAT_RATE t))
    (∀ (lv : BitVec 160) (inv : Bool), s.rd (R.LT_LANE_CTL_PAT_CHK t i) = 1 → s.rd (R.LT_PAT_STAT_PAT_LOCK t i) = 0 →
      s.groupIsolated (l.val / 4) = true →
      (s.nearLoop l = false ∧ patLocks sel (patOf lv) = some inv) ∨ (s.nearLoop l = true ∧ s.laneSource l = sel ∧ sel ≠ 0 ∧ inv = false) →
      Does (.patLock l lv) s (fun u => u.rd (R.LT_PAT_STAT_PAT_LOCK t i) = 1 ∧ u.rdB (R.LT_PAT_STAT_PAT_INV t i) = inv ∧
        (u.lane l).lockAt = s.now ∧ Keeps s u [(R.LT_PAT_STAT_PAT_LOCK t i).key, (R.LT_PAT_STAT_PAT_INV t i).key])) ∧
    (∀ errs : BitVec 64, errs.toNat < 256 ∨ 2 * min 1024 (s.patLevelsSince l) < errs.toNat → exec (.patResync l errs) s = .next s) ∧
    (∀ errs : BitVec 64, s.rd (R.LT_PAT_STAT_PAT_LOCK t i) = 1 → 256 ≤ errs.toNat → s.nearLoop l = false →
      errs.toNat ≤ 2 * min 1024 (s.patLevelsSince l) →
      Does (.patResync l errs) s (fun u =>
        u.rd (R.LT_PAT_STAT_PAT_LOCK t i) = 0 ∧
        u.rd (R.LT_PAT_ERR t i) = (s.rd (R.LT_PAT_ERR t i) + max errs.toNat (s.patErrorsSince l)) % 2 ^ (R.LT_PAT_ERR t i).width ∧
        u.rd (R.LT_PAT_UI t i) = (s.rd (R.LT_PAT_UI t i) + (s.now - (s.lane l).lockAt) * rate) % 2 ^ (R.LT_PAT_UI t i).width ∧
        u.rd (R.LT_PAT_STAT_RESYNC t i) = min (2 ^ (R.LT_PAT_STAT_RESYNC t i).width - 1) (s.rd (R.LT_PAT_STAT_RESYNC t i) + 1) ∧
        Keeps s u [(R.LT_PAT_STAT_PAT_LOCK t i).key, (R.LT_PAT_ERR t i).key, (R.LT_PAT_UI t i).key,
          (R.LT_PAT_STAT_RESYNC t i).key])) ∧
    (∀ (m : Master) (v : BitVec 64), Reaches s m (0x100130 + 0x10000 * t + 0x80 * i) → v.toNat.testBit 31 = true →
      s.groupIsolated (l.val / 4) = true → (s.lane l).scan = none →
      Does (.eyeScanStart m l .full v) s (fun u => u.rd (R.LT_SCAN_RES_DONE t i) = 0 ∧
        (u.lane l).scan = some (bitsOf v.toNat 24 4, s.now) ∧
        u.rd (R.LT_SCAN_CTL_EYE t i) = bitsOf v.toNat 0 2 ∧ u.rd (R.LT_SCAN_CTL_H_OFF t i) = bitsOf v.toNat 8 6 ∧
        u.rd (R.LT_SCAN_CTL_V_OFF t i) = bitsOf v.toNat 16 8 ∧ u.rd (R.LT_SCAN_CTL_DWELL t i) = bitsOf v.toNat 24 4)) ∧
    (∀ (errors : BitVec 24) (dwell start : Nat), (s.lane l).scan = some (dwell, start) →
      (2 ^ (dwell + 20) ≤ (s.now - start) * rate →
        Does (.eyeScanDone l errors) s (fun u => u.rd (R.LT_SCAN_RES_DONE t i) = 1 ∧
          u.rd (R.LT_SCAN_RES_ERRORS t i) = errors.toNat ∧ u.rd (R.LT_SCAN_RES_LEVELS t i) = 2 ^ dwell % 2 ^ 32 ∧
          (u.lane l).scan = none ∧
          Keeps s u [(R.LT_SCAN_RES_DONE t i).key, (R.LT_SCAN_RES_ERRORS t i).key, (R.LT_SCAN_RES_LEVELS t i).key])) ∧
      ((s.now - start) * rate < 2 ^ (dwell + 20) → exec (.eyeScanDone l errors) s = .next s))

/-- Comma blocks, codewords, lane health, and the pattern checker and eye scan of a lane. -/
def Obligations.CommaHealthAndPatterns : Prop := Sys2Proof.Claims.CommaBlock ∧ Sys2Proof.Claims.LaneHealth ∧ Sys2Proof.Claims.LanePattern

/-- ENTER (R32, R34): on an idle order, outside Recovery mode, the write makes the master the owner unless another master owns; MAINT is set, the
result is 0 and ISO_DONE is raised. -/
def Sys2Proof.Claims.EnterTakesOwnership : Prop :=
  ∀ (m : Master) (s : State), Reaches s m 0x108 → Idle s → s.rd R.GLB_ISO_STAT_BUSY = 0 → s.inRecovery = false →
    (s.rd R.GLB_MAINT_CTL_OWNER = 0xFFF ∨ s.rd R.GLB_MAINT_CTL_OWNER = m.id ∨
      (s.rd R.GLB_MAINT_CTL_OWNER = 2 ∧ m = .commander)) →
    Does (.enter m) s (fun t => t.rd R.GLB_MODE_STAT_MAINT = 1 ∧ t.rd R.GLB_MAINT_CTL_OWNER = m.id ∧
      t.rd R.GLB_ISO_STAT_BUSY = 0 ∧ t.rd R.GLB_ISO_STAT_RESULT = 0 ∧ t.rd R.GLB_IRQ_ISO_DONE = 1 ∧
      Keeps s t [R.GLB_MODE_STAT_MAINT.key, R.GLB_MAINT_CTL_OWNER.key, R.GLB_ISO_STAT_BUSY.key, R.GLB_ISO_STAT_RESULT.key,
        R.GLB_IRQ_ISO_DONE.key])

/-- ENTER while BUSY, in Recovery mode or against another owner, and every isolation write by a master that is not the owner of Maintenance mode (R32,
R34): only RESULT (and LAST_UNIT) change, to 1, 7, 3, 2 and 3. LEAVE is refused in the same way; that it reads NOT_MAINT outside Maintenance mode is
the model's choice (log entry 109). -/
def Sys2Proof.Claims.MaintenanceRefusals : Prop :=
  ∀ (m : Master) (u : BitVec 9) (force all : Bool) (s : State),
    (Reaches s m 0x108 → 
      (s.rd R.GLB_ISO_STAT_BUSY = 1 → exec (.enter m) s = .next (s.wr R.GLB_ISO_STAT_RESULT 1) ∧
        exec (.leave m) s = .next (s.wr R.GLB_ISO_STAT_RESULT 1)) ∧
      (s.rd R.GLB_ISO_STAT_BUSY = 0 → s.inRecovery = true → exec (.enter m) s = .next (s.wr R.GLB_ISO_STAT_RESULT 7)) ∧
      (s.rd R.GLB_ISO_STAT_BUSY = 0 → s.inRecovery = false → s.rd R.GLB_MAINT_CTL_OWNER ≠ 0xFFF →
        s.rd R.GLB_MAINT_CTL_OWNER ≠ m.id → (s.rd R.GLB_MAINT_CTL_OWNER ≠ 2 ∨ m ≠ .commander) →
        exec (.enter m) s = .next (s.wr R.GLB_ISO_STAT_RESULT 3)) ∧
      (s.rd R.GLB_ISO_STAT_BUSY = 0 → s.rd R.GLB_MODE_STAT_MAINT = 0 ∨ s.rd R.GLB_MAINT_CTL_OWNER ≠ m.id →
        Does (.leave m) s (fun t => t.rd R.GLB_ISO_STAT_RESULT = (if s.rd R.GLB_MODE_STAT_MAINT = 0 then 2 else 3) ∧
          t.rd R.GLB_ISO_STAT_LAST_UNIT = s.rd R.GLB_ISO_STAT_LAST_UNIT ∧ Keeps s t [R.GLB_ISO_STAT_RESULT.key]))) ∧
    (Reaches s m 0x110 → ∀ c ∈ [Instr.isoIsolate m u force, .isoRelease m u all, .isoAll m u],
      (s.rd R.GLB_ISO_STAT_BUSY = 1 → exec c s = .next (s.wr R.GLB_ISO_STAT_RESULT 1)) ∧
      (s.rd R.GLB_ISO_STAT_BUSY = 0 → s.rd R.GLB_MODE_STAT_MAINT = 0 →
        exec c s = .next ((s.wr R.GLB_ISO_STAT_LAST_UNIT u.toNat).wr R.GLB_ISO_STAT_RESULT 2)) ∧
      (s.rd R.GLB_ISO_STAT_BUSY = 0 → s.rd R.GLB_MODE_STAT_MAINT = 1 → s.rd R.GLB_MAINT_CTL_OWNER ≠ m.id →
        exec c s = .next ((s.wr R.GLB_ISO_STAT_LAST_UNIT u.toNat).wr R.GLB_ISO_STAT_RESULT 3)))

/-- ENTER takes the ownership of Maintenance mode, and who is refused what. -/
def Obligations.MaintenanceOwnership : Prop := Sys2Proof.Claims.EnterTakesOwnership ∧ Sys2Proof.Claims.MaintenanceRefusals

/-- The owner's isolation commands and LEAVE enter the arbiter's order with BUSY set (R34, R35, R38), and the isolation of a port group whose ports
are down begins at once on an idle order: the group is isolated and its DISABLED ports show cause 11. -/
def Sys2Proof.Claims.IsolationBegins : Prop :=
  ∀ (m : Master) (u : BitVec 9) (force : Bool) (s : State), s.rd R.GLB_ISO_STAT_BUSY = 0 → s.rd R.GLB_MODE_STAT_MAINT = 1 →
    s.rd R.GLB_MAINT_CTL_OWNER = m.id →
    (Reaches s m 0x110 → let b := (s.wr R.GLB_ISO_STAT_LAST_UNIT u.toNat).wr R.GLB_ISO_STAT_BUSY 1
      exec (.isoIsolate m u force) s = .next (b.pushOrder (.isolate u.toNat force)) ∧
      exec (.isoRelease m u false) s = .next (b.pushOrder (.release u.toNat)) ∧
      exec (.isoRelease m u true) s = .next (b.pushOrder .releaseAll) ∧
      exec (.isoAll m u) s = .next (b.pushOrder .isolateAll) ∧
      ∀ g : Fin 128, u.toNat = 16 + g.val → Idle s → s.groupWidth g.val < 3 → s.unitFree (16 + g.val) = true →
        s.arb.stoppedUnits = [] → s.linkState (2 * g.val) = 0 → s.linkState (2 * g.val + 1) = 0 →
        Does (.isoIsolate m u false) s (fun t => t.isolated u.toNat = true ∧ t.rd R.GLB_ISO_STAT_BUSY = 1 ∧
          t.rd R.GLB_ISO_STAT_LAST_UNIT = u.toNat ∧ t.arb.queue = [.isolate u.toNat false] ∧ t.arb.begun = true ∧
          (∀ v, v ≠ u.toNat → t.isolated v = s.isolated v) ∧
          (∀ p ∈ s.portsOfGroup g.val, t.rd (lnkCause p) = 11) ∧
          Keeps s t [R.GLB_ISO_STAT_LAST_UNIT.key, R.GLB_ISO_STAT_BUSY.key, (R.GLB_ISO_MAP_ISO (u.toNat / 64)).key,
            (lnkCause (2 * g.val)).key, (lnkCause (2 * g.val + 1)).key])) ∧
    (Reaches s m 0x108 → exec (.leave m) s =
      .next (((s.wr R.GLB_ISO_STAT_LAST_UNIT (s.rd R.GLB_ISO_STAT_LAST_UNIT)).wr R.GLB_ISO_STAT_BUSY 1).pushOrder .leave))

/-- ISO_COMMAND_DONE and LEAVE_DONE (R34, R35, R38): the command alone in the order ends with result 0 and the ISO_DONE event; LEAVE, once every unit
it released is back in service, also clears MAINT and gives the ownership up, and waits while a pawn, a rook or a port is not back. -/
def Sys2Proof.Claims.IsolationEnds : Prop :=
  ∀ (s : State) (c : ArbCmd), s.arb.queue = [c] → s.arb.begun = true →
    let back := fun (u : Nat) => 16 ≤ u ∧ u < 144 ∧ s.groupBack (u - 16) = true
    ((c = .isolateAll ∨ c = .releaseAll ∨ (∃ u f, c = .isolate u f) ∨ ∃ u, c = .release u) →
      Does .isoCommandDone s (fun t => t.rd R.GLB_ISO_STAT_BUSY = 0 ∧ t.rd R.GLB_ISO_STAT_RESULT = 0 ∧
        t.rd R.GLB_IRQ_ISO_DONE = 1 ∧ Idle t ∧
        Keeps s t [R.GLB_ISO_STAT_BUSY.key, R.GLB_ISO_STAT_RESULT.key, R.GLB_IRQ_ISO_DONE.key])) ∧
    (c = .leave → (∀ u ∈ s.arb.returning, back u) →
      Does .leaveDone s (fun t => t.rd R.GLB_MODE_STAT_MAINT = 0 ∧ t.rd R.GLB_MAINT_CTL_OWNER = 0xFFF ∧
        t.rd R.GLB_ISO_STAT_BUSY = 0 ∧ t.rd R.GLB_ISO_STAT_RESULT = 0 ∧ t.rd R.GLB_IRQ_ISO_DONE = 1 ∧ Idle t ∧ t.arb.returning = [] ∧
        Keeps s t [R.GLB_MODE_STAT_MAINT.key, R.GLB_MAINT_CTL_OWNER.key, R.GLB_ISO_STAT_BUSY.key,
          R.GLB_ISO_STAT_RESULT.key, R.GLB_IRQ_ISO_DONE.key])) ∧
    (c = .leave → (∃ u ∈ s.arb.returning, ¬ back u) → exec .leaveDone s = .next s)

/-- How the isolation of a unit begins and ends, and how Maintenance mode is left. -/
def Obligations.Isolation : Prop := Sys2Proof.Claims.IsolationBegins ∧ Sys2Proof.Claims.IsolationEnds

/-- The island commands and WAKE_REQUEST (R13, R95, R480, R481) for a lane tile in service whose ports are DISABLED: STOP and PARK stop and park it and
stay BUSY, WAKE starts a stopped tile, whose ports that nothing holds leave DISABLED, and ends at once, RESET resets it; ISLAND_ACTION_DONE ends the
action with result 0. -/
def Sys2Proof.Claims.IslandCommands : Prop :=
  (∀ (m : Master) (k : Fin 16) (s : State), let b := (s.wr R.PWR_ISL_STAT_LAST_ISLAND k.val).wr R.PWR_ISL_STAT_BUSY 1
    let tile := [(R.GLB_ISLAND_STAT_ISL k.val).key, (R.LT_TILE_STAT_STATE k.val).key]
    let cmd := [R.PWR_ISL_STAT_BUSY.key, R.PWR_ISL_STAT_LAST_ISLAND.key, R.PWR_ISL_STAT_RESULT.key]
    let isl := fun (v : Nat) (t : State) => t.rd (R.GLB_ISLAND_STAT_ISL k.val) = v ∧ t.rd (R.LT_TILE_STAT_STATE k.val) = v
    let begins := fun (v : Nat) (t : State) => isl v t ∧ t.rd R.PWR_ISL_STAT_BUSY = 1 ∧ t.rd R.PWR_ISL_STAT_LAST_ISLAND = k.val ∧
      Keeps s t (tile ++ cmd)
    let woken := fun (t : State) => isl 0 t ∧ ∀ i : Fin 16, let p := 16 * k.val + i.val
      t.linkState p = if s.linkState p = 0 ∧ (s.setIsland k.val 0).heldDisabled p = false then 1 else s.linkState p
    let links := (List.range 16).map (fun i => (R.LNK_STAT_STATE ((16 * k.val + i) / 2) ((16 * k.val + i) % 2)).key)
    (s.rd (R.GLB_ISLAND_STAT_ISL k.val) = 1 →
      Does (.wakeRequest (Fin.castLE (by decide) k)) s (fun t => woken t ∧ Keeps s t (tile ++ links))) ∧
    (Reaches s m 0x20040 → Idle s → s.rd R.PWR_ISL_STAT_BUSY = 0 → s.inRecovery = false → s.isolated k.val = false →
      s.arb.stoppedUnits = [] →
      (s.rd (R.GLB_ISLAND_STAT_ISL k.val) = 0 → (∀ i : Fin 16, s.linkState (16 * k.val + i.val) = 0) →
        Does (.islandStop m (BitVec.ofNat 5 k.val)) s (begins 1) ∧ Does (.islandPark m (BitVec.ofNat 5 k.val)) s (begins 2)) ∧
      (s.rd (R.GLB_ISLAND_STAT_ISL k.val) = 1 →
        Does (.islandWake m (BitVec.ofNat 5 k.val)) s (fun t => woken t ∧ t.rd R.PWR_ISL_STAT_BUSY = 0 ∧
          t.rd R.PWR_ISL_STAT_RESULT = 0 ∧ t.rd R.PWR_ISL_STAT_LAST_ISLAND = k.val ∧ Keeps s t (tile ++ links ++ cmd))) ∧
      (s.rd (R.GLB_ISLAND_STAT_ISL k.val) ≠ 3 →
        Does (.islandReset m (BitVec.ofNat 5 k.val)) s (fun t => t.rd (R.GLB_ISLAND_STAT_ISL k.val) = 0 ∧
          t = (b.withArb { s.arb with queue := [.island k.val 4], begun := true }).resetIsland k.val)))) ∧
  (∀ (k : Fin 26) (s : State), s.island k.val ≠ 1 → exec (.wakeRequest k) s = .next s) ∧
  (∀ (s : State) (k a : Nat), s.arb.queue = [.island k a] → s.arb.begun = true →
    Does .islandActionDone s (fun t => t.rd R.PWR_ISL_STAT_BUSY = 0 ∧ t.rd R.PWR_ISL_STAT_RESULT = 0 ∧ Idle t ∧
      Keeps s t [R.PWR_ISL_STAT_BUSY.key, R.PWR_ISL_STAT_RESULT.key]))

/-- GLB_STROBE and CASTLE_STROBE (R387, R388): a legal mask enters an idle order with BUSY set and its bits shown; the strobe at the head of the
order, its copies done, swaps its group, answers who asked for it, and ends with the STROBE_DONE event; while a part of its group copies it waits. -/
def Sys2Proof.Claims.CastleStrobes : Prop :=
  (∀ (m : Master) (mask : BitVec 64) (s : State), Reaches s m 0x200 → Idle s → s.rd R.GLB_STROBE_STAT_BUSY = 0 →
    s.inRecovery = false → maskOk mask.toNat = true →
    Does (.glbStrobe m .full mask) s (fun t => t.rd R.GLB_STROBE_STAT_BUSY = 1 ∧
      t.rd R.GLB_STROBE_STAT_MASK_PARTS = bitsOf mask.toNat 0 4 ∧ t.rd R.GLB_STROBE_STAT_MASK_TILES = bitsOf mask.toNat 16 16 ∧
      t.arb.queue = [.strobe mask.toNat .reg] ∧ t.arb.begun = true ∧
      Keeps s t [R.GLB_STROBE_STAT_BUSY.key, R.GLB_STROBE_STAT_MASK_PARTS.key, R.GLB_STROBE_STAT_MASK_TILES.key])) ∧
  (∀ (mask : Nat) (src : StrobeSrc) (s : State), s.arb.queue = [.strobe mask src] → s.rd R.FLT_ARB_STAT_STATE = 0 →
    (s.copying = [] → exec .castleStrobe s = .next ((s.swapGroup mask).strobeEnded src)) ∧
    (s.copying = [] → src = .reg → exec .castleStrobe s = .next ((s.swapGroup mask).endHead 0)) ∧
    ((∃ q ∈ maskParts mask, q ∈ s.copying) → exec .castleStrobe s = .next s))

/-- RECONF_STOP, RECONF_APPLY, RECONF_RESUME and RECONF_DONE (R390, R391): each write shows its unit, sets BUSY and enters the order; STOP of a port group whose ports are DISABLED leaves
them there with cause 11; the action alone
in the order ends with result 0, one more action counted, and the RECONF_DONE event. -/
def Sys2Proof.Claims.Reconfiguration : Prop :=
  (∀ (m : Master) (kind : BitVec 2) (i : BitVec 7) (s : State), Reaches s m 0x300 → s.rd R.GLB_RECONF_STAT_BUSY = 0 →
    let b := ((s.wr R.GLB_RECONF_STAT_LAST_KIND kind.toNat).wr R.GLB_RECONF_STAT_LAST_INDEX i.toNat).wr R.GLB_RECONF_STAT_BUSY 1
    exec (.reconfStop m kind i) s = .next (b.pushOrder (.reconf kind.toNat i.toNat 1)) ∧
    exec (.reconfApply m kind i) s = .next (b.pushOrder (.reconf kind.toNat i.toNat 2)) ∧
    exec (.reconfResume m kind i) s = .next (b.pushOrder (.reconf kind.toNat i.toNat 3)) ∧
    (kind = 0 → Idle s → s.inRecovery = false → s.isolated (16 + i.toNat) = false → s.isolated (i.toNat / 8) = false →
      s.groupWidth i.toNat < 3 → s.arb.stoppedUnits = [] → s.linkState (2 * i.toNat) = 0 → s.linkState (2 * i.toNat + 1) = 0 →
      Does (.reconfStop m kind i) s (fun t => t.arb.stoppedUnits = [(0, i.toNat)] ∧ t.rd R.GLB_RECONF_STAT_BUSY = 1 ∧
        (t.port (2 * i.toNat)).stopped = true ∧ (t.port (2 * i.toNat + 1)).stopped = true ∧
        (∀ p ∈ s.portsOfGroup i.toNat, t.linkState p = 0 ∧ t.rd (lnkCause p) = 11) ∧
        Keeps s t [R.GLB_RECONF_STAT_LAST_KIND.key, R.GLB_RECONF_STAT_LAST_INDEX.key, R.GLB_RECONF_STAT_BUSY.key,
          (lnkCause (2 * i.toNat)).key, (lnkCause (2 * i.toNat + 1)).key]))) ∧
  (∀ (s : State) (kind i a : Nat), s.arb.queue = [.reconf kind i a] → s.arb.begun = true →
    Does .reconfDone s (fun t => t.rd R.GLB_RECONF_STAT_BUSY = 0 ∧ t.rd R.GLB_RECONF_STAT_RESULT = 0 ∧ Idle t ∧
      t.rd R.GLB_RECONF_DONE = (s.rd R.GLB_RECONF_DONE + 1) % 2 ^ R.GLB_RECONF_DONE.width ∧
      t.rd R.GLB_IRQ_RECONF_DONE = 1 ∧
      Keeps s t [R.GLB_RECONF_STAT_BUSY.key, R.GLB_RECONF_STAT_RESULT.key, R.GLB_RECONF_DONE.key, R.GLB_IRQ_RECONF_DONE.key]))

/-- Island commands, castle strobes and reconfiguration actions run one at a time and end with their result. -/
def Obligations.ArbitersOrder : Prop := Sys2Proof.Claims.IslandCommands ∧ Sys2Proof.Claims.CastleStrobes ∧ Sys2Proof.Claims.Reconfiguration

/-- ROW_TX (R72, R102, R104, R106, R110, R114, R115, R118, R503): the row of a port's state goes to the line coding: in DISABLED the LRESET rows of
the first 1 µs and then none, where no lane sends a pattern, LRESET for 1 µs in RESET, capability rows in DETECT, ALIGN and CONFIG, EQ rows, CONFIRM rows. In UP a replay's next row
goes first; then, while the window is open, up to eight waiting squares as a data row with the next sequence number, held for replay; else an idle
row, whose SEQ is the next sequence number and which a full window counts. -/
def Sys2Proof.Claims.RowTransmit : Prop :=
  ∀ (p : Fin 256) (s : State), let st := s.linkState p; let x := s.port p; let ctrl := fun c => rowEncode (ctrlRow (s.ctrlMsg p c))
    let i := p.val / 2; let j := p.val % 2; let next := R.LNK_REPLAY_STAT_NEXT_SEQ i j; let full := R.LNK_FULL_IDLE i j
    let idle := fun (t : State) => ∃ r : Row, Handed s t p r ∧ r.ty = 0 ∧ r.nsq = 0 ∧ r.seq.toNat = s.rd next
    let free := x.replaying = none ∨ ∃ e b : Nat, x.replaying = some (e, b, 4096)
    (st = 0 → (∀ l ∈ s.lanesOf p, s.laneSource l = 0 ∨ s.laneSource l = 4) → (x.lreset = none → exec (.rowTx p) s = .next s) ∧
      ∀ (t : Nat) (q : Square), x.lreset = some (t, q) →
        exec (.rowTx p) s = .next (if s.now < t then s.putRow p (rowEncode (ctrlRow q)) else s)) ∧
    (st = 1 → exec (.rowTx p) s = .next (if s.now < x.resetAt + 1000 then s.putRow p (ctrl 4) else s)) ∧
    (st = 2 ∨ st = 3 ∨ st = 4 → exec (.rowTx p) s = .next (s.putRow p (ctrl 1))) ∧
    (st = 5 → exec (.rowTx p) s = .next (s.putRow p (ctrl 2))) ∧
    (st = 6 → exec (.rowTx p) s = .next (s.putRow p (ctrl 3))) ∧
    (st = 7 → free → x.tx = [] → x.replay.length < s.window p → Does (.rowTx p) s (fun t => idle t ∧ Keeps s t [])) ∧
    (st = 7 → free → s.window p ≤ x.replay.length →
      Does (.rowTx p) s (fun t => idle t ∧ t.rd full = (s.rd full + 1) % 2 ^ full.width ∧ Keeps s t [full.key])) ∧
    (st = 7 → free → x.tx ≠ [] → x.replay.length < s.window p →
      Does (.rowTx p) s (fun t => let qs := takeRow 8 x.tx
        (∃ r : Row, Handed s t p r ∧ r.ty = 1 ∧ r.replay = false ∧ r.seq.toNat = s.rd next ∧ r.squares = qs.map TxSq.sq ∧
          r.nsq.toNat = qs.length) ∧
        t.rd next = (s.rd next + 1) % 4096 ∧ (t.port p).tx = x.tx.drop qs.length ∧
        (t.port p).replay.map (fun r => (r.seq, r.squares, r.firstTx)) =
          x.replay.map (fun r => (r.seq, r.squares, r.firstTx)) ++ [(s.rd next, qs.map TxSq.sq, s.now)])) ∧
    (∀ (e b n : Nat) (r : RepRow), st = 7 → x.replaying = some (e, b, n) → n ≠ 4096 → x.replay.find? (fun r => r.seq == n) = some r →
      Does (.rowTx p) s (fun t => (∃ w : Row, Handed s t p w ∧ w.ty = 1 ∧ w.replay = true ∧ w.seq.toNat = r.seq % 4096 ∧ w.squares = r.squares) ∧
        t.rd (R.LNK_ROWS_REPLAY i j) = (s.rd (R.LNK_ROWS_REPLAY i j) + 1) % 2 ^ (R.LNK_ROWS_REPLAY i j).width ∧
        (t.port p).replay = x.replay ∧
        (t.port p).replaying = some (e, b, if x.replay.getLast?.map RepRow.seq = some r.seq then 4096 else (r.seq + 1) % 4096) ∧
        Keeps s t [(R.LNK_ROWS_REPLAY i j).key, (R.LNK_REPLAY_STAT_OCCUPANCY i j).key, (R.LNK_REPLAY_STAT_OLDEST_SEQ i j).key,
          (R.LNK_REPLAY_STAT_REPLAYING i j).key]))

/-- ROW_RX (R98, R100 to R102, R109, R111, R124): with fewer than 4,224 bits nothing happens; without delineation the bits at this phase are judged,
the fourth good row in a row at one phase takes delineation, and otherwise the search goes on 128 bits later. With delineation a bad row is dropped and
counted, in UP begins the NAK wait, and as the sixteenth in a row loses delineation; a good control row waits for the command of its CTYPE; a row of a
reserved type or with a wrong count is a protocol error; a data or idle row in UP is taken by its sequence number, and as the follower's first row in
CONFIRM it enters UP. -/
def Sys2Proof.Claims.RowReceive : Prop :=
  ∀ (p : Fin 256) (s : State), let i := p.val / 2; let j := p.val % 2; let x := s.port p; let st := s.linkState p
    (s.headRow p = none → exec (.rowRx p) s = .next s) ∧
    ∀ (b : BitVec 4224) (marked : Bool), s.headRow p = some (b, marked) → let good := !marked && rowCrcOk b; let u := s.takeHead p
      let run := x.rxl.runs.getD (x.rxl.pos % 33) 0; let r := rowDecode b; let bad := R.LNK_BAD_ROWS i j
      (x.delineated = false → good = true → 3 ≤ run →
        Does (.rowRx p) s (fun t => (t.port p).delineated = true ∧ (t.port p).rxl = x.rxl ∧ Keeps s t [])) ∧
      (x.delineated = false → good = false ∨ run < 3 → x.rxl.runs = [] ∨ x.rxl.runs.length = 33 →
        Does (.rowRx p) s (fun t => (t.port p).delineated = false ∧ (t.port p).rxl.pos = x.rxl.pos + 1 ∧
          (t.port p).rxl.len = x.rxl.len - 128 ∧ (t.port p).rxl.runs.getD (x.rxl.pos % 33) 0 = (if good then run + 1 else 0) ∧
          Keeps s t [])) ∧
      (x.delineated = true → good = false →
        (x.badRun < 15 → Does (.rowRx p) s (fun t => t.rd bad = (s.rd bad + 1) % 2 ^ bad.width ∧
          (t.port p).nakWait = (x.nakWait || st == 7) ∧ (t.port p).badRun = x.badRun + 1 ∧ (t.port p).rxl.len = x.rxl.len - 4224 ∧
          Keeps s t [bad.key, (R.LNK_NAK_TX i j).key])) ∧
        (15 ≤ x.badRun → 1 ≤ st → st ≤ 6 → Does (.rowRx p) s (fun t => t.rd bad = (s.rd bad + 1) % 2 ^ bad.width ∧
          (t.port p).delineated = false ∧ (t.port p).badRun = 0 ∧
          t.rd (R.LNK_ABSORBED i j) = (s.rd (R.LNK_ABSORBED i j) + 1) % 2 ^ (R.LNK_ABSORBED i j).width ∧
          Keeps s t [bad.key, (R.LNK_ABSORBED i j).key])) ∧
        (15 ≤ x.badRun → st = 7 → exec (.rowRx p) s = .next
          (((((s.dropBits p 4224).countBad p).modPort p (fun y => { y with badRun := y.badRun + 1, frameRx := none })).loseRows p).linkReset p 4))) ∧
      (x.delineated = true → good = true →
        (∀ q : Square, ctrlOf r = some q → 1 ≤ cmType q → cmType q ≤ 4 → exec (.rowRx p) s = .next s) ∧
        (r.ty = 3 ∨ nsqOk r = false → exec (.rowRx p) s = .next (u.requestReset p 7)) ∧
        (r.ty.toNat < 2 → nsqOk r = true →
          (st = 7 → exec (.rowRx p) s = .next (u.upRow p r)) ∧
          (st = 6 → s.rd (R.LNK_STAT_LEADER i j) = 0 → x.peerReady = true →
            exec (.rowRx p) s = .next ((u.enterUp p).upRow p r).stackEvents) ∧
          (r.ty = 0 → st < 6 → exec (.rowRx p) s = .next u) ∧
          (r.ty = 1 → st < 6 → exec (.rowRx p) s = .next (u.requestReset p 7))))

/-- Which row a port sends in each link state and what a received row does. -/
def Obligations.RowsOfALink : Prop := Sys2Proof.Claims.RowTransmit ∧ Sys2Proof.Claims.RowReceive

/-- The replay and error timers of a port in UP (R116, R124, R125): BADROW_LIMIT reports 0x0204 once per window, REPLAY_TIMEOUT starts a replay at the
oldest row, REPLAY_LIMIT resets the link with cause 5, RTT_WINDOW_END gives RTT_MIN the least round trip of a window in which data rows were sent. -/
def Sys2Proof.Claims.ReplayTimers : Prop :=
  ∀ (p : Fin 256) (s : State), let i := p.val / 2; let j := p.val % 2; let st := s.port p
    (max 1 (s.rd (R.LNK_ERR_CFG_BADROW_LIMIT i j)) ≤ st.badWin → st.badHit = false →
      let u := (s.setPort p { st with badHit := true }).fault (16 + i) 0x0204 p
      (s.rd (R.LNK_CTL_RETRAIN_ON_LIMIT i j) = 0 → exec (.badrowLimit p) s = .next u) ∧
      (s.rd (R.LNK_CTL_RETRAIN_ON_LIMIT i j) = 1 → exec (.badrowLimit p) s = .next (u.requestReset p 8))) ∧
    (∀ (r : RepRow) (rest : List RepRow), st.replay = r :: rest → s.linkState p = 7 → st.progressAt + s.replayTimeout p ≤ s.now →
      Does (.replayTimeout p) s (fun t => (t.port p).replaying = some (r.seq, s.now, r.seq) ∧ (t.port p).progressAt = s.now ∧
        t.rd (R.LNK_REPLAY_TO i j) = (s.rd (R.LNK_REPLAY_TO i j) + 1) % 2 ^ (R.LNK_REPLAY_TO i j).width ∧
        t.rd (R.LNK_REPLAY_STAT_REPLAY_RUN i j) = (if st.advanced then s.rd (R.LNK_REPLAY_STAT_REPLAY_RUN i j)
          else min 15 (s.rd (R.LNK_REPLAY_STAT_REPLAY_RUN i j) + 1)) ∧
        Keeps s t [(R.LNK_REPLAY_TO i j).key, (R.LNK_REPLAY_STAT_REPLAY_RUN i j).key, (R.LNK_REPLAY_STAT_OCCUPANCY i j).key,
          (R.LNK_REPLAY_STAT_OLDEST_SEQ i j).key, (R.LNK_REPLAY_STAT_REPLAYING i j).key])) ∧
    (s.linkState p = 7 → s.replayMax p ≤ s.rd (R.LNK_REPLAY_STAT_REPLAY_RUN i j) →
      exec (.replayLimit p) s = .next (s.linkReset p 5)) ∧
    (s.winIdx 1000000 ≠ st.rttIdx →
      Does (.rttWindowEnd p) s (fun t => (t.port p).rttWin = none ∧ (t.port p).rttSent = false ∧ (t.port p).rttIdx = s.winIdx 1000000 ∧
        t.rd (R.LNK_RTT_RTT_MIN i j) = (match st.rttSent, st.rttWin with
          | true, some v => min v 0xFFFFF
          | _, _ => s.rd (R.LNK_RTT_RTT_MIN i j)) ∧
        Keeps s t [(R.LNK_RTT_RTT_MIN i j).key])) ∧
    (s.winIdx 1000000 = st.rttIdx → exec (.rttWindowEnd p) s = .next s)

/-- Training rows at the head of a delineated stream (R82, R104 to R106, R109): a capability row takes an aligned port through ALIGN and the checks of
CONFIG into EQ, with the peer's identity and the leader settled; CONFIG's row does the same; EQ ends in CONFIRM with EQ_DONE on both sides; a CONFIRM
row with READY reaches the follower, and takes the leader into UP. Without such a row at the head nothing happens. -/
def Sys2Proof.Claims.TrainingRows : Prop :=
  ∀ (p : Fin 256) (done : Bool) (reqs : BitVec 64) (s : State), let i := p.val / 2; let j := p.val % 2; let u := s.takeHead p; let st := s.linkState p
    (s.headCtrl p 1 = none → exec (.capRowRx p done reqs) s = .next s) ∧ (s.headCtrl p 2 = none → exec (.eqRowRx p done reqs) s = .next s) ∧
    (s.headCtrl p 3 = none → exec (.confirmRowRx p) s = .next s) ∧
    ∀ msg : Square, let both := ((s.port p).eqDone || done) && bitOf (cmFlags msg) 1
      (s.headCtrl p 1 = some msg →
        (st = 3 → (s.port p).aligned = true →
          exec (.capRowRx p done reqs) s = .next ((((u.eqSession p msg done reqs.toNat)).setLinkState p 4).configCheck p msg)) ∧
        (st = 3 → (s.port p).aligned = false →
          Does (.capRowRx p done reqs) s (fun t => t.linkState p = 3 ∧ (t.port p).peerDone = bitOf (cmFlags msg) 1 ∧ Keeps s t (eqActKeys s p))) ∧
        ((st = 3 ∧ (s.port p).aligned = true) ∨ st = 4 → bitOf (cmVlMask msg) 0 = true → cmIdentity msg ≠ s.rd R.GLB_IDENTITY_IDENTITY →
          Does (.capRowRx p done reqs) s (fun t => t.linkState p = 5 ∧
            t.rdB (R.LNK_STAT_LEADER i j) = decide (s.rd R.GLB_IDENTITY_IDENTITY < cmIdentity msg) ∧
            t.rd (R.LNK_PEER_ID_IDENTITY i j) = cmIdentity msg ∧
            t.rd (R.LNK_CRED_SHARED_PEER_VL_MASK i j) = cmVlMask msg ∧
            Keeps s t ([(R.LNK_STAT_STATE i j).key, (R.LNK_STAT_LEADER i j).key, (R.LNK_PEER_ID_IDENTITY i j).key,
              (R.LNK_STAT_PEER_LPORT i j).key, (R.LNK_CRED_SHARED_GRANT i j).key, (R.LNK_CRED_SHARED_PEER_VL_MASK i j).key] ++ eqActKeys s p)))) ∧
      (s.headCtrl p 2 = some msg →
        (st = 3 ∨ st = 4 ∨ st = 5 → Does (.eqRowRx p done reqs) s (fun t => t.linkState p = (if st = 5 ∧ both = true then 6 else st) ∧
          (t.port p).peerDone = bitOf (cmFlags msg) 1 ∧ (t.port p).eqDone = ((s.port p).eqDone || done) ∧
          Keeps s t ((R.LNK_STAT_STATE i j).key :: eqActKeys s p))) ∧
        (st = 7 → exec (.eqRowRx p done reqs) s = .next (u.ctrlInUp p msg))) ∧
      (s.headCtrl p 3 = some msg →
        (st = 5 → Does (.confirmRowRx p) s (fun t => (t.port p).peerDone = bitOf (cmFlags msg) 1 ∧
          t.linkState p = (if (s.port p).eqDone = true ∧ bitOf (cmFlags msg) 1 = true then 6 else 5) ∧ Keeps s t [(R.LNK_STAT_STATE i j).key])) ∧
        (st = 6 → bitOf (cmFlags msg) 2 = true →
          (s.rd (R.LNK_STAT_LEADER i j) = 0 → Does (.confirmRowRx p) s (fun t => (t.port p).peerReady = true ∧ Keeps s t [])) ∧
          (s.rd (R.LNK_STAT_LEADER i j) = 1 → u.readyNow p = true →
            exec (.confirmRowRx p) s = .next (u.enterUp p).stackEvents)))

/-- Replay and error timers, and the training rows from ALIGN to CONFIRM. -/
def Obligations.LinkTimersAndTraining : Prop := Sys2Proof.Claims.ReplayTimers ∧ Sys2Proof.Claims.TrainingRows

/-- Resets of a link (R83, R104, R105, R107, R108, R503): LRESET_RX, RESET_INTERVAL_END, TRAIN_TIMEOUT, DEGRADE_TIMEOUT, RETRAIN and DISABLE. -/
def Sys2Proof.Claims.LinkResets : Prop :=
  ∀ (p : Fin 256) (m : Master) (s : State), let i := p.val / 2; let j := p.val % 2; let st := s.port p; let u := s.takeHead p
    (s.headCtrl p 4 = none → exec (.lresetRx p) s = .next s) ∧
    (∀ q : Square, s.headCtrl p 4 = some q →
      (s.linkState p = 7 → exec (.lresetRx p) s = .next (u.linkReset p 2)) ∧ (s.linkState p = 1 → exec (.lresetRx p) s = .next u) ∧
      (2 ≤ s.linkState p → s.linkState p ≤ 6 → exec (.lresetRx p) s = .next (u.bump (R.LNK_ABSORBED i j)))) ∧
    (s.linkState p = 1 → st.resetAt + 11000 ≤ s.now → (∀ t0 : Nat, st.lastTrain = some t0 → t0 + 1000000 ≤ s.now) →
      Does (.resetIntervalEnd p) s (fun t => t.linkState p = 2 ∧ t.rd (R.LNK_STAT_SELF_LOOP i j) = 0 ∧
        (t.port p).trainAt = s.now ∧ (t.port p).lastTrain = some s.now ∧ (t.port p).aligned = false ∧
        (t.port p).degraded = (s.rdB (R.LNK_CTL_DEGRADE_EN i j) && decide (2 < s.portLanes p) && (s.lanesOf p).any s.unhealthy) ∧
        (∀ l ∈ s.lanesOf p, t.rd (R.LT_LANE_STAT_STATE (l / 32) (l % 32)) = 1))) ∧
    (2 ≤ s.linkState p → s.linkState p ≤ 6 → st.trainAt + max 10 (s.rd (R.LNK_ERR_CFG_TRAIN_TIMEOUT i j)) * 1000000 ≤ s.now →
      exec (.trainTimeout p) s = .next (s.trainFail p (if st.order = 2 ∨ st.mismatch = true then 10 else 9))) ∧
    (s.linkState p = 2 → st.trainAt + 20000000 ≤ s.now → s.rd (R.LNK_CTL_DEGRADE_EN i j) = 1 → 2 < s.portLanes p → st.degraded = false →
      Does (.degradeTimeout p) s (fun t => (t.port p).degraded = true ∧ (t.port p).aligned = false ∧ (t.port p).line = {} ∧
        Keeps s t (alignKeys s p))) ∧
    (Reaches s m (0x200000 + 0x1000 * i + 0x800 * j) → s.formed p = true →
      (s.linkState p = 7 → exec (.retrain m p) s = .next (s.linkReset p 1)) ∧
      (1 ≤ s.linkState p → s.linkState p ≤ 6 → exec (.retrain m p) s = .next (s.bump (R.LNK_ABSORBED i j))) ∧
      (s.linkState p ≠ 0 → exec (.disable m p true) s = .next ((s.wr (R.LNK_CTL_DISABLE i j) 1).linkDisable p)) ∧
      (s.linkState p = 0 → Does (.disable m p true) s (fun t => t.rd (R.LNK_CTL_DISABLE i j) = 1 ∧
        Keeps s t [(R.LNK_CTL_DISABLE i j).key])) ∧
      (s.linkState p = 0 → (s.wr (R.LNK_CTL_DISABLE i j) 0).heldDisabled p = false →
        Does (.disable m p false) s (fun t => t.rd (R.LNK_CTL_DISABLE i j) = 0 ∧ t.linkState p = 1 ∧ (t.port p).resetAt = s.now ∧
          Keeps s t [(R.LNK_CTL_DISABLE i j).key, (R.LNK_STAT_STATE i j).key])))

/-- TIME_FRAME (R122, R123): at a time source, a complete frame over a port that is not the parent gives the peer's STEPS; when its T1 belongs to the
last frame and its echo to an own mark, delay is half of the two differences and offset follows. A follower's STEPS are its parent's plus one (R451). -/
def Sys2Proof.Claims.TimeFrames : Prop :=
  (∀ (p : Fin 256) (f : FrameRx) (s : State), let i := p.val / 2; let j := p.val % 2
    let flags := f.slots.getD 11 0; let no := f.slots.getD 10 0 / 256; let t3 := SMap.get 0 (s.port p).marks (f.slots.getD 10 0 % 256)
    (s.port p).frameRx = some f → f.complete = true → s.rd R.TIM_CFG_ROLE = 1 → s.rd R.TIM_STAT_PARENT ≠ p.val →
    ((s.port p).lastFrame = none →
      Does (.timeFrame p) s (fun t => (t.port p).peerSteps = flags / 256 ∧ (t.port p).frameRx = none ∧
        (t.port p).lastFrame = some (f.t2, (no + 1) % 256) ∧ (t.port p).pairNew = false ∧ Keeps s t [])) ∧
    (∀ t2 : Nat, (s.port p).lastFrame = some (t2, no) → t3 ≠ 0 → flags % 4 = 3 →
      let delay : Int := (((slotTime f.slots 5 : Int) - (t3 - 1)) + (t2 - slotTime f.slots 0)) / 2
      Does (.timeFrame p) s (fun t => (t.port p).pairNew = true ∧ (t.port p).pairAt = s.now ∧
        t.rd (R.LNK_TIME_DELAY_DELAY i j) = unsignedOf 48 delay % 2 ^ (R.LNK_TIME_DELAY_DELAY i j).width ∧
        t.rd (R.LNK_TIME_OFFSET_OFFSET i j) = unsignedOf 64 (slotTime f.slots 0 + delay - t2) % 2 ^ (R.LNK_TIME_OFFSET_OFFSET i j).width ∧
        Keeps s t [(R.LNK_TIME_DELAY_DELAY i j).key, (R.LNK_TIME_OFFSET_OFFSET i j).key]))) ∧
  (∀ (p : Fin 256) (f : FrameRx) (s : State), let steps := f.slots.getD 11 0 / 256
    (s.port p).frameRx = some f → f.complete = true → s.rd R.TIM_CFG_ROLE = 0 → s.rd R.TIM_STAT_PARENT = p.val → (s.port p).lastFrame = none →
    steps < s.rd R.TIM_STAT_STEPS → Does (.timeFrame p) s (fun t => t.rd R.TIM_STAT_STEPS = steps + 1 ∧ (t.port p).peerSteps = steps ∧
      Keeps s t [R.TIM_STAT_STEPS.key]))

/-- Resets of a link, and offset and delay from a complete time frame. -/
def Obligations.LinkResetsAndTimeFrames : Prop := Sys2Proof.Claims.LinkResets ∧ Sys2Proof.Claims.TimeFrames

/-- HEADER_SQUARE_ARRIVE (R54, R129, R134, R140, R157) of the last square received on port p, the packet sampler off: a square that fails the header
checks counts in SWC_DISC_HDR, and one that fails the age check at
the time of its arrival (R458) in the counter of its case; either is stored with no output. One that passes and has
one output that takes it is stored and queued there under its copy's VL, and the rest of its squares are awaited. -/
def Sys2Proof.Claims.HeaderArrives : Prop :=
  ∀ (p : Fin 256) (q : RxSq) (s : State), let k : Pkt := { hdr := q.sq, pay := [] }; let n := announced k
    let stored := fun (t : State) => t.nextPid = s.nextPid + 1 ∧ (t.port p).rx = [] ∧
      (t.port p).rxCur = (if n ≤ 1 then none else some { pid := s.nextPid, left := n - 1 })
    let lost := fun (c : FRef) => Does (.headerSquareArrive p) s (fun t => t.rd c = (s.rd c + 1) % 2 ^ c.width ∧ Keeps s t [c.key] ∧
      stored t ∧ (t.bufPkt s.nextPid).map BufPkt.outs = some [])
    (s.port p).rx = [q] → (s.port p).rxCur = none → q.hdr = true → q.abort = false → s.rd R.PMON_SAMPLE_CFG_PKT_EN = 0 →
    (headerOk k n = false → lost R.SWC_DISC_HDR) ∧
    (∀ c : FRef, headerOk k n = true → s.ageCheckAt q.fstamp q.stamp k = some c → lost c) ∧
    (∀ x : OutSel, headerOk k n = true → s.ageCheckAt q.fstamp q.stamp k = none → k.opcode ≠ 0x40 → k.opcode ≠ 0x41 → s.route k p = (s, [x]) →
      s.outputDown x.out = false → let v := bitsOf x.route 28 4
      Does (.headerSquareArrive p) s (fun t => Keeps s t [] ∧ stored t ∧
        t.queue x.out v = s.queue x.out v ++
          [{ pid := s.nextPid, route := x.route, read := 0, reading := false, shared := false, bank := x.bank }] ∧
        (t.bufPkt s.nextPid).map (fun b => (b.pkt, b.inp, b.count, b.written, b.outs)) = some (k, p.val, n, 1, [16 * x.out + v])))

/-- ADMIT and ADMIT_RETRY (R132): the head of a local input's VL, built for no function, is sealed, stamped, checked and routed once; without an
output it leaves; otherwise it takes the admission test, as a waiting head does again. A VL0 packet that fits the eight squares of VL0 is stored; a
packet that the test turns away waits at the head. -/
def Sys2Proof.Claims.Admission : Prop :=
  ∀ (i : Fin 7) (vl : Fin 16) (x : LocalPkt) (rest : List LocalPkt) (s : State), s.localQ i vl = x :: rest →
    (x.waiting = false → x.held = false → x.fn = none → x.skip = none → s.timeValid = true →
      ∀ (u : State) (outs : List OutSel), s.decideLocal x (s.sealPkt x.pkt) (256 + i.val) = (u, outs) →
      let y := { x with pkt := s.sealPkt x.pkt, outs := outs, stamp := u.now, fstamp := u.ns }
      (outs = [] → exec (.admitPkt i vl) s = .next ((((u.noteOrigin y).setLocalQ i vl rest).notePawn x.pawn).probeAdmitted y)) ∧
      (outs ≠ [] → exec (.admitPkt i vl) s = .next ((u.noteOrigin y).tryAdmit i vl y rest))) ∧
    (x.waiting = true → exec (.admitRetry i vl) s = .next (s.tryAdmit i vl x rest) ∧
      (s.admitTest i vl x.pkt.squares x.outs = none →
        Does (.admitRetry i vl) s (fun t => t.localQ i vl = x :: rest ∧ Keeps s t [waitKey i.val])) ∧
      (vl = 0 → x.dep = none → s.rd (R.SWC_LOCAL_OCC_VL0_USED i.val) + x.pkt.squares ≤ 8 →
        x.outs.all (fun o => bitsOf o.route 28 4 == 0) = true →
        Does (.admitRetry i vl) s (fun t => t.localQ i vl = rest ∧ t.nextPid = s.nextPid + 1 ∧
          t.rd (R.SWC_LOCAL_OCC_VL0_USED i.val) = s.rd (R.SWC_LOCAL_OCC_VL0_USED i.val) + x.pkt.squares)))

/-- OUTPUT_SCHEDULE (R127, R149 to R151): an output that is down or sends, and one whose bank gives another square in this cycle, starts nothing;
otherwise it starts the head of the VL it selects, VL0 before the class of the deficit round robin. -/
def Sys2Proof.Claims.OutputSelects : Prop :=
  ∀ (o : Fin 259) (s : State),
    (s.readWaits o = true → exec (.outputSchedule o) s = .next s) ∧
    (o.val < 256 → s.portUp o = false ∨ (s.port o).curTx ≠ none → exec (.outputSchedule o) s = .next s) ∧
    (256 ≤ o.val → s.outputDown o = true → exec (.outputSchedule o) s = .next s) ∧
    (s.readWaits o = false → ∀ u : State,
      (∀ v : Nat, s.select o = (u, some v) → exec (.outputSchedule o) s = .next (u.startRead o v (if v = 0 then 4 else u.tcOf v))) ∧
      (s.select o = (u, none) → exec (.outputSchedule o) s = .next u)) ∧
    (o.val < 256 → s.portUp o = true → (s.port o).curTx = none →
      s.select o = if (s.headReady o 0).isSome ∧ 0 ≤ (s.port o).vl0Cred then (s, some 0) else dwrr 8 s o) ∧
    (256 ≤ o.val → s.outputDown o = false → s.select o = if (s.headReady o 0).isSome then (s, some 0) else dwrr 8 s o)

/-- OUTPUT_SCHEDULE and CUT_THROUGH_RESUME (R21, R118, R127, R138, R149, R170): a read that starts at a fabric port reserves its credits in the pool
that backs it, and the squares of a wholly written packet go to the lane tile; a local output hands its packet over whole. A resumed read hands over
what was written since, and the entry of a packet that is read whole leaves. -/
def Sys2Proof.Claims.OutputSends : Prop :=
  (∀ (o : Fin 259) (e : QEntry) (b : BufPkt) (s : State), s.readWaits o = false → s.select o = (s, some 0) → s.headReady o 0 = some (e, b) →
    (o.val < 256 → exec (.outputSchedule o) s = .next ((s.startFabric o 0 e b 4).noteRead b)) ∧
    (256 ≤ o.val → exec (.outputSchedule o) s = .next ((s.deliver o 0 e b).noteRead b)) ∧
    (o.val < 256 → b.written = b.count → let key := if s.creditPool o 0 b.count = some true then 16 else 0
      Does (.outputSchedule o) s (fun t => (t.port o).tx.length = (s.port o).tx.length + (b.count - e.read) ∧
        SMap.get 0 (t.port o).reserved key = SMap.get 0 (s.port o).reserved key + b.count)) ∧
    (o = 256 → b.cut = false → b.aborted = false → 2 ≤ (s.readCopy b e.route).cls →
      Does (.outputSchedule o) s (fun t => t.engRep = s.engRep ++ [s.readCopy b e.route])) ∧
    (o = 257 → b.cut = false → b.aborted = false →
      Does (.outputSchedule o) s (fun t => t.colIn = s.colIn ++ [{ pkt := s.readCopy b e.route, inp := b.inp, bank := e.bank, stamp := b.stamp, fstamp := b.fstamp }])) ∧
    (o = 258 → b.cut = false → b.aborted = false → (s.readCopy b e.route).cls = 5 → (s.arbIn.filter (fun q => q.1.cls == 5)).length < 64 →
      Does (.outputSchedule o) s (fun t => t.arbIn = s.arbIn ++ [(s.readCopy b e.route, b.inp, b.fstamp)]))) ∧
  (∀ (p : Fin 256) (pid key : Nat) (e : QEntry) (b : BufPkt) (s : State), (s.port p).curTx = some (pid, key) → s.bufPkt pid = some b →
    b.written = b.count → (s.queue (key / 16) (key % 16)).find? (fun e => e.pid == pid) = some e →
    Does (.cutThroughResume p) s (fun t => (t.port p).curTx = none ∧
      (t.port p).tx.length = (s.port p).tx.length + (b.count - e.read) ∧
      t.queue (key / 16) (key % 16) = (s.queue (key / 16) (key % 16)).filter (fun e => e.pid != pid) ∧ Keeps s t []))

/-- Header checks, admission of local packets and output scheduling. -/
def Obligations.PacketsEnterAndLeave : Prop := Sys2Proof.Claims.HeaderArrives ∧ Sys2Proof.Claims.Admission ∧ Sys2Proof.Claims.OutputSelects ∧ Sys2Proof.Claims.OutputSends

/-- SQUARE_FREE (R119, R129, R133): one more square of a stored packet is freed and goes back to the free list; its tag says whose credit or region
it returns to; where ALPHA let the dynamic region hold more squares than its size (R132), none of it is free until it holds fewer. -/
def Sys2Proof.Claims.SquareFreed : Prop :=
  ∀ (pid : BitVec 32) (b : BufPkt) (a : Nat) (g : SqTag) (s : State), s.bufPkt pid.toNat = some b → b.freed < s.freeable pid.toNat b →
    b.outs ≠ [] → b.addr[b.freed]? = some a → s.tagOf a = some g →
    let frees := fun (ks : List Nat) (P : State → Prop) => Does (.squareFree pid) s (fun t =>
      t.bufPkt pid.toNat = some { b with freed := b.freed + 1 } ∧ t.tagOf a = none ∧ Keeps s t ks ∧ P t)
    (∀ p : Fin 256, g.inp = p.val →
      (g.gen = (s.port p).gen → g.shared = true → frees [] (fun t => (t.port p).rxShared = ((s.port p).rxShared + 1) % 16384)) ∧
      (g.gen = (s.port p).gen → g.shared = false → let f := R.LNK_CRED_VL_RX_COUNT (p.val / 2) (p.val % 2) g.vl
        frees [f.key] (fun t => t.rd f = (s.rd f + 1) % 2 ^ f.width)) ∧
      (g.gen ≠ (s.port p).gen →
        frees [R.SWC_PREV_LINK_FREED.key] (fun t => t.rd R.SWC_PREV_LINK_FREED = (s.rd R.SWC_PREV_LINK_FREED + 1) % 2 ^ R.SWC_PREV_LINK_FREED.width))) ∧
    (∀ i : Fin 7, g.inp = 256 + i.val →
      (g.region = .vl0 → let f := R.SWC_LOCAL_OCC_VL0_USED i.val
        frees [f.key] (fun t => t.rd f = s.rd f - 1)) ∧
      (g.region = .guar → let f := R.SWC_LOCAL_OCC_GUAR_USED i.val; let k := i.val * 16 + g.vl
        frees [f.key] (fun t => t.rd f = s.rd f - 1 ∧ SMap.get 0 t.guarUsed k = SMap.get 0 s.guarUsed k - 1)) ∧
      (g.region = .dyn → let f := R.SWC_LOCAL_OCC_DYN_USED i.val; let d := R.SWC_BUF_STAT_DYN_FREE
        frees [f.key, d.key] (fun t => t.rd f = s.rd f - 1 ∧
          t.rd d = if s.rd R.SWC_BUF_STAT_DYN_SIZE < s.dynUsed then s.rd d else (s.rd d + 1) % 2 ^ d.width)))

/-- ENTRY_DEADLINE and AUDIT_PASS (R140, R141, R143, R147, R148): an unread entry past its age or residence deadline leaves its queue and counts in
SWC_DISC_AGE. A pass compares the squares in use with those that descriptors refer to, as they stand after what has gone wrong, and counts; where the
two agree it finds nothing; a square in use that nothing refers to is reported, and returned when the last pass found it too and RETURN_EN is 1. -/
def Sys2Proof.Claims.BufferChecks : Prop :=
  (∀ (o : Fin 259) (vl : Fin 16) (pid : BitVec 32) (e : QEntry) (b : BufPkt) (s : State),
    (s.queue o vl).find? (fun e => e.pid == pid.toNat) = some e → s.bufPkt pid.toNat = some b → e.reading = false →
    b.stamp + s.ageLimit ≤ s.now ∨ s.ageCheck b.pkt = some R.SWC_DISC_AGE →
    Does (.entryDeadline o vl pid) s (fun t => t.queue o vl = (s.queue o vl).filter (fun e => e.pid != pid.toNat) ∧
      t.rd R.SWC_DISC_AGE = (s.rd R.SWC_DISC_AGE + 1) % 2 ^ R.SWC_DISC_AGE.width ∧ Keeps s t [R.SWC_DISC_AGE.key])) ∧
  (∀ s : State, let passes := R.SWC_AUDIT_CTL_PASSES
    let counted := fun (t : State) => t.rd passes = (s.rd passes + 1) % 2 ^ passes.width
    (∀ l : List Upset, exec (.auditPass l) s = .next (((l.foldl State.upset s).audit).wr passes ((l.foldl State.upset s).audit.rd passes + 1))) ∧
    ((∀ e ∈ s.swc.tags, e.1 ∈ s.swc.touched ∨ ∃ x ∈ s.auditMap, x.1 = e.1) →
      (∀ x ∈ s.auditMap, (x.1 ∈ s.swc.touched ∨ s.tagOf x.1 ≠ none) ∧ ∀ y ∈ s.auditMap, y.1 = x.1 → y.2 = x.2) →
      Does (.auditPass []) s (fun t => t.swc.leaked = [] ∧ t.swc.touched = [] ∧ counted t ∧ Keeps s t [passes.key])) ∧
    (∀ (a : Nat) (g : SqTag), g.inp < 263 → g.vl < 16 → s.swc.tags = [(a, some g)] → a ∉ s.swc.touched → s.auditMap = [] → Does (.auditPass []) s (fun t =>
      t.rd R.SWC_AUDIT_LEAK = (s.rd R.SWC_AUDIT_LEAK + 1) % 2 ^ R.SWC_AUDIT_LEAK.width ∧ t.rd R.SWC_AUDIT_LAST_KIND = 1 ∧
      t.rd R.SWC_AUDIT_LAST_ADDR = s.shownAddr a % 2 ^ R.SWC_AUDIT_LAST_ADDR.width ∧ counted t ∧
      (if a ∈ s.swc.leaked ∧ s.rd R.SWC_AUDIT_CTL_RETURN_EN = 1 then t.tagOf a = none ∧ t.swc.leaked = [] ∧
          t.rd R.SWC_AUDIT_RETURNED = (s.rd R.SWC_AUDIT_RETURNED + 1) % 2 ^ R.SWC_AUDIT_RETURNED.width
        else t.tagOf a = some g ∧ t.swc.leaked = [a]))))

/-- SHAPER_TICK, POLICER_REFILL and REMOTE_DECAY (R151 to R154, R166): the oldest square sent charges its class, the VL0 credit moves by its rule, and
each enabled shaper's credit by its rate; with no packet held a policer's buckets gain CIR and PIR up to their bursts; at the end of an 8 µs window an
estimate without a sample halves. -/
def Sys2Proof.Claims.TokenClocks : Prop :=
  (∀ (p : Fin 256) (t : Fin 4) (s : State), let st := s.port p; let sends := fun (c : Nat) => st.sent.head? == some c
    let waits := fun (c : Nat) => st.tx.any (fun q => q.cls == c) ||
      (List.range 16).any (fun v => (if v = 0 then 4 else s.tcOf v) == c && !(s.queue p v).isEmpty)
    Does (.shaperTick p) s (fun u => (u.port p).vl0Cred = shaperStep st.vl0Cred 40 130 65 (sends 4) (waits 4) ∧ (u.port p).sent = st.sent.drop 1 ∧
      Keeps s u ((List.range 4).map (fun t => (R.SWC_SHP_CRED_CREDIT p.val t).key)) ∧
      u.rd (R.SWC_SHP_CRED_CREDIT p.val t.val) =
        (if s.rd (R.SWC_SHP_ACT_EN p.val t.val) = 1 then
          unsignedOf 32 (shaperStep (signedOf 32 (s.rd (R.SWC_SHP_CRED_CREDIT p.val t.val))) (max 1 (s.rd (R.SWC_SHP_ACT_RATE p.val t.val)))
            (s.rd (R.SWC_SHP_ACT_HI p.val t.val)) (s.rd (R.SWC_SHP_ACT_LO p.val t.val)) (sends t.val) (waits t.val)) % 2 ^ 32
        else s.rd (R.SWC_SHP_CRED_CREDIT p.val t.val)))) ∧
  (∀ (f : Fin 512) (s : State), s.lin = [] → s.rd (R.SWC_POL_CTL_ACT_EN f.val) = 1 → let b := SMap.get {} s.pol f.val
    let c := min (burst (s.rd (R.SWC_POL_RATE_C_ACT_BURST f.val)) * polUnit) (b.c + s.rd (R.SWC_POL_RATE_C_ACT_RATE f.val))
    let p := min (burst (s.rd (R.SWC_POL_RATE_P_ACT_BURST f.val)) * polUnit) (b.p + s.rd (R.SWC_POL_RATE_P_ACT_RATE f.val))
    Does (.policerRefill f) s (fun t => SMap.get {} t.pol f.val = { c := c, p := p } ∧
      t.rd (R.SWC_POL_TOK_C f.val) = c / polUnit % 2 ^ (R.SWC_POL_TOK_C f.val).width ∧
      t.rd (R.SWC_POL_TOK_P f.val) = p / polUnit % 2 ^ (R.SWC_POL_TOK_P f.val).width ∧
      Keeps s t [(R.SWC_POL_TOK_C f.val).key, (R.SWC_POL_TOK_P f.val).key])) ∧
  (∀ s : State, (s.winIdx 8000 = s.time.decayWin → exec .remoteDecay s = .next s) ∧
    (s.winIdx 8000 ≠ s.time.decayWin → ∀ p : Fin 256, Does .remoteDecay s (fun t => Keeps s t [] ∧
      ((s.port p).remoteWin = s.winIdx 8000 → (t.port p).remote = (s.port p).remote ∧ (t.port p).remoteHit = (s.port p).remoteHit) ∧
      ((s.port p).remoteWin ≠ s.winIdx 8000 → (t.port p).remoteHit = false ∧
        (t.port p).remote = (if (s.port p).remoteHit then (s.port p).remote else (s.port p).remote / 2)))))

/-- Freed squares and credits, residence deadlines and the auditor, shapers, policers and remote estimates. -/
def Obligations.BufferAndTokens : Prop := Sys2Proof.Claims.SquareFreed ∧ Sys2Proof.Claims.BufferChecks ∧ Sys2Proof.Claims.TokenClocks

/-- SHADOW_COPY_DONE, RTE_CFG_WRITE and COL_TREE_A_WRITE (R179, R180, R323, R370): a copy that ends clears its part, that of the tree
tables once no packet of the old bank is left (the model's choice, log entry 125), and an ARM that waited for the
last copy of its parts is answered; a legal split and group count go to the shadow RTE_CFG and others set CFG_REJECT; in Endpoint mode a valid entry
may only have ROLE 0, and the reserved bits of an entry stay zero (R8, R322). -/
def Sys2Proof.Claims.ShadowWrites : Prop :=
  (∀ (part : Fin 32) (s : State), s.stk.armWait = none → part.val ∉ s.copying → exec (.shadowCopyDone part) s = .next s) ∧
  (∀ (part : Fin 32) (s : State), s.stk.armWait = none → part.val ∈ s.copying →
    (part.val = 3 → s.oldBankUse = true → exec (.shadowCopyDone part) s = .next s) ∧
    (part.val ≠ 3 ∨ s.oldBankUse = false → Does (.shadowCopyDone part) s (fun t => t.copying = s.copying.filter (· != part.val)))) ∧
  (∀ (part : Fin 32) (r : MgmtReq) (mask at_ : Nat) (s : State), s.stk.armWait = some r → s.stk.arm = some (mask, at_) →
    let u := s.copyDone part
    exec (.shadowCopyDone part) s = .next (if (maskParts mask).any u.copying.contains then u
      else answered (u.withStk { u.stk with armWait := none }) r 0 none)) ∧
  (∀ (m : Master) (v : BitVec 64) (s : State), Reaches s m 0x400000 → s.rd R.STK_CFG_MIRROR = 0 →
    let split := v.toNat % 16; let n := bitsOf v.toNat 16 15
    (4 ≤ split → split ≤ 10 → 0 < n → n ≤ 2 ^ (18 - split) → Does (.rteCfgWrite m .full v) s (fun t =>
      t.rd R.RTE_CFG_SPLIT = split ∧ t.rd R.RTE_CFG_NGROUPS = n ∧ Keeps s t [R.RTE_CFG_SPLIT.key, R.RTE_CFG_NGROUPS.key])) ∧
    ((split < 4 ∨ 10 < split ∨ n = 0 ∨ 2 ^ (18 - split) < n) →
      exec (.rteCfgWrite m .full v) s = .next (s.wr R.RTE_STAT_CFG_REJECT 1))) ∧
  (∀ (m : Master) (i : BitVec 12) (v : BitVec 64) (s : State), Reaches s m (0xD10000 + 0x10 * i.toNat) →
    (s.rd R.GLB_MODE_STAT_MODE = 1 → v.toNat.testBit 16 = true → bitsOf v.toNat 17 2 ≠ 0 →
      exec (.colTreeAWrite m i .full v) s = .next (s.wr R.COL_CMD_STAT_REJECT 1)) ∧
    (s.rd R.GLB_MODE_STAT_MODE ≠ 1 → Does (.colTreeAWrite m i .full v) s (fun t =>
      t.rd (R.COL_TREE_A i.toNat) = v.toNat % 2 ^ 36 ∧ Keeps s t [(R.COL_TREE_A i.toNat).key])))

/-- DEPARTURE_NOTICE (R19, R279): the oldest notice of the output leaves the list, and the entry that its packet belongs to knows that this packet has
gone; a PUT all of whose packets are built completes with OK and its length at the last of them. -/
def Sys2Proof.Claims.DepartureNotices : Prop :=
  ∀ (o : Fin 259) (d : Nat × Nat) (x : WorkEnt) (s : State), s.departures.find? (fun d => d.1 == o.val) = some d → d.2 < 2 ^ 96 →
    s.workEnt (d.2 / 2 ^ 32) = some x → let w := d.2 / 2 ^ 32; let psn := d.2 % 2 ^ 32
    let noted := (s.withDepartures (s.departures.erase d)).setWork w
      (some { x with gone := if x.gone.contains psn then x.gone else x.gone ++ [psn] })
    (x.built = false → Does (.departureNotice o) s (fun t => t.departures = s.departures.erase d ∧ Keeps s t [] ∧
      (t.workEnt w).map (fun y => y.gone.contains psn) = some true)) ∧
    (x.cid = none → wop x = 1 → x.built = true → x.gone.contains psn = false → x.sent = x.gone.length + 1 →
      exec (.departureNotice o) s = .next ((noted.stampWork w 2).complete w 0 0 (wlen x)))

/-- Shadow copies, writes to shadow entries, and departure notices. -/
def Obligations.ShadowTablesAndNotices : Prop := Sys2Proof.Claims.ShadowWrites ∧ Sys2Proof.Claims.DepartureNotices

/-- The quench commands through CGC_CMD and in band (R188, R189, R190): LAST_CMD shows the command, CGC_STOP_RX counts it, the quench bits of its
holder change, the result is 0, and an in-band one is answered. -/
def Sys2Proof.Claims.QuenchCommands : Prop :=
  (∀ (m : Master) (s : State), Reaches s m 0x800080 → s.rd R.CGC_CMD_STAT_BUSY = 0 →
    let b := fun (c : Nat) => (s.wr R.CGC_CMD_STAT_LAST_CMD c).bump R.CGC_STOP_RX; let a := s.rd R.CGC_CMD_ARG_ARG
    let fm := decide (m = .manager); let ok := fun (t : State) => t.wr R.CGC_CMD_STAT_RESULT 0
    exec (.quenchFn (.cmd m)) s = .next (ok ((b 1).quenchFn fm (a % 512) true)) ∧
    exec (.unquenchFn (.cmd m)) s = .next (ok ((b 2).quenchFn fm (a % 512) false)) ∧
    exec (.quenchJob (.cmd m)) s = .next (ok ((b 3).quenchJob fm (a % 4096) true)) ∧
    exec (.unquenchJob (.cmd m)) s = .next (ok ((b 4).quenchJob fm (a % 4096) false)) ∧
    exec (.quenchAll (.cmd m)) s = .next (ok ((b 5).quenchAll fm true)) ∧
    exec (.unquenchAll (.cmd m)) s = .next (ok ((b 6).quenchAll fm false))) ∧
  (∀ (r : MgmtReq) (s : State), InBand s r →
    (r.cmd = 1 → exec (.quenchFn .inband) s = .next (answered ((taking s r).quenchFn true (r.arg % 512) true) r 0 none)) ∧
    (r.cmd = 2 → exec (.unquenchFn .inband) s = .next (answered ((taking s r).quenchFn true (r.arg % 512) false) r 0 none)) ∧
    (r.cmd = 3 → exec (.quenchJob .inband) s = .next (answered ((taking s r).quenchJob true (r.arg % 4096) true) r 0 none)) ∧
    (r.cmd = 4 → exec (.unquenchJob .inband) s = .next (answered ((taking s r).quenchJob true (r.arg % 4096) false) r 0 none)) ∧
    (r.cmd = 5 → exec (.quenchAll .inband) s = .next (answered ((taking s r).quenchAll true true) r 0 none)) ∧
    (r.cmd = 6 → exec (.unquenchAll .inband) s = .next (answered ((taking s r).quenchAll true false) r 0 none)))

/-- What the quench bits mean (R189): a quench of a function, a job context or the module holds its builders, the release by the same holder clears
its own bit, and with no packet in the module the rest of the quench bits stay. -/
def Sys2Proof.Claims.QuenchBits : Prop :=
  ∀ (s : State) (fm : Bool) (f : Fin 512) (j : Fin 4096), s.lin = [] → s.buf = [] →
    (s.quenchFn fm f true).fnQuenched f = true ∧ (s.quenchAll fm true).allQuenched = true ∧ (s.quenchJob fm j true).jobQuenched j = true ∧
    (s.quenchFn fm f false).rd (if fm then R.CGC_FN_STAT_Q_FM f.val else R.CGC_FN_STAT_Q_CMDR f.val) = 0 ∧
    (s.quenchFn fm f false).rd (if fm then R.CGC_FN_STAT_Q_CMDR f.val else R.CGC_FN_STAT_Q_FM f.val) =
      s.rd (if fm then R.CGC_FN_STAT_Q_CMDR f.val else R.CGC_FN_STAT_Q_FM f.val) ∧
    (∀ g : Fin 512, g ≠ f → (s.quenchFn fm f true).rd (R.CGC_FN_STAT_Q_FM g.val) = s.rd (R.CGC_FN_STAT_Q_FM g.val) ∧
      (s.quenchFn fm f true).rd (R.CGC_FN_STAT_Q_CMDR g.val) = s.rd (R.CGC_FN_STAT_Q_CMDR g.val))

/-- THROTTLE_WINDOW_END, FETCH_GAP_PASSED, BASE_WIN_END, GRANT_REQ_RX and GRANT_ISSUE (R181, R182, R185, R187): what the end of a window of fabric time
that has not been taken does, and what a request for a grant and the next grant do. -/
def Sys2Proof.Claims.Throttling : Prop :=
  (∀ (f : Fin 512) (s : State), let lo := max 1 (s.rd R.CGC_GAP_CFG_GAP_MIN); let hi := max lo (s.rd R.CGC_GAP_CFG_GAP_MAX)
    let aff := s.cgc.affected.contains f.val; let g := s.rd (R.CGC_FN_STAT_GAP f)
    let late := ((s.cgc.affLate.map Prod.fst).eraseDups.filter (· != s.winIdx 2000)).map (fun w => s.cgc.affLate.contains (w, f.val))
    let next := fun (g : Nat) (a : Bool) => (if s.rd R.CGC_GAP_CFG_THR_EN ≠ 1 then 0 else if a then min hi (max lo (2 * g))
      else if g / 2 < lo then 0 else g / 2) % 2 ^ (R.CGC_FN_STAT_GAP f).width
    (s.winIdx 2000 = s.time.throttleWin → exec .throttleWindowEnd s = .next s) ∧
    (s.winIdx 2000 ≠ s.time.throttleWin → Does .throttleWindowEnd s (fun t =>
      t.rdB (R.CGC_FN_STAT_AFFECTED f) = (aff :: late).getLastD false ∧
      t.time.throttleWin = s.winIdx 2000 ∧ t.cgc.affLate = [] ∧ t.rd (R.CGC_FN_STAT_GAP f) = (aff :: late).foldl next g)) ∧
    (s.gapOver f = true → Does (.fetchGapPassed f) s (fun t => (t.fnSt f).lastFetch = none ∧ Keeps s t []))) ∧
  (∀ (cid : Nat) (c : Conn) (s : State), s.conn cid = some c →
    (s.winIdx 10000000 = s.time.baseWin → exec .baseWinEnd s = .next s) ∧
    (s.winIdx 10000000 ≠ s.time.baseWin →
      Does .baseWinEnd s (fun t => (c.baseWin = s.winIdx 10000000 → t.conn cid = some c) ∧
        (c.baseWin ≠ s.winIdx 10000000 → t.conn cid = some { c with
          prevMin := if c.baseWin / 2 ^ 96 = s.time.epoch ∧ c.baseWin + 1 < s.winIdx 10000000 then none else c.curMin
          curMin := none, baseWin := s.winIdx 10000000 }) ∧ t.time.baseWin = s.winIdx 10000000 ∧ Keeps s t [])) ∧
    (∀ (p : Pkt) (rest : List (Nat × Pkt)), s.xpt.grantIn = (cid, p) :: rest → c.lost = false → let g := newGrant c p.psn p.mref p.gval
      (c.ahead = [] → g = { psn := p.psn, mref := p.mref, mlen := p.gval }) ∧
      Does .grantReqRx s (fun t => t.xpt.grantIn = rest ∧
        t.conn cid = some { c with gr := c.gr ++ [g], ahead := c.ahead.filter (fun a => g.key != some a.1) } ∧
        SMap.get [] t.xpt.grants (c.fn / 128) = SMap.get [] s.xpt.grants (c.fn / 128) ++ [(cid, p.psn)] ∧
        t.rd R.CGC_GRANT_REQ_RX = (s.rd R.CGC_GRANT_REQ_RX + 1) % 2 ^ R.CGC_GRANT_REQ_RX.width ∧
        Keeps s t [R.CGC_GRANT_REQ_RX.key, (R.CGC_GRANT_BUDGET_PENDING (c.fn / 128)).key]))) ∧
  (∀ (h : Fin 4) (cid psn : Nat) (c : Conn) (g : GrantReq) (rest : List (Nat × Nat)) (s : State),
    s.budgetOk h = true → s.timeValid = true → SMap.get [] s.xpt.grants h.val = (cid, psn) :: rest → s.conn cid = some c → c.lost = false →
    c.gr.find? (fun g => g.psn == psn) = some g → g.goff + s.grantChunk < g.mlen →
    Does (.grantIssue h) s (fun t => t.rd R.CGC_GRANT_TX = (s.rd R.CGC_GRANT_TX + 1) % 2 ^ R.CGC_GRANT_TX.width ∧
      SMap.get [] t.xpt.grants h.val = rest ++ [(cid, psn)] ∧
      (t.conn cid).map Conn.gr = some (c.gr.map (fun x => if x.psn == psn then { x with goff := g.goff + s.grantChunk } else x))))

/-- TEARDOWN_JOB, TEARDOWN_JOB_DONE and TREE_STOP (R188, R191, R337): the commands from either side, and the end of a teardown. -/
def Sys2Proof.Claims.JobTeardown : Prop :=
  (∀ (m : Master) (s : State), Reaches s m 0x800080 → s.rd R.CGC_CMD_STAT_BUSY = 0 → let a := s.rd R.CGC_CMD_ARG_ARG
    let b := fun (c : Nat) => (s.wr R.CGC_CMD_STAT_LAST_CMD c).bump R.CGC_STOP_RX
    exec (.teardownJob (.cmd m)) s = .next (((b 7).teardownJob (decide (m = .manager)) (a % 4096)).wr R.CGC_CMD_STAT_RESULT 0) ∧
    (∀ e : Nat, s.isMaster = false → (b 8).treeEntry (a % 65536) = some e →
      exec (.treeStop (.cmd m)) s = .next (((b 8).unseat e 5 s.moduleId none).wr R.CGC_CMD_STAT_RESULT 0))) ∧
  (∀ (r : MgmtReq) (s : State), InBand s r →
    (r.cmd = 7 → exec (.teardownJob .inband) s = .next (answered ((taking s r).teardownJob true (r.arg % 4096)) r 0 none)) ∧
    (r.cmd = 8 → s.isMaster = false → (taking s r).treeEntry (r.arg % 65536) = none →
      exec (.treeStop .inband) s = .next (answered (taking s r) r 0 none))) ∧
  (∀ (j : BitVec 12) (s : State), s.cgc.jobsDown = [j.toNat] → s.job j.toNat = none →
    Does (.teardownJobDone j) s (fun t => t.cgc.jobsDown = [] ∧ t.rd R.CGC_CMD_STAT_TEARDOWN_PENDING = 0 ∧
      Keeps s t [R.CGC_CMD_STAT_TEARDOWN_PENDING.key]))

/-- Quench, release, job teardown and tree stop commands, what quench bits hold, and throttling. -/
def Obligations.StopCommands : Prop := Sys2Proof.Claims.QuenchCommands ∧ Sys2Proof.Claims.QuenchBits ∧ Sys2Proof.Claims.Throttling ∧ Sys2Proof.Claims.JobTeardown

/-- STROBE and PROBE_SEND (R188, R199, R370, R388): a strobe command from either side enters the order, or is refused with BAD_ARG when its mask is
not legal; at the master of a stack an in-band one runs stack-wide. A probe goes to the module its argument names, and the command is answered with OK
at its admission; an argument with its reserved bits set is refused with BAD_ARG. -/
def Sys2Proof.Claims.StrobeAndProbeCommands : Prop :=
  (∀ (m : Master) (s : State), Reaches s m 0x800080 → s.rd R.CGC_CMD_STAT_BUSY = 0 → let a := s.rd R.CGC_CMD_ARG_ARG
    let b := (s.wr R.CGC_CMD_STAT_LAST_CMD 9).bump R.CGC_STOP_RX; let u := s.wr R.CGC_CMD_STAT_LAST_CMD 0x0A
    (s.rd R.GLB_STROBE_STAT_BUSY = 0 → maskOk a = true →
      exec (.strobe (.cmd m)) s = .next ((b.acceptStrobe a .cmd).wr R.CGC_CMD_STAT_BUSY 1)) ∧
    (s.rd R.GLB_STROBE_STAT_BUSY = 0 → maskOk a = false → exec (.strobe (.cmd m)) s = .next (b.wr R.CGC_CMD_STAT_RESULT 4)) ∧
    (s.rd R.GLB_STROBE_STAT_BUSY = 1 → exec (.strobe (.cmd m)) s = .next (b.wr R.CGC_CMD_STAT_RESULT 1)) ∧
    (bitsOf a 18 14 = 0 → exec (.probeSend (.cmd m)) s = .next ((u.sendProbe (bitsOf a 0 18)
      (bitsOf a 32 32 + m.id * 2 ^ 32) (probeMark none)).wr R.CGC_CMD_STAT_BUSY 1)) ∧
    (bitsOf a 18 14 ≠ 0 → exec (.probeSend (.cmd m)) s = .next (u.wr R.CGC_CMD_STAT_RESULT 4))) ∧
  (∀ (m : Master) (s : State), Reaches s m 0x800080 → s.rd R.CGC_CMD_STAT_BUSY = 1 →
    exec (.strobe (.cmd m)) s = .next (s.wr R.CGC_CMD_STAT_RESULT 1) ∧ exec (.probeSend (.cmd m)) s = .next (s.wr R.CGC_CMD_STAT_RESULT 1)) ∧
  (∀ (r : MgmtReq) (s : State), InBand s r →
    (r.cmd = 9 → s.rd R.GLB_STROBE_STAT_BUSY = 0 → s.stk.strobe = none → s.stk.commit = none →
      (maskOk r.arg = false → exec (.strobe .inband) s = .next (answered (taking s r) r 4 none)) ∧
      (maskOk r.arg = true → s.isMaster = true → exec (.strobe .inband) s = .next (((taking s r).beginStackStrobe r.arg (some r)).beginReq r)) ∧
      (maskOk r.arg = true → s.isMaster = false → exec (.strobe .inband) s = .next (((taking s r).acceptStrobe r.arg .inband).beginReq r))) ∧
    (r.cmd = 0x0A →
      (bitsOf r.arg 18 14 = 0 → exec (.probeSend .inband) s =
        .next (((taking s r).sendProbe (bitsOf r.arg 0 18) (bitsOf r.arg 32 32 + 2 * 2 ^ 32) (probeMark (some r))).beginReq r)) ∧
      (bitsOf r.arg 18 14 ≠ 0 → exec (.probeSend .inband) s = .next (answered (taking s r) r 4 none)))) ∧
  (∀ (x : LocalPkt) (s : State), x.dep = some (probeMark none) →
    s.probeAdmitted x = (s.wr R.CGC_CMD_STAT_BUSY 0).wr R.CGC_CMD_STAT_RESULT 0)

/-- MGMT_REQ_RX (R51, R191, R193 to R195): the next request, the oldest stop command or else the oldest of all, leaves the arbiter's queue and is
checked; a bad CRC counts; a slot not valid for its source, a false tag and a PSN not ahead of the last each count; with its tag, a PSN ahead and its
permission it is accepted. -/
def Sys2Proof.Claims.ManagementRequests : Prop :=
  ∀ (p : Pkt) (inp tm : Nat) (rest : List (Pkt × Nat × Nat)) (s : State), s.rd R.FLT_ARB_STAT_STATE = 0 →
    nextMgmt s.arbIn = some ((p, inp, tm), rest) → s.pwr.warmAt = none →
    let counts := fun (c : FRef) => Does .mgmtReqRx s (fun t => t.arbIn = rest ∧ t.rd c = (s.rd c + 1) % 2 ^ c.width ∧ Keeps s t [c.key])
    let slot := p.keyId < 16 ∧ s.rd (R.CGC_KEY_SLOT_VALID p.keyId) = 1 ∧ s.rd (R.CGC_KEY_SLOT_SRC_FA p.keyId) = p.srcFa ∧
      (s.rd (R.CGC_KEY_SLOT_ROLE p.keyId) = 1 → s.inStack = true)
    let last := s.rd (R.CGC_KEY_PSN_LAST_RX_PSN p.keyId)
    let ahead := (p.psn + 2 ^ 32 - last) % 2 ^ 32
    (crcOk p = false → exec .mgmtReqRx s = .next (((s.withArbIn rest).bump R.CGC_E2E_CRC).e2eFail 714)) ∧
    (crcOk p = true → exec .mgmtReqRx s = .next ((s.withArbIn rest).checkReq p inp) ∧
      (¬ slot → counts R.CGC_AUTH_NOKEY) ∧
      (slot → pktTag (s.slotKey p.keyId) p ≠ p.gmac →
        exec .mgmtReqRx s = .next (((s.withArbIn rest).bump R.CGC_AUTH_FAIL).fault 714 0x0B04 0 3)) ∧
      (slot → pktTag (s.slotKey p.keyId) p = p.gmac → ahead = 0 ∨ 2 ^ 31 ≤ ahead → counts R.CGC_AUTH_REPLAY) ∧
      (∀ b : Nat, slot → s.rd (R.CGC_KEY_SLOT_ROLE p.keyId) = 0 → s.isMaster = false → pktTag (s.slotKey p.keyId) p = p.gmac →
        0 < ahead → ahead < 2 ^ 31 → s.permOf p.cmd = some b → bitOf (s.rd (R.CGC_KEY_SLOT_PERM p.keyId)) b = true →
        Does .mgmtReqRx s (fun t => t.arbIn = rest ∧ t.cgc.reqs = s.cgc.reqs ++ [reqOf p inp] ∧
          t.rd (R.CGC_KEY_PSN_LAST_RX_PSN p.keyId) = p.psn ∧
          t.rd R.CGC_STOP_RX = (if isStop p.cmd then (s.rd R.CGC_STOP_RX + 1) % 2 ^ R.CGC_STOP_RX.width else s.rd R.CGC_STOP_RX) ∧
          Keeps s t [(R.CGC_KEY_PSN_LAST_RX_PSN p.keyId).key, R.CGC_STOP_RX.key])))

/-- MGMT_RESP_RX (R51, R196, R365): the oldest response leaves the arbiter's queue. At service 0 it is discarded and counted; at service 3 a bad CRC
counts, and one under the module's own slot with its tag answers the request of that PSN and command. -/
def Sys2Proof.Claims.ManagementResponses : Prop :=
  ∀ (p : Pkt) (inp tm : Nat) (rest : List (Pkt × Nat × Nat)) (s : State), takeArb (fun p => p.opcode == 0x81) s.arbIn = some ((p, inp, tm), rest) →
    (faService p.destFa ≠ 3 → Does .mgmtRespRx s (fun t => t.arbIn = rest ∧
      t.rd R.CGC_MGMT_RESP_DISC = (s.rd R.CGC_MGMT_RESP_DISC + 1) % 2 ^ R.CGC_MGMT_RESP_DISC.width ∧
      Keeps s t [R.CGC_MGMT_RESP_DISC.key])) ∧
    (faService p.destFa = 3 → s.rd R.FLT_ARB_STAT_STATE = 0 →
      (crcOk p = false → exec .mgmtRespRx s = .next (((s.withArbIn rest).bump R.CGC_E2E_CRC).e2eFail 714)) ∧
      (crcOk p = true → p.keyId = s.ownSlot → s.rd (R.CGC_KEY_SLOT_VALID p.keyId) = 1 → pktTag (s.slotKey p.keyId) p = p.gmac →
        ∀ x : StkReq, s.stk.sent.find? (fun x => x.psn == p.arg / 2 ^ 32 && x.cmd == p.cmd) = some x →
        exec .mgmtRespRx s = .next ((s.withArbIn rest).stkResponse x (p.arg % 256) (reqValue p) (p.ptype && p.len == 8))) ∧
      (crcOk p = true → p.keyId ≠ s.ownSlot ∨ s.rd (R.CGC_KEY_SLOT_VALID p.keyId) ≠ 1 ∨ pktTag (s.slotKey p.keyId) p ≠ p.gmac ∨
          s.stk.sent.find? (fun x => x.psn == p.arg / 2 ^ 32 && x.cmd == p.cmd) = none →
        exec .mgmtRespRx s = .next (s.withArbIn rest)))

/-- PROBE_RX and PROBE_ECHO_RX (R51, R198): a probe from a service 0 is counted and its echo handed to local input 2, and one from elsewhere is
discarded and counted; an echo fills the CGC_PROBE_LAST registers; a bad CRC counts. -/
def Sys2Proof.Claims.ProbeResponder : Prop :=
  ∀ (p : Pkt) (inp tm : Nat) (rest : List (Pkt × Nat × Nat)) (s : State), takeArb (fun p => p.cls == 5) s.arbIn = some ((p, inp, tm), rest) →
    (crcOk p = false → ∀ c ∈ [(0xA0, Instr.probeRx), (0xA1, .probeEchoRx)], p.opcode = c.1 →
      exec c.2 s = .next (((s.withArbIn rest).bump R.CGC_E2E_CRC).e2eFail 714)) ∧
    (crcOk p = true → p.opcode = 0xA0 → faSvc p.srcFa = false ∨ faService p.srcFa ≠ 0 →
      Does .probeRx s (fun t => t.arbIn = rest ∧ t.rd R.CGC_PROBE_DISC = (s.rd R.CGC_PROBE_DISC + 1) % 2 ^ R.CGC_PROBE_DISC.width ∧
        Keeps s t [R.CGC_PROBE_DISC.key])) ∧
    (crcOk p = true → p.opcode = 0xA0 → faSvc p.srcFa = true → faService p.srcFa = 0 →
      Does .probeRx s (fun t => t.arbIn = rest ∧ t.rd R.CGC_PROBE_RX = (s.rd R.CGC_PROBE_RX + 1) % 2 ^ R.CGC_PROBE_RX.width ∧
        (∃ x : LocalPkt, t.localQ 2 15 = s.localQ 2 15 ++ [x] ∧ x.pkt.destFa = p.srcFa ∧ x.pkt.probeId = p.probeId ∧ x.pkt.opcode = 0xA1 ∧
          x.pkt.txTime = p.txTime ∧ x.pkt.rxTime = tm % 2 ^ 64) ∧
        Keeps s t [R.CGC_PROBE_RX.key, waitKey 2])) ∧
    (crcOk p = true → p.opcode = 0xA1 → Does .probeEchoRx s (fun t => t.arbIn = rest ∧ t.rd R.CGC_PROBE_LAST0_PROBE_ID = p.probeId ∧
      t.rd R.CGC_PROBE_LAST1_TX_TIME = p.txTime ∧ t.rd R.CGC_PROBE_LAST2_RX_TIME = p.rxTime ∧
      t.rd R.CGC_PROBE_LAST3_ARRIVAL = tm % 2 ^ R.CGC_PROBE_LAST3_ARRIVAL.width ∧ t.rd R.CGC_PROBE_LAST4_ECHO_SRC = p.srcFa ∧
      t.rd R.CGC_PROBE_ECHO_RX = (s.rd R.CGC_PROBE_ECHO_RX + 1) % 2 ^ R.CGC_PROBE_ECHO_RX.width ∧
      Keeps s t [R.CGC_PROBE_LAST0_PROBE_ID.key, R.CGC_PROBE_LAST1_TX_TIME.key, R.CGC_PROBE_LAST2_RX_TIME.key,
        R.CGC_PROBE_LAST3_ARRIVAL.key, R.CGC_PROBE_LAST4_ECHO_SRC.key, R.CGC_PROBE_ECHO_RX.key]))

/-- Strobe and probe commands, management packets and probes. -/
def Obligations.ManagementTraffic : Prop := Sys2Proof.Claims.StrobeAndProbeCommands ∧ Sys2Proof.Claims.ManagementRequests ∧ Sys2Proof.Claims.ManagementResponses ∧ Sys2Proof.Claims.ProbeResponder

/-- REG_READ, REG_WRITE, and RELAY_READ, RELAY_WRITE, MEMBER_READ and MEMBER_WRITE of the member itself (R188, R196, R367, R368): the access is the
fabric manager's, and its data and result go into the response; a write without eight bytes of data is refused with BAD_ARG. -/
def Sys2Proof.Claims.InBandAccesses : Prop :=
  ∀ (r : MgmtReq) (s : State), InBand s r → let u := taking s r; let a := r.arg % 2 ^ 26
    let read := answered (u.regRead 2 a 8).1 r 0 (some (u.regRead 2 a 8).2)
    (r.cmd = 0x10 → exec .regRead s = .next read) ∧
    (r.cmd = 0x11 → r.data = true → r.len = 8 → exec .regWrite s = .next (answered (u.regWrite .manager a 8 r.value) r 0 none)) ∧
    (r.cmd = 0x11 → (r.data = false ∨ r.len ≠ 8) → exec .regWrite s = .next (answered u r 4 none)) ∧
    (r.cmd / 4096 = 1 → r.cmd % 256 = 4 → r.data = true → r.len = 8 →
      exec .relayWrite s = .next (answered (((u.bump R.STK_RELAY_WRITES).regWrite .manager a 8 r.value).noteRelay a) r 0 none)) ∧
    (r.cmd / 4096 = 1 → r.cmd % 256 = 5 → exec .relayRead s = .next read) ∧
    (s.isMaster = true → bitsOf r.arg 32 4 = s.ownMember →
      (r.cmd = 0x12 → exec .memberRead s = .next read) ∧
      (r.cmd = 0x13 → r.data = true → r.len = 8 →
        exec .memberWrite s = .next (answered (u.regWrite .manager a 8 r.value) r 0 none)))

/-- In-band register accesses, relayed or for the member itself, act for the fabric manager and are answered. -/
def Obligations.AccessesInBand : Prop := Sys2Proof.Claims.InBandAccesses

/-- DOORBELL and HPT_ADMIN_DB (R207, R223, R229): a doorbell write to a function whose BAR0 takes it marks the work queues whose slots it touches
pending and counts them; one for a queue that does not exist is dropped and counted; the admin doorbell marks the admin queue. A write that the
function does not take is an Unsupported Request. -/
def Sys2Proof.Claims.Doorbells : Prop :=
  ∀ (f : Fin 512) (off : BitVec 22) (len : Fin 64) (s : State), let q := off.toNat / 64; let c := R.HPT_FN_DB (f.val / 128) (f.val % 128)
    let d := R.HPT_FN_DB_DROP (f.val / 128) (f.val % 128)
    (s.decodes f = false → exec (.doorbell f off len) s = .next (s.barDrop f) ∧ exec (.hptAdminDb f) s = .next (s.barDrop f)) ∧
    (s.decodes f = true → s.fnTeardown f = false → s.island (19 + f.val / 128) = 0 →
      (off.toNat % 64 + len.val < 64 → q < 65536 ∧
        (∀ k : Wq, s.wq f q = some k → k.qid ≠ adminQ → Does (.doorbell f off len) s (fun t => t.wq f q = some { k with pending := true } ∧
          t.rd c = (s.rd c + 1) % 2 ^ c.width ∧ Keeps s t [c.key])) ∧
        (s.wq f q = none → Does (.doorbell f off len) s (fun t => t.rd d = (s.rd d + 1) % 2 ^ d.width ∧ Keeps s t [d.key]))) ∧
      (64 ≤ off.toNat % 64 + len.val → ∀ k l : Wq, s.wq f q = some k → k.qid ≠ adminQ → s.wq f ((q + 1) % 65536) = some l → l.qid ≠ adminQ →
        Does (.doorbell f off len) s (fun t => t.wq f q = some { k with pending := true } ∧
          t.wq f ((q + 1) % 65536) = some { l with pending := true } ∧ t.rd c = (s.rd c + 2) % 2 ^ c.width ∧ Keeps s t [c.key])) ∧
      (∀ k : Wq, s.wq f adminQ = some k → Does (.hptAdminDb f) s (fun t => t.wq f adminQ = some { k with pending := true } ∧ Keeps s t []))) ∧
    (s.decodes f = true → s.fnTeardown f = true →
      Does (.hptAdminDb f) s (fun t => t.rd d = (s.rd d + 1) % 2 ^ d.width ∧ Keeps s t [d.key]))

/-- SERVE of a pending queue of a PF that is a bus master (R204, R212 to R214, R217, R229): a fresh read of an entry that is not owned, or one that
fails, ends the scan; an owned, well-formed entry of an open run is consumed: it gets the next entry number, joins its queue and counts, and the
position moves on; without a further answer the queue stays pending. -/
def Sys2Proof.Claims.Serving : Prop :=
  ∀ (f : Fin 512) (q : BitVec 17) (k : Wq) (s : State), let herr := R.HPT_HOST_ERR (f.val / 128)
    f.val % 128 = 0 → s.wq f q.toNat = some k → k.fn = f.val → k.qid = q.toNat → k.pending = true → k.state = 1 →
    s.fnTeardown f = false → s.busMaster f = true → s.fetchAllowed k = true → s.island 17 = 0 →
    (exec (.serve f q []) s = .next ((s.setPending f q.toNat false).setPending f q.toNat true)) ∧
    (∀ e ∈ [HostAns.ur, .ca, .poison, .timeout], Does (.serve f q [e]) s (fun t => t.wq f q.toNat = some { k with pending := false } ∧
      t.rd herr = (s.rd herr + 1) % 2 ^ herr.width ∧ Keeps s t [herr.key])) ∧
    (∀ bs : List (BitVec 8), let own := bitOf (fld (entOf bs) 63 1) 7
      (own ≠ k.phase → Does (.serve f q [.ok bs]) s (fun t => t.wq f q.toNat = some { k with pending := false } ∧ Keeps s t [])) ∧
      (own = k.phase → k.qid ≠ adminQ → s.malformed k (entOf bs) = none → 0 < k.runLen → s.rd R.PMON_SAMPLE_CFG_WORK_EN = 0 →
        Does (.serve f q [.ok bs]) s (fun t => t.nextWork = s.nextWork + 1 ∧ (t.workEnt s.nextWork).map WorkEnt.ent = some (entOf bs) ∧
          (t.wq f q.toNat).map (fun k => (k.pos, k.ents, k.pending)) = some ((k.pos + 1) % 2 ^ k.log, k.ents ++ [s.nextWork], true) ∧
          (let c := R.HPT_FN_FETCHED (f.val / 128) (f.val % 128); t.rd c = (s.rd c + 1) % 2 ^ c.width ∧ Keeps s t [c.key]))))

/-- NOP (R215 to R217): it completes with OK. Alone in an initiator queue of a PF and closing its run, its completion goes to the queue's completion
queue in the slot kept for it, and the entry is gone. -/
def Sys2Proof.Claims.NopCompletes : Prop :=
  ∀ (w : BitVec 32) (x : WorkEnt) (k : Wq) (s : State), let c := R.HPT_FN_CQE (x.fn / 128) (x.fn % 128)
    s.workEnt w.toNat = some x → fld x.ent 0 1 = 0 → x.qid ≠ adminQ → s.canBuild x = some k →
    exec (.nop w) s = .next ((s.stampWork w.toNat 0).finish w.toNat 0 0) ∧
    (∀ r : Ring, x.fin = none → x.opens = true → k.qid = x.qid → k.recv = false → k.ents = [w.toNat] → bitOf (fld x.ent 1 1) 0 = true →
      s.cqOf x.fn k.cq = some r → r.fn = x.fn → x.fn % 128 = 0 → s.trn.heldWr = [] →
      Does (.nop w) s (fun t => t.workEnt w.toNat = none ∧ t.rd c = (s.rd c + 1) % 2 ^ c.width ∧
        (t.cqOf x.fn k.cq).map (fun q => (q.next, q.used, q.reserved)) = some (r.next + 1, r.used + 1, r.reserved - 1) ∧
        (t.wq x.fn x.qid).map Wq.ents = some [] ∧ Keeps s t [c.key]))

/-- Doorbells, the scan of a pending work queue, and a NOP from its entry to its completion. -/
def Obligations.QueueEngine : Prop := Sys2Proof.Claims.Doorbells ∧ Sys2Proof.Claims.Serving ∧ Sys2Proof.Claims.NopCompletes

/-- ADMIN_ENABLE (R209, R223, R226, R231): enabling builds the admin queue and its completion queue at their bases and shows ADMIN_READY; disabling a
queue that its fresh read finds quiet removes them; one that is not quiet or holds an access stays. A write that the function does not take is an
Unsupported Request; in a teardown it has no effect. -/
def Sys2Proof.Claims.AdminQueue : Prop :=
  ∀ (f : Fin 512) (v : BitVec 64) (ans : HostAns) (s : State), let p := f.val / 128; let n := f.val % 128; let log := bitsOf v.toNat 0 4
    (s.decodes f = false → exec (.adminEnable f .full v ans) s = .next (s.barDrop f)) ∧
    (s.decodes f = true → s.fnTeardown f = true → exec (.adminEnable f .full v ans) s = .next s) ∧
    (s.decodes f = true → s.fnTeardown f = false →
    (s.rd (R.HPT_ADMIN_CFG_ENABLE p n) = 0 → v.toNat.testBit 4 = true → 6 ≤ log → log ≤ 12 →
      Does (.adminEnable f .full v ans) s (fun t => t.rd (R.HPT_ADMIN_CFG_ENABLE p n) = 1 ∧ t.rd (R.HPT_ADMIN_CFG_LOG_SIZE p n) = log ∧
        t.rd (R.HPT_ADMIN_CFG_VECTOR p n) = bitsOf v.toNat 16 11 ∧ t.rd (R.HPT_FN_STAT_ADMIN_READY p n) = 1 ∧
        t.rd (R.HPT_FN_STATUS_ADMIN_READY p n) = 1 ∧
        (t.wq f adminQ).map (fun k => (k.base, k.log, k.phase, k.pos)) = some (s.rd (R.HPT_ADMIN_WQ_BASE_BASE p n), log, true, 0) ∧
        (t.cqOf f 0).map (fun r => (r.base, r.log, r.next)) = some (s.rd (R.HPT_ADMIN_CQ_BASE_BASE p n), log, 0) ∧
        Keeps s t [(R.HPT_ADMIN_CFG_ENABLE p n).key, (R.HPT_ADMIN_CFG_LOG_SIZE p n).key, (R.HPT_ADMIN_CFG_VECTOR p n).key,
          (R.HPT_FN_STAT_ADMIN_READY p n).key, (R.HPT_FN_STATUS_ADMIN_READY p n).key])) ∧
    (∀ k : Wq, s.rd (R.HPT_ADMIN_CFG_ENABLE p n) = 1 → v.toNat.testBit 4 = false → s.wq f adminQ = some k →
      (s.ringHeld k = true → exec (.adminEnable f .full v ans) s = .next s) ∧
      (s.ringHeld k = false → ∀ u : State,
        (s.freshSlot k = (u, false) → exec (.adminEnable f .full v ans) s = .next u) ∧
        (s.freshSlot k = (u, true) → quiet k ans = false → exec (.adminEnable f .full v ans) s = .next (u.ringRead f ans)) ∧
        (s.freshSlot k = (u, true) → quiet k ans = true → exec (.adminEnable f .full v ans) s =
          .next (((((u.ringRead f ans).wr (R.HPT_ADMIN_CFG_ENABLE p n) 0).setWq f adminQ none).setCq f 0 none).showReady f false))) ∧
      (s.ringHeld k = false → k.fn = f.val → n = 0 → ∀ bs : List (BitVec 8), ans = .ok bs → quiet k ans = true →
        Does (.adminEnable f .full v ans) s (fun t => t.wq f adminQ = none ∧ t.cqOf f 0 = none ∧ t.rd (R.HPT_ADMIN_CFG_ENABLE p n) = 0 ∧
          t.rd (R.HPT_FN_STAT_ADMIN_READY p n) = 0 ∧
          Keeps s t [(R.HPT_ADMIN_CFG_ENABLE p n).key, (R.HPT_FN_STAT_ADMIN_READY p n).key, (R.HPT_FN_STATUS_ADMIN_READY p n).key]))))

/-- HPT_CQ_ACK and HPT_EQ_ACK (R217, R219, R222, R232): a whole write that names a ring frees its slots, and runs that waited for a slot of a
completion queue close; any other counts in HPT_FN_ACK_ERR. A write that the function does not take is an
Unsupported Request. -/
def Sys2Proof.Claims.Acknowledgements : Prop :=
  ∀ (f : Fin 512) (v : BitVec 64) (r r' : Ring) (s : State), let c := R.HPT_FN_ACK_ERR (f.val / 128) (f.val % 128)
    let h := bitsOf v.toNat 0 16
    (s.decodes f = false → ∀ w : Bool, exec (.hptCqAck f w v) s = .next (s.barDrop f) ∧ exec (.hptEqAck f w v) s = .next (s.barDrop f)) ∧
    (s.decodes f = true → s.fnTeardown f = false →
    (s.cqOf f h = some r → ackRing r (bitsOf v.toNat 16 20) (bitOf v.toNat 63) = some (r', false) →
      exec (.hptCqAck f true v) s = .next ((s.setCq f h (some r')).resumeRuns f h) ∧
      (s.wqs = [] → Does (.hptCqAck f true v) s (fun t => t.cqOf f h = some r' ∧ Keeps s t []))) ∧
    (s.eqOf f (bitsOf v.toNat 0 11) = some r → ackRing r (bitsOf v.toNat 16 16) (bitOf v.toNat 63) = some (r', false) →
      Does (.hptEqAck f true v) s (fun t => t.eqOf f (bitsOf v.toNat 0 11) = some r' ∧ Keeps s t [])) ∧
    (∀ i ∈ [Instr.hptCqAck f false v, .hptEqAck f false v], Does i s (fun t => t.rd c = (s.rd c + 1) % 2 ^ c.width ∧ Keeps s t [c.key])) ∧
    (s.cqOf f h = none → Does (.hptCqAck f true v) s (fun t => t.rd c = (s.rd c + 1) % 2 ^ c.width ∧ Keeps s t [c.key])) ∧
    (s.eqOf f (bitsOf v.toNat 0 11) = none → Does (.hptEqAck f true v) s (fun t => t.rd c = (s.rd c + 1) % 2 ^ c.width ∧ Keeps s t [c.key])))

/-- The admin queue is enabled and disabled, and acknowledgements free ring slots. -/
def Obligations.AdminQueuesAndAcks : Prop := Sys2Proof.Claims.AdminQueue ∧ Sys2Proof.Claims.Acknowledgements

/-- HOST_LINK_UP and VF_ENABLE_SET (R201, R205): an enabled host port in service comes up at the lower rate and width; VFs 1 to NumVFs exist once they
are enabled. -/
def Sys2Proof.Claims.HostPortsUp : Prop :=
  ∀ (p : Fin 4) (s : State),
    (∀ (gen : BitVec 3) (width : BitVec 5) (flit : Bool), s.rd (R.HPT_PORT_CFG_ENABLE p.val) = 1 → s.rd (R.HPT_PORT_STAT_LINK_UP p.val) = 0 →
      s.island (19 + p.val) < 2 → s.arb.stoppedUnits = [] → s.rd R.FLT_STATUS_RESET_REQ = 0 → s.rd R.PWR_CLK_STAT_HP_LOST = 0 →
      gen ≠ 0 → width.toNat ∈ [1, 2, 4, 8, 16] → let g := min gen.toNat (s.rd (R.HPT_PORT_CFG_MAX_GEN p.val))
      Does (.hostLinkUp p gen width flit) s (fun t => t.rd (R.HPT_PORT_STAT_LINK_UP p.val) = 1 ∧
        t.rd (R.HPT_PORT_STAT_GEN p.val) = g % 2 ^ (R.HPT_PORT_STAT_GEN p.val).width ∧
        t.rd (R.HPT_PORT_STAT_WIDTH p.val) = min width.toNat (if s.rd (R.HPT_PORT_CFG_MAX_X8 p.val) = 1 then 8 else 16) ∧
        t.rdB (R.HPT_PORT_STAT_FLIT p.val) = (flit || g == 6) ∧
        Keeps s t [(R.HPT_PORT_STAT_LINK_UP p.val).key, (R.HPT_PORT_STAT_GEN p.val).key, (R.HPT_PORT_STAT_WIDTH p.val).key,
          (R.HPT_PORT_STAT_FLIT p.val).key])) ∧
    (∀ n : BitVec 7, s.fnReach (128 * p.val) = true → n.toNat ≤ s.rd (R.HPT_PORT_CFG_TOTAL_VFS p.val) →
      s.rd (R.HPT_PORT_STAT_VF_ENABLE p.val) = 0 → (∀ i : Fin 128, s.fnTeardown (128 * p.val + i.val) = false) →
      Does (.vfEnableSet p n) s (fun t => t.rd (R.HPT_PORT_STAT_VF_ENABLE p.val) = 1 ∧
        t.rd (R.HPT_PORT_STAT_NUM_VFS p.val) = n.toNat % 2 ^ (R.HPT_PORT_STAT_NUM_VFS p.val).width ∧
        (∀ i : Fin 128, i.val < n.toNat → t.rd (R.HPT_FN_STAT_ENABLED p.val (i.val + 1)) = 1) ∧ t.mem = s.mem))

/-- HOST_READ_COMPLETION (R204, R272): an answer to no outstanding read counts as an unexpected completion; payload goes to its entry, which builds
what it may; the operands of a 128-bit compare-and-swap are kept with its entry; a read that fails completes its entry with status 10. Each wakes the engine complex. -/
def Sys2Proof.Claims.HostReads : Prop :=
  ∀ (p : Fin 4) (id : BitVec 32) (ans : HostAns) (s : State), let found := s.reads.find? (fun r => r.id == id.toNat && r.fn / 128 == p.val)
    (found = none → Does (.hostReadCompletion p id ans) s (fun t => let c := R.HPT_UNEXP_CPL p.val
      t.rd c = (s.rd c + 1) % 2 ^ c.width ∧ Keeps s t [c.key])) ∧
    (∀ r : HostRead, found = some r → let v := s.withReads (s.reads.filter (fun y => y.id != r.id)); let u := v.wake 17
      (∀ (w off len : Nat) (bs : List (BitVec 8)), r.why = .payload w off len → ans = .ok bs →
        exec (.hostReadCompletion p id ans) s = .next (u.payloadBack w off (squaresOf bs len) len)) ∧
      (∀ (cid epoch psn off len mlen : Nat) (bs : List (BitVec 8)), r.why = .piece cid epoch psn off len mlen → ans = .ok bs →
        exec (.hostReadCompletion p id ans) s = .next ((u.pieceBack cid epoch psn off mlen (squaresOf bs len)).keyDone r.key)) ∧
      (∀ w : Nat, r.why = .operand w ∨ (∃ off len : Nat, r.why = .payload w off len) → (∀ bs : List (BitVec 8), ans ≠ .ok bs) →
        exec (.hostReadCompletion p id ans) s = .next (((v.aerRead r.fn ans).wake 17).complete w 10 0 0)) ∧
      (∀ (w : Nat) (x : WorkEnt) (bs : List (BitVec 8)), r.why = .operand w → ans = .ok bs → s.workEnt w = some x → s.island 17 ≠ 1 →
        Does (.hostReadCompletion p id ans) s (fun t => t.reads = s.reads.filter (fun y => y.id != r.id) ∧
          t.workEnt w = some { x with held := SMap.put x.held 0 (squaresOf bs 32), readB := 32 } ∧ Keeps s t [])))

/-- A host port comes up, its VFs exist, and answers to host reads. -/
def Obligations.HostPorts : Prop := Sys2Proof.Claims.HostPortsUp ∧ Sys2Proof.Claims.HostReads

/-- PUT, GET, ATOMIC and FLUSH with one packet and no payload (R183, R273 to R277): the packet goes out under the connection's next PSN with the fields
its layout gives, and the entry has been built; a GET of nothing also records where it lands, for which
landing space is at hand. -/
def Sys2Proof.Claims.OneSidedWork : Prop :=
  ∀ (w : BitVec 32) (cid : Nat) (x : WorkEnt) (k : Wq) (c : Conn) (s : State),
    let rem := [(32, 8, fld x.ent 24 8), (40, 4, fld x.ent 20 4)]; let occ := [waitKey (inputOf c.fn [])]
    x.sent = 0 → x.issued = 0 → x.held = [] →
    (Builds s w.toNat 1 cid x k c → wlen x = 0 → s.mayStart c 0 = true → Does (.put w) s (fun t =>
      Sent s t w.toNat cid c (reqPkt s c 1 false (wevent x) (rem ++ [(48, 4, 0), (52, 4, 0), (56, 8, fld x.ent 32 8)])) ∧
      (t.workEnt w.toNat).map (fun y => (y.built, y.sent, y.fin)) = some (true, 1, none) ∧ Keeps s t occ)) ∧
    (Builds s w.toNat 2 cid x k c → wlen x = 0 → s.mayStart c 0 = true → s.landRoom 1 = true → Does (.get w) s (fun t =>
      Sent s t w.toNat cid c (reqPkt s c 2 true false (rem ++ [(52, 4, 0)])) ∧
      (t.conn cid).map Conn.landings = some (c.landings ++ [{ psn := c.nextPsn, work := w.toNat, off := 0, len := 0 }]) ∧
      (t.workEnt w.toNat).map (fun y => (y.built, y.sent, y.fin)) = some (true, 1, none) ∧ Keeps s t occ)) ∧
    (Builds s w.toNat 4 cid x k c → waux x ≠ 4 → (c.outst.filter (fun o => o.pkt.opcode == 5)).length < 8 →
      Does (.atomic w) s (fun t =>
        Sent s t w.toNat cid c (reqPkt s c 5 true false (rem ++ [(44, 4, waux x), (48, 8, fld x.ent 40 8), (56, 8, fld x.ent 32 8)])) ∧
        (t.workEnt w.toNat).map (fun y => (y.built, y.sent, y.fin)) = some (true, 1, none) ∧ Keeps s t occ)) ∧
    (Builds s w.toNat 5 cid x k c → s.earlier w.toNat = [] → Does (.flush w) s (fun t =>
      Sent s t w.toNat cid c (reqPkt s c 6 true false []) ∧
      (t.workEnt w.toNat).map (fun y => (y.built, y.sent, y.fin)) = some (true, 1, none) ∧ Keeps s t occ))

/-- A PUT of one packet with payload (R183, R204, R272, R273): while its window and the retransmission store have room, its whole payload is read from
the queue's own memory under a new read number. -/
def Sys2Proof.Claims.PayloadReads : Prop :=
  ∀ (w : BitVec 32) (cid : Nat) (x : WorkEnt) (k : Wq) (c : Conn) (s : State), Builds s w.toNat 1 cid x k c →
    0 < wlen x → wlen x ≤ 4096 → x.sent = 0 → x.issued = 0 → x.held = [] → x.readB = 0 → k.state = 1 →
    s.rd R.CGC_GRANT_CFG_GRANT_EN = 0 → s.mayFetch cid c (wlen x) = true → psnRoom c (1 + s.readsOf cid) = true → s.xpt.storeWait = [] →
    s.storeUsed + squaresFor (wlen x) ≤ s.storeSize → k.xctx = 0xFFFF → x.fn % 128 = 0 →
    (∀ i : Fin 16, s.rd (R.TRN_DWIN_BASE_ENABLE (x.fn / 128) i.val) = 0) →
    let r : HostRead := { id := s.nextRead, fn := x.fn, why := .payload w.toNat 0 (wlen x), addr := wladdr x, len := wlen x }
    Does (.put w) s (fun t => t.reads = s.reads ++ [r] ∧
      t.nextRead = s.nextRead + 1 ∧ t.workEnt w.toNat = some { x with issued := wlen x } ∧ Keeps s t [])

/-- SEND of a message of zero bytes, SVC without payload and LOCK (R65, R257, R296, R299, R316, R352, R353): the message takes its domain's next MSN and
goes out eager; the SVC_REQ and the LOCK_REQ go to the service number of the rank's module; a lock request takes the next REQ_ID. A rank that names no
function completes an SVC and a LOCK with RANK_INVALID. -/
def Sys2Proof.Claims.MessageWork : Prop :=
  ∀ (w : BitVec 32) (x : WorkEnt) (k : Wq) (s : State),
    (∀ (cid : Nat) (c : Conn) (d : Dom), Builds s w.toNat 3 cid x k c → wlen x = 0 → x.sent = 0 → x.issued = 0 → x.readB = 0 → x.held = [] →
      x.msn = none → s.earlier w.toNat = [] → s.domain x.fn (waux x) = some d → SMap.get 0 c.seqTx d.num ≠ 0 →
      s.mayStart c 0 = true → let msn := SMap.get 0 c.seqTx d.num - 1
      Does (.send w) s (fun t => Sent s t w.toNat cid c (reqPkt s c 3 true (wevent x) (msgArea x d msn 0)) ∧
        (t.conn cid).map (fun c => SMap.get 0 c.seqTx d.num) = some ((msn + 1) % 2 ^ 32 + 1) ∧
        (t.workEnt w.toNat).map (fun y => (y.built, y.msn, y.fin)) = some (true, some msn, none) ∧
        Keeps s t [waitKey (inputOf c.fn [])])) ∧
    (s.workEnt w.toNat = some x → x.qid ≠ adminQ → x.fin = none → x.built = false → x.dest = none → x.readB = 0 → s.canBuild x = some k →
      (s.resolveRank k.job (fld x.ent 4 4) = none →
        (wop x = 8 → exec (.svc w) s = .next ((s.stampWork w.toNat 0).complete w.toNat 8 0 0)) ∧
        (wop x = 6 → exec (.lock w) s = .next ((s.stampWork w.toNat 0).complete w.toNat 8 0 0))) ∧
      (∀ fa : Nat, s.resolveRank k.job (fld x.ent 4 4) = some fa →
        (wop x = 8 → wlen x = 0 → Does (.svc w) s (fun t => ∃ y : LocalPkt,
          let p := mkPkt { dest := faOfSvc (faModule fa) (waux x), src := s.fnFa x.fn, opcode := 0x0A, pin := true, event := wevent x } 0 (SMap.get [] x.held 0)
          y.pkt = p ∧ t.localQ (inputOf x.fn p.pay) p.vl = s.localQ (inputOf x.fn p.pay) p.vl ++ [y] ∧
          (t.workEnt w.toNat).map (fun y => (y.built, y.sent, y.fin)) = some (true, 1, none) ∧ Keeps s t [waitKey (inputOf x.fn p.pay)])) ∧
        (wop x = 6 → fld x.ent 20 1 = 0 → s.landRoom 1 = true → Does (.lock w) s (fun t => ∃ y : LocalPkt,
          let job := match s.job k.job with | some j => j.jobId | none => 0
          let p := mkPkt { dest := faOfSvc (faModule fa) 1, src := s.fnFa x.fn, opcode := 0x09, pin := true, psn := job }
            (mkArea [(32, 1, waux x / 256), (33, 1, waux x % 256), (34, 1, 0), (40, 8, fld x.ent 32 8), (48, 8, fld x.ent 40 8), (56, 4, s.lck.nextReq)]) []
          y.pkt = p ∧ t.localQ 0 p.vl = s.localQ 0 p.vl ++ [y] ∧ t.lck.nextReq = (s.lck.nextReq + 1) % 2 ^ 32 ∧
          (t.workEnt w.toNat).map (fun y => (y.reqId, y.lastTx, y.built)) = some (s.lck.nextReq, s.now, true) ∧ Keeps s t [waitKey 0]))))

/-- PUT, GET, ATOMIC, FLUSH, SEND, SVC and LOCK entries build their packets and send them in PSN order. -/
def Obligations.RequestsBuilt : Prop := Sys2Proof.Claims.OneSidedWork ∧ Sys2Proof.Claims.PayloadReads ∧ Sys2Proof.Claims.MessageWork

/-- RECV, PROBE and CANCEL (R294, R305, R310, R312): a receive that finds no unexpected message is posted with the domain's next stamp; one that finds
a rendezvous takes it, and one by handle takes the message held under it; a probe reports the oldest eligible message or a miss, and holds it when its
handle is written; a cancel that finds no posted receive of its USER reports a miss. -/
def Sys2Proof.Claims.ReceiveWork : Prop :=
  ∀ (w : BitVec 32) (x : WorkEnt) (k : Wq) (d : Dom) (s : State), s.domain x.fn (waux x) = some d → d.fn = x.fn →
    d.num = waux x → let u := s.stampWork w.toNat 0
    (Turn s w.toNat 0x10 x k → x.msg = none → x.started = false → fld x.ent 40 1 = 0 →
      (s.pickUnexp x.fn d.num w.toNat = none → s.postedCount < 16777216 → Does (.recv w) s (fun t =>
        t.domain x.fn (waux x) = some { d with nextStamp := (d.nextStamp + 1) % 2 ^ 64, posted := d.posted ++ [w.toNat] } ∧
        t.workEnt w.toNat = some { x with stamp := some d.nextStamp, started := true } ∧ Keeps s t [])) ∧
      (∀ (i : Nat) (m : Msg), s.pickUnexp x.fn d.num w.toNat = some (i, m) → i < 2 ^ 22 → m.rts = true → Does (.recv w) s (fun t =>
        let key := 2 ^ 22 + s.mtc.nextMsg
        t.msgOf i = none ∧ t.msgOf key = some { m with state := .matched, recv := some w.toNat, total := min m.mlen (fld x.ent 16 4) } ∧
        t.workEnt w.toNat = some { x with msg := some key, started := true } ∧
        t.rd R.MTC_UNEXP_TAKEN = (s.rd R.MTC_UNEXP_TAKEN + 1) % 2 ^ R.MTC_UNEXP_TAKEN.width ∧ Keeps s t [R.MTC_UNEXP_TAKEN.key]))) ∧
    (Turn s w.toNat 0x10 x k → x.msg = none → x.started = false → fld x.ent 40 1 = 1 → let i := fld x.ent 44 4 / 1024
      (s.msgOf i = none → exec (.recv w) s = .next (u.finish w.toNat 6 0)) ∧
      (∀ m : Msg, s.msgOf i = some m → m.state = .held → m.fn = x.fn → m.dom = d.num → SMap.get 0 s.mtc.gens i = fld x.ent 44 4 % 1024 → i < 2 ^ 22 →
        m.rts = true → Does (.recv w) s (fun t => let key := 2 ^ 22 + s.mtc.nextMsg
          t.msgOf i = none ∧ t.msgOf key = some { m with state := .matched, recv := some w.toNat, total := min m.mlen (fld x.ent 16 4) } ∧
          t.workEnt w.toNat = some { x with msg := some key, started := true } ∧ Keeps s t []))) ∧
    (Turn s w.toNat 0x11 x k → fld x.ent 40 1 = 0 →
      (s.pickUnexp x.fn d.num w.toNat = none → exec (.probe w) s = .next ((u.bump R.MTC_PROBE_MISS).finish w.toNat 6 0)) ∧
      (∀ (i : Nat) (m : Msg), s.pickUnexp x.fn d.num w.toNat = some (i, m) →
        exec (.probe w) s = .next ((u.bump R.MTC_PROBE_HIT).finish w.toNat 0 0 m.tag m.mlen m.src))) ∧
    (∀ (i : Nat) (m : Msg) (v : State), Turn s w.toNat 0x11 x k → fld x.ent 40 1 ≠ 0 → s.pickUnexp x.fn d.num w.toNat = some (i, m) →
      let r := ownReq x k 0 true; let put := u.place r [sqOfBytes (bytesLE (i * 1024 + SMap.get 0 s.mtc.gens i) 8)] 0 8
      (put = (v, .done) → exec (.probe w) s =
        .next (((v.setMsg i (some { m with state := .held })).bump R.MTC_PROBE_HIT).finish w.toNat 0 0 m.tag m.mlen m.src)) ∧
      (put = (v, .wait) → exec (.probe w) s = .next v) ∧
      (∀ f : XFault, put = (v, .fault f) → exec (.probe w) s = .next (v.localFault w.toNat r f))) ∧
    (Turn s w.toNat 0x12 x k → k.ents = [w.toNat] → x.stamp = none →
      exec (.cancel w) s = .next ((u.bump R.MTC_CANCEL_MISS).finish w.toNat 6 0)) ∧
    (∀ (v : Nat) (y : WorkEnt) (st : Nat), Turn s w.toNat 0x12 x k → k.ents = [v, w.toNat] → v ≠ w.toNat → x.stamp = none →
      s.workEnt v = some y → y.stamp = some st → fld y.ent 48 8 = fld x.ent 32 8 → y.fin = none → y.msg = none →
      s.domain y.fn (waux y) = some d →
      exec (.cancel w) s = .next ((((u.unpost d v).bump R.MTC_CANCELLED).finish v 14 0).finish w.toNat 0 0))

/-- COLL (R330, R331): on a seated tree the entry takes its registration's next OPSEQ and its operation goes on; without a seated tree it completes
with status 16 and detail 10. -/
def Sys2Proof.Claims.CollectiveWork : Prop :=
  ∀ (w : BitVec 32) (x : WorkEnt) (s : State), s.colDown = [] → s.workEnt w.toNat = some x → wop x = 7 → x.qid ≠ adminQ → x.fin = none →
    s.fnTeardown x.fn = false →
    (s.treeEntry (waux x) = none → exec (.coll w) s = .next (s.finish w.toNat 16 10)) ∧
    (∀ m : Nat, s.treeEntry (waux x) = some m → s.treeState m ≠ 3 → exec (.coll w) s = .next (s.finish w.toNat 16 10)) ∧
    (∀ (m : Nat) (r : Reg), s.treeEntry (waux x) = some m → s.treeState m = 3 → x.opseq = none → s.earlier w.toNat = [] →
      s.regsOf (waux x) = [r] → r.fn = x.fn → SMap.get 0 (s.tree m).aborts r.next = 0 →
      exec (.coll w) s = .next ((((s.stampWork w.toNat 0).withRegs (SMap.set [] s.regs (waux x) [{ r with next := (r.next + 1) % 65536 }])).setWork w.toNat
        (some { x with opseq := some r.next })).pumpTree m))

/-- KEY_DRAIN_END (R298): after its drain a send key's generation has risen and its index is free. -/
def Sys2Proof.Claims.KeyDrains : Prop :=
  ∀ (i : BitVec 24) (m : Mr) (d : Nat) (s : State), s.mrOf i.toNat = some m → m.draining = some d → d ≤ s.now →
    Does (.keyDrainEnd i) s (fun t => t.mrOf i.toNat = none ∧ t.mrGen i.toNat = (s.mrGen i.toNat + 1) % 256 ∧
      t.xpt.freeMr = s.xpt.freeMr ++ [i.toNat] ∧ Keeps s t [])

/-- RECV, PROBE, CANCEL and COLL entries, and the drain of a send key. -/
def Obligations.ReceiveAndCollectiveWork : Prop := Sys2Proof.Claims.ReceiveWork ∧ Sys2Proof.Claims.CollectiveWork ∧ Sys2Proof.Claims.KeyDrains

/-- How an admin command of a PF ends (R218, R220, R223): its completion goes to the admin completion queue (completion queue 0) in the slot kept for
it, with the status, and the entry leaves the queue. -/
def Sys2Proof.Claims.AdminCompletion : Prop :=
  ∀ (f w : Nat) (x : WorkEnt) (k : Wq) (r : Ring) (a : Adm) (s : State), f < 512 → f % 128 = 0 → s.workEnt w = some x → x.fn = f → x.qid = adminQ →
    x.fin = none → s.wq f adminQ = some k → k.qid = adminQ → k.ents = [w] → s.cqOf f k.cq = some r → r.fn = f → s.trn.heldWr = [] →
    s.fnTeardown f = false → s.pmon.works = [] → let c := R.HPT_FN_CQE (f / 128) (f % 128); let t := s.adminEnd f w a
    t.workEnt w = none ∧ (t.wq f adminQ).map Wq.ents = some [] ∧
    (t.cqOf f k.cq).map (fun q => (q.next, q.used, q.reserved)) = some (r.next + 1, r.used + 1, r.reserved - 1) ∧
    t.rd c = (s.rd c + 1) % 2 ^ c.width ∧ Keeps s t [c.key] ∧
    (r.armed = false → let d := cqeBits { user := fld x.ent 48 8, tag := a.result, qid := adminQ, status := a.status, detail := a.detail }
      t.out.head? = some (.hostWrite (f / 128) (s.routingId f) (r.base + 32 * (r.next % 2 ^ r.log))
        [BitVec.ofNat 512 ((bytesLE (d % 2 ^ 248 + b2n (r.next / 2 ^ r.log % 2 == 0) * 2 ^ 255) 32).foldl (fun a b => a * 256 + b) 0 * 256 ^ 32)] 0 32))

/-- CREATE_WQ, CREATE_CQ, CREATE_EQ, CREATE_JOB and their DESTROYs, and RANK_WRITE (R64, R208, R209, R224, R226): with legal arguments, objects that
exist and room in the quota the object is created under the lowest free handle, or removed while nothing names it; a rank table's entries are written
from host memory. -/
def Sys2Proof.Claims.AdminObjects : Prop :=
  ∀ (f : Fin 512) (w g h : Nat) (x : WorkEnt) (k : Wq) (s : State),
    let e := x.ent; let c := fun (a : Nat) => AdminCmd s f a w x k g; let log5 := fld e 4 1 % 32; let b := fld e 4 1
    (c 0x01 → ∀ n : Nat, 6 ≤ b % 16 → fld e 8 8 % 4096 = 0 → fld e 16 2 ≠ 0 → (s.cqOf g (fld e 16 2)).isSome = true →
      (fld e 18 2 = 0xFFFF ∨ s.jobOk g (fld e 18 2) = true) → s.xctxOk g (fld e 20 2) = true → (s.wqList g).length < s.wqQuota g →
      s.choosePawn s.pawnWqs = some n → h < 65536 → Lowest (fun i => (s.wq g i).isNone) 0 h →
      let v : Wq := {
        fn := g, qid := h, recv := bitOf b 4, yellow := bitOf b 5, base := fld e 8 8, log := b % 16, cq := fld e 16 2, job := fld e 18 2
        xctx := fld e 20 2, pawn := n }
      Ends (.createWq f) s (s.setWq g h (some v)) f w (admOk (h + n * 2 ^ 16))) ∧
    (c 0x02 → ∀ (v : Wq) (r : Ring) (ans : HostAns), s.wq g (fld e 4 2) = some v → v.fn = g → v.state = 1 → v.ents = [] → s.ringHeld v = false → g % 128 = 0 →
      s.cqOf g v.cq = some r → quiet v ans = true →
      Ends (.destroyWq f ans) s ((((s.ringRead g ans).setCq g v.cq (some r)).dropFaults (fun r => r.ring && r.fn == g && r.qid == fld e 4 2)).setWq g
        (fld e 4 2) none) f w admOk) ∧
    (c 0x03 → 6 ≤ log5 → log5 ≤ 20 → fld e 8 8 % 4096 = 0 → (fld e 16 2 = 0xFFFF ∨ fld e 16 2 < 2048) → (s.cqList g).length < s.cqQuota g →
      h < 65536 → Lowest (fun i => (s.cqOf g i).isNone) 1 h →
      Ends (.createCq f) s (s.setCq g h (some { fn := g, h := h, base := fld e 8 8, log := log5, vector := fld e 16 2 })) f w (admOk h)) ∧
    (c 0x04 → ∀ r : Ring, s.cqOf g (fld e 4 2) = some r → s.writeHeld g r.base = false → (∀ v ∈ s.wqs, ∀ q, v.2 = some q → q.fn = g → q.cq ≠ fld e 4 2) →
      Ends (.destroyCq f) s (s.setCq g (fld e 4 2) none) f w admOk) ∧
    (c 0x05 → 6 ≤ log5 → log5 ≤ 16 → fld e 8 8 % 4096 = 0 → (fld e 16 2 = 0xFFFF ∨ fld e 16 2 < 2048) → (s.eqList g).length < s.eqQuota g →
      h < 2048 → Lowest (fun i => (s.eqOf g i).isNone) 0 h →
      Ends (.createEq f) s (s.setEq g h (some { fn := g, h := h, base := fld e 8 8, log := log5, vector := fld e 16 2 })) f w (admOk h)) ∧
    (c 0x06 → ∀ r : Ring, fld e 4 2 < 2048 → s.eqOf g (fld e 4 2) = some r → s.writeHeld g r.base = false → s.eqNamed g (fld e 4 2) = false →
      Ends (.destroyEq f) s (s.setEq g (fld e 4 2) none) f w admOk) ∧
    (c 0x07 → ∀ a : Nat, s.xctxOk g (fld e 12 2) = true → s.eqOk g (fld e 14 2) = true → (s.jobList g).length < s.jobQuota g →
      s.rankPlace (fld e 4 4) = some a → h < 4096 → Lowest (fun i => (s.job i).isNone) 0 h →
      let v : Job := {
        fn := g, jobId := fld e 8 4, entries := fld e 4 4, base := a, xctx := fld e 12 2
        eq := if fld e 14 2 = 0xFFFF then 0 else fld e 14 2 }
      Ends (.createJob f) s (s.withJobs (SMap.set none s.jobs h (some v))) f w (admOk (h + a * 2 ^ 16))) ∧
    (c 0x08 → ∀ j : Job, s.job (fld e 4 2) = some j → j.fn = g → (∀ v ∈ s.wqs, ∀ q, v.2 = some q → q.job ≠ fld e 4 2) →
      (∀ v ∈ s.mtc.doms, ∀ d, v.2 = some d → d.job ≠ fld e 4 2) → Ends (.destroyJob f) s (s.endJob (fld e 4 2) j) f w admOk) ∧
    (c 0x09 → ∀ (j : Job) (bs : List (BitVec 8)), let n := fld e 12 4
      1 ≤ n → n ≤ 512 → s.job (fld e 4 2) = some j → j.fn = g → fld e 8 4 + n ≤ j.entries → g % 128 = 0 → j.xctx = 0xFFFF →
      s.inWindow (g / 128) (fld e 16 8) = false → fld e 16 8 % 4096 + 8 * n ≤ 4096 → 8 * n ≤ bs.length →
      Ends (.rankWrite f [.ok bs]) s (s.writeRanks (j.base + 8 * fld e 8 4) ((bs.map BitVec.toNat).take (8 * n)) n) f w (admOk n))

/-- SET_VF_QUOTA, SET_COUNTER_ACCESS, QUERY_FN and FN_RESET (R206, R208, R224, R227): the quotas of a VF within its host port's share, the counters a
VF may read, what a function uses, and a teardown with cause 2 after the completion. -/
def Sys2Proof.Claims.AdminFunctions : Prop :=
  ∀ (f : Fin 512) (w g : Nat) (x : WorkEnt) (k : Wq) (s : State), let e := x.ent; let p := g / 128; let n := g % 128
    let c := fun (a : Nat) => AdminCmd s f a w x k g
    (c 0x0A → let t := (s.finish w 0 0).teardownFn 2 g; exec (.fnReset f) s = .next (if t.fnTeardown f then t else t.adminSettle 4097 f)) ∧
    (c 0x0B → n ≠ 0 → f.val % 128 = 0 → fld e 4 4 ≤ 65536 → fld e 10 2 ≤ 2048 → fld e 12 2 ≤ 4096 → s.wqList g = [] → s.cqList g = [] → s.eqList g = [] →
      s.jobList g = [] →
      let t := (((s.wr (R.HPT_FN_QUOTA_WQ p n) (fld e 4 4)).wr (R.HPT_FN_QUOTA_CQ p n) (fld e 8 2)).wr (R.HPT_FN_QUOTA_EQ p n) (fld e 10 2)).wr
        (R.HPT_FN_QUOTA_JOB p n) (fld e 12 2)
      let admins := ((List.range 128).filter (fun i => (s.cqOf (128 * p + i) 0).isSome)).length
      t.quotaSum (R.HPT_FN_QUOTA_WQ p) + (s.wqList (128 * p)).length ≤ s.rd (R.HPT_PORT_POOL_WQ p) →
      t.quotaSum (R.HPT_FN_QUOTA_CQ p) + (s.cqList (128 * p)).length + admins ≤ s.rd (R.HPT_PORT_POOL_CQ p) →
      t.quotaSum (R.HPT_FN_QUOTA_EQ p) + (s.eqList (128 * p)).length ≤ s.rd (R.HPT_PORT_POOL_EQ p) →
      t.quotaSum (R.HPT_FN_QUOTA_JOB p) + (s.jobList (128 * p)).length ≤ s.rd (R.HPT_PORT_CFG_JOB_POOL p) →
      Ends (.setVfQuota f) s t f w admOk) ∧
    (c 0x0C → f.val % 128 = 0 → Ends (.setCounterAccess f) s (s.wr (R.HPT_FN_STAT_COUNTERS_ALLOWED p n) (fld e 4 1 % 2)) f w admOk) ∧
    (c 0x0D → Ends (.queryFn f) s s f w (admOk ((s.wqList g).length + (s.cqList g).length * 2 ^ 17 + (s.eqList g).length * 2 ^ 34 +
      (s.jobList g).length * 2 ^ 46)))

/-- How admin commands end, and the commands that create, remove and query queues, jobs and quotas. -/
def Obligations.AdminObjectCommands : Prop := Sys2Proof.Claims.AdminCompletion ∧ Sys2Proof.Claims.AdminObjects ∧ Sys2Proof.Claims.AdminFunctions

/-- CREATE_XCTX, DESTROY_XCTX, INVALIDATE and its end, PAGE_RESUME, SET_DEVICE_WINDOW and SET_STAGE2 (R233, R235, R240, R246, R247, R250, R252, R254):
a context is created under the lowest free handle; a change of a mapping clears the caches and waits for the accesses in flight; the completion is
written when they have returned, and only then a device window applies. -/
def Sys2Proof.Claims.AdminTranslation : Prop :=
  ∀ (f : Fin 512) (w g h : Nat) (x : WorkEnt) (k : Wq) (s : State), let e := x.ent; let c := fun (a : Nat) => AdminCmd s f a w x k g
    (c 0x10 → g = f → fld e 16 4 ≤ 100000 → fld e 8 8 % 4096 = 0 → fld e 8 8 < 2 ^ 52 → s.eqOk f (fld e 20 2) = true → h < 1024 →
      s.trn.ctxs.length < 16384 → Lowest (fun i => (s.xctxOf f i).isNone) 0 h →
      let v : Xctx := {
        root := fld e 8 8, life := if fld e 16 4 = 0 then 10000 else fld e 16 4
        eq := if fld e 20 2 = 0xFFFF then 0 else fld e 20 2, odp := bitOf (fld e 22 1) 0 }
      Ends (.createXctx f) s (s.withTrn { s.trn with ctxs := SMap.set none s.trn.ctxs (f.val * 1024 + h) (some v) }) f w (admOk h)) ∧
    (c 0x11 → g = f → fld e 4 2 < 1024 → (s.xctxOf f (fld e 4 2)).isSome = true → s.xctxNamed f (fld e 4 2) = false →
      Does (.destroyXctx f) s (fun t => t.xctxOf f (fld e 4 2) = none ∧ t.rd R.TRN_STAT_INV_BUSY = 1 ∧ (t.wq f adminQ).map (fun k => k.inv.isSome) = some true ∧
        t.rd R.TRN_INVALIDATE = (s.rd R.TRN_INVALIDATE + 1) % 2 ^ R.TRN_INVALIDATE.width ∧ t.mem = s.mem ∧
        (∀ q ∈ t.trn.pages, ¬ (q.fn = f ∧ q.xctx = fld e 4 2)))) ∧
    (c 0x12 → g = f → fld e 4 2 < 1024 → fld e 6 1 = 1 → (s.xctxOf f (fld e 4 2)).isSome = true →
      Does (.invalidate f) s (fun t => t.rd R.TRN_STAT_INV_BUSY = 1 ∧ (t.wq f adminQ).map (fun k => k.inv.isSome) = some true ∧
        t.rd R.TRN_INVALIDATE = (s.rd R.TRN_INVALIDATE + 1) % 2 ^ R.TRN_INVALIDATE.width ∧
        (∀ l ∈ t.trn.shared, ∀ q ∈ l.2, ¬ (q.fn = f ∧ q.xctx = fld e 4 2)) ∧ Keeps s t [R.TRN_STAT_INV_BUSY.key, R.TRN_INVALIDATE.key])) ∧
    (∀ v : List Nat × List (Nat × Nat), s.wq f adminQ = some k → k.inv = some v → k.ents.head? = some w → s.workEnt w = some x →
      fld e 0 1 ≠ 0x21 → s.invOver v = true → let p := f.val / 128; let i := fld e 4 1
      let win := ((s.wr (R.TRN_DWIN_BASE_ENABLE p i) (fld e 5 1 % 2)).wr (R.TRN_DWIN_BASE_BASE p i) (fld e 8 8 / 4096)).wr (R.TRN_DWIN_SIZE_SIZE p i) (fld e 16 8)
      let t := (if fld e 0 1 = 0x14 then win else s).setWq f adminQ (some { k with inv := none })
      Ends (.invalidateDone f) s (t.wr R.TRN_STAT_INV_BUSY (b2n (t.wqs.any (fun q => match q.2 with
        | some y => y.inv.isSome && !(y.ents.head?.bind t.workEnt).any (fun z => fld z.ent 0 1 == 0x21)
        | none => false)))) f w admOk) ∧
    (c 0x13 → ∀ q : PageReq, g = f → fld e 8 1 ≤ 1 → s.trn.pages.find? (fun q => q.token == fld e 4 4 && q.fn / 128 == f.val / 128) = some q →
      q.fn = f → q.xctx ≠ 0xFFFF → q.waiters = [] →
      Ends (.pageResume f) s ((s.dropPages (fun x => x.token == fld e 4 4 && x.fn / 128 == f.val / 128)).bump R.TRN_PAGE_RESUME) f w admOk) ∧
    (c 0x13 → ∀ q : PageReq, f.val % 128 = 0 → fld e 8 1 ≤ 1 → s.trn.pages.find? (fun q => q.token == fld e 4 4 && q.fn / 128 == f.val / 128) = some q →
      q.xctx = 0xFFFF → q.fn = g → q.waiters = [] → Ends (.pageResume f) s
        (((s.dropPages (fun x => x.token == fld e 4 4 && x.fn / 128 == f.val / 128)).bump R.TRN_PAGE_RESUME).resumeRings g q.page) f w admOk) ∧
    (c 0x14 → g = f → f.val % 128 = 0 → let i := fld e 4 1; let p := f.val / 128
      i < 16 → fld e 8 8 % 4096 = 0 → fld e 16 8 ≠ 0 → fld e 16 8 % 4096 = 0 →
      Does (.setDeviceWindow f) s (fun t => t.rd R.TRN_STAT_INV_BUSY = 1 ∧ (t.wq f adminQ).map (fun k => k.inv.isSome) = some true ∧
        t.rd R.TRN_INVALIDATE = (s.rd R.TRN_INVALIDATE + 1) % 2 ^ R.TRN_INVALIDATE.width ∧ (∀ l ∈ t.trn.shared, ∀ q ∈ l.2, q.fn / 128 ≠ p) ∧
        Keeps s t [R.TRN_STAT_INV_BUSY.key, R.TRN_INVALIDATE.key])) ∧
    (c 0x15 → f.val % 128 = 0 → g % 128 ≠ 0 → fld e 16 4 ≤ 100000 → fld e 8 8 % 4096 = 0 → fld e 8 8 < 2 ^ 52 → s.rd (R.TRN_S2_CFG_ENABLE g) = 0 →
      Ends (.setStage2 f) s ((((s.wr (R.TRN_S2_ROOT_ROOT g) (fld e 8 8 / 4096)).wr (R.TRN_S2_CFG_LIFETIME_US g)
        (if fld e 16 4 = 0 then 10000 else fld e 16 4)).wr (R.TRN_S2_CFG_ODP g) (bitsOf (fld e 22 1) 0 1)).wr (R.TRN_S2_CFG_ENABLE g)
        (bitsOf (fld e 22 1) 1 1)) f w admOk)

/-- REG_MR, DEREG_MR, CREATE_DOMAIN, DESTROY_DOMAIN, REG_RESULT_BUF and DEREG_RESULT_BUF (R282, R283, R290, R291, R314, R329): a key's index and
generation; a domain with its defaults and its home pawn; a registration with the lowest free contributor index. -/
def Sys2Proof.Claims.AdminRegions : Prop :=
  ∀ (f : Fin 512) (w h : Nat) (x : WorkEnt) (k : Wq) (s : State), let e := x.ent; let c := fun (a : Nat) => AdminCmd s f a w x k f
    let eq := fun (v : Nat) => if v = 0xFFFF then 0 else v
    (c 0x20 → 0 < fld e 16 8 → fld e 8 8 + fld e 16 8 ≤ 2 ^ 48 → s.xctxOk f (fld e 4 2) = true → s.eqOk f (fld e 24 2) = true →
      let v : Mr := { fn := f, xctx := fld e 4 2, rights := fld e 6 1 % 8, addr := fld e 8 8, len := fld e 16 8, eq := eq (fld e 24 2) }
      (s.xpt.freeMr = [] → s.xpt.nextMr < 2 ^ 24 → Ends (.regMr f) s ((s.withXpt { s.xpt with nextMr := s.xpt.nextMr + 1 }).setMr s.xpt.nextMr (some v))
        f w (admOk (s.xpt.nextMr * 256 + s.mrGen s.xpt.nextMr))) ∧
      (∀ (i : Nat) (rest : List Nat), s.xpt.freeMr = i :: rest → Ends (.regMr f) s ((s.withXpt { s.xpt with freeMr := rest }).setMr i (some v))
        f w (admOk (i * 256 + s.mrGen i)))) ∧
    (c 0x21 → ∀ m : Mr, let i := fld e 4 4 / 256
      s.mrOf i = some m → m.fn = f → m.work = none → m.draining = none → s.mrGen i = fld e 4 4 % 256 → s.reads = [] → s.xpt.atomicOps = [] →
      Ends (.deregMr f) s (s.freeMrIdx i) f w admOk) ∧
    (c 0x28 → ∀ (j : Job) (n : Nat), (fld e 12 4 ≤ 262144 ∨ fld e 12 4 = 0xFFFFFFFF) → fld e 18 1 % 16 / 8 = 0 → s.domain f (fld e 4 2) = none → s.job (fld e 6 2) = some j → j.fn = f →
      s.eqOk f (fld e 16 2) = true → fld e 8 4 < j.entries → s.choosePawn s.pawnDoms = some n → s.mtc.doms.length < 262144 →
      let v : Dom := {
        fn := f, num := fld e 4 2, job := fld e 6 2, rank := fld e 8 4, eager := if fld e 12 4 = 0xFFFFFFFF then 16384 else fld e 12 4, eq := eq (fld e 16 2), handler := none
        srcUnexp := if fld e 20 4 = 0 then 4096 else fld e 20 4, srcEarly := if fld e 24 4 = 0 then 1024 else fld e 24 4
        domUnexp := if fld e 28 4 = 0 then 262144 else fld e 28 4, domMsgs := if fld e 32 4 = 0 then 65536 else fld e 32 4
        span := if fld e 36 1 = 0 then 64 else fld e 36 1, home := n }
      Ends (.createDomain f) s (s.setDom f (fld e 4 2) (some v)) f w (admOk n)) ∧
    (c 0x29 → ∀ d : Dom, s.domain f (fld e 4 2) = some d → d.posted = [] → s.liveMsgs = [] →
      Ends (.destroyDomain f) s ((s.dropSeq f (fld e 4 2)).setDom f (fld e 4 2) none) f w admOk) ∧
    (c 0x30 → ∀ m : Nat, let l := s.regsOf (fld e 4 2)
      0 < fld e 16 8 → fld e 16 8 ≤ 2 ^ 48 → s.treeEntry (fld e 4 2) = some m →
      (∃ j ∈ s.jobs, ∃ q, j.2 = some q ∧ q.fn = f ∧ q.jobId = bitsOf (s.rd (R.COL_TREE_B_ACT m)) 0 32) → bitOf (s.maskWord m 4) (f.val / 128) = true →
      s.xctxOk f (fld e 6 2) = true → s.eqOk f (fld e 24 2) = true → (∀ r ∈ l, r.fn ≠ f) → l.length < s.treeLocals m → h < 32 →
      Lowest (fun i => l.all (fun r => r.idx != i)) 0 h →
      let v : Reg := {
        fn := f, xctx := fld e 6 2, addr := fld e 8 8, len := fld e 16 8, eq := eq (fld e 24 2), idx := h
        next := (s.tree m).nextOp }
      Ends (.regResultBuf f) s (((s.wake 18).withRegs (SMap.set [] s.regs (fld e 4 2) (l ++ [v]))).showRegs (fld e 4 2)) f w (admOk h)) ∧
    (c 0x31 → ∀ r : Reg, s.regsOf (fld e 4 2) = [r] → r.fn = f → (∀ v ∈ s.work, ∀ y, v.2 = some y → y.fn = f → wop y = 7 → waux y ≠ fld e 4 2) →
      Ends (.deregResultBuf f) s ((s.withRegs (SMap.set [] s.regs (fld e 4 2) [])).showRegs (fld e 4 2)) f w admOk)

/-- The admin commands for translation contexts, regions, domains and result buffers. -/
def Obligations.AdminMemoryCommands : Prop := Sys2Proof.Claims.AdminTranslation ∧ Sys2Proof.Claims.AdminRegions

/-- What triggers a teardown (R227, R230): FLR with cause 1, VF Enable cleared or NumVFs changed with 3, D3hot to D0 with 4, the link down or a PERST
of 1 µs and more with 5, HPT_FN_TEARDOWN.START with 6; a shorter PERST does nothing. -/
def Sys2Proof.Claims.TeardownTriggers : Prop :=
  (∀ (f : Fin 512) (s : State), s.fnReach f = true →
    exec (.flr f) s = .next (s.teardownFn 1 f) ∧ exec (.d3hotToD0 f) s = .next (s.teardownFn 4 f)) ∧
  (∀ (p : Fin 4) (ns : BitVec 32) (s : State),
    (s.rd (R.HPT_PORT_STAT_LINK_UP p.val) = 1 → exec (.hostLinkDown p) s = .next (s.hostPortDown p)) ∧
    (1000 ≤ ns.toNat → exec (.hpPerst p ns) s = .next (s.hostPortDown p)) ∧
    (ns.toNat < 1000 → exec (.hpPerst p ns) s = .next s) ∧
    ((∀ n : Fin 128, s.rd (R.HPT_FN_STAT_ENABLED p.val n.val) = 0) → s.rd (R.HPT_PORT_STAT_LINK_UP p.val) = 1 →
      let t := s.hostPortDown p; let c := R.HPT_LINK_DOWN p.val
      t.rd (R.HPT_PORT_STAT_LINK_UP p.val) = 0 ∧ t.rd (R.HPT_PORT_STAT_GEN p.val) = 0 ∧ t.rd (R.HPT_PORT_STAT_WIDTH p.val) = 0 ∧
      t.rd c = (s.rd c + 1) % 2 ^ c.width ∧ Keeps s t [(R.HPT_PORT_STAT_LINK_UP p.val).key, (R.HPT_PORT_STAT_GEN p.val).key,
        (R.HPT_PORT_STAT_WIDTH p.val).key, (R.HPT_PORT_STAT_FLIT p.val).key, c.key])) ∧
  (∀ (m : Master) (f : Fin 512) (v : BitVec 64) (s : State), Reaches s m (0x910008 + 0x40000 * (f.val / 128) + 0x100 * (f.val % 128)) →
    exec (.hptFnTeardown m f .full v) s = .next (if v.toNat % 2 = 1 then s.teardownFn 6 f else s)) ∧
  (∀ (p : Fin 4) (n : BitVec 7) (s : State), s.fnReach (128 * p.val) = true → s.rd (R.HPT_PORT_STAT_VF_ENABLE p.val) = 1 →
    s.vfsOf p.val = [] → let pf := 128 * p.val
    Does (.vfEnableChange p false n) s (fun t => t.rd (R.HPT_PORT_STAT_VF_ENABLE p.val) = 0 ∧ t.rd (R.HPT_PORT_STAT_NUM_VFS p.val) = 0 ∧
      (t.fnSt pf).recreate = none ∧ Keeps s t [(R.HPT_PORT_STAT_VF_ENABLE p.val).key, (R.HPT_PORT_STAT_NUM_VFS p.val).key]) ∧
    (n.toNat ≠ (s.fnSt pf).recreate.getD (s.rd (R.HPT_PORT_STAT_NUM_VFS p.val)) → n.toNat ≤ s.rd (R.HPT_PORT_CFG_TOTAL_VFS p.val) →
      ((∃ i : Fin 128, s.fnTeardown (pf + i.val) = true) → Does (.vfEnableChange p true n) s (fun t =>
        t.rd (R.HPT_PORT_STAT_NUM_VFS p.val) = n.toNat ∧ (t.fnSt pf).recreate = some n.toNat ∧ Keeps s t [(R.HPT_PORT_STAT_NUM_VFS p.val).key])) ∧
      ((∀ i : Fin 128, s.fnTeardown (pf + i.val) = false) → Does (.vfEnableChange p true n) s (fun t =>
        t.rd (R.HPT_PORT_STAT_NUM_VFS p.val) = n.toNat ∧ (t.fnSt pf).recreate = none ∧
        (∀ i : Fin 128, i.val < n.toNat → t.rd (R.HPT_FN_STAT_ENABLED p.val (i.val + 1)) = 1) ∧
        Keeps s t ((R.HPT_PORT_STAT_NUM_VFS p.val).key :: (List.range n.toNat).map (fun i => (R.HPT_FN_STAT_ENABLED p.val (i + 1)).key))))))

/-- What a trigger does at once to a VF that holds nothing (R228, R230): TEARDOWN and CAUSE are shown, the teardown is counted, and no other register
but the counts of page requests and waiting packets and INV_BUSY, no lock and no byte of module memory changes; a trigger during a teardown is absorbed. -/
def Sys2Proof.Claims.TeardownBegins : Prop :=
  ∀ (f : Fin 512) (cause : Fin 7) (s : State), let p := f.val / 128; let n := f.val % 128
    n ≠ 0 → s.rd (R.HPT_FN_STAT_ENABLED p n) = 1 →
    (s.rd (R.HPT_FN_STAT_TEARDOWN p n) = 1 → s.teardownFn cause f = s) ∧
    (s.rd (R.HPT_FN_STAT_TEARDOWN p n) = 0 → s.work = [] → s.wqs = [] → s.xpt.conns = [] → s.xpt.mrs = [] → s.mtc.msgs = [] → s.regs = [] →
      s.trn.pages = [] → s.usedWords = [] → (s.fnSt f).peers = [] → s.xpt.atomicOps = [] → s.lin = [] → s.buf = [] →
      let t := s.teardownFn cause f; let c := R.HPT_TEARDOWNS p
      t.rd (R.HPT_FN_STAT_TEARDOWN p n) = 1 ∧ t.rd (R.HPT_FN_STATUS_TEARDOWN p n) = 1 ∧ t.rd (R.HPT_FN_TEARDOWN_ACTIVE p n) = 1 ∧
      t.rd (R.HPT_FN_STAT_CAUSE p n) = cause.val ∧ t.rd (R.HPT_FN_STATUS_CAUSE p n) = cause.val ∧ t.rd c = (s.rd c + 1) % 2 ^ c.width ∧
      (t.fnSt f).tornAt = some s.now ∧
      Keeps s t ((List.range 7).map waitKey ++ [(R.HPT_FN_STAT_TEARDOWN p n).key, (R.HPT_FN_STATUS_TEARDOWN p n).key,
        (R.HPT_FN_TEARDOWN_ACTIVE p n).key, (R.HPT_FN_STAT_CAUSE p n).key,
        (R.HPT_FN_STATUS_CAUSE p n).key, c.key, R.TRN_STAT_INV_BUSY.key, R.TRN_STAT_PENDING0.key, R.TRN_STAT_PENDING1.key, R.TRN_STAT_PENDING2.key,
        R.TRN_FAULT_INFO_PENDING3.key]))

/-- How a teardown ends (R228, R229): after 50 ms open tags are retired; with no tag open the function's queues are gone, TEARDOWN reads 0, and
LAST_US shows its length. -/
def Sys2Proof.Claims.TeardownEnds : Prop :=
  ∀ (f : Fin 512) (at_ : Nat) (s : State), let p := f.val / 128; let n := f.val % 128
    (s.fnSt f).tornAt = some at_ → s.fnTeardown f = true →
    (at_ + 50000000 ≤ s.now → Does (.teardownTagTimeout f) s (fun t => (t.fnSt f).tagsRetired = true ∧ (∀ r ∈ t.reads, r.fn ≠ f) ∧
      (∀ a ∈ t.xpt.atomicOps, a.cid / 2 ^ 48 ≠ f) ∧ Keeps s t [])) ∧
    (s.now < at_ + 50000000 → exec (.teardownTagTimeout f) s = .next s) ∧
    (n ≠ 0 → s.reads = [] → s.xpt.atomicOps = [] → s.xpt.flushOps = [] → (s.fnSt f).gone = false → s.eqOf (128 * p) 0 = none →
      (s.fnSt (128 * p)).recreate = none →
      Does (.teardownEnd f) s (fun t => t.rd (R.HPT_FN_STAT_TEARDOWN p n) = 0 ∧ t.rd (R.HPT_FN_STATUS_TEARDOWN p n) = 0 ∧
        t.rd (R.HPT_FN_STAT_ADMIN_READY p n) = 0 ∧ t.rd (R.HPT_FN_TEARDOWN_LAST_US p n) = min (2 ^ 24 - 1) ((s.now - at_) / 1000) ∧
        (∀ e ∈ t.wqs, e.1 / 131072 ≠ f) ∧ (∀ e ∈ t.cqs, e.1 / 65536 ≠ f) ∧ (∀ e ∈ t.eqs, e.1 / 2048 ≠ f) ∧ (t.fnSt f).tornAt = none))

/-- What triggers the teardown of a function, what it does at once, and how it ends. -/
def Obligations.FunctionTeardown : Prop := Sys2Proof.Claims.TeardownTriggers ∧ Sys2Proof.Claims.TeardownBegins ∧ Sys2Proof.Claims.TeardownEnds

/-- TRANSLATION_WALK of a PF's access through stage 1 with empty caches and no device window (R233, R237, R239, R242, R243, R248, R255): an entry
without VALID is a not-present fault that the access will find; four valid levels give a cached 4 KiB page with the leaf's attributes, and the
context's lifetime from the first read. -/
def Sys2Proof.Claims.TableWalks : Prop :=
  ∀ (r : XReq) (rest : List XReq) (c : Xctx) (s : State), let p := r.fn / 128
    s.trn.walks = r :: rest → r.fn % 128 = 0 → r.xctx ≠ 0xFFFF → r.pawn = none → r.ring = false → s.xctxOf r.fn r.xctx = some c →
    SMap.get [] s.trn.shared p = [] → SMap.get [] s.trn.walk p = [] → s.trn.micro = [] → s.trn.heldWr = [] →
    (∀ i : Fin 16, s.rd (R.TRN_DWIN_BASE_ENABLE p i.val) = 0) →
    let e := fun (bs : List (BitVec 8)) => leOf (bs.map BitVec.toNat) % 2 ^ 64
    (∀ bs : List (BitVec 8), e bs % 2 = 0 →
      let f : XFault := { kind := 1, stage2 := false, level := 0, addr := r.addr }
      Does (.translationWalk [.ok bs]) s (fun t => t.trn.walks = rest ∧ t.trn.faults = s.trn.faults ++ [(r, f)] ∧
        t.rd R.TRN_FAULT_NP = (s.rd R.TRN_FAULT_NP + 1) % 2 ^ R.TRN_FAULT_NP.width ∧ t.rd R.TRN_FAULT_INFO_DETAIL = 1 ∧
        t.rd R.TRN_FAULT_ADDR_ADDR = r.addr % 2 ^ R.TRN_FAULT_ADDR_ADDR.width)) ∧
    (∀ b0 b1 b2 b3 : List (BitVec 8), e b0 % 2 = 1 → e b1 % 4 = 1 → e b2 % 4 = 1 → e b3 % 2 = 1 → bitsOf (e b3) 2 5 &&& attrNeed r = attrNeed r →
      let x : XEnt := {
        fn := r.fn, xctx := r.xctx, base := r.addr - r.addr % 4096, log := 12, out := bitsOf (e b3) 12 40 * 4096
        fpa := bitsOf (e b3) 12 40 * 4096, attr := bitsOf (e b3) 2 5, expire := s.ns + c.life * 1000 }
      Does (.translationWalk [.ok b0, .ok b1, .ok b2, .ok b3]) s (fun t => t.trn.walks = rest ∧ SMap.get [] t.trn.shared p = [x] ∧
        t.trn.faults = s.trn.faults ∧ t.rd R.TRN_WALKS = (s.rd R.TRN_WALKS + 1) % 2 ^ R.TRN_WALKS.width ∧
        (SMap.get [] t.trn.walk p).map (fun w => (w.level, w.table)) = [(3, bitsOf (e b2) 12 40 * 4096), (2, bitsOf (e b1) 12 40 * 4096),
          (1, bitsOf (e b0) 12 40 * 4096)] ∧ Keeps s t [R.TRN_WALKS.key, R.TRN_WALK_READS.key, R.TRN_WALK_HIT.key]))

/-- CACHE_ENTRY_EXPIRE (R243): no entry of the host port past its lifetime stays in a cache, and no other entry leaves. -/
def Sys2Proof.Claims.CacheExpiry : Prop :=
  ∀ (p : Fin 4) (s : State), Does (.cacheEntryExpire p) s (fun t =>
    SMap.get [] t.trn.shared p = (SMap.get [] s.trn.shared p).filter (fun e => !(e.fn / 128 == p.val && decide (e.expire ≤ s.ns))) ∧
    Keeps s t [R.TRN_EXPIRED.key])

/-- Table walks through stage 1, and expiry of cached translations. -/
def Obligations.Translation : Prop := Sys2Proof.Claims.TableWalks ∧ Sys2Proof.Claims.CacheExpiry

/-- REQUEST_ARRIVE (R262, R265, R266, R281, R187): a packet for a function that is not live is answered with NAK_EPOCH; one of a context's epoch with
the expected PSN is carried out and accepted, and its ACKREQ brings an ACK with that PSN; a packet behind E is a duplicate: it is counted and
acknowledged again. -/
def Sys2Proof.Claims.RequestsArrive : Prop :=
  ∀ (fwd : Bool) (p : Pkt) (rest : List Pkt) (s : State), takePkt isXpt (if fwd then s.engFwd else s.engReq) = some (p, rest) →
    s.timeValid = true → crcOk p = true →
    let f := faFn p.destFa; let cid := cidOf f p.srcFa p.conn; let u := if fwd then s.withEngFwd rest else s.withEngReq rest
    let ack := fun (c : Conn) (psn : Nat) => mkPkt { dest := c.peer, src := s.fnFa c.fn, opcode := 0x40, pin := true, conn := c.conn, epoch := c.epoch, psn := psn }
      (mkArea (ackArea p.origin p.cstamp 0 0)) []
    (s.fnLive f = false → exec (.requestArrive fwd) s = .next (u.nakEpoch p)) ∧
    (∀ c : Conn, s.fnLive f = true → s.tombed cid p.epoch = false → s.conn cid = some c → c.lost = false → c.epoch = p.epoch → c.bitmap = [] → c.refusal = none →
      c.fn = f → c.peer = p.srcFa → c.conn = p.conn → c.inOp = [] → s.xpt.conns.length < 65536 →
      (p.opcode = 7 → p.ackreq = true → p.psn = c.e → c.e < 2 ^ 32 → Does (.requestArrive fwd) s (fun t =>
        (t.conn cid).map (fun d => (d.e, d.ackCount, d.ackFrom, d.bitmap)) = some ((c.e + 1) % 2 ^ 32, 0, none, []) ∧
        t.xpt.grantIn = s.xpt.grantIn ++ [(cid, p)] ∧ (if fwd then t.engFwd else t.engReq) = rest ∧
        ∃ y : LocalPkt, y.pkt = ack c c.e ∧ t.localQ 0 y.pkt.vl = s.localQ 0 y.pkt.vl ++ [y])) ∧
      (p.opcode = 1 → 2 ^ 31 ≤ (p.psn + 2 ^ 32 - c.e) % 2 ^ 32 → Does (.requestArrive fwd) s (fun t =>
        t.rd R.XPT_DUP_RX = (s.rd R.XPT_DUP_RX + 1) % 2 ^ R.XPT_DUP_RX.width ∧ (t.conn cid).map Conn.e = some c.e ∧
        (if fwd then t.engFwd else t.engReq) = rest ∧ Keeps s t [R.XPT_DUP_RX.key, R.XPT_ACK_TX.key, waitKey 0] ∧
        ∃ y : LocalPkt, y.pkt = ack c ((c.e + 2 ^ 32 - 1) % 2 ^ 32) ∧ t.localQ 0 y.pkt.vl = s.localQ 0 y.pkt.vl ++ [y])))

/-- ACK_RX, ACK_DELAY and REORDER_HOLD (R266, R267, R269, R271, R262): an ACK releases the packets up to its PSN that it may end; under no context of
its epoch it is stale; an ACK is due ACK_DELAY after the first acceptance it covers; a gap that stays brings NAK_SEQ. -/
def Sys2Proof.Claims.Acknowledging : Prop :=
  (∀ (p : Pkt) (rest : List Pkt) (s : State), takePkt (fun p => p.opcode == 0x40 || p.opcode == 0x41) s.engRep = some (p, rest) → crcOk p = true →
    let cid := cidOf (faFn p.destFa) p.srcFa p.conn
    (s.conn cid = none → exec .ackRx s = .next ((s.withEngRep rest).bump R.XPT_STALE_REPLY)) ∧
    (∀ c : Conn, s.conn cid = some c → c.lost = false → c.epoch = p.epoch → c.state = 2 → p.opcode = 0x40 → p.ackCode = 0 → s.xpt.conns.length < 65536 →
      (∀ o ∈ c.outst, o.pkt.opcode ≠ 8) → s.frozen c = false → c.frozenAt = none →
      Does .ackRx s (fun t => t.engRep = rest ∧
        (t.conn cid).map (fun d => d.outst) = some (c.outst.filter (fun o => o.answer || !psnLe o.psn p.psn)) ∧ Keeps s t []))) ∧
  (∀ (f : Fin 512) (peer : BitVec 32) (cn : BitVec 16) (c : Conn) (at_ : Nat) (s : State), let cid := cidOf f peer.toNat cn.toNat
    s.conn cid = some c → c.lost = false →
    (c.ackFrom = some at_ → at_ + c.ackDelay ≤ s.now → exec (.ackDelay f peer cn) s = .next (s.sendAck cid 0 0)) ∧
    (c.ackFrom = some at_ → s.now < at_ + c.ackDelay → exec (.ackDelay f peer cn) s = .next s) ∧
    (c.hold = some at_ → at_ + c.holdNs ≤ s.now → c.bitmap ≠ [] → c.refusal = none →
      exec (.reorderHold f peer cn) s =
        .next (((s.setConn cid (some { c with hold := some s.now, holdNs := s.reorderHold })).sendAck cid 1 0).bump R.XPT_NAK_SEQ_TX)) ∧
    (c.hold = some at_ → s.now < at_ + c.holdNs → exec (.reorderHold f peer cn) s = .next s))

/-- The target's host accesses and the unit's own commands (R272, R275, R276, R277, R289): an atomic's answer is cached, sent back as ATOMIC_RESULT
and accepted; a flush's read brings FLUSH_DONE; answers to nothing are unexpected completions; a wait for the store ends when there is room;
XPT_CONN_SEL keeps what is written. -/
def Sys2Proof.Claims.TargetAnswers : Prop :=
  (∀ (p : Fin 4) (ans : HostAns) (s : State), let c := R.HPT_UNEXP_CPL p.val
    (s.xpt.atomicOps.find? (fun o => o.port == p.val) = none → Does (.atomicComplete p ans) s (fun t => t.rd c = (s.rd c + 1) % 2 ^ c.width ∧ Keeps s t [c.key])) ∧
    (∀ (o : AtomicOp) (d : Conn) (bs : List (BitVec 8)), s.xpt.atomicOps = [o] → o.port = p.val → o.pkt.actl = 1 → ans = .ok bs → s.conn o.cid = some d → d.lost = false →
      d.epoch = o.epoch → d.bitmap = [] → d.refusal = none → d.inOp = [(o.pkt.psn, o.pkt)] → o.pkt.psn = d.e → d.e < 2 ^ 32 → o.pkt.ackreq = false →
      d.ackCount = 0 → 1 < s.rd R.XPT_ACK_CFG_ACK_COALESCE → o.cid = cidOf d.fn d.peer d.conn →
      let v := leOf (bs.map BitVec.toNat) % 2 ^ 64
      Does (.atomicComplete p ans) s (fun t => t.xpt.atomicOps = [] ∧
        (t.conn o.cid).map (fun x => (x.atomics, x.e, x.inOp, x.ackCount)) = some (((o.pkt.psn, v) :: d.atomics).take 8, (d.e + 1) % 2 ^ 32, [], 1) ∧
        ∃ y : LocalPkt, y.pkt = mkPkt { dest := d.peer, src := s.fnFa d.fn, opcode := 0x43, pin := true, conn := d.conn, epoch := d.epoch, psn := o.pkt.psn }
          (mkArea [(44, 4, 1), (48, 16, v)]) [] ∧ t.localQ 0 y.pkt.vl = s.localQ 0 y.pkt.vl ++ [y])) ∧
    (s.xpt.flushOps = [] → Does (.flushReadDone p) s (fun t => t.rd c = (s.rd c + 1) % 2 ^ c.width ∧ Keeps s t [c.key])) ∧
    (∀ (d : Conn) (psn : Nat), let cid := cidOf d.fn d.peer d.conn
      s.xpt.flushOps = [(cid, d.epoch, psn)] → cid / 2 ^ 48 / 128 = p.val → s.conn cid = some d → d.lost = false → s.island 17 ≠ 1 →
      Does (.flushReadDone p) s (fun t => t.xpt.flushOps = [] ∧ Keeps s t [waitKey 0] ∧
        ∃ y : LocalPkt, y.pkt = mkPkt { dest := d.peer, src := s.fnFa d.fn, opcode := 0x45, pin := true, conn := d.conn, epoch := d.epoch, psn := psn } (mkArea []) [] ∧
          t.localQ 0 y.pkt.vl = s.localQ 0 y.pkt.vl ++ [y]))) ∧
  (∀ (n : Fin 104) (k : Nat) (s : State), s.xpt.storeWait.find? (fun x => x.1 == n.val) = some (n.val, k) →
    (s.storeUsed + k ≤ s.storeSize → Does (.storeWaitEnd n) s (fun t => t.xpt = { s.xpt with storeWait := s.xpt.storeWait.filter (fun y => y.1 != n.val) } ∧
      Keeps s t [])) ∧
    (s.storeSize < s.storeUsed + k → exec (.storeWaitEnd n) s = .next s)) ∧
  (∀ (m : Master) (v : BitVec 64) (s : State), Reaches s m 0xB00040 → Does (.xptConnSel m .full v) s (fun t =>
    t.rd R.XPT_CONN_SEL_PEER_FA = bitsOf v.toNat 0 32 ∧ t.rd R.XPT_CONN_SEL_CONN = bitsOf v.toNat 32 16 ∧ t.rd R.XPT_CONN_SEL_FUNC = bitsOf v.toNat 48 9 ∧
    Keeps s t [R.XPT_CONN_SEL_PEER_FA.key, R.XPT_CONN_SEL_CONN.key, R.XPT_CONN_SEL_FUNC.key]))

/-- Requests in PSN order are carried out and acknowledged once, and the target answers. -/
def Obligations.ReliableDelivery : Prop := Sys2Proof.Claims.RequestsArrive ∧ Sys2Proof.Claims.Acknowledging ∧ Sys2Proof.Claims.TargetAnswers

/-- Retransmission (R270, R271, R272, R287): the oldest packet goes out again with RETX and ACKREQ and twice the timeout, until RETRY_MAX runs end the
connection with DETAIL 0x80; RETRY_US after a retry NAK its packet goes out again, or, while its builder is quenched or fabric time is not valid, once that ends; after NAK_RETRY_LIMIT the connection fails with the last code. -/
def Sys2Proof.Claims.Retransmission : Prop :=
  ∀ (f : Fin 512) (peer : BitVec 32) (cn : BitVec 16) (c : Conn) (s : State), let cid := cidOf f peer.toNat cn.toNat
    s.conn cid = some c → c.lost = false →
    (∀ psn due : Nat, c.nakRetry = some (2, psn, due) → due ≤ s.now → c.outst.filter (fun o => o.psn == psn) = [] → c.nakHeld = [] →
      exec (.retryUs f peer cn) s = .next (s.setConn cid (some { c with nakRetry := none }))) ∧
    (∀ (o : OutPkt) (due : Nat), c.nakRetry = some (2, o.psn, due) → due ≤ s.now → c.outst = [o] → c.nakHeld = [] →
      let held := s.timeValid = false ∨ s.quenched c.fn (o.job.getD 0xFFFF) = true
      (¬ held → exec (.retryUs f peer cn) s = .next ((s.setConn cid (some { c with nakRetry := none })).resend cid o false R.XPT_RETX_NAK)) ∧
      (held → exec (.retryUs f peer cn) s = .next (s.setConn cid (some { c with nakRetry := none, nakHeld := [o.psn] })))) ∧
    (s.frozen c = false → s.timeValid = true →
    (∀ (o : OutPkt) (l : List OutPkt), c.outst = o :: l → o.last + c.rto ≤ s.now →
      (c.retry + 1 < s.rd R.XPT_RTO_CFG_RETRY_MAX → exec (.retransmissionTimeout f peer cn) s =
        .next ((s.setConn cid (some { c with retry := c.retry + 1, rto := min (max s.rtoMax c.rto) (2 * c.rto) })).resend cid o false R.XPT_RETX_RTO)) ∧
      (s.rd R.XPT_RTO_CFG_RETRY_MAX ≤ c.retry + 1 → exec (.retransmissionTimeout f peer cn) s = .next (s.failConn cid 0x80 none))) ∧
    (∀ o : OutPkt, o ∈ c.outst → s.quenched c.fn (o.job.getD 0xFFFF) = false → let t := s.resend cid o false R.XPT_RETX_RTO
      t.rd R.XPT_RETX_RTO = (s.rd R.XPT_RETX_RTO + 1) % 2 ^ R.XPT_RETX_RTO.width ∧
      (∃ y : LocalPkt, y.pkt.retx = true ∧ y.pkt.ackreq = true ∧ y.pkt.psn = o.pkt.psn ∧ y.pkt.pay = o.pkt.pay ∧ y.fn = some c.fn ∧
        t.localQ 0 y.pkt.vl = s.localQ 0 y.pkt.vl ++ [y]) ∧
      (t.conn cid).map (fun d => d.outst.map OutPkt.last) = some (c.outst.map (fun x => if x.psn == o.psn then s.now else x.last))) ∧
    (∀ since : Nat, c.nakSince = some since → c.nakLimit ≠ 0 → since + c.nakLimit ≤ s.now →
       exec (.nakRetryLimit f peer cn) s = .next (s.failConn cid c.lastCode none)))

/-- How a connection ends (R261, R264, R287, R262): a quiet one sends CLOSE_REQ and closes; its CLOSE_ACK frees the context; a failure without work
frees it, shows it in XPT_LAST_FAIL, and leaves a tombstone of one age limit, which expires. -/
def Sys2Proof.Claims.ConnectionsEnd : Prop :=
  (∀ (f : Fin 512) (peer : BitVec 32) (cn : BitVec 16) (c : Conn) (s : State), let cid := cidOf f peer.toNat cn.toNat
    s.conn cid = some c → c.lost = false → c.state = 2 → s.connQuiet cid c = true → c.lastUse + c.idle ≤ s.now → s.timeValid = true → s.fnQuenched c.fn = false →
    Does (.idleClose f peer cn) s (fun t => (t.conn cid).map (fun d => (d.state, d.nextPsn, d.outst.map OutPkt.psn)) =
        some (3, (c.nextPsn + 1) % 2 ^ 32, [c.nextPsn]) ∧ Keeps s t [waitKey 0] ∧
      ∃ y : LocalPkt, y.pkt = mkPkt
        { dest := c.peer, src := s.fnFa c.fn, opcode := 8, pin := true, conn := c.conn, epoch := c.epoch, psn := c.nextPsn, ackreq := decide (s.effW c = 0) }
        (mkArea []) [] ∧ t.localQ 0 y.pkt.vl = s.localQ 0 y.pkt.vl ++ [y])) ∧
  (∀ (p : Pkt) (rest : List Pkt) (s : State), takePkt isAnswer s.engRep = some (p, rest) → crcOk p = true → let cid := cidOf (faFn p.destFa) p.srcFa p.conn
    (p.opcode ≠ 0x48 → s.conn cid = none → exec .replyArrive s = .next ((s.withEngRep rest).bump R.XPT_STALE_REPLY)) ∧
    (∀ c : Conn, p.opcode = 0x46 → s.conn cid = some c → c.lost = false → c.epoch = p.epoch → c.state = 3 → s.xpt.conns.length < 65536 →
      Does .replyArrive s (fun t => t.conn cid = none ∧ t.engRep = rest ∧
        t.rd R.XPT_CLOSE_IDLE = (s.rd R.XPT_CLOSE_IDLE + 1) % 2 ^ R.XPT_CLOSE_IDLE.width))) ∧
  (∀ (cid detail : Nat) (c : Conn) (s : State), s.conn cid = some c → s.work = [] → s.mtc.msgs = [] → c.outst = [] → s.eqOf c.fn 0 = none → s.tombFull = false →
    let t := s.failConn cid detail none
    t.conn cid = none ∧ t.rd R.XPT_CONN_FAILED = (s.rd R.XPT_CONN_FAILED + 1) % 2 ^ R.XPT_CONN_FAILED.width ∧
    t.rd R.XPT_LAST_FAIL_PEER_FA = c.peer % 2 ^ R.XPT_LAST_FAIL_PEER_FA.width ∧ t.rd R.XPT_LAST_FAIL_DETAIL = detail % 2 ^ R.XPT_LAST_FAIL_DETAIL.width ∧
    t.xpt.tombs = s.xpt.tombs ++ [{ cid := cid, epoch := c.epoch, until_ := s.now + s.ageLimit, ctx := false }]) ∧
  (∀ s : State, Does .tombstoneExpire s (fun t => t.xpt = { s.xpt with tombs := s.xpt.tombs.filter (fun x => decide (s.now < x.until_)) } ∧ Keeps s t []))

/-- Retransmission and its limits, and how a connection ends. -/
def Obligations.RetransmissionAndClose : Prop := Sys2Proof.Claims.Retransmission ∧ Sys2Proof.Claims.ConnectionsEnd

/-- ARRIVE of a rendezvous RTS in order (R299 to R304, R306): with an eligible posted receive it is matched; with none and room in the limits it
becomes unexpected; either way NEXT advances and the packet is accepted; without its domain it is refused with NAK_STAGING. -/
def Sys2Proof.Claims.MessagesArrive : Prop :=
  ∀ (cid : Nat) (p : Pkt) (rest : List (Nat × Pkt)) (c : Conn) (s : State), s.xpt.homeIn = (cid, p) :: rest → s.conn cid = some c → c.lost = false →
    c.epoch = p.epoch → p.opcode = 4 → c.bitmap = [] → c.refusal = none → c.inOp = [(p.psn, p)] → p.psn = c.e → c.e < 2 ^ 32 → p.ackreq = false →
    c.ackCount = 0 → 1 < s.rd R.XPT_ACK_CFG_ACK_COALESCE →
    (s.domain c.fn p.domain = none → exec .arrive s =
      .next (((s.bump R.MTC_NAK_NODOMAIN).withXpt { s.xpt with homeIn := rest }).refuse cid p 3 (max 1 (s.rd R.MTC_CFG_STAGE_RETRY_US)))) ∧
    (∀ d : Dom, s.domain c.fn p.domain = some d → d.fn = c.fn → d.num = p.domain → d.handler = none → SMap.get 0 c.seqRx d.num = p.msn + 1 → s.mtc.msgs = [] →
      let m : Msg := {
        cid := cid, epoch := c.epoch, fn := c.fn, dom := p.domain, msn := p.msn, src := p.srcRank, tag := p.tag, mlen := p.msgLen, rts := true
        rkey := p.msgOff, event := p.event, state := .matched, got := [0] }
      let adv := fun (t : State) => (t.conn cid).map (fun x => (SMap.get 0 x.seqRx d.num, x.e, x.inOp)) = some ((p.msn + 1) % 2 ^ 32 + 1, (c.e + 1) % 2 ^ 32, [])
      (∀ (w : Nat) (x : WorkEnt) (l : List Nat), d.posted = w :: l → s.workEnt w = some x → s.eligible w p.srcRank p.tag = true → Does .arrive s (fun t =>
        let key := 2 ^ 22 + s.mtc.nextMsg
        t.xpt.homeIn = rest ∧ adv t ∧ t.msgOf key = some { m with recv := some w, total := min p.msgLen (fld x.ent 16 4) } ∧
        (t.workEnt w).map WorkEnt.msg = some (some key) ∧ (t.domain c.fn p.domain).map Dom.posted = some (d.posted.filter (· != w)) ∧
        t.rd R.MTC_MATCH_POSTED = (s.rd R.MTC_MATCH_POSTED + 1) % 2 ^ R.MTC_MATCH_POSTED.width)) ∧
      (d.posted = [] → 0 < d.domMsgs → Does .arrive s (fun t => t.xpt.homeIn = rest ∧ adv t ∧
        t.msgOf 0 = some { m with state := .unexpected, order := s.mtc.nextOrder } ∧
        t.rd R.MTC_MATCH_UNEXP = (s.rd R.MTC_MATCH_UNEXP + 1) % 2 ^ R.MTC_MATCH_UNEXP.width)))

/-- GET_RDV_SEND (R298, R306, R187): a matched rendezvous whose landing range is translated asks for its next piece; when all is placed and its
receive is complete, the closing GET_RDV of length 0 goes out and the message is gone; ACKREQ stands in that packet, and in one that fills half of the
window. -/
def Sys2Proof.Claims.RendezvousPulls : Prop :=
  ∀ (m : BitVec 32) (g : Msg) (c : Conn) (s : State), s.msgOf m.toNat = some g → g.rts = true → g.state = .matched → s.conn g.cid = some c → c.lost = false →
    g.cid = cidOf c.fn c.peer c.conn → s.pullOk g g.cid c = true →
    let rdv := fun (off len : Nat) => reqPkt s c 0x20 true false [(32, 8, off), (40, 4, g.rkey), (52, 4, len)]
      (len == 0 || decide (s.effW c ≤ 2 * (inflight c + len)))
    let out := fun (t : State) (off len : Nat) => (∃ y : LocalPkt, y.pkt = rdv off len ∧ t.localQ 0 y.pkt.vl = s.localQ 0 y.pkt.vl ++ [y]) ∧
      (t.conn g.cid).map (fun d => d.outst.map OutPkt.psn) = some (c.outst.map OutPkt.psn ++ [c.nextPsn])
    (g.recv = none → g.pulled = g.total → (∀ y ∈ c.landings, y.msg ≠ some m.toNat) → Does (.getRdvSend m) s (fun t => out t g.asked 0 ∧ t.msgOf m.toNat = none ∧ Keeps s t [waitKey 0])) ∧
    (∀ (w : Nat) (x : WorkEnt) (k : Wq), g.recv = some w → s.workEnt w = some x → s.wq x.fn x.qid = some k → k.state = 1 → g.ready = true → g.asked < g.total →
      c.landings = [] → s.budgetOk (g.fn / 128) = true → g.fn = c.fn → let l := min (pieceSize (s.rd R.MTC_CFG_RDV_PIECE)) (g.total - g.asked)
      s.mayStart c l = true → s.landRoom 1 = true → Does (.getRdvSend m) s (fun t => out t g.asked l ∧ t.msgOf m.toNat = some { g with asked := g.asked + l } ∧
        (t.conn g.cid).map Conn.landings = some [{ psn := c.nextPsn, work := w, off := g.asked, len := l, msg := some m.toNat }]))

/-- HANDLER_INVOKE and HANDLER_OVERRUN of a SERVICE slot (R316, R317): the oldest request to its service is taken, counted and, on that verdict,
answered with the verdict's bytes as an SVC_RESP; what the handler writes lands in its own region of module memory and nowhere else; an overrun takes the
request without an answer and counts, the sixteenth of a window disables the slot. -/
def Sys2Proof.Claims.HandlerSlots : Prop :=
  ∀ (k : Fin 8) (p : Pkt) (rest : List Pkt) (s : State), s.rd (R.MTC_SLOT_VALID k.val) = 1 → s.rd (R.MTC_SLOT_HOOK k.val) = 1 →
    s.rd (R.MTC_SLOT_DISABLED k.val) = 0 → s.svcReq k.val = some (p, rest) → crcOk p = true →
    (∀ bs : List (BitVec 8), Does (.handlerInvoke k { verdict := .respond bs }) s (fun t => t.engReq = rest ∧
      (∃ y : LocalPkt, y.pkt = mkPkt { dest := p.srcFa, src := p.destFa, opcode := 0x48, pin := true, conn := p.conn, epoch := p.epoch, psn := p.psn } 0
        (toSquares 64 (bs.map BitVec.toNat)) ∧ t.localQ 0 y.pkt.vl = s.localQ 0 y.pkt.vl ++ [y]) ∧
      t.rd R.MTC_HANDLER_RUNS = (s.rd R.MTC_HANDLER_RUNS + 1) % 2 ^ R.MTC_HANDLER_RUNS.width ∧
      Keeps s t [R.MTC_HANDLER_RUNS.key, (R.MTC_SLOT_STAT_RUNS k.val).key, waitKey 0])) ∧
    (∀ v : Verdict, (∀ bs : List (BitVec 8), v ≠ .respond bs) → Does (.handlerInvoke k { verdict := v }) s (fun t => t.engReq = rest ∧ t.lin = s.lin ∧
      t.rd R.MTC_HANDLER_RUNS = (s.rd R.MTC_HANDLER_RUNS + 1) % 2 ^ R.MTC_HANDLER_RUNS.width ∧
      Keeps s t [R.MTC_HANDLER_RUNS.key, (R.MTC_SLOT_STAT_RUNS k.val).key])) ∧
    (∀ (a : BitVec 25) (v : BitVec 64), let b := s.handlerRegion k.val; let o := 8 * a.toNat
      Does (.handlerInvoke k { verdict := .silent, writes := [(a, v)] }) s (fun t =>
        (o < b.2 → t.mem = (s.setMemWord (b.1 + o) v.toNat).mem) ∧ (b.2 ≤ o → t.mem = s.mem))) ∧
    (let n := if s.mtc.overIdx = s.winIdx 1000000 then SMap.get 0 s.mtc.overRuns k.val + 1 else 1;
      n < 16 → Does (.handlerOverrun k) s (fun t => t.engReq = rest ∧ SMap.get 0 t.mtc.overRuns k.val = n ∧
        t.rd R.MTC_HANDLER_OVERRUN = (s.rd R.MTC_HANDLER_OVERRUN + 1) % 2 ^ R.MTC_HANDLER_OVERRUN.width ∧ t.rd (R.MTC_SLOT_DISABLED k.val) = 0)) ∧
    (s.mtc.overIdx = s.winIdx 1000000 → SMap.get 0 s.mtc.overRuns k.val = 15 → Does (.handlerOverrun k) s (fun t => t.rd (R.MTC_SLOT_DISABLED k.val) = 1))

/-- Arriving messages match posted receives or become unexpected; rendezvous pulls; handler slots. -/
def Obligations.MessageMatching : Prop := Sys2Proof.Claims.MessagesArrive ∧ Sys2Proof.Claims.RendezvousPulls ∧ Sys2Proof.Claims.HandlerSlots

/-- SEAT and UNSEAT (R16, R324, R325, R327, R337): a SEAT of an entry that is not INSTALLED reports 2 or 4; a root whose members are all local seats
at once when a rook and the partition have room, with TOTAL its contributors; UNSEAT reports 0, and its tree is INSTALLED again. -/
def Sys2Proof.Claims.Seating : Prop :=
  ∀ (mst : Master) (i : BitVec 12) (s : State), let m := i.toNat
    Reaches s mst 0xD00010 →
    (s.treeState m = 0 → Does (.seat mst i) s (fun t => t.rd R.COL_CMD_STAT_RESULT = 2 ∧ Keeps s t [R.COL_CMD_STAT_RESULT.key])) ∧
    (2 ≤ s.treeState m → Does (.seat mst i) s (fun t => t.rd R.COL_CMD_STAT_RESULT = 4 ∧ Keeps s t [R.COL_CMD_STAT_RESULT.key])) ∧
    (∀ r : Nat, s.treeState m = 1 → bitOf (s.treeA m) 16 = true → bitsOf (s.treeA m) 17 2 = 2 → s.children m = [] → s.maskPorts m = [] → 1 ≤ s.treeLocals m →
      bitOf (s.maskWord m 4) 4 = true →
      (∀ j : Fin 4096, j.val ≠ m → bitOf (s.treeA j.val) 16 = true → s.treeNum j.val ≠ s.treeNum m) → s.island 18 = 0 → (s.tree m).reported = false →
      s.pickRook = some r → s.treeWindow m ≤ s.rookFree r → s.treeUnits m ≤ s.partFree →
      Does (.seat mst i) s (fun t => t.rd R.COL_CMD_STAT_RESULT = 0 ∧ t.treeState m = 3 ∧ t.rd (R.COL_TREE_STAT_TOTAL m) = s.treeLocals m ∧
        t.rd (R.COL_TREE_STAT_SEAT_RESULT m) = 0 ∧ t.rd R.COL_SEAT_OK = (s.rd R.COL_SEAT_OK + 1) % 2 ^ R.COL_SEAT_OK.width ∧
        t.rookFree r = s.rookFree r - s.treeWindow m)) ∧
    (s.treeState m = 0 → Does (.unseat mst i) s (fun t => t.rd R.COL_CMD_STAT_RESULT = 2 ∧ Keeps s t [R.COL_CMD_STAT_RESULT.key])) ∧
    (s.treeState m = 3 → (s.tree m).op = none → (s.tree m).reserved = false → s.work = [] → Does (.unseat mst i) s (fun t =>
      t.rd R.COL_CMD_STAT_RESULT = 0 ∧ t.treeState m = 1 ∧ t.rd R.COL_UNSEAT = (s.rd R.COL_UNSEAT + 1) % 2 ^ R.COL_UNSEAT.width))

/-- The collective complex takes a tree's control packets (R326, R327, R337): a RESERVE is kept by its child and seating goes on, or unseats a seated
tree with reason 11; a CONFIRM seats with its TOTAL; a SEAT_FAIL ends the seating. -/
def Sys2Proof.Claims.SeatingPackets : Prop :=
  ∀ (p : Pkt) (inp m at_ fs : Nat) (s : State), s.colDown = [] → s.colIn = [{ pkt := p, inp := inp, bank := s.swc.treeBank, stamp := at_, fstamp := fs }] →
    crcOk p = true → s.treeEntry p.tree = some m →
    let u := (s.withColIn []).colTimeout m at_ fs
    (p.opcode = 0x62 → p.ctl = 1 → ∀ k : Nat, u.childOf m inp = some k →
      (u.treeState m ≠ 3 → exec .ctlReserve s = .next ((u.setTree m { u.tree m with
        reserves := (u.tree m).reserves.filter (fun r => r.1 != k) ++ [(k, p.contrib)] }).trySeat m)) ∧
      (u.treeState m = 3 → exec .ctlReserve s = .next (u.unseat m 11 u.moduleId none))) ∧
    (p.opcode = 0x63 → p.ctl = 1 → inp ≠ 257 → s.treeState m = 2 → (s.tree m).op = none → (s.tree m).reserved = true → Does .ctlConfirm s (fun t => t.colIn = [] ∧
      t.treeState m = 3 ∧ t.rd (R.COL_TREE_STAT_TOTAL m) = min (2 ^ 21 - 1) p.contrib ∧ t.rd (R.COL_TREE_STAT_SEAT_RESULT m) = 0 ∧
      t.rd R.COL_SEAT_OK = (s.rd R.COL_SEAT_OK + 1) % 2 ^ R.COL_SEAT_OK.width ∧ (t.tree m).rootFa = some p.srcFa ∧ (t.tree m).nextOp = 0)) ∧
    (p.opcode = 0x63 → p.ctl = 5 → inp ≠ 257 → s.treeState m = 2 → (s.tree m).op = none → s.rd (R.COL_TREE_STAT_SEAT_RESULT m) = 0 → (s.tree m).reserved = false →
      Does .ctlSeatFail s (fun t => t.colIn = [] ∧ t.treeState m = 1 ∧ t.rd (R.COL_TREE_STAT_SEAT_RESULT m) = 5 ∧
        t.rd R.COL_SEAT_FAIL = (s.rd R.COL_SEAT_FAIL + 1) % 2 ^ R.COL_SEAT_FAIL.width)) ∧
    (p.ctl = 4 → p.opcode = 0x62 → ∀ k : Nat, u.childOf m inp = some k → exec .ctlUnseat s = .next (u.unseat m p.contrib p.nchunk (some inp))) ∧
    (p.ctl = 4 → p.opcode = 0x63 → inp ≠ 257 → exec .ctlUnseat s = .next (u.unseat m p.contrib p.nchunk (some 256)))

/-- SEAT and UNSEAT and the control packets of seating. -/
def Obligations.TreeSeating : Prop := Sys2Proof.Claims.Seating ∧ Sys2Proof.Claims.SeatingPackets

/-- The packets of an operation (R331, R332, R345): up packets and ARRIVEs contribute, down packets, RELEASEs and CHUNK_DONEs advance it, an ABORT of
the open operation aborts it; one of no tree is stale; a contribution joins its slot with the first one's data or combined with it;
a packet that carries the other bank of the tree tables is taken on that bank (R389), and one whose stamp lies at or past a limit of the operation
comes after its timeout (R459). -/
def Sys2Proof.Claims.OperationPackets : Prop :=
  (∀ (p : Pkt) (inp m at_ fs : Nat) (s : State), s.colDown = [] → s.colIn = [{ pkt := p, inp := inp, bank := s.swc.treeBank, stamp := at_, fstamp := fs }] →
    crcOk p = true → s.treeEntry p.tree = some m → s.isNext m p = false → s.waitsDown m p = false →
    let u := (s.withColIn []).colTimeout m at_ fs
    (p.opcode = 0x62 → p.ctl = 2 → exec .ctlArrive s = .next (u.childIn p inp m false)) ∧
    (p.opcode = 0x63 → p.ctl = 2 → exec .ctlRelease s = .next (u.downIn p m false)) ∧
    (p.opcode = 0x63 → p.ctl = 6 → exec .ctlChunkDone s = .next (u.downIn p m false)) ∧
    (p.opcode = 0x60 → exec .collUpRx s = .next (u.childIn p inp m true)) ∧
    (p.opcode = 0x61 → exec .collDownRx s = .next (u.downIn p m true)) ∧
    (p.opcode = 0x63 → p.ctl = 3 → inp ≠ 257 → u.treeState m = 3 → (∀ o : CollOp, (u.tree m).op = some o → o.n = p.opseq →
      exec .ctlAbort s = .next ((u.abortOp m p.opseq p.contrib p.chunk p.nchunk true false (some 256)).pumpTree m)))) ∧
  (∀ (p : Pkt) (inp at_ fs : Nat) (s : State), s.colDown = [] → s.colIn = [{ pkt := p, inp := inp, bank := s.swc.treeBank, stamp := at_, fstamp := fs }] → crcOk p = true → s.treeEntry p.tree = none →
    Does .collUpRx s (fun t => t.colIn = [] ∧ t.rd R.COL_DISC_STALE = (s.rd R.COL_DISC_STALE + 1) % 2 ^ R.COL_DISC_STALE.width ∧
      Keeps s t [R.COL_DISC_STALE.key])) ∧
  (∀ (p : Pkt) (inp b m at_ fs : Nat) (s : State), s.colDown = [] → s.colIn = [{ pkt := p, inp := inp, bank := b, stamp := at_, fstamp := fs }] →
    crcOk p = true → b ≠ s.swc.treeBank → (s.swapBanks [3]).treeEntry p.tree = some m → s.isNext m p = false → s.waitsDown m p = false →
    let u := ((s.withColIn []).swapBanks [3]).colTimeout m at_ fs
    (p.opcode = 0x60 → exec .collUpRx s = .next ((u.childIn p inp m true).swapBanks [3])) ∧
    (p.opcode = 0x61 → exec .collDownRx s = .next ((u.downIn p m true).swapBanks [3])) ∧
    (p.opcode = 0x62 → p.ctl = 2 → exec .ctlArrive s = .next ((u.childIn p inp m false).swapBanks [3])) ∧
    (p.opcode = 0x63 → p.ctl = 2 → exec .ctlRelease s = .next ((u.downIn p m false).swapBanks [3]))) ∧
  (∀ (m q k c fl : Nat) (o : CollOp) (x : Slot) (data : List Nat) (s : State),
    (slotOf o q = none → (s.contribute m o q [k] [] data c fl).tree m =
      { s.tree m with op := some { o with slots := o.slots.filter (fun x => x.q != q) ++
        [{ q := q, since := s.winTime, sinceNow := s.now, base := s.time.epoch, kids := [k], data := data, contrib := c, flags := fl }] } }) ∧
    (slotOf o q = some x → x.kids ≠ [] → let r := collCombine (o.pass q).1 o.opmode o.ty x.data data
      (s.contribute m o q [k] [] data c fl).tree m = { s.tree m with op := some { o with slots := o.slots.filter (fun x => x.q != q) ++
        [{ x with kids := x.kids ++ [k], data := r.1, contrib := x.contrib + c, flags := x.flags ||| fl ||| r.2 }] } }))

/-- OPERAND_READ (R204, R334): an answer to no outstanding read counts; the bytes of an operand become the entry's contribution; an error completes an
entry without an open operation with HOST_ERROR. -/
def Sys2Proof.Claims.OperandReads : Prop :=
  ∀ (p : Fin 4) (id : BitVec 32) (s : State), s.colDown = [] → let c := R.HPT_UNEXP_CPL p.val
    (s.reads = [] → Does (.operandRead p id .ur) s (fun t => t.rd c = (s.rd c + 1) % 2 ^ c.width ∧ Keeps s t [c.key])) ∧
    (∀ (r : HostRead) (w q m : Nat) (x : WorkEnt) (o : CollOp), s.reads = [r] → r.id = id.toNat → r.fn / 128 = p.val → r.why = .coll w q →
      s.workEnt w = some x → s.treeEntry (waux x) = some m → (s.tree m).op = some o → o.kind = 2 → let len := (o.elems q).2 * elemSize o.ty
      (∀ bs : List (BitVec 8), bs.length = len → exec (.operandRead p id (.ok bs)) s = .next ((s.withReads []).operandBack w q (bs.map BitVec.toNat))) ∧
      (x.opseq ≠ some o.n → exec (.operandRead p id .ca) s = .next (((s.withReads []).aerRead r.fn .ca).finish w 10 0)))

/-- SEAT_TIMEOUT, START_TIMEOUT and CHUNK_TIMEOUT (R327, R343): nothing before the limit; at it a SEATING tree is unseated with result 3 and reason
11, and an operation is aborted with reason 1 before the down packet of sequence 0 and 2 after it. A slot's age counts fabric time while it is valid,
and local time across a change of its time base (log entry 125). -/
def Sys2Proof.Claims.CollectiveTimeouts : Prop :=
  ∀ (m : Fin 4096) (s : State), s.colDown = [] →
    (s.treeState m.val = 2 → let lim := max 1 (s.rd R.COL_CFG_SEAT_TIMEOUT) * 1000000
      ((s.tree m.val).seatAt + lim ≤ s.now → exec (.seatTimeout m) s =
        .next (((s.wr (R.COL_TREE_STAT_SEAT_RESULT m.val) 3).bump R.COL_SEAT_FAIL).unseat m.val 11 s.moduleId none)) ∧
      (s.now < (s.tree m.val).seatAt + lim → exec (.seatTimeout m) s = .next s)) ∧
    (∀ (o : CollOp) (x : Slot), (s.tree m.val).op = some o → o.slots = [x] →
      let age := if x.base = s.time.epoch then (if s.timeValid then s.ns else s.now) - x.since else s.now - x.sinceNow
      let chunk := if s.rd R.COL_CFG_CHUNK_TIMEOUT = 0 then 10 else s.rd R.COL_CFG_CHUNK_TIMEOUT
      (o.seen = [] → max 1 (s.rd R.COL_CFG_START_TIMEOUT) * 1000000 ≤ age → exec (.startTimeout m) s =
        .next (((s.bump R.COL_TIMEOUTS).abortHere m.val 1 x.q).pumpTree m.val)) ∧
      (o.seen = [] → age < max 1 (s.rd R.COL_CFG_START_TIMEOUT) * 1000000 → exec (.startTimeout m) s = .next s) ∧
      (o.seen = [0] → chunk * 1000 ≤ age → exec (.chunkTimeout m) s =
        .next (((s.bump R.COL_TIMEOUTS).abortHere m.val 2 x.q).pumpTree m.val)) ∧
      (o.seen = [0] → age < chunk * 1000 → exec (.chunkTimeout m) s = .next s))

/-- The packets of an operation, operand reads, and the timeouts of a tree. -/
def Obligations.CollectiveOperations : Prop := Sys2Proof.Claims.OperationPackets ∧ Sys2Proof.Claims.OperandReads ∧ Sys2Proof.Claims.CollectiveTimeouts

/-- What READ, CAS and CLEAR_ORPHAN answer and change (R348, R350, R351): a moved group 6, another operation 5, a refused access 4; READ gives the
word; CAS needs the compare value, the holder's identity and a swap of that identity or of none, and then writes the word; CLEAR_ORPHAN needs the
holder. -/
def Sys2Proof.Claims.LockOperations : Prop :=
  ∀ (w : Fin 65536) (lop cmp swap i job : Nat) (acc : Bool) (s : State), swap < 2 ^ 64 → i < 2 ^ 44 →
    let old := s.lockWord w.val; let r := s.lockOp w.val lop cmp swap i job acc
    r.2.old = old ∧ r.1.rd R.LCK_OPS = (s.rd R.LCK_OPS + 1) % 2 ^ R.LCK_OPS.width ∧
    (s.rd (R.LCK_GRP_CFG_MOVED (w.val / 256)) = 1 → r.2.status = 6) ∧
    (s.rd (R.LCK_GRP_CFG_MOVED (w.val / 256)) = 0 → 2 < lop → r.2.status = 5) ∧
    (lop ≤ 2 → s.rd (R.LCK_GRP_CFG_MOVED (w.val / 256)) = 0 → (acc = false → r.2.status = 4) ∧
      (acc = true → (lop = 0 → r.2.status = 0) ∧
        (lop = 1 → (old ≠ cmp → r.2.status = 1) ∧ (old = cmp → old % 2 ^ 44 ≠ 0 → old % 2 ^ 44 ≠ i → r.2.status = 2) ∧
          (old = cmp → (old % 2 ^ 44 = 0 ∨ old % 2 ^ 44 = i) → swap / 2 ^ 44 % 16 = 0 → (swap % 2 ^ 44 = 0 ∨ swap % 2 ^ 44 = i) →
            r.2.status = 0 ∧ r.1.lockWord w.val = swap)) ∧
        (lop = 2 → (old % 2 ^ 44 ≠ i → r.2.status = 2) ∧ (old % 2 ^ 44 = i → r.2.status = 0 ∧ r.1.orphanBit w.val = false)))) ∧
    (r.2.status ≠ 0 → r.1.lockWord w.val = old) ∧ (∀ v : Fin 65536, v ≠ w → r.1.lockWord v.val = s.lockWord v.val)

/-- Lock requests by packet and by register (R349, R350, R354, R355, R359): a request in time for a group that is here is executed and answered; a
group that has moved sends it on; too old a request, or one while fabric time is not valid or the
arbiter's processor is down, is counted; LCK_OP shows its result. -/
def Sys2Proof.Claims.LockRequests : Prop :=
  (∀ (fwd : Bool) (p : Pkt) (rest : List Pkt) (s : State),
    takePkt (fun p => p.opcode == (if fwd then 0x21 else 0x09) && faSvc p.destFa) (if fwd then s.engFwd else s.engReq) = some (p, rest) → crcOk p = true →
    let c := if fwd then exec .lockFwdRx s else exec .lockReqRx s
    let u := if fwd then s.withEngFwd rest else s.withEngReq rest
    let age := ageOf s.ns p.origin
    (s.timeValid = false → c = .next (u.bump R.SWC_AGE_UNCHECKED)) ∧
    (s.timeValid = true → s.lockStopped = true → c = .next (u.bump R.LCK_UNSERVED)) ∧
    (s.timeValid = true → s.lockStopped = false → s.reqAge < age → c = .next (u.bump R.LCK_AGED)) ∧
    (s.timeValid = true → s.lockStopped = false → age ≤ s.reqAge / 2 → (fwd = true ∨ p.lop = 3 ∨ p.lop = 4 ∨ s.rd (R.LCK_GRP_CFG_MOVED p.lockGroup) = 0) →
      let ans := Host.Outcome.next ((u.lockPacket p).1.lockResult p (u.lockPacket p).2); c = ans ∧
      (p.lop = 0 → ∀ w, exec (.read (.packet fwd) w) s = ans) ∧ (p.lop = 1 → ∀ w, exec (.cas (.packet fwd) w) s = ans) ∧
      (p.lop = 2 → ∀ w, exec (.clearOrphan (.packet fwd) w) s = ans) ∧ (p.lop = 3 → exec (.purgeFn fwd) s = ans) ∧
      (p.lop = 4 → exec (.purgeJob fwd) s = ans)) ∧
    (fwd = false → s.timeValid = true → s.lockStopped = false → age ≤ s.reqAge / 2 → p.lop ≤ 2 → s.rd (R.LCK_GRP_CFG_MOVED p.lockGroup) = 1 →
      exec .lockReqRx s = .next (u.lockFwd p (s.rd (R.LCK_GRP_CFG_HOME p.lockGroup))))) ∧
  (∀ (m : Master) (w : BitVec 16) (s : State), Reaches s m 0xE00008 → s.lockStopped = true →
    ∀ c ∈ [Instr.read (.reg m) w, .cas (.reg m) w, .clearOrphan (.reg m) w], exec c s = .next s) ∧
  (∀ (m : Master) (w : BitVec 16) (s : State), Reaches s m 0xE00008 → s.lockStopped = false →
    let r := fun (lop : Nat) => s.lockOp w.toNat lop (s.rd R.LCK_OP_COMPARE_COMPARE) (s.rd R.LCK_OP_SWAP_SWAP) (faOfSvc s.moduleId 0 + m.id * 2 ^ 32) 0 true
    let shows := fun (x : State × LockRes) (t : State) => t.rd R.LCK_OP_RESULT_STATUS = x.2.status % 2 ^ R.LCK_OP_RESULT_STATUS.width ∧
      t.rdB R.LCK_OP_RESULT_ORPHAN = x.2.orphan ∧ t.rd R.LCK_OP_OLD_OLD = x.2.old % 2 ^ 64 ∧
      Keeps x.1 t [R.LCK_OP_RESULT_STATUS.key, R.LCK_OP_RESULT_ORPHAN.key, R.LCK_OP_OLD_OLD.key]
    Does (.read (.reg m) w) s (shows (r 0)) ∧ Does (.cas (.reg m) w) s (shows (r 1)) ∧ Does (.clearOrphan (.reg m) w) s (shows (r 2)))

/-- LOCK_REQ_RX, LOCK_FWD_RX, READ, CAS, CLEAR_ORPHAN, PURGE_FN and PURGE_JOB complete (R349 to R351, R353 to R356): while fabric time is valid and the
arbiter's processor serves the unit, the lock request at the head of its class, whole and not too old, is carried out and answered with one LOCK_RESULT,
a LOCK_REQ where its group is here or it is a purge; and a write of LCK_OP shows the result of its operation. -/
def Sys2Proof.Claims.LockServiceCompletes : Prop :=
  (∀ (p : Pkt) (rest : List Pkt) (s : State), takePkt (fun p => p.opcode == 0x09 && faSvc p.destFa) s.engReq = some (p, rest) → crcOk p = true →
    s.timeValid = true → s.lockStopped = false → ageOf s.ns p.origin ≤ s.reqAge / 2 →
    p.lop = 3 ∨ p.lop = 4 ∨ s.rd (R.LCK_GRP_CFG_MOVED p.lockGroup) = 0 → let x := (s.withEngReq rest).lockPacket p
    exec .lockReqRx s = .next (x.1.lockResult p x.2) ∧
    (p.lop = 0 → ∀ w : BitVec 16, exec (.read (.packet false) w) s = .next (x.1.lockResult p x.2)) ∧
    (p.lop = 1 → ∀ w : BitVec 16, exec (.cas (.packet false) w) s = .next (x.1.lockResult p x.2)) ∧
    (p.lop = 2 → ∀ w : BitVec 16, exec (.clearOrphan (.packet false) w) s = .next (x.1.lockResult p x.2)) ∧
    (p.lop = 3 → exec (.purgeFn false) s = .next (x.1.lockResult p x.2)) ∧
    (p.lop = 4 → exec (.purgeJob false) s = .next (x.1.lockResult p x.2))) ∧
  (∀ (p : Pkt) (rest : List Pkt) (s : State), takePkt (fun p => p.opcode == 0x21 && faSvc p.destFa) s.engFwd = some (p, rest) → crcOk p = true →
    s.timeValid = true → s.lockStopped = false → ageOf s.ns p.origin ≤ s.reqAge / 2 → let x := (s.withEngFwd rest).lockPacket p
    exec .lockFwdRx s = .next (x.1.lockResult p x.2) ∧
    (p.lop = 0 → ∀ w : BitVec 16, exec (.read (.packet true) w) s = .next (x.1.lockResult p x.2)) ∧
    (p.lop = 1 → ∀ w : BitVec 16, exec (.cas (.packet true) w) s = .next (x.1.lockResult p x.2)) ∧
    (p.lop = 2 → ∀ w : BitVec 16, exec (.clearOrphan (.packet true) w) s = .next (x.1.lockResult p x.2)) ∧
    (p.lop = 3 → exec (.purgeFn true) s = .next (x.1.lockResult p x.2)) ∧
    (p.lop = 4 → exec (.purgeJob true) s = .next (x.1.lockResult p x.2))) ∧
  (∀ (m : Master) (w : BitVec 16) (s : State), Reaches s m 0xE00008 → s.lockStopped = false →
    let r := fun (lop : Nat) => s.lockOp w.toNat lop (s.rd R.LCK_OP_COMPARE_COMPARE) (s.rd R.LCK_OP_SWAP_SWAP) (faOfSvc s.moduleId 0 + m.id * 2 ^ 32) 0 true
    let shown := fun (x : State × LockRes) => ((x.1.wr R.LCK_OP_RESULT_STATUS x.2.status).wrB R.LCK_OP_RESULT_ORPHAN x.2.orphan).wr R.LCK_OP_OLD_OLD x.2.old
    exec (.read (.reg m) w) s = .next (shown (r 0)) ∧ exec (.cas (.reg m) w) s = .next (shown (r 1)) ∧
    exec (.clearOrphan (.reg m) w) s = .next (shown (r 2))) ∧
  (∀ (p : Pkt) (r : LockRes) (s : State),
    let h : HdrSpec := { dest := p.srcFa, src := faOfSvc s.moduleId 1, opcode := 0x47, pin := true, psn := p.psn }
    let a := [(32, 1, p.lockGroup), (33, 1, p.lockWord), (34, 1, p.lop), (35, 1, r.status), (36, 1, b2n r.orphan), (40, 8, r.old), (56, 4, p.reqId)]
    ∃ y : LocalPkt, y.pkt = mkPkt h (mkArea a) [] ∧ (s.lockResult p r).localQ 0 y.pkt.vl = s.localQ 0 y.pkt.vl ++ [y])

/-- What the lock operations answer and change, by packet and by register. -/
def Obligations.LockUnit : Prop := Sys2Proof.Claims.LockOperations ∧ Sys2Proof.Claims.LockRequests ∧
  Sys2Proof.Claims.LockServiceCompletes

/-- Force release and purges (R356, R357): every held word that is named becomes 0 and orphaned, and no other word changes; LCK_PURGE names words by
the holder's module, by its FA, or one word; a purge that is due is built once, and its target leaves the peers of a torn-down function. -/
def Sys2Proof.Claims.Purging : Prop :=
  (∀ (hit : Nat → Nat → Bool) (w : Fin 65536) (s : State), let t := s.forceRelease hit; let v := s.lockWord w.val
    (v % 2 ^ 44 ≠ 0 → hit w.val v = true → t.lockWord w.val = 0 ∧ t.orphanBit w.val = true) ∧
    ((v % 2 ^ 44 = 0 ∨ hit w.val v = false) → t.lockWord w.val = v ∧ t.orphanBit w.val = s.orphanBit w.val)) ∧
  (∀ (m : Master) (target : BitVec 18) (s : State), Reaches s m 0xE00030 →
    exec (.lckPurgeModule m target) s = .next (s.forceRelease (fun _ x => faModule (ownerFa x) == target.toNat)) ∧
    exec (.lckPurgeFa m) s = .next (s.forceRelease (fun _ x => ownerFa x == s.rd R.LCK_PURGE_FA_FA)) ∧
    exec (.lckPurgeWord m target) s = .next (s.forceRelease (fun v _ => v == target.toNat))) ∧
  (∀ s : State, s.timeValid = false → exec .purgeSend s = .next s) ∧
  (∀ (q : Purge) (s : State), s.lck.purges = [q] → s.timeValid = true →
    (q.built = true ∨ s.now < q.due → exec .purgeSend s = .next s) ∧
    (q.built = false → q.due ≤ s.now → q.tx < s.lockRetries → Does .purgeSend s (fun t =>
      t.lck.purges = [{ q with tx := q.tx + 1, built := true }] ∧
      (q.lop = 3 → q.tx = 0 → q.target ∉ (t.fnSt (faFn q.fa)).peers) ∧ Keeps s t [waitKey 0] ∧
      ∃ y : LocalPkt, y.pkt = mkPkt { dest := faOfSvc q.target 1, src := q.fa, opcode := 0x09, pin := true, psn := q.job } (mkArea [(34, 1, q.lop), (56, 4, q.reqId)]) [] ∧
        t.localQ 0 y.pkt.vl = s.localQ 0 y.pkt.vl ++ [y])) ∧
    (q.built = false → q.due ≤ s.now → s.lockRetries ≤ q.tx → Does .purgeSend s (fun t => t.lck.purges = [] ∧ Keeps s t [])))

/-- LOCK_RETRY and LOCK_RESULT_RX (R352, R353, R354): an unanswered request goes out again after 2 × REQ_AGE_US, and after RETRIES of them completes
with status 12 and detail 0x80, but not while fabric time is not valid; a result lands in its entry, and the old value is written at LADDR and the
entry completes with the status in DETAIL, at once or when its queue is ACTIVE again; one that nothing waits for is stale. -/
def Sys2Proof.Claims.LockAnswers : Prop :=
  (∀ (w : BitVec 32) (x : WorkEnt) (k : Wq) (fa : Nat) (s : State), s.workEnt w.toNat = some x → wop x = 6 → x.qid ≠ adminQ → x.fin = none →
    x.started = true → x.asked = true → lockLanded x = false →
    (s.timeValid = false → exec (.lockRetry w) s = .next s) ∧
    (s.now < x.lastTx + 2 * s.reqAge → exec (.lockRetry w) s = .next s) ∧
    (s.timeValid = true → x.lastTx + 2 * s.reqAge ≤ s.now → s.lockRetries ≤ x.txCount → exec (.lockRetry w) s = .next (s.complete w.toNat 12 0x80 0)) ∧
    (x.lastTx + 2 * s.reqAge ≤ s.now → x.txCount < s.lockRetries → s.canBuild x = some k → x.dest = some fa →
      exec (.lockRetry w) s = .next (s.sendLock w.toNat x k fa))) ∧
  (∀ (p : Pkt) (rest : List Pkt) (s : State), takePkt (fun p => p.opcode == 0x47) s.engRep = some (p, rest) → crcOk p = true → let u := s.withEngRep rest
    (s.work = [] → s.lck.purges = [] → exec .lockResultRx s = .next (u.bump R.LCK_STALE_RESULT)) ∧
    (∀ (w : Nat) (x : WorkEnt) (k : Wq), s.work = [(w, some x)] → x.fn = faFn p.destFa → wop x = 6 → x.qid ≠ adminQ → x.started = true → x.fin = none → lockLanded x = false →
      x.reqId = p.reqId → faSvc p.destFa = false → s.wq x.fn x.qid = some k →
      let detail := p.lockStatus % 8 + (if 1 < x.txCount then 64 else 0) + 128 * (p.lockOrphan % 2)
      let v := u.setWork w (some { x with readB := 1, granted := p.lockCompare, flags := detail })
      (k.state ≠ 1 → exec .lockResultRx s = .next v) ∧
      (k.state = 1 → k.xctx = 0xFFFF → x.fn % 128 = 0 → wladdr x % 4096 ≤ 4088 →
      s.inWindow (x.fn / 128) (wladdr x) = false →
        let t := (v.bumpFn x.fn 11 8).emit (.hostWrite (x.fn / 128) (s.routingId x.fn) (wladdr x) [sqOfBytes (bytesLE p.lockCompare 8)] 0 8)
        exec .lockResultRx s = .next ((t.stampWork w 3).complete w 0 detail 8)))) ∧
  (∀ (w : BitVec 32) (x : WorkEnt) (k : Wq) (s : State), s.workEnt w.toNat = some x → wop x = 6 → x.qid ≠ adminQ → x.fin = none → lockLanded x = true →
    s.wq x.fn x.qid = some k → k.state = 1 → exec (.lock w) s = .next (s.lockLand w.toNat))

/-- Force release and purges of lock words, retries and results of lock requests. -/
def Obligations.LockPurgesAndResults : Prop := Sys2Proof.Claims.Purging ∧ Sys2Proof.Claims.LockAnswers

/-- HELLO, heartbeats and digests (R361, R366, R373): a HELLO whose comma, STACK_ID and member agree is accepted and names the port's peer, any other
is answered with BAD_ARG and clears the port's peer; the master sends a heartbeat to every other member each period; a heartbeat is answered at once,
and one that counts other mirrors makes the standby stale; a leaf sends digests of its external ports, a spine of its stack ports (log entry 47), and
one that stays out is stale. -/
def Sys2Proof.Claims.StackHeartbeats : Prop :=
  (∀ (r : MgmtReq) (s : State), InBand s r → let u := taking s r
    (r.cmd / 4096 = 1 → r.cmd % 256 = 1 →
      (r.port < 256 → (s.port r.port).stack = true → s.commaModule r.port = s.moduleId → r.arg % 2 ^ 32 = s.rd R.STK_CFG_STACK_ID → s.isMember r.slot = true →
        r.slot ≠ s.ownMember → exec .hello s = .next (answered ((u.modPort r.port (fun x => { x with accepted := true })).wr
          (R.STK_PORT_PEER_PEER (r.port / 16) (r.port % 16)) r.slot) r 0 none)) ∧
      (r.arg % 2 ^ 32 ≠ s.rd R.STK_CFG_STACK_ID → exec .hello s =
        let v := if r.port < 256 then (u.modPort r.port (fun x => { x with accepted := false })).wr (R.STK_PORT_PEER_PEER (r.port / 16) (r.port % 16)) 15 else u
        .next (answered ((v.bump R.STK_HELLO_BAD).fault (16 + r.port % 256 / 2) 0x0205 r.port 3) r 4 none))) ∧
    (r.cmd / 4096 = 1 → r.cmd % 256 = 2 → s.rd R.STK_CFG_STANDBY_IDX ≠ s.ownMember →
      exec .heartbeat s = .next (answered (u.withStk { s.stk with lastHb := s.now, okVotes := [], queried := [] }) r 0 none)) ∧
    (r.cmd / 4096 = 1 → r.cmd % 256 = 2 → s.rd R.STK_CFG_STANDBY_IDX = s.ownMember → s.isMaster = false → bitsOf r.arg 48 16 ≠ s.stk.mseq →
      exec .heartbeat s = .next (answered ((u.wr R.STK_STAT_STANDBY_STALE 1).withStk { s.stk with
        lastHb := s.now, okVotes := [], queried := [], full := none }) r 0 none)) ∧
    (r.cmd / 4096 = 1 → r.cmd % 256 = 3 → r.len = 0 →
      exec .digest s = .next (answered ((u.withDigestAt (SMap.set 0 s.digestAt r.slot (s.now + 1))).bump R.STK_DIGEST_RX) r 0 none)) ∧
    (∀ q : Square, r.cmd / 4096 = 1 → r.cmd % 256 = 3 → r.len = 16 → r.pay = [q] →
      let e := (sqBytes q 0 16).foldl (fun a b => a * 256 + b) 0; Does .digest s (fun t => SMap.get {} t.digests (256 * r.slot + bitsOf e 120 8) =
        { up := bitOf e 112, vlMask := bitsOf e 96 16, q := bitsOf e 64 22, r := bitsOf e 32 20 }))) ∧
  (∀ s : State,
    (s.isMaster = false → exec .heartbeatSend s = .next s) ∧
    (s.isMaster = true → (s.stk.hbSent = 0 ∨ s.stk.hbSent + s.hbPeriod ≤ s.now) → exec .heartbeatSend s =
      .next ((s.allOthers.foldl (fun s i => (s.sendStk i 0x02 (s.us % 2 ^ 48 + s.stk.mseq * 2 ^ 48) 0 []).1) (s.withStk { s.stk with hbSent := s.now })).stackEvents)) ∧
    (s.inStack = true → let ports := if s.rd R.STK_CFG_SPINE = 1 then s.formedPorts.filter (fun p => (s.port p).stack) else s.externalPorts
      let up := ports.filter s.portUp; let bytes := ports.flatMap (digestEntry s)
      let pay := (List.range (squaresFor bytes.length)).map (fun k => sqOfBytes ((bytes.drop (64 * k)).take 64))
      (s.now < s.stk.digSent + s.digestPeriod → up = s.stk.upSeen → exec .digestSend s = .next s) ∧
      (s.stk.digSent + s.digestPeriod ≤ s.now ∨ up ≠ s.stk.upSeen → exec .digestSend s =
        .next ((s.presentOthers.foldl (fun s i => (s.sendStk i 0x03 0 bytes.length pay).1)
          (s.withStk { s.stk with digSent := s.now, upSeen := up })).stackEvents))) ∧
    (∀ i : Fin 12, Does (.digestStale i) s (fun t => Keeps s t [] ∧ (SMap.get 0 s.digestAt i.val ≠ 0 → s.digestFresh i.val = false →
      ∀ p : Fin 256, (SMap.get {} t.digests (256 * i.val + p.val)).up = false))))

/-- The stack-wide strobe at a member (R370): ARM is kept and answered; COMMIT keeps a future T, or swaps at once, late; CANCEL drops the ARM; it
lapses after 2 × STROBE_LEAD_US; at T the banks swap; the master cancels when an answer is missing. -/
def Sys2Proof.Claims.StackStrobes : Prop :=
  (∀ (r : MgmtReq) (s : State), InBand s r → r.cmd / 4096 = 1 → let u := taking s r
    (r.cmd % 256 = 6 → maskOk r.arg = true → s.copying = [] → exec .strobeArm s = .next (answered
      (((u.wr R.STK_STROBE_STAT_ARMED 1).wr R.STK_STROBE_STAT_CANCELLED 0).withStk { s.stk with arm := some (r.arg, s.now), commit := none }) r 0 none)) ∧
    (r.cmd % 256 = 6 → maskOk r.arg = false → exec .strobeArm s = .next (answered u r 4 none)) ∧
    (r.cmd % 256 = 7 → s.stk.arm = none → exec .strobeCommit s = .next (answered u r 4 none)) ∧
    (∀ mask at_ : Nat, r.cmd % 256 = 7 → s.stk.arm = some (mask, at_) → let v := u.wr R.STK_STROBE_STAT_T_US (r.arg % 2 ^ 48)
      (s.us < r.arg % 2 ^ 48 → exec .strobeCommit s = .next (answered (v.withStk { s.stk with commit := some (r.arg % 2 ^ 48) }) r 0 none)) ∧
      (r.arg % 2 ^ 48 ≤ s.us → exec .strobeCommit s = .next (answered ((((v.bump R.STK_STROBE_LATE).fault 714 0x0B07).dropArm).stackSwap mask) r 0 none))) ∧
    (r.cmd % 256 = 8 → s.stk.armWait = none → exec .strobeCancel s = .next (answered
      (((u.wr R.STK_STROBE_STAT_ARMED 0).withStk { s.stk with arm := none, commit := none, armWait := none }).wr R.STK_STROBE_STAT_CANCELLED 1) r 0 none))) ∧
  (∀ (mask at_ : Nat) (s : State), s.stk.arm = some (mask, at_) → s.stk.armWait = none →
    (s.stk.commit = none → s.now < at_ + 2 * s.strobeLead * 1000 → exec .armLapse s = .next s) ∧
    (s.stk.commit = none → at_ + 2 * s.strobeLead * 1000 ≤ s.now → Does .armLapse s (fun t => t.stk.arm = none ∧ t.rd R.STK_STROBE_STAT_ARMED = 0 ∧
      Keeps s t [R.STK_STROBE_STAT_ARMED.key])) ∧
    (∀ tt : Nat, s.stk.commit = some tt → s.us < tt → exec .stackSwap s = .next s) ∧
    (∀ tt : Nat, s.stk.commit = some tt → tt ≤ s.us → s.stk.syncing = [] → exec .stackSwap s = .next (((s.wr R.STK_STROBE_STAT_ARMED 0).withStk
      { s.stk with arm := none, commit := none, armWait := none }).stackSwap mask))) ∧
  (∀ (mask at_ : Nat) (l : List Nat) (s : State), s.stk.strobe = some (mask, at_, l, none) →
    (s.now < at_ + s.strobeLead * 1000 → exec .strobeLeadExpire s = .next s) ∧
    (at_ + s.strobeLead * 1000 ≤ s.now → s.strobeAsks = [] → s.stk.syncing = [] → Does .strobeLeadExpire s (fun t => t.stk.strobe = none ∧
      t.rd R.STK_STROBE_STAT_CANCELLED = 1 ∧ t.rd R.STK_STROBE_CANCEL = (s.rd R.STK_STROBE_CANCEL + 1) % 2 ^ R.STK_STROBE_CANCEL.width ∧
      Keeps s t [R.STK_STROBE_STAT_CANCELLED.key, R.STK_STROBE_CANCEL.key])))

/-- The master and its standby (R372 to R375): reported faults and mirrored PSNs are kept; a mirror without an answer counts and makes the standby
stale; a silent master is asked after and replaced, not while the mirror is stale; a master that most members are silent to is deposed, and a silent member leaves PRESENT and its sync; TAKEOVER names
the new master and deposes the old; MEMBER_SYNC adds a member. -/
def Sys2Proof.Claims.MasterChange : Prop :=
  (∀ (r : MgmtReq) (s : State), InBand s r → r.cmd / 4096 = 1 → let u := taking s r
    (r.cmd % 256 = 9 → r.arg % 4 = 3 → exec .faultReport s = .next (answered (u.wr R.STK_FAULTS_FATAL (setBits (s.rd R.STK_FAULTS_FATAL) (r.slot % 12) 1 1)) r 0 none)) ∧
    (r.cmd % 256 = 10 → bitsOf r.arg 16 16 = (s.stk.mseq + 1) % 65536 → exec .psnMirror s = .next (answered (u.withStk { s.stk with
      mseq := bitsOf r.arg 16 16, mirror := SMap.set 0 s.stk.mirror (r.arg % 16) (r.arg / 2 ^ 32 % 2 ^ 32 + 1)
      full := if bitOf r.arg 4 then some (bitsOf r.arg 16 16) else s.stk.full }) r 0 none)) ∧
    (r.cmd % 256 = 11 → exec .masterQuery s = .next (answered u r (if s.stk.lastHb + (s.hbMiss - 1) * s.hbPeriod ≤ s.now then 0 else 1) none)) ∧
    (r.cmd % 256 = 12 → s.isMaster = true → s.stk.armWait = none → exec .takeover s = .next (answered (((((u.wr R.STK_STAT_DEPOSED 1).wr R.STK_STAT_ROLE_NOW 3).wr
      R.STK_STAT_MASTER_NOW r.slot).wr R.STK_STROBE_STAT_ARMED 0).withStk { s.stk with arm := none, commit := none, armWait := none, lastHb := s.now }) r 0 none)) ∧
    (r.cmd % 256 = 12 → s.isMaster = false → s.stk.armWait = none → exec .takeover s = .next (answered (((u.wr R.STK_STAT_MASTER_NOW r.slot).wr
      R.STK_STROBE_STAT_ARMED 0).withStk { s.stk with arm := none, commit := none, armWait := none, lastHb := s.now }) r 0 none))) ∧
  (∀ (x : StkReq) (s : State), s.stk.sent.find? (fun x => x.cmd % 256 == 0x0A && decide (x.at_ + 20000 ≤ s.now) &&
      s.cgc.reqs.any (fun r => r.mirror == some x.psn)) = some x →
    Does .mirrorMiss s (fun t => t.rd R.STK_MIRROR_MISS = (s.rd R.STK_MIRROR_MISS + 1) % 2 ^ R.STK_MIRROR_MISS.width ∧ t.rd R.STK_STAT_STANDBY_STALE = 1 ∧
      (∀ r ∈ t.cgc.reqs, r.mirror ≠ some x.psn) ∧ Keeps s t [R.STK_MIRROR_MISS.key, R.STK_STAT_STANDBY_STALE.key])) ∧
  (∀ s : State, (s.inStack = false → exec .hbMiss s = .next s) ∧
    (s.inStack = true → s.isMaster = true → let silent := s.allOthers.filter (fun i =>
        decide (max (SMap.get 0 s.stk.hbResp i) (s.stk.masterAt + 1) + s.hbMiss * s.hbPeriod ≤ s.now + 1))
      (∀ i : Fin 12, let t := s.endSync i.val; t.inPresent i.val = false ∧ t.stk.syncing = s.stk.syncing.filter (fun k => k ≠ i.val ∧ k ≠ 16 + i.val ∧ k ≠ 32 + i.val) ∧
        (∀ j : Fin 12, j ≠ i → t.inPresent j.val = s.inPresent j.val) ∧ Keeps s t [R.STK_STAT_PRESENT.key]) ∧
      let t := silent.foldl State.endSync s
      exec .hbMiss s = .next (if s.allOthers.length + 1 < 2 * silent.length then (t.wr R.STK_STAT_DEPOSED 1).wr R.STK_STAT_ROLE_NOW 3 else t)) ∧
    (s.inStack = true → s.isMaster = false → s.rd R.STK_STAT_DEPOSED = 0 → s.rd R.STK_CFG_STANDBY_IDX = s.ownMember →
      (s.now < s.stk.lastHb + s.hbMiss * s.hbPeriod → exec .hbMiss s = .next s) ∧
      (s.stk.lastHb + s.hbMiss * s.hbPeriod ≤ s.now → s.stk.queryAt = 0 →
        let u := (s.bump R.STK_HB_MISSED).withStk { s.stk with queryAt := s.now }
        (s.rd R.STK_STAT_STANDBY_STALE = 1 → exec .hbMiss s =
          .next ((u.bump R.STK_TAKEOVER_DENIED).report { unit := 714, code := Config.takeoverCode.toNat, cls := 0 })) ∧
        (s.rd R.STK_STAT_STANDBY_STALE = 0 → s.presentOthers.filter (· != s.rd R.STK_STAT_MASTER_NOW) = [] → exec .hbMiss s =
          .next ((u.withStk { s.stk with queryAt := s.now, queried := [] }).takeOver))))) ∧
  (∀ (i : Fin 12) (s : State), s.inStack = true → s.isMember i.val = true → s.isMaster = false → i.val = s.ownMember →
    (s.stk.strobed = false → exec (.memberSync i) s = .next s) ∧
    (s.stk.strobed = true → s.externalPorts = [] → exec (.memberSync i) s = .next (s.setPresent i.val true))) ∧
  (∀ (i : Fin 12) (s : State), s.inStack = true → s.isMember i.val = true → s.isMaster = true → i.val ≠ s.ownMember →
    (s.stk.syncing.contains (32 + i.val) = true → exec (.memberSync i) s =
      .next ((s.setPresent i.val true).withStk { s.stk with syncing := s.stk.syncing.filter (· != 32 + i.val) })) ∧
    (s.stk.syncing = [] → exec (.memberSync i) s = .next s)) ∧
  (∀ (i : Fin 12) (s : State), s.inStack = true → s.isMember i.val = true → s.isMaster = false → i.val ≠ s.ownMember →
    Does (.memberSync i) s (fun t => t.inPresent i.val = true ∧ (∀ j : Fin 12, j ≠ i → t.inPresent j.val = s.inPresent j.val) ∧ Keeps s t [R.STK_STAT_PRESENT.key]))

/-- Heartbeats and digests, the stack-wide strobe at a member, and the change of the master. -/
def Obligations.StackOfModules : Prop := Sys2Proof.Claims.StackHeartbeats ∧ Sys2Proof.Claims.StackStrobes ∧ Sys2Proof.Claims.MasterChange

/-- Which accesses are carried out (R379, R381, R382): one that does not arrive does nothing, but for an Unsupported Request in D3hot; one whose island refuses is counted and recorded with
reason 2, and a read of it answers all ones; one of another size or alignment is counted and recorded with reason 1. -/
def Sys2Proof.Claims.AccessChecks : Prop :=
  ∀ (m : Master) (off : BitVec 26) (size : BitVec 8) (v : BitVec 64) (s : State), let o := off.toNat
    let w := exec (.registerWrite (.master m) off size v) s; let r := exec (.registerRead (.master m) off size) s
    let rec_ := fun (t : State) (c : FRef) (reason : Nat) (wr : Bool) => t.rd c = (s.rd c + 1) % 2 ^ c.width ∧ t.rd R.GLB_ACC_STAT_REASON = reason ∧
      t.rdB R.GLB_ACC_STAT_WRITE = wr ∧ t.rd R.GLB_ACC_STAT_MASTER = m.id ∧ t.rd R.GLB_ACC_ADDR_OFFSET = o ∧
      Keeps s t [c.key, R.GLB_ACC_STAT_REASON.key, R.GLB_ACC_STAT_WRITE.key, R.GLB_ACC_STAT_MASTER.key, R.GLB_ACC_ADDR_OFFSET.key]
    let d3 := m.id = 1 ∧ s.mgmtD3 = true ∧ s.mgmtUp = true ∧ s.pwr.state = .on
    (s.arrives m.id = false → w = .next (s.mgmtRefuse m.id true o) ∧ r = .next (s.mgmtRefuse m.id false o)) ∧
    (d3 → s.mgmtRefuse m.id true o = s.aerLog 512 20 ∧ s.mgmtRefuse m.id false o = (s.emit (.unsupported 512 o)).aerLog 512 20) ∧
    (¬ d3 → ∀ wr : Bool, s.mgmtRefuse m.id wr o = s) ∧
    (s.arrives m.id = true → s.refuses (blockIsland o) = true →
      w = .next (s.refuseAcc true m.id o) ∧ r = .next ((s.refuseAcc false m.id o).emit (.readData m.id o (BitVec.ofNat 64 (allOnes size.toNat)))) ∧
      ∀ wr, rec_ (s.refuseAcc wr m.id o) R.GLB_ACC_REFUSED 2 wr) ∧
    (¬ ((size.toNat = 4 ∨ size.toNat = 8) ∧ o % size.toNat = 0) →
      (Reaches s m o → w = .next (s.badAcc true m.id o)) ∧
      (s.gate m.id false o = (s, true) → r = .next ((s.badAcc false m.id o).emit (.readData m.id o 0))) ∧
      ∀ wr, rec_ (s.badAcc wr m.id o) R.GLB_ACC_BAD 1 wr)

/-- Which register accesses are carried out, and what a refused one leaves. -/
def Obligations.AccessesCarriedOut : Prop := Sys2Proof.Claims.AccessChecks

/-- The access codes (R9, R385): a whole write of a register gives an RW field its bits, unless it is an RWL field of a locked block; clears the bits
of a W1C field where a 1 is written; and leaves RO fields. -/
def Sys2Proof.Claims.AccessCodes : Prop :=
  ∀ (o v : Nat) (d : RegDef) (f : FieldDef) (l r : List FieldDef) (s : State), regAt o = some d → d.fields = l ++ f :: r →
    (∀ g ∈ l ++ r, g.lo ≠ f.lo) → 0 < f.width → f.lo + f.width ≤ 64 → let t := s.writeFields o d 0 64 v; let x := fieldRef o f
    (f.acc = .rw → (f.rwl = false ∨ s.blockLocked o = false) → t.rd x = v / 2 ^ f.lo % 2 ^ f.width) ∧
    (f.acc = .rw → f.rwl = true → s.blockLocked o = true → t.rd x = s.rd x) ∧
    (f.acc = .ro → t.rd x = s.rd x) ∧
    (f.acc = .w1c → ∀ i : Fin 64, (t.rd x).testBit i.val = ((s.rd x).testBit i.val && !(decide (i.val < f.width) && v.testBit (f.lo + i.val)))) ∧
    t.mem = s.mem ∧ t.pending = s.pending ∧ (∀ g : FRef, (∀ h ∈ d.fields, g.key ≠ (fieldRef o h).key) → t.rd g = s.rd g)

/-- The access codes RW, W1C, RO and RWL. -/
def Obligations.RegisterAccessCodes : Prop := Sys2Proof.Claims.AccessCodes

/-- REGISTER_WRITE and REGISTER_READ of a plain register, XPT_ACK_CFG, by a master, and of its own registers by a function (R231, R270, R381): the
fields take the written bits and nothing else changes; the word is read back; a ring base keeps its bits [63:12] while the admin queue is off; a
register without content reads zero. A function in teardown drops the write (R229). -/
def Sys2Proof.Claims.RegisterAccesses : Prop :=
  (∀ (m : Master) (v : BitVec 64) (s : State), let o := 0xB00008
    let fs := [R.XPT_ACK_CFG_ACK_COALESCE, R.XPT_ACK_CFG_ACK_DELAY, R.XPT_ACK_CFG_REORDER_HOLD]
    (Reaches s m o → Does (.registerWrite (.master m) o 8 v) s (fun t => (∀ f ∈ fs, t.rd f = v.toNat / 2 ^ (f.key % 64) % 2 ^ f.width) ∧
      Keeps s t (fs.map FRef.key))) ∧
    (s.arrives m.id = true → s.gate m.id false o = (s, true) → exec (.registerRead (.master m) o 8) s =
      .next (s.emit (.readData m.id o (BitVec.ofNat 64 ((fs.map (fun f => s.rd f * 2 ^ (f.key % 64))).sum)))))) ∧
  (∀ (f : Fin 512) (v : BitVec 64) (s : State), s.decodes f = true → let p := f.val / 128; let n := f.val % 128
    (s.fnTeardown f = false → s.rd (R.HPT_ADMIN_CFG_ENABLE p n) = 0 → Does (.registerWrite (.fn f) 0x10 8 v) s (fun t =>
      t.rd (R.HPT_ADMIN_WQ_BASE_BASE p n) = v.toNat / 4096 * 4096 ∧ Keeps s t [(R.HPT_ADMIN_WQ_BASE_BASE p n).key])) ∧
    (s.fnTeardown f = true ∨ s.rd (R.HPT_ADMIN_CFG_ENABLE p n) = 1 → exec (.registerWrite (.fn f) 0x10 8 v) s = .next s) ∧
    exec (.registerRead (.fn f) 0x30 8) s = .next (s.emit (.fnRead f 0x30 0)))

/-- GLB_LOCK_WRITE and MGMT_PORT_EVENT (R379, R385, R479): a lock bit is set by a 1 and never cleared; the management port's link, D3hot and resets
change its own state alone, which takes its reset values when the link goes down and at a reset; what the link
has trained at lasts until it goes down. A link that comes up trains at the lower of both ends' speeds and widths (R377) and is enumerated (log entry
93). -/
def Sys2Proof.Claims.LocksAndManagementPort : Prop :=
  (∀ (m : Master) (mask : BitVec 4) (s : State), Reaches s m 0x18 → Does (.glbLockWrite m mask) s (fun t =>
    (∀ x ∈ [(R.GLB_LOCK_SEC_LOCK, 0), (R.GLB_LOCK_PWR_LOCK, 1), (R.GLB_LOCK_FLT_LOCK, 2), (R.GLB_LOCK_TIM_LOCK, 3)],
      t.rdB x.1 = (s.rdB x.1 || mask.toNat.testBit x.2)) ∧
    Keeps s t [R.GLB_LOCK_SEC_LOCK.key, R.GLB_LOCK_PWR_LOCK.key, R.GLB_LOCK_FLT_LOCK.key, R.GLB_LOCK_TIM_LOCK.key])) ∧
  (∀ s : State,
    let afresh := fun (t : State) (up : Bool) (link : Option (Nat × Nat)) => t.mgmtUp = up ∧ t.mgmtD3 = false ∧ t.pciFn 512 = { link := link } ∧
      (∀ n : Nat, n < 2048 → SMap.get 0 t.msgPba (2 ^ 20 + n) = 0) ∧ (∀ f : Nat, f < 512 → t.pciFn f = s.pciFn f) ∧ Keeps s t []
    (∀ e ∈ [MgmtEvent.linkDown, .hotReset, .perst], Does (.mgmtPortEvent e) s (fun t => afresh t false none)) ∧
    Does (.mgmtPortEvent .flr) s (fun t => afresh t s.mgmtUp (s.pciFn 512).link) ∧
    exec (.mgmtPortEvent .d0) s = .next (s.withMgmtD3 false) ∧
    exec (.mgmtPortEvent .d3hot) s = .next (s.withMgmtD3 s.mgmtUp) ∧
    (∀ (gen : BitVec 3) (width : BitVec 5), let e := MgmtEvent.linkUp gen width
     (s.rd R.PWR_CLK_STAT_MGMT_LOST = 1 ∨ s.mgmtUp = true ∨ e.wf = false → exec (.mgmtPortEvent e) s = .next s) ∧
     (s.rd R.PWR_CLK_STAT_MGMT_LOST = 0 → s.mgmtUp = false → e.wf = true → Does (.mgmtPortEvent e) s (fun t => t.mgmtUp = true ∧
      t.mgmtD3 = s.mgmtD3 ∧ t.cfgFixed 512 0x1010 = 2 ^ 16 * min 3 gen.toNat + 2 ^ 20 * min 4 width.toNat ∧
      t.memSpace 512 = true ∧ t.cfgBit 512 0x0004 2 = true ∧ t.cfgBit 512 0x3000 31 = true ∧
      (∀ n : Nat, n < 32 → t.msgMasked (2 ^ 20 + n) = false) ∧ Keeps s t []))))

/-- Configuration space, BAR0 and the MSI-X tables (R202, R206, R207, R229, R378, R499): the identification of each function; a word's writable bits
take what is written, for a function in teardown at its end; a read of BAR0 returns zero; a table's word reads back, and a pending message that is no
longer masked goes out; a function that does not decode refuses reads and drops writes as
Unsupported Requests. -/
def Sys2Proof.Claims.HostAccesses : Prop :=
  (∀ (f : Fin 512) (off : BitVec 26) (size : BitVec 8) (v : BitVec 64) (s : State),
    (s.decodes f = false → ∀ w ∈ [Who.fn f, .bar0 f, .msix (f.castLE (by decide))],
      exec (.registerRead w off size) s = .next (s.barRefuse f off.toNat) ∧
      (0 < size.toNat → size.toNat ≤ 64 → exec (.registerWrite w off size v) s = .next (s.barDrop f))) ∧
    (s.cfgReach f = true → s.barDrop f = s.aerLog f 20 ∧ s.barRefuse f off.toNat = (s.emit (.unsupported f off.toNat)).aerLog f 20) ∧
    (s.cfgReach f = false → s.barDrop f = s ∧ s.barRefuse f off.toNat = s) ∧
    (s.decodes f = true → exec (.registerRead (.bar0 f) off size) s = .next (s.emit (.barRead f 0 off.toNat 0)))) ∧
  (∀ (f : Fin 513) (bus : BitVec 8) (s : State), s.cfgReach f = true →
    let device := if f.val = 512 then (if s.isS0 then 0x1027 else 0x1026) else if f.val % 128 = 0 then 0x1024 else 0x1025
    let cls := if f.val = 512 then 0x088000 else 0x028000; let subsystem := if f.val = 512 ∧ s.isS0 = true then 2 else 1
    let rev := 0x10 * s.rd R.GLB_INFO_STEP_LET + s.rd R.GLB_INFO_STEP_NUM
    ∀ x ∈ [(0x0000, 0x1F6A + 2 ^ 16 * device), (0x0008, rev + 2 ^ 8 * cls), (0x002C, 0x1F6A + 2 ^ 16 * subsystem)],
      exec (.registerRead (.config f bus) (BitVec.ofNat 26 x.1) 4) s = .next (s.emit (.configRead f x.1 (BitVec.ofNat 64 (x.2 % 2 ^ 32))))) ∧
  (∀ (f : Fin 513) (bus : BitVec 8) (key : BitVec 26) (v : BitVec 64) (s : State), s.cfgReach f = true → let k := key.toNat
    k % 4 = 0 → capHere (fnKind f) (k / 4096) = true → k ∉ [0x0004, 0x1008, 0x2004, 0x3000, 0x6008, 0x6010] →
    let torn := decide (f.val < 512) && s.fnTeardown f; let c := s.pciFn f
    let shown := fun (t : State) (i : Nat) => (SMap.get 0 (t.pciFn f).regs k ^^^ cfgRst (fnKind f) k).testBit i
    (torn = false → Does (.registerWrite (.config f bus) key 4 v) s (fun t => (t.pciFn f).bus = bus.toNat ∧ (t.pciFn f).msix = c.msix ∧
      (∀ i : Fin 32, shown t i = if (cfgRw (fnKind f) k).testBit i then v.toNat.testBit i
        else (shown s i && !((cfgW1c k).testBit i && v.toNat.testBit i))) ∧
      (∀ j : Nat, j ≠ k → SMap.get 0 (t.pciFn f).regs j = SMap.get 0 c.regs j) ∧ Keeps s t [])) ∧
    (torn = true → Does (.registerWrite (.config f bus) key 4 v) s (fun t =>
      t.pciFn f = { c with bus := bus.toNat, late := c.late ++ [(k, 2 ^ 32 - 1, v.toNat % 2 ^ 32)] } ∧ Keeps s t []))) ∧
  (∀ (f : Fin 512) (bus : BitVec 8) (v : BitVec 64) (s : State), s.cfgReach f = true → v.toNat.testBit 15 = true →
    ∃ c : PciFn, c.bus = bus.toNat ∧ exec (.registerWrite (.config (f.castLE (by decide)) bus) 0x1008 4 v) s = exec (.flr f) (s.setPci f c)) ∧
  (∀ (f : Fin 513) (off : BitVec 26) (v : BitVec 64) (s : State), s.barReach f = true → off.toNat % 4 = 0 → let o := off.toNat
    let last := if f.val = 512 then 32 else 2048; let bar := if f.val = 512 then 2 else 4
    exec (.registerRead (.msix f) off 4) s = .next (s.emit (.barRead f bar o (BitVec.ofNat 64 (if s.barDead f then 0 else s.msixWord f o)))) ∧
    (s.barDead f = true → exec (.registerWrite (.msix f) off 4 v) s = .next s) ∧
    (s.barDead f = false → o < 16 * last → let n := o / 16; let k := 2048 * f.val + n
      Does (.registerWrite (.msix f) off 4 v) s (fun t =>
        t.msixWord f o = (if o % 16 = 12 then v.toNat % 2 else if o % 16 = 0 then v.toNat % 2 ^ 32 / 4 * 4 else v.toNat % 2 ^ 32) ∧
        (∀ w : Nat, w % 4 = 0 → w < 16 * last → w ≠ o → t.msixWord f w = s.msixWord f w) ∧
        (o % 16 = 12 → v.toNat % 2 = 0 → s.msgOn k = true → s.cfgBit f 0x3000 30 = false → SMap.get 0 s.msgPba k = 1 →
          s.msixMsg k ∈ t.out ∧ SMap.get 0 t.msgPba k = 0) ∧ Keeps s t [])))

/-- Register writes and reads by masters and functions, the lock bits and the management port, configuration space and the functions' other BARs. -/
def Obligations.RegistersAndLocks : Prop :=
  Sys2Proof.Claims.RegisterAccesses ∧ Sys2Proof.Claims.LocksAndManagementPort ∧ Sys2Proof.Claims.HostAccesses

/-- APERTURE_ACCESS (R393, R394): map offset x reaches module-memory address BASE × 1 MiB + (x − 0x0100_0000), with the BASE of that moment. Beyond 24
GiB a read answers zero, a write is discarded, and both are recorded with reason 5. Below it a read answers the bytes there; a write to a writable
partition stores them and changes no other byte; a write elsewhere is recorded with reason 4. -/
def Sys2Proof.Claims.ApertureAccesses : Prop :=
  ∀ (m : Master) (off : BitVec 26) (size : BitVec 8) (v : BitVec 64) (s : State), 0x1000000 ≤ off.toNat → size = 4 ∨ size = 8 → off.toNat % size.toNat = 0 →
    let a := s.rd R.GLB_APERTURE_BASE * 2 ^ 20 + (off.toNat - 0x1000000)
    let w := s.memWord (a / 8 * 8)
    (s.arrives m.id = true → s.gate m.id false off.toNat = (s, true) →
      (a < 24 * 2 ^ 30 → exec (.apertureAccess m off size none) s =
        .next (s.emit (.readData m.id off.toNat (BitVec.ofNat 64 (if size = 8 then w else bitsOf w (8 * (a % 8)) 32))))) ∧
      (24 * 2 ^ 30 ≤ a → exec (.apertureAccess m off size none) s =
        .next ((s.recordAcc 5 false m.id off.toNat).emit (.readData m.id off.toNat 0)))) ∧
    (Reaches s m off.toNat →
      (a < 24 * 2 ^ 30 → s.apertureWritable a = true → Does (.apertureAccess m off size (some v)) s (fun t =>
        t.memWord (a / 8 * 8) = (if size = 8 then v.toNat else setBits w (8 * (a % 8)) 32 v.toNat) ∧
        (∀ b : Nat, b / 8 ≠ a / 8 → t.memWord b = s.memWord b) ∧ (∀ g, t.rd g = s.rd g) ∧ t.pending = s.pending)) ∧
      (a < 24 * 2 ^ 30 → s.apertureWritable a = false → exec (.apertureAccess m off size (some v)) s = .next (s.recordAcc 4 true m.id off.toNat)) ∧
      (24 * 2 ^ 30 ≤ a → exec (.apertureAccess m off size (some v)) s = .next (s.recordAcc 5 true m.id off.toNat)))

/-- Accesses through the aperture reach module memory at BASE plus the offset. -/
def Obligations.ModuleMemoryWindow : Prop := Sys2Proof.Claims.ApertureAccesses

/-- Every SEC command (R397, R423): while another runs, or before the boot has ended, it changes nothing but RESULT, which reads BUSY. -/
def Sys2Proof.Claims.SecurityBusy : Prop :=
  ∀ (m : Master) (s : State), Reaches s m 0x10010 → s.rd R.SEC_CMD_STAT_BUSY = 1 ∨ s.rd R.SEC_BOOT_STAT_PHASE = 0 →
    ∀ c ∈ [Instr.boot m, .flashWriteA m, .flashWriteB m, .verifyStaged m, .enroll m, .challenge m, .unlock m, .attest m, .readCert m],
      exec c s = .next (s.wr R.SEC_CMD_STAT_RESULT 1)

/-- FLASH_WRITE_A, FLASH_WRITE_B and VERIFY_STAGED (R400): the staged image is checked, and SEC_COPY_STAT takes the reason; when it is valid the copy
is erased and the image written but for its first 8 bytes; else the command ends INVALID with the reason and flash is unchanged. -/
def Sys2Proof.Claims.StagedImages : Prop :=
  ∀ (m : Master) (s : State), SecReady s m →
    ∀ x ∈ [(Instr.flashWriteA m, 2, some 0), (.flashWriteB m, 3, some 0x1000000), (.verifyStaged m, 4, none)],
      let a := s.wr R.SEC_CMD_STAT_LAST_CMD x.2.1; let r := a.imageReason (a.source 2) (a.sourceLen 2) true
      Does x.1 s (fun t => t.rd R.SEC_COPY_STAT_REASON_STAGED = r % 16 ∧
        SecRuns t { cmd := x.2.1, result := if r = 0 then 0 else 2, detail := r } ∧
        (∀ i : Nat, SMap.get 255 t.sec.flash i = match x.2.2 with
          | some b => if r = 0 ∧ b ≤ i ∧ i < b + 0x1000000 then
              (if b + 8 ≤ i ∧ i < b + s.sourceLen 2 then SMap.get 0 s.sec.staging (i - b) else 255) else SMap.get 255 s.sec.flash i
          | none => SMap.get 255 s.sec.flash i) ∧
        Keeps s t [R.SEC_CMD_STAT_BUSY.key, R.SEC_CMD_STAT_LAST_CMD.key, R.SEC_COPY_STAT_REASON_STAGED.key, R.SEC_COPY_STAT_SVN_STAGED.key])

/-- LOAD_WINDOW_WRITE (R400): the bytes of the page that LOAD_CTL selects take the written word and no other byte of the staging RAM changes; while a
staging command runs the write is recorded with reason 2. -/
def Sys2Proof.Claims.LoadWindow : Prop :=
  ∀ (m : Master) (off : BitVec 14) (size : BitVec 8) (v : BitVec 64) (s : State), let o := 0x18000 + off.toNat; let n := size.toNat
    let a := s.rd R.SEC_LOAD_CTL_PAGE * 16384 + off.toNat
    Reaches s m o →
    (¬ ((n = 4 ∨ n = 8) ∧ off.toNat % n = 0) → exec (.loadWindowWrite m off size v) s = .next (s.badAcc true m.id o)) ∧
    ((n = 4 ∨ n = 8) → off.toNat % n = 0 →
      ((∃ x, s.sec.running = some x ∧ x.cmd ≤ 4) → exec (.loadWindowWrite m off size v) s = .next (s.recordAcc 2 true m.id o)) ∧
      ((∀ x, s.sec.running = some x → 4 < x.cmd) → Does (.loadWindowWrite m off size v) s (fun t =>
        (∀ i : Nat, SMap.get 0 t.sec.staging i =
          if a ≤ i ∧ i < a + n then v.toNat / 256 ^ (i - a) % 256 else SMap.get 0 s.sec.staging i) ∧
        t.sec.flash = s.sec.flash ∧ Keeps s t [])))

/-- SEC commands while busy, staged images and the load window. -/
def Obligations.FlashAndStaging : Prop := Sys2Proof.Claims.SecurityBusy ∧ Sys2Proof.Claims.StagedImages ∧ Sys2Proof.Claims.LoadWindow

/-- BOOT, ENROLL, UNLOCK and READ_CERT (R400, R416, R420, R422, R423): BOOT in Recovery reads the fuses and the owner record,
so that a pending owner takes effect, and runs; outside Recovery it is NOT_AVAILABLE; ENROLL is not for the fabric manager; a
token that fails is DENIED; an accepted debug token unlocks its scopes and no other, and the challenge it answers is used up. -/
def Sys2Proof.Claims.OwnershipAndDebug : Prop :=
  ∀ (m : Master) (s : State), SecReady s m →
    (s.rd R.SEC_BOOT_STAT_PHASE = 6 → Does (.boot m) s (fun t => SecRuns t { cmd := 1 } ∧
      t.rd R.SEC_BOOT_STAT_PHASE = 2 ∧ t.rd R.SEC_SVN_FUSED = s.fusedSvn ∧ t.rd R.SEC_OWNER_PENDING = 0 ∧ t.sec.newOwner = none ∧
      t.sec.owner = (match s.sec.newOwner with | some x => x.1 | none => s.sec.owner) ∧ t.rdB R.SEC_OWNER_OWNED = t.sec.owner.isSome ∧
      Keeps s t [R.SEC_CMD_STAT_BUSY.key, R.SEC_CMD_STAT_LAST_CMD.key, R.SEC_BOOT_STAT_PHASE.key, R.SEC_SVN_FUSED.key, R.SEC_OWNER_PENDING.key,
        R.SEC_OWNER_OWNED.key, R.SEC_OWNER_OWNER_SEQ.key, R.SEC_OWNER_REVOKED.key, R.GLB_IDENTITY_IDENTITY.key, R.GLB_MODE_STAT_VARIANT.key,
        R.GLB_INFO_STEP_NUM.key, R.GLB_INFO_STEP_LET.key])) ∧
    (s.rd R.SEC_BOOT_STAT_PHASE ≠ 6 → Does (.boot m) s (fun t => SecEnded t 1 3 ∧
      Keeps s t [R.SEC_CMD_STAT_RESULT.key, R.SEC_CMD_STAT_DETAIL.key, R.SEC_CMD_STAT_LAST_CMD.key])) ∧
    (m = .manager → Does (.enroll m) s (fun t => SecEnded t 5 8 ∧ t.sec = s.sec ∧
      Keeps s t [R.SEC_CMD_STAT_RESULT.key, R.SEC_CMD_STAT_DETAIL.key, R.SEC_CMD_STAT_LAST_CMD.key])) ∧
    (m ≠ .manager → Does (.enroll m) s (fun t =>
      SecRuns t { cmd := 5, result := if s.ownTokenOk then 0 else 6, data := tokenBytes (s.bufAt 0xC000) 116 } ∧
      t.sec.owner = s.sec.owner ∧ t.sec.newOwner = s.sec.newOwner ∧ Keeps s t [R.SEC_CMD_STAT_BUSY.key, R.SEC_CMD_STAT_LAST_CMD.key])) ∧
    Does (.unlock m) s (fun t => SecRuns t { cmd := 7, result := if s.debugTokenOk m then 0 else 6 } ∧
      t.sec.scopes = (if s.debugTokenOk m then s.sec.scopes ||| SMap.get 0 s.sec.buffer 48 else s.sec.scopes) ∧
      (s.debugTokenOk m = true → t.sec.challenge = none) ∧ (t.sec.challenge = s.sec.challenge ∨ t.sec.challenge = none) ∧
      (s.debugTokenOk m = false → t.sec.meas = s.sec.meas) ∧
      Keeps s t [R.SEC_CMD_STAT_BUSY.key, R.SEC_CMD_STAT_LAST_CMD.key, R.SEC_LOG_STAT_ENTRIES.key, R.SEC_LOG_STAT_OVERFLOW.key]) ∧
    Does (.readCert m) s (fun t => SecRuns t { cmd := 9 } ∧ t.sec.buffer = s.sec.buffer ∧
      Keeps s t [R.SEC_CMD_STAT_BUSY.key, R.SEC_CMD_STAT_LAST_CMD.key])

/-- CHALLENGE, ATTEST and ATTEST_TOKEN (R417, R421, R422, R468): a challenge puts 32 random bytes at the buffer's start; an attestation takes a token
and writes the next leaf index, and is refused without a token or an index; while IN_LOW is set it ends FLASH_ERROR; a token comes every 2 s, up to
64. -/
def Sys2Proof.Claims.ChallengeAndAttestation : Prop :=
  (∀ (m : Master) (s : State), SecReady s m → let q := s.rd R.SEC_HSS_STAT_NEXT_Q; let b := s.rd R.SEC_HSS_STAT_BUCKET
    let ks := [R.SEC_CMD_STAT_BUSY.key, R.SEC_CMD_STAT_LAST_CMD.key]
    Does (.challenge m) s (fun t => SecRuns t { cmd := 6 } ∧ t.sec.challenge = some (Config.entropy s.rng).toNat ∧ t.rng = s.rng + 1 ∧
      (∀ i : Nat, SMap.get 0 t.sec.buffer i = if i < 32 then (Config.entropy s.rng).toNat / 256 ^ (31 - i) % 256 else SMap.get 0 s.sec.buffer i) ∧
      Keeps s t ks) ∧
    (s.rd R.SEC_HSS_STAT_EXHAUSTED = 1 → Does (.attest m) s (fun t => SecEnded t 8 5 ∧ t.sec = s.sec ∧
      Keeps s t [R.SEC_CMD_STAT_RESULT.key, R.SEC_CMD_STAT_DETAIL.key, R.SEC_CMD_STAT_LAST_CMD.key])) ∧
    (s.rd R.SEC_HSS_STAT_EXHAUSTED = 0 → b = 0 → Does (.attest m) s (fun t => SecEnded t 8 4 ∧ t.sec = s.sec ∧
      Keeps s t [R.SEC_CMD_STAT_RESULT.key, R.SEC_CMD_STAT_DETAIL.key, R.SEC_CMD_STAT_LAST_CMD.key])) ∧
    (s.rd R.SEC_HSS_STAT_EXHAUSTED = 0 → 0 < b → s.rd R.PWR_STAT_IN_LOW = 0 → Does (.attest m) s (fun t =>
      SecRuns t { cmd := 8, data := takeBytes (s.bufAt 0xC000) 0 32 ++ [q] } ∧ t.rd R.SEC_HSS_STAT_BUCKET = b - 1 ∧
      t.rd R.SEC_HSS_STAT_NEXT_Q = (q + 1) % 2 ^ 30 ∧ t.rdB R.SEC_HSS_STAT_EXHAUSTED = decide (q + 1 = 2 ^ 30) ∧
      Keeps s t (ks ++ [R.SEC_HSS_STAT_BUCKET.key, R.SEC_HSS_STAT_NEXT_Q.key, R.SEC_HSS_STAT_EXHAUSTED.key]))) ∧
    (s.rd R.SEC_HSS_STAT_EXHAUSTED = 0 → 0 < b → s.rd R.PWR_STAT_IN_LOW = 1 → Does (.attest m) s (fun t =>
      SecRuns t { cmd := 8, result := 7 } ∧ t.rd R.SEC_HSS_STAT_BUCKET = b - 1 ∧ Keeps s t (ks ++ [R.SEC_HSS_STAT_BUCKET.key])))) ∧
  (∀ s : State, let b := s.rd R.SEC_HSS_STAT_BUCKET
    (s.now / 2000000000 ≤ s.sec.tokens → exec .attestToken s = .next s) ∧
    (s.sec.tokens < s.now / 2000000000 → Does .attestToken s (fun t => t.rd R.SEC_HSS_STAT_BUCKET = min 64 (b + 1) ∧ t.sec.tokens = s.sec.tokens + 1 ∧
      Keeps s t [R.SEC_HSS_STAT_BUCKET.key])))

/-- Ownership, debug tokens, challenges and attestation. -/
def Obligations.OwnershipAndAttestation : Prop := Sys2Proof.Claims.OwnershipAndDebug ∧ Sys2Proof.Claims.ChallengeAndAttestation

/-- SEC_COMMAND_DONE (R400, R416, R420, R421, R423): the command that runs ends with its result; FLASH_WRITE then writes the first 8 bytes of the
copy, ENROLL keeps the new owner for the next boot, READ_CERT and ATTEST put their bytes into the buffer; flash that fails ends them FLASH_ERROR, as
does an input that is low at the end of ENROLL; a BOOT whose staged image is not valid ends INVALID with the reason, in Recovery mode. -/
def Sys2Proof.Claims.SecurityCommandEnds : Prop :=
  ∀ (flash : FlashRun) (x : SecRun) (s : State), s.sec.running = some x → s.rd R.FLT_ARB_STAT_STATE = 0 → s.pwr.state = .on → s.inStack = false →
    let e := fun (t : State) (r d : Nat) => t.sec.running = none ∧ t.rd R.SEC_CMD_STAT_BUSY = 0 ∧ t.rd R.SEC_CMD_STAT_RESULT = r ∧
      t.rd R.SEC_CMD_STAT_DETAIL = d
    let ks := [R.SEC_CMD_STAT_BUSY.key, R.SEC_CMD_STAT_RESULT.key, R.SEC_CMD_STAT_DETAIL.key]
    (x.result ≠ 0 → Does (.secCommandDone flash) s (fun t => e t (x.result % 16) (x.detail % 16) ∧ Keeps s t ks)) ∧
    (x.result = 0 → x.cmd ∈ [4, 6, 7] → Does (.secCommandDone flash) s (fun t => e t 0 0 ∧ Keeps s t ks)) ∧
    (x.result = 0 → x.cmd ∈ [2, 3, 5, 8, 9] → flash.done = false → Does (.secCommandDone flash) s (fun t => e t 7 0 ∧ t.sec.flash = s.sec.flash ∧
      t.sec.newOwner = s.sec.newOwner ∧ Keeps s t ks)) ∧
    (x.result = 0 → x.cmd ∈ [2, 3] → flash.done = true → let b := if x.cmd = 2 then 0 else 0x1000000
      Does (.secCommandDone flash) s (fun t => e t 0 0 ∧ (∀ i : Nat, SMap.get 255 t.sec.flash i =
        if b ≤ i ∧ i < b + 8 then SMap.get 0 s.sec.staging (i - b) else SMap.get 255 s.sec.flash i))) ∧
    (x.result = 0 → x.cmd = 5 → flash.done = true → s.rd R.PWR_STAT_IN_LOW = 0 → Does (.secCommandDone flash) s (fun t => e t 0 0 ∧
      t.sec.newOwner = some (ownerOf x.data) ∧ t.rd R.SEC_OWNER_PENDING = 1 ∧ t.sec.owner = s.sec.owner)) ∧
    (x.result = 0 → x.cmd = 5 → flash.done = true → s.rd R.PWR_STAT_IN_LOW = 1 → Does (.secCommandDone flash) s (fun t => e t 7 0 ∧
      t.sec.newOwner = s.sec.newOwner ∧ Keeps s t ks)) ∧
    (x.result = 0 → x.cmd = 1 → s.rd R.SEC_BOOT_CFG_SOURCE = 1 → let r := s.imageReason (s.source 2) (s.sourceLen 2) true
      r ≠ 0 → Does (.secCommandDone flash) s (fun t => e t 2 (r % 16) ∧ t.rd R.SEC_BOOT_STAT_PHASE = 6 ∧ t.rd R.GLB_MODE_STAT_MODE = 0 ∧
        t.rd R.GLB_MODE_STAT_RECOVERY_CAUSE = 3 ∧ t.rd R.SEC_COPY_STAT_REASON_STAGED = r % 16)) ∧
    (x.result = 0 → x.cmd = 8 → flash.done = true → 32 ≤ x.data.length → Does (.secCommandDone flash) s (fun t => e t 0 0 ∧
      (∀ i : Nat, i < 48 → SMap.get 0 t.sec.buffer i = if i < 4 then 0x54544154 / 256 ^ i % 256 else if i < 8 then 6008 / 256 ^ (i - 4) % 256
        else if i < 16 then Config.fuseIdentity.toNat / 256 ^ (i - 8) % 256 else x.data.getD (i - 16) 0) ∧ Keeps s t ks)) ∧
    (x.result = 0 → x.cmd = 9 → flash.done = true → s.sec.cert.length + 164 ≤ 0x4000 → Does (.secCommandDone flash) s (fun t => e t 0 0 ∧
      (∀ i : Nat, SMap.get 0 t.sec.buffer i = ((idCertOf s.sec.cert)[i]?).getD (SMap.get 0 s.sec.buffer i)) ∧ Keeps s t ks))

/-- BOOT_SEQUENCE (R40, R396): nothing happens once the boot has begun or without power; RECOVERY_L low where it is sampled leads to Recovery mode
with cause 1, where the fabric islands are gated; so do two flash copies that cannot be read, with cause 2 and reason 1 for each (R399, R404). -/
def Sys2Proof.Claims.BootSequence : Prop :=
  ∀ (pin : Bool) (flash : FlashRun) (s : State),
    (s.pwr.state ≠ .on ∨ s.rd R.SEC_BOOT_STAT_PHASE ≠ 0 → exec (.bootSequence pin flash) s = .next s) ∧
    (s.pwr.state = .on → s.rd R.SEC_BOOT_STAT_PHASE = 0 → s.pwr.sample = true → Does (.bootSequence false flash) s (fun t =>
      t.rd R.SEC_BOOT_STAT_PHASE = 6 ∧ t.rd R.GLB_MODE_STAT_MODE = 0 ∧ t.rd R.GLB_MODE_STAT_RECOVERY_CAUSE = 1 ∧ t.rd R.PWR_STRAP_RECOVERY_L = 0 ∧
      (∀ k : Nat, k < 16 ∨ 17 ≤ k ∧ k ≤ 23 → t.island k = 2) ∧ t.rd R.GLB_IDENTITY_IDENTITY = Config.fuseIdentity.toNat ∧ t.mem = s.mem)) ∧
    (s.pwr.state = .on → s.rd R.SEC_BOOT_STAT_PHASE = 0 → s.pwr.sample = false ∨ pin = true → s.rd R.SEC_BOOT_CFG_SOURCE = 1 →
      Does (.bootSequence pin flash) s (fun t => t.rd R.SEC_BOOT_CFG_SOURCE = 0 ∧ t.rd R.SEC_COPY_STAT_REASON_A = 15 ∧
        t.rd R.SEC_COPY_STAT_REASON_B = 15 ∧ (t.rd R.SEC_BOOT_STAT_PHASE = 6 → t.rd R.GLB_MODE_STAT_RECOVERY_CAUSE = 3) ∧
        (t.rd R.SEC_BOOT_STAT_PHASE = 6 ∨ t.rd R.SEC_BOOT_STAT_PHASE = 5 ∧ t.rd R.SEC_BOOT_STAT_BOOTED = 3))) ∧
    (s.pwr.state = .on → s.rd R.SEC_BOOT_STAT_PHASE = 0 → s.pwr.sample = false ∨ pin = true → s.rd R.SEC_BOOT_CFG_SOURCE = 0 →
      flash.readA = false → flash.readB = false → Does (.bootSequence pin flash) s (fun t => t.rd R.SEC_COPY_STAT_REASON_A = 1 ∧
        t.rd R.SEC_COPY_STAT_REASON_B = 1 ∧ t.rd R.SEC_BOOT_STAT_PHASE = 6 ∧ t.rd R.GLB_MODE_STAT_RECOVERY_CAUSE = 2 ∧ t.mem = s.mem))

/-- How a SEC command ends, and the boot into Recovery mode. -/
def Obligations.SecurityEndsAndBoot : Prop := Sys2Proof.Claims.SecurityCommandEnds ∧ Sys2Proof.Claims.BootSequence

/-- ERROR_PAIR and PAIR_BROKEN (R424, R426 to R430) for one error whose class is Corrected or Fatal, and for one that holds a pseudo-channel: the
first error of its class captures the record and sets SET; a further one merges and leaves the record's first words; a code that the table does not
list, or a unit above 716, does nothing; a unit that cannot be held raises PAIR_BROKEN as Fatal. -/
def Sys2Proof.Claims.ErrorsCaptured : Prop :=
  ∀ (e : ErrIn) (s : State), s.inStack = false → s.flt.inj = [] → let u := e.unit.toNat; let code := e.code.toNat; let c := raisedClass u code
    (codeClass code = none ∨ 716 < u → exec (.errorPair [e]) s = .next s) ∧
    ((codeClass code).isSome → u ≤ 716 → s.pairMasked u false = true → exec (.errorPair [e]) s = .next s) ∧
    ((codeClass code).isSome → u ≤ 716 → s.pairMasked u false = false → c = 0 ∨ c = 3 ∨ (c = 2 ∧ 682 ≤ u ∧ u < 714 ∧ s.rd (R.FLT_UNIT_STATE u) = 0 ∧
        (s.testDue (regionOf u) = true ∨ s.wasTransient (regionOf u) = false)) →
      let holds := fun (t : State) =>
        t.rd (clsCounter c) = (s.rd (clsCounter c) + 1) % 2 ^ 64 ∧ t.rd R.FLT_STATUS_SET = s.rd R.FLT_STATUS_SET ||| 2 ^ c ∧
        t.rd (R.FLT_UNIT_LAST_CODE u) = code ∧ t.rd (R.FLT_UNIT_ERRORS u) = min (2 ^ 24 - 1) (s.rd (R.FLT_UNIT_ERRORS u) + 1) ∧
        (s.rd R.FLT_STATUS_SET / 2 ^ c % 2 = 0 → t.rd (R.FLT_REC c 0) % 2 ^ 16 = code ∧ t.rd (R.FLT_REC c 0) / 2 ^ 32 % 2 ^ 10 = u ∧
          t.rd (R.FLT_REC c 0) / 2 ^ 16 % 4 = c ∧
          (s.msgOn (2 ^ 20) = true → (s.msgMasked (2 ^ 20) = false → s.msixMsg (2 ^ 20) ∈ t.out) ∧
            (s.msgMasked (2 ^ 20) = true → SMap.get 0 t.msgPba (2 ^ 20) = 1))) ∧
        (s.rd R.FLT_STATUS_SET / 2 ^ c % 2 = 1 → t.rd (R.FLT_REC c 0) = s.rd (R.FLT_REC c 0) ∧ t.rd (R.FLT_REC c 1) = s.rd (R.FLT_REC c 1) ∧
          t.rd (R.FLT_REC c 4) / 2 ^ 32 = min (2 ^ 32 - 1) (s.rd (R.FLT_REC c 4) / 2 ^ 32 + 1)) ∧
        (∀ d : Nat, d < 4 → d ≠ c → ∀ w : Nat, w < 8 → t.rd (R.FLT_REC d w) = s.rd (R.FLT_REC d w)) ∧ t.mem = s.mem
      Does (.errorPair [e]) s holds ∧
      (e = { unit := e.unit, code := 0x0B08 } → Does (.pairBroken e.unit) s (fun t => holds t ∧
        t.rd R.FLT_PAIR_BROKEN = (s.rd R.FLT_PAIR_BROKEN + 1) % 2 ^ 64)))

/-- A hold (R427, R442): a pseudo-channel with an Uncorrected-contained error is held; the arbiter with one is lost: its processor stops and the
module is headless, or it restarts where AUTO_RESTART allows (R444). -/
def Sys2Proof.Claims.UnitsHeld : Prop :=
  (∀ (e : ErrIn) (s : State), s.inStack = false → s.flt.inj = [] → s.pairMasked e.unit.toNat false = false → raisedClass e.unit.toNat e.code.toNat = 2 →
    682 ≤ e.unit.toNat → e.unit.toNat < 714 → s.rd (R.FLT_UNIT_STATE e.unit.toNat) = 0 →
    s.testDue (regionOf e.unit.toNat) = false → s.wasTransient (regionOf e.unit.toNat) = false →
    Does (.errorPair [e]) s (fun t => t.rd (R.FLT_UNIT_STATE e.unit.toNat) = 1 ∧ t.rd (R.FLT_UNIT_VERDICT e.unit.toNat) = 0 ∧
      t.testDue (regionOf e.unit.toNat) = true ∧ t.rd (R.FLT_UNIT_TEST_PENDING e.unit.toNat) = 1)) ∧
  (∀ s : State, s.inStack = false → s.flt.inj = [] → s.pairMasked 714 false = false → s.rd (R.FLT_UNIT_STATE 714) = 0 → s.rd R.FLT_ARB_STAT_STATE = 0 →
    ∀ c ∈ [Instr.arbLockstep, .arbWatchdog],
      (s.rd R.FLT_ARB_CTL_AUTO_RESTART = 0 → Does c s (fun t => t.rd R.FLT_ARB_STAT_STATE = 2 ∧ t.rd R.FLT_STATUS_HEADLESS = 1 ∧
        t.rd R.FLT_STATUS_ALERT = 1 ∧ t.flt.lostAt = some s.powered ∧ t.cgc.reqs = [] ∧ t.rd (R.FLT_UNIT_STATE 714) = 1)) ∧
      (s.rd R.FLT_ARB_CTL_AUTO_RESTART = 1 → s.flt.lastAuto = none → Does c s (fun t => t.rd R.FLT_ARB_STAT_STATE = 1 ∧
        t.rd R.FLT_STATUS_HEADLESS = 1 ∧ t.rd R.FLT_ARB_STAT_RESTARTS = (s.rd R.FLT_ARB_STAT_RESTARTS + 1) % 2 ^ 16 ∧
        t.flt.lastAuto = some s.powered ∧ t.flt.restarting = true)))

/-- How an error is captured and merged, and which units are held. -/
def Obligations.FaultCapture : Prop := Sys2Proof.Claims.ErrorsCaptured ∧ Sys2Proof.Claims.UnitsHeld

/-- FLT_STATUS_CLEAR, FLT_ACK, FLAG_FALL and RATE_HIT (R431 to R434): a clear takes effect once the cause is gone and is counted while it persists; an
acknowledgement in time stops the clock and a late one does nothing; at flag fall FELL is set; a unit at CORR_RATE starts the Corrected clock. -/
def Sys2Proof.Claims.ChessClocks : Prop :=
  ∀ (c : Fin 4) (m : Master) (s : State), let b := fun (x : Nat) => x / 2 ^ c.val % 2; let without := fun (x : Nat) => x - 2 ^ c.val * b x
    let on := b (s.rd R.FLT_STATUS_SET); let ff := max 1 (s.rd (R.FLT_POLICY0_FF c)) * 1000000
    (Reaches s m 0x30000 →
      (on = 0 → exec (.fltStatusClear m (BitVec.ofNat 4 (2 ^ c.val))) s = .next s) ∧
      (on = 1 → s.causePersists c = true → Does (.fltStatusClear m (BitVec.ofNat 4 (2 ^ c.val))) s (fun t =>
        t.rd R.FLT_CLEAR_IGNORED = (s.rd R.FLT_CLEAR_IGNORED + 1) % 2 ^ 64 ∧ Keeps s t [R.FLT_CLEAR_IGNORED.key])) ∧
      (on = 1 → s.causePersists c = false → Does (.fltStatusClear m (BitVec.ofNat 4 (2 ^ c.val))) s (fun t =>
        (∀ f ∈ [R.FLT_STATUS_SET, R.FLT_STATUS_ACKED, R.FLT_STATUS_FELL], t.rd f = without (s.rd f)) ∧ (t.cls c).clock = none ∧ (t.cls c).stopped = false ∧
        (∀ w : Nat, w < 8 → t.rd (R.FLT_REC c w) = s.rd (R.FLT_REC c w)) ∧ t.mem = s.mem))) ∧
    (Reaches s m 0x30008 → ∀ at_ : Nat, (s.cls c).clock = some at_ → on = 1 → b (s.rd R.FLT_STATUS_FELL) = 0 →
      (s.now < at_ + ff → Does (.fltAck m (BitVec.ofNat 4 (2 ^ c.val))) s (fun t => (t.cls c).clock = none ∧ (t.cls c).stopped = true ∧
        t.rd R.FLT_STATUS_ACKED = s.rd R.FLT_STATUS_ACKED ||| 2 ^ c.val ∧ Keeps s t [R.FLT_STATUS_ACKED.key])) ∧
      (at_ + ff ≤ s.now → exec (.fltAck m (BitVec.ofNat 4 (2 ^ c.val))) s = .next s)) ∧
    ((s.cls c).clock = none → exec (.flagFall c) s = .next s) ∧
    (∀ at_ : Nat, (s.cls c).clock = some at_ → (s.now < at_ + ff → exec (.flagFall c) s = .next s) ∧
      (at_ + ff ≤ s.now → c.val = 0 → (∀ u : Nat, u < 717 → s.rd (R.FLT_UNIT_RATE_HIT u) = 0) → s.inStack = false → Does (.flagFall c) s (fun t =>
        t.rd R.FLT_STATUS_FELL = s.rd R.FLT_STATUS_FELL ||| 1 ∧ t.rd R.FLT_STATUS_ALERT = 1 ∧ (t.cls c).clock = none ∧
        t.rd R.FLT_FLAG_FALLS = (s.rd R.FLT_FLAG_FALLS + 1) % 2 ^ 64 ∧
        t.out = (if s.msgOn (2 ^ 20) = true ∧ s.msgMasked (2 ^ 20) = false then s.msixMsg (2 ^ 20) :: s.out else s.out) ∧
        (s.msgOn (2 ^ 20) = true → s.msgMasked (2 ^ 20) = true → SMap.get 0 t.msgPba (2 ^ 20) = 1) ∧
        Keeps s t [R.FLT_STATUS_FELL.key, R.FLT_STATUS_ALERT.key, R.FLT_FLAG_FALLS.key]))) ∧
    (∀ unit : BitVec 10, let u := unit.toNat
      (716 < u ∨ s.rd (R.FLT_UNIT_RATE_HIT u) = 1 ∨ SMap.get 0 s.flt.corrIdx u ≠ s.now / 1000000000 ∨ s.rd (R.FLT_UNIT_CORR_WIN u) < max 1 (s.rd R.FLT_POLICY1_CORR_RATE) →
        exec (.rateHit unit) s = .next s) ∧
      (u ≤ 716 → s.rd (R.FLT_UNIT_RATE_HIT u) = 0 → SMap.get 0 s.flt.corrIdx u = s.now / 1000000000 →
        max 1 (s.rd R.FLT_POLICY1_CORR_RATE) ≤ s.rd (R.FLT_UNIT_CORR_WIN u) → Does (.rateHit unit) s (fun t =>
          t.rd (R.FLT_UNIT_RATE_HIT u) = 1 ∧ ((s.cls 0).stopped = false → (s.cls 0).clock = none → (t.cls 0).clock = some s.now) ∧
          Keeps s t [(R.FLT_UNIT_RATE_HIT u).key])))

/-- FLAG_FALL of the classes that escalate (R433): Corrected raises each unit at its rate as Deferred, and Deferred each unit
with such an error that can be held as Uncorrected-contained, both at the address of its last error; Uncorrected-contained fences
each held unit, and Fatal takes the Fatal actions, which end with RESET_REQ. -/
def Sys2Proof.Claims.Escalations : Prop :=
  ∀ (c : Fin 4) (at_ : Nat) (s : State), (s.cls c).clock = some at_ → at_ + max 1 (s.rd (R.FLT_POLICY0_FF c)) * 1000000 ≤ s.now →
    let fallen := (((s.setCls c { s.cls c with clock := none, stopped := true }).wr R.FLT_STATUS_FELL (s.rd R.FLT_STATUS_FELL ||| 2 ^ c.val)).bump
      R.FLT_FLAG_FALLS).vector 0
    let promoted := fun (units : List Nat) (cls : Nat) => units.foldl (fun (t : State) u =>
      t.reportHold { unit := u, code := t.rd (R.FLT_UNIT_LAST_CODE u), cls := cls, addr := SMap.get 0 t.flt.lastAddr u, promoted := true }) fallen
    exec (.flagFall c) s = .next ((match c.val with
      | 0 => promoted ((List.range 717).filter (fun u => s.rdB (R.FLT_UNIT_RATE_HIT u))) 1
      | 1 => promoted ((s.cls 1).units.filter holdable) 2
      | 2 => (s.cls 2).holding.foldl fallFence fallen
      | _ => fallen.fatalActions).refreshAlert.stackEvents) ∧
    fallen.fatalActions.rd R.FLT_STATUS_RESET_REQ = 1

/-- Clears, acknowledgements, flag fall and its escalations. -/
def Obligations.FaultClocks : Prop := Sys2Proof.Claims.ChessClocks ∧ Sys2Proof.Claims.Escalations

/-- INJECT and INJECT_STOP (R435): KIND 3 stops continuous injections; a second continuous one is BUSY; a unit without the checker, or one in service
without INJ_LIVE, is not accepted; an injection into check bits waits for the next check; any other acts at once, and a continuous one lasts. -/
def Sys2Proof.Claims.Injections : Prop :=
  ∀ (m : Master) (unit : BitVec 10) (code : BitVec 16) (kind : BitVec 2) (cont : Bool) (s : State), Reaches s m 0x30028 →
    let u := unit.toNat; let ends := fun (r : Nat) => exec (.inject m unit code kind cont) s = .next (s.wr R.FLT_INJ_STAT_RESULT r)
    (∀ c ∈ [Instr.injectStop m unit code, .inject m unit code 3 cont], Does c s (fun t => t.rd R.FLT_INJ_STAT_ACTIVE = 0 ∧ t.rd R.FLT_INJ_STAT_RESULT = 0 ∧
      t.flt.inj = s.flt.inj.filter (fun j => !j.cont) ∧ Keeps s t [R.FLT_INJ_STAT_ACTIVE.key, R.FLT_INJ_STAT_RESULT.key])) ∧
    (kind ≠ 3 → s.rd R.FLT_INJ_STAT_ACTIVE = 1 → ends 1) ∧
    (kind ≠ 3 → s.rd R.FLT_INJ_STAT_ACTIVE = 0 → 716 < u ∨ hasChecker u code.toNat = false → ends 3) ∧
    (kind ≠ 3 → s.rd R.FLT_INJ_STAT_ACTIVE = 0 → u ≤ 716 → hasChecker u code.toNat = true →
      (s.mayInject u = false → ends 2) ∧
      (s.mayInject u = true → kind ≠ 2 → (eccCodes code.toNat).isSome → Does (.inject m unit code kind cont) s (fun t =>
        t.rd R.FLT_INJ_STAT_RESULT = 0 ∧ t.rdB R.FLT_INJ_STAT_ACTIVE = cont ∧
        t.flt.inj = s.flt.inj ++ [{ unit := u, code := code.toNat, kind := kind.toNat, cont := cont }] ∧
        Keeps s t [R.FLT_INJ_STAT_ACTIVE.key, R.FLT_INJ_STAT_RESULT.key])) ∧
      (let raised := if kind = 2 then 0x0B08 else code.toNat; let c := raisedClass u raised
        s.mayInject u = true → kind = 2 ∨ (eccCodes code.toNat).isNone → s.inStack = false → s.flt.inj = [] → s.pairMasked u true = false → c = 0 ∨ c = 3 →
        Does (.inject m unit code kind cont) s (fun t => t.rd R.FLT_INJ_STAT_RESULT = 0 ∧ t.rdB R.FLT_INJ_STAT_ACTIVE = cont ∧
          t.flt.inj = (if cont then [{ unit := u, code := raised, kind := kind.toNat, cont := true }] else []) ∧
          t.rd (clsCounter c) = (s.rd (clsCounter c) + 1) % 2 ^ 64 ∧ t.rd R.FLT_INJECTED = (s.rd R.FLT_INJECTED + 1) % 2 ^ 64 ∧
          t.rd (R.FLT_UNIT_LAST_CODE u) = raised ∧ t.mem = s.mem)))

/-- TEST_START, TEST_VERDICT and BANK_TEST (R37, R146, R436 to R438): a pending test of a lane, free block or row starts where no other runs on its
unit; what it measured makes its region transient or lasting, for a lane in service fewer corrected symbols than 2^HEALTH_EXP
and an eye of at least 15 %; the verdict stands in FLT_UNIT; a lasting row takes a spare row, and a lane that fails keeps its isolated port group fenced; an empty bank is
tested when it is fenced, or under ALL; nothing moves while the arbiter does not run. -/
def Sys2Proof.Claims.TestsRun : Prop :=
  (∀ (r : TestRegion) (u : Nat) (s : State), u < 714 →
    (s.flt.pending.find? (fun t => t.1 == r) = none → exec (.testStart r) s = .next s) ∧
    (s.flt.running.find? (fun t => t.1 == r) = none → ∀ m : TestResult, exec (.testVerdict r m) s = .next s) ∧
    (s.rd R.FLT_ARB_STAT_STATE ≠ 0 → exec (.testStart r) s = .next s ∧ ∀ m : TestResult, exec (.testVerdict r m) s = .next s) ∧
    (∀ m : TestResult, s.flt.running.find? (fun t => t.1 == r) = some (r, u) → s.testPasses r u m = none → exec (.testVerdict r m) s = .next s) ∧
    (s.rd R.FLT_ARB_STAT_STATE = 0 → (match r with | .lane _ => true | .block _ => true | .memRow _ => true | _ => false) = true →
      (s.flt.pending.find? (fun t => t.1 == r) = some (r, u) → s.blockFree r = false → exec (.testStart r) s = .next s) ∧
      (s.flt.pending.find? (fun t => t.1 == r) = some (r, u) → s.blockFree r = true → s.flt.running.any (fun t => t.2 == u) = false → s.outUnit u = false →
        Does (.testStart r) s (fun t => t.flt.running = s.flt.running ++ [(r, u)] ∧ t.flt.pending = s.flt.pending.filter (fun x => x.1 != r) ∧
          t.rdB (R.FLT_UNIT_TEST_PENDING u) = t.flt.pending.any (fun x => x.2 == u) ∧ Keeps s t [(R.FLT_UNIT_TEST_PENDING u).key])) ∧
      (s.flt.running = [(r, u)] → s.flt.pending = [] → s.unitDown u = false → u ∉ s.flt.failed → s.flt.cmdUnit = none → s.flt.fellFenced = [] →
       s.arb.returning = [] →
        (∀ (l : Fin 512) (errors : BitVec 64) (early late : Bool), r = .lane l → u = 16 + l.val / 4 → s.isolated u = true →
          errors ≠ 0 ∨ early = false ∨ late = false → Does (.testVerdict r (.pattern errors early late)) s (fun t =>
            t.rd (R.FLT_UNIT_STATE u) = 3 ∧ t.rd (R.FLT_UNIT_VERDICT u) = 2)) ∧
        (∀ (l : Fin 512) (n : BitVec 32) (eye : BitVec 7), r = .lane l → s.outUnit u = false → Does (.testVerdict r (.margin n eye)) s (fun t =>
          t.rd (R.FLT_UNIT_VERDICT u) = (if n.toNat < 2 ^ s.healthExp (l.val / 32) ∧ 15 ≤ eye.toNat then 1 else 2))) ∧
        ∀ (m : TestResult) (pass : Bool), s.testPasses r u m = some pass → pass = true ∨ 288 ≤ u ∨ s.isolated u = false →
          Does (.testVerdict r m) s (fun t => t.rd (R.FLT_UNIT_VERDICT u) = (if pass then 1 else 2) ∧ t.flt.running = [] ∧
          (pass = true → t.wasTransient r = true) ∧ (∀ x, r = .memRow x → pass = false → s.flt.sparedRows < Config.memSpareRows →
            t.flt.sparedRows = s.flt.sparedRows + 1) ∧
          (∀ l, r = .lane l → pass = true → t.rd (R.LT_HEALTH_UNHEALTHY (l.val / 32)) / 2 ^ (l.val % 32) % 2 = 0))))) ∧
  (∀ (bank : Fin 390) (pass : Bool) (s : State), let u := 288 + bank.val
    let may := s.flt.fencedBanks.contains bank.val || s.allIsolated
    (may = false ∨ s.bankUsed bank.val ≠ 0 ∨ s.testDue (regionOf u) = false ∨ s.rd R.FLT_ARB_STAT_STATE ≠ 0 →
      exec (.bankTest bank pass) s = .next s) ∧
    (s.rd R.FLT_ARB_STAT_STATE = 0 → may = true → s.bankUsed bank.val = 0 → s.testDue (regionOf u) = true →
      exec (.bankTest bank pass) s = .next (s.endTest (regionOf u) u pass)))

/-- Fault injection, and targeted tests from start to verdict. -/
def Obligations.InjectionAndTests : Prop := Sys2Proof.Claims.Injections ∧ Sys2Proof.Claims.TestsRun

/-- FLT_CMD (R440): while one runs a further one is BUSY; a unit of another kind, or absent, is REFUSED. -/
def Sys2Proof.Claims.UnitCommandChecks : Prop :=
  ∀ (m : Master) (unit : BitVec 10) (s : State), Reaches s m 0x30038 → let u := unit.toNat
    ∀ c ∈ [Instr.test m unit, .release m unit, .fence m unit, .spare m unit, .unfence m unit],
      (s.rd R.FLT_CMD_STAT_BUSY = 1 → exec c s = .next (s.wr R.FLT_CMD_STAT_RESULT 1)) ∧
      (s.rd R.FLT_CMD_STAT_BUSY = 0 → cmdUnit u = false ∨ s.rd (R.FLT_UNIT_STATE u) = 5 →
        exec c s = .next ((s.wr R.FLT_CMD_STAT_LAST_UNIT u).wr R.FLT_CMD_STAT_RESULT 5))

/-- TEST, RELEASE, FENCE, SPARE and UNFENCE (R440 to R442, R468) on a unit of a kind that takes them: TEST needs the unit out of service; RELEASE a held
unit whose verdict is not lasting; FENCE and SPARE log the fence, at once or when IN_LOW clears, or answer NO_LOG; SPARE puts a spare in the place of a
fenced pawn; on a kind without spares it is REFUSED, and without one left NO_SPARE; UNFENCE marks the entry and is not for the fabric manager. -/
def Sys2Proof.Claims.UnitCommands : Prop :=
  ∀ (m : Master) (unit : BitVec 10) (s : State), let u := unit.toNat; UnitCmd s m u →
    let st := s.rd (R.FLT_UNIT_STATE u); let k := [R.FLT_CMD_STAT_RESULT.key, R.FLT_CMD_STAT_LAST_UNIT.key]
    let ended := fun (c : Instr) (r : Nat) => Does c s (fun t => UnitDone t u r ∧ Keeps s t k)
    (s.mayTest u = false → ended (.test m unit) 5) ∧
    (s.mayTest u = true → 682 ≤ u → u < 714 → s.testDue (regionOf u) = false → s.flt.running.any (fun t => t.2 == u) = false →
      Does (.test m unit) s (fun t => UnitDone t u 0 ∧ t.rd R.FLT_CMD_STAT_BUSY = 1 ∧ t.flt.cmdUnit = some u ∧ t.rd (R.FLT_UNIT_STATE u) = 2 ∧
        t.flt.running = s.flt.running ++ [(regionOf u, u)])) ∧
    (st ≠ 1 → ended (.release m unit) 2) ∧
    (st = 1 → s.rd (R.FLT_UNIT_VERDICT u) = 2 → ended (.release m unit) 4) ∧
    (st = 1 → s.rd (R.FLT_UNIT_VERDICT u) ≠ 2 → 682 ≤ u → u < 714 → Does (.release m unit) s (fun t => UnitDone t u 0 ∧ t.rd (R.FLT_UNIT_STATE u) = 0 ∧
      (∀ c : Fin 4, u ∉ (t.cls c).holding) ∧ Keeps s t ((R.FLT_UNIT_STATE u).key :: k))) ∧
    (st = 3 → s.rd R.PWR_STAT_IN_LOW = 1 → s.rd (R.FLT_UNIT_LOGGED u) = 0 → Does (.fence m unit) s (fun t => UnitDone t u 0 ∧ u ∈ t.flt.logDue ∧
      Keeps s t k)) ∧
    (st = 3 → s.rd R.PWR_STAT_IN_LOW = 0 → s.rd R.FLT_ARB_STAT_STATE = 0 → ∃ ok : Bool, Does (.fence m unit) s (fun t => UnitDone t u (if ok then 0 else 7) ∧ Logged s t u ok ∧ t.rd (R.FLT_UNIT_STATE u) = 3 ∧
      t.mem = s.mem)) ∧
    (682 ≤ u → u < 714 → st = 0 → s.xpt.conns = [] → s.flt.remaps = [] → s.channelShare ≤ s.unusedBlocks → Canonical s →
      Does (.fence m unit) s (fun t => t.rd (R.FLT_UNIT_STATE u) = 3 ∧ t.flt.remaps = [.channel (u - 682)] ∧
        (∀ w : Nat, w / 512 % 32 ≠ u - 682 → SMap.get 0 t.mem w = SMap.get 0 s.mem w) ∧
        (∀ w : Nat, w / 512 % 32 = u - 682 → (s.partition 3).1 ≤ 8 * w → 8 * w < (s.partition 3).1 + (s.partition 3).2 → SMap.get 0 t.mem w = 0))) ∧
    (hasSpares u = false → ended (.spare m unit) 5) ∧
    (∀ v : Nat, 148 ≤ u → u < 252 → st = 3 → s.rd R.PWR_STAT_IN_LOW = 0 → s.rd R.FLT_ARB_STAT_STATE = 0 → s.flt.spared.contains u = false →
      s.nextSpare u = some v → ∃ ok : Bool, Does (.spare m unit) s (fun t => UnitDone t u (if ok then 0 else 7) ∧ Logged s t u ok ∧
        t.rd (R.FLT_UNIT_STATE v) = 0 ∧ t.rd (R.MTC_PAWN_STAT_SPARE (v - 148)) = 0 ∧ t.flt.spared = s.flt.spared ++ [u])) ∧
    (hasSpares u = true → u < 288 → st = 3 → s.rd R.PWR_STAT_IN_LOW = 0 → s.rd R.FLT_ARB_STAT_STATE = 0 → s.flt.spared.contains u = true →
      ∃ ok : Bool, Does (.spare m unit) s (fun t =>
      UnitDone t u (if ok then 0 else 7) ∧ Logged s t u ok)) ∧
    (hasSpares u = true → u < 288 → st = 3 → s.rd R.PWR_STAT_IN_LOW = 0 → s.rd R.FLT_ARB_STAT_STATE = 0 → s.flt.spared.contains u = false → s.nextSpare u = none →
      ∃ ok : Bool, Does (.spare m unit) s (fun t => UnitDone t u 3 ∧ Logged s t u ok)) ∧
    (m = .manager → ended (.unfence m unit) 6) ∧
    (m ≠ .manager → Does (.unfence m unit) s (fun t => UnitDone t u 0 ∧ (∀ n : Nat, n < 64 →
      t.rdB (R.FLT_FENCE_LOG_CLEARING n) = (s.rdB (R.FLT_FENCE_LOG_CLEARING n) || (s.rdB (R.FLT_FENCE_LOG_VALID n) &&
        s.rd (R.FLT_FENCE_LOG_UNIT n) == u))) ∧ Keeps s t (k ++ (List.range 64).map (fun n => (R.FLT_FENCE_LOG_CLEARING n).key))))

/-- FLT_CMD: when it is turned away, and TEST, RELEASE, FENCE, SPARE and UNFENCE. -/
def Obligations.UnitActions : Prop := Sys2Proof.Claims.UnitCommandChecks ∧ Sys2Proof.Claims.UnitCommands

/-- TABLE_REWRITE (R443): the arbiter restores a bad entry of an active bank where its copy reads back or a spare row is left; else the error is
Fatal; a due test of the entry ends with what it read back; without a running processor, or without such an entry, nothing happens. -/
def Sys2Proof.Claims.TableRewrite : Prop :=
  ∀ (off : BitVec 26) (ok spare : Bool) (s : State), let o := entryBase off.toNat
    let due := (s.flt.pending ++ s.flt.running).find? (fun t => match t.1 with | .tableEntry x => entryBase x.toNat == o | _ => false)
    (s.rd R.FLT_ARB_STAT_STATE ≠ 0 → exec (.tableRewrite off ok spare) s = .next s) ∧
    (s.flt.badTable.find? (fun b => b.1 == o) = none → due = none → exec (.tableRewrite off ok spare) s = .next s) ∧
    (∀ (r : TestRegion) (u : Nat), s.rd R.FLT_ARB_STAT_STATE = 0 → s.flt.badTable = [] → due = some (r, u) → s.flt.pending ++ s.flt.running = [(r, u)] →
      u < 717 → s.unitDown u = false → u ∉ s.flt.failed → s.flt.cmdUnit = none → s.flt.fellFenced = [] → s.arb.returning = [] → ok = true →
      Does (.tableRewrite off ok spare) s (fun t => t.rd (R.FLT_UNIT_VERDICT u) = 1 ∧ t.testDue r = false ∧ t.wasTransient r = true)) ∧
    (∀ (saved : SMap Nat) (u : Nat), s.rd R.FLT_ARB_STAT_STATE = 0 → s.flt.badTable.find? (fun b => b.1 == o) = some (o, saved, u) → due = none →
      (∀ k ∈ saved.map Prod.fst, entryBase (keyOff k) = o) → SMap.wf 0 saved = true →
      (ok = true ∨ spare = true → Does (.tableRewrite off ok spare) s (fun t =>
        (∀ k : Nat, entryBase (keyOff k) = o → SMap.get 0 t.flds k = SMap.get 0 saved k) ∧
        (∀ k : Nat, entryBase (keyOff k) ≠ o → SMap.get 0 t.flds k = SMap.get 0 s.flds k) ∧
        t.flt.badTable = s.flt.badTable.filter (fun b => b.1 != o) ∧ t.mem = s.mem)) ∧
      (ok = false → spare = false → s.inStack = false → Does (.tableRewrite off ok spare) s (fun t =>
        t.rd R.FLT_STATUS_SET = s.rd R.FLT_STATUS_SET ||| 8 ∧ t.rd (R.FLT_UNIT_LAST_CODE u) = 0x0708 ∧ t.flt.badTable = s.flt.badTable)))

/-- RESTART, RESTART_DONE and HEADLESS_LIMIT (R445 to R447): only master 0x001 restarts the processor, which drops the requests; a restart that
succeeds ends headless forwarding and one that fails keeps it; 24 h after a loss the Fatal actions apply. -/
def Sys2Proof.Claims.Processor : Prop :=
  ∀ s : State,
    (∀ m : Master, Reaches s m 0x30048 →
      (m ≠ .commander ∨ s.flt.restarting = true → exec (.restart m) s = .next s) ∧
      (m = .commander → s.flt.restarting = false → Does (.restart m) s (fun t => t.rd R.FLT_ARB_STAT_STATE = 1 ∧ t.flt.restarting = true ∧
        t.rd R.FLT_ARB_STAT_RESTARTS = (s.rd R.FLT_ARB_STAT_RESTARTS + 1) % 2 ^ 16 ∧ t.cgc.reqs = [] ∧
        t.arb.queue = s.arb.queue.filter (fun c => match c with | .strobe _ _ => false | _ => true)))) ∧
    (∀ ok : Bool, s.flt.restarting = false → exec (.restartDone ok) s = .next s) ∧
    (s.flt.restarting = true → Does (.restartDone false) s (fun t => t.rd R.FLT_ARB_STAT_STATE = 2 ∧ t.rd R.FLT_ARB_STAT_RESTART_FAIL = 1 ∧
      t.rd R.FLT_STATUS_HEADLESS = 1 ∧ t.rd R.FLT_STATUS_ALERT = 1 ∧ t.flt.restarting = false)) ∧
    (s.flt.restarting = true → Idle s → s.rd (R.FLT_UNIT_STATE 714) = 0 → s.testDue (regionOf 714) = false → s.flt.spareDue = [] → s.flt.logDue = [] →
      (∀ u : Nat, u < 717 → s.rd (R.FLT_UNIT_STATE u) ≠ 1) →
      Does (.restartDone true) s (fun t => t.rd R.FLT_ARB_STAT_STATE = 0 ∧ t.rd R.FLT_ARB_STAT_RESTART_FAIL = 0 ∧ t.rd R.FLT_STATUS_HEADLESS = 0 ∧
        t.flt.restarting = false ∧ t.flt.lostAt = none)) ∧
    (s.flt.lostAt = none ∨ s.rd R.FLT_STATUS_HEADLESS_END = 1 → exec .headlessLimit s = .next s) ∧
    (∀ at_ : Nat, s.flt.lostAt = some at_ →
      (s.powered < at_ + 86400000000000 → exec .headlessLimit s = .next s) ∧
      (at_ + 86400000000000 ≤ s.powered → s.rd R.FLT_STATUS_HEADLESS_END = 0 → exec .headlessLimit s = .next
        (((s.reportHold { unit := 714, code := 0x0B09, cls := 3 }).wr R.FLT_STATUS_HEADLESS_END 1).fatalActions.stackEvents)))

/-- AGEING_READ and LIFE_STORE (R448, R468): once in every hour of powered time the prediction of an island, with a LIFE_LOW the first time its lower
bound falls below LIFE_WARN, and every 24 h the store of all predictions, which IN_LOW puts off. -/
def Sys2Proof.Claims.Ageing : Prop :=
  (∀ (k : Fin 26) (nominal lower drift : BitVec 16) (em esr : BitVec 8) (s : State), let hour := s.powered / 3600000000000
    let low := decide (lower.toNat < max 1 (s.rd R.FLT_POLICY1_LIFE_WARN))
    (s.pwr.state ≠ .on ∨ hour ≤ SMap.get 0 s.flt.ageHour k.val → exec (.ageingRead k nominal lower drift em esr) s = .next s) ∧
    (s.pwr.state = .on → SMap.get 0 s.flt.ageHour k.val < hour → s.inStack = false → Does (.ageingRead k nominal lower drift em esr) s (fun t =>
      SMap.get 0 t.flt.ageHour k.val = hour ∧ t.rd (R.FLT_LIFE_NOMINAL k) = nominal.toNat ∧ t.rd (R.FLT_LIFE_LOWER k) = lower.toNat ∧
      t.rd (R.FLT_LIFE_RO_DRIFT k) = drift.toNat ∧ t.rd (R.FLT_LIFE_EM_USED k) = em.toNat ∧
      t.rd (R.FLT_LIFE_ESR_RISE k) = (if k.val = 25 then esr.toNat else 0) ∧ t.flt.lifeLow.contains k.val = low ∧
      t.rd R.FLT_CNT_CORR = (if low ∧ s.flt.lifeLow.contains k.val = false then (s.rd R.FLT_CNT_CORR + 1) % 2 ^ 64 else s.rd R.FLT_CNT_CORR) ∧
      t.mem = s.mem))) ∧
  (∀ s : State, let day := s.powered / 86400000000000
    (s.pwr.state ≠ .on ∨ day ≤ s.flt.storeDay ∨ s.rd R.PWR_STAT_IN_LOW = 1 → exec .lifeStore s = .next s) ∧
    (s.pwr.state = .on → s.flt.storeDay < day → s.rd R.PWR_STAT_IN_LOW = 0 → Does .lifeStore s (fun t => t.flt.storeDay = day ∧
      (∀ k : Nat, k < 26 → SMap.get 0 t.flt.life k = s.rd (R.FLT_LIFE_NOMINAL k) +
        s.rd (R.FLT_LIFE_LOWER k) * 2 ^ 16 + s.rd (R.FLT_LIFE_RO_DRIFT k) * 2 ^ 32 + s.rd (R.FLT_LIFE_EM_USED k) * 2 ^ 48 +
        s.rd (R.FLT_LIFE_ESR_RISE k) * 2 ^ 56) ∧ Keeps s t [])))

/-- Table repair, the arbiter's processor, and life predictions. -/
def Obligations.RepairAndAgeing : Prop := Sys2Proof.Claims.TableRewrite ∧ Sys2Proof.Claims.Processor ∧ Sys2Proof.Claims.Ageing

/-- ON_PAIR (R445, R453, R454): only the parent's new pair moves the clock, which holds its rate headless and without its reference; an offset beyond STEP_NS steps it and begins anew, and a step of valid time is
counted and ends the validity; a smaller one is corrected, and eight within LOCK_NS make the time valid and end holdover. -/
def Sys2Proof.Claims.PairsFromParent : Prop :=
  ∀ (p : Fin 256) (s : State), let o := signedOf 64 (s.rd (R.LNK_TIME_OFFSET_OFFSET (p / 2) (p % 2)))
    let a := s.modPort p (fun x => { x with pairNew := false })
    let held := decide (s.rd R.PWR_CLK_STAT_REF25_LOST = 1) || decide (s.rd R.FLT_ARB_STAT_STATE ≠ 0)
    let lim : Int := (max 100 (s.rd R.TIM_SERVO_STEP_NS) : Nat) * 65536; let lock : Int := (s.rd R.TIM_SERVO_LOCK_NS : Nat) * 65536
    let good := if -lock ≤ o ∧ o ≤ lock then s.time.good + 1 else 0
    (s.rd R.TIM_CFG_ROLE = 1 ∨ s.rd R.TIM_STAT_PARENT ≠ p.val ∨ (s.port p).pairNew = false → exec (.onPair p) s = .next s) ∧
    (s.rd R.TIM_CFG_ROLE = 0 → s.rd R.TIM_STAT_PARENT = p.val → (s.port p).pairNew = true →
      (held = true → exec (.onPair p) s = .next a) ∧
      (held = false → -lim ≤ o → o ≤ lim → s.timeValid = true ∨ good < 8 → Does (.onPair p) s (fun t =>
        t.time.integ = s.time.integ + o / 2 ^ s.rd R.TIM_SERVO_KI_SHIFT ∧ t.time.slew = o / 2 ^ s.rd R.TIM_SERVO_KP_SHIFT + t.time.integ ∧
        t.time.good = good ∧ t.time.ft = s.time.ft ∧ t.time.servoAt = some s.now ∧ (∀ at_ : Nat, s.time.servoAt = some at_ → t.time.gap = s.now - at_) ∧
        t.time.holdAt = (if 8 ≤ good then none else s.time.holdAt) ∧ t.rd R.TIM_LAST_OFFSET_O = s.rd (R.LNK_TIME_OFFSET_OFFSET (p / 2) (p % 2)) ∧
        Keeps s t [R.TIM_LAST_OFFSET_O.key])) ∧
      (held = false → -lim ≤ o → o ≤ lim → s.timeValid = false → 8 ≤ good → Does (.onPair p) s (fun t => t.timeValid = true)) ∧
      (held = false → o < -lim ∨ lim < o → s.timeValid = false → Does (.onPair p) s (fun t =>
        t.time.ft = ((s.time.ft : Int) + o).toNat % 2 ^ 80 ∧ t.time.integ = 0 ∧ t.time.good = 0 ∧ t.time.slew = 0 ∧
        t.rd R.TIM_STEPS = s.rd R.TIM_STEPS ∧ Keeps s t [R.TIM_LAST_OFFSET_O.key])) ∧
      (held = false → o < -lim ∨ lim < o → s.timeValid = true → Does (.onPair p) s (fun t =>
        t.time.ft = ((s.time.ft : Int) + o).toNat % 2 ^ 80 ∧ t.time.integ = 0 ∧ t.time.good = 0 ∧ t.time.slew = 0 ∧ t.timeValid = false ∧
        t.rd R.TIM_STEPS = (s.rd R.TIM_STEPS + 1) % 2 ^ 64 ∧ t.mem = s.mem)))

/-- PARENT_TIMEOUT, REATTACH, HOLDOVER_EXPIRE (R452, R454): a parent without a complete pair for 100 µs is lost and holdover begins; a follower past
REATTACH_US takes a candidate, and what is left of HOLDOVER_S runs on until the clock has locked to it; holdover is valid for HOLDOVER_S, and with 0
never. -/
def Sys2Proof.Claims.ParentsAndHoldover : Prop :=
  ∀ s : State, let p := s.rd R.TIM_STAT_PARENT
    (p = 0x1FF ∨ s.now < (s.port p).pairAt + 100000 → exec .parentTimeout s = .next s) ∧
    (p ≠ 0x1FF → (s.port p).pairAt + 100000 ≤ s.now → 0 < s.rd R.TIM_CFG_HOLDOVER_S → Does .parentTimeout s (fun t => t.rd R.TIM_STAT_PARENT = 0x1FF ∧
      t.rd R.TIM_STAT_STATE = 2 ∧ t.rd R.TIM_STAT_STEPS = 255 ∧ t.rd R.TIM_STAT_HOLD_S = 0 ∧ t.timeValid = s.timeValid ∧
      t.rd R.TIM_HOLDOVERS = (s.rd R.TIM_HOLDOVERS + 1) % 2 ^ 64 ∧ t.rd R.TIM_PARENT_CHANGES = (s.rd R.TIM_PARENT_CHANGES + 1) % 2 ^ 64 ∧
      t.time.holdAt = some s.now ∧ t.time.reattachAt = s.now + max 50 (s.rd R.TIM_CFG_REATTACH_US) * 1000 ∧ t.time.ft = s.time.ft)) ∧
    (p ≠ 0x1FF → (s.port p).pairAt + 100000 ≤ s.now → s.rd R.TIM_CFG_HOLDOVER_S = 0 → Does .parentTimeout s (fun t => t.rd R.TIM_STAT_PARENT = 0x1FF ∧
      t.rd R.TIM_STAT_STATE = 2 ∧ t.timeValid = false)) ∧
    (s.rd R.TIM_CFG_ROLE = 1 ∨ p ≠ 0x1FF ∨ s.now < s.time.reattachAt ∨ s.bestParent = none → exec .reattach s = .next s) ∧
    (∀ q : Nat, q < 256 → s.rd R.TIM_CFG_ROLE = 0 → p = 0x1FF → s.time.reattachAt ≤ s.now → s.bestParent = some q → Does .reattach s (fun t =>
      t.rd R.TIM_STAT_PARENT = q ∧ t.rd R.TIM_STAT_STATE = 1 ∧ t.rd R.TIM_STAT_STEPS = ((s.port q).peerSteps + 1) % 2 ^ 8 ∧ t.time.holdAt = s.time.holdAt ∧ t.time.servoAt = none ∧
      t.rd R.TIM_PARENT_CHANGES = (s.rd R.TIM_PARENT_CHANGES + 1) % 2 ^ 64 ∧ (t.port q).pairAt = s.now)) ∧
    (s.time.holdAt = none → exec .holdoverExpire s = .next s) ∧
    (∀ at_ : Nat, s.time.holdAt = some at_ →
      (s.now < at_ + s.rd R.TIM_CFG_HOLDOVER_S * 1000000000 → exec .holdoverExpire s = .next s) ∧
      (at_ + s.rd R.TIM_CFG_HOLDOVER_S * 1000000000 ≤ s.now → Does .holdoverExpire s (fun t => t.timeValid = false)))

/-- A follower corrects its clock from its parent's pairs, loses and takes parents, and holds over. -/
def Obligations.FollowingTime : Prop := Sys2Proof.Claims.PairsFromParent ∧ Sys2Proof.Claims.ParentsAndHoldover

/-- ROLE_CHANGE, LOAD, ARM (R385, R451, R454, R456): a locked role is kept and the write recorded with reason 6; a source takes STEPS 0 and no parent
and a follower begins in holdover; a load sets the time of a source and makes it valid, and is ignored on a follower. -/
def Sys2Proof.Claims.SourceOfTime : Prop :=
  ∀ (m : Master) (s : State),
    (Reaches s m 0x40000 → ∀ b : Bool,
      (s.rd R.GLB_LOCK_TIM_LOCK = 1 → exec (.roleChange m b) s = .next (s.recordAcc 6 true m.id 0x40000)) ∧
      (s.rd R.GLB_LOCK_TIM_LOCK = 0 → s.rdB R.TIM_CFG_ROLE = b → exec (.roleChange m b) s = .next s) ∧
      (s.rd R.GLB_LOCK_TIM_LOCK = 0 → s.rdB R.TIM_CFG_ROLE = !b →
        (b = true → s.rd R.TIM_STAT_PARENT = 0x1FF → Does (.roleChange m b) s (fun t => t.rd R.TIM_CFG_ROLE = 1 ∧ t.rd R.TIM_STAT_STATE = 3 ∧
          t.rd R.TIM_STAT_STEPS = 0 ∧ t.time.holdAt = none ∧ Keeps s t [R.TIM_CFG_ROLE.key, R.TIM_STAT_STATE.key, R.TIM_STAT_STEPS.key])) ∧
        (b = true → s.rd R.TIM_STAT_PARENT ≠ 0x1FF → Does (.roleChange m b) s (fun t => t.rd R.TIM_CFG_ROLE = 1 ∧ t.rd R.TIM_STAT_STATE = 3 ∧
          t.rd R.TIM_STAT_STEPS = 0 ∧ t.rd R.TIM_STAT_PARENT = 0x1FF ∧ t.time.holdAt = none ∧
          t.rd R.TIM_PARENT_CHANGES = (s.rd R.TIM_PARENT_CHANGES + 1) % 2 ^ 64 ∧ t.mem = s.mem)) ∧
        (b = false → 0 < s.rd R.TIM_CFG_HOLDOVER_S → Does (.roleChange m b) s (fun t => t.rd R.TIM_CFG_ROLE = 0 ∧ t.rd R.TIM_STAT_STATE = 2 ∧
          t.rd R.TIM_STAT_STEPS = 255 ∧ t.rd R.TIM_STAT_PARENT = 0x1FF ∧ t.time.holdAt = some s.now ∧ t.timeValid = s.timeValid)))) ∧
    (Reaches s m 0x40030 →
      (s.rd R.TIM_CFG_ROLE = 0 → exec (.load m) s = .next s) ∧
      (s.rd R.TIM_CFG_ROLE = 1 → Does (.load m) s (fun t => t.time.ft = s.rd R.TIM_SET_NS * 65536 % 2 ^ 80 ∧ t.timeValid = true ∧
        t.rd R.TIM_STEPS = (if s.timeValid then (s.rd R.TIM_STEPS + 1) % 2 ^ 64 else s.rd R.TIM_STEPS))) ∧
      Does (.arm m) s (fun t => t.rd R.TIM_SET_CTL_ARMED = 1 ∧ Keeps s t [R.TIM_SET_CTL_ARMED.key]))

/-- PPS_IN, PPS_MISSED, PPS_OUT (R453, R456): edges count on a source with the input enabled; an armed edge loads; one more than 1 ms from a second is
bad, one beyond STEP_NS steps the time, and any other disciplines the rate, which the time unit holds headless and without its reference; none for 1.1 s is
missed once; an output edge comes where valid time has crossed a whole second in the nanosecond that ends, and the pin stays high for 100 ms, not
while the output is off or the time not valid. -/
def Sys2Proof.Claims.PulsePerSecond : Prop :=
  ∀ s : State, let en := decide (s.rd R.TIM_CFG_ROLE = 1) && decide (s.rd R.TIM_CFG_PPS_IN_EN = 1); let r := s.time.ft % 65536000000000
    let o : Int := if 2 * r < 65536000000000 then -(r : Int) else 65536000000000 - r; let near := -65536000000 ≤ o ∧ o ≤ 65536000000
    let lim : Int := (max 100 (s.rd R.TIM_SERVO_STEP_NS) : Nat) * 65536
    let held := decide (s.rd R.PWR_CLK_STAT_REF25_LOST = 1) || decide (s.rd R.FLT_ARB_STAT_STATE ≠ 0)
    let rises := s.rd R.TIM_CFG_PPS_OUT_EN = 1 ∧ s.timeValid = true ∧ s.time.ft % 65536000000000 < s.time.adv ∧ s.time.ppsRose ≠ some s.now
    (en = false → exec .ppsIn s = .next s ∧ exec .ppsMissed s = .next s) ∧
    (en = true →
      (s.rd R.TIM_SET_CTL_ARMED = 1 → Does .ppsIn s (fun t => t.rd R.TIM_SET_CTL_ARMED = 0 ∧ t.time.ft = s.rd R.TIM_SET_NS * 65536 % 2 ^ 80 ∧
        t.timeValid = true ∧ t.time.ppsAt = s.now ∧ t.time.ppsMissed = false)) ∧
      (s.rd R.TIM_SET_CTL_ARMED = 0 → ¬ near → Does .ppsIn s (fun t =>
        t.rd R.TIM_PPS_BAD = (s.rd R.TIM_PPS_BAD + 1) % 2 ^ 64 ∧ t.time = s.time ∧ t.mem = s.mem)) ∧
      (s.rd R.TIM_SET_CTL_ARMED = 0 → near → held = false → o < -lim ∨ lim < o → Does .ppsIn s (fun t => t.time.ft = ((s.time.ft : Int) + o).toNat % 2 ^ 80 ∧
        t.time.integ = 0 ∧ t.time.ppsAt = s.now ∧ t.time.ppsMissed = false ∧ t.timeValid = s.timeValid ∧
        t.rd R.TIM_STEPS = (if s.timeValid then (s.rd R.TIM_STEPS + 1) % 2 ^ 64 else s.rd R.TIM_STEPS) ∧ t.mem = s.mem)) ∧
      (s.rd R.TIM_SET_CTL_ARMED = 0 → near → held = true → Does .ppsIn s (fun t => t.time.integ = s.time.integ ∧ t.time.ft = s.time.ft ∧
        t.time.ppsAt = s.now ∧ t.time.ppsMissed = false ∧ Keeps s t [])) ∧
      (s.rd R.TIM_SET_CTL_ARMED = 0 → near → held = false → -lim ≤ o → o ≤ lim → Does .ppsIn s (fun t =>
        t.time.integ = s.time.integ + o / 2 ^ s.rd R.TIM_SERVO_KI_SHIFT ∧ t.time.ft = s.time.ft ∧ t.time.ppsAt = s.now ∧
        t.time.ppsMissed = false ∧ t.timeValid = s.timeValid ∧ Keeps s t [R.TIM_LAST_OFFSET_O.key])) ∧
      (s.time.ppsMissed = true ∨ s.now < s.time.ppsAt + 1100000000 → exec .ppsMissed s = .next s) ∧
      (s.time.ppsMissed = false → s.time.ppsAt + 1100000000 ≤ s.now → Does .ppsMissed s (fun t => t.time.ppsMissed = true ∧
        t.rd R.TIM_PPS_MISSED = (s.rd R.TIM_PPS_MISSED + 1) % 2 ^ 64 ∧ t.mem = s.mem))) ∧
    (rises → Does .ppsOut s (fun t => t.out = .ppsOut :: s.out ∧ t.time.ppsRose = some s.now ∧ t.ppsPin = true ∧ Keeps s t [])) ∧
    (¬ rises → exec .ppsOut s = .next s) ∧
    (s.ppsPin = true ↔ s.rd R.TIM_CFG_PPS_OUT_EN = 1 ∧ s.timeValid = true ∧ ∃ a : Nat, s.time.ppsRose = some a ∧ s.now < a + 100000000)

/-- The source of fabric time, its load, and the PPS input and output. -/
def Obligations.SourceAndPulse : Prop := Sys2Proof.Claims.SourceOfTime ∧ Sys2Proof.Claims.PulsePerSecond

/-- TIM_NOW_READ, TAKE, SNAP_PERIOD, SAMPLE_RECORD, SAMPLER_ENABLE (R462, R464 to R466): a read of the time latches its fraction for the master; a
snapshot holds every counter at one time, and one TAKE and one boundary in the same nanosecond take one; a record fills 64 bytes of the ring, or is
dropped and counted when the ring is full. -/
def Sys2Proof.Claims.CountersAndSamples : Prop :=
  (∀ (m : Master) (s : State),
    (s.gate m.id false 0x40018 = (s, true) → Does (.timNowRead m) s (fun t => SMap.get 0 t.time.latch m.id = s.time.ft % 65536 ∧
      (∀ n : Nat, n ≠ m.id → SMap.get 0 t.time.latch n = SMap.get 0 s.time.latch n) ∧
      t.out = .readData m.id 0x40018 (BitVec.ofNat 64 s.ns) :: s.out ∧ Keeps s t [])) ∧
    (let shot := fun (t : State) => (∀ k : Nat, SMap.get 0 t.pmon.snap k = if isCounter (k / 64 * 8) then SMap.get 0 s.settlePats.flds k else 0) ∧
        t.rd R.PMON_SNAP_TIME_NS = s.winTime % 2 ^ 64 ∧ t.mem = s.mem;
      let due := s.rd R.PMON_SNAP_CTL_SNAP_US ≠ 0 ∧ s.crossed (s.rd R.PMON_SNAP_CTL_SNAP_US * 1000) = true
      (Reaches s m 0xF80000 → (s.pmon.periodAt = some s.now → exec (.take m) s = .next s) ∧
        (s.pmon.periodAt ≠ some s.now → Does (.take m) s (fun t => shot t ∧ t.pmon.snapAt = some s.now))) ∧
      (due → s.pmon.snapAt ≠ some s.now → Does .snapPeriod s (fun t => shot t ∧ t.pmon.periodAt = some s.now)) ∧
      (due → s.pmon.snapAt = some s.now → Does .snapPeriod s (fun t => t.pmon.snap = s.pmon.snap ∧ t.pmon.periodAt = some s.now ∧ Keeps s t [])) ∧
      (¬ due → exec .snapPeriod s = .next s)) ∧
    (Reaches s m 0xF80010 → ∀ pkt work : Bool, let on := pkt && !s.rdB R.PMON_SAMPLE_CFG_PKT_EN || work && !s.rdB R.PMON_SAMPLE_CFG_WORK_EN
      Does (.samplerEnable m pkt work) s (fun t => t.rdB R.PMON_SAMPLE_CFG_PKT_EN = pkt ∧ t.rdB R.PMON_SAMPLE_CFG_WORK_EN = work ∧
        t.rd R.PMON_RING_WR_WR = (if on then 0 else s.rd R.PMON_RING_WR_WR) ∧ t.rd R.PMON_RING_RD_RD = (if on then 0 else s.rd R.PMON_RING_RD_RD) ∧
        t.pmon.seq = (if on then 0 else s.pmon.seq) ∧
        Keeps s t [R.PMON_SAMPLE_CFG_PKT_EN.key, R.PMON_SAMPLE_CFG_WORK_EN.key, R.PMON_RING_WR_WR.key, R.PMON_RING_RD_RD.key]))) ∧
  (∀ (kind : Nat) (x : Tagged) (rest : List (Nat × Tagged)) (s : State), (s.pmon.ended = [] → exec .sampleRecord s = .next s) ∧
    (s.pmon.ended = (kind, x) :: rest → let wr := s.rd R.PMON_RING_WR_WR; let rd := s.rd R.PMON_RING_RD_RD; let used := (wr + 2 ^ 32 - rd) % 2 ^ 32
      let size := s.ringSize; let a := s.rd R.PMON_RING_CFG_RING_BASE * 4096 + wr % size * 64
      let room := s.refuses 23 = false ∧ s.telem.1 ≤ a ∧ a + 64 ≤ s.telem.2 ∧ (used < size ∨ s.rd R.PMON_SAMPLE_CFG_OVERWRITE = 1)
      (room → Does .sampleRecord s (fun t => t.pmon.ended = rest ∧
        (∀ i : Fin 8, t.memWord (a + 8 * i) = (recordWords kind s.pmon.seq x).getD i 0 % 2 ^ 64) ∧
        (∀ b : Nat, b / 64 ≠ a / 64 → t.memWord b = s.memWord b) ∧ t.rd R.PMON_RING_WR_WR = (wr + 1) % 2 ^ 32 ∧
        t.rd R.PMON_RING_RD_RD = (if used < size then rd else (rd + 1) % 2 ^ 32) ∧ t.pmon.seq = s.pmon.seq + 1 ∧ t.pending = s.pending)) ∧
      (¬ room → Does .sampleRecord s (fun t => t.pmon.ended = rest ∧ t.rd R.PMON_SAMPLE_DROP = (s.rd R.PMON_SAMPLE_DROP + 1) % 2 ^ 64 ∧
        Keeps s t [R.PMON_SAMPLE_DROP.key]))))

/-- Reads of the time, snapshots of all counters at one time, and sample records. -/
def Obligations.CountersAndSampler : Prop := Sys2Proof.Claims.CountersAndSamples

/-- WARM, WARM_RESET, FATAL_AUTO_RESET, MODULE_RESET, POWER_UP and SHUTDOWN_RETRY (R433, R471, R473, R484, R485): what each reset keeps and clears,
and when it comes. -/
def Sys2Proof.Claims.Resets : Prop :=
  ∀ s : State, let cause := R.PWR_RESET_STAT_LAST_CAUSE; let count := R.PWR_RESET_STAT_WARM_COUNT
    let warm := fun (n : Nat) (t : State) => AfterReset s t (keptWarm s) [cause.key, count.key] ∧ t.rd cause = n ∧
      t.rd count = (s.rd count + 1) % 2 ^ count.width ∧ t.sec.staging = s.sec.staging ∧ t.pwr.sample = false ∧ t.pwr.warmAt = none
    (∀ m : Master, Reaches s m 0x20030 → exec (.warm m) s = .next (s.withPwr { s.pwr with warmAt := some (s.now + 100000) })) ∧
    (s.pwr.state ≠ .on ∨ s.pwr.warmAt = none → exec .warmReset s = .next s) ∧
    (s.pwr.state ≠ .on ∨ s.flt.resetAt = none → exec .fatalAutoReset s = .next s) ∧
    (∀ at_ : Nat,
      (s.pwr.warmAt = some at_ → (s.now < at_ → exec .warmReset s = .next s) ∧ (s.pwr.state = .on → at_ ≤ s.now → Does .warmReset s (warm 2))) ∧
      (s.flt.resetAt = some at_ → (s.now < at_ → exec .fatalAutoReset s = .next s) ∧ (s.pwr.state = .on → at_ ≤ s.now → Does .fatalAutoReset s (warm 3)))) ∧
    (s.pwr.state = .on → Does .moduleReset s (fun t => AfterReset s t (keptModule s) [cause.key, count.key] ∧ t.rd cause = 1 ∧ t.rd count = 0 ∧
      t.sec.staging = [] ∧ t.pwr.sample = true)) ∧
    (s.pwr.state = .off ∨ s.pwr.state = .down → exec .moduleReset s = .next s) ∧
    (let cold := fun (n : Nat) (clk : Nat) (t : State) => AfterReset s t (keptCold s) ([cause.key, R.PWR_STRAP_ARB_CLK_SEL.key] ++
          (List.range 7).map (fun r => (R.PWR_RAIL_PGOOD r).key)) ∧ (∀ r : Nat, r < 7 → t.rd (R.PWR_RAIL_PGOOD r) = 1) ∧ t.rd cause = n ∧ t.rd R.PWR_STRAP_ARB_CLK_SEL = clk ∧ t.pwr.state = .on ∧ t.pwr.sample = true ∧ t.sec.staging = [];
      (s.pwr.state = .heldOff → Does .moduleReset s (cold 0 (s.rd R.PWR_STRAP_ARB_CLK_SEL))) ∧
      (∀ clk : Bool, (s.pwr.state = .off → Does (.powerUp clk) s (cold 0 (if clk then 1 else 0))) ∧ (s.pwr.state ≠ .off → exec (.powerUp clk) s = .next s)) ∧
      (∀ (tj : BitVec 8) (at_ : Nat), s.pwr.retryAt = some at_ →
        (s.pwr.state ≠ .down ∨ s.now < at_ ∨ s.pwr.thermal = true ∧ 95 ≤ tj.toNat → exec (.shutdownRetry tj) s = .next s) ∧
        (s.pwr.state = .down → at_ ≤ s.now → s.pwr.thermal = false ∨ tj.toNat < 95 → Does (.shutdownRetry tj) s (cold 4 (s.rd R.PWR_STRAP_ARB_CLK_SEL)))))

/-- The warm reset that a write starts (R485): it is due 100 µs later and does not come before, and from the write on no in-band request is accepted:
each leaves the arbiter's queue unanswered. -/
def Sys2Proof.Claims.WarmResetIsDue : Prop :=
  ∀ (m : Master) (s : State), Reaches s m 0x20030 → Does (.warm m) s (fun t => t.pwr.warmAt = some (s.now + 100000) ∧ Keeps s t [] ∧
    (∀ u : State, u.pwr = t.pwr → u.now < s.now + 100000 → exec .warmReset u = .next u) ∧
    (∀ (u : State) (p : Pkt) (inp fns : Nat) (rest : List (Pkt × Nat × Nat)), u.pwr = t.pwr →
      nextMgmt u.arbIn = some ((p, inp, fns), rest) → exec .mgmtReqRx u = .next (u.withArbIn rest)))

/-- What every kind of reset keeps and clears, and when it comes. -/
def Obligations.ResetsKeepAndClear : Prop := Sys2Proof.Claims.Resets ∧ Sys2Proof.Claims.WarmResetIsDue

/-- POWER_DOWN and EMERGENCY_SHUTDOWN (R472, R473): only a powered module goes down; its rails 1 to 6 go off and memory is lost; a second emergency
within an hour leaves the module off, and a first one is followed by a retry after 1 s. -/
def Sys2Proof.Claims.PowerDown : Prop :=
  ∀ s : State,
    (s.pwr.state ≠ .on → exec .powerDown s = .next s ∧ ∀ c : ShutdownCause, exec (.emergencyShutdown c) s = .next s) ∧
    (s.pwr.state = .on →
      let off := fun (t : State) => (∀ r : Nat, 1 ≤ r → r ≤ 6 → t.rd (R.PWR_RAIL_PGOOD r) = 0) ∧ (∀ k : Nat, k < 24 → t.island k = 2) ∧ t.mem = [] ∧
        t.opening = none ∧ t.pending = s.pending ∧ t.sec.flash = s.sec.flash
      Does .powerDown s (fun t => off t ∧ t.pwr.state = .down ∧ t.pwr.retryAt = none ∧ t.rd R.PWR_STAT_IN_LOW = 1) ∧
      (∀ c : ShutdownCause, Does (.emergencyShutdown c) s (fun t => off t ∧
        t.rd R.PWR_EMERG_SHUTDOWN = (s.rd R.PWR_EMERG_SHUTDOWN + 1) % 2 ^ 64 ∧ t.pwr.lastEmerg = some s.powered ∧
        (if s.pwr.lastEmerg.any (fun at_ => decide (s.powered < at_ + 3600000000000)) then
          t.pwr.state = .heldOff ∧ t.pwr.retryAt = none ∧ t.rd R.PWR_RESET_STAT_LAST_CAUSE = 5
        else t.pwr.state = .down ∧ t.pwr.retryAt = some (t.now + 1000000000) ∧ t.pwr.thermal = decide (c = .thermal)))))

/-- INPUT_RANGE, RAIL_FAULT, OVER_TEMP, TELEMETRY_UPDATE, BUDGET_WINDOW (R441, R468, R470, R474 to R476): what the power island shows and
reports; fence-log entries that waited for IN_LOW to clear are written; telemetry comes once in every 100 µs. -/
def Sys2Proof.Claims.Telemetry : Prop :=
  ∀ s : State,
    (∀ v : BitVec 16, (v.toNat < 2800 → s.pwr.state = .down ∨ s.pwr.state = .heldOff →
        exec (.inputRange v) s = .next (s.withPwr { s.pwr with state := .off })) ∧
      (s.pwr.state = .on → s.inStack = false → Does (.inputRange v) s (fun t => t.rdB R.PWR_STAT_IN_LOW = decide (v.toNat < 3600) ∧
        t.rdB R.PWR_STAT_IN_HIGH = decide (7500 < v.toNat) ∧
        t.rd R.PWR_INPUT_RANGE = (if (v.toNat < 3600 ∧ s.rd R.PWR_STAT_IN_LOW = 0) ∨ (7500 < v.toNat ∧ s.rd R.PWR_STAT_IN_HIGH = 0) then
          (s.rd R.PWR_INPUT_RANGE + 1) % 2 ^ 64 else s.rd R.PWR_INPUT_RANGE) ∧ (3600 ≤ v.toNat → t.flt.logDue = []) ∧ t.mem = s.mem))) ∧
    (∀ r : Fin 7, (s.pwr.state ≠ .on → exec (.railFault r) s = .next s) ∧
      (s.pwr.state = .on → s.inStack = false → Does (.railFault r) s (fun t => t.rd (R.PWR_RAIL_FAULT r) = 1 ∧ t.rd R.PWR_STAT_RAIL_BAD = 1 ∧
        t.rd R.FLT_STATUS_SET = s.rd R.FLT_STATUS_SET ||| 8 ∧ t.rd (R.FLT_UNIT_LAST_CODE 715) = 0x0C02))) ∧
    (∀ (k : Fin 26) (tj : BitVec 8), (s.pwr.state ≠ .on ∨ tj.toNat ≤ 105 → exec (.overTemp k tj) s = .next s) ∧
      (s.pwr.state = .on → 105 < tj.toNat → s.inStack = false → Does (.overTemp k tj) s (fun t => t.rd (R.PWR_ISL_P_TJ k) = tj.toNat ∧
        t.rd R.PWR_STAT_HOT = 1 ∧ tj.toNat ≤ t.rd R.PWR_STAT_TJ_MAX ∧
        (s.rd (R.PWR_ISL_P_TJ k) ≤ 105 → t.rd (R.FLT_UNIT_LAST_CODE 715) = 0x0C03)))) ∧
    (∀ (vin iin pin : BitVec 16) (rails : List (BitVec 16 × BitVec 16 × Bool)) (islands : List (BitVec 16 × BitVec 8)),
      (s.pwr.state = .off ∨ s.now / 100000 ≤ s.pwr.telIdx → exec (.telemetryUpdate vin iin pin rails islands) s = .next s) ∧
      (s.pwr.state ≠ .off → s.pwr.telIdx < s.now / 100000 → s.inStack = false → Does (.telemetryUpdate vin iin pin rails islands) s (fun t => t.rd R.PWR_INPUT_VIN = vin.toNat ∧ t.rd R.PWR_INPUT_IIN = iin.toNat ∧
        t.rd R.PWR_INPUT_PIN = pin.toNat ∧ t.rd R.PWR_ENERGY_UJ = (s.rd R.PWR_ENERGY_UJ + 10 * pin.toNat) % 2 ^ 64 ∧
        (∀ (r : Fin 7) (x : BitVec 16 × BitVec 16 × Bool), rails[r.val]? = some x →
          t.rd (R.PWR_RAIL_VOUT r) = x.1.toNat ∧ t.rd (R.PWR_RAIL_IOUT r) = x.2.1.toNat ∧ t.rdB (R.PWR_RAIL_PGOOD r) = x.2.2) ∧
        (∀ (k : Fin 26) (x : BitVec 16 × BitVec 8), islands[k.val]? = some x →
          t.rd (R.PWR_ISL_P_POWER k) = (if s.island k = 2 then 0 else x.1.toNat) ∧ t.rd (R.PWR_ISL_P_TJ k) = x.2.toNat ∧
          (s.rd (R.PWR_ISL_P_TJ k) ≤ 105 → 105 < x.2.toNat → t.rd (R.FLT_UNIT_LAST_CODE 715) = 0x0C03)) ∧
        t.pwr.telIdx = s.now / 100000 ∧ t.mem = s.mem))) ∧
    (∀ avg : BitVec 16, let l := s.rd R.PWR_BUDGET_LIMIT_W
      (s.pwr.state ≠ .on ∨ s.now / 10000000 ≤ s.pwr.budgetIdx → exec (.budgetWindow avg) s = .next s) ∧
      (s.pwr.state = .on → s.pwr.budgetIdx < s.now / 10000000 → Does (.budgetWindow avg) s (fun t => t.pwr.budgetIdx = s.now / 10000000 ∧
        t.rd R.PWR_STAT_OVER_BUDGET = (if l ≠ 0 ∧ 10 * l < avg.toNat then 1 else s.rd R.PWR_STAT_OVER_BUDGET) ∧
        t.rd R.PWR_BUDGET_OVER = (if l ≠ 0 ∧ 10 * l < avg.toNat then (s.rd R.PWR_BUDGET_OVER + 1) % 2 ^ 64 else s.rd R.PWR_BUDGET_OVER) ∧
        Keeps s t [R.PWR_STAT_OVER_BUDGET.key, R.PWR_BUDGET_OVER.key])))

/-- REFERENCE_LOSS, REFERENCE_RESTORED, REFERENCE_RETURN (R479): the loss is shown and counted; without the 25 MHz reference fabric time is not valid;
a lost reference that is present again clears its bit, the 25 MHz one after 10 ms. -/
def Sys2Proof.Claims.References : Prop :=
  ∀ (r : RefClk) (s : State),
    (s.pwr.state ≠ .on → exec (.referenceLoss r) s = .next s ∧ exec (.referenceRestored r) s = .next s ∧ exec .referenceReturn s = .next s) ∧
    (s.pwr.state = .on → s.inStack = false → s.isLost r = false →
      (r = .mgmt → Does (.referenceLoss r) s (fun t => t.mgmtUp = false ∧ t.mgmtD3 = false ∧ t.pciFn 512 = {} ∧ t.rd R.PWR_CLK_STAT_MGMT_LOST = 1 ∧
        t.rd R.PWR_REF_LOSS = (s.rd R.PWR_REF_LOSS + 1) % 2 ^ 64 ∧ Keeps s t [R.PWR_CLK_STAT_MGMT_LOST.key, R.PWR_REF_LOSS.key])) ∧
      (r = .ref25 → s.timeValid = false → Does (.referenceLoss r) s (fun t => t.timeValid = false ∧ t.rd R.PWR_CLK_STAT_REF25_LOST = 1 ∧
        t.time.good = 0 ∧ t.rd R.PWR_REF_LOSS = (s.rd R.PWR_REF_LOSS + 1) % 2 ^ 64)) ∧
      (∀ p : Fin 4, r = .host p → s.rd (R.HPT_PORT_STAT_LINK_UP p) = 0 → Does (.referenceLoss r) s (fun t =>
        t.rd R.PWR_CLK_STAT_HP_LOST / 2 ^ p.val % 2 = 1 ∧ Keeps s t [R.PWR_CLK_STAT_HP_LOST.key, R.PWR_REF_LOSS.key])) ∧
      exec (.referenceLoss r) s = .next (((s.setLost r true).bump R.PWR_REF_LOSS).loseRef r).stackEvents) ∧
    (s.isLost r = true → r ≠ .ref25 → exec (.referenceLoss r) s = .next s) ∧
    (s.pwr.state = .on → (s.isLost r = false → exec (.referenceRestored r) s = .next s) ∧
      (s.isLost r = true → r ≠ .ref25 → Does (.referenceRestored r) s (fun t => t.isLost r = false ∧
        Keeps s t [R.PWR_CLK_STAT_FAB_LOST.key, R.PWR_CLK_STAT_HP_LOST.key, R.PWR_CLK_STAT_MGMT_LOST.key])) ∧
      (s.isLost r = true → r = .ref25 → Does (.referenceRestored r) s (fun t => t.isLost r = true ∧ t.pwr.ref25Back = some s.now ∧ Keeps s t []))) ∧
    (∀ at_ : Nat, s.pwr.state = .on → s.pwr.ref25Back = some at_ →
      (s.now < at_ + 10000000 → exec .referenceReturn s = .next s) ∧
      (at_ + 10000000 ≤ s.now → Does .referenceReturn s (fun t => t.rd R.PWR_CLK_STAT_REF25_LOST = 0 ∧ t.pwr.ref25Back = none ∧
        Keeps s t [R.PWR_CLK_STAT_REF25_LOST.key])))

/-- Power down and emergency shutdown, telemetry, and lost and restored references. -/
def Obligations.PowerAndReferences : Prop := Sys2Proof.Claims.PowerDown ∧ Sys2Proof.Claims.Telemetry ∧ Sys2Proof.Claims.References

/-- PG_RESET (R482): it is BUSY while an island command runs, REFUSED where the group's tile does not run or the group is out of service, and else
resets the group and, of an x8 port, its partner. -/
def Sys2Proof.Claims.PortGroupReset : Prop :=
  ∀ (m : Master) (g : BitVec 7) (s : State), Reaches s m 0x20050 → let n := g.toNat
    let gs := if s.groupWidth n = 3 then [2 * (n / 2), 2 * (n / 2) + 1] else [n]; let a := s.wr R.PWR_ISL_STAT_LAST_GROUP n
    let refused := s.inRecovery = true ∨ s.island (n / 8) ≠ 0 ∨ ∃ x ∈ gs, s.groupDown x = true ∨ s.unitStopped (16 + x) = true
    (s.rd R.PWR_ISL_STAT_BUSY = 1 → exec (.pgReset m g) s = .next (s.wr R.PWR_ISL_STAT_RESULT 1)) ∧
    (s.rd R.PWR_ISL_STAT_BUSY = 0 → refused → exec (.pgReset m g) s = .next (a.wr R.PWR_ISL_STAT_RESULT 2)) ∧
    (s.rd R.PWR_ISL_STAT_BUSY = 0 → ¬ refused →
      exec (.pgReset m g) s = .next ((gs.foldl (fun (t : State) x => t.resetGroup x) a).wr R.PWR_ISL_STAT_RESULT 0))

/-- The test access port (R494 to R498), live while VAUX is up: each instruction is updated and acts; EXTEST, CLAMP and HIGHZ need every unit isolated
and the AC tests some isolated lane, and a refused one acts as BYPASS; the instruction register captured before shows whether the last one was
refused; nothing else of the module changes but, under an ALL test, the commander's session. -/
def Sys2Proof.Claims.TestAccessPort : Prop :=
  (∀ s : State, s.pwr.state = .off → ∀ v : BitVec 1794, ∀ c ∈ [Instr.tapReset, .bypass, .idcode, .samplePreload v, .extest, .clamp, .highz, .extestPulse,
      .extestTrain], exec c s = .next s) ∧
  (∀ s : State, s.pwr.state ≠ .off → let captured := Output.tapIr (BitVec.ofNat 8 (1 + 4 * b2n s.tap.refused))
    let acts := fun (t : State) (ir : Nat) (may : Bool) (drive : Option (Nat × Nat)) => t.tap.ir = ir ∧ t.tap.refused = (!may) ∧
      t.tap.active = (if may then ir else 0xFF) ∧ t.tap.drive = (if may then drive else none) ∧ Keeps s t []
    let cells := fun (mask : Nat) => some (mask, s.tap.boundary &&& mask); let ac := decide (s.acCells ≠ 0); let all := s.allIsolated
    let up := fun (t : State) => t.mgmtUp = (s.mgmtUp && !all)
    Does .tapReset s (fun t => acts t 0x01 true none) ∧ Does .bypass s (fun t => acts t 0xFF true none ∧ t.out = captured :: s.out) ∧
    Does .idcode s (fun t => acts t 0x01 true none ∧ t.out = .tapId (BitVec.ofNat 32 tapIdOf) :: captured :: s.out ∧ t.tap.boundary = s.tap.boundary) ∧
    (∀ v : BitVec 1794, Does (.samplePreload v) s (fun t => acts t 0x02 true none ∧ t.tap.boundary = v.toNat &&& cellsAll)) ∧
    Does .extest s (fun t => acts t 0x03 all (cells cellsAll) ∧ up t) ∧ Does .clamp s (fun t => acts t 0x04 all (cells cellsAll) ∧ up t) ∧
    Does .highz s (fun t => acts t 0x05 all (some (cellsAll, 0)) ∧ up t) ∧
    Does .extestPulse s (fun t => acts t 0x06 ac (cells s.acCells) ∧ up t) ∧ Does .extestTrain s (fun t => acts t 0x07 ac (cells s.acCells) ∧ up t))

/-- PG_RESET and the test access port. -/
def Obligations.PortGroupResetAndTap : Prop := Sys2Proof.Claims.PortGroupReset ∧ Sys2Proof.Claims.TestAccessPort

/-- The queue (the block's cut): a step takes the command at the front and runs it with the rest of the queue. -/
def Sys2Proof.Claims.CommandsTakenInOrder : Prop :=
  ∀ (c : Instr) (rest : List Instr) (s : State), s.pending = c :: rest → step s = exec c (s.withPending rest)

/-- A step runs the command at the front of the queue with the rest of the queue. -/
def Obligations.CommandsRunInOrder : Prop := Sys2Proof.Claims.CommandsTakenInOrder

/-- An empty queue lets 1 ns pass (the model's choice, log entry 1): with no port that left UP to look at and outside a stack, local and fabric time
move on, the latter by its part of a correction (R453), to which the servo's integral part is added where a frame interval begins (R454), and nothing
else changes but the count of unpowered time while the power island is off (R448). -/
def Sys2Proof.Claims.EmptyQueuePassesTime : Prop :=
  ∀ s : State, s.pending = [] → s.colDown = [] → s.inStack = false → ∃ t, step s = .next t ∧ t.now = s.now + 1 ∧
    (let begins := s.time.gap ≠ 0 ∧ s.time.nextAt ≤ s.now; let slew := if begins then s.time.slew + s.time.integ else s.time.slew
      ∃ d : Int, -6 ≤ d ∧ d ≤ 6 ∧ (0 ≤ slew → d = min 6 slew) ∧ (slew ≤ 0 → d = max (-6) slew) ∧
      t.time.slew = slew - d ∧ t.time.ft = ((s.time.ft : Int) + 65536 + d).toNat % 2 ^ 80 ∧ (t.time.adv : Int) = 65536 + d ∧
      t.time.nextAt = (if begins then s.now + s.time.gap else s.time.nextAt)) ∧
    t = ((if s.pwr.state = .on then s else s.withFlt { s.flt with unpowered := s.flt.unpowered + 1 }).withNow (s.now + 1)).withTime { s.time with ft := t.time.ft, slew := t.time.slew, adv := t.time.adv, nextAt := t.time.nextAt }

/-- The table gives no row an encoding: no word spells a command, and `withFetchWord` leaves every state as it is. -/
def Sys2Proof.Claims.WordsSpellNoCommand : Prop :=
  ∀ (s : State) (nbits w : Nat), Sys2Proof.decodeTableWord nbits w = none ∧ s.withFetchWord nbits w = s

/-- An empty queue lets 1 ns pass (the model's choice, log entry 1), and no word spells a command. Both rest on the model's own choices: log entry 1
(the tick) and the opcode table, which gives no row any bits. -/
def Obligations.IdleSteps : Prop := Sys2Proof.Claims.EmptyQueuePassesTime ∧ Sys2Proof.Claims.WordsSpellNoCommand

/-- A register field reads what was last written to it, cut to its width, and a write of one field leaves every field with another key; a word of
module memory likewise (R8, R393). -/
def Sys2Proof.Claims.ReadsAfterWrites : Prop :=
  ∀ (s : State) (f : FRef) (v a : Nat), s.rd f < 2 ^ f.width ∧ (s.wr f v).rd f = v % 2 ^ f.width ∧
    (∀ g : FRef, g.key ≠ f.key → (s.wr f v).rd g = s.rd g) ∧ (∀ b : Nat, (s.wr f v).memWord b = s.memWord b) ∧
    (s.setMemWord a v).memWord a = v % 2 ^ 64 ∧ (∀ b : Nat, b / 8 ≠ a / 8 → (s.setMemWord a v).memWord b = s.memWord b) ∧
    (∀ g : FRef, (s.setMemWord a v).rd g = s.rd g)

/-- A register or a word of module memory reads what was last written, and a write leaves the rest. -/
def Obligations.ReadsAfterWrites : Prop := Sys2Proof.Claims.ReadsAfterWrites

/-- The state after reset: every field reads its reset value, and where the register table gives none that the block can know before its boot, zero
(log entry 2); module memory, which the table gives no contents, reads zero (log entry 7); no command waits. -/
def Sys2Proof.Claims.ResetValues : Prop :=
  (∀ g : FRef, State.reset.rd g = g.rst % 2 ^ g.width) ∧ (∀ a : Nat, State.reset.memWord a = 0) ∧ State.reset.pending = [] ∧ State.reset.now = 0 ∧
  State.reset.rd R.GLB_MODE_STAT_MODE = 0 ∧ State.reset.rd R.SEC_BOOT_STAT_PHASE = 0 ∧ State.reset.rd R.TIM_STAT_STEPS = 255 ∧
  State.reset.rd R.TIM_STAT_PARENT = 0x1FF ∧ State.reset.rd R.SEC_HSS_STAT_BUCKET = 64 ∧ State.reset.rd R.GLB_MAINT_CTL_OWNER = 0xFFF

/-- Every register field reads its reset value after reset, memory zero, and no command waits. That fields loaded at boot read zero before it, and
that memory reads zero, is the model's choice (log entries 2 and 7). -/
def Obligations.ResetState : Prop := Sys2Proof.Claims.ResetValues

/-- The register file and module memory stand in canonical form after reset. -/
def Sys2Proof.Claims.ResetIsCanonical : Prop :=
  Canonical State.reset

/-- The state after reset stands in canonical form. -/
def Obligations.ResetIsCanonical : Prop := Sys2Proof.Claims.ResetIsCanonical

/-- Every step keeps the register file and module memory in canonical form: keys strictly rising, and no entry equal to what an unlisted key reads as.
-/
def Sys2Proof.Claims.StepsKeepCanonicalForm : Prop :=
  ∀ s t : State, Canonical s → step s = .next t → Canonical t

/-- Every step keeps the register file and module memory in canonical form. -/
def Obligations.StepsKeepCanonicalForm : Prop := Sys2Proof.Claims.StepsKeepCanonicalForm

/-- Every command answers a next state in every state: no fault and no refusal ends a run. -/
def Sys2Proof.Claims.EveryCommandCompletes : Prop :=
  ∀ (c : Instr) (s : State), ∃ t, exec c s = .next t

/-- No command touches the queue of waiting commands: a step takes exactly the one at its front. -/
def Sys2Proof.Claims.CommandsLeaveTheQueue : Prop :=
  ∀ (c : Instr) (s t : State), exec c s = .next t → t.pending = s.pending

/-- Every command answers a next state in every state and leaves the queue of waiting commands alone. -/
def Obligations.EveryCommandCompletes : Prop := Sys2Proof.Claims.EveryCommandCompletes ∧ Sys2Proof.Claims.CommandsLeaveTheQueue

/-- A row (R98 to R100): square i stands in bytes 64i to 64i + 63, the trailer's fields in bytes 512 to 523 and the CRC of bytes 0 to 523 in bytes 524
to 527. -/
def Sys2Proof.Claims.RowLayout : Prop :=
  ∀ r : Row, let b := (rowEncode r).toNat
    (∀ i : Fin 8, bitsOf b (8 * (528 - 64 - 64 * i.val)) 512 = (r.squares.getD i.val 0).toNat) ∧
    bitsOf b 32 96 = rowTrailer r ∧ bitsOf b 0 32 = crc32 (bytesBE (b / 2 ^ 32) 524)

/-- A row of eight squares reads back as it was written, with a CRC that holds: no field of the trailer is lost or moved (R98 to R100). -/
def Sys2Proof.Claims.RowsReadBack : Prop :=
  ∀ r : Row, r.squares.length = 8 → rowDecode (rowEncode r) = r ∧ rowCrcOk (rowEncode r) = true

/-- A row is laid out as the row tables say, and reads back with every field as written. -/
def Obligations.RowsReadBack : Prop := Sys2Proof.Claims.RowLayout ∧ Sys2Proof.Claims.RowsReadBack

/-- The header of a packet (R45 to R47, R52, R55 to R59): every field that the builder gives reads back, and the opcode area stands in bytes 32 to 63.
-/
def Sys2Proof.Claims.HeadersReadBack : Prop :=
  ∀ (h : HdrSpec) (area : Square) (pay : List Square), h.dest < 2 ^ 32 → h.src < 2 ^ 32 → h.opcode < 0xC0 → h.conn < 2 ^ 16 → h.epoch < 2 ^ 16 → h.psn < 2 ^ 32 →
    pay.length ≤ 64 → let p := mkPkt h area pay
    p.destFa = h.dest ∧ p.srcFa = h.src ∧ p.opcode = h.opcode ∧ p.cls = h.opcode / 32 ∧ p.vl = vlOf (h.opcode / 32) 0 h.opcode ∧ p.stage = 0 ∧
    p.pin = h.pin ∧ p.nonmin = false ∧ p.via = false ∧ p.intGroup = 0 ∧ p.cstamp = 0 ∧ p.conn = h.conn ∧ p.epoch = h.epoch ∧ p.psn = h.psn ∧
    p.open_ = h.open_ ∧ p.retx = h.retx ∧ p.ackreq = h.ackreq ∧ p.event = h.event ∧ p.ptype = !pay.isEmpty ∧ p.nsq = pay.length - 1 ∧ p.pay = pay ∧
    (∀ off n : Nat, 32 ≤ off → off + n ≤ 64 → p.g off n = sqGet area off n)

/-- What a router may change (R49): the route word alone; every other byte of the header and the payload stay as the builder wrote them. -/
def Sys2Proof.Claims.RoutersChangeTheRouteWord : Prop :=
  ∀ (p : Pkt) (lo w v : Nat), lo + w ≤ 32 → let q := p.setRoute lo w v
    q.pay = p.pay ∧ (∀ off n : Nat, off + n ≤ 64 → off + n ≤ 8 ∨ 12 ≤ off → q.g off n = p.g off n) ∧ bitsOf q.route lo w = v % 2 ^ w ∧
    (∀ i : Nat, i < 32 → i < lo ∨ lo + w ≤ i → bitOf q.route i = bitOf p.route i)

/-- A packet's header reads back with every field its builder gives, and routers change the route word alone. -/
def Obligations.HeadersReadBack : Prop := Sys2Proof.Claims.HeadersReadBack ∧ Sys2Proof.Claims.RoutersChangeTheRouteWord

/-- FLOW_HASH (R48): the low 8 bits of the CRC-32 over SRC_FA, DEST_FA and CONN, so that every packet of a connection has the same; zero in the
Collective, Management and Probe classes. -/
def Sys2Proof.Claims.FlowHashOfBuilder : Prop :=
  ∀ (h : HdrSpec) (area : Square) (pay : List Square), h.opcode < 0xC0 → pay.length ≤ 64 → let p := mkPkt h area pay
    p.flowHash = (if h.opcode / 32 = clsCollective ∨ h.opcode / 32 = clsManagement ∨ h.opcode / 32 = clsProbe then 0
      else crc32 (bytesBE h.src 4 ++ bytesBE h.dest 4 ++ bytesBE h.conn 2) % 256)

/-- FLOW_HASH of a packet: the CRC of its two addresses and CONN, or zero by its class. -/
def Obligations.FlowHashOfBuilder : Prop := Sys2Proof.Claims.FlowHashOfBuilder

/-- COL_TREE_A_WRITE in Endpoint mode (R323): a write, whole or of one half, that would leave the entry with VALID 1 and a ROLE other than leaf sets
REJECT and leaves the shadow entry as it is; any other write is stored, its reserved bits as zeros (R8). -/
def Sys2Proof.Claims.EndpointTreesAreLeaves : Prop :=
  ∀ (m : Master) (i : BitVec 12) (h : Half) (v : BitVec 64) (s : State), Reaches s m (0xD10000 + 0x10 * i.toNat) → s.rd R.GLB_MODE_STAT_MODE = 1 →
    let w := mergeHalf h (s.rd (R.COL_TREE_A i.toNat)) v.toNat &&& liveBits (0xD10000 + 0x10 * i.toNat)
    (w.testBit 16 = true → bitsOf w 17 2 ≠ 0 → Does (.colTreeAWrite m i h v) s (fun t => t.rd R.COL_CMD_STAT_REJECT = 1 ∧
      t.rd (R.COL_TREE_A i.toNat) = s.rd (R.COL_TREE_A i.toNat) ∧ Keeps s t [R.COL_CMD_STAT_REJECT.key])) ∧
    (w.testBit 16 = false ∨ bitsOf w 17 2 = 0 → Does (.colTreeAWrite m i h v) s (fun t =>
      t.rd (R.COL_TREE_A i.toNat) = w % 2 ^ (R.COL_TREE_A i.toNat).width ∧ t.rd R.COL_CMD_STAT_REJECT = s.rd R.COL_CMD_STAT_REJECT ∧
      Keeps s t [(R.COL_TREE_A i.toNat).key]))

/-- In Endpoint mode a tree entry that is not a leaf is refused and the shadow entry kept. -/
def Obligations.EndpointTreesAreLeaves : Prop := Sys2Proof.Claims.EndpointTreesAreLeaves
end

