-- ==== Sys2Proof/Laws/Square.lean ====
section
/-!
SUPPORT. Laws of the bytes of a square (R7): a read of bytes just written, a read of other bytes, and the end-to-end CRC of a sealed
packet (R50, R51).
-/
namespace Sys2Proof.Machine

/-- A bit of a number in which a field was replaced. -/
theorem testBit_setBits (v lo w x i : Nat) :
    (setBits v lo w x).testBit i = if lo ≤ i ∧ i < lo + w then x.testBit (i - lo) else v.testBit i := by
  have split : v = 2 ^ lo * (2 ^ w * (v / 2 ^ (lo + w)) + bitsOf v lo w) + v % 2 ^ lo := by
    rw [bitsOf, Nat.shiftRight_eq_div_pow, Nat.pow_add, ← Nat.div_div_eq_div_mul, Nat.div_add_mod, Nat.div_add_mod]
  have put : setBits v lo w x = 2 ^ lo * (2 ^ w * (v / 2 ^ (lo + w)) + x % 2 ^ w) + v % 2 ^ lo := by
    rw [setBits, Nat.shiftLeft_eq, Nat.shiftLeft_eq]
    generalize v / 2 ^ (lo + w) = a at *
    generalize v % 2 ^ lo = c at *
    generalize bitsOf v lo w = m at *
    rw [Nat.mul_add, Nat.mul_comm _ m] at split
    rw [Nat.mul_add, Nat.mul_comm _ (x % 2 ^ w)]
    omega
  have low : v % 2 ^ lo < 2 ^ lo := Nat.mod_lt _ (Nat.two_pow_pos lo)
  have mid : x % 2 ^ w < 2 ^ w := Nat.mod_lt _ (Nat.two_pow_pos w)
  rw [put, Nat.testBit_two_pow_mul_add _ low]
  by_cases h : i < lo
  · rw [if_pos h, if_neg (by omega), Nat.testBit_mod_two_pow]; simp [h]
  · rw [if_neg h, Nat.testBit_two_pow_mul_add _ mid]
    by_cases k : i - lo < w
    · rw [if_pos k, if_pos (by omega), Nat.testBit_mod_two_pow]; simp [k]
    · rw [if_neg k, if_neg (by omega), Nat.testBit_div_two_pow]
      congr 1; omega

/-- A bit of a field of a number. -/
theorem testBit_bitsOf (v lo w i : Nat) : (bitsOf v lo w).testBit i = (decide (i < w) && v.testBit (lo + i)) := by
  rw [bitsOf, Nat.testBit_mod_two_pow, Nat.testBit_shiftRight]

/-- Bytes just written read as the number written. -/
theorem sqGet_sqPut_same (q : Square) (o n v : Nat) (h : o + n ≤ 64) : sqGet (sqPut q o n v) o n = v % 2 ^ (8 * n) := by
  apply Nat.eq_of_testBit_eq
  intro i
  rw [sqGet, testBit_bitsOf, sqPut, BitVec.toNat_ofNat, Nat.testBit_mod_two_pow, testBit_setBits, Nat.testBit_mod_two_pow]
  by_cases k : i < 8 * n
  · rw [if_pos (by omega)]
    have a : 8 * (64 - o - n) + i < 512 := by omega
    have b : 8 * (64 - o - n) + i - 8 * (64 - o - n) = i := by omega
    simp [k, a, b]
  · simp [k]

/-- Bytes outside those written read as before. -/
theorem sqGet_sqPut_other (q : Square) (o n v a b : Nat) (h : o + n ≤ 64) (k : a + b ≤ 64) (away : a + b ≤ o ∨ o + n ≤ a) :
    sqGet (sqPut q o n v) a b = sqGet q a b := by
  apply Nat.eq_of_testBit_eq
  intro i
  rw [sqGet, sqGet, testBit_bitsOf, testBit_bitsOf, sqPut, BitVec.toNat_ofNat, Nat.testBit_mod_two_pow, testBit_setBits]
  by_cases c : i < 8 * b
  · rw [if_neg (by omega)]
    have d : 8 * (64 - a - b) + i < 512 := by omega
    simp [c, d]
  · simp [c]

theorem crcBit_lt (c : Nat) (h : c < 2 ^ 32) : crcBit c < 2 ^ 32 := by
  unfold crcBit
  split
  · exact Nat.xor_lt_two_pow (by omega) (by decide)
  · omega

/-- The CRC register stays 32 bits wide. -/
theorem crcByte_lt (c b : Nat) (h : c < 2 ^ 32) (k : b < 2 ^ 32) : crcByte c b < 2 ^ 32 := by
  unfold crcByte
  iterate 8 apply crcBit_lt
  exact Nat.xor_lt_two_pow h k

/-- The CRC-32 of bytes is a 32-bit number. -/
theorem crc32_lt (l : List Nat) (h : ∀ b ∈ l, b < 2 ^ 32) : crc32 l < 2 ^ 32 := by
  have fold : ∀ (l : List Nat) (c : Nat), c < 2 ^ 32 → (∀ b ∈ l, b < 2 ^ 32) → l.foldl crcByte c < 2 ^ 32 := by
    intro l
    induction l with
    | nil => intro c hc _; exact hc
    | cons b l ih =>
      intro c hc hl
      exact ih _ (crcByte_lt _ _ hc (hl b (by simp))) (fun x hx => hl x (by simp [hx]))
  exact Nat.xor_lt_two_pow (fold l _ (by decide) h) (by decide)

theorem bytesBE_lt (v n b : Nat) (h : b ∈ bytesBE v n) : b < 2 ^ 32 := by
  simp only [bytesBE, List.mem_map] at h
  obtain ⟨i, -, rfl⟩ := h
  have := Nat.mod_lt (v >>> (8 * (n - 1 - i))) (Nat.two_pow_pos 8)
  unfold bitsOf
  omega

theorem pktCrc_lt (p : Pkt) : pktCrc p < 2 ^ 32 := by
  apply crc32_lt
  intro b h
  simp only [List.mem_append, List.mem_flatMap, sqBytes] at h
  obtain ((h | h) | h) | ⟨q, -, h⟩ := h <;> exact bytesBE_lt _ _ _ h

/-- Reading other header bytes after a write of some. -/
theorem pkt_g_u_other (p : Pkt) (o n v a b : Nat) (h : o + n ≤ 64) (k : a + b ≤ 64) (away : a + b ≤ o ∨ o + n ≤ a) :
    (p.u o n v).g a b = p.g a b := sqGet_sqPut_other _ _ _ _ _ _ h k away

theorem pkt_g_u_same (p : Pkt) (o n v : Nat) (h : o + n ≤ 64) : (p.u o n v).g o n = v % 2 ^ (8 * n) := sqGet_sqPut_same _ _ _ _ h

/-- The CRC does not cover its own bytes (R50). -/
theorem pktCrc_u_crc (p : Pkt) (v : Nat) : pktCrc (p.u 28 4 v) = pktCrc p := by
  simp only [pktCrc, sqBytes, Pkt.u]
  rw [sqGet_sqPut_other _ _ _ _ _ _ (by omega) (by omega) (by omega), sqGet_sqPut_other _ _ _ _ _ _ (by omega) (by omega) (by omega),
    sqGet_sqPut_other _ _ _ _ _ _ (by omega) (by omega) (by omega)]

/-- A packet whose CRC was written last passes the consumer's check (R51). -/
theorem crcOk_sealed (p : Pkt) : crcOk (p.u 28 4 (pktCrc p)) = true := by
  have h := pktCrc_lt p
  simp only [crcOk, Pkt.crc, pktCrc_u_crc, pkt_g_u_same _ _ _ _ (show 28 + 4 ≤ 64 by omega), decide_eq_true_eq]
  exact Nat.mod_eq_of_lt h

end Sys2Proof.Machine
end

