-- ==== Sys2Proof/Laws/Gmac.lean ====
section
/-!
SUPPORT. Laws of sealed management packets (R194): the tag is 128 bits wide, and a packet sealed under a key carries the tag that the key
gives it and a CRC that holds, whatever the block cipher is.
-/
namespace Sys2Proof.Machine

theorem gfStep_lt (x n z v : Nat) (h : z < 2 ^ 128) (k : v < 2 ^ 128) : gfStep x n z v < 2 ^ 128 := by
  induction n generalizing z v with
  | zero => exact h
  | succ n ih =>
    simp only [gfStep]
    apply ih
    · split
      · exact Nat.xor_lt_two_pow h k
      · exact h
    · split
      · exact Nat.xor_lt_two_pow (by omega) (by decide)
      · omega

/-- GHASH of any blocks is a 128-bit number if its key is. -/
theorem ghash_lt (h : Nat) (l : List Nat) (k : h < 2 ^ 128) : ghash h l < 2 ^ 128 := by
  have fold : ∀ (l : List Nat) (y : Nat), y < 2 ^ 128 → l.foldl (fun y b => gfMul (y ^^^ b) h) y < 2 ^ 128 := by
    intro l
    induction l with
    | nil => intro y hy; exact hy
    | cons b l ih => intro y _; exact ih _ (gfStep_lt _ _ _ _ (by decide) k)
  exact fold l 0 (by decide)

/-- A block that AES-256 encrypts is a 128-bit number. -/
theorem aes256_lt (key block : Nat) : aes256 key block < 2 ^ 128 := Nat.mod_lt _ (Nat.two_pow_pos _)

/-- A tag is a 128-bit number. -/
theorem gmacTag_lt (key iv : Nat) (aad : List Nat) : gmacTag key iv aad < 2 ^ 128 :=
  Nat.xor_lt_two_pow (ghash_lt _ _ (aes256_lt _ _)) (aes256_lt _ _)

/-- Header bytes that sealing does not write read as before. -/
theorem sealMgmt_g (p : Pkt) (key origin a b : Nat) (h : a + b ≤ 20 ∨ (24 ≤ a ∧ a + b ≤ 28) ∨ (32 ≤ a ∧ a + b ≤ 48)) :
    (p.sealMgmt key origin).g a b = p.g a b := by
  simp only [Pkt.sealMgmt]
  rw [pkt_g_u_other _ _ _ _ _ _ (by omega) (by omega) (by omega), pkt_g_u_other _ _ _ _ _ _ (by omega) (by omega) (by omega),
    pkt_g_u_other _ _ _ _ _ _ (by omega) (by omega) (by omega)]

/-- A sealed packet passes the CRC check (R51, R195). -/
theorem crcOk_sealMgmt (p : Pkt) (key origin : Nat) : crcOk (p.sealMgmt key origin) = true := crcOk_sealed _

/-- A sealed packet carries the tag of its key (R194, R195). -/
theorem pktTag_sealMgmt (p : Pkt) (key origin : Nat) : pktTag key (p.sealMgmt key origin) = (p.sealMgmt key origin).gmac := by
  have same : ∀ (q : Pkt) (o n v : Nat), (o = 48 ∧ n = 16) ∨ (o = 28 ∧ n = 4) → pktTag key (q.u o n v) = pktTag key q := by
    intro q o n v w
    have g : ∀ a b : Nat, a + b ≤ 28 ∨ (32 ≤ a ∧ a + b ≤ 48) → sqGet (q.u o n v).hdr a b = sqGet q.hdr a b := fun a b k =>
      sqGet_sqPut_other _ _ _ _ _ _ (by omega) (by omega) (by omega)
    simp only [pktTag, Pkt.srcFa, Pkt.origin, Pkt.psn, Pkt.g, sqBytes, g _ _ (show 4 + 4 ≤ 28 ∨ _ by omega),
      g _ _ (show 20 + 4 ≤ 28 ∨ _ by omega), g _ _ (show 24 + 4 ≤ 28 ∨ _ by omega), g _ _ (show 0 + 8 ≤ 28 ∨ _ by omega),
      g _ _ (show 12 + 16 ≤ 28 ∨ _ by omega), g _ _ (show 32 + 16 ≤ 28 ∨ 32 ≤ 32 ∧ 32 + 16 ≤ 48 by omega)]
    rfl
  have own := gmacTag_lt key
  simp only [Pkt.sealMgmt, Pkt.gmac]
  rw [same _ _ _ _ (by omega), same _ _ _ _ (by omega), pkt_g_u_other _ _ _ _ _ _ (by omega) (by omega) (by omega),
    pkt_g_u_same _ _ _ _ (by omega)]
  exact (Nat.mod_eq_of_lt (own _ _)).symm

end Sys2Proof.Machine
end

