-- ==== Sys2Proof/Laws/Row.lean ====
section
/-!
SUPPORT. Laws of the row format (R98 to R100): a row whose CRC was computed over its body passes the check, and its CRC does not touch the
fields it decodes to.
-/
namespace Sys2Proof.Machine

theorem rowCrc_lt (body : Nat) : rowCrc body < 2 ^ 32 := crc32_lt _ (bytesBE_lt body 524)

/-- The number of a row's 4,224 bits. -/
theorem rowWord_toNat (body crc : Nat) (h : body < 2 ^ 4192) (k : crc < 2 ^ 32) :
    (BitVec.ofNat 4224 (body * 2 ^ 32 + crc)).toNat = body * 2 ^ 32 + crc := by
  rw [BitVec.toNat_ofNat]
  apply Nat.mod_eq_of_lt
  have e : (2 : Nat) ^ 4224 = 2 ^ 4192 * 2 ^ 32 := by rw [← Nat.pow_add]
  rw [e]
  generalize (2 : Nat) ^ 4192 = a at h ⊢
  omega

/-- An encoded row passes the CRC check (R100). -/
theorem rowCrcOk_rowEncode (r : Row) (h : rowBody r < 2 ^ 4192) : rowCrcOk (rowEncode r) = true := by
  have k := rowCrc_lt (rowBody r)
  rw [rowCrcOk, decide_eq_true_eq, rowEncode, rowWord_toNat _ _ h k, bitsOf, Nat.shiftRight_zero,
    show (rowBody r * 2 ^ 32 + rowCrc (rowBody r)) / 2 ^ 32 = rowBody r by omega]
  omega

/-- The fields of an encoded row come from its body alone (R99). -/
theorem rowDecode_rowEncode (r : Row) (h : rowBody r < 2 ^ 4192) :
    rowDecode (rowEncode r) = rowDecode (BitVec.ofNat 4224 (rowBody r * 2 ^ 32)) := by
  have k := rowCrc_lt (rowBody r)
  have z := rowWord_toNat (rowBody r) 0 h (by decide)
  rw [Nat.add_zero] at z
  rw [rowEncode]
  generalize rowCrc (rowBody r) = c at k ⊢
  have e := rowWord_toNat (rowBody r) c h k
  generalize rowBody r = b at *
  have sh : ∀ lo, 32 ≤ lo → (b * 2 ^ 32 + c) >>> lo = (b * 2 ^ 32) >>> lo := by
    intro lo hl
    obtain ⟨n, rfl⟩ := Nat.exists_eq_add_of_le hl
    have d : (b * 2 ^ 32 + c) / 2 ^ 32 = (b * 2 ^ 32) / 2 ^ 32 := by omega
    rw [Nat.shiftRight_add, Nat.shiftRight_add, Nat.shiftRight_eq_div_pow _ 32, Nat.shiftRight_eq_div_pow _ 32, d]
  have f : ∀ lo w, 32 ≤ lo → bitsOf (b * 2 ^ 32 + c) lo w = bitsOf (b * 2 ^ 32) lo w := by
    intro lo w hl
    rw [bitsOf, bitsOf, sh lo hl]
  have g : ∀ i, 32 ≤ i → bitOf (b * 2 ^ 32 + c) i = bitOf (b * 2 ^ 32) i := by
    intro i hi
    have := congrArg (fun n => n.testBit 0) (sh i hi)
    simpa only [bitOf, Nat.testBit_shiftRight, Nat.add_zero] using this
  have sq : (List.range 8).map (fun i => BitVec.ofNat 512 (bitsOf (b * 2 ^ 32 + c) (128 + 512 * (7 - i)) 512)) =
      (List.range 8).map (fun i => BitVec.ofNat 512 (bitsOf (b * 2 ^ 32) (128 + 512 * (7 - i)) 512)) :=
    List.map_congr_left (fun i _ => by rw [f _ _ (by omega)])
  simp only [rowDecode, e, z]
  rw [sq]
  simp only [f, g, Nat.reduceLeDiff]

end Sys2Proof.Machine
end

