-- ==== Sys2Proof/Laws/SMap.lean ====
section
/-!
SUPPORT. Laws of sparse tables: a read after a write, and the canonical form under every operation.
-/
namespace Sys2Proof.Machine.SMap

variable {α : Type}

@[simp] theorem get_nil (d : α) (k : Nat) : get d ([] : SMap α) k = d := rfl

theorem get_put (d : α) (m : SMap α) (k j : Nat) (v : α) : get d (put m k v) j = if j = k then v else get d m j := by
  induction m with
  | nil => simp only [put, get, eq_comm]
  | cons e m ih =>
    obtain ⟨k', v'⟩ := e
    simp only [put]
    split
    · subst k'
      simp only [get, eq_comm (a := j)]
      split <;> rfl
    · split
      · simp only [get, eq_comm (a := j)]
      · simp only [get, ih]
        split
        · rename_i h1 h2 h3
          subst h3
          rw [if_neg h1]
        · rfl

theorem get_erase (d : α) (m : SMap α) (k j : Nat) : get d (erase m k) j = if j = k then d else get d m j := by
  induction m with
  | nil => simp only [erase, List.filter, get, ite_self]
  | cons e m ih =>
    obtain ⟨k', v'⟩ := e
    simp only [erase, List.filter_cons] at ih ⊢
    by_cases h : k' = k
    · subst h
      simp only [bne_self_eq_false, Bool.false_eq_true, if_false, ih, get, eq_comm (a := j)]
      split <;> rfl
    · have hb : (k' != k) = true := by simpa using h
      simp only [hb, if_true, get, ih]
      split
      · rename_i hj
        subst hj
        rw [if_neg h]
      · rfl

theorem mem_put (m : SMap α) (k : Nat) (v : α) (e : Nat × α) (he : e ∈ put m k v) : e = (k, v) ∨ e ∈ m := by
  induction m with
  | nil => simpa [put] using he
  | cons a m ih =>
    obtain ⟨k', v'⟩ := a
    simp only [put] at he
    split at he
    · rcases List.mem_cons.1 he with h | h
      · exact .inl h
      · exact .inr (List.mem_cons_of_mem _ h)
    · split at he
      · rcases List.mem_cons.1 he with h | h
        · exact .inl h
        · exact .inr h
      · rcases List.mem_cons.1 he with h | h
        · exact .inr (h ▸ List.mem_cons_self)
        · exact (ih h).imp_right (List.mem_cons_of_mem _)

theorem put_pairwise (m : SMap α) (k : Nat) (v : α) (h : (m.map Prod.fst).Pairwise (· < ·)) :
    ((put m k v).map Prod.fst).Pairwise (· < ·) := by
  induction m with
  | nil => simp [put]
  | cons a m ih =>
    obtain ⟨k', v'⟩ := a
    simp only [List.map_cons, List.pairwise_cons] at h
    simp only [put]
    split
    · rename_i hk
      subst hk
      simpa only [List.map_cons, List.pairwise_cons] using h
    · split
      · rename_i hlt
        simp only [List.map_cons, List.pairwise_cons, List.mem_cons, forall_eq_or_imp]
        exact ⟨⟨hlt, fun x hx => Nat.lt_trans hlt (h.1 x hx)⟩, h⟩
      · rename_i hne hle
        simp only [List.map_cons, List.pairwise_cons]
        refine ⟨fun x hx => ?_, ih h.2⟩
        obtain ⟨e, he, rfl⟩ := List.mem_map.1 hx
        rcases mem_put m k v e he with rfl | he
        · show k' < k
          omega
        · exact h.1 _ (List.mem_map_of_mem he)

variable [DecidableEq α]

/-- A read after a write: the value written at its key, what was there at every other. -/
theorem get_set (d : α) (m : SMap α) (k j : Nat) (v : α) : get d (set d m k v) j = if j = k then v else get d m j := by
  simp only [set]
  split
  · rename_i h
    rw [get_erase, h]
  · rw [get_put]

@[simp] theorem get_set_self (d : α) (m : SMap α) (k : Nat) (v : α) : get d (set d m k v) k = v := by simp [get_set]
theorem get_set_ne (d : α) (m : SMap α) {k j : Nat} (v : α) (h : j ≠ k) : get d (set d m k v) j = get d m j := by simp [get_set, h]

/-! The canonical form. -/

@[simp] theorem wf_nil (d : α) : wf d ([] : SMap α) = true := rfl

theorem wf_iff (d : α) (m : SMap α) : wf d m = true ↔ (m.map Prod.fst).Pairwise (· < ·) ∧ ∀ e ∈ m, e.2 ≠ d := by
  simp only [wf, Bool.and_eq_true, decide_eq_true_eq, List.all_eq_true, Bool.not_eq_true', decide_eq_false_iff_not]

theorem wf_filter (d : α) (m : SMap α) (p : Nat × α → Bool) (h : wf d m = true) : wf d (m.filter p) = true := by
  rw [wf_iff] at h ⊢
  exact ⟨h.1.sublist (List.filter_sublist.map _), fun e he => h.2 e (List.mem_filter.1 he).1⟩

theorem wf_keep (d : α) (m : SMap α) (p : Nat → Bool) (h : wf d m = true) : wf d (keep m p) = true := wf_filter d m _ h
theorem wf_erase (d : α) (m : SMap α) (k : Nat) (h : wf d m = true) : wf d (erase m k) = true := wf_filter d m _ h

/-- Every write keeps the canonical form. -/
theorem wf_set (d : α) (m : SMap α) (k : Nat) (v : α) (h : wf d m = true) : wf d (set d m k v) = true := by
  simp only [set]
  split
  · exact wf_erase d m k h
  · rename_i hv
    rw [wf_iff] at h ⊢
    refine ⟨put_pairwise m k v h.1, fun e he => ?_⟩
    rcases mem_put m k v e he with rfl | he
    · exact hv
    · exact h.2 e he

theorem wf_modify (d : α) (m : SMap α) (k : Nat) (f : α → α) (h : wf d m = true) : wf d (modify d m k f) = true := wf_set d m k _ h

/-- A change of every listed entry that leaves the value of an unlisted key as it is changes the value at each key. -/
theorem get_mapAll (d : α) (m : SMap α) (f : Nat → α → α) (h : ∀ k, f k d = d) (k : Nat) :
    get d (mapAll d m f) k = f k (get d m k) := by
  induction m with
  | nil => exact (h k).symm
  | cons e m ih =>
    rw [mapAll, List.foldr_cons, get_set]
    split
    · rename_i hk
      simp [get, hk]
    · rename_i hk
      rw [← mapAll, ih, get, if_neg (fun h => hk h.symm)]

theorem wf_mapAll (d : α) (m : SMap α) (f : Nat → α → α) : wf d (mapAll d m f) = true := by
  induction m with
  | nil => rfl
  | cons e m ih => exact wf_set d _ _ _ ih

end Sys2Proof.Machine.SMap
end

