-- ==== Sys2Proof/Laws/State.lean ====
section
/-!
SUPPORT. Laws of the state: each field under each update, and a register read after a write.
-/
namespace Sys2Proof.Machine.State

/-! The register file: a field reads as it was last written, cut to its width; a write of one field leaves every other field. -/

theorem rd_wr (s : State) (f g : FRef) (v : Nat) :
    (s.wr f v).rd g = if g.key = f.key then (g.rst ^^^ (f.rst ^^^ v % 2 ^ f.width)) % 2 ^ g.width else s.rd g := by
  simp only [rd, wr, withFlds, SMap.get_set]
  split <;> rfl

@[simp] theorem rd_wr_self (s : State) (f : FRef) (v : Nat) : (s.wr f v).rd f = v % 2 ^ f.width := by
  rw [rd_wr, if_pos rfl, ← Nat.xor_assoc, Nat.xor_self, Nat.zero_xor, Nat.mod_mod]

/-- A field holds no more than its width in any state. -/
theorem rd_lt (s : State) (f : FRef) : s.rd f < 2 ^ f.width := Nat.mod_lt _ (Nat.two_pow_pos _)

theorem rd_wr_ne (s : State) {f g : FRef} (v : Nat) (h : g.key ≠ f.key) : (s.wr f v).rd g = s.rd g := by rw [rd_wr, if_neg h]

theorem rd_bump (s : State) (f g : FRef) :
    (s.bump f).rd g = if g.key = f.key then (g.rst ^^^ (f.rst ^^^ (s.rd f + 1) % 2 ^ f.width)) % 2 ^ g.width else s.rd g := rd_wr _ _ _ _

@[simp] theorem rd_bump_self (s : State) (f : FRef) : (s.bump f).rd f = (s.rd f + 1) % 2 ^ f.width := rd_wr_self _ _ _

theorem rd_bump_ne (s : State) {f g : FRef} (h : g.key ≠ f.key) : (s.bump f).rd g = s.rd g := rd_wr_ne _ _ h

theorem rd_bumpBy (s : State) (f g : FRef) (n : Nat) :
    (s.bumpBy f n).rd g = if g.key = f.key then (g.rst ^^^ (f.rst ^^^ (s.rd f + n) % 2 ^ f.width)) % 2 ^ g.width else s.rd g := rd_wr _ _ _ _

theorem rdB_def (s : State) (f : FRef) : s.rdB f = (s.rd f == 1) := rfl
theorem wrB_def (s : State) (f : FRef) (b : Bool) : s.wrB f b = s.wr f (b2n b) := rfl

variable (s : State)

/-! Fields under `wr`. -/

@[simp] theorem wr_pending (f : FRef) (v : Nat) : (s.wr f v).pending = s.pending := rfl
@[simp] theorem wr_now (f : FRef) (v : Nat) : (s.wr f v).now = s.now := rfl
@[simp] theorem wr_rng (f : FRef) (v : Nat) : (s.wr f v).rng = s.rng := rfl
@[simp] theorem wr_out (f : FRef) (v : Nat) : (s.wr f v).out = s.out := rfl
@[simp] theorem wr_mem (f : FRef) (v : Nat) : (s.wr f v).mem = s.mem := rfl
@[simp] theorem wr_lanes (f : FRef) (v : Nat) : (s.wr f v).lanes = s.lanes := rfl
@[simp] theorem wr_ports (f : FRef) (v : Nat) : (s.wr f v).ports = s.ports := rfl
@[simp] theorem wr_buf (f : FRef) (v : Nat) : (s.wr f v).buf = s.buf := rfl
@[simp] theorem wr_nextPid (f : FRef) (v : Nat) : (s.wr f v).nextPid = s.nextPid := rfl
@[simp] theorem wr_oq (f : FRef) (v : Nat) : (s.wr f v).oq = s.oq := rfl
@[simp] theorem wr_lin (f : FRef) (v : Nat) : (s.wr f v).lin = s.lin := rfl
@[simp] theorem wr_guarUsed (f : FRef) (v : Nat) : (s.wr f v).guarUsed = s.guarUsed := rfl
@[simp] theorem wr_pol (f : FRef) (v : Nat) : (s.wr f v).pol = s.pol := rfl
@[simp] theorem wr_sched (f : FRef) (v : Nat) : (s.wr f v).sched = s.sched := rfl
@[simp] theorem wr_swc (f : FRef) (v : Nat) : (s.wr f v).swc = s.swc := rfl
@[simp] theorem wr_departures (f : FRef) (v : Nat) : (s.wr f v).departures = s.departures := rfl
@[simp] theorem wr_copying (f : FRef) (v : Nat) : (s.wr f v).copying = s.copying := rfl
@[simp] theorem wr_sinceSwap (f : FRef) (v : Nat) : (s.wr f v).sinceSwap = s.sinceSwap := rfl
@[simp] theorem wr_digests (f : FRef) (v : Nat) : (s.wr f v).digests = s.digests := rfl
@[simp] theorem wr_digestAt (f : FRef) (v : Nat) : (s.wr f v).digestAt = s.digestAt := rfl
@[simp] theorem wr_engReq (f : FRef) (v : Nat) : (s.wr f v).engReq = s.engReq := rfl
@[simp] theorem wr_engFwd (f : FRef) (v : Nat) : (s.wr f v).engFwd = s.engFwd := rfl
@[simp] theorem wr_engRep (f : FRef) (v : Nat) : (s.wr f v).engRep = s.engRep := rfl
@[simp] theorem wr_colIn (f : FRef) (v : Nat) : (s.wr f v).colIn = s.colIn := rfl
@[simp] theorem wr_colDown (f : FRef) (v : Nat) : (s.wr f v).colDown = s.colDown := rfl
@[simp] theorem wr_arbIn (f : FRef) (v : Nat) : (s.wr f v).arbIn = s.arbIn := rfl
@[simp] theorem wr_mgmtUp (f : FRef) (v : Nat) : (s.wr f v).mgmtUp = s.mgmtUp := rfl
@[simp] theorem wr_mgmtD3 (f : FRef) (v : Nat) : (s.wr f v).mgmtD3 = s.mgmtD3 := rfl
@[simp] theorem wr_pci (f : FRef) (v : Nat) : (s.wr f v).pci = s.pci := rfl
@[simp] theorem wr_msgPba (f : FRef) (v : Nat) : (s.wr f v).msgPba = s.msgPba := rfl
@[simp] theorem wr_wqs (f : FRef) (v : Nat) : (s.wr f v).wqs = s.wqs := rfl
@[simp] theorem wr_cqs (f : FRef) (v : Nat) : (s.wr f v).cqs = s.cqs := rfl
@[simp] theorem wr_eqs (f : FRef) (v : Nat) : (s.wr f v).eqs = s.eqs := rfl
@[simp] theorem wr_work (f : FRef) (v : Nat) : (s.wr f v).work = s.work := rfl
@[simp] theorem wr_nextWork (f : FRef) (v : Nat) : (s.wr f v).nextWork = s.nextWork := rfl
@[simp] theorem wr_reads (f : FRef) (v : Nat) : (s.wr f v).reads = s.reads := rfl
@[simp] theorem wr_nextRead (f : FRef) (v : Nat) : (s.wr f v).nextRead = s.nextRead := rfl
@[simp] theorem wr_fns (f : FRef) (v : Nat) : (s.wr f v).fns = s.fns := rfl
@[simp] theorem wr_jobs (f : FRef) (v : Nat) : (s.wr f v).jobs = s.jobs := rfl
@[simp] theorem wr_trn (f : FRef) (v : Nat) : (s.wr f v).trn = s.trn := rfl
@[simp] theorem wr_xpt (f : FRef) (v : Nat) : (s.wr f v).xpt = s.xpt := rfl
@[simp] theorem wr_mtc (f : FRef) (v : Nat) : (s.wr f v).mtc = s.mtc := rfl
@[simp] theorem wr_trees (f : FRef) (v : Nat) : (s.wr f v).trees = s.trees := rfl
@[simp] theorem wr_regs (f : FRef) (v : Nat) : (s.wr f v).regs = s.regs := rfl
@[simp] theorem wr_cgc (f : FRef) (v : Nat) : (s.wr f v).cgc = s.cgc := rfl
@[simp] theorem wr_lck (f : FRef) (v : Nat) : (s.wr f v).lck = s.lck := rfl
@[simp] theorem wr_stk (f : FRef) (v : Nat) : (s.wr f v).stk = s.stk := rfl
@[simp] theorem wr_arb (f : FRef) (v : Nat) : (s.wr f v).arb = s.arb := rfl
@[simp] theorem wr_sec (f : FRef) (v : Nat) : (s.wr f v).sec = s.sec := rfl
@[simp] theorem wr_flt (f : FRef) (v : Nat) : (s.wr f v).flt = s.flt := rfl
@[simp] theorem wr_time (f : FRef) (v : Nat) : (s.wr f v).time = s.time := rfl
@[simp] theorem wr_pmon (f : FRef) (v : Nat) : (s.wr f v).pmon = s.pmon := rfl
@[simp] theorem wr_pwr (f : FRef) (v : Nat) : (s.wr f v).pwr = s.pwr := rfl
@[simp] theorem wr_tap (f : FRef) (v : Nat) : (s.wr f v).tap = s.tap := rfl
@[simp] theorem wr_opening (f : FRef) (v : Nat) : (s.wr f v).opening = s.opening := rfl

/-! Fields under `wrB`. -/

@[simp] theorem wrB_pending (f : FRef) (b : Bool) : (s.wrB f b).pending = s.pending := rfl
@[simp] theorem wrB_now (f : FRef) (b : Bool) : (s.wrB f b).now = s.now := rfl
@[simp] theorem wrB_rng (f : FRef) (b : Bool) : (s.wrB f b).rng = s.rng := rfl
@[simp] theorem wrB_out (f : FRef) (b : Bool) : (s.wrB f b).out = s.out := rfl
@[simp] theorem wrB_mem (f : FRef) (b : Bool) : (s.wrB f b).mem = s.mem := rfl
@[simp] theorem wrB_lanes (f : FRef) (b : Bool) : (s.wrB f b).lanes = s.lanes := rfl
@[simp] theorem wrB_ports (f : FRef) (b : Bool) : (s.wrB f b).ports = s.ports := rfl
@[simp] theorem wrB_buf (f : FRef) (b : Bool) : (s.wrB f b).buf = s.buf := rfl
@[simp] theorem wrB_nextPid (f : FRef) (b : Bool) : (s.wrB f b).nextPid = s.nextPid := rfl
@[simp] theorem wrB_oq (f : FRef) (b : Bool) : (s.wrB f b).oq = s.oq := rfl
@[simp] theorem wrB_lin (f : FRef) (b : Bool) : (s.wrB f b).lin = s.lin := rfl
@[simp] theorem wrB_guarUsed (f : FRef) (b : Bool) : (s.wrB f b).guarUsed = s.guarUsed := rfl
@[simp] theorem wrB_pol (f : FRef) (b : Bool) : (s.wrB f b).pol = s.pol := rfl
@[simp] theorem wrB_sched (f : FRef) (b : Bool) : (s.wrB f b).sched = s.sched := rfl
@[simp] theorem wrB_swc (f : FRef) (b : Bool) : (s.wrB f b).swc = s.swc := rfl
@[simp] theorem wrB_departures (f : FRef) (b : Bool) : (s.wrB f b).departures = s.departures := rfl
@[simp] theorem wrB_copying (f : FRef) (b : Bool) : (s.wrB f b).copying = s.copying := rfl
@[simp] theorem wrB_sinceSwap (f : FRef) (b : Bool) : (s.wrB f b).sinceSwap = s.sinceSwap := rfl
@[simp] theorem wrB_digests (f : FRef) (b : Bool) : (s.wrB f b).digests = s.digests := rfl
@[simp] theorem wrB_digestAt (f : FRef) (b : Bool) : (s.wrB f b).digestAt = s.digestAt := rfl
@[simp] theorem wrB_engReq (f : FRef) (b : Bool) : (s.wrB f b).engReq = s.engReq := rfl
@[simp] theorem wrB_engFwd (f : FRef) (b : Bool) : (s.wrB f b).engFwd = s.engFwd := rfl
@[simp] theorem wrB_engRep (f : FRef) (b : Bool) : (s.wrB f b).engRep = s.engRep := rfl
@[simp] theorem wrB_colIn (f : FRef) (b : Bool) : (s.wrB f b).colIn = s.colIn := rfl
@[simp] theorem wrB_colDown (f : FRef) (b : Bool) : (s.wrB f b).colDown = s.colDown := rfl
@[simp] theorem wrB_arbIn (f : FRef) (b : Bool) : (s.wrB f b).arbIn = s.arbIn := rfl
@[simp] theorem wrB_mgmtUp (f : FRef) (b : Bool) : (s.wrB f b).mgmtUp = s.mgmtUp := rfl
@[simp] theorem wrB_mgmtD3 (f : FRef) (b : Bool) : (s.wrB f b).mgmtD3 = s.mgmtD3 := rfl
@[simp] theorem wrB_pci (f : FRef) (b : Bool) : (s.wrB f b).pci = s.pci := rfl
@[simp] theorem wrB_msgPba (f : FRef) (b : Bool) : (s.wrB f b).msgPba = s.msgPba := rfl
@[simp] theorem wrB_wqs (f : FRef) (b : Bool) : (s.wrB f b).wqs = s.wqs := rfl
@[simp] theorem wrB_cqs (f : FRef) (b : Bool) : (s.wrB f b).cqs = s.cqs := rfl
@[simp] theorem wrB_eqs (f : FRef) (b : Bool) : (s.wrB f b).eqs = s.eqs := rfl
@[simp] theorem wrB_work (f : FRef) (b : Bool) : (s.wrB f b).work = s.work := rfl
@[simp] theorem wrB_nextWork (f : FRef) (b : Bool) : (s.wrB f b).nextWork = s.nextWork := rfl
@[simp] theorem wrB_reads (f : FRef) (b : Bool) : (s.wrB f b).reads = s.reads := rfl
@[simp] theorem wrB_nextRead (f : FRef) (b : Bool) : (s.wrB f b).nextRead = s.nextRead := rfl
@[simp] theorem wrB_fns (f : FRef) (b : Bool) : (s.wrB f b).fns = s.fns := rfl
@[simp] theorem wrB_jobs (f : FRef) (b : Bool) : (s.wrB f b).jobs = s.jobs := rfl
@[simp] theorem wrB_trn (f : FRef) (b : Bool) : (s.wrB f b).trn = s.trn := rfl
@[simp] theorem wrB_xpt (f : FRef) (b : Bool) : (s.wrB f b).xpt = s.xpt := rfl
@[simp] theorem wrB_mtc (f : FRef) (b : Bool) : (s.wrB f b).mtc = s.mtc := rfl
@[simp] theorem wrB_trees (f : FRef) (b : Bool) : (s.wrB f b).trees = s.trees := rfl
@[simp] theorem wrB_regs (f : FRef) (b : Bool) : (s.wrB f b).regs = s.regs := rfl
@[simp] theorem wrB_cgc (f : FRef) (b : Bool) : (s.wrB f b).cgc = s.cgc := rfl
@[simp] theorem wrB_lck (f : FRef) (b : Bool) : (s.wrB f b).lck = s.lck := rfl
@[simp] theorem wrB_stk (f : FRef) (b : Bool) : (s.wrB f b).stk = s.stk := rfl
@[simp] theorem wrB_arb (f : FRef) (b : Bool) : (s.wrB f b).arb = s.arb := rfl
@[simp] theorem wrB_sec (f : FRef) (b : Bool) : (s.wrB f b).sec = s.sec := rfl
@[simp] theorem wrB_flt (f : FRef) (b : Bool) : (s.wrB f b).flt = s.flt := rfl
@[simp] theorem wrB_time (f : FRef) (b : Bool) : (s.wrB f b).time = s.time := rfl
@[simp] theorem wrB_pmon (f : FRef) (b : Bool) : (s.wrB f b).pmon = s.pmon := rfl
@[simp] theorem wrB_pwr (f : FRef) (b : Bool) : (s.wrB f b).pwr = s.pwr := rfl
@[simp] theorem wrB_tap (f : FRef) (b : Bool) : (s.wrB f b).tap = s.tap := rfl
@[simp] theorem wrB_opening (f : FRef) (b : Bool) : (s.wrB f b).opening = s.opening := rfl

/-! Fields under `bump`. -/

@[simp] theorem bump_pending (f : FRef) : (s.bump f).pending = s.pending := rfl
@[simp] theorem bump_now (f : FRef) : (s.bump f).now = s.now := rfl
@[simp] theorem bump_rng (f : FRef) : (s.bump f).rng = s.rng := rfl
@[simp] theorem bump_out (f : FRef) : (s.bump f).out = s.out := rfl
@[simp] theorem bump_mem (f : FRef) : (s.bump f).mem = s.mem := rfl
@[simp] theorem bump_lanes (f : FRef) : (s.bump f).lanes = s.lanes := rfl
@[simp] theorem bump_ports (f : FRef) : (s.bump f).ports = s.ports := rfl
@[simp] theorem bump_buf (f : FRef) : (s.bump f).buf = s.buf := rfl
@[simp] theorem bump_nextPid (f : FRef) : (s.bump f).nextPid = s.nextPid := rfl
@[simp] theorem bump_oq (f : FRef) : (s.bump f).oq = s.oq := rfl
@[simp] theorem bump_lin (f : FRef) : (s.bump f).lin = s.lin := rfl
@[simp] theorem bump_guarUsed (f : FRef) : (s.bump f).guarUsed = s.guarUsed := rfl
@[simp] theorem bump_pol (f : FRef) : (s.bump f).pol = s.pol := rfl
@[simp] theorem bump_sched (f : FRef) : (s.bump f).sched = s.sched := rfl
@[simp] theorem bump_swc (f : FRef) : (s.bump f).swc = s.swc := rfl
@[simp] theorem bump_departures (f : FRef) : (s.bump f).departures = s.departures := rfl
@[simp] theorem bump_copying (f : FRef) : (s.bump f).copying = s.copying := rfl
@[simp] theorem bump_sinceSwap (f : FRef) : (s.bump f).sinceSwap = s.sinceSwap := rfl
@[simp] theorem bump_digests (f : FRef) : (s.bump f).digests = s.digests := rfl
@[simp] theorem bump_digestAt (f : FRef) : (s.bump f).digestAt = s.digestAt := rfl
@[simp] theorem bump_engReq (f : FRef) : (s.bump f).engReq = s.engReq := rfl
@[simp] theorem bump_engFwd (f : FRef) : (s.bump f).engFwd = s.engFwd := rfl
@[simp] theorem bump_engRep (f : FRef) : (s.bump f).engRep = s.engRep := rfl
@[simp] theorem bump_colIn (f : FRef) : (s.bump f).colIn = s.colIn := rfl
@[simp] theorem bump_colDown (f : FRef) : (s.bump f).colDown = s.colDown := rfl
@[simp] theorem bump_arbIn (f : FRef) : (s.bump f).arbIn = s.arbIn := rfl
@[simp] theorem bump_mgmtUp (f : FRef) : (s.bump f).mgmtUp = s.mgmtUp := rfl
@[simp] theorem bump_mgmtD3 (f : FRef) : (s.bump f).mgmtD3 = s.mgmtD3 := rfl
@[simp] theorem bump_pci (f : FRef) : (s.bump f).pci = s.pci := rfl
@[simp] theorem bump_msgPba (f : FRef) : (s.bump f).msgPba = s.msgPba := rfl
@[simp] theorem bump_wqs (f : FRef) : (s.bump f).wqs = s.wqs := rfl
@[simp] theorem bump_cqs (f : FRef) : (s.bump f).cqs = s.cqs := rfl
@[simp] theorem bump_eqs (f : FRef) : (s.bump f).eqs = s.eqs := rfl
@[simp] theorem bump_work (f : FRef) : (s.bump f).work = s.work := rfl
@[simp] theorem bump_nextWork (f : FRef) : (s.bump f).nextWork = s.nextWork := rfl
@[simp] theorem bump_reads (f : FRef) : (s.bump f).reads = s.reads := rfl
@[simp] theorem bump_nextRead (f : FRef) : (s.bump f).nextRead = s.nextRead := rfl
@[simp] theorem bump_fns (f : FRef) : (s.bump f).fns = s.fns := rfl
@[simp] theorem bump_jobs (f : FRef) : (s.bump f).jobs = s.jobs := rfl
@[simp] theorem bump_trn (f : FRef) : (s.bump f).trn = s.trn := rfl
@[simp] theorem bump_xpt (f : FRef) : (s.bump f).xpt = s.xpt := rfl
@[simp] theorem bump_mtc (f : FRef) : (s.bump f).mtc = s.mtc := rfl
@[simp] theorem bump_trees (f : FRef) : (s.bump f).trees = s.trees := rfl
@[simp] theorem bump_regs (f : FRef) : (s.bump f).regs = s.regs := rfl
@[simp] theorem bump_cgc (f : FRef) : (s.bump f).cgc = s.cgc := rfl
@[simp] theorem bump_lck (f : FRef) : (s.bump f).lck = s.lck := rfl
@[simp] theorem bump_stk (f : FRef) : (s.bump f).stk = s.stk := rfl
@[simp] theorem bump_arb (f : FRef) : (s.bump f).arb = s.arb := rfl
@[simp] theorem bump_sec (f : FRef) : (s.bump f).sec = s.sec := rfl
@[simp] theorem bump_flt (f : FRef) : (s.bump f).flt = s.flt := rfl
@[simp] theorem bump_time (f : FRef) : (s.bump f).time = s.time := rfl
@[simp] theorem bump_pmon (f : FRef) : (s.bump f).pmon = s.pmon := rfl
@[simp] theorem bump_pwr (f : FRef) : (s.bump f).pwr = s.pwr := rfl
@[simp] theorem bump_tap (f : FRef) : (s.bump f).tap = s.tap := rfl
@[simp] theorem bump_opening (f : FRef) : (s.bump f).opening = s.opening := rfl

/-! Fields under `bumpBy`. -/

@[simp] theorem bumpBy_pending (f : FRef) (n : Nat) : (s.bumpBy f n).pending = s.pending := rfl
@[simp] theorem bumpBy_now (f : FRef) (n : Nat) : (s.bumpBy f n).now = s.now := rfl
@[simp] theorem bumpBy_rng (f : FRef) (n : Nat) : (s.bumpBy f n).rng = s.rng := rfl
@[simp] theorem bumpBy_out (f : FRef) (n : Nat) : (s.bumpBy f n).out = s.out := rfl
@[simp] theorem bumpBy_mem (f : FRef) (n : Nat) : (s.bumpBy f n).mem = s.mem := rfl
@[simp] theorem bumpBy_lanes (f : FRef) (n : Nat) : (s.bumpBy f n).lanes = s.lanes := rfl
@[simp] theorem bumpBy_ports (f : FRef) (n : Nat) : (s.bumpBy f n).ports = s.ports := rfl
@[simp] theorem bumpBy_buf (f : FRef) (n : Nat) : (s.bumpBy f n).buf = s.buf := rfl
@[simp] theorem bumpBy_nextPid (f : FRef) (n : Nat) : (s.bumpBy f n).nextPid = s.nextPid := rfl
@[simp] theorem bumpBy_oq (f : FRef) (n : Nat) : (s.bumpBy f n).oq = s.oq := rfl
@[simp] theorem bumpBy_lin (f : FRef) (n : Nat) : (s.bumpBy f n).lin = s.lin := rfl
@[simp] theorem bumpBy_guarUsed (f : FRef) (n : Nat) : (s.bumpBy f n).guarUsed = s.guarUsed := rfl
@[simp] theorem bumpBy_pol (f : FRef) (n : Nat) : (s.bumpBy f n).pol = s.pol := rfl
@[simp] theorem bumpBy_sched (f : FRef) (n : Nat) : (s.bumpBy f n).sched = s.sched := rfl
@[simp] theorem bumpBy_swc (f : FRef) (n : Nat) : (s.bumpBy f n).swc = s.swc := rfl
@[simp] theorem bumpBy_departures (f : FRef) (n : Nat) : (s.bumpBy f n).departures = s.departures := rfl
@[simp] theorem bumpBy_copying (f : FRef) (n : Nat) : (s.bumpBy f n).copying = s.copying := rfl
@[simp] theorem bumpBy_sinceSwap (f : FRef) (n : Nat) : (s.bumpBy f n).sinceSwap = s.sinceSwap := rfl
@[simp] theorem bumpBy_digests (f : FRef) (n : Nat) : (s.bumpBy f n).digests = s.digests := rfl
@[simp] theorem bumpBy_digestAt (f : FRef) (n : Nat) : (s.bumpBy f n).digestAt = s.digestAt := rfl
@[simp] theorem bumpBy_engReq (f : FRef) (n : Nat) : (s.bumpBy f n).engReq = s.engReq := rfl
@[simp] theorem bumpBy_engFwd (f : FRef) (n : Nat) : (s.bumpBy f n).engFwd = s.engFwd := rfl
@[simp] theorem bumpBy_engRep (f : FRef) (n : Nat) : (s.bumpBy f n).engRep = s.engRep := rfl
@[simp] theorem bumpBy_colIn (f : FRef) (n : Nat) : (s.bumpBy f n).colIn = s.colIn := rfl
@[simp] theorem bumpBy_colDown (f : FRef) (n : Nat) : (s.bumpBy f n).colDown = s.colDown := rfl
@[simp] theorem bumpBy_arbIn (f : FRef) (n : Nat) : (s.bumpBy f n).arbIn = s.arbIn := rfl
@[simp] theorem bumpBy_mgmtUp (f : FRef) (n : Nat) : (s.bumpBy f n).mgmtUp = s.mgmtUp := rfl
@[simp] theorem bumpBy_mgmtD3 (f : FRef) (n : Nat) : (s.bumpBy f n).mgmtD3 = s.mgmtD3 := rfl
@[simp] theorem bumpBy_pci (f : FRef) (n : Nat) : (s.bumpBy f n).pci = s.pci := rfl
@[simp] theorem bumpBy_msgPba (f : FRef) (n : Nat) : (s.bumpBy f n).msgPba = s.msgPba := rfl
@[simp] theorem bumpBy_wqs (f : FRef) (n : Nat) : (s.bumpBy f n).wqs = s.wqs := rfl
@[simp] theorem bumpBy_cqs (f : FRef) (n : Nat) : (s.bumpBy f n).cqs = s.cqs := rfl
@[simp] theorem bumpBy_eqs (f : FRef) (n : Nat) : (s.bumpBy f n).eqs = s.eqs := rfl
@[simp] theorem bumpBy_work (f : FRef) (n : Nat) : (s.bumpBy f n).work = s.work := rfl
@[simp] theorem bumpBy_nextWork (f : FRef) (n : Nat) : (s.bumpBy f n).nextWork = s.nextWork := rfl
@[simp] theorem bumpBy_reads (f : FRef) (n : Nat) : (s.bumpBy f n).reads = s.reads := rfl
@[simp] theorem bumpBy_nextRead (f : FRef) (n : Nat) : (s.bumpBy f n).nextRead = s.nextRead := rfl
@[simp] theorem bumpBy_fns (f : FRef) (n : Nat) : (s.bumpBy f n).fns = s.fns := rfl
@[simp] theorem bumpBy_jobs (f : FRef) (n : Nat) : (s.bumpBy f n).jobs = s.jobs := rfl
@[simp] theorem bumpBy_trn (f : FRef) (n : Nat) : (s.bumpBy f n).trn = s.trn := rfl
@[simp] theorem bumpBy_xpt (f : FRef) (n : Nat) : (s.bumpBy f n).xpt = s.xpt := rfl
@[simp] theorem bumpBy_mtc (f : FRef) (n : Nat) : (s.bumpBy f n).mtc = s.mtc := rfl
@[simp] theorem bumpBy_trees (f : FRef) (n : Nat) : (s.bumpBy f n).trees = s.trees := rfl
@[simp] theorem bumpBy_regs (f : FRef) (n : Nat) : (s.bumpBy f n).regs = s.regs := rfl
@[simp] theorem bumpBy_cgc (f : FRef) (n : Nat) : (s.bumpBy f n).cgc = s.cgc := rfl
@[simp] theorem bumpBy_lck (f : FRef) (n : Nat) : (s.bumpBy f n).lck = s.lck := rfl
@[simp] theorem bumpBy_stk (f : FRef) (n : Nat) : (s.bumpBy f n).stk = s.stk := rfl
@[simp] theorem bumpBy_arb (f : FRef) (n : Nat) : (s.bumpBy f n).arb = s.arb := rfl
@[simp] theorem bumpBy_sec (f : FRef) (n : Nat) : (s.bumpBy f n).sec = s.sec := rfl
@[simp] theorem bumpBy_flt (f : FRef) (n : Nat) : (s.bumpBy f n).flt = s.flt := rfl
@[simp] theorem bumpBy_time (f : FRef) (n : Nat) : (s.bumpBy f n).time = s.time := rfl
@[simp] theorem bumpBy_pmon (f : FRef) (n : Nat) : (s.bumpBy f n).pmon = s.pmon := rfl
@[simp] theorem bumpBy_pwr (f : FRef) (n : Nat) : (s.bumpBy f n).pwr = s.pwr := rfl
@[simp] theorem bumpBy_tap (f : FRef) (n : Nat) : (s.bumpBy f n).tap = s.tap := rfl
@[simp] theorem bumpBy_opening (f : FRef) (n : Nat) : (s.bumpBy f n).opening = s.opening := rfl

/-! Fields under `emit`. -/

@[simp] theorem emit_pending (o : Output) : (s.emit o).pending = s.pending := rfl
@[simp] theorem emit_flds (o : Output) : (s.emit o).flds = s.flds := rfl
@[simp] theorem emit_now (o : Output) : (s.emit o).now = s.now := rfl
@[simp] theorem emit_rng (o : Output) : (s.emit o).rng = s.rng := rfl
@[simp] theorem emit_mem (o : Output) : (s.emit o).mem = s.mem := rfl
@[simp] theorem emit_lanes (o : Output) : (s.emit o).lanes = s.lanes := rfl
@[simp] theorem emit_ports (o : Output) : (s.emit o).ports = s.ports := rfl
@[simp] theorem emit_buf (o : Output) : (s.emit o).buf = s.buf := rfl
@[simp] theorem emit_nextPid (o : Output) : (s.emit o).nextPid = s.nextPid := rfl
@[simp] theorem emit_oq (o : Output) : (s.emit o).oq = s.oq := rfl
@[simp] theorem emit_lin (o : Output) : (s.emit o).lin = s.lin := rfl
@[simp] theorem emit_guarUsed (o : Output) : (s.emit o).guarUsed = s.guarUsed := rfl
@[simp] theorem emit_pol (o : Output) : (s.emit o).pol = s.pol := rfl
@[simp] theorem emit_sched (o : Output) : (s.emit o).sched = s.sched := rfl
@[simp] theorem emit_swc (o : Output) : (s.emit o).swc = s.swc := rfl
@[simp] theorem emit_departures (o : Output) : (s.emit o).departures = s.departures := rfl
@[simp] theorem emit_copying (o : Output) : (s.emit o).copying = s.copying := rfl
@[simp] theorem emit_sinceSwap (o : Output) : (s.emit o).sinceSwap = s.sinceSwap := rfl
@[simp] theorem emit_digests (o : Output) : (s.emit o).digests = s.digests := rfl
@[simp] theorem emit_digestAt (o : Output) : (s.emit o).digestAt = s.digestAt := rfl
@[simp] theorem emit_engReq (o : Output) : (s.emit o).engReq = s.engReq := rfl
@[simp] theorem emit_engFwd (o : Output) : (s.emit o).engFwd = s.engFwd := rfl
@[simp] theorem emit_engRep (o : Output) : (s.emit o).engRep = s.engRep := rfl
@[simp] theorem emit_colIn (o : Output) : (s.emit o).colIn = s.colIn := rfl
@[simp] theorem emit_colDown (o : Output) : (s.emit o).colDown = s.colDown := rfl
@[simp] theorem emit_arbIn (o : Output) : (s.emit o).arbIn = s.arbIn := rfl
@[simp] theorem emit_mgmtUp (o : Output) : (s.emit o).mgmtUp = s.mgmtUp := rfl
@[simp] theorem emit_mgmtD3 (o : Output) : (s.emit o).mgmtD3 = s.mgmtD3 := rfl
@[simp] theorem emit_pci (o : Output) : (s.emit o).pci = s.pci := rfl
@[simp] theorem emit_msgPba (o : Output) : (s.emit o).msgPba = s.msgPba := rfl
@[simp] theorem emit_wqs (o : Output) : (s.emit o).wqs = s.wqs := rfl
@[simp] theorem emit_cqs (o : Output) : (s.emit o).cqs = s.cqs := rfl
@[simp] theorem emit_eqs (o : Output) : (s.emit o).eqs = s.eqs := rfl
@[simp] theorem emit_work (o : Output) : (s.emit o).work = s.work := rfl
@[simp] theorem emit_nextWork (o : Output) : (s.emit o).nextWork = s.nextWork := rfl
@[simp] theorem emit_reads (o : Output) : (s.emit o).reads = s.reads := rfl
@[simp] theorem emit_nextRead (o : Output) : (s.emit o).nextRead = s.nextRead := rfl
@[simp] theorem emit_fns (o : Output) : (s.emit o).fns = s.fns := rfl
@[simp] theorem emit_jobs (o : Output) : (s.emit o).jobs = s.jobs := rfl
@[simp] theorem emit_trn (o : Output) : (s.emit o).trn = s.trn := rfl
@[simp] theorem emit_xpt (o : Output) : (s.emit o).xpt = s.xpt := rfl
@[simp] theorem emit_mtc (o : Output) : (s.emit o).mtc = s.mtc := rfl
@[simp] theorem emit_trees (o : Output) : (s.emit o).trees = s.trees := rfl
@[simp] theorem emit_regs (o : Output) : (s.emit o).regs = s.regs := rfl
@[simp] theorem emit_cgc (o : Output) : (s.emit o).cgc = s.cgc := rfl
@[simp] theorem emit_lck (o : Output) : (s.emit o).lck = s.lck := rfl
@[simp] theorem emit_stk (o : Output) : (s.emit o).stk = s.stk := rfl
@[simp] theorem emit_arb (o : Output) : (s.emit o).arb = s.arb := rfl
@[simp] theorem emit_sec (o : Output) : (s.emit o).sec = s.sec := rfl
@[simp] theorem emit_flt (o : Output) : (s.emit o).flt = s.flt := rfl
@[simp] theorem emit_time (o : Output) : (s.emit o).time = s.time := rfl
@[simp] theorem emit_pmon (o : Output) : (s.emit o).pmon = s.pmon := rfl
@[simp] theorem emit_pwr (o : Output) : (s.emit o).pwr = s.pwr := rfl
@[simp] theorem emit_tap (o : Output) : (s.emit o).tap = s.tap := rfl
@[simp] theorem emit_opening (o : Output) : (s.emit o).opening = s.opening := rfl
@[simp] theorem rd_emit (o : Output) (g : FRef) : (s.emit o).rd g = s.rd g := rfl

/-! Fields under `draw`. -/

@[simp] theorem draw_pending : (s.draw).pending = s.pending := rfl
@[simp] theorem draw_flds : (s.draw).flds = s.flds := rfl
@[simp] theorem draw_now : (s.draw).now = s.now := rfl
@[simp] theorem draw_out : (s.draw).out = s.out := rfl
@[simp] theorem draw_mem : (s.draw).mem = s.mem := rfl
@[simp] theorem draw_lanes : (s.draw).lanes = s.lanes := rfl
@[simp] theorem draw_ports : (s.draw).ports = s.ports := rfl
@[simp] theorem draw_buf : (s.draw).buf = s.buf := rfl
@[simp] theorem draw_nextPid : (s.draw).nextPid = s.nextPid := rfl
@[simp] theorem draw_oq : (s.draw).oq = s.oq := rfl
@[simp] theorem draw_lin : (s.draw).lin = s.lin := rfl
@[simp] theorem draw_guarUsed : (s.draw).guarUsed = s.guarUsed := rfl
@[simp] theorem draw_pol : (s.draw).pol = s.pol := rfl
@[simp] theorem draw_sched : (s.draw).sched = s.sched := rfl
@[simp] theorem draw_swc : (s.draw).swc = s.swc := rfl
@[simp] theorem draw_departures : (s.draw).departures = s.departures := rfl
@[simp] theorem draw_copying : (s.draw).copying = s.copying := rfl
@[simp] theorem draw_sinceSwap : (s.draw).sinceSwap = s.sinceSwap := rfl
@[simp] theorem draw_digests : (s.draw).digests = s.digests := rfl
@[simp] theorem draw_digestAt : (s.draw).digestAt = s.digestAt := rfl
@[simp] theorem draw_engReq : (s.draw).engReq = s.engReq := rfl
@[simp] theorem draw_engFwd : (s.draw).engFwd = s.engFwd := rfl
@[simp] theorem draw_engRep : (s.draw).engRep = s.engRep := rfl
@[simp] theorem draw_colIn : (s.draw).colIn = s.colIn := rfl
@[simp] theorem draw_colDown : (s.draw).colDown = s.colDown := rfl
@[simp] theorem draw_arbIn : (s.draw).arbIn = s.arbIn := rfl
@[simp] theorem draw_mgmtUp : (s.draw).mgmtUp = s.mgmtUp := rfl
@[simp] theorem draw_mgmtD3 : (s.draw).mgmtD3 = s.mgmtD3 := rfl
@[simp] theorem draw_pci : (s.draw).pci = s.pci := rfl
@[simp] theorem draw_msgPba : (s.draw).msgPba = s.msgPba := rfl
@[simp] theorem draw_wqs : (s.draw).wqs = s.wqs := rfl
@[simp] theorem draw_cqs : (s.draw).cqs = s.cqs := rfl
@[simp] theorem draw_eqs : (s.draw).eqs = s.eqs := rfl
@[simp] theorem draw_work : (s.draw).work = s.work := rfl
@[simp] theorem draw_nextWork : (s.draw).nextWork = s.nextWork := rfl
@[simp] theorem draw_reads : (s.draw).reads = s.reads := rfl
@[simp] theorem draw_nextRead : (s.draw).nextRead = s.nextRead := rfl
@[simp] theorem draw_fns : (s.draw).fns = s.fns := rfl
@[simp] theorem draw_jobs : (s.draw).jobs = s.jobs := rfl
@[simp] theorem draw_trn : (s.draw).trn = s.trn := rfl
@[simp] theorem draw_xpt : (s.draw).xpt = s.xpt := rfl
@[simp] theorem draw_mtc : (s.draw).mtc = s.mtc := rfl
@[simp] theorem draw_trees : (s.draw).trees = s.trees := rfl
@[simp] theorem draw_regs : (s.draw).regs = s.regs := rfl
@[simp] theorem draw_cgc : (s.draw).cgc = s.cgc := rfl
@[simp] theorem draw_lck : (s.draw).lck = s.lck := rfl
@[simp] theorem draw_stk : (s.draw).stk = s.stk := rfl
@[simp] theorem draw_arb : (s.draw).arb = s.arb := rfl
@[simp] theorem draw_sec : (s.draw).sec = s.sec := rfl
@[simp] theorem draw_flt : (s.draw).flt = s.flt := rfl
@[simp] theorem draw_time : (s.draw).time = s.time := rfl
@[simp] theorem draw_pmon : (s.draw).pmon = s.pmon := rfl
@[simp] theorem draw_pwr : (s.draw).pwr = s.pwr := rfl
@[simp] theorem draw_tap : (s.draw).tap = s.tap := rfl
@[simp] theorem draw_opening : (s.draw).opening = s.opening := rfl
@[simp] theorem rd_draw (g : FRef) : (s.draw).rd g = s.rd g := rfl

/-! Fields under `setLane`. -/

@[simp] theorem setLane_pending (l : Nat) (v : LaneSt) : (s.setLane l v).pending = s.pending := rfl
@[simp] theorem setLane_flds (l : Nat) (v : LaneSt) : (s.setLane l v).flds = s.flds := rfl
@[simp] theorem setLane_now (l : Nat) (v : LaneSt) : (s.setLane l v).now = s.now := rfl
@[simp] theorem setLane_rng (l : Nat) (v : LaneSt) : (s.setLane l v).rng = s.rng := rfl
@[simp] theorem setLane_out (l : Nat) (v : LaneSt) : (s.setLane l v).out = s.out := rfl
@[simp] theorem setLane_mem (l : Nat) (v : LaneSt) : (s.setLane l v).mem = s.mem := rfl
@[simp] theorem setLane_ports (l : Nat) (v : LaneSt) : (s.setLane l v).ports = s.ports := rfl
@[simp] theorem setLane_buf (l : Nat) (v : LaneSt) : (s.setLane l v).buf = s.buf := rfl
@[simp] theorem setLane_nextPid (l : Nat) (v : LaneSt) : (s.setLane l v).nextPid = s.nextPid := rfl
@[simp] theorem setLane_oq (l : Nat) (v : LaneSt) : (s.setLane l v).oq = s.oq := rfl
@[simp] theorem setLane_lin (l : Nat) (v : LaneSt) : (s.setLane l v).lin = s.lin := rfl
@[simp] theorem setLane_guarUsed (l : Nat) (v : LaneSt) : (s.setLane l v).guarUsed = s.guarUsed := rfl
@[simp] theorem setLane_pol (l : Nat) (v : LaneSt) : (s.setLane l v).pol = s.pol := rfl
@[simp] theorem setLane_sched (l : Nat) (v : LaneSt) : (s.setLane l v).sched = s.sched := rfl
@[simp] theorem setLane_swc (l : Nat) (v : LaneSt) : (s.setLane l v).swc = s.swc := rfl
@[simp] theorem setLane_departures (l : Nat) (v : LaneSt) : (s.setLane l v).departures = s.departures := rfl
@[simp] theorem setLane_copying (l : Nat) (v : LaneSt) : (s.setLane l v).copying = s.copying := rfl
@[simp] theorem setLane_sinceSwap (l : Nat) (v : LaneSt) : (s.setLane l v).sinceSwap = s.sinceSwap := rfl
@[simp] theorem setLane_digests (l : Nat) (v : LaneSt) : (s.setLane l v).digests = s.digests := rfl
@[simp] theorem setLane_digestAt (l : Nat) (v : LaneSt) : (s.setLane l v).digestAt = s.digestAt := rfl
@[simp] theorem setLane_engReq (l : Nat) (v : LaneSt) : (s.setLane l v).engReq = s.engReq := rfl
@[simp] theorem setLane_engFwd (l : Nat) (v : LaneSt) : (s.setLane l v).engFwd = s.engFwd := rfl
@[simp] theorem setLane_engRep (l : Nat) (v : LaneSt) : (s.setLane l v).engRep = s.engRep := rfl
@[simp] theorem setLane_colIn (l : Nat) (v : LaneSt) : (s.setLane l v).colIn = s.colIn := rfl
@[simp] theorem setLane_colDown (l : Nat) (v : LaneSt) : (s.setLane l v).colDown = s.colDown := rfl
@[simp] theorem setLane_arbIn (l : Nat) (v : LaneSt) : (s.setLane l v).arbIn = s.arbIn := rfl
@[simp] theorem setLane_mgmtUp (l : Nat) (v : LaneSt) : (s.setLane l v).mgmtUp = s.mgmtUp := rfl
@[simp] theorem setLane_mgmtD3 (l : Nat) (v : LaneSt) : (s.setLane l v).mgmtD3 = s.mgmtD3 := rfl
@[simp] theorem setLane_pci (l : Nat) (v : LaneSt) : (s.setLane l v).pci = s.pci := rfl
@[simp] theorem setLane_msgPba (l : Nat) (v : LaneSt) : (s.setLane l v).msgPba = s.msgPba := rfl
@[simp] theorem setLane_wqs (l : Nat) (v : LaneSt) : (s.setLane l v).wqs = s.wqs := rfl
@[simp] theorem setLane_cqs (l : Nat) (v : LaneSt) : (s.setLane l v).cqs = s.cqs := rfl
@[simp] theorem setLane_eqs (l : Nat) (v : LaneSt) : (s.setLane l v).eqs = s.eqs := rfl
@[simp] theorem setLane_work (l : Nat) (v : LaneSt) : (s.setLane l v).work = s.work := rfl
@[simp] theorem setLane_nextWork (l : Nat) (v : LaneSt) : (s.setLane l v).nextWork = s.nextWork := rfl
@[simp] theorem setLane_reads (l : Nat) (v : LaneSt) : (s.setLane l v).reads = s.reads := rfl
@[simp] theorem setLane_nextRead (l : Nat) (v : LaneSt) : (s.setLane l v).nextRead = s.nextRead := rfl
@[simp] theorem setLane_fns (l : Nat) (v : LaneSt) : (s.setLane l v).fns = s.fns := rfl
@[simp] theorem setLane_jobs (l : Nat) (v : LaneSt) : (s.setLane l v).jobs = s.jobs := rfl
@[simp] theorem setLane_trn (l : Nat) (v : LaneSt) : (s.setLane l v).trn = s.trn := rfl
@[simp] theorem setLane_xpt (l : Nat) (v : LaneSt) : (s.setLane l v).xpt = s.xpt := rfl
@[simp] theorem setLane_mtc (l : Nat) (v : LaneSt) : (s.setLane l v).mtc = s.mtc := rfl
@[simp] theorem setLane_trees (l : Nat) (v : LaneSt) : (s.setLane l v).trees = s.trees := rfl
@[simp] theorem setLane_regs (l : Nat) (v : LaneSt) : (s.setLane l v).regs = s.regs := rfl
@[simp] theorem setLane_cgc (l : Nat) (v : LaneSt) : (s.setLane l v).cgc = s.cgc := rfl
@[simp] theorem setLane_lck (l : Nat) (v : LaneSt) : (s.setLane l v).lck = s.lck := rfl
@[simp] theorem setLane_stk (l : Nat) (v : LaneSt) : (s.setLane l v).stk = s.stk := rfl
@[simp] theorem setLane_arb (l : Nat) (v : LaneSt) : (s.setLane l v).arb = s.arb := rfl
@[simp] theorem setLane_sec (l : Nat) (v : LaneSt) : (s.setLane l v).sec = s.sec := rfl
@[simp] theorem setLane_flt (l : Nat) (v : LaneSt) : (s.setLane l v).flt = s.flt := rfl
@[simp] theorem setLane_time (l : Nat) (v : LaneSt) : (s.setLane l v).time = s.time := rfl
@[simp] theorem setLane_pmon (l : Nat) (v : LaneSt) : (s.setLane l v).pmon = s.pmon := rfl
@[simp] theorem setLane_pwr (l : Nat) (v : LaneSt) : (s.setLane l v).pwr = s.pwr := rfl
@[simp] theorem setLane_tap (l : Nat) (v : LaneSt) : (s.setLane l v).tap = s.tap := rfl
@[simp] theorem setLane_opening (l : Nat) (v : LaneSt) : (s.setLane l v).opening = s.opening := rfl
@[simp] theorem rd_setLane (l : Nat) (v : LaneSt) (g : FRef) : (s.setLane l v).rd g = s.rd g := rfl

/-! Fields under `setPort`. -/

@[simp] theorem setPort_pending (p : Nat) (v : PortSt) : (s.setPort p v).pending = s.pending := rfl
@[simp] theorem setPort_flds (p : Nat) (v : PortSt) : (s.setPort p v).flds = s.flds := rfl
@[simp] theorem setPort_now (p : Nat) (v : PortSt) : (s.setPort p v).now = s.now := rfl
@[simp] theorem setPort_rng (p : Nat) (v : PortSt) : (s.setPort p v).rng = s.rng := rfl
@[simp] theorem setPort_out (p : Nat) (v : PortSt) : (s.setPort p v).out = s.out := rfl
@[simp] theorem setPort_mem (p : Nat) (v : PortSt) : (s.setPort p v).mem = s.mem := rfl
@[simp] theorem setPort_lanes (p : Nat) (v : PortSt) : (s.setPort p v).lanes = s.lanes := rfl
@[simp] theorem setPort_buf (p : Nat) (v : PortSt) : (s.setPort p v).buf = s.buf := rfl
@[simp] theorem setPort_nextPid (p : Nat) (v : PortSt) : (s.setPort p v).nextPid = s.nextPid := rfl
@[simp] theorem setPort_oq (p : Nat) (v : PortSt) : (s.setPort p v).oq = s.oq := rfl
@[simp] theorem setPort_lin (p : Nat) (v : PortSt) : (s.setPort p v).lin = s.lin := rfl
@[simp] theorem setPort_guarUsed (p : Nat) (v : PortSt) : (s.setPort p v).guarUsed = s.guarUsed := rfl
@[simp] theorem setPort_pol (p : Nat) (v : PortSt) : (s.setPort p v).pol = s.pol := rfl
@[simp] theorem setPort_sched (p : Nat) (v : PortSt) : (s.setPort p v).sched = s.sched := rfl
@[simp] theorem setPort_swc (p : Nat) (v : PortSt) : (s.setPort p v).swc = s.swc := rfl
@[simp] theorem setPort_departures (p : Nat) (v : PortSt) : (s.setPort p v).departures = s.departures := rfl
@[simp] theorem setPort_copying (p : Nat) (v : PortSt) : (s.setPort p v).copying = s.copying := rfl
@[simp] theorem setPort_sinceSwap (p : Nat) (v : PortSt) : (s.setPort p v).sinceSwap = s.sinceSwap := rfl
@[simp] theorem setPort_digests (p : Nat) (v : PortSt) : (s.setPort p v).digests = s.digests := rfl
@[simp] theorem setPort_digestAt (p : Nat) (v : PortSt) : (s.setPort p v).digestAt = s.digestAt := rfl
@[simp] theorem setPort_engReq (p : Nat) (v : PortSt) : (s.setPort p v).engReq = s.engReq := rfl
@[simp] theorem setPort_engFwd (p : Nat) (v : PortSt) : (s.setPort p v).engFwd = s.engFwd := rfl
@[simp] theorem setPort_engRep (p : Nat) (v : PortSt) : (s.setPort p v).engRep = s.engRep := rfl
@[simp] theorem setPort_colIn (p : Nat) (v : PortSt) : (s.setPort p v).colIn = s.colIn := rfl
@[simp] theorem setPort_colDown (p : Nat) (v : PortSt) : (s.setPort p v).colDown = s.colDown := rfl
@[simp] theorem setPort_arbIn (p : Nat) (v : PortSt) : (s.setPort p v).arbIn = s.arbIn := rfl
@[simp] theorem setPort_mgmtUp (p : Nat) (v : PortSt) : (s.setPort p v).mgmtUp = s.mgmtUp := rfl
@[simp] theorem setPort_mgmtD3 (p : Nat) (v : PortSt) : (s.setPort p v).mgmtD3 = s.mgmtD3 := rfl
@[simp] theorem setPort_pci (p : Nat) (v : PortSt) : (s.setPort p v).pci = s.pci := rfl
@[simp] theorem setPort_msgPba (p : Nat) (v : PortSt) : (s.setPort p v).msgPba = s.msgPba := rfl
@[simp] theorem setPort_wqs (p : Nat) (v : PortSt) : (s.setPort p v).wqs = s.wqs := rfl
@[simp] theorem setPort_cqs (p : Nat) (v : PortSt) : (s.setPort p v).cqs = s.cqs := rfl
@[simp] theorem setPort_eqs (p : Nat) (v : PortSt) : (s.setPort p v).eqs = s.eqs := rfl
@[simp] theorem setPort_work (p : Nat) (v : PortSt) : (s.setPort p v).work = s.work := rfl
@[simp] theorem setPort_nextWork (p : Nat) (v : PortSt) : (s.setPort p v).nextWork = s.nextWork := rfl
@[simp] theorem setPort_reads (p : Nat) (v : PortSt) : (s.setPort p v).reads = s.reads := rfl
@[simp] theorem setPort_nextRead (p : Nat) (v : PortSt) : (s.setPort p v).nextRead = s.nextRead := rfl
@[simp] theorem setPort_fns (p : Nat) (v : PortSt) : (s.setPort p v).fns = s.fns := rfl
@[simp] theorem setPort_jobs (p : Nat) (v : PortSt) : (s.setPort p v).jobs = s.jobs := rfl
@[simp] theorem setPort_trn (p : Nat) (v : PortSt) : (s.setPort p v).trn = s.trn := rfl
@[simp] theorem setPort_xpt (p : Nat) (v : PortSt) : (s.setPort p v).xpt = s.xpt := rfl
@[simp] theorem setPort_mtc (p : Nat) (v : PortSt) : (s.setPort p v).mtc = s.mtc := rfl
@[simp] theorem setPort_trees (p : Nat) (v : PortSt) : (s.setPort p v).trees = s.trees := rfl
@[simp] theorem setPort_regs (p : Nat) (v : PortSt) : (s.setPort p v).regs = s.regs := rfl
@[simp] theorem setPort_cgc (p : Nat) (v : PortSt) : (s.setPort p v).cgc = s.cgc := rfl
@[simp] theorem setPort_lck (p : Nat) (v : PortSt) : (s.setPort p v).lck = s.lck := rfl
@[simp] theorem setPort_stk (p : Nat) (v : PortSt) : (s.setPort p v).stk = s.stk := rfl
@[simp] theorem setPort_arb (p : Nat) (v : PortSt) : (s.setPort p v).arb = s.arb := rfl
@[simp] theorem setPort_sec (p : Nat) (v : PortSt) : (s.setPort p v).sec = s.sec := rfl
@[simp] theorem setPort_flt (p : Nat) (v : PortSt) : (s.setPort p v).flt = s.flt := rfl
@[simp] theorem setPort_time (p : Nat) (v : PortSt) : (s.setPort p v).time = s.time := rfl
@[simp] theorem setPort_pmon (p : Nat) (v : PortSt) : (s.setPort p v).pmon = s.pmon := rfl
@[simp] theorem setPort_pwr (p : Nat) (v : PortSt) : (s.setPort p v).pwr = s.pwr := rfl
@[simp] theorem setPort_tap (p : Nat) (v : PortSt) : (s.setPort p v).tap = s.tap := rfl
@[simp] theorem setPort_opening (p : Nat) (v : PortSt) : (s.setPort p v).opening = s.opening := rfl
@[simp] theorem rd_setPort (p : Nat) (v : PortSt) (g : FRef) : (s.setPort p v).rd g = s.rd g := rfl

/-! Fields under `setBuf`. -/

@[simp] theorem setBuf_pending (n : Nat) (v : Option BufPkt) : (s.setBuf n v).pending = s.pending := rfl
@[simp] theorem setBuf_flds (n : Nat) (v : Option BufPkt) : (s.setBuf n v).flds = s.flds := rfl
@[simp] theorem setBuf_now (n : Nat) (v : Option BufPkt) : (s.setBuf n v).now = s.now := rfl
@[simp] theorem setBuf_rng (n : Nat) (v : Option BufPkt) : (s.setBuf n v).rng = s.rng := rfl
@[simp] theorem setBuf_out (n : Nat) (v : Option BufPkt) : (s.setBuf n v).out = s.out := rfl
@[simp] theorem setBuf_mem (n : Nat) (v : Option BufPkt) : (s.setBuf n v).mem = s.mem := rfl
@[simp] theorem setBuf_lanes (n : Nat) (v : Option BufPkt) : (s.setBuf n v).lanes = s.lanes := rfl
@[simp] theorem setBuf_ports (n : Nat) (v : Option BufPkt) : (s.setBuf n v).ports = s.ports := rfl
@[simp] theorem setBuf_nextPid (n : Nat) (v : Option BufPkt) : (s.setBuf n v).nextPid = s.nextPid := rfl
@[simp] theorem setBuf_oq (n : Nat) (v : Option BufPkt) : (s.setBuf n v).oq = s.oq := rfl
@[simp] theorem setBuf_lin (n : Nat) (v : Option BufPkt) : (s.setBuf n v).lin = s.lin := rfl
@[simp] theorem setBuf_guarUsed (n : Nat) (v : Option BufPkt) : (s.setBuf n v).guarUsed = s.guarUsed := rfl
@[simp] theorem setBuf_pol (n : Nat) (v : Option BufPkt) : (s.setBuf n v).pol = s.pol := rfl
@[simp] theorem setBuf_sched (n : Nat) (v : Option BufPkt) : (s.setBuf n v).sched = s.sched := rfl
@[simp] theorem setBuf_swc (n : Nat) (v : Option BufPkt) : (s.setBuf n v).swc = s.swc := rfl
@[simp] theorem setBuf_departures (n : Nat) (v : Option BufPkt) : (s.setBuf n v).departures = s.departures := rfl
@[simp] theorem setBuf_copying (n : Nat) (v : Option BufPkt) : (s.setBuf n v).copying = s.copying := rfl
@[simp] theorem setBuf_sinceSwap (n : Nat) (v : Option BufPkt) : (s.setBuf n v).sinceSwap = s.sinceSwap := rfl
@[simp] theorem setBuf_digests (n : Nat) (v : Option BufPkt) : (s.setBuf n v).digests = s.digests := rfl
@[simp] theorem setBuf_digestAt (n : Nat) (v : Option BufPkt) : (s.setBuf n v).digestAt = s.digestAt := rfl
@[simp] theorem setBuf_engReq (n : Nat) (v : Option BufPkt) : (s.setBuf n v).engReq = s.engReq := rfl
@[simp] theorem setBuf_engFwd (n : Nat) (v : Option BufPkt) : (s.setBuf n v).engFwd = s.engFwd := rfl
@[simp] theorem setBuf_engRep (n : Nat) (v : Option BufPkt) : (s.setBuf n v).engRep = s.engRep := rfl
@[simp] theorem setBuf_colIn (n : Nat) (v : Option BufPkt) : (s.setBuf n v).colIn = s.colIn := rfl
@[simp] theorem setBuf_colDown (n : Nat) (v : Option BufPkt) : (s.setBuf n v).colDown = s.colDown := rfl
@[simp] theorem setBuf_arbIn (n : Nat) (v : Option BufPkt) : (s.setBuf n v).arbIn = s.arbIn := rfl
@[simp] theorem setBuf_mgmtUp (n : Nat) (v : Option BufPkt) : (s.setBuf n v).mgmtUp = s.mgmtUp := rfl
@[simp] theorem setBuf_mgmtD3 (n : Nat) (v : Option BufPkt) : (s.setBuf n v).mgmtD3 = s.mgmtD3 := rfl
@[simp] theorem setBuf_pci (n : Nat) (v : Option BufPkt) : (s.setBuf n v).pci = s.pci := rfl
@[simp] theorem setBuf_msgPba (n : Nat) (v : Option BufPkt) : (s.setBuf n v).msgPba = s.msgPba := rfl
@[simp] theorem setBuf_wqs (n : Nat) (v : Option BufPkt) : (s.setBuf n v).wqs = s.wqs := rfl
@[simp] theorem setBuf_cqs (n : Nat) (v : Option BufPkt) : (s.setBuf n v).cqs = s.cqs := rfl
@[simp] theorem setBuf_eqs (n : Nat) (v : Option BufPkt) : (s.setBuf n v).eqs = s.eqs := rfl
@[simp] theorem setBuf_work (n : Nat) (v : Option BufPkt) : (s.setBuf n v).work = s.work := rfl
@[simp] theorem setBuf_nextWork (n : Nat) (v : Option BufPkt) : (s.setBuf n v).nextWork = s.nextWork := rfl
@[simp] theorem setBuf_reads (n : Nat) (v : Option BufPkt) : (s.setBuf n v).reads = s.reads := rfl
@[simp] theorem setBuf_nextRead (n : Nat) (v : Option BufPkt) : (s.setBuf n v).nextRead = s.nextRead := rfl
@[simp] theorem setBuf_fns (n : Nat) (v : Option BufPkt) : (s.setBuf n v).fns = s.fns := rfl
@[simp] theorem setBuf_jobs (n : Nat) (v : Option BufPkt) : (s.setBuf n v).jobs = s.jobs := rfl
@[simp] theorem setBuf_trn (n : Nat) (v : Option BufPkt) : (s.setBuf n v).trn = s.trn := rfl
@[simp] theorem setBuf_xpt (n : Nat) (v : Option BufPkt) : (s.setBuf n v).xpt = s.xpt := rfl
@[simp] theorem setBuf_mtc (n : Nat) (v : Option BufPkt) : (s.setBuf n v).mtc = s.mtc := rfl
@[simp] theorem setBuf_trees (n : Nat) (v : Option BufPkt) : (s.setBuf n v).trees = s.trees := rfl
@[simp] theorem setBuf_regs (n : Nat) (v : Option BufPkt) : (s.setBuf n v).regs = s.regs := rfl
@[simp] theorem setBuf_cgc (n : Nat) (v : Option BufPkt) : (s.setBuf n v).cgc = s.cgc := rfl
@[simp] theorem setBuf_lck (n : Nat) (v : Option BufPkt) : (s.setBuf n v).lck = s.lck := rfl
@[simp] theorem setBuf_stk (n : Nat) (v : Option BufPkt) : (s.setBuf n v).stk = s.stk := rfl
@[simp] theorem setBuf_arb (n : Nat) (v : Option BufPkt) : (s.setBuf n v).arb = s.arb := rfl
@[simp] theorem setBuf_sec (n : Nat) (v : Option BufPkt) : (s.setBuf n v).sec = s.sec := rfl
@[simp] theorem setBuf_flt (n : Nat) (v : Option BufPkt) : (s.setBuf n v).flt = s.flt := rfl
@[simp] theorem setBuf_time (n : Nat) (v : Option BufPkt) : (s.setBuf n v).time = s.time := rfl
@[simp] theorem setBuf_pmon (n : Nat) (v : Option BufPkt) : (s.setBuf n v).pmon = s.pmon := rfl
@[simp] theorem setBuf_pwr (n : Nat) (v : Option BufPkt) : (s.setBuf n v).pwr = s.pwr := rfl
@[simp] theorem setBuf_tap (n : Nat) (v : Option BufPkt) : (s.setBuf n v).tap = s.tap := rfl
@[simp] theorem setBuf_opening (n : Nat) (v : Option BufPkt) : (s.setBuf n v).opening = s.opening := rfl
@[simp] theorem rd_setBuf (n : Nat) (v : Option BufPkt) (g : FRef) : (s.setBuf n v).rd g = s.rd g := rfl

/-! Fields under `setQueue`. -/

@[simp] theorem setQueue_pending (o v : Nat) (q : List QEntry) : (s.setQueue o v q).pending = s.pending := rfl
@[simp] theorem setQueue_flds (o v : Nat) (q : List QEntry) : (s.setQueue o v q).flds = s.flds := rfl
@[simp] theorem setQueue_now (o v : Nat) (q : List QEntry) : (s.setQueue o v q).now = s.now := rfl
@[simp] theorem setQueue_rng (o v : Nat) (q : List QEntry) : (s.setQueue o v q).rng = s.rng := rfl
@[simp] theorem setQueue_out (o v : Nat) (q : List QEntry) : (s.setQueue o v q).out = s.out := rfl
@[simp] theorem setQueue_mem (o v : Nat) (q : List QEntry) : (s.setQueue o v q).mem = s.mem := rfl
@[simp] theorem setQueue_lanes (o v : Nat) (q : List QEntry) : (s.setQueue o v q).lanes = s.lanes := rfl
@[simp] theorem setQueue_ports (o v : Nat) (q : List QEntry) : (s.setQueue o v q).ports = s.ports := rfl
@[simp] theorem setQueue_buf (o v : Nat) (q : List QEntry) : (s.setQueue o v q).buf = s.buf := rfl
@[simp] theorem setQueue_nextPid (o v : Nat) (q : List QEntry) : (s.setQueue o v q).nextPid = s.nextPid := rfl
@[simp] theorem setQueue_lin (o v : Nat) (q : List QEntry) : (s.setQueue o v q).lin = s.lin := rfl
@[simp] theorem setQueue_guarUsed (o v : Nat) (q : List QEntry) : (s.setQueue o v q).guarUsed = s.guarUsed := rfl
@[simp] theorem setQueue_pol (o v : Nat) (q : List QEntry) : (s.setQueue o v q).pol = s.pol := rfl
@[simp] theorem setQueue_sched (o v : Nat) (q : List QEntry) : (s.setQueue o v q).sched = s.sched := rfl
@[simp] theorem setQueue_swc (o v : Nat) (q : List QEntry) : (s.setQueue o v q).swc = s.swc := rfl
@[simp] theorem setQueue_departures (o v : Nat) (q : List QEntry) : (s.setQueue o v q).departures = s.departures := rfl
@[simp] theorem setQueue_copying (o v : Nat) (q : List QEntry) : (s.setQueue o v q).copying = s.copying := rfl
@[simp] theorem setQueue_sinceSwap (o v : Nat) (q : List QEntry) : (s.setQueue o v q).sinceSwap = s.sinceSwap := rfl
@[simp] theorem setQueue_digests (o v : Nat) (q : List QEntry) : (s.setQueue o v q).digests = s.digests := rfl
@[simp] theorem setQueue_digestAt (o v : Nat) (q : List QEntry) : (s.setQueue o v q).digestAt = s.digestAt := rfl
@[simp] theorem setQueue_engReq (o v : Nat) (q : List QEntry) : (s.setQueue o v q).engReq = s.engReq := rfl
@[simp] theorem setQueue_engFwd (o v : Nat) (q : List QEntry) : (s.setQueue o v q).engFwd = s.engFwd := rfl
@[simp] theorem setQueue_engRep (o v : Nat) (q : List QEntry) : (s.setQueue o v q).engRep = s.engRep := rfl
@[simp] theorem setQueue_colIn (o v : Nat) (q : List QEntry) : (s.setQueue o v q).colIn = s.colIn := rfl
@[simp] theorem setQueue_colDown (o v : Nat) (q : List QEntry) : (s.setQueue o v q).colDown = s.colDown := rfl
@[simp] theorem setQueue_arbIn (o v : Nat) (q : List QEntry) : (s.setQueue o v q).arbIn = s.arbIn := rfl
@[simp] theorem setQueue_mgmtUp (o v : Nat) (q : List QEntry) : (s.setQueue o v q).mgmtUp = s.mgmtUp := rfl
@[simp] theorem setQueue_mgmtD3 (o v : Nat) (q : List QEntry) : (s.setQueue o v q).mgmtD3 = s.mgmtD3 := rfl
@[simp] theorem setQueue_pci (o v : Nat) (q : List QEntry) : (s.setQueue o v q).pci = s.pci := rfl
@[simp] theorem setQueue_msgPba (o v : Nat) (q : List QEntry) : (s.setQueue o v q).msgPba = s.msgPba := rfl
@[simp] theorem setQueue_wqs (o v : Nat) (q : List QEntry) : (s.setQueue o v q).wqs = s.wqs := rfl
@[simp] theorem setQueue_cqs (o v : Nat) (q : List QEntry) : (s.setQueue o v q).cqs = s.cqs := rfl
@[simp] theorem setQueue_eqs (o v : Nat) (q : List QEntry) : (s.setQueue o v q).eqs = s.eqs := rfl
@[simp] theorem setQueue_work (o v : Nat) (q : List QEntry) : (s.setQueue o v q).work = s.work := rfl
@[simp] theorem setQueue_nextWork (o v : Nat) (q : List QEntry) : (s.setQueue o v q).nextWork = s.nextWork := rfl
@[simp] theorem setQueue_reads (o v : Nat) (q : List QEntry) : (s.setQueue o v q).reads = s.reads := rfl
@[simp] theorem setQueue_nextRead (o v : Nat) (q : List QEntry) : (s.setQueue o v q).nextRead = s.nextRead := rfl
@[simp] theorem setQueue_fns (o v : Nat) (q : List QEntry) : (s.setQueue o v q).fns = s.fns := rfl
@[simp] theorem setQueue_jobs (o v : Nat) (q : List QEntry) : (s.setQueue o v q).jobs = s.jobs := rfl
@[simp] theorem setQueue_trn (o v : Nat) (q : List QEntry) : (s.setQueue o v q).trn = s.trn := rfl
@[simp] theorem setQueue_xpt (o v : Nat) (q : List QEntry) : (s.setQueue o v q).xpt = s.xpt := rfl
@[simp] theorem setQueue_mtc (o v : Nat) (q : List QEntry) : (s.setQueue o v q).mtc = s.mtc := rfl
@[simp] theorem setQueue_trees (o v : Nat) (q : List QEntry) : (s.setQueue o v q).trees = s.trees := rfl
@[simp] theorem setQueue_regs (o v : Nat) (q : List QEntry) : (s.setQueue o v q).regs = s.regs := rfl
@[simp] theorem setQueue_cgc (o v : Nat) (q : List QEntry) : (s.setQueue o v q).cgc = s.cgc := rfl
@[simp] theorem setQueue_lck (o v : Nat) (q : List QEntry) : (s.setQueue o v q).lck = s.lck := rfl
@[simp] theorem setQueue_stk (o v : Nat) (q : List QEntry) : (s.setQueue o v q).stk = s.stk := rfl
@[simp] theorem setQueue_arb (o v : Nat) (q : List QEntry) : (s.setQueue o v q).arb = s.arb := rfl
@[simp] theorem setQueue_sec (o v : Nat) (q : List QEntry) : (s.setQueue o v q).sec = s.sec := rfl
@[simp] theorem setQueue_flt (o v : Nat) (q : List QEntry) : (s.setQueue o v q).flt = s.flt := rfl
@[simp] theorem setQueue_time (o v : Nat) (q : List QEntry) : (s.setQueue o v q).time = s.time := rfl
@[simp] theorem setQueue_pmon (o v : Nat) (q : List QEntry) : (s.setQueue o v q).pmon = s.pmon := rfl
@[simp] theorem setQueue_pwr (o v : Nat) (q : List QEntry) : (s.setQueue o v q).pwr = s.pwr := rfl
@[simp] theorem setQueue_tap (o v : Nat) (q : List QEntry) : (s.setQueue o v q).tap = s.tap := rfl
@[simp] theorem setQueue_opening (o v : Nat) (q : List QEntry) : (s.setQueue o v q).opening = s.opening := rfl
@[simp] theorem rd_setQueue (o v : Nat) (q : List QEntry) (g : FRef) : (s.setQueue o v q).rd g = s.rd g := rfl

/-! Fields under `setLocalQ`. -/

@[simp] theorem setLocalQ_pending (a v : Nat) (q : List LocalPkt) : (s.setLocalQ a v q).pending = s.pending := rfl
@[simp] theorem setLocalQ_flds (a v : Nat) (q : List LocalPkt) : (s.setLocalQ a v q).flds = s.flds := rfl
@[simp] theorem setLocalQ_now (a v : Nat) (q : List LocalPkt) : (s.setLocalQ a v q).now = s.now := rfl
@[simp] theorem setLocalQ_rng (a v : Nat) (q : List LocalPkt) : (s.setLocalQ a v q).rng = s.rng := rfl
@[simp] theorem setLocalQ_out (a v : Nat) (q : List LocalPkt) : (s.setLocalQ a v q).out = s.out := rfl
@[simp] theorem setLocalQ_mem (a v : Nat) (q : List LocalPkt) : (s.setLocalQ a v q).mem = s.mem := rfl
@[simp] theorem setLocalQ_lanes (a v : Nat) (q : List LocalPkt) : (s.setLocalQ a v q).lanes = s.lanes := rfl
@[simp] theorem setLocalQ_ports (a v : Nat) (q : List LocalPkt) : (s.setLocalQ a v q).ports = s.ports := rfl
@[simp] theorem setLocalQ_buf (a v : Nat) (q : List LocalPkt) : (s.setLocalQ a v q).buf = s.buf := rfl
@[simp] theorem setLocalQ_nextPid (a v : Nat) (q : List LocalPkt) : (s.setLocalQ a v q).nextPid = s.nextPid := rfl
@[simp] theorem setLocalQ_oq (a v : Nat) (q : List LocalPkt) : (s.setLocalQ a v q).oq = s.oq := rfl
@[simp] theorem setLocalQ_guarUsed (a v : Nat) (q : List LocalPkt) : (s.setLocalQ a v q).guarUsed = s.guarUsed := rfl
@[simp] theorem setLocalQ_pol (a v : Nat) (q : List LocalPkt) : (s.setLocalQ a v q).pol = s.pol := rfl
@[simp] theorem setLocalQ_sched (a v : Nat) (q : List LocalPkt) : (s.setLocalQ a v q).sched = s.sched := rfl
@[simp] theorem setLocalQ_swc (a v : Nat) (q : List LocalPkt) : (s.setLocalQ a v q).swc = s.swc := rfl
@[simp] theorem setLocalQ_departures (a v : Nat) (q : List LocalPkt) : (s.setLocalQ a v q).departures = s.departures := rfl
@[simp] theorem setLocalQ_copying (a v : Nat) (q : List LocalPkt) : (s.setLocalQ a v q).copying = s.copying := rfl
@[simp] theorem setLocalQ_sinceSwap (a v : Nat) (q : List LocalPkt) : (s.setLocalQ a v q).sinceSwap = s.sinceSwap := rfl
@[simp] theorem setLocalQ_digests (a v : Nat) (q : List LocalPkt) : (s.setLocalQ a v q).digests = s.digests := rfl
@[simp] theorem setLocalQ_digestAt (a v : Nat) (q : List LocalPkt) : (s.setLocalQ a v q).digestAt = s.digestAt := rfl
@[simp] theorem setLocalQ_engReq (a v : Nat) (q : List LocalPkt) : (s.setLocalQ a v q).engReq = s.engReq := rfl
@[simp] theorem setLocalQ_engFwd (a v : Nat) (q : List LocalPkt) : (s.setLocalQ a v q).engFwd = s.engFwd := rfl
@[simp] theorem setLocalQ_engRep (a v : Nat) (q : List LocalPkt) : (s.setLocalQ a v q).engRep = s.engRep := rfl
@[simp] theorem setLocalQ_colIn (a v : Nat) (q : List LocalPkt) : (s.setLocalQ a v q).colIn = s.colIn := rfl
@[simp] theorem setLocalQ_colDown (a v : Nat) (q : List LocalPkt) : (s.setLocalQ a v q).colDown = s.colDown := rfl
@[simp] theorem setLocalQ_arbIn (a v : Nat) (q : List LocalPkt) : (s.setLocalQ a v q).arbIn = s.arbIn := rfl
@[simp] theorem setLocalQ_mgmtUp (a v : Nat) (q : List LocalPkt) : (s.setLocalQ a v q).mgmtUp = s.mgmtUp := rfl
@[simp] theorem setLocalQ_mgmtD3 (a v : Nat) (q : List LocalPkt) : (s.setLocalQ a v q).mgmtD3 = s.mgmtD3 := rfl
@[simp] theorem setLocalQ_pci (a v : Nat) (q : List LocalPkt) : (s.setLocalQ a v q).pci = s.pci := rfl
@[simp] theorem setLocalQ_msgPba (a v : Nat) (q : List LocalPkt) : (s.setLocalQ a v q).msgPba = s.msgPba := rfl
@[simp] theorem setLocalQ_wqs (a v : Nat) (q : List LocalPkt) : (s.setLocalQ a v q).wqs = s.wqs := rfl
@[simp] theorem setLocalQ_cqs (a v : Nat) (q : List LocalPkt) : (s.setLocalQ a v q).cqs = s.cqs := rfl
@[simp] theorem setLocalQ_eqs (a v : Nat) (q : List LocalPkt) : (s.setLocalQ a v q).eqs = s.eqs := rfl
@[simp] theorem setLocalQ_work (a v : Nat) (q : List LocalPkt) : (s.setLocalQ a v q).work = s.work := rfl
@[simp] theorem setLocalQ_nextWork (a v : Nat) (q : List LocalPkt) : (s.setLocalQ a v q).nextWork = s.nextWork := rfl
@[simp] theorem setLocalQ_reads (a v : Nat) (q : List LocalPkt) : (s.setLocalQ a v q).reads = s.reads := rfl
@[simp] theorem setLocalQ_nextRead (a v : Nat) (q : List LocalPkt) : (s.setLocalQ a v q).nextRead = s.nextRead := rfl
@[simp] theorem setLocalQ_fns (a v : Nat) (q : List LocalPkt) : (s.setLocalQ a v q).fns = s.fns := rfl
@[simp] theorem setLocalQ_jobs (a v : Nat) (q : List LocalPkt) : (s.setLocalQ a v q).jobs = s.jobs := rfl
@[simp] theorem setLocalQ_trn (a v : Nat) (q : List LocalPkt) : (s.setLocalQ a v q).trn = s.trn := rfl
@[simp] theorem setLocalQ_xpt (a v : Nat) (q : List LocalPkt) : (s.setLocalQ a v q).xpt = s.xpt := rfl
@[simp] theorem setLocalQ_mtc (a v : Nat) (q : List LocalPkt) : (s.setLocalQ a v q).mtc = s.mtc := rfl
@[simp] theorem setLocalQ_trees (a v : Nat) (q : List LocalPkt) : (s.setLocalQ a v q).trees = s.trees := rfl
@[simp] theorem setLocalQ_regs (a v : Nat) (q : List LocalPkt) : (s.setLocalQ a v q).regs = s.regs := rfl
@[simp] theorem setLocalQ_cgc (a v : Nat) (q : List LocalPkt) : (s.setLocalQ a v q).cgc = s.cgc := rfl
@[simp] theorem setLocalQ_lck (a v : Nat) (q : List LocalPkt) : (s.setLocalQ a v q).lck = s.lck := rfl
@[simp] theorem setLocalQ_stk (a v : Nat) (q : List LocalPkt) : (s.setLocalQ a v q).stk = s.stk := rfl
@[simp] theorem setLocalQ_arb (a v : Nat) (q : List LocalPkt) : (s.setLocalQ a v q).arb = s.arb := rfl
@[simp] theorem setLocalQ_sec (a v : Nat) (q : List LocalPkt) : (s.setLocalQ a v q).sec = s.sec := rfl
@[simp] theorem setLocalQ_flt (a v : Nat) (q : List LocalPkt) : (s.setLocalQ a v q).flt = s.flt := rfl
@[simp] theorem setLocalQ_time (a v : Nat) (q : List LocalPkt) : (s.setLocalQ a v q).time = s.time := rfl
@[simp] theorem setLocalQ_pmon (a v : Nat) (q : List LocalPkt) : (s.setLocalQ a v q).pmon = s.pmon := rfl
@[simp] theorem setLocalQ_pwr (a v : Nat) (q : List LocalPkt) : (s.setLocalQ a v q).pwr = s.pwr := rfl
@[simp] theorem setLocalQ_tap (a v : Nat) (q : List LocalPkt) : (s.setLocalQ a v q).tap = s.tap := rfl
@[simp] theorem setLocalQ_opening (a v : Nat) (q : List LocalPkt) : (s.setLocalQ a v q).opening = s.opening := rfl
@[simp] theorem rd_setLocalQ (a v : Nat) (q : List LocalPkt) (g : FRef) : (s.setLocalQ a v q).rd g = s.rd g := rfl

/-! Fields under `setCls`. -/

@[simp] theorem setCls_pending (c : Nat) (v : ClassSt) : (s.setCls c v).pending = s.pending := rfl
@[simp] theorem setCls_flds (c : Nat) (v : ClassSt) : (s.setCls c v).flds = s.flds := rfl
@[simp] theorem setCls_now (c : Nat) (v : ClassSt) : (s.setCls c v).now = s.now := rfl
@[simp] theorem setCls_rng (c : Nat) (v : ClassSt) : (s.setCls c v).rng = s.rng := rfl
@[simp] theorem setCls_out (c : Nat) (v : ClassSt) : (s.setCls c v).out = s.out := rfl
@[simp] theorem setCls_mem (c : Nat) (v : ClassSt) : (s.setCls c v).mem = s.mem := rfl
@[simp] theorem setCls_lanes (c : Nat) (v : ClassSt) : (s.setCls c v).lanes = s.lanes := rfl
@[simp] theorem setCls_ports (c : Nat) (v : ClassSt) : (s.setCls c v).ports = s.ports := rfl
@[simp] theorem setCls_buf (c : Nat) (v : ClassSt) : (s.setCls c v).buf = s.buf := rfl
@[simp] theorem setCls_nextPid (c : Nat) (v : ClassSt) : (s.setCls c v).nextPid = s.nextPid := rfl
@[simp] theorem setCls_oq (c : Nat) (v : ClassSt) : (s.setCls c v).oq = s.oq := rfl
@[simp] theorem setCls_lin (c : Nat) (v : ClassSt) : (s.setCls c v).lin = s.lin := rfl
@[simp] theorem setCls_guarUsed (c : Nat) (v : ClassSt) : (s.setCls c v).guarUsed = s.guarUsed := rfl
@[simp] theorem setCls_pol (c : Nat) (v : ClassSt) : (s.setCls c v).pol = s.pol := rfl
@[simp] theorem setCls_sched (c : Nat) (v : ClassSt) : (s.setCls c v).sched = s.sched := rfl
@[simp] theorem setCls_swc (c : Nat) (v : ClassSt) : (s.setCls c v).swc = s.swc := rfl
@[simp] theorem setCls_departures (c : Nat) (v : ClassSt) : (s.setCls c v).departures = s.departures := rfl
@[simp] theorem setCls_copying (c : Nat) (v : ClassSt) : (s.setCls c v).copying = s.copying := rfl
@[simp] theorem setCls_sinceSwap (c : Nat) (v : ClassSt) : (s.setCls c v).sinceSwap = s.sinceSwap := rfl
@[simp] theorem setCls_digests (c : Nat) (v : ClassSt) : (s.setCls c v).digests = s.digests := rfl
@[simp] theorem setCls_digestAt (c : Nat) (v : ClassSt) : (s.setCls c v).digestAt = s.digestAt := rfl
@[simp] theorem setCls_engReq (c : Nat) (v : ClassSt) : (s.setCls c v).engReq = s.engReq := rfl
@[simp] theorem setCls_engFwd (c : Nat) (v : ClassSt) : (s.setCls c v).engFwd = s.engFwd := rfl
@[simp] theorem setCls_engRep (c : Nat) (v : ClassSt) : (s.setCls c v).engRep = s.engRep := rfl
@[simp] theorem setCls_colIn (c : Nat) (v : ClassSt) : (s.setCls c v).colIn = s.colIn := rfl
@[simp] theorem setCls_colDown (c : Nat) (v : ClassSt) : (s.setCls c v).colDown = s.colDown := rfl
@[simp] theorem setCls_arbIn (c : Nat) (v : ClassSt) : (s.setCls c v).arbIn = s.arbIn := rfl
@[simp] theorem setCls_mgmtUp (c : Nat) (v : ClassSt) : (s.setCls c v).mgmtUp = s.mgmtUp := rfl
@[simp] theorem setCls_mgmtD3 (c : Nat) (v : ClassSt) : (s.setCls c v).mgmtD3 = s.mgmtD3 := rfl
@[simp] theorem setCls_pci (c : Nat) (v : ClassSt) : (s.setCls c v).pci = s.pci := rfl
@[simp] theorem setCls_msgPba (c : Nat) (v : ClassSt) : (s.setCls c v).msgPba = s.msgPba := rfl
@[simp] theorem setCls_wqs (c : Nat) (v : ClassSt) : (s.setCls c v).wqs = s.wqs := rfl
@[simp] theorem setCls_cqs (c : Nat) (v : ClassSt) : (s.setCls c v).cqs = s.cqs := rfl
@[simp] theorem setCls_eqs (c : Nat) (v : ClassSt) : (s.setCls c v).eqs = s.eqs := rfl
@[simp] theorem setCls_work (c : Nat) (v : ClassSt) : (s.setCls c v).work = s.work := rfl
@[simp] theorem setCls_nextWork (c : Nat) (v : ClassSt) : (s.setCls c v).nextWork = s.nextWork := rfl
@[simp] theorem setCls_reads (c : Nat) (v : ClassSt) : (s.setCls c v).reads = s.reads := rfl
@[simp] theorem setCls_nextRead (c : Nat) (v : ClassSt) : (s.setCls c v).nextRead = s.nextRead := rfl
@[simp] theorem setCls_fns (c : Nat) (v : ClassSt) : (s.setCls c v).fns = s.fns := rfl
@[simp] theorem setCls_jobs (c : Nat) (v : ClassSt) : (s.setCls c v).jobs = s.jobs := rfl
@[simp] theorem setCls_trn (c : Nat) (v : ClassSt) : (s.setCls c v).trn = s.trn := rfl
@[simp] theorem setCls_xpt (c : Nat) (v : ClassSt) : (s.setCls c v).xpt = s.xpt := rfl
@[simp] theorem setCls_mtc (c : Nat) (v : ClassSt) : (s.setCls c v).mtc = s.mtc := rfl
@[simp] theorem setCls_trees (c : Nat) (v : ClassSt) : (s.setCls c v).trees = s.trees := rfl
@[simp] theorem setCls_regs (c : Nat) (v : ClassSt) : (s.setCls c v).regs = s.regs := rfl
@[simp] theorem setCls_cgc (c : Nat) (v : ClassSt) : (s.setCls c v).cgc = s.cgc := rfl
@[simp] theorem setCls_lck (c : Nat) (v : ClassSt) : (s.setCls c v).lck = s.lck := rfl
@[simp] theorem setCls_stk (c : Nat) (v : ClassSt) : (s.setCls c v).stk = s.stk := rfl
@[simp] theorem setCls_arb (c : Nat) (v : ClassSt) : (s.setCls c v).arb = s.arb := rfl
@[simp] theorem setCls_sec (c : Nat) (v : ClassSt) : (s.setCls c v).sec = s.sec := rfl
@[simp] theorem setCls_time (c : Nat) (v : ClassSt) : (s.setCls c v).time = s.time := rfl
@[simp] theorem setCls_pmon (c : Nat) (v : ClassSt) : (s.setCls c v).pmon = s.pmon := rfl
@[simp] theorem setCls_pwr (c : Nat) (v : ClassSt) : (s.setCls c v).pwr = s.pwr := rfl
@[simp] theorem setCls_tap (c : Nat) (v : ClassSt) : (s.setCls c v).tap = s.tap := rfl
@[simp] theorem setCls_opening (c : Nat) (v : ClassSt) : (s.setCls c v).opening = s.opening := rfl
@[simp] theorem rd_setCls (c : Nat) (v : ClassSt) (g : FRef) : (s.setCls c v).rd g = s.rd g := rfl

/-! Fields under `setConn`. -/

@[simp] theorem setConn_pending (c : Nat) (v : Option Conn) : (s.setConn c v).pending = s.pending := rfl
@[simp] theorem setConn_flds (c : Nat) (v : Option Conn) : (s.setConn c v).flds = s.flds := rfl
@[simp] theorem setConn_now (c : Nat) (v : Option Conn) : (s.setConn c v).now = s.now := rfl
@[simp] theorem setConn_rng (c : Nat) (v : Option Conn) : (s.setConn c v).rng = s.rng := rfl
@[simp] theorem setConn_out (c : Nat) (v : Option Conn) : (s.setConn c v).out = s.out := rfl
@[simp] theorem setConn_mem (c : Nat) (v : Option Conn) : (s.setConn c v).mem = s.mem := rfl
@[simp] theorem setConn_lanes (c : Nat) (v : Option Conn) : (s.setConn c v).lanes = s.lanes := rfl
@[simp] theorem setConn_ports (c : Nat) (v : Option Conn) : (s.setConn c v).ports = s.ports := rfl
@[simp] theorem setConn_buf (c : Nat) (v : Option Conn) : (s.setConn c v).buf = s.buf := rfl
@[simp] theorem setConn_nextPid (c : Nat) (v : Option Conn) : (s.setConn c v).nextPid = s.nextPid := rfl
@[simp] theorem setConn_oq (c : Nat) (v : Option Conn) : (s.setConn c v).oq = s.oq := rfl
@[simp] theorem setConn_lin (c : Nat) (v : Option Conn) : (s.setConn c v).lin = s.lin := rfl
@[simp] theorem setConn_guarUsed (c : Nat) (v : Option Conn) : (s.setConn c v).guarUsed = s.guarUsed := rfl
@[simp] theorem setConn_pol (c : Nat) (v : Option Conn) : (s.setConn c v).pol = s.pol := rfl
@[simp] theorem setConn_sched (c : Nat) (v : Option Conn) : (s.setConn c v).sched = s.sched := rfl
@[simp] theorem setConn_swc (c : Nat) (v : Option Conn) : (s.setConn c v).swc = s.swc := rfl
@[simp] theorem setConn_departures (c : Nat) (v : Option Conn) : (s.setConn c v).departures = s.departures := rfl
@[simp] theorem setConn_copying (c : Nat) (v : Option Conn) : (s.setConn c v).copying = s.copying := rfl
@[simp] theorem setConn_sinceSwap (c : Nat) (v : Option Conn) : (s.setConn c v).sinceSwap = s.sinceSwap := rfl
@[simp] theorem setConn_digests (c : Nat) (v : Option Conn) : (s.setConn c v).digests = s.digests := rfl
@[simp] theorem setConn_digestAt (c : Nat) (v : Option Conn) : (s.setConn c v).digestAt = s.digestAt := rfl
@[simp] theorem setConn_engReq (c : Nat) (v : Option Conn) : (s.setConn c v).engReq = s.engReq := rfl
@[simp] theorem setConn_engFwd (c : Nat) (v : Option Conn) : (s.setConn c v).engFwd = s.engFwd := rfl
@[simp] theorem setConn_engRep (c : Nat) (v : Option Conn) : (s.setConn c v).engRep = s.engRep := rfl
@[simp] theorem setConn_colIn (c : Nat) (v : Option Conn) : (s.setConn c v).colIn = s.colIn := rfl
@[simp] theorem setConn_colDown (c : Nat) (v : Option Conn) : (s.setConn c v).colDown = s.colDown := rfl
@[simp] theorem setConn_arbIn (c : Nat) (v : Option Conn) : (s.setConn c v).arbIn = s.arbIn := rfl
@[simp] theorem setConn_mgmtUp (c : Nat) (v : Option Conn) : (s.setConn c v).mgmtUp = s.mgmtUp := rfl
@[simp] theorem setConn_mgmtD3 (c : Nat) (v : Option Conn) : (s.setConn c v).mgmtD3 = s.mgmtD3 := rfl
@[simp] theorem setConn_pci (c : Nat) (v : Option Conn) : (s.setConn c v).pci = s.pci := rfl
@[simp] theorem setConn_msgPba (c : Nat) (v : Option Conn) : (s.setConn c v).msgPba = s.msgPba := rfl
@[simp] theorem setConn_wqs (c : Nat) (v : Option Conn) : (s.setConn c v).wqs = s.wqs := rfl
@[simp] theorem setConn_cqs (c : Nat) (v : Option Conn) : (s.setConn c v).cqs = s.cqs := rfl
@[simp] theorem setConn_eqs (c : Nat) (v : Option Conn) : (s.setConn c v).eqs = s.eqs := rfl
@[simp] theorem setConn_work (c : Nat) (v : Option Conn) : (s.setConn c v).work = s.work := rfl
@[simp] theorem setConn_nextWork (c : Nat) (v : Option Conn) : (s.setConn c v).nextWork = s.nextWork := rfl
@[simp] theorem setConn_reads (c : Nat) (v : Option Conn) : (s.setConn c v).reads = s.reads := rfl
@[simp] theorem setConn_nextRead (c : Nat) (v : Option Conn) : (s.setConn c v).nextRead = s.nextRead := rfl
@[simp] theorem setConn_fns (c : Nat) (v : Option Conn) : (s.setConn c v).fns = s.fns := rfl
@[simp] theorem setConn_jobs (c : Nat) (v : Option Conn) : (s.setConn c v).jobs = s.jobs := rfl
@[simp] theorem setConn_trn (c : Nat) (v : Option Conn) : (s.setConn c v).trn = s.trn := rfl
@[simp] theorem setConn_mtc (c : Nat) (v : Option Conn) : (s.setConn c v).mtc = s.mtc := rfl
@[simp] theorem setConn_trees (c : Nat) (v : Option Conn) : (s.setConn c v).trees = s.trees := rfl
@[simp] theorem setConn_regs (c : Nat) (v : Option Conn) : (s.setConn c v).regs = s.regs := rfl
@[simp] theorem setConn_cgc (c : Nat) (v : Option Conn) : (s.setConn c v).cgc = s.cgc := rfl
@[simp] theorem setConn_lck (c : Nat) (v : Option Conn) : (s.setConn c v).lck = s.lck := rfl
@[simp] theorem setConn_stk (c : Nat) (v : Option Conn) : (s.setConn c v).stk = s.stk := rfl
@[simp] theorem setConn_arb (c : Nat) (v : Option Conn) : (s.setConn c v).arb = s.arb := rfl
@[simp] theorem setConn_sec (c : Nat) (v : Option Conn) : (s.setConn c v).sec = s.sec := rfl
@[simp] theorem setConn_flt (c : Nat) (v : Option Conn) : (s.setConn c v).flt = s.flt := rfl
@[simp] theorem setConn_time (c : Nat) (v : Option Conn) : (s.setConn c v).time = s.time := rfl
@[simp] theorem setConn_pmon (c : Nat) (v : Option Conn) : (s.setConn c v).pmon = s.pmon := rfl
@[simp] theorem setConn_pwr (c : Nat) (v : Option Conn) : (s.setConn c v).pwr = s.pwr := rfl
@[simp] theorem setConn_tap (c : Nat) (v : Option Conn) : (s.setConn c v).tap = s.tap := rfl
@[simp] theorem setConn_opening (c : Nat) (v : Option Conn) : (s.setConn c v).opening = s.opening := rfl
@[simp] theorem rd_setConn (c : Nat) (v : Option Conn) (g : FRef) : (s.setConn c v).rd g = s.rd g := rfl

/-! Fields under `setFn`. -/

@[simp] theorem setFn_pending (f : Nat) (v : FnSt) : (s.setFn f v).pending = s.pending := rfl
@[simp] theorem setFn_flds (f : Nat) (v : FnSt) : (s.setFn f v).flds = s.flds := rfl
@[simp] theorem setFn_now (f : Nat) (v : FnSt) : (s.setFn f v).now = s.now := rfl
@[simp] theorem setFn_rng (f : Nat) (v : FnSt) : (s.setFn f v).rng = s.rng := rfl
@[simp] theorem setFn_out (f : Nat) (v : FnSt) : (s.setFn f v).out = s.out := rfl
@[simp] theorem setFn_mem (f : Nat) (v : FnSt) : (s.setFn f v).mem = s.mem := rfl
@[simp] theorem setFn_lanes (f : Nat) (v : FnSt) : (s.setFn f v).lanes = s.lanes := rfl
@[simp] theorem setFn_ports (f : Nat) (v : FnSt) : (s.setFn f v).ports = s.ports := rfl
@[simp] theorem setFn_buf (f : Nat) (v : FnSt) : (s.setFn f v).buf = s.buf := rfl
@[simp] theorem setFn_nextPid (f : Nat) (v : FnSt) : (s.setFn f v).nextPid = s.nextPid := rfl
@[simp] theorem setFn_oq (f : Nat) (v : FnSt) : (s.setFn f v).oq = s.oq := rfl
@[simp] theorem setFn_lin (f : Nat) (v : FnSt) : (s.setFn f v).lin = s.lin := rfl
@[simp] theorem setFn_guarUsed (f : Nat) (v : FnSt) : (s.setFn f v).guarUsed = s.guarUsed := rfl
@[simp] theorem setFn_pol (f : Nat) (v : FnSt) : (s.setFn f v).pol = s.pol := rfl
@[simp] theorem setFn_sched (f : Nat) (v : FnSt) : (s.setFn f v).sched = s.sched := rfl
@[simp] theorem setFn_swc (f : Nat) (v : FnSt) : (s.setFn f v).swc = s.swc := rfl
@[simp] theorem setFn_departures (f : Nat) (v : FnSt) : (s.setFn f v).departures = s.departures := rfl
@[simp] theorem setFn_copying (f : Nat) (v : FnSt) : (s.setFn f v).copying = s.copying := rfl
@[simp] theorem setFn_sinceSwap (f : Nat) (v : FnSt) : (s.setFn f v).sinceSwap = s.sinceSwap := rfl
@[simp] theorem setFn_digests (f : Nat) (v : FnSt) : (s.setFn f v).digests = s.digests := rfl
@[simp] theorem setFn_digestAt (f : Nat) (v : FnSt) : (s.setFn f v).digestAt = s.digestAt := rfl
@[simp] theorem setFn_engReq (f : Nat) (v : FnSt) : (s.setFn f v).engReq = s.engReq := rfl
@[simp] theorem setFn_engFwd (f : Nat) (v : FnSt) : (s.setFn f v).engFwd = s.engFwd := rfl
@[simp] theorem setFn_engRep (f : Nat) (v : FnSt) : (s.setFn f v).engRep = s.engRep := rfl
@[simp] theorem setFn_colIn (f : Nat) (v : FnSt) : (s.setFn f v).colIn = s.colIn := rfl
@[simp] theorem setFn_colDown (f : Nat) (v : FnSt) : (s.setFn f v).colDown = s.colDown := rfl
@[simp] theorem setFn_arbIn (f : Nat) (v : FnSt) : (s.setFn f v).arbIn = s.arbIn := rfl
@[simp] theorem setFn_mgmtUp (f : Nat) (v : FnSt) : (s.setFn f v).mgmtUp = s.mgmtUp := rfl
@[simp] theorem setFn_mgmtD3 (f : Nat) (v : FnSt) : (s.setFn f v).mgmtD3 = s.mgmtD3 := rfl
@[simp] theorem setFn_pci (f : Nat) (v : FnSt) : (s.setFn f v).pci = s.pci := rfl
@[simp] theorem setFn_msgPba (f : Nat) (v : FnSt) : (s.setFn f v).msgPba = s.msgPba := rfl
@[simp] theorem setFn_wqs (f : Nat) (v : FnSt) : (s.setFn f v).wqs = s.wqs := rfl
@[simp] theorem setFn_cqs (f : Nat) (v : FnSt) : (s.setFn f v).cqs = s.cqs := rfl
@[simp] theorem setFn_eqs (f : Nat) (v : FnSt) : (s.setFn f v).eqs = s.eqs := rfl
@[simp] theorem setFn_work (f : Nat) (v : FnSt) : (s.setFn f v).work = s.work := rfl
@[simp] theorem setFn_nextWork (f : Nat) (v : FnSt) : (s.setFn f v).nextWork = s.nextWork := rfl
@[simp] theorem setFn_reads (f : Nat) (v : FnSt) : (s.setFn f v).reads = s.reads := rfl
@[simp] theorem setFn_nextRead (f : Nat) (v : FnSt) : (s.setFn f v).nextRead = s.nextRead := rfl
@[simp] theorem setFn_jobs (f : Nat) (v : FnSt) : (s.setFn f v).jobs = s.jobs := rfl
@[simp] theorem setFn_trn (f : Nat) (v : FnSt) : (s.setFn f v).trn = s.trn := rfl
@[simp] theorem setFn_xpt (f : Nat) (v : FnSt) : (s.setFn f v).xpt = s.xpt := rfl
@[simp] theorem setFn_mtc (f : Nat) (v : FnSt) : (s.setFn f v).mtc = s.mtc := rfl
@[simp] theorem setFn_trees (f : Nat) (v : FnSt) : (s.setFn f v).trees = s.trees := rfl
@[simp] theorem setFn_regs (f : Nat) (v : FnSt) : (s.setFn f v).regs = s.regs := rfl
@[simp] theorem setFn_cgc (f : Nat) (v : FnSt) : (s.setFn f v).cgc = s.cgc := rfl
@[simp] theorem setFn_lck (f : Nat) (v : FnSt) : (s.setFn f v).lck = s.lck := rfl
@[simp] theorem setFn_stk (f : Nat) (v : FnSt) : (s.setFn f v).stk = s.stk := rfl
@[simp] theorem setFn_arb (f : Nat) (v : FnSt) : (s.setFn f v).arb = s.arb := rfl
@[simp] theorem setFn_sec (f : Nat) (v : FnSt) : (s.setFn f v).sec = s.sec := rfl
@[simp] theorem setFn_flt (f : Nat) (v : FnSt) : (s.setFn f v).flt = s.flt := rfl
@[simp] theorem setFn_time (f : Nat) (v : FnSt) : (s.setFn f v).time = s.time := rfl
@[simp] theorem setFn_pmon (f : Nat) (v : FnSt) : (s.setFn f v).pmon = s.pmon := rfl
@[simp] theorem setFn_pwr (f : Nat) (v : FnSt) : (s.setFn f v).pwr = s.pwr := rfl
@[simp] theorem setFn_tap (f : Nat) (v : FnSt) : (s.setFn f v).tap = s.tap := rfl
@[simp] theorem setFn_opening (f : Nat) (v : FnSt) : (s.setFn f v).opening = s.opening := rfl
@[simp] theorem rd_setFn (f : Nat) (v : FnSt) (g : FRef) : (s.setFn f v).rd g = s.rd g := rfl

/-! Fields under `setWork`. -/

@[simp] theorem setWork_pending (w : Nat) (v : Option WorkEnt) : (s.setWork w v).pending = s.pending := rfl
@[simp] theorem setWork_flds (w : Nat) (v : Option WorkEnt) : (s.setWork w v).flds = s.flds := rfl
@[simp] theorem setWork_now (w : Nat) (v : Option WorkEnt) : (s.setWork w v).now = s.now := rfl
@[simp] theorem setWork_rng (w : Nat) (v : Option WorkEnt) : (s.setWork w v).rng = s.rng := rfl
@[simp] theorem setWork_out (w : Nat) (v : Option WorkEnt) : (s.setWork w v).out = s.out := rfl
@[simp] theorem setWork_mem (w : Nat) (v : Option WorkEnt) : (s.setWork w v).mem = s.mem := rfl
@[simp] theorem setWork_lanes (w : Nat) (v : Option WorkEnt) : (s.setWork w v).lanes = s.lanes := rfl
@[simp] theorem setWork_ports (w : Nat) (v : Option WorkEnt) : (s.setWork w v).ports = s.ports := rfl
@[simp] theorem setWork_buf (w : Nat) (v : Option WorkEnt) : (s.setWork w v).buf = s.buf := rfl
@[simp] theorem setWork_nextPid (w : Nat) (v : Option WorkEnt) : (s.setWork w v).nextPid = s.nextPid := rfl
@[simp] theorem setWork_oq (w : Nat) (v : Option WorkEnt) : (s.setWork w v).oq = s.oq := rfl
@[simp] theorem setWork_lin (w : Nat) (v : Option WorkEnt) : (s.setWork w v).lin = s.lin := rfl
@[simp] theorem setWork_guarUsed (w : Nat) (v : Option WorkEnt) : (s.setWork w v).guarUsed = s.guarUsed := rfl
@[simp] theorem setWork_pol (w : Nat) (v : Option WorkEnt) : (s.setWork w v).pol = s.pol := rfl
@[simp] theorem setWork_sched (w : Nat) (v : Option WorkEnt) : (s.setWork w v).sched = s.sched := rfl
@[simp] theorem setWork_swc (w : Nat) (v : Option WorkEnt) : (s.setWork w v).swc = s.swc := rfl
@[simp] theorem setWork_departures (w : Nat) (v : Option WorkEnt) : (s.setWork w v).departures = s.departures := rfl
@[simp] theorem setWork_copying (w : Nat) (v : Option WorkEnt) : (s.setWork w v).copying = s.copying := rfl
@[simp] theorem setWork_sinceSwap (w : Nat) (v : Option WorkEnt) : (s.setWork w v).sinceSwap = s.sinceSwap := rfl
@[simp] theorem setWork_digests (w : Nat) (v : Option WorkEnt) : (s.setWork w v).digests = s.digests := rfl
@[simp] theorem setWork_digestAt (w : Nat) (v : Option WorkEnt) : (s.setWork w v).digestAt = s.digestAt := rfl
@[simp] theorem setWork_engReq (w : Nat) (v : Option WorkEnt) : (s.setWork w v).engReq = s.engReq := rfl
@[simp] theorem setWork_engFwd (w : Nat) (v : Option WorkEnt) : (s.setWork w v).engFwd = s.engFwd := rfl
@[simp] theorem setWork_engRep (w : Nat) (v : Option WorkEnt) : (s.setWork w v).engRep = s.engRep := rfl
@[simp] theorem setWork_colIn (w : Nat) (v : Option WorkEnt) : (s.setWork w v).colIn = s.colIn := rfl
@[simp] theorem setWork_colDown (w : Nat) (v : Option WorkEnt) : (s.setWork w v).colDown = s.colDown := rfl
@[simp] theorem setWork_arbIn (w : Nat) (v : Option WorkEnt) : (s.setWork w v).arbIn = s.arbIn := rfl
@[simp] theorem setWork_mgmtUp (w : Nat) (v : Option WorkEnt) : (s.setWork w v).mgmtUp = s.mgmtUp := rfl
@[simp] theorem setWork_mgmtD3 (w : Nat) (v : Option WorkEnt) : (s.setWork w v).mgmtD3 = s.mgmtD3 := rfl
@[simp] theorem setWork_pci (w : Nat) (v : Option WorkEnt) : (s.setWork w v).pci = s.pci := rfl
@[simp] theorem setWork_msgPba (w : Nat) (v : Option WorkEnt) : (s.setWork w v).msgPba = s.msgPba := rfl
@[simp] theorem setWork_wqs (w : Nat) (v : Option WorkEnt) : (s.setWork w v).wqs = s.wqs := rfl
@[simp] theorem setWork_cqs (w : Nat) (v : Option WorkEnt) : (s.setWork w v).cqs = s.cqs := rfl
@[simp] theorem setWork_eqs (w : Nat) (v : Option WorkEnt) : (s.setWork w v).eqs = s.eqs := rfl
@[simp] theorem setWork_nextWork (w : Nat) (v : Option WorkEnt) : (s.setWork w v).nextWork = s.nextWork := rfl
@[simp] theorem setWork_reads (w : Nat) (v : Option WorkEnt) : (s.setWork w v).reads = s.reads := rfl
@[simp] theorem setWork_nextRead (w : Nat) (v : Option WorkEnt) : (s.setWork w v).nextRead = s.nextRead := rfl
@[simp] theorem setWork_fns (w : Nat) (v : Option WorkEnt) : (s.setWork w v).fns = s.fns := rfl
@[simp] theorem setWork_jobs (w : Nat) (v : Option WorkEnt) : (s.setWork w v).jobs = s.jobs := rfl
@[simp] theorem setWork_trn (w : Nat) (v : Option WorkEnt) : (s.setWork w v).trn = s.trn := rfl
@[simp] theorem setWork_xpt (w : Nat) (v : Option WorkEnt) : (s.setWork w v).xpt = s.xpt := rfl
@[simp] theorem setWork_mtc (w : Nat) (v : Option WorkEnt) : (s.setWork w v).mtc = s.mtc := rfl
@[simp] theorem setWork_trees (w : Nat) (v : Option WorkEnt) : (s.setWork w v).trees = s.trees := rfl
@[simp] theorem setWork_regs (w : Nat) (v : Option WorkEnt) : (s.setWork w v).regs = s.regs := rfl
@[simp] theorem setWork_cgc (w : Nat) (v : Option WorkEnt) : (s.setWork w v).cgc = s.cgc := rfl
@[simp] theorem setWork_lck (w : Nat) (v : Option WorkEnt) : (s.setWork w v).lck = s.lck := rfl
@[simp] theorem setWork_stk (w : Nat) (v : Option WorkEnt) : (s.setWork w v).stk = s.stk := rfl
@[simp] theorem setWork_arb (w : Nat) (v : Option WorkEnt) : (s.setWork w v).arb = s.arb := rfl
@[simp] theorem setWork_sec (w : Nat) (v : Option WorkEnt) : (s.setWork w v).sec = s.sec := rfl
@[simp] theorem setWork_flt (w : Nat) (v : Option WorkEnt) : (s.setWork w v).flt = s.flt := rfl
@[simp] theorem setWork_time (w : Nat) (v : Option WorkEnt) : (s.setWork w v).time = s.time := rfl
@[simp] theorem setWork_pmon (w : Nat) (v : Option WorkEnt) : (s.setWork w v).pmon = s.pmon := rfl
@[simp] theorem setWork_pwr (w : Nat) (v : Option WorkEnt) : (s.setWork w v).pwr = s.pwr := rfl
@[simp] theorem setWork_tap (w : Nat) (v : Option WorkEnt) : (s.setWork w v).tap = s.tap := rfl
@[simp] theorem setWork_opening (w : Nat) (v : Option WorkEnt) : (s.setWork w v).opening = s.opening := rfl
@[simp] theorem rd_setWork (w : Nat) (v : Option WorkEnt) (g : FRef) : (s.setWork w v).rd g = s.rd g := rfl

/-! Fields under `setMemWord`. -/

@[simp] theorem setMemWord_pending (a v : Nat) : (s.setMemWord a v).pending = s.pending := rfl
@[simp] theorem setMemWord_flds (a v : Nat) : (s.setMemWord a v).flds = s.flds := rfl
@[simp] theorem setMemWord_now (a v : Nat) : (s.setMemWord a v).now = s.now := rfl
@[simp] theorem setMemWord_rng (a v : Nat) : (s.setMemWord a v).rng = s.rng := rfl
@[simp] theorem setMemWord_out (a v : Nat) : (s.setMemWord a v).out = s.out := rfl
@[simp] theorem setMemWord_lanes (a v : Nat) : (s.setMemWord a v).lanes = s.lanes := rfl
@[simp] theorem setMemWord_ports (a v : Nat) : (s.setMemWord a v).ports = s.ports := rfl
@[simp] theorem setMemWord_buf (a v : Nat) : (s.setMemWord a v).buf = s.buf := rfl
@[simp] theorem setMemWord_nextPid (a v : Nat) : (s.setMemWord a v).nextPid = s.nextPid := rfl
@[simp] theorem setMemWord_oq (a v : Nat) : (s.setMemWord a v).oq = s.oq := rfl
@[simp] theorem setMemWord_lin (a v : Nat) : (s.setMemWord a v).lin = s.lin := rfl
@[simp] theorem setMemWord_guarUsed (a v : Nat) : (s.setMemWord a v).guarUsed = s.guarUsed := rfl
@[simp] theorem setMemWord_pol (a v : Nat) : (s.setMemWord a v).pol = s.pol := rfl
@[simp] theorem setMemWord_sched (a v : Nat) : (s.setMemWord a v).sched = s.sched := rfl
@[simp] theorem setMemWord_swc (a v : Nat) : (s.setMemWord a v).swc = s.swc := rfl
@[simp] theorem setMemWord_departures (a v : Nat) : (s.setMemWord a v).departures = s.departures := rfl
@[simp] theorem setMemWord_copying (a v : Nat) : (s.setMemWord a v).copying = s.copying := rfl
@[simp] theorem setMemWord_sinceSwap (a v : Nat) : (s.setMemWord a v).sinceSwap = s.sinceSwap := rfl
@[simp] theorem setMemWord_digests (a v : Nat) : (s.setMemWord a v).digests = s.digests := rfl
@[simp] theorem setMemWord_digestAt (a v : Nat) : (s.setMemWord a v).digestAt = s.digestAt := rfl
@[simp] theorem setMemWord_engReq (a v : Nat) : (s.setMemWord a v).engReq = s.engReq := rfl
@[simp] theorem setMemWord_engFwd (a v : Nat) : (s.setMemWord a v).engFwd = s.engFwd := rfl
@[simp] theorem setMemWord_engRep (a v : Nat) : (s.setMemWord a v).engRep = s.engRep := rfl
@[simp] theorem setMemWord_colIn (a v : Nat) : (s.setMemWord a v).colIn = s.colIn := rfl
@[simp] theorem setMemWord_colDown (a v : Nat) : (s.setMemWord a v).colDown = s.colDown := rfl
@[simp] theorem setMemWord_arbIn (a v : Nat) : (s.setMemWord a v).arbIn = s.arbIn := rfl
@[simp] theorem setMemWord_mgmtUp (a v : Nat) : (s.setMemWord a v).mgmtUp = s.mgmtUp := rfl
@[simp] theorem setMemWord_mgmtD3 (a v : Nat) : (s.setMemWord a v).mgmtD3 = s.mgmtD3 := rfl
@[simp] theorem setMemWord_pci (a v : Nat) : (s.setMemWord a v).pci = s.pci := rfl
@[simp] theorem setMemWord_msgPba (a v : Nat) : (s.setMemWord a v).msgPba = s.msgPba := rfl
@[simp] theorem setMemWord_wqs (a v : Nat) : (s.setMemWord a v).wqs = s.wqs := rfl
@[simp] theorem setMemWord_cqs (a v : Nat) : (s.setMemWord a v).cqs = s.cqs := rfl
@[simp] theorem setMemWord_eqs (a v : Nat) : (s.setMemWord a v).eqs = s.eqs := rfl
@[simp] theorem setMemWord_work (a v : Nat) : (s.setMemWord a v).work = s.work := rfl
@[simp] theorem setMemWord_nextWork (a v : Nat) : (s.setMemWord a v).nextWork = s.nextWork := rfl
@[simp] theorem setMemWord_reads (a v : Nat) : (s.setMemWord a v).reads = s.reads := rfl
@[simp] theorem setMemWord_nextRead (a v : Nat) : (s.setMemWord a v).nextRead = s.nextRead := rfl
@[simp] theorem setMemWord_fns (a v : Nat) : (s.setMemWord a v).fns = s.fns := rfl
@[simp] theorem setMemWord_jobs (a v : Nat) : (s.setMemWord a v).jobs = s.jobs := rfl
@[simp] theorem setMemWord_trn (a v : Nat) : (s.setMemWord a v).trn = s.trn := rfl
@[simp] theorem setMemWord_xpt (a v : Nat) : (s.setMemWord a v).xpt = s.xpt := rfl
@[simp] theorem setMemWord_mtc (a v : Nat) : (s.setMemWord a v).mtc = s.mtc := rfl
@[simp] theorem setMemWord_trees (a v : Nat) : (s.setMemWord a v).trees = s.trees := rfl
@[simp] theorem setMemWord_regs (a v : Nat) : (s.setMemWord a v).regs = s.regs := rfl
@[simp] theorem setMemWord_cgc (a v : Nat) : (s.setMemWord a v).cgc = s.cgc := rfl
@[simp] theorem setMemWord_lck (a v : Nat) : (s.setMemWord a v).lck = s.lck := rfl
@[simp] theorem setMemWord_stk (a v : Nat) : (s.setMemWord a v).stk = s.stk := rfl
@[simp] theorem setMemWord_arb (a v : Nat) : (s.setMemWord a v).arb = s.arb := rfl
@[simp] theorem setMemWord_sec (a v : Nat) : (s.setMemWord a v).sec = s.sec := rfl
@[simp] theorem setMemWord_flt (a v : Nat) : (s.setMemWord a v).flt = s.flt := rfl
@[simp] theorem setMemWord_time (a v : Nat) : (s.setMemWord a v).time = s.time := rfl
@[simp] theorem setMemWord_pmon (a v : Nat) : (s.setMemWord a v).pmon = s.pmon := rfl
@[simp] theorem setMemWord_pwr (a v : Nat) : (s.setMemWord a v).pwr = s.pwr := rfl
@[simp] theorem setMemWord_tap (a v : Nat) : (s.setMemWord a v).tap = s.tap := rfl
@[simp] theorem setMemWord_opening (a v : Nat) : (s.setMemWord a v).opening = s.opening := rfl
@[simp] theorem rd_setMemWord (a v : Nat) (g : FRef) : (s.setMemWord a v).rd g = s.rd g := rfl

/-! Fields under `setEq`. -/

@[simp] theorem setEq_pending (f h : Nat) (v : Option Ring) : (s.setEq f h v).pending = s.pending := rfl
@[simp] theorem setEq_flds (f h : Nat) (v : Option Ring) : (s.setEq f h v).flds = s.flds := rfl
@[simp] theorem setEq_now (f h : Nat) (v : Option Ring) : (s.setEq f h v).now = s.now := rfl
@[simp] theorem setEq_rng (f h : Nat) (v : Option Ring) : (s.setEq f h v).rng = s.rng := rfl
@[simp] theorem setEq_out (f h : Nat) (v : Option Ring) : (s.setEq f h v).out = s.out := rfl
@[simp] theorem setEq_mem (f h : Nat) (v : Option Ring) : (s.setEq f h v).mem = s.mem := rfl
@[simp] theorem setEq_lanes (f h : Nat) (v : Option Ring) : (s.setEq f h v).lanes = s.lanes := rfl
@[simp] theorem setEq_ports (f h : Nat) (v : Option Ring) : (s.setEq f h v).ports = s.ports := rfl
@[simp] theorem setEq_buf (f h : Nat) (v : Option Ring) : (s.setEq f h v).buf = s.buf := rfl
@[simp] theorem setEq_nextPid (f h : Nat) (v : Option Ring) : (s.setEq f h v).nextPid = s.nextPid := rfl
@[simp] theorem setEq_oq (f h : Nat) (v : Option Ring) : (s.setEq f h v).oq = s.oq := rfl
@[simp] theorem setEq_lin (f h : Nat) (v : Option Ring) : (s.setEq f h v).lin = s.lin := rfl
@[simp] theorem setEq_guarUsed (f h : Nat) (v : Option Ring) : (s.setEq f h v).guarUsed = s.guarUsed := rfl
@[simp] theorem setEq_pol (f h : Nat) (v : Option Ring) : (s.setEq f h v).pol = s.pol := rfl
@[simp] theorem setEq_sched (f h : Nat) (v : Option Ring) : (s.setEq f h v).sched = s.sched := rfl
@[simp] theorem setEq_swc (f h : Nat) (v : Option Ring) : (s.setEq f h v).swc = s.swc := rfl
@[simp] theorem setEq_departures (f h : Nat) (v : Option Ring) : (s.setEq f h v).departures = s.departures := rfl
@[simp] theorem setEq_copying (f h : Nat) (v : Option Ring) : (s.setEq f h v).copying = s.copying := rfl
@[simp] theorem setEq_sinceSwap (f h : Nat) (v : Option Ring) : (s.setEq f h v).sinceSwap = s.sinceSwap := rfl
@[simp] theorem setEq_digests (f h : Nat) (v : Option Ring) : (s.setEq f h v).digests = s.digests := rfl
@[simp] theorem setEq_digestAt (f h : Nat) (v : Option Ring) : (s.setEq f h v).digestAt = s.digestAt := rfl
@[simp] theorem setEq_engReq (f h : Nat) (v : Option Ring) : (s.setEq f h v).engReq = s.engReq := rfl
@[simp] theorem setEq_engFwd (f h : Nat) (v : Option Ring) : (s.setEq f h v).engFwd = s.engFwd := rfl
@[simp] theorem setEq_engRep (f h : Nat) (v : Option Ring) : (s.setEq f h v).engRep = s.engRep := rfl
@[simp] theorem setEq_colIn (f h : Nat) (v : Option Ring) : (s.setEq f h v).colIn = s.colIn := rfl
@[simp] theorem setEq_colDown (f h : Nat) (v : Option Ring) : (s.setEq f h v).colDown = s.colDown := rfl
@[simp] theorem setEq_arbIn (f h : Nat) (v : Option Ring) : (s.setEq f h v).arbIn = s.arbIn := rfl
@[simp] theorem setEq_mgmtUp (f h : Nat) (v : Option Ring) : (s.setEq f h v).mgmtUp = s.mgmtUp := rfl
@[simp] theorem setEq_mgmtD3 (f h : Nat) (v : Option Ring) : (s.setEq f h v).mgmtD3 = s.mgmtD3 := rfl
@[simp] theorem setEq_pci (f h : Nat) (v : Option Ring) : (s.setEq f h v).pci = s.pci := rfl
@[simp] theorem setEq_msgPba (f h : Nat) (v : Option Ring) : (s.setEq f h v).msgPba = s.msgPba := rfl
@[simp] theorem setEq_wqs (f h : Nat) (v : Option Ring) : (s.setEq f h v).wqs = s.wqs := rfl
@[simp] theorem setEq_cqs (f h : Nat) (v : Option Ring) : (s.setEq f h v).cqs = s.cqs := rfl
@[simp] theorem setEq_work (f h : Nat) (v : Option Ring) : (s.setEq f h v).work = s.work := rfl
@[simp] theorem setEq_nextWork (f h : Nat) (v : Option Ring) : (s.setEq f h v).nextWork = s.nextWork := rfl
@[simp] theorem setEq_reads (f h : Nat) (v : Option Ring) : (s.setEq f h v).reads = s.reads := rfl
@[simp] theorem setEq_nextRead (f h : Nat) (v : Option Ring) : (s.setEq f h v).nextRead = s.nextRead := rfl
@[simp] theorem setEq_fns (f h : Nat) (v : Option Ring) : (s.setEq f h v).fns = s.fns := rfl
@[simp] theorem setEq_jobs (f h : Nat) (v : Option Ring) : (s.setEq f h v).jobs = s.jobs := rfl
@[simp] theorem setEq_trn (f h : Nat) (v : Option Ring) : (s.setEq f h v).trn = s.trn := rfl
@[simp] theorem setEq_xpt (f h : Nat) (v : Option Ring) : (s.setEq f h v).xpt = s.xpt := rfl
@[simp] theorem setEq_mtc (f h : Nat) (v : Option Ring) : (s.setEq f h v).mtc = s.mtc := rfl
@[simp] theorem setEq_trees (f h : Nat) (v : Option Ring) : (s.setEq f h v).trees = s.trees := rfl
@[simp] theorem setEq_regs (f h : Nat) (v : Option Ring) : (s.setEq f h v).regs = s.regs := rfl
@[simp] theorem setEq_cgc (f h : Nat) (v : Option Ring) : (s.setEq f h v).cgc = s.cgc := rfl
@[simp] theorem setEq_lck (f h : Nat) (v : Option Ring) : (s.setEq f h v).lck = s.lck := rfl
@[simp] theorem setEq_stk (f h : Nat) (v : Option Ring) : (s.setEq f h v).stk = s.stk := rfl
@[simp] theorem setEq_arb (f h : Nat) (v : Option Ring) : (s.setEq f h v).arb = s.arb := rfl
@[simp] theorem setEq_sec (f h : Nat) (v : Option Ring) : (s.setEq f h v).sec = s.sec := rfl
@[simp] theorem setEq_flt (f h : Nat) (v : Option Ring) : (s.setEq f h v).flt = s.flt := rfl
@[simp] theorem setEq_time (f h : Nat) (v : Option Ring) : (s.setEq f h v).time = s.time := rfl
@[simp] theorem setEq_pmon (f h : Nat) (v : Option Ring) : (s.setEq f h v).pmon = s.pmon := rfl
@[simp] theorem setEq_pwr (f h : Nat) (v : Option Ring) : (s.setEq f h v).pwr = s.pwr := rfl
@[simp] theorem setEq_tap (f h : Nat) (v : Option Ring) : (s.setEq f h v).tap = s.tap := rfl
@[simp] theorem setEq_opening (f h : Nat) (v : Option Ring) : (s.setEq f h v).opening = s.opening := rfl
@[simp] theorem rd_setEq (f h : Nat) (v : Option Ring) (g : FRef) : (s.setEq f h v).rd g = s.rd g := rfl

/-! Fields under `setCq`. -/

@[simp] theorem setCq_pending (f h : Nat) (v : Option Ring) : (s.setCq f h v).pending = s.pending := rfl
@[simp] theorem setCq_flds (f h : Nat) (v : Option Ring) : (s.setCq f h v).flds = s.flds := rfl
@[simp] theorem setCq_now (f h : Nat) (v : Option Ring) : (s.setCq f h v).now = s.now := rfl
@[simp] theorem setCq_rng (f h : Nat) (v : Option Ring) : (s.setCq f h v).rng = s.rng := rfl
@[simp] theorem setCq_out (f h : Nat) (v : Option Ring) : (s.setCq f h v).out = s.out := rfl
@[simp] theorem setCq_mem (f h : Nat) (v : Option Ring) : (s.setCq f h v).mem = s.mem := rfl
@[simp] theorem setCq_lanes (f h : Nat) (v : Option Ring) : (s.setCq f h v).lanes = s.lanes := rfl
@[simp] theorem setCq_ports (f h : Nat) (v : Option Ring) : (s.setCq f h v).ports = s.ports := rfl
@[simp] theorem setCq_buf (f h : Nat) (v : Option Ring) : (s.setCq f h v).buf = s.buf := rfl
@[simp] theorem setCq_nextPid (f h : Nat) (v : Option Ring) : (s.setCq f h v).nextPid = s.nextPid := rfl
@[simp] theorem setCq_oq (f h : Nat) (v : Option Ring) : (s.setCq f h v).oq = s.oq := rfl
@[simp] theorem setCq_lin (f h : Nat) (v : Option Ring) : (s.setCq f h v).lin = s.lin := rfl
@[simp] theorem setCq_guarUsed (f h : Nat) (v : Option Ring) : (s.setCq f h v).guarUsed = s.guarUsed := rfl
@[simp] theorem setCq_pol (f h : Nat) (v : Option Ring) : (s.setCq f h v).pol = s.pol := rfl
@[simp] theorem setCq_sched (f h : Nat) (v : Option Ring) : (s.setCq f h v).sched = s.sched := rfl
@[simp] theorem setCq_swc (f h : Nat) (v : Option Ring) : (s.setCq f h v).swc = s.swc := rfl
@[simp] theorem setCq_departures (f h : Nat) (v : Option Ring) : (s.setCq f h v).departures = s.departures := rfl
@[simp] theorem setCq_copying (f h : Nat) (v : Option Ring) : (s.setCq f h v).copying = s.copying := rfl
@[simp] theorem setCq_sinceSwap (f h : Nat) (v : Option Ring) : (s.setCq f h v).sinceSwap = s.sinceSwap := rfl
@[simp] theorem setCq_digests (f h : Nat) (v : Option Ring) : (s.setCq f h v).digests = s.digests := rfl
@[simp] theorem setCq_digestAt (f h : Nat) (v : Option Ring) : (s.setCq f h v).digestAt = s.digestAt := rfl
@[simp] theorem setCq_engReq (f h : Nat) (v : Option Ring) : (s.setCq f h v).engReq = s.engReq := rfl
@[simp] theorem setCq_engFwd (f h : Nat) (v : Option Ring) : (s.setCq f h v).engFwd = s.engFwd := rfl
@[simp] theorem setCq_engRep (f h : Nat) (v : Option Ring) : (s.setCq f h v).engRep = s.engRep := rfl
@[simp] theorem setCq_colIn (f h : Nat) (v : Option Ring) : (s.setCq f h v).colIn = s.colIn := rfl
@[simp] theorem setCq_colDown (f h : Nat) (v : Option Ring) : (s.setCq f h v).colDown = s.colDown := rfl
@[simp] theorem setCq_arbIn (f h : Nat) (v : Option Ring) : (s.setCq f h v).arbIn = s.arbIn := rfl
@[simp] theorem setCq_mgmtUp (f h : Nat) (v : Option Ring) : (s.setCq f h v).mgmtUp = s.mgmtUp := rfl
@[simp] theorem setCq_mgmtD3 (f h : Nat) (v : Option Ring) : (s.setCq f h v).mgmtD3 = s.mgmtD3 := rfl
@[simp] theorem setCq_pci (f h : Nat) (v : Option Ring) : (s.setCq f h v).pci = s.pci := rfl
@[simp] theorem setCq_msgPba (f h : Nat) (v : Option Ring) : (s.setCq f h v).msgPba = s.msgPba := rfl
@[simp] theorem setCq_wqs (f h : Nat) (v : Option Ring) : (s.setCq f h v).wqs = s.wqs := rfl
@[simp] theorem setCq_eqs (f h : Nat) (v : Option Ring) : (s.setCq f h v).eqs = s.eqs := rfl
@[simp] theorem setCq_work (f h : Nat) (v : Option Ring) : (s.setCq f h v).work = s.work := rfl
@[simp] theorem setCq_nextWork (f h : Nat) (v : Option Ring) : (s.setCq f h v).nextWork = s.nextWork := rfl
@[simp] theorem setCq_reads (f h : Nat) (v : Option Ring) : (s.setCq f h v).reads = s.reads := rfl
@[simp] theorem setCq_nextRead (f h : Nat) (v : Option Ring) : (s.setCq f h v).nextRead = s.nextRead := rfl
@[simp] theorem setCq_fns (f h : Nat) (v : Option Ring) : (s.setCq f h v).fns = s.fns := rfl
@[simp] theorem setCq_jobs (f h : Nat) (v : Option Ring) : (s.setCq f h v).jobs = s.jobs := rfl
@[simp] theorem setCq_trn (f h : Nat) (v : Option Ring) : (s.setCq f h v).trn = s.trn := rfl
@[simp] theorem setCq_xpt (f h : Nat) (v : Option Ring) : (s.setCq f h v).xpt = s.xpt := rfl
@[simp] theorem setCq_mtc (f h : Nat) (v : Option Ring) : (s.setCq f h v).mtc = s.mtc := rfl
@[simp] theorem setCq_trees (f h : Nat) (v : Option Ring) : (s.setCq f h v).trees = s.trees := rfl
@[simp] theorem setCq_regs (f h : Nat) (v : Option Ring) : (s.setCq f h v).regs = s.regs := rfl
@[simp] theorem setCq_cgc (f h : Nat) (v : Option Ring) : (s.setCq f h v).cgc = s.cgc := rfl
@[simp] theorem setCq_lck (f h : Nat) (v : Option Ring) : (s.setCq f h v).lck = s.lck := rfl
@[simp] theorem setCq_stk (f h : Nat) (v : Option Ring) : (s.setCq f h v).stk = s.stk := rfl
@[simp] theorem setCq_arb (f h : Nat) (v : Option Ring) : (s.setCq f h v).arb = s.arb := rfl
@[simp] theorem setCq_sec (f h : Nat) (v : Option Ring) : (s.setCq f h v).sec = s.sec := rfl
@[simp] theorem setCq_flt (f h : Nat) (v : Option Ring) : (s.setCq f h v).flt = s.flt := rfl
@[simp] theorem setCq_time (f h : Nat) (v : Option Ring) : (s.setCq f h v).time = s.time := rfl
@[simp] theorem setCq_pmon (f h : Nat) (v : Option Ring) : (s.setCq f h v).pmon = s.pmon := rfl
@[simp] theorem setCq_pwr (f h : Nat) (v : Option Ring) : (s.setCq f h v).pwr = s.pwr := rfl
@[simp] theorem setCq_tap (f h : Nat) (v : Option Ring) : (s.setCq f h v).tap = s.tap := rfl
@[simp] theorem setCq_opening (f h : Nat) (v : Option Ring) : (s.setCq f h v).opening = s.opening := rfl
@[simp] theorem rd_setCq (f h : Nat) (v : Option Ring) (g : FRef) : (s.setCq f h v).rd g = s.rd g := rfl

/-! Fields under `setWq`. -/

@[simp] theorem setWq_pending (f q : Nat) (v : Option Wq) : (s.setWq f q v).pending = s.pending := rfl
@[simp] theorem setWq_flds (f q : Nat) (v : Option Wq) : (s.setWq f q v).flds = s.flds := rfl
@[simp] theorem setWq_now (f q : Nat) (v : Option Wq) : (s.setWq f q v).now = s.now := rfl
@[simp] theorem setWq_rng (f q : Nat) (v : Option Wq) : (s.setWq f q v).rng = s.rng := rfl
@[simp] theorem setWq_out (f q : Nat) (v : Option Wq) : (s.setWq f q v).out = s.out := rfl
@[simp] theorem setWq_mem (f q : Nat) (v : Option Wq) : (s.setWq f q v).mem = s.mem := rfl
@[simp] theorem setWq_lanes (f q : Nat) (v : Option Wq) : (s.setWq f q v).lanes = s.lanes := rfl
@[simp] theorem setWq_ports (f q : Nat) (v : Option Wq) : (s.setWq f q v).ports = s.ports := rfl
@[simp] theorem setWq_buf (f q : Nat) (v : Option Wq) : (s.setWq f q v).buf = s.buf := rfl
@[simp] theorem setWq_nextPid (f q : Nat) (v : Option Wq) : (s.setWq f q v).nextPid = s.nextPid := rfl
@[simp] theorem setWq_oq (f q : Nat) (v : Option Wq) : (s.setWq f q v).oq = s.oq := rfl
@[simp] theorem setWq_lin (f q : Nat) (v : Option Wq) : (s.setWq f q v).lin = s.lin := rfl
@[simp] theorem setWq_guarUsed (f q : Nat) (v : Option Wq) : (s.setWq f q v).guarUsed = s.guarUsed := rfl
@[simp] theorem setWq_pol (f q : Nat) (v : Option Wq) : (s.setWq f q v).pol = s.pol := rfl
@[simp] theorem setWq_sched (f q : Nat) (v : Option Wq) : (s.setWq f q v).sched = s.sched := rfl
@[simp] theorem setWq_swc (f q : Nat) (v : Option Wq) : (s.setWq f q v).swc = s.swc := rfl
@[simp] theorem setWq_departures (f q : Nat) (v : Option Wq) : (s.setWq f q v).departures = s.departures := rfl
@[simp] theorem setWq_copying (f q : Nat) (v : Option Wq) : (s.setWq f q v).copying = s.copying := rfl
@[simp] theorem setWq_sinceSwap (f q : Nat) (v : Option Wq) : (s.setWq f q v).sinceSwap = s.sinceSwap := rfl
@[simp] theorem setWq_digests (f q : Nat) (v : Option Wq) : (s.setWq f q v).digests = s.digests := rfl
@[simp] theorem setWq_digestAt (f q : Nat) (v : Option Wq) : (s.setWq f q v).digestAt = s.digestAt := rfl
@[simp] theorem setWq_engReq (f q : Nat) (v : Option Wq) : (s.setWq f q v).engReq = s.engReq := rfl
@[simp] theorem setWq_engFwd (f q : Nat) (v : Option Wq) : (s.setWq f q v).engFwd = s.engFwd := rfl
@[simp] theorem setWq_engRep (f q : Nat) (v : Option Wq) : (s.setWq f q v).engRep = s.engRep := rfl
@[simp] theorem setWq_colIn (f q : Nat) (v : Option Wq) : (s.setWq f q v).colIn = s.colIn := rfl
@[simp] theorem setWq_colDown (f q : Nat) (v : Option Wq) : (s.setWq f q v).colDown = s.colDown := rfl
@[simp] theorem setWq_arbIn (f q : Nat) (v : Option Wq) : (s.setWq f q v).arbIn = s.arbIn := rfl
@[simp] theorem setWq_mgmtUp (f q : Nat) (v : Option Wq) : (s.setWq f q v).mgmtUp = s.mgmtUp := rfl
@[simp] theorem setWq_mgmtD3 (f q : Nat) (v : Option Wq) : (s.setWq f q v).mgmtD3 = s.mgmtD3 := rfl
@[simp] theorem setWq_pci (f q : Nat) (v : Option Wq) : (s.setWq f q v).pci = s.pci := rfl
@[simp] theorem setWq_msgPba (f q : Nat) (v : Option Wq) : (s.setWq f q v).msgPba = s.msgPba := rfl
@[simp] theorem setWq_cqs (f q : Nat) (v : Option Wq) : (s.setWq f q v).cqs = s.cqs := rfl
@[simp] theorem setWq_eqs (f q : Nat) (v : Option Wq) : (s.setWq f q v).eqs = s.eqs := rfl
@[simp] theorem setWq_work (f q : Nat) (v : Option Wq) : (s.setWq f q v).work = s.work := rfl
@[simp] theorem setWq_nextWork (f q : Nat) (v : Option Wq) : (s.setWq f q v).nextWork = s.nextWork := rfl
@[simp] theorem setWq_reads (f q : Nat) (v : Option Wq) : (s.setWq f q v).reads = s.reads := rfl
@[simp] theorem setWq_nextRead (f q : Nat) (v : Option Wq) : (s.setWq f q v).nextRead = s.nextRead := rfl
@[simp] theorem setWq_fns (f q : Nat) (v : Option Wq) : (s.setWq f q v).fns = s.fns := rfl
@[simp] theorem setWq_jobs (f q : Nat) (v : Option Wq) : (s.setWq f q v).jobs = s.jobs := rfl
@[simp] theorem setWq_trn (f q : Nat) (v : Option Wq) : (s.setWq f q v).trn = s.trn := rfl
@[simp] theorem setWq_xpt (f q : Nat) (v : Option Wq) : (s.setWq f q v).xpt = s.xpt := rfl
@[simp] theorem setWq_mtc (f q : Nat) (v : Option Wq) : (s.setWq f q v).mtc = s.mtc := rfl
@[simp] theorem setWq_trees (f q : Nat) (v : Option Wq) : (s.setWq f q v).trees = s.trees := rfl
@[simp] theorem setWq_regs (f q : Nat) (v : Option Wq) : (s.setWq f q v).regs = s.regs := rfl
@[simp] theorem setWq_cgc (f q : Nat) (v : Option Wq) : (s.setWq f q v).cgc = s.cgc := rfl
@[simp] theorem setWq_lck (f q : Nat) (v : Option Wq) : (s.setWq f q v).lck = s.lck := rfl
@[simp] theorem setWq_stk (f q : Nat) (v : Option Wq) : (s.setWq f q v).stk = s.stk := rfl
@[simp] theorem setWq_arb (f q : Nat) (v : Option Wq) : (s.setWq f q v).arb = s.arb := rfl
@[simp] theorem setWq_sec (f q : Nat) (v : Option Wq) : (s.setWq f q v).sec = s.sec := rfl
@[simp] theorem setWq_flt (f q : Nat) (v : Option Wq) : (s.setWq f q v).flt = s.flt := rfl
@[simp] theorem setWq_time (f q : Nat) (v : Option Wq) : (s.setWq f q v).time = s.time := rfl
@[simp] theorem setWq_pmon (f q : Nat) (v : Option Wq) : (s.setWq f q v).pmon = s.pmon := rfl
@[simp] theorem setWq_pwr (f q : Nat) (v : Option Wq) : (s.setWq f q v).pwr = s.pwr := rfl
@[simp] theorem setWq_tap (f q : Nat) (v : Option Wq) : (s.setWq f q v).tap = s.tap := rfl
@[simp] theorem setWq_opening (f q : Nat) (v : Option Wq) : (s.setWq f q v).opening = s.opening := rfl
@[simp] theorem rd_setWq (f q : Nat) (v : Option Wq) (g : FRef) : (s.setWq f q v).rd g = s.rd g := rfl

/-! Fields under `withPending`. -/

@[simp] theorem withPending_flds (v : List Instr) : (s.withPending v).flds = s.flds := rfl
@[simp] theorem withPending_now (v : List Instr) : (s.withPending v).now = s.now := rfl
@[simp] theorem withPending_rng (v : List Instr) : (s.withPending v).rng = s.rng := rfl
@[simp] theorem withPending_out (v : List Instr) : (s.withPending v).out = s.out := rfl
@[simp] theorem withPending_mem (v : List Instr) : (s.withPending v).mem = s.mem := rfl
@[simp] theorem withPending_lanes (v : List Instr) : (s.withPending v).lanes = s.lanes := rfl
@[simp] theorem withPending_ports (v : List Instr) : (s.withPending v).ports = s.ports := rfl
@[simp] theorem withPending_buf (v : List Instr) : (s.withPending v).buf = s.buf := rfl
@[simp] theorem withPending_nextPid (v : List Instr) : (s.withPending v).nextPid = s.nextPid := rfl
@[simp] theorem withPending_oq (v : List Instr) : (s.withPending v).oq = s.oq := rfl
@[simp] theorem withPending_lin (v : List Instr) : (s.withPending v).lin = s.lin := rfl
@[simp] theorem withPending_guarUsed (v : List Instr) : (s.withPending v).guarUsed = s.guarUsed := rfl
@[simp] theorem withPending_pol (v : List Instr) : (s.withPending v).pol = s.pol := rfl
@[simp] theorem withPending_sched (v : List Instr) : (s.withPending v).sched = s.sched := rfl
@[simp] theorem withPending_swc (v : List Instr) : (s.withPending v).swc = s.swc := rfl
@[simp] theorem withPending_departures (v : List Instr) : (s.withPending v).departures = s.departures := rfl
@[simp] theorem withPending_copying (v : List Instr) : (s.withPending v).copying = s.copying := rfl
@[simp] theorem withPending_sinceSwap (v : List Instr) : (s.withPending v).sinceSwap = s.sinceSwap := rfl
@[simp] theorem withPending_digests (v : List Instr) : (s.withPending v).digests = s.digests := rfl
@[simp] theorem withPending_digestAt (v : List Instr) : (s.withPending v).digestAt = s.digestAt := rfl
@[simp] theorem withPending_engReq (v : List Instr) : (s.withPending v).engReq = s.engReq := rfl
@[simp] theorem withPending_engFwd (v : List Instr) : (s.withPending v).engFwd = s.engFwd := rfl
@[simp] theorem withPending_engRep (v : List Instr) : (s.withPending v).engRep = s.engRep := rfl
@[simp] theorem withPending_colIn (v : List Instr) : (s.withPending v).colIn = s.colIn := rfl
@[simp] theorem withPending_colDown (v : List Instr) : (s.withPending v).colDown = s.colDown := rfl
@[simp] theorem withPending_arbIn (v : List Instr) : (s.withPending v).arbIn = s.arbIn := rfl
@[simp] theorem withPending_mgmtUp (v : List Instr) : (s.withPending v).mgmtUp = s.mgmtUp := rfl
@[simp] theorem withPending_mgmtD3 (v : List Instr) : (s.withPending v).mgmtD3 = s.mgmtD3 := rfl
@[simp] theorem withPending_pci (v : List Instr) : (s.withPending v).pci = s.pci := rfl
@[simp] theorem withPending_msgPba (v : List Instr) : (s.withPending v).msgPba = s.msgPba := rfl
@[simp] theorem withPending_wqs (v : List Instr) : (s.withPending v).wqs = s.wqs := rfl
@[simp] theorem withPending_cqs (v : List Instr) : (s.withPending v).cqs = s.cqs := rfl
@[simp] theorem withPending_eqs (v : List Instr) : (s.withPending v).eqs = s.eqs := rfl
@[simp] theorem withPending_work (v : List Instr) : (s.withPending v).work = s.work := rfl
@[simp] theorem withPending_nextWork (v : List Instr) : (s.withPending v).nextWork = s.nextWork := rfl
@[simp] theorem withPending_reads (v : List Instr) : (s.withPending v).reads = s.reads := rfl
@[simp] theorem withPending_nextRead (v : List Instr) : (s.withPending v).nextRead = s.nextRead := rfl
@[simp] theorem withPending_fns (v : List Instr) : (s.withPending v).fns = s.fns := rfl
@[simp] theorem withPending_jobs (v : List Instr) : (s.withPending v).jobs = s.jobs := rfl
@[simp] theorem withPending_trn (v : List Instr) : (s.withPending v).trn = s.trn := rfl
@[simp] theorem withPending_xpt (v : List Instr) : (s.withPending v).xpt = s.xpt := rfl
@[simp] theorem withPending_mtc (v : List Instr) : (s.withPending v).mtc = s.mtc := rfl
@[simp] theorem withPending_trees (v : List Instr) : (s.withPending v).trees = s.trees := rfl
@[simp] theorem withPending_regs (v : List Instr) : (s.withPending v).regs = s.regs := rfl
@[simp] theorem withPending_cgc (v : List Instr) : (s.withPending v).cgc = s.cgc := rfl
@[simp] theorem withPending_lck (v : List Instr) : (s.withPending v).lck = s.lck := rfl
@[simp] theorem withPending_stk (v : List Instr) : (s.withPending v).stk = s.stk := rfl
@[simp] theorem withPending_arb (v : List Instr) : (s.withPending v).arb = s.arb := rfl
@[simp] theorem withPending_sec (v : List Instr) : (s.withPending v).sec = s.sec := rfl
@[simp] theorem withPending_flt (v : List Instr) : (s.withPending v).flt = s.flt := rfl
@[simp] theorem withPending_time (v : List Instr) : (s.withPending v).time = s.time := rfl
@[simp] theorem withPending_pmon (v : List Instr) : (s.withPending v).pmon = s.pmon := rfl
@[simp] theorem withPending_pwr (v : List Instr) : (s.withPending v).pwr = s.pwr := rfl
@[simp] theorem withPending_tap (v : List Instr) : (s.withPending v).tap = s.tap := rfl
@[simp] theorem withPending_opening (v : List Instr) : (s.withPending v).opening = s.opening := rfl
@[simp] theorem withPending_pending (v : List Instr) : (s.withPending v).pending = v := rfl
@[simp] theorem rd_withPending (v : List Instr) (g : FRef) : (s.withPending v).rd g = s.rd g := rfl

/-! Fields under `withNow`. -/

@[simp] theorem withNow_pending (v : Nat) : (s.withNow v).pending = s.pending := rfl
@[simp] theorem withNow_flds (v : Nat) : (s.withNow v).flds = s.flds := rfl
@[simp] theorem withNow_rng (v : Nat) : (s.withNow v).rng = s.rng := rfl
@[simp] theorem withNow_out (v : Nat) : (s.withNow v).out = s.out := rfl
@[simp] theorem withNow_mem (v : Nat) : (s.withNow v).mem = s.mem := rfl
@[simp] theorem withNow_lanes (v : Nat) : (s.withNow v).lanes = s.lanes := rfl
@[simp] theorem withNow_ports (v : Nat) : (s.withNow v).ports = s.ports := rfl
@[simp] theorem withNow_buf (v : Nat) : (s.withNow v).buf = s.buf := rfl
@[simp] theorem withNow_nextPid (v : Nat) : (s.withNow v).nextPid = s.nextPid := rfl
@[simp] theorem withNow_oq (v : Nat) : (s.withNow v).oq = s.oq := rfl
@[simp] theorem withNow_lin (v : Nat) : (s.withNow v).lin = s.lin := rfl
@[simp] theorem withNow_guarUsed (v : Nat) : (s.withNow v).guarUsed = s.guarUsed := rfl
@[simp] theorem withNow_pol (v : Nat) : (s.withNow v).pol = s.pol := rfl
@[simp] theorem withNow_sched (v : Nat) : (s.withNow v).sched = s.sched := rfl
@[simp] theorem withNow_swc (v : Nat) : (s.withNow v).swc = s.swc := rfl
@[simp] theorem withNow_departures (v : Nat) : (s.withNow v).departures = s.departures := rfl
@[simp] theorem withNow_copying (v : Nat) : (s.withNow v).copying = s.copying := rfl
@[simp] theorem withNow_sinceSwap (v : Nat) : (s.withNow v).sinceSwap = s.sinceSwap := rfl
@[simp] theorem withNow_digests (v : Nat) : (s.withNow v).digests = s.digests := rfl
@[simp] theorem withNow_digestAt (v : Nat) : (s.withNow v).digestAt = s.digestAt := rfl
@[simp] theorem withNow_engReq (v : Nat) : (s.withNow v).engReq = s.engReq := rfl
@[simp] theorem withNow_engFwd (v : Nat) : (s.withNow v).engFwd = s.engFwd := rfl
@[simp] theorem withNow_engRep (v : Nat) : (s.withNow v).engRep = s.engRep := rfl
@[simp] theorem withNow_colIn (v : Nat) : (s.withNow v).colIn = s.colIn := rfl
@[simp] theorem withNow_colDown (v : Nat) : (s.withNow v).colDown = s.colDown := rfl
@[simp] theorem withNow_arbIn (v : Nat) : (s.withNow v).arbIn = s.arbIn := rfl
@[simp] theorem withNow_mgmtUp (v : Nat) : (s.withNow v).mgmtUp = s.mgmtUp := rfl
@[simp] theorem withNow_mgmtD3 (v : Nat) : (s.withNow v).mgmtD3 = s.mgmtD3 := rfl
@[simp] theorem withNow_pci (v : Nat) : (s.withNow v).pci = s.pci := rfl
@[simp] theorem withNow_msgPba (v : Nat) : (s.withNow v).msgPba = s.msgPba := rfl
@[simp] theorem withNow_wqs (v : Nat) : (s.withNow v).wqs = s.wqs := rfl
@[simp] theorem withNow_cqs (v : Nat) : (s.withNow v).cqs = s.cqs := rfl
@[simp] theorem withNow_eqs (v : Nat) : (s.withNow v).eqs = s.eqs := rfl
@[simp] theorem withNow_work (v : Nat) : (s.withNow v).work = s.work := rfl
@[simp] theorem withNow_nextWork (v : Nat) : (s.withNow v).nextWork = s.nextWork := rfl
@[simp] theorem withNow_reads (v : Nat) : (s.withNow v).reads = s.reads := rfl
@[simp] theorem withNow_nextRead (v : Nat) : (s.withNow v).nextRead = s.nextRead := rfl
@[simp] theorem withNow_fns (v : Nat) : (s.withNow v).fns = s.fns := rfl
@[simp] theorem withNow_jobs (v : Nat) : (s.withNow v).jobs = s.jobs := rfl
@[simp] theorem withNow_trn (v : Nat) : (s.withNow v).trn = s.trn := rfl
@[simp] theorem withNow_xpt (v : Nat) : (s.withNow v).xpt = s.xpt := rfl
@[simp] theorem withNow_mtc (v : Nat) : (s.withNow v).mtc = s.mtc := rfl
@[simp] theorem withNow_trees (v : Nat) : (s.withNow v).trees = s.trees := rfl
@[simp] theorem withNow_regs (v : Nat) : (s.withNow v).regs = s.regs := rfl
@[simp] theorem withNow_cgc (v : Nat) : (s.withNow v).cgc = s.cgc := rfl
@[simp] theorem withNow_lck (v : Nat) : (s.withNow v).lck = s.lck := rfl
@[simp] theorem withNow_stk (v : Nat) : (s.withNow v).stk = s.stk := rfl
@[simp] theorem withNow_arb (v : Nat) : (s.withNow v).arb = s.arb := rfl
@[simp] theorem withNow_sec (v : Nat) : (s.withNow v).sec = s.sec := rfl
@[simp] theorem withNow_flt (v : Nat) : (s.withNow v).flt = s.flt := rfl
@[simp] theorem withNow_time (v : Nat) : (s.withNow v).time = s.time := rfl
@[simp] theorem withNow_pmon (v : Nat) : (s.withNow v).pmon = s.pmon := rfl
@[simp] theorem withNow_pwr (v : Nat) : (s.withNow v).pwr = s.pwr := rfl
@[simp] theorem withNow_tap (v : Nat) : (s.withNow v).tap = s.tap := rfl
@[simp] theorem withNow_opening (v : Nat) : (s.withNow v).opening = s.opening := rfl
@[simp] theorem withNow_now (v : Nat) : (s.withNow v).now = v := rfl
@[simp] theorem rd_withNow (v : Nat) (g : FRef) : (s.withNow v).rd g = s.rd g := rfl

/-! Fields under `withFlds`. -/

@[simp] theorem withFlds_pending (v : SMap Nat) : (s.withFlds v).pending = s.pending := rfl
@[simp] theorem withFlds_now (v : SMap Nat) : (s.withFlds v).now = s.now := rfl
@[simp] theorem withFlds_rng (v : SMap Nat) : (s.withFlds v).rng = s.rng := rfl
@[simp] theorem withFlds_out (v : SMap Nat) : (s.withFlds v).out = s.out := rfl
@[simp] theorem withFlds_mem (v : SMap Nat) : (s.withFlds v).mem = s.mem := rfl
@[simp] theorem withFlds_lanes (v : SMap Nat) : (s.withFlds v).lanes = s.lanes := rfl
@[simp] theorem withFlds_ports (v : SMap Nat) : (s.withFlds v).ports = s.ports := rfl
@[simp] theorem withFlds_buf (v : SMap Nat) : (s.withFlds v).buf = s.buf := rfl
@[simp] theorem withFlds_nextPid (v : SMap Nat) : (s.withFlds v).nextPid = s.nextPid := rfl
@[simp] theorem withFlds_oq (v : SMap Nat) : (s.withFlds v).oq = s.oq := rfl
@[simp] theorem withFlds_lin (v : SMap Nat) : (s.withFlds v).lin = s.lin := rfl
@[simp] theorem withFlds_guarUsed (v : SMap Nat) : (s.withFlds v).guarUsed = s.guarUsed := rfl
@[simp] theorem withFlds_pol (v : SMap Nat) : (s.withFlds v).pol = s.pol := rfl
@[simp] theorem withFlds_sched (v : SMap Nat) : (s.withFlds v).sched = s.sched := rfl
@[simp] theorem withFlds_swc (v : SMap Nat) : (s.withFlds v).swc = s.swc := rfl
@[simp] theorem withFlds_departures (v : SMap Nat) : (s.withFlds v).departures = s.departures := rfl
@[simp] theorem withFlds_copying (v : SMap Nat) : (s.withFlds v).copying = s.copying := rfl
@[simp] theorem withFlds_sinceSwap (v : SMap Nat) : (s.withFlds v).sinceSwap = s.sinceSwap := rfl
@[simp] theorem withFlds_digests (v : SMap Nat) : (s.withFlds v).digests = s.digests := rfl
@[simp] theorem withFlds_digestAt (v : SMap Nat) : (s.withFlds v).digestAt = s.digestAt := rfl
@[simp] theorem withFlds_engReq (v : SMap Nat) : (s.withFlds v).engReq = s.engReq := rfl
@[simp] theorem withFlds_engFwd (v : SMap Nat) : (s.withFlds v).engFwd = s.engFwd := rfl
@[simp] theorem withFlds_engRep (v : SMap Nat) : (s.withFlds v).engRep = s.engRep := rfl
@[simp] theorem withFlds_colIn (v : SMap Nat) : (s.withFlds v).colIn = s.colIn := rfl
@[simp] theorem withFlds_colDown (v : SMap Nat) : (s.withFlds v).colDown = s.colDown := rfl
@[simp] theorem withFlds_arbIn (v : SMap Nat) : (s.withFlds v).arbIn = s.arbIn := rfl
@[simp] theorem withFlds_mgmtUp (v : SMap Nat) : (s.withFlds v).mgmtUp = s.mgmtUp := rfl
@[simp] theorem withFlds_mgmtD3 (v : SMap Nat) : (s.withFlds v).mgmtD3 = s.mgmtD3 := rfl
@[simp] theorem withFlds_pci (v : SMap Nat) : (s.withFlds v).pci = s.pci := rfl
@[simp] theorem withFlds_msgPba (v : SMap Nat) : (s.withFlds v).msgPba = s.msgPba := rfl
@[simp] theorem withFlds_wqs (v : SMap Nat) : (s.withFlds v).wqs = s.wqs := rfl
@[simp] theorem withFlds_cqs (v : SMap Nat) : (s.withFlds v).cqs = s.cqs := rfl
@[simp] theorem withFlds_eqs (v : SMap Nat) : (s.withFlds v).eqs = s.eqs := rfl
@[simp] theorem withFlds_work (v : SMap Nat) : (s.withFlds v).work = s.work := rfl
@[simp] theorem withFlds_nextWork (v : SMap Nat) : (s.withFlds v).nextWork = s.nextWork := rfl
@[simp] theorem withFlds_reads (v : SMap Nat) : (s.withFlds v).reads = s.reads := rfl
@[simp] theorem withFlds_nextRead (v : SMap Nat) : (s.withFlds v).nextRead = s.nextRead := rfl
@[simp] theorem withFlds_fns (v : SMap Nat) : (s.withFlds v).fns = s.fns := rfl
@[simp] theorem withFlds_jobs (v : SMap Nat) : (s.withFlds v).jobs = s.jobs := rfl
@[simp] theorem withFlds_trn (v : SMap Nat) : (s.withFlds v).trn = s.trn := rfl
@[simp] theorem withFlds_xpt (v : SMap Nat) : (s.withFlds v).xpt = s.xpt := rfl
@[simp] theorem withFlds_mtc (v : SMap Nat) : (s.withFlds v).mtc = s.mtc := rfl
@[simp] theorem withFlds_trees (v : SMap Nat) : (s.withFlds v).trees = s.trees := rfl
@[simp] theorem withFlds_regs (v : SMap Nat) : (s.withFlds v).regs = s.regs := rfl
@[simp] theorem withFlds_cgc (v : SMap Nat) : (s.withFlds v).cgc = s.cgc := rfl
@[simp] theorem withFlds_lck (v : SMap Nat) : (s.withFlds v).lck = s.lck := rfl
@[simp] theorem withFlds_stk (v : SMap Nat) : (s.withFlds v).stk = s.stk := rfl
@[simp] theorem withFlds_arb (v : SMap Nat) : (s.withFlds v).arb = s.arb := rfl
@[simp] theorem withFlds_sec (v : SMap Nat) : (s.withFlds v).sec = s.sec := rfl
@[simp] theorem withFlds_flt (v : SMap Nat) : (s.withFlds v).flt = s.flt := rfl
@[simp] theorem withFlds_time (v : SMap Nat) : (s.withFlds v).time = s.time := rfl
@[simp] theorem withFlds_pmon (v : SMap Nat) : (s.withFlds v).pmon = s.pmon := rfl
@[simp] theorem withFlds_pwr (v : SMap Nat) : (s.withFlds v).pwr = s.pwr := rfl
@[simp] theorem withFlds_tap (v : SMap Nat) : (s.withFlds v).tap = s.tap := rfl
@[simp] theorem withFlds_opening (v : SMap Nat) : (s.withFlds v).opening = s.opening := rfl
@[simp] theorem withFlds_flds (v : SMap Nat) : (s.withFlds v).flds = v := rfl

/-! Fields under `withRng`. -/

@[simp] theorem withRng_pending (v : Nat) : (s.withRng v).pending = s.pending := rfl
@[simp] theorem withRng_flds (v : Nat) : (s.withRng v).flds = s.flds := rfl
@[simp] theorem withRng_now (v : Nat) : (s.withRng v).now = s.now := rfl
@[simp] theorem withRng_out (v : Nat) : (s.withRng v).out = s.out := rfl
@[simp] theorem withRng_mem (v : Nat) : (s.withRng v).mem = s.mem := rfl
@[simp] theorem withRng_lanes (v : Nat) : (s.withRng v).lanes = s.lanes := rfl
@[simp] theorem withRng_ports (v : Nat) : (s.withRng v).ports = s.ports := rfl
@[simp] theorem withRng_buf (v : Nat) : (s.withRng v).buf = s.buf := rfl
@[simp] theorem withRng_nextPid (v : Nat) : (s.withRng v).nextPid = s.nextPid := rfl
@[simp] theorem withRng_oq (v : Nat) : (s.withRng v).oq = s.oq := rfl
@[simp] theorem withRng_lin (v : Nat) : (s.withRng v).lin = s.lin := rfl
@[simp] theorem withRng_guarUsed (v : Nat) : (s.withRng v).guarUsed = s.guarUsed := rfl
@[simp] theorem withRng_pol (v : Nat) : (s.withRng v).pol = s.pol := rfl
@[simp] theorem withRng_sched (v : Nat) : (s.withRng v).sched = s.sched := rfl
@[simp] theorem withRng_swc (v : Nat) : (s.withRng v).swc = s.swc := rfl
@[simp] theorem withRng_departures (v : Nat) : (s.withRng v).departures = s.departures := rfl
@[simp] theorem withRng_copying (v : Nat) : (s.withRng v).copying = s.copying := rfl
@[simp] theorem withRng_sinceSwap (v : Nat) : (s.withRng v).sinceSwap = s.sinceSwap := rfl
@[simp] theorem withRng_digests (v : Nat) : (s.withRng v).digests = s.digests := rfl
@[simp] theorem withRng_digestAt (v : Nat) : (s.withRng v).digestAt = s.digestAt := rfl
@[simp] theorem withRng_engReq (v : Nat) : (s.withRng v).engReq = s.engReq := rfl
@[simp] theorem withRng_engFwd (v : Nat) : (s.withRng v).engFwd = s.engFwd := rfl
@[simp] theorem withRng_engRep (v : Nat) : (s.withRng v).engRep = s.engRep := rfl
@[simp] theorem withRng_colIn (v : Nat) : (s.withRng v).colIn = s.colIn := rfl
@[simp] theorem withRng_colDown (v : Nat) : (s.withRng v).colDown = s.colDown := rfl
@[simp] theorem withRng_arbIn (v : Nat) : (s.withRng v).arbIn = s.arbIn := rfl
@[simp] theorem withRng_mgmtUp (v : Nat) : (s.withRng v).mgmtUp = s.mgmtUp := rfl
@[simp] theorem withRng_mgmtD3 (v : Nat) : (s.withRng v).mgmtD3 = s.mgmtD3 := rfl
@[simp] theorem withRng_pci (v : Nat) : (s.withRng v).pci = s.pci := rfl
@[simp] theorem withRng_msgPba (v : Nat) : (s.withRng v).msgPba = s.msgPba := rfl
@[simp] theorem withRng_wqs (v : Nat) : (s.withRng v).wqs = s.wqs := rfl
@[simp] theorem withRng_cqs (v : Nat) : (s.withRng v).cqs = s.cqs := rfl
@[simp] theorem withRng_eqs (v : Nat) : (s.withRng v).eqs = s.eqs := rfl
@[simp] theorem withRng_work (v : Nat) : (s.withRng v).work = s.work := rfl
@[simp] theorem withRng_nextWork (v : Nat) : (s.withRng v).nextWork = s.nextWork := rfl
@[simp] theorem withRng_reads (v : Nat) : (s.withRng v).reads = s.reads := rfl
@[simp] theorem withRng_nextRead (v : Nat) : (s.withRng v).nextRead = s.nextRead := rfl
@[simp] theorem withRng_fns (v : Nat) : (s.withRng v).fns = s.fns := rfl
@[simp] theorem withRng_jobs (v : Nat) : (s.withRng v).jobs = s.jobs := rfl
@[simp] theorem withRng_trn (v : Nat) : (s.withRng v).trn = s.trn := rfl
@[simp] theorem withRng_xpt (v : Nat) : (s.withRng v).xpt = s.xpt := rfl
@[simp] theorem withRng_mtc (v : Nat) : (s.withRng v).mtc = s.mtc := rfl
@[simp] theorem withRng_trees (v : Nat) : (s.withRng v).trees = s.trees := rfl
@[simp] theorem withRng_regs (v : Nat) : (s.withRng v).regs = s.regs := rfl
@[simp] theorem withRng_cgc (v : Nat) : (s.withRng v).cgc = s.cgc := rfl
@[simp] theorem withRng_lck (v : Nat) : (s.withRng v).lck = s.lck := rfl
@[simp] theorem withRng_stk (v : Nat) : (s.withRng v).stk = s.stk := rfl
@[simp] theorem withRng_arb (v : Nat) : (s.withRng v).arb = s.arb := rfl
@[simp] theorem withRng_sec (v : Nat) : (s.withRng v).sec = s.sec := rfl
@[simp] theorem withRng_flt (v : Nat) : (s.withRng v).flt = s.flt := rfl
@[simp] theorem withRng_time (v : Nat) : (s.withRng v).time = s.time := rfl
@[simp] theorem withRng_pmon (v : Nat) : (s.withRng v).pmon = s.pmon := rfl
@[simp] theorem withRng_pwr (v : Nat) : (s.withRng v).pwr = s.pwr := rfl
@[simp] theorem withRng_tap (v : Nat) : (s.withRng v).tap = s.tap := rfl
@[simp] theorem withRng_opening (v : Nat) : (s.withRng v).opening = s.opening := rfl
@[simp] theorem withRng_rng (v : Nat) : (s.withRng v).rng = v := rfl
@[simp] theorem rd_withRng (v : Nat) (g : FRef) : (s.withRng v).rd g = s.rd g := rfl

/-! Fields under `withOut`. -/

@[simp] theorem withOut_pending (v : List Output) : (s.withOut v).pending = s.pending := rfl
@[simp] theorem withOut_flds (v : List Output) : (s.withOut v).flds = s.flds := rfl
@[simp] theorem withOut_now (v : List Output) : (s.withOut v).now = s.now := rfl
@[simp] theorem withOut_rng (v : List Output) : (s.withOut v).rng = s.rng := rfl
@[simp] theorem withOut_mem (v : List Output) : (s.withOut v).mem = s.mem := rfl
@[simp] theorem withOut_lanes (v : List Output) : (s.withOut v).lanes = s.lanes := rfl
@[simp] theorem withOut_ports (v : List Output) : (s.withOut v).ports = s.ports := rfl
@[simp] theorem withOut_buf (v : List Output) : (s.withOut v).buf = s.buf := rfl
@[simp] theorem withOut_nextPid (v : List Output) : (s.withOut v).nextPid = s.nextPid := rfl
@[simp] theorem withOut_oq (v : List Output) : (s.withOut v).oq = s.oq := rfl
@[simp] theorem withOut_lin (v : List Output) : (s.withOut v).lin = s.lin := rfl
@[simp] theorem withOut_guarUsed (v : List Output) : (s.withOut v).guarUsed = s.guarUsed := rfl
@[simp] theorem withOut_pol (v : List Output) : (s.withOut v).pol = s.pol := rfl
@[simp] theorem withOut_sched (v : List Output) : (s.withOut v).sched = s.sched := rfl
@[simp] theorem withOut_swc (v : List Output) : (s.withOut v).swc = s.swc := rfl
@[simp] theorem withOut_departures (v : List Output) : (s.withOut v).departures = s.departures := rfl
@[simp] theorem withOut_copying (v : List Output) : (s.withOut v).copying = s.copying := rfl
@[simp] theorem withOut_sinceSwap (v : List Output) : (s.withOut v).sinceSwap = s.sinceSwap := rfl
@[simp] theorem withOut_digests (v : List Output) : (s.withOut v).digests = s.digests := rfl
@[simp] theorem withOut_digestAt (v : List Output) : (s.withOut v).digestAt = s.digestAt := rfl
@[simp] theorem withOut_engReq (v : List Output) : (s.withOut v).engReq = s.engReq := rfl
@[simp] theorem withOut_engFwd (v : List Output) : (s.withOut v).engFwd = s.engFwd := rfl
@[simp] theorem withOut_engRep (v : List Output) : (s.withOut v).engRep = s.engRep := rfl
@[simp] theorem withOut_colIn (v : List Output) : (s.withOut v).colIn = s.colIn := rfl
@[simp] theorem withOut_colDown (v : List Output) : (s.withOut v).colDown = s.colDown := rfl
@[simp] theorem withOut_arbIn (v : List Output) : (s.withOut v).arbIn = s.arbIn := rfl
@[simp] theorem withOut_mgmtUp (v : List Output) : (s.withOut v).mgmtUp = s.mgmtUp := rfl
@[simp] theorem withOut_mgmtD3 (v : List Output) : (s.withOut v).mgmtD3 = s.mgmtD3 := rfl
@[simp] theorem withOut_pci (v : List Output) : (s.withOut v).pci = s.pci := rfl
@[simp] theorem withOut_msgPba (v : List Output) : (s.withOut v).msgPba = s.msgPba := rfl
@[simp] theorem withOut_wqs (v : List Output) : (s.withOut v).wqs = s.wqs := rfl
@[simp] theorem withOut_cqs (v : List Output) : (s.withOut v).cqs = s.cqs := rfl
@[simp] theorem withOut_eqs (v : List Output) : (s.withOut v).eqs = s.eqs := rfl
@[simp] theorem withOut_work (v : List Output) : (s.withOut v).work = s.work := rfl
@[simp] theorem withOut_nextWork (v : List Output) : (s.withOut v).nextWork = s.nextWork := rfl
@[simp] theorem withOut_reads (v : List Output) : (s.withOut v).reads = s.reads := rfl
@[simp] theorem withOut_nextRead (v : List Output) : (s.withOut v).nextRead = s.nextRead := rfl
@[simp] theorem withOut_fns (v : List Output) : (s.withOut v).fns = s.fns := rfl
@[simp] theorem withOut_jobs (v : List Output) : (s.withOut v).jobs = s.jobs := rfl
@[simp] theorem withOut_trn (v : List Output) : (s.withOut v).trn = s.trn := rfl
@[simp] theorem withOut_xpt (v : List Output) : (s.withOut v).xpt = s.xpt := rfl
@[simp] theorem withOut_mtc (v : List Output) : (s.withOut v).mtc = s.mtc := rfl
@[simp] theorem withOut_trees (v : List Output) : (s.withOut v).trees = s.trees := rfl
@[simp] theorem withOut_regs (v : List Output) : (s.withOut v).regs = s.regs := rfl
@[simp] theorem withOut_cgc (v : List Output) : (s.withOut v).cgc = s.cgc := rfl
@[simp] theorem withOut_lck (v : List Output) : (s.withOut v).lck = s.lck := rfl
@[simp] theorem withOut_stk (v : List Output) : (s.withOut v).stk = s.stk := rfl
@[simp] theorem withOut_arb (v : List Output) : (s.withOut v).arb = s.arb := rfl
@[simp] theorem withOut_sec (v : List Output) : (s.withOut v).sec = s.sec := rfl
@[simp] theorem withOut_flt (v : List Output) : (s.withOut v).flt = s.flt := rfl
@[simp] theorem withOut_time (v : List Output) : (s.withOut v).time = s.time := rfl
@[simp] theorem withOut_pmon (v : List Output) : (s.withOut v).pmon = s.pmon := rfl
@[simp] theorem withOut_pwr (v : List Output) : (s.withOut v).pwr = s.pwr := rfl
@[simp] theorem withOut_tap (v : List Output) : (s.withOut v).tap = s.tap := rfl
@[simp] theorem withOut_opening (v : List Output) : (s.withOut v).opening = s.opening := rfl
@[simp] theorem withOut_out (v : List Output) : (s.withOut v).out = v := rfl
@[simp] theorem rd_withOut (v : List Output) (g : FRef) : (s.withOut v).rd g = s.rd g := rfl

/-! Fields under `withMem`. -/

@[simp] theorem withMem_pending (v : SMap Nat) : (s.withMem v).pending = s.pending := rfl
@[simp] theorem withMem_flds (v : SMap Nat) : (s.withMem v).flds = s.flds := rfl
@[simp] theorem withMem_now (v : SMap Nat) : (s.withMem v).now = s.now := rfl
@[simp] theorem withMem_rng (v : SMap Nat) : (s.withMem v).rng = s.rng := rfl
@[simp] theorem withMem_out (v : SMap Nat) : (s.withMem v).out = s.out := rfl
@[simp] theorem withMem_lanes (v : SMap Nat) : (s.withMem v).lanes = s.lanes := rfl
@[simp] theorem withMem_ports (v : SMap Nat) : (s.withMem v).ports = s.ports := rfl
@[simp] theorem withMem_buf (v : SMap Nat) : (s.withMem v).buf = s.buf := rfl
@[simp] theorem withMem_nextPid (v : SMap Nat) : (s.withMem v).nextPid = s.nextPid := rfl
@[simp] theorem withMem_oq (v : SMap Nat) : (s.withMem v).oq = s.oq := rfl
@[simp] theorem withMem_lin (v : SMap Nat) : (s.withMem v).lin = s.lin := rfl
@[simp] theorem withMem_guarUsed (v : SMap Nat) : (s.withMem v).guarUsed = s.guarUsed := rfl
@[simp] theorem withMem_pol (v : SMap Nat) : (s.withMem v).pol = s.pol := rfl
@[simp] theorem withMem_sched (v : SMap Nat) : (s.withMem v).sched = s.sched := rfl
@[simp] theorem withMem_swc (v : SMap Nat) : (s.withMem v).swc = s.swc := rfl
@[simp] theorem withMem_departures (v : SMap Nat) : (s.withMem v).departures = s.departures := rfl
@[simp] theorem withMem_copying (v : SMap Nat) : (s.withMem v).copying = s.copying := rfl
@[simp] theorem withMem_sinceSwap (v : SMap Nat) : (s.withMem v).sinceSwap = s.sinceSwap := rfl
@[simp] theorem withMem_digests (v : SMap Nat) : (s.withMem v).digests = s.digests := rfl
@[simp] theorem withMem_digestAt (v : SMap Nat) : (s.withMem v).digestAt = s.digestAt := rfl
@[simp] theorem withMem_engReq (v : SMap Nat) : (s.withMem v).engReq = s.engReq := rfl
@[simp] theorem withMem_engFwd (v : SMap Nat) : (s.withMem v).engFwd = s.engFwd := rfl
@[simp] theorem withMem_engRep (v : SMap Nat) : (s.withMem v).engRep = s.engRep := rfl
@[simp] theorem withMem_colIn (v : SMap Nat) : (s.withMem v).colIn = s.colIn := rfl
@[simp] theorem withMem_colDown (v : SMap Nat) : (s.withMem v).colDown = s.colDown := rfl
@[simp] theorem withMem_arbIn (v : SMap Nat) : (s.withMem v).arbIn = s.arbIn := rfl
@[simp] theorem withMem_mgmtUp (v : SMap Nat) : (s.withMem v).mgmtUp = s.mgmtUp := rfl
@[simp] theorem withMem_mgmtD3 (v : SMap Nat) : (s.withMem v).mgmtD3 = s.mgmtD3 := rfl
@[simp] theorem withMem_pci (v : SMap Nat) : (s.withMem v).pci = s.pci := rfl
@[simp] theorem withMem_msgPba (v : SMap Nat) : (s.withMem v).msgPba = s.msgPba := rfl
@[simp] theorem withMem_wqs (v : SMap Nat) : (s.withMem v).wqs = s.wqs := rfl
@[simp] theorem withMem_cqs (v : SMap Nat) : (s.withMem v).cqs = s.cqs := rfl
@[simp] theorem withMem_eqs (v : SMap Nat) : (s.withMem v).eqs = s.eqs := rfl
@[simp] theorem withMem_work (v : SMap Nat) : (s.withMem v).work = s.work := rfl
@[simp] theorem withMem_nextWork (v : SMap Nat) : (s.withMem v).nextWork = s.nextWork := rfl
@[simp] theorem withMem_reads (v : SMap Nat) : (s.withMem v).reads = s.reads := rfl
@[simp] theorem withMem_nextRead (v : SMap Nat) : (s.withMem v).nextRead = s.nextRead := rfl
@[simp] theorem withMem_fns (v : SMap Nat) : (s.withMem v).fns = s.fns := rfl
@[simp] theorem withMem_jobs (v : SMap Nat) : (s.withMem v).jobs = s.jobs := rfl
@[simp] theorem withMem_trn (v : SMap Nat) : (s.withMem v).trn = s.trn := rfl
@[simp] theorem withMem_xpt (v : SMap Nat) : (s.withMem v).xpt = s.xpt := rfl
@[simp] theorem withMem_mtc (v : SMap Nat) : (s.withMem v).mtc = s.mtc := rfl
@[simp] theorem withMem_trees (v : SMap Nat) : (s.withMem v).trees = s.trees := rfl
@[simp] theorem withMem_regs (v : SMap Nat) : (s.withMem v).regs = s.regs := rfl
@[simp] theorem withMem_cgc (v : SMap Nat) : (s.withMem v).cgc = s.cgc := rfl
@[simp] theorem withMem_lck (v : SMap Nat) : (s.withMem v).lck = s.lck := rfl
@[simp] theorem withMem_stk (v : SMap Nat) : (s.withMem v).stk = s.stk := rfl
@[simp] theorem withMem_arb (v : SMap Nat) : (s.withMem v).arb = s.arb := rfl
@[simp] theorem withMem_sec (v : SMap Nat) : (s.withMem v).sec = s.sec := rfl
@[simp] theorem withMem_flt (v : SMap Nat) : (s.withMem v).flt = s.flt := rfl
@[simp] theorem withMem_time (v : SMap Nat) : (s.withMem v).time = s.time := rfl
@[simp] theorem withMem_pmon (v : SMap Nat) : (s.withMem v).pmon = s.pmon := rfl
@[simp] theorem withMem_pwr (v : SMap Nat) : (s.withMem v).pwr = s.pwr := rfl
@[simp] theorem withMem_tap (v : SMap Nat) : (s.withMem v).tap = s.tap := rfl
@[simp] theorem withMem_opening (v : SMap Nat) : (s.withMem v).opening = s.opening := rfl
@[simp] theorem withMem_mem (v : SMap Nat) : (s.withMem v).mem = v := rfl
@[simp] theorem rd_withMem (v : SMap Nat) (g : FRef) : (s.withMem v).rd g = s.rd g := rfl

/-! Fields under `withLanes`. -/

@[simp] theorem withLanes_pending (v : SMap LaneSt) : (s.withLanes v).pending = s.pending := rfl
@[simp] theorem withLanes_flds (v : SMap LaneSt) : (s.withLanes v).flds = s.flds := rfl
@[simp] theorem withLanes_now (v : SMap LaneSt) : (s.withLanes v).now = s.now := rfl
@[simp] theorem withLanes_rng (v : SMap LaneSt) : (s.withLanes v).rng = s.rng := rfl
@[simp] theorem withLanes_out (v : SMap LaneSt) : (s.withLanes v).out = s.out := rfl
@[simp] theorem withLanes_mem (v : SMap LaneSt) : (s.withLanes v).mem = s.mem := rfl
@[simp] theorem withLanes_ports (v : SMap LaneSt) : (s.withLanes v).ports = s.ports := rfl
@[simp] theorem withLanes_buf (v : SMap LaneSt) : (s.withLanes v).buf = s.buf := rfl
@[simp] theorem withLanes_nextPid (v : SMap LaneSt) : (s.withLanes v).nextPid = s.nextPid := rfl
@[simp] theorem withLanes_oq (v : SMap LaneSt) : (s.withLanes v).oq = s.oq := rfl
@[simp] theorem withLanes_lin (v : SMap LaneSt) : (s.withLanes v).lin = s.lin := rfl
@[simp] theorem withLanes_guarUsed (v : SMap LaneSt) : (s.withLanes v).guarUsed = s.guarUsed := rfl
@[simp] theorem withLanes_pol (v : SMap LaneSt) : (s.withLanes v).pol = s.pol := rfl
@[simp] theorem withLanes_sched (v : SMap LaneSt) : (s.withLanes v).sched = s.sched := rfl
@[simp] theorem withLanes_swc (v : SMap LaneSt) : (s.withLanes v).swc = s.swc := rfl
@[simp] theorem withLanes_departures (v : SMap LaneSt) : (s.withLanes v).departures = s.departures := rfl
@[simp] theorem withLanes_copying (v : SMap LaneSt) : (s.withLanes v).copying = s.copying := rfl
@[simp] theorem withLanes_sinceSwap (v : SMap LaneSt) : (s.withLanes v).sinceSwap = s.sinceSwap := rfl
@[simp] theorem withLanes_digests (v : SMap LaneSt) : (s.withLanes v).digests = s.digests := rfl
@[simp] theorem withLanes_digestAt (v : SMap LaneSt) : (s.withLanes v).digestAt = s.digestAt := rfl
@[simp] theorem withLanes_engReq (v : SMap LaneSt) : (s.withLanes v).engReq = s.engReq := rfl
@[simp] theorem withLanes_engFwd (v : SMap LaneSt) : (s.withLanes v).engFwd = s.engFwd := rfl
@[simp] theorem withLanes_engRep (v : SMap LaneSt) : (s.withLanes v).engRep = s.engRep := rfl
@[simp] theorem withLanes_colIn (v : SMap LaneSt) : (s.withLanes v).colIn = s.colIn := rfl
@[simp] theorem withLanes_colDown (v : SMap LaneSt) : (s.withLanes v).colDown = s.colDown := rfl
@[simp] theorem withLanes_arbIn (v : SMap LaneSt) : (s.withLanes v).arbIn = s.arbIn := rfl
@[simp] theorem withLanes_mgmtUp (v : SMap LaneSt) : (s.withLanes v).mgmtUp = s.mgmtUp := rfl
@[simp] theorem withLanes_mgmtD3 (v : SMap LaneSt) : (s.withLanes v).mgmtD3 = s.mgmtD3 := rfl
@[simp] theorem withLanes_pci (v : SMap LaneSt) : (s.withLanes v).pci = s.pci := rfl
@[simp] theorem withLanes_msgPba (v : SMap LaneSt) : (s.withLanes v).msgPba = s.msgPba := rfl
@[simp] theorem withLanes_wqs (v : SMap LaneSt) : (s.withLanes v).wqs = s.wqs := rfl
@[simp] theorem withLanes_cqs (v : SMap LaneSt) : (s.withLanes v).cqs = s.cqs := rfl
@[simp] theorem withLanes_eqs (v : SMap LaneSt) : (s.withLanes v).eqs = s.eqs := rfl
@[simp] theorem withLanes_work (v : SMap LaneSt) : (s.withLanes v).work = s.work := rfl
@[simp] theorem withLanes_nextWork (v : SMap LaneSt) : (s.withLanes v).nextWork = s.nextWork := rfl
@[simp] theorem withLanes_reads (v : SMap LaneSt) : (s.withLanes v).reads = s.reads := rfl
@[simp] theorem withLanes_nextRead (v : SMap LaneSt) : (s.withLanes v).nextRead = s.nextRead := rfl
@[simp] theorem withLanes_fns (v : SMap LaneSt) : (s.withLanes v).fns = s.fns := rfl
@[simp] theorem withLanes_jobs (v : SMap LaneSt) : (s.withLanes v).jobs = s.jobs := rfl
@[simp] theorem withLanes_trn (v : SMap LaneSt) : (s.withLanes v).trn = s.trn := rfl
@[simp] theorem withLanes_xpt (v : SMap LaneSt) : (s.withLanes v).xpt = s.xpt := rfl
@[simp] theorem withLanes_mtc (v : SMap LaneSt) : (s.withLanes v).mtc = s.mtc := rfl
@[simp] theorem withLanes_trees (v : SMap LaneSt) : (s.withLanes v).trees = s.trees := rfl
@[simp] theorem withLanes_regs (v : SMap LaneSt) : (s.withLanes v).regs = s.regs := rfl
@[simp] theorem withLanes_cgc (v : SMap LaneSt) : (s.withLanes v).cgc = s.cgc := rfl
@[simp] theorem withLanes_lck (v : SMap LaneSt) : (s.withLanes v).lck = s.lck := rfl
@[simp] theorem withLanes_stk (v : SMap LaneSt) : (s.withLanes v).stk = s.stk := rfl
@[simp] theorem withLanes_arb (v : SMap LaneSt) : (s.withLanes v).arb = s.arb := rfl
@[simp] theorem withLanes_sec (v : SMap LaneSt) : (s.withLanes v).sec = s.sec := rfl
@[simp] theorem withLanes_flt (v : SMap LaneSt) : (s.withLanes v).flt = s.flt := rfl
@[simp] theorem withLanes_time (v : SMap LaneSt) : (s.withLanes v).time = s.time := rfl
@[simp] theorem withLanes_pmon (v : SMap LaneSt) : (s.withLanes v).pmon = s.pmon := rfl
@[simp] theorem withLanes_pwr (v : SMap LaneSt) : (s.withLanes v).pwr = s.pwr := rfl
@[simp] theorem withLanes_tap (v : SMap LaneSt) : (s.withLanes v).tap = s.tap := rfl
@[simp] theorem withLanes_opening (v : SMap LaneSt) : (s.withLanes v).opening = s.opening := rfl
@[simp] theorem withLanes_lanes (v : SMap LaneSt) : (s.withLanes v).lanes = v := rfl
@[simp] theorem rd_withLanes (v : SMap LaneSt) (g : FRef) : (s.withLanes v).rd g = s.rd g := rfl

/-! Fields under `withPorts`. -/

@[simp] theorem withPorts_pending (v : SMap PortSt) : (s.withPorts v).pending = s.pending := rfl
@[simp] theorem withPorts_flds (v : SMap PortSt) : (s.withPorts v).flds = s.flds := rfl
@[simp] theorem withPorts_now (v : SMap PortSt) : (s.withPorts v).now = s.now := rfl
@[simp] theorem withPorts_rng (v : SMap PortSt) : (s.withPorts v).rng = s.rng := rfl
@[simp] theorem withPorts_out (v : SMap PortSt) : (s.withPorts v).out = s.out := rfl
@[simp] theorem withPorts_mem (v : SMap PortSt) : (s.withPorts v).mem = s.mem := rfl
@[simp] theorem withPorts_lanes (v : SMap PortSt) : (s.withPorts v).lanes = s.lanes := rfl
@[simp] theorem withPorts_buf (v : SMap PortSt) : (s.withPorts v).buf = s.buf := rfl
@[simp] theorem withPorts_nextPid (v : SMap PortSt) : (s.withPorts v).nextPid = s.nextPid := rfl
@[simp] theorem withPorts_oq (v : SMap PortSt) : (s.withPorts v).oq = s.oq := rfl
@[simp] theorem withPorts_lin (v : SMap PortSt) : (s.withPorts v).lin = s.lin := rfl
@[simp] theorem withPorts_guarUsed (v : SMap PortSt) : (s.withPorts v).guarUsed = s.guarUsed := rfl
@[simp] theorem withPorts_pol (v : SMap PortSt) : (s.withPorts v).pol = s.pol := rfl
@[simp] theorem withPorts_sched (v : SMap PortSt) : (s.withPorts v).sched = s.sched := rfl
@[simp] theorem withPorts_swc (v : SMap PortSt) : (s.withPorts v).swc = s.swc := rfl
@[simp] theorem withPorts_departures (v : SMap PortSt) : (s.withPorts v).departures = s.departures := rfl
@[simp] theorem withPorts_copying (v : SMap PortSt) : (s.withPorts v).copying = s.copying := rfl
@[simp] theorem withPorts_sinceSwap (v : SMap PortSt) : (s.withPorts v).sinceSwap = s.sinceSwap := rfl
@[simp] theorem withPorts_digests (v : SMap PortSt) : (s.withPorts v).digests = s.digests := rfl
@[simp] theorem withPorts_digestAt (v : SMap PortSt) : (s.withPorts v).digestAt = s.digestAt := rfl
@[simp] theorem withPorts_engReq (v : SMap PortSt) : (s.withPorts v).engReq = s.engReq := rfl
@[simp] theorem withPorts_engFwd (v : SMap PortSt) : (s.withPorts v).engFwd = s.engFwd := rfl
@[simp] theorem withPorts_engRep (v : SMap PortSt) : (s.withPorts v).engRep = s.engRep := rfl
@[simp] theorem withPorts_colIn (v : SMap PortSt) : (s.withPorts v).colIn = s.colIn := rfl
@[simp] theorem withPorts_colDown (v : SMap PortSt) : (s.withPorts v).colDown = s.colDown := rfl
@[simp] theorem withPorts_arbIn (v : SMap PortSt) : (s.withPorts v).arbIn = s.arbIn := rfl
@[simp] theorem withPorts_mgmtUp (v : SMap PortSt) : (s.withPorts v).mgmtUp = s.mgmtUp := rfl
@[simp] theorem withPorts_mgmtD3 (v : SMap PortSt) : (s.withPorts v).mgmtD3 = s.mgmtD3 := rfl
@[simp] theorem withPorts_pci (v : SMap PortSt) : (s.withPorts v).pci = s.pci := rfl
@[simp] theorem withPorts_msgPba (v : SMap PortSt) : (s.withPorts v).msgPba = s.msgPba := rfl
@[simp] theorem withPorts_wqs (v : SMap PortSt) : (s.withPorts v).wqs = s.wqs := rfl
@[simp] theorem withPorts_cqs (v : SMap PortSt) : (s.withPorts v).cqs = s.cqs := rfl
@[simp] theorem withPorts_eqs (v : SMap PortSt) : (s.withPorts v).eqs = s.eqs := rfl
@[simp] theorem withPorts_work (v : SMap PortSt) : (s.withPorts v).work = s.work := rfl
@[simp] theorem withPorts_nextWork (v : SMap PortSt) : (s.withPorts v).nextWork = s.nextWork := rfl
@[simp] theorem withPorts_reads (v : SMap PortSt) : (s.withPorts v).reads = s.reads := rfl
@[simp] theorem withPorts_nextRead (v : SMap PortSt) : (s.withPorts v).nextRead = s.nextRead := rfl
@[simp] theorem withPorts_fns (v : SMap PortSt) : (s.withPorts v).fns = s.fns := rfl
@[simp] theorem withPorts_jobs (v : SMap PortSt) : (s.withPorts v).jobs = s.jobs := rfl
@[simp] theorem withPorts_trn (v : SMap PortSt) : (s.withPorts v).trn = s.trn := rfl
@[simp] theorem withPorts_xpt (v : SMap PortSt) : (s.withPorts v).xpt = s.xpt := rfl
@[simp] theorem withPorts_mtc (v : SMap PortSt) : (s.withPorts v).mtc = s.mtc := rfl
@[simp] theorem withPorts_trees (v : SMap PortSt) : (s.withPorts v).trees = s.trees := rfl
@[simp] theorem withPorts_regs (v : SMap PortSt) : (s.withPorts v).regs = s.regs := rfl
@[simp] theorem withPorts_cgc (v : SMap PortSt) : (s.withPorts v).cgc = s.cgc := rfl
@[simp] theorem withPorts_lck (v : SMap PortSt) : (s.withPorts v).lck = s.lck := rfl
@[simp] theorem withPorts_stk (v : SMap PortSt) : (s.withPorts v).stk = s.stk := rfl
@[simp] theorem withPorts_arb (v : SMap PortSt) : (s.withPorts v).arb = s.arb := rfl
@[simp] theorem withPorts_sec (v : SMap PortSt) : (s.withPorts v).sec = s.sec := rfl
@[simp] theorem withPorts_flt (v : SMap PortSt) : (s.withPorts v).flt = s.flt := rfl
@[simp] theorem withPorts_time (v : SMap PortSt) : (s.withPorts v).time = s.time := rfl
@[simp] theorem withPorts_pmon (v : SMap PortSt) : (s.withPorts v).pmon = s.pmon := rfl
@[simp] theorem withPorts_pwr (v : SMap PortSt) : (s.withPorts v).pwr = s.pwr := rfl
@[simp] theorem withPorts_tap (v : SMap PortSt) : (s.withPorts v).tap = s.tap := rfl
@[simp] theorem withPorts_opening (v : SMap PortSt) : (s.withPorts v).opening = s.opening := rfl
@[simp] theorem withPorts_ports (v : SMap PortSt) : (s.withPorts v).ports = v := rfl
@[simp] theorem rd_withPorts (v : SMap PortSt) (g : FRef) : (s.withPorts v).rd g = s.rd g := rfl

/-! Fields under `withBuf`. -/

@[simp] theorem withBuf_pending (v : SMap (Option BufPkt)) : (s.withBuf v).pending = s.pending := rfl
@[simp] theorem withBuf_flds (v : SMap (Option BufPkt)) : (s.withBuf v).flds = s.flds := rfl
@[simp] theorem withBuf_now (v : SMap (Option BufPkt)) : (s.withBuf v).now = s.now := rfl
@[simp] theorem withBuf_rng (v : SMap (Option BufPkt)) : (s.withBuf v).rng = s.rng := rfl
@[simp] theorem withBuf_out (v : SMap (Option BufPkt)) : (s.withBuf v).out = s.out := rfl
@[simp] theorem withBuf_mem (v : SMap (Option BufPkt)) : (s.withBuf v).mem = s.mem := rfl
@[simp] theorem withBuf_lanes (v : SMap (Option BufPkt)) : (s.withBuf v).lanes = s.lanes := rfl
@[simp] theorem withBuf_ports (v : SMap (Option BufPkt)) : (s.withBuf v).ports = s.ports := rfl
@[simp] theorem withBuf_nextPid (v : SMap (Option BufPkt)) : (s.withBuf v).nextPid = s.nextPid := rfl
@[simp] theorem withBuf_oq (v : SMap (Option BufPkt)) : (s.withBuf v).oq = s.oq := rfl
@[simp] theorem withBuf_lin (v : SMap (Option BufPkt)) : (s.withBuf v).lin = s.lin := rfl
@[simp] theorem withBuf_guarUsed (v : SMap (Option BufPkt)) : (s.withBuf v).guarUsed = s.guarUsed := rfl
@[simp] theorem withBuf_pol (v : SMap (Option BufPkt)) : (s.withBuf v).pol = s.pol := rfl
@[simp] theorem withBuf_sched (v : SMap (Option BufPkt)) : (s.withBuf v).sched = s.sched := rfl
@[simp] theorem withBuf_swc (v : SMap (Option BufPkt)) : (s.withBuf v).swc = s.swc := rfl
@[simp] theorem withBuf_departures (v : SMap (Option BufPkt)) : (s.withBuf v).departures = s.departures := rfl
@[simp] theorem withBuf_copying (v : SMap (Option BufPkt)) : (s.withBuf v).copying = s.copying := rfl
@[simp] theorem withBuf_sinceSwap (v : SMap (Option BufPkt)) : (s.withBuf v).sinceSwap = s.sinceSwap := rfl
@[simp] theorem withBuf_digests (v : SMap (Option BufPkt)) : (s.withBuf v).digests = s.digests := rfl
@[simp] theorem withBuf_digestAt (v : SMap (Option BufPkt)) : (s.withBuf v).digestAt = s.digestAt := rfl
@[simp] theorem withBuf_engReq (v : SMap (Option BufPkt)) : (s.withBuf v).engReq = s.engReq := rfl
@[simp] theorem withBuf_engFwd (v : SMap (Option BufPkt)) : (s.withBuf v).engFwd = s.engFwd := rfl
@[simp] theorem withBuf_engRep (v : SMap (Option BufPkt)) : (s.withBuf v).engRep = s.engRep := rfl
@[simp] theorem withBuf_colIn (v : SMap (Option BufPkt)) : (s.withBuf v).colIn = s.colIn := rfl
@[simp] theorem withBuf_colDown (v : SMap (Option BufPkt)) : (s.withBuf v).colDown = s.colDown := rfl
@[simp] theorem withBuf_arbIn (v : SMap (Option BufPkt)) : (s.withBuf v).arbIn = s.arbIn := rfl
@[simp] theorem withBuf_mgmtUp (v : SMap (Option BufPkt)) : (s.withBuf v).mgmtUp = s.mgmtUp := rfl
@[simp] theorem withBuf_mgmtD3 (v : SMap (Option BufPkt)) : (s.withBuf v).mgmtD3 = s.mgmtD3 := rfl
@[simp] theorem withBuf_pci (v : SMap (Option BufPkt)) : (s.withBuf v).pci = s.pci := rfl
@[simp] theorem withBuf_msgPba (v : SMap (Option BufPkt)) : (s.withBuf v).msgPba = s.msgPba := rfl
@[simp] theorem withBuf_wqs (v : SMap (Option BufPkt)) : (s.withBuf v).wqs = s.wqs := rfl
@[simp] theorem withBuf_cqs (v : SMap (Option BufPkt)) : (s.withBuf v).cqs = s.cqs := rfl
@[simp] theorem withBuf_eqs (v : SMap (Option BufPkt)) : (s.withBuf v).eqs = s.eqs := rfl
@[simp] theorem withBuf_work (v : SMap (Option BufPkt)) : (s.withBuf v).work = s.work := rfl
@[simp] theorem withBuf_nextWork (v : SMap (Option BufPkt)) : (s.withBuf v).nextWork = s.nextWork := rfl
@[simp] theorem withBuf_reads (v : SMap (Option BufPkt)) : (s.withBuf v).reads = s.reads := rfl
@[simp] theorem withBuf_nextRead (v : SMap (Option BufPkt)) : (s.withBuf v).nextRead = s.nextRead := rfl
@[simp] theorem withBuf_fns (v : SMap (Option BufPkt)) : (s.withBuf v).fns = s.fns := rfl
@[simp] theorem withBuf_jobs (v : SMap (Option BufPkt)) : (s.withBuf v).jobs = s.jobs := rfl
@[simp] theorem withBuf_trn (v : SMap (Option BufPkt)) : (s.withBuf v).trn = s.trn := rfl
@[simp] theorem withBuf_xpt (v : SMap (Option BufPkt)) : (s.withBuf v).xpt = s.xpt := rfl
@[simp] theorem withBuf_mtc (v : SMap (Option BufPkt)) : (s.withBuf v).mtc = s.mtc := rfl
@[simp] theorem withBuf_trees (v : SMap (Option BufPkt)) : (s.withBuf v).trees = s.trees := rfl
@[simp] theorem withBuf_regs (v : SMap (Option BufPkt)) : (s.withBuf v).regs = s.regs := rfl
@[simp] theorem withBuf_cgc (v : SMap (Option BufPkt)) : (s.withBuf v).cgc = s.cgc := rfl
@[simp] theorem withBuf_lck (v : SMap (Option BufPkt)) : (s.withBuf v).lck = s.lck := rfl
@[simp] theorem withBuf_stk (v : SMap (Option BufPkt)) : (s.withBuf v).stk = s.stk := rfl
@[simp] theorem withBuf_arb (v : SMap (Option BufPkt)) : (s.withBuf v).arb = s.arb := rfl
@[simp] theorem withBuf_sec (v : SMap (Option BufPkt)) : (s.withBuf v).sec = s.sec := rfl
@[simp] theorem withBuf_flt (v : SMap (Option BufPkt)) : (s.withBuf v).flt = s.flt := rfl
@[simp] theorem withBuf_time (v : SMap (Option BufPkt)) : (s.withBuf v).time = s.time := rfl
@[simp] theorem withBuf_pmon (v : SMap (Option BufPkt)) : (s.withBuf v).pmon = s.pmon := rfl
@[simp] theorem withBuf_pwr (v : SMap (Option BufPkt)) : (s.withBuf v).pwr = s.pwr := rfl
@[simp] theorem withBuf_tap (v : SMap (Option BufPkt)) : (s.withBuf v).tap = s.tap := rfl
@[simp] theorem withBuf_opening (v : SMap (Option BufPkt)) : (s.withBuf v).opening = s.opening := rfl
@[simp] theorem withBuf_buf (v : SMap (Option BufPkt)) : (s.withBuf v).buf = v := rfl
@[simp] theorem rd_withBuf (v : SMap (Option BufPkt)) (g : FRef) : (s.withBuf v).rd g = s.rd g := rfl

/-! Fields under `withNextPid`. -/

@[simp] theorem withNextPid_pending (v : Nat) : (s.withNextPid v).pending = s.pending := rfl
@[simp] theorem withNextPid_flds (v : Nat) : (s.withNextPid v).flds = s.flds := rfl
@[simp] theorem withNextPid_now (v : Nat) : (s.withNextPid v).now = s.now := rfl
@[simp] theorem withNextPid_rng (v : Nat) : (s.withNextPid v).rng = s.rng := rfl
@[simp] theorem withNextPid_out (v : Nat) : (s.withNextPid v).out = s.out := rfl
@[simp] theorem withNextPid_mem (v : Nat) : (s.withNextPid v).mem = s.mem := rfl
@[simp] theorem withNextPid_lanes (v : Nat) : (s.withNextPid v).lanes = s.lanes := rfl
@[simp] theorem withNextPid_ports (v : Nat) : (s.withNextPid v).ports = s.ports := rfl
@[simp] theorem withNextPid_buf (v : Nat) : (s.withNextPid v).buf = s.buf := rfl
@[simp] theorem withNextPid_oq (v : Nat) : (s.withNextPid v).oq = s.oq := rfl
@[simp] theorem withNextPid_lin (v : Nat) : (s.withNextPid v).lin = s.lin := rfl
@[simp] theorem withNextPid_guarUsed (v : Nat) : (s.withNextPid v).guarUsed = s.guarUsed := rfl
@[simp] theorem withNextPid_pol (v : Nat) : (s.withNextPid v).pol = s.pol := rfl
@[simp] theorem withNextPid_sched (v : Nat) : (s.withNextPid v).sched = s.sched := rfl
@[simp] theorem withNextPid_swc (v : Nat) : (s.withNextPid v).swc = s.swc := rfl
@[simp] theorem withNextPid_departures (v : Nat) : (s.withNextPid v).departures = s.departures := rfl
@[simp] theorem withNextPid_copying (v : Nat) : (s.withNextPid v).copying = s.copying := rfl
@[simp] theorem withNextPid_sinceSwap (v : Nat) : (s.withNextPid v).sinceSwap = s.sinceSwap := rfl
@[simp] theorem withNextPid_digests (v : Nat) : (s.withNextPid v).digests = s.digests := rfl
@[simp] theorem withNextPid_digestAt (v : Nat) : (s.withNextPid v).digestAt = s.digestAt := rfl
@[simp] theorem withNextPid_engReq (v : Nat) : (s.withNextPid v).engReq = s.engReq := rfl
@[simp] theorem withNextPid_engFwd (v : Nat) : (s.withNextPid v).engFwd = s.engFwd := rfl
@[simp] theorem withNextPid_engRep (v : Nat) : (s.withNextPid v).engRep = s.engRep := rfl
@[simp] theorem withNextPid_colIn (v : Nat) : (s.withNextPid v).colIn = s.colIn := rfl
@[simp] theorem withNextPid_colDown (v : Nat) : (s.withNextPid v).colDown = s.colDown := rfl
@[simp] theorem withNextPid_arbIn (v : Nat) : (s.withNextPid v).arbIn = s.arbIn := rfl
@[simp] theorem withNextPid_mgmtUp (v : Nat) : (s.withNextPid v).mgmtUp = s.mgmtUp := rfl
@[simp] theorem withNextPid_mgmtD3 (v : Nat) : (s.withNextPid v).mgmtD3 = s.mgmtD3 := rfl
@[simp] theorem withNextPid_pci (v : Nat) : (s.withNextPid v).pci = s.pci := rfl
@[simp] theorem withNextPid_msgPba (v : Nat) : (s.withNextPid v).msgPba = s.msgPba := rfl
@[simp] theorem withNextPid_wqs (v : Nat) : (s.withNextPid v).wqs = s.wqs := rfl
@[simp] theorem withNextPid_cqs (v : Nat) : (s.withNextPid v).cqs = s.cqs := rfl
@[simp] theorem withNextPid_eqs (v : Nat) : (s.withNextPid v).eqs = s.eqs := rfl
@[simp] theorem withNextPid_work (v : Nat) : (s.withNextPid v).work = s.work := rfl
@[simp] theorem withNextPid_nextWork (v : Nat) : (s.withNextPid v).nextWork = s.nextWork := rfl
@[simp] theorem withNextPid_reads (v : Nat) : (s.withNextPid v).reads = s.reads := rfl
@[simp] theorem withNextPid_nextRead (v : Nat) : (s.withNextPid v).nextRead = s.nextRead := rfl
@[simp] theorem withNextPid_fns (v : Nat) : (s.withNextPid v).fns = s.fns := rfl
@[simp] theorem withNextPid_jobs (v : Nat) : (s.withNextPid v).jobs = s.jobs := rfl
@[simp] theorem withNextPid_trn (v : Nat) : (s.withNextPid v).trn = s.trn := rfl
@[simp] theorem withNextPid_xpt (v : Nat) : (s.withNextPid v).xpt = s.xpt := rfl
@[simp] theorem withNextPid_mtc (v : Nat) : (s.withNextPid v).mtc = s.mtc := rfl
@[simp] theorem withNextPid_trees (v : Nat) : (s.withNextPid v).trees = s.trees := rfl
@[simp] theorem withNextPid_regs (v : Nat) : (s.withNextPid v).regs = s.regs := rfl
@[simp] theorem withNextPid_cgc (v : Nat) : (s.withNextPid v).cgc = s.cgc := rfl
@[simp] theorem withNextPid_lck (v : Nat) : (s.withNextPid v).lck = s.lck := rfl
@[simp] theorem withNextPid_stk (v : Nat) : (s.withNextPid v).stk = s.stk := rfl
@[simp] theorem withNextPid_arb (v : Nat) : (s.withNextPid v).arb = s.arb := rfl
@[simp] theorem withNextPid_sec (v : Nat) : (s.withNextPid v).sec = s.sec := rfl
@[simp] theorem withNextPid_flt (v : Nat) : (s.withNextPid v).flt = s.flt := rfl
@[simp] theorem withNextPid_time (v : Nat) : (s.withNextPid v).time = s.time := rfl
@[simp] theorem withNextPid_pmon (v : Nat) : (s.withNextPid v).pmon = s.pmon := rfl
@[simp] theorem withNextPid_pwr (v : Nat) : (s.withNextPid v).pwr = s.pwr := rfl
@[simp] theorem withNextPid_tap (v : Nat) : (s.withNextPid v).tap = s.tap := rfl
@[simp] theorem withNextPid_opening (v : Nat) : (s.withNextPid v).opening = s.opening := rfl
@[simp] theorem withNextPid_nextPid (v : Nat) : (s.withNextPid v).nextPid = v := rfl
@[simp] theorem rd_withNextPid (v : Nat) (g : FRef) : (s.withNextPid v).rd g = s.rd g := rfl

/-! Fields under `withOq`. -/

@[simp] theorem withOq_pending (v : SMap (List QEntry)) : (s.withOq v).pending = s.pending := rfl
@[simp] theorem withOq_flds (v : SMap (List QEntry)) : (s.withOq v).flds = s.flds := rfl
@[simp] theorem withOq_now (v : SMap (List QEntry)) : (s.withOq v).now = s.now := rfl
@[simp] theorem withOq_rng (v : SMap (List QEntry)) : (s.withOq v).rng = s.rng := rfl
@[simp] theorem withOq_out (v : SMap (List QEntry)) : (s.withOq v).out = s.out := rfl
@[simp] theorem withOq_mem (v : SMap (List QEntry)) : (s.withOq v).mem = s.mem := rfl
@[simp] theorem withOq_lanes (v : SMap (List QEntry)) : (s.withOq v).lanes = s.lanes := rfl
@[simp] theorem withOq_ports (v : SMap (List QEntry)) : (s.withOq v).ports = s.ports := rfl
@[simp] theorem withOq_buf (v : SMap (List QEntry)) : (s.withOq v).buf = s.buf := rfl
@[simp] theorem withOq_nextPid (v : SMap (List QEntry)) : (s.withOq v).nextPid = s.nextPid := rfl
@[simp] theorem withOq_lin (v : SMap (List QEntry)) : (s.withOq v).lin = s.lin := rfl
@[simp] theorem withOq_guarUsed (v : SMap (List QEntry)) : (s.withOq v).guarUsed = s.guarUsed := rfl
@[simp] theorem withOq_pol (v : SMap (List QEntry)) : (s.withOq v).pol = s.pol := rfl
@[simp] theorem withOq_sched (v : SMap (List QEntry)) : (s.withOq v).sched = s.sched := rfl
@[simp] theorem withOq_swc (v : SMap (List QEntry)) : (s.withOq v).swc = s.swc := rfl
@[simp] theorem withOq_departures (v : SMap (List QEntry)) : (s.withOq v).departures = s.departures := rfl
@[simp] theorem withOq_copying (v : SMap (List QEntry)) : (s.withOq v).copying = s.copying := rfl
@[simp] theorem withOq_sinceSwap (v : SMap (List QEntry)) : (s.withOq v).sinceSwap = s.sinceSwap := rfl
@[simp] theorem withOq_digests (v : SMap (List QEntry)) : (s.withOq v).digests = s.digests := rfl
@[simp] theorem withOq_digestAt (v : SMap (List QEntry)) : (s.withOq v).digestAt = s.digestAt := rfl
@[simp] theorem withOq_engReq (v : SMap (List QEntry)) : (s.withOq v).engReq = s.engReq := rfl
@[simp] theorem withOq_engFwd (v : SMap (List QEntry)) : (s.withOq v).engFwd = s.engFwd := rfl
@[simp] theorem withOq_engRep (v : SMap (List QEntry)) : (s.withOq v).engRep = s.engRep := rfl
@[simp] theorem withOq_colIn (v : SMap (List QEntry)) : (s.withOq v).colIn = s.colIn := rfl
@[simp] theorem withOq_colDown (v : SMap (List QEntry)) : (s.withOq v).colDown = s.colDown := rfl
@[simp] theorem withOq_arbIn (v : SMap (List QEntry)) : (s.withOq v).arbIn = s.arbIn := rfl
@[simp] theorem withOq_mgmtUp (v : SMap (List QEntry)) : (s.withOq v).mgmtUp = s.mgmtUp := rfl
@[simp] theorem withOq_mgmtD3 (v : SMap (List QEntry)) : (s.withOq v).mgmtD3 = s.mgmtD3 := rfl
@[simp] theorem withOq_pci (v : SMap (List QEntry)) : (s.withOq v).pci = s.pci := rfl
@[simp] theorem withOq_msgPba (v : SMap (List QEntry)) : (s.withOq v).msgPba = s.msgPba := rfl
@[simp] theorem withOq_wqs (v : SMap (List QEntry)) : (s.withOq v).wqs = s.wqs := rfl
@[simp] theorem withOq_cqs (v : SMap (List QEntry)) : (s.withOq v).cqs = s.cqs := rfl
@[simp] theorem withOq_eqs (v : SMap (List QEntry)) : (s.withOq v).eqs = s.eqs := rfl
@[simp] theorem withOq_work (v : SMap (List QEntry)) : (s.withOq v).work = s.work := rfl
@[simp] theorem withOq_nextWork (v : SMap (List QEntry)) : (s.withOq v).nextWork = s.nextWork := rfl
@[simp] theorem withOq_reads (v : SMap (List QEntry)) : (s.withOq v).reads = s.reads := rfl
@[simp] theorem withOq_nextRead (v : SMap (List QEntry)) : (s.withOq v).nextRead = s.nextRead := rfl
@[simp] theorem withOq_fns (v : SMap (List QEntry)) : (s.withOq v).fns = s.fns := rfl
@[simp] theorem withOq_jobs (v : SMap (List QEntry)) : (s.withOq v).jobs = s.jobs := rfl
@[simp] theorem withOq_trn (v : SMap (List QEntry)) : (s.withOq v).trn = s.trn := rfl
@[simp] theorem withOq_xpt (v : SMap (List QEntry)) : (s.withOq v).xpt = s.xpt := rfl
@[simp] theorem withOq_mtc (v : SMap (List QEntry)) : (s.withOq v).mtc = s.mtc := rfl
@[simp] theorem withOq_trees (v : SMap (List QEntry)) : (s.withOq v).trees = s.trees := rfl
@[simp] theorem withOq_regs (v : SMap (List QEntry)) : (s.withOq v).regs = s.regs := rfl
@[simp] theorem withOq_cgc (v : SMap (List QEntry)) : (s.withOq v).cgc = s.cgc := rfl
@[simp] theorem withOq_lck (v : SMap (List QEntry)) : (s.withOq v).lck = s.lck := rfl
@[simp] theorem withOq_stk (v : SMap (List QEntry)) : (s.withOq v).stk = s.stk := rfl
@[simp] theorem withOq_arb (v : SMap (List QEntry)) : (s.withOq v).arb = s.arb := rfl
@[simp] theorem withOq_sec (v : SMap (List QEntry)) : (s.withOq v).sec = s.sec := rfl
@[simp] theorem withOq_flt (v : SMap (List QEntry)) : (s.withOq v).flt = s.flt := rfl
@[simp] theorem withOq_time (v : SMap (List QEntry)) : (s.withOq v).time = s.time := rfl
@[simp] theorem withOq_pmon (v : SMap (List QEntry)) : (s.withOq v).pmon = s.pmon := rfl
@[simp] theorem withOq_pwr (v : SMap (List QEntry)) : (s.withOq v).pwr = s.pwr := rfl
@[simp] theorem withOq_tap (v : SMap (List QEntry)) : (s.withOq v).tap = s.tap := rfl
@[simp] theorem withOq_opening (v : SMap (List QEntry)) : (s.withOq v).opening = s.opening := rfl
@[simp] theorem withOq_oq (v : SMap (List QEntry)) : (s.withOq v).oq = v := rfl
@[simp] theorem rd_withOq (v : SMap (List QEntry)) (g : FRef) : (s.withOq v).rd g = s.rd g := rfl

/-! Fields under `withLin`. -/

@[simp] theorem withLin_pending (v : SMap (List LocalPkt)) : (s.withLin v).pending = s.pending := rfl
@[simp] theorem withLin_flds (v : SMap (List LocalPkt)) : (s.withLin v).flds = s.flds := rfl
@[simp] theorem withLin_now (v : SMap (List LocalPkt)) : (s.withLin v).now = s.now := rfl
@[simp] theorem withLin_rng (v : SMap (List LocalPkt)) : (s.withLin v).rng = s.rng := rfl
@[simp] theorem withLin_out (v : SMap (List LocalPkt)) : (s.withLin v).out = s.out := rfl
@[simp] theorem withLin_mem (v : SMap (List LocalPkt)) : (s.withLin v).mem = s.mem := rfl
@[simp] theorem withLin_lanes (v : SMap (List LocalPkt)) : (s.withLin v).lanes = s.lanes := rfl
@[simp] theorem withLin_ports (v : SMap (List LocalPkt)) : (s.withLin v).ports = s.ports := rfl
@[simp] theorem withLin_buf (v : SMap (List LocalPkt)) : (s.withLin v).buf = s.buf := rfl
@[simp] theorem withLin_nextPid (v : SMap (List LocalPkt)) : (s.withLin v).nextPid = s.nextPid := rfl
@[simp] theorem withLin_oq (v : SMap (List LocalPkt)) : (s.withLin v).oq = s.oq := rfl
@[simp] theorem withLin_guarUsed (v : SMap (List LocalPkt)) : (s.withLin v).guarUsed = s.guarUsed := rfl
@[simp] theorem withLin_pol (v : SMap (List LocalPkt)) : (s.withLin v).pol = s.pol := rfl
@[simp] theorem withLin_sched (v : SMap (List LocalPkt)) : (s.withLin v).sched = s.sched := rfl
@[simp] theorem withLin_swc (v : SMap (List LocalPkt)) : (s.withLin v).swc = s.swc := rfl
@[simp] theorem withLin_departures (v : SMap (List LocalPkt)) : (s.withLin v).departures = s.departures := rfl
@[simp] theorem withLin_copying (v : SMap (List LocalPkt)) : (s.withLin v).copying = s.copying := rfl
@[simp] theorem withLin_sinceSwap (v : SMap (List LocalPkt)) : (s.withLin v).sinceSwap = s.sinceSwap := rfl
@[simp] theorem withLin_digests (v : SMap (List LocalPkt)) : (s.withLin v).digests = s.digests := rfl
@[simp] theorem withLin_digestAt (v : SMap (List LocalPkt)) : (s.withLin v).digestAt = s.digestAt := rfl
@[simp] theorem withLin_engReq (v : SMap (List LocalPkt)) : (s.withLin v).engReq = s.engReq := rfl
@[simp] theorem withLin_engFwd (v : SMap (List LocalPkt)) : (s.withLin v).engFwd = s.engFwd := rfl
@[simp] theorem withLin_engRep (v : SMap (List LocalPkt)) : (s.withLin v).engRep = s.engRep := rfl
@[simp] theorem withLin_colIn (v : SMap (List LocalPkt)) : (s.withLin v).colIn = s.colIn := rfl
@[simp] theorem withLin_colDown (v : SMap (List LocalPkt)) : (s.withLin v).colDown = s.colDown := rfl
@[simp] theorem withLin_arbIn (v : SMap (List LocalPkt)) : (s.withLin v).arbIn = s.arbIn := rfl
@[simp] theorem withLin_mgmtUp (v : SMap (List LocalPkt)) : (s.withLin v).mgmtUp = s.mgmtUp := rfl
@[simp] theorem withLin_mgmtD3 (v : SMap (List LocalPkt)) : (s.withLin v).mgmtD3 = s.mgmtD3 := rfl
@[simp] theorem withLin_pci (v : SMap (List LocalPkt)) : (s.withLin v).pci = s.pci := rfl
@[simp] theorem withLin_msgPba (v : SMap (List LocalPkt)) : (s.withLin v).msgPba = s.msgPba := rfl
@[simp] theorem withLin_wqs (v : SMap (List LocalPkt)) : (s.withLin v).wqs = s.wqs := rfl
@[simp] theorem withLin_cqs (v : SMap (List LocalPkt)) : (s.withLin v).cqs = s.cqs := rfl
@[simp] theorem withLin_eqs (v : SMap (List LocalPkt)) : (s.withLin v).eqs = s.eqs := rfl
@[simp] theorem withLin_work (v : SMap (List LocalPkt)) : (s.withLin v).work = s.work := rfl
@[simp] theorem withLin_nextWork (v : SMap (List LocalPkt)) : (s.withLin v).nextWork = s.nextWork := rfl
@[simp] theorem withLin_reads (v : SMap (List LocalPkt)) : (s.withLin v).reads = s.reads := rfl
@[simp] theorem withLin_nextRead (v : SMap (List LocalPkt)) : (s.withLin v).nextRead = s.nextRead := rfl
@[simp] theorem withLin_fns (v : SMap (List LocalPkt)) : (s.withLin v).fns = s.fns := rfl
@[simp] theorem withLin_jobs (v : SMap (List LocalPkt)) : (s.withLin v).jobs = s.jobs := rfl
@[simp] theorem withLin_trn (v : SMap (List LocalPkt)) : (s.withLin v).trn = s.trn := rfl
@[simp] theorem withLin_xpt (v : SMap (List LocalPkt)) : (s.withLin v).xpt = s.xpt := rfl
@[simp] theorem withLin_mtc (v : SMap (List LocalPkt)) : (s.withLin v).mtc = s.mtc := rfl
@[simp] theorem withLin_trees (v : SMap (List LocalPkt)) : (s.withLin v).trees = s.trees := rfl
@[simp] theorem withLin_regs (v : SMap (List LocalPkt)) : (s.withLin v).regs = s.regs := rfl
@[simp] theorem withLin_cgc (v : SMap (List LocalPkt)) : (s.withLin v).cgc = s.cgc := rfl
@[simp] theorem withLin_lck (v : SMap (List LocalPkt)) : (s.withLin v).lck = s.lck := rfl
@[simp] theorem withLin_stk (v : SMap (List LocalPkt)) : (s.withLin v).stk = s.stk := rfl
@[simp] theorem withLin_arb (v : SMap (List LocalPkt)) : (s.withLin v).arb = s.arb := rfl
@[simp] theorem withLin_sec (v : SMap (List LocalPkt)) : (s.withLin v).sec = s.sec := rfl
@[simp] theorem withLin_flt (v : SMap (List LocalPkt)) : (s.withLin v).flt = s.flt := rfl
@[simp] theorem withLin_time (v : SMap (List LocalPkt)) : (s.withLin v).time = s.time := rfl
@[simp] theorem withLin_pmon (v : SMap (List LocalPkt)) : (s.withLin v).pmon = s.pmon := rfl
@[simp] theorem withLin_pwr (v : SMap (List LocalPkt)) : (s.withLin v).pwr = s.pwr := rfl
@[simp] theorem withLin_tap (v : SMap (List LocalPkt)) : (s.withLin v).tap = s.tap := rfl
@[simp] theorem withLin_opening (v : SMap (List LocalPkt)) : (s.withLin v).opening = s.opening := rfl
@[simp] theorem withLin_lin (v : SMap (List LocalPkt)) : (s.withLin v).lin = v := rfl
@[simp] theorem rd_withLin (v : SMap (List LocalPkt)) (g : FRef) : (s.withLin v).rd g = s.rd g := rfl

/-! Fields under `withGuarUsed`. -/

@[simp] theorem withGuarUsed_pending (v : SMap Nat) : (s.withGuarUsed v).pending = s.pending := rfl
@[simp] theorem withGuarUsed_flds (v : SMap Nat) : (s.withGuarUsed v).flds = s.flds := rfl
@[simp] theorem withGuarUsed_now (v : SMap Nat) : (s.withGuarUsed v).now = s.now := rfl
@[simp] theorem withGuarUsed_rng (v : SMap Nat) : (s.withGuarUsed v).rng = s.rng := rfl
@[simp] theorem withGuarUsed_out (v : SMap Nat) : (s.withGuarUsed v).out = s.out := rfl
@[simp] theorem withGuarUsed_mem (v : SMap Nat) : (s.withGuarUsed v).mem = s.mem := rfl
@[simp] theorem withGuarUsed_lanes (v : SMap Nat) : (s.withGuarUsed v).lanes = s.lanes := rfl
@[simp] theorem withGuarUsed_ports (v : SMap Nat) : (s.withGuarUsed v).ports = s.ports := rfl
@[simp] theorem withGuarUsed_buf (v : SMap Nat) : (s.withGuarUsed v).buf = s.buf := rfl
@[simp] theorem withGuarUsed_nextPid (v : SMap Nat) : (s.withGuarUsed v).nextPid = s.nextPid := rfl
@[simp] theorem withGuarUsed_oq (v : SMap Nat) : (s.withGuarUsed v).oq = s.oq := rfl
@[simp] theorem withGuarUsed_lin (v : SMap Nat) : (s.withGuarUsed v).lin = s.lin := rfl
@[simp] theorem withGuarUsed_pol (v : SMap Nat) : (s.withGuarUsed v).pol = s.pol := rfl
@[simp] theorem withGuarUsed_sched (v : SMap Nat) : (s.withGuarUsed v).sched = s.sched := rfl
@[simp] theorem withGuarUsed_swc (v : SMap Nat) : (s.withGuarUsed v).swc = s.swc := rfl
@[simp] theorem withGuarUsed_departures (v : SMap Nat) : (s.withGuarUsed v).departures = s.departures := rfl
@[simp] theorem withGuarUsed_copying (v : SMap Nat) : (s.withGuarUsed v).copying = s.copying := rfl
@[simp] theorem withGuarUsed_sinceSwap (v : SMap Nat) : (s.withGuarUsed v).sinceSwap = s.sinceSwap := rfl
@[simp] theorem withGuarUsed_digests (v : SMap Nat) : (s.withGuarUsed v).digests = s.digests := rfl
@[simp] theorem withGuarUsed_digestAt (v : SMap Nat) : (s.withGuarUsed v).digestAt = s.digestAt := rfl
@[simp] theorem withGuarUsed_engReq (v : SMap Nat) : (s.withGuarUsed v).engReq = s.engReq := rfl
@[simp] theorem withGuarUsed_engFwd (v : SMap Nat) : (s.withGuarUsed v).engFwd = s.engFwd := rfl
@[simp] theorem withGuarUsed_engRep (v : SMap Nat) : (s.withGuarUsed v).engRep = s.engRep := rfl
@[simp] theorem withGuarUsed_colIn (v : SMap Nat) : (s.withGuarUsed v).colIn = s.colIn := rfl
@[simp] theorem withGuarUsed_colDown (v : SMap Nat) : (s.withGuarUsed v).colDown = s.colDown := rfl
@[simp] theorem withGuarUsed_arbIn (v : SMap Nat) : (s.withGuarUsed v).arbIn = s.arbIn := rfl
@[simp] theorem withGuarUsed_mgmtUp (v : SMap Nat) : (s.withGuarUsed v).mgmtUp = s.mgmtUp := rfl
@[simp] theorem withGuarUsed_mgmtD3 (v : SMap Nat) : (s.withGuarUsed v).mgmtD3 = s.mgmtD3 := rfl
@[simp] theorem withGuarUsed_pci (v : SMap Nat) : (s.withGuarUsed v).pci = s.pci := rfl
@[simp] theorem withGuarUsed_msgPba (v : SMap Nat) : (s.withGuarUsed v).msgPba = s.msgPba := rfl
@[simp] theorem withGuarUsed_wqs (v : SMap Nat) : (s.withGuarUsed v).wqs = s.wqs := rfl
@[simp] theorem withGuarUsed_cqs (v : SMap Nat) : (s.withGuarUsed v).cqs = s.cqs := rfl
@[simp] theorem withGuarUsed_eqs (v : SMap Nat) : (s.withGuarUsed v).eqs = s.eqs := rfl
@[simp] theorem withGuarUsed_work (v : SMap Nat) : (s.withGuarUsed v).work = s.work := rfl
@[simp] theorem withGuarUsed_nextWork (v : SMap Nat) : (s.withGuarUsed v).nextWork = s.nextWork := rfl
@[simp] theorem withGuarUsed_reads (v : SMap Nat) : (s.withGuarUsed v).reads = s.reads := rfl
@[simp] theorem withGuarUsed_nextRead (v : SMap Nat) : (s.withGuarUsed v).nextRead = s.nextRead := rfl
@[simp] theorem withGuarUsed_fns (v : SMap Nat) : (s.withGuarUsed v).fns = s.fns := rfl
@[simp] theorem withGuarUsed_jobs (v : SMap Nat) : (s.withGuarUsed v).jobs = s.jobs := rfl
@[simp] theorem withGuarUsed_trn (v : SMap Nat) : (s.withGuarUsed v).trn = s.trn := rfl
@[simp] theorem withGuarUsed_xpt (v : SMap Nat) : (s.withGuarUsed v).xpt = s.xpt := rfl
@[simp] theorem withGuarUsed_mtc (v : SMap Nat) : (s.withGuarUsed v).mtc = s.mtc := rfl
@[simp] theorem withGuarUsed_trees (v : SMap Nat) : (s.withGuarUsed v).trees = s.trees := rfl
@[simp] theorem withGuarUsed_regs (v : SMap Nat) : (s.withGuarUsed v).regs = s.regs := rfl
@[simp] theorem withGuarUsed_cgc (v : SMap Nat) : (s.withGuarUsed v).cgc = s.cgc := rfl
@[simp] theorem withGuarUsed_lck (v : SMap Nat) : (s.withGuarUsed v).lck = s.lck := rfl
@[simp] theorem withGuarUsed_stk (v : SMap Nat) : (s.withGuarUsed v).stk = s.stk := rfl
@[simp] theorem withGuarUsed_arb (v : SMap Nat) : (s.withGuarUsed v).arb = s.arb := rfl
@[simp] theorem withGuarUsed_sec (v : SMap Nat) : (s.withGuarUsed v).sec = s.sec := rfl
@[simp] theorem withGuarUsed_flt (v : SMap Nat) : (s.withGuarUsed v).flt = s.flt := rfl
@[simp] theorem withGuarUsed_time (v : SMap Nat) : (s.withGuarUsed v).time = s.time := rfl
@[simp] theorem withGuarUsed_pmon (v : SMap Nat) : (s.withGuarUsed v).pmon = s.pmon := rfl
@[simp] theorem withGuarUsed_pwr (v : SMap Nat) : (s.withGuarUsed v).pwr = s.pwr := rfl
@[simp] theorem withGuarUsed_tap (v : SMap Nat) : (s.withGuarUsed v).tap = s.tap := rfl
@[simp] theorem withGuarUsed_opening (v : SMap Nat) : (s.withGuarUsed v).opening = s.opening := rfl
@[simp] theorem withGuarUsed_guarUsed (v : SMap Nat) : (s.withGuarUsed v).guarUsed = v := rfl
@[simp] theorem rd_withGuarUsed (v : SMap Nat) (g : FRef) : (s.withGuarUsed v).rd g = s.rd g := rfl

/-! Fields under `withPol`. -/

@[simp] theorem withPol_pending (v : SMap PolSt) : (s.withPol v).pending = s.pending := rfl
@[simp] theorem withPol_flds (v : SMap PolSt) : (s.withPol v).flds = s.flds := rfl
@[simp] theorem withPol_now (v : SMap PolSt) : (s.withPol v).now = s.now := rfl
@[simp] theorem withPol_rng (v : SMap PolSt) : (s.withPol v).rng = s.rng := rfl
@[simp] theorem withPol_out (v : SMap PolSt) : (s.withPol v).out = s.out := rfl
@[simp] theorem withPol_mem (v : SMap PolSt) : (s.withPol v).mem = s.mem := rfl
@[simp] theorem withPol_lanes (v : SMap PolSt) : (s.withPol v).lanes = s.lanes := rfl
@[simp] theorem withPol_ports (v : SMap PolSt) : (s.withPol v).ports = s.ports := rfl
@[simp] theorem withPol_buf (v : SMap PolSt) : (s.withPol v).buf = s.buf := rfl
@[simp] theorem withPol_nextPid (v : SMap PolSt) : (s.withPol v).nextPid = s.nextPid := rfl
@[simp] theorem withPol_oq (v : SMap PolSt) : (s.withPol v).oq = s.oq := rfl
@[simp] theorem withPol_lin (v : SMap PolSt) : (s.withPol v).lin = s.lin := rfl
@[simp] theorem withPol_guarUsed (v : SMap PolSt) : (s.withPol v).guarUsed = s.guarUsed := rfl
@[simp] theorem withPol_sched (v : SMap PolSt) : (s.withPol v).sched = s.sched := rfl
@[simp] theorem withPol_swc (v : SMap PolSt) : (s.withPol v).swc = s.swc := rfl
@[simp] theorem withPol_departures (v : SMap PolSt) : (s.withPol v).departures = s.departures := rfl
@[simp] theorem withPol_copying (v : SMap PolSt) : (s.withPol v).copying = s.copying := rfl
@[simp] theorem withPol_sinceSwap (v : SMap PolSt) : (s.withPol v).sinceSwap = s.sinceSwap := rfl
@[simp] theorem withPol_digests (v : SMap PolSt) : (s.withPol v).digests = s.digests := rfl
@[simp] theorem withPol_digestAt (v : SMap PolSt) : (s.withPol v).digestAt = s.digestAt := rfl
@[simp] theorem withPol_engReq (v : SMap PolSt) : (s.withPol v).engReq = s.engReq := rfl
@[simp] theorem withPol_engFwd (v : SMap PolSt) : (s.withPol v).engFwd = s.engFwd := rfl
@[simp] theorem withPol_engRep (v : SMap PolSt) : (s.withPol v).engRep = s.engRep := rfl
@[simp] theorem withPol_colIn (v : SMap PolSt) : (s.withPol v).colIn = s.colIn := rfl
@[simp] theorem withPol_colDown (v : SMap PolSt) : (s.withPol v).colDown = s.colDown := rfl
@[simp] theorem withPol_arbIn (v : SMap PolSt) : (s.withPol v).arbIn = s.arbIn := rfl
@[simp] theorem withPol_mgmtUp (v : SMap PolSt) : (s.withPol v).mgmtUp = s.mgmtUp := rfl
@[simp] theorem withPol_mgmtD3 (v : SMap PolSt) : (s.withPol v).mgmtD3 = s.mgmtD3 := rfl
@[simp] theorem withPol_pci (v : SMap PolSt) : (s.withPol v).pci = s.pci := rfl
@[simp] theorem withPol_msgPba (v : SMap PolSt) : (s.withPol v).msgPba = s.msgPba := rfl
@[simp] theorem withPol_wqs (v : SMap PolSt) : (s.withPol v).wqs = s.wqs := rfl
@[simp] theorem withPol_cqs (v : SMap PolSt) : (s.withPol v).cqs = s.cqs := rfl
@[simp] theorem withPol_eqs (v : SMap PolSt) : (s.withPol v).eqs = s.eqs := rfl
@[simp] theorem withPol_work (v : SMap PolSt) : (s.withPol v).work = s.work := rfl
@[simp] theorem withPol_nextWork (v : SMap PolSt) : (s.withPol v).nextWork = s.nextWork := rfl
@[simp] theorem withPol_reads (v : SMap PolSt) : (s.withPol v).reads = s.reads := rfl
@[simp] theorem withPol_nextRead (v : SMap PolSt) : (s.withPol v).nextRead = s.nextRead := rfl
@[simp] theorem withPol_fns (v : SMap PolSt) : (s.withPol v).fns = s.fns := rfl
@[simp] theorem withPol_jobs (v : SMap PolSt) : (s.withPol v).jobs = s.jobs := rfl
@[simp] theorem withPol_trn (v : SMap PolSt) : (s.withPol v).trn = s.trn := rfl
@[simp] theorem withPol_xpt (v : SMap PolSt) : (s.withPol v).xpt = s.xpt := rfl
@[simp] theorem withPol_mtc (v : SMap PolSt) : (s.withPol v).mtc = s.mtc := rfl
@[simp] theorem withPol_trees (v : SMap PolSt) : (s.withPol v).trees = s.trees := rfl
@[simp] theorem withPol_regs (v : SMap PolSt) : (s.withPol v).regs = s.regs := rfl
@[simp] theorem withPol_cgc (v : SMap PolSt) : (s.withPol v).cgc = s.cgc := rfl
@[simp] theorem withPol_lck (v : SMap PolSt) : (s.withPol v).lck = s.lck := rfl
@[simp] theorem withPol_stk (v : SMap PolSt) : (s.withPol v).stk = s.stk := rfl
@[simp] theorem withPol_arb (v : SMap PolSt) : (s.withPol v).arb = s.arb := rfl
@[simp] theorem withPol_sec (v : SMap PolSt) : (s.withPol v).sec = s.sec := rfl
@[simp] theorem withPol_flt (v : SMap PolSt) : (s.withPol v).flt = s.flt := rfl
@[simp] theorem withPol_time (v : SMap PolSt) : (s.withPol v).time = s.time := rfl
@[simp] theorem withPol_pmon (v : SMap PolSt) : (s.withPol v).pmon = s.pmon := rfl
@[simp] theorem withPol_pwr (v : SMap PolSt) : (s.withPol v).pwr = s.pwr := rfl
@[simp] theorem withPol_tap (v : SMap PolSt) : (s.withPol v).tap = s.tap := rfl
@[simp] theorem withPol_opening (v : SMap PolSt) : (s.withPol v).opening = s.opening := rfl
@[simp] theorem withPol_pol (v : SMap PolSt) : (s.withPol v).pol = v := rfl
@[simp] theorem rd_withPol (v : SMap PolSt) (g : FRef) : (s.withPol v).rd g = s.rd g := rfl

/-! Fields under `withSched`. -/

@[simp] theorem withSched_pending (v : SMap SchedSt) : (s.withSched v).pending = s.pending := rfl
@[simp] theorem withSched_flds (v : SMap SchedSt) : (s.withSched v).flds = s.flds := rfl
@[simp] theorem withSched_now (v : SMap SchedSt) : (s.withSched v).now = s.now := rfl
@[simp] theorem withSched_rng (v : SMap SchedSt) : (s.withSched v).rng = s.rng := rfl
@[simp] theorem withSched_out (v : SMap SchedSt) : (s.withSched v).out = s.out := rfl
@[simp] theorem withSched_mem (v : SMap SchedSt) : (s.withSched v).mem = s.mem := rfl
@[simp] theorem withSched_lanes (v : SMap SchedSt) : (s.withSched v).lanes = s.lanes := rfl
@[simp] theorem withSched_ports (v : SMap SchedSt) : (s.withSched v).ports = s.ports := rfl
@[simp] theorem withSched_buf (v : SMap SchedSt) : (s.withSched v).buf = s.buf := rfl
@[simp] theorem withSched_nextPid (v : SMap SchedSt) : (s.withSched v).nextPid = s.nextPid := rfl
@[simp] theorem withSched_oq (v : SMap SchedSt) : (s.withSched v).oq = s.oq := rfl
@[simp] theorem withSched_lin (v : SMap SchedSt) : (s.withSched v).lin = s.lin := rfl
@[simp] theorem withSched_guarUsed (v : SMap SchedSt) : (s.withSched v).guarUsed = s.guarUsed := rfl
@[simp] theorem withSched_pol (v : SMap SchedSt) : (s.withSched v).pol = s.pol := rfl
@[simp] theorem withSched_swc (v : SMap SchedSt) : (s.withSched v).swc = s.swc := rfl
@[simp] theorem withSched_departures (v : SMap SchedSt) : (s.withSched v).departures = s.departures := rfl
@[simp] theorem withSched_copying (v : SMap SchedSt) : (s.withSched v).copying = s.copying := rfl
@[simp] theorem withSched_sinceSwap (v : SMap SchedSt) : (s.withSched v).sinceSwap = s.sinceSwap := rfl
@[simp] theorem withSched_digests (v : SMap SchedSt) : (s.withSched v).digests = s.digests := rfl
@[simp] theorem withSched_digestAt (v : SMap SchedSt) : (s.withSched v).digestAt = s.digestAt := rfl
@[simp] theorem withSched_engReq (v : SMap SchedSt) : (s.withSched v).engReq = s.engReq := rfl
@[simp] theorem withSched_engFwd (v : SMap SchedSt) : (s.withSched v).engFwd = s.engFwd := rfl
@[simp] theorem withSched_engRep (v : SMap SchedSt) : (s.withSched v).engRep = s.engRep := rfl
@[simp] theorem withSched_colIn (v : SMap SchedSt) : (s.withSched v).colIn = s.colIn := rfl
@[simp] theorem withSched_colDown (v : SMap SchedSt) : (s.withSched v).colDown = s.colDown := rfl
@[simp] theorem withSched_arbIn (v : SMap SchedSt) : (s.withSched v).arbIn = s.arbIn := rfl
@[simp] theorem withSched_mgmtUp (v : SMap SchedSt) : (s.withSched v).mgmtUp = s.mgmtUp := rfl
@[simp] theorem withSched_mgmtD3 (v : SMap SchedSt) : (s.withSched v).mgmtD3 = s.mgmtD3 := rfl
@[simp] theorem withSched_pci (v : SMap SchedSt) : (s.withSched v).pci = s.pci := rfl
@[simp] theorem withSched_msgPba (v : SMap SchedSt) : (s.withSched v).msgPba = s.msgPba := rfl
@[simp] theorem withSched_wqs (v : SMap SchedSt) : (s.withSched v).wqs = s.wqs := rfl
@[simp] theorem withSched_cqs (v : SMap SchedSt) : (s.withSched v).cqs = s.cqs := rfl
@[simp] theorem withSched_eqs (v : SMap SchedSt) : (s.withSched v).eqs = s.eqs := rfl
@[simp] theorem withSched_work (v : SMap SchedSt) : (s.withSched v).work = s.work := rfl
@[simp] theorem withSched_nextWork (v : SMap SchedSt) : (s.withSched v).nextWork = s.nextWork := rfl
@[simp] theorem withSched_reads (v : SMap SchedSt) : (s.withSched v).reads = s.reads := rfl
@[simp] theorem withSched_nextRead (v : SMap SchedSt) : (s.withSched v).nextRead = s.nextRead := rfl
@[simp] theorem withSched_fns (v : SMap SchedSt) : (s.withSched v).fns = s.fns := rfl
@[simp] theorem withSched_jobs (v : SMap SchedSt) : (s.withSched v).jobs = s.jobs := rfl
@[simp] theorem withSched_trn (v : SMap SchedSt) : (s.withSched v).trn = s.trn := rfl
@[simp] theorem withSched_xpt (v : SMap SchedSt) : (s.withSched v).xpt = s.xpt := rfl
@[simp] theorem withSched_mtc (v : SMap SchedSt) : (s.withSched v).mtc = s.mtc := rfl
@[simp] theorem withSched_trees (v : SMap SchedSt) : (s.withSched v).trees = s.trees := rfl
@[simp] theorem withSched_regs (v : SMap SchedSt) : (s.withSched v).regs = s.regs := rfl
@[simp] theorem withSched_cgc (v : SMap SchedSt) : (s.withSched v).cgc = s.cgc := rfl
@[simp] theorem withSched_lck (v : SMap SchedSt) : (s.withSched v).lck = s.lck := rfl
@[simp] theorem withSched_stk (v : SMap SchedSt) : (s.withSched v).stk = s.stk := rfl
@[simp] theorem withSched_arb (v : SMap SchedSt) : (s.withSched v).arb = s.arb := rfl
@[simp] theorem withSched_sec (v : SMap SchedSt) : (s.withSched v).sec = s.sec := rfl
@[simp] theorem withSched_flt (v : SMap SchedSt) : (s.withSched v).flt = s.flt := rfl
@[simp] theorem withSched_time (v : SMap SchedSt) : (s.withSched v).time = s.time := rfl
@[simp] theorem withSched_pmon (v : SMap SchedSt) : (s.withSched v).pmon = s.pmon := rfl
@[simp] theorem withSched_pwr (v : SMap SchedSt) : (s.withSched v).pwr = s.pwr := rfl
@[simp] theorem withSched_tap (v : SMap SchedSt) : (s.withSched v).tap = s.tap := rfl
@[simp] theorem withSched_opening (v : SMap SchedSt) : (s.withSched v).opening = s.opening := rfl
@[simp] theorem withSched_sched (v : SMap SchedSt) : (s.withSched v).sched = v := rfl
@[simp] theorem rd_withSched (v : SMap SchedSt) (g : FRef) : (s.withSched v).rd g = s.rd g := rfl

/-! Fields under `withSwc`. -/

@[simp] theorem withSwc_pending (v : SwcSt) : (s.withSwc v).pending = s.pending := rfl
@[simp] theorem withSwc_flds (v : SwcSt) : (s.withSwc v).flds = s.flds := rfl
@[simp] theorem withSwc_now (v : SwcSt) : (s.withSwc v).now = s.now := rfl
@[simp] theorem withSwc_rng (v : SwcSt) : (s.withSwc v).rng = s.rng := rfl
@[simp] theorem withSwc_out (v : SwcSt) : (s.withSwc v).out = s.out := rfl
@[simp] theorem withSwc_mem (v : SwcSt) : (s.withSwc v).mem = s.mem := rfl
@[simp] theorem withSwc_lanes (v : SwcSt) : (s.withSwc v).lanes = s.lanes := rfl
@[simp] theorem withSwc_ports (v : SwcSt) : (s.withSwc v).ports = s.ports := rfl
@[simp] theorem withSwc_buf (v : SwcSt) : (s.withSwc v).buf = s.buf := rfl
@[simp] theorem withSwc_nextPid (v : SwcSt) : (s.withSwc v).nextPid = s.nextPid := rfl
@[simp] theorem withSwc_oq (v : SwcSt) : (s.withSwc v).oq = s.oq := rfl
@[simp] theorem withSwc_lin (v : SwcSt) : (s.withSwc v).lin = s.lin := rfl
@[simp] theorem withSwc_guarUsed (v : SwcSt) : (s.withSwc v).guarUsed = s.guarUsed := rfl
@[simp] theorem withSwc_pol (v : SwcSt) : (s.withSwc v).pol = s.pol := rfl
@[simp] theorem withSwc_sched (v : SwcSt) : (s.withSwc v).sched = s.sched := rfl
@[simp] theorem withSwc_departures (v : SwcSt) : (s.withSwc v).departures = s.departures := rfl
@[simp] theorem withSwc_copying (v : SwcSt) : (s.withSwc v).copying = s.copying := rfl
@[simp] theorem withSwc_sinceSwap (v : SwcSt) : (s.withSwc v).sinceSwap = s.sinceSwap := rfl
@[simp] theorem withSwc_digests (v : SwcSt) : (s.withSwc v).digests = s.digests := rfl
@[simp] theorem withSwc_digestAt (v : SwcSt) : (s.withSwc v).digestAt = s.digestAt := rfl
@[simp] theorem withSwc_engReq (v : SwcSt) : (s.withSwc v).engReq = s.engReq := rfl
@[simp] theorem withSwc_engFwd (v : SwcSt) : (s.withSwc v).engFwd = s.engFwd := rfl
@[simp] theorem withSwc_engRep (v : SwcSt) : (s.withSwc v).engRep = s.engRep := rfl
@[simp] theorem withSwc_colIn (v : SwcSt) : (s.withSwc v).colIn = s.colIn := rfl
@[simp] theorem withSwc_colDown (v : SwcSt) : (s.withSwc v).colDown = s.colDown := rfl
@[simp] theorem withSwc_arbIn (v : SwcSt) : (s.withSwc v).arbIn = s.arbIn := rfl
@[simp] theorem withSwc_mgmtUp (v : SwcSt) : (s.withSwc v).mgmtUp = s.mgmtUp := rfl
@[simp] theorem withSwc_mgmtD3 (v : SwcSt) : (s.withSwc v).mgmtD3 = s.mgmtD3 := rfl
@[simp] theorem withSwc_pci (v : SwcSt) : (s.withSwc v).pci = s.pci := rfl
@[simp] theorem withSwc_msgPba (v : SwcSt) : (s.withSwc v).msgPba = s.msgPba := rfl
@[simp] theorem withSwc_wqs (v : SwcSt) : (s.withSwc v).wqs = s.wqs := rfl
@[simp] theorem withSwc_cqs (v : SwcSt) : (s.withSwc v).cqs = s.cqs := rfl
@[simp] theorem withSwc_eqs (v : SwcSt) : (s.withSwc v).eqs = s.eqs := rfl
@[simp] theorem withSwc_work (v : SwcSt) : (s.withSwc v).work = s.work := rfl
@[simp] theorem withSwc_nextWork (v : SwcSt) : (s.withSwc v).nextWork = s.nextWork := rfl
@[simp] theorem withSwc_reads (v : SwcSt) : (s.withSwc v).reads = s.reads := rfl
@[simp] theorem withSwc_nextRead (v : SwcSt) : (s.withSwc v).nextRead = s.nextRead := rfl
@[simp] theorem withSwc_fns (v : SwcSt) : (s.withSwc v).fns = s.fns := rfl
@[simp] theorem withSwc_jobs (v : SwcSt) : (s.withSwc v).jobs = s.jobs := rfl
@[simp] theorem withSwc_trn (v : SwcSt) : (s.withSwc v).trn = s.trn := rfl
@[simp] theorem withSwc_xpt (v : SwcSt) : (s.withSwc v).xpt = s.xpt := rfl
@[simp] theorem withSwc_mtc (v : SwcSt) : (s.withSwc v).mtc = s.mtc := rfl
@[simp] theorem withSwc_trees (v : SwcSt) : (s.withSwc v).trees = s.trees := rfl
@[simp] theorem withSwc_regs (v : SwcSt) : (s.withSwc v).regs = s.regs := rfl
@[simp] theorem withSwc_cgc (v : SwcSt) : (s.withSwc v).cgc = s.cgc := rfl
@[simp] theorem withSwc_lck (v : SwcSt) : (s.withSwc v).lck = s.lck := rfl
@[simp] theorem withSwc_stk (v : SwcSt) : (s.withSwc v).stk = s.stk := rfl
@[simp] theorem withSwc_arb (v : SwcSt) : (s.withSwc v).arb = s.arb := rfl
@[simp] theorem withSwc_sec (v : SwcSt) : (s.withSwc v).sec = s.sec := rfl
@[simp] theorem withSwc_flt (v : SwcSt) : (s.withSwc v).flt = s.flt := rfl
@[simp] theorem withSwc_time (v : SwcSt) : (s.withSwc v).time = s.time := rfl
@[simp] theorem withSwc_pmon (v : SwcSt) : (s.withSwc v).pmon = s.pmon := rfl
@[simp] theorem withSwc_pwr (v : SwcSt) : (s.withSwc v).pwr = s.pwr := rfl
@[simp] theorem withSwc_tap (v : SwcSt) : (s.withSwc v).tap = s.tap := rfl
@[simp] theorem withSwc_opening (v : SwcSt) : (s.withSwc v).opening = s.opening := rfl
@[simp] theorem withSwc_swc (v : SwcSt) : (s.withSwc v).swc = v := rfl
@[simp] theorem rd_withSwc (v : SwcSt) (g : FRef) : (s.withSwc v).rd g = s.rd g := rfl

/-! Fields under `withDepartures`. -/

@[simp] theorem withDepartures_pending (v : List (Nat × Nat)) : (s.withDepartures v).pending = s.pending := rfl
@[simp] theorem withDepartures_flds (v : List (Nat × Nat)) : (s.withDepartures v).flds = s.flds := rfl
@[simp] theorem withDepartures_now (v : List (Nat × Nat)) : (s.withDepartures v).now = s.now := rfl
@[simp] theorem withDepartures_rng (v : List (Nat × Nat)) : (s.withDepartures v).rng = s.rng := rfl
@[simp] theorem withDepartures_out (v : List (Nat × Nat)) : (s.withDepartures v).out = s.out := rfl
@[simp] theorem withDepartures_mem (v : List (Nat × Nat)) : (s.withDepartures v).mem = s.mem := rfl
@[simp] theorem withDepartures_lanes (v : List (Nat × Nat)) : (s.withDepartures v).lanes = s.lanes := rfl
@[simp] theorem withDepartures_ports (v : List (Nat × Nat)) : (s.withDepartures v).ports = s.ports := rfl
@[simp] theorem withDepartures_buf (v : List (Nat × Nat)) : (s.withDepartures v).buf = s.buf := rfl
@[simp] theorem withDepartures_nextPid (v : List (Nat × Nat)) : (s.withDepartures v).nextPid = s.nextPid := rfl
@[simp] theorem withDepartures_oq (v : List (Nat × Nat)) : (s.withDepartures v).oq = s.oq := rfl
@[simp] theorem withDepartures_lin (v : List (Nat × Nat)) : (s.withDepartures v).lin = s.lin := rfl
@[simp] theorem withDepartures_guarUsed (v : List (Nat × Nat)) : (s.withDepartures v).guarUsed = s.guarUsed := rfl
@[simp] theorem withDepartures_pol (v : List (Nat × Nat)) : (s.withDepartures v).pol = s.pol := rfl
@[simp] theorem withDepartures_sched (v : List (Nat × Nat)) : (s.withDepartures v).sched = s.sched := rfl
@[simp] theorem withDepartures_swc (v : List (Nat × Nat)) : (s.withDepartures v).swc = s.swc := rfl
@[simp] theorem withDepartures_copying (v : List (Nat × Nat)) : (s.withDepartures v).copying = s.copying := rfl
@[simp] theorem withDepartures_sinceSwap (v : List (Nat × Nat)) : (s.withDepartures v).sinceSwap = s.sinceSwap := rfl
@[simp] theorem withDepartures_digests (v : List (Nat × Nat)) : (s.withDepartures v).digests = s.digests := rfl
@[simp] theorem withDepartures_digestAt (v : List (Nat × Nat)) : (s.withDepartures v).digestAt = s.digestAt := rfl
@[simp] theorem withDepartures_engReq (v : List (Nat × Nat)) : (s.withDepartures v).engReq = s.engReq := rfl
@[simp] theorem withDepartures_engFwd (v : List (Nat × Nat)) : (s.withDepartures v).engFwd = s.engFwd := rfl
@[simp] theorem withDepartures_engRep (v : List (Nat × Nat)) : (s.withDepartures v).engRep = s.engRep := rfl
@[simp] theorem withDepartures_colIn (v : List (Nat × Nat)) : (s.withDepartures v).colIn = s.colIn := rfl
@[simp] theorem withDepartures_colDown (v : List (Nat × Nat)) : (s.withDepartures v).colDown = s.colDown := rfl
@[simp] theorem withDepartures_arbIn (v : List (Nat × Nat)) : (s.withDepartures v).arbIn = s.arbIn := rfl
@[simp] theorem withDepartures_mgmtUp (v : List (Nat × Nat)) : (s.withDepartures v).mgmtUp = s.mgmtUp := rfl
@[simp] theorem withDepartures_mgmtD3 (v : List (Nat × Nat)) : (s.withDepartures v).mgmtD3 = s.mgmtD3 := rfl
@[simp] theorem withDepartures_pci (v : List (Nat × Nat)) : (s.withDepartures v).pci = s.pci := rfl
@[simp] theorem withDepartures_msgPba (v : List (Nat × Nat)) : (s.withDepartures v).msgPba = s.msgPba := rfl
@[simp] theorem withDepartures_wqs (v : List (Nat × Nat)) : (s.withDepartures v).wqs = s.wqs := rfl
@[simp] theorem withDepartures_cqs (v : List (Nat × Nat)) : (s.withDepartures v).cqs = s.cqs := rfl
@[simp] theorem withDepartures_eqs (v : List (Nat × Nat)) : (s.withDepartures v).eqs = s.eqs := rfl
@[simp] theorem withDepartures_work (v : List (Nat × Nat)) : (s.withDepartures v).work = s.work := rfl
@[simp] theorem withDepartures_nextWork (v : List (Nat × Nat)) : (s.withDepartures v).nextWork = s.nextWork := rfl
@[simp] theorem withDepartures_reads (v : List (Nat × Nat)) : (s.withDepartures v).reads = s.reads := rfl
@[simp] theorem withDepartures_nextRead (v : List (Nat × Nat)) : (s.withDepartures v).nextRead = s.nextRead := rfl
@[simp] theorem withDepartures_fns (v : List (Nat × Nat)) : (s.withDepartures v).fns = s.fns := rfl
@[simp] theorem withDepartures_jobs (v : List (Nat × Nat)) : (s.withDepartures v).jobs = s.jobs := rfl
@[simp] theorem withDepartures_trn (v : List (Nat × Nat)) : (s.withDepartures v).trn = s.trn := rfl
@[simp] theorem withDepartures_xpt (v : List (Nat × Nat)) : (s.withDepartures v).xpt = s.xpt := rfl
@[simp] theorem withDepartures_mtc (v : List (Nat × Nat)) : (s.withDepartures v).mtc = s.mtc := rfl
@[simp] theorem withDepartures_trees (v : List (Nat × Nat)) : (s.withDepartures v).trees = s.trees := rfl
@[simp] theorem withDepartures_regs (v : List (Nat × Nat)) : (s.withDepartures v).regs = s.regs := rfl
@[simp] theorem withDepartures_cgc (v : List (Nat × Nat)) : (s.withDepartures v).cgc = s.cgc := rfl
@[simp] theorem withDepartures_lck (v : List (Nat × Nat)) : (s.withDepartures v).lck = s.lck := rfl
@[simp] theorem withDepartures_stk (v : List (Nat × Nat)) : (s.withDepartures v).stk = s.stk := rfl
@[simp] theorem withDepartures_arb (v : List (Nat × Nat)) : (s.withDepartures v).arb = s.arb := rfl
@[simp] theorem withDepartures_sec (v : List (Nat × Nat)) : (s.withDepartures v).sec = s.sec := rfl
@[simp] theorem withDepartures_flt (v : List (Nat × Nat)) : (s.withDepartures v).flt = s.flt := rfl
@[simp] theorem withDepartures_time (v : List (Nat × Nat)) : (s.withDepartures v).time = s.time := rfl
@[simp] theorem withDepartures_pmon (v : List (Nat × Nat)) : (s.withDepartures v).pmon = s.pmon := rfl
@[simp] theorem withDepartures_pwr (v : List (Nat × Nat)) : (s.withDepartures v).pwr = s.pwr := rfl
@[simp] theorem withDepartures_tap (v : List (Nat × Nat)) : (s.withDepartures v).tap = s.tap := rfl
@[simp] theorem withDepartures_opening (v : List (Nat × Nat)) : (s.withDepartures v).opening = s.opening := rfl
@[simp] theorem withDepartures_departures (v : List (Nat × Nat)) : (s.withDepartures v).departures = v := rfl
@[simp] theorem rd_withDepartures (v : List (Nat × Nat)) (g : FRef) : (s.withDepartures v).rd g = s.rd g := rfl

/-! Fields under `withCopying`. -/

@[simp] theorem withCopying_pending (v : List Nat) : (s.withCopying v).pending = s.pending := rfl
@[simp] theorem withCopying_flds (v : List Nat) : (s.withCopying v).flds = s.flds := rfl
@[simp] theorem withCopying_now (v : List Nat) : (s.withCopying v).now = s.now := rfl
@[simp] theorem withCopying_rng (v : List Nat) : (s.withCopying v).rng = s.rng := rfl
@[simp] theorem withCopying_out (v : List Nat) : (s.withCopying v).out = s.out := rfl
@[simp] theorem withCopying_mem (v : List Nat) : (s.withCopying v).mem = s.mem := rfl
@[simp] theorem withCopying_lanes (v : List Nat) : (s.withCopying v).lanes = s.lanes := rfl
@[simp] theorem withCopying_ports (v : List Nat) : (s.withCopying v).ports = s.ports := rfl
@[simp] theorem withCopying_buf (v : List Nat) : (s.withCopying v).buf = s.buf := rfl
@[simp] theorem withCopying_nextPid (v : List Nat) : (s.withCopying v).nextPid = s.nextPid := rfl
@[simp] theorem withCopying_oq (v : List Nat) : (s.withCopying v).oq = s.oq := rfl
@[simp] theorem withCopying_lin (v : List Nat) : (s.withCopying v).lin = s.lin := rfl
@[simp] theorem withCopying_guarUsed (v : List Nat) : (s.withCopying v).guarUsed = s.guarUsed := rfl
@[simp] theorem withCopying_pol (v : List Nat) : (s.withCopying v).pol = s.pol := rfl
@[simp] theorem withCopying_sched (v : List Nat) : (s.withCopying v).sched = s.sched := rfl
@[simp] theorem withCopying_swc (v : List Nat) : (s.withCopying v).swc = s.swc := rfl
@[simp] theorem withCopying_departures (v : List Nat) : (s.withCopying v).departures = s.departures := rfl
@[simp] theorem withCopying_sinceSwap (v : List Nat) : (s.withCopying v).sinceSwap = s.sinceSwap := rfl
@[simp] theorem withCopying_digests (v : List Nat) : (s.withCopying v).digests = s.digests := rfl
@[simp] theorem withCopying_digestAt (v : List Nat) : (s.withCopying v).digestAt = s.digestAt := rfl
@[simp] theorem withCopying_engReq (v : List Nat) : (s.withCopying v).engReq = s.engReq := rfl
@[simp] theorem withCopying_engFwd (v : List Nat) : (s.withCopying v).engFwd = s.engFwd := rfl
@[simp] theorem withCopying_engRep (v : List Nat) : (s.withCopying v).engRep = s.engRep := rfl
@[simp] theorem withCopying_colIn (v : List Nat) : (s.withCopying v).colIn = s.colIn := rfl
@[simp] theorem withCopying_colDown (v : List Nat) : (s.withCopying v).colDown = s.colDown := rfl
@[simp] theorem withCopying_arbIn (v : List Nat) : (s.withCopying v).arbIn = s.arbIn := rfl
@[simp] theorem withCopying_mgmtUp (v : List Nat) : (s.withCopying v).mgmtUp = s.mgmtUp := rfl
@[simp] theorem withCopying_mgmtD3 (v : List Nat) : (s.withCopying v).mgmtD3 = s.mgmtD3 := rfl
@[simp] theorem withCopying_pci (v : List Nat) : (s.withCopying v).pci = s.pci := rfl
@[simp] theorem withCopying_msgPba (v : List Nat) : (s.withCopying v).msgPba = s.msgPba := rfl
@[simp] theorem withCopying_wqs (v : List Nat) : (s.withCopying v).wqs = s.wqs := rfl
@[simp] theorem withCopying_cqs (v : List Nat) : (s.withCopying v).cqs = s.cqs := rfl
@[simp] theorem withCopying_eqs (v : List Nat) : (s.withCopying v).eqs = s.eqs := rfl
@[simp] theorem withCopying_work (v : List Nat) : (s.withCopying v).work = s.work := rfl
@[simp] theorem withCopying_nextWork (v : List Nat) : (s.withCopying v).nextWork = s.nextWork := rfl
@[simp] theorem withCopying_reads (v : List Nat) : (s.withCopying v).reads = s.reads := rfl
@[simp] theorem withCopying_nextRead (v : List Nat) : (s.withCopying v).nextRead = s.nextRead := rfl
@[simp] theorem withCopying_fns (v : List Nat) : (s.withCopying v).fns = s.fns := rfl
@[simp] theorem withCopying_jobs (v : List Nat) : (s.withCopying v).jobs = s.jobs := rfl
@[simp] theorem withCopying_trn (v : List Nat) : (s.withCopying v).trn = s.trn := rfl
@[simp] theorem withCopying_xpt (v : List Nat) : (s.withCopying v).xpt = s.xpt := rfl
@[simp] theorem withCopying_mtc (v : List Nat) : (s.withCopying v).mtc = s.mtc := rfl
@[simp] theorem withCopying_trees (v : List Nat) : (s.withCopying v).trees = s.trees := rfl
@[simp] theorem withCopying_regs (v : List Nat) : (s.withCopying v).regs = s.regs := rfl
@[simp] theorem withCopying_cgc (v : List Nat) : (s.withCopying v).cgc = s.cgc := rfl
@[simp] theorem withCopying_lck (v : List Nat) : (s.withCopying v).lck = s.lck := rfl
@[simp] theorem withCopying_stk (v : List Nat) : (s.withCopying v).stk = s.stk := rfl
@[simp] theorem withCopying_arb (v : List Nat) : (s.withCopying v).arb = s.arb := rfl
@[simp] theorem withCopying_sec (v : List Nat) : (s.withCopying v).sec = s.sec := rfl
@[simp] theorem withCopying_flt (v : List Nat) : (s.withCopying v).flt = s.flt := rfl
@[simp] theorem withCopying_time (v : List Nat) : (s.withCopying v).time = s.time := rfl
@[simp] theorem withCopying_pmon (v : List Nat) : (s.withCopying v).pmon = s.pmon := rfl
@[simp] theorem withCopying_pwr (v : List Nat) : (s.withCopying v).pwr = s.pwr := rfl
@[simp] theorem withCopying_tap (v : List Nat) : (s.withCopying v).tap = s.tap := rfl
@[simp] theorem withCopying_opening (v : List Nat) : (s.withCopying v).opening = s.opening := rfl
@[simp] theorem withCopying_copying (v : List Nat) : (s.withCopying v).copying = v := rfl
@[simp] theorem rd_withCopying (v : List Nat) (g : FRef) : (s.withCopying v).rd g = s.rd g := rfl

/-! Fields under `withSinceSwap`. -/

@[simp] theorem withSinceSwap_pending (v : List Nat) : (s.withSinceSwap v).pending = s.pending := rfl
@[simp] theorem withSinceSwap_flds (v : List Nat) : (s.withSinceSwap v).flds = s.flds := rfl
@[simp] theorem withSinceSwap_now (v : List Nat) : (s.withSinceSwap v).now = s.now := rfl
@[simp] theorem withSinceSwap_rng (v : List Nat) : (s.withSinceSwap v).rng = s.rng := rfl
@[simp] theorem withSinceSwap_out (v : List Nat) : (s.withSinceSwap v).out = s.out := rfl
@[simp] theorem withSinceSwap_mem (v : List Nat) : (s.withSinceSwap v).mem = s.mem := rfl
@[simp] theorem withSinceSwap_lanes (v : List Nat) : (s.withSinceSwap v).lanes = s.lanes := rfl
@[simp] theorem withSinceSwap_ports (v : List Nat) : (s.withSinceSwap v).ports = s.ports := rfl
@[simp] theorem withSinceSwap_buf (v : List Nat) : (s.withSinceSwap v).buf = s.buf := rfl
@[simp] theorem withSinceSwap_nextPid (v : List Nat) : (s.withSinceSwap v).nextPid = s.nextPid := rfl
@[simp] theorem withSinceSwap_oq (v : List Nat) : (s.withSinceSwap v).oq = s.oq := rfl
@[simp] theorem withSinceSwap_lin (v : List Nat) : (s.withSinceSwap v).lin = s.lin := rfl
@[simp] theorem withSinceSwap_guarUsed (v : List Nat) : (s.withSinceSwap v).guarUsed = s.guarUsed := rfl
@[simp] theorem withSinceSwap_pol (v : List Nat) : (s.withSinceSwap v).pol = s.pol := rfl
@[simp] theorem withSinceSwap_sched (v : List Nat) : (s.withSinceSwap v).sched = s.sched := rfl
@[simp] theorem withSinceSwap_swc (v : List Nat) : (s.withSinceSwap v).swc = s.swc := rfl
@[simp] theorem withSinceSwap_departures (v : List Nat) : (s.withSinceSwap v).departures = s.departures := rfl
@[simp] theorem withSinceSwap_copying (v : List Nat) : (s.withSinceSwap v).copying = s.copying := rfl
@[simp] theorem withSinceSwap_digests (v : List Nat) : (s.withSinceSwap v).digests = s.digests := rfl
@[simp] theorem withSinceSwap_digestAt (v : List Nat) : (s.withSinceSwap v).digestAt = s.digestAt := rfl
@[simp] theorem withSinceSwap_engReq (v : List Nat) : (s.withSinceSwap v).engReq = s.engReq := rfl
@[simp] theorem withSinceSwap_engFwd (v : List Nat) : (s.withSinceSwap v).engFwd = s.engFwd := rfl
@[simp] theorem withSinceSwap_engRep (v : List Nat) : (s.withSinceSwap v).engRep = s.engRep := rfl
@[simp] theorem withSinceSwap_colIn (v : List Nat) : (s.withSinceSwap v).colIn = s.colIn := rfl
@[simp] theorem withSinceSwap_colDown (v : List Nat) : (s.withSinceSwap v).colDown = s.colDown := rfl
@[simp] theorem withSinceSwap_arbIn (v : List Nat) : (s.withSinceSwap v).arbIn = s.arbIn := rfl
@[simp] theorem withSinceSwap_mgmtUp (v : List Nat) : (s.withSinceSwap v).mgmtUp = s.mgmtUp := rfl
@[simp] theorem withSinceSwap_mgmtD3 (v : List Nat) : (s.withSinceSwap v).mgmtD3 = s.mgmtD3 := rfl
@[simp] theorem withSinceSwap_pci (v : List Nat) : (s.withSinceSwap v).pci = s.pci := rfl
@[simp] theorem withSinceSwap_msgPba (v : List Nat) : (s.withSinceSwap v).msgPba = s.msgPba := rfl
@[simp] theorem withSinceSwap_wqs (v : List Nat) : (s.withSinceSwap v).wqs = s.wqs := rfl
@[simp] theorem withSinceSwap_cqs (v : List Nat) : (s.withSinceSwap v).cqs = s.cqs := rfl
@[simp] theorem withSinceSwap_eqs (v : List Nat) : (s.withSinceSwap v).eqs = s.eqs := rfl
@[simp] theorem withSinceSwap_work (v : List Nat) : (s.withSinceSwap v).work = s.work := rfl
@[simp] theorem withSinceSwap_nextWork (v : List Nat) : (s.withSinceSwap v).nextWork = s.nextWork := rfl
@[simp] theorem withSinceSwap_reads (v : List Nat) : (s.withSinceSwap v).reads = s.reads := rfl
@[simp] theorem withSinceSwap_nextRead (v : List Nat) : (s.withSinceSwap v).nextRead = s.nextRead := rfl
@[simp] theorem withSinceSwap_fns (v : List Nat) : (s.withSinceSwap v).fns = s.fns := rfl
@[simp] theorem withSinceSwap_jobs (v : List Nat) : (s.withSinceSwap v).jobs = s.jobs := rfl
@[simp] theorem withSinceSwap_trn (v : List Nat) : (s.withSinceSwap v).trn = s.trn := rfl
@[simp] theorem withSinceSwap_xpt (v : List Nat) : (s.withSinceSwap v).xpt = s.xpt := rfl
@[simp] theorem withSinceSwap_mtc (v : List Nat) : (s.withSinceSwap v).mtc = s.mtc := rfl
@[simp] theorem withSinceSwap_trees (v : List Nat) : (s.withSinceSwap v).trees = s.trees := rfl
@[simp] theorem withSinceSwap_regs (v : List Nat) : (s.withSinceSwap v).regs = s.regs := rfl
@[simp] theorem withSinceSwap_cgc (v : List Nat) : (s.withSinceSwap v).cgc = s.cgc := rfl
@[simp] theorem withSinceSwap_lck (v : List Nat) : (s.withSinceSwap v).lck = s.lck := rfl
@[simp] theorem withSinceSwap_stk (v : List Nat) : (s.withSinceSwap v).stk = s.stk := rfl
@[simp] theorem withSinceSwap_arb (v : List Nat) : (s.withSinceSwap v).arb = s.arb := rfl
@[simp] theorem withSinceSwap_sec (v : List Nat) : (s.withSinceSwap v).sec = s.sec := rfl
@[simp] theorem withSinceSwap_flt (v : List Nat) : (s.withSinceSwap v).flt = s.flt := rfl
@[simp] theorem withSinceSwap_time (v : List Nat) : (s.withSinceSwap v).time = s.time := rfl
@[simp] theorem withSinceSwap_pmon (v : List Nat) : (s.withSinceSwap v).pmon = s.pmon := rfl
@[simp] theorem withSinceSwap_pwr (v : List Nat) : (s.withSinceSwap v).pwr = s.pwr := rfl
@[simp] theorem withSinceSwap_tap (v : List Nat) : (s.withSinceSwap v).tap = s.tap := rfl
@[simp] theorem withSinceSwap_opening (v : List Nat) : (s.withSinceSwap v).opening = s.opening := rfl
@[simp] theorem withSinceSwap_sinceSwap (v : List Nat) : (s.withSinceSwap v).sinceSwap = v := rfl
@[simp] theorem rd_withSinceSwap (v : List Nat) (g : FRef) : (s.withSinceSwap v).rd g = s.rd g := rfl

/-! Fields under `withDigests`. -/

@[simp] theorem withDigests_pending (v : SMap DigestEnt) : (s.withDigests v).pending = s.pending := rfl
@[simp] theorem withDigests_flds (v : SMap DigestEnt) : (s.withDigests v).flds = s.flds := rfl
@[simp] theorem withDigests_now (v : SMap DigestEnt) : (s.withDigests v).now = s.now := rfl
@[simp] theorem withDigests_rng (v : SMap DigestEnt) : (s.withDigests v).rng = s.rng := rfl
@[simp] theorem withDigests_out (v : SMap DigestEnt) : (s.withDigests v).out = s.out := rfl
@[simp] theorem withDigests_mem (v : SMap DigestEnt) : (s.withDigests v).mem = s.mem := rfl
@[simp] theorem withDigests_lanes (v : SMap DigestEnt) : (s.withDigests v).lanes = s.lanes := rfl
@[simp] theorem withDigests_ports (v : SMap DigestEnt) : (s.withDigests v).ports = s.ports := rfl
@[simp] theorem withDigests_buf (v : SMap DigestEnt) : (s.withDigests v).buf = s.buf := rfl
@[simp] theorem withDigests_nextPid (v : SMap DigestEnt) : (s.withDigests v).nextPid = s.nextPid := rfl
@[simp] theorem withDigests_oq (v : SMap DigestEnt) : (s.withDigests v).oq = s.oq := rfl
@[simp] theorem withDigests_lin (v : SMap DigestEnt) : (s.withDigests v).lin = s.lin := rfl
@[simp] theorem withDigests_guarUsed (v : SMap DigestEnt) : (s.withDigests v).guarUsed = s.guarUsed := rfl
@[simp] theorem withDigests_pol (v : SMap DigestEnt) : (s.withDigests v).pol = s.pol := rfl
@[simp] theorem withDigests_sched (v : SMap DigestEnt) : (s.withDigests v).sched = s.sched := rfl
@[simp] theorem withDigests_swc (v : SMap DigestEnt) : (s.withDigests v).swc = s.swc := rfl
@[simp] theorem withDigests_departures (v : SMap DigestEnt) : (s.withDigests v).departures = s.departures := rfl
@[simp] theorem withDigests_copying (v : SMap DigestEnt) : (s.withDigests v).copying = s.copying := rfl
@[simp] theorem withDigests_sinceSwap (v : SMap DigestEnt) : (s.withDigests v).sinceSwap = s.sinceSwap := rfl
@[simp] theorem withDigests_digestAt (v : SMap DigestEnt) : (s.withDigests v).digestAt = s.digestAt := rfl
@[simp] theorem withDigests_engReq (v : SMap DigestEnt) : (s.withDigests v).engReq = s.engReq := rfl
@[simp] theorem withDigests_engFwd (v : SMap DigestEnt) : (s.withDigests v).engFwd = s.engFwd := rfl
@[simp] theorem withDigests_engRep (v : SMap DigestEnt) : (s.withDigests v).engRep = s.engRep := rfl
@[simp] theorem withDigests_colIn (v : SMap DigestEnt) : (s.withDigests v).colIn = s.colIn := rfl
@[simp] theorem withDigests_colDown (v : SMap DigestEnt) : (s.withDigests v).colDown = s.colDown := rfl
@[simp] theorem withDigests_arbIn (v : SMap DigestEnt) : (s.withDigests v).arbIn = s.arbIn := rfl
@[simp] theorem withDigests_mgmtUp (v : SMap DigestEnt) : (s.withDigests v).mgmtUp = s.mgmtUp := rfl
@[simp] theorem withDigests_mgmtD3 (v : SMap DigestEnt) : (s.withDigests v).mgmtD3 = s.mgmtD3 := rfl
@[simp] theorem withDigests_pci (v : SMap DigestEnt) : (s.withDigests v).pci = s.pci := rfl
@[simp] theorem withDigests_msgPba (v : SMap DigestEnt) : (s.withDigests v).msgPba = s.msgPba := rfl
@[simp] theorem withDigests_wqs (v : SMap DigestEnt) : (s.withDigests v).wqs = s.wqs := rfl
@[simp] theorem withDigests_cqs (v : SMap DigestEnt) : (s.withDigests v).cqs = s.cqs := rfl
@[simp] theorem withDigests_eqs (v : SMap DigestEnt) : (s.withDigests v).eqs = s.eqs := rfl
@[simp] theorem withDigests_work (v : SMap DigestEnt) : (s.withDigests v).work = s.work := rfl
@[simp] theorem withDigests_nextWork (v : SMap DigestEnt) : (s.withDigests v).nextWork = s.nextWork := rfl
@[simp] theorem withDigests_reads (v : SMap DigestEnt) : (s.withDigests v).reads = s.reads := rfl
@[simp] theorem withDigests_nextRead (v : SMap DigestEnt) : (s.withDigests v).nextRead = s.nextRead := rfl
@[simp] theorem withDigests_fns (v : SMap DigestEnt) : (s.withDigests v).fns = s.fns := rfl
@[simp] theorem withDigests_jobs (v : SMap DigestEnt) : (s.withDigests v).jobs = s.jobs := rfl
@[simp] theorem withDigests_trn (v : SMap DigestEnt) : (s.withDigests v).trn = s.trn := rfl
@[simp] theorem withDigests_xpt (v : SMap DigestEnt) : (s.withDigests v).xpt = s.xpt := rfl
@[simp] theorem withDigests_mtc (v : SMap DigestEnt) : (s.withDigests v).mtc = s.mtc := rfl
@[simp] theorem withDigests_trees (v : SMap DigestEnt) : (s.withDigests v).trees = s.trees := rfl
@[simp] theorem withDigests_regs (v : SMap DigestEnt) : (s.withDigests v).regs = s.regs := rfl
@[simp] theorem withDigests_cgc (v : SMap DigestEnt) : (s.withDigests v).cgc = s.cgc := rfl
@[simp] theorem withDigests_lck (v : SMap DigestEnt) : (s.withDigests v).lck = s.lck := rfl
@[simp] theorem withDigests_stk (v : SMap DigestEnt) : (s.withDigests v).stk = s.stk := rfl
@[simp] theorem withDigests_arb (v : SMap DigestEnt) : (s.withDigests v).arb = s.arb := rfl
@[simp] theorem withDigests_sec (v : SMap DigestEnt) : (s.withDigests v).sec = s.sec := rfl
@[simp] theorem withDigests_flt (v : SMap DigestEnt) : (s.withDigests v).flt = s.flt := rfl
@[simp] theorem withDigests_time (v : SMap DigestEnt) : (s.withDigests v).time = s.time := rfl
@[simp] theorem withDigests_pmon (v : SMap DigestEnt) : (s.withDigests v).pmon = s.pmon := rfl
@[simp] theorem withDigests_pwr (v : SMap DigestEnt) : (s.withDigests v).pwr = s.pwr := rfl
@[simp] theorem withDigests_tap (v : SMap DigestEnt) : (s.withDigests v).tap = s.tap := rfl
@[simp] theorem withDigests_opening (v : SMap DigestEnt) : (s.withDigests v).opening = s.opening := rfl
@[simp] theorem withDigests_digests (v : SMap DigestEnt) : (s.withDigests v).digests = v := rfl
@[simp] theorem rd_withDigests (v : SMap DigestEnt) (g : FRef) : (s.withDigests v).rd g = s.rd g := rfl

/-! Fields under `withDigestAt`. -/

@[simp] theorem withDigestAt_pending (v : SMap Nat) : (s.withDigestAt v).pending = s.pending := rfl
@[simp] theorem withDigestAt_flds (v : SMap Nat) : (s.withDigestAt v).flds = s.flds := rfl
@[simp] theorem withDigestAt_now (v : SMap Nat) : (s.withDigestAt v).now = s.now := rfl
@[simp] theorem withDigestAt_rng (v : SMap Nat) : (s.withDigestAt v).rng = s.rng := rfl
@[simp] theorem withDigestAt_out (v : SMap Nat) : (s.withDigestAt v).out = s.out := rfl
@[simp] theorem withDigestAt_mem (v : SMap Nat) : (s.withDigestAt v).mem = s.mem := rfl
@[simp] theorem withDigestAt_lanes (v : SMap Nat) : (s.withDigestAt v).lanes = s.lanes := rfl
@[simp] theorem withDigestAt_ports (v : SMap Nat) : (s.withDigestAt v).ports = s.ports := rfl
@[simp] theorem withDigestAt_buf (v : SMap Nat) : (s.withDigestAt v).buf = s.buf := rfl
@[simp] theorem withDigestAt_nextPid (v : SMap Nat) : (s.withDigestAt v).nextPid = s.nextPid := rfl
@[simp] theorem withDigestAt_oq (v : SMap Nat) : (s.withDigestAt v).oq = s.oq := rfl
@[simp] theorem withDigestAt_lin (v : SMap Nat) : (s.withDigestAt v).lin = s.lin := rfl
@[simp] theorem withDigestAt_guarUsed (v : SMap Nat) : (s.withDigestAt v).guarUsed = s.guarUsed := rfl
@[simp] theorem withDigestAt_pol (v : SMap Nat) : (s.withDigestAt v).pol = s.pol := rfl
@[simp] theorem withDigestAt_sched (v : SMap Nat) : (s.withDigestAt v).sched = s.sched := rfl
@[simp] theorem withDigestAt_swc (v : SMap Nat) : (s.withDigestAt v).swc = s.swc := rfl
@[simp] theorem withDigestAt_departures (v : SMap Nat) : (s.withDigestAt v).departures = s.departures := rfl
@[simp] theorem withDigestAt_copying (v : SMap Nat) : (s.withDigestAt v).copying = s.copying := rfl
@[simp] theorem withDigestAt_sinceSwap (v : SMap Nat) : (s.withDigestAt v).sinceSwap = s.sinceSwap := rfl
@[simp] theorem withDigestAt_digests (v : SMap Nat) : (s.withDigestAt v).digests = s.digests := rfl
@[simp] theorem withDigestAt_engReq (v : SMap Nat) : (s.withDigestAt v).engReq = s.engReq := rfl
@[simp] theorem withDigestAt_engFwd (v : SMap Nat) : (s.withDigestAt v).engFwd = s.engFwd := rfl
@[simp] theorem withDigestAt_engRep (v : SMap Nat) : (s.withDigestAt v).engRep = s.engRep := rfl
@[simp] theorem withDigestAt_colIn (v : SMap Nat) : (s.withDigestAt v).colIn = s.colIn := rfl
@[simp] theorem withDigestAt_colDown (v : SMap Nat) : (s.withDigestAt v).colDown = s.colDown := rfl
@[simp] theorem withDigestAt_arbIn (v : SMap Nat) : (s.withDigestAt v).arbIn = s.arbIn := rfl
@[simp] theorem withDigestAt_mgmtUp (v : SMap Nat) : (s.withDigestAt v).mgmtUp = s.mgmtUp := rfl
@[simp] theorem withDigestAt_mgmtD3 (v : SMap Nat) : (s.withDigestAt v).mgmtD3 = s.mgmtD3 := rfl
@[simp] theorem withDigestAt_pci (v : SMap Nat) : (s.withDigestAt v).pci = s.pci := rfl
@[simp] theorem withDigestAt_msgPba (v : SMap Nat) : (s.withDigestAt v).msgPba = s.msgPba := rfl
@[simp] theorem withDigestAt_wqs (v : SMap Nat) : (s.withDigestAt v).wqs = s.wqs := rfl
@[simp] theorem withDigestAt_cqs (v : SMap Nat) : (s.withDigestAt v).cqs = s.cqs := rfl
@[simp] theorem withDigestAt_eqs (v : SMap Nat) : (s.withDigestAt v).eqs = s.eqs := rfl
@[simp] theorem withDigestAt_work (v : SMap Nat) : (s.withDigestAt v).work = s.work := rfl
@[simp] theorem withDigestAt_nextWork (v : SMap Nat) : (s.withDigestAt v).nextWork = s.nextWork := rfl
@[simp] theorem withDigestAt_reads (v : SMap Nat) : (s.withDigestAt v).reads = s.reads := rfl
@[simp] theorem withDigestAt_nextRead (v : SMap Nat) : (s.withDigestAt v).nextRead = s.nextRead := rfl
@[simp] theorem withDigestAt_fns (v : SMap Nat) : (s.withDigestAt v).fns = s.fns := rfl
@[simp] theorem withDigestAt_jobs (v : SMap Nat) : (s.withDigestAt v).jobs = s.jobs := rfl
@[simp] theorem withDigestAt_trn (v : SMap Nat) : (s.withDigestAt v).trn = s.trn := rfl
@[simp] theorem withDigestAt_xpt (v : SMap Nat) : (s.withDigestAt v).xpt = s.xpt := rfl
@[simp] theorem withDigestAt_mtc (v : SMap Nat) : (s.withDigestAt v).mtc = s.mtc := rfl
@[simp] theorem withDigestAt_trees (v : SMap Nat) : (s.withDigestAt v).trees = s.trees := rfl
@[simp] theorem withDigestAt_regs (v : SMap Nat) : (s.withDigestAt v).regs = s.regs := rfl
@[simp] theorem withDigestAt_cgc (v : SMap Nat) : (s.withDigestAt v).cgc = s.cgc := rfl
@[simp] theorem withDigestAt_lck (v : SMap Nat) : (s.withDigestAt v).lck = s.lck := rfl
@[simp] theorem withDigestAt_stk (v : SMap Nat) : (s.withDigestAt v).stk = s.stk := rfl
@[simp] theorem withDigestAt_arb (v : SMap Nat) : (s.withDigestAt v).arb = s.arb := rfl
@[simp] theorem withDigestAt_sec (v : SMap Nat) : (s.withDigestAt v).sec = s.sec := rfl
@[simp] theorem withDigestAt_flt (v : SMap Nat) : (s.withDigestAt v).flt = s.flt := rfl
@[simp] theorem withDigestAt_time (v : SMap Nat) : (s.withDigestAt v).time = s.time := rfl
@[simp] theorem withDigestAt_pmon (v : SMap Nat) : (s.withDigestAt v).pmon = s.pmon := rfl
@[simp] theorem withDigestAt_pwr (v : SMap Nat) : (s.withDigestAt v).pwr = s.pwr := rfl
@[simp] theorem withDigestAt_tap (v : SMap Nat) : (s.withDigestAt v).tap = s.tap := rfl
@[simp] theorem withDigestAt_opening (v : SMap Nat) : (s.withDigestAt v).opening = s.opening := rfl
@[simp] theorem withDigestAt_digestAt (v : SMap Nat) : (s.withDigestAt v).digestAt = v := rfl
@[simp] theorem rd_withDigestAt (v : SMap Nat) (g : FRef) : (s.withDigestAt v).rd g = s.rd g := rfl

/-! Fields under `withEngReq`. -/

@[simp] theorem withEngReq_pending (v : List Pkt) : (s.withEngReq v).pending = s.pending := rfl
@[simp] theorem withEngReq_flds (v : List Pkt) : (s.withEngReq v).flds = s.flds := rfl
@[simp] theorem withEngReq_now (v : List Pkt) : (s.withEngReq v).now = s.now := rfl
@[simp] theorem withEngReq_rng (v : List Pkt) : (s.withEngReq v).rng = s.rng := rfl
@[simp] theorem withEngReq_out (v : List Pkt) : (s.withEngReq v).out = s.out := rfl
@[simp] theorem withEngReq_mem (v : List Pkt) : (s.withEngReq v).mem = s.mem := rfl
@[simp] theorem withEngReq_lanes (v : List Pkt) : (s.withEngReq v).lanes = s.lanes := rfl
@[simp] theorem withEngReq_ports (v : List Pkt) : (s.withEngReq v).ports = s.ports := rfl
@[simp] theorem withEngReq_buf (v : List Pkt) : (s.withEngReq v).buf = s.buf := rfl
@[simp] theorem withEngReq_nextPid (v : List Pkt) : (s.withEngReq v).nextPid = s.nextPid := rfl
@[simp] theorem withEngReq_oq (v : List Pkt) : (s.withEngReq v).oq = s.oq := rfl
@[simp] theorem withEngReq_lin (v : List Pkt) : (s.withEngReq v).lin = s.lin := rfl
@[simp] theorem withEngReq_guarUsed (v : List Pkt) : (s.withEngReq v).guarUsed = s.guarUsed := rfl
@[simp] theorem withEngReq_pol (v : List Pkt) : (s.withEngReq v).pol = s.pol := rfl
@[simp] theorem withEngReq_sched (v : List Pkt) : (s.withEngReq v).sched = s.sched := rfl
@[simp] theorem withEngReq_swc (v : List Pkt) : (s.withEngReq v).swc = s.swc := rfl
@[simp] theorem withEngReq_departures (v : List Pkt) : (s.withEngReq v).departures = s.departures := rfl
@[simp] theorem withEngReq_copying (v : List Pkt) : (s.withEngReq v).copying = s.copying := rfl
@[simp] theorem withEngReq_sinceSwap (v : List Pkt) : (s.withEngReq v).sinceSwap = s.sinceSwap := rfl
@[simp] theorem withEngReq_digests (v : List Pkt) : (s.withEngReq v).digests = s.digests := rfl
@[simp] theorem withEngReq_digestAt (v : List Pkt) : (s.withEngReq v).digestAt = s.digestAt := rfl
@[simp] theorem withEngReq_engFwd (v : List Pkt) : (s.withEngReq v).engFwd = s.engFwd := rfl
@[simp] theorem withEngReq_engRep (v : List Pkt) : (s.withEngReq v).engRep = s.engRep := rfl
@[simp] theorem withEngReq_colIn (v : List Pkt) : (s.withEngReq v).colIn = s.colIn := rfl
@[simp] theorem withEngReq_colDown (v : List Pkt) : (s.withEngReq v).colDown = s.colDown := rfl
@[simp] theorem withEngReq_arbIn (v : List Pkt) : (s.withEngReq v).arbIn = s.arbIn := rfl
@[simp] theorem withEngReq_mgmtUp (v : List Pkt) : (s.withEngReq v).mgmtUp = s.mgmtUp := rfl
@[simp] theorem withEngReq_mgmtD3 (v : List Pkt) : (s.withEngReq v).mgmtD3 = s.mgmtD3 := rfl
@[simp] theorem withEngReq_pci (v : List Pkt) : (s.withEngReq v).pci = s.pci := rfl
@[simp] theorem withEngReq_msgPba (v : List Pkt) : (s.withEngReq v).msgPba = s.msgPba := rfl
@[simp] theorem withEngReq_wqs (v : List Pkt) : (s.withEngReq v).wqs = s.wqs := rfl
@[simp] theorem withEngReq_cqs (v : List Pkt) : (s.withEngReq v).cqs = s.cqs := rfl
@[simp] theorem withEngReq_eqs (v : List Pkt) : (s.withEngReq v).eqs = s.eqs := rfl
@[simp] theorem withEngReq_work (v : List Pkt) : (s.withEngReq v).work = s.work := rfl
@[simp] theorem withEngReq_nextWork (v : List Pkt) : (s.withEngReq v).nextWork = s.nextWork := rfl
@[simp] theorem withEngReq_reads (v : List Pkt) : (s.withEngReq v).reads = s.reads := rfl
@[simp] theorem withEngReq_nextRead (v : List Pkt) : (s.withEngReq v).nextRead = s.nextRead := rfl
@[simp] theorem withEngReq_fns (v : List Pkt) : (s.withEngReq v).fns = s.fns := rfl
@[simp] theorem withEngReq_jobs (v : List Pkt) : (s.withEngReq v).jobs = s.jobs := rfl
@[simp] theorem withEngReq_trn (v : List Pkt) : (s.withEngReq v).trn = s.trn := rfl
@[simp] theorem withEngReq_xpt (v : List Pkt) : (s.withEngReq v).xpt = s.xpt := rfl
@[simp] theorem withEngReq_mtc (v : List Pkt) : (s.withEngReq v).mtc = s.mtc := rfl
@[simp] theorem withEngReq_trees (v : List Pkt) : (s.withEngReq v).trees = s.trees := rfl
@[simp] theorem withEngReq_regs (v : List Pkt) : (s.withEngReq v).regs = s.regs := rfl
@[simp] theorem withEngReq_cgc (v : List Pkt) : (s.withEngReq v).cgc = s.cgc := rfl
@[simp] theorem withEngReq_lck (v : List Pkt) : (s.withEngReq v).lck = s.lck := rfl
@[simp] theorem withEngReq_stk (v : List Pkt) : (s.withEngReq v).stk = s.stk := rfl
@[simp] theorem withEngReq_arb (v : List Pkt) : (s.withEngReq v).arb = s.arb := rfl
@[simp] theorem withEngReq_sec (v : List Pkt) : (s.withEngReq v).sec = s.sec := rfl
@[simp] theorem withEngReq_flt (v : List Pkt) : (s.withEngReq v).flt = s.flt := rfl
@[simp] theorem withEngReq_time (v : List Pkt) : (s.withEngReq v).time = s.time := rfl
@[simp] theorem withEngReq_pmon (v : List Pkt) : (s.withEngReq v).pmon = s.pmon := rfl
@[simp] theorem withEngReq_pwr (v : List Pkt) : (s.withEngReq v).pwr = s.pwr := rfl
@[simp] theorem withEngReq_tap (v : List Pkt) : (s.withEngReq v).tap = s.tap := rfl
@[simp] theorem withEngReq_opening (v : List Pkt) : (s.withEngReq v).opening = s.opening := rfl
@[simp] theorem withEngReq_engReq (v : List Pkt) : (s.withEngReq v).engReq = v := rfl
@[simp] theorem rd_withEngReq (v : List Pkt) (g : FRef) : (s.withEngReq v).rd g = s.rd g := rfl

/-! Fields under `withEngFwd`. -/

@[simp] theorem withEngFwd_pending (v : List Pkt) : (s.withEngFwd v).pending = s.pending := rfl
@[simp] theorem withEngFwd_flds (v : List Pkt) : (s.withEngFwd v).flds = s.flds := rfl
@[simp] theorem withEngFwd_now (v : List Pkt) : (s.withEngFwd v).now = s.now := rfl
@[simp] theorem withEngFwd_rng (v : List Pkt) : (s.withEngFwd v).rng = s.rng := rfl
@[simp] theorem withEngFwd_out (v : List Pkt) : (s.withEngFwd v).out = s.out := rfl
@[simp] theorem withEngFwd_mem (v : List Pkt) : (s.withEngFwd v).mem = s.mem := rfl
@[simp] theorem withEngFwd_lanes (v : List Pkt) : (s.withEngFwd v).lanes = s.lanes := rfl
@[simp] theorem withEngFwd_ports (v : List Pkt) : (s.withEngFwd v).ports = s.ports := rfl
@[simp] theorem withEngFwd_buf (v : List Pkt) : (s.withEngFwd v).buf = s.buf := rfl
@[simp] theorem withEngFwd_nextPid (v : List Pkt) : (s.withEngFwd v).nextPid = s.nextPid := rfl
@[simp] theorem withEngFwd_oq (v : List Pkt) : (s.withEngFwd v).oq = s.oq := rfl
@[simp] theorem withEngFwd_lin (v : List Pkt) : (s.withEngFwd v).lin = s.lin := rfl
@[simp] theorem withEngFwd_guarUsed (v : List Pkt) : (s.withEngFwd v).guarUsed = s.guarUsed := rfl
@[simp] theorem withEngFwd_pol (v : List Pkt) : (s.withEngFwd v).pol = s.pol := rfl
@[simp] theorem withEngFwd_sched (v : List Pkt) : (s.withEngFwd v).sched = s.sched := rfl
@[simp] theorem withEngFwd_swc (v : List Pkt) : (s.withEngFwd v).swc = s.swc := rfl
@[simp] theorem withEngFwd_departures (v : List Pkt) : (s.withEngFwd v).departures = s.departures := rfl
@[simp] theorem withEngFwd_copying (v : List Pkt) : (s.withEngFwd v).copying = s.copying := rfl
@[simp] theorem withEngFwd_sinceSwap (v : List Pkt) : (s.withEngFwd v).sinceSwap = s.sinceSwap := rfl
@[simp] theorem withEngFwd_digests (v : List Pkt) : (s.withEngFwd v).digests = s.digests := rfl
@[simp] theorem withEngFwd_digestAt (v : List Pkt) : (s.withEngFwd v).digestAt = s.digestAt := rfl
@[simp] theorem withEngFwd_engReq (v : List Pkt) : (s.withEngFwd v).engReq = s.engReq := rfl
@[simp] theorem withEngFwd_engRep (v : List Pkt) : (s.withEngFwd v).engRep = s.engRep := rfl
@[simp] theorem withEngFwd_colIn (v : List Pkt) : (s.withEngFwd v).colIn = s.colIn := rfl
@[simp] theorem withEngFwd_colDown (v : List Pkt) : (s.withEngFwd v).colDown = s.colDown := rfl
@[simp] theorem withEngFwd_arbIn (v : List Pkt) : (s.withEngFwd v).arbIn = s.arbIn := rfl
@[simp] theorem withEngFwd_mgmtUp (v : List Pkt) : (s.withEngFwd v).mgmtUp = s.mgmtUp := rfl
@[simp] theorem withEngFwd_mgmtD3 (v : List Pkt) : (s.withEngFwd v).mgmtD3 = s.mgmtD3 := rfl
@[simp] theorem withEngFwd_pci (v : List Pkt) : (s.withEngFwd v).pci = s.pci := rfl
@[simp] theorem withEngFwd_msgPba (v : List Pkt) : (s.withEngFwd v).msgPba = s.msgPba := rfl
@[simp] theorem withEngFwd_wqs (v : List Pkt) : (s.withEngFwd v).wqs = s.wqs := rfl
@[simp] theorem withEngFwd_cqs (v : List Pkt) : (s.withEngFwd v).cqs = s.cqs := rfl
@[simp] theorem withEngFwd_eqs (v : List Pkt) : (s.withEngFwd v).eqs = s.eqs := rfl
@[simp] theorem withEngFwd_work (v : List Pkt) : (s.withEngFwd v).work = s.work := rfl
@[simp] theorem withEngFwd_nextWork (v : List Pkt) : (s.withEngFwd v).nextWork = s.nextWork := rfl
@[simp] theorem withEngFwd_reads (v : List Pkt) : (s.withEngFwd v).reads = s.reads := rfl
@[simp] theorem withEngFwd_nextRead (v : List Pkt) : (s.withEngFwd v).nextRead = s.nextRead := rfl
@[simp] theorem withEngFwd_fns (v : List Pkt) : (s.withEngFwd v).fns = s.fns := rfl
@[simp] theorem withEngFwd_jobs (v : List Pkt) : (s.withEngFwd v).jobs = s.jobs := rfl
@[simp] theorem withEngFwd_trn (v : List Pkt) : (s.withEngFwd v).trn = s.trn := rfl
@[simp] theorem withEngFwd_xpt (v : List Pkt) : (s.withEngFwd v).xpt = s.xpt := rfl
@[simp] theorem withEngFwd_mtc (v : List Pkt) : (s.withEngFwd v).mtc = s.mtc := rfl
@[simp] theorem withEngFwd_trees (v : List Pkt) : (s.withEngFwd v).trees = s.trees := rfl
@[simp] theorem withEngFwd_regs (v : List Pkt) : (s.withEngFwd v).regs = s.regs := rfl
@[simp] theorem withEngFwd_cgc (v : List Pkt) : (s.withEngFwd v).cgc = s.cgc := rfl
@[simp] theorem withEngFwd_lck (v : List Pkt) : (s.withEngFwd v).lck = s.lck := rfl
@[simp] theorem withEngFwd_stk (v : List Pkt) : (s.withEngFwd v).stk = s.stk := rfl
@[simp] theorem withEngFwd_arb (v : List Pkt) : (s.withEngFwd v).arb = s.arb := rfl
@[simp] theorem withEngFwd_sec (v : List Pkt) : (s.withEngFwd v).sec = s.sec := rfl
@[simp] theorem withEngFwd_flt (v : List Pkt) : (s.withEngFwd v).flt = s.flt := rfl
@[simp] theorem withEngFwd_time (v : List Pkt) : (s.withEngFwd v).time = s.time := rfl
@[simp] theorem withEngFwd_pmon (v : List Pkt) : (s.withEngFwd v).pmon = s.pmon := rfl
@[simp] theorem withEngFwd_pwr (v : List Pkt) : (s.withEngFwd v).pwr = s.pwr := rfl
@[simp] theorem withEngFwd_tap (v : List Pkt) : (s.withEngFwd v).tap = s.tap := rfl
@[simp] theorem withEngFwd_opening (v : List Pkt) : (s.withEngFwd v).opening = s.opening := rfl
@[simp] theorem withEngFwd_engFwd (v : List Pkt) : (s.withEngFwd v).engFwd = v := rfl
@[simp] theorem rd_withEngFwd (v : List Pkt) (g : FRef) : (s.withEngFwd v).rd g = s.rd g := rfl

/-! Fields under `withEngRep`. -/

@[simp] theorem withEngRep_pending (v : List Pkt) : (s.withEngRep v).pending = s.pending := rfl
@[simp] theorem withEngRep_flds (v : List Pkt) : (s.withEngRep v).flds = s.flds := rfl
@[simp] theorem withEngRep_now (v : List Pkt) : (s.withEngRep v).now = s.now := rfl
@[simp] theorem withEngRep_rng (v : List Pkt) : (s.withEngRep v).rng = s.rng := rfl
@[simp] theorem withEngRep_out (v : List Pkt) : (s.withEngRep v).out = s.out := rfl
@[simp] theorem withEngRep_mem (v : List Pkt) : (s.withEngRep v).mem = s.mem := rfl
@[simp] theorem withEngRep_lanes (v : List Pkt) : (s.withEngRep v).lanes = s.lanes := rfl
@[simp] theorem withEngRep_ports (v : List Pkt) : (s.withEngRep v).ports = s.ports := rfl
@[simp] theorem withEngRep_buf (v : List Pkt) : (s.withEngRep v).buf = s.buf := rfl
@[simp] theorem withEngRep_nextPid (v : List Pkt) : (s.withEngRep v).nextPid = s.nextPid := rfl
@[simp] theorem withEngRep_oq (v : List Pkt) : (s.withEngRep v).oq = s.oq := rfl
@[simp] theorem withEngRep_lin (v : List Pkt) : (s.withEngRep v).lin = s.lin := rfl
@[simp] theorem withEngRep_guarUsed (v : List Pkt) : (s.withEngRep v).guarUsed = s.guarUsed := rfl
@[simp] theorem withEngRep_pol (v : List Pkt) : (s.withEngRep v).pol = s.pol := rfl
@[simp] theorem withEngRep_sched (v : List Pkt) : (s.withEngRep v).sched = s.sched := rfl
@[simp] theorem withEngRep_swc (v : List Pkt) : (s.withEngRep v).swc = s.swc := rfl
@[simp] theorem withEngRep_departures (v : List Pkt) : (s.withEngRep v).departures = s.departures := rfl
@[simp] theorem withEngRep_copying (v : List Pkt) : (s.withEngRep v).copying = s.copying := rfl
@[simp] theorem withEngRep_sinceSwap (v : List Pkt) : (s.withEngRep v).sinceSwap = s.sinceSwap := rfl
@[simp] theorem withEngRep_digests (v : List Pkt) : (s.withEngRep v).digests = s.digests := rfl
@[simp] theorem withEngRep_digestAt (v : List Pkt) : (s.withEngRep v).digestAt = s.digestAt := rfl
@[simp] theorem withEngRep_engReq (v : List Pkt) : (s.withEngRep v).engReq = s.engReq := rfl
@[simp] theorem withEngRep_engFwd (v : List Pkt) : (s.withEngRep v).engFwd = s.engFwd := rfl
@[simp] theorem withEngRep_colIn (v : List Pkt) : (s.withEngRep v).colIn = s.colIn := rfl
@[simp] theorem withEngRep_colDown (v : List Pkt) : (s.withEngRep v).colDown = s.colDown := rfl
@[simp] theorem withEngRep_arbIn (v : List Pkt) : (s.withEngRep v).arbIn = s.arbIn := rfl
@[simp] theorem withEngRep_mgmtUp (v : List Pkt) : (s.withEngRep v).mgmtUp = s.mgmtUp := rfl
@[simp] theorem withEngRep_mgmtD3 (v : List Pkt) : (s.withEngRep v).mgmtD3 = s.mgmtD3 := rfl
@[simp] theorem withEngRep_pci (v : List Pkt) : (s.withEngRep v).pci = s.pci := rfl
@[simp] theorem withEngRep_msgPba (v : List Pkt) : (s.withEngRep v).msgPba = s.msgPba := rfl
@[simp] theorem withEngRep_wqs (v : List Pkt) : (s.withEngRep v).wqs = s.wqs := rfl
@[simp] theorem withEngRep_cqs (v : List Pkt) : (s.withEngRep v).cqs = s.cqs := rfl
@[simp] theorem withEngRep_eqs (v : List Pkt) : (s.withEngRep v).eqs = s.eqs := rfl
@[simp] theorem withEngRep_work (v : List Pkt) : (s.withEngRep v).work = s.work := rfl
@[simp] theorem withEngRep_nextWork (v : List Pkt) : (s.withEngRep v).nextWork = s.nextWork := rfl
@[simp] theorem withEngRep_reads (v : List Pkt) : (s.withEngRep v).reads = s.reads := rfl
@[simp] theorem withEngRep_nextRead (v : List Pkt) : (s.withEngRep v).nextRead = s.nextRead := rfl
@[simp] theorem withEngRep_fns (v : List Pkt) : (s.withEngRep v).fns = s.fns := rfl
@[simp] theorem withEngRep_jobs (v : List Pkt) : (s.withEngRep v).jobs = s.jobs := rfl
@[simp] theorem withEngRep_trn (v : List Pkt) : (s.withEngRep v).trn = s.trn := rfl
@[simp] theorem withEngRep_xpt (v : List Pkt) : (s.withEngRep v).xpt = s.xpt := rfl
@[simp] theorem withEngRep_mtc (v : List Pkt) : (s.withEngRep v).mtc = s.mtc := rfl
@[simp] theorem withEngRep_trees (v : List Pkt) : (s.withEngRep v).trees = s.trees := rfl
@[simp] theorem withEngRep_regs (v : List Pkt) : (s.withEngRep v).regs = s.regs := rfl
@[simp] theorem withEngRep_cgc (v : List Pkt) : (s.withEngRep v).cgc = s.cgc := rfl
@[simp] theorem withEngRep_lck (v : List Pkt) : (s.withEngRep v).lck = s.lck := rfl
@[simp] theorem withEngRep_stk (v : List Pkt) : (s.withEngRep v).stk = s.stk := rfl
@[simp] theorem withEngRep_arb (v : List Pkt) : (s.withEngRep v).arb = s.arb := rfl
@[simp] theorem withEngRep_sec (v : List Pkt) : (s.withEngRep v).sec = s.sec := rfl
@[simp] theorem withEngRep_flt (v : List Pkt) : (s.withEngRep v).flt = s.flt := rfl
@[simp] theorem withEngRep_time (v : List Pkt) : (s.withEngRep v).time = s.time := rfl
@[simp] theorem withEngRep_pmon (v : List Pkt) : (s.withEngRep v).pmon = s.pmon := rfl
@[simp] theorem withEngRep_pwr (v : List Pkt) : (s.withEngRep v).pwr = s.pwr := rfl
@[simp] theorem withEngRep_tap (v : List Pkt) : (s.withEngRep v).tap = s.tap := rfl
@[simp] theorem withEngRep_opening (v : List Pkt) : (s.withEngRep v).opening = s.opening := rfl
@[simp] theorem withEngRep_engRep (v : List Pkt) : (s.withEngRep v).engRep = v := rfl
@[simp] theorem rd_withEngRep (v : List Pkt) (g : FRef) : (s.withEngRep v).rd g = s.rd g := rfl

/-! Fields under `withColIn`. -/

@[simp] theorem withColIn_pending (v : List ColPkt) : (s.withColIn v).pending = s.pending := rfl
@[simp] theorem withColIn_flds (v : List ColPkt) : (s.withColIn v).flds = s.flds := rfl
@[simp] theorem withColIn_now (v : List ColPkt) : (s.withColIn v).now = s.now := rfl
@[simp] theorem withColIn_rng (v : List ColPkt) : (s.withColIn v).rng = s.rng := rfl
@[simp] theorem withColIn_out (v : List ColPkt) : (s.withColIn v).out = s.out := rfl
@[simp] theorem withColIn_mem (v : List ColPkt) : (s.withColIn v).mem = s.mem := rfl
@[simp] theorem withColIn_lanes (v : List ColPkt) : (s.withColIn v).lanes = s.lanes := rfl
@[simp] theorem withColIn_ports (v : List ColPkt) : (s.withColIn v).ports = s.ports := rfl
@[simp] theorem withColIn_buf (v : List ColPkt) : (s.withColIn v).buf = s.buf := rfl
@[simp] theorem withColIn_nextPid (v : List ColPkt) : (s.withColIn v).nextPid = s.nextPid := rfl
@[simp] theorem withColIn_oq (v : List ColPkt) : (s.withColIn v).oq = s.oq := rfl
@[simp] theorem withColIn_lin (v : List ColPkt) : (s.withColIn v).lin = s.lin := rfl
@[simp] theorem withColIn_guarUsed (v : List ColPkt) : (s.withColIn v).guarUsed = s.guarUsed := rfl
@[simp] theorem withColIn_pol (v : List ColPkt) : (s.withColIn v).pol = s.pol := rfl
@[simp] theorem withColIn_sched (v : List ColPkt) : (s.withColIn v).sched = s.sched := rfl
@[simp] theorem withColIn_swc (v : List ColPkt) : (s.withColIn v).swc = s.swc := rfl
@[simp] theorem withColIn_departures (v : List ColPkt) : (s.withColIn v).departures = s.departures := rfl
@[simp] theorem withColIn_copying (v : List ColPkt) : (s.withColIn v).copying = s.copying := rfl
@[simp] theorem withColIn_sinceSwap (v : List ColPkt) : (s.withColIn v).sinceSwap = s.sinceSwap := rfl
@[simp] theorem withColIn_digests (v : List ColPkt) : (s.withColIn v).digests = s.digests := rfl
@[simp] theorem withColIn_digestAt (v : List ColPkt) : (s.withColIn v).digestAt = s.digestAt := rfl
@[simp] theorem withColIn_engReq (v : List ColPkt) : (s.withColIn v).engReq = s.engReq := rfl
@[simp] theorem withColIn_engFwd (v : List ColPkt) : (s.withColIn v).engFwd = s.engFwd := rfl
@[simp] theorem withColIn_engRep (v : List ColPkt) : (s.withColIn v).engRep = s.engRep := rfl
@[simp] theorem withColIn_colDown (v : List ColPkt) : (s.withColIn v).colDown = s.colDown := rfl
@[simp] theorem withColIn_arbIn (v : List ColPkt) : (s.withColIn v).arbIn = s.arbIn := rfl
@[simp] theorem withColIn_mgmtUp (v : List ColPkt) : (s.withColIn v).mgmtUp = s.mgmtUp := rfl
@[simp] theorem withColIn_mgmtD3 (v : List ColPkt) : (s.withColIn v).mgmtD3 = s.mgmtD3 := rfl
@[simp] theorem withColIn_pci (v : List ColPkt) : (s.withColIn v).pci = s.pci := rfl
@[simp] theorem withColIn_msgPba (v : List ColPkt) : (s.withColIn v).msgPba = s.msgPba := rfl
@[simp] theorem withColIn_wqs (v : List ColPkt) : (s.withColIn v).wqs = s.wqs := rfl
@[simp] theorem withColIn_cqs (v : List ColPkt) : (s.withColIn v).cqs = s.cqs := rfl
@[simp] theorem withColIn_eqs (v : List ColPkt) : (s.withColIn v).eqs = s.eqs := rfl
@[simp] theorem withColIn_work (v : List ColPkt) : (s.withColIn v).work = s.work := rfl
@[simp] theorem withColIn_nextWork (v : List ColPkt) : (s.withColIn v).nextWork = s.nextWork := rfl
@[simp] theorem withColIn_reads (v : List ColPkt) : (s.withColIn v).reads = s.reads := rfl
@[simp] theorem withColIn_nextRead (v : List ColPkt) : (s.withColIn v).nextRead = s.nextRead := rfl
@[simp] theorem withColIn_fns (v : List ColPkt) : (s.withColIn v).fns = s.fns := rfl
@[simp] theorem withColIn_jobs (v : List ColPkt) : (s.withColIn v).jobs = s.jobs := rfl
@[simp] theorem withColIn_trn (v : List ColPkt) : (s.withColIn v).trn = s.trn := rfl
@[simp] theorem withColIn_xpt (v : List ColPkt) : (s.withColIn v).xpt = s.xpt := rfl
@[simp] theorem withColIn_mtc (v : List ColPkt) : (s.withColIn v).mtc = s.mtc := rfl
@[simp] theorem withColIn_trees (v : List ColPkt) : (s.withColIn v).trees = s.trees := rfl
@[simp] theorem withColIn_regs (v : List ColPkt) : (s.withColIn v).regs = s.regs := rfl
@[simp] theorem withColIn_cgc (v : List ColPkt) : (s.withColIn v).cgc = s.cgc := rfl
@[simp] theorem withColIn_lck (v : List ColPkt) : (s.withColIn v).lck = s.lck := rfl
@[simp] theorem withColIn_stk (v : List ColPkt) : (s.withColIn v).stk = s.stk := rfl
@[simp] theorem withColIn_arb (v : List ColPkt) : (s.withColIn v).arb = s.arb := rfl
@[simp] theorem withColIn_sec (v : List ColPkt) : (s.withColIn v).sec = s.sec := rfl
@[simp] theorem withColIn_flt (v : List ColPkt) : (s.withColIn v).flt = s.flt := rfl
@[simp] theorem withColIn_time (v : List ColPkt) : (s.withColIn v).time = s.time := rfl
@[simp] theorem withColIn_pmon (v : List ColPkt) : (s.withColIn v).pmon = s.pmon := rfl
@[simp] theorem withColIn_pwr (v : List ColPkt) : (s.withColIn v).pwr = s.pwr := rfl
@[simp] theorem withColIn_tap (v : List ColPkt) : (s.withColIn v).tap = s.tap := rfl
@[simp] theorem withColIn_opening (v : List ColPkt) : (s.withColIn v).opening = s.opening := rfl
@[simp] theorem withColIn_colIn (v : List ColPkt) : (s.withColIn v).colIn = v := rfl
@[simp] theorem rd_withColIn (v : List ColPkt) (g : FRef) : (s.withColIn v).rd g = s.rd g := rfl

/-! Fields under `withColDown`. -/

@[simp] theorem withColDown_pending (v : List Nat) : (s.withColDown v).pending = s.pending := rfl
@[simp] theorem withColDown_flds (v : List Nat) : (s.withColDown v).flds = s.flds := rfl
@[simp] theorem withColDown_now (v : List Nat) : (s.withColDown v).now = s.now := rfl
@[simp] theorem withColDown_rng (v : List Nat) : (s.withColDown v).rng = s.rng := rfl
@[simp] theorem withColDown_out (v : List Nat) : (s.withColDown v).out = s.out := rfl
@[simp] theorem withColDown_mem (v : List Nat) : (s.withColDown v).mem = s.mem := rfl
@[simp] theorem withColDown_lanes (v : List Nat) : (s.withColDown v).lanes = s.lanes := rfl
@[simp] theorem withColDown_ports (v : List Nat) : (s.withColDown v).ports = s.ports := rfl
@[simp] theorem withColDown_buf (v : List Nat) : (s.withColDown v).buf = s.buf := rfl
@[simp] theorem withColDown_nextPid (v : List Nat) : (s.withColDown v).nextPid = s.nextPid := rfl
@[simp] theorem withColDown_oq (v : List Nat) : (s.withColDown v).oq = s.oq := rfl
@[simp] theorem withColDown_lin (v : List Nat) : (s.withColDown v).lin = s.lin := rfl
@[simp] theorem withColDown_guarUsed (v : List Nat) : (s.withColDown v).guarUsed = s.guarUsed := rfl
@[simp] theorem withColDown_pol (v : List Nat) : (s.withColDown v).pol = s.pol := rfl
@[simp] theorem withColDown_sched (v : List Nat) : (s.withColDown v).sched = s.sched := rfl
@[simp] theorem withColDown_swc (v : List Nat) : (s.withColDown v).swc = s.swc := rfl
@[simp] theorem withColDown_departures (v : List Nat) : (s.withColDown v).departures = s.departures := rfl
@[simp] theorem withColDown_copying (v : List Nat) : (s.withColDown v).copying = s.copying := rfl
@[simp] theorem withColDown_sinceSwap (v : List Nat) : (s.withColDown v).sinceSwap = s.sinceSwap := rfl
@[simp] theorem withColDown_digests (v : List Nat) : (s.withColDown v).digests = s.digests := rfl
@[simp] theorem withColDown_digestAt (v : List Nat) : (s.withColDown v).digestAt = s.digestAt := rfl
@[simp] theorem withColDown_engReq (v : List Nat) : (s.withColDown v).engReq = s.engReq := rfl
@[simp] theorem withColDown_engFwd (v : List Nat) : (s.withColDown v).engFwd = s.engFwd := rfl
@[simp] theorem withColDown_engRep (v : List Nat) : (s.withColDown v).engRep = s.engRep := rfl
@[simp] theorem withColDown_colIn (v : List Nat) : (s.withColDown v).colIn = s.colIn := rfl
@[simp] theorem withColDown_arbIn (v : List Nat) : (s.withColDown v).arbIn = s.arbIn := rfl
@[simp] theorem withColDown_mgmtUp (v : List Nat) : (s.withColDown v).mgmtUp = s.mgmtUp := rfl
@[simp] theorem withColDown_mgmtD3 (v : List Nat) : (s.withColDown v).mgmtD3 = s.mgmtD3 := rfl
@[simp] theorem withColDown_pci (v : List Nat) : (s.withColDown v).pci = s.pci := rfl
@[simp] theorem withColDown_msgPba (v : List Nat) : (s.withColDown v).msgPba = s.msgPba := rfl
@[simp] theorem withColDown_wqs (v : List Nat) : (s.withColDown v).wqs = s.wqs := rfl
@[simp] theorem withColDown_cqs (v : List Nat) : (s.withColDown v).cqs = s.cqs := rfl
@[simp] theorem withColDown_eqs (v : List Nat) : (s.withColDown v).eqs = s.eqs := rfl
@[simp] theorem withColDown_work (v : List Nat) : (s.withColDown v).work = s.work := rfl
@[simp] theorem withColDown_nextWork (v : List Nat) : (s.withColDown v).nextWork = s.nextWork := rfl
@[simp] theorem withColDown_reads (v : List Nat) : (s.withColDown v).reads = s.reads := rfl
@[simp] theorem withColDown_nextRead (v : List Nat) : (s.withColDown v).nextRead = s.nextRead := rfl
@[simp] theorem withColDown_fns (v : List Nat) : (s.withColDown v).fns = s.fns := rfl
@[simp] theorem withColDown_jobs (v : List Nat) : (s.withColDown v).jobs = s.jobs := rfl
@[simp] theorem withColDown_trn (v : List Nat) : (s.withColDown v).trn = s.trn := rfl
@[simp] theorem withColDown_xpt (v : List Nat) : (s.withColDown v).xpt = s.xpt := rfl
@[simp] theorem withColDown_mtc (v : List Nat) : (s.withColDown v).mtc = s.mtc := rfl
@[simp] theorem withColDown_trees (v : List Nat) : (s.withColDown v).trees = s.trees := rfl
@[simp] theorem withColDown_regs (v : List Nat) : (s.withColDown v).regs = s.regs := rfl
@[simp] theorem withColDown_cgc (v : List Nat) : (s.withColDown v).cgc = s.cgc := rfl
@[simp] theorem withColDown_lck (v : List Nat) : (s.withColDown v).lck = s.lck := rfl
@[simp] theorem withColDown_stk (v : List Nat) : (s.withColDown v).stk = s.stk := rfl
@[simp] theorem withColDown_arb (v : List Nat) : (s.withColDown v).arb = s.arb := rfl
@[simp] theorem withColDown_sec (v : List Nat) : (s.withColDown v).sec = s.sec := rfl
@[simp] theorem withColDown_flt (v : List Nat) : (s.withColDown v).flt = s.flt := rfl
@[simp] theorem withColDown_time (v : List Nat) : (s.withColDown v).time = s.time := rfl
@[simp] theorem withColDown_pmon (v : List Nat) : (s.withColDown v).pmon = s.pmon := rfl
@[simp] theorem withColDown_pwr (v : List Nat) : (s.withColDown v).pwr = s.pwr := rfl
@[simp] theorem withColDown_tap (v : List Nat) : (s.withColDown v).tap = s.tap := rfl
@[simp] theorem withColDown_opening (v : List Nat) : (s.withColDown v).opening = s.opening := rfl
@[simp] theorem withColDown_colDown (v : List Nat) : (s.withColDown v).colDown = v := rfl
@[simp] theorem rd_withColDown (v : List Nat) (g : FRef) : (s.withColDown v).rd g = s.rd g := rfl

/-! Fields under `withArbIn`. -/

@[simp] theorem withArbIn_pending (v : List (Pkt × Nat × Nat)) : (s.withArbIn v).pending = s.pending := rfl
@[simp] theorem withArbIn_flds (v : List (Pkt × Nat × Nat)) : (s.withArbIn v).flds = s.flds := rfl
@[simp] theorem withArbIn_now (v : List (Pkt × Nat × Nat)) : (s.withArbIn v).now = s.now := rfl
@[simp] theorem withArbIn_rng (v : List (Pkt × Nat × Nat)) : (s.withArbIn v).rng = s.rng := rfl
@[simp] theorem withArbIn_out (v : List (Pkt × Nat × Nat)) : (s.withArbIn v).out = s.out := rfl
@[simp] theorem withArbIn_mem (v : List (Pkt × Nat × Nat)) : (s.withArbIn v).mem = s.mem := rfl
@[simp] theorem withArbIn_lanes (v : List (Pkt × Nat × Nat)) : (s.withArbIn v).lanes = s.lanes := rfl
@[simp] theorem withArbIn_ports (v : List (Pkt × Nat × Nat)) : (s.withArbIn v).ports = s.ports := rfl
@[simp] theorem withArbIn_buf (v : List (Pkt × Nat × Nat)) : (s.withArbIn v).buf = s.buf := rfl
@[simp] theorem withArbIn_nextPid (v : List (Pkt × Nat × Nat)) : (s.withArbIn v).nextPid = s.nextPid := rfl
@[simp] theorem withArbIn_oq (v : List (Pkt × Nat × Nat)) : (s.withArbIn v).oq = s.oq := rfl
@[simp] theorem withArbIn_lin (v : List (Pkt × Nat × Nat)) : (s.withArbIn v).lin = s.lin := rfl
@[simp] theorem withArbIn_guarUsed (v : List (Pkt × Nat × Nat)) : (s.withArbIn v).guarUsed = s.guarUsed := rfl
@[simp] theorem withArbIn_pol (v : List (Pkt × Nat × Nat)) : (s.withArbIn v).pol = s.pol := rfl
@[simp] theorem withArbIn_sched (v : List (Pkt × Nat × Nat)) : (s.withArbIn v).sched = s.sched := rfl
@[simp] theorem withArbIn_swc (v : List (Pkt × Nat × Nat)) : (s.withArbIn v).swc = s.swc := rfl
@[simp] theorem withArbIn_departures (v : List (Pkt × Nat × Nat)) : (s.withArbIn v).departures = s.departures := rfl
@[simp] theorem withArbIn_copying (v : List (Pkt × Nat × Nat)) : (s.withArbIn v).copying = s.copying := rfl
@[simp] theorem withArbIn_sinceSwap (v : List (Pkt × Nat × Nat)) : (s.withArbIn v).sinceSwap = s.sinceSwap := rfl
@[simp] theorem withArbIn_digests (v : List (Pkt × Nat × Nat)) : (s.withArbIn v).digests = s.digests := rfl
@[simp] theorem withArbIn_digestAt (v : List (Pkt × Nat × Nat)) : (s.withArbIn v).digestAt = s.digestAt := rfl
@[simp] theorem withArbIn_engReq (v : List (Pkt × Nat × Nat)) : (s.withArbIn v).engReq = s.engReq := rfl
@[simp] theorem withArbIn_engFwd (v : List (Pkt × Nat × Nat)) : (s.withArbIn v).engFwd = s.engFwd := rfl
@[simp] theorem withArbIn_engRep (v : List (Pkt × Nat × Nat)) : (s.withArbIn v).engRep = s.engRep := rfl
@[simp] theorem withArbIn_colIn (v : List (Pkt × Nat × Nat)) : (s.withArbIn v).colIn = s.colIn := rfl
@[simp] theorem withArbIn_colDown (v : List (Pkt × Nat × Nat)) : (s.withArbIn v).colDown = s.colDown := rfl
@[simp] theorem withArbIn_mgmtUp (v : List (Pkt × Nat × Nat)) : (s.withArbIn v).mgmtUp = s.mgmtUp := rfl
@[simp] theorem withArbIn_mgmtD3 (v : List (Pkt × Nat × Nat)) : (s.withArbIn v).mgmtD3 = s.mgmtD3 := rfl
@[simp] theorem withArbIn_pci (v : List (Pkt × Nat × Nat)) : (s.withArbIn v).pci = s.pci := rfl
@[simp] theorem withArbIn_msgPba (v : List (Pkt × Nat × Nat)) : (s.withArbIn v).msgPba = s.msgPba := rfl
@[simp] theorem withArbIn_wqs (v : List (Pkt × Nat × Nat)) : (s.withArbIn v).wqs = s.wqs := rfl
@[simp] theorem withArbIn_cqs (v : List (Pkt × Nat × Nat)) : (s.withArbIn v).cqs = s.cqs := rfl
@[simp] theorem withArbIn_eqs (v : List (Pkt × Nat × Nat)) : (s.withArbIn v).eqs = s.eqs := rfl
@[simp] theorem withArbIn_work (v : List (Pkt × Nat × Nat)) : (s.withArbIn v).work = s.work := rfl
@[simp] theorem withArbIn_nextWork (v : List (Pkt × Nat × Nat)) : (s.withArbIn v).nextWork = s.nextWork := rfl
@[simp] theorem withArbIn_reads (v : List (Pkt × Nat × Nat)) : (s.withArbIn v).reads = s.reads := rfl
@[simp] theorem withArbIn_nextRead (v : List (Pkt × Nat × Nat)) : (s.withArbIn v).nextRead = s.nextRead := rfl
@[simp] theorem withArbIn_fns (v : List (Pkt × Nat × Nat)) : (s.withArbIn v).fns = s.fns := rfl
@[simp] theorem withArbIn_jobs (v : List (Pkt × Nat × Nat)) : (s.withArbIn v).jobs = s.jobs := rfl
@[simp] theorem withArbIn_trn (v : List (Pkt × Nat × Nat)) : (s.withArbIn v).trn = s.trn := rfl
@[simp] theorem withArbIn_xpt (v : List (Pkt × Nat × Nat)) : (s.withArbIn v).xpt = s.xpt := rfl
@[simp] theorem withArbIn_mtc (v : List (Pkt × Nat × Nat)) : (s.withArbIn v).mtc = s.mtc := rfl
@[simp] theorem withArbIn_trees (v : List (Pkt × Nat × Nat)) : (s.withArbIn v).trees = s.trees := rfl
@[simp] theorem withArbIn_regs (v : List (Pkt × Nat × Nat)) : (s.withArbIn v).regs = s.regs := rfl
@[simp] theorem withArbIn_cgc (v : List (Pkt × Nat × Nat)) : (s.withArbIn v).cgc = s.cgc := rfl
@[simp] theorem withArbIn_lck (v : List (Pkt × Nat × Nat)) : (s.withArbIn v).lck = s.lck := rfl
@[simp] theorem withArbIn_stk (v : List (Pkt × Nat × Nat)) : (s.withArbIn v).stk = s.stk := rfl
@[simp] theorem withArbIn_arb (v : List (Pkt × Nat × Nat)) : (s.withArbIn v).arb = s.arb := rfl
@[simp] theorem withArbIn_sec (v : List (Pkt × Nat × Nat)) : (s.withArbIn v).sec = s.sec := rfl
@[simp] theorem withArbIn_flt (v : List (Pkt × Nat × Nat)) : (s.withArbIn v).flt = s.flt := rfl
@[simp] theorem withArbIn_time (v : List (Pkt × Nat × Nat)) : (s.withArbIn v).time = s.time := rfl
@[simp] theorem withArbIn_pmon (v : List (Pkt × Nat × Nat)) : (s.withArbIn v).pmon = s.pmon := rfl
@[simp] theorem withArbIn_pwr (v : List (Pkt × Nat × Nat)) : (s.withArbIn v).pwr = s.pwr := rfl
@[simp] theorem withArbIn_tap (v : List (Pkt × Nat × Nat)) : (s.withArbIn v).tap = s.tap := rfl
@[simp] theorem withArbIn_opening (v : List (Pkt × Nat × Nat)) : (s.withArbIn v).opening = s.opening := rfl
@[simp] theorem withArbIn_arbIn (v : List (Pkt × Nat × Nat)) : (s.withArbIn v).arbIn = v := rfl
@[simp] theorem rd_withArbIn (v : List (Pkt × Nat × Nat)) (g : FRef) : (s.withArbIn v).rd g = s.rd g := rfl

/-! Fields under `withMgmtUp`. -/

@[simp] theorem withMgmtUp_pending (v : Bool) : (s.withMgmtUp v).pending = s.pending := rfl
@[simp] theorem withMgmtUp_flds (v : Bool) : (s.withMgmtUp v).flds = s.flds := rfl
@[simp] theorem withMgmtUp_now (v : Bool) : (s.withMgmtUp v).now = s.now := rfl
@[simp] theorem withMgmtUp_rng (v : Bool) : (s.withMgmtUp v).rng = s.rng := rfl
@[simp] theorem withMgmtUp_out (v : Bool) : (s.withMgmtUp v).out = s.out := rfl
@[simp] theorem withMgmtUp_mem (v : Bool) : (s.withMgmtUp v).mem = s.mem := rfl
@[simp] theorem withMgmtUp_lanes (v : Bool) : (s.withMgmtUp v).lanes = s.lanes := rfl
@[simp] theorem withMgmtUp_ports (v : Bool) : (s.withMgmtUp v).ports = s.ports := rfl
@[simp] theorem withMgmtUp_buf (v : Bool) : (s.withMgmtUp v).buf = s.buf := rfl
@[simp] theorem withMgmtUp_nextPid (v : Bool) : (s.withMgmtUp v).nextPid = s.nextPid := rfl
@[simp] theorem withMgmtUp_oq (v : Bool) : (s.withMgmtUp v).oq = s.oq := rfl
@[simp] theorem withMgmtUp_lin (v : Bool) : (s.withMgmtUp v).lin = s.lin := rfl
@[simp] theorem withMgmtUp_guarUsed (v : Bool) : (s.withMgmtUp v).guarUsed = s.guarUsed := rfl
@[simp] theorem withMgmtUp_pol (v : Bool) : (s.withMgmtUp v).pol = s.pol := rfl
@[simp] theorem withMgmtUp_sched (v : Bool) : (s.withMgmtUp v).sched = s.sched := rfl
@[simp] theorem withMgmtUp_swc (v : Bool) : (s.withMgmtUp v).swc = s.swc := rfl
@[simp] theorem withMgmtUp_departures (v : Bool) : (s.withMgmtUp v).departures = s.departures := rfl
@[simp] theorem withMgmtUp_copying (v : Bool) : (s.withMgmtUp v).copying = s.copying := rfl
@[simp] theorem withMgmtUp_sinceSwap (v : Bool) : (s.withMgmtUp v).sinceSwap = s.sinceSwap := rfl
@[simp] theorem withMgmtUp_digests (v : Bool) : (s.withMgmtUp v).digests = s.digests := rfl
@[simp] theorem withMgmtUp_digestAt (v : Bool) : (s.withMgmtUp v).digestAt = s.digestAt := rfl
@[simp] theorem withMgmtUp_engReq (v : Bool) : (s.withMgmtUp v).engReq = s.engReq := rfl
@[simp] theorem withMgmtUp_engFwd (v : Bool) : (s.withMgmtUp v).engFwd = s.engFwd := rfl
@[simp] theorem withMgmtUp_engRep (v : Bool) : (s.withMgmtUp v).engRep = s.engRep := rfl
@[simp] theorem withMgmtUp_colIn (v : Bool) : (s.withMgmtUp v).colIn = s.colIn := rfl
@[simp] theorem withMgmtUp_colDown (v : Bool) : (s.withMgmtUp v).colDown = s.colDown := rfl
@[simp] theorem withMgmtUp_arbIn (v : Bool) : (s.withMgmtUp v).arbIn = s.arbIn := rfl
@[simp] theorem withMgmtUp_mgmtD3 (v : Bool) : (s.withMgmtUp v).mgmtD3 = s.mgmtD3 := rfl
@[simp] theorem withMgmtUp_pci (v : Bool) : (s.withMgmtUp v).pci = s.pci := rfl
@[simp] theorem withMgmtUp_msgPba (v : Bool) : (s.withMgmtUp v).msgPba = s.msgPba := rfl
@[simp] theorem withMgmtUp_wqs (v : Bool) : (s.withMgmtUp v).wqs = s.wqs := rfl
@[simp] theorem withMgmtUp_cqs (v : Bool) : (s.withMgmtUp v).cqs = s.cqs := rfl
@[simp] theorem withMgmtUp_eqs (v : Bool) : (s.withMgmtUp v).eqs = s.eqs := rfl
@[simp] theorem withMgmtUp_work (v : Bool) : (s.withMgmtUp v).work = s.work := rfl
@[simp] theorem withMgmtUp_nextWork (v : Bool) : (s.withMgmtUp v).nextWork = s.nextWork := rfl
@[simp] theorem withMgmtUp_reads (v : Bool) : (s.withMgmtUp v).reads = s.reads := rfl
@[simp] theorem withMgmtUp_nextRead (v : Bool) : (s.withMgmtUp v).nextRead = s.nextRead := rfl
@[simp] theorem withMgmtUp_fns (v : Bool) : (s.withMgmtUp v).fns = s.fns := rfl
@[simp] theorem withMgmtUp_jobs (v : Bool) : (s.withMgmtUp v).jobs = s.jobs := rfl
@[simp] theorem withMgmtUp_trn (v : Bool) : (s.withMgmtUp v).trn = s.trn := rfl
@[simp] theorem withMgmtUp_xpt (v : Bool) : (s.withMgmtUp v).xpt = s.xpt := rfl
@[simp] theorem withMgmtUp_mtc (v : Bool) : (s.withMgmtUp v).mtc = s.mtc := rfl
@[simp] theorem withMgmtUp_trees (v : Bool) : (s.withMgmtUp v).trees = s.trees := rfl
@[simp] theorem withMgmtUp_regs (v : Bool) : (s.withMgmtUp v).regs = s.regs := rfl
@[simp] theorem withMgmtUp_cgc (v : Bool) : (s.withMgmtUp v).cgc = s.cgc := rfl
@[simp] theorem withMgmtUp_lck (v : Bool) : (s.withMgmtUp v).lck = s.lck := rfl
@[simp] theorem withMgmtUp_stk (v : Bool) : (s.withMgmtUp v).stk = s.stk := rfl
@[simp] theorem withMgmtUp_arb (v : Bool) : (s.withMgmtUp v).arb = s.arb := rfl
@[simp] theorem withMgmtUp_sec (v : Bool) : (s.withMgmtUp v).sec = s.sec := rfl
@[simp] theorem withMgmtUp_flt (v : Bool) : (s.withMgmtUp v).flt = s.flt := rfl
@[simp] theorem withMgmtUp_time (v : Bool) : (s.withMgmtUp v).time = s.time := rfl
@[simp] theorem withMgmtUp_pmon (v : Bool) : (s.withMgmtUp v).pmon = s.pmon := rfl
@[simp] theorem withMgmtUp_pwr (v : Bool) : (s.withMgmtUp v).pwr = s.pwr := rfl
@[simp] theorem withMgmtUp_tap (v : Bool) : (s.withMgmtUp v).tap = s.tap := rfl
@[simp] theorem withMgmtUp_opening (v : Bool) : (s.withMgmtUp v).opening = s.opening := rfl
@[simp] theorem withMgmtUp_mgmtUp (v : Bool) : (s.withMgmtUp v).mgmtUp = v := rfl
@[simp] theorem rd_withMgmtUp (v : Bool) (g : FRef) : (s.withMgmtUp v).rd g = s.rd g := rfl

/-! Fields under `withMgmtD3`. -/

@[simp] theorem withMgmtD3_pending (v : Bool) : (s.withMgmtD3 v).pending = s.pending := rfl
@[simp] theorem withMgmtD3_flds (v : Bool) : (s.withMgmtD3 v).flds = s.flds := rfl
@[simp] theorem withMgmtD3_now (v : Bool) : (s.withMgmtD3 v).now = s.now := rfl
@[simp] theorem withMgmtD3_rng (v : Bool) : (s.withMgmtD3 v).rng = s.rng := rfl
@[simp] theorem withMgmtD3_out (v : Bool) : (s.withMgmtD3 v).out = s.out := rfl
@[simp] theorem withMgmtD3_mem (v : Bool) : (s.withMgmtD3 v).mem = s.mem := rfl
@[simp] theorem withMgmtD3_lanes (v : Bool) : (s.withMgmtD3 v).lanes = s.lanes := rfl
@[simp] theorem withMgmtD3_ports (v : Bool) : (s.withMgmtD3 v).ports = s.ports := rfl
@[simp] theorem withMgmtD3_buf (v : Bool) : (s.withMgmtD3 v).buf = s.buf := rfl
@[simp] theorem withMgmtD3_nextPid (v : Bool) : (s.withMgmtD3 v).nextPid = s.nextPid := rfl
@[simp] theorem withMgmtD3_oq (v : Bool) : (s.withMgmtD3 v).oq = s.oq := rfl
@[simp] theorem withMgmtD3_lin (v : Bool) : (s.withMgmtD3 v).lin = s.lin := rfl
@[simp] theorem withMgmtD3_guarUsed (v : Bool) : (s.withMgmtD3 v).guarUsed = s.guarUsed := rfl
@[simp] theorem withMgmtD3_pol (v : Bool) : (s.withMgmtD3 v).pol = s.pol := rfl
@[simp] theorem withMgmtD3_sched (v : Bool) : (s.withMgmtD3 v).sched = s.sched := rfl
@[simp] theorem withMgmtD3_swc (v : Bool) : (s.withMgmtD3 v).swc = s.swc := rfl
@[simp] theorem withMgmtD3_departures (v : Bool) : (s.withMgmtD3 v).departures = s.departures := rfl
@[simp] theorem withMgmtD3_copying (v : Bool) : (s.withMgmtD3 v).copying = s.copying := rfl
@[simp] theorem withMgmtD3_sinceSwap (v : Bool) : (s.withMgmtD3 v).sinceSwap = s.sinceSwap := rfl
@[simp] theorem withMgmtD3_digests (v : Bool) : (s.withMgmtD3 v).digests = s.digests := rfl
@[simp] theorem withMgmtD3_digestAt (v : Bool) : (s.withMgmtD3 v).digestAt = s.digestAt := rfl
@[simp] theorem withMgmtD3_engReq (v : Bool) : (s.withMgmtD3 v).engReq = s.engReq := rfl
@[simp] theorem withMgmtD3_engFwd (v : Bool) : (s.withMgmtD3 v).engFwd = s.engFwd := rfl
@[simp] theorem withMgmtD3_engRep (v : Bool) : (s.withMgmtD3 v).engRep = s.engRep := rfl
@[simp] theorem withMgmtD3_colIn (v : Bool) : (s.withMgmtD3 v).colIn = s.colIn := rfl
@[simp] theorem withMgmtD3_colDown (v : Bool) : (s.withMgmtD3 v).colDown = s.colDown := rfl
@[simp] theorem withMgmtD3_arbIn (v : Bool) : (s.withMgmtD3 v).arbIn = s.arbIn := rfl
@[simp] theorem withMgmtD3_mgmtUp (v : Bool) : (s.withMgmtD3 v).mgmtUp = s.mgmtUp := rfl
@[simp] theorem withMgmtD3_pci (v : Bool) : (s.withMgmtD3 v).pci = s.pci := rfl
@[simp] theorem withMgmtD3_msgPba (v : Bool) : (s.withMgmtD3 v).msgPba = s.msgPba := rfl
@[simp] theorem withMgmtD3_wqs (v : Bool) : (s.withMgmtD3 v).wqs = s.wqs := rfl
@[simp] theorem withMgmtD3_cqs (v : Bool) : (s.withMgmtD3 v).cqs = s.cqs := rfl
@[simp] theorem withMgmtD3_eqs (v : Bool) : (s.withMgmtD3 v).eqs = s.eqs := rfl
@[simp] theorem withMgmtD3_work (v : Bool) : (s.withMgmtD3 v).work = s.work := rfl
@[simp] theorem withMgmtD3_nextWork (v : Bool) : (s.withMgmtD3 v).nextWork = s.nextWork := rfl
@[simp] theorem withMgmtD3_reads (v : Bool) : (s.withMgmtD3 v).reads = s.reads := rfl
@[simp] theorem withMgmtD3_nextRead (v : Bool) : (s.withMgmtD3 v).nextRead = s.nextRead := rfl
@[simp] theorem withMgmtD3_fns (v : Bool) : (s.withMgmtD3 v).fns = s.fns := rfl
@[simp] theorem withMgmtD3_jobs (v : Bool) : (s.withMgmtD3 v).jobs = s.jobs := rfl
@[simp] theorem withMgmtD3_trn (v : Bool) : (s.withMgmtD3 v).trn = s.trn := rfl
@[simp] theorem withMgmtD3_xpt (v : Bool) : (s.withMgmtD3 v).xpt = s.xpt := rfl
@[simp] theorem withMgmtD3_mtc (v : Bool) : (s.withMgmtD3 v).mtc = s.mtc := rfl
@[simp] theorem withMgmtD3_trees (v : Bool) : (s.withMgmtD3 v).trees = s.trees := rfl
@[simp] theorem withMgmtD3_regs (v : Bool) : (s.withMgmtD3 v).regs = s.regs := rfl
@[simp] theorem withMgmtD3_cgc (v : Bool) : (s.withMgmtD3 v).cgc = s.cgc := rfl
@[simp] theorem withMgmtD3_lck (v : Bool) : (s.withMgmtD3 v).lck = s.lck := rfl
@[simp] theorem withMgmtD3_stk (v : Bool) : (s.withMgmtD3 v).stk = s.stk := rfl
@[simp] theorem withMgmtD3_arb (v : Bool) : (s.withMgmtD3 v).arb = s.arb := rfl
@[simp] theorem withMgmtD3_sec (v : Bool) : (s.withMgmtD3 v).sec = s.sec := rfl
@[simp] theorem withMgmtD3_flt (v : Bool) : (s.withMgmtD3 v).flt = s.flt := rfl
@[simp] theorem withMgmtD3_time (v : Bool) : (s.withMgmtD3 v).time = s.time := rfl
@[simp] theorem withMgmtD3_pmon (v : Bool) : (s.withMgmtD3 v).pmon = s.pmon := rfl
@[simp] theorem withMgmtD3_pwr (v : Bool) : (s.withMgmtD3 v).pwr = s.pwr := rfl
@[simp] theorem withMgmtD3_tap (v : Bool) : (s.withMgmtD3 v).tap = s.tap := rfl
@[simp] theorem withMgmtD3_opening (v : Bool) : (s.withMgmtD3 v).opening = s.opening := rfl
@[simp] theorem withMgmtD3_mgmtD3 (v : Bool) : (s.withMgmtD3 v).mgmtD3 = v := rfl
@[simp] theorem rd_withMgmtD3 (v : Bool) (g : FRef) : (s.withMgmtD3 v).rd g = s.rd g := rfl

/-! Fields under `withPci`. -/

@[simp] theorem withPci_pending (v : SMap PciFn) : (s.withPci v).pending = s.pending := rfl
@[simp] theorem withPci_flds (v : SMap PciFn) : (s.withPci v).flds = s.flds := rfl
@[simp] theorem withPci_now (v : SMap PciFn) : (s.withPci v).now = s.now := rfl
@[simp] theorem withPci_rng (v : SMap PciFn) : (s.withPci v).rng = s.rng := rfl
@[simp] theorem withPci_out (v : SMap PciFn) : (s.withPci v).out = s.out := rfl
@[simp] theorem withPci_mem (v : SMap PciFn) : (s.withPci v).mem = s.mem := rfl
@[simp] theorem withPci_lanes (v : SMap PciFn) : (s.withPci v).lanes = s.lanes := rfl
@[simp] theorem withPci_ports (v : SMap PciFn) : (s.withPci v).ports = s.ports := rfl
@[simp] theorem withPci_buf (v : SMap PciFn) : (s.withPci v).buf = s.buf := rfl
@[simp] theorem withPci_nextPid (v : SMap PciFn) : (s.withPci v).nextPid = s.nextPid := rfl
@[simp] theorem withPci_oq (v : SMap PciFn) : (s.withPci v).oq = s.oq := rfl
@[simp] theorem withPci_lin (v : SMap PciFn) : (s.withPci v).lin = s.lin := rfl
@[simp] theorem withPci_guarUsed (v : SMap PciFn) : (s.withPci v).guarUsed = s.guarUsed := rfl
@[simp] theorem withPci_pol (v : SMap PciFn) : (s.withPci v).pol = s.pol := rfl
@[simp] theorem withPci_sched (v : SMap PciFn) : (s.withPci v).sched = s.sched := rfl
@[simp] theorem withPci_swc (v : SMap PciFn) : (s.withPci v).swc = s.swc := rfl
@[simp] theorem withPci_departures (v : SMap PciFn) : (s.withPci v).departures = s.departures := rfl
@[simp] theorem withPci_copying (v : SMap PciFn) : (s.withPci v).copying = s.copying := rfl
@[simp] theorem withPci_sinceSwap (v : SMap PciFn) : (s.withPci v).sinceSwap = s.sinceSwap := rfl
@[simp] theorem withPci_digests (v : SMap PciFn) : (s.withPci v).digests = s.digests := rfl
@[simp] theorem withPci_digestAt (v : SMap PciFn) : (s.withPci v).digestAt = s.digestAt := rfl
@[simp] theorem withPci_engReq (v : SMap PciFn) : (s.withPci v).engReq = s.engReq := rfl
@[simp] theorem withPci_engFwd (v : SMap PciFn) : (s.withPci v).engFwd = s.engFwd := rfl
@[simp] theorem withPci_engRep (v : SMap PciFn) : (s.withPci v).engRep = s.engRep := rfl
@[simp] theorem withPci_colIn (v : SMap PciFn) : (s.withPci v).colIn = s.colIn := rfl
@[simp] theorem withPci_colDown (v : SMap PciFn) : (s.withPci v).colDown = s.colDown := rfl
@[simp] theorem withPci_arbIn (v : SMap PciFn) : (s.withPci v).arbIn = s.arbIn := rfl
@[simp] theorem withPci_mgmtUp (v : SMap PciFn) : (s.withPci v).mgmtUp = s.mgmtUp := rfl
@[simp] theorem withPci_mgmtD3 (v : SMap PciFn) : (s.withPci v).mgmtD3 = s.mgmtD3 := rfl
@[simp] theorem withPci_msgPba (v : SMap PciFn) : (s.withPci v).msgPba = s.msgPba := rfl
@[simp] theorem withPci_wqs (v : SMap PciFn) : (s.withPci v).wqs = s.wqs := rfl
@[simp] theorem withPci_cqs (v : SMap PciFn) : (s.withPci v).cqs = s.cqs := rfl
@[simp] theorem withPci_eqs (v : SMap PciFn) : (s.withPci v).eqs = s.eqs := rfl
@[simp] theorem withPci_work (v : SMap PciFn) : (s.withPci v).work = s.work := rfl
@[simp] theorem withPci_nextWork (v : SMap PciFn) : (s.withPci v).nextWork = s.nextWork := rfl
@[simp] theorem withPci_reads (v : SMap PciFn) : (s.withPci v).reads = s.reads := rfl
@[simp] theorem withPci_nextRead (v : SMap PciFn) : (s.withPci v).nextRead = s.nextRead := rfl
@[simp] theorem withPci_fns (v : SMap PciFn) : (s.withPci v).fns = s.fns := rfl
@[simp] theorem withPci_jobs (v : SMap PciFn) : (s.withPci v).jobs = s.jobs := rfl
@[simp] theorem withPci_trn (v : SMap PciFn) : (s.withPci v).trn = s.trn := rfl
@[simp] theorem withPci_xpt (v : SMap PciFn) : (s.withPci v).xpt = s.xpt := rfl
@[simp] theorem withPci_mtc (v : SMap PciFn) : (s.withPci v).mtc = s.mtc := rfl
@[simp] theorem withPci_trees (v : SMap PciFn) : (s.withPci v).trees = s.trees := rfl
@[simp] theorem withPci_regs (v : SMap PciFn) : (s.withPci v).regs = s.regs := rfl
@[simp] theorem withPci_cgc (v : SMap PciFn) : (s.withPci v).cgc = s.cgc := rfl
@[simp] theorem withPci_lck (v : SMap PciFn) : (s.withPci v).lck = s.lck := rfl
@[simp] theorem withPci_stk (v : SMap PciFn) : (s.withPci v).stk = s.stk := rfl
@[simp] theorem withPci_arb (v : SMap PciFn) : (s.withPci v).arb = s.arb := rfl
@[simp] theorem withPci_sec (v : SMap PciFn) : (s.withPci v).sec = s.sec := rfl
@[simp] theorem withPci_flt (v : SMap PciFn) : (s.withPci v).flt = s.flt := rfl
@[simp] theorem withPci_time (v : SMap PciFn) : (s.withPci v).time = s.time := rfl
@[simp] theorem withPci_pmon (v : SMap PciFn) : (s.withPci v).pmon = s.pmon := rfl
@[simp] theorem withPci_pwr (v : SMap PciFn) : (s.withPci v).pwr = s.pwr := rfl
@[simp] theorem withPci_tap (v : SMap PciFn) : (s.withPci v).tap = s.tap := rfl
@[simp] theorem withPci_opening (v : SMap PciFn) : (s.withPci v).opening = s.opening := rfl
@[simp] theorem withPci_pci (v : SMap PciFn) : (s.withPci v).pci = v := rfl
@[simp] theorem rd_withPci (v : SMap PciFn) (g : FRef) : (s.withPci v).rd g = s.rd g := rfl

/-! Fields under `withMsgPba`. -/

@[simp] theorem withMsgPba_pending (v : SMap Nat) : (s.withMsgPba v).pending = s.pending := rfl
@[simp] theorem withMsgPba_flds (v : SMap Nat) : (s.withMsgPba v).flds = s.flds := rfl
@[simp] theorem withMsgPba_now (v : SMap Nat) : (s.withMsgPba v).now = s.now := rfl
@[simp] theorem withMsgPba_rng (v : SMap Nat) : (s.withMsgPba v).rng = s.rng := rfl
@[simp] theorem withMsgPba_out (v : SMap Nat) : (s.withMsgPba v).out = s.out := rfl
@[simp] theorem withMsgPba_mem (v : SMap Nat) : (s.withMsgPba v).mem = s.mem := rfl
@[simp] theorem withMsgPba_lanes (v : SMap Nat) : (s.withMsgPba v).lanes = s.lanes := rfl
@[simp] theorem withMsgPba_ports (v : SMap Nat) : (s.withMsgPba v).ports = s.ports := rfl
@[simp] theorem withMsgPba_buf (v : SMap Nat) : (s.withMsgPba v).buf = s.buf := rfl
@[simp] theorem withMsgPba_nextPid (v : SMap Nat) : (s.withMsgPba v).nextPid = s.nextPid := rfl
@[simp] theorem withMsgPba_oq (v : SMap Nat) : (s.withMsgPba v).oq = s.oq := rfl
@[simp] theorem withMsgPba_lin (v : SMap Nat) : (s.withMsgPba v).lin = s.lin := rfl
@[simp] theorem withMsgPba_guarUsed (v : SMap Nat) : (s.withMsgPba v).guarUsed = s.guarUsed := rfl
@[simp] theorem withMsgPba_pol (v : SMap Nat) : (s.withMsgPba v).pol = s.pol := rfl
@[simp] theorem withMsgPba_sched (v : SMap Nat) : (s.withMsgPba v).sched = s.sched := rfl
@[simp] theorem withMsgPba_swc (v : SMap Nat) : (s.withMsgPba v).swc = s.swc := rfl
@[simp] theorem withMsgPba_departures (v : SMap Nat) : (s.withMsgPba v).departures = s.departures := rfl
@[simp] theorem withMsgPba_copying (v : SMap Nat) : (s.withMsgPba v).copying = s.copying := rfl
@[simp] theorem withMsgPba_sinceSwap (v : SMap Nat) : (s.withMsgPba v).sinceSwap = s.sinceSwap := rfl
@[simp] theorem withMsgPba_digests (v : SMap Nat) : (s.withMsgPba v).digests = s.digests := rfl
@[simp] theorem withMsgPba_digestAt (v : SMap Nat) : (s.withMsgPba v).digestAt = s.digestAt := rfl
@[simp] theorem withMsgPba_engReq (v : SMap Nat) : (s.withMsgPba v).engReq = s.engReq := rfl
@[simp] theorem withMsgPba_engFwd (v : SMap Nat) : (s.withMsgPba v).engFwd = s.engFwd := rfl
@[simp] theorem withMsgPba_engRep (v : SMap Nat) : (s.withMsgPba v).engRep = s.engRep := rfl
@[simp] theorem withMsgPba_colIn (v : SMap Nat) : (s.withMsgPba v).colIn = s.colIn := rfl
@[simp] theorem withMsgPba_colDown (v : SMap Nat) : (s.withMsgPba v).colDown = s.colDown := rfl
@[simp] theorem withMsgPba_arbIn (v : SMap Nat) : (s.withMsgPba v).arbIn = s.arbIn := rfl
@[simp] theorem withMsgPba_mgmtUp (v : SMap Nat) : (s.withMsgPba v).mgmtUp = s.mgmtUp := rfl
@[simp] theorem withMsgPba_mgmtD3 (v : SMap Nat) : (s.withMsgPba v).mgmtD3 = s.mgmtD3 := rfl
@[simp] theorem withMsgPba_pci (v : SMap Nat) : (s.withMsgPba v).pci = s.pci := rfl
@[simp] theorem withMsgPba_wqs (v : SMap Nat) : (s.withMsgPba v).wqs = s.wqs := rfl
@[simp] theorem withMsgPba_cqs (v : SMap Nat) : (s.withMsgPba v).cqs = s.cqs := rfl
@[simp] theorem withMsgPba_eqs (v : SMap Nat) : (s.withMsgPba v).eqs = s.eqs := rfl
@[simp] theorem withMsgPba_work (v : SMap Nat) : (s.withMsgPba v).work = s.work := rfl
@[simp] theorem withMsgPba_nextWork (v : SMap Nat) : (s.withMsgPba v).nextWork = s.nextWork := rfl
@[simp] theorem withMsgPba_reads (v : SMap Nat) : (s.withMsgPba v).reads = s.reads := rfl
@[simp] theorem withMsgPba_nextRead (v : SMap Nat) : (s.withMsgPba v).nextRead = s.nextRead := rfl
@[simp] theorem withMsgPba_fns (v : SMap Nat) : (s.withMsgPba v).fns = s.fns := rfl
@[simp] theorem withMsgPba_jobs (v : SMap Nat) : (s.withMsgPba v).jobs = s.jobs := rfl
@[simp] theorem withMsgPba_trn (v : SMap Nat) : (s.withMsgPba v).trn = s.trn := rfl
@[simp] theorem withMsgPba_xpt (v : SMap Nat) : (s.withMsgPba v).xpt = s.xpt := rfl
@[simp] theorem withMsgPba_mtc (v : SMap Nat) : (s.withMsgPba v).mtc = s.mtc := rfl
@[simp] theorem withMsgPba_trees (v : SMap Nat) : (s.withMsgPba v).trees = s.trees := rfl
@[simp] theorem withMsgPba_regs (v : SMap Nat) : (s.withMsgPba v).regs = s.regs := rfl
@[simp] theorem withMsgPba_cgc (v : SMap Nat) : (s.withMsgPba v).cgc = s.cgc := rfl
@[simp] theorem withMsgPba_lck (v : SMap Nat) : (s.withMsgPba v).lck = s.lck := rfl
@[simp] theorem withMsgPba_stk (v : SMap Nat) : (s.withMsgPba v).stk = s.stk := rfl
@[simp] theorem withMsgPba_arb (v : SMap Nat) : (s.withMsgPba v).arb = s.arb := rfl
@[simp] theorem withMsgPba_sec (v : SMap Nat) : (s.withMsgPba v).sec = s.sec := rfl
@[simp] theorem withMsgPba_flt (v : SMap Nat) : (s.withMsgPba v).flt = s.flt := rfl
@[simp] theorem withMsgPba_time (v : SMap Nat) : (s.withMsgPba v).time = s.time := rfl
@[simp] theorem withMsgPba_pmon (v : SMap Nat) : (s.withMsgPba v).pmon = s.pmon := rfl
@[simp] theorem withMsgPba_pwr (v : SMap Nat) : (s.withMsgPba v).pwr = s.pwr := rfl
@[simp] theorem withMsgPba_tap (v : SMap Nat) : (s.withMsgPba v).tap = s.tap := rfl
@[simp] theorem withMsgPba_opening (v : SMap Nat) : (s.withMsgPba v).opening = s.opening := rfl
@[simp] theorem withMsgPba_msgPba (v : SMap Nat) : (s.withMsgPba v).msgPba = v := rfl
@[simp] theorem rd_withMsgPba (v : SMap Nat) (g : FRef) : (s.withMsgPba v).rd g = s.rd g := rfl

/-! Fields under `withWqs`. -/

@[simp] theorem withWqs_pending (v : SMap (Option Wq)) : (s.withWqs v).pending = s.pending := rfl
@[simp] theorem withWqs_flds (v : SMap (Option Wq)) : (s.withWqs v).flds = s.flds := rfl
@[simp] theorem withWqs_now (v : SMap (Option Wq)) : (s.withWqs v).now = s.now := rfl
@[simp] theorem withWqs_rng (v : SMap (Option Wq)) : (s.withWqs v).rng = s.rng := rfl
@[simp] theorem withWqs_out (v : SMap (Option Wq)) : (s.withWqs v).out = s.out := rfl
@[simp] theorem withWqs_mem (v : SMap (Option Wq)) : (s.withWqs v).mem = s.mem := rfl
@[simp] theorem withWqs_lanes (v : SMap (Option Wq)) : (s.withWqs v).lanes = s.lanes := rfl
@[simp] theorem withWqs_ports (v : SMap (Option Wq)) : (s.withWqs v).ports = s.ports := rfl
@[simp] theorem withWqs_buf (v : SMap (Option Wq)) : (s.withWqs v).buf = s.buf := rfl
@[simp] theorem withWqs_nextPid (v : SMap (Option Wq)) : (s.withWqs v).nextPid = s.nextPid := rfl
@[simp] theorem withWqs_oq (v : SMap (Option Wq)) : (s.withWqs v).oq = s.oq := rfl
@[simp] theorem withWqs_lin (v : SMap (Option Wq)) : (s.withWqs v).lin = s.lin := rfl
@[simp] theorem withWqs_guarUsed (v : SMap (Option Wq)) : (s.withWqs v).guarUsed = s.guarUsed := rfl
@[simp] theorem withWqs_pol (v : SMap (Option Wq)) : (s.withWqs v).pol = s.pol := rfl
@[simp] theorem withWqs_sched (v : SMap (Option Wq)) : (s.withWqs v).sched = s.sched := rfl
@[simp] theorem withWqs_swc (v : SMap (Option Wq)) : (s.withWqs v).swc = s.swc := rfl
@[simp] theorem withWqs_departures (v : SMap (Option Wq)) : (s.withWqs v).departures = s.departures := rfl
@[simp] theorem withWqs_copying (v : SMap (Option Wq)) : (s.withWqs v).copying = s.copying := rfl
@[simp] theorem withWqs_sinceSwap (v : SMap (Option Wq)) : (s.withWqs v).sinceSwap = s.sinceSwap := rfl
@[simp] theorem withWqs_digests (v : SMap (Option Wq)) : (s.withWqs v).digests = s.digests := rfl
@[simp] theorem withWqs_digestAt (v : SMap (Option Wq)) : (s.withWqs v).digestAt = s.digestAt := rfl
@[simp] theorem withWqs_engReq (v : SMap (Option Wq)) : (s.withWqs v).engReq = s.engReq := rfl
@[simp] theorem withWqs_engFwd (v : SMap (Option Wq)) : (s.withWqs v).engFwd = s.engFwd := rfl
@[simp] theorem withWqs_engRep (v : SMap (Option Wq)) : (s.withWqs v).engRep = s.engRep := rfl
@[simp] theorem withWqs_colIn (v : SMap (Option Wq)) : (s.withWqs v).colIn = s.colIn := rfl
@[simp] theorem withWqs_colDown (v : SMap (Option Wq)) : (s.withWqs v).colDown = s.colDown := rfl
@[simp] theorem withWqs_arbIn (v : SMap (Option Wq)) : (s.withWqs v).arbIn = s.arbIn := rfl
@[simp] theorem withWqs_mgmtUp (v : SMap (Option Wq)) : (s.withWqs v).mgmtUp = s.mgmtUp := rfl
@[simp] theorem withWqs_mgmtD3 (v : SMap (Option Wq)) : (s.withWqs v).mgmtD3 = s.mgmtD3 := rfl
@[simp] theorem withWqs_pci (v : SMap (Option Wq)) : (s.withWqs v).pci = s.pci := rfl
@[simp] theorem withWqs_msgPba (v : SMap (Option Wq)) : (s.withWqs v).msgPba = s.msgPba := rfl
@[simp] theorem withWqs_cqs (v : SMap (Option Wq)) : (s.withWqs v).cqs = s.cqs := rfl
@[simp] theorem withWqs_eqs (v : SMap (Option Wq)) : (s.withWqs v).eqs = s.eqs := rfl
@[simp] theorem withWqs_work (v : SMap (Option Wq)) : (s.withWqs v).work = s.work := rfl
@[simp] theorem withWqs_nextWork (v : SMap (Option Wq)) : (s.withWqs v).nextWork = s.nextWork := rfl
@[simp] theorem withWqs_reads (v : SMap (Option Wq)) : (s.withWqs v).reads = s.reads := rfl
@[simp] theorem withWqs_nextRead (v : SMap (Option Wq)) : (s.withWqs v).nextRead = s.nextRead := rfl
@[simp] theorem withWqs_fns (v : SMap (Option Wq)) : (s.withWqs v).fns = s.fns := rfl
@[simp] theorem withWqs_jobs (v : SMap (Option Wq)) : (s.withWqs v).jobs = s.jobs := rfl
@[simp] theorem withWqs_trn (v : SMap (Option Wq)) : (s.withWqs v).trn = s.trn := rfl
@[simp] theorem withWqs_xpt (v : SMap (Option Wq)) : (s.withWqs v).xpt = s.xpt := rfl
@[simp] theorem withWqs_mtc (v : SMap (Option Wq)) : (s.withWqs v).mtc = s.mtc := rfl
@[simp] theorem withWqs_trees (v : SMap (Option Wq)) : (s.withWqs v).trees = s.trees := rfl
@[simp] theorem withWqs_regs (v : SMap (Option Wq)) : (s.withWqs v).regs = s.regs := rfl
@[simp] theorem withWqs_cgc (v : SMap (Option Wq)) : (s.withWqs v).cgc = s.cgc := rfl
@[simp] theorem withWqs_lck (v : SMap (Option Wq)) : (s.withWqs v).lck = s.lck := rfl
@[simp] theorem withWqs_stk (v : SMap (Option Wq)) : (s.withWqs v).stk = s.stk := rfl
@[simp] theorem withWqs_arb (v : SMap (Option Wq)) : (s.withWqs v).arb = s.arb := rfl
@[simp] theorem withWqs_sec (v : SMap (Option Wq)) : (s.withWqs v).sec = s.sec := rfl
@[simp] theorem withWqs_flt (v : SMap (Option Wq)) : (s.withWqs v).flt = s.flt := rfl
@[simp] theorem withWqs_time (v : SMap (Option Wq)) : (s.withWqs v).time = s.time := rfl
@[simp] theorem withWqs_pmon (v : SMap (Option Wq)) : (s.withWqs v).pmon = s.pmon := rfl
@[simp] theorem withWqs_pwr (v : SMap (Option Wq)) : (s.withWqs v).pwr = s.pwr := rfl
@[simp] theorem withWqs_tap (v : SMap (Option Wq)) : (s.withWqs v).tap = s.tap := rfl
@[simp] theorem withWqs_opening (v : SMap (Option Wq)) : (s.withWqs v).opening = s.opening := rfl
@[simp] theorem withWqs_wqs (v : SMap (Option Wq)) : (s.withWqs v).wqs = v := rfl
@[simp] theorem rd_withWqs (v : SMap (Option Wq)) (g : FRef) : (s.withWqs v).rd g = s.rd g := rfl

/-! Fields under `withCqs`. -/

@[simp] theorem withCqs_pending (v : SMap (Option Ring)) : (s.withCqs v).pending = s.pending := rfl
@[simp] theorem withCqs_flds (v : SMap (Option Ring)) : (s.withCqs v).flds = s.flds := rfl
@[simp] theorem withCqs_now (v : SMap (Option Ring)) : (s.withCqs v).now = s.now := rfl
@[simp] theorem withCqs_rng (v : SMap (Option Ring)) : (s.withCqs v).rng = s.rng := rfl
@[simp] theorem withCqs_out (v : SMap (Option Ring)) : (s.withCqs v).out = s.out := rfl
@[simp] theorem withCqs_mem (v : SMap (Option Ring)) : (s.withCqs v).mem = s.mem := rfl
@[simp] theorem withCqs_lanes (v : SMap (Option Ring)) : (s.withCqs v).lanes = s.lanes := rfl
@[simp] theorem withCqs_ports (v : SMap (Option Ring)) : (s.withCqs v).ports = s.ports := rfl
@[simp] theorem withCqs_buf (v : SMap (Option Ring)) : (s.withCqs v).buf = s.buf := rfl
@[simp] theorem withCqs_nextPid (v : SMap (Option Ring)) : (s.withCqs v).nextPid = s.nextPid := rfl
@[simp] theorem withCqs_oq (v : SMap (Option Ring)) : (s.withCqs v).oq = s.oq := rfl
@[simp] theorem withCqs_lin (v : SMap (Option Ring)) : (s.withCqs v).lin = s.lin := rfl
@[simp] theorem withCqs_guarUsed (v : SMap (Option Ring)) : (s.withCqs v).guarUsed = s.guarUsed := rfl
@[simp] theorem withCqs_pol (v : SMap (Option Ring)) : (s.withCqs v).pol = s.pol := rfl
@[simp] theorem withCqs_sched (v : SMap (Option Ring)) : (s.withCqs v).sched = s.sched := rfl
@[simp] theorem withCqs_swc (v : SMap (Option Ring)) : (s.withCqs v).swc = s.swc := rfl
@[simp] theorem withCqs_departures (v : SMap (Option Ring)) : (s.withCqs v).departures = s.departures := rfl
@[simp] theorem withCqs_copying (v : SMap (Option Ring)) : (s.withCqs v).copying = s.copying := rfl
@[simp] theorem withCqs_sinceSwap (v : SMap (Option Ring)) : (s.withCqs v).sinceSwap = s.sinceSwap := rfl
@[simp] theorem withCqs_digests (v : SMap (Option Ring)) : (s.withCqs v).digests = s.digests := rfl
@[simp] theorem withCqs_digestAt (v : SMap (Option Ring)) : (s.withCqs v).digestAt = s.digestAt := rfl
@[simp] theorem withCqs_engReq (v : SMap (Option Ring)) : (s.withCqs v).engReq = s.engReq := rfl
@[simp] theorem withCqs_engFwd (v : SMap (Option Ring)) : (s.withCqs v).engFwd = s.engFwd := rfl
@[simp] theorem withCqs_engRep (v : SMap (Option Ring)) : (s.withCqs v).engRep = s.engRep := rfl
@[simp] theorem withCqs_colIn (v : SMap (Option Ring)) : (s.withCqs v).colIn = s.colIn := rfl
@[simp] theorem withCqs_colDown (v : SMap (Option Ring)) : (s.withCqs v).colDown = s.colDown := rfl
@[simp] theorem withCqs_arbIn (v : SMap (Option Ring)) : (s.withCqs v).arbIn = s.arbIn := rfl
@[simp] theorem withCqs_mgmtUp (v : SMap (Option Ring)) : (s.withCqs v).mgmtUp = s.mgmtUp := rfl
@[simp] theorem withCqs_mgmtD3 (v : SMap (Option Ring)) : (s.withCqs v).mgmtD3 = s.mgmtD3 := rfl
@[simp] theorem withCqs_pci (v : SMap (Option Ring)) : (s.withCqs v).pci = s.pci := rfl
@[simp] theorem withCqs_msgPba (v : SMap (Option Ring)) : (s.withCqs v).msgPba = s.msgPba := rfl
@[simp] theorem withCqs_wqs (v : SMap (Option Ring)) : (s.withCqs v).wqs = s.wqs := rfl
@[simp] theorem withCqs_eqs (v : SMap (Option Ring)) : (s.withCqs v).eqs = s.eqs := rfl
@[simp] theorem withCqs_work (v : SMap (Option Ring)) : (s.withCqs v).work = s.work := rfl
@[simp] theorem withCqs_nextWork (v : SMap (Option Ring)) : (s.withCqs v).nextWork = s.nextWork := rfl
@[simp] theorem withCqs_reads (v : SMap (Option Ring)) : (s.withCqs v).reads = s.reads := rfl
@[simp] theorem withCqs_nextRead (v : SMap (Option Ring)) : (s.withCqs v).nextRead = s.nextRead := rfl
@[simp] theorem withCqs_fns (v : SMap (Option Ring)) : (s.withCqs v).fns = s.fns := rfl
@[simp] theorem withCqs_jobs (v : SMap (Option Ring)) : (s.withCqs v).jobs = s.jobs := rfl
@[simp] theorem withCqs_trn (v : SMap (Option Ring)) : (s.withCqs v).trn = s.trn := rfl
@[simp] theorem withCqs_xpt (v : SMap (Option Ring)) : (s.withCqs v).xpt = s.xpt := rfl
@[simp] theorem withCqs_mtc (v : SMap (Option Ring)) : (s.withCqs v).mtc = s.mtc := rfl
@[simp] theorem withCqs_trees (v : SMap (Option Ring)) : (s.withCqs v).trees = s.trees := rfl
@[simp] theorem withCqs_regs (v : SMap (Option Ring)) : (s.withCqs v).regs = s.regs := rfl
@[simp] theorem withCqs_cgc (v : SMap (Option Ring)) : (s.withCqs v).cgc = s.cgc := rfl
@[simp] theorem withCqs_lck (v : SMap (Option Ring)) : (s.withCqs v).lck = s.lck := rfl
@[simp] theorem withCqs_stk (v : SMap (Option Ring)) : (s.withCqs v).stk = s.stk := rfl
@[simp] theorem withCqs_arb (v : SMap (Option Ring)) : (s.withCqs v).arb = s.arb := rfl
@[simp] theorem withCqs_sec (v : SMap (Option Ring)) : (s.withCqs v).sec = s.sec := rfl
@[simp] theorem withCqs_flt (v : SMap (Option Ring)) : (s.withCqs v).flt = s.flt := rfl
@[simp] theorem withCqs_time (v : SMap (Option Ring)) : (s.withCqs v).time = s.time := rfl
@[simp] theorem withCqs_pmon (v : SMap (Option Ring)) : (s.withCqs v).pmon = s.pmon := rfl
@[simp] theorem withCqs_pwr (v : SMap (Option Ring)) : (s.withCqs v).pwr = s.pwr := rfl
@[simp] theorem withCqs_tap (v : SMap (Option Ring)) : (s.withCqs v).tap = s.tap := rfl
@[simp] theorem withCqs_opening (v : SMap (Option Ring)) : (s.withCqs v).opening = s.opening := rfl
@[simp] theorem withCqs_cqs (v : SMap (Option Ring)) : (s.withCqs v).cqs = v := rfl
@[simp] theorem rd_withCqs (v : SMap (Option Ring)) (g : FRef) : (s.withCqs v).rd g = s.rd g := rfl

/-! Fields under `withEqs`. -/

@[simp] theorem withEqs_pending (v : SMap (Option Ring)) : (s.withEqs v).pending = s.pending := rfl
@[simp] theorem withEqs_flds (v : SMap (Option Ring)) : (s.withEqs v).flds = s.flds := rfl
@[simp] theorem withEqs_now (v : SMap (Option Ring)) : (s.withEqs v).now = s.now := rfl
@[simp] theorem withEqs_rng (v : SMap (Option Ring)) : (s.withEqs v).rng = s.rng := rfl
@[simp] theorem withEqs_out (v : SMap (Option Ring)) : (s.withEqs v).out = s.out := rfl
@[simp] theorem withEqs_mem (v : SMap (Option Ring)) : (s.withEqs v).mem = s.mem := rfl
@[simp] theorem withEqs_lanes (v : SMap (Option Ring)) : (s.withEqs v).lanes = s.lanes := rfl
@[simp] theorem withEqs_ports (v : SMap (Option Ring)) : (s.withEqs v).ports = s.ports := rfl
@[simp] theorem withEqs_buf (v : SMap (Option Ring)) : (s.withEqs v).buf = s.buf := rfl
@[simp] theorem withEqs_nextPid (v : SMap (Option Ring)) : (s.withEqs v).nextPid = s.nextPid := rfl
@[simp] theorem withEqs_oq (v : SMap (Option Ring)) : (s.withEqs v).oq = s.oq := rfl
@[simp] theorem withEqs_lin (v : SMap (Option Ring)) : (s.withEqs v).lin = s.lin := rfl
@[simp] theorem withEqs_guarUsed (v : SMap (Option Ring)) : (s.withEqs v).guarUsed = s.guarUsed := rfl
@[simp] theorem withEqs_pol (v : SMap (Option Ring)) : (s.withEqs v).pol = s.pol := rfl
@[simp] theorem withEqs_sched (v : SMap (Option Ring)) : (s.withEqs v).sched = s.sched := rfl
@[simp] theorem withEqs_swc (v : SMap (Option Ring)) : (s.withEqs v).swc = s.swc := rfl
@[simp] theorem withEqs_departures (v : SMap (Option Ring)) : (s.withEqs v).departures = s.departures := rfl
@[simp] theorem withEqs_copying (v : SMap (Option Ring)) : (s.withEqs v).copying = s.copying := rfl
@[simp] theorem withEqs_sinceSwap (v : SMap (Option Ring)) : (s.withEqs v).sinceSwap = s.sinceSwap := rfl
@[simp] theorem withEqs_digests (v : SMap (Option Ring)) : (s.withEqs v).digests = s.digests := rfl
@[simp] theorem withEqs_digestAt (v : SMap (Option Ring)) : (s.withEqs v).digestAt = s.digestAt := rfl
@[simp] theorem withEqs_engReq (v : SMap (Option Ring)) : (s.withEqs v).engReq = s.engReq := rfl
@[simp] theorem withEqs_engFwd (v : SMap (Option Ring)) : (s.withEqs v).engFwd = s.engFwd := rfl
@[simp] theorem withEqs_engRep (v : SMap (Option Ring)) : (s.withEqs v).engRep = s.engRep := rfl
@[simp] theorem withEqs_colIn (v : SMap (Option Ring)) : (s.withEqs v).colIn = s.colIn := rfl
@[simp] theorem withEqs_colDown (v : SMap (Option Ring)) : (s.withEqs v).colDown = s.colDown := rfl
@[simp] theorem withEqs_arbIn (v : SMap (Option Ring)) : (s.withEqs v).arbIn = s.arbIn := rfl
@[simp] theorem withEqs_mgmtUp (v : SMap (Option Ring)) : (s.withEqs v).mgmtUp = s.mgmtUp := rfl
@[simp] theorem withEqs_mgmtD3 (v : SMap (Option Ring)) : (s.withEqs v).mgmtD3 = s.mgmtD3 := rfl
@[simp] theorem withEqs_pci (v : SMap (Option Ring)) : (s.withEqs v).pci = s.pci := rfl
@[simp] theorem withEqs_msgPba (v : SMap (Option Ring)) : (s.withEqs v).msgPba = s.msgPba := rfl
@[simp] theorem withEqs_wqs (v : SMap (Option Ring)) : (s.withEqs v).wqs = s.wqs := rfl
@[simp] theorem withEqs_cqs (v : SMap (Option Ring)) : (s.withEqs v).cqs = s.cqs := rfl
@[simp] theorem withEqs_work (v : SMap (Option Ring)) : (s.withEqs v).work = s.work := rfl
@[simp] theorem withEqs_nextWork (v : SMap (Option Ring)) : (s.withEqs v).nextWork = s.nextWork := rfl
@[simp] theorem withEqs_reads (v : SMap (Option Ring)) : (s.withEqs v).reads = s.reads := rfl
@[simp] theorem withEqs_nextRead (v : SMap (Option Ring)) : (s.withEqs v).nextRead = s.nextRead := rfl
@[simp] theorem withEqs_fns (v : SMap (Option Ring)) : (s.withEqs v).fns = s.fns := rfl
@[simp] theorem withEqs_jobs (v : SMap (Option Ring)) : (s.withEqs v).jobs = s.jobs := rfl
@[simp] theorem withEqs_trn (v : SMap (Option Ring)) : (s.withEqs v).trn = s.trn := rfl
@[simp] theorem withEqs_xpt (v : SMap (Option Ring)) : (s.withEqs v).xpt = s.xpt := rfl
@[simp] theorem withEqs_mtc (v : SMap (Option Ring)) : (s.withEqs v).mtc = s.mtc := rfl
@[simp] theorem withEqs_trees (v : SMap (Option Ring)) : (s.withEqs v).trees = s.trees := rfl
@[simp] theorem withEqs_regs (v : SMap (Option Ring)) : (s.withEqs v).regs = s.regs := rfl
@[simp] theorem withEqs_cgc (v : SMap (Option Ring)) : (s.withEqs v).cgc = s.cgc := rfl
@[simp] theorem withEqs_lck (v : SMap (Option Ring)) : (s.withEqs v).lck = s.lck := rfl
@[simp] theorem withEqs_stk (v : SMap (Option Ring)) : (s.withEqs v).stk = s.stk := rfl
@[simp] theorem withEqs_arb (v : SMap (Option Ring)) : (s.withEqs v).arb = s.arb := rfl
@[simp] theorem withEqs_sec (v : SMap (Option Ring)) : (s.withEqs v).sec = s.sec := rfl
@[simp] theorem withEqs_flt (v : SMap (Option Ring)) : (s.withEqs v).flt = s.flt := rfl
@[simp] theorem withEqs_time (v : SMap (Option Ring)) : (s.withEqs v).time = s.time := rfl
@[simp] theorem withEqs_pmon (v : SMap (Option Ring)) : (s.withEqs v).pmon = s.pmon := rfl
@[simp] theorem withEqs_pwr (v : SMap (Option Ring)) : (s.withEqs v).pwr = s.pwr := rfl
@[simp] theorem withEqs_tap (v : SMap (Option Ring)) : (s.withEqs v).tap = s.tap := rfl
@[simp] theorem withEqs_opening (v : SMap (Option Ring)) : (s.withEqs v).opening = s.opening := rfl
@[simp] theorem withEqs_eqs (v : SMap (Option Ring)) : (s.withEqs v).eqs = v := rfl
@[simp] theorem rd_withEqs (v : SMap (Option Ring)) (g : FRef) : (s.withEqs v).rd g = s.rd g := rfl

/-! Fields under `withWork`. -/

@[simp] theorem withWork_pending (v : SMap (Option WorkEnt)) : (s.withWork v).pending = s.pending := rfl
@[simp] theorem withWork_flds (v : SMap (Option WorkEnt)) : (s.withWork v).flds = s.flds := rfl
@[simp] theorem withWork_now (v : SMap (Option WorkEnt)) : (s.withWork v).now = s.now := rfl
@[simp] theorem withWork_rng (v : SMap (Option WorkEnt)) : (s.withWork v).rng = s.rng := rfl
@[simp] theorem withWork_out (v : SMap (Option WorkEnt)) : (s.withWork v).out = s.out := rfl
@[simp] theorem withWork_mem (v : SMap (Option WorkEnt)) : (s.withWork v).mem = s.mem := rfl
@[simp] theorem withWork_lanes (v : SMap (Option WorkEnt)) : (s.withWork v).lanes = s.lanes := rfl
@[simp] theorem withWork_ports (v : SMap (Option WorkEnt)) : (s.withWork v).ports = s.ports := rfl
@[simp] theorem withWork_buf (v : SMap (Option WorkEnt)) : (s.withWork v).buf = s.buf := rfl
@[simp] theorem withWork_nextPid (v : SMap (Option WorkEnt)) : (s.withWork v).nextPid = s.nextPid := rfl
@[simp] theorem withWork_oq (v : SMap (Option WorkEnt)) : (s.withWork v).oq = s.oq := rfl
@[simp] theorem withWork_lin (v : SMap (Option WorkEnt)) : (s.withWork v).lin = s.lin := rfl
@[simp] theorem withWork_guarUsed (v : SMap (Option WorkEnt)) : (s.withWork v).guarUsed = s.guarUsed := rfl
@[simp] theorem withWork_pol (v : SMap (Option WorkEnt)) : (s.withWork v).pol = s.pol := rfl
@[simp] theorem withWork_sched (v : SMap (Option WorkEnt)) : (s.withWork v).sched = s.sched := rfl
@[simp] theorem withWork_swc (v : SMap (Option WorkEnt)) : (s.withWork v).swc = s.swc := rfl
@[simp] theorem withWork_departures (v : SMap (Option WorkEnt)) : (s.withWork v).departures = s.departures := rfl
@[simp] theorem withWork_copying (v : SMap (Option WorkEnt)) : (s.withWork v).copying = s.copying := rfl
@[simp] theorem withWork_sinceSwap (v : SMap (Option WorkEnt)) : (s.withWork v).sinceSwap = s.sinceSwap := rfl
@[simp] theorem withWork_digests (v : SMap (Option WorkEnt)) : (s.withWork v).digests = s.digests := rfl
@[simp] theorem withWork_digestAt (v : SMap (Option WorkEnt)) : (s.withWork v).digestAt = s.digestAt := rfl
@[simp] theorem withWork_engReq (v : SMap (Option WorkEnt)) : (s.withWork v).engReq = s.engReq := rfl
@[simp] theorem withWork_engFwd (v : SMap (Option WorkEnt)) : (s.withWork v).engFwd = s.engFwd := rfl
@[simp] theorem withWork_engRep (v : SMap (Option WorkEnt)) : (s.withWork v).engRep = s.engRep := rfl
@[simp] theorem withWork_colIn (v : SMap (Option WorkEnt)) : (s.withWork v).colIn = s.colIn := rfl
@[simp] theorem withWork_colDown (v : SMap (Option WorkEnt)) : (s.withWork v).colDown = s.colDown := rfl
@[simp] theorem withWork_arbIn (v : SMap (Option WorkEnt)) : (s.withWork v).arbIn = s.arbIn := rfl
@[simp] theorem withWork_mgmtUp (v : SMap (Option WorkEnt)) : (s.withWork v).mgmtUp = s.mgmtUp := rfl
@[simp] theorem withWork_mgmtD3 (v : SMap (Option WorkEnt)) : (s.withWork v).mgmtD3 = s.mgmtD3 := rfl
@[simp] theorem withWork_pci (v : SMap (Option WorkEnt)) : (s.withWork v).pci = s.pci := rfl
@[simp] theorem withWork_msgPba (v : SMap (Option WorkEnt)) : (s.withWork v).msgPba = s.msgPba := rfl
@[simp] theorem withWork_wqs (v : SMap (Option WorkEnt)) : (s.withWork v).wqs = s.wqs := rfl
@[simp] theorem withWork_cqs (v : SMap (Option WorkEnt)) : (s.withWork v).cqs = s.cqs := rfl
@[simp] theorem withWork_eqs (v : SMap (Option WorkEnt)) : (s.withWork v).eqs = s.eqs := rfl
@[simp] theorem withWork_nextWork (v : SMap (Option WorkEnt)) : (s.withWork v).nextWork = s.nextWork := rfl
@[simp] theorem withWork_reads (v : SMap (Option WorkEnt)) : (s.withWork v).reads = s.reads := rfl
@[simp] theorem withWork_nextRead (v : SMap (Option WorkEnt)) : (s.withWork v).nextRead = s.nextRead := rfl
@[simp] theorem withWork_fns (v : SMap (Option WorkEnt)) : (s.withWork v).fns = s.fns := rfl
@[simp] theorem withWork_jobs (v : SMap (Option WorkEnt)) : (s.withWork v).jobs = s.jobs := rfl
@[simp] theorem withWork_trn (v : SMap (Option WorkEnt)) : (s.withWork v).trn = s.trn := rfl
@[simp] theorem withWork_xpt (v : SMap (Option WorkEnt)) : (s.withWork v).xpt = s.xpt := rfl
@[simp] theorem withWork_mtc (v : SMap (Option WorkEnt)) : (s.withWork v).mtc = s.mtc := rfl
@[simp] theorem withWork_trees (v : SMap (Option WorkEnt)) : (s.withWork v).trees = s.trees := rfl
@[simp] theorem withWork_regs (v : SMap (Option WorkEnt)) : (s.withWork v).regs = s.regs := rfl
@[simp] theorem withWork_cgc (v : SMap (Option WorkEnt)) : (s.withWork v).cgc = s.cgc := rfl
@[simp] theorem withWork_lck (v : SMap (Option WorkEnt)) : (s.withWork v).lck = s.lck := rfl
@[simp] theorem withWork_stk (v : SMap (Option WorkEnt)) : (s.withWork v).stk = s.stk := rfl
@[simp] theorem withWork_arb (v : SMap (Option WorkEnt)) : (s.withWork v).arb = s.arb := rfl
@[simp] theorem withWork_sec (v : SMap (Option WorkEnt)) : (s.withWork v).sec = s.sec := rfl
@[simp] theorem withWork_flt (v : SMap (Option WorkEnt)) : (s.withWork v).flt = s.flt := rfl
@[simp] theorem withWork_time (v : SMap (Option WorkEnt)) : (s.withWork v).time = s.time := rfl
@[simp] theorem withWork_pmon (v : SMap (Option WorkEnt)) : (s.withWork v).pmon = s.pmon := rfl
@[simp] theorem withWork_pwr (v : SMap (Option WorkEnt)) : (s.withWork v).pwr = s.pwr := rfl
@[simp] theorem withWork_tap (v : SMap (Option WorkEnt)) : (s.withWork v).tap = s.tap := rfl
@[simp] theorem withWork_opening (v : SMap (Option WorkEnt)) : (s.withWork v).opening = s.opening := rfl
@[simp] theorem withWork_work (v : SMap (Option WorkEnt)) : (s.withWork v).work = v := rfl
@[simp] theorem rd_withWork (v : SMap (Option WorkEnt)) (g : FRef) : (s.withWork v).rd g = s.rd g := rfl

/-! Fields under `withNextWork`. -/

@[simp] theorem withNextWork_pending (v : Nat) : (s.withNextWork v).pending = s.pending := rfl
@[simp] theorem withNextWork_flds (v : Nat) : (s.withNextWork v).flds = s.flds := rfl
@[simp] theorem withNextWork_now (v : Nat) : (s.withNextWork v).now = s.now := rfl
@[simp] theorem withNextWork_rng (v : Nat) : (s.withNextWork v).rng = s.rng := rfl
@[simp] theorem withNextWork_out (v : Nat) : (s.withNextWork v).out = s.out := rfl
@[simp] theorem withNextWork_mem (v : Nat) : (s.withNextWork v).mem = s.mem := rfl
@[simp] theorem withNextWork_lanes (v : Nat) : (s.withNextWork v).lanes = s.lanes := rfl
@[simp] theorem withNextWork_ports (v : Nat) : (s.withNextWork v).ports = s.ports := rfl
@[simp] theorem withNextWork_buf (v : Nat) : (s.withNextWork v).buf = s.buf := rfl
@[simp] theorem withNextWork_nextPid (v : Nat) : (s.withNextWork v).nextPid = s.nextPid := rfl
@[simp] theorem withNextWork_oq (v : Nat) : (s.withNextWork v).oq = s.oq := rfl
@[simp] theorem withNextWork_lin (v : Nat) : (s.withNextWork v).lin = s.lin := rfl
@[simp] theorem withNextWork_guarUsed (v : Nat) : (s.withNextWork v).guarUsed = s.guarUsed := rfl
@[simp] theorem withNextWork_pol (v : Nat) : (s.withNextWork v).pol = s.pol := rfl
@[simp] theorem withNextWork_sched (v : Nat) : (s.withNextWork v).sched = s.sched := rfl
@[simp] theorem withNextWork_swc (v : Nat) : (s.withNextWork v).swc = s.swc := rfl
@[simp] theorem withNextWork_departures (v : Nat) : (s.withNextWork v).departures = s.departures := rfl
@[simp] theorem withNextWork_copying (v : Nat) : (s.withNextWork v).copying = s.copying := rfl
@[simp] theorem withNextWork_sinceSwap (v : Nat) : (s.withNextWork v).sinceSwap = s.sinceSwap := rfl
@[simp] theorem withNextWork_digests (v : Nat) : (s.withNextWork v).digests = s.digests := rfl
@[simp] theorem withNextWork_digestAt (v : Nat) : (s.withNextWork v).digestAt = s.digestAt := rfl
@[simp] theorem withNextWork_engReq (v : Nat) : (s.withNextWork v).engReq = s.engReq := rfl
@[simp] theorem withNextWork_engFwd (v : Nat) : (s.withNextWork v).engFwd = s.engFwd := rfl
@[simp] theorem withNextWork_engRep (v : Nat) : (s.withNextWork v).engRep = s.engRep := rfl
@[simp] theorem withNextWork_colIn (v : Nat) : (s.withNextWork v).colIn = s.colIn := rfl
@[simp] theorem withNextWork_colDown (v : Nat) : (s.withNextWork v).colDown = s.colDown := rfl
@[simp] theorem withNextWork_arbIn (v : Nat) : (s.withNextWork v).arbIn = s.arbIn := rfl
@[simp] theorem withNextWork_mgmtUp (v : Nat) : (s.withNextWork v).mgmtUp = s.mgmtUp := rfl
@[simp] theorem withNextWork_mgmtD3 (v : Nat) : (s.withNextWork v).mgmtD3 = s.mgmtD3 := rfl
@[simp] theorem withNextWork_pci (v : Nat) : (s.withNextWork v).pci = s.pci := rfl
@[simp] theorem withNextWork_msgPba (v : Nat) : (s.withNextWork v).msgPba = s.msgPba := rfl
@[simp] theorem withNextWork_wqs (v : Nat) : (s.withNextWork v).wqs = s.wqs := rfl
@[simp] theorem withNextWork_cqs (v : Nat) : (s.withNextWork v).cqs = s.cqs := rfl
@[simp] theorem withNextWork_eqs (v : Nat) : (s.withNextWork v).eqs = s.eqs := rfl
@[simp] theorem withNextWork_work (v : Nat) : (s.withNextWork v).work = s.work := rfl
@[simp] theorem withNextWork_reads (v : Nat) : (s.withNextWork v).reads = s.reads := rfl
@[simp] theorem withNextWork_nextRead (v : Nat) : (s.withNextWork v).nextRead = s.nextRead := rfl
@[simp] theorem withNextWork_fns (v : Nat) : (s.withNextWork v).fns = s.fns := rfl
@[simp] theorem withNextWork_jobs (v : Nat) : (s.withNextWork v).jobs = s.jobs := rfl
@[simp] theorem withNextWork_trn (v : Nat) : (s.withNextWork v).trn = s.trn := rfl
@[simp] theorem withNextWork_xpt (v : Nat) : (s.withNextWork v).xpt = s.xpt := rfl
@[simp] theorem withNextWork_mtc (v : Nat) : (s.withNextWork v).mtc = s.mtc := rfl
@[simp] theorem withNextWork_trees (v : Nat) : (s.withNextWork v).trees = s.trees := rfl
@[simp] theorem withNextWork_regs (v : Nat) : (s.withNextWork v).regs = s.regs := rfl
@[simp] theorem withNextWork_cgc (v : Nat) : (s.withNextWork v).cgc = s.cgc := rfl
@[simp] theorem withNextWork_lck (v : Nat) : (s.withNextWork v).lck = s.lck := rfl
@[simp] theorem withNextWork_stk (v : Nat) : (s.withNextWork v).stk = s.stk := rfl
@[simp] theorem withNextWork_arb (v : Nat) : (s.withNextWork v).arb = s.arb := rfl
@[simp] theorem withNextWork_sec (v : Nat) : (s.withNextWork v).sec = s.sec := rfl
@[simp] theorem withNextWork_flt (v : Nat) : (s.withNextWork v).flt = s.flt := rfl
@[simp] theorem withNextWork_time (v : Nat) : (s.withNextWork v).time = s.time := rfl
@[simp] theorem withNextWork_pmon (v : Nat) : (s.withNextWork v).pmon = s.pmon := rfl
@[simp] theorem withNextWork_pwr (v : Nat) : (s.withNextWork v).pwr = s.pwr := rfl
@[simp] theorem withNextWork_tap (v : Nat) : (s.withNextWork v).tap = s.tap := rfl
@[simp] theorem withNextWork_opening (v : Nat) : (s.withNextWork v).opening = s.opening := rfl
@[simp] theorem withNextWork_nextWork (v : Nat) : (s.withNextWork v).nextWork = v := rfl
@[simp] theorem rd_withNextWork (v : Nat) (g : FRef) : (s.withNextWork v).rd g = s.rd g := rfl

/-! Fields under `withReads`. -/

@[simp] theorem withReads_pending (v : List HostRead) : (s.withReads v).pending = s.pending := rfl
@[simp] theorem withReads_flds (v : List HostRead) : (s.withReads v).flds = s.flds := rfl
@[simp] theorem withReads_now (v : List HostRead) : (s.withReads v).now = s.now := rfl
@[simp] theorem withReads_rng (v : List HostRead) : (s.withReads v).rng = s.rng := rfl
@[simp] theorem withReads_out (v : List HostRead) : (s.withReads v).out = s.out := rfl
@[simp] theorem withReads_mem (v : List HostRead) : (s.withReads v).mem = s.mem := rfl
@[simp] theorem withReads_lanes (v : List HostRead) : (s.withReads v).lanes = s.lanes := rfl
@[simp] theorem withReads_ports (v : List HostRead) : (s.withReads v).ports = s.ports := rfl
@[simp] theorem withReads_buf (v : List HostRead) : (s.withReads v).buf = s.buf := rfl
@[simp] theorem withReads_nextPid (v : List HostRead) : (s.withReads v).nextPid = s.nextPid := rfl
@[simp] theorem withReads_oq (v : List HostRead) : (s.withReads v).oq = s.oq := rfl
@[simp] theorem withReads_lin (v : List HostRead) : (s.withReads v).lin = s.lin := rfl
@[simp] theorem withReads_guarUsed (v : List HostRead) : (s.withReads v).guarUsed = s.guarUsed := rfl
@[simp] theorem withReads_pol (v : List HostRead) : (s.withReads v).pol = s.pol := rfl
@[simp] theorem withReads_sched (v : List HostRead) : (s.withReads v).sched = s.sched := rfl
@[simp] theorem withReads_swc (v : List HostRead) : (s.withReads v).swc = s.swc := rfl
@[simp] theorem withReads_departures (v : List HostRead) : (s.withReads v).departures = s.departures := rfl
@[simp] theorem withReads_copying (v : List HostRead) : (s.withReads v).copying = s.copying := rfl
@[simp] theorem withReads_sinceSwap (v : List HostRead) : (s.withReads v).sinceSwap = s.sinceSwap := rfl
@[simp] theorem withReads_digests (v : List HostRead) : (s.withReads v).digests = s.digests := rfl
@[simp] theorem withReads_digestAt (v : List HostRead) : (s.withReads v).digestAt = s.digestAt := rfl
@[simp] theorem withReads_engReq (v : List HostRead) : (s.withReads v).engReq = s.engReq := rfl
@[simp] theorem withReads_engFwd (v : List HostRead) : (s.withReads v).engFwd = s.engFwd := rfl
@[simp] theorem withReads_engRep (v : List HostRead) : (s.withReads v).engRep = s.engRep := rfl
@[simp] theorem withReads_colIn (v : List HostRead) : (s.withReads v).colIn = s.colIn := rfl
@[simp] theorem withReads_colDown (v : List HostRead) : (s.withReads v).colDown = s.colDown := rfl
@[simp] theorem withReads_arbIn (v : List HostRead) : (s.withReads v).arbIn = s.arbIn := rfl
@[simp] theorem withReads_mgmtUp (v : List HostRead) : (s.withReads v).mgmtUp = s.mgmtUp := rfl
@[simp] theorem withReads_mgmtD3 (v : List HostRead) : (s.withReads v).mgmtD3 = s.mgmtD3 := rfl
@[simp] theorem withReads_pci (v : List HostRead) : (s.withReads v).pci = s.pci := rfl
@[simp] theorem withReads_msgPba (v : List HostRead) : (s.withReads v).msgPba = s.msgPba := rfl
@[simp] theorem withReads_wqs (v : List HostRead) : (s.withReads v).wqs = s.wqs := rfl
@[simp] theorem withReads_cqs (v : List HostRead) : (s.withReads v).cqs = s.cqs := rfl
@[simp] theorem withReads_eqs (v : List HostRead) : (s.withReads v).eqs = s.eqs := rfl
@[simp] theorem withReads_work (v : List HostRead) : (s.withReads v).work = s.work := rfl
@[simp] theorem withReads_nextWork (v : List HostRead) : (s.withReads v).nextWork = s.nextWork := rfl
@[simp] theorem withReads_nextRead (v : List HostRead) : (s.withReads v).nextRead = s.nextRead := rfl
@[simp] theorem withReads_fns (v : List HostRead) : (s.withReads v).fns = s.fns := rfl
@[simp] theorem withReads_jobs (v : List HostRead) : (s.withReads v).jobs = s.jobs := rfl
@[simp] theorem withReads_trn (v : List HostRead) : (s.withReads v).trn = s.trn := rfl
@[simp] theorem withReads_xpt (v : List HostRead) : (s.withReads v).xpt = s.xpt := rfl
@[simp] theorem withReads_mtc (v : List HostRead) : (s.withReads v).mtc = s.mtc := rfl
@[simp] theorem withReads_trees (v : List HostRead) : (s.withReads v).trees = s.trees := rfl
@[simp] theorem withReads_regs (v : List HostRead) : (s.withReads v).regs = s.regs := rfl
@[simp] theorem withReads_cgc (v : List HostRead) : (s.withReads v).cgc = s.cgc := rfl
@[simp] theorem withReads_lck (v : List HostRead) : (s.withReads v).lck = s.lck := rfl
@[simp] theorem withReads_stk (v : List HostRead) : (s.withReads v).stk = s.stk := rfl
@[simp] theorem withReads_arb (v : List HostRead) : (s.withReads v).arb = s.arb := rfl
@[simp] theorem withReads_sec (v : List HostRead) : (s.withReads v).sec = s.sec := rfl
@[simp] theorem withReads_flt (v : List HostRead) : (s.withReads v).flt = s.flt := rfl
@[simp] theorem withReads_time (v : List HostRead) : (s.withReads v).time = s.time := rfl
@[simp] theorem withReads_pmon (v : List HostRead) : (s.withReads v).pmon = s.pmon := rfl
@[simp] theorem withReads_pwr (v : List HostRead) : (s.withReads v).pwr = s.pwr := rfl
@[simp] theorem withReads_tap (v : List HostRead) : (s.withReads v).tap = s.tap := rfl
@[simp] theorem withReads_opening (v : List HostRead) : (s.withReads v).opening = s.opening := rfl
@[simp] theorem withReads_reads (v : List HostRead) : (s.withReads v).reads = v := rfl
@[simp] theorem rd_withReads (v : List HostRead) (g : FRef) : (s.withReads v).rd g = s.rd g := rfl

/-! Fields under `withNextRead`. -/

@[simp] theorem withNextRead_pending (v : Nat) : (s.withNextRead v).pending = s.pending := rfl
@[simp] theorem withNextRead_flds (v : Nat) : (s.withNextRead v).flds = s.flds := rfl
@[simp] theorem withNextRead_now (v : Nat) : (s.withNextRead v).now = s.now := rfl
@[simp] theorem withNextRead_rng (v : Nat) : (s.withNextRead v).rng = s.rng := rfl
@[simp] theorem withNextRead_out (v : Nat) : (s.withNextRead v).out = s.out := rfl
@[simp] theorem withNextRead_mem (v : Nat) : (s.withNextRead v).mem = s.mem := rfl
@[simp] theorem withNextRead_lanes (v : Nat) : (s.withNextRead v).lanes = s.lanes := rfl
@[simp] theorem withNextRead_ports (v : Nat) : (s.withNextRead v).ports = s.ports := rfl
@[simp] theorem withNextRead_buf (v : Nat) : (s.withNextRead v).buf = s.buf := rfl
@[simp] theorem withNextRead_nextPid (v : Nat) : (s.withNextRead v).nextPid = s.nextPid := rfl
@[simp] theorem withNextRead_oq (v : Nat) : (s.withNextRead v).oq = s.oq := rfl
@[simp] theorem withNextRead_lin (v : Nat) : (s.withNextRead v).lin = s.lin := rfl
@[simp] theorem withNextRead_guarUsed (v : Nat) : (s.withNextRead v).guarUsed = s.guarUsed := rfl
@[simp] theorem withNextRead_pol (v : Nat) : (s.withNextRead v).pol = s.pol := rfl
@[simp] theorem withNextRead_sched (v : Nat) : (s.withNextRead v).sched = s.sched := rfl
@[simp] theorem withNextRead_swc (v : Nat) : (s.withNextRead v).swc = s.swc := rfl
@[simp] theorem withNextRead_departures (v : Nat) : (s.withNextRead v).departures = s.departures := rfl
@[simp] theorem withNextRead_copying (v : Nat) : (s.withNextRead v).copying = s.copying := rfl
@[simp] theorem withNextRead_sinceSwap (v : Nat) : (s.withNextRead v).sinceSwap = s.sinceSwap := rfl
@[simp] theorem withNextRead_digests (v : Nat) : (s.withNextRead v).digests = s.digests := rfl
@[simp] theorem withNextRead_digestAt (v : Nat) : (s.withNextRead v).digestAt = s.digestAt := rfl
@[simp] theorem withNextRead_engReq (v : Nat) : (s.withNextRead v).engReq = s.engReq := rfl
@[simp] theorem withNextRead_engFwd (v : Nat) : (s.withNextRead v).engFwd = s.engFwd := rfl
@[simp] theorem withNextRead_engRep (v : Nat) : (s.withNextRead v).engRep = s.engRep := rfl
@[simp] theorem withNextRead_colIn (v : Nat) : (s.withNextRead v).colIn = s.colIn := rfl
@[simp] theorem withNextRead_colDown (v : Nat) : (s.withNextRead v).colDown = s.colDown := rfl
@[simp] theorem withNextRead_arbIn (v : Nat) : (s.withNextRead v).arbIn = s.arbIn := rfl
@[simp] theorem withNextRead_mgmtUp (v : Nat) : (s.withNextRead v).mgmtUp = s.mgmtUp := rfl
@[simp] theorem withNextRead_mgmtD3 (v : Nat) : (s.withNextRead v).mgmtD3 = s.mgmtD3 := rfl
@[simp] theorem withNextRead_pci (v : Nat) : (s.withNextRead v).pci = s.pci := rfl
@[simp] theorem withNextRead_msgPba (v : Nat) : (s.withNextRead v).msgPba = s.msgPba := rfl
@[simp] theorem withNextRead_wqs (v : Nat) : (s.withNextRead v).wqs = s.wqs := rfl
@[simp] theorem withNextRead_cqs (v : Nat) : (s.withNextRead v).cqs = s.cqs := rfl
@[simp] theorem withNextRead_eqs (v : Nat) : (s.withNextRead v).eqs = s.eqs := rfl
@[simp] theorem withNextRead_work (v : Nat) : (s.withNextRead v).work = s.work := rfl
@[simp] theorem withNextRead_nextWork (v : Nat) : (s.withNextRead v).nextWork = s.nextWork := rfl
@[simp] theorem withNextRead_reads (v : Nat) : (s.withNextRead v).reads = s.reads := rfl
@[simp] theorem withNextRead_fns (v : Nat) : (s.withNextRead v).fns = s.fns := rfl
@[simp] theorem withNextRead_jobs (v : Nat) : (s.withNextRead v).jobs = s.jobs := rfl
@[simp] theorem withNextRead_trn (v : Nat) : (s.withNextRead v).trn = s.trn := rfl
@[simp] theorem withNextRead_xpt (v : Nat) : (s.withNextRead v).xpt = s.xpt := rfl
@[simp] theorem withNextRead_mtc (v : Nat) : (s.withNextRead v).mtc = s.mtc := rfl
@[simp] theorem withNextRead_trees (v : Nat) : (s.withNextRead v).trees = s.trees := rfl
@[simp] theorem withNextRead_regs (v : Nat) : (s.withNextRead v).regs = s.regs := rfl
@[simp] theorem withNextRead_cgc (v : Nat) : (s.withNextRead v).cgc = s.cgc := rfl
@[simp] theorem withNextRead_lck (v : Nat) : (s.withNextRead v).lck = s.lck := rfl
@[simp] theorem withNextRead_stk (v : Nat) : (s.withNextRead v).stk = s.stk := rfl
@[simp] theorem withNextRead_arb (v : Nat) : (s.withNextRead v).arb = s.arb := rfl
@[simp] theorem withNextRead_sec (v : Nat) : (s.withNextRead v).sec = s.sec := rfl
@[simp] theorem withNextRead_flt (v : Nat) : (s.withNextRead v).flt = s.flt := rfl
@[simp] theorem withNextRead_time (v : Nat) : (s.withNextRead v).time = s.time := rfl
@[simp] theorem withNextRead_pmon (v : Nat) : (s.withNextRead v).pmon = s.pmon := rfl
@[simp] theorem withNextRead_pwr (v : Nat) : (s.withNextRead v).pwr = s.pwr := rfl
@[simp] theorem withNextRead_tap (v : Nat) : (s.withNextRead v).tap = s.tap := rfl
@[simp] theorem withNextRead_opening (v : Nat) : (s.withNextRead v).opening = s.opening := rfl
@[simp] theorem withNextRead_nextRead (v : Nat) : (s.withNextRead v).nextRead = v := rfl
@[simp] theorem rd_withNextRead (v : Nat) (g : FRef) : (s.withNextRead v).rd g = s.rd g := rfl

/-! Fields under `withFns`. -/

@[simp] theorem withFns_pending (v : SMap FnSt) : (s.withFns v).pending = s.pending := rfl
@[simp] theorem withFns_flds (v : SMap FnSt) : (s.withFns v).flds = s.flds := rfl
@[simp] theorem withFns_now (v : SMap FnSt) : (s.withFns v).now = s.now := rfl
@[simp] theorem withFns_rng (v : SMap FnSt) : (s.withFns v).rng = s.rng := rfl
@[simp] theorem withFns_out (v : SMap FnSt) : (s.withFns v).out = s.out := rfl
@[simp] theorem withFns_mem (v : SMap FnSt) : (s.withFns v).mem = s.mem := rfl
@[simp] theorem withFns_lanes (v : SMap FnSt) : (s.withFns v).lanes = s.lanes := rfl
@[simp] theorem withFns_ports (v : SMap FnSt) : (s.withFns v).ports = s.ports := rfl
@[simp] theorem withFns_buf (v : SMap FnSt) : (s.withFns v).buf = s.buf := rfl
@[simp] theorem withFns_nextPid (v : SMap FnSt) : (s.withFns v).nextPid = s.nextPid := rfl
@[simp] theorem withFns_oq (v : SMap FnSt) : (s.withFns v).oq = s.oq := rfl
@[simp] theorem withFns_lin (v : SMap FnSt) : (s.withFns v).lin = s.lin := rfl
@[simp] theorem withFns_guarUsed (v : SMap FnSt) : (s.withFns v).guarUsed = s.guarUsed := rfl
@[simp] theorem withFns_pol (v : SMap FnSt) : (s.withFns v).pol = s.pol := rfl
@[simp] theorem withFns_sched (v : SMap FnSt) : (s.withFns v).sched = s.sched := rfl
@[simp] theorem withFns_swc (v : SMap FnSt) : (s.withFns v).swc = s.swc := rfl
@[simp] theorem withFns_departures (v : SMap FnSt) : (s.withFns v).departures = s.departures := rfl
@[simp] theorem withFns_copying (v : SMap FnSt) : (s.withFns v).copying = s.copying := rfl
@[simp] theorem withFns_sinceSwap (v : SMap FnSt) : (s.withFns v).sinceSwap = s.sinceSwap := rfl
@[simp] theorem withFns_digests (v : SMap FnSt) : (s.withFns v).digests = s.digests := rfl
@[simp] theorem withFns_digestAt (v : SMap FnSt) : (s.withFns v).digestAt = s.digestAt := rfl
@[simp] theorem withFns_engReq (v : SMap FnSt) : (s.withFns v).engReq = s.engReq := rfl
@[simp] theorem withFns_engFwd (v : SMap FnSt) : (s.withFns v).engFwd = s.engFwd := rfl
@[simp] theorem withFns_engRep (v : SMap FnSt) : (s.withFns v).engRep = s.engRep := rfl
@[simp] theorem withFns_colIn (v : SMap FnSt) : (s.withFns v).colIn = s.colIn := rfl
@[simp] theorem withFns_colDown (v : SMap FnSt) : (s.withFns v).colDown = s.colDown := rfl
@[simp] theorem withFns_arbIn (v : SMap FnSt) : (s.withFns v).arbIn = s.arbIn := rfl
@[simp] theorem withFns_mgmtUp (v : SMap FnSt) : (s.withFns v).mgmtUp = s.mgmtUp := rfl
@[simp] theorem withFns_mgmtD3 (v : SMap FnSt) : (s.withFns v).mgmtD3 = s.mgmtD3 := rfl
@[simp] theorem withFns_pci (v : SMap FnSt) : (s.withFns v).pci = s.pci := rfl
@[simp] theorem withFns_msgPba (v : SMap FnSt) : (s.withFns v).msgPba = s.msgPba := rfl
@[simp] theorem withFns_wqs (v : SMap FnSt) : (s.withFns v).wqs = s.wqs := rfl
@[simp] theorem withFns_cqs (v : SMap FnSt) : (s.withFns v).cqs = s.cqs := rfl
@[simp] theorem withFns_eqs (v : SMap FnSt) : (s.withFns v).eqs = s.eqs := rfl
@[simp] theorem withFns_work (v : SMap FnSt) : (s.withFns v).work = s.work := rfl
@[simp] theorem withFns_nextWork (v : SMap FnSt) : (s.withFns v).nextWork = s.nextWork := rfl
@[simp] theorem withFns_reads (v : SMap FnSt) : (s.withFns v).reads = s.reads := rfl
@[simp] theorem withFns_nextRead (v : SMap FnSt) : (s.withFns v).nextRead = s.nextRead := rfl
@[simp] theorem withFns_jobs (v : SMap FnSt) : (s.withFns v).jobs = s.jobs := rfl
@[simp] theorem withFns_trn (v : SMap FnSt) : (s.withFns v).trn = s.trn := rfl
@[simp] theorem withFns_xpt (v : SMap FnSt) : (s.withFns v).xpt = s.xpt := rfl
@[simp] theorem withFns_mtc (v : SMap FnSt) : (s.withFns v).mtc = s.mtc := rfl
@[simp] theorem withFns_trees (v : SMap FnSt) : (s.withFns v).trees = s.trees := rfl
@[simp] theorem withFns_regs (v : SMap FnSt) : (s.withFns v).regs = s.regs := rfl
@[simp] theorem withFns_cgc (v : SMap FnSt) : (s.withFns v).cgc = s.cgc := rfl
@[simp] theorem withFns_lck (v : SMap FnSt) : (s.withFns v).lck = s.lck := rfl
@[simp] theorem withFns_stk (v : SMap FnSt) : (s.withFns v).stk = s.stk := rfl
@[simp] theorem withFns_arb (v : SMap FnSt) : (s.withFns v).arb = s.arb := rfl
@[simp] theorem withFns_sec (v : SMap FnSt) : (s.withFns v).sec = s.sec := rfl
@[simp] theorem withFns_flt (v : SMap FnSt) : (s.withFns v).flt = s.flt := rfl
@[simp] theorem withFns_time (v : SMap FnSt) : (s.withFns v).time = s.time := rfl
@[simp] theorem withFns_pmon (v : SMap FnSt) : (s.withFns v).pmon = s.pmon := rfl
@[simp] theorem withFns_pwr (v : SMap FnSt) : (s.withFns v).pwr = s.pwr := rfl
@[simp] theorem withFns_tap (v : SMap FnSt) : (s.withFns v).tap = s.tap := rfl
@[simp] theorem withFns_opening (v : SMap FnSt) : (s.withFns v).opening = s.opening := rfl
@[simp] theorem withFns_fns (v : SMap FnSt) : (s.withFns v).fns = v := rfl
@[simp] theorem rd_withFns (v : SMap FnSt) (g : FRef) : (s.withFns v).rd g = s.rd g := rfl

/-! Fields under `withJobs`. -/

@[simp] theorem withJobs_pending (v : SMap (Option Job)) : (s.withJobs v).pending = s.pending := rfl
@[simp] theorem withJobs_flds (v : SMap (Option Job)) : (s.withJobs v).flds = s.flds := rfl
@[simp] theorem withJobs_now (v : SMap (Option Job)) : (s.withJobs v).now = s.now := rfl
@[simp] theorem withJobs_rng (v : SMap (Option Job)) : (s.withJobs v).rng = s.rng := rfl
@[simp] theorem withJobs_out (v : SMap (Option Job)) : (s.withJobs v).out = s.out := rfl
@[simp] theorem withJobs_mem (v : SMap (Option Job)) : (s.withJobs v).mem = s.mem := rfl
@[simp] theorem withJobs_lanes (v : SMap (Option Job)) : (s.withJobs v).lanes = s.lanes := rfl
@[simp] theorem withJobs_ports (v : SMap (Option Job)) : (s.withJobs v).ports = s.ports := rfl
@[simp] theorem withJobs_buf (v : SMap (Option Job)) : (s.withJobs v).buf = s.buf := rfl
@[simp] theorem withJobs_nextPid (v : SMap (Option Job)) : (s.withJobs v).nextPid = s.nextPid := rfl
@[simp] theorem withJobs_oq (v : SMap (Option Job)) : (s.withJobs v).oq = s.oq := rfl
@[simp] theorem withJobs_lin (v : SMap (Option Job)) : (s.withJobs v).lin = s.lin := rfl
@[simp] theorem withJobs_guarUsed (v : SMap (Option Job)) : (s.withJobs v).guarUsed = s.guarUsed := rfl
@[simp] theorem withJobs_pol (v : SMap (Option Job)) : (s.withJobs v).pol = s.pol := rfl
@[simp] theorem withJobs_sched (v : SMap (Option Job)) : (s.withJobs v).sched = s.sched := rfl
@[simp] theorem withJobs_swc (v : SMap (Option Job)) : (s.withJobs v).swc = s.swc := rfl
@[simp] theorem withJobs_departures (v : SMap (Option Job)) : (s.withJobs v).departures = s.departures := rfl
@[simp] theorem withJobs_copying (v : SMap (Option Job)) : (s.withJobs v).copying = s.copying := rfl
@[simp] theorem withJobs_sinceSwap (v : SMap (Option Job)) : (s.withJobs v).sinceSwap = s.sinceSwap := rfl
@[simp] theorem withJobs_digests (v : SMap (Option Job)) : (s.withJobs v).digests = s.digests := rfl
@[simp] theorem withJobs_digestAt (v : SMap (Option Job)) : (s.withJobs v).digestAt = s.digestAt := rfl
@[simp] theorem withJobs_engReq (v : SMap (Option Job)) : (s.withJobs v).engReq = s.engReq := rfl
@[simp] theorem withJobs_engFwd (v : SMap (Option Job)) : (s.withJobs v).engFwd = s.engFwd := rfl
@[simp] theorem withJobs_engRep (v : SMap (Option Job)) : (s.withJobs v).engRep = s.engRep := rfl
@[simp] theorem withJobs_colIn (v : SMap (Option Job)) : (s.withJobs v).colIn = s.colIn := rfl
@[simp] theorem withJobs_colDown (v : SMap (Option Job)) : (s.withJobs v).colDown = s.colDown := rfl
@[simp] theorem withJobs_arbIn (v : SMap (Option Job)) : (s.withJobs v).arbIn = s.arbIn := rfl
@[simp] theorem withJobs_mgmtUp (v : SMap (Option Job)) : (s.withJobs v).mgmtUp = s.mgmtUp := rfl
@[simp] theorem withJobs_mgmtD3 (v : SMap (Option Job)) : (s.withJobs v).mgmtD3 = s.mgmtD3 := rfl
@[simp] theorem withJobs_pci (v : SMap (Option Job)) : (s.withJobs v).pci = s.pci := rfl
@[simp] theorem withJobs_msgPba (v : SMap (Option Job)) : (s.withJobs v).msgPba = s.msgPba := rfl
@[simp] theorem withJobs_wqs (v : SMap (Option Job)) : (s.withJobs v).wqs = s.wqs := rfl
@[simp] theorem withJobs_cqs (v : SMap (Option Job)) : (s.withJobs v).cqs = s.cqs := rfl
@[simp] theorem withJobs_eqs (v : SMap (Option Job)) : (s.withJobs v).eqs = s.eqs := rfl
@[simp] theorem withJobs_work (v : SMap (Option Job)) : (s.withJobs v).work = s.work := rfl
@[simp] theorem withJobs_nextWork (v : SMap (Option Job)) : (s.withJobs v).nextWork = s.nextWork := rfl
@[simp] theorem withJobs_reads (v : SMap (Option Job)) : (s.withJobs v).reads = s.reads := rfl
@[simp] theorem withJobs_nextRead (v : SMap (Option Job)) : (s.withJobs v).nextRead = s.nextRead := rfl
@[simp] theorem withJobs_fns (v : SMap (Option Job)) : (s.withJobs v).fns = s.fns := rfl
@[simp] theorem withJobs_trn (v : SMap (Option Job)) : (s.withJobs v).trn = s.trn := rfl
@[simp] theorem withJobs_xpt (v : SMap (Option Job)) : (s.withJobs v).xpt = s.xpt := rfl
@[simp] theorem withJobs_mtc (v : SMap (Option Job)) : (s.withJobs v).mtc = s.mtc := rfl
@[simp] theorem withJobs_trees (v : SMap (Option Job)) : (s.withJobs v).trees = s.trees := rfl
@[simp] theorem withJobs_regs (v : SMap (Option Job)) : (s.withJobs v).regs = s.regs := rfl
@[simp] theorem withJobs_cgc (v : SMap (Option Job)) : (s.withJobs v).cgc = s.cgc := rfl
@[simp] theorem withJobs_lck (v : SMap (Option Job)) : (s.withJobs v).lck = s.lck := rfl
@[simp] theorem withJobs_stk (v : SMap (Option Job)) : (s.withJobs v).stk = s.stk := rfl
@[simp] theorem withJobs_arb (v : SMap (Option Job)) : (s.withJobs v).arb = s.arb := rfl
@[simp] theorem withJobs_sec (v : SMap (Option Job)) : (s.withJobs v).sec = s.sec := rfl
@[simp] theorem withJobs_flt (v : SMap (Option Job)) : (s.withJobs v).flt = s.flt := rfl
@[simp] theorem withJobs_time (v : SMap (Option Job)) : (s.withJobs v).time = s.time := rfl
@[simp] theorem withJobs_pmon (v : SMap (Option Job)) : (s.withJobs v).pmon = s.pmon := rfl
@[simp] theorem withJobs_pwr (v : SMap (Option Job)) : (s.withJobs v).pwr = s.pwr := rfl
@[simp] theorem withJobs_tap (v : SMap (Option Job)) : (s.withJobs v).tap = s.tap := rfl
@[simp] theorem withJobs_opening (v : SMap (Option Job)) : (s.withJobs v).opening = s.opening := rfl
@[simp] theorem withJobs_jobs (v : SMap (Option Job)) : (s.withJobs v).jobs = v := rfl
@[simp] theorem rd_withJobs (v : SMap (Option Job)) (g : FRef) : (s.withJobs v).rd g = s.rd g := rfl

/-! Fields under `withTrn`. -/

@[simp] theorem withTrn_pending (v : TrnSt) : (s.withTrn v).pending = s.pending := rfl
@[simp] theorem withTrn_flds (v : TrnSt) : (s.withTrn v).flds = s.flds := rfl
@[simp] theorem withTrn_now (v : TrnSt) : (s.withTrn v).now = s.now := rfl
@[simp] theorem withTrn_rng (v : TrnSt) : (s.withTrn v).rng = s.rng := rfl
@[simp] theorem withTrn_out (v : TrnSt) : (s.withTrn v).out = s.out := rfl
@[simp] theorem withTrn_mem (v : TrnSt) : (s.withTrn v).mem = s.mem := rfl
@[simp] theorem withTrn_lanes (v : TrnSt) : (s.withTrn v).lanes = s.lanes := rfl
@[simp] theorem withTrn_ports (v : TrnSt) : (s.withTrn v).ports = s.ports := rfl
@[simp] theorem withTrn_buf (v : TrnSt) : (s.withTrn v).buf = s.buf := rfl
@[simp] theorem withTrn_nextPid (v : TrnSt) : (s.withTrn v).nextPid = s.nextPid := rfl
@[simp] theorem withTrn_oq (v : TrnSt) : (s.withTrn v).oq = s.oq := rfl
@[simp] theorem withTrn_lin (v : TrnSt) : (s.withTrn v).lin = s.lin := rfl
@[simp] theorem withTrn_guarUsed (v : TrnSt) : (s.withTrn v).guarUsed = s.guarUsed := rfl
@[simp] theorem withTrn_pol (v : TrnSt) : (s.withTrn v).pol = s.pol := rfl
@[simp] theorem withTrn_sched (v : TrnSt) : (s.withTrn v).sched = s.sched := rfl
@[simp] theorem withTrn_swc (v : TrnSt) : (s.withTrn v).swc = s.swc := rfl
@[simp] theorem withTrn_departures (v : TrnSt) : (s.withTrn v).departures = s.departures := rfl
@[simp] theorem withTrn_copying (v : TrnSt) : (s.withTrn v).copying = s.copying := rfl
@[simp] theorem withTrn_sinceSwap (v : TrnSt) : (s.withTrn v).sinceSwap = s.sinceSwap := rfl
@[simp] theorem withTrn_digests (v : TrnSt) : (s.withTrn v).digests = s.digests := rfl
@[simp] theorem withTrn_digestAt (v : TrnSt) : (s.withTrn v).digestAt = s.digestAt := rfl
@[simp] theorem withTrn_engReq (v : TrnSt) : (s.withTrn v).engReq = s.engReq := rfl
@[simp] theorem withTrn_engFwd (v : TrnSt) : (s.withTrn v).engFwd = s.engFwd := rfl
@[simp] theorem withTrn_engRep (v : TrnSt) : (s.withTrn v).engRep = s.engRep := rfl
@[simp] theorem withTrn_colIn (v : TrnSt) : (s.withTrn v).colIn = s.colIn := rfl
@[simp] theorem withTrn_colDown (v : TrnSt) : (s.withTrn v).colDown = s.colDown := rfl
@[simp] theorem withTrn_arbIn (v : TrnSt) : (s.withTrn v).arbIn = s.arbIn := rfl
@[simp] theorem withTrn_mgmtUp (v : TrnSt) : (s.withTrn v).mgmtUp = s.mgmtUp := rfl
@[simp] theorem withTrn_mgmtD3 (v : TrnSt) : (s.withTrn v).mgmtD3 = s.mgmtD3 := rfl
@[simp] theorem withTrn_pci (v : TrnSt) : (s.withTrn v).pci = s.pci := rfl
@[simp] theorem withTrn_msgPba (v : TrnSt) : (s.withTrn v).msgPba = s.msgPba := rfl
@[simp] theorem withTrn_wqs (v : TrnSt) : (s.withTrn v).wqs = s.wqs := rfl
@[simp] theorem withTrn_cqs (v : TrnSt) : (s.withTrn v).cqs = s.cqs := rfl
@[simp] theorem withTrn_eqs (v : TrnSt) : (s.withTrn v).eqs = s.eqs := rfl
@[simp] theorem withTrn_work (v : TrnSt) : (s.withTrn v).work = s.work := rfl
@[simp] theorem withTrn_nextWork (v : TrnSt) : (s.withTrn v).nextWork = s.nextWork := rfl
@[simp] theorem withTrn_reads (v : TrnSt) : (s.withTrn v).reads = s.reads := rfl
@[simp] theorem withTrn_nextRead (v : TrnSt) : (s.withTrn v).nextRead = s.nextRead := rfl
@[simp] theorem withTrn_fns (v : TrnSt) : (s.withTrn v).fns = s.fns := rfl
@[simp] theorem withTrn_jobs (v : TrnSt) : (s.withTrn v).jobs = s.jobs := rfl
@[simp] theorem withTrn_xpt (v : TrnSt) : (s.withTrn v).xpt = s.xpt := rfl
@[simp] theorem withTrn_mtc (v : TrnSt) : (s.withTrn v).mtc = s.mtc := rfl
@[simp] theorem withTrn_trees (v : TrnSt) : (s.withTrn v).trees = s.trees := rfl
@[simp] theorem withTrn_regs (v : TrnSt) : (s.withTrn v).regs = s.regs := rfl
@[simp] theorem withTrn_cgc (v : TrnSt) : (s.withTrn v).cgc = s.cgc := rfl
@[simp] theorem withTrn_lck (v : TrnSt) : (s.withTrn v).lck = s.lck := rfl
@[simp] theorem withTrn_stk (v : TrnSt) : (s.withTrn v).stk = s.stk := rfl
@[simp] theorem withTrn_arb (v : TrnSt) : (s.withTrn v).arb = s.arb := rfl
@[simp] theorem withTrn_sec (v : TrnSt) : (s.withTrn v).sec = s.sec := rfl
@[simp] theorem withTrn_flt (v : TrnSt) : (s.withTrn v).flt = s.flt := rfl
@[simp] theorem withTrn_time (v : TrnSt) : (s.withTrn v).time = s.time := rfl
@[simp] theorem withTrn_pmon (v : TrnSt) : (s.withTrn v).pmon = s.pmon := rfl
@[simp] theorem withTrn_pwr (v : TrnSt) : (s.withTrn v).pwr = s.pwr := rfl
@[simp] theorem withTrn_tap (v : TrnSt) : (s.withTrn v).tap = s.tap := rfl
@[simp] theorem withTrn_opening (v : TrnSt) : (s.withTrn v).opening = s.opening := rfl
@[simp] theorem withTrn_trn (v : TrnSt) : (s.withTrn v).trn = v := rfl
@[simp] theorem rd_withTrn (v : TrnSt) (g : FRef) : (s.withTrn v).rd g = s.rd g := rfl

/-! Fields under `withXpt`. -/

@[simp] theorem withXpt_pending (v : XptSt) : (s.withXpt v).pending = s.pending := rfl
@[simp] theorem withXpt_flds (v : XptSt) : (s.withXpt v).flds = s.flds := rfl
@[simp] theorem withXpt_now (v : XptSt) : (s.withXpt v).now = s.now := rfl
@[simp] theorem withXpt_rng (v : XptSt) : (s.withXpt v).rng = s.rng := rfl
@[simp] theorem withXpt_out (v : XptSt) : (s.withXpt v).out = s.out := rfl
@[simp] theorem withXpt_mem (v : XptSt) : (s.withXpt v).mem = s.mem := rfl
@[simp] theorem withXpt_lanes (v : XptSt) : (s.withXpt v).lanes = s.lanes := rfl
@[simp] theorem withXpt_ports (v : XptSt) : (s.withXpt v).ports = s.ports := rfl
@[simp] theorem withXpt_buf (v : XptSt) : (s.withXpt v).buf = s.buf := rfl
@[simp] theorem withXpt_nextPid (v : XptSt) : (s.withXpt v).nextPid = s.nextPid := rfl
@[simp] theorem withXpt_oq (v : XptSt) : (s.withXpt v).oq = s.oq := rfl
@[simp] theorem withXpt_lin (v : XptSt) : (s.withXpt v).lin = s.lin := rfl
@[simp] theorem withXpt_guarUsed (v : XptSt) : (s.withXpt v).guarUsed = s.guarUsed := rfl
@[simp] theorem withXpt_pol (v : XptSt) : (s.withXpt v).pol = s.pol := rfl
@[simp] theorem withXpt_sched (v : XptSt) : (s.withXpt v).sched = s.sched := rfl
@[simp] theorem withXpt_swc (v : XptSt) : (s.withXpt v).swc = s.swc := rfl
@[simp] theorem withXpt_departures (v : XptSt) : (s.withXpt v).departures = s.departures := rfl
@[simp] theorem withXpt_copying (v : XptSt) : (s.withXpt v).copying = s.copying := rfl
@[simp] theorem withXpt_sinceSwap (v : XptSt) : (s.withXpt v).sinceSwap = s.sinceSwap := rfl
@[simp] theorem withXpt_digests (v : XptSt) : (s.withXpt v).digests = s.digests := rfl
@[simp] theorem withXpt_digestAt (v : XptSt) : (s.withXpt v).digestAt = s.digestAt := rfl
@[simp] theorem withXpt_engReq (v : XptSt) : (s.withXpt v).engReq = s.engReq := rfl
@[simp] theorem withXpt_engFwd (v : XptSt) : (s.withXpt v).engFwd = s.engFwd := rfl
@[simp] theorem withXpt_engRep (v : XptSt) : (s.withXpt v).engRep = s.engRep := rfl
@[simp] theorem withXpt_colIn (v : XptSt) : (s.withXpt v).colIn = s.colIn := rfl
@[simp] theorem withXpt_colDown (v : XptSt) : (s.withXpt v).colDown = s.colDown := rfl
@[simp] theorem withXpt_arbIn (v : XptSt) : (s.withXpt v).arbIn = s.arbIn := rfl
@[simp] theorem withXpt_mgmtUp (v : XptSt) : (s.withXpt v).mgmtUp = s.mgmtUp := rfl
@[simp] theorem withXpt_mgmtD3 (v : XptSt) : (s.withXpt v).mgmtD3 = s.mgmtD3 := rfl
@[simp] theorem withXpt_pci (v : XptSt) : (s.withXpt v).pci = s.pci := rfl
@[simp] theorem withXpt_msgPba (v : XptSt) : (s.withXpt v).msgPba = s.msgPba := rfl
@[simp] theorem withXpt_wqs (v : XptSt) : (s.withXpt v).wqs = s.wqs := rfl
@[simp] theorem withXpt_cqs (v : XptSt) : (s.withXpt v).cqs = s.cqs := rfl
@[simp] theorem withXpt_eqs (v : XptSt) : (s.withXpt v).eqs = s.eqs := rfl
@[simp] theorem withXpt_work (v : XptSt) : (s.withXpt v).work = s.work := rfl
@[simp] theorem withXpt_nextWork (v : XptSt) : (s.withXpt v).nextWork = s.nextWork := rfl
@[simp] theorem withXpt_reads (v : XptSt) : (s.withXpt v).reads = s.reads := rfl
@[simp] theorem withXpt_nextRead (v : XptSt) : (s.withXpt v).nextRead = s.nextRead := rfl
@[simp] theorem withXpt_fns (v : XptSt) : (s.withXpt v).fns = s.fns := rfl
@[simp] theorem withXpt_jobs (v : XptSt) : (s.withXpt v).jobs = s.jobs := rfl
@[simp] theorem withXpt_trn (v : XptSt) : (s.withXpt v).trn = s.trn := rfl
@[simp] theorem withXpt_mtc (v : XptSt) : (s.withXpt v).mtc = s.mtc := rfl
@[simp] theorem withXpt_trees (v : XptSt) : (s.withXpt v).trees = s.trees := rfl
@[simp] theorem withXpt_regs (v : XptSt) : (s.withXpt v).regs = s.regs := rfl
@[simp] theorem withXpt_cgc (v : XptSt) : (s.withXpt v).cgc = s.cgc := rfl
@[simp] theorem withXpt_lck (v : XptSt) : (s.withXpt v).lck = s.lck := rfl
@[simp] theorem withXpt_stk (v : XptSt) : (s.withXpt v).stk = s.stk := rfl
@[simp] theorem withXpt_arb (v : XptSt) : (s.withXpt v).arb = s.arb := rfl
@[simp] theorem withXpt_sec (v : XptSt) : (s.withXpt v).sec = s.sec := rfl
@[simp] theorem withXpt_flt (v : XptSt) : (s.withXpt v).flt = s.flt := rfl
@[simp] theorem withXpt_time (v : XptSt) : (s.withXpt v).time = s.time := rfl
@[simp] theorem withXpt_pmon (v : XptSt) : (s.withXpt v).pmon = s.pmon := rfl
@[simp] theorem withXpt_pwr (v : XptSt) : (s.withXpt v).pwr = s.pwr := rfl
@[simp] theorem withXpt_tap (v : XptSt) : (s.withXpt v).tap = s.tap := rfl
@[simp] theorem withXpt_opening (v : XptSt) : (s.withXpt v).opening = s.opening := rfl
@[simp] theorem withXpt_xpt (v : XptSt) : (s.withXpt v).xpt = v := rfl
@[simp] theorem rd_withXpt (v : XptSt) (g : FRef) : (s.withXpt v).rd g = s.rd g := rfl

/-! Fields under `withMtc`. -/

@[simp] theorem withMtc_pending (v : MtcSt) : (s.withMtc v).pending = s.pending := rfl
@[simp] theorem withMtc_flds (v : MtcSt) : (s.withMtc v).flds = s.flds := rfl
@[simp] theorem withMtc_now (v : MtcSt) : (s.withMtc v).now = s.now := rfl
@[simp] theorem withMtc_rng (v : MtcSt) : (s.withMtc v).rng = s.rng := rfl
@[simp] theorem withMtc_out (v : MtcSt) : (s.withMtc v).out = s.out := rfl
@[simp] theorem withMtc_mem (v : MtcSt) : (s.withMtc v).mem = s.mem := rfl
@[simp] theorem withMtc_lanes (v : MtcSt) : (s.withMtc v).lanes = s.lanes := rfl
@[simp] theorem withMtc_ports (v : MtcSt) : (s.withMtc v).ports = s.ports := rfl
@[simp] theorem withMtc_buf (v : MtcSt) : (s.withMtc v).buf = s.buf := rfl
@[simp] theorem withMtc_nextPid (v : MtcSt) : (s.withMtc v).nextPid = s.nextPid := rfl
@[simp] theorem withMtc_oq (v : MtcSt) : (s.withMtc v).oq = s.oq := rfl
@[simp] theorem withMtc_lin (v : MtcSt) : (s.withMtc v).lin = s.lin := rfl
@[simp] theorem withMtc_guarUsed (v : MtcSt) : (s.withMtc v).guarUsed = s.guarUsed := rfl
@[simp] theorem withMtc_pol (v : MtcSt) : (s.withMtc v).pol = s.pol := rfl
@[simp] theorem withMtc_sched (v : MtcSt) : (s.withMtc v).sched = s.sched := rfl
@[simp] theorem withMtc_swc (v : MtcSt) : (s.withMtc v).swc = s.swc := rfl
@[simp] theorem withMtc_departures (v : MtcSt) : (s.withMtc v).departures = s.departures := rfl
@[simp] theorem withMtc_copying (v : MtcSt) : (s.withMtc v).copying = s.copying := rfl
@[simp] theorem withMtc_sinceSwap (v : MtcSt) : (s.withMtc v).sinceSwap = s.sinceSwap := rfl
@[simp] theorem withMtc_digests (v : MtcSt) : (s.withMtc v).digests = s.digests := rfl
@[simp] theorem withMtc_digestAt (v : MtcSt) : (s.withMtc v).digestAt = s.digestAt := rfl
@[simp] theorem withMtc_engReq (v : MtcSt) : (s.withMtc v).engReq = s.engReq := rfl
@[simp] theorem withMtc_engFwd (v : MtcSt) : (s.withMtc v).engFwd = s.engFwd := rfl
@[simp] theorem withMtc_engRep (v : MtcSt) : (s.withMtc v).engRep = s.engRep := rfl
@[simp] theorem withMtc_colIn (v : MtcSt) : (s.withMtc v).colIn = s.colIn := rfl
@[simp] theorem withMtc_colDown (v : MtcSt) : (s.withMtc v).colDown = s.colDown := rfl
@[simp] theorem withMtc_arbIn (v : MtcSt) : (s.withMtc v).arbIn = s.arbIn := rfl
@[simp] theorem withMtc_mgmtUp (v : MtcSt) : (s.withMtc v).mgmtUp = s.mgmtUp := rfl
@[simp] theorem withMtc_mgmtD3 (v : MtcSt) : (s.withMtc v).mgmtD3 = s.mgmtD3 := rfl
@[simp] theorem withMtc_pci (v : MtcSt) : (s.withMtc v).pci = s.pci := rfl
@[simp] theorem withMtc_msgPba (v : MtcSt) : (s.withMtc v).msgPba = s.msgPba := rfl
@[simp] theorem withMtc_wqs (v : MtcSt) : (s.withMtc v).wqs = s.wqs := rfl
@[simp] theorem withMtc_cqs (v : MtcSt) : (s.withMtc v).cqs = s.cqs := rfl
@[simp] theorem withMtc_eqs (v : MtcSt) : (s.withMtc v).eqs = s.eqs := rfl
@[simp] theorem withMtc_work (v : MtcSt) : (s.withMtc v).work = s.work := rfl
@[simp] theorem withMtc_nextWork (v : MtcSt) : (s.withMtc v).nextWork = s.nextWork := rfl
@[simp] theorem withMtc_reads (v : MtcSt) : (s.withMtc v).reads = s.reads := rfl
@[simp] theorem withMtc_nextRead (v : MtcSt) : (s.withMtc v).nextRead = s.nextRead := rfl
@[simp] theorem withMtc_fns (v : MtcSt) : (s.withMtc v).fns = s.fns := rfl
@[simp] theorem withMtc_jobs (v : MtcSt) : (s.withMtc v).jobs = s.jobs := rfl
@[simp] theorem withMtc_trn (v : MtcSt) : (s.withMtc v).trn = s.trn := rfl
@[simp] theorem withMtc_xpt (v : MtcSt) : (s.withMtc v).xpt = s.xpt := rfl
@[simp] theorem withMtc_trees (v : MtcSt) : (s.withMtc v).trees = s.trees := rfl
@[simp] theorem withMtc_regs (v : MtcSt) : (s.withMtc v).regs = s.regs := rfl
@[simp] theorem withMtc_cgc (v : MtcSt) : (s.withMtc v).cgc = s.cgc := rfl
@[simp] theorem withMtc_lck (v : MtcSt) : (s.withMtc v).lck = s.lck := rfl
@[simp] theorem withMtc_stk (v : MtcSt) : (s.withMtc v).stk = s.stk := rfl
@[simp] theorem withMtc_arb (v : MtcSt) : (s.withMtc v).arb = s.arb := rfl
@[simp] theorem withMtc_sec (v : MtcSt) : (s.withMtc v).sec = s.sec := rfl
@[simp] theorem withMtc_flt (v : MtcSt) : (s.withMtc v).flt = s.flt := rfl
@[simp] theorem withMtc_time (v : MtcSt) : (s.withMtc v).time = s.time := rfl
@[simp] theorem withMtc_pmon (v : MtcSt) : (s.withMtc v).pmon = s.pmon := rfl
@[simp] theorem withMtc_pwr (v : MtcSt) : (s.withMtc v).pwr = s.pwr := rfl
@[simp] theorem withMtc_tap (v : MtcSt) : (s.withMtc v).tap = s.tap := rfl
@[simp] theorem withMtc_opening (v : MtcSt) : (s.withMtc v).opening = s.opening := rfl
@[simp] theorem withMtc_mtc (v : MtcSt) : (s.withMtc v).mtc = v := rfl
@[simp] theorem rd_withMtc (v : MtcSt) (g : FRef) : (s.withMtc v).rd g = s.rd g := rfl

/-! Fields under `withTrees`. -/

@[simp] theorem withTrees_pending (v : SMap TreeSt) : (s.withTrees v).pending = s.pending := rfl
@[simp] theorem withTrees_flds (v : SMap TreeSt) : (s.withTrees v).flds = s.flds := rfl
@[simp] theorem withTrees_now (v : SMap TreeSt) : (s.withTrees v).now = s.now := rfl
@[simp] theorem withTrees_rng (v : SMap TreeSt) : (s.withTrees v).rng = s.rng := rfl
@[simp] theorem withTrees_out (v : SMap TreeSt) : (s.withTrees v).out = s.out := rfl
@[simp] theorem withTrees_mem (v : SMap TreeSt) : (s.withTrees v).mem = s.mem := rfl
@[simp] theorem withTrees_lanes (v : SMap TreeSt) : (s.withTrees v).lanes = s.lanes := rfl
@[simp] theorem withTrees_ports (v : SMap TreeSt) : (s.withTrees v).ports = s.ports := rfl
@[simp] theorem withTrees_buf (v : SMap TreeSt) : (s.withTrees v).buf = s.buf := rfl
@[simp] theorem withTrees_nextPid (v : SMap TreeSt) : (s.withTrees v).nextPid = s.nextPid := rfl
@[simp] theorem withTrees_oq (v : SMap TreeSt) : (s.withTrees v).oq = s.oq := rfl
@[simp] theorem withTrees_lin (v : SMap TreeSt) : (s.withTrees v).lin = s.lin := rfl
@[simp] theorem withTrees_guarUsed (v : SMap TreeSt) : (s.withTrees v).guarUsed = s.guarUsed := rfl
@[simp] theorem withTrees_pol (v : SMap TreeSt) : (s.withTrees v).pol = s.pol := rfl
@[simp] theorem withTrees_sched (v : SMap TreeSt) : (s.withTrees v).sched = s.sched := rfl
@[simp] theorem withTrees_swc (v : SMap TreeSt) : (s.withTrees v).swc = s.swc := rfl
@[simp] theorem withTrees_departures (v : SMap TreeSt) : (s.withTrees v).departures = s.departures := rfl
@[simp] theorem withTrees_copying (v : SMap TreeSt) : (s.withTrees v).copying = s.copying := rfl
@[simp] theorem withTrees_sinceSwap (v : SMap TreeSt) : (s.withTrees v).sinceSwap = s.sinceSwap := rfl
@[simp] theorem withTrees_digests (v : SMap TreeSt) : (s.withTrees v).digests = s.digests := rfl
@[simp] theorem withTrees_digestAt (v : SMap TreeSt) : (s.withTrees v).digestAt = s.digestAt := rfl
@[simp] theorem withTrees_engReq (v : SMap TreeSt) : (s.withTrees v).engReq = s.engReq := rfl
@[simp] theorem withTrees_engFwd (v : SMap TreeSt) : (s.withTrees v).engFwd = s.engFwd := rfl
@[simp] theorem withTrees_engRep (v : SMap TreeSt) : (s.withTrees v).engRep = s.engRep := rfl
@[simp] theorem withTrees_colIn (v : SMap TreeSt) : (s.withTrees v).colIn = s.colIn := rfl
@[simp] theorem withTrees_colDown (v : SMap TreeSt) : (s.withTrees v).colDown = s.colDown := rfl
@[simp] theorem withTrees_arbIn (v : SMap TreeSt) : (s.withTrees v).arbIn = s.arbIn := rfl
@[simp] theorem withTrees_mgmtUp (v : SMap TreeSt) : (s.withTrees v).mgmtUp = s.mgmtUp := rfl
@[simp] theorem withTrees_mgmtD3 (v : SMap TreeSt) : (s.withTrees v).mgmtD3 = s.mgmtD3 := rfl
@[simp] theorem withTrees_pci (v : SMap TreeSt) : (s.withTrees v).pci = s.pci := rfl
@[simp] theorem withTrees_msgPba (v : SMap TreeSt) : (s.withTrees v).msgPba = s.msgPba := rfl
@[simp] theorem withTrees_wqs (v : SMap TreeSt) : (s.withTrees v).wqs = s.wqs := rfl
@[simp] theorem withTrees_cqs (v : SMap TreeSt) : (s.withTrees v).cqs = s.cqs := rfl
@[simp] theorem withTrees_eqs (v : SMap TreeSt) : (s.withTrees v).eqs = s.eqs := rfl
@[simp] theorem withTrees_work (v : SMap TreeSt) : (s.withTrees v).work = s.work := rfl
@[simp] theorem withTrees_nextWork (v : SMap TreeSt) : (s.withTrees v).nextWork = s.nextWork := rfl
@[simp] theorem withTrees_reads (v : SMap TreeSt) : (s.withTrees v).reads = s.reads := rfl
@[simp] theorem withTrees_nextRead (v : SMap TreeSt) : (s.withTrees v).nextRead = s.nextRead := rfl
@[simp] theorem withTrees_fns (v : SMap TreeSt) : (s.withTrees v).fns = s.fns := rfl
@[simp] theorem withTrees_jobs (v : SMap TreeSt) : (s.withTrees v).jobs = s.jobs := rfl
@[simp] theorem withTrees_trn (v : SMap TreeSt) : (s.withTrees v).trn = s.trn := rfl
@[simp] theorem withTrees_xpt (v : SMap TreeSt) : (s.withTrees v).xpt = s.xpt := rfl
@[simp] theorem withTrees_mtc (v : SMap TreeSt) : (s.withTrees v).mtc = s.mtc := rfl
@[simp] theorem withTrees_regs (v : SMap TreeSt) : (s.withTrees v).regs = s.regs := rfl
@[simp] theorem withTrees_cgc (v : SMap TreeSt) : (s.withTrees v).cgc = s.cgc := rfl
@[simp] theorem withTrees_lck (v : SMap TreeSt) : (s.withTrees v).lck = s.lck := rfl
@[simp] theorem withTrees_stk (v : SMap TreeSt) : (s.withTrees v).stk = s.stk := rfl
@[simp] theorem withTrees_arb (v : SMap TreeSt) : (s.withTrees v).arb = s.arb := rfl
@[simp] theorem withTrees_sec (v : SMap TreeSt) : (s.withTrees v).sec = s.sec := rfl
@[simp] theorem withTrees_flt (v : SMap TreeSt) : (s.withTrees v).flt = s.flt := rfl
@[simp] theorem withTrees_time (v : SMap TreeSt) : (s.withTrees v).time = s.time := rfl
@[simp] theorem withTrees_pmon (v : SMap TreeSt) : (s.withTrees v).pmon = s.pmon := rfl
@[simp] theorem withTrees_pwr (v : SMap TreeSt) : (s.withTrees v).pwr = s.pwr := rfl
@[simp] theorem withTrees_tap (v : SMap TreeSt) : (s.withTrees v).tap = s.tap := rfl
@[simp] theorem withTrees_opening (v : SMap TreeSt) : (s.withTrees v).opening = s.opening := rfl
@[simp] theorem withTrees_trees (v : SMap TreeSt) : (s.withTrees v).trees = v := rfl
@[simp] theorem rd_withTrees (v : SMap TreeSt) (g : FRef) : (s.withTrees v).rd g = s.rd g := rfl

/-! Fields under `withRegs`. -/

@[simp] theorem withRegs_pending (v : SMap (List Reg)) : (s.withRegs v).pending = s.pending := rfl
@[simp] theorem withRegs_flds (v : SMap (List Reg)) : (s.withRegs v).flds = s.flds := rfl
@[simp] theorem withRegs_now (v : SMap (List Reg)) : (s.withRegs v).now = s.now := rfl
@[simp] theorem withRegs_rng (v : SMap (List Reg)) : (s.withRegs v).rng = s.rng := rfl
@[simp] theorem withRegs_out (v : SMap (List Reg)) : (s.withRegs v).out = s.out := rfl
@[simp] theorem withRegs_mem (v : SMap (List Reg)) : (s.withRegs v).mem = s.mem := rfl
@[simp] theorem withRegs_lanes (v : SMap (List Reg)) : (s.withRegs v).lanes = s.lanes := rfl
@[simp] theorem withRegs_ports (v : SMap (List Reg)) : (s.withRegs v).ports = s.ports := rfl
@[simp] theorem withRegs_buf (v : SMap (List Reg)) : (s.withRegs v).buf = s.buf := rfl
@[simp] theorem withRegs_nextPid (v : SMap (List Reg)) : (s.withRegs v).nextPid = s.nextPid := rfl
@[simp] theorem withRegs_oq (v : SMap (List Reg)) : (s.withRegs v).oq = s.oq := rfl
@[simp] theorem withRegs_lin (v : SMap (List Reg)) : (s.withRegs v).lin = s.lin := rfl
@[simp] theorem withRegs_guarUsed (v : SMap (List Reg)) : (s.withRegs v).guarUsed = s.guarUsed := rfl
@[simp] theorem withRegs_pol (v : SMap (List Reg)) : (s.withRegs v).pol = s.pol := rfl
@[simp] theorem withRegs_sched (v : SMap (List Reg)) : (s.withRegs v).sched = s.sched := rfl
@[simp] theorem withRegs_swc (v : SMap (List Reg)) : (s.withRegs v).swc = s.swc := rfl
@[simp] theorem withRegs_departures (v : SMap (List Reg)) : (s.withRegs v).departures = s.departures := rfl
@[simp] theorem withRegs_copying (v : SMap (List Reg)) : (s.withRegs v).copying = s.copying := rfl
@[simp] theorem withRegs_sinceSwap (v : SMap (List Reg)) : (s.withRegs v).sinceSwap = s.sinceSwap := rfl
@[simp] theorem withRegs_digests (v : SMap (List Reg)) : (s.withRegs v).digests = s.digests := rfl
@[simp] theorem withRegs_digestAt (v : SMap (List Reg)) : (s.withRegs v).digestAt = s.digestAt := rfl
@[simp] theorem withRegs_engReq (v : SMap (List Reg)) : (s.withRegs v).engReq = s.engReq := rfl
@[simp] theorem withRegs_engFwd (v : SMap (List Reg)) : (s.withRegs v).engFwd = s.engFwd := rfl
@[simp] theorem withRegs_engRep (v : SMap (List Reg)) : (s.withRegs v).engRep = s.engRep := rfl
@[simp] theorem withRegs_colIn (v : SMap (List Reg)) : (s.withRegs v).colIn = s.colIn := rfl
@[simp] theorem withRegs_colDown (v : SMap (List Reg)) : (s.withRegs v).colDown = s.colDown := rfl
@[simp] theorem withRegs_arbIn (v : SMap (List Reg)) : (s.withRegs v).arbIn = s.arbIn := rfl
@[simp] theorem withRegs_mgmtUp (v : SMap (List Reg)) : (s.withRegs v).mgmtUp = s.mgmtUp := rfl
@[simp] theorem withRegs_mgmtD3 (v : SMap (List Reg)) : (s.withRegs v).mgmtD3 = s.mgmtD3 := rfl
@[simp] theorem withRegs_pci (v : SMap (List Reg)) : (s.withRegs v).pci = s.pci := rfl
@[simp] theorem withRegs_msgPba (v : SMap (List Reg)) : (s.withRegs v).msgPba = s.msgPba := rfl
@[simp] theorem withRegs_wqs (v : SMap (List Reg)) : (s.withRegs v).wqs = s.wqs := rfl
@[simp] theorem withRegs_cqs (v : SMap (List Reg)) : (s.withRegs v).cqs = s.cqs := rfl
@[simp] theorem withRegs_eqs (v : SMap (List Reg)) : (s.withRegs v).eqs = s.eqs := rfl
@[simp] theorem withRegs_work (v : SMap (List Reg)) : (s.withRegs v).work = s.work := rfl
@[simp] theorem withRegs_nextWork (v : SMap (List Reg)) : (s.withRegs v).nextWork = s.nextWork := rfl
@[simp] theorem withRegs_reads (v : SMap (List Reg)) : (s.withRegs v).reads = s.reads := rfl
@[simp] theorem withRegs_nextRead (v : SMap (List Reg)) : (s.withRegs v).nextRead = s.nextRead := rfl
@[simp] theorem withRegs_fns (v : SMap (List Reg)) : (s.withRegs v).fns = s.fns := rfl
@[simp] theorem withRegs_jobs (v : SMap (List Reg)) : (s.withRegs v).jobs = s.jobs := rfl
@[simp] theorem withRegs_trn (v : SMap (List Reg)) : (s.withRegs v).trn = s.trn := rfl
@[simp] theorem withRegs_xpt (v : SMap (List Reg)) : (s.withRegs v).xpt = s.xpt := rfl
@[simp] theorem withRegs_mtc (v : SMap (List Reg)) : (s.withRegs v).mtc = s.mtc := rfl
@[simp] theorem withRegs_trees (v : SMap (List Reg)) : (s.withRegs v).trees = s.trees := rfl
@[simp] theorem withRegs_cgc (v : SMap (List Reg)) : (s.withRegs v).cgc = s.cgc := rfl
@[simp] theorem withRegs_lck (v : SMap (List Reg)) : (s.withRegs v).lck = s.lck := rfl
@[simp] theorem withRegs_stk (v : SMap (List Reg)) : (s.withRegs v).stk = s.stk := rfl
@[simp] theorem withRegs_arb (v : SMap (List Reg)) : (s.withRegs v).arb = s.arb := rfl
@[simp] theorem withRegs_sec (v : SMap (List Reg)) : (s.withRegs v).sec = s.sec := rfl
@[simp] theorem withRegs_flt (v : SMap (List Reg)) : (s.withRegs v).flt = s.flt := rfl
@[simp] theorem withRegs_time (v : SMap (List Reg)) : (s.withRegs v).time = s.time := rfl
@[simp] theorem withRegs_pmon (v : SMap (List Reg)) : (s.withRegs v).pmon = s.pmon := rfl
@[simp] theorem withRegs_pwr (v : SMap (List Reg)) : (s.withRegs v).pwr = s.pwr := rfl
@[simp] theorem withRegs_tap (v : SMap (List Reg)) : (s.withRegs v).tap = s.tap := rfl
@[simp] theorem withRegs_opening (v : SMap (List Reg)) : (s.withRegs v).opening = s.opening := rfl
@[simp] theorem withRegs_regs (v : SMap (List Reg)) : (s.withRegs v).regs = v := rfl
@[simp] theorem rd_withRegs (v : SMap (List Reg)) (g : FRef) : (s.withRegs v).rd g = s.rd g := rfl

/-! Fields under `withCgc`. -/

@[simp] theorem withCgc_pending (v : CgcSt) : (s.withCgc v).pending = s.pending := rfl
@[simp] theorem withCgc_flds (v : CgcSt) : (s.withCgc v).flds = s.flds := rfl
@[simp] theorem withCgc_now (v : CgcSt) : (s.withCgc v).now = s.now := rfl
@[simp] theorem withCgc_rng (v : CgcSt) : (s.withCgc v).rng = s.rng := rfl
@[simp] theorem withCgc_out (v : CgcSt) : (s.withCgc v).out = s.out := rfl
@[simp] theorem withCgc_mem (v : CgcSt) : (s.withCgc v).mem = s.mem := rfl
@[simp] theorem withCgc_lanes (v : CgcSt) : (s.withCgc v).lanes = s.lanes := rfl
@[simp] theorem withCgc_ports (v : CgcSt) : (s.withCgc v).ports = s.ports := rfl
@[simp] theorem withCgc_buf (v : CgcSt) : (s.withCgc v).buf = s.buf := rfl
@[simp] theorem withCgc_nextPid (v : CgcSt) : (s.withCgc v).nextPid = s.nextPid := rfl
@[simp] theorem withCgc_oq (v : CgcSt) : (s.withCgc v).oq = s.oq := rfl
@[simp] theorem withCgc_lin (v : CgcSt) : (s.withCgc v).lin = s.lin := rfl
@[simp] theorem withCgc_guarUsed (v : CgcSt) : (s.withCgc v).guarUsed = s.guarUsed := rfl
@[simp] theorem withCgc_pol (v : CgcSt) : (s.withCgc v).pol = s.pol := rfl
@[simp] theorem withCgc_sched (v : CgcSt) : (s.withCgc v).sched = s.sched := rfl
@[simp] theorem withCgc_swc (v : CgcSt) : (s.withCgc v).swc = s.swc := rfl
@[simp] theorem withCgc_departures (v : CgcSt) : (s.withCgc v).departures = s.departures := rfl
@[simp] theorem withCgc_copying (v : CgcSt) : (s.withCgc v).copying = s.copying := rfl
@[simp] theorem withCgc_sinceSwap (v : CgcSt) : (s.withCgc v).sinceSwap = s.sinceSwap := rfl
@[simp] theorem withCgc_digests (v : CgcSt) : (s.withCgc v).digests = s.digests := rfl
@[simp] theorem withCgc_digestAt (v : CgcSt) : (s.withCgc v).digestAt = s.digestAt := rfl
@[simp] theorem withCgc_engReq (v : CgcSt) : (s.withCgc v).engReq = s.engReq := rfl
@[simp] theorem withCgc_engFwd (v : CgcSt) : (s.withCgc v).engFwd = s.engFwd := rfl
@[simp] theorem withCgc_engRep (v : CgcSt) : (s.withCgc v).engRep = s.engRep := rfl
@[simp] theorem withCgc_colIn (v : CgcSt) : (s.withCgc v).colIn = s.colIn := rfl
@[simp] theorem withCgc_colDown (v : CgcSt) : (s.withCgc v).colDown = s.colDown := rfl
@[simp] theorem withCgc_arbIn (v : CgcSt) : (s.withCgc v).arbIn = s.arbIn := rfl
@[simp] theorem withCgc_mgmtUp (v : CgcSt) : (s.withCgc v).mgmtUp = s.mgmtUp := rfl
@[simp] theorem withCgc_mgmtD3 (v : CgcSt) : (s.withCgc v).mgmtD3 = s.mgmtD3 := rfl
@[simp] theorem withCgc_pci (v : CgcSt) : (s.withCgc v).pci = s.pci := rfl
@[simp] theorem withCgc_msgPba (v : CgcSt) : (s.withCgc v).msgPba = s.msgPba := rfl
@[simp] theorem withCgc_wqs (v : CgcSt) : (s.withCgc v).wqs = s.wqs := rfl
@[simp] theorem withCgc_cqs (v : CgcSt) : (s.withCgc v).cqs = s.cqs := rfl
@[simp] theorem withCgc_eqs (v : CgcSt) : (s.withCgc v).eqs = s.eqs := rfl
@[simp] theorem withCgc_work (v : CgcSt) : (s.withCgc v).work = s.work := rfl
@[simp] theorem withCgc_nextWork (v : CgcSt) : (s.withCgc v).nextWork = s.nextWork := rfl
@[simp] theorem withCgc_reads (v : CgcSt) : (s.withCgc v).reads = s.reads := rfl
@[simp] theorem withCgc_nextRead (v : CgcSt) : (s.withCgc v).nextRead = s.nextRead := rfl
@[simp] theorem withCgc_fns (v : CgcSt) : (s.withCgc v).fns = s.fns := rfl
@[simp] theorem withCgc_jobs (v : CgcSt) : (s.withCgc v).jobs = s.jobs := rfl
@[simp] theorem withCgc_trn (v : CgcSt) : (s.withCgc v).trn = s.trn := rfl
@[simp] theorem withCgc_xpt (v : CgcSt) : (s.withCgc v).xpt = s.xpt := rfl
@[simp] theorem withCgc_mtc (v : CgcSt) : (s.withCgc v).mtc = s.mtc := rfl
@[simp] theorem withCgc_trees (v : CgcSt) : (s.withCgc v).trees = s.trees := rfl
@[simp] theorem withCgc_regs (v : CgcSt) : (s.withCgc v).regs = s.regs := rfl
@[simp] theorem withCgc_lck (v : CgcSt) : (s.withCgc v).lck = s.lck := rfl
@[simp] theorem withCgc_stk (v : CgcSt) : (s.withCgc v).stk = s.stk := rfl
@[simp] theorem withCgc_arb (v : CgcSt) : (s.withCgc v).arb = s.arb := rfl
@[simp] theorem withCgc_sec (v : CgcSt) : (s.withCgc v).sec = s.sec := rfl
@[simp] theorem withCgc_flt (v : CgcSt) : (s.withCgc v).flt = s.flt := rfl
@[simp] theorem withCgc_time (v : CgcSt) : (s.withCgc v).time = s.time := rfl
@[simp] theorem withCgc_pmon (v : CgcSt) : (s.withCgc v).pmon = s.pmon := rfl
@[simp] theorem withCgc_pwr (v : CgcSt) : (s.withCgc v).pwr = s.pwr := rfl
@[simp] theorem withCgc_tap (v : CgcSt) : (s.withCgc v).tap = s.tap := rfl
@[simp] theorem withCgc_opening (v : CgcSt) : (s.withCgc v).opening = s.opening := rfl
@[simp] theorem withCgc_cgc (v : CgcSt) : (s.withCgc v).cgc = v := rfl
@[simp] theorem rd_withCgc (v : CgcSt) (g : FRef) : (s.withCgc v).rd g = s.rd g := rfl

/-! Fields under `withLck`. -/

@[simp] theorem withLck_pending (v : LckSt) : (s.withLck v).pending = s.pending := rfl
@[simp] theorem withLck_flds (v : LckSt) : (s.withLck v).flds = s.flds := rfl
@[simp] theorem withLck_now (v : LckSt) : (s.withLck v).now = s.now := rfl
@[simp] theorem withLck_rng (v : LckSt) : (s.withLck v).rng = s.rng := rfl
@[simp] theorem withLck_out (v : LckSt) : (s.withLck v).out = s.out := rfl
@[simp] theorem withLck_mem (v : LckSt) : (s.withLck v).mem = s.mem := rfl
@[simp] theorem withLck_lanes (v : LckSt) : (s.withLck v).lanes = s.lanes := rfl
@[simp] theorem withLck_ports (v : LckSt) : (s.withLck v).ports = s.ports := rfl
@[simp] theorem withLck_buf (v : LckSt) : (s.withLck v).buf = s.buf := rfl
@[simp] theorem withLck_nextPid (v : LckSt) : (s.withLck v).nextPid = s.nextPid := rfl
@[simp] theorem withLck_oq (v : LckSt) : (s.withLck v).oq = s.oq := rfl
@[simp] theorem withLck_lin (v : LckSt) : (s.withLck v).lin = s.lin := rfl
@[simp] theorem withLck_guarUsed (v : LckSt) : (s.withLck v).guarUsed = s.guarUsed := rfl
@[simp] theorem withLck_pol (v : LckSt) : (s.withLck v).pol = s.pol := rfl
@[simp] theorem withLck_sched (v : LckSt) : (s.withLck v).sched = s.sched := rfl
@[simp] theorem withLck_swc (v : LckSt) : (s.withLck v).swc = s.swc := rfl
@[simp] theorem withLck_departures (v : LckSt) : (s.withLck v).departures = s.departures := rfl
@[simp] theorem withLck_copying (v : LckSt) : (s.withLck v).copying = s.copying := rfl
@[simp] theorem withLck_sinceSwap (v : LckSt) : (s.withLck v).sinceSwap = s.sinceSwap := rfl
@[simp] theorem withLck_digests (v : LckSt) : (s.withLck v).digests = s.digests := rfl
@[simp] theorem withLck_digestAt (v : LckSt) : (s.withLck v).digestAt = s.digestAt := rfl
@[simp] theorem withLck_engReq (v : LckSt) : (s.withLck v).engReq = s.engReq := rfl
@[simp] theorem withLck_engFwd (v : LckSt) : (s.withLck v).engFwd = s.engFwd := rfl
@[simp] theorem withLck_engRep (v : LckSt) : (s.withLck v).engRep = s.engRep := rfl
@[simp] theorem withLck_colIn (v : LckSt) : (s.withLck v).colIn = s.colIn := rfl
@[simp] theorem withLck_colDown (v : LckSt) : (s.withLck v).colDown = s.colDown := rfl
@[simp] theorem withLck_arbIn (v : LckSt) : (s.withLck v).arbIn = s.arbIn := rfl
@[simp] theorem withLck_mgmtUp (v : LckSt) : (s.withLck v).mgmtUp = s.mgmtUp := rfl
@[simp] theorem withLck_mgmtD3 (v : LckSt) : (s.withLck v).mgmtD3 = s.mgmtD3 := rfl
@[simp] theorem withLck_pci (v : LckSt) : (s.withLck v).pci = s.pci := rfl
@[simp] theorem withLck_msgPba (v : LckSt) : (s.withLck v).msgPba = s.msgPba := rfl
@[simp] theorem withLck_wqs (v : LckSt) : (s.withLck v).wqs = s.wqs := rfl
@[simp] theorem withLck_cqs (v : LckSt) : (s.withLck v).cqs = s.cqs := rfl
@[simp] theorem withLck_eqs (v : LckSt) : (s.withLck v).eqs = s.eqs := rfl
@[simp] theorem withLck_work (v : LckSt) : (s.withLck v).work = s.work := rfl
@[simp] theorem withLck_nextWork (v : LckSt) : (s.withLck v).nextWork = s.nextWork := rfl
@[simp] theorem withLck_reads (v : LckSt) : (s.withLck v).reads = s.reads := rfl
@[simp] theorem withLck_nextRead (v : LckSt) : (s.withLck v).nextRead = s.nextRead := rfl
@[simp] theorem withLck_fns (v : LckSt) : (s.withLck v).fns = s.fns := rfl
@[simp] theorem withLck_jobs (v : LckSt) : (s.withLck v).jobs = s.jobs := rfl
@[simp] theorem withLck_trn (v : LckSt) : (s.withLck v).trn = s.trn := rfl
@[simp] theorem withLck_xpt (v : LckSt) : (s.withLck v).xpt = s.xpt := rfl
@[simp] theorem withLck_mtc (v : LckSt) : (s.withLck v).mtc = s.mtc := rfl
@[simp] theorem withLck_trees (v : LckSt) : (s.withLck v).trees = s.trees := rfl
@[simp] theorem withLck_regs (v : LckSt) : (s.withLck v).regs = s.regs := rfl
@[simp] theorem withLck_cgc (v : LckSt) : (s.withLck v).cgc = s.cgc := rfl
@[simp] theorem withLck_stk (v : LckSt) : (s.withLck v).stk = s.stk := rfl
@[simp] theorem withLck_arb (v : LckSt) : (s.withLck v).arb = s.arb := rfl
@[simp] theorem withLck_sec (v : LckSt) : (s.withLck v).sec = s.sec := rfl
@[simp] theorem withLck_flt (v : LckSt) : (s.withLck v).flt = s.flt := rfl
@[simp] theorem withLck_time (v : LckSt) : (s.withLck v).time = s.time := rfl
@[simp] theorem withLck_pmon (v : LckSt) : (s.withLck v).pmon = s.pmon := rfl
@[simp] theorem withLck_pwr (v : LckSt) : (s.withLck v).pwr = s.pwr := rfl
@[simp] theorem withLck_tap (v : LckSt) : (s.withLck v).tap = s.tap := rfl
@[simp] theorem withLck_opening (v : LckSt) : (s.withLck v).opening = s.opening := rfl
@[simp] theorem withLck_lck (v : LckSt) : (s.withLck v).lck = v := rfl
@[simp] theorem rd_withLck (v : LckSt) (g : FRef) : (s.withLck v).rd g = s.rd g := rfl

/-! Fields under `withStk`. -/

@[simp] theorem withStk_pending (v : StkSt) : (s.withStk v).pending = s.pending := rfl
@[simp] theorem withStk_flds (v : StkSt) : (s.withStk v).flds = s.flds := rfl
@[simp] theorem withStk_now (v : StkSt) : (s.withStk v).now = s.now := rfl
@[simp] theorem withStk_rng (v : StkSt) : (s.withStk v).rng = s.rng := rfl
@[simp] theorem withStk_out (v : StkSt) : (s.withStk v).out = s.out := rfl
@[simp] theorem withStk_mem (v : StkSt) : (s.withStk v).mem = s.mem := rfl
@[simp] theorem withStk_lanes (v : StkSt) : (s.withStk v).lanes = s.lanes := rfl
@[simp] theorem withStk_ports (v : StkSt) : (s.withStk v).ports = s.ports := rfl
@[simp] theorem withStk_buf (v : StkSt) : (s.withStk v).buf = s.buf := rfl
@[simp] theorem withStk_nextPid (v : StkSt) : (s.withStk v).nextPid = s.nextPid := rfl
@[simp] theorem withStk_oq (v : StkSt) : (s.withStk v).oq = s.oq := rfl
@[simp] theorem withStk_lin (v : StkSt) : (s.withStk v).lin = s.lin := rfl
@[simp] theorem withStk_guarUsed (v : StkSt) : (s.withStk v).guarUsed = s.guarUsed := rfl
@[simp] theorem withStk_pol (v : StkSt) : (s.withStk v).pol = s.pol := rfl
@[simp] theorem withStk_sched (v : StkSt) : (s.withStk v).sched = s.sched := rfl
@[simp] theorem withStk_swc (v : StkSt) : (s.withStk v).swc = s.swc := rfl
@[simp] theorem withStk_departures (v : StkSt) : (s.withStk v).departures = s.departures := rfl
@[simp] theorem withStk_copying (v : StkSt) : (s.withStk v).copying = s.copying := rfl
@[simp] theorem withStk_sinceSwap (v : StkSt) : (s.withStk v).sinceSwap = s.sinceSwap := rfl
@[simp] theorem withStk_digests (v : StkSt) : (s.withStk v).digests = s.digests := rfl
@[simp] theorem withStk_digestAt (v : StkSt) : (s.withStk v).digestAt = s.digestAt := rfl
@[simp] theorem withStk_engReq (v : StkSt) : (s.withStk v).engReq = s.engReq := rfl
@[simp] theorem withStk_engFwd (v : StkSt) : (s.withStk v).engFwd = s.engFwd := rfl
@[simp] theorem withStk_engRep (v : StkSt) : (s.withStk v).engRep = s.engRep := rfl
@[simp] theorem withStk_colIn (v : StkSt) : (s.withStk v).colIn = s.colIn := rfl
@[simp] theorem withStk_colDown (v : StkSt) : (s.withStk v).colDown = s.colDown := rfl
@[simp] theorem withStk_arbIn (v : StkSt) : (s.withStk v).arbIn = s.arbIn := rfl
@[simp] theorem withStk_mgmtUp (v : StkSt) : (s.withStk v).mgmtUp = s.mgmtUp := rfl
@[simp] theorem withStk_mgmtD3 (v : StkSt) : (s.withStk v).mgmtD3 = s.mgmtD3 := rfl
@[simp] theorem withStk_pci (v : StkSt) : (s.withStk v).pci = s.pci := rfl
@[simp] theorem withStk_msgPba (v : StkSt) : (s.withStk v).msgPba = s.msgPba := rfl
@[simp] theorem withStk_wqs (v : StkSt) : (s.withStk v).wqs = s.wqs := rfl
@[simp] theorem withStk_cqs (v : StkSt) : (s.withStk v).cqs = s.cqs := rfl
@[simp] theorem withStk_eqs (v : StkSt) : (s.withStk v).eqs = s.eqs := rfl
@[simp] theorem withStk_work (v : StkSt) : (s.withStk v).work = s.work := rfl
@[simp] theorem withStk_nextWork (v : StkSt) : (s.withStk v).nextWork = s.nextWork := rfl
@[simp] theorem withStk_reads (v : StkSt) : (s.withStk v).reads = s.reads := rfl
@[simp] theorem withStk_nextRead (v : StkSt) : (s.withStk v).nextRead = s.nextRead := rfl
@[simp] theorem withStk_fns (v : StkSt) : (s.withStk v).fns = s.fns := rfl
@[simp] theorem withStk_jobs (v : StkSt) : (s.withStk v).jobs = s.jobs := rfl
@[simp] theorem withStk_trn (v : StkSt) : (s.withStk v).trn = s.trn := rfl
@[simp] theorem withStk_xpt (v : StkSt) : (s.withStk v).xpt = s.xpt := rfl
@[simp] theorem withStk_mtc (v : StkSt) : (s.withStk v).mtc = s.mtc := rfl
@[simp] theorem withStk_trees (v : StkSt) : (s.withStk v).trees = s.trees := rfl
@[simp] theorem withStk_regs (v : StkSt) : (s.withStk v).regs = s.regs := rfl
@[simp] theorem withStk_cgc (v : StkSt) : (s.withStk v).cgc = s.cgc := rfl
@[simp] theorem withStk_lck (v : StkSt) : (s.withStk v).lck = s.lck := rfl
@[simp] theorem withStk_arb (v : StkSt) : (s.withStk v).arb = s.arb := rfl
@[simp] theorem withStk_sec (v : StkSt) : (s.withStk v).sec = s.sec := rfl
@[simp] theorem withStk_flt (v : StkSt) : (s.withStk v).flt = s.flt := rfl
@[simp] theorem withStk_time (v : StkSt) : (s.withStk v).time = s.time := rfl
@[simp] theorem withStk_pmon (v : StkSt) : (s.withStk v).pmon = s.pmon := rfl
@[simp] theorem withStk_pwr (v : StkSt) : (s.withStk v).pwr = s.pwr := rfl
@[simp] theorem withStk_tap (v : StkSt) : (s.withStk v).tap = s.tap := rfl
@[simp] theorem withStk_opening (v : StkSt) : (s.withStk v).opening = s.opening := rfl
@[simp] theorem withStk_stk (v : StkSt) : (s.withStk v).stk = v := rfl
@[simp] theorem rd_withStk (v : StkSt) (g : FRef) : (s.withStk v).rd g = s.rd g := rfl

/-! Fields under `withArb`. -/

@[simp] theorem withArb_pending (v : ArbSt) : (s.withArb v).pending = s.pending := rfl
@[simp] theorem withArb_flds (v : ArbSt) : (s.withArb v).flds = s.flds := rfl
@[simp] theorem withArb_now (v : ArbSt) : (s.withArb v).now = s.now := rfl
@[simp] theorem withArb_rng (v : ArbSt) : (s.withArb v).rng = s.rng := rfl
@[simp] theorem withArb_out (v : ArbSt) : (s.withArb v).out = s.out := rfl
@[simp] theorem withArb_mem (v : ArbSt) : (s.withArb v).mem = s.mem := rfl
@[simp] theorem withArb_lanes (v : ArbSt) : (s.withArb v).lanes = s.lanes := rfl
@[simp] theorem withArb_ports (v : ArbSt) : (s.withArb v).ports = s.ports := rfl
@[simp] theorem withArb_buf (v : ArbSt) : (s.withArb v).buf = s.buf := rfl
@[simp] theorem withArb_nextPid (v : ArbSt) : (s.withArb v).nextPid = s.nextPid := rfl
@[simp] theorem withArb_oq (v : ArbSt) : (s.withArb v).oq = s.oq := rfl
@[simp] theorem withArb_lin (v : ArbSt) : (s.withArb v).lin = s.lin := rfl
@[simp] theorem withArb_guarUsed (v : ArbSt) : (s.withArb v).guarUsed = s.guarUsed := rfl
@[simp] theorem withArb_pol (v : ArbSt) : (s.withArb v).pol = s.pol := rfl
@[simp] theorem withArb_sched (v : ArbSt) : (s.withArb v).sched = s.sched := rfl
@[simp] theorem withArb_swc (v : ArbSt) : (s.withArb v).swc = s.swc := rfl
@[simp] theorem withArb_departures (v : ArbSt) : (s.withArb v).departures = s.departures := rfl
@[simp] theorem withArb_copying (v : ArbSt) : (s.withArb v).copying = s.copying := rfl
@[simp] theorem withArb_sinceSwap (v : ArbSt) : (s.withArb v).sinceSwap = s.sinceSwap := rfl
@[simp] theorem withArb_digests (v : ArbSt) : (s.withArb v).digests = s.digests := rfl
@[simp] theorem withArb_digestAt (v : ArbSt) : (s.withArb v).digestAt = s.digestAt := rfl
@[simp] theorem withArb_engReq (v : ArbSt) : (s.withArb v).engReq = s.engReq := rfl
@[simp] theorem withArb_engFwd (v : ArbSt) : (s.withArb v).engFwd = s.engFwd := rfl
@[simp] theorem withArb_engRep (v : ArbSt) : (s.withArb v).engRep = s.engRep := rfl
@[simp] theorem withArb_colIn (v : ArbSt) : (s.withArb v).colIn = s.colIn := rfl
@[simp] theorem withArb_colDown (v : ArbSt) : (s.withArb v).colDown = s.colDown := rfl
@[simp] theorem withArb_arbIn (v : ArbSt) : (s.withArb v).arbIn = s.arbIn := rfl
@[simp] theorem withArb_mgmtUp (v : ArbSt) : (s.withArb v).mgmtUp = s.mgmtUp := rfl
@[simp] theorem withArb_mgmtD3 (v : ArbSt) : (s.withArb v).mgmtD3 = s.mgmtD3 := rfl
@[simp] theorem withArb_pci (v : ArbSt) : (s.withArb v).pci = s.pci := rfl
@[simp] theorem withArb_msgPba (v : ArbSt) : (s.withArb v).msgPba = s.msgPba := rfl
@[simp] theorem withArb_wqs (v : ArbSt) : (s.withArb v).wqs = s.wqs := rfl
@[simp] theorem withArb_cqs (v : ArbSt) : (s.withArb v).cqs = s.cqs := rfl
@[simp] theorem withArb_eqs (v : ArbSt) : (s.withArb v).eqs = s.eqs := rfl
@[simp] theorem withArb_work (v : ArbSt) : (s.withArb v).work = s.work := rfl
@[simp] theorem withArb_nextWork (v : ArbSt) : (s.withArb v).nextWork = s.nextWork := rfl
@[simp] theorem withArb_reads (v : ArbSt) : (s.withArb v).reads = s.reads := rfl
@[simp] theorem withArb_nextRead (v : ArbSt) : (s.withArb v).nextRead = s.nextRead := rfl
@[simp] theorem withArb_fns (v : ArbSt) : (s.withArb v).fns = s.fns := rfl
@[simp] theorem withArb_jobs (v : ArbSt) : (s.withArb v).jobs = s.jobs := rfl
@[simp] theorem withArb_trn (v : ArbSt) : (s.withArb v).trn = s.trn := rfl
@[simp] theorem withArb_xpt (v : ArbSt) : (s.withArb v).xpt = s.xpt := rfl
@[simp] theorem withArb_mtc (v : ArbSt) : (s.withArb v).mtc = s.mtc := rfl
@[simp] theorem withArb_trees (v : ArbSt) : (s.withArb v).trees = s.trees := rfl
@[simp] theorem withArb_regs (v : ArbSt) : (s.withArb v).regs = s.regs := rfl
@[simp] theorem withArb_cgc (v : ArbSt) : (s.withArb v).cgc = s.cgc := rfl
@[simp] theorem withArb_lck (v : ArbSt) : (s.withArb v).lck = s.lck := rfl
@[simp] theorem withArb_stk (v : ArbSt) : (s.withArb v).stk = s.stk := rfl
@[simp] theorem withArb_sec (v : ArbSt) : (s.withArb v).sec = s.sec := rfl
@[simp] theorem withArb_flt (v : ArbSt) : (s.withArb v).flt = s.flt := rfl
@[simp] theorem withArb_time (v : ArbSt) : (s.withArb v).time = s.time := rfl
@[simp] theorem withArb_pmon (v : ArbSt) : (s.withArb v).pmon = s.pmon := rfl
@[simp] theorem withArb_pwr (v : ArbSt) : (s.withArb v).pwr = s.pwr := rfl
@[simp] theorem withArb_tap (v : ArbSt) : (s.withArb v).tap = s.tap := rfl
@[simp] theorem withArb_opening (v : ArbSt) : (s.withArb v).opening = s.opening := rfl
@[simp] theorem withArb_arb (v : ArbSt) : (s.withArb v).arb = v := rfl
@[simp] theorem rd_withArb (v : ArbSt) (g : FRef) : (s.withArb v).rd g = s.rd g := rfl

/-! Fields under `withSec`. -/

@[simp] theorem withSec_pending (v : SecSt) : (s.withSec v).pending = s.pending := rfl
@[simp] theorem withSec_flds (v : SecSt) : (s.withSec v).flds = s.flds := rfl
@[simp] theorem withSec_now (v : SecSt) : (s.withSec v).now = s.now := rfl
@[simp] theorem withSec_rng (v : SecSt) : (s.withSec v).rng = s.rng := rfl
@[simp] theorem withSec_out (v : SecSt) : (s.withSec v).out = s.out := rfl
@[simp] theorem withSec_mem (v : SecSt) : (s.withSec v).mem = s.mem := rfl
@[simp] theorem withSec_lanes (v : SecSt) : (s.withSec v).lanes = s.lanes := rfl
@[simp] theorem withSec_ports (v : SecSt) : (s.withSec v).ports = s.ports := rfl
@[simp] theorem withSec_buf (v : SecSt) : (s.withSec v).buf = s.buf := rfl
@[simp] theorem withSec_nextPid (v : SecSt) : (s.withSec v).nextPid = s.nextPid := rfl
@[simp] theorem withSec_oq (v : SecSt) : (s.withSec v).oq = s.oq := rfl
@[simp] theorem withSec_lin (v : SecSt) : (s.withSec v).lin = s.lin := rfl
@[simp] theorem withSec_guarUsed (v : SecSt) : (s.withSec v).guarUsed = s.guarUsed := rfl
@[simp] theorem withSec_pol (v : SecSt) : (s.withSec v).pol = s.pol := rfl
@[simp] theorem withSec_sched (v : SecSt) : (s.withSec v).sched = s.sched := rfl
@[simp] theorem withSec_swc (v : SecSt) : (s.withSec v).swc = s.swc := rfl
@[simp] theorem withSec_departures (v : SecSt) : (s.withSec v).departures = s.departures := rfl
@[simp] theorem withSec_copying (v : SecSt) : (s.withSec v).copying = s.copying := rfl
@[simp] theorem withSec_sinceSwap (v : SecSt) : (s.withSec v).sinceSwap = s.sinceSwap := rfl
@[simp] theorem withSec_digests (v : SecSt) : (s.withSec v).digests = s.digests := rfl
@[simp] theorem withSec_digestAt (v : SecSt) : (s.withSec v).digestAt = s.digestAt := rfl
@[simp] theorem withSec_engReq (v : SecSt) : (s.withSec v).engReq = s.engReq := rfl
@[simp] theorem withSec_engFwd (v : SecSt) : (s.withSec v).engFwd = s.engFwd := rfl
@[simp] theorem withSec_engRep (v : SecSt) : (s.withSec v).engRep = s.engRep := rfl
@[simp] theorem withSec_colIn (v : SecSt) : (s.withSec v).colIn = s.colIn := rfl
@[simp] theorem withSec_colDown (v : SecSt) : (s.withSec v).colDown = s.colDown := rfl
@[simp] theorem withSec_arbIn (v : SecSt) : (s.withSec v).arbIn = s.arbIn := rfl
@[simp] theorem withSec_mgmtUp (v : SecSt) : (s.withSec v).mgmtUp = s.mgmtUp := rfl
@[simp] theorem withSec_mgmtD3 (v : SecSt) : (s.withSec v).mgmtD3 = s.mgmtD3 := rfl
@[simp] theorem withSec_pci (v : SecSt) : (s.withSec v).pci = s.pci := rfl
@[simp] theorem withSec_msgPba (v : SecSt) : (s.withSec v).msgPba = s.msgPba := rfl
@[simp] theorem withSec_wqs (v : SecSt) : (s.withSec v).wqs = s.wqs := rfl
@[simp] theorem withSec_cqs (v : SecSt) : (s.withSec v).cqs = s.cqs := rfl
@[simp] theorem withSec_eqs (v : SecSt) : (s.withSec v).eqs = s.eqs := rfl
@[simp] theorem withSec_work (v : SecSt) : (s.withSec v).work = s.work := rfl
@[simp] theorem withSec_nextWork (v : SecSt) : (s.withSec v).nextWork = s.nextWork := rfl
@[simp] theorem withSec_reads (v : SecSt) : (s.withSec v).reads = s.reads := rfl
@[simp] theorem withSec_nextRead (v : SecSt) : (s.withSec v).nextRead = s.nextRead := rfl
@[simp] theorem withSec_fns (v : SecSt) : (s.withSec v).fns = s.fns := rfl
@[simp] theorem withSec_jobs (v : SecSt) : (s.withSec v).jobs = s.jobs := rfl
@[simp] theorem withSec_trn (v : SecSt) : (s.withSec v).trn = s.trn := rfl
@[simp] theorem withSec_xpt (v : SecSt) : (s.withSec v).xpt = s.xpt := rfl
@[simp] theorem withSec_mtc (v : SecSt) : (s.withSec v).mtc = s.mtc := rfl
@[simp] theorem withSec_trees (v : SecSt) : (s.withSec v).trees = s.trees := rfl
@[simp] theorem withSec_regs (v : SecSt) : (s.withSec v).regs = s.regs := rfl
@[simp] theorem withSec_cgc (v : SecSt) : (s.withSec v).cgc = s.cgc := rfl
@[simp] theorem withSec_lck (v : SecSt) : (s.withSec v).lck = s.lck := rfl
@[simp] theorem withSec_stk (v : SecSt) : (s.withSec v).stk = s.stk := rfl
@[simp] theorem withSec_arb (v : SecSt) : (s.withSec v).arb = s.arb := rfl
@[simp] theorem withSec_flt (v : SecSt) : (s.withSec v).flt = s.flt := rfl
@[simp] theorem withSec_time (v : SecSt) : (s.withSec v).time = s.time := rfl
@[simp] theorem withSec_pmon (v : SecSt) : (s.withSec v).pmon = s.pmon := rfl
@[simp] theorem withSec_pwr (v : SecSt) : (s.withSec v).pwr = s.pwr := rfl
@[simp] theorem withSec_tap (v : SecSt) : (s.withSec v).tap = s.tap := rfl
@[simp] theorem withSec_opening (v : SecSt) : (s.withSec v).opening = s.opening := rfl
@[simp] theorem withSec_sec (v : SecSt) : (s.withSec v).sec = v := rfl
@[simp] theorem rd_withSec (v : SecSt) (g : FRef) : (s.withSec v).rd g = s.rd g := rfl

/-! Fields under `withFlt`. -/

@[simp] theorem withFlt_pending (v : FltSt) : (s.withFlt v).pending = s.pending := rfl
@[simp] theorem withFlt_flds (v : FltSt) : (s.withFlt v).flds = s.flds := rfl
@[simp] theorem withFlt_now (v : FltSt) : (s.withFlt v).now = s.now := rfl
@[simp] theorem withFlt_rng (v : FltSt) : (s.withFlt v).rng = s.rng := rfl
@[simp] theorem withFlt_out (v : FltSt) : (s.withFlt v).out = s.out := rfl
@[simp] theorem withFlt_mem (v : FltSt) : (s.withFlt v).mem = s.mem := rfl
@[simp] theorem withFlt_lanes (v : FltSt) : (s.withFlt v).lanes = s.lanes := rfl
@[simp] theorem withFlt_ports (v : FltSt) : (s.withFlt v).ports = s.ports := rfl
@[simp] theorem withFlt_buf (v : FltSt) : (s.withFlt v).buf = s.buf := rfl
@[simp] theorem withFlt_nextPid (v : FltSt) : (s.withFlt v).nextPid = s.nextPid := rfl
@[simp] theorem withFlt_oq (v : FltSt) : (s.withFlt v).oq = s.oq := rfl
@[simp] theorem withFlt_lin (v : FltSt) : (s.withFlt v).lin = s.lin := rfl
@[simp] theorem withFlt_guarUsed (v : FltSt) : (s.withFlt v).guarUsed = s.guarUsed := rfl
@[simp] theorem withFlt_pol (v : FltSt) : (s.withFlt v).pol = s.pol := rfl
@[simp] theorem withFlt_sched (v : FltSt) : (s.withFlt v).sched = s.sched := rfl
@[simp] theorem withFlt_swc (v : FltSt) : (s.withFlt v).swc = s.swc := rfl
@[simp] theorem withFlt_departures (v : FltSt) : (s.withFlt v).departures = s.departures := rfl
@[simp] theorem withFlt_copying (v : FltSt) : (s.withFlt v).copying = s.copying := rfl
@[simp] theorem withFlt_sinceSwap (v : FltSt) : (s.withFlt v).sinceSwap = s.sinceSwap := rfl
@[simp] theorem withFlt_digests (v : FltSt) : (s.withFlt v).digests = s.digests := rfl
@[simp] theorem withFlt_digestAt (v : FltSt) : (s.withFlt v).digestAt = s.digestAt := rfl
@[simp] theorem withFlt_engReq (v : FltSt) : (s.withFlt v).engReq = s.engReq := rfl
@[simp] theorem withFlt_engFwd (v : FltSt) : (s.withFlt v).engFwd = s.engFwd := rfl
@[simp] theorem withFlt_engRep (v : FltSt) : (s.withFlt v).engRep = s.engRep := rfl
@[simp] theorem withFlt_colIn (v : FltSt) : (s.withFlt v).colIn = s.colIn := rfl
@[simp] theorem withFlt_colDown (v : FltSt) : (s.withFlt v).colDown = s.colDown := rfl
@[simp] theorem withFlt_arbIn (v : FltSt) : (s.withFlt v).arbIn = s.arbIn := rfl
@[simp] theorem withFlt_mgmtUp (v : FltSt) : (s.withFlt v).mgmtUp = s.mgmtUp := rfl
@[simp] theorem withFlt_mgmtD3 (v : FltSt) : (s.withFlt v).mgmtD3 = s.mgmtD3 := rfl
@[simp] theorem withFlt_pci (v : FltSt) : (s.withFlt v).pci = s.pci := rfl
@[simp] theorem withFlt_msgPba (v : FltSt) : (s.withFlt v).msgPba = s.msgPba := rfl
@[simp] theorem withFlt_wqs (v : FltSt) : (s.withFlt v).wqs = s.wqs := rfl
@[simp] theorem withFlt_cqs (v : FltSt) : (s.withFlt v).cqs = s.cqs := rfl
@[simp] theorem withFlt_eqs (v : FltSt) : (s.withFlt v).eqs = s.eqs := rfl
@[simp] theorem withFlt_work (v : FltSt) : (s.withFlt v).work = s.work := rfl
@[simp] theorem withFlt_nextWork (v : FltSt) : (s.withFlt v).nextWork = s.nextWork := rfl
@[simp] theorem withFlt_reads (v : FltSt) : (s.withFlt v).reads = s.reads := rfl
@[simp] theorem withFlt_nextRead (v : FltSt) : (s.withFlt v).nextRead = s.nextRead := rfl
@[simp] theorem withFlt_fns (v : FltSt) : (s.withFlt v).fns = s.fns := rfl
@[simp] theorem withFlt_jobs (v : FltSt) : (s.withFlt v).jobs = s.jobs := rfl
@[simp] theorem withFlt_trn (v : FltSt) : (s.withFlt v).trn = s.trn := rfl
@[simp] theorem withFlt_xpt (v : FltSt) : (s.withFlt v).xpt = s.xpt := rfl
@[simp] theorem withFlt_mtc (v : FltSt) : (s.withFlt v).mtc = s.mtc := rfl
@[simp] theorem withFlt_trees (v : FltSt) : (s.withFlt v).trees = s.trees := rfl
@[simp] theorem withFlt_regs (v : FltSt) : (s.withFlt v).regs = s.regs := rfl
@[simp] theorem withFlt_cgc (v : FltSt) : (s.withFlt v).cgc = s.cgc := rfl
@[simp] theorem withFlt_lck (v : FltSt) : (s.withFlt v).lck = s.lck := rfl
@[simp] theorem withFlt_stk (v : FltSt) : (s.withFlt v).stk = s.stk := rfl
@[simp] theorem withFlt_arb (v : FltSt) : (s.withFlt v).arb = s.arb := rfl
@[simp] theorem withFlt_sec (v : FltSt) : (s.withFlt v).sec = s.sec := rfl
@[simp] theorem withFlt_time (v : FltSt) : (s.withFlt v).time = s.time := rfl
@[simp] theorem withFlt_pmon (v : FltSt) : (s.withFlt v).pmon = s.pmon := rfl
@[simp] theorem withFlt_pwr (v : FltSt) : (s.withFlt v).pwr = s.pwr := rfl
@[simp] theorem withFlt_tap (v : FltSt) : (s.withFlt v).tap = s.tap := rfl
@[simp] theorem withFlt_opening (v : FltSt) : (s.withFlt v).opening = s.opening := rfl
@[simp] theorem withFlt_flt (v : FltSt) : (s.withFlt v).flt = v := rfl
@[simp] theorem rd_withFlt (v : FltSt) (g : FRef) : (s.withFlt v).rd g = s.rd g := rfl

/-! Fields under `withTime`. -/

@[simp] theorem withTime_pending (v : TimeSt) : (s.withTime v).pending = s.pending := rfl
@[simp] theorem withTime_flds (v : TimeSt) : (s.withTime v).flds = s.flds := rfl
@[simp] theorem withTime_now (v : TimeSt) : (s.withTime v).now = s.now := rfl
@[simp] theorem withTime_rng (v : TimeSt) : (s.withTime v).rng = s.rng := rfl
@[simp] theorem withTime_out (v : TimeSt) : (s.withTime v).out = s.out := rfl
@[simp] theorem withTime_mem (v : TimeSt) : (s.withTime v).mem = s.mem := rfl
@[simp] theorem withTime_lanes (v : TimeSt) : (s.withTime v).lanes = s.lanes := rfl
@[simp] theorem withTime_ports (v : TimeSt) : (s.withTime v).ports = s.ports := rfl
@[simp] theorem withTime_buf (v : TimeSt) : (s.withTime v).buf = s.buf := rfl
@[simp] theorem withTime_nextPid (v : TimeSt) : (s.withTime v).nextPid = s.nextPid := rfl
@[simp] theorem withTime_oq (v : TimeSt) : (s.withTime v).oq = s.oq := rfl
@[simp] theorem withTime_lin (v : TimeSt) : (s.withTime v).lin = s.lin := rfl
@[simp] theorem withTime_guarUsed (v : TimeSt) : (s.withTime v).guarUsed = s.guarUsed := rfl
@[simp] theorem withTime_pol (v : TimeSt) : (s.withTime v).pol = s.pol := rfl
@[simp] theorem withTime_sched (v : TimeSt) : (s.withTime v).sched = s.sched := rfl
@[simp] theorem withTime_swc (v : TimeSt) : (s.withTime v).swc = s.swc := rfl
@[simp] theorem withTime_departures (v : TimeSt) : (s.withTime v).departures = s.departures := rfl
@[simp] theorem withTime_copying (v : TimeSt) : (s.withTime v).copying = s.copying := rfl
@[simp] theorem withTime_sinceSwap (v : TimeSt) : (s.withTime v).sinceSwap = s.sinceSwap := rfl
@[simp] theorem withTime_digests (v : TimeSt) : (s.withTime v).digests = s.digests := rfl
@[simp] theorem withTime_digestAt (v : TimeSt) : (s.withTime v).digestAt = s.digestAt := rfl
@[simp] theorem withTime_engReq (v : TimeSt) : (s.withTime v).engReq = s.engReq := rfl
@[simp] theorem withTime_engFwd (v : TimeSt) : (s.withTime v).engFwd = s.engFwd := rfl
@[simp] theorem withTime_engRep (v : TimeSt) : (s.withTime v).engRep = s.engRep := rfl
@[simp] theorem withTime_colIn (v : TimeSt) : (s.withTime v).colIn = s.colIn := rfl
@[simp] theorem withTime_colDown (v : TimeSt) : (s.withTime v).colDown = s.colDown := rfl
@[simp] theorem withTime_arbIn (v : TimeSt) : (s.withTime v).arbIn = s.arbIn := rfl
@[simp] theorem withTime_mgmtUp (v : TimeSt) : (s.withTime v).mgmtUp = s.mgmtUp := rfl
@[simp] theorem withTime_mgmtD3 (v : TimeSt) : (s.withTime v).mgmtD3 = s.mgmtD3 := rfl
@[simp] theorem withTime_pci (v : TimeSt) : (s.withTime v).pci = s.pci := rfl
@[simp] theorem withTime_msgPba (v : TimeSt) : (s.withTime v).msgPba = s.msgPba := rfl
@[simp] theorem withTime_wqs (v : TimeSt) : (s.withTime v).wqs = s.wqs := rfl
@[simp] theorem withTime_cqs (v : TimeSt) : (s.withTime v).cqs = s.cqs := rfl
@[simp] theorem withTime_eqs (v : TimeSt) : (s.withTime v).eqs = s.eqs := rfl
@[simp] theorem withTime_work (v : TimeSt) : (s.withTime v).work = s.work := rfl
@[simp] theorem withTime_nextWork (v : TimeSt) : (s.withTime v).nextWork = s.nextWork := rfl
@[simp] theorem withTime_reads (v : TimeSt) : (s.withTime v).reads = s.reads := rfl
@[simp] theorem withTime_nextRead (v : TimeSt) : (s.withTime v).nextRead = s.nextRead := rfl
@[simp] theorem withTime_fns (v : TimeSt) : (s.withTime v).fns = s.fns := rfl
@[simp] theorem withTime_jobs (v : TimeSt) : (s.withTime v).jobs = s.jobs := rfl
@[simp] theorem withTime_trn (v : TimeSt) : (s.withTime v).trn = s.trn := rfl
@[simp] theorem withTime_xpt (v : TimeSt) : (s.withTime v).xpt = s.xpt := rfl
@[simp] theorem withTime_mtc (v : TimeSt) : (s.withTime v).mtc = s.mtc := rfl
@[simp] theorem withTime_trees (v : TimeSt) : (s.withTime v).trees = s.trees := rfl
@[simp] theorem withTime_regs (v : TimeSt) : (s.withTime v).regs = s.regs := rfl
@[simp] theorem withTime_cgc (v : TimeSt) : (s.withTime v).cgc = s.cgc := rfl
@[simp] theorem withTime_lck (v : TimeSt) : (s.withTime v).lck = s.lck := rfl
@[simp] theorem withTime_stk (v : TimeSt) : (s.withTime v).stk = s.stk := rfl
@[simp] theorem withTime_arb (v : TimeSt) : (s.withTime v).arb = s.arb := rfl
@[simp] theorem withTime_sec (v : TimeSt) : (s.withTime v).sec = s.sec := rfl
@[simp] theorem withTime_flt (v : TimeSt) : (s.withTime v).flt = s.flt := rfl
@[simp] theorem withTime_pmon (v : TimeSt) : (s.withTime v).pmon = s.pmon := rfl
@[simp] theorem withTime_pwr (v : TimeSt) : (s.withTime v).pwr = s.pwr := rfl
@[simp] theorem withTime_tap (v : TimeSt) : (s.withTime v).tap = s.tap := rfl
@[simp] theorem withTime_opening (v : TimeSt) : (s.withTime v).opening = s.opening := rfl
@[simp] theorem withTime_time (v : TimeSt) : (s.withTime v).time = v := rfl
@[simp] theorem rd_withTime (v : TimeSt) (g : FRef) : (s.withTime v).rd g = s.rd g := rfl

/-! Fields under `withPmon`. -/

@[simp] theorem withPmon_pending (v : PmonSt) : (s.withPmon v).pending = s.pending := rfl
@[simp] theorem withPmon_flds (v : PmonSt) : (s.withPmon v).flds = s.flds := rfl
@[simp] theorem withPmon_now (v : PmonSt) : (s.withPmon v).now = s.now := rfl
@[simp] theorem withPmon_rng (v : PmonSt) : (s.withPmon v).rng = s.rng := rfl
@[simp] theorem withPmon_out (v : PmonSt) : (s.withPmon v).out = s.out := rfl
@[simp] theorem withPmon_mem (v : PmonSt) : (s.withPmon v).mem = s.mem := rfl
@[simp] theorem withPmon_lanes (v : PmonSt) : (s.withPmon v).lanes = s.lanes := rfl
@[simp] theorem withPmon_ports (v : PmonSt) : (s.withPmon v).ports = s.ports := rfl
@[simp] theorem withPmon_buf (v : PmonSt) : (s.withPmon v).buf = s.buf := rfl
@[simp] theorem withPmon_nextPid (v : PmonSt) : (s.withPmon v).nextPid = s.nextPid := rfl
@[simp] theorem withPmon_oq (v : PmonSt) : (s.withPmon v).oq = s.oq := rfl
@[simp] theorem withPmon_lin (v : PmonSt) : (s.withPmon v).lin = s.lin := rfl
@[simp] theorem withPmon_guarUsed (v : PmonSt) : (s.withPmon v).guarUsed = s.guarUsed := rfl
@[simp] theorem withPmon_pol (v : PmonSt) : (s.withPmon v).pol = s.pol := rfl
@[simp] theorem withPmon_sched (v : PmonSt) : (s.withPmon v).sched = s.sched := rfl
@[simp] theorem withPmon_swc (v : PmonSt) : (s.withPmon v).swc = s.swc := rfl
@[simp] theorem withPmon_departures (v : PmonSt) : (s.withPmon v).departures = s.departures := rfl
@[simp] theorem withPmon_copying (v : PmonSt) : (s.withPmon v).copying = s.copying := rfl
@[simp] theorem withPmon_sinceSwap (v : PmonSt) : (s.withPmon v).sinceSwap = s.sinceSwap := rfl
@[simp] theorem withPmon_digests (v : PmonSt) : (s.withPmon v).digests = s.digests := rfl
@[simp] theorem withPmon_digestAt (v : PmonSt) : (s.withPmon v).digestAt = s.digestAt := rfl
@[simp] theorem withPmon_engReq (v : PmonSt) : (s.withPmon v).engReq = s.engReq := rfl
@[simp] theorem withPmon_engFwd (v : PmonSt) : (s.withPmon v).engFwd = s.engFwd := rfl
@[simp] theorem withPmon_engRep (v : PmonSt) : (s.withPmon v).engRep = s.engRep := rfl
@[simp] theorem withPmon_colIn (v : PmonSt) : (s.withPmon v).colIn = s.colIn := rfl
@[simp] theorem withPmon_colDown (v : PmonSt) : (s.withPmon v).colDown = s.colDown := rfl
@[simp] theorem withPmon_arbIn (v : PmonSt) : (s.withPmon v).arbIn = s.arbIn := rfl
@[simp] theorem withPmon_mgmtUp (v : PmonSt) : (s.withPmon v).mgmtUp = s.mgmtUp := rfl
@[simp] theorem withPmon_mgmtD3 (v : PmonSt) : (s.withPmon v).mgmtD3 = s.mgmtD3 := rfl
@[simp] theorem withPmon_pci (v : PmonSt) : (s.withPmon v).pci = s.pci := rfl
@[simp] theorem withPmon_msgPba (v : PmonSt) : (s.withPmon v).msgPba = s.msgPba := rfl
@[simp] theorem withPmon_wqs (v : PmonSt) : (s.withPmon v).wqs = s.wqs := rfl
@[simp] theorem withPmon_cqs (v : PmonSt) : (s.withPmon v).cqs = s.cqs := rfl
@[simp] theorem withPmon_eqs (v : PmonSt) : (s.withPmon v).eqs = s.eqs := rfl
@[simp] theorem withPmon_work (v : PmonSt) : (s.withPmon v).work = s.work := rfl
@[simp] theorem withPmon_nextWork (v : PmonSt) : (s.withPmon v).nextWork = s.nextWork := rfl
@[simp] theorem withPmon_reads (v : PmonSt) : (s.withPmon v).reads = s.reads := rfl
@[simp] theorem withPmon_nextRead (v : PmonSt) : (s.withPmon v).nextRead = s.nextRead := rfl
@[simp] theorem withPmon_fns (v : PmonSt) : (s.withPmon v).fns = s.fns := rfl
@[simp] theorem withPmon_jobs (v : PmonSt) : (s.withPmon v).jobs = s.jobs := rfl
@[simp] theorem withPmon_trn (v : PmonSt) : (s.withPmon v).trn = s.trn := rfl
@[simp] theorem withPmon_xpt (v : PmonSt) : (s.withPmon v).xpt = s.xpt := rfl
@[simp] theorem withPmon_mtc (v : PmonSt) : (s.withPmon v).mtc = s.mtc := rfl
@[simp] theorem withPmon_trees (v : PmonSt) : (s.withPmon v).trees = s.trees := rfl
@[simp] theorem withPmon_regs (v : PmonSt) : (s.withPmon v).regs = s.regs := rfl
@[simp] theorem withPmon_cgc (v : PmonSt) : (s.withPmon v).cgc = s.cgc := rfl
@[simp] theorem withPmon_lck (v : PmonSt) : (s.withPmon v).lck = s.lck := rfl
@[simp] theorem withPmon_stk (v : PmonSt) : (s.withPmon v).stk = s.stk := rfl
@[simp] theorem withPmon_arb (v : PmonSt) : (s.withPmon v).arb = s.arb := rfl
@[simp] theorem withPmon_sec (v : PmonSt) : (s.withPmon v).sec = s.sec := rfl
@[simp] theorem withPmon_flt (v : PmonSt) : (s.withPmon v).flt = s.flt := rfl
@[simp] theorem withPmon_time (v : PmonSt) : (s.withPmon v).time = s.time := rfl
@[simp] theorem withPmon_pwr (v : PmonSt) : (s.withPmon v).pwr = s.pwr := rfl
@[simp] theorem withPmon_tap (v : PmonSt) : (s.withPmon v).tap = s.tap := rfl
@[simp] theorem withPmon_opening (v : PmonSt) : (s.withPmon v).opening = s.opening := rfl
@[simp] theorem withPmon_pmon (v : PmonSt) : (s.withPmon v).pmon = v := rfl
@[simp] theorem rd_withPmon (v : PmonSt) (g : FRef) : (s.withPmon v).rd g = s.rd g := rfl

/-! Fields under `withPwr`. -/

@[simp] theorem withPwr_pending (v : PwrSt) : (s.withPwr v).pending = s.pending := rfl
@[simp] theorem withPwr_flds (v : PwrSt) : (s.withPwr v).flds = s.flds := rfl
@[simp] theorem withPwr_now (v : PwrSt) : (s.withPwr v).now = s.now := rfl
@[simp] theorem withPwr_rng (v : PwrSt) : (s.withPwr v).rng = s.rng := rfl
@[simp] theorem withPwr_out (v : PwrSt) : (s.withPwr v).out = s.out := rfl
@[simp] theorem withPwr_mem (v : PwrSt) : (s.withPwr v).mem = s.mem := rfl
@[simp] theorem withPwr_lanes (v : PwrSt) : (s.withPwr v).lanes = s.lanes := rfl
@[simp] theorem withPwr_ports (v : PwrSt) : (s.withPwr v).ports = s.ports := rfl
@[simp] theorem withPwr_buf (v : PwrSt) : (s.withPwr v).buf = s.buf := rfl
@[simp] theorem withPwr_nextPid (v : PwrSt) : (s.withPwr v).nextPid = s.nextPid := rfl
@[simp] theorem withPwr_oq (v : PwrSt) : (s.withPwr v).oq = s.oq := rfl
@[simp] theorem withPwr_lin (v : PwrSt) : (s.withPwr v).lin = s.lin := rfl
@[simp] theorem withPwr_guarUsed (v : PwrSt) : (s.withPwr v).guarUsed = s.guarUsed := rfl
@[simp] theorem withPwr_pol (v : PwrSt) : (s.withPwr v).pol = s.pol := rfl
@[simp] theorem withPwr_sched (v : PwrSt) : (s.withPwr v).sched = s.sched := rfl
@[simp] theorem withPwr_swc (v : PwrSt) : (s.withPwr v).swc = s.swc := rfl
@[simp] theorem withPwr_departures (v : PwrSt) : (s.withPwr v).departures = s.departures := rfl
@[simp] theorem withPwr_copying (v : PwrSt) : (s.withPwr v).copying = s.copying := rfl
@[simp] theorem withPwr_sinceSwap (v : PwrSt) : (s.withPwr v).sinceSwap = s.sinceSwap := rfl
@[simp] theorem withPwr_digests (v : PwrSt) : (s.withPwr v).digests = s.digests := rfl
@[simp] theorem withPwr_digestAt (v : PwrSt) : (s.withPwr v).digestAt = s.digestAt := rfl
@[simp] theorem withPwr_engReq (v : PwrSt) : (s.withPwr v).engReq = s.engReq := rfl
@[simp] theorem withPwr_engFwd (v : PwrSt) : (s.withPwr v).engFwd = s.engFwd := rfl
@[simp] theorem withPwr_engRep (v : PwrSt) : (s.withPwr v).engRep = s.engRep := rfl
@[simp] theorem withPwr_colIn (v : PwrSt) : (s.withPwr v).colIn = s.colIn := rfl
@[simp] theorem withPwr_colDown (v : PwrSt) : (s.withPwr v).colDown = s.colDown := rfl
@[simp] theorem withPwr_arbIn (v : PwrSt) : (s.withPwr v).arbIn = s.arbIn := rfl
@[simp] theorem withPwr_mgmtUp (v : PwrSt) : (s.withPwr v).mgmtUp = s.mgmtUp := rfl
@[simp] theorem withPwr_mgmtD3 (v : PwrSt) : (s.withPwr v).mgmtD3 = s.mgmtD3 := rfl
@[simp] theorem withPwr_pci (v : PwrSt) : (s.withPwr v).pci = s.pci := rfl
@[simp] theorem withPwr_msgPba (v : PwrSt) : (s.withPwr v).msgPba = s.msgPba := rfl
@[simp] theorem withPwr_wqs (v : PwrSt) : (s.withPwr v).wqs = s.wqs := rfl
@[simp] theorem withPwr_cqs (v : PwrSt) : (s.withPwr v).cqs = s.cqs := rfl
@[simp] theorem withPwr_eqs (v : PwrSt) : (s.withPwr v).eqs = s.eqs := rfl
@[simp] theorem withPwr_work (v : PwrSt) : (s.withPwr v).work = s.work := rfl
@[simp] theorem withPwr_nextWork (v : PwrSt) : (s.withPwr v).nextWork = s.nextWork := rfl
@[simp] theorem withPwr_reads (v : PwrSt) : (s.withPwr v).reads = s.reads := rfl
@[simp] theorem withPwr_nextRead (v : PwrSt) : (s.withPwr v).nextRead = s.nextRead := rfl
@[simp] theorem withPwr_fns (v : PwrSt) : (s.withPwr v).fns = s.fns := rfl
@[simp] theorem withPwr_jobs (v : PwrSt) : (s.withPwr v).jobs = s.jobs := rfl
@[simp] theorem withPwr_trn (v : PwrSt) : (s.withPwr v).trn = s.trn := rfl
@[simp] theorem withPwr_xpt (v : PwrSt) : (s.withPwr v).xpt = s.xpt := rfl
@[simp] theorem withPwr_mtc (v : PwrSt) : (s.withPwr v).mtc = s.mtc := rfl
@[simp] theorem withPwr_trees (v : PwrSt) : (s.withPwr v).trees = s.trees := rfl
@[simp] theorem withPwr_regs (v : PwrSt) : (s.withPwr v).regs = s.regs := rfl
@[simp] theorem withPwr_cgc (v : PwrSt) : (s.withPwr v).cgc = s.cgc := rfl
@[simp] theorem withPwr_lck (v : PwrSt) : (s.withPwr v).lck = s.lck := rfl
@[simp] theorem withPwr_stk (v : PwrSt) : (s.withPwr v).stk = s.stk := rfl
@[simp] theorem withPwr_arb (v : PwrSt) : (s.withPwr v).arb = s.arb := rfl
@[simp] theorem withPwr_sec (v : PwrSt) : (s.withPwr v).sec = s.sec := rfl
@[simp] theorem withPwr_flt (v : PwrSt) : (s.withPwr v).flt = s.flt := rfl
@[simp] theorem withPwr_time (v : PwrSt) : (s.withPwr v).time = s.time := rfl
@[simp] theorem withPwr_pmon (v : PwrSt) : (s.withPwr v).pmon = s.pmon := rfl
@[simp] theorem withPwr_tap (v : PwrSt) : (s.withPwr v).tap = s.tap := rfl
@[simp] theorem withPwr_opening (v : PwrSt) : (s.withPwr v).opening = s.opening := rfl
@[simp] theorem withPwr_pwr (v : PwrSt) : (s.withPwr v).pwr = v := rfl
@[simp] theorem rd_withPwr (v : PwrSt) (g : FRef) : (s.withPwr v).rd g = s.rd g := rfl

/-! Fields under `withTap`. -/

@[simp] theorem withTap_pending (v : TapSt) : (s.withTap v).pending = s.pending := rfl
@[simp] theorem withTap_flds (v : TapSt) : (s.withTap v).flds = s.flds := rfl
@[simp] theorem withTap_now (v : TapSt) : (s.withTap v).now = s.now := rfl
@[simp] theorem withTap_rng (v : TapSt) : (s.withTap v).rng = s.rng := rfl
@[simp] theorem withTap_out (v : TapSt) : (s.withTap v).out = s.out := rfl
@[simp] theorem withTap_mem (v : TapSt) : (s.withTap v).mem = s.mem := rfl
@[simp] theorem withTap_lanes (v : TapSt) : (s.withTap v).lanes = s.lanes := rfl
@[simp] theorem withTap_ports (v : TapSt) : (s.withTap v).ports = s.ports := rfl
@[simp] theorem withTap_buf (v : TapSt) : (s.withTap v).buf = s.buf := rfl
@[simp] theorem withTap_nextPid (v : TapSt) : (s.withTap v).nextPid = s.nextPid := rfl
@[simp] theorem withTap_oq (v : TapSt) : (s.withTap v).oq = s.oq := rfl
@[simp] theorem withTap_lin (v : TapSt) : (s.withTap v).lin = s.lin := rfl
@[simp] theorem withTap_guarUsed (v : TapSt) : (s.withTap v).guarUsed = s.guarUsed := rfl
@[simp] theorem withTap_pol (v : TapSt) : (s.withTap v).pol = s.pol := rfl
@[simp] theorem withTap_sched (v : TapSt) : (s.withTap v).sched = s.sched := rfl
@[simp] theorem withTap_swc (v : TapSt) : (s.withTap v).swc = s.swc := rfl
@[simp] theorem withTap_departures (v : TapSt) : (s.withTap v).departures = s.departures := rfl
@[simp] theorem withTap_copying (v : TapSt) : (s.withTap v).copying = s.copying := rfl
@[simp] theorem withTap_sinceSwap (v : TapSt) : (s.withTap v).sinceSwap = s.sinceSwap := rfl
@[simp] theorem withTap_digests (v : TapSt) : (s.withTap v).digests = s.digests := rfl
@[simp] theorem withTap_digestAt (v : TapSt) : (s.withTap v).digestAt = s.digestAt := rfl
@[simp] theorem withTap_engReq (v : TapSt) : (s.withTap v).engReq = s.engReq := rfl
@[simp] theorem withTap_engFwd (v : TapSt) : (s.withTap v).engFwd = s.engFwd := rfl
@[simp] theorem withTap_engRep (v : TapSt) : (s.withTap v).engRep = s.engRep := rfl
@[simp] theorem withTap_colIn (v : TapSt) : (s.withTap v).colIn = s.colIn := rfl
@[simp] theorem withTap_colDown (v : TapSt) : (s.withTap v).colDown = s.colDown := rfl
@[simp] theorem withTap_arbIn (v : TapSt) : (s.withTap v).arbIn = s.arbIn := rfl
@[simp] theorem withTap_mgmtUp (v : TapSt) : (s.withTap v).mgmtUp = s.mgmtUp := rfl
@[simp] theorem withTap_mgmtD3 (v : TapSt) : (s.withTap v).mgmtD3 = s.mgmtD3 := rfl
@[simp] theorem withTap_pci (v : TapSt) : (s.withTap v).pci = s.pci := rfl
@[simp] theorem withTap_msgPba (v : TapSt) : (s.withTap v).msgPba = s.msgPba := rfl
@[simp] theorem withTap_wqs (v : TapSt) : (s.withTap v).wqs = s.wqs := rfl
@[simp] theorem withTap_cqs (v : TapSt) : (s.withTap v).cqs = s.cqs := rfl
@[simp] theorem withTap_eqs (v : TapSt) : (s.withTap v).eqs = s.eqs := rfl
@[simp] theorem withTap_work (v : TapSt) : (s.withTap v).work = s.work := rfl
@[simp] theorem withTap_nextWork (v : TapSt) : (s.withTap v).nextWork = s.nextWork := rfl
@[simp] theorem withTap_reads (v : TapSt) : (s.withTap v).reads = s.reads := rfl
@[simp] theorem withTap_nextRead (v : TapSt) : (s.withTap v).nextRead = s.nextRead := rfl
@[simp] theorem withTap_fns (v : TapSt) : (s.withTap v).fns = s.fns := rfl
@[simp] theorem withTap_jobs (v : TapSt) : (s.withTap v).jobs = s.jobs := rfl
@[simp] theorem withTap_trn (v : TapSt) : (s.withTap v).trn = s.trn := rfl
@[simp] theorem withTap_xpt (v : TapSt) : (s.withTap v).xpt = s.xpt := rfl
@[simp] theorem withTap_mtc (v : TapSt) : (s.withTap v).mtc = s.mtc := rfl
@[simp] theorem withTap_trees (v : TapSt) : (s.withTap v).trees = s.trees := rfl
@[simp] theorem withTap_regs (v : TapSt) : (s.withTap v).regs = s.regs := rfl
@[simp] theorem withTap_cgc (v : TapSt) : (s.withTap v).cgc = s.cgc := rfl
@[simp] theorem withTap_lck (v : TapSt) : (s.withTap v).lck = s.lck := rfl
@[simp] theorem withTap_stk (v : TapSt) : (s.withTap v).stk = s.stk := rfl
@[simp] theorem withTap_arb (v : TapSt) : (s.withTap v).arb = s.arb := rfl
@[simp] theorem withTap_sec (v : TapSt) : (s.withTap v).sec = s.sec := rfl
@[simp] theorem withTap_flt (v : TapSt) : (s.withTap v).flt = s.flt := rfl
@[simp] theorem withTap_time (v : TapSt) : (s.withTap v).time = s.time := rfl
@[simp] theorem withTap_pmon (v : TapSt) : (s.withTap v).pmon = s.pmon := rfl
@[simp] theorem withTap_pwr (v : TapSt) : (s.withTap v).pwr = s.pwr := rfl
@[simp] theorem withTap_opening (v : TapSt) : (s.withTap v).opening = s.opening := rfl
@[simp] theorem withTap_tap (v : TapSt) : (s.withTap v).tap = v := rfl
@[simp] theorem rd_withTap (v : TapSt) (g : FRef) : (s.withTap v).rd g = s.rd g := rfl

/-! Fields under `withOpening`. -/

@[simp] theorem withOpening_pending (v : Option Opening) : (s.withOpening v).pending = s.pending := rfl
@[simp] theorem withOpening_flds (v : Option Opening) : (s.withOpening v).flds = s.flds := rfl
@[simp] theorem withOpening_now (v : Option Opening) : (s.withOpening v).now = s.now := rfl
@[simp] theorem withOpening_rng (v : Option Opening) : (s.withOpening v).rng = s.rng := rfl
@[simp] theorem withOpening_out (v : Option Opening) : (s.withOpening v).out = s.out := rfl
@[simp] theorem withOpening_mem (v : Option Opening) : (s.withOpening v).mem = s.mem := rfl
@[simp] theorem withOpening_lanes (v : Option Opening) : (s.withOpening v).lanes = s.lanes := rfl
@[simp] theorem withOpening_ports (v : Option Opening) : (s.withOpening v).ports = s.ports := rfl
@[simp] theorem withOpening_buf (v : Option Opening) : (s.withOpening v).buf = s.buf := rfl
@[simp] theorem withOpening_nextPid (v : Option Opening) : (s.withOpening v).nextPid = s.nextPid := rfl
@[simp] theorem withOpening_oq (v : Option Opening) : (s.withOpening v).oq = s.oq := rfl
@[simp] theorem withOpening_lin (v : Option Opening) : (s.withOpening v).lin = s.lin := rfl
@[simp] theorem withOpening_guarUsed (v : Option Opening) : (s.withOpening v).guarUsed = s.guarUsed := rfl
@[simp] theorem withOpening_pol (v : Option Opening) : (s.withOpening v).pol = s.pol := rfl
@[simp] theorem withOpening_sched (v : Option Opening) : (s.withOpening v).sched = s.sched := rfl
@[simp] theorem withOpening_swc (v : Option Opening) : (s.withOpening v).swc = s.swc := rfl
@[simp] theorem withOpening_departures (v : Option Opening) : (s.withOpening v).departures = s.departures := rfl
@[simp] theorem withOpening_copying (v : Option Opening) : (s.withOpening v).copying = s.copying := rfl
@[simp] theorem withOpening_sinceSwap (v : Option Opening) : (s.withOpening v).sinceSwap = s.sinceSwap := rfl
@[simp] theorem withOpening_digests (v : Option Opening) : (s.withOpening v).digests = s.digests := rfl
@[simp] theorem withOpening_digestAt (v : Option Opening) : (s.withOpening v).digestAt = s.digestAt := rfl
@[simp] theorem withOpening_engReq (v : Option Opening) : (s.withOpening v).engReq = s.engReq := rfl
@[simp] theorem withOpening_engFwd (v : Option Opening) : (s.withOpening v).engFwd = s.engFwd := rfl
@[simp] theorem withOpening_engRep (v : Option Opening) : (s.withOpening v).engRep = s.engRep := rfl
@[simp] theorem withOpening_colIn (v : Option Opening) : (s.withOpening v).colIn = s.colIn := rfl
@[simp] theorem withOpening_colDown (v : Option Opening) : (s.withOpening v).colDown = s.colDown := rfl
@[simp] theorem withOpening_arbIn (v : Option Opening) : (s.withOpening v).arbIn = s.arbIn := rfl
@[simp] theorem withOpening_mgmtUp (v : Option Opening) : (s.withOpening v).mgmtUp = s.mgmtUp := rfl
@[simp] theorem withOpening_mgmtD3 (v : Option Opening) : (s.withOpening v).mgmtD3 = s.mgmtD3 := rfl
@[simp] theorem withOpening_pci (v : Option Opening) : (s.withOpening v).pci = s.pci := rfl
@[simp] theorem withOpening_msgPba (v : Option Opening) : (s.withOpening v).msgPba = s.msgPba := rfl
@[simp] theorem withOpening_wqs (v : Option Opening) : (s.withOpening v).wqs = s.wqs := rfl
@[simp] theorem withOpening_cqs (v : Option Opening) : (s.withOpening v).cqs = s.cqs := rfl
@[simp] theorem withOpening_eqs (v : Option Opening) : (s.withOpening v).eqs = s.eqs := rfl
@[simp] theorem withOpening_work (v : Option Opening) : (s.withOpening v).work = s.work := rfl
@[simp] theorem withOpening_nextWork (v : Option Opening) : (s.withOpening v).nextWork = s.nextWork := rfl
@[simp] theorem withOpening_reads (v : Option Opening) : (s.withOpening v).reads = s.reads := rfl
@[simp] theorem withOpening_nextRead (v : Option Opening) : (s.withOpening v).nextRead = s.nextRead := rfl
@[simp] theorem withOpening_fns (v : Option Opening) : (s.withOpening v).fns = s.fns := rfl
@[simp] theorem withOpening_jobs (v : Option Opening) : (s.withOpening v).jobs = s.jobs := rfl
@[simp] theorem withOpening_trn (v : Option Opening) : (s.withOpening v).trn = s.trn := rfl
@[simp] theorem withOpening_xpt (v : Option Opening) : (s.withOpening v).xpt = s.xpt := rfl
@[simp] theorem withOpening_mtc (v : Option Opening) : (s.withOpening v).mtc = s.mtc := rfl
@[simp] theorem withOpening_trees (v : Option Opening) : (s.withOpening v).trees = s.trees := rfl
@[simp] theorem withOpening_regs (v : Option Opening) : (s.withOpening v).regs = s.regs := rfl
@[simp] theorem withOpening_cgc (v : Option Opening) : (s.withOpening v).cgc = s.cgc := rfl
@[simp] theorem withOpening_lck (v : Option Opening) : (s.withOpening v).lck = s.lck := rfl
@[simp] theorem withOpening_stk (v : Option Opening) : (s.withOpening v).stk = s.stk := rfl
@[simp] theorem withOpening_arb (v : Option Opening) : (s.withOpening v).arb = s.arb := rfl
@[simp] theorem withOpening_sec (v : Option Opening) : (s.withOpening v).sec = s.sec := rfl
@[simp] theorem withOpening_flt (v : Option Opening) : (s.withOpening v).flt = s.flt := rfl
@[simp] theorem withOpening_time (v : Option Opening) : (s.withOpening v).time = s.time := rfl
@[simp] theorem withOpening_pmon (v : Option Opening) : (s.withOpening v).pmon = s.pmon := rfl
@[simp] theorem withOpening_pwr (v : Option Opening) : (s.withOpening v).pwr = s.pwr := rfl
@[simp] theorem withOpening_tap (v : Option Opening) : (s.withOpening v).tap = s.tap := rfl
@[simp] theorem withOpening_opening (v : Option Opening) : (s.withOpening v).opening = v := rfl
@[simp] theorem rd_withOpening (v : Option Opening) (g : FRef) : (s.withOpening v).rd g = s.rd g := rfl

end Sys2Proof.Machine.State
end

