-- ==== Sys2Proof/Tests/Slice0.lean ====
section
/-!
SUPPORT. Tests: ill-formed commands, and for the premises of the statements concrete states and operands that meet them, clause by clause.
-/
open Sys2Proof Sys2Proof.Machine Sys2Proof.Machine.State

/-! Ill-formed commands, one for each check of WellFormed.lean, and a well-formed neighbour of each. -/

theorem test_doorbell_past_the_bar : (Instr.doorbell 0 0x3FFFFF 1).wf = false ∧ (Instr.doorbell 0 0x3FFFC0 63).wf = true := by decide

theorem test_handler_answer_too_long : (Instr.handlerInvoke 0 { verdict := .respond (List.replicate 4097 0) }).wf = false ∧
    (Instr.handlerInvoke 0 { verdict := .silent }).wf = true := by
  decide +kernel

theorem test_error_of_no_unit : (Instr.errorPair [{ unit := 717, code := 0x0101 }]).wf = false ∧
    (Instr.errorPair [{ unit := 716, code := 0x0101 }]).wf = true ∧ (Instr.errorPair []).wf = false := by decide

theorem test_unit_beyond_the_last : (Instr.pairBroken 717).wf = false ∧ (Instr.rateHit 1023).wf = false ∧ (Instr.rateHit 716).wf = true := by decide

theorem test_region_of_no_unit : (Instr.testStart (.unit 800)).wf = false ∧ (Instr.testVerdict (.tableEntry 0x1000000) (.check true)).wf = false ∧
    (Instr.testStart (.lane 511)).wf = true := by decide

theorem test_result_of_another_test : (Instr.testVerdict (.lane 5) (.march 3)).wf = false ∧ (Instr.testVerdict (.unit 15) (.check true)).wf = false ∧
    (Instr.testVerdict (.unit 713) (.march 3)).wf = true ∧ (Instr.testVerdict (.lane 5) (.margin 3 20)).wf = true := by decide

theorem test_management_link_of_three_lanes : (Instr.mgmtPortEvent (.linkUp 3 3)).wf = false ∧ (Instr.mgmtPortEvent (.linkUp 0 4)).wf = false ∧
    (Instr.mgmtPortEvent (.linkUp 3 4)).wf = true := by decide

theorem test_table_entry_in_the_aperture : (Instr.tableRewrite 0x1000000 true true).wf = false ∧
  (Instr.tableRewrite 0xD10000 true true).wf = true := by decide

theorem test_aperture_access_below_it : (Instr.apertureAccess .commander 0xFFFFF8 8 none).wf = false ∧
    (Instr.apertureAccess .commander 0x1000000 8 none).wf = true := by decide

theorem test_telemetry_of_six_rails : (Instr.telemetryUpdate 0 0 0 (List.replicate 6 (0, 0, true)) (List.replicate 26 (0, 0))).wf = false ∧
    (Instr.telemetryUpdate 0 0 0 (List.replicate 7 (0, 0, true)) (List.replicate 26 (0, 0))).wf = true := by decide

theorem test_host_link_of_three_lanes : (Instr.hostLinkUp 0 6 3 true).wf = false ∧ (Instr.hostLinkUp 0 7 16 true).wf = false ∧
    (Instr.hostLinkUp 0 6 16 true).wf = true := by decide

theorem test_life_below_its_bound : (Instr.ageingRead 0 5 6 0 0 0).wf = false ∧ (Instr.ageingRead 0 6 5 0 0 0).wf = true := by decide

/-! Premises: for each claim of the obligations, states and operands that meet the premises of each of its clauses together. -/
namespace Sys2Proof.Tests

set_option Elab.async false
/-- A module in Endpoint mode, 5 ms after its reset, that no master owns; its fuses hold no identity certificate. -/
def base : State :=
  ((State.reset.wr R.GLB_MODE_STAT_MODE 1).wr R.GLB_MAINT_CTL_OWNER 0xFFF |>.withNow 5000000).withSec { State.reset.sec with cert := [] }

/-- A property of every number below 4,096, row by row. -/
theorem all4096 (P : Nat → Prop) (h : ∀ a b : Fin 64, P (64 * a.val + b.val)) (j : Fin 4096) : P j.val := by
  have e := h ⟨j.val / 64, by omega⟩ ⟨j.val % 64, by omega⟩
  rwa [Nat.div_add_mod] at e

/-- Port 0 with a row at the head of its delineated stream. -/
def holding (b : BitVec 4224) (s : State) : State :=
  s.modPort 0 (fun x => { x with delineated := true, rxl := { live := true, msg := b.toNat, len := 4224 } })

theorem holding_port (b : BitVec 4224) (s : State) : (holding b s).port 0 =
    { s.port 0 with delineated := true, rxl := { live := true, msg := b.toNat, len := 4224 } } := by
  simp [holding, modPort, port, setPort]

theorem holding_headRow (b : BitVec 4224) (s : State) : (holding b s).headRow 0 = some (b, false) := by
  simp [headRow, holding_port]

theorem holding_headCtrl (q : Square) (t : Nat) (s : State) (h : rowBody (ctrlRow q) < 2 ^ 4192)
    (d : ctrlOf (rowDecode (BitVec.ofNat 4224 (rowBody (ctrlRow q) * 2 ^ 32))) = some q) (k : cmType q = t) :
    (holding (rowEncode (ctrlRow q)) s).headCtrl 0 t = some q := by
  have e := (congrArg ctrlOf (rowDecode_rowEncode (ctrlRow q) h)).trans d
  simp [headCtrl, holding_headRow, holding_port, rowCrcOk_rowEncode _ h, e, k]

/-- A property of the objects of a table that a Bool computes. -/
theorem objects {α : Type} {P : α →
                            Prop} [DecidablePred P] (l : List (Nat × Option α)) (h : l.all (fun v => v.2.all (fun q => decide (P q))) = true) :
    ∀ v ∈ l, ∀ q, v.2 = some q → P q := by
  intro v m q e
  have a := List.all_eq_true.mp h v m
  simpa [e] using a

end Sys2Proof.Tests

namespace Sys2Proof.Tests.L1

set_option Elab.async false

def ls : List Nat := [0, 1, 511, 170]

def prep1 (s : State) : State := ls.foldl (fun s l => (s.wr (R.LT_LANE_STAT_LOS (l/32) (l%32)) 1 |>.wr (R.LT_LANE_STAT_COMMA_LOCK (l/32)
  (l%32)) 1 |>.wr (R.LT_LANE_CTL_PAT_CHK (l/32) (l%32)) 1 |>.wr (R.LT_PAT_STAT_PAT_LOCK (l/32) (l%32)) 1 |>.wr (R.LT_PAT_UI (l/32) (l%32))
  1000).setLane l {s.lane l with scan := some (0, 5), detectAt := some 3, symWin := 2^20, runs := 2, usable := 1}) s

def prep2 (s : State) : State := (List.range 16).foldl (fun s t => (s.wr (R.LT_TILE_STAT_WIDTH t) 0x6D6D).wr (R.LT_HEALTH_UNHEALTHY t)
  0xFFF0F00F) s

def iso (s : State) : State := ls.foldl (fun s l => (s.setIsolated (16 + l/4) true).setLane l {}) s

def y0 := (prep2 (List.foldl (fun s l => s.setLane l { detectAt := some 3, runs := 2, usable := 1, symWin := 2 ^ 20 : LaneSt })
  (base.withNow 50000000) ls))

/-- Port 0 with two lanes, aligned, in link state st; its checkers and lanes as `prep2` leaves them. -/
def inState (st : Nat) : State := ((prep2 base).wr (R.LNK_STAT_STATE 0 0) st).modPort 0 (fun x => { x with aligned := true })

/-- 80 levels of pattern 1. -/
def patLv : BitVec 160 := BitVec.ofNat 160 ((patLevels 1 1 80).1.foldl (fun a v => 4 * a + v.val) 0)

/-- The levels of a comma block that lane 0 of module 3 sends. -/
def commaLv : BitVec 800 := BitVec.ofNat 800 ((commaLevels (commaWord { laneId := 0, plane := 0, width := 1, rate := 1, precode := false, mdl := 3,
                                                                        ccount := 1 })).foldl
  (fun a v => 4 * a + v.val) 0)

/-- Lane 0 isolated, its checker on for pattern 1. -/
def checking : State := ((prep2 base).setIsolated 16 true).wr (R.LT_LANE_CTL_PAT_CHK 0 0) 1 |>.wr (R.LT_LANE_CTL_PAT_SEL 0 0) 1

/-- Levels of a received word whose last 30 symbols are wrong. -/
def errLv : BitVec 5440 := BitVec.ofNat 5440 ((2 ^ 150 - 1) / 1023 * (2 ^ 2720 + 1))

theorem received_zeros : receivedWord (inState 7) 0 0 = List.replicate 544 0 := by decide +kernel

theorem received_one : receivedWord (inState 7) 0 1 = List.replicate 543 0 ++ [1] := by decide +kernel

theorem received_errors : receivedWord (inState 7) 0 errLv = List.replicate 514 0 ++ List.replicate 30 1 := by decide +kernel

theorem zeros_decode : rsDecode (List.replicate 544 0) = some (List.replicate 544 0, []) := by decide +kernel

theorem one_corrected : rsDecode (List.replicate 543 0 ++ [1]) = some (List.replicate 544 0, [543]) := by decide +kernel

theorem errors_uncorrectable : rsDecode (List.replicate 514 0 ++ List.replicate 30 1) = none := by decide +kernel

theorem witness_LaneSignal :
    (∃ (l : Fin 512) (s : State), let p := s.portOfLane l; let st := s.linkState p; let used := s.formed p = true ∧ l.val ∈ s.usedLanes p; (st = 0 ∨
      ¬ used)) ∧
    (∃ (l : Fin 512) (s : State), let p := s.portOfLane l; let st := s.linkState p; let used := s.formed p = true ∧ l.val ∈ s.usedLanes p; used ∧
      1 ≤ st ∧ st ≤ 6) ∧
    (∃ (l : Fin 512) (s : State), let p := s.portOfLane l; let st := s.linkState p; let used := s.formed p = true ∧ l.val ∈ s.usedLanes p; used ∧
      st = 7) :=
  ⟨⟨0, base, by decide +kernel⟩,
    ⟨0, inState 3, by decide +kernel⟩,
    ⟨0, inState 7, by decide +kernel⟩⟩

theorem witness_LaneControl :
    (∃ (m : Master) (l : Fin 512) (h : Half) (v : BitVec 64) (s : State), let t := l.val / 32; let i := l.val % 32; let n := v.toNat; h ≠ .high ∧
      Reaches s m (0x100110 + 0x10000 * t + 0x80 * i) ∧ eqLegal (bitsOf n 0 7) (bitsOf n 8 7) (bitsOf n 16 7) = true) ∧
    (∃ (m : Master) (l : Fin 512) (h : Half) (v : BitVec 64) (s : State), let t := l.val / 32; let i := l.val % 32; let n := v.toNat; h ≠ .high ∧
      Reaches s m (0x100110 + 0x10000 * t + 0x80 * i) ∧ eqLegal (bitsOf n 0 7) (bitsOf n 8 7) (bitsOf n 16 7) = false) ∧
    (∃ (m : Master) (l : Fin 512) (h : Half) (s : State), let t := l.val / 32; let i := l.val % 32; h ≠ .high ∧
      Reaches s m (0x100100 + 0x10000 * t + 0x80 * i)) :=
  ⟨⟨Master.arbiter, 0, Half.full, BitVec.ofNat 64 2667587584, base, by decide +kernel⟩,
    ⟨Master.arbiter, 0, Half.full, 0, base, by decide +kernel⟩,
    ⟨Master.arbiter, 0, Half.full, base, by decide +kernel⟩⟩

theorem witness_CommaBlock :
    (∃ (l : Fin 512) (lv : BitVec 800) (s : State), let t := l.val / 32; let i := l.val % 32; s.nearLoop l = false ∧
      (s.rd (R.LT_LANE_STAT_LOS t i) = 1 ∨ (commaRun lv = none ∧ s.laneSource l ≠ 4))) ∧
    (∃ (l : Fin 512) (s : State), let n := s.lane l; s.nearLoop l = true ∧ n.near.length < 400) ∧
    (∃ (l : Fin 512) (lv : BitVec 800) (inv : Bool) (s : State), let t := l.val / 32; let i := l.val % 32; s.rd (R.LT_LANE_STAT_LOS t i) = 0 ∧
      s.nearLoop l = false ∧ commaRun lv = some inv) :=
  ⟨⟨0, commaLv, (prep2 base).wr (R.LT_LANE_STAT_LOS 0 0) 1, by decide +kernel⟩,
    ⟨0, ((prep2 base).setIsolated 16 true).wr (R.LT_LANE_CTL_LPBK 0 0) 1, by decide +kernel⟩,
    ⟨0, commaLv, false, (prep2 base).wr (R.LT_LANE_STAT_LOS 0 0) 0, by decide +kernel⟩⟩

theorem witness_LaneHealth :
    (∃ (p : Fin 256) (s : State), let lanes := s.usedLanes p; let st := s.port p; (∀ l ∈ lanes, s.laneSource l ≠ 4 ∧ s.nearLoop l = false) ∧
      (s.formed p = false ∨ st.aligned = false)) ∧
    (∃ (p : Fin 256) (lv : BitVec 5440) (s : State), let lanes := s.usedLanes p; let st := s.port p; let word := receivedWord s p lv; (∀ l ∈ lanes,
      s.laneSource l ≠ 4 ∧ s.nearLoop l = false) ∧ s.formed p = true ∧ st.aligned = true ∧ rsDecode word = none) ∧
    (∃ (p : Fin 256) (lv : BitVec 5440) (s : State) (w : List Nat), let lanes := s.usedLanes p; let st := s.port p; let word := receivedWord s p lv;
      (∀ l ∈ lanes, s.laneSource l ≠ 4 ∧ s.nearLoop l = false) ∧ s.formed p = true ∧ st.aligned = true ∧ rsDecode word = some (w, [])) ∧
    (∃ (p : Fin 256) (lv : BitVec 5440) (s : State) (w pos : List Nat), let lanes := s.usedLanes p; let st := s.port p;
      let word := receivedWord s p lv; (∀ l ∈ lanes, s.laneSource l ≠ 4 ∧ s.nearLoop l = false) ∧ s.formed p = true ∧ st.aligned = true ∧
      rsDecode word = some (w, pos) ∧ pos ≠ []) ∧
    (∃ (l : Fin 512) (s : State), let st := s.lane l; let win := s.winIdx 1000000; win = st.symIdx) ∧
    (∃ (l : Fin 512) (s : State), let st := s.lane l; let win := s.winIdx 1000000; win ≠ st.symIdx) ∧
    (∃ (l : Fin 512) (s : State) (t0 : Nat), let st := s.lane l; st.detectAt = some t0 ∧ t0 + 40000000 ≤ s.now ∧
      s.rd (R.LT_LANE_STAT_COMMA_LOCK (l.val / 32) (l.val % 32)) = 0) ∧
    (∃ (m : Master) (t : Fin 16) (s : State), Reaches s m (0x100008 + 0x10000 * t.val)) :=
  ⟨⟨0, base, by decide +kernel⟩,
    ⟨0, errLv, inState 7, by decide +kernel, by decide +kernel, by decide +kernel, (congrArg rsDecode received_errors).trans errors_uncorrectable⟩,
    ⟨0, 0, inState 7, List.replicate 544 0, by decide +kernel, by decide +kernel, by decide +kernel,
      (congrArg rsDecode received_zeros).trans zeros_decode⟩,
    ⟨0, 1, inState 7, List.replicate 544 0, [543], by decide +kernel, by decide +kernel, by decide +kernel,
      (congrArg rsDecode received_one).trans one_corrected, by decide⟩,
    ⟨0, base.setLane 0 { symIdx := base.winIdx 1000000 }, by decide +kernel⟩,
    ⟨0, base, by decide +kernel⟩,
    ⟨0, y0, 3, by decide +kernel⟩,
    ⟨Master.arbiter, 0, base, by decide +kernel⟩⟩

theorem witness_LanePattern :
    (∃ (l : Fin 512) (s : State) (lv : BitVec 160) (inv : Bool), let t := l.val / 32; let i := l.val % 32;
      let sel := s.rd (R.LT_LANE_CTL_PAT_SEL t i); s.rd (R.LT_LANE_CTL_PAT_CHK t i) = 1 ∧ s.rd (R.LT_PAT_STAT_PAT_LOCK t i) = 0 ∧
      s.groupIsolated (l.val / 4) = true ∧ ((s.nearLoop l = false ∧ patLocks sel (patOf lv) = some inv) ∨ (s.nearLoop l = true ∧
      s.laneSource l = sel ∧ sel ≠ 0 ∧ inv = false))) ∧
    (∃ (l : Fin 512) (s : State) (errs : BitVec 64), (errs.toNat < 256 ∨ 2 * min 1024 (s.patLevelsSince l) < errs.toNat)) ∧
    (∃ (l : Fin 512) (s : State) (errs : BitVec 64), let t := l.val / 32; let i := l.val % 32; s.rd (R.LT_PAT_STAT_PAT_LOCK t i) = 1 ∧
      256 ≤ errs.toNat ∧ s.nearLoop l = false ∧ errs.toNat ≤ 2 * min 1024 (s.patLevelsSince l)) ∧
    (∃ (l : Fin 512) (s : State) (m : Master) (v : BitVec 64), let t := l.val / 32; let i := l.val % 32;
      Reaches s m (0x100130 + 0x10000 * t + 0x80 * i) ∧ v.toNat.testBit 31 = true ∧ s.groupIsolated (l.val / 4) = true ∧ (s.lane l).scan = none) ∧
    (∃ (l : Fin 512) (s : State) (dwell start : Nat), let t := l.val / 32; let rate := levelRate (s.rd (R.LT_TILE_STAT_RATE t));
      (s.lane l).scan = some (dwell, start) ∧ 2 ^ (dwell + 20) ≤ (s.now - start) * rate) ∧
    (∃ (l : Fin 512) (s : State) (dwell start : Nat), let t := l.val / 32; let rate := levelRate (s.rd (R.LT_TILE_STAT_RATE t));
      (s.lane l).scan = some (dwell, start) ∧ (s.now - start) * rate < 2 ^ (dwell + 20)) :=
  ⟨⟨0, checking, patLv, false, by decide +kernel⟩,
    ⟨0, prep1 base, 256, by decide +kernel⟩,
    ⟨0, ((prep1 base).wr (R.LT_TILE_STAT_RATE 0) 1).withNow 10, 256, by decide +kernel⟩,
    ⟨0, iso (prep2 base), Master.arbiter, BitVec.ofNat 64 (2 ^ 64 - 1), by decide +kernel⟩,
    ⟨0, (prep1 base).wr (R.LT_TILE_STAT_RATE 0) 1, 0, 5, by decide +kernel⟩,
    ⟨0, (prep1 base).wr (R.LT_TILE_STAT_RATE 0) 1 |>.withNow 37454, 0, 5, by decide +kernel⟩⟩

end Sys2Proof.Tests.L1

namespace Sys2Proof.Tests.L2

set_option Elab.async false

def own (m : Nat) (s : State) : State := (s.wr R.GLB_MAINT_CTL_OWNER m).wr R.GLB_MODE_STAT_MAINT 1

def q (c : ArbCmd) (s : State) : State := s.withArb { s.arb with queue := [c], begun := true }

def stp (s : State) : State := (List.range 16).foldl (fun s k => s.setIsland k 1) s

theorem witness_IsolationEnds :
    (∃ (s : State) (c : ArbCmd), s.arb.queue = [c] ∧ s.arb.begun = true ∧ (c = .isolateAll ∨ c = .releaseAll ∨ (∃ u f, c = .isolate u f) ∨ ∃ u,
      c = .release u)) ∧
    (∃ (s : State) (c : ArbCmd), let back := fun (u : Nat) => 16 ≤ u ∧ u < 144 ∧ s.groupBack (u - 16) = true; s.arb.queue = [c] ∧ s.arb.begun = true ∧
      c = .leave ∧ (∀ u ∈ s.arb.returning, back u)) ∧
    (∃ (s : State) (c : ArbCmd), let back := fun (u : Nat) => 16 ≤ u ∧ u < 144 ∧ s.groupBack (u - 16) = true; s.arb.queue = [c] ∧ s.arb.begun = true ∧
      c = .leave ∧ (∃ u ∈ s.arb.returning, ¬ back u)) :=
  ⟨⟨q (ArbCmd.isolate 3 true) (own 1 base), ArbCmd.isolate 3 true, by decide +kernel, by decide +kernel, .inr (.inr (.inl ⟨3, true, rfl⟩))⟩,
    ⟨q ArbCmd.leave (own 1 base), ArbCmd.leave, by decide +kernel⟩,
    ⟨(q ArbCmd.leave (own 1 base)).withArb { (q ArbCmd.leave (own 1 base)).arb with returning := [690] }, ArbCmd.leave, by decide +kernel⟩⟩

theorem witness_IslandCommands :
    (∃ (k : Fin 16) (s : State), s.rd (R.GLB_ISLAND_STAT_ISL k.val) = 1) ∧
    (∃ (m : Master) (k : Fin 16) (s : State), Reaches s m 0x20040 ∧ Idle s ∧ s.rd R.PWR_ISL_STAT_BUSY = 0 ∧ s.inRecovery = false ∧
      s.isolated k.val = false ∧ s.arb.stoppedUnits = [] ∧ s.rd (R.GLB_ISLAND_STAT_ISL k.val) = 0 ∧ (∀ i : Fin 16,
      s.linkState (16 * k.val + i.val) = 0)) ∧
    (∃ (m : Master) (k : Fin 16) (s : State), Reaches s m 0x20040 ∧ Idle s ∧ s.rd R.PWR_ISL_STAT_BUSY = 0 ∧ s.inRecovery = false ∧
      s.isolated k.val = false ∧ s.arb.stoppedUnits = [] ∧ s.rd (R.GLB_ISLAND_STAT_ISL k.val) = 1) ∧
    (∃ (m : Master) (k : Fin 16) (s : State), Reaches s m 0x20040 ∧ Idle s ∧ s.rd R.PWR_ISL_STAT_BUSY = 0 ∧ s.inRecovery = false ∧
      s.isolated k.val = false ∧ s.arb.stoppedUnits = [] ∧ s.rd (R.GLB_ISLAND_STAT_ISL k.val) ≠ 3) ∧
    (∃ (k : Fin 26) (s : State), s.island k.val ≠ 1) ∧
    (∃ (s : State) (k a : Nat), s.arb.queue = [.island k a] ∧ s.arb.begun = true) :=
  ⟨⟨0, stp base, by decide +kernel⟩,
    ⟨Master.arbiter, 0, base, by decide +kernel⟩,
    ⟨Master.arbiter, 0, stp base, by decide +kernel⟩,
    ⟨Master.arbiter, 0, base, by decide +kernel⟩,
    ⟨0, base, by decide +kernel⟩,
    ⟨q (ArbCmd.island 3 1) (own 1 base), 3, 1, by decide +kernel⟩⟩

theorem witness_CastleStrobes :
    (∃ (m : Master) (mask : BitVec 64) (s : State), Reaches s m 0x200 ∧ Idle s ∧ s.rd R.GLB_STROBE_STAT_BUSY = 0 ∧ s.inRecovery = false ∧
      maskOk mask.toNat = true) ∧
    (∃ (mask : Nat) (src : StrobeSrc) (s : State), s.arb.queue = [.strobe mask src] ∧ s.rd R.FLT_ARB_STAT_STATE = 0 ∧ s.copying = [] ∧ src = .reg) ∧
    (∃ (mask : Nat) (src : StrobeSrc) (s : State), s.arb.queue = [.strobe mask src] ∧ s.rd R.FLT_ARB_STAT_STATE = 0 ∧ (∃ q ∈ maskParts mask,
      q ∈ s.copying)) :=
  ⟨⟨Master.arbiter, 15, base, by decide +kernel⟩,
    ⟨1, StrobeSrc.reg, q (ArbCmd.strobe 1 StrobeSrc.reg) (own 1 base), by decide +kernel⟩,
    ⟨1, StrobeSrc.reg, (q (ArbCmd.strobe 1 StrobeSrc.reg) (own 1 base)).withCopying [0], by decide +kernel⟩⟩

end Sys2Proof.Tests.L2

namespace Sys2Proof.Tests.L2b

set_option Elab.async false

def own (m : Nat) (s : State) : State := (s.wr R.GLB_MAINT_CTL_OWNER m).wr R.GLB_MODE_STAT_MAINT 1

def q (c : ArbCmd) (s : State) : State := s.withArb { s.arb with queue := [c], begun := true }

theorem witness_EnterTakesOwnership :
    ∃ (m : Master) (s : State), Reaches s m 0x108 ∧ Idle s ∧ s.rd R.GLB_ISO_STAT_BUSY = 0 ∧ s.inRecovery = false ∧
      (s.rd R.GLB_MAINT_CTL_OWNER = 0xFFF ∨ s.rd R.GLB_MAINT_CTL_OWNER = m.id ∨ (s.rd R.GLB_MAINT_CTL_OWNER = 2 ∧ m = .commander)) :=
  ⟨.arbiter, base, by decide +kernel⟩

theorem witness_MaintenanceRefusals :
    (∃ (m : Master) (s : State), Reaches s m 0x108 ∧ s.rd R.GLB_ISO_STAT_BUSY = 1) ∧
    (∃ (m : Master) (s : State), Reaches s m 0x108 ∧ s.rd R.GLB_ISO_STAT_BUSY = 0 ∧ s.inRecovery = true) ∧
    (∃ (m : Master) (s : State), Reaches s m 0x108 ∧ s.rd R.GLB_ISO_STAT_BUSY = 0 ∧ s.inRecovery = false ∧ s.rd R.GLB_MAINT_CTL_OWNER ≠ 0xFFF ∧
      s.rd R.GLB_MAINT_CTL_OWNER ≠ m.id ∧ (s.rd R.GLB_MAINT_CTL_OWNER ≠ 2 ∨ m ≠ .commander)) ∧
    (∃ (m : Master) (s : State), Reaches s m 0x108 ∧ s.rd R.GLB_ISO_STAT_BUSY = 0 ∧ (s.rd R.GLB_MODE_STAT_MAINT = 0 ∨
      s.rd R.GLB_MAINT_CTL_OWNER ≠ m.id)) ∧
    (∃ (m : Master) (u : BitVec 9) (force all : Bool) (s : State), ∃ c, Reaches s m 0x110 ∧ c ∈ [Instr.isoIsolate m u force, .isoRelease m u all,
      .isoAll m u] ∧ s.rd R.GLB_ISO_STAT_BUSY = 1) ∧
    (∃ (m : Master) (u : BitVec 9) (force all : Bool) (s : State), ∃ c, Reaches s m 0x110 ∧ c ∈ [Instr.isoIsolate m u force, .isoRelease m u all,
      .isoAll m u] ∧ s.rd R.GLB_ISO_STAT_BUSY = 0 ∧ s.rd R.GLB_MODE_STAT_MAINT = 0) ∧
    (∃ (m : Master) (u : BitVec 9) (force all : Bool) (s : State), ∃ c, Reaches s m 0x110 ∧ c ∈ [Instr.isoIsolate m u force, .isoRelease m u all,
      .isoAll m u] ∧ s.rd R.GLB_ISO_STAT_BUSY = 0 ∧ s.rd R.GLB_MODE_STAT_MAINT = 1 ∧ s.rd R.GLB_MAINT_CTL_OWNER ≠ m.id) :=
  ⟨⟨Master.arbiter, base.wr R.GLB_ISO_STAT_BUSY 1, by decide +kernel⟩,
    ⟨Master.arbiter, base.wr R.GLB_MODE_STAT_MODE 0, by decide +kernel⟩,
    ⟨Master.arbiter, own 1 base, by decide +kernel⟩,
    ⟨Master.arbiter, base, by decide +kernel⟩,
    ⟨Master.arbiter, 0, true, true, base.wr R.GLB_ISO_STAT_BUSY 1, Instr.isoIsolate .arbiter 0 true, by decide +kernel⟩,
    ⟨Master.arbiter, 0, true, true, base, Instr.isoIsolate .arbiter 0 true, by decide +kernel⟩,
    ⟨Master.arbiter, 0, true, true, own 1 base, Instr.isoIsolate .arbiter 0 true, by decide +kernel⟩⟩

theorem witness_IsolationBegins :
    (∃ (m : Master) (u : BitVec 9) (s : State) (g : Fin 128), s.rd R.GLB_ISO_STAT_BUSY = 0 ∧ s.rd R.GLB_MODE_STAT_MAINT = 1 ∧
      s.rd R.GLB_MAINT_CTL_OWNER = m.id ∧ Reaches s m 0x110 ∧ u.toNat = 16 + g.val ∧ Idle s ∧ s.groupWidth g.val < 3 ∧
      s.unitFree (16 + g.val) = true ∧ s.arb.stoppedUnits = [] ∧ s.linkState (2 * g.val) = 0 ∧ s.linkState (2 * g.val + 1) = 0) ∧
    (∃ (m : Master) (s : State), s.rd R.GLB_ISO_STAT_BUSY = 0 ∧ s.rd R.GLB_MODE_STAT_MAINT = 1 ∧ s.rd R.GLB_MAINT_CTL_OWNER = m.id ∧
      Reaches s m 0x108) :=
  ⟨⟨Master.arbiter, 16, own 0 base, 0, by decide +kernel⟩,
    ⟨Master.arbiter, own 0 base, by decide +kernel⟩⟩

theorem witness_Reconfiguration :
    (∃ (m : Master) (kind : BitVec 2) (i : BitVec 7) (s : State), Reaches s m 0x300 ∧ s.rd R.GLB_RECONF_STAT_BUSY = 0 ∧ kind = 0 ∧ Idle s ∧
      s.inRecovery = false ∧ s.isolated (16 + i.toNat) = false ∧ s.isolated (i.toNat / 8) = false ∧ s.groupWidth i.toNat < 3 ∧
      s.arb.stoppedUnits = [] ∧ s.linkState (2 * i.toNat) = 0 ∧ s.linkState (2 * i.toNat + 1) = 0) ∧
    (∃ (s : State) (kind i a : Nat), s.arb.queue = [.reconf kind i a] ∧ s.arb.begun = true) :=
  ⟨⟨Master.arbiter, 0, 0, base, by decide +kernel⟩,
    ⟨q (ArbCmd.reconf 0 3 1) base, 0, 3, 1, by decide +kernel⟩⟩

end Sys2Proof.Tests.L2b

namespace Sys2Proof.Tests.L3

set_option Elab.async false

def ps : List Nat := [0, 1, 255, 85]

def wide : State := (List.range 16).foldl (fun s t => s.wr (R.LT_TILE_STAT_WIDTH t) 0x5555) base

def wide2 : State := (List.range 16).foldl (fun s t => s.wr (R.LT_TILE_STAT_WIDTH t) 0xAAAA) (base.withNow 400000000)

def stt (k : Nat) (s : State) : State := ps.foldl (fun s p => s.setLinkState p k) s

def mod (f : PortSt → PortSt) (s : State) : State := ps.foldl (fun s p => s.modPort p f) s

def fr : FrameRx := { t2 := 777, slots := [0,0,1,2,3,0,0,1,3,4,0x0507,0x0303,0,0,0,0], complete := true}

def rr : RepRow := {seq := 9, squares := [], hdr := 0, shared := 0, abort := false, firstTx := 0}

def y0 := (List.foldl (fun s p => ((s.wr (R.LNK_REPLAY_STAT_REPLAY_RUN (p / 2) (p % 2)) 15).wr (R.LNK_CTL_DEGRADE_EN (p / 2) (p % 2)) 1).wr
  (R.LNK_STAT_LEADER (p / 2) (p % 2)) 1) (mod (fun x => { x with delineated := true, aligned := true, eqDone := true, peerDone := true,
                                                                 replay := [rr], marks := [(7, 99)], frameRx := some fr, lastFrame := some (66, 5),
                                                                 rttWin := some 5 : PortSt })
  (stt (nat_lit 2) wide2)) ps)

/-- The LRESET message. -/
def lr : Square := mkArea [(0, 1, 4)]

theorem witness_LinkResets :
    (∃ (p : Fin 256) (s : State), s.headCtrl p 4 = none) ∧
    (∃ (p : Fin 256) (s : State) (q : Square), s.headCtrl p 4 = some q ∧ s.linkState p = 7) ∧
    (∃ (p : Fin 256) (s : State) (q : Square), s.headCtrl p 4 = some q ∧ s.linkState p = 1) ∧
    (∃ (p : Fin 256) (s : State) (q : Square), s.headCtrl p 4 = some q ∧ 2 ≤ s.linkState p ∧ s.linkState p ≤ 6) ∧
    (∃ (p : Fin 256) (s : State), let st := s.port p; s.linkState p = 1 ∧ st.resetAt + 11000 ≤ s.now ∧ (∀ t0 : Nat, st.lastTrain = some t0 →
      t0 + 1000000 ≤ s.now)) ∧
    (∃ (p : Fin 256) (s : State), let i := p.val / 2; let j := p.val % 2; let st := s.port p; 2 ≤ s.linkState p ∧ s.linkState p ≤ 6 ∧
      st.trainAt + max 10 (s.rd (R.LNK_ERR_CFG_TRAIN_TIMEOUT i j)) * 1000000 ≤ s.now) ∧
    (∃ (p : Fin 256) (s : State), let i := p.val / 2; let j := p.val % 2; let st := s.port p; s.linkState p = 2 ∧ st.trainAt + 20000000 ≤ s.now ∧
      s.rd (R.LNK_CTL_DEGRADE_EN i j) = 1 ∧ 2 < s.portLanes p ∧ st.degraded = false) ∧
    (∃ (p : Fin 256) (m : Master) (s : State), let i := p.val / 2; let j := p.val % 2; Reaches s m (0x200000 + 0x1000 * i + 0x800 * j) ∧
      s.formed p = true ∧ s.linkState p = 7) ∧
    (∃ (p : Fin 256) (m : Master) (s : State), let i := p.val / 2; let j := p.val % 2; Reaches s m (0x200000 + 0x1000 * i + 0x800 * j) ∧
      s.formed p = true ∧ 1 ≤ s.linkState p ∧ s.linkState p ≤ 6) ∧
    (∃ (p : Fin 256) (m : Master) (s : State), let i := p.val / 2; let j := p.val % 2; Reaches s m (0x200000 + 0x1000 * i + 0x800 * j) ∧
      s.formed p = true ∧ s.linkState p ≠ 0) ∧
    (∃ (p : Fin 256) (m : Master) (s : State), let i := p.val / 2; let j := p.val % 2; Reaches s m (0x200000 + 0x1000 * i + 0x800 * j) ∧
      s.formed p = true ∧ s.linkState p = 0 ∧ (s.wr (R.LNK_CTL_DISABLE i j) 0).heldDisabled p = false) :=
  ⟨⟨0, base, by decide +kernel⟩,
    ⟨0, holding (rowEncode (ctrlRow (lr))) (stt 7 wide), lr,
      holding_headCtrl (lr) 4 (stt 7 wide) (by decide +kernel) (by decide +kernel) (by decide +kernel), by decide +kernel⟩,
    ⟨0, holding (rowEncode (ctrlRow (lr))) (stt 1 wide), lr,
      holding_headCtrl (lr) 4 (stt 1 wide) (by decide +kernel) (by decide +kernel) (by decide +kernel), by decide +kernel⟩,
    ⟨0, holding (rowEncode (ctrlRow (lr))) (stt 2 wide), lr,
      holding_headCtrl (lr) 4 (stt 2 wide) (by decide +kernel) (by decide +kernel) (by decide +kernel), by decide +kernel⟩,
    ⟨0, stt 1 wide, by decide +kernel⟩,
    ⟨0, stt 2 wide2, by decide +kernel⟩,
    ⟨0, y0, by decide +kernel⟩,
    ⟨0, .arbiter, stt 7 wide, by decide +kernel⟩,
    ⟨0, .arbiter, stt 2 wide, by decide +kernel⟩,
    ⟨0, .arbiter, stt 1 wide, by decide +kernel⟩,
    ⟨0, .arbiter, stt 0 wide, by decide +kernel⟩⟩

end Sys2Proof.Tests.L3

namespace Sys2Proof.Tests.L3b

set_option Elab.async false

def wide : State := (List.range 16).foldl (fun s t => s.wr (R.LT_TILE_STAT_WIDTH t) 0x5555) base

def stt (k : Nat) (s : State) : State := s.setLinkState 0 k

def mod (f : PortSt → PortSt) (s : State) : State := s.modPort 0 f

def fr : FrameRx := { t2 := 777, slots := [0,0,1,2,3,0,0,1,3,4,0x0507,0x0303,0,0,0,0], complete := true}

def rr : RepRow := {seq := 9, squares := [], hdr := 0, shared := 0, abort := false, firstTx := 0}

def ready : State := mod (fun x => {x with aligned := true, delineated := true, peerDone := true, eqDone := true, frameRx := some fr,
                                           rttWin := some 55, badWin := 1000000})
  wide

def late : State := ((mod (fun x => {x with aligned := true, delineated := true, frameRx := some fr, peerDone := true, eqDone := true,
                                            lastFrame := some (66, 5), marks := [(7, 99)], replay := [rr], rttWin := some 5, peerReady := true})
  wide).wr (R.LNK_REPLAY_STAT_REPLAY_RUN 0 0) 15 |>.wr (R.LNK_STAT_LEADER 0 0) 1).withNow 400000000

def rowz : Row := {ctrlRow 0 with ty := 0, nsq := 0, squares := []}

/-- A control message of type t whose sender is another module, with these flags. -/
def msg (t flags : Nat) : Square := mkArea [(0, 1, t), (2, 8, 77), (11, 1, flags), (14, 2, 3)]

/-- The only square of a packet, handed over for transmission. -/
def sq : TxSq := { pid := 1, sq := 0, hdr := true, shared := false, vl := 0, count := 1, idx := 0, last := true, abort := false, cls := 0,
                   dep := none }

/-- Port 0 with a row of an uncorrectable codeword at its head. -/
def marked (s : State) : State := (holding 1 s).modPort 0 (fun x => { x with rxl := { x.rxl with bad := 1 } })

/-- Port 0 searching for delineation with a row at its head and three good rows behind it at this phase. -/
def searching (b : BitVec 4224) (s : State) : State := (holding b s).modPort 0 (fun x =>
  { x with delineated := false, rxl := { x.rxl with runs := [3] } })

theorem searching_headRow (b : BitVec 4224) (s : State) : (searching b s).headRow 0 = some (b, false) := by
  simp [headRow, searching, holding, modPort, port, setPort]

def rowd : Row := { rowz with ty := 1, nsq := 1, squares := [5] }

theorem witness_RowTransmit :
    (∃ (p : Fin 256) (s : State), let st := s.linkState p; let x := s.port p; st = 0 ∧ (∀ l ∈ s.lanesOf p, s.laneSource l = 0 ∨ s.laneSource l = 4) ∧
      x.lreset = none) ∧
    (∃ (p : Fin 256) (s : State) (t : Nat) (q : Square), let st := s.linkState p; let x := s.port p; st = 0 ∧ (∀ l ∈ s.lanesOf p, s.laneSource l = 0 ∨
      s.laneSource l = 4) ∧ x.lreset = some (t, q)) ∧
    (∃ (p : Fin 256) (s : State), let st := s.linkState p; st = 1) ∧
    (∃ (p : Fin 256) (s : State), let st := s.linkState p; (st = 2 ∨ st = 3 ∨ st = 4)) ∧
    (∃ (p : Fin 256) (s : State), let st := s.linkState p; st = 5) ∧
    (∃ (p : Fin 256) (s : State), let st := s.linkState p; st = 6) ∧
    (∃ (p : Fin 256) (s : State), let st := s.linkState p; let x := s.port p;
      let free := x.replaying = none ∨ ∃ e b : Nat, x.replaying = some (e, b, 4096); st = 7 ∧ free ∧ x.tx = [] ∧ x.replay.length < s.window p) ∧
    (∃ (p : Fin 256) (s : State), let st := s.linkState p; let x := s.port p;
      let free := x.replaying = none ∨ ∃ e b : Nat, x.replaying = some (e, b, 4096); st = 7 ∧ free ∧ s.window p ≤ x.replay.length) ∧
    (∃ (p : Fin 256) (s : State), let st := s.linkState p; let x := s.port p;
      let free := x.replaying = none ∨ ∃ e b : Nat, x.replaying = some (e, b, 4096); st = 7 ∧ free ∧ x.tx ≠ [] ∧ x.replay.length < s.window p) ∧
    (∃ (p : Fin 256) (s : State) (e b n : Nat) (r : RepRow), let st := s.linkState p; let x := s.port p; st = 7 ∧ x.replaying = some (e, b, n) ∧
      n ≠ 4096 ∧ x.replay.find? (fun r => r.seq == n) = some r) :=
  ⟨⟨0, stt 0 wide, by decide +kernel⟩,
    ⟨0, mod (fun x => { x with lreset := some (9, 5) }) (stt 0 wide), 9, 5, by decide +kernel⟩,
    ⟨0, stt 1 wide, by decide +kernel⟩,
    ⟨0, stt 2 wide, by decide +kernel⟩,
    ⟨0, stt 5 ready, by decide +kernel⟩,
    ⟨0, stt 6 ready, by decide +kernel⟩,
    ⟨0, stt 7 ready, by decide +kernel, .inl (by decide +kernel), by decide +kernel, by decide +kernel⟩,
    ⟨0, mod (fun x => { x with replay := List.replicate 496 rr }) (stt 7 ready), by decide +kernel, .inl (by decide +kernel), by decide +kernel⟩,
    ⟨0, mod (fun x => { x with tx := [sq] }) (stt 7 ready), by decide +kernel, .inl (by decide +kernel), by decide +kernel, by decide +kernel⟩,
    ⟨0, mod (fun x => { x with replay := [rr], replaying := some (9, 5, 9) }) (stt 7 ready), 9, 5, 9, rr, by decide +kernel⟩⟩

theorem witness_RowReceive :
    (∃ (p : Fin 256) (s : State), s.headRow p = none) ∧
    (∃ (p : Fin 256) (s : State) (b : BitVec 4224) (marked : Bool), let x := s.port p; let good := !marked && rowCrcOk b;
      let run := x.rxl.runs.getD (x.rxl.pos % 33) 0; s.headRow p = some (b, marked) ∧ x.delineated = false ∧ good = true ∧ 3 ≤ run) ∧
    (∃ (p : Fin 256) (s : State) (b : BitVec 4224) (marked : Bool), let x := s.port p; let good := !marked && rowCrcOk b;
      let run := x.rxl.runs.getD (x.rxl.pos % 33) 0; s.headRow p = some (b, marked) ∧ x.delineated = false ∧ (good = false ∨ run < 3) ∧
      (x.rxl.runs = [] ∨ x.rxl.runs.length = 33)) ∧
    (∃ (p : Fin 256) (s : State) (b : BitVec 4224) (marked : Bool), let x := s.port p; let good := !marked && rowCrcOk b; s.headRow p = some (b,
      marked) ∧ x.delineated = true ∧ good = false ∧ x.badRun < 15) ∧
    (∃ (p : Fin 256) (s : State) (b : BitVec 4224) (marked : Bool), let x := s.port p; let st := s.linkState p; let good := !marked && rowCrcOk b;
      s.headRow p = some (b, marked) ∧ x.delineated = true ∧ good = false ∧ 15 ≤ x.badRun ∧ 1 ≤ st ∧ st ≤ 6) ∧
    (∃ (p : Fin 256) (s : State) (b : BitVec 4224) (marked : Bool), let x := s.port p; let st := s.linkState p; let good := !marked && rowCrcOk b;
      s.headRow p = some (b, marked) ∧ x.delineated = true ∧ good = false ∧ 15 ≤ x.badRun ∧ st = 7) ∧
    (∃ (p : Fin 256) (s : State) (b : BitVec 4224) (marked : Bool) (q : Square), let x := s.port p; let good := !marked && rowCrcOk b;
      let r := rowDecode b; s.headRow p = some (b, marked) ∧ x.delineated = true ∧ good = true ∧ ctrlOf r = some q ∧ 1 ≤ cmType q ∧ cmType q ≤ 4) ∧
    (∃ (p : Fin 256) (s : State) (b : BitVec 4224) (marked : Bool), let x := s.port p; let good := !marked && rowCrcOk b; let r := rowDecode b;
      s.headRow p = some (b, marked) ∧ x.delineated = true ∧ good = true ∧ (r.ty = 3 ∨ nsqOk r = false)) ∧
    (∃ (p : Fin 256) (s : State) (b : BitVec 4224) (marked : Bool), let x := s.port p; let st := s.linkState p; let good := !marked && rowCrcOk b;
      let r := rowDecode b; s.headRow p = some (b, marked) ∧ x.delineated = true ∧ good = true ∧ r.ty.toNat < 2 ∧ nsqOk r = true ∧ st = 7) ∧
    (∃ (p : Fin 256) (s : State) (b : BitVec 4224) (marked : Bool), let i := p.val / 2; let j := p.val % 2; let x := s.port p;
      let st := s.linkState p; let good := !marked && rowCrcOk b; let r := rowDecode b; s.headRow p = some (b, marked) ∧ x.delineated = true ∧
      good = true ∧ r.ty.toNat < 2 ∧ nsqOk r = true ∧ st = 6 ∧ s.rd (R.LNK_STAT_LEADER i j) = 0 ∧ x.peerReady = true) ∧
    (∃ (p : Fin 256) (s : State) (b : BitVec 4224) (marked : Bool), let x := s.port p; let st := s.linkState p; let good := !marked && rowCrcOk b;
      let r := rowDecode b; s.headRow p = some (b, marked) ∧ x.delineated = true ∧ good = true ∧ r.ty.toNat < 2 ∧ nsqOk r = true ∧ r.ty = 0 ∧
      st < 6) ∧
    (∃ (p : Fin 256) (s : State) (b : BitVec 4224) (marked : Bool), let x := s.port p; let st := s.linkState p; let good := !marked && rowCrcOk b;
      let r := rowDecode b; s.headRow p = some (b, marked) ∧ x.delineated = true ∧ good = true ∧ r.ty.toNat < 2 ∧ nsqOk r = true ∧ r.ty = 1 ∧
      st < 6) :=
  ⟨⟨0, base, by decide +kernel⟩,
    ⟨0, searching (rowEncode rowz) (stt 3 ready), rowEncode rowz, false, searching_headRow _ _, by decide +kernel, by
        show (!false && rowCrcOk (rowEncode rowz)) = true
        rw [rowCrcOk_rowEncode rowz (by decide +kernel)]; rfl, by decide +kernel⟩,
    ⟨0, (marked (stt 3 ready)).modPort 0 (fun x => { x with delineated := false }), 1, true, by decide +kernel⟩,
    ⟨0, marked (stt 7 ready), 1, true, by decide +kernel⟩,
    ⟨0, mod (fun x => { x with badRun := 15 }) (marked (stt 2 ready)), 1, true, by decide +kernel⟩,
    ⟨0, mod (fun x => { x with badRun := 15 }) (marked (stt 7 ready)), 1, true, by decide +kernel⟩,
    ⟨0, holding (rowEncode (ctrlRow (msg 1 0))) (stt 3 ready), rowEncode (ctrlRow (msg 1 0)), false, msg 1 0, holding_headRow _ _, by decide +kernel,
      by
        show (!false && rowCrcOk (rowEncode (ctrlRow (msg 1 0)))) = true
        rw [rowCrcOk_rowEncode (ctrlRow (msg 1 0)) (by decide +kernel)]; rfl, by
        show ctrlOf (rowDecode (rowEncode (ctrlRow (msg 1 0)))) = some (msg 1 0)
        rw [rowDecode_rowEncode (ctrlRow (msg 1 0)) (by decide +kernel)]; decide +kernel, by decide +kernel⟩,
    ⟨0, holding (rowEncode { rowz with ty := 3 }) (stt 3 ready), rowEncode { rowz with ty := 3 }, false, holding_headRow _ _, by decide +kernel, by
        show (!false && rowCrcOk (rowEncode { rowz with ty := 3 })) = true
        rw [rowCrcOk_rowEncode { rowz with ty := 3 } (by decide +kernel)]; rfl, by
        show (rowDecode (rowEncode { rowz with ty := 3 })).ty = 3 ∨ nsqOk (rowDecode (rowEncode { rowz with ty := 3 })) = false
        rw [rowDecode_rowEncode { rowz with ty := 3 } (by decide +kernel)]; decide +kernel⟩,
    ⟨0, holding (rowEncode rowz) (stt 7 ready), rowEncode rowz, false, holding_headRow _ _, by decide +kernel, by
        show (!false && rowCrcOk (rowEncode rowz)) = true
        rw [rowCrcOk_rowEncode rowz (by decide +kernel)]; rfl, by
        show (rowDecode (rowEncode rowz)).ty.toNat < 2
        rw [rowDecode_rowEncode rowz (by decide +kernel)]; decide +kernel, by
        show nsqOk (rowDecode (rowEncode rowz)) = true
        rw [rowDecode_rowEncode rowz (by decide +kernel)]; decide +kernel, by decide +kernel⟩,
    ⟨0, holding (rowEncode rowz) (mod (fun x => { x with peerReady := true }) (stt 6 ready)), rowEncode rowz, false, holding_headRow _ _,
      by decide +kernel, by
        show (!false && rowCrcOk (rowEncode rowz)) = true
        rw [rowCrcOk_rowEncode rowz (by decide +kernel)]; rfl, by
        show (rowDecode (rowEncode rowz)).ty.toNat < 2
        rw [rowDecode_rowEncode rowz (by decide +kernel)]; decide +kernel, by
        show nsqOk (rowDecode (rowEncode rowz)) = true
        rw [rowDecode_rowEncode rowz (by decide +kernel)]; decide +kernel, by decide +kernel⟩,
    ⟨0, holding (rowEncode rowz) (stt 3 ready), rowEncode rowz, false, holding_headRow _ _, by decide +kernel, by
        show (!false && rowCrcOk (rowEncode rowz)) = true
        rw [rowCrcOk_rowEncode rowz (by decide +kernel)]; rfl, by
        show (rowDecode (rowEncode rowz)).ty.toNat < 2
        rw [rowDecode_rowEncode rowz (by decide +kernel)]; decide +kernel, by
        show nsqOk (rowDecode (rowEncode rowz)) = true
        rw [rowDecode_rowEncode rowz (by decide +kernel)]; decide +kernel, by
        show (rowDecode (rowEncode rowz)).ty = 0
        rw [rowDecode_rowEncode rowz (by decide +kernel)]; decide +kernel, by decide +kernel⟩,
    ⟨0, holding (rowEncode rowd) (stt 3 ready), rowEncode rowd, false, holding_headRow _ _, by decide +kernel, by
        show (!false && rowCrcOk (rowEncode rowd)) = true
        rw [rowCrcOk_rowEncode rowd (by decide +kernel)]; rfl, by
        show (rowDecode (rowEncode rowd)).ty.toNat < 2
        rw [rowDecode_rowEncode rowd (by decide +kernel)]; decide +kernel, by
        show nsqOk (rowDecode (rowEncode rowd)) = true
        rw [rowDecode_rowEncode rowd (by decide +kernel)]; decide +kernel, by
        show (rowDecode (rowEncode rowd)).ty = 1
        rw [rowDecode_rowEncode rowd (by decide +kernel)]; decide +kernel, by decide +kernel⟩⟩

theorem witness_ReplayTimers :
    (∃ (p : Fin 256) (s : State), let i := p.val / 2; let j := p.val % 2; let st := s.port p;
      max 1 (s.rd (R.LNK_ERR_CFG_BADROW_LIMIT i j)) ≤ st.badWin ∧ st.badHit = false ∧ s.rd (R.LNK_CTL_RETRAIN_ON_LIMIT i j) = 0) ∧
    (∃ (p : Fin 256) (s : State), let i := p.val / 2; let j := p.val % 2; let st := s.port p;
      max 1 (s.rd (R.LNK_ERR_CFG_BADROW_LIMIT i j)) ≤ st.badWin ∧ st.badHit = false ∧ s.rd (R.LNK_CTL_RETRAIN_ON_LIMIT i j) = 1) ∧
    (∃ (p : Fin 256) (s : State) (r : RepRow) (rest : List RepRow), let st := s.port p; st.replay = r :: rest ∧ s.linkState p = 7 ∧
      st.progressAt + s.replayTimeout p ≤ s.now) ∧
    (∃ (p : Fin 256) (s : State), let i := p.val / 2; let j := p.val % 2; s.linkState p = 7 ∧
      s.replayMax p ≤ s.rd (R.LNK_REPLAY_STAT_REPLAY_RUN i j)) ∧
    (∃ (p : Fin 256) (s : State), let st := s.port p; s.winIdx 1000000 ≠ st.rttIdx) ∧
    (∃ (p : Fin 256) (s : State), let st := s.port p; s.winIdx 1000000 = st.rttIdx) :=
  ⟨⟨0, stt 3 ready, by decide +kernel⟩,
    ⟨0, (stt 3 ready).wr (R.LNK_CTL_RETRAIN_ON_LIMIT 0 0) 1, by decide +kernel⟩,
    ⟨0, stt 7 late, rr, [], by decide +kernel⟩,
    ⟨0, stt 7 late, by decide +kernel⟩,
    ⟨0, base, by decide +kernel⟩,
    ⟨0, base.modPort 0 (fun x => { x with rttIdx := base.winIdx 1000000 }), by decide +kernel⟩⟩

theorem witness_TrainingRows :
    (∃ (p : Fin 256) (s : State), s.headCtrl p 1 = none) ∧
    (∃ (p : Fin 256) (s : State), s.headCtrl p 2 = none) ∧
    (∃ (p : Fin 256) (s : State), s.headCtrl p 3 = none) ∧
    (∃ (p : Fin 256) (s : State) (msg : Square), let st := s.linkState p; s.headCtrl p 1 = some msg ∧ st = 3 ∧ (s.port p).aligned = true) ∧
    (∃ (p : Fin 256) (s : State) (msg : Square), let st := s.linkState p; s.headCtrl p 1 = some msg ∧ st = 3 ∧ (s.port p).aligned = false) ∧
    (∃ (p : Fin 256) (s : State) (msg : Square), let st := s.linkState p; s.headCtrl p 1 = some msg ∧ ((st = 3 ∧ (s.port p).aligned = true) ∨
      st = 4) ∧ bitOf (cmVlMask msg) 0 = true ∧ cmIdentity msg ≠ s.rd R.GLB_IDENTITY_IDENTITY) ∧
    (∃ (p : Fin 256) (s : State) (msg : Square), let st := s.linkState p; s.headCtrl p 2 = some msg ∧ (st = 3 ∨ st = 4 ∨ st = 5)) ∧
    (∃ (p : Fin 256) (s : State) (msg : Square), let st := s.linkState p; s.headCtrl p 2 = some msg ∧ st = 7) ∧
    (∃ (p : Fin 256) (s : State) (msg : Square), let st := s.linkState p; s.headCtrl p 3 = some msg ∧ st = 5) ∧
    (∃ (p : Fin 256) (s : State) (msg : Square), let i := p.val / 2; let j := p.val % 2; let st := s.linkState p; s.headCtrl p 3 = some msg ∧ st = 6 ∧
      bitOf (cmFlags msg) 2 = true ∧ s.rd (R.LNK_STAT_LEADER i j) = 0) ∧
    (∃ (p : Fin 256) (s : State) (msg : Square), let i := p.val / 2; let j := p.val % 2; let u := s.takeHead p; let st := s.linkState p;
      s.headCtrl p 3 = some msg ∧ st = 6 ∧ bitOf (cmFlags msg) 2 = true ∧ s.rd (R.LNK_STAT_LEADER i j) = 1 ∧ u.readyNow p = true) :=
  ⟨⟨0, base, by decide +kernel⟩,
    ⟨0, base, by decide +kernel⟩,
    ⟨0, base, by decide +kernel⟩,
    ⟨0, holding (rowEncode (ctrlRow (msg 1 7))) (stt 3 ready), msg 1 7,
      holding_headCtrl (msg 1 7) 1 (stt 3 ready) (by decide +kernel) (by decide +kernel) (by decide +kernel), by decide +kernel⟩,
    ⟨0, holding (rowEncode (ctrlRow (msg 1 7))) (mod (fun x => { x with aligned := false }) (stt 3 ready)), msg 1 7,
      holding_headCtrl (msg 1 7) 1 (mod (fun x => { x with aligned := false }) (stt 3 ready)) (by decide +kernel) (by decide +kernel)
        (by decide +kernel), by decide +kernel⟩,
    ⟨0, holding (rowEncode (ctrlRow (msg 1 7))) (stt 4 ready), msg 1 7,
      holding_headCtrl (msg 1 7) 1 (stt 4 ready) (by decide +kernel) (by decide +kernel) (by decide +kernel), .inr (by decide +kernel),
        by decide +kernel⟩,
    ⟨0, holding (rowEncode (ctrlRow (msg 2 7))) (stt 5 ready), msg 2 7,
      holding_headCtrl (msg 2 7) 2 (stt 5 ready) (by decide +kernel) (by decide +kernel) (by decide +kernel), by decide +kernel⟩,
    ⟨0, holding (rowEncode (ctrlRow (msg 2 7))) (stt 7 ready), msg 2 7,
      holding_headCtrl (msg 2 7) 2 (stt 7 ready) (by decide +kernel) (by decide +kernel) (by decide +kernel), by decide +kernel⟩,
    ⟨0, holding (rowEncode (ctrlRow (msg 3 7))) (stt 5 ready), msg 3 7,
      holding_headCtrl (msg 3 7) 3 (stt 5 ready) (by decide +kernel) (by decide +kernel) (by decide +kernel), by decide +kernel⟩,
    ⟨0, holding (rowEncode (ctrlRow (msg 3 7))) (stt 6 ready), msg 3 7,
      holding_headCtrl (msg 3 7) 3 (stt 6 ready) (by decide +kernel) (by decide +kernel) (by decide +kernel), by decide +kernel⟩,
    ⟨0, holding (rowEncode (ctrlRow (msg 3 7))) ((stt 6 ready).wr (R.LNK_STAT_LEADER 0 0) 1), msg 3 7,
      holding_headCtrl (msg 3 7) 3 ((stt 6 ready).wr (R.LNK_STAT_LEADER 0 0) 1) (by decide +kernel) (by decide +kernel) (by decide +kernel),
        by decide +kernel⟩⟩

theorem witness_TimeFrames :
    (∃ (p : Fin 256) (f : FrameRx) (s : State), (s.port p).frameRx = some f ∧ f.complete = true ∧ s.rd R.TIM_CFG_ROLE = 1 ∧
      s.rd R.TIM_STAT_PARENT ≠ p.val ∧ (s.port p).lastFrame = none) ∧
    (∃ (p : Fin 256) (f : FrameRx) (s : State) (t2 : Nat), let flags := f.slots.getD 11 0; let no := f.slots.getD 10 0 / 256;
      let t3 := SMap.get 0 (s.port p).marks (f.slots.getD 10 0 % 256); (s.port p).frameRx = some f ∧ f.complete = true ∧ s.rd R.TIM_CFG_ROLE = 1 ∧
      s.rd R.TIM_STAT_PARENT ≠ p.val ∧ (s.port p).lastFrame = some (t2, no) ∧ t3 ≠ 0 ∧ flags % 4 = 3) ∧
    (∃ (p : Fin 256) (f : FrameRx) (s : State), let steps := f.slots.getD 11 0 / 256; (s.port p).frameRx = some f ∧ f.complete = true ∧
      s.rd R.TIM_CFG_ROLE = 0 ∧ s.rd R.TIM_STAT_PARENT = p.val ∧ (s.port p).lastFrame = none ∧ steps < s.rd R.TIM_STAT_STEPS) :=
  ⟨⟨0, fr, (stt 7 ready).wr R.TIM_CFG_ROLE 1, by decide +kernel⟩,
    ⟨0, fr, (stt 7 late).wr R.TIM_CFG_ROLE 1, 66, by decide +kernel⟩,
    ⟨0, fr, (stt 7 ready).wr R.TIM_CFG_ROLE 0 |>.wr R.TIM_STAT_PARENT 0 |>.wr R.TIM_STAT_STEPS 9, by decide +kernel⟩⟩

end Sys2Proof.Tests.L3b

namespace Sys2Proof.Tests.L4

set_option Elab.async false

def valid (s : State) : State := (s.wrB R.TIM_STAT_VALID true).withTime { s.time with ft := 5000000 * 65536 }

def S0 : State := (valid base).wr R.GLB_INFO_MODULE_ID 3

def S1 : State := (((List.range 16).foldl (fun s t => s.wr (R.LT_TILE_STAT_WIDTH t) 0x5555) S0).wr R.SWC_AGE_CFG_AGE_LIMIT 4).wr
  R.SWC_BUF_STAT_DYN_FREE 1000

def rq : MgmtReq := { slot := 2, cmd := 0x1107, arg := 0, psn := 5, src := 7, len := 0, data := false, value := 0, port := 5, pay := [] }

/-- A waiting local packet that was routed on the bank before. -/
def oldPkt : LocalPkt :=
  { pkt := { hdr := 0, pay := [] }, fn := none, yellow := false, pawn := none, job := none, dep := none, waiting := false, held := false, outs := [],
    stamp := 0
    bank := some 1 }

theorem witness_ShadowWrites :
    (∃ (part : Fin 32) (s : State), s.stk.armWait = none ∧ part.val ∉ s.copying) ∧
    (∃ (part : Fin 32) (s : State), s.stk.armWait = none ∧ part.val ∈ s.copying ∧ part.val = 3 ∧ s.oldBankUse = true) ∧
    (∃ (part : Fin 32) (s : State), s.stk.armWait = none ∧ part.val ∈ s.copying ∧ (part.val ≠ 3 ∨ s.oldBankUse = false)) ∧
    (∃ (r : MgmtReq) (mask at_ : Nat) (s : State), s.stk.armWait = some r ∧ s.stk.arm = some (mask, at_)) ∧
    (∃ (m : Master) (v : BitVec 64) (s : State), let split := v.toNat % 16; let n := bitsOf v.toNat 16 15; Reaches s m 0x400000 ∧
      s.rd R.STK_CFG_MIRROR = 0 ∧ 4 ≤ split ∧ split ≤ 10 ∧ 0 < n ∧ n ≤ 2 ^ (18 - split)) ∧
    (∃ (m : Master) (v : BitVec 64) (s : State), let split := v.toNat % 16; let n := bitsOf v.toNat 16 15; Reaches s m 0x400000 ∧
      s.rd R.STK_CFG_MIRROR = 0 ∧ (split < 4 ∨ 10 < split ∨ n = 0 ∨ 2 ^ (18 - split) < n)) ∧
    (∃ (m : Master) (i : BitVec 12) (v : BitVec 64) (s : State), Reaches s m (0xD10000 + 0x10 * i.toNat) ∧ s.rd R.GLB_MODE_STAT_MODE = 1 ∧
      v.toNat.testBit 16 = true ∧ bitsOf v.toNat 17 2 ≠ 0) ∧
    (∃ (m : Master) (i : BitVec 12) (s : State), Reaches s m (0xD10000 + 0x10 * i.toNat) ∧ s.rd R.GLB_MODE_STAT_MODE ≠ 1) :=
  ⟨⟨0, S1, by decide +kernel⟩,
    ⟨3, (S1.withCopying [3]).setLocalQ 0 0 [oldPkt], by decide +kernel⟩,
    ⟨0, S1.withCopying [0], by decide +kernel⟩,
    ⟨rq, 1, 5, S1.withStk { S1.stk with armWait := some rq, arm := some (1, 5) }, by decide +kernel⟩,
    ⟨Master.arbiter, 65540, S1.wr R.STK_CFG_MIRROR 0, by decide +kernel⟩,
    ⟨Master.arbiter, 0, S1.wr R.STK_CFG_MIRROR 0, by decide +kernel⟩,
    ⟨.arbiter, 0, 0x30000, S1, by decide +kernel⟩,
    ⟨.arbiter, 0,
      List.foldl (fun s f => (s.wr (R.SWC_POL_CTL_ACT_EN f) 1).wr (R.SWC_POL_RATE_C_ACT_RATE f) 1234567) (S1.wr R.GLB_MODE_STAT_MODE 3) [0, 1, 511,
      170], by decide +kernel⟩⟩

end Sys2Proof.Tests.L4

namespace Sys2Proof.Tests.L4b

set_option Elab.async false

def valid (s : State) : State := (s.wrB R.TIM_STAT_VALID true).withTime { s.time with ft := 5000000 * 65536 }

def S0 : State := (valid base).wr R.GLB_INFO_MODULE_ID 3

def S1 : State := (((List.range 16).foldl (fun s t => s.wr (R.LT_TILE_STAT_WIDTH t) 0x5555) S0).wr R.SWC_AGE_CFG_AGE_LIMIT 4).wr
  R.SWC_BUF_STAT_DYN_FREE 1000

/-- The only square of a Forward packet for function 0, received 1 ns ago. -/
def good : RxSq := { sq := (((mkPkt { opcode := 0x20, dest := faOfFn 3 0,
                                      src := 0x4000 } (mkArea []) []).setRoute 28 4 5).seal (originOf 5000000)).hdr
                     hdr := true, shared := true, abort := false, stamp := 4999999, fstamp := 4999999 }

def bad : RxSq := { good with sq := 0 }

def pk (n : Nat) : Pkt := { hdr := (good.sq), pay := List.replicate n 7 }

def lp (o : List OutSel) (w : Bool) : LocalPkt := { pkt := pk 1, fn := none, yellow := false, pawn := none, job := none, dep := none, waiting := w,
                                                    held := false, outs := o, stamp := 0 }

def bp (inp : Nat) : BufPkt :=
  { pkt := pk 2, inp := inp, vl := 0, count := 3, written := 3, addr := [0, 8192, 16384], gen := 0, region := .link, freed := 0, outs := [16 * 256]
    dead := false, cut := false, aborted := false, stamp := 0, fstamp := 0, wroteAt := 0, fn := none, job := none, dep := none }

def qe : QEntry := { pid := 1, route := 0, read := 1, reading := true, shared := true }

def qf : QEntry := { pid := 1, route := 0, read := 0, reading := false, shared := true }

def we : WorkEnt := {fn := 0, qid := 0, ent := 0}

def sArr : State := S1.setPort 0 { S1.port 0 with rx := [good] }

def sBad : State := S1.setPort 0 { S1.port 0 with rx := [bad] }

def sLoc : State := S1.setLocalQ 0 0 [lp [] false, lp [] true]

def sWait : State := S1.setLocalQ 0 0 [lp [{out := 256, route := 0}] true, lp [] true]

def lm : LocalPkt := { lp [] false with pkt := mkPkt { opcode := 0xA0, dest := 3 * 2 ^ 14 + 2 ^ 13, src := 3 * 2 ^ 14 + 2 ^ 13 } (mkArea []) [] }

def sMgmt : State := S1.setLocalQ 0 0 [lm]

def sCut : State := ((S1.setPort 0 { S1.port 0 with curTx := some (1, 0), tx := [] }).setQueue 0 0 [qe]).setBuf 1 (some { bp 0 with outs := [0] })

def sOld : State := (((S1.wr R.SWC_AGE_CFG_AGE_LIMIT 1).setBuf 1 (some { bp 0 with outs := [0] })).setQueue 0 0 [qf]).withDepartures [(0, 2
  ^ 32 * 7 + 8)] |>.setWork 7 (some we)

def sPol : State := (S1.wr (R.SWC_POL_CTL_ACT_EN 0) 1).wr (R.SWC_POL_RATE_C_ACT_RATE 0) 1234567

/-- The same square with an ORIGIN 5 ms old. -/
def old : RxSq := { good with sq := (((mkPkt { opcode := 0x20, dest := faOfFn 3 0,
                                               src := 0x4000 } (mkArea []) []).setRoute 28 4 5).seal (originOf 0)).hdr }

/-- A fresh packet whose class comes from its opcode. -/
def bo (op : Nat) : BufPkt :=
  { bp 0 with fstamp := 5000000, stamp := 4999999, outs := [0, 16 * 256, 16 * 257, 16 * 258]
              pkt := { pk 2 with hdr := (((mkPkt { opcode := op, dest := faOfFn 3 0,
                                                   src := 0x4000 } (mkArea []) []).setRoute 28 4 5).seal (originOf 5000000)).hdr } }

def qo (op : Nat) : QEntry := { pid := 1, route := (bo op).pkt.route, read := 0, reading := false, shared := true }

/-- A packet waits at port 0 and the three local outputs. -/
def sOut (op : Nat) : State :=
  ((((((((S1.wr (lnkAvail 0) 100).wr (R.LNK_CRED_SHARED_PEER_VL_MASK 0 0) 1).setLinkState 0 7).setBuf 1 (some (bo op))).setQueue 0 0 [qo op]).setQueue
    256 0 [qo op]).setQueue 257 0 [qo op]).setQueue 258 0 [qo op])

def tag (inp gen : Nat) (shared : Bool) (r : Region) : SqTag := { inp := inp, vl := 0, shared := shared, gen := gen, region := r }

/-- A stored packet whose first square, square 0 of bank 0, has tag g. -/
def sTag (g : SqTag) : State := (S1.setBuf 1 (some (bp g.inp))).setTag 0 (some g)

theorem witness_HeaderArrives :
    (∃ (p : Fin 256) (q : RxSq) (s : State), let k : Pkt := { hdr := q.sq, pay := [] }; let n := announced k; (s.port p).rx = [q] ∧
      (s.port p).rxCur = none ∧ q.hdr = true ∧ q.abort = false ∧ s.rd R.PMON_SAMPLE_CFG_PKT_EN = 0 ∧ headerOk k n = false) ∧
    (∃ (p : Fin 256) (q : RxSq) (s : State) (c : FRef), let k : Pkt := { hdr := q.sq, pay := [] }; let n := announced k; (s.port p).rx = [q] ∧
      (s.port p).rxCur = none ∧ q.hdr = true ∧ q.abort = false ∧ s.rd R.PMON_SAMPLE_CFG_PKT_EN = 0 ∧ headerOk k n = true ∧
      s.ageCheckAt q.fstamp q.stamp k = some c) ∧
    (∃ (p : Fin 256) (q : RxSq) (s : State) (x : OutSel), let k : Pkt := { hdr := q.sq, pay := [] }; let n := announced k; (s.port p).rx = [q] ∧
      (s.port p).rxCur = none ∧ q.hdr = true ∧ q.abort = false ∧ s.rd R.PMON_SAMPLE_CFG_PKT_EN = 0 ∧ headerOk k n = true ∧
      s.ageCheckAt q.fstamp q.stamp k = none ∧ k.opcode ≠ 0x40 ∧ k.opcode ≠ 0x41 ∧ s.route k p = (s, [x]) ∧ s.outputDown x.out = false) :=
  ⟨⟨0, bad, sBad, by decide +kernel⟩,
    ⟨0, old, S1.setPort 0 { S1.port 0 with rx := [old] }, R.SWC_DISC_AGE, by decide +kernel⟩,
    ⟨0, good, sArr, { out := 256, route := (pk 1).route : OutSel }, by decide +kernel⟩⟩

theorem witness_Admission :
    (∃ (i : Fin 7) (vl : Fin 16) (x : LocalPkt) (rest : List LocalPkt) (s u : State) (outs : List OutSel), s.localQ i vl = x :: rest ∧
      x.waiting = false ∧ x.held = false ∧ x.fn = none ∧ x.skip = none ∧ s.timeValid = true ∧ s.decideLocal x (s.sealPkt x.pkt) (256 + i.val) = (u,
      outs) ∧ outs = []) ∧
    (∃ (i : Fin 7) (vl : Fin 16) (x : LocalPkt) (rest : List LocalPkt) (s u : State) (outs : List OutSel), s.localQ i vl = x :: rest ∧
      x.waiting = false ∧ x.held = false ∧ x.fn = none ∧ x.skip = none ∧ s.timeValid = true ∧ s.decideLocal x (s.sealPkt x.pkt) (256 + i.val) = (u,
      outs) ∧ outs ≠ []) ∧
    (∃ (i : Fin 7) (vl : Fin 16) (x : LocalPkt) (rest : List LocalPkt) (s : State), s.localQ i vl = x :: rest ∧ x.waiting = true ∧
      s.admitTest i vl x.pkt.squares x.outs = none) ∧
    (∃ (i : Fin 7) (vl : Fin 16) (x : LocalPkt) (rest : List LocalPkt) (s : State), s.localQ i vl = x :: rest ∧ x.waiting = true ∧ vl = 0 ∧
      x.dep = none ∧ s.rd (R.SWC_LOCAL_OCC_VL0_USED i.val) + x.pkt.squares ≤ 8 ∧ x.outs.all (fun o => bitsOf o.route 28 4 == 0) = true) :=
  ⟨⟨0, 0, lp [] false, [lp [] true], sLoc, (sLoc.decideOut (sLoc.sealPkt (lp [] false).pkt) (sLoc.sealPkt (lp [] false).pkt).squares 256).1,
    (sLoc.decideOut (sLoc.sealPkt (lp [] false).pkt) (sLoc.sealPkt (lp [] false).pkt).squares 256).2, by decide +kernel⟩,
    ⟨0, 0, lm, [], sMgmt, (sMgmt.decideOut (sMgmt.sealPkt lm.pkt) (sMgmt.sealPkt lm.pkt).squares 256).1,
      (sMgmt.decideOut (sMgmt.sealPkt lm.pkt) (sMgmt.sealPkt lm.pkt).squares 256).2, by decide +kernel⟩,
    ⟨0, 0, lp [{ out := 256, route := 0 : OutSel }] true, [lp [] true], sWait.wr R.SWC_BUF_STAT_DYN_FREE 0 |>.wr (R.SWC_LOCAL_OCC_VL0_USED 0) 8,
      by decide +kernel⟩,
    ⟨0, 0, lp [{ out := 256, route := 0 : OutSel }] true, [lp [] true], sWait, by decide +kernel⟩⟩

theorem witness_OutputSelects :
    (∃ (o : Fin 259) (s : State), s.readWaits o = true) ∧
    (∃ (o : Fin 259) (s : State), o.val < 256 ∧ (s.portUp o = false ∨ (s.port o).curTx ≠ none)) ∧
    (∃ (o : Fin 259) (s : State), 256 ≤ o.val ∧ s.outputDown o = true) ∧
    (∃ (o : Fin 259) (s u : State) (v : Nat), s.readWaits o = false ∧ s.select o = (u, some v)) ∧
    (∃ (o : Fin 259) (s u : State), s.readWaits o = false ∧ s.select o = (u, none)) ∧
    (∃ (o : Fin 259) (s : State), o.val < 256 ∧ s.portUp o = true ∧ (s.port o).curTx = none) ∧
    (∃ (o : Fin 259) (s : State), 256 ≤ o.val ∧ s.outputDown o = false) :=
  ⟨⟨258, (sOut 0xA0).withSwc { (sOut 0xA0).swc with reads := [((sOut 0xA0).cycle, 7)] }, by decide +kernel⟩,
    ⟨0, base, by decide +kernel⟩,
    ⟨256, S1.setIsland 17 2, by decide +kernel⟩,
    ⟨258, sOut 0xA0, sOut 0xA0, 0, by decide +kernel⟩,
    ⟨0, base, base, by decide +kernel⟩,
    ⟨0, sOut 0x20, by decide +kernel⟩,
    ⟨258, base, by decide +kernel⟩⟩

theorem witness_OutputSends :
    (∃ (o : Fin 259) (e : QEntry) (b : BufPkt) (s : State), s.readWaits o = false ∧ s.select o = (s, some 0) ∧ s.headReady o 0 = some (e, b) ∧
      256 ≤ o.val) ∧
    (∃ (o : Fin 259) (e : QEntry) (b : BufPkt) (s : State), s.readWaits o = false ∧ s.select o = (s, some 0) ∧ s.headReady o 0 = some (e, b) ∧
      o.val < 256 ∧ b.written = b.count) ∧
    (∃ (o : Fin 259) (e : QEntry) (b : BufPkt) (s : State), s.readWaits o = false ∧ s.select o = (s, some 0) ∧ s.headReady o 0 = some (e, b) ∧
      o = 256 ∧ b.cut = false ∧ b.aborted = false ∧ 2 ≤ (s.readCopy b e.route).cls) ∧
    (∃ (o : Fin 259) (e : QEntry) (b : BufPkt) (s : State), s.readWaits o = false ∧ s.select o = (s, some 0) ∧ s.headReady o 0 = some (e, b) ∧
      o = 257 ∧ b.cut = false ∧ b.aborted = false) ∧
    (∃ (o : Fin 259) (e : QEntry) (b : BufPkt) (s : State), s.readWaits o = false ∧ s.select o = (s, some 0) ∧ s.headReady o 0 = some (e, b) ∧
      o = 258 ∧ b.cut = false ∧ b.aborted = false ∧ (s.readCopy b e.route).cls = 5 ∧ (s.arbIn.filter (fun q => q.1.cls == 5)).length < 64) ∧
    (∃ (p : Fin 256) (pid key : Nat) (e : QEntry) (b : BufPkt) (s : State), (s.port p).curTx = some (pid, key) ∧ s.bufPkt pid = some b ∧
      b.written = b.count ∧ (s.queue (key / 16) (key % 16)).find? (fun e => e.pid == pid) = some e) :=
  ⟨⟨258, qo 0xA0, bo 0xA0, sOut 0xA0, by decide +kernel⟩,
    ⟨0, qo 0x20, bo 0x20, sOut 0x20, by decide +kernel⟩,
    ⟨256, qo 0x40, bo 0x40, sOut 0x40, by decide +kernel⟩,
    ⟨257, qo 0x80, bo 0x80, sOut 0x80, by decide +kernel⟩,
    ⟨258, qo 0xA0, bo 0xA0, sOut 0xA0, by decide +kernel⟩,
    ⟨0, 1, 0, qe, { bp 0 with outs := [0] }, sCut, by decide +kernel⟩⟩

theorem witness_SquareFreed :
    (∃ (pid : BitVec 32) (b : BufPkt) (a : Nat) (g : SqTag) (s : State) (p : Fin 256), s.bufPkt pid.toNat = some b ∧
      b.freed < s.freeable pid.toNat b ∧ b.outs ≠ [] ∧ b.addr[b.freed]? = some a ∧ s.tagOf a = some g ∧ g.inp = p.val ∧ g.gen = (s.port p).gen ∧
      g.shared = true) ∧
    (∃ (pid : BitVec 32) (b : BufPkt) (a : Nat) (g : SqTag) (s : State) (p : Fin 256), s.bufPkt pid.toNat = some b ∧
      b.freed < s.freeable pid.toNat b ∧ b.outs ≠ [] ∧ b.addr[b.freed]? = some a ∧ s.tagOf a = some g ∧ g.inp = p.val ∧ g.gen = (s.port p).gen ∧
      g.shared = false) ∧
    (∃ (pid : BitVec 32) (b : BufPkt) (a : Nat) (g : SqTag) (s : State) (p : Fin 256), s.bufPkt pid.toNat = some b ∧
      b.freed < s.freeable pid.toNat b ∧ b.outs ≠ [] ∧ b.addr[b.freed]? = some a ∧ s.tagOf a = some g ∧ g.inp = p.val ∧ g.gen ≠ (s.port p).gen) ∧
    (∃ (pid : BitVec 32) (b : BufPkt) (a : Nat) (g : SqTag) (s : State) (i : Fin 7), s.bufPkt pid.toNat = some b ∧ b.freed < s.freeable pid.toNat b ∧
      b.outs ≠ [] ∧ b.addr[b.freed]? = some a ∧ s.tagOf a = some g ∧ g.inp = 256 + i.val ∧ g.region = .vl0) ∧
    (∃ (pid : BitVec 32) (b : BufPkt) (a : Nat) (g : SqTag) (s : State) (i : Fin 7), s.bufPkt pid.toNat = some b ∧ b.freed < s.freeable pid.toNat b ∧
      b.outs ≠ [] ∧ b.addr[b.freed]? = some a ∧ s.tagOf a = some g ∧ g.inp = 256 + i.val ∧ g.region = .guar) ∧
    (∃ (pid : BitVec 32) (b : BufPkt) (a : Nat) (g : SqTag) (s : State) (i : Fin 7), s.bufPkt pid.toNat = some b ∧ b.freed < s.freeable pid.toNat b ∧
      b.outs ≠ [] ∧ b.addr[b.freed]? = some a ∧ s.tagOf a = some g ∧ g.inp = 256 + i.val ∧ g.region = .dyn) :=
  ⟨⟨1, bp 0, 0, tag 0 0 true .link, sTag (tag 0 0 true .link), 0, by decide +kernel⟩,
    ⟨1, bp 0, 0, tag 0 0 false .link, sTag (tag 0 0 false .link), 0, by decide +kernel⟩,
    ⟨1, bp 0, 0, tag 0 9 true .link, sTag (tag 0 9 true .link), 0, by decide +kernel⟩,
    ⟨1, bp 256, 0, tag 256 0 true .vl0, sTag (tag 256 0 true .vl0), 0, by decide +kernel⟩,
    ⟨1, bp 256, 0, tag 256 0 true .guar, sTag (tag 256 0 true .guar), 0, by decide +kernel⟩,
    ⟨1, bp 256, 0, tag 256 0 true .dyn, sTag (tag 256 0 true .dyn), 0, by decide +kernel⟩⟩

theorem witness_BufferChecks :
    (∃ (o : Fin 259) (vl : Fin 16) (pid : BitVec 32) (e : QEntry) (b : BufPkt) (s : State),
      (s.queue o vl).find? (fun e => e.pid == pid.toNat) = some e ∧ s.bufPkt pid.toNat = some b ∧ e.reading = false ∧ (b.stamp + s.ageLimit ≤ s.now ∨
      s.ageCheck b.pkt = some R.SWC_DISC_AGE)) ∧
    (∃ (s : State), (∀ e ∈ s.swc.tags, e.1 ∈ s.swc.touched ∨ ∃ x ∈ s.auditMap, x.1 = e.1) ∧ (∀ x ∈ s.auditMap, (x.1 ∈ s.swc.touched ∨
      s.tagOf x.1 ≠ none) ∧ ∀ y ∈ s.auditMap, y.1 = x.1 → y.2 = x.2)) ∧
    (∃ (s : State) (a : Nat) (g : SqTag), g.inp < 263 ∧ g.vl < 16 ∧ s.swc.tags = [(a, some g)] ∧ a ∉ s.swc.touched ∧ s.auditMap = []) :=
  ⟨⟨0, 0, 1, qf, { bp 0 with outs := [0] }, sOld, by decide +kernel⟩,
    ⟨(S1.setBuf 1 (some { bp 0 with count := 1, written := 1, addr := [0] })).setTag 0 (some (tag 0 0 true .link)), by decide +kernel⟩,
    ⟨S1.setTag 5 (some (tag 0 0 true .link)), 5, tag 0 0 true .link, by decide +kernel⟩⟩

theorem witness_TokenClocks :
    (∃ (f : Fin 512) (s : State), s.lin = [] ∧ s.rd (R.SWC_POL_CTL_ACT_EN f.val) = 1) ∧
    (∃ (s : State), s.winIdx 8000 = s.time.decayWin) ∧
    (∃ (s : State), s.winIdx 8000 ≠ s.time.decayWin) :=
  ⟨⟨0, sPol, by decide +kernel⟩,
    ⟨base.withTime { base.time with decayWin := base.winIdx 8000 }, by decide +kernel⟩,
    ⟨base.withNow 5010000, by decide +kernel⟩⟩

theorem witness_DepartureNotices :
    (∃ (o : Fin 259) (d : Nat × Nat) (x : WorkEnt) (s : State), s.departures.find? (fun d => d.1 == o.val) = some d ∧ d.2 < 2 ^ 96 ∧
      s.workEnt (d.2 / 2 ^ 32) = some x ∧ x.built = false) ∧
    (∃ (o : Fin 259) (d : Nat × Nat) (x : WorkEnt) (s : State), let psn := d.2 % 2 ^ 32; s.departures.find? (fun d => d.1 == o.val) = some d ∧
      d.2 < 2 ^ 96 ∧ s.workEnt (d.2 / 2 ^ 32) = some x ∧ x.cid = none ∧ wop x = 1 ∧ x.built = true ∧ x.gone.contains psn = false ∧
      x.sent = x.gone.length + 1) :=
  ⟨⟨0, (0, 2 ^ 32 * 7 + 8), we, sOld, by decide +kernel⟩,
    ⟨0, (0, 2 ^ 32 * 7 + 8), { we with ent := 1, built := true, sent := 1 }, sOld.setWork 7 (some { we with ent := 1, built := true, sent := 1 }),
      by decide +kernel⟩⟩

end Sys2Proof.Tests.L4b

namespace Sys2Proof.Tests.L5

set_option Elab.async false

def S1 : State := ((base.wrB R.TIM_STAT_VALID true).withTime { base.time with ft := 5000000 * 65536 }).wr R.GLB_INFO_MODULE_ID 3

def slots (s : State) : State := (List.range 16).foldl (fun s k => ((s.wr (R.CGC_KEY_SLOT_VALID k) 1).wr (R.CGC_KEY_SLOT_SRC_FA k)
  0x4000).wr (R.CGC_KEY_SLOT_PERM k) 31) s

def mp (op cmd psn dest : Nat) : Pkt := (mkPkt { dest := dest, src := 0x4000, opcode := op, psn := psn } (mkArea [(32,2,3),(34,2,cmd)])
  []).sealMgmt 0 0

def pr (op : Nat) : Pkt := (mkPkt { dest := faOfSvc 3 0, src := faOfSvc 1 0, opcode := op, psn := 4 } (mkArea
  [(32,8,0x12345),(40,8,99),(48,8,77)]) []).seal 5

def rq (cmd arg len : Nat) (d : Bool) : MgmtReq := { slot := 3, cmd := cmd, arg := arg, psn := 9, src := 0x4000, len := len, data := d, value := 77,
                                                     port := 0, pay := [] }

def cn : Conn :=
  { fn := 3, peer := 0x4000, conn := 0, pawn := 0, state := 2, epoch := 1, w := 5, rto := 5, curMin := some 6,
    gr := [{ psn := 5, mref := 1, mlen := 1000000, goff := 4096 }] }

def y0 := (List.foldl (fun s h => s.wr (R.CGC_GRANT_BUDGET_BUDGET h) 1000) ((S1.setConn 5 (some cn)).withXpt
  (({ (S1.setConn 5 (some cn)).xpt with grantIn := [(5, pr 3)], grants := [(0, [(5, 5)]), (1, [(5, 5)]), (3, [(5, 5)])] }
  : XptSt))) (List.range 4))

def y2 := (S1.withCgc (({ S1.cgc with reqs := [rq 9 9 0 false] } : CgcSt)))

def y3 := ((S1.wr R.GLB_MODE_STAT_MODE 4).withCgc (({ S1.cgc with reqs := [rq 19 256 8 true] } : CgcSt)))

/-- A request at the front of the arbiter's processor. -/
def got (r : MgmtReq) (s : State) : State := s.withCgc { s.cgc with reqs := [r] }

/-- One packet at the arbiter. -/
def arb (p : Pkt) (s : State) : State := s.withArbIn [(p, 0, 5)]

/-- The packet with another payload: its CRC fails. -/
def damaged (p : Pkt) : Pkt := { p with pay := [1] }

/-- A packet of slot 3 with a tag of zero. -/
def forged (op dest : Nat) : Pkt := (mkPkt { dest := dest, src := 0x4000, opcode := op, psn := 7 } (mkArea [(32, 2, 3), (34, 2, 1)]) []).seal 0

/-- The response that member 3 waits for is at its arbiter. -/
def sent : State := arb (mp 0x81 1 7 (faOfSvc 3 3)) (((slots S1).wr R.STK_CFG_MEMBER 3).withStk
  { S1.stk with sent := [{ psn := 0, cmd := 1, member := 1, at_ := 5, arg := 0 }] })

/-- A PROBE from a function. -/
def pf : Pkt := (mkPkt { dest := faOfSvc 3 0, src := faOfFn 1 0, opcode := 0xA0, psn := 4 } (mkArea []) []).seal 5

theorem witness_QuenchCommands :
    (∃ (m : Master) (s : State), Reaches s m 0x800080 ∧ s.rd R.CGC_CMD_STAT_BUSY = 0) ∧
    (∃ (r : MgmtReq) (s : State), InBand s r ∧ r.cmd = 1) ∧
    (∃ (r : MgmtReq) (s : State), InBand s r ∧ r.cmd = 2) ∧
    (∃ (r : MgmtReq) (s : State), InBand s r ∧ r.cmd = 3) ∧
    (∃ (r : MgmtReq) (s : State), InBand s r ∧ r.cmd = 4) ∧
    (∃ (r : MgmtReq) (s : State), InBand s r ∧ r.cmd = 5) ∧
    (∃ (r : MgmtReq) (s : State), InBand s r ∧ r.cmd = 6) :=
  ⟨⟨Master.arbiter, S1, by decide +kernel⟩,
    ⟨rq 1 9 0 false, S1.withCgc (({ S1.cgc with reqs := [rq 1 9 0 false] } : CgcSt)), by decide +kernel⟩,
    ⟨rq 2 9 0 false, S1.withCgc (({ S1.cgc with reqs := [rq 2 9 0 false] } : CgcSt)), by decide +kernel⟩,
    ⟨rq 3 9 0 false, S1.withCgc (({ S1.cgc with reqs := [rq 3 9 0 false] } : CgcSt)), by decide +kernel⟩,
    ⟨rq 4 9 0 false, S1.withCgc (({ S1.cgc with reqs := [rq 4 9 0 false] } : CgcSt)), by decide +kernel⟩,
    ⟨rq 5 9 0 false, S1.withCgc (({ S1.cgc with reqs := [rq 5 9 0 false] } : CgcSt)), by decide +kernel⟩,
    ⟨rq 6 9 0 false, S1.withCgc (({ S1.cgc with reqs := [rq 6 9 0 false] } : CgcSt)), by decide +kernel⟩⟩

theorem witness_QuenchBits :
    ∃ (s : State) (f g : Fin 512), s.lin = [] ∧ s.buf = [] ∧ g ≠ f :=
  ⟨S1, 0, 511, by decide +kernel⟩

theorem witness_Throttling :
    (∃ (s : State), s.winIdx 2000 = s.time.throttleWin) ∧
    (∃ (s : State), s.winIdx 2000 ≠ s.time.throttleWin) ∧
    (∃ (f : Fin 512) (s : State), s.gapOver f = true) ∧
    (∃ (cid : Nat) (c : Conn) (s : State), s.conn cid = some c ∧ s.winIdx 10000000 = s.time.baseWin) ∧
    (∃ (cid : Nat) (c : Conn) (s : State), s.conn cid = some c ∧ s.winIdx 10000000 ≠ s.time.baseWin) ∧
    (∃ (cid : Nat) (c : Conn) (s : State) (p : Pkt) (rest : List (Nat × Pkt)), s.conn cid = some c ∧ s.xpt.grantIn = (cid, p) :: rest ∧
      c.lost = false ∧ c.ahead = []) ∧
    (∃ (h : Fin 4) (cid psn : Nat) (c : Conn) (g : GrantReq) (rest : List (Nat × Nat)) (s : State), s.budgetOk h = true ∧ s.timeValid = true ∧
      SMap.get [] s.xpt.grants h.val = (cid, psn) :: rest ∧ s.conn cid = some c ∧ c.lost = false ∧ c.gr.find? (fun g => g.psn == psn) = some g ∧
      g.goff + s.grantChunk < g.mlen) :=
  ⟨⟨base.withTime { base.time with throttleWin := base.winIdx 2000 }, by decide +kernel⟩,
    ⟨base, by decide +kernel⟩,
    ⟨0, S1, by decide +kernel⟩,
    ⟨5, cn, y0.withTime { y0.time with baseWin := y0.winIdx 10000000 }, by decide +kernel⟩,
    ⟨5, cn, y0.withTime { y0.time with ft := 20000000 * 65536 }, by decide +kernel⟩,
    ⟨5, cn, y0, pr 3, [], by decide +kernel⟩,
    ⟨0, 5, 5, cn, { psn := 5, mref := 1, mlen := 1000000, goff := 4096 }, [], y0, by decide +kernel⟩⟩

theorem witness_JobTeardown :
    (∃ (m : Master) (s : State) (e : Nat), let a := s.rd R.CGC_CMD_ARG_ARG;
      let b := fun (c : Nat) => (s.wr R.CGC_CMD_STAT_LAST_CMD c).bump R.CGC_STOP_RX; Reaches s m 0x800080 ∧ s.rd R.CGC_CMD_STAT_BUSY = 0 ∧
      s.isMaster = false ∧ (b 8).treeEntry (a % 65536) = some e) ∧
    (∃ (r : MgmtReq) (s : State), InBand s r ∧ r.cmd = 7) ∧
    (∃ (r : MgmtReq) (s : State), InBand s r ∧ r.cmd = 8 ∧ s.isMaster = false ∧ (taking s r).treeEntry (r.arg % 65536) = none) ∧
    (∃ (j : BitVec 12) (s : State), s.cgc.jobsDown = [j.toNat] ∧ s.job j.toNat = none) :=
  ⟨⟨Master.arbiter, (S1.wr (R.COL_TREE_A_ACT 7) 65545).wr R.CGC_CMD_ARG_ARG 9, 7, by decide +kernel⟩,
    ⟨rq 7 9 0 false, S1.withCgc (({ S1.cgc with reqs := [rq 7 9 0 false] } : CgcSt)), by decide +kernel⟩,
    ⟨rq 8 9 0 false, S1.withCgc (({ S1.cgc with reqs := [rq 8 9 0 false] } : CgcSt)), by decide +kernel⟩,
    ⟨9, S1.withCgc { S1.cgc with jobsDown := [9] }, by decide +kernel⟩⟩

theorem witness_StrobeAndProbeCommands :
    (∃ (m : Master) (s : State), let a := s.rd R.CGC_CMD_ARG_ARG; Reaches s m 0x800080 ∧ s.rd R.CGC_CMD_STAT_BUSY = 0 ∧
      s.rd R.GLB_STROBE_STAT_BUSY = 0 ∧ maskOk a = true) ∧
    (∃ (m : Master) (s : State), let a := s.rd R.CGC_CMD_ARG_ARG; Reaches s m 0x800080 ∧ s.rd R.CGC_CMD_STAT_BUSY = 0 ∧
      s.rd R.GLB_STROBE_STAT_BUSY = 0 ∧ maskOk a = false) ∧
    (∃ (m : Master) (s : State), Reaches s m 0x800080 ∧ s.rd R.CGC_CMD_STAT_BUSY = 0 ∧ s.rd R.GLB_STROBE_STAT_BUSY = 1) ∧
    (∃ (m : Master) (s : State), let a := s.rd R.CGC_CMD_ARG_ARG; Reaches s m 0x800080 ∧ s.rd R.CGC_CMD_STAT_BUSY = 0 ∧ bitsOf a 18 14 = 0) ∧
    (∃ (m : Master) (s : State), let a := s.rd R.CGC_CMD_ARG_ARG; Reaches s m 0x800080 ∧ s.rd R.CGC_CMD_STAT_BUSY = 0 ∧ bitsOf a 18 14 ≠ 0) ∧
    (∃ (m : Master) (s : State), Reaches s m 0x800080 ∧ s.rd R.CGC_CMD_STAT_BUSY = 1) ∧
    (∃ (r : MgmtReq) (s : State), InBand s r ∧ r.cmd = 9 ∧ s.rd R.GLB_STROBE_STAT_BUSY = 0 ∧ s.stk.strobe = none ∧ s.stk.commit = none ∧
      maskOk r.arg = false) ∧
    (∃ (r : MgmtReq) (s : State), InBand s r ∧ r.cmd = 9 ∧ s.rd R.GLB_STROBE_STAT_BUSY = 0 ∧ s.stk.strobe = none ∧ s.stk.commit = none ∧
      maskOk r.arg = true ∧ s.isMaster = true) ∧
    (∃ (r : MgmtReq) (s : State), InBand s r ∧ r.cmd = 9 ∧ s.rd R.GLB_STROBE_STAT_BUSY = 0 ∧ s.stk.strobe = none ∧ s.stk.commit = none ∧
      maskOk r.arg = true ∧ s.isMaster = false) ∧
    (∃ (r : MgmtReq) (s : State), InBand s r ∧ r.cmd = 0x0A ∧ bitsOf r.arg 18 14 = 0) ∧
    (∃ (r : MgmtReq) (s : State), InBand s r ∧ r.cmd = 0x0A ∧ bitsOf r.arg 18 14 ≠ 0) ∧
    (∃ (x : LocalPkt), x.dep = some (probeMark none)) :=
  ⟨⟨Master.arbiter, S1.wr R.CGC_CMD_ARG_ARG ([9].headD 0), by decide +kernel⟩,
    ⟨Master.arbiter, S1, by decide +kernel⟩,
    ⟨Master.arbiter, S1.wr R.GLB_STROBE_STAT_BUSY 1, by decide +kernel⟩,
    ⟨Master.arbiter, S1, by decide +kernel⟩,
    ⟨Master.arbiter, S1.wr R.CGC_CMD_ARG_ARG 0x40000, by decide +kernel⟩,
    ⟨Master.arbiter, S1.wr R.CGC_CMD_STAT_BUSY 1, by decide +kernel⟩,
    ⟨rq 9 0 0 false, got (rq 9 0 0 false) S1, by decide +kernel⟩,
    ⟨rq 9 9 0 false, got (rq 9 9 0 false) ((S1.wr R.GLB_MODE_STAT_MODE 4).wr R.STK_CFG_MEMBERS 7), by decide +kernel⟩,
    ⟨rq 9 9 0 false, y2, by decide +kernel⟩,
    ⟨rq 10 9 0 false, S1.withCgc (({ S1.cgc with reqs := [rq 10 9 0 false] } : CgcSt)), by decide +kernel⟩,
    ⟨rq 10 0x40000 0 false, got (rq 10 0x40000 0 false) S1, by decide +kernel⟩,
    ⟨{ pkt := pr 0xA0, fn := none, yellow := false, pawn := none, job := none, dep := some (probeMark none), waiting := false, held := false,
       outs := [], stamp := 0 }, by decide +kernel⟩⟩

theorem witness_ManagementRequests :
    (∃ (p : Pkt) (inp tm : Nat) (rest : List (Pkt × Nat × Nat)) (s : State), s.rd R.FLT_ARB_STAT_STATE = 0 ∧ nextMgmt s.arbIn = some ((p, inp, tm),
      rest) ∧ s.pwr.warmAt = none ∧ crcOk p = false) ∧
    (∃ (p : Pkt) (inp tm : Nat) (rest : List (Pkt × Nat × Nat)) (s : State),
      let slot := p.keyId < 16 ∧ s.rd (R.CGC_KEY_SLOT_VALID p.keyId) = 1 ∧ s.rd (R.CGC_KEY_SLOT_SRC_FA p.keyId) = p.srcFa ∧ (s.rd (R.CGC_KEY_SLOT_ROLE
        p.keyId) = 1 → s.inStack = true); s.rd R.FLT_ARB_STAT_STATE = 0 ∧ nextMgmt s.arbIn = some ((p, inp, tm), rest) ∧ s.pwr.warmAt = none ∧
      crcOk p = true ∧ (¬ slot)) ∧
    (∃ (p : Pkt) (inp tm : Nat) (rest : List (Pkt × Nat × Nat)) (s : State),
      let slot := p.keyId < 16 ∧ s.rd (R.CGC_KEY_SLOT_VALID p.keyId) = 1 ∧ s.rd (R.CGC_KEY_SLOT_SRC_FA p.keyId) = p.srcFa ∧ (s.rd (R.CGC_KEY_SLOT_ROLE
        p.keyId) = 1 → s.inStack = true); s.rd R.FLT_ARB_STAT_STATE = 0 ∧ nextMgmt s.arbIn = some ((p, inp, tm), rest) ∧ s.pwr.warmAt = none ∧
      crcOk p = true ∧ slot ∧ pktTag (s.slotKey p.keyId) p ≠ p.gmac) ∧
    (∃ (p : Pkt) (inp tm : Nat) (rest : List (Pkt × Nat × Nat)) (s : State),
      let slot := p.keyId < 16 ∧ s.rd (R.CGC_KEY_SLOT_VALID p.keyId) = 1 ∧ s.rd (R.CGC_KEY_SLOT_SRC_FA p.keyId) = p.srcFa ∧ (s.rd (R.CGC_KEY_SLOT_ROLE
        p.keyId) = 1 → s.inStack = true); let last := s.rd (R.CGC_KEY_PSN_LAST_RX_PSN p.keyId); let ahead := (p.psn + 2 ^ 32 - last) % 2 ^ 32;
      s.rd R.FLT_ARB_STAT_STATE = 0 ∧ nextMgmt s.arbIn = some ((p, inp, tm), rest) ∧ s.pwr.warmAt = none ∧ crcOk p = true ∧ slot ∧
      pktTag (s.slotKey p.keyId) p = p.gmac ∧ (ahead = 0 ∨ 2 ^ 31 ≤ ahead)) ∧
    (∃ (p : Pkt) (inp tm : Nat) (rest : List (Pkt × Nat × Nat)) (s : State) (b : Nat),
      let slot := p.keyId < 16 ∧ s.rd (R.CGC_KEY_SLOT_VALID p.keyId) = 1 ∧ s.rd (R.CGC_KEY_SLOT_SRC_FA p.keyId) = p.srcFa ∧ (s.rd (R.CGC_KEY_SLOT_ROLE
        p.keyId) = 1 → s.inStack = true); let last := s.rd (R.CGC_KEY_PSN_LAST_RX_PSN p.keyId); let ahead := (p.psn + 2 ^ 32 - last) % 2 ^ 32;
      s.rd R.FLT_ARB_STAT_STATE = 0 ∧ nextMgmt s.arbIn = some ((p, inp, tm), rest) ∧ s.pwr.warmAt = none ∧ crcOk p = true ∧ slot ∧
      s.rd (R.CGC_KEY_SLOT_ROLE p.keyId) = 0 ∧ s.isMaster = false ∧ pktTag (s.slotKey p.keyId) p = p.gmac ∧ 0 < ahead ∧ ahead < 2 ^ 31 ∧
      s.permOf p.cmd = some b ∧ bitOf (s.rd (R.CGC_KEY_SLOT_PERM p.keyId)) b = true) :=
  ⟨⟨damaged (mp 0x80 1 7 (faOfSvc 3 0)), 0, 5, [], arb (damaged (mp 0x80 1 7 (faOfSvc 3 0))) (slots S1), by decide +kernel⟩,
    ⟨mp 0x80 1 7 (faOfSvc 3 0), 0, 5, [], arb (mp 0x80 1 7 (faOfSvc 3 0)) S1, by decide +kernel⟩,
    ⟨forged 0x80 (faOfSvc 3 0), 0, 5, [], arb (forged 0x80 (faOfSvc 3 0)) (slots S1), by decide +kernel⟩,
    ⟨mp 0x80 1 7 (faOfSvc 3 0), 0, 5, [], arb (mp 0x80 1 7 (faOfSvc 3 0)) ((slots S1).wr (R.CGC_KEY_PSN_LAST_RX_PSN 3) 7), by decide +kernel⟩,
    ⟨mp 0x80 1 7 (faOfSvc 3 0), 0, 5, [], arb (mp 0x80 1 7 (faOfSvc 3 0)) (slots S1), 0, by decide +kernel⟩⟩

theorem witness_ManagementResponses :
    (∃ (p : Pkt) (inp tm : Nat) (rest : List (Pkt × Nat × Nat)) (s : State), takeArb (fun p => p.opcode == 0x81) s.arbIn = some ((p, inp, tm), rest) ∧
      faService p.destFa ≠ 3) ∧
    (∃ (p : Pkt) (inp tm : Nat) (rest : List (Pkt × Nat × Nat)) (s : State), takeArb (fun p => p.opcode == 0x81) s.arbIn = some ((p, inp, tm), rest) ∧
      faService p.destFa = 3 ∧ s.rd R.FLT_ARB_STAT_STATE = 0 ∧ crcOk p = false) ∧
    (∃ (p : Pkt) (inp tm : Nat) (rest : List (Pkt × Nat × Nat)) (s : State) (x : StkReq), takeArb (fun p => p.opcode == 0x81) s.arbIn = some ((p, inp,
      tm), rest) ∧ faService p.destFa = 3 ∧ s.rd R.FLT_ARB_STAT_STATE = 0 ∧ crcOk p = true ∧ p.keyId = s.ownSlot ∧
      s.rd (R.CGC_KEY_SLOT_VALID p.keyId) = 1 ∧ pktTag (s.slotKey p.keyId) p = p.gmac ∧
      s.stk.sent.find? (fun x => x.psn == p.arg / 2 ^ 32 && x.cmd == p.cmd) = some x) ∧
    (∃ (p : Pkt) (inp tm : Nat) (rest : List (Pkt × Nat × Nat)) (s : State), takeArb (fun p => p.opcode == 0x81) s.arbIn = some ((p, inp, tm), rest) ∧
      faService p.destFa = 3 ∧ s.rd R.FLT_ARB_STAT_STATE = 0 ∧ crcOk p = true ∧ (p.keyId ≠ s.ownSlot ∨ s.rd (R.CGC_KEY_SLOT_VALID p.keyId) ≠ 1 ∨
      pktTag (s.slotKey p.keyId) p ≠ p.gmac ∨ s.stk.sent.find? (fun x => x.psn == p.arg / 2 ^ 32 && x.cmd == p.cmd) = none)) :=
  ⟨⟨mp 0x81 1 7 (faOfSvc 3 0), 0, 5, [], arb (mp 0x81 1 7 (faOfSvc 3 0)) S1, by decide +kernel⟩,
    ⟨damaged (mp 0x81 1 7 (faOfSvc 3 3)), 0, 5, [], arb (damaged (mp 0x81 1 7 (faOfSvc 3 3))) S1, by decide +kernel⟩,
    ⟨mp 0x81 1 7 (faOfSvc 3 3), 0, 5, [], sent, { psn := 0, cmd := 1, member := 1, at_ := 5, arg := 0 }, by decide +kernel⟩,
    ⟨mp 0x81 1 7 (faOfSvc 3 3), 0, 5, [], arb (mp 0x81 1 7 (faOfSvc 3 3)) S1, by decide +kernel⟩⟩

theorem witness_ProbeResponder :
    (∃ (p : Pkt) (inp tm : Nat) (rest : List (Pkt × Nat × Nat)) (s : State), ∃ c, takeArb (fun p => p.cls == 5) s.arbIn = some ((p, inp, tm), rest) ∧
      crcOk p = false ∧ c ∈ [(0xA0, Instr.probeRx), (0xA1, .probeEchoRx)] ∧ p.opcode = c.1) ∧
    (∃ (p : Pkt) (inp tm : Nat) (rest : List (Pkt × Nat × Nat)) (s : State), takeArb (fun p => p.cls == 5) s.arbIn = some ((p, inp, tm), rest) ∧
      crcOk p = true ∧ p.opcode = 0xA0 ∧ (faSvc p.srcFa = false ∨ faService p.srcFa ≠ 0)) ∧
    (∃ (p : Pkt) (inp tm : Nat) (rest : List (Pkt × Nat × Nat)) (s : State), takeArb (fun p => p.cls == 5) s.arbIn = some ((p, inp, tm), rest) ∧
      crcOk p = true ∧ p.opcode = 0xA0 ∧ faSvc p.srcFa = true ∧ faService p.srcFa = 0) ∧
    (∃ (p : Pkt) (inp tm : Nat) (rest : List (Pkt × Nat × Nat)) (s : State), takeArb (fun p => p.cls == 5) s.arbIn = some ((p, inp, tm), rest) ∧
      crcOk p = true ∧ p.opcode = 0xA1) :=
  ⟨⟨damaged (pr 0xA0), 0, 5, [], arb (damaged (pr 0xA0)) S1, ((0xA0 : Nat), Instr.probeRx), by decide +kernel⟩,
    ⟨pf, 0, 5, [], arb pf S1, by decide +kernel⟩,
    ⟨pr 0xA0, 0, 5, [], arb (pr 0xA0) S1, by decide +kernel⟩,
    ⟨pr 0xA1, 0, 5, [], arb (pr 0xA1) S1, by decide +kernel⟩⟩

theorem witness_InBandAccesses :
    (∃ (r : MgmtReq) (s : State), InBand s r ∧ r.cmd = 0x10) ∧
    (∃ (r : MgmtReq) (s : State), InBand s r ∧ r.cmd = 0x11 ∧ r.data = true ∧ r.len = 8) ∧
    (∃ (r : MgmtReq) (s : State), InBand s r ∧ r.cmd = 0x11 ∧ (r.data = false ∨ r.len ≠ 8)) ∧
    (∃ (r : MgmtReq) (s : State), InBand s r ∧ r.cmd / 4096 = 1 ∧ r.cmd % 256 = 4 ∧ r.data = true ∧ r.len = 8) ∧
    (∃ (r : MgmtReq) (s : State), InBand s r ∧ r.cmd / 4096 = 1 ∧ r.cmd % 256 = 5) ∧
    (∃ (r : MgmtReq) (s : State), InBand s r ∧ s.isMaster = true ∧ bitsOf r.arg 32 4 = s.ownMember ∧ r.cmd = 0x12) ∧
    (∃ (r : MgmtReq) (s : State), InBand s r ∧ s.isMaster = true ∧ bitsOf r.arg 32 4 = s.ownMember ∧ r.cmd = 0x13 ∧ r.data = true ∧ r.len = 8) :=
  ⟨⟨rq 16 9 0 false, S1.withCgc (({ S1.cgc with reqs := [rq 16 9 0 false] } : CgcSt)), by decide +kernel⟩,
    ⟨rq 17 256 8 true, S1.withCgc (({ S1.cgc with reqs := [rq 17 256 8 true] } : CgcSt)), by decide +kernel⟩,
    ⟨rq 17 9 0 false, S1.withCgc (({ S1.cgc with reqs := [rq 17 9 0 false] } : CgcSt)), by decide +kernel⟩,
    ⟨rq 4100 256 8 true, S1.withCgc (({ S1.cgc with reqs := [rq 4100 256 8 true] } : CgcSt)), by decide +kernel⟩,
    ⟨rq 4101 9 0 false, S1.withCgc (({ S1.cgc with reqs := [rq 4101 9 0 false] } : CgcSt)), by decide +kernel⟩,
    ⟨rq 0x12 256 8 true, got (rq 0x12 256 8 true) (S1.wr R.GLB_MODE_STAT_MODE 4), by decide +kernel⟩,
    ⟨rq 19 256 8 true, y3, by decide +kernel⟩⟩

end Sys2Proof.Tests.L5

namespace Sys2Proof.Tests.L6

set_option Elab.async false

def S1 : State := ((base.wrB R.TIM_STAT_VALID true).withTime { base.time with ft := 5000000 * 65536 }).wr R.GLB_INFO_MODULE_ID 3

def fsl : List Nat := [0, 128, 511, 170]

/-- The functions of `fsl` enabled, on ports whose link is up, with Memory Space Enable and Bus Master Enable. -/
def up (s : State) : State :=
  fsl.foldl (fun s f => ((s.wr (R.HPT_PORT_STAT_LINK_UP (f/128)) 1).wr (R.HPT_FN_STAT_ENABLED (f/128) (f%128)) 1).setPci f
    { regs := [(0x0004, 6), (0x6008, 8)] }) s

def wk (f q : Nat) (p : Bool) : Wq := { fn := f, qid := q, base := 4096, log := 6, cq := 1, pending := p, runLen := 1, job := 5 }

def rg (f : Nat) : Ring := { fn := f, h := 1, base := 0, log := 4, vector := 3, next := 5, used := 2, reserved := 1 }

def qs (s : State) : State := fsl.foldl (fun (s : State) f => ((([1,2,3,0x1FF,65535,65536] : List Nat).foldl (fun (s : State) q => s.setWq f
  q (some (wk f q true))) s).setCq f 1 (some (rg f))).setEq f 1 (some (rg f))) s

def en : BitVec 512 := BitVec.ofNat 512 (1 * 256 + 2 ^ 511)

def we (f : Nat) : WorkEnt := {fn := f, qid := 1, ent := en}

def w1 (s : State) : State := fsl.foldl (fun s f => (s.setWork f (some (we f))).setWq f 1 (some { wk f 1 false with ents := [f]})) s

def hr : HostRead := { id := 1, fn := 0, why := .operand 0 }

def y0 := (List.foldl (fun s p => ((s.wr (R.HPT_PORT_CFG_ENABLE p) 1).wr (R.HPT_PORT_CFG_MAX_GEN p) 5).wr (R.HPT_PORT_CFG_TOTAL_VFS p) 100)
  S1 (List.range 4))

def y1 := (List.foldl (fun s f => (s.wr (R.HPT_ADMIN_CFG_ENABLE (f / 128) (f % 128)) 1).setWq f adminQ (some (wk f adminQ false))) (up S1)
  fsl)

/-- One outstanding read of function 0. -/
def asks (y : ReadFor) : State := S1.withReads [{ id := 1, fn := 0, why := y }]

theorem witness_Doorbells :
    (∃ (f : Fin 512) (s : State), s.decodes f = false) ∧
    (∃ (f : Fin 512) (off : BitVec 22) (len : Fin 64) (s : State) (k : Wq), let q := off.toNat / 64; s.decodes f = true ∧ s.fnTeardown f = false ∧
      s.island (19 + f.val / 128) = 0 ∧ off.toNat % 64 + len.val < 64 ∧ s.wq f q = some k ∧ k.qid ≠ adminQ) ∧
    (∃ (f : Fin 512) (off : BitVec 22) (len : Fin 64) (s : State), let q := off.toNat / 64; s.decodes f = true ∧ s.fnTeardown f = false ∧
      s.island (19 + f.val / 128) = 0 ∧ off.toNat % 64 + len.val < 64 ∧ s.wq f q = none) ∧
    (∃ (f : Fin 512) (off : BitVec 22) (len : Fin 64) (s : State) (k l : Wq), let q := off.toNat / 64; s.decodes f = true ∧ s.fnTeardown f = false ∧
      s.island (19 + f.val / 128) = 0 ∧ 64 ≤ off.toNat % 64 + len.val ∧ s.wq f q = some k ∧ k.qid ≠ adminQ ∧ s.wq f ((q + 1) % 65536) = some l ∧
      l.qid ≠ adminQ) ∧
    (∃ (f : Fin 512) (s : State) (k : Wq), s.decodes f = true ∧ s.fnTeardown f = false ∧ s.island (19 + f.val / 128) = 0 ∧ s.wq f adminQ = some k) ∧
    (∃ (f : Fin 512) (s : State), s.decodes f = true ∧ s.fnTeardown f = true) :=
  ⟨⟨0, base, by decide +kernel⟩,
    ⟨0, 64, 0, qs (up S1), wk 0 1 true, by decide +kernel⟩,
    ⟨0, 256, 0, qs (up S1), by decide +kernel⟩,
    ⟨0, 124, 10, qs (up S1), wk 0 1 true, wk 0 2 true, by decide +kernel⟩,
    ⟨0, qs (up S1), wk 0 65536 true, by decide +kernel⟩,
    ⟨0, (up S1).wr (R.HPT_FN_STAT_TEARDOWN 0 0) 1, by decide +kernel⟩⟩

theorem witness_Serving :
    (∃ (f : Fin 512) (q : BitVec 17) (k : Wq) (s : State), ∃ e, f.val % 128 = 0 ∧ s.wq f q.toNat = some k ∧ k.fn = f.val ∧ k.qid = q.toNat ∧
      k.pending = true ∧ k.state = 1 ∧ s.fnTeardown f = false ∧ s.busMaster f = true ∧ s.fetchAllowed k = true ∧ s.island 17 = 0 ∧ e ∈ [HostAns.ur,
      .ca, .poison, .timeout]) ∧
    (∃ (f : Fin 512) (q : BitVec 17) (k : Wq) (s : State) (bs : List (BitVec 8)), let own := bitOf (fld (entOf bs) 63 1) 7; f.val % 128 = 0 ∧
      s.wq f q.toNat = some k ∧ k.fn = f.val ∧ k.qid = q.toNat ∧ k.pending = true ∧ k.state = 1 ∧ s.fnTeardown f = false ∧ s.busMaster f = true ∧
      s.fetchAllowed k = true ∧ s.island 17 = 0 ∧ own ≠ k.phase) ∧
    (∃ (f : Fin 512) (q : BitVec 17) (k : Wq) (s : State) (bs : List (BitVec 8)), let own := bitOf (fld (entOf bs) 63 1) 7; f.val % 128 = 0 ∧
      s.wq f q.toNat = some k ∧ k.fn = f.val ∧ k.qid = q.toNat ∧ k.pending = true ∧ k.state = 1 ∧ s.fnTeardown f = false ∧ s.busMaster f = true ∧
      s.fetchAllowed k = true ∧ s.island 17 = 0 ∧ own = k.phase ∧ k.qid ≠ adminQ ∧ s.malformed k (entOf bs) = none ∧ 0 < k.runLen ∧
      s.rd R.PMON_SAMPLE_CFG_WORK_EN = 0) :=
  ⟨⟨0, 1, wk 0 1 true, qs (up S1), HostAns.ur, by decide +kernel⟩,
    ⟨0, 1, wk 0 1 true, qs (up S1), List.replicate 64 (0 : BitVec 8), by decide +kernel⟩,
    ⟨0, 1, wk 0 1 true, qs (up S1), List.map (fun i => BitVec.ofNat 8 (if i = 63 then 128 else if i = 1 then 1 else 0)) (List.range 64),
      by decide +kernel⟩⟩

theorem witness_NopCompletes :
    ∃ (w : BitVec 32) (x : WorkEnt) (k : Wq) (s : State) (r : Ring), s.workEnt w.toNat = some x ∧ fld x.ent 0 1 = 0 ∧ x.qid ≠ adminQ ∧
      s.canBuild x = some k ∧ x.fin = none ∧ x.opens = true ∧ k.qid = x.qid ∧ k.recv = false ∧ k.ents = [w.toNat] ∧ bitOf (fld x.ent 1 1) 0 = true ∧
      s.cqOf x.fn k.cq = some r ∧ r.fn = x.fn ∧ x.fn % 128 = 0 ∧ s.trn.heldWr = [] :=
  ⟨0, { we 0 with opens := true }, { wk 0 1 false with ents := [0] }, (w1 (qs (up S1))).setWork 0 (some { we 0 with opens := true }), rg 0,
    by decide +kernel⟩

theorem witness_AdminQueue :
    (∃ (f : Fin 512) (s : State), s.decodes f = false) ∧
    (∃ (f : Fin 512) (s : State), s.decodes f = true ∧ s.fnTeardown f = true) ∧
    (∃ (f : Fin 512) (v : BitVec 64) (s : State), let p := f.val / 128; let n := f.val % 128; let log := bitsOf v.toNat 0 4; s.decodes f = true ∧
      s.fnTeardown f = false ∧ s.rd (R.HPT_ADMIN_CFG_ENABLE p n) = 0 ∧ v.toNat.testBit 4 = true ∧ 6 ≤ log ∧ log ≤ 12) ∧
    (∃ (f : Fin 512) (v : BitVec 64) (s : State) (k : Wq), let p := f.val / 128; let n := f.val % 128; s.decodes f = true ∧ s.fnTeardown f = false ∧
      s.rd (R.HPT_ADMIN_CFG_ENABLE p n) = 1 ∧ v.toNat.testBit 4 = false ∧ s.wq f adminQ = some k ∧ s.ringHeld k = true) ∧
    (∃ (f : Fin 512) (v : BitVec 64) (s : State) (k : Wq) (u : State), let p := f.val / 128; let n := f.val % 128; s.decodes f = true ∧
      s.fnTeardown f = false ∧ s.rd (R.HPT_ADMIN_CFG_ENABLE p n) = 1 ∧ v.toNat.testBit 4 = false ∧ s.wq f adminQ = some k ∧ s.ringHeld k = false ∧
      s.freshSlot k = (u, false)) ∧
    (∃ (f : Fin 512) (v : BitVec 64) (ans : HostAns) (s : State) (k : Wq) (u : State), let p := f.val / 128; let n := f.val % 128;
      s.decodes f = true ∧ s.fnTeardown f = false ∧ s.rd (R.HPT_ADMIN_CFG_ENABLE p n) = 1 ∧ v.toNat.testBit 4 = false ∧ s.wq f adminQ = some k ∧
      s.ringHeld k = false ∧ s.freshSlot k = (u, true) ∧ quiet k ans = false) ∧
    (∃ (f : Fin 512) (v : BitVec 64) (ans : HostAns) (s : State) (k : Wq) (u : State), let p := f.val / 128; let n := f.val % 128;
      s.decodes f = true ∧ s.fnTeardown f = false ∧ s.rd (R.HPT_ADMIN_CFG_ENABLE p n) = 1 ∧ v.toNat.testBit 4 = false ∧ s.wq f adminQ = some k ∧
      s.ringHeld k = false ∧ s.freshSlot k = (u, true) ∧ quiet k ans = true) ∧
    (∃ (f : Fin 512) (v : BitVec 64) (ans : HostAns) (s : State) (k : Wq) (bs : List (BitVec 8)), let p := f.val / 128; let n := f.val % 128;
      s.decodes f = true ∧ s.fnTeardown f = false ∧ s.rd (R.HPT_ADMIN_CFG_ENABLE p n) = 1 ∧ v.toNat.testBit 4 = false ∧ s.wq f adminQ = some k ∧
      s.ringHeld k = false ∧ k.fn = f.val ∧ n = 0 ∧ ans = .ok bs ∧ quiet k ans = true) :=
  ⟨⟨0, S1, by decide +kernel⟩,
    ⟨0, (up S1).wr (R.HPT_FN_STAT_TEARDOWN 0 0) 1, by decide +kernel⟩,
    ⟨0, 0x16, up S1, by decide +kernel⟩,
    ⟨0, 0, y1.withTrn { y1.trn with ringFault := [(0, adminQ)] }, wk 0 adminQ false, by decide +kernel⟩,
    ⟨170, 0, y1.wr (R.HPT_PORT_STAT_VF_ENABLE 1) 1, wk 170 adminQ false, ((y1.wr (R.HPT_PORT_STAT_VF_ENABLE 1) 1).freshSlot (wk 170 adminQ false)).1,
      by decide +kernel⟩,
    ⟨0, 0, HostAns.ok (List.replicate 63 0 ++ [128]), y1, wk 0 adminQ false, (y1.freshSlot (wk 0 adminQ false)).1, by decide +kernel⟩,
    ⟨0, 0, HostAns.ur, y1, wk 0 adminQ false, (y1.freshSlot (wk 0 adminQ false)).1, by decide +kernel⟩,
    ⟨0, 0, HostAns.ok (List.replicate 64 0), y1, wk 0 adminQ false, List.replicate 64 0, by decide +kernel⟩⟩

theorem witness_Acknowledgements :
    (∃ (f : Fin 512) (s : State), s.decodes f = false) ∧
    (∃ (f : Fin 512) (v : BitVec 64) (r r' : Ring) (s : State), let h := bitsOf v.toNat 0 16; s.decodes f = true ∧ s.fnTeardown f = false ∧
      s.cqOf f h = some r ∧ ackRing r (bitsOf v.toNat 16 20) (bitOf v.toNat 63) = some (r', false) ∧ s.wqs = []) ∧
    (∃ (f : Fin 512) (v : BitVec 64) (r r' : Ring) (s : State), s.decodes f = true ∧ s.fnTeardown f = false ∧
      s.eqOf f (bitsOf v.toNat 0 11) = some r ∧ ackRing r (bitsOf v.toNat 16 16) (bitOf v.toNat 63) = some (r', false)) ∧
    (∃ (f : Fin 512) (v : BitVec 64) (s : State), ∃ i, s.decodes f = true ∧ s.fnTeardown f = false ∧ i ∈ [Instr.hptCqAck f false v,
      .hptEqAck f false v]) ∧
    (∃ (f : Fin 512) (v : BitVec 64) (s : State), let h := bitsOf v.toNat 0 16; s.decodes f = true ∧ s.fnTeardown f = false ∧ s.cqOf f h = none) ∧
    (∃ (f : Fin 512) (v : BitVec 64) (s : State), s.decodes f = true ∧ s.fnTeardown f = false ∧ s.eqOf f (bitsOf v.toNat 0 11) = none) :=
  ⟨⟨0, S1, by decide +kernel⟩,
    ⟨0, 262145, rg 0, ({ rg 0 with used := 1 } : Ring), (up S1).setCq 0 1 (some (rg 0)), by decide +kernel⟩,
    ⟨0, 262145, rg 0, ({ rg 0 with used := 1 } : Ring), qs (up S1), by decide +kernel⟩,
    ⟨0, 0, qs (up S1), Instr.hptCqAck 0 false 0, by decide +kernel⟩,
    ⟨0, 0, qs (up S1), by decide +kernel⟩,
    ⟨0, 0, qs (up S1), by decide +kernel⟩⟩

theorem witness_HostPortsUp :
    (∃ (p : Fin 4) (s : State) (gen : BitVec 3) (width : BitVec 5), s.rd (R.HPT_PORT_CFG_ENABLE p.val) = 1 ∧
      s.rd (R.HPT_PORT_STAT_LINK_UP p.val) = 0 ∧ s.island (19 + p.val) < 2 ∧ s.arb.stoppedUnits = [] ∧ s.rd R.FLT_STATUS_RESET_REQ = 0 ∧
      s.rd R.PWR_CLK_STAT_HP_LOST = 0 ∧ gen ≠ 0 ∧ width.toNat ∈ [1, 2, 4, 8, 16]) ∧
    (∃ (p : Fin 4) (s : State) (n : BitVec 7), s.fnReach (128 * p.val) = true ∧ n.toNat ≤ s.rd (R.HPT_PORT_CFG_TOTAL_VFS p.val) ∧
      s.rd (R.HPT_PORT_STAT_VF_ENABLE p.val) = 0 ∧ (∀ i : Fin 128, s.fnTeardown (128 * p.val + i.val) = false)) :=
  ⟨⟨0, y0, 5, 16, by decide +kernel⟩,
    ⟨0, up S1, 0, by decide +kernel⟩⟩

theorem witness_HostReads :
    (∃ (p : Fin 4) (id : BitVec 32) (s : State), let found := s.reads.find? (fun r => r.id == id.toNat && r.fn / 128 == p.val); found = none) ∧
    (∃ (p : Fin 4) (id : BitVec 32) (ans : HostAns) (s : State) (r : HostRead) (w off len : Nat) (bs : List (BitVec 8)),
      let found := s.reads.find? (fun r => r.id == id.toNat && r.fn / 128 == p.val); found = some r ∧ r.why = .payload w off len ∧ ans = .ok bs) ∧
    (∃ (p : Fin 4) (id : BitVec 32) (ans : HostAns) (s : State) (r : HostRead) (cid epoch psn off len mlen : Nat) (bs : List (BitVec 8)),
      let found := s.reads.find? (fun r => r.id == id.toNat && r.fn / 128 == p.val); found = some r ∧ r.why = .piece cid epoch psn off len mlen ∧
      ans = .ok bs) ∧
    (∃ (p : Fin 4) (id : BitVec 32) (ans : HostAns) (s : State) (r : HostRead) (w : Nat),
      let found := s.reads.find? (fun r => r.id == id.toNat && r.fn / 128 == p.val); found = some r ∧ (r.why = .operand w ∨ (∃ off len : Nat,
      r.why = .payload w off len)) ∧ (∀ bs : List (BitVec 8), ans ≠ .ok bs)) ∧
    (∃ (p : Fin 4) (id : BitVec 32) (ans : HostAns) (s : State) (r : HostRead) (w : Nat) (x : WorkEnt) (bs : List (BitVec 8)),
      let found := s.reads.find? (fun r => r.id == id.toNat && r.fn / 128 == p.val); found = some r ∧ r.why = .operand w ∧ ans = .ok bs ∧
      s.workEnt w = some x ∧ s.island 17 ≠ 1) :=
  ⟨⟨0, 0, base, by decide +kernel⟩,
    ⟨0, 1, HostAns.ok (List.replicate 64 (0 : BitVec 8)), asks (.payload 0 0 64), { id := 1, fn := 0, why := .payload 0 0 64 }, 0, 0, 64,
      List.replicate 64 (0 : BitVec 8), by decide +kernel⟩,
    ⟨0, 1, HostAns.ok (List.replicate 64 (0 : BitVec 8)), asks (.piece 5 1 2 0 64 64), { id := 1, fn := 0, why := .piece 5 1 2 0 64 64 }, 5, 1, 2, 0,
      64, 64, List.replicate 64 (0 : BitVec 8), by decide +kernel⟩,
    ⟨0, 1, HostAns.ur, asks (.operand 3), { id := 1, fn := 0, why := .operand 3 }, 3, by decide +kernel, .inl rfl, fun _ h => nomatch h⟩,
    ⟨0, 1, HostAns.ok (List.replicate 64 (0 : BitVec 8)), (w1 (qs (up S1))).withReads [hr], hr, 0, we 0, List.replicate 64 (0 : BitVec 8),
      by decide +kernel⟩⟩

end Sys2Proof.Tests.L6

namespace Sys2Proof.Tests.L7

set_option Elab.async false

def S1 : State := ((base.wrB R.TIM_STAT_VALID true).withTime { base.time with ft := 5000000 * 65536 }).wr R.GLB_INFO_MODULE_ID 3

def up (s : State) : State := [0,1,2,3].foldl (fun s p => (s.wr (R.HPT_PORT_STAT_LINK_UP p) 1).wr (R.HPT_FN_STAT_ENABLED p 0) 1) s

def le (l : List (Nat × Nat)) : BitVec 512 := BitVec.ofNat 512 (l.foldl (fun a e => a + e.2 * 2 ^ (8 * e.1)) 0)

def cid := cidOf 128 0x80001234 7

def cn : Conn := {fn := 128, peer := 0x80001234, conn := 7, pawn := 3, state := 2, epoch := 77, nextPsn := 4294967295, w := 4096, rto := 8000,
                  seqTx := [(9, 5)]}

def kq : Wq := { fn := 128, qid := 1, base := 4096, log := 6, cq := 1, runLen := 1, job := 5, ents := [7] }

def kr : Wq := { kq with recv := true }

def we (op : Nat) (l : List (Nat × Nat)) : WorkEnt :=
  {fn := 128, qid := 1, ent := le ((0, op) :: l), cid := some cid, dest := some 0x80001234, started := true, lane := 7}

def wr' (op : Nat) (l : List (Nat × Nat)) : WorkEnt := {fn := 128, qid := 1, ent := le ((0, op) :: l)}

def dm : Dom := {fn := 128, num := 9, job := 5, rank := 4, eager := 4096, eq := 0, handler := none, srcUnexp := 100, srcEarly := 100, domUnexp := 100,
                 domMsgs := 100, span := 100, home := 3, nextStamp := 2^64-1, posted := []}

def mg : Msg := {cid := cid, epoch := 77, fn := 128, dom := 9, msn := 3, src := 4, tag := 0, mlen := 300, rts := true, rkey := 8, event := false,
                 state := .unexpected, got := [0]}

def S2 : State := (((((((up S1).wr R.CGC_GRANT_CFG_GRANT_EN 0).wr R.XPT_STORE_STAT_SIZE 1000).setWq 128 1 (some kq)).setConn cid (some
  cn)).setDom 128 9 (some dm)).withJobs [(5, some {fn := 128, jobId := 44, entries := 8, base := 0x1000, xctx := 0xFFFF, eq := 0})]).setMemWord
  (0x1000 + 24) (2^63 + faOfFn 9 3)

def rg : Ring := { fn := 128, h := 1, base := 0, log := 4, vector := 3, next := 5, used := 2, reserved := 1 }

def S3 : State := (S2.setWq 128 1 (some kr)).setCq 128 1 (some rg)

def vpost : WorkEnt := { wr' 0x10 [(2, 9), (48, 66)] with stamp := some 3, started := true }

def wc : WorkEnt := wr' 7 [(2, 21), (34, 0)]

def rgs : Reg := {fn := 128, xctx := 0xFFFF, addr := 0, len := 4096, eq := 0, idx := 0, next := 65535}

def S4 : State := ((S2.wr (R.COL_TREE_A_ACT 6) (21 + 2^16 + 2*2^17 + 2^31)).wr (R.COL_TREE_STAT_STATE 6) 3).withRegs [(21, [rgs])]

def mr1 : Mr := {fn := 0, xctx := 0, rights := 0, addr := 0, len := 0, eq := 0, draining := some 5000000}

def y4 := S2.setWork 7 (some (we 1 [(16, 3000), (8, 32512)]))

/-- An entry whose rank is not resolved yet. -/
def un (op : Nat) (l : List (Nat × Nat)) : WorkEnt := { we op l with dest := none, cid := none }

/-- The handle of message 6 placed for a probe of queue k. -/
def handle (s : State) (x : WorkEnt) (k : Wq) : State × Place := (s.stampWork 7 0).place (ownReq x k 0 true) [sqOfBytes (bytesLE 6144 8)] 0 8

/-- An MPROBE entry that claims what it finds, its handle going to this address. -/
def claim (a : Nat) : WorkEnt := wr' 17 [(2, 9), (4, 4294967295), (8, a), (40, 1)]

/-- Function 128's queue translates through context 5, which no walk has read yet. -/
def S5 : State := (S3.setWq 128 1 (some { kr with xctx := 5 })).setMsg 6 (some mg)

/-- Posted receive 18 with its cancel behind it. -/
def cancel : State :=
  (((S3.setWork 17 (some (wr' 18 [(2, 9), (32, 66)]))).setWork 18 (some vpost)).setWq 128 1 (some { kr with ents := [18, 17] })).setDom 128 9
    (some { dm with posted := [18] })

theorem witness_OneSidedWork :
    (∃ (w : BitVec 32) (cid : Nat) (x : WorkEnt) (k : Wq) (c : Conn) (s : State), x.sent = 0 ∧ x.issued = 0 ∧ x.held = [] ∧
      Builds s w.toNat 1 cid x k c ∧ wlen x = 0 ∧ s.mayStart c 0 = true) ∧
    (∃ (w : BitVec 32) (cid : Nat) (x : WorkEnt) (k : Wq) (c : Conn) (s : State), x.sent = 0 ∧ x.issued = 0 ∧ x.held = [] ∧
      Builds s w.toNat 2 cid x k c ∧ wlen x = 0 ∧ s.mayStart c 0 = true ∧ s.landRoom 1 = true) ∧
    (∃ (w : BitVec 32) (cid : Nat) (x : WorkEnt) (k : Wq) (c : Conn) (s : State), x.sent = 0 ∧ x.issued = 0 ∧ x.held = [] ∧
      Builds s w.toNat 4 cid x k c ∧ waux x ≠ 4 ∧ (c.outst.filter (fun o => o.pkt.opcode == 5)).length < 8) ∧
    (∃ (w : BitVec 32) (cid : Nat) (x : WorkEnt) (k : Wq) (c : Conn) (s : State), x.sent = 0 ∧ x.issued = 0 ∧ x.held = [] ∧
      Builds s w.toNat 5 cid x k c ∧ s.earlier w.toNat = []) :=
  ⟨⟨7, cid, we 1 [(1, 4), (24, 1193046), (20, 99), (32, 55)], kq, cn, S2.setWork 7 (some (we 1 [(1, 4), (24, 1193046), (20, 99), (32, 55)])),
    by decide +kernel⟩,
    ⟨7, cid, we 2 [(24, 1193046), (20, 99), (32, 55)], kq, cn, S2.setWork 7 (some (we 2 [(24, 1193046), (20, 99), (32, 55)])), by decide +kernel⟩,
    ⟨7, cid, we 4 [(2, 1), (32, 4), (40, 9)], kq, cn, S2.setWork 7 (some (we 4 [(2, 1), (32, 4), (40, 9)])), by decide +kernel⟩,
    ⟨7, cid, we 5 [], kq, cn, S2.setWork 7 (some (we 5 [])), by decide +kernel⟩⟩

theorem witness_PayloadReads :
    ∃ (w : BitVec 32) (cid : Nat) (x : WorkEnt) (k : Wq) (c : Conn) (s : State), Builds s w.toNat 1 cid x k c ∧ 0 < wlen x ∧ wlen x ≤ 4096 ∧
      x.sent = 0 ∧ x.issued = 0 ∧ x.held = [] ∧ x.readB = 0 ∧ k.state = 1 ∧ s.rd R.CGC_GRANT_CFG_GRANT_EN = 0 ∧ s.mayFetch cid c (wlen x) = true ∧
      psnRoom c (1 + s.readsOf cid) = true ∧ s.xpt.storeWait = [] ∧ s.storeUsed + squaresFor (wlen x) ≤ s.storeSize ∧ k.xctx = 0xFFFF ∧
      x.fn % 128 = 0 ∧ (∀ i : Fin 16, s.rd (R.TRN_DWIN_BASE_ENABLE (x.fn / 128) i.val) = 0) :=
  ⟨7, cid, we 1 [(16, 3000), (8, 32512)], kq, cn, y4, by decide +kernel⟩

theorem witness_MessageWork :
    (∃ (w : BitVec 32) (x : WorkEnt) (k : Wq) (s : State) (cid : Nat) (c : Conn) (d : Dom), let msn := SMap.get 0 c.seqTx d.num - 1;
      Builds s w.toNat 3 cid x k c ∧ wlen x = 0 ∧ x.sent = 0 ∧ x.issued = 0 ∧ x.readB = 0 ∧ x.held = [] ∧ x.msn = none ∧ s.earlier w.toNat = [] ∧
      s.domain x.fn (waux x) = some d ∧ SMap.get 0 c.seqTx d.num ≠ 0 ∧ s.mayStart c 0 = true) ∧
    (∃ (w : BitVec 32) (x : WorkEnt) (k : Wq) (s : State), s.workEnt w.toNat = some x ∧ x.qid ≠ adminQ ∧ x.fin = none ∧ x.built = false ∧
      x.dest = none ∧ x.readB = 0 ∧ s.canBuild x = some k ∧ s.resolveRank k.job (fld x.ent 4 4) = none ∧ wop x = 8) ∧
    (∃ (w : BitVec 32) (x : WorkEnt) (k : Wq) (s : State), s.workEnt w.toNat = some x ∧ x.qid ≠ adminQ ∧ x.fin = none ∧ x.built = false ∧
      x.dest = none ∧ x.readB = 0 ∧ s.canBuild x = some k ∧ s.resolveRank k.job (fld x.ent 4 4) = none ∧ wop x = 6) ∧
    (∃ (w : BitVec 32) (x : WorkEnt) (k : Wq) (s : State) (fa : Nat), s.workEnt w.toNat = some x ∧ x.qid ≠ adminQ ∧ x.fin = none ∧ x.built = false ∧
      x.dest = none ∧ x.readB = 0 ∧ s.canBuild x = some k ∧ s.resolveRank k.job (fld x.ent 4 4) = some fa ∧ wop x = 8 ∧ wlen x = 0) ∧
    (∃ (w : BitVec 32) (x : WorkEnt) (k : Wq) (s : State) (fa : Nat), s.workEnt w.toNat = some x ∧ x.qid ≠ adminQ ∧ x.fin = none ∧ x.built = false ∧
      x.dest = none ∧ x.readB = 0 ∧ s.canBuild x = some k ∧ s.resolveRank k.job (fld x.ent 4 4) = some fa ∧ wop x = 6 ∧ fld x.ent 20 1 = 0 ∧
      s.landRoom 1 = true) :=
  ⟨⟨7, we 3 [(2, 9)], kq, S2.setWork 7 (some (we 3 [(2, 9)])), cid, cn, dm, by decide +kernel⟩,
    ⟨7, un 8 [(2, 257), (4, 5)], kq, S2.setWork 7 (some (un 8 [(2, 257), (4, 5)])), by decide +kernel⟩,
    ⟨7, un 6 [(2, 4660), (4, 5), (32, 9), (40, 8)], kq, S2.setWork 7 (some (un 6 [(2, 4660), (4, 5), (32, 9), (40, 8)])), by decide +kernel⟩,
    ⟨7, un 8 [(2, 257), (4, 3)], kq, S2.setWork 7 (some (un 8 [(2, 257), (4, 3)])), faOfFn 9 3, by decide +kernel⟩,
    ⟨7, un 6 [(2, 4660), (4, 3), (32, 9), (40, 8)], kq, S2.setWork 7 (some (un 6 [(2, 4660), (4, 3), (32, 9), (40, 8)])), faOfFn 9 3,
      by decide +kernel⟩⟩

theorem witness_ReceiveWork :
    (∃ (w : BitVec 32) (x : WorkEnt) (k : Wq) (d : Dom) (s : State), s.domain x.fn (waux x) = some d ∧ d.fn = x.fn ∧ d.num = waux x ∧
      Turn s w.toNat 0x10 x k ∧ x.msg = none ∧ x.started = false ∧ fld x.ent 40 1 = 0 ∧ s.pickUnexp x.fn d.num w.toNat = none ∧
      s.postedCount < 16777216) ∧
    (∃ (w : BitVec 32) (x : WorkEnt) (k : Wq) (d : Dom) (s : State) (i : Nat) (m : Msg), s.domain x.fn (waux x) = some d ∧ d.fn = x.fn ∧
      d.num = waux x ∧ Turn s w.toNat 0x10 x k ∧ x.msg = none ∧ x.started = false ∧ fld x.ent 40 1 = 0 ∧ s.pickUnexp x.fn d.num w.toNat = some (i,
      m) ∧ i < 2 ^ 22 ∧ m.rts = true) ∧
    (∃ (w : BitVec 32) (x : WorkEnt) (k : Wq) (d : Dom) (s : State), let i := fld x.ent 44 4 / 1024; s.domain x.fn (waux x) = some d ∧ d.fn = x.fn ∧
      d.num = waux x ∧ Turn s w.toNat 0x10 x k ∧ x.msg = none ∧ x.started = false ∧ fld x.ent 40 1 = 1 ∧ s.msgOf i = none) ∧
    (∃ (w : BitVec 32) (x : WorkEnt) (k : Wq) (d : Dom) (s : State) (m : Msg), let i := fld x.ent 44 4 / 1024; s.domain x.fn (waux x) = some d ∧
      d.fn = x.fn ∧ d.num = waux x ∧ Turn s w.toNat 0x10 x k ∧ x.msg = none ∧ x.started = false ∧ fld x.ent 40 1 = 1 ∧ s.msgOf i = some m ∧
      m.state = .held ∧ m.fn = x.fn ∧ m.dom = d.num ∧ SMap.get 0 s.mtc.gens i = fld x.ent 44 4 % 1024 ∧ i < 2 ^ 22 ∧ m.rts = true) ∧
    (∃ (w : BitVec 32) (x : WorkEnt) (k : Wq) (d : Dom) (s : State), s.domain x.fn (waux x) = some d ∧ d.fn = x.fn ∧ d.num = waux x ∧
      Turn s w.toNat 0x11 x k ∧ fld x.ent 40 1 = 0 ∧ s.pickUnexp x.fn d.num w.toNat = none) ∧
    (∃ (w : BitVec 32) (x : WorkEnt) (k : Wq) (d : Dom) (s : State) (i : Nat) (m : Msg), s.domain x.fn (waux x) = some d ∧ d.fn = x.fn ∧
      d.num = waux x ∧ Turn s w.toNat 0x11 x k ∧ fld x.ent 40 1 = 0 ∧ s.pickUnexp x.fn d.num w.toNat = some (i, m)) ∧
    (∃ (w : BitVec 32) (x : WorkEnt) (k : Wq) (d : Dom) (s : State) (i : Nat) (m : Msg) (v : State), let u := s.stampWork w.toNat 0;
      let r := ownReq x k 0 true; let put := u.place r [sqOfBytes (bytesLE (i * 1024 + SMap.get 0 s.mtc.gens i) 8)] 0 8;
      s.domain x.fn (waux x) = some d ∧ d.fn = x.fn ∧ d.num = waux x ∧ Turn s w.toNat 0x11 x k ∧ fld x.ent 40 1 ≠ 0 ∧
      s.pickUnexp x.fn d.num w.toNat = some (i, m) ∧ put = (v, .done)) ∧
    (∃ (w : BitVec 32) (x : WorkEnt) (k : Wq) (d : Dom) (s : State) (i : Nat) (m : Msg) (v : State), let u := s.stampWork w.toNat 0;
      let r := ownReq x k 0 true; let put := u.place r [sqOfBytes (bytesLE (i * 1024 + SMap.get 0 s.mtc.gens i) 8)] 0 8;
      s.domain x.fn (waux x) = some d ∧ d.fn = x.fn ∧ d.num = waux x ∧ Turn s w.toNat 0x11 x k ∧ fld x.ent 40 1 ≠ 0 ∧
      s.pickUnexp x.fn d.num w.toNat = some (i, m) ∧ put = (v, .wait)) ∧
    (∃ (w : BitVec 32) (x : WorkEnt) (k : Wq) (d : Dom) (s : State) (i : Nat) (m : Msg) (v : State) (f : XFault), let u := s.stampWork w.toNat 0;
      let r := ownReq x k 0 true; let put := u.place r [sqOfBytes (bytesLE (i * 1024 + SMap.get 0 s.mtc.gens i) 8)] 0 8;
      s.domain x.fn (waux x) = some d ∧ d.fn = x.fn ∧ d.num = waux x ∧ Turn s w.toNat 0x11 x k ∧ fld x.ent 40 1 ≠ 0 ∧
      s.pickUnexp x.fn d.num w.toNat = some (i, m) ∧ put = (v, .fault f)) ∧
    (∃ (w : BitVec 32) (x : WorkEnt) (k : Wq) (d : Dom) (s : State), s.domain x.fn (waux x) = some d ∧ d.fn = x.fn ∧ d.num = waux x ∧
      Turn s w.toNat 0x12 x k ∧ k.ents = [w.toNat] ∧ x.stamp = none) ∧
    (∃ (w : BitVec 32) (x : WorkEnt) (k : Wq) (d : Dom) (s : State) (v : Nat) (y : WorkEnt) (st : Nat), s.domain x.fn (waux x) = some d ∧
      d.fn = x.fn ∧ d.num = waux x ∧ Turn s w.toNat 0x12 x k ∧ k.ents = [v, w.toNat] ∧ v ≠ w.toNat ∧ x.stamp = none ∧ s.workEnt v = some y ∧
      y.stamp = some st ∧ fld y.ent 48 8 = fld x.ent 32 8 ∧ y.fin = none ∧ y.msg = none ∧ s.domain y.fn (waux y) = some d) :=
  ⟨⟨7, wr' 16 [(2, 9), (4, 4294967295), (16, 100)], kr, dm, (S3).setWork 7 (some (wr' 16 [(2, 9), (4, 4294967295), (16, 100)])), by decide +kernel⟩,
    ⟨7, wr' 16 [(2, 9), (4, 4294967295), (16, 100)], kr, dm, (S3.setMsg 6 (some mg)).setWork 7 (some (wr' 16 [(2, 9), (4, 4294967295), (16, 100)])),
      6, mg, by decide +kernel⟩,
    ⟨7, wr' 16 [(2, 9), (16, 100), (40, 1), (44, 6144)], kr, dm, (S3).setWork 7 (some (wr' 16 [(2, 9), (16, 100), (40, 1), (44, 6144)])),
      by decide +kernel⟩,
    ⟨7, wr' 16 [(2, 9), (16, 100), (40, 1), (44, 6144)], kr, dm, (S3.setMsg 6 (some { mg with state := .held })).setWork 7 (some (wr' 16 [(2, 9), (16,
      100), (40, 1), (44, 6144)])), { mg with state := .held }, by decide +kernel⟩,
    ⟨7, wr' 17 [(2, 9), (4, 4294967295)], kr, dm, (S3).setWork 7 (some (wr' 17 [(2, 9), (4, 4294967295)])), by decide +kernel⟩,
    ⟨7, wr' 17 [(2, 9), (4, 4294967295)], kr, dm, (S3.setMsg 6 (some mg)).setWork 7 (some (wr' 17 [(2, 9), (4, 4294967295)])), 6, mg,
      by decide +kernel⟩,
    ⟨7, claim 4096, kr, dm, (S3.setMsg 6 (some mg)).setWork 7 (some (claim 4096)), 6, mg,
      (handle ((S3.setMsg 6 (some mg)).setWork 7 (some (claim 4096))) (claim 4096) kr).1, by decide +kernel⟩,
    ⟨7, claim 4096, { kr with xctx := 5 }, dm, (S5).setWork 7 (some (claim 4096)), 6, mg,
      (handle (S5.setWork 7 (some (claim 4096))) (claim 4096) { kr with xctx := 5 }).1, by decide +kernel⟩,
    ⟨7, claim (2 ^ 50), { kr with xctx := 5 }, dm, (S5).setWork 7 (some (claim (2 ^ 50))), 6, mg,
      (handle (S5.setWork 7 (some (claim (2 ^ 50)))) (claim (2 ^ 50)) { kr with xctx := 5 }).1,
      { kind := 2, stage2 := false, level := 0, addr := 2 ^ 50 }, by decide +kernel⟩,
    ⟨7, wr' 18 [(2, 9), (32, 66)], kr, dm, (S3).setWork 7 (some (wr' 18 [(2, 9), (32, 66)])), by decide +kernel⟩,
    ⟨17, wr' 18 [(2, 9), (32, 66)], { kr with ents := [18, 17] }, { dm with posted := [18] }, cancel, 18, vpost, 3, by decide +kernel⟩⟩

theorem witness_CollectiveWork :
    (∃ (w : BitVec 32) (x : WorkEnt) (s : State), s.colDown = [] ∧ s.workEnt w.toNat = some x ∧ wop x = 7 ∧ x.qid ≠ adminQ ∧ x.fin = none ∧
      s.fnTeardown x.fn = false ∧ s.treeEntry (waux x) = none) ∧
    (∃ (w : BitVec 32) (x : WorkEnt) (s : State) (m : Nat), s.colDown = [] ∧ s.workEnt w.toNat = some x ∧ wop x = 7 ∧ x.qid ≠ adminQ ∧ x.fin = none ∧
      s.fnTeardown x.fn = false ∧ s.treeEntry (waux x) = some m ∧ s.treeState m ≠ 3) ∧
    (∃ (w : BitVec 32) (x : WorkEnt) (s : State) (m : Nat) (r : Reg), s.colDown = [] ∧ s.workEnt w.toNat = some x ∧ wop x = 7 ∧ x.qid ≠ adminQ ∧
      x.fin = none ∧ s.fnTeardown x.fn = false ∧ s.treeEntry (waux x) = some m ∧ s.treeState m = 3 ∧ x.opseq = none ∧ s.earlier w.toNat = [] ∧
      s.regsOf (waux x) = [r] ∧ r.fn = x.fn ∧ SMap.get 0 (s.tree m).aborts r.next = 0) :=
  ⟨⟨7, wc, S2.setWork 7 (some wc), by decide +kernel⟩,
    ⟨7, wc, (S4.wr (R.COL_TREE_STAT_STATE 6) 2).setWork 7 (some wc), 6, by decide +kernel⟩,
    ⟨7, wc, S4.setWork 7 (some wc), 6, rgs, by decide +kernel⟩⟩

theorem witness_KeyDrains :
    ∃ (i : BitVec 24) (m : Mr) (d : Nat) (s : State), s.mrOf i.toNat = some m ∧ m.draining = some d ∧ d ≤ s.now :=
  ⟨0, mr1, 5000000, base.setMr 0 (some mr1), by decide +kernel⟩

end Sys2Proof.Tests.L7

namespace Sys2Proof.Tests.L8v

set_option Elab.async false

def S1 : State := ((base.wrB R.TIM_STAT_VALID true).withTime { base.time with ft := 5000000 * 65536 }).wr R.GLB_INFO_MODULE_ID 3

def up (s : State) : State := [0,1,2,3].foldl (fun s p => ([0,1,43,127].foldl (fun s n => s.wr (R.HPT_FN_STAT_ENABLED p n) 1) ((s.wr
  (R.HPT_PORT_STAT_LINK_UP p) 1).wr (R.HPT_PORT_POOL_WQ p) 100 |>.wr (R.HPT_PORT_POOL_CQ p) 100 |>.wr (R.HPT_PORT_POOL_EQ p) 100 |>.wr
  (R.HPT_PORT_CFG_JOB_POOL p) 100))) s

def le (l : List (Nat × Nat)) : BitVec 512 := BitVec.ofNat 512 (l.foldl (fun a e => a + e.2 * 2 ^ (8 * e.1)) 0)

def ka : Wq := { fn := 128, qid := adminQ, base := 4096, log := 6, cq := 0, ents := [7] }

def rg (h : Nat) : Ring := { fn := 128, h := h, base := 0x5000, log := 4, vector := 3, next := 37, used := 2, reserved := 1 }

def we (op : Nat) (l : List (Nat × Nat)) : WorkEnt := {fn := 128, qid := adminQ, ent := le ((0, op) :: (if l.any (·.1 = 2) then [] else [(2,
                                                       0xFFFF)]) ++ l ++ [(48, 0x1122334455667788)])}

def dm : Dom := {fn := 128, num := 9, job := 5, rank := 4, eager := 4096, eq := 0, handler := none, srcUnexp := 100, srcEarly := 100, domUnexp := 100,
                 domMsgs := 100, span := 100, home := 3}

def jb : Job := {fn := 128, jobId := 44, entries := 8, base := 0x1000, xctx := 0xFFFF, eq := 0}

def mr8 : Mr := {fn := 128, xctx := 0, rights := 0, addr := 0, len := 0, eq := 0}

def kq : Wq := { fn := 128, qid := 3, base := 4096, log := 6, cq := 1, job := 5 }

def pq : PageReq := {token := 12, fn := 128, xctx := 3, page := 9}

def rgs : Reg := {fn := 128, xctx := 0xFFFF, addr := 0, len := 4096, eq := 0, idx := 0, next := 65535}

def S2 : State := (((((((((((up S1).setWq 128 adminQ (some ka)).setCq 128 0 (some (rg 0))).setCq 128 1 (some (rg 1))).setCq 128 5 (some (rg
  5))).setEq 128 0 (some (rg 0))).setEq 128 5 (some (rg 5))).setWq 128 3 (some kq)).setWq 128 0 (some {kq with qid := 0})).setDom 128 9
  (some dm))).withJobs [(5, some jb), (6, some jb)]

def S3 : State := (S2.withTrn { S2.trn with ctxs := [(128*1024, some {root := 0, life := 1, eq := 0, odp := false}), (128*1024+2,
                                            some {root := 0, life := 1, eq := 0, odp := false}), (128*1024+3,
                                            some {root := 0, life := 1, eq := 0, odp := false})], pages := [pq], shared := [(1,
                                            [{fn := 128, xctx := 3, base := 0, log := 12, out := 0, fpa := 0, attr := 1, expire := 0}])] })

def S4 : State := (S3.wr R.MTC_STAGE_STAT_SIZE 5).setMr 8 (some mr8)

def S5 : State := ((S4.wr (R.COL_TREE_A_ACT 6) (21 + 2^16 + 2*2^17 + 3 * 2^31)).wr (R.COL_TREE_B_ACT 6) 44).wr (R.RTE_MC_TBL_ACT 6 4) 2

def S6 : State := S5.withOpening (some { svn := 0, imageId := 0, commitSvn := false, mode := 0, stackRole := 0, moduleId := 3, svcPawns := [],
                                         ageLimit := 0, stackId := 0, members := 0, member := 0, masterIdx := 0, standbyIdx := 0, portMap := [],
                                         rates := [], txEq := [], vlMask := [], grants := [], parts := [(true,3),(true,0),(true,1)], guarVl := [],
                                         hostPorts := [], defaults := [], handlers := [], reconfAllowed := true, debugAllowed := 0, lockAtBoot := 0,
                                         keySlots := [], faultPolicy := [] })

def S7 : State := (List.range 104).foldl (fun s n => s.wr (R.MTC_PAWN_STAT_STATE n) (if n < 8 then 1 else 0)) S6

/-- Function 128's admin queue holds one command, as work entry 7. -/
def ad (op : Nat) (l : List (Nat × Nat)) : State := S7.setWork 7 (some (we op l))

/-- A REGISTER_MR with regions 9 and 4 free. -/
def freed : State := (S7.withXpt { S7.xpt with freeMr := [9, 4] }).setWork 7 (some (we 0x20 [(4, 0xFFFF), (6, 5), (8, 100), (16, 2 ^ 48 - 100), (24,
  0xFFFF)]))

theorem witness_AdminCompletion :
    ∃ (f w : Nat) (x : WorkEnt) (k : Wq) (r : Ring) (s : State), f < 512 ∧ f % 128 = 0 ∧ s.workEnt w = some x ∧ x.fn = f ∧ x.qid = adminQ ∧
      x.fin = none ∧ s.wq f adminQ = some k ∧ k.qid = adminQ ∧ k.ents = [w] ∧ s.cqOf f k.cq = some r ∧ r.fn = f ∧ s.trn.heldWr = [] ∧
      s.fnTeardown f = false ∧ s.pmon.works = [] ∧ r.armed = false :=
  ⟨128, 7, we 0xA [], ka, rg 0, ad 0xA [], by decide +kernel⟩

theorem witness_AdminObjects :
    (∃ (f : Fin 512) (w g h : Nat) (x : WorkEnt) (k : Wq) (s : State) (n : Nat), let e := x.ent; let c := fun (a : Nat) => AdminCmd s f a w x k g;
      let b := fld e 4 1; c 0x01 ∧ 6 ≤ b % 16 ∧ fld e 8 8 % 4096 = 0 ∧ fld e 16 2 ≠ 0 ∧ (s.cqOf g (fld e 16 2)).isSome = true ∧ (fld e 18 2 = 0xFFFF ∨
      s.jobOk g (fld e 18 2) = true) ∧ s.xctxOk g (fld e 20 2) = true ∧ (s.wqList g).length < s.wqQuota g ∧ s.choosePawn s.pawnWqs = some n ∧
      h < 65536 ∧ Lowest (fun i => (s.wq g i).isNone) 0 h) ∧
    (∃ (f : Fin 512) (w g : Nat) (x : WorkEnt) (k : Wq) (s : State) (v : Wq) (r : Ring) (ans : HostAns), let e := x.ent;
      let c := fun (a : Nat) => AdminCmd s f a w x k g; c 0x02 ∧ s.wq g (fld e 4 2) = some v ∧ v.fn = g ∧ v.state = 1 ∧ v.ents = [] ∧
      s.ringHeld v = false ∧ g % 128 = 0 ∧ s.cqOf g v.cq = some r ∧ quiet v ans = true) ∧
    (∃ (f : Fin 512) (w g h : Nat) (x : WorkEnt) (k : Wq) (s : State), let e := x.ent; let c := fun (a : Nat) => AdminCmd s f a w x k g;
      let log5 := fld e 4 1 % 32; c 0x03 ∧ 6 ≤ log5 ∧ log5 ≤ 20 ∧ fld e 8 8 % 4096 = 0 ∧ (fld e 16 2 = 0xFFFF ∨ fld e 16 2 < 2048) ∧
      (s.cqList g).length < s.cqQuota g ∧ h < 65536 ∧ Lowest (fun i => (s.cqOf g i).isNone) 1 h) ∧
    (∃ (f : Fin 512) (w g : Nat) (x : WorkEnt) (k : Wq) (s : State) (r : Ring), let e := x.ent; let c := fun (a : Nat) => AdminCmd s f a w x k g;
      c 0x04 ∧ s.cqOf g (fld e 4 2) = some r ∧ s.writeHeld g r.base = false ∧ (∀ v ∈ s.wqs, ∀ q, v.2 = some q → q.fn = g → q.cq ≠ fld e 4 2)) ∧
    (∃ (f : Fin 512) (w g h : Nat) (x : WorkEnt) (k : Wq) (s : State), let e := x.ent; let c := fun (a : Nat) => AdminCmd s f a w x k g;
      let log5 := fld e 4 1 % 32; c 0x05 ∧ 6 ≤ log5 ∧ log5 ≤ 16 ∧ fld e 8 8 % 4096 = 0 ∧ (fld e 16 2 = 0xFFFF ∨ fld e 16 2 < 2048) ∧
      (s.eqList g).length < s.eqQuota g ∧ h < 2048 ∧ Lowest (fun i => (s.eqOf g i).isNone) 0 h) ∧
    (∃ (f : Fin 512) (w g : Nat) (x : WorkEnt) (k : Wq) (s : State) (r : Ring), let e := x.ent; let c := fun (a : Nat) => AdminCmd s f a w x k g;
      c 0x06 ∧ fld e 4 2 < 2048 ∧ s.eqOf g (fld e 4 2) = some r ∧ s.writeHeld g r.base = false ∧ s.eqNamed g (fld e 4 2) = false) ∧
    (∃ (f : Fin 512) (w g h : Nat) (x : WorkEnt) (k : Wq) (s : State) (a : Nat), let e := x.ent; let c := fun (a : Nat) => AdminCmd s f a w x k g;
      c 0x07 ∧ s.xctxOk g (fld e 12 2) = true ∧ s.eqOk g (fld e 14 2) = true ∧ (s.jobList g).length < s.jobQuota g ∧
      s.rankPlace (fld e 4 4) = some a ∧ h < 4096 ∧ Lowest (fun i => (s.job i).isNone) 0 h) ∧
    (∃ (f : Fin 512) (w g : Nat) (x : WorkEnt) (k : Wq) (s : State) (j : Job), let e := x.ent; let c := fun (a : Nat) => AdminCmd s f a w x k g;
      c 0x08 ∧ s.job (fld e 4 2) = some j ∧ j.fn = g ∧ (∀ v ∈ s.wqs, ∀ q, v.2 = some q → q.job ≠ fld e 4 2) ∧ (∀ v ∈ s.mtc.doms, ∀ d, v.2 = some d →
      d.job ≠ fld e 4 2)) ∧
    (∃ (f : Fin 512) (w g : Nat) (x : WorkEnt) (k : Wq) (s : State) (j : Job) (bs : List (BitVec 8)), let e := x.ent;
      let c := fun (a : Nat) => AdminCmd s f a w x k g; let n := fld e 12 4; c 0x09 ∧ 1 ≤ n ∧ n ≤ 512 ∧ s.job (fld e 4 2) = some j ∧ j.fn = g ∧
      fld e 8 4 + n ≤ j.entries ∧ g % 128 = 0 ∧ j.xctx = 0xFFFF ∧ s.inWindow (g / 128) (fld e 16 8) = false ∧ fld e 16 8 % 4096 + 8 * n ≤ 4096 ∧
      8 * n ≤ bs.length) :=
  ⟨⟨128, 7, 128, 1, we 1 [(4, 0x16), (8, 0x3000), (16, 1), (18, 5), (20, 2)], ka, ad 1 [(4, 0x16), (8, 0x3000), (16, 1), (18, 5), (20, 2)], 1,
    by decide +kernel⟩,
    ⟨128, 7, 128, we 2 [(4, 3)], ka, ad 2 [(4, 3)], kq, rg 1, HostAns.ur, by decide +kernel⟩,
    ⟨128, 7, 128, 2, we 3 [(4, 20), (8, 0x1000), (16, 2047)], ka, ad 3 [(4, 20), (8, 0x1000), (16, 2047)], by decide +kernel⟩,
    ⟨128, 7, 128, we 4 [(4, 5)], ka, ad 4 [(4, 5)], rg 5, by decide +kernel, by decide +kernel, by decide +kernel, objects _ (by decide +kernel)⟩,
    ⟨128, 7, 128, 1, we 5 [(4, 6), (8, 0x1000), (16, 2047)], ka, ad 5 [(4, 6), (8, 0x1000), (16, 2047)], by decide +kernel⟩,
    ⟨128, 7, 128, we 6 [(4, 5)], ka, ad 6 [(4, 5)], rg 5, by decide +kernel⟩,
    ⟨128, 7, 128, 0, we 7 [(4, 10), (8, 99), (12, 0xFFFF), (14, 0xFFFF)], ka, ad 7 [(4, 10), (8, 99), (12, 0xFFFF), (14, 0xFFFF)], 0x300000,
      by decide +kernel⟩,
    ⟨128, 7, 128, we 8 [(4, 6)], ka, ad 8 [(4, 6)], jb, by decide +kernel, by decide +kernel, by decide +kernel, objects _ (by decide +kernel),
      objects _ (by decide +kernel)⟩,
    ⟨128, 7, 128, we 9 [(4, 5), (8, 2), (12, 3), (16, 0x7FE8)], ka, ad 9 [(4, 5), (8, 2), (12, 3), (16, 0x7FE8)], jb,
      (List.range 64).map (BitVec.ofNat 8), by decide +kernel⟩⟩

theorem witness_AdminFunctions :
    (∃ (f : Fin 512) (w g : Nat) (x : WorkEnt) (k : Wq) (s : State), let c := fun (a : Nat) => AdminCmd s f a w x k g; c 0x0A) ∧
    (∃ (f : Fin 512) (w g : Nat) (x : WorkEnt) (k : Wq) (s : State), let e := x.ent; let p := g / 128; let n := g % 128;
      let c := fun (a : Nat) => AdminCmd s f a w x k g;
      let t := (((s.wr (R.HPT_FN_QUOTA_WQ p n) (fld e 4 4)).wr (R.HPT_FN_QUOTA_CQ p n) (fld e 8 2)).wr (R.HPT_FN_QUOTA_EQ p n) (fld e 10 2)).wr
        (R.HPT_FN_QUOTA_JOB p n) (fld e 12 2); let admins := ((List.range 128).filter (fun i => (s.cqOf (128 * p + i) 0).isSome)).length; c 0x0B ∧
      n ≠ 0 ∧ f.val % 128 = 0 ∧ fld e 4 4 ≤ 65536 ∧ fld e 10 2 ≤ 2048 ∧ fld e 12 2 ≤ 4096 ∧ s.wqList g = [] ∧ s.cqList g = [] ∧ s.eqList g = [] ∧
      s.jobList g = [] ∧ t.quotaSum (R.HPT_FN_QUOTA_WQ p) + (s.wqList (128 * p)).length ≤ s.rd (R.HPT_PORT_POOL_WQ p) ∧
      t.quotaSum (R.HPT_FN_QUOTA_CQ p) + (s.cqList (128 * p)).length + admins ≤ s.rd (R.HPT_PORT_POOL_CQ p) ∧
      t.quotaSum (R.HPT_FN_QUOTA_EQ p) + (s.eqList (128 * p)).length ≤ s.rd (R.HPT_PORT_POOL_EQ p) ∧
      t.quotaSum (R.HPT_FN_QUOTA_JOB p) + (s.jobList (128 * p)).length ≤ s.rd (R.HPT_PORT_CFG_JOB_POOL p)) ∧
    (∃ (f : Fin 512) (w g : Nat) (x : WorkEnt) (k : Wq) (s : State), let c := fun (a : Nat) => AdminCmd s f a w x k g; c 0x0C ∧ f.val % 128 = 0) ∧
    (∃ (f : Fin 512) (w g : Nat) (x : WorkEnt) (k : Wq) (s : State), let c := fun (a : Nat) => AdminCmd s f a w x k g; c 0x0D) :=
  ⟨⟨128, 7, 128, we 0xA [], ka, ad 0xA [], by decide +kernel⟩,
    ⟨128, 7, 129, we 0xB [(2, 1), (4, 50), (8, 20), (10, 4), (12, 6)], ka, ad 0xB [(2, 1), (4, 50), (8, 20), (10, 4), (12, 6)], by decide +kernel⟩,
    ⟨128, 7, 255, we 0xC [(2, 127), (4, 1)], ka, ad 0xC [(2, 127), (4, 1)], by decide +kernel⟩,
    ⟨128, 7, 128, we 0xD [], ka, ad 0xD [], by decide +kernel⟩⟩

theorem witness_AdminTranslation :
    (∃ (f : Fin 512) (w g h : Nat) (x : WorkEnt) (k : Wq) (s : State), let e := x.ent; let c := fun (a : Nat) => AdminCmd s f a w x k g; c 0x10 ∧
      g = f ∧ fld e 16 4 ≤ 100000 ∧ fld e 8 8 % 4096 = 0 ∧ fld e 8 8 < 2 ^ 52 ∧ s.eqOk f (fld e 20 2) = true ∧ h < 1024 ∧ s.trn.ctxs.length < 16384 ∧
      Lowest (fun i => (s.xctxOf f i).isNone) 0 h) ∧
    (∃ (f : Fin 512) (w g : Nat) (x : WorkEnt) (k : Wq) (s : State), let e := x.ent; let c := fun (a : Nat) => AdminCmd s f a w x k g; c 0x11 ∧
      g = f ∧ fld e 4 2 < 1024 ∧ (s.xctxOf f (fld e 4 2)).isSome = true ∧ s.xctxNamed f (fld e 4 2) = false) ∧
    (∃ (f : Fin 512) (w g : Nat) (x : WorkEnt) (k : Wq) (s : State), let e := x.ent; let c := fun (a : Nat) => AdminCmd s f a w x k g; c 0x12 ∧
      g = f ∧ fld e 4 2 < 1024 ∧ fld e 6 1 = 1 ∧ (s.xctxOf f (fld e 4 2)).isSome = true) ∧
    (∃ (f : Fin 512) (w : Nat) (x : WorkEnt) (k : Wq) (s : State) (v : List Nat × List (Nat × Nat)), let e := x.ent; s.wq f adminQ = some k ∧
      k.inv = some v ∧ k.ents.head? = some w ∧ s.workEnt w = some x ∧ fld e 0 1 ≠ 0x21 ∧ s.invOver v = true) ∧
    (∃ (f : Fin 512) (w g : Nat) (x : WorkEnt) (k : Wq) (s : State) (q : PageReq), let e := x.ent; let c := fun (a : Nat) => AdminCmd s f a w x k g;
      c 0x13 ∧ g = f ∧ fld e 8 1 ≤ 1 ∧ s.trn.pages.find? (fun q => q.token == fld e 4 4 && q.fn / 128 == f.val / 128) = some q ∧ q.fn = f ∧
      q.xctx ≠ 0xFFFF ∧ q.waiters = []) ∧
    (∃ (f : Fin 512) (w g : Nat) (x : WorkEnt) (k : Wq) (s : State) (q : PageReq), let e := x.ent; let c := fun (a : Nat) => AdminCmd s f a w x k g;
      c 0x13 ∧ f.val % 128 = 0 ∧ fld e 8 1 ≤ 1 ∧ s.trn.pages.find? (fun q => q.token == fld e 4 4 && q.fn / 128 == f.val / 128) = some q ∧
      q.xctx = 0xFFFF ∧ q.fn = g ∧ q.waiters = []) ∧
    (∃ (f : Fin 512) (w g : Nat) (x : WorkEnt) (k : Wq) (s : State), let e := x.ent; let c := fun (a : Nat) => AdminCmd s f a w x k g;
      let i := fld e 4 1; c 0x14 ∧ g = f ∧ f.val % 128 = 0 ∧ i < 16 ∧ fld e 8 8 % 4096 = 0 ∧ fld e 16 8 ≠ 0 ∧ fld e 16 8 % 4096 = 0) ∧
    (∃ (f : Fin 512) (w g : Nat) (x : WorkEnt) (k : Wq) (s : State), let e := x.ent; let c := fun (a : Nat) => AdminCmd s f a w x k g; c 0x15 ∧
      f.val % 128 = 0 ∧ g % 128 ≠ 0 ∧ fld e 16 4 ≤ 100000 ∧ fld e 8 8 % 4096 = 0 ∧ fld e 8 8 < 2 ^ 52 ∧ s.rd (R.TRN_S2_CFG_ENABLE g) = 0) :=
  ⟨⟨128, 7, 128, 1, we 0x10 [(8, 0x7000), (20, 0xFFFF), (22, 1)], ka, ad 0x10 [(8, 0x7000), (20, 0xFFFF), (22, 1)], by decide +kernel⟩,
    ⟨128, 7, 128, we 0x11 [(4, 3)], ka, ad 0x11 [(4, 3)], by decide +kernel⟩,
    ⟨128, 7, 128, we 0x12 [(4, 3), (6, 1)], ka, ad 0x12 [(4, 3), (6, 1)], by decide +kernel⟩,
    ⟨128, 7, we 0x12 [(4, 3), (6, 1)], { ka with inv := some ([5], []) }, (ad 0x12 [(4, 3), (6,
      1)]).setWq 128 adminQ (some { ka with inv := some ([5], []) }), ([5], []), by decide +kernel⟩,
    ⟨128, 7, 128, we 0x13 [(4, 12)], ka, ad 0x13 [(4, 12)], pq, by decide +kernel⟩,
    ⟨128, 7, 129, we 0x13 [(2, 1), (4, 12)], ka, (ad 0x13 [(2, 1), (4,
      12)]).withTrn { (ad 0x13 [(2, 1), (4, 12)]).trn with pages := [{ pq with xctx := 0xFFFF, fn := 129 }] }, { pq with xctx := 0xFFFF, fn := 129 },
      by decide +kernel⟩,
    ⟨128, 7, 128, we 0x14 [(4, 15), (5, 1), (8, 0x1234000), (16, 0x2000)], ka, ad 0x14 [(4, 15), (5, 1), (8, 0x1234000), (16, 0x2000)],
      by decide +kernel⟩,
    ⟨128, 7, 171, we 0x15 [(2, 43), (8, 0x9000), (16, 77), (22, 3)], ka, ad 0x15 [(2, 43), (8, 0x9000), (16, 77), (22, 3)], by decide +kernel⟩⟩

theorem witness_AdminRegions :
    (∃ (f : Fin 512) (w : Nat) (x : WorkEnt) (k : Wq) (s : State), let e := x.ent; let c := fun (a : Nat) => AdminCmd s f a w x k f; c 0x20 ∧
      0 < fld e 16 8 ∧ fld e 8 8 + fld e 16 8 ≤ 2 ^ 48 ∧ s.xctxOk f (fld e 4 2) = true ∧ s.eqOk f (fld e 24 2) = true ∧ s.xpt.freeMr = [] ∧
      s.xpt.nextMr < 2 ^ 24) ∧
    (∃ (f : Fin 512) (w : Nat) (x : WorkEnt) (k : Wq) (s : State) (i : Nat) (rest : List Nat), let e := x.ent;
      let c := fun (a : Nat) => AdminCmd s f a w x k f; c 0x20 ∧ 0 < fld e 16 8 ∧ fld e 8 8 + fld e 16 8 ≤ 2 ^ 48 ∧ s.xctxOk f (fld e 4 2) = true ∧
      s.eqOk f (fld e 24 2) = true ∧ s.xpt.freeMr = i :: rest) ∧
    (∃ (f : Fin 512) (w : Nat) (x : WorkEnt) (k : Wq) (s : State) (m : Mr), let e := x.ent; let c := fun (a : Nat) => AdminCmd s f a w x k f;
      let i := fld e 4 4 / 256; c 0x21 ∧ s.mrOf i = some m ∧ m.fn = f ∧ m.work = none ∧ m.draining = none ∧ s.mrGen i = fld e 4 4 % 256 ∧
      s.reads = [] ∧ s.xpt.atomicOps = []) ∧
    (∃ (f : Fin 512) (w : Nat) (x : WorkEnt) (k : Wq) (s : State) (j : Job) (n : Nat), let e := x.ent;
      let c := fun (a : Nat) => AdminCmd s f a w x k f; c 0x28 ∧ (fld e 12 4 ≤ 262144 ∨ fld e 12 4 = 0xFFFFFFFF) ∧ fld e 18 1 % 16 / 8 = 0 ∧
      s.domain f (fld e 4 2) = none ∧ s.job (fld e 6 2) = some j ∧ j.fn = f ∧ s.eqOk f (fld e 16 2) = true ∧ fld e 8 4 < j.entries ∧
      s.choosePawn s.pawnDoms = some n ∧ s.mtc.doms.length < 262144) ∧
    (∃ (f : Fin 512) (w : Nat) (x : WorkEnt) (k : Wq) (s : State) (d : Dom), let e := x.ent; let c := fun (a : Nat) => AdminCmd s f a w x k f;
      c 0x29 ∧ s.domain f (fld e 4 2) = some d ∧ d.posted = [] ∧ s.liveMsgs = []) ∧
    (∃ (f : Fin 512) (w h : Nat) (x : WorkEnt) (k : Wq) (s : State) (m : Nat), let e := x.ent; let c := fun (a : Nat) => AdminCmd s f a w x k f;
      let l := s.regsOf (fld e 4 2); c 0x30 ∧ 0 < fld e 16 8 ∧ fld e 16 8 ≤ 2 ^ 48 ∧ s.treeEntry (fld e 4 2) = some m ∧ (∃ j ∈ s.jobs, ∃ q,
      j.2 = some q ∧ q.fn = f ∧ q.jobId = bitsOf (s.rd (R.COL_TREE_B_ACT m)) 0 32) ∧ bitOf (s.maskWord m 4) (f.val / 128) = true ∧
      s.xctxOk f (fld e 6 2) = true ∧ s.eqOk f (fld e 24 2) = true ∧ (∀ r ∈ l, r.fn ≠ f) ∧ l.length < s.treeLocals m ∧ h < 32 ∧
      Lowest (fun i => l.all (fun r => r.idx != i)) 0 h) ∧
    (∃ (f : Fin 512) (w : Nat) (x : WorkEnt) (k : Wq) (s : State) (r : Reg), let e := x.ent; let c := fun (a : Nat) => AdminCmd s f a w x k f;
      c 0x31 ∧ s.regsOf (fld e 4 2) = [r] ∧ r.fn = f ∧ (∀ v ∈ s.work, ∀ y, v.2 = some y → y.fn = f → wop y = 7 → waux y ≠ fld e 4 2)) :=
  ⟨⟨128, 7, we 0x20 [(4, 0xFFFF), (6, 5), (8, 100), (16, 2 ^ 48 - 100), (24, 0xFFFF)], ka, ad 0x20 [(4, 0xFFFF), (6, 5), (8, 100), (16, 2 ^ 48 - 100),
    (24, 0xFFFF)], by decide +kernel⟩,
    ⟨128, 7, we 0x20 [(4, 0xFFFF), (6, 5), (8, 100), (16, 2 ^ 48 - 100), (24, 0xFFFF)], ka, freed, 9, [4], by decide +kernel⟩,
    ⟨128, 7, we 0x21 [(4, 8 * 256)], ka, ad 0x21 [(4, 8 * 256)], mr8, by decide +kernel⟩,
    ⟨128, 7, we 0x28 [(4, 77), (6, 5), (8, 7), (12, 999), (16, 0xFFFF), (36, 9)], ka, ad 0x28 [(4, 77), (6, 5), (8, 7), (12, 999), (16, 0xFFFF), (36,
      9)], jb, 0, by decide +kernel⟩,
    ⟨128, 7, we 0x29 [(4, 9)], ka, ad 0x29 [(4, 9)], dm, by decide +kernel⟩,
    ⟨128, 7, 0, we 0x30 [(4, 21), (6, 0xFFFF), (8, 0x4000), (16, 2 ^ 48), (24, 0xFFFF)], ka, ad 0x30 [(4, 21), (6, 0xFFFF), (8, 0x4000), (16, 2 ^ 48),
      (24, 0xFFFF)], 6, by decide +kernel, by decide +kernel, by decide +kernel, by decide +kernel, ⟨(5, some jb), by decide +kernel, jb,
      by decide +kernel⟩, by decide +kernel⟩,
    ⟨128, 7, we 0x31 [(4, 21)], ka, (S7.withRegs [(21, [rgs])]).setWork 7 (some (we 0x31 [(4, 21)])), rgs, by decide +kernel, by decide +kernel,
      by decide +kernel, objects _ (by decide +kernel)⟩⟩

end Sys2Proof.Tests.L8v

namespace Sys2Proof.Tests.L9

set_option Elab.async false

def S1 : State := ((base.wrB R.TIM_STAT_VALID true).withTime { base.time with ft := 5000000 * 65536 }).wr R.GLB_INFO_MODULE_ID 3 |>.withNow
  50000007

def fsl : List Nat := [0, 128, 129,  511, 170]

def up (s : State) : State := fsl.foldl (fun s f => (s.wr (R.HPT_PORT_STAT_LINK_UP (f/128)) 1).wr (R.HPT_FN_STAT_ENABLED (f/128) (f%128)) 1)
  s

def lk (s : State) : State := fsl.foldl (fun s f => (s.wr (R.HPT_PORT_STAT_LINK_UP (f/128)) 1) |>.wr (R.HPT_PORT_STAT_GEN (f/128)) 3) s

def vf (s : State) : State := [0,1,2,3].foldl (fun s p => ((s.wr (R.HPT_PORT_STAT_LINK_UP p) 1).wr (R.HPT_FN_STAT_ENABLED p 0) 1).wr
  (R.HPT_PORT_STAT_VF_ENABLE p) 1 |>.wr (R.HPT_PORT_STAT_NUM_VFS p) 5|>.wr (R.HPT_PORT_CFG_TOTAL_VFS p) 100) s

def td (s : State) : State := fsl.foldl (fun s f => (s.wr (R.HPT_FN_STAT_TEARDOWN (f/128) (f%128)) 1 |>.wr (R.HPT_FN_STAT_TEARDOWN (f/128)
  0) 1).setFn f { s.fnSt f with tornAt := some 7 }) (up s)

def rq : XReq := {fn := 128, xctx := 3, addr := 0x7ABCDEF12345, wr := true}

def cx : Xctx := {root := 0x5000, life := 10, eq := 0, odp := true}

def le8 (n : Nat) : List (BitVec 8) := (List.range 8).map (fun i => BitVec.ofNat 8 (n / 256 ^ i))

def y0 := (S1.withTrn (({ S1.trn with ctxs := [(128 * 1024 + 3, some cx)], walks := [rq, ({ rq with addr := 0 } : XReq)] } : TrnSt)))

theorem witness_TeardownTriggers :
    (∃ (f : Fin 512) (s : State), s.fnReach f = true) ∧
    (∃ (p : Fin 4) (s : State), s.rd (R.HPT_PORT_STAT_LINK_UP p.val) = 1) ∧
    (∃ (ns : BitVec 32), 1000 ≤ ns.toNat) ∧
    (∃ (ns : BitVec 32), ns.toNat < 1000) ∧
    (∃ (p : Fin 4) (s : State), (∀ n : Fin 128, s.rd (R.HPT_FN_STAT_ENABLED p.val n.val) = 0) ∧ s.rd (R.HPT_PORT_STAT_LINK_UP p.val) = 1) ∧
    (∃ (m : Master) (f : Fin 512) (s : State), Reaches s m (0x910008 + 0x40000 * (f.val / 128) + 0x100 * (f.val % 128))) ∧
    (∃ (p : Fin 4) (n : BitVec 7) (s : State), let pf := 128 * p.val; s.fnReach (128 * p.val) = true ∧ s.rd (R.HPT_PORT_STAT_VF_ENABLE p.val) = 1 ∧
      s.vfsOf p.val = [] ∧ n.toNat ≠ (s.fnSt pf).recreate.getD (s.rd (R.HPT_PORT_STAT_NUM_VFS p.val)) ∧
      n.toNat ≤ s.rd (R.HPT_PORT_CFG_TOTAL_VFS p.val) ∧ (∃ i : Fin 128, s.fnTeardown (pf + i.val) = true)) ∧
    (∃ (p : Fin 4) (n : BitVec 7) (s : State), let pf := 128 * p.val; s.fnReach (128 * p.val) = true ∧ s.rd (R.HPT_PORT_STAT_VF_ENABLE p.val) = 1 ∧
      s.vfsOf p.val = [] ∧ n.toNat ≠ (s.fnSt pf).recreate.getD (s.rd (R.HPT_PORT_STAT_NUM_VFS p.val)) ∧
      n.toNat ≤ s.rd (R.HPT_PORT_CFG_TOTAL_VFS p.val) ∧ (∀ i : Fin 128, s.fnTeardown (pf + i.val) = false)) :=
  ⟨⟨128, up S1, by decide +kernel⟩,
    ⟨0, lk S1, by decide +kernel⟩,
    ⟨1000, by decide +kernel⟩,
    ⟨0, by decide +kernel⟩,
    ⟨0, lk S1, by decide +kernel⟩,
    ⟨Master.arbiter, 128, S1, by decide +kernel⟩,
    ⟨0, 7, (vf S1).wr (R.HPT_FN_STAT_TEARDOWN 0 0) 1, by decide +kernel⟩,
    ⟨0, 7, vf S1, by decide +kernel⟩⟩

theorem witness_TeardownBegins :
    (∃ (f : Fin 512) (s : State), let p := f.val / 128; let n := f.val % 128; n ≠ 0 ∧ s.rd (R.HPT_FN_STAT_ENABLED p n) = 1 ∧
      s.rd (R.HPT_FN_STAT_TEARDOWN p n) = 1) ∧
    (∃ (f : Fin 512) (s : State), let p := f.val / 128; let n := f.val % 128; n ≠ 0 ∧ s.rd (R.HPT_FN_STAT_ENABLED p n) = 1 ∧
      s.rd (R.HPT_FN_STAT_TEARDOWN p n) = 0 ∧ s.work = [] ∧ s.wqs = [] ∧ s.xpt.conns = [] ∧ s.xpt.mrs = [] ∧ s.mtc.msgs = [] ∧ s.regs = [] ∧
      s.trn.pages = [] ∧ s.usedWords = [] ∧ (s.fnSt f).peers = [] ∧ s.xpt.atomicOps = [] ∧ s.lin = [] ∧ s.buf = []) :=
  ⟨⟨129, td S1, by decide +kernel⟩,
    ⟨129, up S1, by decide +kernel⟩⟩

theorem witness_TeardownEnds :
    (∃ (f : Fin 512) (at_ : Nat) (s : State), (s.fnSt f).tornAt = some at_ ∧ s.fnTeardown f = true ∧ at_ + 50000000 ≤ s.now) ∧
    (∃ (f : Fin 512) (at_ : Nat) (s : State), (s.fnSt f).tornAt = some at_ ∧ s.fnTeardown f = true ∧ s.now < at_ + 50000000) ∧
    (∃ (f : Fin 512) (at_ : Nat) (s : State), let p := f.val / 128; let n := f.val % 128; (s.fnSt f).tornAt = some at_ ∧ s.fnTeardown f = true ∧
      n ≠ 0 ∧ s.reads = [] ∧ s.xpt.atomicOps = [] ∧ s.xpt.flushOps = [] ∧ (s.fnSt f).gone = false ∧ s.eqOf (128 * p) 0 = none ∧
      (s.fnSt (128 * p)).recreate = none) :=
  ⟨⟨128, 7, td S1, by decide +kernel⟩,
    ⟨128, 7, (td S1).withNow 60, by decide +kernel⟩,
    ⟨129, 7, td S1, by decide +kernel⟩⟩

theorem witness_TableWalks :
    (∃ (r : XReq) (rest : List XReq) (c : Xctx) (s : State) (bs : List (BitVec 8)), let p := r.fn / 128;
      let e := fun (bs : List (BitVec 8)) => leOf (bs.map BitVec.toNat) % 2 ^ 64; s.trn.walks = r :: rest ∧ r.fn % 128 = 0 ∧ r.xctx ≠ 0xFFFF ∧
      r.pawn = none ∧ r.ring = false ∧ s.xctxOf r.fn r.xctx = some c ∧ SMap.get [] s.trn.shared p = [] ∧ SMap.get [] s.trn.walk p = [] ∧
      s.trn.micro = [] ∧ s.trn.heldWr = [] ∧ (∀ i : Fin 16, s.rd (R.TRN_DWIN_BASE_ENABLE p i.val) = 0) ∧ e bs % 2 = 0) ∧
    (∃ (r : XReq) (rest : List XReq) (c : Xctx) (s : State) (b0 b1 b2 b3 : List (BitVec 8)), let p := r.fn / 128;
      let e := fun (bs : List (BitVec 8)) => leOf (bs.map BitVec.toNat) % 2 ^ 64; s.trn.walks = r :: rest ∧ r.fn % 128 = 0 ∧ r.xctx ≠ 0xFFFF ∧
      r.pawn = none ∧ r.ring = false ∧ s.xctxOf r.fn r.xctx = some c ∧ SMap.get [] s.trn.shared p = [] ∧ SMap.get [] s.trn.walk p = [] ∧
      s.trn.micro = [] ∧ s.trn.heldWr = [] ∧ (∀ i : Fin 16, s.rd (R.TRN_DWIN_BASE_ENABLE p i.val) = 0) ∧ e b0 % 2 = 1 ∧ e b1 % 4 = 1 ∧ e b2 % 4 = 1 ∧
      e b3 % 2 = 1 ∧ bitsOf (e b3) 2 5 &&& attrNeed r = attrNeed r) :=
  ⟨⟨rq, [{ rq with addr := 0 }], cx, y0, [], by decide +kernel⟩,
    ⟨rq, [{ rq with addr := 0 }], cx, y0, le8 0x6001, le8 0x7001, le8 0x8001, le8 0x907D, by decide +kernel⟩⟩

end Sys2Proof.Tests.L9

namespace Sys2Proof.Tests.L10

set_option Elab.async false

def S1 : State := (((((base.wrB R.TIM_STAT_VALID true).withTime { base.time with ft := 5000000 * 65536 }).wr R.GLB_INFO_MODULE_ID 3
  |>.withNow 50000007).wr (R.HPT_PORT_STAT_LINK_UP 1) 1).wr (R.HPT_FN_STAT_ENABLED 1 0) 1).wr R.SWC_AGE_CFG_AGE_LIMIT 4

def peer := 0x80001234

def cid := cidOf 128 peer 7

def rq (o psn : Nat) (ack : Bool) : Pkt := (mkPkt {dest := faOfFn 3 128, src := peer, opcode := o, conn := 7, epoch := 77, psn := psn, ackreq := ack}
  (mkArea [(36, 4, 5), (44, 4, 1)]) []).seal 1234

def op (psn : Nat) (a : Bool) : OutPkt := {psn := psn, pkt := rq 1 psn false, work := none, last := 6, answer := a, bytes := 0, store := 0}

def cn : Conn := {fn := 128, peer := peer, conn := 7, pawn := 3, state := 2, epoch := 77, nextPsn := 4294967295, w := 4096, rto := 8000,
                  e := 4294967295, ackFrom := some 7, hold := some 7, outst := [op 4294967290 false, op 4294967292 true, op 4294967293 false],
                  retry := 1, nakRetry := some (2, 4294967292, 3), nakSince := some 3, lastCode := 2}

def cq : Conn := {cn with outst := [], ackFrom := none, nakRetry := some (2, 5, 3)}

def ao : AtomicOp := {cid := cid, epoch := 77, pkt := rq 5 4294967295 false, port := 1, bus := 8}

def re (o : Nat) : Pkt := (mkPkt {dest := faOfFn 3 128, src := peer, opcode := o, conn := 7, epoch := 77, psn := 4294967292} (mkArea [])
  []).seal 1234

def S2 : State := S1.setConn cid (some cn)

def q (s : State) (p : Pkt) : State := (s.withEngReq [p]).withEngFwd [p]

def y0 := (({ cq with inOp := [(4294967295, rq 5 4294967295 false)] } : Conn))

def y1 := ((S2.withXpt (({ S2.xpt with storeWait := [(0, 1), (103, 1000000), (34, 2)], flushOps := [(cid, 77, 99)] } : XptSt))).wr
  R.XPT_STORE_STAT_SIZE 100)

def y3 := (({ cn with bitmap := [5], ackFrom := some 50000000 } : Conn))

def y4 := ((S2.wr R.XPT_CONN_CFG_NAK_RETRY_LIMIT 1).wr R.XPT_RTO_CFG_RETRY_MAX 2)

def y5 := (({ cn with outst := [op 4294967292 true] } : Conn))

theorem witness_RequestsArrive :
    (∃ (fwd : Bool) (p : Pkt) (rest : List Pkt) (s : State), let f := faFn p.destFa; takePkt isXpt (if fwd then s.engFwd else s.engReq) = some (p,
      rest) ∧ s.timeValid = true ∧ crcOk p = true ∧ s.fnLive f = false) ∧
    (∃ (fwd : Bool) (p : Pkt) (rest : List Pkt) (s : State) (c : Conn), let f := faFn p.destFa; let cid := cidOf f p.srcFa p.conn;
      takePkt isXpt (if fwd then s.engFwd else s.engReq) = some (p, rest) ∧ s.timeValid = true ∧ crcOk p = true ∧ s.fnLive f = true ∧
      s.tombed cid p.epoch = false ∧ s.conn cid = some c ∧ c.lost = false ∧ c.epoch = p.epoch ∧ c.bitmap = [] ∧ c.refusal = none ∧ c.fn = f ∧
      c.peer = p.srcFa ∧ c.conn = p.conn ∧ c.inOp = [] ∧ s.xpt.conns.length < 65536 ∧ p.opcode = 7 ∧ p.ackreq = true ∧ p.psn = c.e ∧ c.e < 2 ^ 32) ∧
    (∃ (fwd : Bool) (p : Pkt) (rest : List Pkt) (s : State) (c : Conn), let f := faFn p.destFa; let cid := cidOf f p.srcFa p.conn;
      takePkt isXpt (if fwd then s.engFwd else s.engReq) = some (p, rest) ∧ s.timeValid = true ∧ crcOk p = true ∧ s.fnLive f = true ∧
      s.tombed cid p.epoch = false ∧ s.conn cid = some c ∧ c.lost = false ∧ c.epoch = p.epoch ∧ c.bitmap = [] ∧ c.refusal = none ∧ c.fn = f ∧
      c.peer = p.srcFa ∧ c.conn = p.conn ∧ c.inOp = [] ∧ s.xpt.conns.length < 65536 ∧ p.opcode = 1 ∧ 2 ^ 31 ≤ (p.psn + 2 ^ 32 - c.e) % 2 ^ 32) :=
  ⟨⟨false = true, rq 1 0 true, [], q (S2.wr (R.HPT_FN_STAT_ENABLED 1 0) 0) (rq 1 0 true), by decide +kernel⟩,
    ⟨false = true, rq 7 4294967295 true, [], q S2 (rq 7 4294967295 true), cn, by decide +kernel⟩,
    ⟨false = true, rq 1 4294967294 true, [], q S2 (rq 1 4294967294 true), cn, by decide +kernel⟩⟩

theorem witness_Acknowledging :
    (∃ (p : Pkt) (rest : List Pkt) (s : State), let cid := cidOf (faFn p.destFa) p.srcFa p.conn;
      takePkt (fun p => p.opcode == 0x40 || p.opcode == 0x41) s.engRep = some (p, rest) ∧ crcOk p = true ∧ s.conn cid = none) ∧
    (∃ (p : Pkt) (rest : List Pkt) (s : State) (c : Conn), let cid := cidOf (faFn p.destFa) p.srcFa p.conn;
      takePkt (fun p => p.opcode == 0x40 || p.opcode == 0x41) s.engRep = some (p, rest) ∧ crcOk p = true ∧ s.conn cid = some c ∧ c.lost = false ∧
      c.epoch = p.epoch ∧ c.state = 2 ∧ p.opcode = 0x40 ∧ p.ackCode = 0 ∧ s.xpt.conns.length < 65536 ∧ (∀ o ∈ c.outst, o.pkt.opcode ≠ 8) ∧
      s.frozen c = false ∧ c.frozenAt = none) ∧
    (∃ (f : Fin 512) (peer : BitVec 32) (cn : BitVec 16) (c : Conn) (at_ : Nat) (s : State), let cid := cidOf f peer.toNat cn.toNat;
      s.conn cid = some c ∧ c.lost = false ∧ c.ackFrom = some at_ ∧ at_ + c.ackDelay ≤ s.now) ∧
    (∃ (f : Fin 512) (peer : BitVec 32) (cn : BitVec 16) (c : Conn) (at_ : Nat) (s : State), let cid := cidOf f peer.toNat cn.toNat;
      s.conn cid = some c ∧ c.lost = false ∧ c.ackFrom = some at_ ∧ s.now < at_ + c.ackDelay) ∧
    (∃ (f : Fin 512) (peer : BitVec 32) (cn : BitVec 16) (c : Conn) (at_ : Nat) (s : State), let cid := cidOf f peer.toNat cn.toNat;
      s.conn cid = some c ∧ c.lost = false ∧ c.hold = some at_ ∧ at_ + c.holdNs ≤ s.now ∧ c.bitmap ≠ [] ∧ c.refusal = none) ∧
    (∃ (f : Fin 512) (peer : BitVec 32) (cn : BitVec 16) (c : Conn) (at_ : Nat) (s : State), let cid := cidOf f peer.toNat cn.toNat;
      s.conn cid = some c ∧ c.lost = false ∧ c.hold = some at_ ∧ s.now < at_ + c.holdNs) :=
  ⟨⟨re 64, [], S1.withEngRep [re 64], by decide +kernel⟩,
    ⟨re 64, [], S2.withEngRep [re 64], cn, by decide +kernel⟩,
    ⟨128, peer, 7, cn, 7, q S2 (rq 7 4294967295 true), by decide +kernel⟩,
    ⟨128, peer, 7, { y3 with ackDelay := 9000 }, 50000000, S2.setConn cid (some { y3 with ackDelay := 9000 }), by decide +kernel⟩,
    ⟨128, peer, 7, y3, 7, S2.setConn cid (some y3), by decide +kernel⟩,
    ⟨128, peer, 7, { y3 with hold := some 50000000, holdNs := 9000 }, 50000000,
      S2.setConn cid (some { y3 with hold := some 50000000, holdNs := 9000 }), by decide +kernel⟩⟩

theorem witness_TargetAnswers :
    (∃ (p : Fin 4) (s : State), s.xpt.atomicOps.find? (fun o => o.port == p.val) = none) ∧
    (∃ (p : Fin 4) (ans : HostAns) (s : State) (o : AtomicOp) (d : Conn) (bs : List (BitVec 8)), s.xpt.atomicOps = [o] ∧ o.port = p.val ∧
      o.pkt.actl = 1 ∧ ans = .ok bs ∧ s.conn o.cid = some d ∧ d.lost = false ∧ d.epoch = o.epoch ∧ d.bitmap = [] ∧ d.refusal = none ∧
      d.inOp = [(o.pkt.psn, o.pkt)] ∧ o.pkt.psn = d.e ∧ d.e < 2 ^ 32 ∧ o.pkt.ackreq = false ∧ d.ackCount = 0 ∧ 1 < s.rd R.XPT_ACK_CFG_ACK_COALESCE ∧
      o.cid = cidOf d.fn d.peer d.conn) ∧
    (∃ (s : State), s.xpt.flushOps = []) ∧
    (∃ (p : Fin 4) (s : State) (d : Conn) (psn : Nat), let cid := cidOf d.fn d.peer d.conn; s.xpt.flushOps = [(cid, d.epoch, psn)] ∧
      cid / 2 ^ 48 / 128 = p.val ∧ s.conn cid = some d ∧ d.lost = false ∧ s.island 17 ≠ 1) ∧
    (∃ (n : Fin 104) (k : Nat) (s : State), s.xpt.storeWait.find? (fun x => x.1 == n.val) = some (n.val, k) ∧ s.storeUsed + k ≤ s.storeSize) ∧
    (∃ (n : Fin 104) (k : Nat) (s : State), s.xpt.storeWait.find? (fun x => x.1 == n.val) = some (n.val, k) ∧ s.storeSize < s.storeUsed + k) ∧
    (∃ (m : Master) (s : State), Reaches s m 0xB00040) :=
  ⟨⟨0, base, by decide +kernel⟩,
    ⟨1, HostAns.ok (List.map (fun i => BitVec.ofNat 8 (i + 250)) (List.range 8)),
      (S2.setConn cid (some y0)).withXpt (({ (S2.setConn cid (some y0)).xpt with atomicOps := [ao] } : XptSt)), ao, y0,
      List.map (fun i => BitVec.ofNat 8 (i + 250)) (List.range 8), by decide +kernel⟩,
    ⟨q S2 (rq 7 4294967295 true), by decide +kernel⟩,
    ⟨1, y1, cn, 99, by decide +kernel⟩,
    ⟨0, 1, y1, by decide +kernel⟩,
    ⟨103, 1000000, y1, by decide +kernel⟩,
    ⟨Master.commander, q S2 (rq 7 4294967295 true), by decide +kernel⟩⟩

theorem witness_Retransmission :
    (∃ (f : Fin 512) (peer : BitVec 32) (cn : BitVec 16) (c : Conn) (s : State) (psn due : Nat), let cid := cidOf f peer.toNat cn.toNat;
      s.conn cid = some c ∧ c.lost = false ∧ c.nakRetry = some (2, psn, due) ∧ due ≤ s.now ∧ c.outst.filter (fun o => o.psn == psn) = [] ∧
      c.nakHeld = []) ∧
    (∃ (f : Fin 512) (peer : BitVec 32) (cn : BitVec 16) (c : Conn) (s : State) (o : OutPkt) (due : Nat), let cid := cidOf f peer.toNat cn.toNat;
      let held := s.timeValid = false ∨ s.quenched c.fn (o.job.getD 0xFFFF) = true; s.conn cid = some c ∧ c.lost = false ∧ c.nakRetry = some (2,
      o.psn, due) ∧ due ≤ s.now ∧ c.outst = [o] ∧ c.nakHeld = [] ∧ (¬ held)) ∧
    (∃ (f : Fin 512) (peer : BitVec 32) (cn : BitVec 16) (c : Conn) (s : State) (o : OutPkt) (due : Nat), let cid := cidOf f peer.toNat cn.toNat;
      let held := s.timeValid = false ∨ s.quenched c.fn (o.job.getD 0xFFFF) = true; s.conn cid = some c ∧ c.lost = false ∧ c.nakRetry = some (2,
      o.psn, due) ∧ due ≤ s.now ∧ c.outst = [o] ∧ c.nakHeld = [] ∧ held) ∧
    (∃ (f : Fin 512) (peer : BitVec 32) (cn : BitVec 16) (c : Conn) (s : State) (o : OutPkt) (l : List OutPkt),
      let cid := cidOf f peer.toNat cn.toNat; s.conn cid = some c ∧ c.lost = false ∧ s.frozen c = false ∧ s.timeValid = true ∧ c.outst = o :: l ∧
      o.last + c.rto ≤ s.now ∧ c.retry + 1 < s.rd R.XPT_RTO_CFG_RETRY_MAX) ∧
    (∃ (f : Fin 512) (peer : BitVec 32) (cn : BitVec 16) (c : Conn) (s : State) (o : OutPkt) (l : List OutPkt),
      let cid := cidOf f peer.toNat cn.toNat; s.conn cid = some c ∧ c.lost = false ∧ s.frozen c = false ∧ s.timeValid = true ∧ c.outst = o :: l ∧
      o.last + c.rto ≤ s.now ∧ s.rd R.XPT_RTO_CFG_RETRY_MAX ≤ c.retry + 1) ∧
    (∃ (f : Fin 512) (peer : BitVec 32) (cn : BitVec 16) (c : Conn) (s : State) (o : OutPkt), let cid := cidOf f peer.toNat cn.toNat;
      s.conn cid = some c ∧ c.lost = false ∧ s.frozen c = false ∧ s.timeValid = true ∧ o ∈ c.outst ∧ s.quenched c.fn (o.job.getD 0xFFFF) = false) ∧
    (∃ (f : Fin 512) (peer : BitVec 32) (cn : BitVec 16) (c : Conn) (s : State) (since : Nat), let cid := cidOf f peer.toNat cn.toNat;
      s.conn cid = some c ∧ c.lost = false ∧ s.frozen c = false ∧ s.timeValid = true ∧ c.nakSince = some since ∧ c.nakLimit ≠ 0 ∧
      since + c.nakLimit ≤ s.now) :=
  ⟨⟨128, peer, 7, cq, S2.setConn cid (some cq), 5, 3, by decide +kernel⟩,
    ⟨128, peer, 7, y5, S2.setConn cid (some y5), op 4294967292 true, 3, by decide +kernel⟩,
    ⟨128, peer, 7, y5, (S2.setConn cid (some y5)).wr (R.CGC_FN_STAT_Q_CMDR 128) 1, op 4294967292 true, 3, by decide +kernel⟩,
    ⟨128, peer, 7, cn, q S2 (rq 7 4294967295 true), op 4294967290 false, List.drop 1 cn.outst, by decide +kernel⟩,
    ⟨128, peer, 7, cn, y4, op 4294967290 false, List.drop 1 cn.outst, by decide +kernel⟩,
    ⟨128, peer, 7, cn, q S2 (rq 7 4294967295 true), op 4294967290 false, by decide +kernel⟩,
    ⟨128, peer, 7, { cn with nakLimit := 10 }, S2.setConn cid (some { cn with nakLimit := 10 }), 3, by decide +kernel⟩⟩

theorem witness_ConnectionsEnd :
    (∃ (f : Fin 512) (peer : BitVec 32) (cn : BitVec 16) (c : Conn) (s : State), let cid := cidOf f peer.toNat cn.toNat; s.conn cid = some c ∧
      c.lost = false ∧ c.state = 2 ∧ s.connQuiet cid c = true ∧ c.lastUse + c.idle ≤ s.now ∧ s.timeValid = true ∧ s.fnQuenched c.fn = false) ∧
    (∃ (p : Pkt) (rest : List Pkt) (s : State), let cid := cidOf (faFn p.destFa) p.srcFa p.conn; takePkt isAnswer s.engRep = some (p, rest) ∧
      crcOk p = true ∧ p.opcode ≠ 0x48 ∧ s.conn cid = none) ∧
    (∃ (p : Pkt) (rest : List Pkt) (s : State) (c : Conn), let cid := cidOf (faFn p.destFa) p.srcFa p.conn; takePkt isAnswer s.engRep = some (p,
      rest) ∧ crcOk p = true ∧ p.opcode = 0x46 ∧ s.conn cid = some c ∧ c.lost = false ∧ c.epoch = p.epoch ∧ c.state = 3 ∧
      s.xpt.conns.length < 65536) ∧
    (∃ (cid : Nat) (c : Conn) (s : State), s.conn cid = some c ∧ s.work = [] ∧ s.mtc.msgs = [] ∧ c.outst = [] ∧ s.eqOf c.fn 0 = none ∧
      s.tombFull = false) :=
  ⟨⟨128, peer, 7, cq, S2.setConn cid (some cq), by decide +kernel⟩,
    ⟨re 70, [], S1.withEngRep [re 70], by decide +kernel⟩,
    ⟨re 70, [], (S2.setConn cid (some (({ cq with state := 3 } : Conn)))).withEngRep [re 70], ({ cq with state := 3 } : Conn), by decide +kernel⟩,
    ⟨cid, cq, S2.setConn cid (some cq), by decide +kernel⟩⟩

end Sys2Proof.Tests.L10

namespace Sys2Proof.Tests.L11

set_option Elab.async false

def S1 : State := (((((base.wrB R.TIM_STAT_VALID true).withTime { base.time with ft := 5000000 * 65536 }).wr R.GLB_INFO_MODULE_ID 3
  |>.withNow 50000007).wr (R.HPT_PORT_STAT_LINK_UP 1) 1).wr (R.HPT_FN_STAT_ENABLED 1 0) 1).wr R.MTC_STAGE_STAT_SIZE 400

def peer := 0x80001234

def cid := cidOf 128 peer 7

def rts : Pkt := (mkPkt {dest := faOfFn 3 128, src := peer, opcode := 4, conn := 7, epoch := 77, psn := 4294967295} (mkArea [(32, 2, 9),
  (36, 4, 5), (40, 8, 66), (48, 4, 12), (52, 4, 0x777), (56, 4, 300000)]) []).seal 1234

def cn : Conn := {fn := 128, peer := peer, conn := 7, pawn := 3, state := 2, epoch := 77, nextPsn := 4294967295, w := 4096, rto := 8000,
                  e := 4294967295, seqRx := [(9, 13)], inOp := [(4294967295, rts)]}

def dm : Dom := {fn := 128, num := 9, job := 5, rank := 4, eager := 4096, eq := 0, handler := none, srcUnexp := 100, srcEarly := 100, domUnexp := 100,
                 domMsgs := 100, span := 100, home := 3}

def le (l : List (Nat × Nat)) : BitVec 512 := BitVec.ofNat 512 (l.foldl (fun a e => a + e.2 * 2 ^ (8 * e.1)) 0)

def rx : WorkEnt := {fn := 128, qid := 1, ent := le [(0, 0x10), (2, 9), (4, 0xFFFFFFFF), (16, 1000), (24, 66)], stamp := some 0, started := true}

def kq : Wq := { fn := 128, qid := 1, base := 4096, log := 6, cq := 1, recv := true }

def mg : Msg := {cid := cid, epoch := 77, fn := 128, dom := 9, msn := 3, src := 4, tag := 0, mlen := 300000, rts := true, rkey := 8, event := false,
                 state := .matched, got := [0], recv := some 7, ready := true, total := 300000, asked := 4096}

def mg2 : Msg := {mg with recv := none, pulled := 300000, asked := 300000}

def S2 : State := (S1.setConn cid (some cn)).withXpt {(S1.setConn cid (some cn)).xpt with homeIn := [(cid, rts)]}

def S3 : State := ((S2.setDom 128 9 (some dm)).setWork 7 (some rx)).setWq 128 1 (some kq)

def sv : Pkt := (mkPkt {dest := faOfSvc 3 0x105, src := peer, opcode := 10, conn := 0, epoch := 0} (mkArea []) [7]).seal 1234

def S4 : State := [0,1,2,7].foldl (fun s k => ((s.wr (R.MTC_SLOT_VALID k) 1).wr (R.MTC_SLOT_HOOK k) 1).wr (R.MTC_SLOT_SERVICE k) 0x105)
  (S1.withEngReq [sv])

def y1 := (((S3.setMsg (2 ^ 22) (some mg)).setMsg 5 (some mg)).wr (R.CGC_GRANT_BUDGET_BUDGET 1) 4096)

theorem witness_MessagesArrive :
    (∃ (cid : Nat) (p : Pkt) (rest : List (Nat × Pkt)) (c : Conn) (s : State), s.xpt.homeIn = (cid, p) :: rest ∧ s.conn cid = some c ∧
      c.lost = false ∧ c.epoch = p.epoch ∧ p.opcode = 4 ∧ c.bitmap = [] ∧ c.refusal = none ∧ c.inOp = [(p.psn, p)] ∧ p.psn = c.e ∧ c.e < 2 ^ 32 ∧
      p.ackreq = false ∧ c.ackCount = 0 ∧ 1 < s.rd R.XPT_ACK_CFG_ACK_COALESCE ∧ s.domain c.fn p.domain = none) ∧
    (∃ (cid : Nat) (p : Pkt) (rest : List (Nat × Pkt)) (c : Conn) (s : State) (d : Dom) (w : Nat) (x : WorkEnt) (l : List Nat), s.xpt.homeIn = (cid,
      p) :: rest ∧ s.conn cid = some c ∧ c.lost = false ∧ c.epoch = p.epoch ∧ p.opcode = 4 ∧ c.bitmap = [] ∧ c.refusal = none ∧ c.inOp = [(p.psn,
      p)] ∧ p.psn = c.e ∧ c.e < 2 ^ 32 ∧ p.ackreq = false ∧ c.ackCount = 0 ∧ 1 < s.rd R.XPT_ACK_CFG_ACK_COALESCE ∧ s.domain c.fn p.domain = some d ∧
      d.fn = c.fn ∧ d.num = p.domain ∧ d.handler = none ∧ SMap.get 0 c.seqRx d.num = p.msn + 1 ∧ s.mtc.msgs = [] ∧ d.posted = w :: l ∧
      s.workEnt w = some x ∧ s.eligible w p.srcRank p.tag = true) ∧
    (∃ (cid : Nat) (p : Pkt) (rest : List (Nat × Pkt)) (c : Conn) (s : State) (d : Dom), s.xpt.homeIn = (cid, p) :: rest ∧ s.conn cid = some c ∧
      c.lost = false ∧ c.epoch = p.epoch ∧ p.opcode = 4 ∧ c.bitmap = [] ∧ c.refusal = none ∧ c.inOp = [(p.psn, p)] ∧ p.psn = c.e ∧ c.e < 2 ^ 32 ∧
      p.ackreq = false ∧ c.ackCount = 0 ∧ 1 < s.rd R.XPT_ACK_CFG_ACK_COALESCE ∧ s.domain c.fn p.domain = some d ∧ d.fn = c.fn ∧ d.num = p.domain ∧
      d.handler = none ∧ SMap.get 0 c.seqRx d.num = p.msn + 1 ∧ s.mtc.msgs = [] ∧ d.posted = [] ∧ 0 < d.domMsgs) :=
  ⟨⟨cid, rts, [], cn, S2, by decide +kernel⟩,
    ⟨cid, rts, [], cn, S3.setDom 128 9 (some { dm with posted := [7] }), { dm with posted := [7] }, 7, rx, [], by decide +kernel⟩,
    ⟨cid, rts, [], cn, S3, dm, by decide +kernel⟩⟩

theorem witness_RendezvousPulls :
    (∃ (m : BitVec 32) (g : Msg) (c : Conn) (s : State), s.msgOf m.toNat = some g ∧ g.rts = true ∧ g.state = .matched ∧ s.conn g.cid = some c ∧
      c.lost = false ∧ g.cid = cidOf c.fn c.peer c.conn ∧ s.pullOk g g.cid c = true ∧ g.recv = none ∧ g.pulled = g.total ∧ (∀ y ∈ c.landings,
      y.msg ≠ some m.toNat)) ∧
    (∃ (m : BitVec 32) (g : Msg) (c : Conn) (s : State) (w : Nat) (x : WorkEnt) (k : Wq),
      let l := min (pieceSize (s.rd R.MTC_CFG_RDV_PIECE)) (g.total - g.asked); s.msgOf m.toNat = some g ∧ g.rts = true ∧ g.state = .matched ∧
      s.conn g.cid = some c ∧ c.lost = false ∧ g.cid = cidOf c.fn c.peer c.conn ∧ s.pullOk g g.cid c = true ∧ g.recv = some w ∧ s.workEnt w = some x ∧
      s.wq x.fn x.qid = some k ∧ k.state = 1 ∧ g.ready = true ∧ g.asked < g.total ∧ c.landings = [] ∧ s.budgetOk (g.fn / 128) = true ∧ g.fn = c.fn ∧
      s.mayStart c l = true ∧ s.landRoom 1 = true) :=
  ⟨⟨5, mg2, cn, ((S3.setMsg (2 ^ 22) (some mg2)).setMsg 5 (some mg2)).wr (R.CGC_GRANT_BUDGET_BUDGET 1) 4096, by decide +kernel⟩,
    ⟨5, mg, cn, y1, 7, rx, kq, by decide +kernel⟩⟩

theorem witness_HandlerSlots :
    (∃ (k : Fin 8) (p : Pkt) (rest : List Pkt) (s : State) (v : Verdict), s.rd (R.MTC_SLOT_VALID k.val) = 1 ∧ s.rd (R.MTC_SLOT_HOOK k.val) = 1 ∧
      s.rd (R.MTC_SLOT_DISABLED k.val) = 0 ∧ s.svcReq k.val = some (p, rest) ∧ crcOk p = true ∧ (∀ bs : List (BitVec 8), v ≠ .respond bs)) ∧
    (∃ (k : Fin 8) (p : Pkt) (rest : List Pkt) (s : State),
      let n := if s.mtc.overIdx = s.winIdx 1000000 then SMap.get 0 s.mtc.overRuns k.val + 1 else 1; s.rd (R.MTC_SLOT_VALID k.val) = 1 ∧
      s.rd (R.MTC_SLOT_HOOK k.val) = 1 ∧ s.rd (R.MTC_SLOT_DISABLED k.val) = 0 ∧ s.svcReq k.val = some (p, rest) ∧ crcOk p = true ∧ n < 16) ∧
    (∃ (k : Fin 8) (p : Pkt) (rest : List Pkt) (s : State), s.rd (R.MTC_SLOT_VALID k.val) = 1 ∧ s.rd (R.MTC_SLOT_HOOK k.val) = 1 ∧
      s.rd (R.MTC_SLOT_DISABLED k.val) = 0 ∧ s.svcReq k.val = some (p, rest) ∧ crcOk p = true ∧ s.mtc.overIdx = s.winIdx 1000000 ∧
      SMap.get 0 s.mtc.overRuns k.val = 15) :=
  ⟨⟨0, sv, [], S4, .silent, by decide +kernel, by decide +kernel, by decide +kernel, by decide +kernel, by decide +kernel, fun _ h => nomatch h⟩,
    ⟨0, sv, [], S4, by decide +kernel⟩,
    ⟨0, sv, [], S4.withMtc { S4.mtc with overRuns := SMap.set 0 S4.mtc.overRuns 0 15, overIdx := S4.winIdx 1000000 }, by decide +kernel⟩⟩

end Sys2Proof.Tests.L11

namespace Sys2Proof.Tests.L12

set_option Elab.async false

def S1 : State := (((base.wrB R.TIM_STAT_VALID true).withTime { base.time with ft := 5000000 * 65536 }).wr R.GLB_INFO_MODULE_ID 3 |>.withNow
  50000007)

def up (o c : Nat) (sn := 5) : Pkt := (mkPkt {dest := faOfSvc 3 2, src := faOfSvc 9 2, opcode := o} (mkArea (collArea 21 sn 8 2 2 0 0 1 4
  c)) (if o < 0x62 then [7] else [])).seal 1234

def tr (m st : Nat) (s : State) : State := ((((s.wr (R.COL_TREE_A_ACT m) (21 + 2^16 + 2*2^17 + 3 * 2^31)).wr (R.COL_TREE_B_ACT m) 44).wr
  (R.RTE_MC_TBL_ACT m 4) 0x92)).wr (R.COL_TREE_STAT_STATE m) st

def kd (m : Nat) (s : State) : State := s.wr (R.RTE_MC_TBL_ACT m 0) 8

def S2 : State := (((S1.wr R.COL_STAT_PART_FREE 100).wr (R.COL_ROOK_STAT_STATE 4) 1).wr (R.COL_ROOK_STAT_SLOTS_FREE 4) 64).wr
  (R.COL_ROOK_STAT_STATE 0) 2 |>.wr (R.COL_ROOK_STAT_STATE 1) 2|>.wr (R.COL_ROOK_STAT_STATE 2) 2|>.wr (R.COL_ROOK_STAT_STATE 3) 2

def sl0 : Slot := {q := 0, kids := [3], data := [1,2,3,4], contrib := 2, since := 5}

def op0 : CollOp := {n := 5, opmode := 8, ty := 2, kind := 2, nmain := 1, slots := [sl0], len := some 4}

def en : WorkEnt := {fn := 128, qid := 1, ent := BitVec.ofNat 512 (7 + 21 * 2^16)}

def cr : HostRead := {id := 9, fn := 128, why := .coll 7 0}

def bse : State := kd 6 (tr 6 3 S2)

def y0 := (((bse.setTree 6 { op := some op0 : TreeSt }).setWork 7 (some (({ en with opseq := some 5 } : WorkEnt)))).withReads [cr])

def y4 := (((bse.setTree 6 { op := some op0 : TreeSt }).setWork 7 (some en)).withReads [cr])

/-- One packet at the collective complex, with the bank it was routed on. -/
def arrive (p : Pkt) (s : State) : State := s.withColIn [{ pkt := p, inp := 3, bank := 0 }]

/-- A strobe has given the collective complex the other bank since the packet was routed. -/
def crossed : State := ((kd 6 (tr 6 2 S2)).swapBanks [3]).withSwc { S2.swc with treeBank := 1 }

/-- The trees' module a long time after its slots began. -/
def late : State := (bse.withTime { bse.time with ft := 60000000000000 * 65536 }).withNow 50000000000000

theorem witness_Seating :
    (∃ (mst : Master) (i : BitVec 12) (s : State), let m := i.toNat; Reaches s mst 0xD00010 ∧ s.treeState m = 0) ∧
    (∃ (mst : Master) (i : BitVec 12) (s : State), let m := i.toNat; Reaches s mst 0xD00010 ∧ 2 ≤ s.treeState m) ∧
    (∃ (mst : Master) (i : BitVec 12) (s : State) (r : Nat), let m := i.toNat; Reaches s mst 0xD00010 ∧ s.treeState m = 1 ∧
      bitOf (s.treeA m) 16 = true ∧ bitsOf (s.treeA m) 17 2 = 2 ∧ s.children m = [] ∧ s.maskPorts m = [] ∧ 1 ≤ s.treeLocals m ∧
      bitOf (s.maskWord m 4) 4 = true ∧ (∀ j : Fin 4096, j.val ≠ m → bitOf (s.treeA j.val) 16 = true → s.treeNum j.val ≠ s.treeNum m) ∧
      s.island 18 = 0 ∧ (s.tree m).reported = false ∧ s.pickRook = some r ∧ s.treeWindow m ≤ s.rookFree r ∧ s.treeUnits m ≤ s.partFree) ∧
    (∃ (mst : Master) (i : BitVec 12) (s : State), let m := i.toNat; Reaches s mst 0xD00010 ∧ s.treeState m = 3 ∧ (s.tree m).op = none ∧
      (s.tree m).reserved = false ∧ s.work = []) :=
  ⟨⟨Master.commander, 0, tr 0 0 S2, by decide +kernel⟩,
    ⟨Master.commander, 0, tr 0 3 S2, by decide +kernel⟩,
    ⟨Master.commander, 0, tr 0 1 S2, 4, by decide +kernel, by decide +kernel, by decide +kernel, by decide +kernel, by decide +kernel,
      by decide +kernel, by decide +kernel, by decide +kernel, all4096 (fun j => j ≠ 0 → bitOf ((tr 0 1 S2).treeA j) 16 = true →
      (tr 0 1 S2).treeNum j ≠ (tr 0 1 S2).treeNum 0) (by decide +kernel), by decide +kernel⟩,
    ⟨Master.commander, 0, tr 0 3 S2, by decide +kernel⟩⟩

theorem witness_SeatingPackets :
    (∃ (p : Pkt) (inp m at_ fs : Nat) (s : State) (k : Nat), let u := (s.withColIn []).colTimeout m at_ fs; s.colDown = [] ∧
      s.colIn = [{ pkt := p, inp := inp, bank := s.swc.treeBank, stamp := at_, fstamp := fs }] ∧ crcOk p = true ∧ s.treeEntry p.tree = some m ∧
      p.opcode = 0x62 ∧ p.ctl = 1 ∧ u.childOf m inp = some k ∧ u.treeState m ≠ 3) ∧
    (∃ (p : Pkt) (inp m at_ fs : Nat) (s : State) (k : Nat), let u := (s.withColIn []).colTimeout m at_ fs; s.colDown = [] ∧
      s.colIn = [{ pkt := p, inp := inp, bank := s.swc.treeBank, stamp := at_, fstamp := fs }] ∧ crcOk p = true ∧ s.treeEntry p.tree = some m ∧
      p.opcode = 0x62 ∧ p.ctl = 1 ∧ u.childOf m inp = some k ∧ u.treeState m = 3) ∧
    (∃ (p : Pkt) (inp m at_ fs : Nat) (s : State), s.colDown = [] ∧ s.colIn = [{ pkt := p, inp := inp, bank := s.swc.treeBank, stamp := at_,
                                                                                 fstamp := fs }] ∧ crcOk p = true ∧ s.treeEntry p.tree = some m ∧
      p.opcode = 0x63 ∧ p.ctl = 1 ∧ inp ≠ 257 ∧ s.treeState m = 2 ∧ (s.tree m).op = none ∧ (s.tree m).reserved = true) ∧
    (∃ (p : Pkt) (inp m at_ fs : Nat) (s : State), s.colDown = [] ∧ s.colIn = [{ pkt := p, inp := inp, bank := s.swc.treeBank, stamp := at_,
                                                                                 fstamp := fs }] ∧ crcOk p = true ∧ s.treeEntry p.tree = some m ∧
      p.opcode = 0x63 ∧ p.ctl = 5 ∧ inp ≠ 257 ∧ s.treeState m = 2 ∧ (s.tree m).op = none ∧ s.rd (R.COL_TREE_STAT_SEAT_RESULT m) = 0 ∧
      (s.tree m).reserved = false) ∧
    (∃ (p : Pkt) (inp m at_ fs : Nat) (s : State) (k : Nat), let u := (s.withColIn []).colTimeout m at_ fs; s.colDown = [] ∧
      s.colIn = [{ pkt := p, inp := inp, bank := s.swc.treeBank, stamp := at_, fstamp := fs }] ∧ crcOk p = true ∧ s.treeEntry p.tree = some m ∧
      p.ctl = 4 ∧ p.opcode = 0x62 ∧ u.childOf m inp = some k) ∧
    (∃ (p : Pkt) (inp m at_ fs : Nat) (s : State), s.colDown = [] ∧ s.colIn = [{ pkt := p, inp := inp, bank := s.swc.treeBank, stamp := at_,
                                                                                 fstamp := fs }] ∧ crcOk p = true ∧ s.treeEntry p.tree = some m ∧
      p.ctl = 4 ∧ p.opcode = 0x63 ∧ inp ≠ 257) :=
  ⟨⟨up 0x62 1, 3, 6, 0, 0, arrive (up 0x62 1) ((kd 6 (tr 6 2 S2))), 3, by decide +kernel⟩,
    ⟨up 0x62 1, 3, 6, 0, 0, arrive (up 0x62 1) ((kd 6 (tr 6 3 S2))), 3, by decide +kernel⟩,
    ⟨up 0x63 1, 3, 6, 0, 0, arrive (up 0x63 1) ((kd 6 (tr 6 2 S2)).setTree 6 { reserved := true }), by decide +kernel⟩,
    ⟨up 0x63 5, 3, 6, 0, 0, arrive (up 0x63 5) ((kd 6 (tr 6 2 S2))), by decide +kernel⟩,
    ⟨up 0x62 4, 3, 6, 0, 0, arrive (up 0x62 4) ((kd 6 (tr 6 2 S2))), 3, by decide +kernel⟩,
    ⟨up 0x63 4, 3, 6, 0, 0, arrive (up 0x63 4) ((kd 6 (tr 6 2 S2))), by decide +kernel⟩⟩

theorem witness_OperationPackets :
    (∃ (p : Pkt) (inp m at_ fs : Nat) (s : State), s.colDown = [] ∧ s.colIn = [{ pkt := p, inp := inp, bank := s.swc.treeBank, stamp := at_,
                                                                                 fstamp := fs }] ∧ crcOk p = true ∧ s.treeEntry p.tree = some m ∧
      s.isNext m p = false ∧ s.waitsDown m p = false ∧ p.opcode = 0x62 ∧ p.ctl = 2) ∧
    (∃ (p : Pkt) (inp m at_ fs : Nat) (s : State), s.colDown = [] ∧ s.colIn = [{ pkt := p, inp := inp, bank := s.swc.treeBank, stamp := at_,
                                                                                 fstamp := fs }] ∧ crcOk p = true ∧ s.treeEntry p.tree = some m ∧
      s.isNext m p = false ∧ s.waitsDown m p = false ∧ p.opcode = 0x63 ∧ p.ctl = 2) ∧
    (∃ (p : Pkt) (inp m at_ fs : Nat) (s : State), s.colDown = [] ∧ s.colIn = [{ pkt := p, inp := inp, bank := s.swc.treeBank, stamp := at_,
                                                                                 fstamp := fs }] ∧ crcOk p = true ∧ s.treeEntry p.tree = some m ∧
      s.isNext m p = false ∧ s.waitsDown m p = false ∧ p.opcode = 0x63 ∧ p.ctl = 6) ∧
    (∃ (p : Pkt) (inp m at_ fs : Nat) (s : State), s.colDown = [] ∧ s.colIn = [{ pkt := p, inp := inp, bank := s.swc.treeBank, stamp := at_,
                                                                                 fstamp := fs }] ∧ crcOk p = true ∧ s.treeEntry p.tree = some m ∧
      s.isNext m p = false ∧ s.waitsDown m p = false ∧ p.opcode = 0x60) ∧
    (∃ (p : Pkt) (inp m at_ fs : Nat) (s : State), s.colDown = [] ∧ s.colIn = [{ pkt := p, inp := inp, bank := s.swc.treeBank, stamp := at_,
                                                                                 fstamp := fs }] ∧ crcOk p = true ∧ s.treeEntry p.tree = some m ∧
      s.isNext m p = false ∧ s.waitsDown m p = false ∧ p.opcode = 0x61) ∧
    (∃ (p : Pkt) (inp m at_ fs : Nat) (s : State) (o : CollOp), let u := (s.withColIn []).colTimeout m at_ fs; s.colDown = [] ∧
      s.colIn = [{ pkt := p, inp := inp, bank := s.swc.treeBank, stamp := at_, fstamp := fs }] ∧ crcOk p = true ∧ s.treeEntry p.tree = some m ∧
      s.isNext m p = false ∧ s.waitsDown m p = false ∧ p.opcode = 0x63 ∧ p.ctl = 3 ∧ inp ≠ 257 ∧ u.treeState m = 3 ∧ (u.tree m).op = some o ∧
      o.n = p.opseq) ∧
    (∃ (p : Pkt) (inp at_ fs : Nat) (s : State), s.colDown = [] ∧ s.colIn = [{ pkt := p, inp := inp, bank := s.swc.treeBank, stamp := at_,
                                                                               fstamp := fs }] ∧ crcOk p = true ∧ s.treeEntry p.tree = none) ∧
    (∃ (p : Pkt) (inp b m at_ fs : Nat) (s : State), s.colDown = [] ∧ s.colIn = [{ pkt := p, inp := inp, bank := b, stamp := at_, fstamp := fs }] ∧
      crcOk p = true ∧ b ≠ s.swc.treeBank ∧ (s.swapBanks [3]).treeEntry p.tree = some m ∧ s.isNext m p = false ∧ s.waitsDown m p = false ∧
      p.opcode = 0x60) ∧
    (∃ (p : Pkt) (inp b m at_ fs : Nat) (s : State), s.colDown = [] ∧ s.colIn = [{ pkt := p, inp := inp, bank := b, stamp := at_, fstamp := fs }] ∧
      crcOk p = true ∧ b ≠ s.swc.treeBank ∧ (s.swapBanks [3]).treeEntry p.tree = some m ∧ s.isNext m p = false ∧ s.waitsDown m p = false ∧
      p.opcode = 0x61) ∧
    (∃ (p : Pkt) (inp b m at_ fs : Nat) (s : State), s.colDown = [] ∧ s.colIn = [{ pkt := p, inp := inp, bank := b, stamp := at_, fstamp := fs }] ∧
      crcOk p = true ∧ b ≠ s.swc.treeBank ∧ (s.swapBanks [3]).treeEntry p.tree = some m ∧ s.isNext m p = false ∧ s.waitsDown m p = false ∧
      p.opcode = 0x62 ∧ p.ctl = 2) ∧
    (∃ (p : Pkt) (inp b m at_ fs : Nat) (s : State), s.colDown = [] ∧ s.colIn = [{ pkt := p, inp := inp, bank := b, stamp := at_, fstamp := fs }] ∧
      crcOk p = true ∧ b ≠ s.swc.treeBank ∧ (s.swapBanks [3]).treeEntry p.tree = some m ∧ s.isNext m p = false ∧ s.waitsDown m p = false ∧
      p.opcode = 0x63 ∧ p.ctl = 2) ∧
    (∃ (q : Nat) (o : CollOp), slotOf o q = none) ∧
    (∃ (q : Nat) (o : CollOp) (x : Slot), slotOf o q = some x ∧ x.kids ≠ []) :=
  ⟨⟨up 0x62 2, 3, 6, 0, 0, arrive (up 0x62 2) ((kd 6 (tr 6 2 S2))), by decide +kernel⟩,
    ⟨up 0x63 2, 3, 6, 0, 0, arrive (up 0x63 2) ((kd 6 (tr 6 2 S2))), by decide +kernel⟩,
    ⟨up 0x63 6, 3, 6, 0, 0, arrive (up 0x63 6) ((kd 6 (tr 6 2 S2))), by decide +kernel⟩,
    ⟨up 0x60 0, 3, 6, 0, 0, arrive (up 0x60 0) ((kd 6 (tr 6 2 S2))), by decide +kernel⟩,
    ⟨up 0x61 0, 3, 6, 0, 0, arrive (up 0x61 0) ((kd 6 (tr 6 2 S2))), by decide +kernel⟩,
    ⟨up 0x63 3, 3, 6, 0, 0, arrive (up 0x63 3) (bse.setTree 6 { op := some op0 }), op0, by decide +kernel⟩,
    ⟨up 0x62 1, 3, 0, 0, arrive (up 0x62 1) (S2), by decide +kernel⟩,
    ⟨up 0x60 0, 3, 0, 6, 0, 0, arrive (up 0x60 0) (crossed), by decide +kernel⟩,
    ⟨up 0x61 0, 3, 0, 6, 0, 0, arrive (up 0x61 0) (crossed), by decide +kernel⟩,
    ⟨up 0x62 2, 3, 0, 6, 0, 0, arrive (up 0x62 2) (crossed), by decide +kernel⟩,
    ⟨up 0x63 2, 3, 0, 6, 0, 0, arrive (up 0x63 2) (crossed), by decide +kernel⟩,
    ⟨0, { op0 with slots := [] }, by decide +kernel⟩,
    ⟨0, op0, sl0, by decide +kernel⟩⟩

theorem witness_OperandReads :
    (∃ (s : State), s.colDown = [] ∧ s.reads = []) ∧
    (∃ (p : Fin 4) (id : BitVec 32) (s : State) (r : HostRead) (w q m : Nat) (x : WorkEnt) (o : CollOp) (bs : List (BitVec 8)),
      let len := (o.elems q).2 * elemSize o.ty; s.colDown = [] ∧ s.reads = [r] ∧ r.id = id.toNat ∧ r.fn / 128 = p.val ∧ r.why = .coll w q ∧
      s.workEnt w = some x ∧ s.treeEntry (waux x) = some m ∧ (s.tree m).op = some o ∧ o.kind = 2 ∧ bs.length = len) ∧
    (∃ (p : Fin 4) (id : BitVec 32) (s : State) (r : HostRead) (w q m : Nat) (x : WorkEnt) (o : CollOp), s.colDown = [] ∧ s.reads = [r] ∧
      r.id = id.toNat ∧ r.fn / 128 = p.val ∧ r.why = .coll w q ∧ s.workEnt w = some x ∧ s.treeEntry (waux x) = some m ∧ (s.tree m).op = some o ∧
      o.kind = 2 ∧ x.opseq ≠ some o.n) :=
  ⟨⟨tr 0 0 S2, by decide +kernel⟩,
    ⟨1, 9, y0, cr, 7, 0, 6, ({ en with opseq := some 5 } : WorkEnt), op0, [(1 : BitVec 8), (2 : BitVec 8), (3 : BitVec 8), (4 : BitVec 8)],
      by decide +kernel⟩,
    ⟨1, 9, y4, cr, 7, 0, 6, en, op0, by decide +kernel⟩⟩

theorem witness_CollectiveTimeouts :
    (∃ (m : Fin 4096) (s : State), let lim := max 1 (s.rd R.COL_CFG_SEAT_TIMEOUT) * 1000000; s.colDown = [] ∧ s.treeState m.val = 2 ∧
      (s.tree m.val).seatAt + lim ≤ s.now) ∧
    (∃ (m : Fin 4096) (s : State), let lim := max 1 (s.rd R.COL_CFG_SEAT_TIMEOUT) * 1000000; s.colDown = [] ∧ s.treeState m.val = 2 ∧
      s.now < (s.tree m.val).seatAt + lim) ∧
    (∃ (m : Fin 4096) (s : State) (o : CollOp) (x : Slot),
      let age := if x.base = s.time.epoch then (if s.timeValid then s.ns else s.now) - x.since else s.now - x.sinceNow; s.colDown = [] ∧
      (s.tree m.val).op = some o ∧ o.slots = [x] ∧ o.seen = [] ∧ max 1 (s.rd R.COL_CFG_START_TIMEOUT) * 1000000 ≤ age) ∧
    (∃ (m : Fin 4096) (s : State) (o : CollOp) (x : Slot),
      let age := if x.base = s.time.epoch then (if s.timeValid then s.ns else s.now) - x.since else s.now - x.sinceNow; s.colDown = [] ∧
      (s.tree m.val).op = some o ∧ o.slots = [x] ∧ o.seen = [] ∧ age < max 1 (s.rd R.COL_CFG_START_TIMEOUT) * 1000000) ∧
    (∃ (m : Fin 4096) (s : State) (o : CollOp) (x : Slot),
      let age := if x.base = s.time.epoch then (if s.timeValid then s.ns else s.now) - x.since else s.now - x.sinceNow;
      let chunk := if s.rd R.COL_CFG_CHUNK_TIMEOUT = 0 then 10 else s.rd R.COL_CFG_CHUNK_TIMEOUT; s.colDown = [] ∧ (s.tree m.val).op = some o ∧
      o.slots = [x] ∧ o.seen = [0] ∧ chunk * 1000 ≤ age) ∧
    (∃ (m : Fin 4096) (s : State) (o : CollOp) (x : Slot),
      let age := if x.base = s.time.epoch then (if s.timeValid then s.ns else s.now) - x.since else s.now - x.sinceNow;
      let chunk := if s.rd R.COL_CFG_CHUNK_TIMEOUT = 0 then 10 else s.rd R.COL_CFG_CHUNK_TIMEOUT; s.colDown = [] ∧ (s.tree m.val).op = some o ∧
      o.slots = [x] ∧ o.seen = [0] ∧ age < chunk * 1000) :=
  ⟨⟨0, ((tr 0 2 S2).setTree 0 { seatAt := 5 }).withNow 50000000000000, by decide +kernel⟩,
    ⟨0, (tr 0 2 S2).setTree 0 { seatAt := 50000000 : TreeSt }, by decide +kernel⟩,
    ⟨6, late.setTree 6 { op := some op0 }, op0, sl0, by decide +kernel⟩,
    ⟨6, bse.setTree 6 { op := some op0 }, op0, sl0, by decide +kernel⟩,
    ⟨6, late.setTree 6 { op := some { op0 with seen := [0] } }, { op0 with seen := [0] }, sl0, by decide +kernel⟩,
    ⟨6, bse.setTree 6 { op := some { op0 with seen := [0], slots := [{ sl0 with since := 4999999 }] } },
      { op0 with seen := [0], slots := [{ sl0 with since := 4999999 }] }, { sl0 with since := 4999999 }, by decide +kernel⟩⟩

end Sys2Proof.Tests.L12

namespace Sys2Proof.Tests.L13

set_option Elab.async false

def S1 : State := (((((base.wrB R.TIM_STAT_VALID true).withTime { base.time with ft := 5000000 * 65536 }).wr R.GLB_INFO_MODULE_ID 3
  |>.withNow 50000007).wr (R.HPT_PORT_STAT_LINK_UP 1) 1).wr (R.HPT_FN_STAT_ENABLED 1 0) 1)

def rq (o lop g w c sw : Nat) (org := 4999000) : Pkt := (mkPkt {dest := faOfSvc 3 1, src := faOfFn 9 4, opcode := o, psn := 44} (mkArea
  [(32, 1, g), (33, 1, w), (34, 1, lop), (40, 8, c), (48, 8, sw), (56, 4, 777)]) []).seal (originOf org)

def me := lockIdent (faOfFn 9 4)

def en (g : Nat) (s : State) : State := ((s.wr (R.LCK_GRP_CFG_EN g) 1).wr (R.LCK_GRP_ACL g 5) (faOfFn 9 4)).wr (R.LCK_GRP_ACL_KIND g 5) 1

def S2 : State := en 0 (en 1 (en 255 S1))

def S3 : State := ((S2.wr (R.LCK_WORD 0) me).wr (R.LCK_WORD 65535) (me + 2^48)).wr (R.LCK_WORD 256) 7

def rs : Pkt := (mkPkt {dest := faOfFn 3 128, src := faOfSvc 9 1, opcode := 0x47} (mkArea [(35, 1, 2), (36, 1, 1), (40, 8, 0x1122), (56, 4,
  777)]) []).seal 7

def le (l : List (Nat × Nat)) : BitVec 512 := BitVec.ofNat 512 (l.foldl (fun a e => a + e.2 * 2 ^ (8 * e.1)) 0)

def we : WorkEnt := {fn := 128, qid := 1, ent := le [(0, 6), (8, 0x7000)], started := true, asked := true, txCount := 2, lastTx := 5, reqId := 777,
                     dest := some (faOfFn 9 4)}

def kq : Wq := { fn := 128, qid := 1, base := 4096, log := 6, cq := 1, ents := [7], job := 0xFFFF }

def pg : Purge := {fa := 99, lop := 3, job := 4, target := 9, due := 50, reqId := 7}

def q (s : State) (p : Pkt) : State := (s.withEngReq [p]).withEngFwd [p]

def wS : State := (S1.setWork 7 (some we)).setWq 128 1 (some kq)

theorem witness_LockOperations :
    (∃ (w : Fin 65536) (swap i : Nat) (s : State), swap < 2 ^ 64 ∧ i < 2 ^ 44 ∧ s.rd (R.LCK_GRP_CFG_MOVED (w.val / 256)) = 1) ∧
    (∃ (w : Fin 65536) (lop swap i : Nat) (s : State), swap < 2 ^ 64 ∧ i < 2 ^ 44 ∧ s.rd (R.LCK_GRP_CFG_MOVED (w.val / 256)) = 0 ∧ 2 < lop) ∧
    (∃ (w : Fin 65536) (lop swap i : Nat) (acc : Bool) (s : State), swap < 2 ^ 64 ∧ i < 2 ^ 44 ∧ lop ≤ 2 ∧
      s.rd (R.LCK_GRP_CFG_MOVED (w.val / 256)) = 0 ∧ acc = false) ∧
    (∃ (w : Fin 65536) (lop swap i : Nat) (acc : Bool) (s : State), swap < 2 ^ 64 ∧ i < 2 ^ 44 ∧ lop ≤ 2 ∧
      s.rd (R.LCK_GRP_CFG_MOVED (w.val / 256)) = 0 ∧ acc = true ∧ lop = 0) ∧
    (∃ (w : Fin 65536) (lop cmp swap i : Nat) (acc : Bool) (s : State), let old := s.lockWord w.val; swap < 2 ^ 64 ∧ i < 2 ^ 44 ∧ lop ≤ 2 ∧
      s.rd (R.LCK_GRP_CFG_MOVED (w.val / 256)) = 0 ∧ acc = true ∧ lop = 1 ∧ old ≠ cmp) ∧
    (∃ (w : Fin 65536) (lop cmp swap i : Nat) (acc : Bool) (s : State), let old := s.lockWord w.val; swap < 2 ^ 64 ∧ i < 2 ^ 44 ∧ lop ≤ 2 ∧
      s.rd (R.LCK_GRP_CFG_MOVED (w.val / 256)) = 0 ∧ acc = true ∧ lop = 1 ∧ old = cmp ∧ old % 2 ^ 44 ≠ 0 ∧ old % 2 ^ 44 ≠ i) ∧
    (∃ (w : Fin 65536) (lop cmp swap i : Nat) (acc : Bool) (s : State), let old := s.lockWord w.val; swap < 2 ^ 64 ∧ i < 2 ^ 44 ∧ lop ≤ 2 ∧
      s.rd (R.LCK_GRP_CFG_MOVED (w.val / 256)) = 0 ∧ acc = true ∧ lop = 1 ∧ old = cmp ∧ (old % 2 ^ 44 = 0 ∨ old % 2 ^ 44 = i) ∧
      swap / 2 ^ 44 % 16 = 0 ∧ (swap % 2 ^ 44 = 0 ∨ swap % 2 ^ 44 = i)) ∧
    (∃ (w : Fin 65536) (lop swap i : Nat) (acc : Bool) (s : State), let old := s.lockWord w.val; swap < 2 ^ 64 ∧ i < 2 ^ 44 ∧ lop ≤ 2 ∧
      s.rd (R.LCK_GRP_CFG_MOVED (w.val / 256)) = 0 ∧ acc = true ∧ lop = 2 ∧ old % 2 ^ 44 ≠ i) ∧
    (∃ (w : Fin 65536) (lop swap i : Nat) (acc : Bool) (s : State), let old := s.lockWord w.val; swap < 2 ^ 64 ∧ i < 2 ^ 44 ∧ lop ≤ 2 ∧
      s.rd (R.LCK_GRP_CFG_MOVED (w.val / 256)) = 0 ∧ acc = true ∧ lop = 2 ∧ old % 2 ^ 44 = i) ∧
    (∃ (w : Fin 65536) (lop cmp swap i job : Nat) (acc : Bool) (s : State), let r := s.lockOp w.val lop cmp swap i job acc; swap < 2 ^ 64 ∧
      i < 2 ^ 44 ∧ r.2.status ≠ 0) ∧
    (∃ (w : Fin 65536) (swap i : Nat) (v : Fin 65536), swap < 2 ^ 64 ∧ i < 2 ^ 44 ∧ v ≠ w) :=
  ⟨⟨0, 0, 0, S3.wr (R.LCK_GRP_CFG_MOVED 0) 1, by decide +kernel⟩,
    ⟨0, 3, 0, 0, base, by decide +kernel⟩,
    ⟨0, 0, 0, 0, false, S3, by decide +kernel⟩,
    ⟨0, 0, 0, 0, true, S3, by decide +kernel⟩,
    ⟨0, 1, 0, 0, 0, true, S3, by decide +kernel⟩,
    ⟨0, 1, me, 0, 0, true, S3, by decide +kernel⟩,
    ⟨0, 1, me, 0, me, true, S3, by decide +kernel⟩,
    ⟨0, 2, 0, 0, true, S3, by decide +kernel⟩,
    ⟨0, 2, 0, me, true, S3, by decide +kernel⟩,
    ⟨0, 0, 0, 0, 0, 0, false, S3, by decide +kernel⟩,
    ⟨0, 0, 0, 1, by decide +kernel⟩⟩

theorem witness_LockRequests :
    (∃ (fwd : Bool) (p : Pkt) (rest : List Pkt) (s : State),
      takePkt (fun p => p.opcode == (if fwd then 0x21 else 0x09) && faSvc p.destFa) (if fwd then s.engFwd else s.engReq) = some (p, rest) ∧
      crcOk p = true ∧ s.timeValid = false) ∧
    (∃ (fwd : Bool) (p : Pkt) (rest : List Pkt) (s : State),
      takePkt (fun p => p.opcode == (if fwd then 0x21 else 0x09) && faSvc p.destFa) (if fwd then s.engFwd else s.engReq) = some (p, rest) ∧
      crcOk p = true ∧ s.timeValid = true ∧ s.lockStopped = true) ∧
    (∃ (fwd : Bool) (p : Pkt) (rest : List Pkt) (s : State), let age := ageOf s.ns p.origin;
      takePkt (fun p => p.opcode == (if fwd then 0x21 else 0x09) && faSvc p.destFa) (if fwd then s.engFwd else s.engReq) = some (p, rest) ∧
      crcOk p = true ∧ s.timeValid = true ∧ s.lockStopped = false ∧ s.reqAge < age) ∧
    (∃ (fwd : Bool) (p : Pkt) (rest : List Pkt) (s : State), let age := ageOf s.ns p.origin;
      takePkt (fun p => p.opcode == (if fwd then 0x21 else 0x09) && faSvc p.destFa) (if fwd then s.engFwd else s.engReq) = some (p, rest) ∧
      crcOk p = true ∧ s.timeValid = true ∧ s.lockStopped = false ∧ age ≤ s.reqAge / 2 ∧ (fwd = true ∨ p.lop = 3 ∨ p.lop = 4 ∨
      s.rd (R.LCK_GRP_CFG_MOVED p.lockGroup) = 0) ∧ p.lop = 0) ∧
    (∃ (fwd : Bool) (p : Pkt) (rest : List Pkt) (s : State), let age := ageOf s.ns p.origin;
      takePkt (fun p => p.opcode == (if fwd then 0x21 else 0x09) && faSvc p.destFa) (if fwd then s.engFwd else s.engReq) = some (p, rest) ∧
      crcOk p = true ∧ s.timeValid = true ∧ s.lockStopped = false ∧ age ≤ s.reqAge / 2 ∧ (fwd = true ∨ p.lop = 3 ∨ p.lop = 4 ∨
      s.rd (R.LCK_GRP_CFG_MOVED p.lockGroup) = 0) ∧ p.lop = 1) ∧
    (∃ (fwd : Bool) (p : Pkt) (rest : List Pkt) (s : State), let age := ageOf s.ns p.origin;
      takePkt (fun p => p.opcode == (if fwd then 0x21 else 0x09) && faSvc p.destFa) (if fwd then s.engFwd else s.engReq) = some (p, rest) ∧
      crcOk p = true ∧ s.timeValid = true ∧ s.lockStopped = false ∧ age ≤ s.reqAge / 2 ∧ (fwd = true ∨ p.lop = 3 ∨ p.lop = 4 ∨
      s.rd (R.LCK_GRP_CFG_MOVED p.lockGroup) = 0) ∧ p.lop = 2) ∧
    (∃ (fwd : Bool) (p : Pkt) (rest : List Pkt) (s : State), let age := ageOf s.ns p.origin;
      takePkt (fun p => p.opcode == (if fwd then 0x21 else 0x09) && faSvc p.destFa) (if fwd then s.engFwd else s.engReq) = some (p, rest) ∧
      crcOk p = true ∧ s.timeValid = true ∧ s.lockStopped = false ∧ age ≤ s.reqAge / 2 ∧ (fwd = true ∨ p.lop = 3 ∨ p.lop = 4 ∨
      s.rd (R.LCK_GRP_CFG_MOVED p.lockGroup) = 0) ∧ p.lop = 3) ∧
    (∃ (fwd : Bool) (p : Pkt) (rest : List Pkt) (s : State), let age := ageOf s.ns p.origin;
      takePkt (fun p => p.opcode == (if fwd then 0x21 else 0x09) && faSvc p.destFa) (if fwd then s.engFwd else s.engReq) = some (p, rest) ∧
      crcOk p = true ∧ s.timeValid = true ∧ s.lockStopped = false ∧ age ≤ s.reqAge / 2 ∧ (fwd = true ∨ p.lop = 3 ∨ p.lop = 4 ∨
      s.rd (R.LCK_GRP_CFG_MOVED p.lockGroup) = 0) ∧ p.lop = 4) ∧
    (∃ (fwd : Bool) (p : Pkt) (rest : List Pkt) (s : State), let age := ageOf s.ns p.origin;
      takePkt (fun p => p.opcode == (if fwd then 0x21 else 0x09) && faSvc p.destFa) (if fwd then s.engFwd else s.engReq) = some (p, rest) ∧
      crcOk p = true ∧ fwd = false ∧ s.timeValid = true ∧ s.lockStopped = false ∧ age ≤ s.reqAge / 2 ∧ p.lop ≤ 2 ∧
      s.rd (R.LCK_GRP_CFG_MOVED p.lockGroup) = 1) ∧
    (∃ (m : Master) (w : BitVec 16) (s : State), ∃ c, Reaches s m 0xE00008 ∧ s.lockStopped = true ∧ c ∈ [Instr.read (.reg m) w, .cas (.reg m) w,
      .clearOrphan (.reg m) w]) ∧
    (∃ (m : Master) (s : State), Reaches s m 0xE00008 ∧ s.lockStopped = false) :=
  ⟨⟨false, rq 9 0 1 0 0 0, [], q base (rq 9 0 1 0 0 0), by decide +kernel⟩,
    ⟨false, rq 9 0 1 0 0 0, [], q (S3.wr R.FLT_ARB_STAT_STATE 1) (rq 9 0 1 0 0 0), by decide +kernel⟩,
    ⟨false, rq 9 0 0 0 0 0 1, [], q (S3.wr (R.LCK_GRP_CFG_MOVED 7) 1) (rq 9 0 0 0 0 0 1), by decide +kernel⟩,
    ⟨false, rq 9 0 1 0 0 0, [], q (S3.wr (R.LCK_GRP_CFG_MOVED 7) 1) (rq 9 0 1 0 0 0), by decide +kernel⟩,
    ⟨false, rq 9 1 0 0 me 0, [], q (S3.wr (R.LCK_GRP_CFG_MOVED 7) 1) (rq 9 1 0 0 me 0), by decide +kernel⟩,
    ⟨false, rq 9 2 0 0 0 0, [], q (S3.wr (R.LCK_GRP_CFG_MOVED 7) 1) (rq 9 2 0 0 0 0), by decide +kernel⟩,
    ⟨false, rq 9 3 0 0 0 0, [], q (S3.wr (R.LCK_GRP_CFG_MOVED 7) 1) (rq 9 3 0 0 0 0), by decide +kernel⟩,
    ⟨false, rq 9 4 0 0 0 0, [], q (S3.wr (R.LCK_GRP_CFG_MOVED 7) 1) (rq 9 4 0 0 0 0), by decide +kernel⟩,
    ⟨false, rq 9 0 7 0 0 0, [], q (S3.wr (R.LCK_GRP_CFG_MOVED 7) 1) (rq 9 0 7 0 0 0), by decide +kernel⟩,
    ⟨Master.commander, 0, S3.withFlt { S3.flt with restarting := true }, Instr.read (.reg .commander) 0, by decide +kernel⟩,
    ⟨Master.commander, S3, by decide +kernel⟩⟩

theorem witness_LockServiceCompletes :
    (∃ (p : Pkt) (rest : List Pkt) (s : State), takePkt (fun p => p.opcode == 0x09 && faSvc p.destFa) s.engReq = some (p, rest) ∧ crcOk p = true ∧
      s.timeValid = true ∧ s.lockStopped = false ∧ ageOf s.ns p.origin ≤ s.reqAge / 2 ∧ (p.lop = 3 ∨ p.lop = 4 ∨
      s.rd (R.LCK_GRP_CFG_MOVED p.lockGroup) = 0) ∧ p.lop = 0) ∧
    (∃ (p : Pkt) (rest : List Pkt) (s : State), takePkt (fun p => p.opcode == 0x09 && faSvc p.destFa) s.engReq = some (p, rest) ∧ crcOk p = true ∧
      s.timeValid = true ∧ s.lockStopped = false ∧ ageOf s.ns p.origin ≤ s.reqAge / 2 ∧ (p.lop = 3 ∨ p.lop = 4 ∨
      s.rd (R.LCK_GRP_CFG_MOVED p.lockGroup) = 0) ∧ p.lop = 1) ∧
    (∃ (p : Pkt) (rest : List Pkt) (s : State), takePkt (fun p => p.opcode == 0x09 && faSvc p.destFa) s.engReq = some (p, rest) ∧ crcOk p = true ∧
      s.timeValid = true ∧ s.lockStopped = false ∧ ageOf s.ns p.origin ≤ s.reqAge / 2 ∧ (p.lop = 3 ∨ p.lop = 4 ∨
      s.rd (R.LCK_GRP_CFG_MOVED p.lockGroup) = 0) ∧ p.lop = 2) ∧
    (∃ (p : Pkt) (rest : List Pkt) (s : State), takePkt (fun p => p.opcode == 0x09 && faSvc p.destFa) s.engReq = some (p, rest) ∧ crcOk p = true ∧
      s.timeValid = true ∧ s.lockStopped = false ∧ ageOf s.ns p.origin ≤ s.reqAge / 2 ∧ (p.lop = 3 ∨ p.lop = 4 ∨
      s.rd (R.LCK_GRP_CFG_MOVED p.lockGroup) = 0) ∧ p.lop = 3) ∧
    (∃ (p : Pkt) (rest : List Pkt) (s : State), takePkt (fun p => p.opcode == 0x09 && faSvc p.destFa) s.engReq = some (p, rest) ∧ crcOk p = true ∧
      s.timeValid = true ∧ s.lockStopped = false ∧ ageOf s.ns p.origin ≤ s.reqAge / 2 ∧ (p.lop = 3 ∨ p.lop = 4 ∨
      s.rd (R.LCK_GRP_CFG_MOVED p.lockGroup) = 0) ∧ p.lop = 4) ∧
    (∃ (p : Pkt) (rest : List Pkt) (s : State), takePkt (fun p => p.opcode == 0x21 && faSvc p.destFa) s.engFwd = some (p, rest) ∧ crcOk p = true ∧
      s.timeValid = true ∧ s.lockStopped = false ∧ ageOf s.ns p.origin ≤ s.reqAge / 2 ∧ p.lop = 0) ∧
    (∃ (p : Pkt) (rest : List Pkt) (s : State), takePkt (fun p => p.opcode == 0x21 && faSvc p.destFa) s.engFwd = some (p, rest) ∧ crcOk p = true ∧
      s.timeValid = true ∧ s.lockStopped = false ∧ ageOf s.ns p.origin ≤ s.reqAge / 2 ∧ p.lop = 1) ∧
    (∃ (p : Pkt) (rest : List Pkt) (s : State), takePkt (fun p => p.opcode == 0x21 && faSvc p.destFa) s.engFwd = some (p, rest) ∧ crcOk p = true ∧
      s.timeValid = true ∧ s.lockStopped = false ∧ ageOf s.ns p.origin ≤ s.reqAge / 2 ∧ p.lop = 2) ∧
    (∃ (p : Pkt) (rest : List Pkt) (s : State), takePkt (fun p => p.opcode == 0x21 && faSvc p.destFa) s.engFwd = some (p, rest) ∧ crcOk p = true ∧
      s.timeValid = true ∧ s.lockStopped = false ∧ ageOf s.ns p.origin ≤ s.reqAge / 2 ∧ p.lop = 3) ∧
    (∃ (p : Pkt) (rest : List Pkt) (s : State), takePkt (fun p => p.opcode == 0x21 && faSvc p.destFa) s.engFwd = some (p, rest) ∧ crcOk p = true ∧
      s.timeValid = true ∧ s.lockStopped = false ∧ ageOf s.ns p.origin ≤ s.reqAge / 2 ∧ p.lop = 4) ∧
    (∃ (m : Master) (s : State), Reaches s m 0xE00008 ∧ s.lockStopped = false) :=
  ⟨⟨rq 9 0 0 3 0 0, [], q S2 (rq 9 0 0 3 0 0), by decide +kernel⟩,
    ⟨rq 9 1 0 3 0 0, [], q S2 (rq 9 1 0 3 0 0), by decide +kernel⟩,
    ⟨rq 9 2 0 3 0 0, [], q S2 (rq 9 2 0 3 0 0), by decide +kernel⟩,
    ⟨rq 9 3 0 3 0 0, [], q S2 (rq 9 3 0 3 0 0), by decide +kernel⟩,
    ⟨rq 9 4 0 3 0 0, [], q S2 (rq 9 4 0 3 0 0), by decide +kernel⟩,
    ⟨rq 33 0 0 3 0 0, [], q S2 (rq 33 0 0 3 0 0), by decide +kernel⟩,
    ⟨rq 33 1 0 3 0 0, [], q S2 (rq 33 1 0 3 0 0), by decide +kernel⟩,
    ⟨rq 33 2 0 3 0 0, [], q S2 (rq 33 2 0 3 0 0), by decide +kernel⟩,
    ⟨rq 33 3 0 3 0 0, [], q S2 (rq 33 3 0 3 0 0), by decide +kernel⟩,
    ⟨rq 33 4 0 3 0 0, [], q S2 (rq 33 4 0 3 0 0), by decide +kernel⟩,
    ⟨.arbiter, S2, by decide +kernel⟩⟩

theorem witness_Purging :
    (∃ (hit : Nat → Nat → Bool) (w : Fin 65536) (s : State), let v := s.lockWord w.val; v % 2 ^ 44 ≠ 0 ∧ hit w.val v = true) ∧
    (∃ (hit : Nat → Nat → Bool) (w : Fin 65536) (s : State), let v := s.lockWord w.val; (v % 2 ^ 44 = 0 ∨ hit w.val v = false)) ∧
    (∃ (m : Master) (s : State), Reaches s m 0xE00030) ∧
    (∃ (s : State), s.timeValid = false) ∧
    (∃ (q : Purge) (s : State), s.lck.purges = [q] ∧ s.timeValid = true ∧ (q.built = true ∨ s.now < q.due)) ∧
    (∃ (q : Purge) (s : State), s.lck.purges = [q] ∧ s.timeValid = true ∧ q.built = false ∧ q.due ≤ s.now ∧ q.tx < s.lockRetries) ∧
    (∃ (q : Purge) (s : State), s.lck.purges = [q] ∧ s.timeValid = true ∧ q.built = false ∧ q.due ≤ s.now ∧ s.lockRetries ≤ q.tx) :=
  ⟨⟨fun _ _ => true, 0, S3, by decide +kernel⟩,
    ⟨fun _ _ => true, 0, base, by decide +kernel⟩,
    ⟨Master.commander, S3, by decide +kernel⟩,
    ⟨base, by decide +kernel⟩,
    ⟨({ pg with due := 60000000 } : Purge), S1.withLck (({ S1.lck with purges := [({ pg with due := 60000000 } : Purge)] } : LckSt)),
      by decide +kernel⟩,
    ⟨pg, S1.withLck (({ S1.lck with purges := [pg] } : LckSt)), by decide +kernel⟩,
    ⟨({ pg with tx := 100 } : Purge), S1.withLck (({ S1.lck with purges := [({ pg with tx := 100 } : Purge)] } : LckSt)), by decide +kernel⟩⟩

theorem witness_LockAnswers :
    (∃ (w : BitVec 32) (x : WorkEnt) (s : State), s.workEnt w.toNat = some x ∧ wop x = 6 ∧ x.qid ≠ adminQ ∧ x.fin = none ∧ x.started = true ∧
      x.asked = true ∧ lockLanded x = false ∧ s.timeValid = false) ∧
    (∃ (w : BitVec 32) (x : WorkEnt) (s : State), s.workEnt w.toNat = some x ∧ wop x = 6 ∧ x.qid ≠ adminQ ∧ x.fin = none ∧ x.started = true ∧
      x.asked = true ∧ lockLanded x = false ∧ s.now < x.lastTx + 2 * s.reqAge) ∧
    (∃ (w : BitVec 32) (x : WorkEnt) (s : State), s.workEnt w.toNat = some x ∧ wop x = 6 ∧ x.qid ≠ adminQ ∧ x.fin = none ∧ x.started = true ∧
      x.asked = true ∧ lockLanded x = false ∧ s.timeValid = true ∧ x.lastTx + 2 * s.reqAge ≤ s.now ∧ s.lockRetries ≤ x.txCount) ∧
    (∃ (w : BitVec 32) (x : WorkEnt) (k : Wq) (fa : Nat) (s : State), s.workEnt w.toNat = some x ∧ wop x = 6 ∧ x.qid ≠ adminQ ∧ x.fin = none ∧
      x.started = true ∧ x.asked = true ∧ lockLanded x = false ∧ x.lastTx + 2 * s.reqAge ≤ s.now ∧ x.txCount < s.lockRetries ∧ s.canBuild x = some k ∧
      x.dest = some fa) ∧
    (∃ (p : Pkt) (rest : List Pkt) (s : State), takePkt (fun p => p.opcode == 0x47) s.engRep = some (p, rest) ∧ crcOk p = true ∧ s.work = [] ∧
      s.lck.purges = []) ∧
    (∃ (p : Pkt) (rest : List Pkt) (s : State) (w : Nat) (x : WorkEnt) (k : Wq), takePkt (fun p => p.opcode == 0x47) s.engRep = some (p, rest) ∧
      crcOk p = true ∧ s.work = [(w, some x)] ∧ x.fn = faFn p.destFa ∧ wop x = 6 ∧ x.qid ≠ adminQ ∧ x.started = true ∧ x.fin = none ∧
      lockLanded x = false ∧ x.reqId = p.reqId ∧ faSvc p.destFa = false ∧ s.wq x.fn x.qid = some k ∧ k.state ≠ 1) ∧
    (∃ (p : Pkt) (rest : List Pkt) (s : State) (w : Nat) (x : WorkEnt) (k : Wq), takePkt (fun p => p.opcode == 0x47) s.engRep = some (p, rest) ∧
      crcOk p = true ∧ s.work = [(w, some x)] ∧ x.fn = faFn p.destFa ∧ wop x = 6 ∧ x.qid ≠ adminQ ∧ x.started = true ∧ x.fin = none ∧
      lockLanded x = false ∧ x.reqId = p.reqId ∧ faSvc p.destFa = false ∧ s.wq x.fn x.qid = some k ∧ k.state = 1 ∧ k.xctx = 0xFFFF ∧ x.fn % 128 = 0 ∧
      wladdr x % 4096 ≤ 4088 ∧ s.inWindow (x.fn / 128) (wladdr x) = false) ∧
    (∃ (w : BitVec 32) (x : WorkEnt) (k : Wq) (s : State), s.workEnt w.toNat = some x ∧ wop x = 6 ∧ x.qid ≠ adminQ ∧ x.fin = none ∧
      lockLanded x = true ∧ s.wq x.fn x.qid = some k ∧ k.state = 1) :=
  ⟨⟨7, { we with lastTx := 50000000 }, (wS.wrB R.TIM_STAT_VALID false).setWork 7 (some { we with lastTx := 50000000 }), by decide +kernel⟩,
    ⟨7, { we with lastTx := 50000000 }, wS.setWork 7 (some ({ we with lastTx := 50000000 })), by decide +kernel⟩,
    ⟨7, { we with txCount := 100 }, wS.setWork 7 (some ({ we with txCount := 100 })), by decide +kernel⟩,
    ⟨7, we, kq, faOfFn 9 4, wS.setWork 7 (some (we)), by decide +kernel⟩,
    ⟨rs, [], S1.withEngRep [rs], by decide +kernel⟩,
    ⟨rs, [], (wS.setWq 128 1 (some { kq with state := 2 })).withEngRep [rs], 7, we, { kq with state := 2 }, by decide +kernel⟩,
    ⟨rs, [], wS.withEngRep [rs], 7, we, kq, by decide +kernel⟩,
    ⟨7, { we with readB := 1 }, kq, wS.setWork 7 (some { we with readB := 1 }), by decide +kernel⟩⟩

end Sys2Proof.Tests.L13

namespace Sys2Proof.Tests.L14

set_option Elab.async false

def S1 : State := ((((((((((base.wrB R.TIM_STAT_VALID true).withTime { base.time with ft := 5000000 * 65536 }).wr R.GLB_INFO_MODULE_ID 3
  |>.withNow 50000007)).wr R.GLB_MODE_STAT_MODE 4).wr R.STK_CFG_MEMBERS 7).wr R.STK_CFG_MEMBER 1).wr R.STK_CFG_STACK_ID 99).wr
  R.STK_STAT_PRESENT 7).wr R.STK_CFG_STANDBY_IDX 1).wr R.STK_CFG_MASTER_IDX 0

def S0 : State := S1.wr R.STK_STAT_MASTER_NOW 1

def rq (c a : Nat) : MgmtReq := {slot := 2, cmd := 0x1000 + 256 + c, arg := a, psn := 5, src := 7, len := 0, data := false, value := 0, port := 5,
                                 pay := []}

def cm (s : State) : State := (s.modPort 5 (fun x => { x with stack := true })).wr (R.LT_LANE_STAT_REMOTE_MODULE (s.portLane 5 0 / 32)
  (s.portLane 5 0 % 32)) 3

def sx : StkReq := {psn := 4, cmd := 0x110A, member := 1, at_ := 5, arg := 0}

def y0 := ((cm S1).withCgc (({ (cm S1).cgc with reqs := [rq 1 99] } : CgcSt)))

def y1 := ((S1.withCgc (({ S1.cgc with reqs := [rq 1 99] } : CgcSt))).withStk (({ S1.stk with arm := some (1, 5) } : StkSt)))

def y2 := (S1.withStk (({ S1.stk with lastHb := 50000000 } : StkSt)))

def y3 := ((S1.withStk (({ S1.stk with strobe := some (1, 5, [], none) } : StkSt))).wr R.STK_STAT_PRESENT 2)

def y4 := ((S1.withCgc (({ S1.cgc with reqs := [rq 7 5005] } : CgcSt))).withStk (({ S1.stk with arm := some (1, 5) } : StkSt)))

def y5 := ((S1.withCgc (({ S1.cgc with reqs := [rq 7 4] } : CgcSt))).withStk (({ S1.stk with arm := some (1, 5) } : StkSt)))

def y6 := (S1.withStk (({ S1.stk with arm := some (1, 5), commit := some 4 } : StkSt)))

def y7 := ((S1.withStk (({ S1.stk with sent := [sx] } : StkSt))).withCgc (({ S1.cgc with reqs := [({ rq 0 0 with mirror := some 4 } : MgmtReq)] }
  : CgcSt)))

/-- This in-band request is at the front of the arbiter's processor. -/
def got (r : MgmtReq) (s : State) : State := (cm s).withCgc { (cm s).cgc with reqs := [r] }

theorem witness_StackHeartbeats :
    (∃ (r : MgmtReq) (s : State), InBand s r ∧ r.cmd / 4096 = 1 ∧ r.cmd % 256 = 1 ∧ r.port < 256 ∧ (s.port r.port).stack = true ∧
      s.commaModule r.port = s.moduleId ∧ r.arg % 2 ^ 32 = s.rd R.STK_CFG_STACK_ID ∧ s.isMember r.slot = true ∧ r.slot ≠ s.ownMember) ∧
    (∃ (r : MgmtReq) (s : State), InBand s r ∧ r.cmd / 4096 = 1 ∧ r.cmd % 256 = 1 ∧ r.arg % 2 ^ 32 ≠ s.rd R.STK_CFG_STACK_ID) ∧
    (∃ (r : MgmtReq) (s : State), InBand s r ∧ r.cmd / 4096 = 1 ∧ r.cmd % 256 = 2 ∧ s.rd R.STK_CFG_STANDBY_IDX ≠ s.ownMember) ∧
    (∃ (r : MgmtReq) (s : State), InBand s r ∧ r.cmd / 4096 = 1 ∧ r.cmd % 256 = 2 ∧ s.rd R.STK_CFG_STANDBY_IDX = s.ownMember ∧ s.isMaster = false ∧
      bitsOf r.arg 48 16 ≠ s.stk.mseq) ∧
    (∃ (r : MgmtReq) (s : State), InBand s r ∧ r.cmd / 4096 = 1 ∧ r.cmd % 256 = 3 ∧ r.len = 0) ∧
    (∃ (r : MgmtReq) (s : State) (q : Square), InBand s r ∧ r.cmd / 4096 = 1 ∧ r.cmd % 256 = 3 ∧ r.len = 16 ∧ r.pay = [q]) ∧
    (∃ (s : State), s.isMaster = false) ∧
    (∃ (s : State), s.isMaster = true ∧ (s.stk.hbSent = 0 ∨ s.stk.hbSent + s.hbPeriod ≤ s.now)) ∧
    (∃ (s : State), let ports := if s.rd R.STK_CFG_SPINE = 1 then s.formedPorts.filter (fun p => (s.port p).stack) else s.externalPorts;
      let up := ports.filter s.portUp; s.inStack = true ∧ s.now < s.stk.digSent + s.digestPeriod ∧ up = s.stk.upSeen) ∧
    (∃ (s : State), let ports := if s.rd R.STK_CFG_SPINE = 1 then s.formedPorts.filter (fun p => (s.port p).stack) else s.externalPorts;
      let up := ports.filter s.portUp; s.inStack = true ∧ (s.stk.digSent + s.digestPeriod ≤ s.now ∨ up ≠ s.stk.upSeen)) :=
  ⟨⟨rq 1 99, y0, by decide +kernel⟩,
    ⟨rq 1 98, (cm S1).withCgc (({ (cm S1).cgc with reqs := [rq 1 98] } : CgcSt)), by decide +kernel⟩,
    ⟨rq 2 0, (S1.wr R.STK_CFG_STANDBY_IDX 2).withCgc (({ S1.cgc with reqs := [rq 2 0] } : CgcSt)), by decide +kernel⟩,
    ⟨rq 2 (7 * 2 ^ 48), got (rq 2 (7 * 2 ^ 48)) S1, by decide +kernel⟩,
    ⟨rq 3 0, (cm S1).withCgc (({ (cm S1).cgc with reqs := [rq 3 0] } : CgcSt)), by decide +kernel⟩,
    ⟨{ rq 3 0 with len := 16, pay := [5] }, got { rq 3 0 with len := 16, pay := [5] } S1, 5, by decide +kernel⟩,
    ⟨S1, by decide +kernel⟩,
    ⟨S0, by decide +kernel⟩,
    ⟨S0.withStk { S0.stk with digSent := 50000000 }, by decide +kernel⟩,
    ⟨S0, by decide +kernel⟩⟩

theorem witness_StackStrobes :
    (∃ (r : MgmtReq) (s : State), InBand s r ∧ r.cmd / 4096 = 1 ∧ r.cmd % 256 = 6 ∧ maskOk r.arg = true ∧ s.copying = []) ∧
    (∃ (r : MgmtReq) (s : State), InBand s r ∧ r.cmd / 4096 = 1 ∧ r.cmd % 256 = 6 ∧ maskOk r.arg = false) ∧
    (∃ (r : MgmtReq) (s : State), InBand s r ∧ r.cmd / 4096 = 1 ∧ r.cmd % 256 = 7 ∧ s.stk.arm = none) ∧
    (∃ (r : MgmtReq) (s : State) (mask at_ : Nat), InBand s r ∧ r.cmd / 4096 = 1 ∧ r.cmd % 256 = 7 ∧ s.stk.arm = some (mask, at_) ∧
      s.us < r.arg % 2 ^ 48) ∧
    (∃ (r : MgmtReq) (s : State) (mask at_ : Nat), InBand s r ∧ r.cmd / 4096 = 1 ∧ r.cmd % 256 = 7 ∧ s.stk.arm = some (mask, at_) ∧
      r.arg % 2 ^ 48 ≤ s.us) ∧
    (∃ (r : MgmtReq) (s : State), InBand s r ∧ r.cmd / 4096 = 1 ∧ r.cmd % 256 = 8 ∧ s.stk.armWait = none) ∧
    (∃ (mask at_ : Nat) (s : State), s.stk.arm = some (mask, at_) ∧ s.stk.armWait = none ∧ s.stk.commit = none ∧
      s.now < at_ + 2 * s.strobeLead * 1000) ∧
    (∃ (mask at_ : Nat) (s : State), s.stk.arm = some (mask, at_) ∧ s.stk.armWait = none ∧ s.stk.commit = none ∧
      at_ + 2 * s.strobeLead * 1000 ≤ s.now) ∧
    (∃ (mask at_ : Nat) (s : State) (tt : Nat), s.stk.arm = some (mask, at_) ∧ s.stk.armWait = none ∧ s.stk.commit = some tt ∧ s.us < tt) ∧
    (∃ (mask at_ : Nat) (s : State) (tt : Nat), s.stk.arm = some (mask, at_) ∧ s.stk.armWait = none ∧ s.stk.commit = some tt ∧ tt ≤ s.us ∧
      s.stk.syncing = []) ∧
    (∃ (mask at_ : Nat) (l : List Nat) (s : State), s.stk.strobe = some (mask, at_, l, none) ∧ s.now < at_ + s.strobeLead * 1000) ∧
    (∃ (mask at_ : Nat) (l : List Nat) (s : State), s.stk.strobe = some (mask, at_, l, none) ∧ at_ + s.strobeLead * 1000 ≤ s.now ∧ s.strobeAsks = [] ∧
      s.stk.syncing = []) :=
  ⟨⟨rq 6 1, (cm S1).withCgc (({ (cm S1).cgc with reqs := [rq 6 1] } : CgcSt)), by decide +kernel⟩,
    ⟨rq 6 16, (cm S1).withCgc (({ (cm S1).cgc with reqs := [rq 6 16] } : CgcSt)), by decide +kernel⟩,
    ⟨rq 7 5005, (cm S1).withCgc (({ (cm S1).cgc with reqs := [rq 7 5005] } : CgcSt)), by decide +kernel⟩,
    ⟨rq 7 5005, y4, 1, 5, by decide +kernel⟩,
    ⟨rq 7 4, y5, 1, 5, by decide +kernel⟩,
    ⟨rq 8 0, (cm S1).withCgc (({ (cm S1).cgc with reqs := [rq 8 0] } : CgcSt)), by decide +kernel⟩,
    ⟨1, 50000000, S1.withStk (({ S1.stk with arm := some (1, 50000000) } : StkSt)), by decide +kernel⟩,
    ⟨1, 5, y1, by decide +kernel⟩,
    ⟨1, 5, S1.withStk (({ S1.stk with arm := some (1, 5), commit := some 5001 } : StkSt)), 5001, by decide +kernel⟩,
    ⟨1, 5, y6, 4, by decide +kernel⟩,
    ⟨1, 50000000, [], S1.withStk (({ S1.stk with strobe := some (1, 50000000, [], none) } : StkSt)), by decide +kernel⟩,
    ⟨1, 5, [], y3, by decide +kernel⟩⟩

theorem witness_MasterChange :
    (∃ (r : MgmtReq) (s : State), InBand s r ∧ r.cmd / 4096 = 1 ∧ r.cmd % 256 = 9 ∧ r.arg % 4 = 3) ∧
    (∃ (r : MgmtReq) (s : State), InBand s r ∧ r.cmd / 4096 = 1 ∧ r.cmd % 256 = 10 ∧ bitsOf r.arg 16 16 = (s.stk.mseq + 1) % 65536) ∧
    (∃ (r : MgmtReq) (s : State), InBand s r ∧ r.cmd / 4096 = 1 ∧ r.cmd % 256 = 11) ∧
    (∃ (r : MgmtReq) (s : State), InBand s r ∧ r.cmd / 4096 = 1 ∧ r.cmd % 256 = 12 ∧ s.isMaster = true ∧ s.stk.armWait = none) ∧
    (∃ (r : MgmtReq) (s : State), InBand s r ∧ r.cmd / 4096 = 1 ∧ r.cmd % 256 = 12 ∧ s.isMaster = false ∧ s.stk.armWait = none) ∧
    (∃ (x : StkReq) (s : State),
      s.stk.sent.find? (fun x => x.cmd % 256 == 0x0A && decide (x.at_ + 20000 ≤ s.now) && s.cgc.reqs.any (fun r => r.mirror == some x.psn)) = some x)
      ∧
    (∃ (s : State), s.inStack = false) ∧
    (∃ (s : State) (i j : Fin 12), s.inStack = true ∧ s.isMaster = true ∧ j ≠ i) ∧
    (∃ (s : State), s.inStack = true ∧ s.isMaster = false ∧ s.rd R.STK_STAT_DEPOSED = 0 ∧ s.rd R.STK_CFG_STANDBY_IDX = s.ownMember ∧
      s.now < s.stk.lastHb + s.hbMiss * s.hbPeriod) ∧
    (∃ (s : State), s.inStack = true ∧ s.isMaster = false ∧ s.rd R.STK_STAT_DEPOSED = 0 ∧ s.rd R.STK_CFG_STANDBY_IDX = s.ownMember ∧
      s.stk.lastHb + s.hbMiss * s.hbPeriod ≤ s.now ∧ s.stk.queryAt = 0 ∧ s.rd R.STK_STAT_STANDBY_STALE = 1) ∧
    (∃ (s : State), s.inStack = true ∧ s.isMaster = false ∧ s.rd R.STK_STAT_DEPOSED = 0 ∧ s.rd R.STK_CFG_STANDBY_IDX = s.ownMember ∧
      s.stk.lastHb + s.hbMiss * s.hbPeriod ≤ s.now ∧ s.stk.queryAt = 0 ∧ s.rd R.STK_STAT_STANDBY_STALE = 0 ∧
      s.presentOthers.filter (· != s.rd R.STK_STAT_MASTER_NOW) = []) ∧
    (∃ (i : Fin 12) (s : State), s.inStack = true ∧ s.isMember i.val = true ∧ s.isMaster = false ∧ i.val = s.ownMember ∧ s.stk.strobed = false) ∧
    (∃ (i : Fin 12) (s : State), s.inStack = true ∧ s.isMember i.val = true ∧ s.isMaster = false ∧ i.val = s.ownMember ∧ s.stk.strobed = true ∧
      s.externalPorts = []) ∧
    (∃ (i : Fin 12) (s : State), s.inStack = true ∧ s.isMember i.val = true ∧ s.isMaster = true ∧ i.val ≠ s.ownMember ∧
      s.stk.syncing.contains (32 + i.val) = true) ∧
    (∃ (i : Fin 12) (s : State), s.inStack = true ∧ s.isMember i.val = true ∧ s.isMaster = true ∧ i.val ≠ s.ownMember ∧ s.stk.syncing = []) ∧
    (∃ (i : Fin 12) (s : State), s.inStack = true ∧ s.isMember i.val = true ∧ s.isMaster = false ∧ i.val ≠ s.ownMember) :=
  ⟨⟨rq 9 3, (cm S1).withCgc (({ (cm S1).cgc with reqs := [rq 9 3] } : CgcSt)), by decide +kernel⟩,
    ⟨rq 10 (65552 + 2 ^ 33), (cm S1).withCgc (({ (cm S1).cgc with reqs := [rq 10 (65552 + 2 ^ 33)] } : CgcSt)), by decide +kernel⟩,
    ⟨rq 11 0, (cm S1).withCgc (({ (cm S1).cgc with reqs := [rq 11 0] } : CgcSt)), by decide +kernel⟩,
    ⟨rq 12 0, (cm S0).withCgc (({ (cm S0).cgc with reqs := [rq 12 0] } : CgcSt)), by decide +kernel⟩,
    ⟨rq 12 0, got (rq 12 0) S1, by decide +kernel⟩,
    ⟨sx, y7, by decide +kernel⟩,
    ⟨S1.wr R.GLB_MODE_STAT_MODE 1, by decide +kernel⟩,
    ⟨S0, 0, 1, by decide +kernel⟩,
    ⟨y2, by decide +kernel⟩,
    ⟨S1.wr R.STK_STAT_STANDBY_STALE 1, by decide +kernel⟩,
    ⟨S1.wr R.STK_STAT_PRESENT 3, by decide +kernel⟩,
    ⟨1, S1, by decide +kernel⟩,
    ⟨1, S1.withStk { S1.stk with strobed := true }, by decide +kernel⟩,
    ⟨0, S0.withStk { S0.stk with syncing := [32] }, by decide +kernel⟩,
    ⟨0, S0, by decide +kernel⟩,
    ⟨0, S1, by decide +kernel⟩⟩

end Sys2Proof.Tests.L14

namespace Sys2Proof.Tests.L15

set_option Elab.async false

def S1 : State := (base.withPwr { base.pwr with state := .on }).withMgmtUp true

def y0 := (some { svn := 0, imageId := 0, commitSvn := false, mode := 0, stackRole := 0, moduleId := 3, svcPawns := [], ageLimit := 0, stackId := 0,
                  members := 0, member := 0, masterIdx := 0, standbyIdx := 0, portMap := [], rates := [], txEq := [], vlMask := [], grants := [],
                  guarVl := [], parts := [(true, 3), (true, 0), (true, 1)], hostPorts := [], defaults := [], handlers := [], reconfAllowed := true,
                  debugAllowed := 0, lockAtBoot := 0, keySlots := [], faultPolicy := [] : Opening })

/-- Port 0 up and its physical function decoding accesses. -/
def host : State :=
  (((S1.wr (R.HPT_PORT_STAT_LINK_UP 0) 1).wr (R.HPT_FN_STAT_ENABLED 0 0) 1).setPci 0 { regs := [(0x0004, 6), (0x6008, 8)] })

/-- The same function in teardown. -/
def torn : State := host.wr (R.HPT_FN_STAT_TEARDOWN 0 0) 1

/-- An Opening whose memory part 0 is writable through the aperture. -/
def opened : State := (S1.withOpening y0).wr R.GLB_APERTURE_WRITE_EN 1

theorem witness_AccessChecks :
    (∃ (m : Master) (s : State), s.arrives m.id = false) ∧
    (∃ (m : Master) (s : State), let d3 := m.id = 1 ∧ s.mgmtD3 = true ∧ s.mgmtUp = true ∧ s.pwr.state = .on; d3) ∧
    (∃ (m : Master) (s : State), let d3 := m.id = 1 ∧ s.mgmtD3 = true ∧ s.mgmtUp = true ∧ s.pwr.state = .on; (¬ d3)) ∧
    (∃ (m : Master) (off : BitVec 26) (s : State), let o := off.toNat; s.arrives m.id = true ∧ s.refuses (blockIsland o) = true) ∧
    (∃ (m : Master) (off : BitVec 26) (size : BitVec 8) (s : State), let o := off.toNat; (¬ ((size.toNat = 4 ∨ size.toNat = 8) ∧
      o % size.toNat = 0)) ∧ Reaches s m o) ∧
    (∃ (m : Master) (off : BitVec 26) (size : BitVec 8) (s : State), let o := off.toNat; (¬ ((size.toNat = 4 ∨ size.toNat = 8) ∧
      o % size.toNat = 0)) ∧ s.gate m.id false o = (s, true)) :=
  ⟨⟨Master.commander, S1.withMgmtUp false, by decide +kernel⟩,
    ⟨Master.commander, S1.withMgmtD3 true, by decide +kernel⟩,
    ⟨Master.commander, S1.withMgmtUp false, by decide +kernel⟩,
    ⟨Master.arbiter, 0, (S1.setIsland 24 2).setIsland 0 3, by decide +kernel⟩,
    ⟨.arbiter, 0, 0, base, by decide +kernel⟩,
    ⟨.arbiter, 0, 0, base, by decide +kernel⟩⟩

theorem witness_RegisterAccesses :
    (∃ (m : Master) (s : State), let o := 0xB00008; Reaches s m o) ∧
    (∃ (m : Master) (s : State), let o := 0xB00008; s.arrives m.id = true ∧ s.gate m.id false o = (s, true)) ∧
    (∃ (f : Fin 512) (s : State), let p := f.val / 128; let n := f.val % 128; s.decodes f = true ∧ s.fnTeardown f = false ∧
      s.rd (R.HPT_ADMIN_CFG_ENABLE p n) = 0) ∧
    (∃ (f : Fin 512) (s : State), let p := f.val / 128; let n := f.val % 128; s.decodes f = true ∧ (s.fnTeardown f = true ∨
      s.rd (R.HPT_ADMIN_CFG_ENABLE p n) = 1)) :=
  ⟨⟨Master.arbiter, S1, by decide +kernel⟩,
    ⟨Master.arbiter, S1, by decide +kernel⟩,
    ⟨0, host, by decide +kernel⟩,
    ⟨0, torn, by decide +kernel⟩⟩

theorem witness_LocksAndManagementPort :
    (∃ (m : Master) (s : State), Reaches s m 0x18) ∧
    (∃ e, e ∈ [MgmtEvent.linkDown, .hotReset, .perst]) ∧
    (∃ (s : State) (gen : BitVec 3) (width : BitVec 5), let e := MgmtEvent.linkUp gen width; (s.rd R.PWR_CLK_STAT_MGMT_LOST = 1 ∨ s.mgmtUp = true ∨
      e.wf = false)) ∧
    (∃ (s : State) (gen : BitVec 3) (width : BitVec 5), let e := MgmtEvent.linkUp gen width; s.rd R.PWR_CLK_STAT_MGMT_LOST = 0 ∧ s.mgmtUp = false ∧
      e.wf = true) :=
  ⟨⟨Master.arbiter, S1, by decide +kernel⟩,
    ⟨.hotReset, by decide +kernel⟩,
    ⟨base, 0, 0, by decide +kernel⟩,
    ⟨S1.withMgmtUp false, 3, 4, by decide +kernel⟩⟩

theorem witness_HostAccesses :
    (∃ (f : Fin 512) (size : BitVec 8) (s : State), ∃ w, s.decodes f = false ∧ w ∈ [Who.fn f, .bar0 f, .msix (f.castLE (by decide))] ∧
      0 < size.toNat ∧ size.toNat ≤ 64) ∧
    (∃ (f : Fin 512) (s : State), s.cfgReach f = false) ∧
    (∃ (f : Fin 512) (s : State), s.decodes f = true) ∧
    (∃ (f : Fin 513) (s : State), ∃ x,
      let device := if f.val = 512 then (if s.isS0 then 0x1027 else 0x1026) else if f.val % 128 = 0 then 0x1024 else 0x1025;
      let cls := if f.val = 512 then 0x088000 else 0x028000; let subsystem := if f.val = 512 ∧ s.isS0 = true then 2 else 1;
      let rev := 0x10 * s.rd R.GLB_INFO_STEP_LET + s.rd R.GLB_INFO_STEP_NUM; s.cfgReach f = true ∧ x ∈ [(0x0000, 0x1F6A + 2 ^ 16 * device), (0x0008,
      rev + 2 ^ 8 * cls), (0x002C, 0x1F6A + 2 ^ 16 * subsystem)]) ∧
    (∃ (f : Fin 513) (key : BitVec 26) (s : State), let k := key.toNat; let torn := decide (f.val < 512) && s.fnTeardown f; s.cfgReach f = true ∧
      k % 4 = 0 ∧ capHere (fnKind f) (k / 4096) = true ∧ k ∉ [0x0004, 0x1008, 0x2004, 0x3000, 0x6008, 0x6010] ∧ torn = false) ∧
    (∃ (f : Fin 513) (key : BitVec 26) (s : State), let k := key.toNat; let torn := decide (f.val < 512) && s.fnTeardown f; s.cfgReach f = true ∧
      k % 4 = 0 ∧ capHere (fnKind f) (k / 4096) = true ∧ k ∉ [0x0004, 0x1008, 0x2004, 0x3000, 0x6008, 0x6010] ∧ torn = true) ∧
    (∃ (f : Fin 512) (v : BitVec 64) (s : State), s.cfgReach f = true ∧ v.toNat.testBit 15 = true) ∧
    (∃ (f : Fin 513) (off : BitVec 26) (s : State), s.barReach f = true ∧ off.toNat % 4 = 0 ∧ s.barDead f = true) ∧
    (∃ (f : Fin 513) (off : BitVec 26) (s : State), let o := off.toNat; let last := if f.val = 512 then 32 else 2048; s.barReach f = true ∧
      off.toNat % 4 = 0 ∧ s.barDead f = false ∧ o < 16 * last) :=
  ⟨⟨0, 8, base, Who.bar0 0, by decide +kernel⟩,
    ⟨0, S1, by decide +kernel⟩,
    ⟨0, host, by decide +kernel⟩,
    ⟨0, host, ((0 : Nat), 0x1F6A + 2 ^ 16 * 0x1024), by decide +kernel⟩,
    ⟨0, 0, host, by decide +kernel⟩,
    ⟨0, 0, torn, by decide +kernel⟩,
    ⟨0, 0x8000, host, by decide +kernel⟩,
    ⟨0, 0, torn, by decide +kernel⟩,
    ⟨0, 0, host, by decide +kernel⟩⟩

theorem witness_ApertureAccesses :
    (∃ (m : Master) (off : BitVec 26) (size : BitVec 8) (s : State), let a := s.rd R.GLB_APERTURE_BASE * 2 ^ 20 + (off.toNat - 0x1000000);
      0x1000000 ≤ off.toNat ∧ (size = 4 ∨ size = 8) ∧ off.toNat % size.toNat = 0 ∧ s.arrives m.id = true ∧ s.gate m.id false off.toNat = (s, true) ∧
      a < 24 * 2 ^ 30) ∧
    (∃ (m : Master) (off : BitVec 26) (size : BitVec 8) (s : State), let a := s.rd R.GLB_APERTURE_BASE * 2 ^ 20 + (off.toNat - 0x1000000);
      0x1000000 ≤ off.toNat ∧ (size = 4 ∨ size = 8) ∧ off.toNat % size.toNat = 0 ∧ s.arrives m.id = true ∧ s.gate m.id false off.toNat = (s, true) ∧
      24 * 2 ^ 30 ≤ a) ∧
    (∃ (m : Master) (off : BitVec 26) (size : BitVec 8) (s : State), let a := s.rd R.GLB_APERTURE_BASE * 2 ^ 20 + (off.toNat - 0x1000000);
      0x1000000 ≤ off.toNat ∧ (size = 4 ∨ size = 8) ∧ off.toNat % size.toNat = 0 ∧ Reaches s m off.toNat ∧ a < 24 * 2 ^ 30 ∧
      s.apertureWritable a = true) ∧
    (∃ (m : Master) (off : BitVec 26) (size : BitVec 8) (s : State), let a := s.rd R.GLB_APERTURE_BASE * 2 ^ 20 + (off.toNat - 0x1000000);
      0x1000000 ≤ off.toNat ∧ (size = 4 ∨ size = 8) ∧ off.toNat % size.toNat = 0 ∧ Reaches s m off.toNat ∧ a < 24 * 2 ^ 30 ∧
      s.apertureWritable a = false) ∧
    (∃ (m : Master) (off : BitVec 26) (size : BitVec 8) (s : State), let a := s.rd R.GLB_APERTURE_BASE * 2 ^ 20 + (off.toNat - 0x1000000);
      0x1000000 ≤ off.toNat ∧ (size = 4 ∨ size = 8) ∧ off.toNat % size.toNat = 0 ∧ Reaches s m off.toNat ∧ 24 * 2 ^ 30 ≤ a) :=
  ⟨⟨Master.arbiter, 0x1000000, 8, S1, by decide +kernel⟩,
    ⟨Master.arbiter, 0x1000000, 8, S1.wr R.GLB_APERTURE_BASE 24576, by decide +kernel⟩,
    ⟨Master.arbiter, 0x1000000, 8, opened, by decide +kernel⟩,
    ⟨Master.arbiter, 0x1000000, 8, S1, by decide +kernel⟩,
    ⟨Master.arbiter, 0x1000000, 8, S1.wr R.GLB_APERTURE_BASE 24576, by decide +kernel⟩⟩

end Sys2Proof.Tests.L15

namespace Sys2Proof.Tests.L16

set_option Elab.async false

def S1 : State := (((base.withPwr { base.pwr with state := .on }).withMgmtUp true).wr R.SEC_BOOT_STAT_PHASE 5)

def st (n : Nat) : State := (S1.wr R.SEC_LOAD_CTL_LENGTH n).withSec { S1.sec with staging := [(0,0x4F),(3,7),(8,9),(11,77)],
                                                                                  flash := [(2,5),(9,1),(0x1000005,2)], challenge := some 3,
                                                                                  cert := [9,8,7] , buffer := [(0,4),(1,3),(40,9)]}

def run (x : SecRun) : State := ((st 20).wr R.SEC_CMD_STAT_BUSY 1).withSec { (st 20).sec with running := some x }

def y0 := (((S1.wr R.SEC_BOOT_STAT_PHASE 0).wr R.SEC_BOOT_CFG_SOURCE 1).withPwr (({ S1.pwr with sample := false } : PwrSt)))

def verifying : State := run { cmd := 2, data := [1, 2, 3] }

theorem witness_SecurityBusy :
    ∃ (m : Master) (s : State), ∃ c, Reaches s m 0x10010 ∧ (s.rd R.SEC_CMD_STAT_BUSY = 1 ∨ s.rd R.SEC_BOOT_STAT_PHASE = 0) ∧ c ∈ [Instr.boot m,
      .flashWriteA m, .flashWriteB m, .verifyStaged m, .enroll m, .challenge m, .unlock m, .attest m, .readCert m] :=
  ⟨Master.arbiter, S1.wr R.SEC_BOOT_STAT_PHASE 0, Instr.boot .arbiter, by decide +kernel⟩

theorem witness_StagedImages :
    ∃ (m : Master) (s : State), ∃ x, SecReady s m ∧ x ∈ [(Instr.flashWriteA m, 2, some 0), (.flashWriteB m, 3, some 0x1000000), (.verifyStaged m, 4,
      none)] :=
  ⟨.arbiter, S1, (Instr.flashWriteA .arbiter, 2, some 0), by decide +kernel⟩

theorem witness_LoadWindow :
    (∃ (m : Master) (off : BitVec 14) (size : BitVec 8) (s : State), let o := 0x18000 + off.toNat; let n := size.toNat; Reaches s m o ∧ (¬ ((n = 4 ∨
      n = 8) ∧ off.toNat % n = 0))) ∧
    (∃ (m : Master) (off : BitVec 14) (size : BitVec 8) (s : State), let o := 0x18000 + off.toNat; let n := size.toNat; Reaches s m o ∧ (n = 4 ∨
      n = 8) ∧ off.toNat % n = 0 ∧ (∃ x, s.sec.running = some x ∧ x.cmd ≤ 4)) ∧
    (∃ (m : Master) (off : BitVec 14) (size : BitVec 8) (s : State), let o := 0x18000 + off.toNat; let n := size.toNat; Reaches s m o ∧ (n = 4 ∨
      n = 8) ∧ off.toNat % n = 0 ∧ (∀ x, s.sec.running = some x → 4 < x.cmd)) :=
  ⟨⟨.arbiter, 0, 0, S1, by decide +kernel⟩,
    ⟨.arbiter, 0, 4, verifying, by decide +kernel, by decide +kernel, by decide +kernel, ⟨{ cmd := 2, data := [1, 2, 3] }, by decide +kernel,
      by decide⟩⟩,
    ⟨.arbiter, 0, 4, S1, by decide +kernel, by decide +kernel, by decide +kernel,
      fun _ h => absurd ((by decide +kernel : none = S1.sec.running).trans h) nofun⟩⟩

theorem witness_OwnershipAndDebug :
    (∃ (m : Master) (s : State), SecReady s m ∧ s.rd R.SEC_BOOT_STAT_PHASE = 6) ∧
    (∃ (m : Master) (s : State), SecReady s m ∧ s.rd R.SEC_BOOT_STAT_PHASE ≠ 6) ∧
    (∃ (m : Master) (s : State), SecReady s m ∧ m = .manager) ∧
    (∃ (m : Master) (s : State), SecReady s m ∧ m ≠ .manager) :=
  ⟨⟨.arbiter, (st 20).wr R.SEC_BOOT_STAT_PHASE 6, by decide +kernel⟩,
    ⟨.arbiter, S1, by decide +kernel⟩,
    ⟨Master.manager, S1, by decide +kernel⟩,
    ⟨Master.arbiter, S1, by decide +kernel⟩⟩

theorem witness_ChallengeAndAttestation :
    (∃ (m : Master) (s : State), SecReady s m ∧ s.rd R.SEC_HSS_STAT_EXHAUSTED = 1) ∧
    (∃ (m : Master) (s : State), let b := s.rd R.SEC_HSS_STAT_BUCKET; SecReady s m ∧ s.rd R.SEC_HSS_STAT_EXHAUSTED = 0 ∧ b = 0) ∧
    (∃ (m : Master) (s : State), let b := s.rd R.SEC_HSS_STAT_BUCKET; SecReady s m ∧ s.rd R.SEC_HSS_STAT_EXHAUSTED = 0 ∧ 0 < b ∧
      s.rd R.PWR_STAT_IN_LOW = 0) ∧
    (∃ (m : Master) (s : State), let b := s.rd R.SEC_HSS_STAT_BUCKET; SecReady s m ∧ s.rd R.SEC_HSS_STAT_EXHAUSTED = 0 ∧ 0 < b ∧
      s.rd R.PWR_STAT_IN_LOW = 1) ∧
    (∃ (s : State), s.now / 2000000000 ≤ s.sec.tokens) ∧
    (∃ (s : State), s.sec.tokens < s.now / 2000000000) :=
  ⟨⟨.arbiter, (st 20).wr R.SEC_HSS_STAT_EXHAUSTED 1, by decide +kernel⟩,
    ⟨.arbiter, (st 20).wr R.SEC_HSS_STAT_BUCKET 0, by decide +kernel⟩,
    ⟨.arbiter, S1, by decide +kernel⟩,
    ⟨.arbiter, S1.wr R.PWR_STAT_IN_LOW 1, by decide +kernel⟩,
    ⟨S1, by decide +kernel⟩,
    ⟨((st 20).wr R.SEC_HSS_STAT_BUCKET 64).withNow 9000000000, by decide +kernel⟩⟩

theorem witness_SecurityCommandEnds :
    (∃ (x : SecRun) (s : State), s.sec.running = some x ∧ s.rd R.FLT_ARB_STAT_STATE = 0 ∧ s.pwr.state = .on ∧ s.inStack = false ∧ x.result ≠ 0) ∧
    (∃ (x : SecRun) (s : State), s.sec.running = some x ∧ s.rd R.FLT_ARB_STAT_STATE = 0 ∧ s.pwr.state = .on ∧ s.inStack = false ∧ x.result = 0 ∧
      x.cmd ∈ [4, 6, 7]) ∧
    (∃ (flash : FlashRun) (x : SecRun) (s : State), s.sec.running = some x ∧ s.rd R.FLT_ARB_STAT_STATE = 0 ∧ s.pwr.state = .on ∧ s.inStack = false ∧
      x.result = 0 ∧ x.cmd ∈ [2, 3, 5, 8, 9] ∧ flash.done = false) ∧
    (∃ (flash : FlashRun) (x : SecRun) (s : State), s.sec.running = some x ∧ s.rd R.FLT_ARB_STAT_STATE = 0 ∧ s.pwr.state = .on ∧ s.inStack = false ∧
      x.result = 0 ∧ x.cmd ∈ [2, 3] ∧ flash.done = true) ∧
    (∃ (flash : FlashRun) (x : SecRun) (s : State), s.sec.running = some x ∧ s.rd R.FLT_ARB_STAT_STATE = 0 ∧ s.pwr.state = .on ∧ s.inStack = false ∧
      x.result = 0 ∧ x.cmd = 5 ∧ flash.done = true ∧ s.rd R.PWR_STAT_IN_LOW = 0) ∧
    (∃ (flash : FlashRun) (x : SecRun) (s : State), s.sec.running = some x ∧ s.rd R.FLT_ARB_STAT_STATE = 0 ∧ s.pwr.state = .on ∧ s.inStack = false ∧
      x.result = 0 ∧ x.cmd = 5 ∧ flash.done = true ∧ s.rd R.PWR_STAT_IN_LOW = 1) ∧
    (∃ (x : SecRun) (s : State), let r := s.imageReason (s.source 2) (s.sourceLen 2) true; s.sec.running = some x ∧ s.rd R.FLT_ARB_STAT_STATE = 0 ∧
      s.pwr.state = .on ∧ s.inStack = false ∧ x.result = 0 ∧ x.cmd = 1 ∧ s.rd R.SEC_BOOT_CFG_SOURCE = 1 ∧ r ≠ 0) ∧
    (∃ (flash : FlashRun) (x : SecRun) (s : State), s.sec.running = some x ∧ s.rd R.FLT_ARB_STAT_STATE = 0 ∧ s.pwr.state = .on ∧ s.inStack = false ∧
      x.result = 0 ∧ x.cmd = 8 ∧ flash.done = true ∧ 32 ≤ x.data.length) ∧
    (∃ (flash : FlashRun) (x : SecRun) (s : State), s.sec.running = some x ∧ s.rd R.FLT_ARB_STAT_STATE = 0 ∧ s.pwr.state = .on ∧ s.inStack = false ∧
      x.result = 0 ∧ x.cmd = 9 ∧ flash.done = true ∧ s.sec.cert.length + 164 ≤ 0x4000) :=
  ⟨⟨{ cmd := 2, result := 2, detail := 5 : SecRun }, run { cmd := 2, result := 2, detail := 5 : SecRun }, by decide +kernel⟩,
    ⟨{ cmd := 4, data := [1, 2, 3] : SecRun }, run { cmd := 4, data := [1, 2, 3] : SecRun }, by decide +kernel⟩,
    ⟨{ readA := true, readB := true, done := false }, { cmd := 2, data := [1, 2, 3] : SecRun }, run { cmd := 2, data := [1, 2, 3] : SecRun },
      by decide +kernel⟩,
    ⟨{ readA := true, readB := true, done := true }, { cmd := 2, data := [1, 2, 3] : SecRun }, run { cmd := 2, data := [1, 2, 3] : SecRun },
      by decide +kernel⟩,
    ⟨{ readA := true, readB := true, done := true }, { cmd := 5, data := [1, 2, 3] : SecRun }, run { cmd := 5, data := [1, 2, 3] : SecRun },
      by decide +kernel⟩,
    ⟨{ readA := true, readB := true, done := true }, { cmd := 5, data := [1, 2, 3] : SecRun },
      (run { cmd := 5, data := [1, 2, 3] }).wr R.PWR_STAT_IN_LOW 1, by decide +kernel⟩,
    ⟨{ cmd := 1 }, (run { cmd := 1 }).wr R.SEC_BOOT_CFG_SOURCE 1, by decide +kernel⟩,
    ⟨{ readA := true, readB := true, done := true }, { cmd := 8, data := List.replicate 32 7 }, run { cmd := 8, data := List.replicate 32 7 },
      by decide +kernel⟩,
    ⟨{ readA := true, readB := true, done := true }, { cmd := 9, data := [1, 2, 3] : SecRun }, run { cmd := 9, data := [1, 2, 3] : SecRun },
      by decide +kernel⟩⟩

theorem witness_BootSequence :
    (∃ (s : State), (s.pwr.state ≠ .on ∨ s.rd R.SEC_BOOT_STAT_PHASE ≠ 0)) ∧
    (∃ (s : State), s.pwr.state = .on ∧ s.rd R.SEC_BOOT_STAT_PHASE = 0 ∧ s.pwr.sample = true) ∧
    (∃ (pin : Bool) (s : State), s.pwr.state = .on ∧ s.rd R.SEC_BOOT_STAT_PHASE = 0 ∧ (s.pwr.sample = false ∨ pin = true) ∧
      s.rd R.SEC_BOOT_CFG_SOURCE = 1) ∧
    (∃ (pin : Bool) (flash : FlashRun) (s : State), s.pwr.state = .on ∧ s.rd R.SEC_BOOT_STAT_PHASE = 0 ∧ (s.pwr.sample = false ∨ pin = true) ∧
      s.rd R.SEC_BOOT_CFG_SOURCE = 0 ∧ flash.readA = false ∧ flash.readB = false) :=
  ⟨⟨S1, by decide +kernel⟩,
    ⟨S1.wr R.SEC_BOOT_STAT_PHASE 0, by decide +kernel⟩,
    ⟨false, y0, by decide +kernel⟩,
    ⟨false, { readA := false, readB := false, done := true }, y0.wr R.SEC_BOOT_CFG_SOURCE 0, by decide +kernel⟩⟩

end Sys2Proof.Tests.L16

namespace Sys2Proof.Tests.L17a

set_option Elab.async false

def S1 : State := (((base.withPwr { base.pwr with state := .on }).withMgmtUp true).wr R.SEC_BOOT_STAT_PHASE 5)

def E (u c : Nat) : ErrIn := { unit := BitVec.ofNat 10 u, code := BitVec.ofNat 16 c, addr := 0x123456, syndrome := 9 }

theorem witness_ErrorsCaptured :
    (∃ (e : ErrIn) (s : State), let u := e.unit.toNat; let code := e.code.toNat; s.inStack = false ∧ s.flt.inj = [] ∧ (codeClass code = none ∨
      716 < u)) ∧
    (∃ (e : ErrIn) (s : State), let u := e.unit.toNat; let code := e.code.toNat; s.inStack = false ∧ s.flt.inj = [] ∧ (codeClass code).isSome ∧
      u ≤ 716 ∧ s.pairMasked u false = true) ∧
    (∃ (e : ErrIn) (s : State), let u := e.unit.toNat; let code := e.code.toNat; let c := raisedClass u code; s.inStack = false ∧ s.flt.inj = [] ∧
      (codeClass code).isSome ∧ u ≤ 716 ∧ s.pairMasked u false = false ∧ (c = 0 ∨ c = 3 ∨ (c = 2 ∧ 682 ≤ u ∧ u < 714 ∧ s.rd (R.FLT_UNIT_STATE u) = 0 ∧
      (s.testDue (regionOf u) = true ∨ s.wasTransient (regionOf u) = false))) ∧ e = { unit := e.unit, code := 0x0B08 }) :=
  ⟨⟨E 900 1799, S1, by decide +kernel⟩,
    ⟨E 3 1799, (S1.wr R.FLT_STATUS_SET 8).setIsland 3 2, by decide +kernel⟩,
    ⟨{ unit := (700 : BitVec 10), code := (2824 : BitVec 16) : ErrIn }, S1, by decide +kernel⟩⟩

theorem witness_UnitsHeld :
    (∃ (e : ErrIn) (s : State), s.inStack = false ∧ s.flt.inj = [] ∧ s.pairMasked e.unit.toNat false = false ∧
      raisedClass e.unit.toNat e.code.toNat = 2 ∧ 682 ≤ e.unit.toNat ∧ e.unit.toNat < 714 ∧ s.rd (R.FLT_UNIT_STATE e.unit.toNat) = 0 ∧
      s.testDue (regionOf e.unit.toNat) = false ∧ s.wasTransient (regionOf e.unit.toNat) = false) ∧
    (∃ (s : State), ∃ c, s.inStack = false ∧ s.flt.inj = [] ∧ s.pairMasked 714 false = false ∧ s.rd (R.FLT_UNIT_STATE 714) = 0 ∧
      s.rd R.FLT_ARB_STAT_STATE = 0 ∧ c ∈ [Instr.arbLockstep, .arbWatchdog] ∧ s.rd R.FLT_ARB_CTL_AUTO_RESTART = 0) ∧
    (∃ (s : State), ∃ c, s.inStack = false ∧ s.flt.inj = [] ∧ s.pairMasked 714 false = false ∧ s.rd (R.FLT_UNIT_STATE 714) = 0 ∧
      s.rd R.FLT_ARB_STAT_STATE = 0 ∧ c ∈ [Instr.arbLockstep, .arbWatchdog] ∧ s.rd R.FLT_ARB_CTL_AUTO_RESTART = 1 ∧ s.flt.lastAuto = none) :=
  ⟨⟨{ unit := (700 : BitVec 10), code := (2824 : BitVec 16) : ErrIn }, S1, by decide +kernel⟩,
    ⟨S1.wr R.FLT_ARB_CTL_AUTO_RESTART 0, Instr.arbLockstep, by decide +kernel⟩,
    ⟨S1, Instr.arbLockstep, by decide +kernel⟩⟩

end Sys2Proof.Tests.L17a

namespace Sys2Proof.Tests.L17b

set_option Elab.async false

def S1 : State := (((base.withPwr { base.pwr with state := .on }).withMgmtUp true).wr R.SEC_BOOT_STAT_PHASE 5)

def C (c : Nat) (t : Nat) (s : State) : State := (s.setCls c { s.cls c with clock := some t }).wr R.FLT_STATUS_SET 15

theorem witness_ChessClocks :
    (∃ (c : Fin 4) (m : Master) (s : State), let b := fun (x : Nat) => x / 2 ^ c.val % 2; let on := b (s.rd R.FLT_STATUS_SET); Reaches s m 0x30000 ∧
      on = 0) ∧
    (∃ (c : Fin 4) (m : Master) (s : State), let b := fun (x : Nat) => x / 2 ^ c.val % 2; let on := b (s.rd R.FLT_STATUS_SET); Reaches s m 0x30000 ∧
      on = 1 ∧ s.causePersists c = true) ∧
    (∃ (c : Fin 4) (m : Master) (s : State), let b := fun (x : Nat) => x / 2 ^ c.val % 2; let on := b (s.rd R.FLT_STATUS_SET); Reaches s m 0x30000 ∧
      on = 1 ∧ s.causePersists c = false) ∧
    (∃ (c : Fin 4) (m : Master) (s : State) (at_ : Nat), let b := fun (x : Nat) => x / 2 ^ c.val % 2; let on := b (s.rd R.FLT_STATUS_SET);
      let ff := max 1 (s.rd (R.FLT_POLICY0_FF c)) * 1000000; Reaches s m 0x30008 ∧ (s.cls c).clock = some at_ ∧ on = 1 ∧
      b (s.rd R.FLT_STATUS_FELL) = 0 ∧ s.now < at_ + ff) ∧
    (∃ (c : Fin 4) (m : Master) (s : State) (at_ : Nat), let b := fun (x : Nat) => x / 2 ^ c.val % 2; let on := b (s.rd R.FLT_STATUS_SET);
      let ff := max 1 (s.rd (R.FLT_POLICY0_FF c)) * 1000000; Reaches s m 0x30008 ∧ (s.cls c).clock = some at_ ∧ on = 1 ∧
      b (s.rd R.FLT_STATUS_FELL) = 0 ∧ at_ + ff ≤ s.now) ∧
    (∃ (c : Fin 4) (s : State), (s.cls c).clock = none) ∧
    (∃ (c : Fin 4) (s : State) (at_ : Nat), let ff := max 1 (s.rd (R.FLT_POLICY0_FF c)) * 1000000; (s.cls c).clock = some at_ ∧ s.now < at_ + ff) ∧
    (∃ (c : Fin 4) (s : State) (at_ : Nat), let ff := max 1 (s.rd (R.FLT_POLICY0_FF c)) * 1000000; (s.cls c).clock = some at_ ∧ at_ + ff ≤ s.now ∧
      c.val = 0 ∧ (∀ u : Nat, u < 717 → s.rd (R.FLT_UNIT_RATE_HIT u) = 0) ∧ s.inStack = false) ∧
    (∃ (s : State) (unit : BitVec 10), let u := unit.toNat; (716 < u ∨ s.rd (R.FLT_UNIT_RATE_HIT u) = 1 ∨
      SMap.get 0 s.flt.corrIdx u ≠ s.now / 1000000000 ∨ s.rd (R.FLT_UNIT_CORR_WIN u) < max 1 (s.rd R.FLT_POLICY1_CORR_RATE))) ∧
    (∃ (s : State) (unit : BitVec 10), let u := unit.toNat; u ≤ 716 ∧ s.rd (R.FLT_UNIT_RATE_HIT u) = 0 ∧
      SMap.get 0 s.flt.corrIdx u = s.now / 1000000000 ∧ max 1 (s.rd R.FLT_POLICY1_CORR_RATE) ≤ s.rd (R.FLT_UNIT_CORR_WIN u)) :=
  ⟨⟨0, Master.arbiter, S1, by decide +kernel⟩,
    ⟨3, Master.arbiter, (C 3 5 (S1.setCls 3 { units := [3] : ClassSt })).withNow 9000000000, by decide +kernel⟩,
    ⟨0, Master.arbiter, (C 0 0 S1).withNow 2000000000, by decide +kernel⟩,
    ⟨1, Master.arbiter, C 1 4500000 S1, 4500000, by decide +kernel⟩,
    ⟨0, Master.arbiter, (C 0 0 S1).withNow 2000000000, 0, by decide +kernel⟩,
    ⟨0, S1, by decide +kernel⟩,
    ⟨1, C 1 4500000 S1, 4500000, by decide +kernel⟩,
    ⟨0, (C 0 0 S1).withNow 2000000000, 0, by decide +kernel⟩,
    ⟨base, 0, by decide +kernel⟩,
    ⟨(S1.wr (R.FLT_UNIT_CORR_WIN 0) 60000).withNow 5000000, 0, by decide +kernel⟩⟩

theorem witness_Escalations :
    ∃ (c : Fin 4) (at_ : Nat) (s : State), (s.cls c).clock = some at_ ∧ at_ + max 1 (s.rd (R.FLT_POLICY0_FF c)) * 1000000 ≤ s.now :=
  ⟨0, 0, (C 0 0 S1).withNow 2000000000, by decide +kernel⟩

theorem witness_Injections :
    (∃ (m : Master) (unit : BitVec 10) (code : BitVec 16) (cont : Bool) (s : State), ∃ c, Reaches s m 0x30028 ∧ c ∈ [Instr.injectStop m unit code,
      .inject m unit code 3 cont]) ∧
    (∃ (m : Master) (kind : BitVec 2) (s : State), Reaches s m 0x30028 ∧ kind ≠ 3 ∧ s.rd R.FLT_INJ_STAT_ACTIVE = 1) ∧
    (∃ (m : Master) (unit : BitVec 10) (code : BitVec 16) (kind : BitVec 2) (s : State), let u := unit.toNat; Reaches s m 0x30028 ∧ kind ≠ 3 ∧
      s.rd R.FLT_INJ_STAT_ACTIVE = 0 ∧ (716 < u ∨ hasChecker u code.toNat = false)) ∧
    (∃ (m : Master) (unit : BitVec 10) (code : BitVec 16) (kind : BitVec 2) (s : State), let u := unit.toNat; Reaches s m 0x30028 ∧ kind ≠ 3 ∧
      s.rd R.FLT_INJ_STAT_ACTIVE = 0 ∧ u ≤ 716 ∧ hasChecker u code.toNat = true ∧ s.mayInject u = false) ∧
    (∃ (m : Master) (unit : BitVec 10) (code : BitVec 16) (kind : BitVec 2) (s : State), let u := unit.toNat; Reaches s m 0x30028 ∧ kind ≠ 3 ∧
      s.rd R.FLT_INJ_STAT_ACTIVE = 0 ∧ u ≤ 716 ∧ hasChecker u code.toNat = true ∧ s.mayInject u = true ∧ kind ≠ 2 ∧ (eccCodes code.toNat).isSome) ∧
    (∃ (m : Master) (unit : BitVec 10) (code : BitVec 16) (kind : BitVec 2) (s : State), let u := unit.toNat;
      let raised := if kind = 2 then 0x0B08 else code.toNat; let c := raisedClass u raised; Reaches s m 0x30028 ∧ kind ≠ 3 ∧
      s.rd R.FLT_INJ_STAT_ACTIVE = 0 ∧ u ≤ 716 ∧ hasChecker u code.toNat = true ∧ s.mayInject u = true ∧ (kind = 2 ∨ (eccCodes code.toNat).isNone) ∧
      s.inStack = false ∧ s.flt.inj = [] ∧ s.pairMasked u true = false ∧ (c = 0 ∨ c = 3)) :=
  ⟨⟨Master.arbiter, 0, 0, true, S1.wr R.FLT_INJ_STAT_ACTIVE 1, Instr.injectStop .arbiter 0 0, by decide +kernel⟩,
    ⟨Master.arbiter, 0, S1.wr R.FLT_INJ_STAT_ACTIVE 1, by decide +kernel⟩,
    ⟨Master.arbiter, 0, 0, 0, S1, by decide +kernel⟩,
    ⟨Master.arbiter, 16, 0x0201, 0, S1, by decide +kernel⟩,
    ⟨Master.arbiter, 16, 0x0103, 0, S1.wr R.FLT_POLICY1_INJ_LIVE 1, by decide +kernel⟩,
    ⟨Master.arbiter, 678, 0x0701, 2, S1.wr R.FLT_POLICY1_INJ_LIVE 1, by decide +kernel⟩⟩

end Sys2Proof.Tests.L17b

namespace Sys2Proof.Tests.L17c

set_option Elab.async false

def S1 : State := (((base.withPwr { base.pwr with state := .on }).withMgmtUp true).wr R.SEC_BOOT_STAT_PHASE 5)

def F (f : FltSt → FltSt) (s : State) : State := s.withFlt (f s.flt)

def pend (r : TestRegion) (u : Nat) : State := F (fun f => {f with pending := [(r,u)]}) (S1.wr (R.FLT_UNIT_TEST_PENDING u) 1)

def runn (r : TestRegion) (u : Nat) : State := F (fun f => {f with running := [(r,u)]}) ((S1.wr (R.FLT_UNIT_VERDICT u) 2).wr
  (R.LT_HEALTH_UNHEALTHY 0) 32)

theorem witness_TestsRun :
    (∃ (r : TestRegion) (u : Nat) (s : State), u < 714 ∧ s.flt.pending.find? (fun t => t.1 == r) = none) ∧
    (∃ (r : TestRegion) (u : Nat) (s : State), u < 714 ∧ s.flt.running.find? (fun t => t.1 == r) = none) ∧
    (∃ (u : Nat) (s : State), u < 714 ∧ s.rd R.FLT_ARB_STAT_STATE ≠ 0) ∧
    (∃ (r : TestRegion) (u : Nat) (s : State) (m : TestResult), u < 714 ∧ s.flt.running.find? (fun t => t.1 == r) = some (r, u) ∧
      s.testPasses r u m = none) ∧
    (∃ (r : TestRegion) (u : Nat) (s : State), u < 714 ∧ s.rd R.FLT_ARB_STAT_STATE = 0 ∧
      (match r with | .lane _ => true | .block _ => true | .memRow _ => true | _ => false) = true ∧ s.flt.pending.find? (fun t => t.1 == r) = some (r,
      u) ∧ s.blockFree r = false) ∧
    (∃ (r : TestRegion) (u : Nat) (s : State), u < 714 ∧ s.rd R.FLT_ARB_STAT_STATE = 0 ∧
      (match r with | .lane _ => true | .block _ => true | .memRow _ => true | _ => false) = true ∧ s.flt.pending.find? (fun t => t.1 == r) = some (r,
      u) ∧ s.blockFree r = true ∧ s.flt.running.any (fun t => t.2 == u) = false ∧ s.outUnit u = false) ∧
    (∃ (r : TestRegion) (u : Nat) (s : State) (l : Fin 512) (errors : BitVec 64) (early late : Bool), u < 714 ∧ s.rd R.FLT_ARB_STAT_STATE = 0 ∧
      (match r with | .lane _ => true | .block _ => true | .memRow _ => true | _ => false) = true ∧ s.flt.running = [(r, u)] ∧ s.flt.pending = [] ∧
      s.unitDown u = false ∧ u ∉ s.flt.failed ∧ s.flt.cmdUnit = none ∧ s.flt.fellFenced = [] ∧ s.arb.returning = [] ∧ r = .lane l ∧
      u = 16 + l.val / 4 ∧ s.isolated u = true ∧ (errors ≠ 0 ∨ early = false ∨ late = false)) ∧
    (∃ (r : TestRegion) (u : Nat) (s : State) (l : Fin 512), u < 714 ∧ s.rd R.FLT_ARB_STAT_STATE = 0 ∧
      (match r with | .lane _ => true | .block _ => true | .memRow _ => true | _ => false) = true ∧ s.flt.running = [(r, u)] ∧ s.flt.pending = [] ∧
      s.unitDown u = false ∧ u ∉ s.flt.failed ∧ s.flt.cmdUnit = none ∧ s.flt.fellFenced = [] ∧ s.arb.returning = [] ∧ r = .lane l ∧
      s.outUnit u = false) ∧
    (∃ (r : TestRegion) (u : Nat) (s : State) (m : TestResult) (pass : Bool), u < 714 ∧ s.rd R.FLT_ARB_STAT_STATE = 0 ∧
      (match r with | .lane _ => true | .block _ => true | .memRow _ => true | _ => false) = true ∧ s.flt.running = [(r, u)] ∧ s.flt.pending = [] ∧
      s.unitDown u = false ∧ u ∉ s.flt.failed ∧ s.flt.cmdUnit = none ∧ s.flt.fellFenced = [] ∧ s.arb.returning = [] ∧ s.testPasses r u m = some pass ∧
      (pass = true ∨ 288 ≤ u ∨ s.isolated u = false)) ∧
    (∃ (bank : Fin 390) (s : State), let u := 288 + bank.val; let may := s.flt.fencedBanks.contains bank.val || s.allIsolated; (may = false ∨
      s.bankUsed bank.val ≠ 0 ∨ s.testDue (regionOf u) = false ∨ s.rd R.FLT_ARB_STAT_STATE ≠ 0)) ∧
    (∃ (bank : Fin 390) (s : State), let u := 288 + bank.val; let may := s.flt.fencedBanks.contains bank.val || s.allIsolated;
      s.rd R.FLT_ARB_STAT_STATE = 0 ∧ may = true ∧ s.bankUsed bank.val = 0 ∧ s.testDue (regionOf u) = true) :=
  ⟨⟨.lane 5, 17, base, by decide +kernel⟩,
    ⟨.lane 5, 17, base, by decide +kernel⟩,
    ⟨17, S1.wr R.FLT_ARB_STAT_STATE 1, by decide +kernel⟩,
    ⟨.lane 5, 17, runn (.lane 5) 17, .check true, by decide +kernel⟩,
    ⟨.block 0, 288, (pend (.block 0) 288).setTag 0 (some { inp := 0, vl := 0, shared := true, gen := 0, region := .link }), by decide +kernel⟩,
    ⟨.lane 5, 17, pend (.lane 5) 17, by decide +kernel⟩,
    ⟨.lane 5, 17, (runn (.lane 5) 17).setIsolated 17 true, 5, 3, true, true, by decide +kernel⟩,
    ⟨.lane 5, 17, runn (.lane 5) 17, 5, by decide +kernel⟩,
    ⟨.lane 5, 17, runn (.lane 5) 17, .margin 0 40, true, by decide +kernel⟩,
    ⟨0, base, by decide +kernel⟩,
    ⟨0, F (fun f => { f with fencedBanks := [0], running := [(.unit 288, 288)] }) S1, by decide +kernel⟩⟩

theorem witness_UnitCommandChecks :
    (∃ (m : Master) (unit : BitVec 10) (s : State), ∃ c, Reaches s m 0x30038 ∧ c ∈ [Instr.test m unit, .release m unit, .fence m unit, .spare m unit,
      .unfence m unit] ∧ s.rd R.FLT_CMD_STAT_BUSY = 1) ∧
    (∃ (m : Master) (unit : BitVec 10) (s : State), ∃ c, let u := unit.toNat; Reaches s m 0x30038 ∧ c ∈ [Instr.test m unit, .release m unit,
      .fence m unit, .spare m unit, .unfence m unit] ∧ s.rd R.FLT_CMD_STAT_BUSY = 0 ∧ (cmdUnit u = false ∨ s.rd (R.FLT_UNIT_STATE u) = 5)) :=
  ⟨⟨Master.arbiter, 150, S1.wr R.FLT_CMD_STAT_BUSY 1, Instr.test .arbiter 150, by decide +kernel⟩,
    ⟨Master.arbiter, 150, S1.wr (R.FLT_UNIT_STATE 150) 5, Instr.test .arbiter 150, by decide +kernel⟩⟩

end Sys2Proof.Tests.L17c

namespace Sys2Proof.Tests.L17d

set_option Elab.async false

def S1 : State := (((base.withPwr { base.pwr with state := .on }).withMgmtUp true).wr R.SEC_BOOT_STAT_PHASE 5)

def F (f : FltSt → FltSt) (s : State) : State := s.withFlt (f s.flt)

def fenced (u : Nat) : State := (S1.wr (R.FLT_UNIT_STATE u) 3)

def held (u : Nat) : State := S1.wr (R.FLT_UNIT_STATE u) 1

theorem witness_UnitCommands :
    (∃ (m : Master) (unit : BitVec 10) (s : State), let u := unit.toNat; UnitCmd s m u ∧ s.mayTest u = false) ∧
    (∃ (m : Master) (unit : BitVec 10) (s : State), let u := unit.toNat; UnitCmd s m u ∧ s.mayTest u = true ∧ 682 ≤ u ∧ u < 714 ∧
      s.testDue (regionOf u) = false ∧ s.flt.running.any (fun t => t.2 == u) = false) ∧
    (∃ (m : Master) (unit : BitVec 10) (s : State), let u := unit.toNat; let st := s.rd (R.FLT_UNIT_STATE u); UnitCmd s m u ∧ st ≠ 1) ∧
    (∃ (m : Master) (unit : BitVec 10) (s : State), let u := unit.toNat; let st := s.rd (R.FLT_UNIT_STATE u); UnitCmd s m u ∧ st = 1 ∧
      s.rd (R.FLT_UNIT_VERDICT u) = 2) ∧
    (∃ (m : Master) (unit : BitVec 10) (s : State), let u := unit.toNat; let st := s.rd (R.FLT_UNIT_STATE u); UnitCmd s m u ∧ st = 1 ∧
      s.rd (R.FLT_UNIT_VERDICT u) ≠ 2 ∧ 682 ≤ u ∧ u < 714) ∧
    (∃ (m : Master) (unit : BitVec 10) (s : State), let u := unit.toNat; let st := s.rd (R.FLT_UNIT_STATE u); UnitCmd s m u ∧ st = 3 ∧
      s.rd R.PWR_STAT_IN_LOW = 1 ∧ s.rd (R.FLT_UNIT_LOGGED u) = 0) ∧
    (∃ (m : Master) (unit : BitVec 10) (s : State), let u := unit.toNat; let st := s.rd (R.FLT_UNIT_STATE u); UnitCmd s m u ∧ st = 3 ∧
      s.rd R.PWR_STAT_IN_LOW = 0 ∧ s.rd R.FLT_ARB_STAT_STATE = 0) ∧
    (∃ (m : Master) (unit : BitVec 10) (s : State), let u := unit.toNat; let st := s.rd (R.FLT_UNIT_STATE u); UnitCmd s m u ∧ 682 ≤ u ∧ u < 714 ∧
      st = 0 ∧ s.xpt.conns = [] ∧ s.flt.remaps = [] ∧ s.channelShare ≤ s.unusedBlocks ∧ Canonical s) ∧
    (∃ (m : Master) (unit : BitVec 10) (s : State), let u := unit.toNat; UnitCmd s m u ∧ hasSpares u = false) ∧
    (∃ (m : Master) (unit : BitVec 10) (s : State) (v : Nat), let u := unit.toNat; let st := s.rd (R.FLT_UNIT_STATE u); UnitCmd s m u ∧ 148 ≤ u ∧
      u < 252 ∧ st = 3 ∧ s.rd R.PWR_STAT_IN_LOW = 0 ∧ s.rd R.FLT_ARB_STAT_STATE = 0 ∧ s.flt.spared.contains u = false ∧ s.nextSpare u = some v) ∧
    (∃ (m : Master) (unit : BitVec 10) (s : State), let u := unit.toNat; let st := s.rd (R.FLT_UNIT_STATE u); UnitCmd s m u ∧ hasSpares u = true ∧
      u < 288 ∧ st = 3 ∧ s.rd R.PWR_STAT_IN_LOW = 0 ∧ s.rd R.FLT_ARB_STAT_STATE = 0 ∧ s.flt.spared.contains u = true) ∧
    (∃ (m : Master) (unit : BitVec 10) (s : State), let u := unit.toNat; let st := s.rd (R.FLT_UNIT_STATE u); UnitCmd s m u ∧ hasSpares u = true ∧
      u < 288 ∧ st = 3 ∧ s.rd R.PWR_STAT_IN_LOW = 0 ∧ s.rd R.FLT_ARB_STAT_STATE = 0 ∧ s.flt.spared.contains u = false ∧ s.nextSpare u = none) ∧
    (∃ (m : Master) (unit : BitVec 10) (s : State), let u := unit.toNat; UnitCmd s m u ∧ m = .manager) ∧
    (∃ (m : Master) (unit : BitVec 10) (s : State), let u := unit.toNat; UnitCmd s m u ∧ m ≠ .manager) :=
  ⟨⟨.arbiter, 0, S1, by decide +kernel⟩,
    ⟨.arbiter, 690, held 690, by decide +kernel⟩,
    ⟨.arbiter, 0, S1, by decide +kernel⟩,
    ⟨.arbiter, 150, (held 150).wr (R.FLT_UNIT_VERDICT 150) 2, by decide +kernel⟩,
    ⟨.arbiter, 690, held 690, by decide +kernel⟩,
    ⟨.arbiter, 150, (fenced 150).wr R.PWR_STAT_IN_LOW 1, by decide +kernel⟩,
    ⟨.arbiter, 150, fenced 150, by decide +kernel⟩,
    ⟨.arbiter, 690, S1, by decide +kernel⟩,
    ⟨.arbiter, 0, S1, by decide +kernel⟩,
    ⟨.arbiter, 150, ((fenced 150).wr (R.FLT_UNIT_STATE 151) 4).wr (R.MTC_PAWN_STAT_SPARE 3) 1, 151, by decide +kernel⟩,
    ⟨.arbiter, 150, F (fun f => { f with spared := [150] }) (fenced 150), by decide +kernel⟩,
    ⟨.arbiter, 150, fenced 150, by decide +kernel⟩,
    ⟨Master.manager, 0, S1, by decide +kernel⟩,
    ⟨Master.arbiter, 0, S1, by decide +kernel⟩⟩

end Sys2Proof.Tests.L17d

namespace Sys2Proof.Tests.L17e

set_option Elab.async false

def S1 : State := (((base.withPwr { base.pwr with state := .on }).withMgmtUp true).wr R.SEC_BOOT_STAT_PHASE 5)

def F (f : FltSt → FltSt) (s : State) : State := s.withFlt (f s.flt)

def sv : SMap Nat := [(0x500000*8, 5), (0x500000*8+3, 7)]

def bad : State := F (fun f => {f with badTable := [(0x500000, sv, 678),(0x500008,[],678)]}) (S1.wr ⟨0x500008*8,8,0⟩ 4)

def lost : State := F (fun f => {f with lostAt := some 5}) ((S1.wr R.FLT_ARB_STAT_STATE 2).wr R.FLT_STATUS_HEADLESS 1)

def y0 := (F (fun f => { f with restarting := true : FltSt }) lost)

theorem witness_TableRewrite :
    (∃ (s : State), s.rd R.FLT_ARB_STAT_STATE ≠ 0) ∧
    (∃ (off : BitVec 26) (s : State), let o := entryBase off.toNat;
      let due := (s.flt.pending ++ s.flt.running).find? (fun t => match t.1 with | .tableEntry x => entryBase x.toNat == o | _ => false);
      s.flt.badTable.find? (fun b => b.1 == o) = none ∧ due = none) ∧
    (∃ (off : BitVec 26) (ok : Bool) (s : State) (r : TestRegion) (u : Nat), let o := entryBase off.toNat;
      let due := (s.flt.pending ++ s.flt.running).find? (fun t => match t.1 with | .tableEntry x => entryBase x.toNat == o | _ => false);
      s.rd R.FLT_ARB_STAT_STATE = 0 ∧ s.flt.badTable = [] ∧ due = some (r, u) ∧ s.flt.pending ++ s.flt.running = [(r, u)] ∧ u < 717 ∧
      s.unitDown u = false ∧ u ∉ s.flt.failed ∧ s.flt.cmdUnit = none ∧ s.flt.fellFenced = [] ∧ s.arb.returning = [] ∧ ok = true) ∧
    (∃ (off : BitVec 26) (ok spare : Bool) (s : State) (saved : SMap Nat) (u : Nat), let o := entryBase off.toNat;
      let due := (s.flt.pending ++ s.flt.running).find? (fun t => match t.1 with | .tableEntry x => entryBase x.toNat == o | _ => false);
      s.rd R.FLT_ARB_STAT_STATE = 0 ∧ s.flt.badTable.find? (fun b => b.1 == o) = some (o, saved, u) ∧ due = none ∧ (∀ k ∈ saved.map Prod.fst,
      entryBase (keyOff k) = o) ∧ SMap.wf 0 saved = true ∧ (ok = true ∨ spare = true)) ∧
    (∃ (off : BitVec 26) (ok spare : Bool) (s : State) (saved : SMap Nat) (u : Nat), let o := entryBase off.toNat;
      let due := (s.flt.pending ++ s.flt.running).find? (fun t => match t.1 with | .tableEntry x => entryBase x.toNat == o | _ => false);
      s.rd R.FLT_ARB_STAT_STATE = 0 ∧ s.flt.badTable.find? (fun b => b.1 == o) = some (o, saved, u) ∧ due = none ∧ (∀ k ∈ saved.map Prod.fst,
      entryBase (keyOff k) = o) ∧ SMap.wf 0 saved = true ∧ ok = false ∧ spare = false ∧ s.inStack = false) :=
  ⟨⟨bad.wr R.FLT_ARB_STAT_STATE 1, by decide +kernel⟩,
    ⟨0, base, by decide +kernel⟩,
    ⟨0x500000, true, F (fun f => { f with pending := [(.tableEntry 0x500000, 678)] }) S1, .tableEntry 0x500000, 678, by decide +kernel⟩,
    ⟨0x500000, true, true, bad, sv, 678, by decide +kernel⟩,
    ⟨0x500000, false, false, bad, sv, 678, by decide +kernel⟩⟩

theorem witness_Processor :
    (∃ (s : State) (m : Master), Reaches s m 0x30048 ∧ (m ≠ .commander ∨ s.flt.restarting = true)) ∧
    (∃ (s : State) (m : Master), Reaches s m 0x30048 ∧ m = .commander ∧ s.flt.restarting = false) ∧
    (∃ (s : State), s.flt.restarting = false) ∧
    (∃ (s : State), s.flt.restarting = true ∧ Idle s ∧ s.rd (R.FLT_UNIT_STATE 714) = 0 ∧ s.testDue (regionOf 714) = false ∧ s.flt.spareDue = [] ∧
      s.flt.logDue = [] ∧ (∀ u : Nat, u < 717 → s.rd (R.FLT_UNIT_STATE u) ≠ 1)) ∧
    (∃ (s : State), (s.flt.lostAt = none ∨ s.rd R.FLT_STATUS_HEADLESS_END = 1)) ∧
    (∃ (s : State) (at_ : Nat), s.flt.lostAt = some at_ ∧ s.powered < at_ + 86400000000000) ∧
    (∃ (s : State) (at_ : Nat), s.flt.lostAt = some at_ ∧ at_ + 86400000000000 ≤ s.powered ∧ s.rd R.FLT_STATUS_HEADLESS_END = 0) :=
  ⟨⟨S1, Master.arbiter, by decide +kernel⟩,
    ⟨S1, Master.commander, by decide +kernel⟩,
    ⟨S1, by decide +kernel⟩,
    ⟨y0, by decide +kernel⟩,
    ⟨S1, by decide +kernel⟩,
    ⟨lost, 5, by decide +kernel⟩,
    ⟨lost.withNow 86400000000009, 5, by decide +kernel⟩⟩

theorem witness_Ageing :
    (∃ (k : Fin 26) (s : State), let hour := s.powered / 3600000000000; (s.pwr.state ≠ .on ∨ hour ≤ SMap.get 0 s.flt.ageHour k.val)) ∧
    (∃ (k : Fin 26) (s : State), let hour := s.powered / 3600000000000; s.pwr.state = .on ∧ SMap.get 0 s.flt.ageHour k.val < hour ∧
      s.inStack = false) ∧
    (∃ (s : State), let day := s.powered / 86400000000000; (s.pwr.state ≠ .on ∨ day ≤ s.flt.storeDay ∨ s.rd R.PWR_STAT_IN_LOW = 1)) ∧
    (∃ (s : State), let day := s.powered / 86400000000000; s.pwr.state = .on ∧ s.flt.storeDay < day ∧ s.rd R.PWR_STAT_IN_LOW = 0) :=
  ⟨⟨0, base, by decide +kernel⟩,
    ⟨0, S1.withNow 3700000000000, by decide +kernel⟩,
    ⟨base, by decide +kernel⟩,
    ⟨S1.withNow 90000000000000, by decide +kernel⟩⟩

end Sys2Proof.Tests.L17e

namespace Sys2Proof.Tests.L18a

set_option Elab.async false

def S1 : State := (((base.withPwr { base.pwr with state := .on }).withMgmtUp true).wr R.SEC_BOOT_STAT_PHASE 5)

def TM (f : TimeSt → TimeSt) (s : State) : State := s.withTime (f s.time)

def par (p : Nat) (off : Nat) (s : State) : State := ((s.wr R.TIM_STAT_PARENT p).wr (R.LNK_TIME_OFFSET_OFFSET (p/2) (p%2)) off).modPort p
  (fun x => {x with pairNew := true})

def V (s : State) : State := s.wr R.TIM_STAT_VALID 1

def hol (s : State) : State := (TM (fun t => {t with holdAt := some 5}) s).wr R.TIM_STAT_STATE 2

def B := S1.wr R.TIM_CFG_HOLDOVER_S 3

def P (s : State) : State := (s.wr R.TIM_CFG_ROLE 1).wr R.TIM_CFG_PPS_IN_EN 1

def ft (n : Nat) (s : State) : State := TM (fun t => {t with ft := n}) s

def OP : Opening := { svn := 0, imageId := 0, commitSvn := false, mode := 0, stackRole := 0, moduleId := 3, svcPawns := [], ageLimit := 0,
                      stackId := 0, members := 0, member := 0, masterIdx := 0, standbyIdx := 0, portMap := [], rates := [], txEq := [], vlMask := [],
                      grants := [], parts := List.replicate 8 (true, 0) ++ [(true, 2)], guarVl := [], hostPorts := [], defaults := [], handlers := [],
                      reconfAllowed := true, debugAllowed := 0, lockAtBoot := 0, keySlots := [], faultPolicy := [] }

def tg : Tagged := { id := 1, flags := 2, cls := 3, a := 4, b := 2^33+5, c := 6, t0 := 7, stages := [some 9, none, some 70], psn := 8 }

def PM (s : State) : State := ((s.withOpening (some OP)).wr R.PMON_RING_CFG_RING_LOG 10).withPmon { s.pmon with ended := [(1,tg),(0,tg)], seq := 4 }

def y1 := ((((B.wr R.TIM_STAT_PARENT 511).setWidth 2 2).setLinkState 4 7).modPort 4 fun x => { x with peerSteps := 3, peerT1T2 := true : PortSt })

/-- A periodic snapshot is due. -/
def snapping : State := (S1.wr { key := 131840 * 8, width := 64, rst := 0 } 9).wr R.PMON_SNAP_CTL_SNAP_US 5

theorem witness_PairsFromParent :
    (∃ (p : Fin 256) (s : State), (s.rd R.TIM_CFG_ROLE = 1 ∨ s.rd R.TIM_STAT_PARENT ≠ p.val ∨ (s.port p).pairNew = false)) ∧
    (∃ (p : Fin 256) (s : State), let held := decide (s.rd R.PWR_CLK_STAT_REF25_LOST = 1) || decide (s.rd R.FLT_ARB_STAT_STATE ≠ 0);
      s.rd R.TIM_CFG_ROLE = 0 ∧ s.rd R.TIM_STAT_PARENT = p.val ∧ (s.port p).pairNew = true ∧ held = true) ∧
    (∃ (p : Fin 256) (s : State), let o := signedOf 64 (s.rd (R.LNK_TIME_OFFSET_OFFSET (p / 2) (p % 2)));
      let held := decide (s.rd R.PWR_CLK_STAT_REF25_LOST = 1) || decide (s.rd R.FLT_ARB_STAT_STATE ≠ 0);
      let lim : Int := (max 100 (s.rd R.TIM_SERVO_STEP_NS) : Nat) * 65536; let lock : Int := (s.rd R.TIM_SERVO_LOCK_NS : Nat) * 65536;
      let good := if -lock ≤ o ∧ o ≤ lock then s.time.good + 1 else 0; s.rd R.TIM_CFG_ROLE = 0 ∧ s.rd R.TIM_STAT_PARENT = p.val ∧
      (s.port p).pairNew = true ∧ held = false ∧ -lim ≤ o ∧ o ≤ lim ∧ (s.timeValid = true ∨ good < 8)) ∧
    (∃ (p : Fin 256) (s : State), let o := signedOf 64 (s.rd (R.LNK_TIME_OFFSET_OFFSET (p / 2) (p % 2)));
      let held := decide (s.rd R.PWR_CLK_STAT_REF25_LOST = 1) || decide (s.rd R.FLT_ARB_STAT_STATE ≠ 0);
      let lim : Int := (max 100 (s.rd R.TIM_SERVO_STEP_NS) : Nat) * 65536; let lock : Int := (s.rd R.TIM_SERVO_LOCK_NS : Nat) * 65536;
      let good := if -lock ≤ o ∧ o ≤ lock then s.time.good + 1 else 0; s.rd R.TIM_CFG_ROLE = 0 ∧ s.rd R.TIM_STAT_PARENT = p.val ∧
      (s.port p).pairNew = true ∧ held = false ∧ -lim ≤ o ∧ o ≤ lim ∧ s.timeValid = false ∧ 8 ≤ good) ∧
    (∃ (p : Fin 256) (s : State), let o := signedOf 64 (s.rd (R.LNK_TIME_OFFSET_OFFSET (p / 2) (p % 2)));
      let held := decide (s.rd R.PWR_CLK_STAT_REF25_LOST = 1) || decide (s.rd R.FLT_ARB_STAT_STATE ≠ 0);
      let lim : Int := (max 100 (s.rd R.TIM_SERVO_STEP_NS) : Nat) * 65536; s.rd R.TIM_CFG_ROLE = 0 ∧ s.rd R.TIM_STAT_PARENT = p.val ∧
      (s.port p).pairNew = true ∧ held = false ∧ (o < -lim ∨ lim < o) ∧ s.timeValid = false) ∧
    (∃ (p : Fin 256) (s : State), let o := signedOf 64 (s.rd (R.LNK_TIME_OFFSET_OFFSET (p / 2) (p % 2)));
      let held := decide (s.rd R.PWR_CLK_STAT_REF25_LOST = 1) || decide (s.rd R.FLT_ARB_STAT_STATE ≠ 0);
      let lim : Int := (max 100 (s.rd R.TIM_SERVO_STEP_NS) : Nat) * 65536; s.rd R.TIM_CFG_ROLE = 0 ∧ s.rd R.TIM_STAT_PARENT = p.val ∧
      (s.port p).pairNew = true ∧ held = false ∧ (o < -lim ∨ lim < o) ∧ s.timeValid = true) :=
  ⟨⟨0, base, by decide +kernel⟩,
    ⟨5, (par 5 7 B).wr R.PWR_CLK_STAT_REF25_LOST 1, by decide +kernel⟩,
    ⟨5, par 5 7 B, by decide +kernel⟩,
    ⟨5, TM (fun t => { t with good := 7 }) (par 5 7 B), by decide +kernel⟩,
    ⟨5, par 5 (2 ^ 63) B, by decide +kernel⟩,
    ⟨5, V (par 5 (2 ^ 63) B), by decide +kernel⟩⟩

theorem witness_ParentsAndHoldover :
    (∃ (s : State), let p := s.rd R.TIM_STAT_PARENT; (p = 0x1FF ∨ s.now < (s.port p).pairAt + 100000)) ∧
    (∃ (s : State), let p := s.rd R.TIM_STAT_PARENT; p ≠ 0x1FF ∧ (s.port p).pairAt + 100000 ≤ s.now ∧ 0 < s.rd R.TIM_CFG_HOLDOVER_S) ∧
    (∃ (s : State), let p := s.rd R.TIM_STAT_PARENT; p ≠ 0x1FF ∧ (s.port p).pairAt + 100000 ≤ s.now ∧ s.rd R.TIM_CFG_HOLDOVER_S = 0) ∧
    (∃ (s : State), let p := s.rd R.TIM_STAT_PARENT; (s.rd R.TIM_CFG_ROLE = 1 ∨ p ≠ 0x1FF ∨ s.now < s.time.reattachAt ∨ s.bestParent = none)) ∧
    (∃ (s : State) (q : Nat), let p := s.rd R.TIM_STAT_PARENT; q < 256 ∧ s.rd R.TIM_CFG_ROLE = 0 ∧ p = 0x1FF ∧ s.time.reattachAt ≤ s.now ∧
      s.bestParent = some q) ∧
    (∃ (s : State), s.time.holdAt = none) ∧
    (∃ (s : State) (at_ : Nat), s.time.holdAt = some at_ ∧ s.now < at_ + s.rd R.TIM_CFG_HOLDOVER_S * 1000000000) ∧
    (∃ (s : State) (at_ : Nat), s.time.holdAt = some at_ ∧ at_ + s.rd R.TIM_CFG_HOLDOVER_S * 1000000000 ≤ s.now) :=
  ⟨⟨S1, by decide +kernel⟩,
    ⟨par 5 7 B, by decide +kernel⟩,
    ⟨(par 5 7 S1).wr R.TIM_CFG_HOLDOVER_S 0, by decide +kernel⟩,
    ⟨S1, by decide +kernel⟩,
    ⟨y1, 4, by decide +kernel⟩,
    ⟨S1, by decide +kernel⟩,
    ⟨hol B, 5, by decide +kernel⟩,
    ⟨(hol (V B)).withNow 90000000000, 5, by decide +kernel⟩⟩

theorem witness_SourceOfTime :
    (∃ (m : Master) (s : State), Reaches s m 0x40000 ∧ s.rd R.GLB_LOCK_TIM_LOCK = 1) ∧
    (∃ (m : Master) (s : State) (b : Bool), Reaches s m 0x40000 ∧ s.rd R.GLB_LOCK_TIM_LOCK = 0 ∧ s.rdB R.TIM_CFG_ROLE = b) ∧
    (∃ (m : Master) (s : State) (b : Bool), Reaches s m 0x40000 ∧ s.rd R.GLB_LOCK_TIM_LOCK = 0 ∧ s.rdB R.TIM_CFG_ROLE = !b ∧ b = true ∧
      s.rd R.TIM_STAT_PARENT = 0x1FF) ∧
    (∃ (m : Master) (s : State) (b : Bool), Reaches s m 0x40000 ∧ s.rd R.GLB_LOCK_TIM_LOCK = 0 ∧ s.rdB R.TIM_CFG_ROLE = !b ∧ b = true ∧
      s.rd R.TIM_STAT_PARENT ≠ 0x1FF) ∧
    (∃ (m : Master) (s : State) (b : Bool), Reaches s m 0x40000 ∧ s.rd R.GLB_LOCK_TIM_LOCK = 0 ∧ s.rdB R.TIM_CFG_ROLE = !b ∧ b = false ∧
      0 < s.rd R.TIM_CFG_HOLDOVER_S) ∧
    (∃ (m : Master) (s : State), Reaches s m 0x40030 ∧ s.rd R.TIM_CFG_ROLE = 0) ∧
    (∃ (m : Master) (s : State), Reaches s m 0x40030 ∧ s.rd R.TIM_CFG_ROLE = 1) :=
  ⟨⟨Master.arbiter, B.wr R.GLB_LOCK_TIM_LOCK 1, by decide +kernel⟩,
    ⟨Master.arbiter, S1, false, by decide +kernel⟩,
    ⟨Master.arbiter, S1, true, by decide +kernel⟩,
    ⟨Master.arbiter, par 5 7 B, true, by decide +kernel⟩,
    ⟨Master.arbiter, S1.wr R.TIM_CFG_ROLE 1, false, by decide +kernel⟩,
    ⟨Master.arbiter, S1, by decide +kernel⟩,
    ⟨Master.arbiter, S1.wr R.TIM_CFG_ROLE 1, by decide +kernel⟩⟩

theorem witness_PulsePerSecond :
    (∃ (s : State), let en := decide (s.rd R.TIM_CFG_ROLE = 1) && decide (s.rd R.TIM_CFG_PPS_IN_EN = 1); en = false) ∧
    (∃ (s : State), let en := decide (s.rd R.TIM_CFG_ROLE = 1) && decide (s.rd R.TIM_CFG_PPS_IN_EN = 1); en = true ∧ s.rd R.TIM_SET_CTL_ARMED = 1) ∧
    (∃ (s : State), let en := decide (s.rd R.TIM_CFG_ROLE = 1) && decide (s.rd R.TIM_CFG_PPS_IN_EN = 1); let r := s.time.ft % 65536000000000;
      let o : Int := if 2 * r < 65536000000000 then -(r : Int) else 65536000000000 - r; let near := -65536000000 ≤ o ∧ o ≤ 65536000000; en = true ∧
      s.rd R.TIM_SET_CTL_ARMED = 0 ∧ (¬ near)) ∧
    (∃ (s : State), let en := decide (s.rd R.TIM_CFG_ROLE = 1) && decide (s.rd R.TIM_CFG_PPS_IN_EN = 1); let r := s.time.ft % 65536000000000;
      let o : Int := if 2 * r < 65536000000000 then -(r : Int) else 65536000000000 - r; let near := -65536000000 ≤ o ∧ o ≤ 65536000000;
      let lim : Int := (max 100 (s.rd R.TIM_SERVO_STEP_NS) : Nat) * 65536;
      let held := decide (s.rd R.PWR_CLK_STAT_REF25_LOST = 1) || decide (s.rd R.FLT_ARB_STAT_STATE ≠ 0); en = true ∧ s.rd R.TIM_SET_CTL_ARMED = 0 ∧
      near ∧ held = false ∧ (o < -lim ∨ lim < o)) ∧
    (∃ (s : State), let en := decide (s.rd R.TIM_CFG_ROLE = 1) && decide (s.rd R.TIM_CFG_PPS_IN_EN = 1); let r := s.time.ft % 65536000000000;
      let o : Int := if 2 * r < 65536000000000 then -(r : Int) else 65536000000000 - r; let near := -65536000000 ≤ o ∧ o ≤ 65536000000;
      let held := decide (s.rd R.PWR_CLK_STAT_REF25_LOST = 1) || decide (s.rd R.FLT_ARB_STAT_STATE ≠ 0); en = true ∧ s.rd R.TIM_SET_CTL_ARMED = 0 ∧
      near ∧ held = true) ∧
    (∃ (s : State), let en := decide (s.rd R.TIM_CFG_ROLE = 1) && decide (s.rd R.TIM_CFG_PPS_IN_EN = 1); let r := s.time.ft % 65536000000000;
      let o : Int := if 2 * r < 65536000000000 then -(r : Int) else 65536000000000 - r; let near := -65536000000 ≤ o ∧ o ≤ 65536000000;
      let lim : Int := (max 100 (s.rd R.TIM_SERVO_STEP_NS) : Nat) * 65536;
      let held := decide (s.rd R.PWR_CLK_STAT_REF25_LOST = 1) || decide (s.rd R.FLT_ARB_STAT_STATE ≠ 0); en = true ∧ s.rd R.TIM_SET_CTL_ARMED = 0 ∧
      near ∧ held = false ∧ -lim ≤ o ∧ o ≤ lim) ∧
    (∃ (s : State), let en := decide (s.rd R.TIM_CFG_ROLE = 1) && decide (s.rd R.TIM_CFG_PPS_IN_EN = 1); en = true ∧ (s.time.ppsMissed = true ∨
      s.now < s.time.ppsAt + 1100000000)) ∧
    (∃ (s : State), let en := decide (s.rd R.TIM_CFG_ROLE = 1) && decide (s.rd R.TIM_CFG_PPS_IN_EN = 1); en = true ∧ s.time.ppsMissed = false ∧
      s.time.ppsAt + 1100000000 ≤ s.now) ∧
    (∃ (s : State),
      let rises := s.rd R.TIM_CFG_PPS_OUT_EN = 1 ∧ s.timeValid = true ∧ s.time.ft % 65536000000000 < s.time.adv ∧ s.time.ppsRose ≠ some s.now;
      rises) ∧
    (∃ (s : State),
      let rises := s.rd R.TIM_CFG_PPS_OUT_EN = 1 ∧ s.timeValid = true ∧ s.time.ft % 65536000000000 < s.time.adv ∧ s.time.ppsRose ≠ some s.now;
      (¬ rises)) :=
  ⟨⟨S1, by decide +kernel⟩,
    ⟨(P S1).wr R.TIM_SET_CTL_ARMED 1, by decide +kernel⟩,
    ⟨ft 32768000000000 (P S1), by decide +kernel⟩,
    ⟨ft 60000000000 (P S1), by decide +kernel⟩,
    ⟨(ft 65535999999000 (P S1)).wr R.PWR_CLK_STAT_REF25_LOST 1, by decide +kernel⟩,
    ⟨ft 65535999999000 (P S1), by decide +kernel⟩,
    ⟨P S1, by decide +kernel⟩,
    ⟨(P S1).withNow 2000000000, by decide +kernel⟩,
    ⟨(ft 5 (V (S1.wr R.TIM_CFG_PPS_OUT_EN 1))).withNow 7, by decide +kernel⟩,
    ⟨S1, by decide +kernel⟩⟩

theorem witness_CountersAndSamples :
    (∃ (m : Master) (s : State), s.gate m.id false 0x40018 = (s, true)) ∧
    (∃ (m : Master) (s : State), Reaches s m 0xF80000 ∧ s.pmon.periodAt = some s.now) ∧
    (∃ (m : Master) (s : State), Reaches s m 0xF80000 ∧ s.pmon.periodAt ≠ some s.now) ∧
    (∃ (s : State), let due := s.rd R.PMON_SNAP_CTL_SNAP_US ≠ 0 ∧ s.crossed (s.rd R.PMON_SNAP_CTL_SNAP_US * 1000) = true; due ∧
      s.pmon.snapAt ≠ some s.now) ∧
    (∃ (s : State), let due := s.rd R.PMON_SNAP_CTL_SNAP_US ≠ 0 ∧ s.crossed (s.rd R.PMON_SNAP_CTL_SNAP_US * 1000) = true; due ∧
      s.pmon.snapAt = some s.now) ∧
    (∃ (s : State), let due := s.rd R.PMON_SNAP_CTL_SNAP_US ≠ 0 ∧ s.crossed (s.rd R.PMON_SNAP_CTL_SNAP_US * 1000) = true; (¬ due)) ∧
    (∃ (m : Master) (s : State), Reaches s m 0xF80010) ∧
    (∃ (s : State), s.pmon.ended = []) ∧
    (∃ (kind : Nat) (x : Tagged) (rest : List (Nat × Tagged)) (s : State), let wr := s.rd R.PMON_RING_WR_WR; let rd := s.rd R.PMON_RING_RD_RD;
      let used := (wr + 2 ^ 32 - rd) % 2 ^ 32; let size := s.ringSize; let a := s.rd R.PMON_RING_CFG_RING_BASE * 4096 + wr % size * 64;
      let room := s.refuses 23 = false ∧ s.telem.1 ≤ a ∧ a + 64 ≤ s.telem.2 ∧ (used < size ∨ s.rd R.PMON_SAMPLE_CFG_OVERWRITE = 1);
      s.pmon.ended = (kind, x) :: rest ∧ room) ∧
    (∃ (kind : Nat) (x : Tagged) (rest : List (Nat × Tagged)) (s : State), let wr := s.rd R.PMON_RING_WR_WR; let rd := s.rd R.PMON_RING_RD_RD;
      let used := (wr + 2 ^ 32 - rd) % 2 ^ 32; let size := s.ringSize; let a := s.rd R.PMON_RING_CFG_RING_BASE * 4096 + wr % size * 64;
      let room := s.refuses 23 = false ∧ s.telem.1 ≤ a ∧ a + 64 ≤ s.telem.2 ∧ (used < size ∨ s.rd R.PMON_SAMPLE_CFG_OVERWRITE = 1);
      s.pmon.ended = (kind, x) :: rest ∧ (¬ room)) :=
  ⟨⟨Master.arbiter, S1, by decide +kernel⟩,
    ⟨Master.arbiter, S1.withPmon { S1.pmon with periodAt := some S1.now }, by decide +kernel⟩,
    ⟨Master.arbiter, S1, by decide +kernel⟩,
    ⟨snapping, by decide +kernel⟩,
    ⟨snapping.withPmon { snapping.pmon with snapAt := some snapping.now }, by decide +kernel⟩,
    ⟨base, by decide +kernel⟩,
    ⟨Master.arbiter, S1, by decide +kernel⟩,
    ⟨S1, by decide +kernel⟩,
    ⟨1, tg, [(0, tg)], PM S1, by decide +kernel⟩,
    ⟨1, tg, [(0, tg)], (PM S1).wr R.PMON_RING_WR_WR 1024, by decide +kernel⟩⟩

end Sys2Proof.Tests.L18a

namespace Sys2Proof.Tests.L19a

set_option Elab.async false

def S1 : State := (((base.withPwr { base.pwr with state := .on }).withMgmtUp true).wr R.SEC_BOOT_STAT_PHASE 5)

def W (f : PwrSt → PwrSt) (s : State) : State := s.withPwr (f s.pwr)

def full : State := (((S1.wr R.FLT_STATUS_SET 5).wr (R.FLT_REC 2 3) 77).wr R.SEC_HSS_STAT_BUCKET 3).wr R.SEC_BOOT_CFG_PREFER 1

def full2 : State := ((((((full.wr (R.FLT_FENCE_LOG_UNIT 3) 7).wr (R.FLT_FENCE_LOG_UNIT 4) 9).wr (R.FLT_FENCE_LOG_CLEARING 4) 1).wr
  R.PWR_STRAP_ARB_CLK_SEL 1).withMem [(3,4)]).wr R.PWR_ENERGY_UJ 9).wr R.PWR_RESET_STAT_WARM_COUNT 255

def full3 : State := ((full2.withNow 10000000).withSec {full2.sec with staging := [(0,3)], flash := [(4,5)], owner := some (3,4),
                                                                       scopes := 3}).withFlt
  { full2.flt with life := [(3, 123456789)], resetAt := some 7 }

def y0 := (W (fun p => { p with state := PowerState.off, retryAt := some 5 : PwrSt }) full3)

def y1 := (W (fun p => { p with state := PowerState.down, retryAt := some 5 : PwrSt }) full3)

theorem witness_Resets :
    (∃ (s : State) (m : Master), Reaches s m 0x20030) ∧
    (∃ (s : State), (s.pwr.state ≠ .on ∨ s.pwr.warmAt = none)) ∧
    (∃ (s : State), (s.pwr.state ≠ .on ∨ s.flt.resetAt = none)) ∧
    (∃ (s : State) (at_ : Nat), s.pwr.warmAt = some at_ ∧ s.now < at_) ∧
    (∃ (s : State) (at_ : Nat), s.pwr.warmAt = some at_ ∧ s.pwr.state = .on ∧ at_ ≤ s.now) ∧
    (∃ (s : State) (at_ : Nat), s.flt.resetAt = some at_ ∧ s.now < at_) ∧
    (∃ (s : State) (at_ : Nat), s.flt.resetAt = some at_ ∧ s.pwr.state = .on ∧ at_ ≤ s.now) ∧
    (∃ (s : State), s.pwr.state = .on) ∧
    (∃ (s : State), (s.pwr.state = .off ∨ s.pwr.state = .down)) ∧
    (∃ (s : State), s.pwr.state = .heldOff) ∧
    (∃ (s : State), s.pwr.state = .off) ∧
    (∃ (s : State), s.pwr.state ≠ .off) ∧
    (∃ (s : State) (tj : BitVec 8) (at_ : Nat), s.pwr.retryAt = some at_ ∧ (s.pwr.state ≠ .down ∨ s.now < at_ ∨ s.pwr.thermal = true ∧
      95 ≤ tj.toNat)) ∧
    (∃ (s : State) (tj : BitVec 8) (at_ : Nat), s.pwr.retryAt = some at_ ∧ s.pwr.state = .down ∧ at_ ≤ s.now ∧ (s.pwr.thermal = false ∨
      tj.toNat < 95)) :=
  ⟨⟨S1, Master.arbiter, by decide +kernel⟩,
    ⟨S1, by decide +kernel⟩,
    ⟨S1, by decide +kernel⟩,
    ⟨W (fun p => { p with warmAt := some 10000001 }) full3, 10000001, by decide +kernel⟩,
    ⟨W (fun p => { p with warmAt := some 100 : PwrSt }) full3, 100, by decide +kernel⟩,
    ⟨full3.withFlt (({ full3.flt with resetAt := some 10000001 } : FltSt)), 10000001, by decide +kernel⟩,
    ⟨full3, 7, by decide +kernel⟩,
    ⟨S1, by decide +kernel⟩,
    ⟨y0, by decide +kernel⟩,
    ⟨W (fun p => { p with state := PowerState.heldOff, retryAt := some 5 : PwrSt }) full3, by decide +kernel⟩,
    ⟨y0, by decide +kernel⟩,
    ⟨S1, by decide +kernel⟩,
    ⟨y0, 0, 5, by decide +kernel⟩,
    ⟨y1, 0, 5, by decide +kernel⟩⟩

theorem witness_PowerDown :
    (∃ (s : State), s.pwr.state ≠ .on) ∧
    (∃ (s : State), s.pwr.state = .on) :=
  ⟨⟨y0, by decide +kernel⟩,
    ⟨S1, by decide +kernel⟩⟩

theorem witness_Telemetry :
    (∃ (s : State) (v : BitVec 16), v.toNat < 2800 ∧ (s.pwr.state = .down ∨ s.pwr.state = .heldOff)) ∧
    (∃ (s : State), s.pwr.state = .on ∧ s.inStack = false) ∧
    (∃ (s : State), s.pwr.state ≠ .on) ∧
    (∃ (s : State) (tj : BitVec 8), (s.pwr.state ≠ .on ∨ tj.toNat ≤ 105)) ∧
    (∃ (s : State) (tj : BitVec 8), s.pwr.state = .on ∧ 105 < tj.toNat ∧ s.inStack = false) ∧
    (∃ (s : State), (s.pwr.state = .off ∨ s.now / 100000 ≤ s.pwr.telIdx)) ∧
    (∃ (s : State), s.pwr.state ≠ .off ∧ s.pwr.telIdx < s.now / 100000 ∧ s.inStack = false) ∧
    (∃ (s : State), (s.pwr.state ≠ .on ∨ s.now / 10000000 ≤ s.pwr.budgetIdx)) ∧
    (∃ (s : State), s.pwr.state = .on ∧ s.pwr.budgetIdx < s.now / 10000000) :=
  ⟨⟨y1, 0, by decide +kernel⟩,
    ⟨S1, by decide +kernel⟩,
    ⟨y0, by decide +kernel⟩,
    ⟨base, 0, by decide +kernel⟩,
    ⟨S1, 106, by decide +kernel⟩,
    ⟨y0, by decide +kernel⟩,
    ⟨S1, by decide +kernel⟩,
    ⟨S1, by decide +kernel⟩,
    ⟨full3, by decide +kernel⟩⟩

theorem witness_References :
    (∃ (s : State), s.pwr.state ≠ .on) ∧
    (∃ (r : RefClk) (s : State), s.pwr.state = .on ∧ s.inStack = false ∧ s.isLost r = false ∧ r = .mgmt) ∧
    (∃ (r : RefClk) (s : State), s.pwr.state = .on ∧ s.inStack = false ∧ s.isLost r = false ∧ r = .ref25 ∧ s.timeValid = false) ∧
    (∃ (r : RefClk) (s : State) (p : Fin 4), s.pwr.state = .on ∧ s.inStack = false ∧ s.isLost r = false ∧ r = .host p ∧
      s.rd (R.HPT_PORT_STAT_LINK_UP p) = 0) ∧
    (∃ (r : RefClk) (s : State), s.isLost r = true ∧ r ≠ .ref25) ∧
    (∃ (r : RefClk) (s : State), s.pwr.state = .on ∧ s.isLost r = false) ∧
    (∃ (r : RefClk) (s : State), s.pwr.state = .on ∧ s.isLost r = true ∧ r ≠ .ref25) ∧
    (∃ (r : RefClk) (s : State), s.pwr.state = .on ∧ s.isLost r = true ∧ r = .ref25) ∧
    (∃ (s : State) (at_ : Nat), s.pwr.state = .on ∧ s.pwr.ref25Back = some at_ ∧ s.now < at_ + 10000000) ∧
    (∃ (s : State) (at_ : Nat), s.pwr.state = .on ∧ s.pwr.ref25Back = some at_ ∧ at_ + 10000000 ≤ s.now) :=
  ⟨⟨y0, by decide +kernel⟩,
    ⟨RefClk.mgmt, S1, by decide +kernel⟩,
    ⟨RefClk.ref25, S1, by decide +kernel⟩,
    ⟨RefClk.host (2 : Fin 4), S1, 2, by decide +kernel⟩,
    ⟨RefClk.fabric, S1.setLost RefClk.fabric true, by decide +kernel⟩,
    ⟨RefClk.fabric, S1, by decide +kernel⟩,
    ⟨RefClk.fabric, S1.setLost RefClk.fabric true, by decide +kernel⟩,
    ⟨RefClk.ref25, S1.setLost RefClk.ref25 true, by decide +kernel⟩,
    ⟨(W (fun p => { p with ref25Back := some 5 : PwrSt }) S1).setLost RefClk.ref25 true, 5, by decide +kernel⟩,
    ⟨((W (fun p => { p with ref25Back := some 5 : PwrSt }) full3).setLost RefClk.ref25 true).withNow 20000000, 5, by decide +kernel⟩⟩

theorem witness_PortGroupReset :
    (∃ (m : Master) (s : State), Reaches s m 0x20050 ∧ s.rd R.PWR_ISL_STAT_BUSY = 1) ∧
    (∃ (m : Master) (g : BitVec 7) (s : State), let n := g.toNat; let gs := if s.groupWidth n = 3 then [2 * (n / 2), 2 * (n / 2) + 1] else [n];
      let refused := s.inRecovery = true ∨ s.island (n / 8) ≠ 0 ∨ ∃ x ∈ gs, s.groupDown x = true ∨ s.unitStopped (16 + x) = true;
      Reaches s m 0x20050 ∧ s.rd R.PWR_ISL_STAT_BUSY = 0 ∧ refused) ∧
    (∃ (m : Master) (g : BitVec 7) (s : State), let n := g.toNat; let gs := if s.groupWidth n = 3 then [2 * (n / 2), 2 * (n / 2) + 1] else [n];
      let refused := s.inRecovery = true ∨ s.island (n / 8) ≠ 0 ∨ ∃ x ∈ gs, s.groupDown x = true ∨ s.unitStopped (16 + x) = true;
      Reaches s m 0x20050 ∧ s.rd R.PWR_ISL_STAT_BUSY = 0 ∧ (¬ refused)) :=
  ⟨⟨Master.arbiter, S1.wr R.PWR_ISL_STAT_BUSY 1, by decide +kernel⟩,
    ⟨Master.arbiter, 0, S1.setIsland 0 2, by decide +kernel⟩,
    ⟨Master.arbiter, 0, S1, by decide +kernel⟩⟩

theorem witness_TestAccessPort :
    (∃ (s : State) (v : BitVec 1794), ∃ c, s.pwr.state = .off ∧ c ∈ [Instr.tapReset, .bypass, .idcode, .samplePreload v, .extest, .clamp, .highz,
      .extestPulse,
      .extestTrain]) ∧
    (∃ (s : State), s.pwr.state ≠ .off) :=
  ⟨⟨base.withPwr { base.pwr with state := .off }, 0, Instr.tapReset, by decide +kernel⟩,
    ⟨base, by decide +kernel⟩⟩

end Sys2Proof.Tests.L19a

namespace Sys2Proof.Tests.L20

set_option Elab.async false

def S1 : State := (((base.withPwr { base.pwr with state := .on }).withMgmtUp true).wr R.SEC_BOOT_STAT_PHASE 5)

def sq (n : Nat) : Square := BitVec.ofNat 512 (n * 0x123456789ABCDEF123456789ABCDEF123456789ABCDEF123456789ABCDEF * 2^250 + n)

theorem witness_WarmResetIsDue :
    ∃ (m : Master) (s : State), Reaches s m 0x20030 :=
  ⟨Master.arbiter, S1, by decide +kernel⟩

theorem witness_ReadsAfterWrites :
    (∃ (f g : FRef), g.key ≠ f.key) ∧
    (∃ (a b : Nat), b / 8 ≠ a / 8) :=
  ⟨⟨R.LCK_WORD 4, R.LCK_WORD 5, by decide +kernel⟩,
    ⟨0, 8, by decide +kernel⟩⟩

theorem witness_RowsReadBack :
    ∃ (r : Row), r.squares.length = 8 :=
  ⟨{ squares := List.map (fun i => sq (i + 3)) (List.range 8), seq := (4095 : BitVec 12), ackSeq := (1 : BitVec 12), nak := true, replay := false,
     ty := (1 : BitVec 2), nsq := (8 : BitVec 4), hdr := (165 : BitVec 8), shared := (90 : BitVec 8), crVl := (7 : BitVec 4), crPool := true,
     crCount := (16383 : BitVec 14), tmark := true, tslot := (9 : BitVec 4), tdata := (48879 : BitVec 16), abort := true : Row }, by decide +kernel⟩

theorem witness_HeadersReadBack :
    ∃ (h : HdrSpec) (pay : List Square) (off n : Nat), h.dest < 2 ^ 32 ∧ h.src < 2 ^ 32 ∧ h.opcode < 0xC0 ∧ h.conn < 2 ^ 16 ∧ h.epoch < 2 ^ 16 ∧
      h.psn < 2 ^ 32 ∧ pay.length ≤ 64 ∧ 32 ≤ off ∧ off + n ≤ 64 :=
  ⟨{ dest := 2 ^ 32 - 1, src := 7, opcode := 161, pin := true, conn := 65535, epoch := 3, psn := 2 ^ 32 - 2, retx := true, event := true : HdrSpec },
    [], 32, 4, by decide +kernel⟩

theorem witness_RoutersChangeTheRouteWord :
    (∃ (lo w off n : Nat), lo + w ≤ 32 ∧ off + n ≤ 64 ∧ (off + n ≤ 8 ∨ 12 ≤ off)) ∧
    (∃ (lo w i : Nat), lo + w ≤ 32 ∧ i < 32 ∧ (i < lo ∨ lo + w ≤ i)) :=
  ⟨⟨0, 0, 0, 0, by decide +kernel⟩,
    ⟨0, 0, 0, by decide +kernel⟩⟩

theorem witness_FlowHashOfBuilder :
    ∃ (h : HdrSpec) (pay : List Square), h.opcode < 0xC0 ∧ pay.length ≤ 64 :=
  ⟨{ dest := 2 ^ 32 - 1, src := 7, opcode := 161, pin := true, conn := 65535, epoch := 3, psn := 2 ^ 32 - 2, retx := true, event := true : HdrSpec },
    [], by decide +kernel⟩

theorem witness_EndpointTreesAreLeaves :
    (∃ (m : Master) (i : BitVec 12) (h : Half) (v : BitVec 64) (s : State),
      let w := mergeHalf h (s.rd (R.COL_TREE_A i.toNat)) v.toNat &&& liveBits (0xD10000 + 0x10 * i.toNat); Reaches s m (0xD10000 + 0x10 * i.toNat) ∧
      s.rd R.GLB_MODE_STAT_MODE = 1 ∧ w.testBit 16 = true ∧ bitsOf w 17 2 ≠ 0) ∧
    (∃ (m : Master) (i : BitVec 12) (h : Half) (v : BitVec 64) (s : State),
      let w := mergeHalf h (s.rd (R.COL_TREE_A i.toNat)) v.toNat &&& liveBits (0xD10000 + 0x10 * i.toNat); Reaches s m (0xD10000 + 0x10 * i.toNat) ∧
      s.rd R.GLB_MODE_STAT_MODE = 1 ∧ (w.testBit 16 = false ∨ bitsOf w 17 2 = 0)) :=
  ⟨⟨.arbiter, 0, .full, 0x30000, S1, by decide +kernel⟩,
    ⟨.arbiter, 0, .full, 0x10000, S1, by decide +kernel⟩⟩

/-- The 100 µs after WARM_RESET has been taken, and a management packet that arrives in them. -/
theorem witness_WarmResetIsDue_waiting : ∃ (u : State) (p : Pkt), u.pwr = { S1.pwr with warmAt := some (S1.now + 100000) } ∧
    u.now < S1.now + 100000 ∧ nextMgmt u.arbIn = some ((p, 0, 0), []) :=
  ⟨(S1.withPwr { S1.pwr with warmAt := some (S1.now + 100000) }).withArbIn [(mkPkt { dest := 0, src := 0, opcode := 0x80 } 0 [], 0, 0)],
    mkPkt { dest := 0, src := 0, opcode := 0x80 } 0 [], by decide +kernel⟩

end Sys2Proof.Tests.L20

namespace Sys2Proof.Tests.Machine

set_option Elab.async false

def policy : RegDef := { name := "FLT_POLICY0", base := 0x30018, dims := [], fields := [{ lo := 0, width := 16, rst := 0, acc := .rw, rwl := true },
                         { lo := 16, width := 16, rst := 0, acc := .rw, rwl := true }, { lo := 32, width := 16, rst := 0, acc := .rw, rwl := true },
                         { lo := 48, width := 16, rst := 0, acc := .rw, rwl := true }] }

def irq : RegDef := { name := "GLB_IRQ", base := 0x38, dims := [], fields := [{ lo := 0, width := 1, rst := 0, acc := .w1c },
                      { lo := 1, width := 1, rst := 0, acc := .w1c }, { lo := 2, width := 1, rst := 0, acc := .w1c },
                      { lo := 16, width := 3, rst := 0, acc := .rw }] }

def accStat : RegDef := { name := "GLB_ACC_STAT", base := 0x28, dims := [], fields := [{ lo := 0, width := 4, rst := 0, acc := .ro },
                          { lo := 4, width := 1, rst := 0, acc := .ro }, { lo := 8, width := 12, rst := 4095, acc := .ro }] }

theorem witness_AccessCodes :
    (∃ (o : Nat) (d : RegDef) (f : FieldDef) (l r : List FieldDef) (s : State), regAt o = some d ∧ d.fields = l ++ f :: r ∧ (∀ g ∈ l ++ r,
      g.lo ≠ f.lo) ∧ 0 < f.width ∧ f.lo + f.width ≤ 64 ∧ f.acc = .rw ∧ (f.rwl = false ∨ s.blockLocked o = false)) ∧
    (∃ (o : Nat) (d : RegDef) (f : FieldDef) (l r : List FieldDef) (s : State), regAt o = some d ∧ d.fields = l ++ f :: r ∧ (∀ g ∈ l ++ r,
      g.lo ≠ f.lo) ∧ 0 < f.width ∧ f.lo + f.width ≤ 64 ∧ f.acc = .rw ∧ f.rwl = true ∧ s.blockLocked o = true) ∧
    (∃ (o : Nat) (d : RegDef) (f : FieldDef) (l r : List FieldDef), regAt o = some d ∧ d.fields = l ++ f :: r ∧ (∀ g ∈ l ++ r, g.lo ≠ f.lo) ∧
      0 < f.width ∧ f.lo + f.width ≤ 64 ∧ f.acc = .ro) ∧
    (∃ (o : Nat) (d : RegDef) (f : FieldDef) (l r : List FieldDef), regAt o = some d ∧ d.fields = l ++ f :: r ∧ (∀ g ∈ l ++ r, g.lo ≠ f.lo) ∧
      0 < f.width ∧ f.lo + f.width ≤ 64 ∧ f.acc = .w1c) ∧
    (∃ (o : Nat) (d : RegDef) (f : FieldDef) (l r : List FieldDef) (g : FRef), regAt o = some d ∧ d.fields = l ++ f :: r ∧ (∀ g ∈ l ++ r,
      g.lo ≠ f.lo) ∧ 0 < f.width ∧ f.lo + f.width ≤ 64 ∧ (∀ h ∈ d.fields, g.key ≠ (fieldRef o h).key)) :=
  ⟨⟨0x38, irq, { lo := 16, width := 3, rst := 0, acc := .rw }, irq.fields.take 3, [], base, by decide +kernel⟩,
    ⟨0x30018, policy, { lo := 48, width := 16, rst := 0, acc := .rw, rwl := true }, policy.fields.take 3, [], base.wr R.GLB_LOCK_FLT_LOCK 1,
      by decide +kernel⟩,
    ⟨0x28, accStat, { lo := 0, width := 4, rst := 0, acc := .ro }, [], accStat.fields.drop 1, by decide +kernel⟩,
    ⟨0x38, irq, { lo := 0, width := 1, rst := 0, acc := .w1c }, [], irq.fields.drop 1, by decide +kernel⟩,
    ⟨0x38, irq, { lo := 0, width := 1, rst := 0, acc := .w1c }, [], irq.fields.drop 1, R.GLB_MODE_STAT_MODE, by decide +kernel⟩⟩

theorem witness_CommandsTakenInOrder :
    ∃ (c : Instr) (rest : List Instr) (s : State), s.pending = c :: rest :=
  ⟨.mgmtReqRx, [.warmReset], base.withPending [.mgmtReqRx, .warmReset], by decide +kernel⟩

theorem witness_EmptyQueuePassesTime :
    ∃ (s : State), s.pending = [] ∧ s.colDown = [] ∧ s.inStack = false :=
  ⟨base, by decide +kernel⟩

theorem witness_StepsKeepCanonicalForm :
    ∃ (s t : State), Canonical s ∧ step s = .next t :=
  ⟨base, _, by decide +kernel, rfl⟩

theorem witness_CommandsLeaveTheQueue :
    ∃ (c : Instr) (s t : State), exec c s = .next t :=
  ⟨.mgmtReqRx, base, _, rfl⟩

end Sys2Proof.Tests.Machine
end

section
/-!
SUPPORT. The register file under a write of one register (R8, R9, R385): what the access code of a field makes of the written bits, and what
the write leaves unchanged.
-/
namespace Sys2Proof.Machine

/-- Clearing from `a` the bits it shares with `b` leaves the bits that `b` lacks. -/
theorem testBit_sub_and (a b i : Nat) : (a - (a &&& b)).testBit i = (a.testBit i && !b.testBit i) := by
  induction i generalizing a b with
  | zero =>
    have low := @Nat.and_mod_two_eq_one a b
    have le : a &&& b ≤ a := Nat.and_le_left
    rw [Nat.testBit_zero, Nat.testBit_zero, Nat.testBit_zero, Bool.eq_iff_iff, Bool.and_eq_true, Bool.not_eq_true', decide_eq_true_eq,
      decide_eq_true_eq, decide_eq_false_iff_not]
    omega
  | succ i ih =>
    have low := @Nat.and_mod_two_eq_one a b
    have le : a &&& b ≤ a := Nat.and_le_left
    have half : (a - (a &&& b)) / 2 = a / 2 - (a / 2 &&& b / 2) := by rw [← Nat.and_div_two]; omega
    rw [Nat.testBit_succ, half, ih, ← Nat.testBit_succ, ← Nat.testBit_succ]

/-- The low `w` bits of a number in which its low `w` bits were replaced. -/
theorem setBits_zero_mod (v w x : Nat) : setBits v 0 w x % 2 ^ w = x % 2 ^ w := by
  apply Nat.eq_of_testBit_eq
  intro i
  rw [Nat.testBit_mod_two_pow, Nat.testBit_mod_two_pow, testBit_setBits]
  by_cases h : i < w
  · rw [if_pos ⟨Nat.zero_le i, by omega⟩, Nat.sub_zero]
  · simp [h]

theorem bitsOf_eq_div_mod (v lo w : Nat) : bitsOf v lo w = v / 2 ^ lo % 2 ^ w := by
  rw [bitsOf, Nat.shiftRight_eq_div_pow]

/-- Two fields of one register have the same place in the register file exactly where they have the same lowest bit. -/
theorem fieldRef_key_eq_iff (o : Nat) (f g : FieldDef) : (fieldRef o g).key = (fieldRef o f).key ↔ g.lo = f.lo := by
  simp only [fieldRef]
  omega

/-- The lock bits of R385 stand in GLB_LOCK, which belongs to no block that they lock. -/
theorem blockLock_key_ne {o : Nat} {b : FRef} (h : blockLock o = some b) (f : FieldDef) : b.key ≠ (fieldRef o f).key := by
  unfold blockLock at h
  simp only [fieldRef]
  split_ifs at h <;> cases h <;> dsimp only <;> omega

namespace State

theorem memWord_setMemWord (s : State) (a b v : Nat) :
    (s.setMemWord a v).memWord b = if b / 8 = a / 8 then v % 2 ^ 64 else s.memWord b := SMap.get_set _ _ _ _ _

theorem memWord_wr (s : State) (f : FRef) (v b : Nat) : (s.wr f v).memWord b = s.memWord b := rfl

theorem blockLocked_wr_fieldRef (s : State) (o : Nat) (f : FieldDef) (n : Nat) :
    (s.wr (fieldRef o f) n).blockLocked o = s.blockLocked o := by
  unfold blockLocked
  cases h : blockLock o with
  | none => rfl
  | some b => simp only [rdB_def, rd_wr_ne s n (blockLock_key_ne h f)]

/-- What a write of bits [lo, hi) of the register at `o` does to its field `f` (R9, R381, R385): the step of `writeFields`. -/
def writeField (o lo hi v : Nat) (s : State) (f : FieldDef) : State :=
  let a := max lo f.lo
  let b := min hi (f.lo + f.width)
  if b ≤ a then s
  else
    let old := s.rd (fieldRef o f)
    match f.acc with
    | .rw => if f.rwl && s.blockLocked o then s else s.wr (fieldRef o f) (setBits old (a - f.lo) (b - a) (bitsOf v a (b - a)))
    | .w1c => s.wr (fieldRef o f) (old - (old &&& (bitsOf v a (b - a) * 2 ^ (a - f.lo))))
    | .ro => s
    | .wo => s

theorem writeFields_eq_foldl (s : State) (o : Nat) (d : RegDef) (lo hi v : Nat) :
    s.writeFields o d lo hi v = d.fields.foldl (writeField o lo hi v) s := rfl

/-- A write of a register does to each of its fields nothing, or one write of that field. -/
theorem writeField_eq_self_or_wr (o lo hi v : Nat) (s : State) (f : FieldDef) :
    writeField o lo hi v s f = s ∨ ∃ n, writeField o lo hi v s f = s.wr (fieldRef o f) n := by
  unfold writeField
  dsimp only
  split
  · exact .inl rfl
  · cases f.acc with
    | rw =>
      dsimp only
      split
      · exact .inl rfl
      · exact .inr ⟨_, rfl⟩
    | w1c => exact .inr ⟨_, rfl⟩
    | ro => exact .inl rfl
    | wo => exact .inl rfl

/-- What no write of one of the fields changes is the same after the write of all of them. -/
theorem foldl_writeField_keeps {β : Type} (q : State → β) (o lo hi v : Nat) (fs : List FieldDef)
    (h : ∀ f ∈ fs, ∀ (s : State) (n : Nat), q (s.wr (fieldRef o f) n) = q s) (s : State) :
    q (fs.foldl (writeField o lo hi v) s) = q s := by
  induction fs generalizing s with
  | nil => rfl
  | cons f fs ih =>
    have head : q (writeField o lo hi v s f) = q s := by
      obtain same | ⟨n, written⟩ := writeField_eq_self_or_wr o lo hi v s f
      · rw [same]
      · rw [written, h f List.mem_cons_self]
    rw [List.foldl_cons, ih (fun g hg => h g (List.mem_cons_of_mem f hg)), head]

/-- A write of fields leaves every field of another key. -/
theorem rd_foldl_writeField_of_ne (o lo hi v : Nat) {fs : List FieldDef} (s : State) {g : FRef}
    (h : ∀ f ∈ fs, g.key ≠ (fieldRef o f).key) : (fs.foldl (writeField o lo hi v) s).rd g = s.rd g :=
  foldl_writeField_keeps (·.rd g) o lo hi v fs (fun f hf s n => rd_wr_ne s n (h f hf)) s

theorem blockLocked_foldl_writeField (o lo hi v : Nat) (fs : List FieldDef) (s : State) :
    (fs.foldl (writeField o lo hi v) s).blockLocked o = s.blockLocked o :=
  foldl_writeField_keeps (·.blockLocked o) o lo hi v fs (fun f _ s n => blockLocked_wr_fieldRef s o f n) s

/-- A write of a register leaves every field that is none of its own. -/
theorem rd_writeFields_of_ne (s : State) (o : Nat) (d : RegDef) (lo hi v : Nat) {g : FRef}
    (h : ∀ f ∈ d.fields, g.key ≠ (fieldRef o f).key) : (s.writeFields o d lo hi v).rd g = s.rd g :=
  rd_foldl_writeField_of_ne o lo hi v s h

theorem writeFields_mem (s : State) (o : Nat) (d : RegDef) (lo hi v : Nat) : (s.writeFields o d lo hi v).mem = s.mem :=
  foldl_writeField_keeps (·.mem) o lo hi v d.fields (fun f _ s n => wr_mem s (fieldRef o f) n) s

theorem writeFields_pending (s : State) (o : Nat) (d : RegDef) (lo hi v : Nat) :
    (s.writeFields o d lo hi v).pending = s.pending :=
  foldl_writeField_keeps (·.pending) o lo hi v d.fields (fun f _ s n => wr_pending s (fieldRef o f) n) s

/-! One field under a write, by its access code (R9, R385); an RW or W1C field under a whole write. -/

theorem writeField_ro (o lo hi v : Nat) (s : State) {f : FieldDef} (acc : f.acc = .ro) : writeField o lo hi v s f = s := by
  simp [writeField, acc]

theorem writeField_locked (o lo hi v : Nat) (s : State) {f : FieldDef} (acc : f.acc = .rw) (rwl : f.rwl = true)
    (locked : s.blockLocked o = true) : writeField o lo hi v s f = s := by
  simp [writeField, acc, rwl, locked]

section
variable (o v : Nat) (s : State) {f : FieldDef} (nonempty : 0 < f.width) (inWord : f.lo + f.width ≤ 64)
include nonempty inWord

theorem writeField_rw (acc : f.acc = .rw) (unlocked : f.rwl = false ∨ s.blockLocked o = false) :
    writeField o 0 64 v s f = s.wr (fieldRef o f) (setBits (s.rd (fieldRef o f)) 0 f.width (bitsOf v f.lo f.width)) := by
  have gate : (f.rwl && s.blockLocked o) = false := Bool.and_eq_false_iff.2 unlocked
  simp [writeField, Nat.min_eq_right inWord, nonempty.ne', acc, gate]

theorem writeField_w1c (acc : f.acc = .w1c) :
    writeField o 0 64 v s f = s.wr (fieldRef o f) (s.rd (fieldRef o f) - (s.rd (fieldRef o f) &&& bitsOf v f.lo f.width)) := by
  simp [writeField, Nat.min_eq_right inWord, nonempty.ne', acc]

theorem rd_writeField_rw (acc : f.acc = .rw) (unlocked : f.rwl = false ∨ s.blockLocked o = false) :
    (writeField o 0 64 v s f).rd (fieldRef o f) = v / 2 ^ f.lo % 2 ^ f.width := by
  rw [writeField_rw o v s nonempty inWord acc unlocked, rd_wr_self]
  exact (setBits_zero_mod _ _ _).trans (by rw [bitsOf_eq_div_mod, Nat.mod_mod])

theorem testBit_rd_writeField_w1c (acc : f.acc = .w1c) (i : Nat) :
    ((writeField o 0 64 v s f).rd (fieldRef o f)).testBit i =
      ((s.rd (fieldRef o f)).testBit i && !(decide (i < f.width) && v.testBit (f.lo + i))) := by
  have fits : s.rd (fieldRef o f) - (s.rd (fieldRef o f) &&& bitsOf v f.lo f.width) < 2 ^ (fieldRef o f).width :=
    (Nat.sub_le _ _).trans_lt (rd_lt s (fieldRef o f))
  rw [writeField_w1c o v s nonempty inWord acc, rd_wr_self, Nat.mod_eq_of_lt fits, testBit_sub_and, testBit_bitsOf]

end

/-- In a write of a register, a field reads what its own step makes of a state that agrees with the one before the write on the field and on the
block's lock: the other fields stand at other places. -/
theorem rd_writeFields_eq_rd_writeField (o lo hi v : Nat) (s : State) {d : RegDef} {f : FieldDef} {l r : List FieldDef}
    (fields : d.fields = l ++ f :: r) (distinct : ∀ g ∈ l ++ r, g.lo ≠ f.lo) :
    ∃ u : State, (s.writeFields o d lo hi v).rd (fieldRef o f) = (writeField o lo hi v u f).rd (fieldRef o f) ∧
      u.rd (fieldRef o f) = s.rd (fieldRef o f) ∧ u.blockLocked o = s.blockLocked o := by
  have away : ∀ g ∈ l ++ r, (fieldRef o f).key ≠ (fieldRef o g).key := fun g hg same =>
    distinct g hg ((fieldRef_key_eq_iff o f g).1 same.symm)
  refine ⟨l.foldl (writeField o lo hi v) s, ?_, ?_, ?_⟩
  · rw [writeFields_eq_foldl, fields, List.foldl_append, List.foldl_cons]
    exact rd_foldl_writeField_of_ne o lo hi v _ (fun g hg => away g (List.mem_append_right l hg))
  · exact rd_foldl_writeField_of_ne o lo hi v s (fun g hg => away g (List.mem_append_left r hg))
  · exact blockLocked_foldl_writeField o lo hi v l s

end State
end Sys2Proof.Machine
end

section
/-!
The obligations of the register file and of module memory.
-/
namespace Sys2Proof.Machine

/-- Settles O33: the fields of a register stand at different places, so each reads what its own access code makes of the written bits. -/
theorem registerAccessCodes : Obligations.RegisterAccessCodes := by
  intro o v d f l r s _ fields distinct nonempty inWord
  obtain ⟨u, own, old, lock⟩ := State.rd_writeFields_eq_rd_writeField o 0 64 v s fields distinct
  refine ⟨fun acc unlocked => ?_, fun acc rwl locked => ?_, fun acc => ?_, fun acc i => ?_,
    State.writeFields_mem s o d 0 64 v, State.writeFields_pending s o d 0 64 v, fun g away => State.rd_writeFields_of_ne s o d 0 64 v away⟩
  · rw [own, State.rd_writeField_rw o v u nonempty inWord acc (lock ▸ unlocked)]
  · rw [own, State.writeField_locked o 0 64 v u acc rwl (lock.trans locked), old]
  · rw [own, State.writeField_ro o 0 64 v u acc, old]
  · rw [own, State.testBit_rd_writeField_w1c o v u nonempty inWord acc, old]

/-- Settles O52: a read after a write, of a register field and of a word of module memory. -/
theorem readsAfterWrites : Obligations.ReadsAfterWrites := by
  intro s f v a
  refine ⟨State.rd_lt s f, State.rd_wr_self s f v, fun g away => State.rd_wr_ne s v away, State.memWord_wr s f v, ?_, fun b away => ?_,
    State.rd_setMemWord s a v⟩
  · rw [State.memWord_setMemWord, if_pos rfl]
  · rw [State.memWord_setMemWord, if_neg away]

end Sys2Proof.Machine
end

section
/-!
SUPPORT. What commands keep: the calculus of `Keeps`.
-/
namespace Sys2Proof.Machine.Keeps

variable {s t u : State} {ks ls : List Nat}

theorem refl (s : State) (ks : List Nat) : Keeps s s ks := ⟨fun _ _ => rfl, rfl, rfl⟩

theorem rd_eq (h : Keeps s t ks) {g : FRef} (hg : g.key ∉ ks) : t.rd g = s.rd g := h.1 g hg

theorem trans (h : Keeps s t ks) (h' : Keeps t u ks) : Keeps s u ks :=
  ⟨fun _ hg => (h'.rd_eq hg).trans (h.rd_eq hg), h'.2.1.trans h.2.1, h'.2.2.trans h.2.2⟩

theorem mono (h : Keeps s t ks) (sub : ks ⊆ ls) : Keeps s t ls := ⟨fun _ hg => h.rd_eq (fun m => hg (sub m)), h.2⟩

/-- An update of anything but the register file, module memory and the queue of commands. -/
theorem of_flds_eq (h : Keeps s t ks) (flds : u.flds = t.flds) (mem : u.mem = t.mem) (pending : u.pending = t.pending) : Keeps s u ks :=
  h.trans ⟨fun g _ => by rw [State.rd, State.rd, flds], mem, pending⟩

theorem wr (h : Keeps s t ks) {f : FRef} (v : Nat) (hf : f.key ∈ ks) : Keeps s (t.wr f v) ks :=
  h.trans ⟨fun g hg => State.rd_wr_ne t v (fun (e : g.key = f.key) => hg (e ▸ hf)), rfl, rfl⟩

theorem foldl {α : Type} {l : List α} {f : State → α → State} (h : Keeps s t ks) (step : ∀ a ∈ l, ∀ u, Keeps u (f u a) ks) :
    Keeps s (l.foldl f t) ks := by
  induction l generalizing t with
  | nil => exact h
  | cons a l ih => exact ih (h.trans (step a List.mem_cons_self t)) (fun b hb => step b (List.mem_cons_of_mem a hb))

end Sys2Proof.Machine.Keeps
end

section
/-!
SUPPORT. The arbiter's order (R34): a command that finds it idle begins at once, and the one that is alone in it leaves it idle.
-/
namespace Sys2Proof.Machine

namespace State

theorem gated_of_reaches {s : State} {m : Master} {off : Nat} (h : Reaches s m off) (f : State → State) : s.gated m off f = f s := by
  rw [gated, h]

theorem rdB_eq_false {s : State} {f : FRef} (h : s.rd f = 0) : s.rdB f = false := by rw [rdB_def, h]; rfl

/-- The order holds one command, which is in execution. -/
def beginning (s : State) (c : ArbCmd) : State := s.withArb { s.arb with queue := [c], begun := true }

/-- No command is in the order any more. -/
def emptied (s : State) : State := s.withArb { s.arb with queue := [], begun := false }

theorem endCmd_arb (s : State) (c : ArbCmd) (r : Nat) : (s.endCmd c r).arb = s.arb := by
  have irq : ∀ (u : State) (n : Nat), (u.glbIrq n).arb = u.arb := by
    intro u n
    simp only [glbIrq, vector, sendMsg]
    split_ifs <;> rfl
  cases c <;> simp only [endCmd, irq, wr_arb, wrB_arb, bump_arb]

theorem idle_emptied_endCmd (s : State) (c : ArbCmd) (r : Nat) : Idle (s.emptied.endCmd c r) := by
  rw [Idle, endCmd_arb]
  exact ⟨rfl, rfl⟩

theorem runOrder_of_queue_nil {s : State} (h : s.arb.queue = []) (n : Nat) : runOrder n s = s := by
  cases n with
  | zero => rfl
  | succ n => simp only [runOrder, h]

theorem pushOrder_of_idle {s : State} (idle : Idle s) (c : ArbCmd) :
    s.pushOrder c = match (s.beginning c).beginCmd c with
      | (t, none) => t
      | (t, some r) => runOrder 1 (t.emptied.endCmd c r) := by
  obtain ⟨queue, begun⟩ := idle
  simp only [pushOrder, queue, List.nil_append, List.length_nil]
  simp only [runOrder, withArb_arb, begun]
  rfl

/-- A command that an idle order takes and that runs on. -/
theorem pushOrder_of_runs {s t : State} {c : ArbCmd} (idle : Idle s) (h : (s.beginning c).beginCmd c = (t, none)) : s.pushOrder c = t := by
  rw [pushOrder_of_idle idle, h]

/-- A command that an idle order takes and that ends at once. -/
theorem pushOrder_of_ends {s t : State} {c : ArbCmd} {r : Nat} (idle : Idle s) (h : (s.beginning c).beginCmd c = (t, some r)) :
    s.pushOrder c = t.emptied.endCmd c r := by
  rw [pushOrder_of_idle idle, h]
  exact runOrder_of_queue_nil (idle_emptied_endCmd t c r).1 1

theorem endHead_of_single {s : State} {c : ArbCmd} (h : s.arb.queue = [c]) (r : Nat) : s.endHead r = s.emptied.endCmd c r := by
  simp only [endHead, h]
  exact runOrder_of_queue_nil (idle_emptied_endCmd s c r).1 _

end State
end Sys2Proof.Machine
end

section
/-!
SUPPORT. Ports that leave DISABLED when nothing holds them (R104), alone and as the ports of a lane tile that starts (R13, R95).
-/
namespace Sys2Proof.Machine

theorem lnkState_key_inj {p q : Nat} (h : (R.LNK_STAT_STATE (p / 2) (p % 2)).key = (R.LNK_STAT_STATE (q / 2) (q % 2)).key) : p = q := by
  dsimp only at h
  omega

namespace State

/-- The register fields that decide whether something holds port p in DISABLED. -/
def heldFields (p : Nat) : List FRef :=
  [R.LT_TILE_STAT_WIDTH (p / 2 / 8), R.LNK_CTL_DISABLE (p / 2) (p % 2), R.GLB_ISO_MAP_ISO ((16 + p / 2) / 64), R.GLB_ISO_MAP_ISO (p / 2 / 8 / 64),
    R.FLT_UNIT_STATE (16 + p / 2), R.FLT_UNIT_STATE (p / 2 / 8), R.GLB_MODE_STAT_VARIANT, R.GLB_ISLAND_STAT_ISL (p / 2 / 8),
    R.GLB_ISLAND_STAT_ISL (p / 16), R.FLT_STATUS_RESET_REQ, R.GLB_MODE_STAT_MODE, R.STK_STAT_PRESENT, R.STK_CFG_MEMBER]

theorem isS0_congr {s t : State} (h : t.rd R.GLB_MODE_STAT_VARIANT = s.rd R.GLB_MODE_STAT_VARIANT) : t.isS0 = s.isS0 := by
  simp only [isS0, rdB, h]

theorem island_congr {s t : State} {k : Nat} (variant : t.rd R.GLB_MODE_STAT_VARIANT = s.rd R.GLB_MODE_STAT_VARIANT)
    (isl : t.rd (R.GLB_ISLAND_STAT_ISL k) = s.rd (R.GLB_ISLAND_STAT_ISL k)) : t.island k = s.island k := by
  simp only [island, isS0_congr variant, isl]

theorem unitDown_congr {s t : State} {u : Nat} (flt : t.flt = s.flt) (unit : t.rd (R.FLT_UNIT_STATE u) = s.rd (R.FLT_UNIT_STATE u)) :
    t.unitDown u = s.unitDown u := by
  simp only [unitDown, unit, flt]

theorem isolated_congr {s t : State} {u : Nat} (iso : t.rd (R.GLB_ISO_MAP_ISO (u / 64)) = s.rd (R.GLB_ISO_MAP_ISO (u / 64))) :
    t.isolated u = s.isolated u := by
  simp only [isolated, iso]

theorem groupWidth_congr {s t : State} {g : Nat} (width : t.rd (R.LT_TILE_STAT_WIDTH (g / 8)) = s.rd (R.LT_TILE_STAT_WIDTH (g / 8))) :
    t.groupWidth g = s.groupWidth g := by
  simp only [groupWidth, width]

theorem heldDisabled_congr {s t : State} {p : Nat} (rd : ∀ g ∈ heldFields p, t.rd g = s.rd g) (flt : t.flt = s.flt)
    (stopped : (t.port p).stopped = (s.port p).stopped) (stack : (t.port p).stack = (s.port p).stack) :
    t.heldDisabled p = s.heldDisabled p := by
  simp only [heldFields, List.forall_mem_cons, List.not_mem_nil, false_imp_iff, implies_true, and_true] at rd
  obtain ⟨width, disable, iso, isoTile, unit, unitTile, variant, isl, isl', req, mode_, present, member⟩ := rd
  simp only [heldDisabled, formed, groupDown, groupIsolated, refuses, mode, rdB, groupWidth_congr width, isolated_congr iso, isolated_congr isoTile,
    unitDown_congr flt unit, unitDown_congr flt unitTile, island_congr variant isl, island_congr variant isl', disable, req, mode_, present, member,
    stopped, stack]

theorem port_setPort (s : State) (p q : Nat) (v : PortSt) : (s.setPort p v).port q = if q = p then v else s.port q := SMap.get_set _ _ _ _ _

theorem port_modPort (s : State) (p q : Nat) (f : PortSt → PortSt) :
    (s.modPort p f).port q = if q = p then f (s.port q) else s.port q := by
  rw [modPort, port_setPort]
  split_ifs with h
  · rw [h]
  · rfl

theorem keeps_setPort (s : State) (p : Nat) (v : PortSt) (ks : List Nat) : Keeps s (s.setPort p v) ks := (Keeps.refl s ks).of_flds_eq rfl rfl rfl

theorem keeps_modPort (s : State) (p : Nat) (f : PortSt → PortSt) (ks : List Nat) : Keeps s (s.modPort p f) ks := keeps_setPort s p _ ks

theorem linkState_setLinkState (s : State) (p q : Nat) : (s.setLinkState p 1).linkState q = if q = p then 1 else s.linkState q := by
  split_ifs with h
  · rw [h]; exact rd_wr_self s _ 1
  · exact rd_wr_ne s 1 (fun e => h (lnkState_key_inj e))

theorem leaveDisabled_of_held {s : State} {p : Nat} (h : ¬ (s.linkState p = 0 ∧ s.heldDisabled p = false)) : s.leaveDisabled p = s := by
  rw [leaveDisabled, if_neg (by simpa using h)]

theorem leaveDisabled_of_free {s : State} {p : Nat} (h : s.linkState p = 0 ∧ s.heldDisabled p = false) :
    s.leaveDisabled p = (s.setLinkState p 1).modPort p (fun st => { st with resetAt := s.now, line := {}, lreset := none }) := by
  rw [leaveDisabled, if_pos (by simpa using h)]
  rfl

theorem keeps_leaveDisabled (s : State) (p : Nat) : Keeps s (s.leaveDisabled p) [(R.LNK_STAT_STATE (p / 2) (p % 2)).key] := by
  by_cases h : s.linkState p = 0 ∧ s.heldDisabled p = false
  · rw [leaveDisabled_of_free h]
    exact ((Keeps.refl s _).wr 1 List.mem_cons_self).of_flds_eq rfl rfl rfl
  · rw [leaveDisabled_of_held h]
    exact Keeps.refl s _

theorem linkState_leaveDisabled (s : State) (p q : Nat) :
    (s.leaveDisabled q).linkState p = if p = q ∧ s.linkState p = 0 ∧ s.heldDisabled p = false then 1 else s.linkState p := by
  by_cases h : s.linkState q = 0 ∧ s.heldDisabled q = false
  · rw [leaveDisabled_of_free h]
    refine (linkState_setLinkState s q p).trans ?_
    by_cases e : p = q
    · rw [if_pos e, if_pos ⟨e, e ▸ h⟩]
    · rw [if_neg e, if_neg (fun c => e c.1)]
  · rw [leaveDisabled_of_held h, if_neg]
    rintro ⟨rfl, c⟩
    exact h c

/-- A port that leaves DISABLED changes in its transmit stream and the time of its reset only. -/
theorem port_leaveDisabled (s : State) (p q : Nat) : ∃ at_ line lreset,
    (s.leaveDisabled q).port p = { s.port p with resetAt := at_, line := line, lreset := lreset } := by
  by_cases h : s.linkState q = 0 ∧ s.heldDisabled q = false
  · rw [leaveDisabled_of_free h, port_modPort]
    split_ifs
    · exact ⟨_, _, _, rfl⟩
    · exact ⟨_, _, _, rfl⟩
  · rw [leaveDisabled_of_held h]
    exact ⟨_, _, _, rfl⟩

theorem flt_leaveDisabled (s : State) (p : Nat) : (s.leaveDisabled p).flt = s.flt := by
  unfold leaveDisabled
  split_ifs <;> rfl

theorem heldFields_key_ne {p : Nat} (hp : p < 256) (q : Nat) : ∀ g ∈ heldFields p, g.key ≠ (R.LNK_STAT_STATE (q / 2) (q % 2)).key := by
  simp only [heldFields, List.forall_mem_cons, List.not_mem_nil, false_imp_iff, implies_true, and_true]
  omega

theorem heldDisabled_leaveDisabled (s : State) {p : Nat} (hp : p < 256) (q : Nat) : (s.leaveDisabled q).heldDisabled p = s.heldDisabled p := by
  obtain ⟨_, _, _, port⟩ := port_leaveDisabled s p q
  refine heldDisabled_congr (fun g hg => (keeps_leaveDisabled s q).rd_eq ?_) (flt_leaveDisabled s q) (by rw [port]) (by rw [port])
  rw [List.mem_singleton]
  exact heldFields_key_ne hp q g hg

theorem linkState_foldl_leaveDisabled (s : State) (l : List Nat) {p : Nat} (hp : p < 256) :
    (l.foldl leaveDisabled s).linkState p = if p ∈ l ∧ s.linkState p = 0 ∧ s.heldDisabled p = false then 1 else s.linkState p := by
  induction l generalizing s with
  | nil => simp
  | cons q l ih =>
    rw [List.foldl_cons, ih, heldDisabled_leaveDisabled s hp, linkState_leaveDisabled]
    by_cases e : p = q
    · subst e
      by_cases h : s.linkState p = 0 ∧ s.heldDisabled p = false <;> simp [h]
    · simp [e]

end State
end Sys2Proof.Machine
end

section
/-!
SUPPORT. A lane tile and its ports under STOP, PARK, WAKE and RESET (R13, R95, R480, R481).
-/
namespace Sys2Proof.Machine

/-- The fields that show the state of lane tile k. -/
abbrev tileKeys (k : Nat) : List Nat := [(R.GLB_ISLAND_STAT_ISL k).key, (R.LT_TILE_STAT_STATE k).key]

/-- The link states of the ports of lane tile k. -/
abbrev tileLinkKeys (k : Nat) : List Nat :=
  (List.range 16).map (fun i => (R.LNK_STAT_STATE ((16 * k + i) / 2) ((16 * k + i) % 2)).key)

/-- The fields of PWR_ISL_STAT that an island command writes (R480). -/
abbrev islandStatKeys : List Nat := [R.PWR_ISL_STAT_BUSY.key, R.PWR_ISL_STAT_LAST_ISLAND.key, R.PWR_ISL_STAT_RESULT.key]

theorem not_mem_tileLinkKeys {f : FRef} {k : Nat} (h : f.key < 8 * 0x200008) : f.key ∉ tileLinkKeys k := by
  intro m
  obtain ⟨i, -, e⟩ := List.mem_map.1 m
  dsimp only at e
  omega

namespace State

theorem island_of_tile (s : State) {k : Nat} (hk : k < 16) : s.island k = s.rd (R.GLB_ISLAND_STAT_ISL k) := by
  rw [island, if_neg]
  simp only [Bool.and_eq_true, decide_eq_true_eq]
  omega

theorem setIsland_of_tile (s : State) {k : Nat} (hk : k < 16) (v : Nat) :
    s.setIsland k v = (s.wr (R.GLB_ISLAND_STAT_ISL k) v).wr (R.LT_TILE_STAT_STATE k) v := if_pos hk

theorem keeps_setIsland (s : State) {k : Nat} (hk : k < 16) (v : Nat) : Keeps s (s.setIsland k v) (tileKeys k) := by
  rw [setIsland_of_tile s hk]
  exact ((Keeps.refl s _).wr v (by simp)).wr v (by simp)

/-- GLB_ISLAND_STAT and LT_TILE_STAT show a state of a lane tile. -/
theorem rd_setIsland_of_tile (s : State) {k : Nat} (hk : k < 16) (v : Nat) :
    (s.setIsland k v).rd (R.GLB_ISLAND_STAT_ISL k) = v % 4 ∧ (s.setIsland k v).rd (R.LT_TILE_STAT_STATE k) = v % 4 := by
  rw [setIsland_of_tile s hk]
  exact ⟨(rd_wr_ne _ v (by dsimp only; omega)).trans (rd_wr_self s _ v), rd_wr_self _ _ v⟩

/-- The ports of lane tile k that nothing holds leave DISABLED. -/
def startPorts (s : State) (k : Nat) : State := (List.range 16).foldl (fun s i => s.leaveDisabled (16 * k + i)) s

theorem startPorts_eq_foldl (s : State) (k : Nat) : s.startPorts k = ((List.range 16).map (16 * k + ·)).foldl leaveDisabled s := by
  rw [startPorts, List.foldl_map]

theorem keeps_startPorts (s : State) (k : Nat) : Keeps s (s.startPorts k) (tileLinkKeys k) :=
  (Keeps.refl s _).foldl (fun _ hi u => (keeps_leaveDisabled u _).mono (List.cons_subset.2 ⟨List.mem_map_of_mem hi, List.nil_subset _⟩))

theorem linkState_startPorts (s : State) {k : Nat} (hk : k < 16) (i : Fin 16) : (s.startPorts k).linkState (16 * k + i.val) =
    if s.linkState (16 * k + i.val) = 0 ∧ s.heldDisabled (16 * k + i.val) = false then 1 else s.linkState (16 * k + i.val) := by
  have m : 16 * k + i.val ∈ (List.range 16).map (16 * k + ·) := List.mem_map_of_mem (List.mem_range.2 i.isLt)
  rw [startPorts_eq_foldl, linkState_foldl_leaveDisabled s _ (by omega)]
  simp only [m, true_and]

theorem wake_of_not_stopped {s : State} {k : Nat} (h : s.island k ≠ 1) : s.wake k = s := if_neg h

theorem wake_of_tile {s : State} {k : Nat} (hk : k < 16) (h : s.rd (R.GLB_ISLAND_STAT_ISL k) = 1) :
    s.wake k = (s.setIsland k 0).startPorts k := by
  rw [wake, if_pos ((island_of_tile s hk).trans h)]
  exact if_pos hk

/-- Lane tile k runs in t, and its ports of s that nothing holds once it runs have left DISABLED. -/
def Woken (s t : State) (k : Nat) : Prop :=
  (t.rd (R.GLB_ISLAND_STAT_ISL k) = 0 ∧ t.rd (R.LT_TILE_STAT_STATE k) = 0) ∧
    ∀ i : Fin 16, t.linkState (16 * k + i.val) =
      if s.linkState (16 * k + i.val) = 0 ∧ (s.setIsland k 0).heldDisabled (16 * k + i.val) = false then 1 else s.linkState (16 * k + i.val)

theorem rd_startPorts_tile (s : State) {k : Nat} (hk : k < 16) (v : Nat) :
    ((s.setIsland k v).startPorts k).rd (R.GLB_ISLAND_STAT_ISL k) = v % 4 ∧
      ((s.setIsland k v).startPorts k).rd (R.LT_TILE_STAT_STATE k) = v % 4 := by
  have keep := keeps_startPorts (s.setIsland k v) k
  obtain ⟨isl, state⟩ := rd_setIsland_of_tile s hk v
  exact ⟨(keep.rd_eq (not_mem_tileLinkKeys (by dsimp only; omega))).trans isl,
    (keep.rd_eq (not_mem_tileLinkKeys (by dsimp only; omega))).trans state⟩

theorem linkState_setIsland (s : State) {k : Nat} (hk : k < 16) (v p : Nat) : (s.setIsland k v).linkState p = s.linkState p := by
  refine (keeps_setIsland s hk v).rd_eq ?_
  simp only [List.mem_cons, List.not_mem_nil, or_false]
  omega

theorem woken_wake {s : State} {k : Nat} (hk : k < 16) (h : s.rd (R.GLB_ISLAND_STAT_ISL k) = 1) :
    Woken s (s.wake k) k ∧ Keeps s (s.wake k) (tileKeys k ++ tileLinkKeys k) := by
  rw [wake_of_tile hk h]
  refine ⟨⟨rd_startPorts_tile s hk 0, fun i => ?_⟩, ?_⟩
  · rw [linkState_startPorts _ hk, linkState_setIsland s hk]
  · exact ((keeps_setIsland s hk 0).mono (List.subset_append_left _ _)).trans
      ((keeps_startPorts _ k).mono (List.subset_append_right _ _))

theorem resetTile_ends_running (s : State) (k : Nat) : ∃ u : State, s.resetTile k = (u.setIsland k 0).startPorts k := ⟨_, rfl⟩

theorem rd_resetTile_island (s : State) {k : Nat} (hk : k < 16) : (s.resetTile k).rd (R.GLB_ISLAND_STAT_ISL k) = 0 := by
  obtain ⟨u, e⟩ := resetTile_ends_running s k
  rw [e, (rd_startPorts_tile u hk 0).1]

theorem resetIsland_of_tile (s : State) {k : Nat} (hk : k < 16) : s.resetIsland k = s.resetTile k := if_pos hk

end State
end Sys2Proof.Machine
end

section
/-!
SUPPORT. Island commands at a lane tile in service (R480): what each begins, and what it leaves in PWR_ISL_STAT.
-/
namespace Sys2Proof.Machine

namespace State

/-- PWR_ISL_STAT after a command on island k has been taken. -/
def islandTaken (s : State) (k : Nat) : State := (s.wr R.PWR_ISL_STAT_LAST_ISLAND k).wr R.PWR_ISL_STAT_BUSY 1

theorem islandWrite_of_reaches {s : State} {m : Master} (reaches : Reaches s m 0x20040) (free : s.rd R.PWR_ISL_STAT_BUSY = 0) (k a : Nat) :
    s.islandWrite m k a = (s.islandTaken k).pushOrder (.island k a) := by
  rw [islandWrite, gated_of_reaches reaches, rdB_eq_false free]
  rfl

/-- Lane tile k takes island commands: the module is not in Recovery mode, and nothing keeps the tile out of service (R480). -/
structure TileServes (s : State) (k : Nat) : Prop where
  tile : k < 16
  recovery : s.inRecovery = false
  isolated : s.isolated k = false
  stopped : s.arb.stoppedUnits = []
  tested : s.rd (R.GLB_ISLAND_STAT_ISL k) ≠ 3

theorem beginIsland_of_serves {s : State} {k : Nat} (h : TileServes s k) (a : Nat) :
    s.beginIsland k a =
      if a = 2 then (if s.rd (R.GLB_ISLAND_STAT_ISL k) = 2 then (s, some 2) else (s.wake k, some 0))
      else if s.rd (R.GLB_ISLAND_STAT_ISL k) = 2 ∧ a ≠ 4 then (s, some (if a = 3 then 0 else 2))
      else if !s.islandMay k a then (s, some 2)
      else if a = 1 then (s.setIsland k 1, none)
      else if a = 3 then (s.setIslandState k 2, none)
      else (s.resetIsland k, none) := by
  obtain ⟨tile, recovery, isolated, stopped, tested⟩ := h
  have absent : ¬ (26 ≤ k ∨ (s.isS0 = true ∧ 19 ≤ k ∧ k ≤ 22)) := by omega
  simp only [beginIsland, recovery, absent, island_of_tile s tile, tested, isolated, unitStopped, stopped, if_pos tile, if_false, Bool.or_false,
    decide_false, List.contains_nil, Bool.false_eq_true]

theorem islandMay_of_ports_down {s : State} {k : Nat} (hk : k < 16) (down : ∀ i : Fin 16, s.linkState (16 * k + i.val) = 0) (a : Nat) :
    s.islandMay k a = true := by
  rw [islandMay, if_pos hk, Bool.or_eq_true]
  exact .inr (List.all_eq_true.2 (fun i hi => beq_iff_eq.2 (down ⟨i, List.mem_range.1 hi⟩)))

theorem islandMay_reset {s : State} {k : Nat} (hk : k < 16) : s.islandMay k 4 = true := by
  rw [islandMay, if_pos hk]
  rfl

theorem keeps_islandTaken (s : State) (k : Nat) (c : ArbCmd) : Keeps s ((s.islandTaken k).beginning c) islandStatKeys :=
  (((Keeps.refl s _).wr (f := R.PWR_ISL_STAT_LAST_ISLAND) k (by simp)).wr (f := R.PWR_ISL_STAT_BUSY) 1 (by simp)).of_flds_eq rfl rfl rfl

theorem rd_islandTaken (s : State) {k : Nat} (hk : k < 16) (c : ArbCmd) :
    ((s.islandTaken k).beginning c).rd R.PWR_ISL_STAT_BUSY = 1 ∧ ((s.islandTaken k).beginning c).rd R.PWR_ISL_STAT_LAST_ISLAND = k := by
  refine ⟨rd_wr_self _ R.PWR_ISL_STAT_BUSY 1, ?_⟩
  refine (rd_wr_ne _ (f := R.PWR_ISL_STAT_BUSY) 1 (by decide)).trans ((rd_wr_self s R.PWR_ISL_STAT_LAST_ISLAND k).trans (Nat.mod_eq_of_lt ?_))
  dsimp only
  omega

theorem not_mem_islandStatKeys {f : FRef} (h : f.key / 64 ≠ 0x20048 / 8) : f.key ∉ islandStatKeys := by
  simp only [List.mem_cons, List.not_mem_nil, or_false]
  omega

theorem TileServes.islandTaken {s : State} {k : Nat} (h : TileServes s k) (c : ArbCmd) : TileServes ((s.islandTaken k).beginning c) k := by
  obtain ⟨tile, recovery, isolated, stopped, tested⟩ := h
  have keep := keeps_islandTaken s k c
  refine ⟨tile, ?_, (isolated_congr (keep.rd_eq (not_mem_islandStatKeys (by dsimp only; omega)))).trans isolated, stopped, ?_⟩
  · rw [← recovery]
    exact congrArg (· == 0) (keep.rd_eq (not_mem_islandStatKeys (by decide)))
  · rwa [keep.rd_eq (not_mem_islandStatKeys (by dsimp only; omega))]

theorem linkState_islandTaken (s : State) (k : Nat) (c : ArbCmd) {p : Nat} : ((s.islandTaken k).beginning c).linkState p = s.linkState p :=
  (keeps_islandTaken s k c).rd_eq (not_mem_islandStatKeys (by dsimp only; omega))

/-- STOP and PARK of a tile whose ports are DISABLED begin; they run on. -/
theorem islandWrite_of_ports_down {s : State} {m : Master} {k a v : Nat} (serves : TileServes s k) (reaches : Reaches s m 0x20040)
    (idle : Idle s) (free : s.rd R.PWR_ISL_STAT_BUSY = 0) (running : s.rd (R.GLB_ISLAND_STAT_ISL k) = 0)
    (down : ∀ i : Fin 16, s.linkState (16 * k + i.val) = 0) (action : a = 1 ∧ v = 1 ∨ a = 3 ∧ v = 2) :
    s.islandWrite m k a = ((s.islandTaken k).beginning (.island k a)).setIsland k v := by
  have tile := serves.tile
  rw [islandWrite_of_reaches reaches free]
  refine pushOrder_of_runs idle ?_
  have running' : ((s.islandTaken k).beginning (.island k a)).rd (R.GLB_ISLAND_STAT_ISL k) = 0 :=
    ((keeps_islandTaken s k _).rd_eq (not_mem_islandStatKeys (by dsimp only; omega))).trans running
  have may := islandMay_of_ports_down tile (fun i => (linkState_islandTaken s k (.island k a)).trans (down i)) a
  rw [beginCmd, beginIsland_of_serves (serves.islandTaken _), running', may]
  obtain ⟨rfl, rfl⟩ | ⟨rfl, rfl⟩ := action
  · rfl
  · have other : k ≠ 17 ∧ k ≠ 18 := by omega
    simp [setIslandState, other]

/-- WAKE of a stopped tile starts it and ends at once. -/
theorem islandWrite_wake {s : State} {m : Master} {k : Nat} (serves : TileServes s k) (reaches : Reaches s m 0x20040)
    (idle : Idle s) (free : s.rd R.PWR_ISL_STAT_BUSY = 0) (stopped : s.rd (R.GLB_ISLAND_STAT_ISL k) = 1) :
    s.islandWrite m k 2 = (((s.islandTaken k).beginning (.island k 2)).wake k).emptied.endCmd (.island k 2) 0 := by
  have tile := serves.tile
  rw [islandWrite_of_reaches reaches free]
  refine pushOrder_of_ends idle ?_
  have stopped' : ((s.islandTaken k).beginning (.island k 2)).rd (R.GLB_ISLAND_STAT_ISL k) = 1 :=
    ((keeps_islandTaken s k _).rd_eq (not_mem_islandStatKeys (by dsimp only; omega))).trans stopped
  rw [beginCmd, beginIsland_of_serves (serves.islandTaken _), stopped']
  rfl

/-- RESET of a tile begins its island reset; it runs on. -/
theorem islandWrite_reset {s : State} {m : Master} {k : Nat} (serves : TileServes s k) (reaches : Reaches s m 0x20040)
    (idle : Idle s) (free : s.rd R.PWR_ISL_STAT_BUSY = 0) :
    s.islandWrite m k 4 = ((s.islandTaken k).beginning (.island k 4)).resetIsland k := by
  rw [islandWrite_of_reaches reaches free]
  refine pushOrder_of_runs idle ?_
  rw [beginCmd, beginIsland_of_serves (serves.islandTaken _), islandMay_reset serves.tile]
  simp

theorem rd_wr_congr {s t : State} {f g : FRef} {v : Nat} (h : t.rd g = s.rd g) : (t.wr f v).rd g = (s.wr f v).rd g := by
  rw [rd_wr, rd_wr, h]

theorem heldFields_not_islandStat {p : Nat} (hp : p < 256) : ∀ g ∈ heldFields p, g.key / 64 ≠ 0x20048 / 8 := by
  simp only [heldFields, List.forall_mem_cons, List.not_mem_nil, false_imp_iff, implies_true, and_true]
  omega

/-- What `Woken` says of the tile before PWR_ISL_STAT took the command. -/
theorem Woken.of_islandTaken {s t : State} {k : Nat} (hk : k < 16) {c : ArbCmd} (h : Woken ((s.islandTaken k).beginning c) t k) : Woken s t k := by
  obtain ⟨shown, links⟩ := h
  refine ⟨shown, fun i => ?_⟩
  have held : (((s.islandTaken k).beginning c).setIsland k 0).heldDisabled (16 * k + i.val) = (s.setIsland k 0).heldDisabled (16 * k + i.val) := by
    rw [setIsland_of_tile _ hk, setIsland_of_tile _ hk]
    refine heldDisabled_congr (fun g hg => rd_wr_congr (rd_wr_congr ?_)) rfl rfl rfl
    exact (keeps_islandTaken s k c).rd_eq (not_mem_islandStatKeys (heldFields_not_islandStat (by omega) g hg))
  rw [links i, held, linkState_islandTaken]

/-- PWR_ISL_STAT shows nothing of the tile itself. -/
theorem Woken.of_keeps {s t u : State} {k : Nat} (hk : k < 16) (h : Woken s t k) (keep : Keeps t u islandStatKeys) : Woken s u k := by
  obtain ⟨⟨isl, state⟩, links⟩ := h
  refine ⟨⟨?_, ?_⟩, fun i => ?_⟩
  · rw [keep.rd_eq (not_mem_islandStatKeys (by dsimp only; omega)), isl]
  · rw [keep.rd_eq (not_mem_islandStatKeys (by dsimp only; omega)), state]
  · rw [linkState, keep.rd_eq (not_mem_islandStatKeys (by dsimp only; omega)), ← links i, linkState]

theorem keeps_emptied_endCmd_island (s : State) (k a r : Nat) :
    Keeps s (s.emptied.endCmd (.island k a) r) [R.PWR_ISL_STAT_BUSY.key, R.PWR_ISL_STAT_RESULT.key] :=
  (((Keeps.refl s _).of_flds_eq rfl rfl rfl).wr (f := R.PWR_ISL_STAT_BUSY) 0 (by simp)).wr (f := R.PWR_ISL_STAT_RESULT) r (by simp)

theorem rd_emptied_endCmd_island (s : State) (k a : Nat) :
    (s.emptied.endCmd (.island k a) 0).rd R.PWR_ISL_STAT_BUSY = 0 ∧ (s.emptied.endCmd (.island k a) 0).rd R.PWR_ISL_STAT_RESULT = 0 :=
  ⟨(rd_wr_ne _ (f := R.PWR_ISL_STAT_RESULT) 0 (by decide)).trans (rd_wr_self _ R.PWR_ISL_STAT_BUSY 0), rd_wr_self _ R.PWR_ISL_STAT_RESULT 0⟩

end State
end Sys2Proof.Machine
end

section
/-!
Island commands (R13, R95, R480, R481).
-/
namespace Sys2Proof.Machine
open State

section
variable {m : Master} {k : Nat} {s : State} (serves : TileServes s k) (reaches : Reaches s m 0x20040) (idle : Idle s)
  (free : s.rd R.PWR_ISL_STAT_BUSY = 0)
include serves reaches idle free

theorem islandWrite_stops_tile {a v : Nat} (running : s.rd (R.GLB_ISLAND_STAT_ISL k) = 0)
    (down : ∀ i : Fin 16, s.linkState (16 * k + i.val) = 0) (action : a = 1 ∧ v = 1 ∨ a = 3 ∧ v = 2) :
    let t := s.islandWrite m k a
    (t.rd (R.GLB_ISLAND_STAT_ISL k) = v ∧ t.rd (R.LT_TILE_STAT_STATE k) = v) ∧ t.rd R.PWR_ISL_STAT_BUSY = 1 ∧
      t.rd R.PWR_ISL_STAT_LAST_ISLAND = k ∧ Keeps s t (tileKeys k ++ islandStatKeys) := by
  have tile := serves.tile
  have small : v % 4 = v := by omega
  have shown := rd_setIsland_of_tile ((s.islandTaken k).beginning (.island k a)) tile v
  have keep := keeps_setIsland ((s.islandTaken k).beginning (.island k a)) tile v
  obtain ⟨busy, last⟩ := rd_islandTaken s tile (.island k a)
  rw [small] at shown
  dsimp only
  rw [islandWrite_of_ports_down serves reaches idle free running down action]
  refine ⟨shown, ?_, ?_, ?_⟩
  · rw [keep.rd_eq (by simp; omega), busy]
  · rw [keep.rd_eq (by simp; omega), last]
  · exact ((keeps_islandTaken s k _).mono (List.subset_append_right _ _)).trans (keep.mono (List.subset_append_left _ _))

theorem islandWrite_wakes_tile (stopped : s.rd (R.GLB_ISLAND_STAT_ISL k) = 1) :
    let t := s.islandWrite m k 2
    Woken s t k ∧ t.rd R.PWR_ISL_STAT_BUSY = 0 ∧ t.rd R.PWR_ISL_STAT_RESULT = 0 ∧ t.rd R.PWR_ISL_STAT_LAST_ISLAND = k ∧
      Keeps s t (tileKeys k ++ tileLinkKeys k ++ islandStatKeys) := by
  have tile := serves.tile
  let b := (s.islandTaken k).beginning (.island k 2)
  have taken : Keeps s b islandStatKeys := keeps_islandTaken s k _
  have stopped' : b.rd (R.GLB_ISLAND_STAT_ISL k) = 1 := (taken.rd_eq (not_mem_islandStatKeys (by dsimp only; omega))).trans stopped
  obtain ⟨woken, wakes⟩ := woken_wake tile stopped'
  have ends := keeps_emptied_endCmd_island (b.wake k) k 2 0
  obtain ⟨busy, result⟩ := rd_emptied_endCmd_island (b.wake k) k 2
  have last : b.rd R.PWR_ISL_STAT_LAST_ISLAND = k := (rd_islandTaken s tile _).2
  dsimp only
  rw [islandWrite_wake serves reaches idle free stopped]
  have apart : R.PWR_ISL_STAT_LAST_ISLAND.key ∉ tileKeys k ++ tileLinkKeys k := by
    rw [List.mem_append, not_or]
    exact ⟨by simp; omega, not_mem_tileLinkKeys (by decide)⟩
  refine ⟨(woken.of_islandTaken tile).of_keeps tile (ends.mono (by simp)), busy, result, ?_, ?_⟩
  · exact (ends.rd_eq (by decide)).trans ((wakes.rd_eq apart).trans last)
  · exact ((taken.mono (List.subset_append_right _ _)).trans (wakes.mono (List.subset_append_left _ _))).trans
      (ends.mono (List.Subset.trans (by simp) (List.subset_append_right _ _)))

end

/-- The meaning of the island commands and of WAKE_REQUEST. -/
theorem islandCommands : Claims.IslandCommands := by
  refine ⟨fun m k s => ⟨fun stopped => ⟨_, rfl, woken_wake k.isLt stopped⟩, fun reaches idle free recovery iso units => ?_⟩,
    fun k s h => congrArg Host.Outcome.next (wake_of_not_stopped h), fun s k a queue begun => ?_⟩
  · have number : (BitVec.ofNat 5 k.val).toNat = k.val := by
      rw [BitVec.toNat_ofNat, Nat.mod_eq_of_lt (by omega)]
    have write : ∀ a, Host.Outcome.next (s.islandWrite m (BitVec.ofNat 5 k.val).toNat a) = (.next (s.islandWrite m k.val a) : Out) :=
      fun a => by rw [number]
    have serves := TileServes.mk k.isLt recovery iso units
    refine ⟨fun running down => ?_, fun stopped => ?_, fun tested => ?_⟩
    · have serves := serves (by rw [running]; decide)
      exact ⟨⟨_, write 1, islandWrite_stops_tile serves reaches idle free running down (.inl ⟨rfl, rfl⟩)⟩,
        ⟨_, write 3, islandWrite_stops_tile serves reaches idle free running down (.inr ⟨rfl, rfl⟩)⟩⟩
    · exact ⟨_, write 2, islandWrite_wakes_tile (serves (by rw [stopped]; decide)) reaches idle free stopped⟩
    · refine ⟨_, write 4, ?_⟩
      rw [islandWrite_reset (serves tested) reaches idle free]
      exact ⟨(congrArg (rd · _) (resetIsland_of_tile _ k.isLt)).trans (rd_resetTile_island _ k.isLt), rfl⟩
  · obtain ⟨busy, result⟩ := rd_emptied_endCmd_island s k a
    refine ⟨s.emptied.endCmd (.island k a) 0, ?_, busy, result, idle_emptied_endCmd s _ _, keeps_emptied_endCmd_island s k a 0⟩
    rw [← endHead_of_single queue]
    show execIslandActionDone s = _
    rw [execIslandActionDone, queue]

end Sys2Proof.Machine
end

section
/-!
Castle strobes (R387, R388).
-/
namespace Sys2Proof.Machine
open State

/-- GLB_STROBE_STAT while a strobe with this mask waits or runs (R388). -/
def State.strobeShown (s : State) (mask : Nat) : State :=
  ((s.wr R.GLB_STROBE_STAT_BUSY 1).wr R.GLB_STROBE_STAT_MASK_PARTS mask).wr R.GLB_STROBE_STAT_MASK_TILES (mask / 2 ^ 16)

theorem execGlbStrobe_of_accepted {m : Master} {mask : BitVec 64} {s : State} (reaches : Reaches s m 0x200) (idle : Idle s)
    (free : s.rd R.GLB_STROBE_STAT_BUSY = 0) (recovery : s.inRecovery = false) (legal : maskOk mask.toNat = true) :
    exec (.glbStrobe m .full mask) s = .next ((s.strobeShown mask.toNat).beginning (.strobe mask.toNat .reg)) := by
  have begins : s.acceptStrobe mask.toNat .reg = (s.strobeShown mask.toNat).beginning (.strobe mask.toNat .reg) :=
    pushOrder_of_runs (s := s.strobeShown mask.toNat) idle rfl
  show execGlbStrobe m .full mask s = _
  rw [execGlbStrobe, gated_of_reaches reaches, rdB_eq_false free, recovery, if_pos rfl, ← begins]
  simp [legal, coversLow]

theorem rd_strobeShown (s : State) (mask : Nat) :
    (s.strobeShown mask).rd R.GLB_STROBE_STAT_BUSY = 1 ∧ (s.strobeShown mask).rd R.GLB_STROBE_STAT_MASK_PARTS = bitsOf mask 0 4 ∧
      (s.strobeShown mask).rd R.GLB_STROBE_STAT_MASK_TILES = bitsOf mask 16 16 := by
  refine ⟨?_, ?_, ?_⟩
  · rw [strobeShown, rd_wr_ne _ _ (by decide), rd_wr_ne _ _ (by decide), rd_wr_self]
    rfl
  · rw [strobeShown, rd_wr_ne _ _ (by decide), rd_wr_self, bitsOf_eq_div_mod, pow_zero, Nat.div_one]
  · rw [strobeShown, rd_wr_self, bitsOf_eq_div_mod]

theorem keeps_strobeShown (s : State) (mask : Nat) : Keeps s (s.strobeShown mask)
    [R.GLB_STROBE_STAT_BUSY.key, R.GLB_STROBE_STAT_MASK_PARTS.key, R.GLB_STROBE_STAT_MASK_TILES.key] :=
  (((Keeps.refl s _).wr (f := R.GLB_STROBE_STAT_BUSY) 1 (by simp)).wr (f := R.GLB_STROBE_STAT_MASK_PARTS) mask (by simp)).wr
    (f := R.GLB_STROBE_STAT_MASK_TILES) (mask / 2 ^ 16) (by simp)

/-- The strobe at the head swaps its group and ends, where no part of the group copies. -/
theorem execCastleStrobe_of_copied {mask : Nat} {src : StrobeSrc} {s : State} (queue : s.arb.queue = [.strobe mask src])
    (runs : s.rd R.FLT_ARB_STAT_STATE = 0) (copied : s.copying = []) :
    exec .castleStrobe s = .next ((s.swapGroup mask).strobeEnded src) := by
  have rest : ((maskParts mask).any s.copying.contains) = false := by simp [copied]
  have arb : s.arbRuns = true := by rw [arbRuns, runs]; rfl
  show Host.Outcome.next s.castle = _
  simp only [castle, queue, arb, rest]
  rfl

theorem strobeEnded_reg (s : State) : s.strobeEnded .reg = s.endHead 0 := rfl

theorem execCastleStrobe_of_copying {mask : Nat} {src : StrobeSrc} {s : State} (queue : s.arb.queue = [.strobe mask src])
    (copies : ∃ q ∈ maskParts mask, q ∈ s.copying) : exec .castleStrobe s = .next s := by
  have busy : ((maskParts mask).any s.copying.contains) = true := by simpa using copies
  show Host.Outcome.next s.castle = _
  simp only [castle, queue, busy, Bool.or_true, if_true]

/-- The meaning of GLB_STROBE and CASTLE_STROBE. -/
theorem castleStrobes : Claims.CastleStrobes := by
  refine ⟨fun m mask s reaches idle free recovery legal => ?_, fun mask src s queue runs => ⟨?_, ?_, ?_⟩⟩
  · obtain ⟨busy, parts, tiles⟩ := rd_strobeShown s mask.toNat
    exact ⟨_, execGlbStrobe_of_accepted reaches idle free recovery legal, busy, parts, tiles, rfl, rfl,
      (keeps_strobeShown s _).of_flds_eq rfl rfl rfl⟩
  · exact execCastleStrobe_of_copied queue runs
  · rintro copied rfl
    rw [execCastleStrobe_of_copied queue runs copied, strobeEnded_reg]
  · exact execCastleStrobe_of_copying queue

end Sys2Proof.Machine
end

section
/-!
SUPPORT. Port groups under STOP (R390, R392).
-/
namespace Sys2Proof.Machine

namespace State

theorem lnkCause_key_inj {p q : Nat} (h : (lnkCause p).key = (lnkCause q).key) : p = q := by
  dsimp only [lnkCause] at h
  omega

theorem foldl_disablePort_of_disabled (s : State) (l : List Nat) (down : ∀ p ∈ l, s.linkState p = 0) :
    l.foldl disablePort s = l.foldl (fun u p => u.wr (lnkCause p) 11) s := by
  induction l generalizing s with
  | nil => rfl
  | cons p l ih =>
    have first : s.disablePort p = s.wr (lnkCause p) 11 := if_pos (down p List.mem_cons_self)
    rw [List.foldl_cons, List.foldl_cons, first]
    exact ih _ (fun q hq => (rd_wr_ne s 11 (by dsimp only [lnkCause]; omega)).trans (down q (List.mem_cons_of_mem p hq)))

theorem keeps_foldl_wr_lnkCause (s : State) (l : List Nat) (v : Nat) :
    Keeps s (l.foldl (fun u p => u.wr (lnkCause p) v) s) (l.map (fun p => (lnkCause p).key)) :=
  (Keeps.refl s _).foldl (fun _ hp u => (Keeps.refl u _).wr v (List.mem_map_of_mem hp))

theorem rd_foldl_wr_lnkCause (s : State) (l : List Nat) (v : Nat) {p : Nat} (hp : p ∈ l) :
    (l.foldl (fun u p => u.wr (lnkCause p) v) s).rd (lnkCause p) = v % 16 := by
  induction l generalizing s with
  | nil => cases hp
  | cons q l ih =>
    rw [List.foldl_cons]
    by_cases m : p ∈ l
    · exact ih _ m
    · obtain rfl : p = q := (List.mem_cons.1 hp).resolve_right m
      refine ((keeps_foldl_wr_lnkCause _ l v).rd_eq ?_).trans (rd_wr_self s _ v)
      rintro c
      obtain ⟨q, hq, e⟩ := List.mem_map.1 c
      exact m (lnkCause_key_inj e ▸ hq)

end State
end Sys2Proof.Machine
end

section
/-!
SUPPORT. STOP of a port group whose ports are DISABLED (R390, R392).
-/
namespace Sys2Proof.Machine

/-- The fields of GLB_RECONF_STAT that a write of GLB_RECONF_CTL changes when it is taken (R390). -/
abbrev reconfTakenKeys : List Nat := [R.GLB_RECONF_STAT_LAST_KIND.key, R.GLB_RECONF_STAT_LAST_INDEX.key, R.GLB_RECONF_STAT_BUSY.key]

namespace State

/-- GLB_RECONF_STAT after an action on unit (kind, i) has been taken. -/
def reconfTaken (s : State) (kind i : Nat) : State :=
  ((s.wr R.GLB_RECONF_STAT_LAST_KIND kind).wr R.GLB_RECONF_STAT_LAST_INDEX i).wr R.GLB_RECONF_STAT_BUSY 1

theorem reconfWrite_of_reaches {s : State} {m : Master} (reaches : Reaches s m 0x300) (free : s.rd R.GLB_RECONF_STAT_BUSY = 0) (kind i a : Nat) :
    s.reconfWrite m kind i a = (s.reconfTaken kind i).pushOrder (.reconf kind i a) := by
  rw [reconfWrite, gated_of_reaches reaches, rdB_eq_false free]
  rfl

theorem keeps_reconfTaken (s : State) (kind i : Nat) (c : ArbCmd) : Keeps s ((s.reconfTaken kind i).beginning c) reconfTakenKeys :=
  ((((Keeps.refl s _).wr (f := R.GLB_RECONF_STAT_LAST_KIND) kind (by simp)).wr (f := R.GLB_RECONF_STAT_LAST_INDEX) i (by simp)).wr
    (f := R.GLB_RECONF_STAT_BUSY) 1 (by simp)).of_flds_eq rfl rfl rfl

theorem not_mem_reconfTakenKeys {f : FRef} (h : f.key / 64 ≠ 0x310 / 8) : f.key ∉ reconfTakenKeys := by
  simp only [List.mem_cons, List.not_mem_nil, or_false]
  omega

/-- Port group g can be stopped and its ports are DISABLED: neither it nor its tile is isolated,
nothing is stopped, and it forms no x8 port (R390). -/
structure GroupServes (s : State) (g : Nat) : Prop where
  group : g < 128
  isolated : s.isolated (16 + g) = false
  tile : s.isolated (g / 8) = false
  width : s.groupWidth g < 3
  stopped : s.arb.stoppedUnits = []
  down : s.linkState (2 * g) = 0 ∧ s.linkState (2 * g + 1) = 0

theorem GroupServes.of_keeps {s t : State} {g : Nat} (h : GroupServes s g) {ks : List Nat} (keep : Keeps s t ks) (arb : t.arb.stoppedUnits = [])
    (apart : ∀ k ∈ ks, k / 64 = 0x310 / 8) : GroupServes t g := by
  obtain ⟨group, isolated, tile, width, stopped, down, down'⟩ := h
  have rd : ∀ f : FRef, f.key / 64 ≠ 0x310 / 8 → t.rd f = s.rd f := fun f hf => keep.rd_eq (fun m => hf (apart _ m))
  refine ⟨group, ?_, ?_, ?_, arb, ?_, ?_⟩
  · rwa [isolated_congr (rd _ (by dsimp only; omega))]
  · rwa [isolated_congr (rd _ (by dsimp only; omega))]
  · rwa [groupWidth_congr (rd _ (by dsimp only; omega))]
  · exact (rd _ (by dsimp only; omega)).trans down
  · exact (rd _ (by dsimp only; omega)).trans down'

theorem mem_portsOfGroup {s : State} {g p : Nat} (width : s.groupWidth g < 3) (h : p ∈ s.portsOfGroup g) : p = 2 * g ∨ p = 2 * g + 1 := by
  rw [portsOfGroup, if_neg (Nat.ne_of_lt width)] at h
  simpa using (List.mem_filter.1 h).1

theorem GroupServes.ports_down {s : State} {g : Nat} (h : GroupServes s g) : ∀ p ∈ s.portsOfGroup g, s.linkState p = 0 := by
  intro p hp
  obtain rfl | rfl := mem_portsOfGroup h.width hp
  · exact h.down.1
  · exact h.down.2

/-- The groups stopped with g: g alone, where it forms no x8 port. -/
theorem reconfGroups_of_narrow {s : State} {g : Nat} (width : s.groupWidth g < 3) : s.reconfGroups 0 g = [g] := by
  have sub : 16 + g - 16 = g := by omega
  simp only [reconfGroups, partners, sub]
  rw [if_neg (by omega)]
  simp

/-- Port group g on the list of stopped units. -/
def stopListed (s : State) (g : Nat) : State := s.withArb { s.arb with stoppedUnits := [(0, g)] }

/-- Port group g after its STOP: listed, its ports marked and showing cause 11. -/
def groupStopped (s : State) (g : Nat) : State := ((s.portsOfGroup g).foldl (fun u p => u.wr (lnkCause p) 11) (s.stopListed g)).markStopped g

theorem beginStop_of_serves {s : State} {g : Nat} (h : GroupServes s g) :
    s.beginStop 0 g = (s.groupStopped g, none) := by
  have present : s.unitAbsent (16 + g) = false := by
    have group := h.group
    simp [unitAbsent]
    omega
  have causes := foldl_disablePort_of_disabled (s.stopListed g) (s.portsOfGroup g) h.ports_down
  have unit : reconfUnit 0 g = 16 + g := rfl
  rw [groupStopped, ← causes, beginStop]
  simp only [unit, h.stopped, h.isolated, h.tile, present, reconfGroups_of_narrow h.width, List.contains_nil, Bool.false_or, Bool.and_false,
    Bool.false_eq_true, if_false, reduceIte, Nat.zero_ne_one, OfNat.zero_ne_ofNat]
  rfl

theorem arb_foldl_wr (s : State) (l : List Nat) (f : Nat → FRef) (v : Nat) : (l.foldl (fun u p => u.wr (f p) v) s).arb = s.arb := by
  induction l generalizing s with
  | nil => rfl
  | cons p l ih => exact ih _

theorem keeps_markStopped (s : State) (g : Nat) (ks : List Nat) : Keeps s (s.markStopped g) ks := by
  simp only [markStopped]
  exact (keeps_modPort s _ _ ks).trans (keeps_modPort _ _ _ ks)

theorem markStopped_arb (s : State) (g : Nat) : (s.markStopped g).arb = s.arb := by
  simp only [markStopped, modPort, setPort_arb]

theorem stopped_markStopped (s : State) (g : Nat) :
    ((s.markStopped g).port (2 * g)).stopped = s.unitStopped (16 + g) ∧ ((s.markStopped g).port (2 * g + 1)).stopped = s.unitStopped (16 + g) := by
  have apart : 2 * g ≠ 2 * g + 1 := by omega
  simp only [markStopped, port_modPort, apart, if_false, if_true, and_self]

theorem unitStopped_of_listed {s : State} {g : Nat} (hg : g < 128) (h : s.arb.stoppedUnits = [(0, g)]) : s.unitStopped (16 + g) = true := by
  have sub : 16 + g - 16 = g := by omega
  rw [unitStopped, if_neg (by omega), if_pos (by omega), h, sub]
  simp

theorem portsOfGroup_congr {s t : State} {g : Nat} (width : t.groupWidth g = s.groupWidth g) : t.portsOfGroup g = s.portsOfGroup g := by
  have even : 2 * g / 2 = g := by omega
  have odd : (2 * g + 1) / 2 = g := by omega
  simp only [portsOfGroup, List.filter_cons, List.filter_nil, formed, even, odd, width]

theorem keeps_groupStopped {s : State} {g : Nat} (width : s.groupWidth g < 3) :
    Keeps s (s.groupStopped g) [(lnkCause (2 * g)).key, (lnkCause (2 * g + 1)).key] := by
  have listed : Keeps s (s.stopListed g) [(lnkCause (2 * g)).key, (lnkCause (2 * g + 1)).key] := (Keeps.refl s _).of_flds_eq rfl rfl rfl
  refine (listed.trans ((keeps_foldl_wr_lnkCause _ (s.portsOfGroup g) 11).mono ?_)).trans (keeps_markStopped _ g _)
  intro k hk
  obtain ⟨p, hp, rfl⟩ := List.mem_map.1 hk
  obtain rfl | rfl := mem_portsOfGroup width hp <;> simp

theorem arb_groupStopped (s : State) (g : Nat) : (s.groupStopped g).arb = (s.stopListed g).arb :=
  (markStopped_arb _ g).trans (arb_foldl_wr _ _ _ _)

theorem stopped_groupStopped (s : State) {g : Nat} (hg : g < 128) :
    ((s.groupStopped g).port (2 * g)).stopped = true ∧ ((s.groupStopped g).port (2 * g + 1)).stopped = true := by
  have listed : ((s.portsOfGroup g).foldl (fun u p => u.wr (lnkCause p) 11) (s.stopListed g)).unitStopped (16 + g) = true :=
    unitStopped_of_listed hg (congrArg ArbSt.stoppedUnits (arb_foldl_wr _ _ _ _))
  obtain ⟨even, odd⟩ := stopped_markStopped ((s.portsOfGroup g).foldl (fun u p => u.wr (lnkCause p) 11) (s.stopListed g)) g
  exact ⟨even.trans listed, odd.trans listed⟩

theorem cause_groupStopped {s : State} {g p : Nat} (hp : p ∈ s.portsOfGroup g) : (s.groupStopped g).rd (lnkCause p) = 11 :=
  ((keeps_markStopped _ g []).rd_eq List.not_mem_nil).trans (rd_foldl_wr_lnkCause _ _ 11 hp)

theorem linkState_groupStopped {s : State} {g p : Nat} (serves : GroupServes s g) (hp : p ∈ s.portsOfGroup g) :
    (s.groupStopped g).linkState p = 0 := by
  refine ((keeps_groupStopped serves.width).rd_eq ?_).trans (serves.ports_down p hp)
  simp only [lnkCause, List.mem_cons, List.not_mem_nil, or_false]
  omega

theorem keeps_vector (s : State) (n : Nat) (ks : List Nat) : Keeps s (s.vector n) ks := by
  simp only [vector, sendMsg]
  split_ifs <;> exact (Keeps.refl s ks).of_flds_eq rfl rfl rfl

/-- The RECONF_DONE event (R395). -/
theorem glbIrq_reconf (s : State) : (s.glbIrq 2).rd R.GLB_IRQ_RECONF_DONE = 1 ∧ Keeps s (s.glbIrq 2) [R.GLB_IRQ_RECONF_DONE.key] := by
  let t := s.wr R.GLB_IRQ_RECONF_DONE 1
  have raised : t.rd R.GLB_IRQ_RECONF_DONE = 1 := rd_wr_self s R.GLB_IRQ_RECONF_DONE 1
  have kept : Keeps s t [R.GLB_IRQ_RECONF_DONE.key] := (Keeps.refl s _).wr 1 List.mem_cons_self
  simp only [glbIrq]
  split_ifs
  · exact ⟨((keeps_vector t 1 []).rd_eq List.not_mem_nil).trans raised, kept.trans (keeps_vector t 1 _)⟩
  · exact ⟨raised, kept⟩

end State
end Sys2Proof.Machine
end

section
/-!
Stop, change and restart (R390, R391), and the obligation of the arbiter's order.
-/
namespace Sys2Proof.Machine
open State

theorem exec_reconfStop (m : Master) (kind : BitVec 2) (i : BitVec 7) (s : State) :
    exec (.reconfStop m kind i) s = .next (s.reconfWrite m kind.toNat i.toNat 1) := rfl

theorem exec_reconfApply (m : Master) (kind : BitVec 2) (i : BitVec 7) (s : State) :
    exec (.reconfApply m kind i) s = .next (s.reconfWrite m kind.toNat i.toNat 2) := rfl

theorem exec_reconfResume (m : Master) (kind : BitVec 2) (i : BitVec 7) (s : State) :
    exec (.reconfResume m kind i) s = .next (s.reconfWrite m kind.toNat i.toNat 3) := rfl

/-- STOP of a port group whose ports are DISABLED begins; it runs on. -/
theorem reconfWrite_stops_group {s : State} {m : Master} {g : Nat} (reaches : Reaches s m 0x300) (free : s.rd R.GLB_RECONF_STAT_BUSY = 0)
    (idle : Idle s) (recovery : s.inRecovery = false) (serves : GroupServes s g) :
    s.reconfWrite m 0 g 1 = ((s.reconfTaken 0 g).beginning (.reconf 0 g 1)).groupStopped g := by
  have keep := keeps_reconfTaken s 0 g (.reconf 0 g 1)
  have recovery' : ((s.reconfTaken 0 g).beginning (.reconf 0 g 1)).inRecovery = false := by
    rw [← recovery]
    exact congrArg (· == 0) (keep.rd_eq (not_mem_reconfTakenKeys (by decide)))
  have named : reconfNamed 0 g = true := by simpa [reconfNamed] using serves.group
  rw [reconfWrite_of_reaches reaches free]
  refine pushOrder_of_runs idle ?_
  rw [beginCmd, recovery', named]
  exact beginStop_of_serves (serves.of_keeps keep serves.stopped (by simp))

theorem reconfStop_of_disabled {s : State} {m : Master} {g : Nat} (reaches : Reaches s m 0x300) (free : s.rd R.GLB_RECONF_STAT_BUSY = 0)
    (idle : Idle s) (recovery : s.inRecovery = false) (serves : GroupServes s g) :
    let t := s.reconfWrite m 0 g 1
    t.arb.stoppedUnits = [(0, g)] ∧ t.rd R.GLB_RECONF_STAT_BUSY = 1 ∧ (t.port (2 * g)).stopped = true ∧ (t.port (2 * g + 1)).stopped = true ∧
      (∀ p ∈ s.portsOfGroup g, t.linkState p = 0 ∧ t.rd (lnkCause p) = 11) ∧
      Keeps s t [R.GLB_RECONF_STAT_LAST_KIND.key, R.GLB_RECONF_STAT_LAST_INDEX.key, R.GLB_RECONF_STAT_BUSY.key,
        (lnkCause (2 * g)).key, (lnkCause (2 * g + 1)).key] := by
  let b := (s.reconfTaken 0 g).beginning (.reconf 0 g 1)
  have taken : Keeps s b reconfTakenKeys := keeps_reconfTaken s 0 g _
  have serves' : GroupServes b g := serves.of_keeps taken serves.stopped (by simp)
  have keep := keeps_groupStopped serves'.width
  have group := serves.group
  have busy : b.rd R.GLB_RECONF_STAT_BUSY = 1 := rd_wr_self _ R.GLB_RECONF_STAT_BUSY 1
  have ports : b.portsOfGroup g = s.portsOfGroup g :=
    portsOfGroup_congr (groupWidth_congr (taken.rd_eq (not_mem_reconfTakenKeys (by dsimp only; omega))))
  obtain ⟨even, odd⟩ := stopped_groupStopped b group
  dsimp only
  rw [reconfWrite_stops_group reaches free idle recovery serves]
  refine ⟨congrArg ArbSt.stoppedUnits (arb_groupStopped b g), (keep.rd_eq ?_).trans busy, even, odd, ?_, ?_⟩
  · simp only [lnkCause, List.mem_cons, List.not_mem_nil, or_false]
    omega
  · rw [← ports]
    exact fun p hp => ⟨linkState_groupStopped serves' hp, cause_groupStopped hp⟩
  · exact (taken.mono (List.subset_append_left _ _)).trans (keep.mono (List.subset_append_right reconfTakenKeys _))

/-- GLB_RECONF_STAT and GLB_RECONF_DONE after an action has ended (R390). -/
def State.reconfEnded (s : State) (r : Nat) : State := ((s.wr R.GLB_RECONF_STAT_BUSY 0).wr R.GLB_RECONF_STAT_RESULT r).bump R.GLB_RECONF_DONE

/-- The end of the action that is alone in the order. -/
theorem endCmd_reconf_of_alone (s : State) (kind i a : Nat) :
    let t := s.emptied.endCmd (.reconf kind i a) 0
    t.rd R.GLB_RECONF_STAT_BUSY = 0 ∧ t.rd R.GLB_RECONF_STAT_RESULT = 0 ∧ Idle t ∧
      t.rd R.GLB_RECONF_DONE = (s.rd R.GLB_RECONF_DONE + 1) % 2 ^ R.GLB_RECONF_DONE.width ∧ t.rd R.GLB_IRQ_RECONF_DONE = 1 ∧
      Keeps s t [R.GLB_RECONF_STAT_BUSY.key, R.GLB_RECONF_STAT_RESULT.key, R.GLB_RECONF_DONE.key, R.GLB_IRQ_RECONF_DONE.key] := by
  obtain ⟨event, keep⟩ := glbIrq_reconf (s.emptied.reconfEnded 0)
  have empty : Keeps s s.emptied
      [R.GLB_RECONF_STAT_BUSY.key, R.GLB_RECONF_STAT_RESULT.key, R.GLB_RECONF_DONE.key, R.GLB_IRQ_RECONF_DONE.key] :=
    (Keeps.refl s _).of_flds_eq rfl rfl rfl
  have ended := ((empty.wr (f := R.GLB_RECONF_STAT_BUSY) 0 (by simp)).wr (f := R.GLB_RECONF_STAT_RESULT) 0 (by simp)).wr
    (f := R.GLB_RECONF_DONE) (((s.emptied.wr R.GLB_RECONF_STAT_BUSY 0).wr R.GLB_RECONF_STAT_RESULT 0).rd R.GLB_RECONF_DONE + 1) (by simp)
  refine ⟨(keep.rd_eq (by decide)).trans ?_, (keep.rd_eq (by decide)).trans ?_, idle_emptied_endCmd s _ 0, (keep.rd_eq (by decide)).trans ?_,
    event, ended.trans (keep.mono (by simp))⟩
  · rw [reconfEnded, rd_bump_ne _ (by decide), rd_wr_ne _ _ (by decide), rd_wr_self]
    rfl
  · rw [reconfEnded, rd_bump_ne _ (by decide), rd_wr_self]
    rfl
  · rw [reconfEnded, rd_bump_self, rd_wr_ne _ _ (by decide), rd_wr_ne _ _ (by decide)]
    rfl

/-- The meaning of the reconfiguration commands. -/
theorem reconfiguration : Claims.Reconfiguration := by
  refine ⟨fun m kind i s reaches free => ⟨?_, ?_, ?_, ?_⟩, fun s kind i a queue begun => ?_⟩
  · rw [exec_reconfStop, reconfWrite_of_reaches reaches free]
    rfl
  · rw [exec_reconfApply, reconfWrite_of_reaches reaches free]
    rfl
  · rw [exec_reconfResume, reconfWrite_of_reaches reaches free]
    rfl
  · rintro rfl idle recovery iso tile width units even odd
    exact ⟨_, exec_reconfStop m 0 i s, reconfStop_of_disabled reaches free idle recovery ⟨i.isLt, iso, tile, width, units, even, odd⟩⟩
  · refine ⟨s.emptied.endCmd (.reconf kind i a) 0, ?_, endCmd_reconf_of_alone s kind i a⟩
    rw [← endHead_of_single queue]
    show execReconfDone s = _
    rw [execReconfDone, queue]

/-- Settles O5: a command that finds the order idle begins at once, and the one alone in it ends with its result and leaves the order idle. -/
theorem arbitersOrder : Obligations.ArbitersOrder := ⟨islandCommands, castleStrobes, reconfiguration⟩

end Sys2Proof.Machine
end

section
/-!
SUPPORT. The shared buffer's operations (R126, R127, R134, R463): what each changes in the state, and what it leaves.
-/
namespace Sys2Proof.Machine

namespace State

theorem keeps_withPmon (s : State) (v : PmonSt) (ks : List Nat) : Keeps s (s.withPmon v) ks := (Keeps.refl s ks).of_flds_eq rfl rfl rfl
theorem keeps_withSwc (s : State) (v : SwcSt) (ks : List Nat) : Keeps s (s.withSwc v) ks := (Keeps.refl s ks).of_flds_eq rfl rfl rfl
theorem keeps_setBuf (s : State) (n : Nat) (v : Option BufPkt) (ks : List Nat) : Keeps s (s.setBuf n v) ks :=
  (Keeps.refl s ks).of_flds_eq rfl rfl rfl
theorem keeps_setQueue (s : State) (o v : Nat) (q : List QEntry) (ks : List Nat) : Keeps s (s.setQueue o v q) ks :=
  (Keeps.refl s ks).of_flds_eq rfl rfl rfl
theorem keeps_setLocalQ (s : State) (i v : Nat) (q : List LocalPkt) (ks : List Nat) : Keeps s (s.setLocalQ i v q) ks :=
  (Keeps.refl s ks).of_flds_eq rfl rfl rfl
theorem keeps_bump (s : State) (f : FRef) : Keeps s (s.bump f) [f.key] := (Keeps.refl s _).wr _ List.mem_cons_self

theorem bufPkt_setBuf (s : State) (n : Nat) (v : Option BufPkt) : (s.setBuf n v).bufPkt n = v := SMap.get_set_self _ _ _ _

theorem queue_setQueue (s : State) (o v : Nat) (q : List QEntry) : (s.setQueue o v q).queue o v = q := SMap.get_set_self _ _ _ _

theorem localQ_setLocalQ (s : State) (i v : Nat) (q : List LocalPkt) : (s.setLocalQ i v q).localQ i v = q := SMap.get_set_self _ _ _ _

/-! Tags of the sampler and the allocator each change their own part of the state only. -/

theorem stampTagged_eq_withPmon (s : State) (pid i : Nat) : ∃ v, s.stampTagged pid i = s.withPmon v := ⟨_, rfl⟩

theorem noteOutput_eq_withPmon (s : State) (pid : Nat) (l : List OutSel) : ∃ v, s.noteOutput pid l = s.withPmon v := by
  cases l with
  | nil => exact ⟨s.pmon, rfl⟩
  | cons x l => exact ⟨_, rfl⟩

theorem endTagged_eq_withPmon (s : State) (pid flags : Nat) : ∃ v, s.endTagged pid flags = s.withPmon v := by
  unfold endTagged
  split
  · exact ⟨_, rfl⟩
  · exact ⟨s.pmon, rfl⟩

theorem touchSq_eq_withSwc (s : State) (a : Nat) : ∃ v, s.touchSq a = s.withSwc v := by
  unfold touchSq
  split_ifs
  · exact ⟨s.swc, rfl⟩
  · exact ⟨_, rfl⟩

theorem withSwc_withSwc (s : State) (v w : SwcSt) : (s.withSwc v).withSwc w = s.withSwc w := rfl
theorem noteWrite_withSwc (s : State) (b : Nat) (v : SwcSt) : (s.noteWrite b).withSwc v = s.withSwc v := rfl
theorem setTag_withSwc (s : State) (a : Nat) (t : Option SqTag) (v : SwcSt) : (s.setTag a t).withSwc v = s.withSwc v := rfl

theorem allocate_eq_withSwc (s : State) (prev : Option Nat) (t : SqTag) : ∃ v, (s.allocate prev t).1 = s.withSwc v := by
  dsimp only [allocate]
  obtain ⟨v, e⟩ := touchSq_eq_withSwc _ _
  exact ⟨v, by rw [e, setTag_withSwc, noteWrite_withSwc, withSwc_withSwc]⟩

theorem allocateN_eq_withSwc (n : Nat) (s : State) (prev : Option Nat) (t : SqTag) : ∃ v, (allocateN n s prev t).1 = s.withSwc v := by
  induction n generalizing s prev with
  | zero => exact ⟨s.swc, rfl⟩
  | succ n ih =>
    obtain ⟨v, e⟩ := allocate_eq_withSwc s prev t
    obtain ⟨w, f⟩ := ih (s.allocate prev t).1 (some (s.allocate prev t).2)
    exact ⟨w, by rw [allocateN, f, e, withSwc_withSwc]⟩

theorem noteReads_eq_withSwc (s : State) (l : List Nat) : ∃ v, s.noteReads l = s.withSwc v := ⟨_, rfl⟩

/-! A packet's entries in the queues. -/

theorem enqueueOne_of_down {s : State} {x : OutSel} (down : s.outputDown x.out = true) (pid : Nat) :
    s.enqueueOne pid x = s.bump R.SWC_DISC_PORT_DOWN := if_pos down

theorem enqueueOne_of_up {s : State} {x : OutSel} {pid : Nat} {b : BufPkt} (up : s.outputDown x.out = false) (packet : s.bufPkt pid = some b) :
    s.enqueueOne pid x =
      (s.setBuf pid (some { b with outs := b.outs ++ [16 * x.out + bitsOf x.route 28 4] })).setQueue x.out (bitsOf x.route 28 4)
        (s.queue x.out (bitsOf x.route 28 4) ++
          [{ pid := pid, route := x.route, read := 0, reading := false, shared := false, bank := x.bank }]) := by
  rw [enqueueOne, if_neg (by simp [up])]
  simp only [packet]
  rfl

theorem enqueueOne_of_absent {s : State} {x : OutSel} {pid : Nat} (up : s.outputDown x.out = false) (absent : s.bufPkt pid = none) :
    s.enqueueOne pid x = s := by
  rw [enqueueOne, if_neg (by simp [up])]
  simp only [absent]

/-- What queueing a packet at one of its outputs leaves: the local inputs, the buffer numbers, and every register but the discards at outputs that
are down. -/
theorem enqueueOne_frame (s : State) (pid : Nat) (x : OutSel) : (s.enqueueOne pid x).lin = s.lin ∧ (s.enqueueOne pid x).nextPid = s.nextPid ∧
    Keeps s (s.enqueueOne pid x) [R.SWC_DISC_PORT_DOWN.key] := by
  cases up : s.outputDown x.out with
  | true =>
    rw [enqueueOne_of_down up]
    exact ⟨rfl, rfl, keeps_bump s _⟩
  | false =>
    cases packet : s.bufPkt pid with
    | none =>
      rw [enqueueOne_of_absent up packet]
      exact ⟨rfl, rfl, Keeps.refl s _⟩
    | some b =>
      rw [enqueueOne_of_up up packet]
      exact ⟨rfl, rfl, (keeps_setBuf s _ _ _).trans (keeps_setQueue _ _ _ _ _)⟩

theorem enqueue_frame (s : State) (pid : Nat) (l : List OutSel) : (s.enqueue pid l).lin = s.lin ∧ (s.enqueue pid l).nextPid = s.nextPid ∧
    Keeps s (s.enqueue pid l) [R.SWC_DISC_PORT_DOWN.key] := by
  induction l generalizing s with
  | nil => exact ⟨rfl, rfl, Keeps.refl s _⟩
  | cons x l ih =>
    obtain ⟨lin, nextPid, keep⟩ := enqueueOne_frame s pid x
    obtain ⟨lin', nextPid', keep'⟩ := ih (s.enqueueOne pid x)
    exact ⟨lin'.trans lin, nextPid'.trans nextPid, keep.trans keep'⟩

/-! What depends on the register file and the fault state only. -/

theorem rd_congr {s t : State} (flds : t.flds = s.flds) (g : FRef) : t.rd g = s.rd g := by rw [rd, rd, flds]

theorem portUp_congr {s t : State} (flds : t.flds = s.flds) (flt : t.flt = s.flt) (p : Nat) : t.portUp p = s.portUp p := by
  have rd := rd_congr flds
  have down : t.groupDown (p / 2) = s.groupDown (p / 2) := by
    simp only [groupDown, groupIsolated, refuses, isolated_congr (rd _), unitDown_congr flt (rd _), island_congr (rd _) (rd _)]
  simp only [portUp, formed, groupWidth_congr (rd _), linkState, rd, down]

theorem outputDown_congr {s t : State} (flds : t.flds = s.flds) (flt : t.flt = s.flt) (o : Nat) : t.outputDown o = s.outputDown o := by
  simp only [outputDown, refuses, portUp_congr flds flt, island_congr (rd_congr flds _) (rd_congr flds _)]

end State
end Sys2Proof.Machine
end

section
/-!
SUPPORT. A packet enters the shared buffer: its descriptor under the next buffer number, its squares, the sampler's tags (R127, R129, R463).
-/
namespace Sys2Proof.Machine.State

/-- The state u with packet b stored under the next buffer number, its squares taken and the sampler's tags stamped. -/
def entered (u : State) (pm : PmonSt) (sw : SwcSt) (b : BufPkt) : State :=
  (((u.withPmon pm).withSwc sw).setBuf u.nextPid (some b)).withNextPid (u.nextPid + 1)

section
variable (u : State) (pm : PmonSt) (sw : SwcSt) (b : BufPkt)

@[simp] theorem entered_nextPid : (u.entered pm sw b).nextPid = u.nextPid + 1 := by simp only [entered, withNextPid_nextPid]
@[simp] theorem entered_oq : (u.entered pm sw b).oq = u.oq := by
  simp only [entered, withNextPid_oq, setBuf_oq, withSwc_oq, withPmon_oq]
@[simp] theorem entered_flds : (u.entered pm sw b).flds = u.flds := by
  simp only [entered, withNextPid_flds, setBuf_flds, withSwc_flds, withPmon_flds]
@[simp] theorem entered_flt : (u.entered pm sw b).flt = u.flt := by
  simp only [entered, withNextPid_flt, setBuf_flt, withSwc_flt, withPmon_flt]
@[simp] theorem entered_mem : (u.entered pm sw b).mem = u.mem := by
  simp only [entered, withNextPid_mem, setBuf_mem, withSwc_mem, withPmon_mem]
@[simp] theorem entered_pending : (u.entered pm sw b).pending = u.pending := by
  simp only [entered, withNextPid_pending, setBuf_pending, withSwc_pending, withPmon_pending]

theorem keeps_entered (ks : List Nat) : Keeps u (u.entered pm sw b) ks :=
  (Keeps.refl u ks).of_flds_eq (entered_flds u pm sw b) (entered_mem u pm sw b) (entered_pending u pm sw b)

theorem bufPkt_entered : (u.entered pm sw b).bufPkt u.nextPid = some b := by
  show SMap.get none (SMap.set none u.buf u.nextPid (some b)) u.nextPid = some b
  exact SMap.get_set_self _ _ _ _

theorem entered_withPmon (pm' : PmonSt) : (u.entered pm sw b).withPmon pm' = u.entered pm' sw b := rfl

omit b in
theorem stampTagged_entered (pid i : Nat) : ∃ pm', ∀ b, (u.entered pm sw b).stampTagged pid i = u.entered pm' sw b :=
  ⟨((u.withPmon pm).stampTagged pid i).pmon, fun b => entered_withPmon u pm sw b _⟩

theorem store_of_tagged {v : State} (h : v = (u.withPmon pm).withSwc sw) : (v.store b).1 = u.entered pm sw b := by
  rw [h]
  rfl

end
end Sys2Proof.Machine.State
end

section
/-!
SUPPORT. The arrival of a header square that ends what its port has received (R54, R129, R134, R140, R157).
-/
namespace Sys2Proof.Machine

/-- The packet of a header square. -/
def hdrPkt (q : RxSq) : Pkt := { hdr := q.sq, pay := [] }

namespace State

/-- The descriptor of the packet whose header square q has arrived on port p and stands in square a. -/
def hdrBuf (s : State) (p : Nat) (q : RxSq) (a : Nat) (dead : Bool) (wroteAt : Nat) : BufPkt :=
  { pkt := hdrPkt q, inp := p, vl := (hdrPkt q).vl, count := announced (hdrPkt q), written := 1, addr := [a], gen := (s.port p).gen,
    region := .link, freed := 0, outs := [], dead := dead, cut := false, aborted := false, stamp := q.stamp, fstamp := q.fstamp,
    wroteAt := wroteAt, fn := none, job := none, dep := none }

theorem drainRx_of_rx_nil {s : State} {p : Nat} (h : (s.port p).rx = []) (n : Nat) : drainRx n s p = s := by
  cases n with
  | zero => rfl
  | succ n => simp only [drainRx, h]

theorem samplePkt_of_off {s : State} (off : s.rd R.PMON_SAMPLE_CFG_PKT_EN = 0) (k : Pkt) (inp pid t0 : Nat) : s.samplePkt k inp pid t0 = s := by
  rw [samplePkt, rdB_eq_false off]
  rfl

/-- The state u with the packet of header square q stored as `pid` and queued at its outputs. -/
def hdrStored (s u : State) (p : Nat) (q : RxSq) (outs : List OutSel) : State :=
  let a := ((u.stampTagged s.nextPid 0).noteOutput s.nextPid outs).allocate none
    { inp := p, vl := (hdrPkt q).vl, shared := q.shared, gen := (s.port p).gen, region := .link }
  let t := ((a.1.store (s.hdrBuf p q a.2 outs.isEmpty a.1.now)).1.stampTagged s.nextPid 1).enqueue s.nextPid outs
  if outs.isEmpty then t.endTagged s.nextPid 4 else t

/-- Port p once its only square is taken: the rest of the packet is awaited. -/
def hdrTaken (s t : State) (p : Nat) (q : RxSq) : State :=
  t.modPort p (fun st => { st with
    rx := [], rxCur := if announced (hdrPkt q) ≤ 1 then none else some { pid := s.nextPid, left := announced (hdrPkt q) - 1 } })

theorem execHeaderSquareArrive_of_single {p : Fin 256} {q : RxSq} {s u : State} {outs : List OutSel} (rx : (s.port p).rx = [q])
    (cur : (s.port p).rxCur = none) (hdr : q.hdr = true) (whole : q.abort = false) (off : s.rd R.PMON_SAMPLE_CFG_PKT_EN = 0)
    (decided : s.decideAt (hdrPkt q) (announced (hdrPkt q)) p q.fstamp q.stamp = (u, outs)) :
    exec (.headerSquareArrive p) s = .next (s.hdrTaken (s.hdrStored u p q outs) p q) := by
  have taken : ∀ t : State, ((s.hdrTaken t p q).port p).rx = [] := fun t => by
    rw [hdrTaken, port_modPort, if_pos rfl]
  rw [← drainRx_of_rx_nil (taken _) 1]
  show execHeaderSquareArrive p s = _
  unfold hdrPkt at decided
  simp only [execHeaderSquareArrive, rx, cur, hdr, whole, samplePkt_of_off off, Bool.false_and, decided, if_true, Bool.false_eq_true, if_false]
  rfl

/-- Storing the packet of a header square changes the sampler's tags, the squares and the new descriptor, before its entries are queued. -/
theorem hdrStored_eq (s u : State) (p : Nat) (q : RxSq) (outs : List OutSel) : ∃ pm sw a now,
    s.hdrStored u p q outs =
      if outs.isEmpty then ((u.entered pm sw (s.hdrBuf p q a outs.isEmpty now)).enqueue s.nextPid outs).endTagged s.nextPid 4
      else (u.entered pm sw (s.hdrBuf p q a outs.isEmpty now)).enqueue s.nextPid outs := by
  obtain ⟨pm, stamped⟩ := stampTagged_eq_withPmon u s.nextPid 0
  obtain ⟨pm', noted⟩ := noteOutput_eq_withPmon (u.withPmon pm) s.nextPid outs
  dsimp only [hdrStored]
  rw [stamped, noted]
  generalize given : ((u.withPmon pm).withPmon pm').allocate none
    { inp := p, vl := (hdrPkt q).vl, shared := q.shared, gen := (s.port p).gen, region := .link } = a
  obtain ⟨sw, squares⟩ := allocate_eq_withSwc ((u.withPmon pm).withPmon pm') none
    { inp := p, vl := (hdrPkt q).vl, shared := q.shared, gen := (s.port p).gen, region := .link }
  rw [given] at squares
  obtain ⟨pm'', stamped'⟩ := stampTagged_entered u pm' sw s.nextPid 1
  rw [store_of_tagged u pm' sw _ squares, stamped']
  exact ⟨pm'', sw, _, _, rfl⟩

theorem hdrStored_of_discarded (s u : State) (p : Nat) (q : RxSq) : ∃ pm sw a now,
    s.hdrStored u p q [] = u.entered pm sw (s.hdrBuf p q a true now) := by
  obtain ⟨pm, sw, a, now, stored⟩ := hdrStored_eq s u p q []
  obtain ⟨pm', ended⟩ := endTagged_eq_withPmon (u.entered pm sw (s.hdrBuf p q a true now)) s.nextPid 4
  exact ⟨pm', sw, a, now, stored.trans (ended.trans (entered_withPmon u pm sw _ pm'))⟩

/-- The packet of header square q with its one entry, queued at output x. -/
theorem hdrStored_of_queued {s u : State} {x : OutSel} (up : u.outputDown x.out = false) (next : u.nextPid = s.nextPid) (p : Nat) (q : RxSq) :
    ∃ pm sw a now, s.hdrStored u p q [x] =
      ((u.entered pm sw (s.hdrBuf p q a false now)).setBuf s.nextPid
        (some { s.hdrBuf p q a false now with outs := [16 * x.out + bitsOf x.route 28 4] })).setQueue x.out (bitsOf x.route 28 4)
          (u.queue x.out (bitsOf x.route 28 4) ++
            [{ pid := s.nextPid, route := x.route, read := 0, reading := false, shared := false, bank := x.bank }]) := by
  obtain ⟨pm, sw, a, now, stored⟩ := hdrStored_eq s u p q [x]
  refine ⟨pm, sw, a, now, stored.trans ?_⟩
  let e := u.entered pm sw (s.hdrBuf p q a false now)
  have packet : e.bufPkt s.nextPid = some (s.hdrBuf p q a false now) := next ▸ bufPkt_entered u pm sw _
  have up' : e.outputDown x.out = false := (outputDown_congr (entered_flds ..) (entered_flt ..) _).trans up
  have queue : e.queue x.out (bitsOf x.route 28 4) = u.queue x.out (bitsOf x.route 28 4) := by rw [State.queue, State.queue, entered_oq]
  rw [← queue]
  exact enqueueOne_of_up up' packet

section
variable (s t : State) (p : Nat) (q : RxSq)

theorem keeps_hdrTaken (ks : List Nat) : Keeps t (s.hdrTaken t p q) ks := keeps_modPort t p _ ks

theorem hdrTaken_nextPid : (s.hdrTaken t p q).nextPid = t.nextPid := setPort_nextPid ..
theorem hdrTaken_bufPkt (n : Nat) : (s.hdrTaken t p q).bufPkt n = t.bufPkt n := congrArg (SMap.get none · n) (setPort_buf ..)
theorem hdrTaken_queue (o v : Nat) : (s.hdrTaken t p q).queue o v = t.queue o v := congrArg (SMap.get [] · _) (setPort_oq ..)

theorem hdrTaken_port : ((s.hdrTaken t p q).port p).rx = [] ∧ ((s.hdrTaken t p q).port p).rxCur =
    if announced (hdrPkt q) ≤ 1 then none else some { pid := s.nextPid, left := announced (hdrPkt q) - 1 } := by
  rw [hdrTaken, port_modPort, if_pos rfl]
  exact ⟨rfl, rfl⟩

end

/-- The decision on a packet that fails the header checks (R54). -/
theorem decideAt_of_bad_header {s : State} {k : Pkt} {n : Nat} (bad : headerOk k n = false) (inp ns now : Nat) :
    s.decideAt k n inp ns now = (s.bump R.SWC_DISC_HDR, []) := by
  rw [decideAt, if_pos (by simp [bad])]

/-- The decision on a packet that fails the age check (R140, R458). -/
theorem decideAt_of_aged {s : State} {k : Pkt} {n ns now : Nat} {c : FRef} (ok : headerOk k n = true) (aged : s.ageCheckAt ns now k = some c)
    (inp : Nat) : s.decideAt k n inp ns now = (s.bump c, []) := by
  rw [decideAt, if_neg (by simp [ok]), aged]

/-- The decision on a packet that passes and is no acknowledgement is its lookup (R157). -/
theorem decideAt_of_passed {s : State} {k : Pkt} {n ns now : Nat} (ok : headerOk k n = true) (fresh : s.ageCheckAt ns now k = none)
    (ack : k.opcode ≠ 0x40) (nak : k.opcode ≠ 0x41) (inp : Nat) : s.decideAt k n inp ns now = s.route k inp := by
  rw [decideAt, if_neg (by simp [ok]), fresh]
  simp [ack, nak]

end State
end Sys2Proof.Machine
end

section
/-!
Header squares arrive (R54, R129, R134, R140, R157).
-/
namespace Sys2Proof.Machine
open State

section
variable {p : Fin 256} {q : RxSq} {s : State} (rx : (s.port p).rx = [q]) (cur : (s.port p).rxCur = none) (hdr : q.hdr = true)
  (whole : q.abort = false) (off : s.rd R.PMON_SAMPLE_CFG_PKT_EN = 0)
include rx cur hdr whole off

/-- A packet that the decision discards is counted and stored with no output. -/
theorem headerSquareArrive_discards {c : FRef}
    (decided : s.decideAt (hdrPkt q) (announced (hdrPkt q)) p q.fstamp q.stamp = (s.bump c, [])) :
    Does (.headerSquareArrive p) s (fun t => t.rd c = (s.rd c + 1) % 2 ^ c.width ∧ Keeps s t [c.key] ∧
      (t.nextPid = s.nextPid + 1 ∧ (t.port p).rx = [] ∧ (t.port p).rxCur =
        if announced (hdrPkt q) ≤ 1 then none else some { pid := s.nextPid, left := announced (hdrPkt q) - 1 }) ∧
      (t.bufPkt s.nextPid).map BufPkt.outs = some []) := by
  obtain ⟨pm, sw, a, now, stored⟩ := hdrStored_of_discarded s (s.bump c) p q
  obtain ⟨taken, awaited⟩ := hdrTaken_port s ((s.bump c).entered pm sw (s.hdrBuf p q a true now)) p q
  have keep := (keeps_entered (s.bump c) pm sw (s.hdrBuf p q a true now) []).trans (keeps_hdrTaken s _ p q [])
  refine ⟨_, execHeaderSquareArrive_of_single rx cur hdr whole off decided, ?_⟩
  rw [stored]
  refine ⟨?_, (keeps_bump s c).trans (keep.mono (List.nil_subset _)), ⟨?_, taken, awaited⟩, ?_⟩
  · rw [keep.rd_eq List.not_mem_nil, rd_bump_self]
  · rw [hdrTaken_nextPid, entered_nextPid, bump_nextPid]
  · rw [hdrTaken_bufPkt, ← bump_nextPid s c, bufPkt_entered]
    rfl

/-- A packet with one output that takes it is stored and queued there. -/
theorem headerSquareArrive_queues {x : OutSel} (up : s.outputDown x.out = false)
    (decided : s.decideAt (hdrPkt q) (announced (hdrPkt q)) p q.fstamp q.stamp = (s, [x])) :
    let v := bitsOf x.route 28 4
    Does (.headerSquareArrive p) s (fun t => Keeps s t [] ∧
      (t.nextPid = s.nextPid + 1 ∧ (t.port p).rx = [] ∧ (t.port p).rxCur =
        if announced (hdrPkt q) ≤ 1 then none else some { pid := s.nextPid, left := announced (hdrPkt q) - 1 }) ∧
      t.queue x.out v = s.queue x.out v ++
        [{ pid := s.nextPid, route := x.route, read := 0, reading := false, shared := false, bank := x.bank }] ∧
      (t.bufPkt s.nextPid).map (fun b => (b.pkt, b.inp, b.count, b.written, b.outs)) =
        some (hdrPkt q, p.val, announced (hdrPkt q), 1, [16 * x.out + v])) := by
  obtain ⟨pm, sw, a, now, stored⟩ := hdrStored_of_queued up rfl p q
  refine ⟨_, execHeaderSquareArrive_of_single rx cur hdr whole off decided, ?_⟩
  rw [stored]
  generalize held : s.entered pm sw (s.hdrBuf p q a false now) = e
  have keep : Keeps s e [] := held ▸ keeps_entered s pm sw _ []
  have next : e.nextPid = s.nextPid + 1 := held ▸ entered_nextPid s pm sw _
  refine ⟨((keep.trans (keeps_setBuf ..)).trans (keeps_setQueue ..)).trans (keeps_hdrTaken ..), ⟨?_, hdrTaken_port ..⟩, ?_, ?_⟩
  · rw [hdrTaken_nextPid, setQueue_nextPid, setBuf_nextPid, next]
  · rw [hdrTaken_queue, queue_setQueue]
  · rw [hdrTaken_bufPkt, bufPkt, setQueue_buf, ← bufPkt, bufPkt_setBuf]
    rfl

end

/-- The meaning of HEADER_SQUARE_ARRIVE. -/
theorem headerArrives : Claims.HeaderArrives := by
  intro p q s k n stored lost rx cur hdr whole off
  refine ⟨fun bad => ?_, fun c ok aged => ?_, fun x ok fresh ack nak routed up => ?_⟩
  · exact headerSquareArrive_discards rx cur hdr whole off (decideAt_of_bad_header bad _ _ _)
  · exact headerSquareArrive_discards rx cur hdr whole off (decideAt_of_aged ok aged _)
  · exact headerSquareArrive_queues rx cur hdr whole off up ((decideAt_of_passed ok fresh ack nak p).trans routed)

end Sys2Proof.Machine
end

section
/-!
Admission (R132).
-/
namespace Sys2Proof.Machine
open State

namespace State

/-! What the steps of an admission leave: the local inputs, the buffer numbers and registers that are not their own. -/

theorem noteAffected_eq_withCgc (s : State) (f : Option Nat) : ∃ v, s.noteAffected f = s.withCgc v := by
  cases f with
  | none => exact ⟨s.cgc, rfl⟩
  | some f =>
    simp only [noteAffected]
    split_ifs
    · exact ⟨s.cgc, rfl⟩
    · exact ⟨_, rfl⟩
    · exact ⟨s.cgc, rfl⟩
    · exact ⟨_, rfl⟩

theorem withCgc_withCgc (s : State) (v w : CgcSt) : (s.withCgc v).withCgc w = s.withCgc w := rfl

theorem foldl_noteAffected_eq_withCgc (s : State) (l : List LocalPkt) : ∃ v, l.foldl (fun s x => s.noteAffected x.fn) s = s.withCgc v := by
  induction l generalizing s with
  | nil => exact ⟨s.cgc, rfl⟩
  | cons x l ih =>
    obtain ⟨v, e⟩ := noteAffected_eq_withCgc s x.fn
    obtain ⟨w, f⟩ := ih (s.withCgc v)
    exact ⟨w, by rw [List.foldl_cons, e, f, withCgc_withCgc]⟩

/-- Congestion that is noted, and the functions that it affects (R181). -/
theorem affected_eq_withCgc (s : State) (w : CgcSt) (congested : Bool) (l : List LocalPkt) :
    ∃ v, (if congested then l.foldl (fun s x => s.noteAffected x.fn) (s.withCgc w) else s.withCgc w) = s.withCgc v := by
  cases congested with
  | false => exact ⟨w, rfl⟩
  | true =>
    obtain ⟨v, e⟩ := foldl_noteAffected_eq_withCgc (s.withCgc w) l
    exact ⟨v, e⟩

theorem noteCongestion_eq_withCgc (s : State) (i : Nat) : ∃ v, s.noteCongestion i = s.withCgc v := by
  dsimp only [noteCongestion]
  exact affected_eq_withCgc s _ _ _

theorem notePawn_eq_withCgc (s : State) (pawn : Option Nat) : ∃ v, s.notePawn pawn = s.withCgc v := by
  cases pawn with
  | none => exact ⟨s.cgc, rfl⟩
  | some n =>
    dsimp only [notePawn]
    exact affected_eq_withCgc s _ _ _

theorem keeps_withCgc (s : State) (v : CgcSt) (ks : List Nat) : Keeps s (s.withCgc v) ks := (Keeps.refl s ks).of_flds_eq rfl rfl rfl

theorem localQ_withCgc (s : State) (w : CgcSt) (i v : Nat) : (s.withCgc w).localQ i v = s.localQ i v := rfl

/-- What the sampler leaves. -/
theorem samplePkt_frame (s : State) (k : Pkt) (inp pid t0 : Nat) : (s.samplePkt k inp pid t0).nextPid = s.nextPid ∧
    Keeps s (s.samplePkt k inp pid t0) [R.PMON_SAMPLE_SKIP.key] := by
  unfold samplePkt
  extract_lets hit t
  split_ifs
  · exact ⟨rfl, ((Keeps.refl s _).of_flds_eq rfl rfl rfl).trans (keeps_bump t _)⟩
  · exact ⟨rfl, ((Keeps.refl s _).of_flds_eq rfl rfl rfl).trans (keeps_withPmon t _ _)⟩
  · exact ⟨rfl, (Keeps.refl s _).of_flds_eq rfl rfl rfl⟩
  · exact ⟨rfl, Keeps.refl s _⟩

/-- A packet that no command waits for changes nothing at its admission but itself (R199). -/
theorem probeAdmitted_of_no_dep {x : LocalPkt} (h : x.dep = none) (s : State) : s.probeAdmitted x = s := by
  have unasked : s.cgc.reqs.find? (fun r => r.begun && x.dep == some (probeMark (some r))) = none := by
    rw [List.find?_eq_none]
    simp [h]
  rw [probeAdmitted, unasked, h]
  rfl

theorem tryAdmit_of_refused {s : State} {i v : Nat} {x : LocalPkt} (h : s.admitTest i v x.pkt.squares x.outs = none) (rest : List LocalPkt) :
    s.tryAdmit i v x rest = ((s.setLocalQ i v ({ x with waiting := true } :: rest)).noteCongestion i).noteWaiting i := by
  rw [tryAdmit, h]

/-- A VL0 packet that fits the eight squares of VL0 is admitted to them, where its copies are all VL0 packets. -/
theorem admitTest_of_vl0 {s : State} {i n : Nat} {outs : List OutSel} (fits : s.rd (R.SWC_LOCAL_OCC_VL0_USED i) + n ≤ 8)
    (vl0 : outs.all (fun o => bitsOf o.route 28 4 == 0) = true) :
    s.admitTest i 0 n outs = some (s.wr (R.SWC_LOCAL_OCC_VL0_USED i) (s.rd (R.SWC_LOCAL_OCC_VL0_USED i) + n), .vl0) := by
  have shallow : outs.any (fun x => bitsOf x.route 28 4 != 0 && s.tooDeep x.out (bitsOf x.route 28 4) n) = false := by
    rw [List.any_eq_false]
    intro x hx
    have lowest := beq_iff_eq.1 (List.all_eq_true.1 vl0 x hx)
    simp [lowest]
  rw [admitTest]
  simp only [shallow, Bool.false_eq_true, if_false, true_and, if_pos fits]

/-- The fields that an admission may change besides its region's accounts: the packets waiting there, those discarded at outputs that are down, and
the packets that the sampler skips. -/
abbrev admissionKeys (i : Nat) : List Nat := [waitKey i, R.SWC_DISC_PORT_DOWN.key, R.PMON_SAMPLE_SKIP.key]

theorem noteWaiting_frame (s : State) (i : Nat) : (s.noteWaiting i).lin = s.lin ∧ (s.noteWaiting i).nextPid = s.nextPid ∧
    Keeps s (s.noteWaiting i) [waitKey i] :=
  ⟨wr_lin .., wr_nextPid .., (Keeps.refl s _).wr _ List.mem_cons_self⟩

/-- The local input i after its head packet has left it. -/
theorem leftInput_frame (s : State) (i v : Nat) (rest : List LocalPkt) (pawn : Option Nat) :
    let t := (((s.setLocalQ i v rest).noteCongestion i).noteWaiting i).notePawn pawn
    t.localQ i v = rest ∧ t.nextPid = s.nextPid ∧ Keeps s t [waitKey i] := by
  obtain ⟨w, congested⟩ := noteCongestion_eq_withCgc (s.setLocalQ i v rest) i
  obtain ⟨lin, next, keep⟩ := noteWaiting_frame ((s.setLocalQ i v rest).withCgc w) i
  obtain ⟨w', pawns⟩ := notePawn_eq_withCgc (((s.setLocalQ i v rest).withCgc w).noteWaiting i) pawn
  dsimp only
  rw [congested, pawns]
  refine ⟨?_, ?_, (((keeps_setLocalQ ..).trans (keeps_withCgc ..)).trans keep).trans (keeps_withCgc ..)⟩
  · rw [localQ_withCgc, localQ, lin, ← localQ, localQ_withCgc, localQ_setLocalQ]
  · rw [withCgc_nextPid, next, withCgc_nextPid, setLocalQ_nextPid]

/-- An admitted packet leaves its input and takes the next buffer number (R132). -/
theorem tryAdmit_of_admitted {s u : State} {i v : Nat} {x : LocalPkt} {reg : Region} (h : s.admitTest i v x.pkt.squares x.outs = some (u, reg))
    (dep : x.dep = none) (rest : List LocalPkt) :
    let t := s.tryAdmit i v x rest
    t.localQ i v = rest ∧ t.nextPid = u.nextPid + 1 ∧ Keeps u t (admissionKeys i) := by
  dsimp only
  simp only [tryAdmit, h, dep]
  rw [probeAdmitted_of_no_dep dep]
  generalize sampled : u.samplePkt x.pkt (256 + i) u.nextPid x.fstamp = a
  obtain ⟨next, keep⟩ := sampled ▸ samplePkt_frame u x.pkt (256 + i) u.nextPid x.fstamp
  obtain ⟨pm, stamped⟩ := stampTagged_eq_withPmon a u.nextPid 0
  obtain ⟨pm', noted⟩ := noteOutput_eq_withPmon (a.withPmon pm) u.nextPid x.outs
  rw [stamped, noted]
  generalize given : allocateN x.pkt.squares ((a.withPmon pm).withPmon pm') none
    { inp := 256 + i, vl := v, shared := false, gen := 0, region := reg } = l
  obtain ⟨sw, squares⟩ := allocateN_eq_withSwc x.pkt.squares ((a.withPmon pm).withPmon pm') none
    { inp := 256 + i, vl := v, shared := false, gen := 0, region := reg }
  rw [given] at squares
  rw [store_of_tagged a pm' sw _ squares]
  obtain ⟨pm'', stamped'⟩ := stampTagged_entered a pm' sw u.nextPid 1
  rw [stamped']
  generalize stored : a.entered pm'' sw _ = e
  have entered : e.nextPid = a.nextPid + 1 ∧ Keeps a e [] := stored ▸ ⟨entered_nextPid .., keeps_entered ..⟩
  obtain ⟨-, queued, enqueued⟩ := enqueue_frame e u.nextPid x.outs
  obtain ⟨left, next', rest'⟩ := leftInput_frame (e.enqueue u.nextPid x.outs) i v rest x.pawn
  refine ⟨left, ?_, ?_⟩
  · rw [next', queued, entered.1, next]
  · exact (keep.mono (by simp)).trans ((entered.2.mono (List.nil_subset _)).trans ((enqueued.mono (by simp)).trans (rest'.mono (by simp))))

/-- A waiting head that the test turns away again stays as it is. -/
theorem tryAdmit_of_waiting {s : State} {i v : Nat} {x : LocalPkt} (waits : x.waiting = true)
    (refused : s.admitTest i v x.pkt.squares x.outs = none) (rest : List LocalPkt) :
    (s.tryAdmit i v x rest).localQ i v = x :: rest ∧ Keeps s (s.tryAdmit i v x rest) [waitKey i] := by
  have same : { x with waiting := true } = x := by rw [← waits]
  rw [tryAdmit_of_refused refused, same]
  obtain ⟨left, -, keep⟩ := leftInput_frame s i v (x :: rest) none
  exact ⟨left, keep⟩

/-- The policer acts on no packet that is built for no function (R153). -/
theorem police_of_no_fn {x : LocalPkt} (h : x.fn = none) (s : State) : s.police x = (s, 0) := by
  rw [police, h]

/-- The presentation of a head built for no function (R132): sealed, stamped, checked and routed once, it leaves where it has no output and takes the
admission test where it has one. -/
theorem present_of_decided {s u : State} {i v : Nat} {x : LocalPkt} {outs : List OutSel} (new : x.waiting = false) (free : x.held = false)
    (fn : x.fn = none) (skip : x.skip = none) (valid : s.timeValid = true) (decided : s.decideLocal x (s.sealPkt x.pkt) (256 + i) = (u, outs))
    (rest : List LocalPkt) :
    let y := { x with pkt := s.sealPkt x.pkt, outs := outs, stamp := u.now, fstamp := u.ns }
    s.present i v x rest = if outs.isEmpty then (((u.noteOrigin y).setLocalQ i v rest).notePawn x.pawn).probeAdmitted y
      else (u.noteOrigin y).tryAdmit i v y rest := by
  have alone : s.heldBehind x = false := by rw [heldBehind, fn]
  have timely : s.timeHeld = false := by rw [timeHeld, valid]; rfl
  have kept : outs.filter (fun o => some o.out != x.skip) = outs := List.filter_eq_self.2 (fun o _ => by rw [skip]; rfl)
  dsimp only
  rw [present, new, free, alone, timely]
  simp only [Bool.false_or, Bool.false_and, Bool.false_eq_true, if_false, decided, kept]
  rw [police_of_no_fn]
  · rfl
  · exact fn

end State

theorem exec_admitPkt_of_head {i : Fin 7} {vl : Fin 16} {x : LocalPkt} {rest : List LocalPkt} {s : State} (head : s.localQ i vl = x :: rest) :
    exec (.admitPkt i vl) s = .next (s.present i vl x rest) := by
  show execAdmit i vl s = _
  rw [execAdmit, head]

theorem exec_admitRetry_of_waiting {i : Fin 7} {vl : Fin 16} {x : LocalPkt} {rest : List LocalPkt} {s : State}
    (head : s.localQ i vl = x :: rest) (waits : x.waiting = true) : exec (.admitRetry i vl) s = .next (s.tryAdmit i vl x rest) := by
  show execAdmitRetry i vl s = _
  rw [execAdmitRetry, head]
  simp only [waits, if_true]

/-- The meaning of ADMIT and ADMIT_RETRY. -/
theorem admission : Claims.Admission := by
  intro i vl x rest s head
  refine ⟨fun new free fn skip valid u outs decided => ?_, fun waits => ⟨exec_admitRetry_of_waiting head waits, fun refused => ?_, ?_⟩⟩
  · have presented := State.present_of_decided (v := vl) new free fn skip valid decided rest
    dsimp only at presented ⊢
    rw [exec_admitPkt_of_head head, presented]
    refine ⟨fun nowhere => ?_, fun somewhere => ?_⟩
    · rw [if_pos (List.isEmpty_iff.2 nowhere)]
    · rw [if_neg (by simpa using somewhere)]
  · exact ⟨_, exec_admitRetry_of_waiting head waits, tryAdmit_of_waiting waits refused rest⟩
  · rintro rfl dep fits vl0
    obtain ⟨left, next, keep⟩ := tryAdmit_of_admitted (admitTest_of_vl0 fits vl0) dep rest
    refine ⟨_, exec_admitRetry_of_waiting head waits, left, next, (keep.rd_eq ?_).trans ((rd_wr_self ..).trans (Nat.mod_eq_of_lt ?_))⟩
    · simp only [waitKey, List.mem_cons, List.not_mem_nil, or_false]
      omega
    · dsimp only
      omega

end Sys2Proof.Machine
end

section
/-!
SUPPORT. What an output starts, and the squares it hands over (R118, R127, R138, R149 to R151).
-/
namespace Sys2Proof.Machine

namespace State

theorem select_of_no_start {s : State} {o : Nat}
    (h : o < 256 ∧ (s.portUp o = false ∨ (s.port o).curTx ≠ none) ∨ 256 ≤ o ∧ s.outputDown o = true) :
    s.select o = (s, none) := by
  rw [select, if_pos]
  obtain ⟨low, down | sends⟩ | ⟨high, down⟩ := h
  · simp [low, down]
  · simp [low, Option.isSome_iff_ne_none.2 sends]
  · simp [high, down]

theorem select_of_port {s : State} {o : Nat} (port : o < 256) (up : s.portUp o = true) (free : (s.port o).curTx = none) :
    s.select o = if (s.headReady o 0).isSome ∧ 0 ≤ (s.port o).vl0Cred then (s, some 0) else dwrr 8 s o := by
  have low : ¬ 256 ≤ o := by omega
  rw [select, if_neg (by simp [up, free, low])]
  simp [low]

theorem select_of_local {s : State} {o : Nat} (loc : 256 ≤ o) (up : s.outputDown o = false) :
    s.select o = if (s.headReady o 0).isSome then (s, some 0) else dwrr 8 s o := by
  have high : ¬ o < 256 := by omega
  rw [select, if_neg (by simp [up, high])]
  simp [loc]

end State

theorem exec_outputSchedule_of_waits {o : Fin 259} {s : State} (waits : s.readWaits o = true) : exec (.outputSchedule o) s = .next s := by
  show execOutputSchedule o s = _
  rw [execOutputSchedule, if_pos waits]

/-- An output that need not wait starts what it selects. -/
theorem exec_outputSchedule_of_selected {o : Fin 259} {s u : State} {v : Nat} (free : s.readWaits o = false) (selected : s.select o = (u, some v)) :
    exec (.outputSchedule o) s = .next (u.startRead o v (if v = 0 then 4 else u.tcOf v)) := by
  show execOutputSchedule o s = _
  rw [execOutputSchedule, if_neg (by simp [free]), selected]

theorem exec_outputSchedule_of_idle {o : Fin 259} {s u : State} (free : s.readWaits o = false) (selected : s.select o = (u, none)) :
    exec (.outputSchedule o) s = .next u := by
  show execOutputSchedule o s = _
  rw [execOutputSchedule, if_neg (by simp [free]), selected]

theorem exec_outputSchedule_of_no_start {o : Fin 259} {s : State} (h : s.select o = (s, none)) : exec (.outputSchedule o) s = .next s := by
  cases waits : s.readWaits o with
  | true => exact exec_outputSchedule_of_waits waits
  | false => exact exec_outputSchedule_of_idle waits h

/-- What OUTPUT_SCHEDULE selects. -/
theorem outputSelects : Claims.OutputSelects := by
  intro o s
  refine ⟨exec_outputSchedule_of_waits, fun port stopped => ?_, fun loc down => ?_, fun free u => ⟨fun v => ?_, ?_⟩, ?_, ?_⟩
  · exact exec_outputSchedule_of_no_start (State.select_of_no_start (.inl ⟨port, stopped⟩))
  · exact exec_outputSchedule_of_no_start (State.select_of_no_start (.inr ⟨loc, down⟩))
  · exact exec_outputSchedule_of_selected free
  · exact exec_outputSchedule_of_idle free
  · exact State.select_of_port
  · exact State.select_of_local

end Sys2Proof.Machine
end

section
/-!
SUPPORT. Reads of the shared buffer (R118, R127, R138, R170): the squares that go to a lane tile, and a packet that a local output hands over.
-/
namespace Sys2Proof.Machine.State

/-- An output starts a head of its queue whose packet is in the buffer. -/
theorem headReady_eq_some {s : State} {o v : Nat} {e : QEntry} {b : BufPkt} (h : s.headReady o v = some (e, b)) :
    (∃ rest, s.queue o v = e :: rest) ∧ s.bufPkt e.pid = some b := by
  unfold headReady at h
  split at h
  · next x rest queue =>
    split at h
    · next y packet =>
      have same := (Option.ite_none_right_eq_some.1 h).2
      obtain ⟨rfl, rfl⟩ := Prod.mk.inj (Option.some.inj same)
      exact ⟨⟨rest, queue⟩, packet⟩
    · cases h
  · cases h

theorem reap_eq_withBuf (s : State) (pid : Nat) : ∃ v, s.reap pid = s.withBuf v := by
  unfold reap
  split
  · split_ifs
    · exact ⟨_, rfl⟩
    · exact ⟨s.buf, rfl⟩
  · exact ⟨s.buf, rfl⟩

/-- An entry that leaves its queue. -/
theorem removeEntry_eq (s : State) (key pid : Nat) : ∃ v, s.removeEntry key pid =
    (s.setQueue (key / 16) (key % 16) ((s.queue (key / 16) (key % 16)).filter (fun e => e.pid != pid))).withBuf v := by
  dsimp only [removeEntry]
  split
  · obtain ⟨v, e⟩ := reap_eq_withBuf _ pid
    exact ⟨v, e⟩
  · exact ⟨_, rfl⟩

/-- The squares of a wholly written packet go to the lane tile, and its entry leaves. -/
theorem pushTx_of_whole {s : State} {p pid key : Nat} {b : BufPkt} {e : QEntry} (cur : (s.port p).curTx = some (pid, key))
    (packet : s.bufPkt pid = some b) (entry : (s.queue (key / 16) (key % 16)).find? (fun e => e.pid == pid) = some e)
    (whole : b.written = b.count) : ∃ new : List TxSq, new.length = b.count - e.read ∧
      s.pushTx p = (s.setPort p { s.port p with tx := (s.port p).tx ++ new, curTx := none }).removeEntry key pid := by
  have upto : (if b.cut then b.count else b.written) = b.count := by rw [whole, ite_self]
  unfold pushTx
  simp only [cur, packet, entry, upto, if_true]
  exact ⟨_, by rw [List.length_map, List.length_range], rfl⟩

theorem keeps_withBuf (s : State) (v : SMap (Option BufPkt)) (ks : List Nat) : Keeps s (s.withBuf v) ks :=
  (Keeps.refl s ks).of_flds_eq rfl rfl rfl
theorem port_withBuf (s : State) (v : SMap (Option BufPkt)) (p : Nat) : (s.withBuf v).port p = s.port p := rfl
theorem port_setQueue (s : State) (o v : Nat) (q : List QEntry) (p : Nat) : (s.setQueue o v q).port p = s.port p := rfl

theorem port_withPmon (s : State) (v : PmonSt) (p : Nat) : (s.withPmon v).port p = s.port p := rfl
theorem bufPkt_withPmon (s : State) (v : PmonSt) (n : Nat) : (s.withPmon v).bufPkt n = s.bufPkt n := rfl
theorem bufPkt_setQueue (s : State) (o v : Nat) (q : List QEntry) (n : Nat) : (s.setQueue o v q).bufPkt n = s.bufPkt n := rfl
theorem bufPkt_setPort (s : State) (p : Nat) (v : PortSt) (n : Nat) : (s.setPort p v).bufPkt n = s.bufPkt n := rfl
theorem queue_withPmon (s : State) (v : PmonSt) (o n : Nat) : (s.withPmon v).queue o n = s.queue o n := rfl
theorem queue_withSwc (s : State) (v : SwcSt) (o n : Nat) : (s.withSwc v).queue o n = s.queue o n := rfl
theorem queue_setPort (s : State) (p : Nat) (v : PortSt) (o n : Nat) : (s.setPort p v).queue o n = s.queue o n := rfl

theorem port_removeEntry (s : State) (key pid p : Nat) : (s.removeEntry key pid).port p = s.port p := by
  obtain ⟨v, e⟩ := removeEntry_eq s key pid
  rw [e, port_withBuf, port_setQueue]

theorem queue_withBuf (s : State) (v : SMap (Option BufPkt)) (o n : Nat) : (s.withBuf v).queue o n = s.queue o n := rfl

theorem queue_removeEntry (s : State) (key pid : Nat) : (s.removeEntry key pid).queue (key / 16) (key % 16) =
    (s.queue (key / 16) (key % 16)).filter (fun e => e.pid != pid) := by
  obtain ⟨v, e⟩ := removeEntry_eq s key pid
  rw [e, queue_withBuf, queue_setQueue]

theorem keeps_removeEntry (s : State) (key pid : Nat) (ks : List Nat) : Keeps s (s.removeEntry key pid) ks := by
  obtain ⟨v, e⟩ := removeEntry_eq s key pid
  rw [e]
  exact (keeps_setQueue s _ _ _ ks).trans (keeps_withBuf _ v ks)

/-- Port p when the read of the head e of its VL0 queue has begun: credits reserved in the pool that backs it (R118), and its squares still to go. -/
def reading (s : State) (p : Nat) (e : QEntry) (b : BufPkt) : PortSt :=
  let key := if s.creditPool p 0 b.count = some true then 16 else 0
  { s.port p with
    reserved := SMap.set 0 (s.port p).reserved key (SMap.get 0 (s.port p).reserved key + b.count), curTx := some (e.pid, 16 * p), curTc := 4 }

/-- Entry x of port p's VL0 queue when the read of e has begun. -/
def begunEntry (s : State) (p : Nat) (e : QEntry) (b : BufPkt) (x : QEntry) : QEntry :=
  if x.pid == e.pid then { x with reading := true, shared := (s.creditPool p 0 b.count).getD false, route := s.readRoute b e.route } else x

theorem startFabric_of_whole (s : State) (p : Nat) (e : QEntry) {b : BufPkt} (whole : b.written = b.count) :
    ∃ pm, s.startFabric p 0 e b 4 =
      (((s.setPort p (s.reading p e b)).setQueue p 0 ((s.queue p 0).map (s.begunEntry p e b))).withPmon pm).pushTx p := by
  have shared : (s.creditPool p 0 b.count).getD false = true ↔ s.creditPool p 0 b.count = some true := by
    cases s.creditPool p 0 b.count <;> simp
  have cut : (decide (b.written < b.count) && !b.cut) = false := by simp [whole]
  simp only [startFabric, shared, cut, Bool.false_eq_true, if_false]
  exact ⟨_, rfl⟩

theorem port_pushTx_of_whole {s : State} {p pid key : Nat} {b : BufPkt} {e : QEntry} (cur : (s.port p).curTx = some (pid, key))
    (packet : s.bufPkt pid = some b) (entry : (s.queue (key / 16) (key % 16)).find? (fun e => e.pid == pid) = some e)
    (whole : b.written = b.count) : ((s.pushTx p).port p).curTx = none ∧
      ((s.pushTx p).port p).tx.length = (s.port p).tx.length + (b.count - e.read) ∧ ((s.pushTx p).port p).reserved = (s.port p).reserved := by
  obtain ⟨new, length, pushed⟩ := pushTx_of_whole cur packet entry whole
  rw [pushed, port_removeEntry, port_setPort, if_pos rfl]
  exact ⟨rfl, by rw [List.length_append, length], rfl⟩

theorem port_startFabric {s : State} {p : Nat} {e : QEntry} {b : BufPkt} (head : ∃ rest, s.queue p 0 = e :: rest)
    (packet : s.bufPkt e.pid = some b) (whole : b.written = b.count) :
    let key := if s.creditPool p 0 b.count = some true then 16 else 0
    ((s.startFabric p 0 e b 4).port p).tx.length = (s.port p).tx.length + (b.count - e.read) ∧
      SMap.get 0 ((s.startFabric p 0 e b 4).port p).reserved key = SMap.get 0 (s.port p).reserved key + b.count := by
  obtain ⟨rest, queue⟩ := head
  obtain ⟨pm, started⟩ := startFabric_of_whole s p e whole
  rw [started]
  generalize held : (((s.setPort p (s.reading p e b)).setQueue p 0 ((s.queue p 0).map (s.begunEntry p e b))).withPmon pm) = t
  have port : t.port p = s.reading p e b := by rw [← held, port_withPmon, port_setQueue, port_setPort, if_pos rfl]
  have packet' : t.bufPkt e.pid = some b := by rw [← held, bufPkt_withPmon, bufPkt_setQueue, bufPkt_setPort, packet]
  have queue' : t.queue p 0 = (s.queue p 0).map (s.begunEntry p e b) := by rw [← held, queue_withPmon, queue_setQueue]
  have div : 16 * p / 16 = p := by omega
  have mod : 16 * p % 16 = 0 := by omega
  have entry : (t.queue (16 * p / 16) (16 * p % 16)).find? (fun x => x.pid == e.pid) = some (s.begunEntry p e b e) := by
    rw [div, mod, queue', queue, List.map_cons, List.find?_cons_of_pos]
    simp [begunEntry]
  obtain ⟨-, length, reserved⟩ := port_pushTx_of_whole (by rw [port]; rfl) packet' entry whole
  have read : (s.begunEntry p e b e).read = e.read := by simp [begunEntry]
  refine ⟨?_, ?_⟩
  · rw [length, port, read]
    rfl
  · rw [reserved, port]
    exact SMap.get_set_self _ _ _ _

/-! A local output (R21, R170). -/

/-- The head e of (o, v) has left its queue, and is counted and noted for its builder (R19, R460). -/
def departed (s : State) (o v : Nat) (e : QEntry) (b : BufPkt) : State :=
  let t := (((((s.stampTagged e.pid 2).stampTagged e.pid 3).stampTagged e.pid 4).endTagged e.pid 0).countTx e.pid).removeEntry (16 * o + v) e.pid
  match b.dep with | some d => t.withDepartures (t.departures ++ [(o, d)]) | none => t

theorem deliver_of_whole {b : BufPkt} (cut : b.cut = false) (aborted : b.aborted = false) (s : State) (o v : Nat) (e : QEntry) :
    s.deliver o v e b =
      let t := s.departed o v e b
      if o = 258 then t.toArbiter (s.readCopy b e.route) b.inp b.fstamp
      else if o = 257 then (t.wake 18).withColIn (t.colIn ++
        [{ pkt := s.readCopy b e.route, inp := b.inp, bank := e.bank, stamp := b.stamp, fstamp := b.fstamp }])
      else if (s.readCopy b e.route).cls = 0 then (t.wake 17).withEngReq ((t.wake 17).engReq ++ [s.readCopy b e.route])
      else if (s.readCopy b e.route).cls = 1 then (t.wake 17).withEngFwd ((t.wake 17).engFwd ++ [s.readCopy b e.route])
      else (t.wake 17).withEngRep ((t.wake 17).engRep ++ [s.readCopy b e.route]) := by
  rw [deliver, cut, aborted]
  rfl

theorem countTx_eq_withFlds (s : State) (pid : Nat) : ∃ v, s.countTx pid = s.withFlds v := by
  unfold countTx
  split
  · split
    · split_ifs
      · exact ⟨_, rfl⟩
      · exact ⟨s.flds, rfl⟩
    · exact ⟨s.flds, rfl⟩
  · exact ⟨s.flds, rfl⟩

/-- Packets that wait in the complexes and in the arbiter island stay where they are while another leaves its queue. -/
theorem departed_frame (s : State) (o v : Nat) (e : QEntry) (b : BufPkt) :
    (s.departed o v e b).engRep = s.engRep ∧ (s.departed o v e b).colIn = s.colIn ∧ (s.departed o v e b).arbIn = s.arbIn := by
  obtain ⟨pm, tagged⟩ := endTagged_eq_withPmon (((s.stampTagged e.pid 2).stampTagged e.pid 3).stampTagged e.pid 4) e.pid 0
  obtain ⟨flds, counted⟩ := countTx_eq_withFlds ((((s.stampTagged e.pid 2).stampTagged e.pid 3).stampTagged e.pid 4).withPmon pm) e.pid
  obtain ⟨buf, removed⟩ := removeEntry_eq
    (((((s.stampTagged e.pid 2).stampTagged e.pid 3).stampTagged e.pid 4).withPmon pm).withFlds flds) (16 * o + v) e.pid
  simp only [departed]
  rw [tagged, counted, removed]
  split <;> simp [stampTagged]

/-- A complex that is handed a packet wakes in its registers only. -/
theorem wake_of_complex {k : Nat} (h : 16 ≤ k) (s : State) : ∃ v, s.wake k = s.withFlds v := by
  have no : ¬ k < 16 := by omega
  simp only [wake, setIsland, if_neg no]
  split_ifs
  · exact ⟨_, rfl⟩
  · exact ⟨s.flds, rfl⟩

section
variable {s : State} {e : QEntry} {b : BufPkt} (cut : b.cut = false) (aborted : b.aborted = false)
include cut aborted

/-- A packet that is no Request or Forward packet goes to the engine complex's replies. -/
theorem engRep_deliver (cls : 2 ≤ (s.readCopy b e.route).cls) : (s.deliver 256 0 e b).engRep = s.engRep ++ [s.readCopy b e.route] := by
  obtain ⟨v, woken⟩ := wake_of_complex (by decide : 16 ≤ 17) (s.departed 256 0 e b)
  have notReq : (s.readCopy b e.route).cls ≠ 0 := by omega
  have notFwd : (s.readCopy b e.route).cls ≠ 1 := by omega
  rw [deliver_of_whole cut aborted]
  simp only [notReq, notFwd, if_false, woken, withEngRep_engRep, withFlds_engRep, (departed_frame s 256 0 e b).1, Nat.reduceEqDiff]

theorem colIn_deliver : (s.deliver 257 0 e b).colIn =
    s.colIn ++ [{ pkt := s.readCopy b e.route, inp := b.inp, bank := e.bank, stamp := b.stamp, fstamp := b.fstamp }] := by
  rw [deliver_of_whole cut aborted]
  simp only [withColIn_colIn, (departed_frame s 257 0 e b).2.1, reduceIte, Nat.reduceEqDiff]

/-- A probe goes to the arbiter's queue of 64 probes, where it has room (R198). -/
theorem arbIn_deliver (cls : (s.readCopy b e.route).cls = 5) (room : (s.arbIn.filter (fun q => q.1.cls == 5)).length < 64) :
    (s.deliver 258 0 e b).arbIn = s.arbIn ++ [(s.readCopy b e.route, b.inp, b.fstamp)] := by
  have arbIn := (departed_frame s 258 0 e b).2.2
  have open_ : ¬ 64 ≤ (s.arbIn.filter (fun q => q.1.cls == 5)).length := by omega
  rw [deliver_of_whole cut aborted]
  simp only [toArbiter, cls, arbIn, open_, if_true, if_false, withArbIn_arbIn]

end

end Sys2Proof.Machine.State
end

section
/-!
Outputs send (R21, R118, R127, R138, R149, R170), and the obligation of the switch core's packets.
-/
namespace Sys2Proof.Machine
open State

section
variable {o : Fin 259} {e : QEntry} {b : BufPkt} {s : State} (free : s.readWaits o = false) (selected : s.select o = (s, some 0))
  (ready : s.headReady o 0 = some (e, b))
include free selected ready

theorem exec_outputSchedule_of_port (port : o.val < 256) : exec (.outputSchedule o) s = .next ((s.startFabric o 0 e b 4).noteRead b) := by
  rw [exec_outputSchedule_of_selected free selected, startRead, ready]
  simp only [if_true, if_pos port]

theorem exec_outputSchedule_of_local (loc : 256 ≤ o.val) : exec (.outputSchedule o) s = .next ((s.deliver o 0 e b).noteRead b) := by
  rw [exec_outputSchedule_of_selected free selected, startRead, ready]
  simp only [if_true, if_neg (Nat.not_lt.2 loc)]

end

/-- The squares written since go to the lane tile, and a packet read whole leaves its queue (R138). -/
theorem resumeTx_of_whole {s : State} {p pid key : Nat} {b : BufPkt} {e : QEntry} (cur : (s.port p).curTx = some (pid, key))
    (packet : s.bufPkt pid = some b) (entry : (s.queue (key / 16) (key % 16)).find? (fun e => e.pid == pid) = some e)
    (whole : b.written = b.count) :
    ((s.resumeTx p).port p).curTx = none ∧ ((s.resumeTx p).port p).tx.length = (s.port p).tx.length + (b.count - e.read) ∧
      (s.resumeTx p).queue (key / 16) (key % 16) = (s.queue (key / 16) (key % 16)).filter (fun e => e.pid != pid) ∧ Keeps s (s.resumeTx p) [] := by
  obtain ⟨v, noted⟩ := noteReads_eq_withSwc s (b.addr.drop e.read)
  have resumed : s.resumeTx p = (s.withSwc v).pushTx p := by
    rw [resumeTx, cur]
    simp only [packet, entry, noted]
  obtain ⟨ended, length, -⟩ := port_pushTx_of_whole (s := s.withSwc v) cur packet entry whole
  obtain ⟨new, -, pushed⟩ := pushTx_of_whole (s := s.withSwc v) cur packet entry whole
  rw [resumed]
  refine ⟨ended, length, ?_, ?_⟩
  · rw [pushed, queue_removeEntry, queue_setPort, queue_withSwc]
  · rw [pushed]
    exact ((keeps_withSwc s v []).trans (keeps_setPort _ p _ [])).trans (keeps_removeEntry _ key pid [])

/-- The meaning of OUTPUT_SCHEDULE and CUT_THROUGH_RESUME on what is sent. -/
theorem outputSends : Claims.OutputSends := by
  refine ⟨fun o e b s free selected ready => ?_, fun p pid key e b s cur packet whole entry => ?_⟩
  · obtain ⟨head, packet⟩ := headReady_eq_some ready
    obtain ⟨v, noted⟩ := noteReads_eq_withSwc (s.deliver o 0 e b) b.addr
    have given : 256 ≤ o.val → exec (.outputSchedule o) s = .next ((s.deliver o 0 e b).withSwc v) := fun loc => by
      rw [exec_outputSchedule_of_local free selected ready loc, noteRead, noted]
    refine ⟨exec_outputSchedule_of_port free selected ready, exec_outputSchedule_of_local free selected ready, fun port whole => ?_, ?_, ?_, ?_⟩
    · obtain ⟨length, reserved⟩ := port_startFabric head packet whole
      exact ⟨_, exec_outputSchedule_of_port free selected ready port, length, reserved⟩
    · rintro rfl cut aborted cls
      exact ⟨_, given (by decide), engRep_deliver cut aborted cls⟩
    · rintro rfl cut aborted
      exact ⟨_, given (by decide), colIn_deliver cut aborted⟩
    · rintro rfl cut aborted cls room
      exact ⟨_, given (by decide), arbIn_deliver cut aborted cls room⟩
  · exact ⟨s.resumeTx p, rfl, resumeTx_of_whole cur packet entry whole⟩

/-- Settles O9: what arrives is decided once and stored with its entries, what is admitted takes its region's squares, and an output starts the head
that it selects and hands its squares over. -/
theorem packetsEnterAndLeave : Obligations.PacketsEnterAndLeave := ⟨headerArrives, admission, outputSelects, outputSends⟩

end Sys2Proof.Machine
end

section
/-!
SUPPORT. The header that a builder lays out (R45 to R48): the words that it writes, and each field of them. The obligations of packets.
-/
namespace Sys2Proof.Machine

theorem b2n_lt_two (b : Bool) : b2n b < 2 := by cases b <;> decide

/-- Bit `i` of a number whose digit there is the number of a Bool. -/
theorem bitOf_of_digit {v i : Nat} {b : Bool} (h : v / 2 ^ i % 2 = b2n b) : bitOf v i = b := by
  rw [bitOf, Nat.testBit_eq_decide_div_mod_eq, h]
  cases b <;> rfl

theorem bitsOf_of_digits {v lo w x : Nat} (h : v / 2 ^ lo % 2 ^ w = x) : bitsOf v lo w = x := by rw [bitsOf_eq_div_mod, h]

/-- The route word that a builder writes: stage 0, the VL of the class, and PIN (R46, R52). -/
def HdrSpec.routeWord (h : HdrSpec) : Nat := vlOf (h.opcode / 32) 0 h.opcode * 2 ^ 28 + b2n h.pin * 2 ^ 25

/-- NSQ of a packet with this payload (R47). -/
def nsqOf (pay : List Square) : Nat := if pay.isEmpty then 0 else pay.length - 1

/-- The opcode word that a builder writes (R47). -/
def HdrSpec.opWord (h : HdrSpec) (pay : List Square) : Nat :=
  h.opcode * 2 ^ 24 + h.opcode / 32 * 2 ^ 21 + b2n (!pay.isEmpty) * 2 ^ 20 + nsqOf pay * 2 ^ 14 +
    b2n h.event * 2 ^ 11 + b2n h.ackreq * 2 ^ 10 + b2n h.retx * 2 ^ 9 + b2n h.open_ * 2 ^ 8 + builderHash h

/-- The header square of a built packet before its first 32 bytes are written: the opcode area alone. -/
def areaSquare (area : Square) : Square := BitVec.ofNat 512 (bitsOf area.toNat 0 256)

/-- The writes of a builder, in the order in which it makes them. -/
theorem mkPkt_eq (h : HdrSpec) (area : Square) (pay : List Square) : mkPkt h area pay =
    ((((((({ hdr := areaSquare area, pay := pay : Pkt }.u 0 4 h.dest).u 4 4 h.src).u 8 4 h.routeWord).u 12 4 (h.opWord pay)).u 16 2 h.conn).u
      18 2 h.epoch).u 24 4 h.psn) := rfl

section
variable (h : HdrSpec) (area : Square) (pay : List Square)


theorem mkPkt_destFa : (mkPkt h area pay).destFa = h.dest % 2 ^ 32 := by
  simp [mkPkt_eq, Pkt.destFa, pkt_g_u_other, pkt_g_u_same]

theorem mkPkt_srcFa : (mkPkt h area pay).srcFa = h.src % 2 ^ 32 := by
  simp [mkPkt_eq, Pkt.srcFa, pkt_g_u_other, pkt_g_u_same]

theorem mkPkt_route : (mkPkt h area pay).route = h.routeWord % 2 ^ 32 := by
  simp [mkPkt_eq, Pkt.route, pkt_g_u_other, pkt_g_u_same]

theorem mkPkt_opw : (mkPkt h area pay).opw = h.opWord pay % 2 ^ 32 := by
  simp [mkPkt_eq, Pkt.opw, pkt_g_u_other, pkt_g_u_same]

theorem mkPkt_conn : (mkPkt h area pay).conn = h.conn % 2 ^ 16 := by
  simp [mkPkt_eq, Pkt.conn, pkt_g_u_other, pkt_g_u_same]

theorem mkPkt_epoch : (mkPkt h area pay).epoch = h.epoch % 2 ^ 16 := by
  simp [mkPkt_eq, Pkt.epoch, pkt_g_u_other, pkt_g_u_same]

theorem mkPkt_psn : (mkPkt h area pay).psn = h.psn % 2 ^ 32 := by
  simp [mkPkt_eq, Pkt.psn, pkt_g_u_same]

/-- The bytes of the opcode area are those of the square that the builder gives. -/
theorem mkPkt_g_area {off n : Nat} (lo : 32 ≤ off) (hi : off + n ≤ 64) : (mkPkt h area pay).g off n = sqGet area off n := by
  rw [mkPkt_eq]
  iterate 7 rw [pkt_g_u_other _ _ _ _ _ _ (by omega) hi (by omega)]
  apply Nat.eq_of_testBit_eq
  intro i
  rw [Pkt.g, sqGet, sqGet, testBit_bitsOf, testBit_bitsOf, areaSquare, BitVec.toNat_ofNat, Nat.testBit_mod_two_pow, testBit_bitsOf]
  by_cases inside : i < 8 * n
  · simp only [inside, Nat.zero_add, show 8 * (64 - off - n) + i < 256 by omega, show 8 * (64 - off - n) + i < 512 by omega, decide_true, Bool.true_and]
  · simp only [inside, decide_false, Bool.false_and]

end

/-- The VL of a class at stage 0 takes four bits (R52). -/
theorem vlOf_zero_lt (cls opcode : Nat) : vlOf cls 0 opcode < 16 := by
  unfold vlOf
  split <;> try omega
  split <;> omega

theorem builderHash_lt (h : HdrSpec) : builderHash h < 256 := by
  unfold builderHash flowHash
  split <;> omega

theorem nsqOf_eq (pay : List Square) : nsqOf pay = pay.length - 1 := by
  cases pay <;> rfl

/-- The fields of the route word of a builder (R46, R52, R68). -/
theorem mkPkt_routeFields (h : HdrSpec) (area : Square) (pay : List Square) : let p := mkPkt h area pay
    p.vl = vlOf (h.opcode / 32) 0 h.opcode ∧ p.stage = 0 ∧ p.pin = h.pin ∧ p.nonmin = false ∧ p.via = false ∧ p.intGroup = 0 ∧ p.cstamp = 0 := by
  have vl := vlOf_zero_lt (h.opcode / 32) h.opcode
  have pin := b2n_lt_two h.pin
  have zero : b2n false = 0 := rfl
  simp only [Pkt.vl, Pkt.stage, Pkt.pin, Pkt.nonmin, Pkt.via, Pkt.intGroup, Pkt.cstamp, mkPkt_route, HdrSpec.routeWord]
  refine ⟨bitsOf_of_digits ?_, bitsOf_of_digits ?_, bitOf_of_digit ?_, bitOf_of_digit ?_, bitOf_of_digit ?_, bitsOf_of_digits ?_,
    bitsOf_of_digits ?_⟩ <;> omega

/-- The fields of the opcode word of a builder (R47, R48). -/
theorem mkPkt_opFields {h : HdrSpec} (area : Square) {pay : List Square} (opcode : h.opcode < 0xC0) (length : pay.length ≤ 64) :
    let p := mkPkt h area pay
    p.opcode = h.opcode ∧ p.cls = h.opcode / 32 ∧ p.ptype = !pay.isEmpty ∧ p.nsq = pay.length - 1 ∧ p.event = h.event ∧ p.ackreq = h.ackreq ∧
    p.retx = h.retx ∧ p.open_ = h.open_ ∧ p.flowHash = builderHash h := by
  have hash := builderHash_lt h
  have ptype := b2n_lt_two (!pay.isEmpty)
  have event := b2n_lt_two h.event
  have ackreq := b2n_lt_two h.ackreq
  have retx := b2n_lt_two h.retx
  have open_ := b2n_lt_two h.open_
  have wide : h.opWord pay < 2 ^ 32 := by simp only [HdrSpec.opWord, nsqOf_eq]; omega
  simp only [Pkt.opcode, Pkt.cls, Pkt.ptype, Pkt.nsq, Pkt.event, Pkt.ackreq, Pkt.retx, Pkt.open_, Pkt.flowHash, mkPkt_opw, Nat.mod_eq_of_lt wide]
  have top : h.opWord pay / 2 ^ 24 = h.opcode := by simp only [HdrSpec.opWord, nsqOf_eq]; omega
  refine ⟨bitsOf_of_digits (by rw [top]; omega), ?_⟩
  simp only [HdrSpec.opWord, nsqOf_eq]
  refine ⟨bitsOf_of_digits ?_, bitOf_of_digit ?_, bitsOf_of_digits ?_, bitOf_of_digit ?_, bitOf_of_digit ?_, bitOf_of_digit ?_,
    bitOf_of_digit ?_, bitsOf_of_digits ?_⟩ <;> omega

/-- Every field that a builder gives reads back. -/
theorem headersReadBackOfBuilder : Claims.HeadersReadBack := by
  intro h area pay dest src opcode conn epoch psn length
  obtain ⟨vl, stage, pin, nonmin, via, intGroup, cstamp⟩ := mkPkt_routeFields h area pay
  obtain ⟨opcode, cls, ptype, nsq, event, ackreq, retx, open_, -⟩ := mkPkt_opFields area opcode length
  exact ⟨(mkPkt_destFa h area pay).trans (Nat.mod_eq_of_lt dest), (mkPkt_srcFa h area pay).trans (Nat.mod_eq_of_lt src), opcode, cls, vl, stage, pin,
    nonmin, via, intGroup, cstamp, (mkPkt_conn h area pay).trans (Nat.mod_eq_of_lt conn), (mkPkt_epoch h area pay).trans (Nat.mod_eq_of_lt epoch),
    (mkPkt_psn h area pay).trans (Nat.mod_eq_of_lt psn), open_, retx, ackreq, event, ptype, nsq, rfl, fun _ _ => mkPkt_g_area h area pay⟩

@[simp] theorem setRoute_pay (p : Pkt) (lo w v : Nat) : (p.setRoute lo w v).pay = p.pay := by rw [Pkt.setRoute, Pkt.u]

/-- The route word after a router's write of some of its bits. -/
theorem route_setRoute (p : Pkt) {lo w : Nat} (v : Nat) (inside : lo + w ≤ 32) : (p.setRoute lo w v).route = setBits p.route lo w v := by
  rw [Pkt.setRoute, Pkt.route, pkt_g_u_same p 8 4 _ (by decide)]
  apply Nat.mod_eq_of_lt
  apply Nat.lt_pow_two_of_testBit
  intro i hi
  have wide : p.route < 2 ^ 32 := Nat.mod_lt _ (by decide)
  rw [testBit_setBits, if_neg (by omega), Nat.testBit_lt_two_pow (wide.trans_le (Nat.pow_le_pow_right (by decide) hi))]

/-- A router writes bits of the route word and leaves every other byte. -/
theorem routersChangeTheRouteWord : Claims.RoutersChangeTheRouteWord := by
  intro p lo w v inside
  refine ⟨setRoute_pay p lo w v, fun off n fits away => pkt_g_u_other p 8 4 _ off n (by decide) fits away, ?_, fun i _ away => ?_⟩
  · rw [route_setRoute p v inside]
    apply Nat.eq_of_testBit_eq
    intro i
    rw [testBit_bitsOf, testBit_setBits, Nat.testBit_mod_two_pow, Nat.add_sub_cancel_left]
    by_cases h : i < w
    · rw [if_pos (by omega)]
    · simp only [h, decide_false, Bool.false_and]
  · rw [route_setRoute p v inside, bitOf, testBit_setBits, if_neg (by omega), bitOf]

/-- Settles O58: a builder writes the fields of R45 to R47 side by side in words of their own, and a router writes within the route word. -/
theorem headersReadBack : Obligations.HeadersReadBack := ⟨headersReadBackOfBuilder, routersChangeTheRouteWord⟩

/-- Settles O59: the classes Collective, Management and Probe are the opcodes from 0x60 on, for which a builder writes no hash. -/
theorem flowHashOfBuilder : Obligations.FlowHashOfBuilder := by
  intro h area pay opcode length
  obtain ⟨-, -, -, -, -, -, -, -, hash⟩ := mkPkt_opFields area opcode length
  refine hash.trans ?_
  rw [builderHash]
  by_cases data : h.opcode < 0x60
  · rw [if_pos data, if_neg (by simp only [clsCollective, clsManagement, clsProbe]; omega), flowHash]
  · rw [if_neg data, if_pos (by simp only [clsCollective, clsManagement, clsProbe]; omega)]

end Sys2Proof.Machine
end

section
/-!
SUPPORT. A packet that is handed to a local input (R132), the commands of R188 from either side, and the packets that the arbiter island takes.
-/
namespace Sys2Proof.Machine

namespace State

/-- A packet as it waits at its local input after it is built (R132). -/
def builtPkt (p : Pkt) (fn job pawn dep : Option Nat) (yellow : Bool) (skip : Option Nat) : LocalPkt :=
  { pkt := p, fn := fn, yellow := yellow, pawn := pawn, job := job, dep := dep, waiting := false, held := false, outs := [], stamp := 0, skip := skip }

section
variable (s : State) (i : Nat) (p : Pkt) (fn job pawn dep : Option Nat) (yellow : Bool) (skip : Option Nat)

/-- A build puts the packet behind those of its local input, and accounts for it. -/
theorem build_eq : ∃ n w, s.build i p fn job pawn dep yellow skip =
    ((s.setLocalQ i p.vl (s.localQ i p.vl ++ [builtPkt p fn job pawn dep yellow skip])).wr (R.SWC_LOCAL_OCC_WAITING i) n).withCgc w := by
  let u := s.setLocalQ i p.vl (s.localQ i p.vl ++ [builtPkt p fn job pawn dep yellow skip])
  obtain ⟨w, congested⟩ := noteCongestion_eq_withCgc (u.noteWaiting i) i
  obtain ⟨w', pawns⟩ := notePawn_eq_withCgc ((u.noteWaiting i).withCgc w) pawn
  exact ⟨_, w', (congrArg (·.notePawn pawn) congested).trans pawns⟩

theorem localQ_build : (s.build i p fn job pawn dep yellow skip).localQ i p.vl =
    s.localQ i p.vl ++ [builtPkt p fn job pawn dep yellow skip] := by
  obtain ⟨n, w, built⟩ := build_eq s i p fn job pawn dep yellow skip
  rw [built]
  exact localQ_setLocalQ s i p.vl _

theorem keeps_build : Keeps s (s.build i p fn job pawn dep yellow skip) [waitKey i] := by
  obtain ⟨n, w, built⟩ := build_eq s i p fn job pawn dep yellow skip
  rw [built]
  exact ((keeps_setLocalQ ..).wr n List.mem_cons_self).trans (keeps_withCgc ..)

theorem build_arbIn : (s.build i p fn job pawn dep yellow skip).arbIn = s.arbIn := by
  obtain ⟨n, w, built⟩ := build_eq s i p fn job pawn dep yellow skip
  simp only [built, withCgc_arbIn, wr_arbIn, setLocalQ_arbIn]

end

theorem keeps_withArbIn (s : State) (l : List (Pkt × Nat × Nat)) (ks : List Nat) : Keeps s (s.withArbIn l) ks :=
  (Keeps.refl s ks).of_flds_eq rfl rfl rfl

theorem arbRuns_of_running {s : State} (h : s.rd R.FLT_ARB_STAT_STATE = 0) : s.arbRuns = true := by rw [arbRuns, h]; rfl

theorem rdB_eq_true {s : State} {f : FRef} (h : s.rd f = 1) : s.rdB f = true := by rw [rdB_def, h]; rfl

/-- The fields that tell the master of a stack (R360, R374). -/
abbrev masterFields : List FRef := [R.GLB_MODE_STAT_MODE, R.STK_STAT_MASTER_NOW, R.STK_CFG_MEMBER, R.STK_STAT_DEPOSED]

theorem isMaster_of_keeps {s t : State} {ks : List Nat} (keep : Keeps s t ks) (away : ∀ g ∈ masterFields, g.key ∉ ks) :
    t.isMaster = s.isMaster := by
  have same : ∀ g ∈ masterFields, t.rd g = s.rd g := fun g hg => keep.rd_eq (away g hg)
  rw [List.forall_mem_cons, List.forall_mem_cons, List.forall_mem_cons, List.forall_mem_singleton] at same
  obtain ⟨mode, now, member, deposed⟩ := same
  simp only [isMaster, inStack, State.mode, ownMember, rdB_def, mode, now, member, deposed]

/-- Which permission a command takes depends on the mode alone (R193, R367). -/
theorem permOf_of_mode {s t : State} (mode : t.rd R.GLB_MODE_STAT_MODE = s.rd R.GLB_MODE_STAT_MODE) (cmd : Nat) :
    t.permOf cmd = s.permOf cmd := by
  have stack : t.inStack = s.inStack := by simp only [inStack, State.mode, mode]
  rw [permOf, permOf, stack]

/-! A command of R188 in band. -/

section
variable {s t : State} {r : MgmtReq} {cmd : Nat → Bool} {f : State → MgmtReq → State × Option (Nat × Option Nat)}
  (next : InBand s r) (own : cmd r.cmd = true)
include next own

theorem inbandRow_of_next : s.inbandRow cmd f = match f (taking s r) r with
    | (t, some (result, value)) => answered t r result value
    | (t, none) => t.beginReq r := by
  obtain ⟨runs, head, unmirrored⟩ := next
  rw [inbandRow, arbRuns_of_running runs, head]
  simp only [own, unmirrored, Bool.not_true, Bool.false_eq_true, Option.isSome_none, Bool.or_false, if_false]
  rfl

theorem inbandRow_of_answers {result : Nat} {value : Option Nat} (h : f (taking s r) r = (t, some (result, value))) :
    s.inbandRow cmd f = answered t r result value := by rw [inbandRow_of_next next own, h]

theorem inbandRow_of_begins (h : f (taking s r) r = (t, none)) : s.inbandRow cmd f = t.beginReq r := by rw [inbandRow_of_next next own, h]

end

/-! A command of R188 by a write of CGC_CMD. -/

/-- The command is taken: LAST_CMD shows it, and a stop command counts (R188). -/
def cmdTaken (s : State) (cmd : Nat) : State :=
  let s := s.wr R.CGC_CMD_STAT_LAST_CMD cmd
  if isStop cmd then s.bump R.CGC_STOP_RX else s

section
variable {s t : State} {m : Master} {cmd : Nat} {f : State → Bool → Nat → Nat → State × Option Nat} (reaches : Reaches s m 0x800080)
include reaches

theorem mgmtRow_of_busy (busy : s.rd R.CGC_CMD_STAT_BUSY = 1) : s.mgmtRow (.cmd m) cmd f = s.wr R.CGC_CMD_STAT_RESULT 1 := by
  simp only [mgmtRow, gated_of_reaches reaches, rdB_eq_true busy, if_true]

theorem mgmtRow_of_free (free : s.rd R.CGC_CMD_STAT_BUSY = 0) : s.mgmtRow (.cmd m) cmd f =
    match f (s.cmdTaken cmd) (m == .manager) m.id ((s.cmdTaken cmd).rd R.CGC_CMD_ARG_ARG) with
    | (t, some r) => t.wr R.CGC_CMD_STAT_RESULT r
    | (t, none) => t.wr R.CGC_CMD_STAT_BUSY 1 := by
  simp only [mgmtRow, gated_of_reaches reaches, rdB_eq_false free, Bool.false_eq_true, if_false]
  rfl

theorem mgmtRow_of_answers (free : s.rd R.CGC_CMD_STAT_BUSY = 0) {r : Nat}
    (h : f (s.cmdTaken cmd) (m == .manager) m.id ((s.cmdTaken cmd).rd R.CGC_CMD_ARG_ARG) = (t, some r)) :
    s.mgmtRow (.cmd m) cmd f = t.wr R.CGC_CMD_STAT_RESULT r := by rw [mgmtRow_of_free reaches free, h]

theorem mgmtRow_of_begins (free : s.rd R.CGC_CMD_STAT_BUSY = 0)
    (h : f (s.cmdTaken cmd) (m == .manager) m.id ((s.cmdTaken cmd).rd R.CGC_CMD_ARG_ARG) = (t, none)) :
    s.mgmtRow (.cmd m) cmd f = t.wr R.CGC_CMD_STAT_BUSY 1 := by rw [mgmtRow_of_free reaches free, h]

end

theorem rd_cmdTaken (s : State) (cmd : Nat) {g : FRef} (away : g.key ∉ [R.CGC_CMD_STAT_LAST_CMD.key, R.CGC_STOP_RX.key]) :
    (s.cmdTaken cmd).rd g = s.rd g := by
  simp only [List.mem_cons, not_or] at away
  obtain ⟨last, stop, -⟩ := away
  unfold cmdTaken
  dsimp only
  split
  · rw [rd_bump_ne _ stop, rd_wr_ne s cmd last]
  · exact rd_wr_ne s cmd last

/-! What the arbiter island checks of a packet that it takes. -/

theorem arbCrc_of_ok {p : Pkt} (ok : crcOk p = true) (s : State) : s.arbCrc p = (s, true) := if_pos ok

theorem arbCrc_of_bad {p : Pkt} (bad : crcOk p = false) (s : State) : s.arbCrc p = ((s.bump R.CGC_E2E_CRC).e2eFail 714, false) :=
  if_neg (by rw [bad]; decide)

end State
end Sys2Proof.Machine
end

section
/-!
The obligation of management traffic (R51, R188 to R199, R365, R370, R388).
-/
namespace Sys2Proof.Machine
open State

/-- STROBE by a write of CGC_CMD that is taken (R388): it is refused while a strobe runs or where its mask is not legal, and enters the order else. -/
theorem strobe_cmd {m : Master} {s : State} (reaches : Reaches s m 0x800080) (free : s.rd R.CGC_CMD_STAT_BUSY = 0) :
    let a := s.rd R.CGC_CMD_ARG_ARG; let b := s.cmdTaken 9
    (s.rd R.GLB_STROBE_STAT_BUSY = 0 → maskOk a = true →
      exec (.strobe (.cmd m)) s = .next ((b.acceptStrobe a .cmd).wr R.CGC_CMD_STAT_BUSY 1)) ∧
    (s.rd R.GLB_STROBE_STAT_BUSY = 0 → maskOk a = false → exec (.strobe (.cmd m)) s = .next (b.wr R.CGC_CMD_STAT_RESULT 4)) ∧
    (s.rd R.GLB_STROBE_STAT_BUSY = 1 → exec (.strobe (.cmd m)) s = .next (b.wr R.CGC_CMD_STAT_RESULT 1)) := by
  have arg : (s.cmdTaken 9).rd R.CGC_CMD_ARG_ARG = s.rd R.CGC_CMD_ARG_ARG := rd_cmdTaken s 9 (by decide)
  have strobing : (s.cmdTaken 9).rd R.GLB_STROBE_STAT_BUSY = s.rd R.GLB_STROBE_STAT_BUSY := rd_cmdTaken s 9 (by decide)
  refine ⟨fun idle legal => ?_, fun idle bad => ?_, fun running => ?_⟩
  · exact congrArg _ (mgmtRow_of_begins reaches free (by
      simp only [arg, rdB_eq_false (strobing.trans idle), legal, Bool.false_eq_true, Bool.not_true, if_false]))
  · exact congrArg _ (mgmtRow_of_answers reaches free (by
      simp only [arg, rdB_eq_false (strobing.trans idle), bad, Bool.false_eq_true, Bool.not_false, if_false, if_true]))
  · exact congrArg _ (mgmtRow_of_answers reaches free (by simp only [rdB_eq_true (strobing.trans running), if_true]))

/-- PROBE_SEND by a write of CGC_CMD that is taken (R199). -/
theorem probeSend_cmd {m : Master} {s : State} (reaches : Reaches s m 0x800080) (free : s.rd R.CGC_CMD_STAT_BUSY = 0) :
    let a := s.rd R.CGC_CMD_ARG_ARG; let u := s.cmdTaken 0x0A
    (bitsOf a 18 14 = 0 → exec (.probeSend (.cmd m)) s =
      .next ((u.sendProbe (bitsOf a 0 18) (bitsOf a 32 32 + m.id * 2 ^ 32) (probeMark none)).wr R.CGC_CMD_STAT_BUSY 1)) ∧
    (bitsOf a 18 14 ≠ 0 → exec (.probeSend (.cmd m)) s = .next (u.wr R.CGC_CMD_STAT_RESULT 4)) := by
  have arg : (s.cmdTaken 0x0A).rd R.CGC_CMD_ARG_ARG = s.rd R.CGC_CMD_ARG_ARG := rd_cmdTaken s 0x0A (by decide)
  refine ⟨fun legal => ?_, fun bad => ?_⟩
  · exact congrArg _ (mgmtRow_of_begins reaches free (by rw [arg, probeCmd, if_neg (not_not.2 legal)]))
  · exact congrArg _ (mgmtRow_of_answers reaches free (by rw [arg, probeCmd, if_pos bad]))

/-- STROBE in band (R370, R388), while no strobe runs. -/
theorem strobe_inband {r : MgmtReq} {s : State} (next : InBand s r) (strobe : r.cmd = 9) (idle : s.rd R.GLB_STROBE_STAT_BUSY = 0)
    (unasked : s.stk.strobe = none) (uncommitted : s.stk.commit = none) :
    (maskOk r.arg = false → exec (.strobe .inband) s = .next (answered (taking s r) r 4 none)) ∧
    (maskOk r.arg = true → s.isMaster = true → exec (.strobe .inband) s = .next (((taking s r).beginStackStrobe r.arg (some r)).beginReq r)) ∧
    (maskOk r.arg = true → s.isMaster = false → exec (.strobe .inband) s = .next (((taking s r).acceptStrobe r.arg .inband).beginReq r)) := by
  have own : (r.cmd == 9) = true := beq_iff_eq.2 strobe
  have master : (taking s r).isMaster = s.isMaster :=
    isMaster_of_keeps ((Keeps.refl s [R.CGC_CMD_STAT_LAST_CMD.key]).wr _ List.mem_cons_self) (by decide)
  have run : exec (.strobe .inband) s = execStrobe .inband s := rfl
  simp only [run, execStrobe, rdB_eq_false idle, unasked, uncommitted, Option.isSome_none, Bool.or_self, Bool.false_eq_true, if_false]
  refine ⟨fun bad => ?_, fun legal here => ?_, fun legal away => ?_⟩
  · exact congrArg _ (inbandRow_of_answers next own (by simp only [bad, Bool.not_false, if_true]))
  · exact congrArg _ (inbandRow_of_begins next own (by simp only [legal, master, here, Bool.not_true, Bool.false_eq_true, if_false, if_true]))
  · exact congrArg _ (inbandRow_of_begins next own (by simp only [legal, master, away, Bool.not_true, Bool.false_eq_true, if_false]))

/-- PROBE_SEND in band (R199). -/
theorem probeSend_inband {r : MgmtReq} {s : State} (next : InBand s r) (probe : r.cmd = 0x0A) :
    (bitsOf r.arg 18 14 = 0 → exec (.probeSend .inband) s =
      .next (((taking s r).sendProbe (bitsOf r.arg 0 18) (bitsOf r.arg 32 32 + 2 * 2 ^ 32) (probeMark (some r))).beginReq r)) ∧
    (bitsOf r.arg 18 14 ≠ 0 → exec (.probeSend .inband) s = .next (answered (taking s r) r 4 none)) := by
  have own : (r.cmd == 0x0A) = true := beq_iff_eq.2 probe
  refine ⟨fun legal => ?_, fun bad => ?_⟩
  · exact congrArg _ (inbandRow_of_begins next own (by rw [probeCmd, if_neg (not_not.2 legal)]; rfl))
  · exact congrArg _ (inbandRow_of_answers next own (by rw [probeCmd, if_pos bad]; rfl))

/-- The meaning of STROBE and PROBE_SEND from either side. -/
theorem strobeAndProbeCommands : Claims.StrobeAndProbeCommands := by
  refine ⟨fun m s reaches free => ?_, fun m s reaches busy => ?_, fun r s next => ?_, fun x s asked => if_pos asked⟩
  · obtain ⟨accepted, bad, running⟩ := strobe_cmd reaches free
    exact ⟨accepted, bad, running, probeSend_cmd reaches free⟩
  · exact ⟨congrArg _ (mgmtRow_of_busy reaches busy), congrArg _ (mgmtRow_of_busy reaches busy)⟩
  · exact ⟨strobe_inband next, probeSend_inband next⟩

/-! MGMT_REQ_RX. -/

/-- A request that has left the queue is checked where its CRC holds (R195). -/
def reqTaken (u : State) (p : Pkt) (inp : Nat) : State :=
  match u.arbCrc p with
  | (t, false) => t
  | (t, true) => t.checkReq p inp

theorem exec_mgmtReqRx {p : Pkt} {inp tm : Nat} {rest : List (Pkt × Nat × Nat)} {s : State} (runs : s.rd R.FLT_ARB_STAT_STATE = 0)
    (head : nextMgmt s.arbIn = some ((p, inp, tm), rest)) (awake : s.pwr.warmAt = none) :
    exec .mgmtReqRx s = .next (reqTaken (s.withArbIn rest) p inp) := by
  have run : exec .mgmtReqRx s = execMgmtReqRx s := rfl
  have up : (s.withArbIn rest).arbRuns = true := arbRuns_of_running runs
  rw [run, execMgmtReqRx, head]
  simp only [up, withArbIn_pwr, awake, Bool.not_true, Option.isSome_none, Bool.or_self, Bool.false_eq_true, if_false]
  rfl

/-- The slot of a request is one of the module's, valid, and that of its source (R195). -/
def slotOk (s : State) (p : Pkt) : Prop :=
  p.keyId < 16 ∧ s.rd (R.CGC_KEY_SLOT_VALID p.keyId) = 1 ∧ s.rd (R.CGC_KEY_SLOT_SRC_FA p.keyId) = p.srcFa ∧
    (s.rd (R.CGC_KEY_SLOT_ROLE p.keyId) = 1 → s.inStack = true)

/-- How far the PSN of a request is ahead of the last of its slot (R195). -/
def psnAhead (s : State) (p : Pkt) : Nat := (p.psn + 2 ^ 32 - s.rd (R.CGC_KEY_PSN_LAST_RX_PSN p.keyId)) % 2 ^ 32

/-- A request that has passed the checks: its PSN is the last of its slot, and a stop command counts (R191, R195). -/
def reqCounted (s : State) (p : Pkt) : State :=
  let t := s.wr (R.CGC_KEY_PSN_LAST_RX_PSN p.keyId) p.psn
  if isStop p.cmd then t.bump R.CGC_STOP_RX else t

section
variable (s : State) (p : Pkt)

theorem reqCounted_arbIn : (reqCounted s p).arbIn = s.arbIn := by unfold reqCounted; split <;> rfl
theorem reqCounted_cgc : (reqCounted s p).cgc = s.cgc := by unfold reqCounted; split <;> rfl

theorem keeps_reqCounted : Keeps s (reqCounted s p) [(R.CGC_KEY_PSN_LAST_RX_PSN p.keyId).key, R.CGC_STOP_RX.key] := by
  have psn : Keeps s (s.wr (R.CGC_KEY_PSN_LAST_RX_PSN p.keyId) p.psn) [(R.CGC_KEY_PSN_LAST_RX_PSN p.keyId).key, R.CGC_STOP_RX.key] :=
    (Keeps.refl s _).wr _ List.mem_cons_self
  unfold reqCounted
  dsimp only
  split
  · exact psn.wr _ (List.mem_cons_of_mem _ List.mem_cons_self)
  · exact psn

theorem rd_reqCounted_stop (known : p.keyId < 16) : (reqCounted s p).rd R.CGC_STOP_RX =
    if isStop p.cmd then (s.rd R.CGC_STOP_RX + 1) % 2 ^ R.CGC_STOP_RX.width else s.rd R.CGC_STOP_RX := by
  have away : R.CGC_STOP_RX.key ≠ (R.CGC_KEY_PSN_LAST_RX_PSN p.keyId).key := by dsimp only; omega
  unfold reqCounted
  dsimp only
  split
  · rw [rd_bump_self, rd_wr_ne s _ away]
  · exact rd_wr_ne s _ away

theorem rd_reqCounted_psn (known : p.keyId < 16) : (reqCounted s p).rd (R.CGC_KEY_PSN_LAST_RX_PSN p.keyId) = p.psn := by
  have away : (R.CGC_KEY_PSN_LAST_RX_PSN p.keyId).key ≠ R.CGC_STOP_RX.key := by dsimp only; omega
  have fits : p.psn % 2 ^ 32 = p.psn := Nat.mod_eq_of_lt (Nat.mod_lt _ (by decide))
  unfold reqCounted
  dsimp only
  split
  · rw [rd_bump_ne _ away, rd_wr_self, fits]
  · rw [rd_wr_self, fits]

end

/-- The check of the slot refuses a request whose slot is not right. -/
theorem not_slotOk_iff {s : State} {p : Pkt} : (16 ≤ p.keyId ∨ s.rd (R.CGC_KEY_SLOT_VALID p.keyId) ≠ 1 ∨
    s.rd (R.CGC_KEY_SLOT_SRC_FA p.keyId) ≠ p.srcFa ∨ (s.rd (R.CGC_KEY_SLOT_ROLE p.keyId) = 1 ∧ s.inStack = false)) ↔ ¬ slotOk s p := by
  simp only [slotOk, not_and_or, not_lt, Classical.not_imp, Bool.not_eq_true, ne_eq]

section
variable {s : State} {p : Pkt} (inp : Nat)

theorem checkReq_of_no_slot (h : ¬ slotOk s p) : s.checkReq p inp = s.bump R.CGC_AUTH_NOKEY := if_pos (not_slotOk_iff.2 h)

variable (slot : slotOk s p)
include slot

theorem checkReq_of_false_tag (forged : pktTag (s.slotKey p.keyId) p ≠ p.gmac) :
    s.checkReq p inp = (s.bump R.CGC_AUTH_FAIL).fault 714 0x0B04 0 3 :=
  (if_neg (fun h => not_slotOk_iff.1 h slot)).trans (if_pos forged)

variable (tag : pktTag (s.slotKey p.keyId) p = p.gmac)
include tag

theorem checkReq_of_replay (behind : psnAhead s p = 0 ∨ 2 ^ 31 ≤ psnAhead s p) : s.checkReq p inp = s.bump R.CGC_AUTH_REPLAY :=
  ((if_neg (fun h => not_slotOk_iff.1 h slot)).trans (if_neg (not_not.2 tag))).trans (if_pos behind)

/-- A request with its permission is accepted, at a module that mirrors none (R195, R373). -/
theorem checkReq_of_permitted {b : Nat} (alone : s.isMaster = false) (ahead : ¬ (psnAhead s p = 0 ∨ 2 ^ 31 ≤ psnAhead s p))
    (perm : s.permOf p.cmd = some b) (granted : bitOf (s.rd (R.CGC_KEY_SLOT_PERM p.keyId)) b = true) :
    s.checkReq p inp = (reqCounted s p).withCgc { s.cgc with reqs := s.cgc.reqs ++ [reqOf p inp] } := by
  refine ((if_neg (fun h => not_slotOk_iff.1 h slot)).trans (if_neg (not_not.2 tag))).trans ((if_neg ahead).trans ?_)
  have known : p.keyId < 16 := slot.1
  have master : (reqCounted s p).isMaster = false := by
    have away : ∀ g ∈ masterFields, g.key < 8 * 0x800108 := by decide
    refine (isMaster_of_keeps (keeps_reqCounted s p) (fun g hg => ?_)).trans alone
    have := away g hg
    simp only [List.mem_cons, List.not_mem_nil, or_false]
    omega
  have perm' : (s.wr (R.CGC_KEY_PSN_LAST_RX_PSN p.keyId) p.psn).permOf p.cmd = some b := by
    rw [permOf_of_mode (rd_wr_ne s _ (by dsimp only; omega)), perm]
  have granted' : bitOf ((s.wr (R.CGC_KEY_PSN_LAST_RX_PSN p.keyId) p.psn).rd (R.CGC_KEY_SLOT_PERM p.keyId)) b = true := by
    rw [rd_wr_ne s _ (by dsimp only; omega), granted]
  simp only [reqOf, perm', granted', Bool.not_true, Bool.false_eq_true, if_false]
  change (match (if (reqCounted s p).isMaster && (reqCounted s p).rd (R.CGC_KEY_SLOT_ROLE p.keyId) == 0 &&
    (reqCounted s p).rd R.STK_CFG_STANDBY_IDX != (reqCounted s p).ownMember then _ else (reqCounted s p, none)) with
    | (s, mir) => s.withCgc { s.cgc with reqs := s.cgc.reqs ++ [{ reqOf p inp with mirror := mir }] }) = _
  rw [master]
  simp only [Bool.false_and, Bool.false_eq_true, if_false, reqCounted_cgc]
  rfl

end

/-- The meaning of MGMT_REQ_RX. -/
theorem managementRequests : Claims.ManagementRequests := by
  intro p inp tm rest s runs head awake
  dsimp only
  have run := exec_mgmtReqRx runs head awake
  refine ⟨fun bad => ?_, fun ok => ?_⟩
  · rw [run, reqTaken, arbCrc_of_bad bad]
  · rw [reqTaken, arbCrc_of_ok ok] at run
    have keep := keeps_withArbIn s rest
    have counts : ∀ c : FRef, (s.withArbIn rest).checkReq p inp = (s.withArbIn rest).bump c → Does .mgmtReqRx s (fun t => t.arbIn = rest ∧
        t.rd c = (s.rd c + 1) % 2 ^ c.width ∧ Keeps s t [c.key]) := fun c counted =>
      ⟨_, run.trans (congrArg _ counted), rfl, rd_bump_self _ c, (keep [c.key]).trans (keeps_bump _ c)⟩
    refine ⟨run, fun slot => ?_, fun slot forged => ?_, fun slot tag behind => ?_, fun b slot role alone tag ahead near perm granted => ?_⟩
    · exact counts _ (checkReq_of_no_slot inp slot)
    · exact run.trans (congrArg _ (checkReq_of_false_tag inp slot forged))
    · exact counts _ (checkReq_of_replay inp slot tag behind)
    · have accepted := checkReq_of_permitted (s := s.withArbIn rest) inp slot tag alone
        (not_or.2 ⟨Nat.pos_iff_ne_zero.1 ahead, not_le.2 near⟩) perm granted
      refine ⟨_, run.trans (congrArg _ accepted), ?_, rfl, ?_, ?_, ?_⟩
      · rw [withCgc_arbIn, reqCounted_arbIn, withArbIn_arbIn]
      · rw [rd_congr (withCgc_flds ..), rd_reqCounted_psn _ _ slot.1]
      · rw [rd_congr (withCgc_flds ..), rd_reqCounted_stop _ _ slot.1]
        rfl
      · exact ((keep _).trans (keeps_reqCounted _ p)).trans (keeps_withCgc ..)

/-! MGMT_RESP_RX. -/

/-- What the arbiter island makes of a response that has left the queue (R196, R365). -/
def respTaken (u : State) (p : Pkt) : State :=
  if faService p.destFa ≠ 3 then u.bump R.CGC_MGMT_RESP_DISC
  else if !u.arbRuns then u
  else match u.arbCrc p with
    | (t, false) => t
    | (t, true) =>
      if p.keyId ≠ t.ownSlot ∨ t.rd (R.CGC_KEY_SLOT_VALID p.keyId) ≠ 1 ∨ pktTag (t.slotKey p.keyId) p ≠ p.gmac then t
      else
        match t.stk.sent.find? (fun x => x.psn == p.arg / 2 ^ 32 && x.cmd == p.cmd) with
        | some x => t.stkResponse x (p.arg % 256) (reqValue p) (p.ptype && p.len == 8)
        | none => t

theorem exec_mgmtRespRx {p : Pkt} {inp tm : Nat} {rest : List (Pkt × Nat × Nat)} {s : State}
    (head : takeArb (fun p => p.opcode == 0x81) s.arbIn = some ((p, inp, tm), rest)) :
    exec .mgmtRespRx s = .next (respTaken (s.withArbIn rest) p) := by
  have run : exec .mgmtRespRx s = execMgmtRespRx s := rfl
  rw [run, execMgmtRespRx, head]
  rfl

/-- The meaning of MGMT_RESP_RX. -/
theorem managementResponses : Claims.ManagementResponses := by
  intro p inp tm rest s head
  have run := exec_mgmtRespRx head
  refine ⟨fun elsewhere => ?_, fun here runs => ?_⟩
  · exact ⟨_, run.trans (congrArg _ (if_pos elsewhere)), rfl, rd_bump_self _ _, (keeps_withArbIn s rest _).trans (keeps_bump _ _)⟩
  · have up : (!(s.withArbIn rest).arbRuns) = false := by rw [arbRuns_of_running (s := s.withArbIn rest) runs]; rfl
    simp only [respTaken, here, ne_eq, not_true_eq_false, if_false, up, Bool.false_eq_true] at run
    refine ⟨fun bad => ?_, fun ok own valid tag x sent => ?_, fun ok wrong => ?_⟩
    · rw [run, arbCrc_of_bad bad]
    · have mine : ¬ (¬ p.keyId = (s.withArbIn rest).ownSlot ∨ ¬ (s.withArbIn rest).rd (R.CGC_KEY_SLOT_VALID p.keyId) = 1 ∨
          ¬ pktTag ((s.withArbIn rest).slotKey p.keyId) p = p.gmac) := not_or.2 ⟨not_not.2 own, not_or.2 ⟨not_not.2 valid, not_not.2 tag⟩⟩
      rw [run, arbCrc_of_ok ok]
      simp only [mine, if_false, withArbIn_stk, sent]
    · rw [run, arbCrc_of_ok ok]
      dsimp only
      split
      · rfl
      · rename_i mine
        obtain ⟨own, others⟩ := not_or.1 mine
        obtain ⟨valid, tag⟩ := not_or.1 others
        have unasked := ((wrong.resolve_left own).resolve_left valid).resolve_left tag
        rw [withArbIn_stk, unasked]

/-! PROBE_RX and PROBE_ECHO_RX. -/

section
variable {p : Pkt} {inp tm : Nat} {rest : List (Pkt × Nat × Nat)} {s : State} {f : State → Pkt → Nat → State}
  (head : takeArb (fun p => p.cls == 5) s.arbIn = some ((p, inp, tm), rest))
include head

theorem withProbe_of_ok (ok : crcOk p = true) : s.withProbe p.opcode f = f (s.withArbIn rest) p tm := by
  simp only [withProbe, head, ne_eq, not_true_eq_false, if_false, arbCrc_of_ok ok]

theorem withProbe_of_bad (bad : crcOk p = false) : s.withProbe p.opcode f = ((s.withArbIn rest).bump R.CGC_E2E_CRC).e2eFail 714 := by
  simp only [withProbe, head, ne_eq, not_true_eq_false, if_false, arbCrc_of_bad bad]

end

/-- The header of the echo of a probe (R198). -/
abbrev echoHdr (s : State) (p : Pkt) : HdrSpec := { dest := p.srcFa, src := faOfSvc s.moduleId 0, opcode := 0xA1 }

/-- The echo of a probe (R198). -/
def echoOf (s : State) (p : Pkt) (tm : Nat) : Pkt :=
  mkPkt (echoHdr s p) (mkArea [(32, 8, p.probeId), (40, 8, p.txTime), (48, 8, tm)]) []

/-- The fields of an echo: the probe's source, its identity, its time of sending, and the time at which it came. -/
theorem echoOf_fields (s : State) (p : Pkt) (tm : Nat) : let e := echoOf s p tm
    e.destFa = p.srcFa ∧ e.probeId = p.probeId ∧ e.opcode = 0xA1 ∧ e.txTime = p.txTime ∧ e.rxTime = tm % 2 ^ 64 ∧ e.vl = 15 := by
  have opcode : (echoHdr s p).opcode < 0xC0 := show 0xA1 < 0xC0 by decide
  obtain ⟨vl, -⟩ := mkPkt_routeFields (echoHdr s p) (mkArea [(32, 8, p.probeId), (40, 8, p.txTime), (48, 8, tm)]) []
  obtain ⟨opcode, -⟩ := mkPkt_opFields (mkArea [(32, 8, p.probeId), (40, 8, p.txTime), (48, 8, tm)]) opcode (pay := []) (Nat.zero_le _)
  have narrow : ∀ off : Nat, p.g off 8 % 2 ^ 64 = p.g off 8 := fun off => Nat.mod_eq_of_lt (Nat.mod_lt _ (by decide))
  have source : p.srcFa % 2 ^ 32 = p.srcFa := Nat.mod_eq_of_lt (Nat.mod_lt _ (by decide))
  refine ⟨(mkPkt_destFa _ _ _).trans source, ?_, opcode, ?_, ?_, vl.trans (show vlOf (0xA1 / 32) 0 0xA1 = 15 from rfl)⟩
  all_goals
    refine (mkPkt_g_area _ _ _ (by decide) (by decide)).trans ?_
    simp only [mkArea, List.foldl_cons, List.foldl_nil]
  · rw [sqGet_sqPut_other _ _ _ _ _ _ (by decide) (by decide) (by decide), sqGet_sqPut_other _ _ _ _ _ _ (by decide) (by decide) (by decide),
      sqGet_sqPut_same _ _ _ _ (by decide)]
    exact narrow 32
  · rw [sqGet_sqPut_other _ _ _ _ _ _ (by decide) (by decide) (by decide), sqGet_sqPut_same _ _ _ _ (by decide)]
    exact narrow 40
  · exact sqGet_sqPut_same _ _ _ _ (by decide)

/-- What an echo leaves in the CGC_PROBE_LAST registers, and its count (R198). -/
def echoNoted (s : State) (p : Pkt) (t : Nat) : State :=
  let s := (s.wr R.CGC_PROBE_LAST0_PROBE_ID p.probeId).wr R.CGC_PROBE_LAST1_TX_TIME p.txTime
  let s := (s.wr R.CGC_PROBE_LAST2_RX_TIME p.rxTime).wr R.CGC_PROBE_LAST3_ARRIVAL t
  (s.wr R.CGC_PROBE_LAST4_ECHO_SRC p.srcFa).bump R.CGC_PROBE_ECHO_RX

theorem rd_echoNoted (s : State) (p : Pkt) (t : Nat) : (echoNoted s p t).rd R.CGC_PROBE_LAST0_PROBE_ID = p.probeId ∧
    (echoNoted s p t).rd R.CGC_PROBE_LAST1_TX_TIME = p.txTime ∧ (echoNoted s p t).rd R.CGC_PROBE_LAST2_RX_TIME = p.rxTime ∧
    (echoNoted s p t).rd R.CGC_PROBE_LAST3_ARRIVAL = t % 2 ^ R.CGC_PROBE_LAST3_ARRIVAL.width ∧
    (echoNoted s p t).rd R.CGC_PROBE_LAST4_ECHO_SRC = p.srcFa ∧
    (echoNoted s p t).rd R.CGC_PROBE_ECHO_RX = (s.rd R.CGC_PROBE_ECHO_RX + 1) % 2 ^ R.CGC_PROBE_ECHO_RX.width := by
  have narrow : ∀ off n : Nat, p.g off n % 2 ^ (8 * n) = p.g off n := fun off n => Nat.mod_eq_of_lt (Nat.mod_lt _ (Nat.two_pow_pos _))
  simp (disch := decide) only [echoNoted, rd_bump_self, rd_bump_ne, rd_wr_self, rd_wr_ne, true_and]
  exact ⟨narrow 32 8, narrow 40 8, narrow 48 8, narrow 4 4, trivial⟩

theorem keeps_echoNoted (s : State) (p : Pkt) (t : Nat) : Keeps s (echoNoted s p t) [R.CGC_PROBE_LAST0_PROBE_ID.key, R.CGC_PROBE_LAST1_TX_TIME.key,
    R.CGC_PROBE_LAST2_RX_TIME.key, R.CGC_PROBE_LAST3_ARRIVAL.key, R.CGC_PROBE_LAST4_ECHO_SRC.key, R.CGC_PROBE_ECHO_RX.key] :=
  ((((((Keeps.refl s _).wr _ (by decide)).wr _ (by decide)).wr _ (by decide)).wr _ (by decide)).wr _ (by decide)).wr _ (by decide)

/-- PROBE_RX on the head of the probe queue. -/
theorem exec_probeRx {p : Pkt} (s : State) (op : p.opcode = 0xA0) : exec .probeRx s = .next (s.withProbe p.opcode (fun s p t =>
    if !faSvc p.srcFa || faService p.srcFa != 0 then s.bump R.CGC_PROBE_DISC
    else (s.bump R.CGC_PROBE_RX).build 2 (echoOf s p t) none none none none false)) := by rw [op]; rfl

theorem exec_probeEchoRx {p : Pkt} (s : State) (op : p.opcode = 0xA1) : exec .probeEchoRx s = .next (s.withProbe p.opcode echoNoted) := by
  rw [op]; rfl

/-- The meaning of PROBE_RX and PROBE_ECHO_RX. -/
theorem probeResponder : Claims.ProbeResponder := by
  intro p inp tm rest s head
  have keep := keeps_withArbIn s rest
  refine ⟨fun bad => ?_, fun ok op stranger => ?_, fun ok op svc service => ?_, fun ok op => ?_⟩
  · simp only [List.forall_mem_cons, List.not_mem_nil, false_implies, implies_true, and_true]
    refine ⟨fun op => ?_, fun op => ?_⟩
    · rw [exec_probeRx s op, withProbe_of_bad head bad]
    · rw [exec_probeEchoRx s op, withProbe_of_bad head bad]
  · have discarded : (!faSvc p.srcFa || faService p.srcFa != 0) = true := by
      rw [Bool.or_eq_true, Bool.not_eq_true', bne_iff_ne]
      exact stranger
    have run := exec_probeRx s op
    rw [withProbe_of_ok head ok, if_pos discarded] at run
    exact ⟨_, run, rfl, rd_bump_self _ _, (keep _).trans (keeps_bump _ _)⟩
  · have echoed : ¬ (!faSvc p.srcFa || faService p.srcFa != 0) = true := by simp [svc, service]
    have run := exec_probeRx s op
    rw [withProbe_of_ok head ok, if_neg echoed] at run
    let v := s.withArbIn rest
    obtain ⟨dest, id, opcode, sentAt, cameAt, vl⟩ := echoOf_fields v p tm
    have counted := keeps_bump v R.CGC_PROBE_RX
    have built := keeps_build (v.bump R.CGC_PROBE_RX) 2 (echoOf v p tm) none none none none false none
    have queued := localQ_build (v.bump R.CGC_PROBE_RX) 2 (echoOf v p tm) none none none none false none
    refine ⟨_, run, (build_arbIn ..).trans rfl, (built.rd_eq (by decide)).trans (rd_bump_self v R.CGC_PROBE_RX),
      ⟨builtPkt (echoOf v p tm) none none none none false none, ?_, dest, id, opcode, sentAt, cameAt⟩,
      ((keep _).trans (counted.mono (by decide))).trans (built.mono (by decide))⟩
    rw [vl] at queued
    exact queued
  · have run := exec_probeEchoRx s op
    rw [withProbe_of_ok head ok] at run
    obtain ⟨id, sentAt, cameAt, arrival, source, count⟩ := rd_echoNoted (s.withArbIn rest) p tm
    exact ⟨_, run, rfl, id, sentAt, cameAt, arrival, source, count, (keep _).trans (keeps_echoNoted _ p tm)⟩

/-- Settles O13: the arbiter island takes the oldest packet that a command names, and each check of it leaves its own count. -/
theorem managementTraffic : Obligations.ManagementTraffic :=
  ⟨strobeAndProbeCommands, managementRequests, managementResponses, probeResponder⟩

end Sys2Proof.Machine
end

section
/-!
SUPPORT. The tables of a host complex under their own writes, a write into a ring of a PF (R218, R235, R253), and an admin command that is carried
out (R223, R224).
-/
namespace Sys2Proof.Machine

namespace State

section
variable (s : State) (f q w : Nat)

@[simp] theorem wq_setWq (v : Option Wq) : (s.setWq f q v).wq f q = v := SMap.get_set_self ..
@[simp] theorem cqOf_setCq (v : Option Ring) : (s.setCq f q v).cqOf f q = v := SMap.get_set_self ..
@[simp] theorem wq_setWork (v : Option WorkEnt) : (s.setWork w v).wq f q = s.wq f q := rfl
@[simp] theorem cqOf_setWork (v : Option WorkEnt) : (s.setWork w v).cqOf f q = s.cqOf f q := rfl
@[simp] theorem cqOf_setWq (g h : Nat) (v : Option Wq) : (s.setWq g h v).cqOf f q = s.cqOf f q := rfl
@[simp] theorem cqOf_bump (c : FRef) : (s.bump c).cqOf f q = s.cqOf f q := rfl
@[simp] theorem workEnt_setWork (v : Option WorkEnt) : (s.setWork w v).workEnt w = v := SMap.get_set_self ..

theorem keeps_setWq (v : Option Wq) (ks : List Nat) : Keeps s (s.setWq f q v) ks := (Keeps.refl s ks).of_flds_eq rfl rfl rfl
theorem keeps_setCq (v : Option Ring) (ks : List Nat) : Keeps s (s.setCq f q v) ks := (Keeps.refl s ks).of_flds_eq rfl rfl rfl
theorem keeps_setWork (v : Option WorkEnt) (ks : List Nat) : Keeps s (s.setWork w v) ks := (Keeps.refl s ks).of_flds_eq rfl rfl rfl
theorem keeps_withOut (v : List Output) (ks : List Nat) : Keeps s (s.withOut v) ks := (Keeps.refl s ks).of_flds_eq rfl rfl rfl
theorem keeps_withMsgPba (v : SMap Nat) (ks : List Nat) : Keeps s (s.withMsgPba v) ks := (Keeps.refl s ks).of_flds_eq rfl rfl rfl

end

/-- A message is sent, kept pending or dropped: it changes what is done to the outside and the pending bits alone (R219). -/
theorem sendMsg_eq (s : State) (k : Nat) : ∃ o m, s.sendMsg k = (s.withOut o).withMsgPba m := by
  unfold sendMsg
  split
  · exact ⟨s.out, s.msgPba, rfl⟩
  · split
    · exact ⟨s.out, _, rfl⟩
    · exact ⟨s.msixMsg k :: s.out, s.msgPba, rfl⟩

/-- A write to a ring at its bus address changes what is done to the outside and the pending messages alone. -/
theorem busWrite_eq (s : State) (f bus len data : Nat) (vec : Option Nat) : ∃ o m, s.busWrite f bus len data vec = (s.withOut o).withMsgPba m := by
  cases vec with
  | none => exact ⟨(s.busWrite f bus len data none).out, s.msgPba, rfl⟩
  | some v =>
    obtain ⟨o, m, sent⟩ := sendMsg_eq (s.busWrite f bus len data none) (2048 * f + v)
    exact ⟨o, m, sent⟩

/-- The bytes that a ring write of 32 bytes puts on the bus, first byte first. -/
def ringSquare (data : Nat) : Square := BitVec.ofNat 512 ((bytesLE data 32).foldl (fun a b => a * 256 + b) 0 * 256 ^ 32)

/-- A ring access of a PF is not translated (R235). -/
theorem xlate_of_pf_ring {r : XReq} (pf : isPF r.fn = true) (ctx : r.xctx = 0xFFFF) (ring : r.ring = true) (s : State) :
    s.xlate r = (s, .hit r.addr) := by
  simp [xlate, pf, ctx, ring]

/-- An access of a PF without a context, outside the device windows, is not translated (R235, R240). -/
theorem xlate_of_pf {r : XReq} {s : State} (pf : isPF r.fn = true) (ctx : r.xctx = 0xFFFF) (outside : s.inWindow (r.fn / 128) r.addr = false) :
    s.xlate r = (s, .hit r.addr) := by
  simp [xlate, pf, ctx, outside]

theorem ringWrite_of_pf {s : State} {f : Nat} (pf : isPF f = true) (live : s.fnTeardown f = false) (held : s.trn.heldWr = [])
    (base fpa len data : Nat) (vec : Option Nat) : s.ringWrite f base fpa len data vec = s.busWrite f fpa len data vec := by
  simp only [ringWrite, live, held, List.any_nil, Bool.false_eq_true, if_false]
  rw [xlate_of_pf_ring (r := { fn := f, xctx := 0xFFFF, addr := fpa, wr := true, ring := true, own := base }) pf rfl rfl]

/-- The entry that a ring gets next: `data` with the phase of its lap (R210, R218). -/
def ringEntry (r : Ring) (data : Nat) : Nat := data % 2 ^ 248 + b2n (r.next / 2 ^ r.log % 2 == 0) * 2 ^ 255

/-- A ring after one more entry. -/
def pushedRing (r : Ring) : Ring := { r with next := r.next + 1, used := r.used + 1, armed := false }

theorem ringPush_of_pf {s : State} {r : Ring} (pf : isPF r.fn = true) (live : s.fnTeardown r.fn = false) (held : s.trn.heldWr = []) (data : Nat) :
    s.ringPush r data = (s.busWrite r.fn (r.base + 32 * (r.next % 2 ^ r.log)) 32 (ringEntry r data)
      (if r.armed && r.vector != 0xFFFF then some r.vector else none), pushedRing r) := by
  simp only [ringPush, ringPushVia, ringWrite_of_pf pf live held]
  rfl

/-- What the completion of a PF's admin command writes (R218, R220, R223). -/
def admCqe (x : WorkEnt) (a : Adm) : Cqe :=
  { user := fld x.ent 48 8, tag := a.result, qid := x.qid, status := a.status, detail := a.detail }

/-- `s` after the completion `c` has been pushed into ring `r`, completion queue `h` of a PF, in the slot kept for it (R218). -/
def cqeWritten (s : State) (f h : Nat) (r : Ring) (c : Cqe) : State :=
  let u := s.busWrite f (r.base + 32 * (r.next % 2 ^ r.log)) 32 (ringEntry r (cqeBits c))
    (if r.armed && r.vector != 0xFFFF then some r.vector else none)
  (u.setCq f h (some (pushedRing { r with reserved := r.reserved - 1 }))).bump (R.HPT_FN_CQE (f / 128) (f % 128))

theorem writeCqe_of_pf {s : State} {f h : Nat} {r : Ring} (pf : isPF f = true) (ring : s.cqOf f h = some r) (ringFn : r.fn = f)
    (live : s.fnTeardown f = false) (held : s.trn.heldWr = []) (c : Cqe) : s.writeCqe f h c true = cqeWritten s f h r c := by
  subst ringFn
  have push := ringPush_of_pf (s := s) (r := { r with reserved := r.reserved - 1 }) pf live held (cqeBits c)
  simp only [writeCqe, ring, live, Bool.false_eq_true, if_false, if_true, push]
  rfl

section
variable (s : State) (f h : Nat) (r : Ring) (c : Cqe)

/-- What the completion of a PF leaves: the bus and the messages, the ring, and its count. -/
theorem cqeWritten_eq : ∃ o m, cqeWritten s f h r c =
    (((s.withOut o).withMsgPba m).setCq f h (some (pushedRing { r with reserved := r.reserved - 1 }))).bump (R.HPT_FN_CQE (f / 128) (f % 128)) := by
  obtain ⟨o, m, written⟩ := busWrite_eq s f (r.base + 32 * (r.next % 2 ^ r.log)) 32 (ringEntry r (cqeBits c))
    (if r.armed && r.vector != 0xFFFF then some r.vector else none)
  exact ⟨o, m, congrArg (fun u : State => (u.setCq f h (some (pushedRing { r with reserved := r.reserved - 1 }))).bump _) written⟩

theorem cqeWritten_cqOf : (cqeWritten s f h r c).cqOf f h = some (pushedRing { r with reserved := r.reserved - 1 }) := by
  obtain ⟨o, m, written⟩ := cqeWritten_eq s f h r c
  rw [written, cqOf_bump, cqOf_setCq]

theorem rd_cqeWritten : (cqeWritten s f h r c).rd (R.HPT_FN_CQE (f / 128) (f % 128)) =
    (s.rd (R.HPT_FN_CQE (f / 128) (f % 128)) + 1) % 2 ^ (R.HPT_FN_CQE (f / 128) (f % 128)).width := by
  obtain ⟨o, m, written⟩ := cqeWritten_eq s f h r c
  rw [written, rd_bump_self]
  rfl

theorem keeps_cqeWritten : Keeps s (cqeWritten s f h r c) [(R.HPT_FN_CQE (f / 128) (f % 128)).key] := by
  obtain ⟨o, m, written⟩ := cqeWritten_eq s f h r c
  rw [written]
  exact (((keeps_withOut s o _).trans (keeps_withMsgPba _ m _)).trans (keeps_setCq ..)).trans (keeps_bump _ _)

/-- What an unarmed ring's completion puts on the bus. -/
theorem out_cqeWritten (quiet : r.armed = false) : (cqeWritten s f h r c).out =
    .hostWrite (f / 128) (s.routingId f) (r.base + 32 * (r.next % 2 ^ r.log)) [ringSquare (ringEntry r (cqeBits c))] 0 32 :: s.out := by
  rw [cqeWritten, quiet]
  rfl

end

theorem endWorkTag_of_untagged {s : State} (untagged : s.pmon.works = []) (w status : Nat) : s.endWorkTag w status = s := by
  simp only [endWorkTag, untagged, List.find?_nil]

/-- Nothing is looked at in an admin queue that is empty. -/
theorem adminSettle_of_empty {s : State} {f : Nat} {k : Wq} (queue : s.wq f adminQ = some k) (empty : k.ents = []) (n : Nat) :
    s.adminSettle n f = s := by
  cases n with
  | zero => rfl
  | succ n => simp only [adminSettle, queue, empty]

/-! An admin command that is carried out. -/

theorem adminHead_of_cmd {s : State} {f acmd w g : Nat} {x : WorkEnt} {k : Wq} (cmd : AdminCmd s f acmd w x k g) :
    s.adminHead f acmd = some (w, x, k) := by
  obtain ⟨live, queue, -, head, entry, code, -⟩ := cmd
  obtain ⟨ents, order⟩ := List.head?_eq_some_iff.1 head
  simp only [adminHead, live, queue, order, entry, code, Bool.false_eq_true, if_false, if_true]

theorem adminTarget_of_cmd {s : State} {f acmd w g : Nat} {x : WorkEnt} {k : Wq} (cmd : AdminCmd s f acmd w x k g) {pfOnly : Bool}
    (issuer : pfOnly = true → f % 128 = 0) : s.adminTarget f x.ent pfOnly = .ok g := by
  obtain ⟨-, -, -, -, -, -, names, enabled, standing⟩ := cmd
  have target : (if fld x.ent 2 2 = 0xFFFF then f else f - f % 128 + fld x.ent 2 2) = g := by
    obtain ⟨own, same⟩ | ⟨small, same, -⟩ := names
    · rw [if_pos own, same]
    · rw [if_neg (by omega), same]
  have permitted : (!isPF f && (pfOnly || g != f)) = false := by
    by_cases pf : f % 128 = 0
    · simp [isPF, pf]
    · have self : g = f := by
        obtain ⟨-, same⟩ | ⟨-, -, may⟩ := names
        · exact same
        · exact may.resolve_left pf
      have open_ : pfOnly = false := by
        cases pfOnly
        · rfl
        · exact absurd (issuer rfl) pf
      simp [self, open_]
  have exists_ : ¬ ((fld x.ent 2 2 ≠ 0xFFFF ∧ 128 ≤ fld x.ent 2 2) ∨ s.fnEnabled g = false) := by
    rw [enabled]
    simp only [Bool.true_eq_false, or_false, not_and]
    omega
  simp only [adminTarget, target, permitted, exists_, standing, Bool.false_eq_true, if_false]

/-- A command that the queue has reached and whose target may be named ends as its body says. -/
theorem admin_of_cmd {s t : State} {f acmd w g : Nat} {x : WorkEnt} {k : Wq} (cmd : AdminCmd s f acmd w x k g) {pfOnly : Bool}
    (issuer : pfOnly = true → f % 128 = 0) {body : State → BitVec 512 → Nat → State × Option Adm} {r : Adm}
    (done : body s x.ent g = (t, some r)) : s.admin f acmd pfOnly body = t.adminEnd f w r := by
  have idle : k.inv = none := cmd.2.2.1
  simp only [admin, adminHead_of_cmd cmd, idle, Option.isSome_none, Bool.false_eq_true, if_false, adminTarget_of_cmd cmd issuer, done]

/-- As `admin_of_cmd`, for a command that any function may issue. -/
theorem admin_of_open_cmd {s t : State} {f acmd w g : Nat} {x : WorkEnt} {k : Wq} (cmd : AdminCmd s f acmd w x k g)
    {body : State → BitVec 512 → Nat → State × Option Adm} {r : Adm} (done : body s x.ent g = (t, some r)) :
    s.admin f acmd false body = t.adminEnd f w r := admin_of_cmd cmd (fun h => absurd h Bool.false_ne_true) done

/-- The search from `lo` finds the lowest free handle. -/
theorem lowFree_of_lowest {free used : Nat → Bool} (opposite : ∀ i, used i = !free i) {lo h fuel : Nat} (lowest : Lowest free lo h)
    (reach : h ≤ lo + fuel) : lowFree fuel used lo = h := by
  obtain ⟨above, isFree, below⟩ := lowest
  induction fuel generalizing lo with
  | zero => exact Nat.le_antisymm above reach
  | succ fuel ih =>
    rw [lowFree, opposite]
    by_cases there : lo = h
    · rw [there, isFree]
      rfl
    · rw [below lo (by omega) (Nat.le_refl lo)]
      exact ih (by omega) (by omega) (fun i small big => below i small (by omega))

end State
end Sys2Proof.Machine
end

section
/-!
The obligation of admin commands that create, remove and query (R64, R206, R208, R209, R218, R220, R223, R224, R226, R227).
-/
namespace Sys2Proof.Machine
open State

/-- `s` after the command that was alone in a PF's admin queue has ended: its completion is written, and it is gone. -/
def adminEnded (s : State) (f w : Nat) (x : WorkEnt) (k : Wq) (r : Ring) (a : Adm) : State :=
  ((cqeWritten (s.setWork w (some { x with fin := some (admCqe x a) })) f k.cq r (admCqe x a)).setWq f adminQ (some { k with ents := [] })).setWork w none

section
variable (s : State) (f w : Nat) (x : WorkEnt) (k : Wq) (r : Ring) (a : Adm)

theorem adminEnded_workEnt : (adminEnded s f w x k r a).workEnt w = none := by rw [adminEnded, workEnt_setWork]
theorem adminEnded_wq : (adminEnded s f w x k r a).wq f adminQ = some { k with ents := [] } := by rw [adminEnded, wq_setWork, wq_setWq]
theorem adminEnded_cqOf : (adminEnded s f w x k r a).cqOf f k.cq = some (pushedRing { r with reserved := r.reserved - 1 }) := by
  rw [adminEnded, cqOf_setWork, cqOf_setWq, cqeWritten_cqOf]

theorem rd_adminEnded : (adminEnded s f w x k r a).rd (R.HPT_FN_CQE (f / 128) (f % 128)) =
    (s.rd (R.HPT_FN_CQE (f / 128) (f % 128)) + 1) % 2 ^ (R.HPT_FN_CQE (f / 128) (f % 128)).width :=
  rd_cqeWritten (s.setWork w (some { x with fin := some (admCqe x a) })) f k.cq r (admCqe x a)

theorem keeps_adminEnded : Keeps s (adminEnded s f w x k r a) [(R.HPT_FN_CQE (f / 128) (f % 128)).key] :=
  (((keeps_setWork ..).trans (keeps_cqeWritten ..)).trans (keeps_setWq ..)).trans (keeps_setWork ..)

/-- What the completion of a command puts on the bus where the ring is not armed. -/
theorem out_adminEnded (quiet : r.armed = false) : (adminEnded s f w x k r a).out =
    .hostWrite (f / 128) (s.routingId f) (r.base + 32 * (r.next % 2 ^ r.log)) [ringSquare (ringEntry r (cqeBits (admCqe x a)))] 0 32 :: s.out :=
  out_cqeWritten (s.setWork w (some { x with fin := some (admCqe x a) })) f k.cq r (admCqe x a) quiet

end

/-- The end of a PF's command that is alone in the admin queue. -/
theorem adminEnd_of_alone {f w : Nat} {x : WorkEnt} {k : Wq} {r : Ring} {s : State} (a : Adm) (pf : f % 128 = 0) (entry : s.workEnt w = some x)
    (own : x.fn = f) (admin : x.qid = adminQ) (pending : x.fin = none) (queue : s.wq f adminQ = some k) (qid : k.qid = adminQ) (alone : k.ents = [w])
    (ring : s.cqOf f k.cq = some r) (ringFn : r.fn = f) (free : s.trn.heldWr = []) (live : s.fnTeardown f = false) (untagged : s.pmon.works = []) :
    s.adminEnd f w a = adminEnded s f w x k r a := by
  have isPf : isPF f = true := by rw [isPF, pf]; rfl
  let u := s.setWork w (some { x with fin := some (admCqe x a) })
  have queue' : s.wq x.fn x.qid = some k := by rw [own, admin]; exact queue
  have written : u.writeCqe x.fn k.cq (admCqe x a) true = cqeWritten u f k.cq r (admCqe x a) := by
    rw [own]; exact writeCqe_of_pf (s := u) isPf ring ringFn live free (admCqe x a)
  have atOnce : (k.recv || k.qid == adminQ) = true := by simp [qid]
  have drop : k.ents.filter (· != w) = [] := by simp [alone]
  have finished : s.finish w a.status a.detail a.result = adminEnded s f w x k r a := by
    simp only [finish, entry, pending, endWorkTag_of_untagged untagged, wq_setWork, queue', atOnce, Option.isSome_none, Bool.false_eq_true, if_false,
      if_true]
    change ((u.writeCqe x.fn k.cq (admCqe x a) true).setWq x.fn x.qid (some { k with ents := k.ents.filter (· != w) })).setWork w none = _
    rw [written, drop, own, admin, adminEnded]
  rw [adminEnd, finished]
  exact adminSettle_of_empty (s := adminEnded s f w x k r a) (f := f) (k := { k with ents := [] }) (adminEnded_wq ..) rfl 4097

/-- How an admin command of a PF ends. -/
theorem adminCompletion : Claims.AdminCompletion := by
  intro f w x k r a s _ pf entry own admin pending queue qid alone ring ringFn free live untagged
  have ended := adminEnd_of_alone a pf entry own admin pending queue qid alone ring ringFn free live untagged
  dsimp only
  rw [ended]
  refine ⟨adminEnded_workEnt .., ?_, ?_, rd_adminEnded .., keeps_adminEnded .., fun quiet => ?_⟩
  · rw [adminEnded_wq]
    rfl
  · rw [adminEnded_cqOf]
    rfl
  · rw [out_adminEnded s f w x k r a quiet, List.head?_cons, admCqe, admin]
    rfl

theorem ringArgs_of_legal {log top base vec : Nat} (least : 6 ≤ log) (most : log ≤ top) (aligned : base % 4096 = 0)
    (vector : vec = 0xFFFF ∨ vec < 2048) : ringArgs log top base vec = true := by
  simp [ringArgs, least, most, aligned, vector]

section
variable {f : Fin 512} {w g h : Nat} {x : WorkEnt} {k : Wq} {s : State}

/-- CREATE_WQ (R208, R209). -/
theorem createWq_ends (cmd : AdminCmd s f 0x01 w x k g) {n : Nat} (log : 6 ≤ fld x.ent 4 1 % 16) (base : fld x.ent 8 8 % 4096 = 0)
    (cq : fld x.ent 16 2 ≠ 0) (exists_ : (s.cqOf g (fld x.ent 16 2)).isSome = true)
    (job : fld x.ent 18 2 = 0xFFFF ∨ s.jobOk g (fld x.ent 18 2) = true) (xctx : s.xctxOk g (fld x.ent 20 2) = true)
    (quota : (s.wqList g).length < s.wqQuota g) (pawn : s.choosePawn s.pawnWqs = some n) (fits : h < 65536)
    (lowest : Lowest (fun i => (s.wq g i).isNone) 0 h) :
    Ends (.createWq f) s (s.setWq g h (some {
      fn := g, qid := h, recv := bitOf (fld x.ent 4 1) 4, yellow := bitOf (fld x.ent 4 1) 5, base := fld x.ent 8 8, log := fld x.ent 4 1 % 16
      cq := fld x.ent 16 2, job := fld x.ent 18 2, xctx := fld x.ent 20 2, pawn := n })) f w (admOk (h + n * 2 ^ 16)) := by
  have args : ringArgs (fld x.ent 4 1 % 16) 16 (fld x.ent 8 8) 0xFFFF = true := ringArgs_of_legal log (by omega) base (.inl rfl)
  have named : (fld x.ent 16 2 == 0 || (s.cqOf g (fld x.ent 16 2)).isNone || !(fld x.ent 18 2 == 0xFFFF || s.jobOk g (fld x.ent 18 2)) ||
      !s.xctxOk g (fld x.ent 20 2)) = false := by
    have present : (s.cqOf g (fld x.ent 16 2)).isNone = false := by rw [← Option.not_isSome, exists_]; rfl
    have jobs : (fld x.ent 18 2 == 0xFFFF || s.jobOk g (fld x.ent 18 2)) = true := by simpa using job
    simp [cq, present, jobs, xctx]
  have handle : lowFree 65536 (fun i => (s.wq g i).isSome) 0 = h :=
    lowFree_of_lowest (fun i => (Option.not_isNone _).symm) lowest (by omega)
  refine congrArg _ (admin_of_open_cmd cmd ?_)
  simp only [args, named, not_le.2 quota, pawn, handle, not_le.2 fits, Bool.not_true, Bool.false_eq_true, if_false]

/-- CREATE_CQ (R208, R209). -/
theorem createCq_ends (cmd : AdminCmd s f 0x03 w x k g) (log : 6 ≤ fld x.ent 4 1 % 32) (log' : fld x.ent 4 1 % 32 ≤ 20)
    (base : fld x.ent 8 8 % 4096 = 0) (vector : fld x.ent 16 2 = 0xFFFF ∨ fld x.ent 16 2 < 2048) (quota : (s.cqList g).length < s.cqQuota g)
    (fits : h < 65536) (lowest : Lowest (fun i => (s.cqOf g i).isNone) 1 h) :
    Ends (.createCq f) s (s.setCq g h (some { fn := g, h := h, base := fld x.ent 8 8, log := fld x.ent 4 1 % 32, vector := fld x.ent 16 2 })) f w
      (admOk h) := by
  have args := ringArgs_of_legal log log' base vector
  have handle : lowFree 65536 (fun i => (s.cqOf g i).isSome) 1 = h :=
    lowFree_of_lowest (fun i => (Option.not_isNone _).symm) lowest (by omega)
  refine congrArg _ (admin_of_open_cmd cmd ?_)
  simp only [args, not_le.2 quota, handle, not_le.2 fits, Bool.not_true, Bool.false_eq_true, if_false]

/-- CREATE_EQ (R208, R209). -/
theorem createEq_ends (cmd : AdminCmd s f 0x05 w x k g) (log : 6 ≤ fld x.ent 4 1 % 32) (log' : fld x.ent 4 1 % 32 ≤ 16)
    (base : fld x.ent 8 8 % 4096 = 0) (vector : fld x.ent 16 2 = 0xFFFF ∨ fld x.ent 16 2 < 2048) (quota : (s.eqList g).length < s.eqQuota g)
    (fits : h < 2048) (lowest : Lowest (fun i => (s.eqOf g i).isNone) 0 h) :
    Ends (.createEq f) s (s.setEq g h (some { fn := g, h := h, base := fld x.ent 8 8, log := fld x.ent 4 1 % 32, vector := fld x.ent 16 2 })) f w
      (admOk h) := by
  have args := ringArgs_of_legal log log' base vector
  have handle : lowFree 2048 (fun i => (s.eqOf g i).isSome) 0 = h :=
    lowFree_of_lowest (fun i => (Option.not_isNone _).symm) lowest (by omega)
  refine congrArg _ (admin_of_open_cmd cmd ?_)
  simp only [args, not_le.2 quota, handle, not_le.2 fits, Bool.not_true, Bool.false_eq_true, if_false]

/-- CREATE_JOB (R64, R208). -/
theorem createJob_ends (cmd : AdminCmd s f 0x07 w x k g) {a : Nat} (xctx : s.xctxOk g (fld x.ent 12 2) = true)
    (eq : s.eqOk g (fld x.ent 14 2) = true) (quota : (s.jobList g).length < s.jobQuota g) (place : s.rankPlace (fld x.ent 4 4) = some a)
    (fits : h < 4096) (lowest : Lowest (fun i => (s.job i).isNone) 0 h) :
    Ends (.createJob f) s (s.withJobs (SMap.set none s.jobs h (some {
      fn := g, jobId := fld x.ent 8 4, entries := fld x.ent 4 4, base := a, xctx := fld x.ent 12 2
      eq := if fld x.ent 14 2 = 0xFFFF then 0 else fld x.ent 14 2 }))) f w (admOk (h + a * 2 ^ 16)) := by
  have handle : lowFree 4096 (fun i => (s.job i).isSome) 0 = h :=
    lowFree_of_lowest (fun i => (Option.not_isNone _).symm) lowest (by omega)
  refine congrArg _ (admin_of_open_cmd cmd ?_)
  simp only [xctx, eq, not_le.2 quota, place, handle, not_le.2 fits, Bool.not_true, Bool.or_self, Bool.false_eq_true, if_false]

/-- DESTROY_WQ (R226): an active queue without entries, whose slot at the front is not owned. -/
theorem destroyWq_ends (cmd : AdminCmd s f 0x02 w x k g) {v : Wq} {r : Ring} {ans : HostAns} (queue : s.wq g (fld x.ent 4 2) = some v)
    (own : v.fn = g) (active : v.state = 1) (idle : v.ents = []) (free : s.ringHeld v = false) (pf : g % 128 = 0)
    (ring : s.cqOf g v.cq = some r) (calm : quiet v ans = true) :
    Ends (.destroyWq f ans) s ((((s.ringRead g ans).setCq g v.cq (some r)).dropFaults (fun r => r.ring && r.fn == g && r.qid == fld x.ent 4 2)).setWq g
      (fld x.ent 4 2) none) f w admOk := by
  have isPf : isPF (slotReq v).fn = true := by rw [isPF, slotReq, own, pf]; rfl
  have same : { v with ents := [] } = v := by rw [← idle]
  have ring' : (s.ringRead g ans).cqOf g v.cq = some r := by
    rw [← ring]
    unfold ringRead aerRead
    cases aerBit ans <;> rfl
  refine congrArg _ (admin_of_open_cmd cmd ?_)
  simp only [queue, xlate_of_pf_ring isPf rfl rfl, same, calm, ring', Bool.not_true]
  simp only [active, idle, free, ne_eq, not_true_eq_false, List.any_nil, Bool.false_eq_true, or_self, if_false, List.filter_nil, List.length_nil,
    Nat.sub_zero, List.foldl_nil]

/-- DESTROY_CQ (R226): a ring without a held write that no queue of its function names. -/
theorem destroyCq_ends (cmd : AdminCmd s f 0x04 w x k g) {r : Ring} (ring : s.cqOf g (fld x.ent 4 2) = some r)
    (free : s.writeHeld g r.base = false) (unnamed : ∀ v ∈ s.wqs, ∀ q, v.2 = some q → q.fn = g → q.cq ≠ fld x.ent 4 2) :
    Ends (.destroyCq f) s (s.setCq g (fld x.ent 4 2) none) f w admOk := by
  refine congrArg _ (admin_of_open_cmd cmd ?_)
  simp only [ring, free, Option.isNone_some, Bool.false_eq_true, if_false]
  refine if_neg fun named => ?_
  obtain ⟨v, listed, names⟩ := List.any_eq_true.1 named
  cases held : v.2 with
  | none => simp [held] at names
  | some q =>
    have names' : q.fn = g ∧ q.cq = fld x.ent 4 2 := by simpa [held] using names
    exact unnamed v listed q held names'.1 names'.2

/-- DESTROY_EQ (R226). -/
theorem destroyEq_ends (cmd : AdminCmd s f 0x06 w x k g) {r : Ring} (small : fld x.ent 4 2 < 2048) (ring : s.eqOf g (fld x.ent 4 2) = some r)
    (free : s.writeHeld g r.base = false) (unnamed : s.eqNamed g (fld x.ent 4 2) = false) :
    Ends (.destroyEq f) s (s.setEq g (fld x.ent 4 2) none) f w admOk := by
  refine congrArg _ (admin_of_open_cmd cmd ?_)
  simp only [ring, free, unnamed, not_le.2 small, Option.isNone_some, Bool.or_self, Bool.false_eq_true, or_self, if_false]

/-- DESTROY_JOB (R226): a job context that no queue and no domain names. -/
theorem destroyJob_ends (cmd : AdminCmd s f 0x08 w x k g) {j : Job} (job : s.job (fld x.ent 4 2) = some j) (own : j.fn = g)
    (queues : ∀ v ∈ s.wqs, ∀ q, v.2 = some q → q.job ≠ fld x.ent 4 2) (doms : ∀ v ∈ s.mtc.doms, ∀ d, v.2 = some d → d.job ≠ fld x.ent 4 2) :
    Ends (.destroyJob f) s (s.endJob (fld x.ent 4 2) j) f w admOk := by
  refine congrArg _ (admin_of_open_cmd cmd ?_)
  simp only [job, own, ne_eq, not_true_eq_false, if_false]
  refine if_neg fun named => ?_
  obtain byQueue | byDomain := Bool.or_eq_true_iff.1 named
  · obtain ⟨v, listed, names⟩ := List.any_eq_true.1 byQueue
    cases held : v.2 with
    | none => simp [held] at names
    | some q => exact queues v listed q held (by simpa [held] using names)
  · obtain ⟨v, listed, names⟩ := List.any_eq_true.1 byDomain
    cases held : v.2 with
    | none => simp [held] at names
    | some d => exact doms v listed d held (by simpa [held] using names)

/-- The source of a RANK_WRITE on one page is read at once by a PF without a context (R64). -/
theorem rankBytes_of_page {r : XReq} {len n : Nat} {bs : List (BitVec 8)} (some_ : len ≠ 0) (page : r.addr % 4096 + len ≤ 4096)
    (hit : s.xlate r = (s, .hit r.addr)) (read : len ≤ bs.length) :
    rankBytes (n + 2) s r len [.ok bs] [] = (s, some ((bs.map BitVec.toNat).take len, admOk)) := by
  have whole : min len (4096 - r.addr % 4096) = len := by omega
  have full : ((bs.map BitVec.toNat).take len).length = len := by rw [List.length_take, List.length_map]; omega
  simp only [rankBytes, some_, if_false, hit, whole, full, Nat.sub_self, List.replicate_zero, List.nil_append, List.append_nil, if_true]

/-- RANK_WRITE (R64, R66) of entries whose source lies on one page. -/
theorem rankWrite_ends (cmd : AdminCmd s f 0x09 w x k g) {j : Job} {bs : List (BitVec 8)} (some_ : 1 ≤ fld x.ent 12 4) (fits : fld x.ent 12 4 ≤ 512)
    (job : s.job (fld x.ent 4 2) = some j) (own : j.fn = g) (inside : fld x.ent 8 4 + fld x.ent 12 4 ≤ j.entries) (pf : g % 128 = 0)
    (xctx : j.xctx = 0xFFFF) (outside : s.inWindow (g / 128) (fld x.ent 16 8) = false)
    (page : fld x.ent 16 8 % 4096 + 8 * fld x.ent 12 4 ≤ 4096) (read : 8 * fld x.ent 12 4 ≤ bs.length) :
    Ends (.rankWrite f [.ok bs]) s (s.writeRanks (j.base + 8 * fld x.ent 8 4) ((bs.map BitVec.toNat).take (8 * fld x.ent 12 4)) (fld x.ent 12 4)) f w
      (admOk (fld x.ent 12 4)) := by
  have isPf : isPF g = true := by rw [isPF, pf]; rfl
  have length : ((bs.map BitVec.toNat).take (8 * fld x.ent 12 4)).length / 8 = fld x.ent 12 4 := by
    rw [List.length_take, List.length_map]; omega
  have bytes := rankBytes_of_page (n := fld x.ent 12 4) (s := s) (bs := bs)
    (r := { fn := g, xctx := j.xctx, addr := fld x.ent 16 8, wr := false, own := 2 ^ 127 + f.val }) (by omega) page (xlate_of_pf isPf xctx outside) read
  have legal : ¬ (fld x.ent 12 4 < 1 ∨ 512 < fld x.ent 12 4) := by omega
  refine congrArg _ (admin_of_open_cmd cmd ?_)
  simp only [legal, job, own, not_lt.2 inside, bytes, length, ne_eq, not_true_eq_false, if_false]
  rfl

/-- SET_VF_QUOTA (R208): of a VF that holds nothing, within the host port's share. -/
theorem setVfQuota_ends (cmd : AdminCmd s f 0x0B w x k g) (vf : g % 128 ≠ 0) (pf : f.val % 128 = 0) (wqs : fld x.ent 4 4 ≤ 65536)
    (eqs : fld x.ent 10 2 ≤ 2048) (jobs : fld x.ent 12 2 ≤ 4096) (noWq : s.wqList g = []) (noCq : s.cqList g = []) (noEq : s.eqList g = [])
    (noJob : s.jobList g = []) : let p := g / 128; let n := g % 128; let e := x.ent
    let t := (((s.wr (R.HPT_FN_QUOTA_WQ p n) (fld e 4 4)).wr (R.HPT_FN_QUOTA_CQ p n) (fld e 8 2)).wr (R.HPT_FN_QUOTA_EQ p n) (fld e 10 2)).wr
      (R.HPT_FN_QUOTA_JOB p n) (fld e 12 2)
    let admins := ((List.range 128).filter (fun i => (s.cqOf (128 * p + i) 0).isSome)).length
    t.quotaSum (R.HPT_FN_QUOTA_WQ p) + (s.wqList (128 * p)).length ≤ s.rd (R.HPT_PORT_POOL_WQ p) →
    t.quotaSum (R.HPT_FN_QUOTA_CQ p) + (s.cqList (128 * p)).length + admins ≤ s.rd (R.HPT_PORT_POOL_CQ p) →
    t.quotaSum (R.HPT_FN_QUOTA_EQ p) + (s.eqList (128 * p)).length ≤ s.rd (R.HPT_PORT_POOL_EQ p) →
    t.quotaSum (R.HPT_FN_QUOTA_JOB p) + (s.jobList (128 * p)).length ≤ s.rd (R.HPT_PORT_CFG_JOB_POOL p) →
    Ends (.setVfQuota f) s t f w admOk := by
  intro p n e t admins wqRoom cqRoom eqRoom jobRoom
  have notPf : isPF g = false := by simpa [isPF] using vf
  have legal : ¬ (65536 < fld x.ent 4 4 ∨ 2048 < fld x.ent 10 2 ∨ 4096 < fld x.ent 12 2) := by omega
  refine congrArg _ (admin_of_cmd cmd (fun _ => pf) ?_)
  simp only [notPf, legal, noWq, noCq, noEq, noJob, List.length_nil, Nat.not_lt_zero, not_lt.2 wqRoom, not_lt.2 cqRoom, not_lt.2 eqRoom,
    not_lt.2 jobRoom, decide_false, Bool.or_self, Bool.false_eq_true, if_false, t, p, n, e, admins]

end

/-- The meaning of the commands that create, remove and write objects. -/
theorem adminObjects : Claims.AdminObjects := by
  intro f w g h x k s
  exact ⟨fun cmd _ => createWq_ends cmd, fun cmd _ _ _ => destroyWq_ends cmd, createCq_ends, fun cmd _ => destroyCq_ends cmd, createEq_ends,
    fun cmd _ => destroyEq_ends cmd, fun cmd _ => createJob_ends cmd, fun cmd _ => destroyJob_ends cmd, fun cmd _ _ => rankWrite_ends cmd⟩

/-- The meaning of the commands of quotas, counters and functions. -/
theorem adminFunctions : Claims.AdminFunctions := by
  intro f w g x k s
  refine ⟨fun cmd => ?_, setVfQuota_ends, fun cmd pf => ?_, fun cmd => ?_⟩
  · have run : exec (.fnReset f) s = execFnReset f s := rfl
    rw [run, execFnReset, adminHead_of_cmd cmd]
    simp only [adminTarget_of_cmd cmd (fun h => absurd h Bool.false_ne_true)]
  · exact congrArg _ (admin_of_cmd cmd (fun _ => pf) rfl)
  · exact congrArg _ (admin_of_open_cmd cmd rfl)

/-- Settles O20: a command that the queue has reached and that its checks let pass does what its body says and then ends, and its completion takes the
slot kept for it. -/
theorem adminObjectCommands : Obligations.AdminObjectCommands := ⟨adminCompletion, adminObjects, adminFunctions⟩

end Sys2Proof.Machine
end

section
/-!
The obligation of requests that build their packets (R65, R183, R204, R257, R272 to R277, R296, R299, R316, R352, R353), which fails: the caches
of the translation unit are free in it.
-/
namespace Sys2Proof.Machine
open State

namespace CachedPut

/-- The peer of the connection, and the connection's number. -/
def peer : Nat := 0x80001234
def cid : Nat := cidOf 0 peer 7

/-- A PUT of 64 bytes at address 0x1040 of function 0, a PF, on its connection. -/
def entry : WorkEnt :=
  { fn := 0, qid := 1, ent := BitVec.ofNat 512 (1 + 0x1040 * 2 ^ 64 + 64 * 2 ^ 128), cid := some cid, dest := some peer, started := true, lane := 7 }
def queue : Wq := { fn := 0, qid := 1, base := 4096, log := 6, cq := 1, ents := [7] }
def connection : Conn := { fn := 0, peer := peer, conn := 7, pawn := 3, state := 2, epoch := 77, w := 4096, rto := 8000 }

/-- A translation of the page at 0x1000 for accesses of function 0 without a context. -/
def cached : XEnt := { fn := 0, xctx := 0xFFFF, base := 0x1000, log := 12, out := 0x1000, fpa := 0x1000, attr := 31, expire := 0 }

/-- A module with fabric time, room in the retransmission store, the PUT at work, and the translation in the shared cache of host port 0. -/
def state : State :=
  (((((State.reset.wrB R.TIM_STAT_VALID true).wr R.CGC_GRANT_CFG_GRANT_EN 0).wr R.XPT_STORE_STAT_SIZE 1000).setWq 0 1 (some queue)).setConn cid
    (some connection)).setWork 7 (some entry) |>.withTrn { State.reset.trn with shared := [(0, [cached])] }

/-- The PUT has its connection and may build. -/
theorem builds : Builds state (7 : BitVec 32).toNat 1 cid entry queue connection := by decide +kernel

/-- No device window is open on host port 0. -/
theorem noWindow : ∀ i : Fin 16, state.rd (R.TRN_DWIN_BASE_ENABLE (entry.fn / 128) i.val) = 0 := by decide +kernel

/-- The addresses and lengths of the host reads that an outcome leaves outstanding. -/
def readRanges : Out → List (Nat × Nat)
  | .next t => t.reads.map (fun r => (r.addr, r.len))
  | _ => []

/-- The PUT reads its payload, and the read records the whole cached page. -/
theorem readRanges_put : readRanges (exec (.put 7) state) = [(0x1000, 4096)] := by decide +kernel

end CachedPut

/-- Refutes O18: the read of a PUT's payload records the range of the cached translations that cover it (R246), and nothing in the statement keeps a
cache from holding one for a PF's access without a context, so the recorded range may be a page where the statement has the payload's own bytes. The
accesses of such a PF are never walked, so a statement that asks for no such translation in a cache would leave this state out. -/
theorem not_requestsBuilt : ¬ Obligations.RequestsBuilt := by
  rintro ⟨-, payloadReads, -⟩
  obtain ⟨t, run, reads, -⟩ := payloadReads 7 CachedPut.cid CachedPut.entry CachedPut.queue CachedPut.connection CachedPut.state CachedPut.builds
    (by decide +kernel) (by decide +kernel) rfl rfl rfl rfl rfl (by decide +kernel) (by decide +kernel) (by decide +kernel) rfl (by decide +kernel) rfl rfl
    CachedPut.noWindow
  have page := CachedPut.readRanges_put
  rw [run, CachedPut.readRanges, reads] at page
  exact absurd page (by decide +kernel)

end Sys2Proof.Machine
end

section
/-!
SUPPORT. Lanes and ports beyond their registers: what each update of the state leaves of them, and what the shape of a port depends on.
-/
namespace Sys2Proof.Machine

namespace State

variable (s : State)

@[simp] theorem lane_wr (f : FRef) (v l : Nat) : (s.wr f v).lane l = s.lane l := rfl
@[simp] theorem lane_wrB (f : FRef) (b : Bool) (l : Nat) : (s.wrB f b).lane l = s.lane l := rfl
@[simp] theorem lane_bump (f : FRef) (l : Nat) : (s.bump f).lane l = s.lane l := rfl
@[simp] theorem lane_bumpBy (f : FRef) (n l : Nat) : (s.bumpBy f n).lane l = s.lane l := rfl
@[simp] theorem lane_emit (o : Output) (l : Nat) : (s.emit o).lane l = s.lane l := rfl
@[simp] theorem lane_setPort (p : Nat) (v : PortSt) (l : Nat) : (s.setPort p v).lane l = s.lane l := rfl
@[simp] theorem lane_modPort (p : Nat) (f : PortSt → PortSt) (l : Nat) : (s.modPort p f).lane l = s.lane l := rfl

@[simp] theorem port_wr (f : FRef) (v p : Nat) : (s.wr f v).port p = s.port p := rfl
@[simp] theorem port_wrB (f : FRef) (b : Bool) (p : Nat) : (s.wrB f b).port p = s.port p := rfl
@[simp] theorem port_bump (f : FRef) (p : Nat) : (s.bump f).port p = s.port p := rfl
@[simp] theorem port_bumpBy (f : FRef) (n p : Nat) : (s.bumpBy f n).port p = s.port p := rfl
@[simp] theorem port_emit (o : Output) (p : Nat) : (s.emit o).port p = s.port p := rfl
@[simp] theorem port_setLane (l : Nat) (v : LaneSt) (p : Nat) : (s.setLane l v).port p = s.port p := rfl

@[simp] theorem rd_modPort (p : Nat) (f : PortSt → PortSt) (g : FRef) : (s.modPort p f).rd g = s.rd g := rfl
@[simp] theorem now_modPort (p : Nat) (f : PortSt → PortSt) : (s.modPort p f).now = s.now := rfl

theorem lane_setLane (l k : Nat) (v : LaneSt) : (s.setLane l v).lane k = if k = l then v else s.lane k := SMap.get_set _ _ _ _ _
@[simp] theorem lane_setLane_self (l : Nat) (v : LaneSt) : (s.setLane l v).lane l = v := SMap.get_set_self _ _ _ _
@[simp] theorem port_setPort_self (p : Nat) (v : PortSt) : (s.setPort p v).port p = v := SMap.get_set_self _ _ _ _
@[simp] theorem port_modPort_self (p : Nat) (f : PortSt → PortSt) : (s.modPort p f).port p = f (s.port p) := SMap.get_set_self _ _ _ _

theorem keeps_setLane (l : Nat) (v : LaneSt) (ks : List Nat) : Keeps s (s.setLane l v) ks := (Keeps.refl s ks).of_flds_eq rfl rfl rfl
theorem keeps_emit (o : Output) (ks : List Nat) : Keeps s (s.emit o) ks := (Keeps.refl s ks).of_flds_eq rfl rfl rfl
theorem keeps_wr (f : FRef) (v : Nat) : Keeps s (s.wr f v) [f.key] := (Keeps.refl s _).wr v List.mem_cons_self
theorem keeps_wrB (f : FRef) (b : Bool) : Keeps s (s.wrB f b) [f.key] := keeps_wr s f (b2n b)

/-- A one-bit field, written and read. -/
theorem rd_wrB_self (f : FRef) (b : Bool) : (s.wrB f b).rd f = b2n b % 2 ^ f.width := rd_wr_self s f (b2n b)

theorem rdB_wrB_self {f : FRef} (one : f.width = 1) (b : Bool) : (s.wrB f b).rdB f = b := by
  rw [rdB_def, rd_wrB_self, one]
  cases b <;> rfl

end State
end Sys2Proof.Machine
end

section
/-!
SUPPORT. The shape of a port (R69, R70, R108) and the fields that show its alignment (R87, R97).
-/
namespace Sys2Proof.Machine

/-- The fields of port p's alignment stand in LT_PORT_STAT of a port group. -/
theorem mem_alignKeys {s : State} {p k : Nat} (hp : p < 256) (h : k ∈ alignKeys s p) :
    ∃ g, g < 128 ∧ k / 64 = 0x20400 + 0x2000 * (g / 8) + 8 * (g % 8) := by
  simp only [alignKeys, List.mem_flatMap, List.mem_cons, List.not_mem_nil, or_false] at h
  obtain ⟨g, hg, hk⟩ := h
  have small : g < 128 := by
    split at hg <;> simp only [List.mem_cons, List.not_mem_nil, or_false] at hg <;> omega
  exact ⟨g, small, by omega⟩

/-- A field outside LT_PORT_STAT shows no port's alignment. -/
theorem not_mem_alignKeys {s : State} {p : Nat} {f : FRef} (hp : p < 256)
    (h : ∀ g, g < 128 → f.key / 64 ≠ 0x20400 + 0x2000 * (g / 8) + 8 * (g % 8)) : f.key ∉ alignKeys s p := by
  intro m
  obtain ⟨g, small, e⟩ := mem_alignKeys hp m
  exact h g small e

namespace State

theorem linkState_wr {s : State} {f : FRef} (v p : Nat) (h : (R.LNK_STAT_STATE (p / 2) (p % 2)).key ≠ f.key) :
    (s.wr f v).linkState p = s.linkState p := rd_wr_ne s v h

section
variable {s t : State} {p : Nat}

theorem portOfLane_congr {l : Nat} (width : t.rd (R.LT_TILE_STAT_WIDTH (l / 4 / 8)) = s.rd (R.LT_TILE_STAT_WIDTH (l / 4 / 8))) :
    t.portOfLane l = s.portOfLane l := by
  simp only [portOfLane, groupWidth_congr width]

theorem portOfLane_lt (s : State) {l : Nat} (hl : l < 512) : s.portOfLane l < 256 := by
  simp only [portOfLane]
  split <;> omega

variable (width : t.rd (R.LT_TILE_STAT_WIDTH (p / 2 / 8)) = s.rd (R.LT_TILE_STAT_WIDTH (p / 2 / 8)))
include width

theorem formed_congr : t.formed p = s.formed p := by simp only [formed, groupWidth_congr width]
theorem portLanes_congr : t.portLanes p = s.portLanes p := by simp only [portLanes, groupWidth_congr width]
theorem portLane_congr : t.portLane p = s.portLane p := funext fun i => by simp only [portLane, groupWidth_congr width]
theorem lanesOf_congr : t.lanesOf p = s.lanesOf p := by rw [lanesOf, portLanes_congr width, portLane_congr width, ← lanesOf]
theorem alignKeys_congr : alignKeys t p = alignKeys s p := by simp only [alignKeys, groupWidth_congr width]

theorem usedLanes_congr (half : t.rd (R.LNK_STAT_RX_HALF (p / 2) (p % 2)) = s.rd (R.LNK_STAT_RX_HALF (p / 2) (p % 2)))
    (degraded : (t.port p).degraded = (s.port p).degraded) : t.usedLanes p = s.usedLanes p := by
  have upper : t.rdB (R.LNK_STAT_RX_HALF (p / 2) (p % 2)) = s.rdB (R.LNK_STAT_RX_HALF (p / 2) (p % 2)) := congrArg (· == 1) half
  simp only [usedLanes, degraded, upper, portLanes_congr width, portLane_congr width, lanesOf_congr width]

end

/-! Showing and ending the alignment of a port. -/

/-- LT_PORT_STAT of one group takes these values. -/
theorem keeps_putAlign (s : State) (g : Nat) (aligned : Bool) (order : Nat) (mismatch : Bool) (skew : Nat) :
    Keeps s ((((s.wrB (R.LT_PORT_STAT_ALIGNED (g / 8) (g % 8)) aligned).wr (R.LT_PORT_STAT_LANE_ORDER (g / 8) (g % 8)) order).wrB
      (R.LT_PORT_STAT_ID_MISMATCH (g / 8) (g % 8)) mismatch).wr (R.LT_PORT_STAT_SKEW (g / 8) (g % 8)) skew)
      [(R.LT_PORT_STAT_ALIGNED (g / 8) (g % 8)).key, (R.LT_PORT_STAT_LANE_ORDER (g / 8) (g % 8)).key,
        (R.LT_PORT_STAT_ID_MISMATCH (g / 8) (g % 8)).key, (R.LT_PORT_STAT_SKEW (g / 8) (g % 8)).key] :=
  ((((Keeps.refl s _).wr _ (by simp)).wr _ (by simp)).wr _ (by simp)).wr _ (by simp)

theorem keeps_syncAlign (s : State) (p : Nat) : Keeps s (s.syncAlign (p / 2)) (alignKeys s p) := by
  have pair : p / 2 / 2 * 2 = p / 4 * 2 := by omega
  simp only [syncAlign, alignKeys]
  split
  · rw [pair, List.flatMap_cons, List.flatMap_cons, List.flatMap_nil, List.append_nil]
    exact ((keeps_putAlign s _ _ _ _ _).mono (List.subset_append_left _ _)).trans
      ((keeps_putAlign _ _ _ _ _ _).mono (List.subset_append_right _ _))
  · rw [List.flatMap_cons, List.flatMap_nil, List.append_nil]
    exact keeps_putAlign s _ _ _ _ _

theorem port_syncAlign (s : State) (g p : Nat) : (s.syncAlign g).port p = s.port p := by
  simp only [syncAlign]
  split <;> rfl

theorem lane_syncAlign (s : State) (g l : Nat) : (s.syncAlign g).lane l = s.lane l := by
  simp only [syncAlign]
  split <;> rfl

theorem now_syncAlign (s : State) (g : Nat) : (s.syncAlign g).now = s.now := by
  simp only [syncAlign]
  split <;> rfl

theorem keeps_unalign (s : State) (p : Nat) : Keeps s (s.unalign p) (alignKeys s p) :=
  (keeps_modPort s p _ _).trans (keeps_syncAlign _ p)

theorem port_unalign (s : State) (p : Nat) : (s.unalign p).port p =
    { s.port p with aligned := false, order := 0, mismatch := false, skew := 0, rxl := {}, delineated := false, badRun := 0 } := by
  rw [unalign, port_syncAlign, port_modPort_self]

@[simp] theorem lane_unalign (s : State) (p l : Nat) : (s.unalign p).lane l = s.lane l := by rw [unalign, lane_syncAlign, lane_modPort]
@[simp] theorem now_unalign (s : State) (p : Nat) : (s.unalign p).now = s.now := by rw [unalign, now_syncAlign, now_modPort]

/-! A reset request by the state of the link (R107). -/

theorem requestReset_of_up {s : State} {p : Nat} (up : s.linkState p = 7) (c : Nat) : s.requestReset p c = s.linkReset p c := if_pos up

theorem requestReset_of_disabled {s : State} {p : Nat} (down : s.linkState p = 0) (c : Nat) : s.requestReset p c = s := by
  rw [requestReset, if_neg (by omega), if_pos down]

theorem requestReset_of_training {s : State} {p : Nat} (lo : 1 ≤ s.linkState p) (hi : s.linkState p ≤ 6) (c : Nat) :
    s.requestReset p c = s.bump (R.LNK_ABSORBED (p / 2) (p % 2)) := by
  rw [requestReset, if_neg (by omega), if_neg (by omega)]

end State
end Sys2Proof.Machine
end

section
/-!
SUPPORT. Signal and adaptation of a lane (R84, R85, R89, R91): what a lane's registers show when its receiver begins to adapt, starts over, or is
judged.
-/
namespace Sys2Proof.Machine

/-- The fields of lane l that its way to reset writes (R84 to R86). -/
abbrev laneResetKeys (l : Nat) : List Nat :=
  [(R.LT_LANE_STAT_STATE (l / 32) (l % 32)).key, (R.LT_LANE_STAT_COMMA_LOCK (l / 32) (l % 32)).key, (R.LT_LANE_STAT_POL_INV (l / 32) (l % 32)).key,
    (R.LT_RX_ADAPT_ADAPT (l / 32) (l % 32)).key]

/-- A field outside the words of lane l that show its receiver's state is none that its way to reset writes. -/
theorem not_mem_laneResetKeys {l : Nat} {f : FRef} (stat : f.key / 64 ≠ 0x20021 + 0x2000 * (l / 32) + 0x10 * (l % 32))
    (adapt : f.key / 64 ≠ 0x20024 + 0x2000 * (l / 32) + 0x10 * (l % 32)) : f.key ∉ laneResetKeys l := by
  simp only [List.mem_cons, List.not_mem_nil, or_false]
  omega

namespace State

section
variable (s : State) (l : Nat)

theorem keeps_adaptLane : Keeps s (s.adaptLane l) [(R.LT_RX_ADAPT_ADAPT (l / 32) (l % 32)).key, (R.LT_LANE_STAT_STATE (l / 32) (l % 32)).key] := by
  simp only [adaptLane, lnState]
  refine Keeps.of_flds_eq ?_ rfl rfl rfl
  split
  · exact ((Keeps.refl s _).wr 1 (by simp)).wr 1 (by simp)
  · exact (Keeps.refl s _).wr 1 (by simp)

/-- The state that adaptation finds: the field that shows it belongs to no link and to no port map. -/
theorem linkState_portOfLane_wr_adapt (v : Nat) :
    (s.wr (R.LT_RX_ADAPT_ADAPT (l / 32) (l % 32)) v).linkState ((s.wr (R.LT_RX_ADAPT_ADAPT (l / 32) (l % 32)) v).portOfLane l) =
      s.linkState (s.portOfLane l) := by
  rw [linkState_wr _ _ (by dsimp only; omega), portOfLane_congr (rd_wr_ne s v (by dsimp only; omega))]

theorem rd_adaptLane_adapt : (s.adaptLane l).rd (R.LT_RX_ADAPT_ADAPT (l / 32) (l % 32)) = 1 := by
  simp only [adaptLane, lnState, rd_setLane]
  split
  · exact (rd_wr_ne _ 1 (by dsimp only; omega)).trans (rd_wr_self s _ 1)
  · exact rd_wr_self s _ 1

theorem rd_adaptLane_state : (s.adaptLane l).rd (R.LT_LANE_STAT_STATE (l / 32) (l % 32)) =
    if 2 ≤ s.linkState (s.portOfLane l) ∧ s.linkState (s.portOfLane l) ≤ 6 then 1 else s.rd (R.LT_LANE_STAT_STATE (l / 32) (l % 32)) := by
  simp only [adaptLane, lnState, rd_setLane, linkState_portOfLane_wr_adapt]
  split
  · exact rd_wr_self _ _ 1
  · exact rd_wr_ne _ 1 (by dsimp only; omega)

theorem lane_adaptLane : (s.adaptLane l).lane l = { s.lane l with detectAt := some s.now, runs := 0, usable := 0 } := by
  simp only [adaptLane]
  split <;> simp

theorem keeps_laneToReset : Keeps s (s.laneToReset l) (laneResetKeys l) :=
  ((((((Keeps.refl s _).wr (f := lnState l) 0 (by simp [lnState])).wr (f := lnLock l) 0 (by simp [lnLock])).wr 0 (by simp)).wr 0 (by simp))).of_flds_eq
    rfl rfl rfl

/-- A lane in reset shows no lock and no inversion (R84, R86). -/
theorem rd_laneToReset : (s.laneToReset l).rd (R.LT_LANE_STAT_STATE (l / 32) (l % 32)) = 0 ∧
    (s.laneToReset l).rd (R.LT_LANE_STAT_COMMA_LOCK (l / 32) (l % 32)) = 0 ∧ (s.laneToReset l).rd (R.LT_LANE_STAT_POL_INV (l / 32) (l % 32)) = 0 := by
  simp (disch := (dsimp only; omega)) only [laneToReset, lnState, lnLock, rd_setLane, rd_wr_ne, rd_wr_self, Nat.zero_mod, and_self]

theorem lane_laneToReset : (s.laneToReset l).lane l =
    { s.lane l with detectAt := none, runs := 0, usable := 0, badRun := 0, word := none, skew := 0, limitFrom := none, rxY := 0 } := by
  simp only [laneToReset, lane_setLane_self, lane_wr]

theorem keeps_setUnhealthy : Keeps s (s.setUnhealthy l) [(R.LT_HEALTH_UNHEALTHY (l / 32)).key] := keeps_wr s _ _

/-- The lane's adaptation read AT_LIMIT for a whole window before window `win` (R89). -/
def limitWhole (st : LaneSt) (win : Nat) : Bool :=
  match st.limitFrom with
  | some k => decide (k ≤ st.symIdx) || (k / 2 ^ 96 == win / 2 ^ 96 && decide (k < win))
  | none => false

/-- Lane l counts in window `win`, which has begun. -/
def newWindow (s : State) (l win : Nat) : State :=
  s.setLane l { s.lane l with
    symWin := 0, symIdx := win, limitFrom := (s.lane l).limitFrom.map (fun k => if k / 2 ^ 96 == win / 2 ^ 96 then k else win) }

theorem judgeWindow_eq : s.judgeWindow l =
    if s.winIdx 1000000 = (s.lane l).symIdx then s
    else if limitWhole (s.lane l) (s.winIdx 1000000) = true then (s.newWindow l (s.winIdx 1000000)).setUnhealthy l
    else s.newWindow l (s.winIdx 1000000) := rfl

theorem keeps_newWindow (win : Nat) (ks : List Nat) : Keeps s (s.newWindow l win) ks := keeps_setLane s l _ ks

theorem keeps_judgeWindow : Keeps s (s.judgeWindow l) [(R.LT_HEALTH_UNHEALTHY (l / 32)).key] := by
  rw [judgeWindow_eq]
  split_ifs
  · exact Keeps.refl s _
  · exact (keeps_newWindow s l _ _).trans (keeps_setUnhealthy _ l)
  · exact keeps_newWindow s l _ _

end

end State
end Sys2Proof.Machine
end

section
/-!
Signal and adaptation of a lane, and the loss of its signal or lock (R84, R85, R91, R104, R107).
-/
namespace Sys2Proof.Machine
open State

/-- Lane l is one of those whose signal its port uses (R108). -/
abbrev LaneUsed (s : State) (l : Nat) : Prop := s.formed (s.portOfLane l) = true ∧ l ∈ s.usedLanes (s.portOfLane l)

/-- Lane l in reset, its port no longer aligned. -/
def State.lostLane (s : State) (l : Nat) : State := (s.laneToReset l).unalign (s.portOfLane l)

/-- What lane l shows in u once it is lost; its port in s is no longer aligned where it uses the lane. -/
def LaneDown (s u : State) (l : Nat) : Prop :=
  u.rd (R.LT_LANE_STAT_STATE (l / 32) (l % 32)) = 0 ∧ u.rd (R.LT_LANE_STAT_COMMA_LOCK (l / 32) (l % 32)) = 0 ∧
    u.rd (R.LT_LANE_STAT_POL_INV (l / 32) (l % 32)) = 0 ∧ (u.lane l).word = none ∧
    (LaneUsed s l → (u.port (s.portOfLane l)).aligned = false)

section
variable {s : State} {l : Nat} (hl : l < 512)
include hl

theorem linkState_laneToReset (p : Nat) : (s.laneToReset l).linkState p = s.linkState p :=
  (keeps_laneToReset s l).rd_eq (not_mem_laneResetKeys (by dsimp only; omega) (by dsimp only; omega))

omit hl in
theorem groupWidth_laneToReset (q : Nat) : (s.laneToReset l).rd (R.LT_TILE_STAT_WIDTH (q / 8)) = s.rd (R.LT_TILE_STAT_WIDTH (q / 8)) :=
  (keeps_laneToReset s l).rd_eq (not_mem_laneResetKeys (by dsimp only; omega) (by dsimp only; omega))

theorem laneUsed_laneToReset : (s.laneToReset l).formed (s.portOfLane l) = s.formed (s.portOfLane l) ∧
    (s.laneToReset l).usedLanes (s.portOfLane l) = s.usedLanes (s.portOfLane l) := by
  have width := groupWidth_laneToReset (s := s) (l := l) (s.portOfLane l / 2)
  refine ⟨formed_congr width, usedLanes_congr width ?_ rfl⟩
  exact (keeps_laneToReset s l).rd_eq (not_mem_laneResetKeys (by dsimp only; omega) (by dsimp only; omega))

/-- The loss of a lane that its port does not use concerns no port. -/
theorem laneLost_of_unused (unused : ¬ LaneUsed s l) : s.laneLost l = s.laneToReset l := by
  obtain ⟨formed, lanes⟩ := laneUsed_laneToReset (s := s) hl
  simp only [laneLost, formed, lanes]
  rw [if_neg (by simpa using unused)]

theorem laneLost_of_used (used : LaneUsed s l) : s.laneLost l = (s.lostLane l).requestReset (s.portOfLane l) 3 := by
  obtain ⟨formed, lanes⟩ := laneUsed_laneToReset (s := s) hl
  simp only [laneLost, formed, lanes]
  rw [if_pos (by simpa using used)]
  rfl

omit hl in
theorem keeps_lostLane : Keeps s (s.lostLane l) (laneResetKeys l ++ alignKeys s (s.portOfLane l)) := by
  refine ((keeps_laneToReset s l).mono (List.subset_append_left _ _)).trans ((keeps_unalign _ _).mono ?_)
  rw [alignKeys_congr (groupWidth_laneToReset _)]
  exact List.subset_append_right _ _

theorem linkState_lostLane : (s.lostLane l).linkState (s.portOfLane l) = s.linkState (s.portOfLane l) := by
  have hp := portOfLane_lt s hl
  refine ((keeps_unalign _ _).rd_eq (not_mem_alignKeys hp ?_)).trans (linkState_laneToReset hl _)
  intro g hg
  dsimp only
  omega

omit hl in
theorem laneDown_laneToReset (unused : ¬ LaneUsed s l) : LaneDown s (s.laneToReset l) l := by
  obtain ⟨state, lock, inv⟩ := rd_laneToReset s l
  exact ⟨state, lock, inv, by rw [lane_laneToReset], fun used => absurd used unused⟩

theorem laneDown_lostLane : LaneDown s (s.lostLane l) l := by
  have hp := portOfLane_lt s hl
  obtain ⟨state, lock, inv⟩ := rd_laneToReset s l
  have keep := keeps_unalign (s.laneToReset l) (s.portOfLane l)
  have away : ∀ f : FRef, f.key / 64 = 0x20021 + 0x2000 * (l / 32) + 0x10 * (l % 32) → (s.lostLane l).rd f = (s.laneToReset l).rd f := fun f at_ =>
    keep.rd_eq (not_mem_alignKeys hp (fun g hg => by omega))
  refine ⟨(away _ (by dsimp only; omega)).trans state, (away _ (by dsimp only; omega)).trans lock, (away _ (by dsimp only; omega)).trans inv, ?_, ?_⟩
  · rw [State.lostLane, lane_unalign, lane_laneToReset]
  · rw [State.lostLane, port_unalign]
    exact fun _ => rfl

/-- Where the port is DISABLED or does not use the lane, the loss ends with the lane itself. -/
theorem laneLost_of_idle (idle : s.linkState (s.portOfLane l) = 0 ∨ ¬ LaneUsed s l) :
    LaneDown s (s.laneLost l) l ∧ Keeps s (s.laneLost l) (laneResetKeys l ++ alignKeys s (s.portOfLane l)) := by
  by_cases used : LaneUsed s l
  · rw [laneLost_of_used hl used, requestReset_of_disabled ((linkState_lostLane hl).trans (idle.resolve_right (not_not_intro used)))]
    exact ⟨laneDown_lostLane hl, keeps_lostLane⟩
  · rw [laneLost_of_unused hl used]
    exact ⟨laneDown_laneToReset used, (keeps_laneToReset s l).mono (List.subset_append_left _ _)⟩

/-- A field of the link belongs to no lane and shows no alignment. -/
theorem not_mem_lostKeys {f : FRef} (lnk : 8 * 0x200000 ≤ f.key) : f.key ∉ laneResetKeys l ++ alignKeys s (s.portOfLane l) := by
  rw [List.mem_append, not_or]
  exact ⟨not_mem_laneResetKeys (by omega) (by omega), not_mem_alignKeys (portOfLane_lt s hl) (fun g hg => by omega)⟩

/-- In training the loss is absorbed and counted (R107). -/
theorem laneLost_of_training (used : LaneUsed s l) (lo : 1 ≤ s.linkState (s.portOfLane l)) (hi : s.linkState (s.portOfLane l) ≤ 6) :
    let abs := R.LNK_ABSORBED (s.portOfLane l / 2) (s.portOfLane l % 2)
    LaneDown s (s.laneLost l) l ∧ (s.laneLost l).rd abs = (s.rd abs + 1) % 2 ^ abs.width ∧
      Keeps s (s.laneLost l) (abs.key :: (laneResetKeys l ++ alignKeys s (s.portOfLane l))) := by
  dsimp only
  have link := linkState_lostLane (s := s) hl
  obtain ⟨state, lock, inv, word, unaligned⟩ := laneDown_lostLane (s := s) hl
  have keep := keeps_lostLane (s := s) (l := l)
  have hp := portOfLane_lt s hl
  have count := keeps_bump (s.lostLane l) (R.LNK_ABSORBED (s.portOfLane l / 2) (s.portOfLane l % 2))
  rw [laneLost_of_used hl used, requestReset_of_training (by omega) (by omega)]
  refine ⟨⟨(count.rd_eq (by simp; omega)).trans state, (count.rd_eq (by simp; omega)).trans lock, (count.rd_eq (by simp; omega)).trans inv,
    word, unaligned⟩, ?_, (keep.mono (List.subset_cons_self _ _)).trans (count.mono (by simp))⟩
  rw [rd_bump_self, keep.rd_eq (not_mem_lostKeys hl (by dsimp only; omega))]

theorem laneLost_of_up (used : LaneUsed s l) (up : s.linkState (s.portOfLane l) = 7) :
    s.laneLost l = (s.lostLane l).linkReset (s.portOfLane l) 3 := by
  rw [laneLost_of_used hl used, requestReset_of_up ((linkState_lostLane hl).trans up)]

end

/-! A change of LT_LANE_STAT.LOS concerns neither the port of the lane nor its link. -/

section
variable (s : State) {l : Nat} (v : Nat)

theorem portOfLane_wr_los : (s.wr (R.LT_LANE_STAT_LOS (l / 32) (l % 32)) v).portOfLane l = s.portOfLane l :=
  portOfLane_congr (rd_wr_ne s v (by dsimp only; omega))

theorem linkState_wr_los (p : Nat) : (s.wr (R.LT_LANE_STAT_LOS (l / 32) (l % 32)) v).linkState p = s.linkState p :=
  linkState_wr v p (by dsimp only; omega)

theorem alignKeys_wr_los (p : Nat) : alignKeys (s.wr (R.LT_LANE_STAT_LOS (l / 32) (l % 32)) v) p = alignKeys s p :=
  alignKeys_congr (rd_wr_ne s v (by dsimp only; omega))

theorem laneUsed_wr_los : LaneUsed (s.wr (R.LT_LANE_STAT_LOS (l / 32) (l % 32)) v) l ↔ LaneUsed s l := by
  have width : (s.wr (R.LT_LANE_STAT_LOS (l / 32) (l % 32)) v).rd (R.LT_TILE_STAT_WIDTH (s.portOfLane l / 2 / 8)) =
    s.rd (R.LT_TILE_STAT_WIDTH (s.portOfLane l / 2 / 8)) := rd_wr_ne s v (by dsimp only; omega)
  rw [LaneUsed, portOfLane_wr_los, formed_congr width, usedLanes_congr width (rd_wr_ne s v (by dsimp only; omega)) rfl]

/-- What a lost lane shows, seen from before LOS was set. -/
theorem LaneDown.of_wr_los {s u : State} {v : Nat} (h : LaneDown (s.wr (R.LT_LANE_STAT_LOS (l / 32) (l % 32)) v) u l) : LaneDown s u l := by
  obtain ⟨state, lock, inv, word, unaligned⟩ := h
  rw [portOfLane_wr_los, laneUsed_wr_los s] at unaligned
  exact ⟨state, lock, inv, word, unaligned⟩

end

theorem exec_lossOfSignal (l : Fin 512) (s : State) :
    exec (.lossOfSignal l) s = .next ((s.wr (R.LT_LANE_STAT_LOS (l.val / 32) (l.val % 32)) 1).laneLost l) := rfl
theorem exec_commaLockLost (l : Fin 512) (s : State) : exec (.commaLockLost l) s = .next (s.laneLost l) := rfl

/-- LOS reads 1 once it is set: the loss of the lane writes other fields. -/
theorem rd_los_of_keeps {s u : State} {l : Nat} {ks : List Nat} (keep : Keeps (s.wr (R.LT_LANE_STAT_LOS (l / 32) (l % 32)) 1) u ks)
    (away : (R.LT_LANE_STAT_LOS (l / 32) (l % 32)).key ∉ ks) : u.rd (R.LT_LANE_STAT_LOS (l / 32) (l % 32)) = 1 :=
  (keep.rd_eq away).trans (rd_wr_self s (R.LT_LANE_STAT_LOS (l / 32) (l % 32)) 1)

theorem los_not_mem_lostKeys {s : State} {l : Nat} (hl : l < 512) :
    (R.LT_LANE_STAT_LOS (l / 32) (l % 32)).key ∉ laneResetKeys l ++ alignKeys s (s.portOfLane l) := by
  rw [List.mem_append, not_or]
  refine ⟨?_, not_mem_alignKeys (portOfLane_lt s hl) (fun g hg => by dsimp only; omega)⟩
  simp only [List.mem_cons, List.not_mem_nil, or_false]
  omega

/-- SIGNAL_DETECT. -/
theorem signalDetect_adapts (l : Fin 512) (s : State) : let t := l.val / 32; let i := l.val % 32; let st := s.linkState (s.portOfLane l)
    Does (.signalDetect l) s (fun u => u.rd (R.LT_LANE_STAT_LOS t i) = 0 ∧ u.rd (R.LT_RX_ADAPT_ADAPT t i) = 1 ∧
      u.rd (R.LT_LANE_STAT_STATE t i) = (if 2 ≤ st ∧ st ≤ 6 then 1 else s.rd (R.LT_LANE_STAT_STATE t i)) ∧
      (u.lane l).detectAt = some s.now ∧
      Keeps s u [(R.LT_LANE_STAT_LOS t i).key, (R.LT_RX_ADAPT_ADAPT t i).key, (R.LT_LANE_STAT_STATE t i).key]) := by
  have adapts := keeps_adaptLane (s.wr (R.LT_LANE_STAT_LOS (l.val / 32) (l.val % 32)) 0) l
  refine ⟨_, rfl, ?_, rd_adaptLane_adapt _ _, ?_, ?_, ((keeps_wr s _ 0).mono (by simp)).trans (adapts.mono (by simp))⟩
  · exact (adapts.rd_eq (by simp; omega)).trans (rd_wr_self s (R.LT_LANE_STAT_LOS (l.val / 32) (l.val % 32)) 0)
  · rw [rd_adaptLane_state, linkState_wr_los, portOfLane_wr_los, rd_wr_ne s 0 (by dsimp only; omega)]
  · rw [lane_adaptLane]
    rfl

/-- LT_RX_ADAPT of lane l takes these values (R91). -/
def State.adaptShown (s : State) (l adapt ctle snr eye : Nat) : State :=
  (((s.wr (R.LT_RX_ADAPT_ADAPT (l / 32) (l % 32)) adapt).wr (R.LT_RX_ADAPT_CTLE (l / 32) (l % 32)) ctle).wr
    (R.LT_RX_ADAPT_SNR (l / 32) (l % 32)) snr).wr (R.LT_RX_ADAPT_EYE_MIN (l / 32) (l % 32)) eye

abbrev adaptKeys (l : Nat) : List Nat :=
  [(R.LT_RX_ADAPT_ADAPT (l / 32) (l % 32)).key, (R.LT_RX_ADAPT_CTLE (l / 32) (l % 32)).key, (R.LT_RX_ADAPT_SNR (l / 32) (l % 32)).key,
    (R.LT_RX_ADAPT_EYE_MIN (l / 32) (l % 32)).key]

theorem keeps_adaptShown (s : State) (l adapt ctle snr eye : Nat) : Keeps s (s.adaptShown l adapt ctle snr eye) (adaptKeys l) :=
  ((((Keeps.refl s _).wr adapt (by simp)).wr ctle (by simp)).wr snr (by simp)).wr eye (by simp)

theorem rd_adaptShown (s : State) (l adapt ctle snr eye : Nat) : let u := s.adaptShown l adapt ctle snr eye
    u.rd (R.LT_RX_ADAPT_ADAPT (l / 32) (l % 32)) = adapt % 4 ∧ u.rd (R.LT_RX_ADAPT_CTLE (l / 32) (l % 32)) = ctle % 2 ^ 5 ∧
      u.rd (R.LT_RX_ADAPT_SNR (l / 32) (l % 32)) = snr % 2 ^ 8 ∧ u.rd (R.LT_RX_ADAPT_EYE_MIN (l / 32) (l % 32)) = eye % 2 ^ 7 := by
  simp (disch := (dsimp only; omega)) only [State.adaptShown, rd_wr_ne, rd_wr_self, Nat.reducePow, and_self]

theorem lane_tile (l : Fin 512) : ((l / 32 : Fin 512) : Nat) = l.val / 32 := rfl
theorem lane_inTile (l : Fin 512) : ((l % 32 : Fin 512) : Nat) = l.val % 32 := rfl

theorem exec_rxAdaptConverged (l : Fin 512) (atLimit : Bool) (ctle : BitVec 5) (snr : BitVec 8) (eye : BitVec 7) (s : State) :
    ∃ v, exec (.rxAdaptConverged l atLimit ctle snr eye) s =
      .next (((s.judgeWindow l).adaptShown l (if atLimit then 3 else 2) ctle.toNat snr.toNat eye.toNat).setLane l v) := by
  show ∃ v, execRxAdaptConverged l atLimit ctle snr eye s = _
  simp only [execRxAdaptConverged, lane_tile, lane_inTile]
  exact ⟨_, rfl⟩

/-- RX_ADAPT_CONVERGED. -/
theorem rxAdaptConverged_reports (l : Fin 512) (s : State) (atLimit : Bool) (ctle : BitVec 5) (snr : BitVec 8) (eye : BitVec 7) :
    let t := l.val / 32; let i := l.val % 32
    Does (.rxAdaptConverged l atLimit ctle snr eye) s (fun u =>
      u.rd (R.LT_RX_ADAPT_ADAPT t i) = (if atLimit then 3 else 2) ∧ u.rd (R.LT_RX_ADAPT_CTLE t i) = ctle.toNat ∧
      u.rd (R.LT_RX_ADAPT_SNR t i) = snr.toNat ∧ u.rd (R.LT_RX_ADAPT_EYE_MIN t i) = eye.toNat ∧
      u.rd (R.LT_HEALTH_UNHEALTHY t) = (s.judgeWindow l).rd (R.LT_HEALTH_UNHEALTHY t) ∧
      Keeps s u [(R.LT_RX_ADAPT_ADAPT t i).key, (R.LT_RX_ADAPT_CTLE t i).key, (R.LT_RX_ADAPT_SNR t i).key,
        (R.LT_RX_ADAPT_EYE_MIN t i).key, (R.LT_HEALTH_UNHEALTHY t).key]) := by
  obtain ⟨v, run⟩ := exec_rxAdaptConverged l atLimit ctle snr eye s
  have shows := keeps_adaptShown (s.judgeWindow l) l (if atLimit then 3 else 2) ctle.toNat snr.toNat eye.toNat
  obtain ⟨adapt, ctle', snr', eye'⟩ := rd_adaptShown (s.judgeWindow l) l (if atLimit then 3 else 2) ctle.toNat snr.toNat eye.toNat
  have rest := rd_setLane ((s.judgeWindow l).adaptShown l (if atLimit then 3 else 2) ctle.toNat snr.toNat eye.toNat) l v
  refine ⟨_, run, (rest _).trans (adapt.trans (by cases atLimit <;> rfl)), (rest _).trans (ctle'.trans (Nat.mod_eq_of_lt ctle.isLt)),
    (rest _).trans (snr'.trans (Nat.mod_eq_of_lt snr.isLt)), (rest _).trans (eye'.trans (Nat.mod_eq_of_lt eye.isLt)),
    (rest _).trans (shows.rd_eq (by simp; omega)), ?_⟩
  exact (((keeps_judgeWindow s l).mono (by simp)).trans (shows.mono (by simp))).trans (keeps_setLane _ l v _)

/-- The meaning of SIGNAL_DETECT, RX_ADAPT_CONVERGED, LOSS_OF_SIGNAL and COMMA_LOCK_LOST. -/
theorem laneSignal : Claims.LaneSignal := by
  intro l s
  have los := los_not_mem_lostKeys (s := s.wr (R.LT_LANE_STAT_LOS (l.val / 32) (l.val % 32)) 1) l.isLt
  refine ⟨signalDetect_adapts l s, rxAdaptConverged_reports l s, fun idle => ⟨?_, ?_⟩, fun used lo hi => ⟨?_, ?_⟩, fun used up => ⟨?_, ?_⟩⟩
  · obtain ⟨down, keep⟩ := laneLost_of_idle (s := s.wr (R.LT_LANE_STAT_LOS (l.val / 32) (l.val % 32)) 1) l.isLt
      (by rwa [portOfLane_wr_los, linkState_wr_los, laneUsed_wr_los])
    refine ⟨_, exec_lossOfSignal l s, rd_los_of_keeps keep los, down.of_wr_los, ?_⟩
    rw [portOfLane_wr_los, alignKeys_wr_los] at keep
    exact ((keeps_wr s _ 1).mono (by simp)).trans (keep.mono (List.subset_cons_self _ _))
  · exact ⟨_, exec_commaLockLost l s, laneLost_of_idle l.isLt idle⟩
  · obtain ⟨down, count, keep⟩ := laneLost_of_training (s := s.wr (R.LT_LANE_STAT_LOS (l.val / 32) (l.val % 32)) 1) l.isLt
      (by rwa [laneUsed_wr_los]) (by rwa [portOfLane_wr_los, linkState_wr_los]) (by rwa [portOfLane_wr_los, linkState_wr_los])
    refine ⟨_, exec_lossOfSignal l s, rd_los_of_keeps keep (List.not_mem_cons_of_ne_of_not_mem (by dsimp only; omega) los), down.of_wr_los, ?_, ?_⟩
    · rw [portOfLane_wr_los] at count
      exact count.trans (by rw [rd_wr_ne s 1 (by dsimp only; omega)])
    · rw [portOfLane_wr_los, alignKeys_wr_los] at keep
      exact ((keeps_wr s _ 1).mono (by simp)).trans (keep.mono (List.subset_cons_self _ _))
  · exact ⟨_, exec_commaLockLost l s, laneLost_of_training l.isLt used lo hi⟩
  · rw [exec_lossOfSignal, laneLost_of_up l.isLt ((laneUsed_wr_los s 1).2 used) (by rwa [portOfLane_wr_los, linkState_wr_los]), lostLane,
      portOfLane_wr_los]
  · rw [exec_commaLockLost, laneLost_of_up l.isLt used up, lostLane]

end Sys2Proof.Machine
end

section
/-!
SUPPORT. Writes of LT_TX_EQ and LT_LANE_CTL (R81, R92, R93): what a checker that stops and the test fields leave.
-/
namespace Sys2Proof.Machine

namespace Keeps

theorem ite {s t u : State} {ks : List Nat} {c : Prop} [Decidable c] (ht : Keeps s t ks) (hu : Keeps s u ks) :
    Keeps s (if c then t else u) ks := by
  split
  · exact ht
  · exact hu

end Keeps

/-- The fields that the checker of lane l counts and shows its lock in (R92). -/
abbrev patKeys (l : Nat) : List Nat :=
  [(R.LT_PAT_ERR (l / 32) (l % 32)).key, (R.LT_PAT_UI (l / 32) (l % 32)).key, (R.LT_PAT_STAT_PAT_LOCK (l / 32) (l % 32)).key]

/-- The fields that a write of the test fields of lane l changes (R92, R93). -/
abbrev testKeys (l : Nat) : List Nat :=
  patKeys l ++ [(R.LT_PAT_STAT_RESYNC (l / 32) (l % 32)).key, (R.LT_LANE_CTL_PAT_GEN (l / 32) (l % 32)).key,
    (R.LT_LANE_CTL_PAT_CHK (l / 32) (l % 32)).key, (R.LT_LANE_CTL_LPBK (l / 32) (l % 32)).key]

theorem coversLow_of_ne_high {h : Half} (low : h ≠ .high) : coversLow h = true := by simpa [coversLow] using low

theorem bitsOf_lt (v lo w : Nat) : bitsOf v lo w < 2 ^ w := Nat.mod_lt _ (Nat.two_pow_pos _)
theorem bitsOf_mod (v lo w : Nat) : bitsOf v lo w % 2 ^ w = bitsOf v lo w := Nat.mod_mod _ _

namespace State

/-- A one-bit field that is not 1 reads 0. -/
theorem rd_eq_zero_of_not_rdB {s : State} {f : FRef} (one : f.width = 1) (h : s.rdB f = false) : s.rd f = 0 := by
  have lt := rd_lt s f
  rw [one] at lt
  rw [rdB_def, beq_eq_false_iff_ne] at h
  omega

theorem groupIsolated_congr {s t : State} {g : Nat} (grp : t.rd (R.GLB_ISO_MAP_ISO ((16 + g) / 64)) = s.rd (R.GLB_ISO_MAP_ISO ((16 + g) / 64)))
    (tile : t.rd (R.GLB_ISO_MAP_ISO (g / 8 / 64)) = s.rd (R.GLB_ISO_MAP_ISO (g / 8 / 64))) : t.groupIsolated g = s.groupIsolated g := by
  simp only [groupIsolated, isolated_congr grp, isolated_congr tile]

theorem keeps_noteShadow (s : State) (off : Nat) (ks : List Nat) : Keeps s (s.noteShadow off) ks :=
  (Keeps.refl s ks).ite ((Keeps.refl s ks).of_flds_eq rfl rfl rfl)

theorem laneSource_emit (s : State) (o : Output) (l : Nat) : (s.emit o).laneSource l = s.laneSource l := rfl

/-! A checker that stops. -/

section
variable (s : State) (l errs : Nat)

theorem patStop_of_unlocked (h : s.rdB (R.LT_PAT_STAT_PAT_LOCK (l / 32) (l % 32)) = false) : s.patStop l errs = s := by
  simp only [patStop, h]
  rfl

theorem patStop_of_locked (h : s.rdB (R.LT_PAT_STAT_PAT_LOCK (l / 32) (l % 32)) = true) : s.patStop l errs =
    ((s.bumpBy (R.LT_PAT_ERR (l / 32) (l % 32)) errs).bumpBy (R.LT_PAT_UI (l / 32) (l % 32)) (s.patLevelsSince l)).wr
      (R.LT_PAT_STAT_PAT_LOCK (l / 32) (l % 32)) 0 := if_pos h

theorem keeps_patStop : Keeps s (s.patStop l errs) (patKeys l) :=
  ((((Keeps.refl s _).wr _ (by simp)).wr _ (by simp)).wr 0 (by simp)).ite (Keeps.refl s _)

theorem rd_patStop_lock : (s.patStop l errs).rd (R.LT_PAT_STAT_PAT_LOCK (l / 32) (l % 32)) = 0 := by
  cases h : s.rdB (R.LT_PAT_STAT_PAT_LOCK (l / 32) (l % 32)) with
  | false => rw [patStop_of_unlocked s l errs h, rd_eq_zero_of_not_rdB rfl h]
  | true => rw [patStop_of_locked s l errs h, rd_wr_self, Nat.zero_mod]

theorem out_patStop : (s.patStop l errs).out = s.out := by
  unfold patStop
  dsimp only
  split <;> rfl

end

/-! The test fields. -/

/-- A write of PAT_CHK starts the checker of lane l. -/
def checkerStarts (s : State) (l v : Nat) : Bool := bitOf v 7 && !s.rdB (R.LT_LANE_CTL_PAT_CHK (l / 32) (l % 32))

/-- The checker of lane l under a write of PAT_CHK: it stops when it is switched off, and before it starts. -/
def checkerStopped (s : State) (l v : Nat) : State :=
  if !bitOf v 7 || s.checkerStarts l v then s.patStop l (s.patErrorsSince l) else s

/-- A checker that starts has no resyncs. -/
def checkerSet (s : State) (l v : Nat) : State :=
  if s.checkerStarts l v then (s.checkerStopped l v).wr (R.LT_PAT_STAT_RESYNC (l / 32) (l % 32)) 0 else s.checkerStopped l v

/-- A change of the loopback of lane l drops the levels that its receiver has not taken. -/
def loopSet (s : State) (l n : Nat) : State :=
  (if s.rd (R.LT_LANE_CTL_LPBK (l / 32) (l % 32)) = n then s else s.setLane l { s.lane l with near := [] }).wr
    (R.LT_LANE_CTL_LPBK (l / 32) (l % 32)) n

section
variable (s : State) (l v : Nat)

theorem testFields_eq : s.testFields l v = (((s.checkerSet l v).wr (R.LT_LANE_CTL_PAT_GEN (l / 32) (l % 32)) (bitsOf v 6 1)).wr
    (R.LT_LANE_CTL_PAT_CHK (l / 32) (l % 32)) (bitsOf v 7 1)).loopSet l (bitsOf v 8 2) := rfl

theorem keeps_checkerStopped : Keeps s (s.checkerStopped l v) (patKeys l) := (keeps_patStop s l _).ite (Keeps.refl s _)

theorem keeps_checkerSet : Keeps s (s.checkerSet l v) (patKeys l ++ [(R.LT_PAT_STAT_RESYNC (l / 32) (l % 32)).key]) := by
  have stops := (keeps_checkerStopped s l v).mono (List.subset_append_left _ [(R.LT_PAT_STAT_RESYNC (l / 32) (l % 32)).key])
  exact (stops.wr 0 (by simp)).ite stops

theorem keeps_loopSet : Keeps s (s.loopSet l v) [(R.LT_LANE_CTL_LPBK (l / 32) (l % 32)).key] :=
  ((Keeps.refl s _).ite (keeps_setLane s l _ _)).wr v (by simp)

theorem keeps_testFields : Keeps s (s.testFields l v) (testKeys l) := by
  rw [testFields_eq]
  exact ((((keeps_checkerSet s l v).mono (by simp)).wr _ (by simp)).wr _ (by simp)).trans ((keeps_loopSet _ l _).mono (by simp))

theorem rd_loopSet : (s.loopSet l v).rd (R.LT_LANE_CTL_LPBK (l / 32) (l % 32)) = v % 2 ^ 2 := rd_wr_self _ _ _

theorem rd_testFields : (s.testFields l v).rd (R.LT_LANE_CTL_PAT_GEN (l / 32) (l % 32)) = bitsOf v 6 1 ∧
    (s.testFields l v).rd (R.LT_LANE_CTL_PAT_CHK (l / 32) (l % 32)) = bitsOf v 7 1 ∧
    (s.testFields l v).rd (R.LT_LANE_CTL_LPBK (l / 32) (l % 32)) = bitsOf v 8 2 := by
  rw [testFields_eq]
  refine ⟨?_, ?_, (rd_loopSet _ l _).trans (bitsOf_mod v 8 2)⟩
  · rw [(keeps_loopSet _ l _).rd_eq (by simp), rd_wr_ne _ _ (by dsimp only; omega), rd_wr_self, bitsOf_mod]
  · rw [(keeps_loopSet _ l _).rd_eq (by simp), rd_wr_self, bitsOf_mod]

/-- A checker that is switched off leaves lock, and one without lock does not take it. -/
theorem rd_testFields_lock (h : v.testBit 7 = false ∨ s.rd (R.LT_PAT_STAT_PAT_LOCK (l / 32) (l % 32)) = 0) :
    (s.testFields l v).rd (R.LT_PAT_STAT_PAT_LOCK (l / 32) (l % 32)) = 0 := by
  have stopped : (s.checkerStopped l v).rd (R.LT_PAT_STAT_PAT_LOCK (l / 32) (l % 32)) = 0 := by
    unfold checkerStopped
    split
    · exact rd_patStop_lock s l _
    · next on => exact h.resolve_left (fun off => on (by rw [bitOf, off]; rfl))
  have set : (s.checkerSet l v).rd (R.LT_PAT_STAT_PAT_LOCK (l / 32) (l % 32)) = 0 := by
    unfold checkerSet
    split
    · rw [rd_wr_ne _ 0 (by dsimp only; omega), stopped]
    · exact stopped
  rw [testFields_eq, (keeps_loopSet _ l _).rd_eq (by simp; omega), rd_wr_ne _ _ (by dsimp only; omega), rd_wr_ne _ _ (by dsimp only; omega), set]

theorem out_testFields : (s.testFields l v).out = s.out := by
  have stopped : (s.checkerStopped l v).out = s.out := by
    unfold checkerStopped
    split
    · exact out_patStop s l _
    · rfl
  have checker : (s.checkerSet l v).out = s.out := by
    unfold checkerSet
    split
    · exact stopped
    · exact stopped
  have loop : ∀ t : State, ∀ n, (t.loopSet l n).out = t.out := fun t n => by
    unfold loopSet
    split <;> rfl
  rw [testFields_eq, loop, wr_out, wr_out, checker]

end

end State
end Sys2Proof.Machine
end

section
/-!
LT_TX_EQ_WRITE and LT_LANE_CTL_WRITE (R81, R92, R93, R97), and the obligation of lanes and receivers.
-/
namespace Sys2Proof.Machine
open State

namespace State

/-- LT_TX_EQ of lane l takes the fields of a word (R81). -/
def txEqWritten (s : State) (l n : Nat) : State :=
  (((s.wr (R.LT_TX_EQ_PRE (l / 32) (l % 32)) (bitsOf n 0 7)).wr (R.LT_TX_EQ_MAIN (l / 32) (l % 32)) (bitsOf n 8 7)).wr
    (R.LT_TX_EQ_POST (l / 32) (l % 32)) (bitsOf n 16 7)).wr (R.LT_TX_EQ_ADAPT_EN (l / 32) (l % 32)) (bitsOf n 24 1)

theorem rd_txEqWritten (s : State) (l n : Nat) : let u := s.txEqWritten l n
    u.rd (R.LT_TX_EQ_PRE (l / 32) (l % 32)) = bitsOf n 0 7 ∧ u.rd (R.LT_TX_EQ_MAIN (l / 32) (l % 32)) = bitsOf n 8 7 ∧
      u.rd (R.LT_TX_EQ_POST (l / 32) (l % 32)) = bitsOf n 16 7 ∧ u.rd (R.LT_TX_EQ_ADAPT_EN (l / 32) (l % 32)) = bitsOf n 24 1 := by
  simp (disch := (dsimp only; omega)) only [txEqWritten, rd_wr_ne, rd_wr_self, bitsOf_mod, and_self]

theorem keeps_txEqWritten (s : State) (l n : Nat) : Keeps s (s.txEqWritten l n)
    [(R.LT_TX_EQ_PRE (l / 32) (l % 32)).key, (R.LT_TX_EQ_MAIN (l / 32) (l % 32)).key, (R.LT_TX_EQ_POST (l / 32) (l % 32)).key,
      (R.LT_TX_EQ_ADAPT_EN (l / 32) (l % 32)).key] :=
  ((((Keeps.refl s _).wr _ (by simp)).wr _ (by simp)).wr _ (by simp)).wr _ (by simp)

/-- PRECODE_REQ and PAT_SEL of lane l are written; a checker in lock of another pattern leaves lock (R92). -/
def selWritten (s : State) (l n : Nat) : State :=
  ((if s.rd (R.LT_LANE_CTL_PAT_SEL (l / 32) (l % 32)) = bitsOf n 4 2 then s else s.patStop l (s.patErrorsSince l)).wr
    (R.LT_LANE_CTL_PRECODE_REQ (l / 32) (l % 32)) (bitsOf n 0 2)).wr (R.LT_LANE_CTL_PAT_SEL (l / 32) (l % 32)) (bitsOf n 4 2)

/-- LT_LANE_CTL of lane l is written: the test fields only while the port group is isolated (R97). -/
def ctlWritten (s : State) (l n : Nat) : State :=
  if (s.selWritten l n).groupIsolated (l / 4) then (s.selWritten l n).testFields l n else s.selWritten l n

section
variable (s : State) (l n : Nat)

/-- The fields that a write of PRECODE_REQ and PAT_SEL changes. -/
abbrev selKeys (l : Nat) : List Nat :=
  patKeys l ++ [(R.LT_LANE_CTL_PRECODE_REQ (l / 32) (l % 32)).key, (R.LT_LANE_CTL_PAT_SEL (l / 32) (l % 32)).key]

theorem keeps_selWritten : Keeps s (s.selWritten l n) (selKeys l) :=
  ((((Keeps.refl s _).ite ((keeps_patStop s l _).mono (List.subset_append_left _ _)))).wr _ (by simp)).wr _ (by simp)

theorem rd_selWritten : (s.selWritten l n).rd (R.LT_LANE_CTL_PRECODE_REQ (l / 32) (l % 32)) = bitsOf n 0 2 ∧
    (s.selWritten l n).rd (R.LT_LANE_CTL_PAT_SEL (l / 32) (l % 32)) = bitsOf n 4 2 := by
  simp (disch := (dsimp only; omega)) only [selWritten, rd_wr_ne, rd_wr_self, bitsOf_mod, and_self]

theorem rd_selWritten_lock (other : s.rd (R.LT_LANE_CTL_PAT_SEL (l / 32) (l % 32)) ≠ bitsOf n 4 2) :
    (s.selWritten l n).rd (R.LT_PAT_STAT_PAT_LOCK (l / 32) (l % 32)) = 0 := by
  rw [selWritten, if_neg other, rd_wr_ne _ _ (by dsimp only; omega), rd_wr_ne _ _ (by dsimp only; omega), rd_patStop_lock]

theorem out_selWritten : (s.selWritten l n).out = s.out := by
  rw [selWritten, wr_out, wr_out]
  split
  · rfl
  · exact out_patStop s l _

theorem groupIsolated_selWritten : (s.selWritten l n).groupIsolated (l / 4) = s.groupIsolated (l / 4) := by
  have keep := keeps_selWritten s l n
  exact groupIsolated_congr (keep.rd_eq (by simp; omega)) (keep.rd_eq (by simp; omega))

theorem ctlWritten_of_isolated (iso : s.groupIsolated (l / 4) = true) : s.ctlWritten l n = (s.selWritten l n).testFields l n := by
  rw [ctlWritten, groupIsolated_selWritten, if_pos iso]

theorem ctlWritten_of_in_service (iso : s.groupIsolated (l / 4) = false) : s.ctlWritten l n = s.selWritten l n := by
  rw [ctlWritten, groupIsolated_selWritten, if_neg (by simp [iso])]

theorem keeps_ctlWritten : Keeps s (s.ctlWritten l n) (selKeys l ++ testKeys l) := by
  have sel := (keeps_selWritten s l n).mono (List.subset_append_left _ (testKeys l))
  exact (sel.trans ((keeps_testFields _ l n).mono (List.subset_append_right _ _))).ite sel

theorem out_ctlWritten : (s.ctlWritten l n).out = s.out := by
  unfold ctlWritten
  split
  · rw [out_testFields, out_selWritten]
  · exact out_selWritten s l n

/-- The test fields after a write of LT_LANE_CTL. -/
theorem rd_ctlWritten_test : let iso := s.groupIsolated (l / 4); let u := s.ctlWritten l n
    u.rd (R.LT_LANE_CTL_PAT_GEN (l / 32) (l % 32)) = (if iso then bitsOf n 6 1 else s.rd (R.LT_LANE_CTL_PAT_GEN (l / 32) (l % 32))) ∧
      u.rd (R.LT_LANE_CTL_PAT_CHK (l / 32) (l % 32)) = (if iso then bitsOf n 7 1 else s.rd (R.LT_LANE_CTL_PAT_CHK (l / 32) (l % 32))) ∧
      u.rd (R.LT_LANE_CTL_LPBK (l / 32) (l % 32)) = (if iso then bitsOf n 8 2 else s.rd (R.LT_LANE_CTL_LPBK (l / 32) (l % 32))) := by
  dsimp only
  cases iso : s.groupIsolated (l / 4) with
  | true =>
    rw [ctlWritten_of_isolated s l n iso]
    exact rd_testFields _ l n
  | false =>
    have keep := keeps_selWritten s l n
    rw [ctlWritten_of_in_service s l n iso]
    exact ⟨keep.rd_eq (by simp; omega), keep.rd_eq (by simp; omega), keep.rd_eq (by simp; omega)⟩

/-- PRECODE_REQ and PAT_SEL are no test fields. -/
theorem rd_ctlWritten_sel : (s.ctlWritten l n).rd (R.LT_LANE_CTL_PRECODE_REQ (l / 32) (l % 32)) = bitsOf n 0 2 ∧
    (s.ctlWritten l n).rd (R.LT_LANE_CTL_PAT_SEL (l / 32) (l % 32)) = bitsOf n 4 2 := by
  obtain ⟨req, sel⟩ := rd_selWritten s l n
  cases iso : s.groupIsolated (l / 4) with
  | true =>
    have keep := keeps_testFields (s.selWritten l n) l n
    rw [ctlWritten_of_isolated s l n iso]
    exact ⟨(keep.rd_eq (by simp; omega)).trans req, (keep.rd_eq (by simp; omega)).trans sel⟩
  | false =>
    rw [ctlWritten_of_in_service s l n iso]
    exact ⟨req, sel⟩

theorem rd_ctlWritten_lock (h : (s.groupIsolated (l / 4) = true ∧ n.testBit 7 = false) ∨
    s.rd (R.LT_LANE_CTL_PAT_SEL (l / 32) (l % 32)) ≠ bitsOf n 4 2) :
    (s.ctlWritten l n).rd (R.LT_PAT_STAT_PAT_LOCK (l / 32) (l % 32)) = 0 := by
  have lock := rd_selWritten_lock s l n
  cases iso : s.groupIsolated (l / 4) with
  | true =>
    rw [ctlWritten_of_isolated s l n iso]
    exact rd_testFields_lock _ l n (h.imp And.right lock)
  | false =>
    rw [ctlWritten_of_in_service s l n iso]
    exact lock (h.resolve_left (fun c => absurd (iso.symm.trans c.1) Bool.false_ne_true))

end

/-- A change of what lane l's transmitter takes shows (R93). -/
def sourceShown (s u : State) (l : Nat) : State := if u.laneSource l = s.laneSource l then u else u.emit (.laneSource l (u.laneSource l))

theorem keeps_sourceShown (s u : State) (l : Nat) (ks : List Nat) : Keeps u (s.sourceShown u l) ks := (Keeps.refl u ks).ite (keeps_emit u _ ks)

theorem out_sourceShown (s u : State) (l : Nat) : let w := s.sourceShown u l
    w.out = if w.laneSource l = s.laneSource l then u.out else .laneSource l (w.laneSource l) :: u.out := by
  dsimp only [sourceShown]
  by_cases same : u.laneSource l = s.laneSource l
  · rw [if_pos same, if_pos same]
  · rw [if_neg same, laneSource_emit, if_neg same]
    rfl

end State

section
variable {m : Master} {l : Fin 512} {h : Half} {v : BitVec 64} {s : State} (low : h ≠ .high)
include low

theorem exec_ltTxEqWrite_of_reaches (reaches : Reaches s m (0x100110 + 0x10000 * (l.val / 32) + 0x80 * (l.val % 32))) :
    exec (.ltTxEqWrite m l h v) s = .next (if eqLegal (bitsOf v.toNat 0 7) (bitsOf v.toNat 8 7) (bitsOf v.toNat 16 7) then
      (s.txEqWritten l v.toNat).noteShadow (0x100110 + 0x10000 * (l.val / 32) + 0x80 * (l.val % 32))
      else s.wr (R.LT_LANE_STAT_EQ_REJECT (l.val / 32) (l.val % 32)) 1) := by
  show execLtTxEqWrite m l h v s = _
  simp only [execLtTxEqWrite, lane_tile, lane_inTile, gated_of_reaches reaches, coversLow_of_ne_high low, if_true]
  rfl

theorem exec_ltLaneCtlWrite_of_reaches (reaches : Reaches s m (0x100100 + 0x10000 * (l.val / 32) + 0x80 * (l.val % 32))) :
    exec (.ltLaneCtlWrite m l h v) s = .next (s.sourceShown (s.ctlWritten l v.toNat) l) := by
  show execLtLaneCtlWrite m l h v s = _
  simp only [execLtLaneCtlWrite, lane_tile, lane_inTile, gated_of_reaches reaches, coversLow_of_ne_high low, if_true]
  rfl

end

/-- The meaning of LT_TX_EQ_WRITE and LT_LANE_CTL_WRITE. -/
theorem laneControl : Claims.LaneControl := by
  intro m l h v s t i n low
  refine ⟨fun reaches => ⟨fun legal => ?_, fun illegal => ?_⟩, fun reaches => ?_⟩
  · have run := exec_ltTxEqWrite_of_reaches (v := v) low reaches
    rw [if_pos legal] at run
    obtain ⟨pre, main, post, adapt⟩ := rd_txEqWritten s l v.toNat
    have noted := keeps_noteShadow (s.txEqWritten l v.toNat) (0x100110 + 0x10000 * (l.val / 32) + 0x80 * (l.val % 32)) []
    refine ⟨_, run, (noted.rd_eq List.not_mem_nil).trans pre, (noted.rd_eq List.not_mem_nil).trans main, (noted.rd_eq List.not_mem_nil).trans post,
      (noted.rd_eq List.not_mem_nil).trans adapt, (keeps_txEqWritten s l v.toNat).trans (noted.mono (List.nil_subset _))⟩
  · have run := exec_ltTxEqWrite_of_reaches (v := v) low reaches
    rw [if_neg (by rw [illegal]; exact Bool.false_ne_true)] at run
    exact ⟨_, run, rd_wr_self s (R.LT_LANE_STAT_EQ_REJECT (l.val / 32) (l.val % 32)) 1, keeps_wr s _ 1⟩
  · have shown := keeps_sourceShown s (s.ctlWritten l v.toNat) l []
    have rest : ∀ f, (s.sourceShown (s.ctlWritten l v.toNat) l).rd f = (s.ctlWritten l v.toNat).rd f := fun f => shown.rd_eq List.not_mem_nil
    obtain ⟨req, sel⟩ := rd_ctlWritten_sel s l v.toNat
    obtain ⟨gen, chk, lpbk⟩ := rd_ctlWritten_test s l v.toNat
    refine ⟨_, exec_ltLaneCtlWrite_of_reaches low reaches, (rest _).trans req, (rest _).trans sel, (rest _).trans gen, (rest _).trans chk,
      (rest _).trans lpbk, fun leaves => (rest _).trans (rd_ctlWritten_lock s l v.toNat leaves), ?_, ?_⟩
    · rw [← out_ctlWritten s l v.toNat]
      exact out_sourceShown s (s.ctlWritten l v.toNat) l
    · refine ((keeps_ctlWritten s l v.toNat).trans (shown.mono (List.nil_subset _))).mono ?_
      intro k hk
      simp only [List.cons_append, List.nil_append, List.mem_cons, List.not_mem_nil, or_false] at hk ⊢
      tauto

/-- Settles O1: each event and write of a lane changes the fields of that lane, and the loss of a lane in use also its port's alignment and link. -/
theorem lanesAndReceivers : Obligations.LanesAndReceivers := ⟨laneSignal, laneControl⟩

end Sys2Proof.Machine
end

section
/-!
The pattern checker and the eye scan of a lane (R92, R94).
-/
namespace Sys2Proof.Machine
open State

namespace State

section
variable (s : State) (l : Nat) (v : List Level)

theorem keeps_loopBack (ks : List Nat) : Keeps s (s.loopBack l v) ks := (keeps_emit s _ ks).ite (Keeps.refl s ks)

theorem lane_loopBack (k : Nat) : (s.loopBack l v).lane k = s.lane k := by
  unfold loopBack
  split <;> rfl

theorem now_loopBack : (s.loopBack l v).now = s.now := by
  unfold loopBack
  split <;> rfl

/-- Levels do not go back unless the lane is under far-end loopback. -/
theorem loopBack_of_source (near : s.laneSource l ≠ 4) : s.loopBack l v = s := if_neg near

end

/-- The checker of lane l has lock of its pattern, in polarity `inv`, from now on. -/
def patLocked (s : State) (l : Nat) (inv : Bool) : State :=
  ((s.wr (R.LT_PAT_STAT_PAT_LOCK (l / 32) (l % 32)) 1).wrB (R.LT_PAT_STAT_PAT_INV (l / 32) (l % 32)) inv).setLane l
    { s.lane l with lockAt := s.now }

section
variable (s : State) (l : Nat)

theorem keeps_patLocked (inv : Bool) : Keeps s (s.patLocked l inv)
    [(R.LT_PAT_STAT_PAT_LOCK (l / 32) (l % 32)).key, (R.LT_PAT_STAT_PAT_INV (l / 32) (l % 32)).key] :=
  (((Keeps.refl s _).wr 1 (by simp)).wr _ (by simp)).trans (keeps_setLane _ l _ _)

theorem rd_patLocked (inv : Bool) : (s.patLocked l inv).rd (R.LT_PAT_STAT_PAT_LOCK (l / 32) (l % 32)) = 1 ∧
    (s.patLocked l inv).rdB (R.LT_PAT_STAT_PAT_INV (l / 32) (l % 32)) = inv := by
  refine ⟨(rd_setLane _ l _ _).trans ?_, (congrArg (· == 1) (rd_setLane _ l _ _)).trans (rdB_wrB_self _ rfl inv)⟩
  exact (rd_wr_ne _ _ (by dsimp only; omega)).trans (rd_wr_self s _ 1)

theorem lane_patLocked (inv : Bool) : (s.patLocked l inv).lane l = { s.lane l with lockAt := s.now } := lane_setLane_self _ l _

/-- The offsets and the dwell of lane l's eye scan take the fields of a word (R94). -/
def scanWritten (s : State) (l n : Nat) : State :=
  (((s.wr (R.LT_SCAN_CTL_EYE (l / 32) (l % 32)) (bitsOf n 0 2)).wr (R.LT_SCAN_CTL_H_OFF (l / 32) (l % 32)) (bitsOf n 8 6)).wr
    (R.LT_SCAN_CTL_V_OFF (l / 32) (l % 32)) (bitsOf n 16 8)).wr (R.LT_SCAN_CTL_DWELL (l / 32) (l % 32)) (bitsOf n 24 4)

/-- The scan of one point begins now. -/
def scanBegun (s : State) (l n : Nat) : State :=
  ((s.scanWritten l n).wr (R.LT_SCAN_RES_DONE (l / 32) (l % 32)) 0).setLane l { s.lane l with scan := some (bitsOf n 24 4, s.now) }

/-- The scan of a point ends with these errors. -/
def scanEnded (s : State) (l errors dwell : Nat) : State :=
  (((s.wr (R.LT_SCAN_RES_DONE (l / 32) (l % 32)) 1).wr (R.LT_SCAN_RES_ERRORS (l / 32) (l % 32)) errors).wr
    (R.LT_SCAN_RES_LEVELS (l / 32) (l % 32)) (2 ^ dwell)).setLane l { s.lane l with scan := none }

theorem groupIsolated_scanWritten (n : Nat) : (s.scanWritten l n).groupIsolated (l / 4) = s.groupIsolated (l / 4) := by
  simp (disch := (dsimp only; omega)) only [scanWritten, groupIsolated, isolated, rd_wr_ne]

theorem rd_scanBegun (n : Nat) : let u := s.scanBegun l n
    u.rd (R.LT_SCAN_RES_DONE (l / 32) (l % 32)) = 0 ∧ u.rd (R.LT_SCAN_CTL_EYE (l / 32) (l % 32)) = bitsOf n 0 2 ∧
      u.rd (R.LT_SCAN_CTL_H_OFF (l / 32) (l % 32)) = bitsOf n 8 6 ∧ u.rd (R.LT_SCAN_CTL_V_OFF (l / 32) (l % 32)) = bitsOf n 16 8 ∧
      u.rd (R.LT_SCAN_CTL_DWELL (l / 32) (l % 32)) = bitsOf n 24 4 := by
  simp only [scanBegun, scanWritten, rd_setLane]
  simp (disch := (dsimp only; omega)) only [rd_wr_ne, rd_wr_self, bitsOf_mod, Nat.zero_mod, and_self]

theorem rd_scanEnded (errors dwell : Nat) : let u := s.scanEnded l errors dwell
    u.rd (R.LT_SCAN_RES_DONE (l / 32) (l % 32)) = 1 ∧ u.rd (R.LT_SCAN_RES_ERRORS (l / 32) (l % 32)) = errors % 2 ^ 24 ∧
      u.rd (R.LT_SCAN_RES_LEVELS (l / 32) (l % 32)) = 2 ^ dwell % 2 ^ 32 := by
  simp only [scanEnded, rd_setLane]
  simp (disch := (dsimp only; omega)) only [rd_wr_ne, rd_wr_self, and_self, and_true]
  rfl

theorem keeps_scanEnded (errors dwell : Nat) : Keeps s (s.scanEnded l errors dwell) [(R.LT_SCAN_RES_DONE (l / 32) (l % 32)).key,
    (R.LT_SCAN_RES_ERRORS (l / 32) (l % 32)).key, (R.LT_SCAN_RES_LEVELS (l / 32) (l % 32)).key] :=
  ((((Keeps.refl s _).wr 1 (by simp)).wr _ (by simp)).wr _ (by simp)).trans (keeps_setLane _ l _ _)

end
end State

section
variable (l : Fin 512) (s : State)

/-- PAT_LOCK: a checker that is on, at an isolated group, takes lock (R92). -/
theorem exec_patLock (lv : BitVec 160) (inv : Bool) (on : s.rd (R.LT_LANE_CTL_PAT_CHK (l.val / 32) (l.val % 32)) = 1)
    (unlocked : s.rd (R.LT_PAT_STAT_PAT_LOCK (l.val / 32) (l.val % 32)) = 0) (iso : s.groupIsolated (l.val / 4) = true)
    (follows : (s.nearLoop l = false ∧ patLocks (s.rd (R.LT_LANE_CTL_PAT_SEL (l.val / 32) (l.val % 32))) (patOf lv) = some inv) ∨
      (s.nearLoop l = true ∧ s.laneSource l = s.rd (R.LT_LANE_CTL_PAT_SEL (l.val / 32) (l.val % 32)) ∧
        s.rd (R.LT_LANE_CTL_PAT_SEL (l.val / 32) (l.val % 32)) ≠ 0 ∧ inv = false)) :
    exec (.patLock l lv) s = .next ((s.loopBack l (s.upright l (patOf lv))).patLocked l inv) := by
  have back : ∀ v, (s.loopBack l v).nearLoop l = s.nearLoop l ∧ (s.loopBack l v).laneSource l = s.laneSource l ∧
      (s.loopBack l v).groupIsolated (l.val / 4) = s.groupIsolated (l.val / 4) := fun v => by
    unfold loopBack
    split <;> exact ⟨rfl, rfl, rfl⟩
  obtain ⟨near, source, isolated⟩ := back (s.upright l (patOf lv))
  have same : ∀ f, (s.loopBack l (s.upright l (patOf lv))).rd f = s.rd f := fun f => (keeps_loopBack s l _ []).rd_eq List.not_mem_nil
  have takes : (if s.nearLoop l then
      (if s.laneSource l = s.rd (R.LT_LANE_CTL_PAT_SEL (l.val / 32) (l.val % 32)) ∧ s.rd (R.LT_LANE_CTL_PAT_SEL (l.val / 32) (l.val % 32)) ≠ 0 then
        some false else none) else patLocks (s.rd (R.LT_LANE_CTL_PAT_SEL (l.val / 32) (l.val % 32))) (patOf lv)) = some inv := by
    obtain ⟨far, found⟩ | ⟨loop, gen, sel, up⟩ := follows
    · rw [far, found]; rfl
    · rw [if_pos loop, if_pos ⟨gen, sel⟩, up]
  show execPatLock l lv s = _
  simp only [execPatLock, lane_tile, lane_inTile, near, source, takes]
  rw [if_pos]
  · rfl
  · rw [isolated, iso, rdB_def, rdB_def, same, same, on, unlocked]; rfl

theorem exec_patResync_of_resync (errs : BitVec 64) (locked : s.rd (R.LT_PAT_STAT_PAT_LOCK (l.val / 32) (l.val % 32)) = 1) (many : 256 ≤ errs.toNat)
    (far : s.nearLoop l = false) (fit : errs.toNat ≤ 2 * min 1024 (s.patLevelsSince l)) :
    exec (.patResync l errs) s =
      .next ((s.patStop l (max errs.toNat (s.patErrorsSince l))).satAdd (R.LT_PAT_STAT_RESYNC (l.val / 32) (l.val % 32)) 1) := by
  show execPatResync l errs s = _
  simp only [execPatResync, lane_tile, lane_inTile]
  rw [if_pos (by simp [rdB_eq_true locked, many, far, fit])]

/-- No other number of errors loses lock (R92). -/
theorem exec_patResync_of_other (errs : BitVec 64) (other : errs.toNat < 256 ∨ 2 * min 1024 (s.patLevelsSince l) < errs.toNat) :
    exec (.patResync l errs) s = .next s := by
  show execPatResync l errs s = _
  simp only [execPatResync, lane_tile, lane_inTile]
  rw [if_neg]
  simp only [Bool.and_eq_true, decide_eq_true_eq]
  omega

theorem exec_eyeScanStart {m : Master} {v : BitVec 64} (reaches : Reaches s m (0x100130 + 0x10000 * (l.val / 32) + 0x80 * (l.val % 32)))
    (start : v.toNat.testBit 31 = true) (iso : s.groupIsolated (l.val / 4) = true) (idle : (s.lane l).scan = none) :
    exec (.eyeScanStart m l .full v) s = .next (s.scanBegun l v.toNat) := by
  have iso' := (groupIsolated_scanWritten s l v.toNat).trans iso
  show execEyeScanStart m l .full v s = _
  simp only [execEyeScanStart, lane_tile, lane_inTile, gated_of_reaches reaches]
  rw [if_pos (show coversLow .full = true from rfl), if_pos]
  · rfl
  · simp only [Bool.and_eq_true]
    exact ⟨⟨start, iso'⟩, by simp only [lane_wr, idle, Option.isNone_none]⟩

theorem exec_eyeScanDone (errors : BitVec 24) {dwell start : Nat} (scan : (s.lane l).scan = some (dwell, start)) :
    exec (.eyeScanDone l errors) s =
      .next (if 2 ^ (dwell + 20) ≤ (s.now - start) * levelRate (s.rd (R.LT_TILE_STAT_RATE (l.val / 32))) then s.scanEnded l errors.toNat dwell
        else s) := by
  show execEyeScanDone l errors s = _
  simp only [execEyeScanDone, lane_tile, lane_inTile, scan]
  rfl

/-- The checker's counts and resyncs after it lost lock (R92). -/
theorem patResync_counts (errs : Nat) (locked : s.rd (R.LT_PAT_STAT_PAT_LOCK (l.val / 32) (l.val % 32)) = 1) :
    let t := l.val / 32; let i := l.val % 32; let u := (s.patStop l errs).satAdd (R.LT_PAT_STAT_RESYNC t i) 1
    u.rd (R.LT_PAT_STAT_PAT_LOCK t i) = 0 ∧ u.rd (R.LT_PAT_ERR t i) = (s.rd (R.LT_PAT_ERR t i) + errs) % 2 ^ (R.LT_PAT_ERR t i).width ∧
      u.rd (R.LT_PAT_UI t i) = (s.rd (R.LT_PAT_UI t i) + s.patLevelsSince l) % 2 ^ (R.LT_PAT_UI t i).width ∧
      u.rd (R.LT_PAT_STAT_RESYNC t i) = min (2 ^ (R.LT_PAT_STAT_RESYNC t i).width - 1) (s.rd (R.LT_PAT_STAT_RESYNC t i) + 1) := by
  dsimp only [satAdd]
  rw [patStop_of_locked s l errs (rdB_eq_true locked)]
  simp (disch := (dsimp only; omega)) only [bumpBy, rd_wr_ne, rd_wr_self, Nat.zero_mod, true_and]
  exact Nat.mod_eq_of_lt (by omega)

end

/-- The meaning of PAT_LOCK, PAT_RESYNC, EYE_SCAN_START and EYE_SCAN_DONE. -/
theorem lanePattern : Claims.LanePattern := by
  intro l s
  refine ⟨fun lv inv on unlocked iso follows => ?_, exec_patResync_of_other l s, fun errs locked many far fit => ?_,
    fun m v reaches start iso idle => ?_, fun errors dwell start scan => ⟨fun ended => ?_, fun early => ?_⟩⟩
  · obtain ⟨lock, polarity⟩ := rd_patLocked (s.loopBack l (s.upright l (patOf lv))) l inv
    refine ⟨_, exec_patLock l s lv inv on unlocked iso follows, lock, polarity, ?_, (keeps_loopBack s l _ _).trans (keeps_patLocked _ l inv)⟩
    rw [lane_patLocked, now_loopBack]
  · obtain ⟨lock, err, ui, resync⟩ := patResync_counts l s (max errs.toNat (s.patErrorsSince l)) locked
    exact ⟨_, exec_patResync_of_resync l s errs locked many far fit, lock, err, ui, resync,
      ((keeps_patStop s l _).mono (by simp)).trans ((keeps_wr _ _ _).mono (by simp))⟩
  · obtain ⟨done, eye, h, v', dwell⟩ := rd_scanBegun s l v.toNat
    exact ⟨_, exec_eyeScanStart l s reaches start iso idle, done, congrArg LaneSt.scan (lane_setLane_self _ _ _), eye, h, v', dwell⟩
  · obtain ⟨done, errs, levels⟩ := rd_scanEnded s l errors.toNat dwell
    refine ⟨_, (exec_eyeScanDone l s errors scan).trans (by rw [if_pos ended]), done, errs.trans (Nat.mod_eq_of_lt errors.isLt), levels,
      congrArg LaneSt.scan (lane_setLane_self _ _ _), keeps_scanEnded s l _ _⟩
  · rw [exec_eyeScanDone l s errors scan, if_neg (by omega)]

end Sys2Proof.Machine
end

section
/-!
SUPPORT. The lanes that a port uses (R70, R108), the health of a lane (R89), and what a codeword leaves of the lanes that carry it (R74 to R77, R88).
-/
namespace Sys2Proof.Machine
open State

/-- A fold whose steps keep a part of the state keeps it. -/
theorem foldl_eq_of_step {α β σ : Type} (φ : σ → α) {f : σ → β → σ} {l : List β} (step : ∀ b ∈ l, ∀ s, φ (f s b) = φ s) (s : σ) :
    φ (l.foldl f s) = φ s := by
  induction l generalizing s with
  | nil => rfl
  | cons b l ih => exact (ih (fun c hc => step c (List.mem_cons_of_mem b hc)) _).trans (step b List.mem_cons_self s)

/-- A fold whose steps leave the start as it is ends there. -/
theorem foldl_eq_self_of_mem {β σ : Type} {f : σ → β → σ} {s : σ} {l : List β} (step : ∀ b ∈ l, f s b = s) : l.foldl f s = s := by
  induction l with
  | nil => rfl
  | cons b l ih =>
    rw [List.foldl_cons, step b List.mem_cons_self]
    exact ih (fun c hc => step c (List.mem_cons_of_mem b hc))

theorem mem_inOrder {α : Type} {o : Nat} {x : α} {l : List α} : x ∈ inOrder o l ↔ x ∈ l := by
  unfold inOrder
  split
  · exact List.mem_reverse
  · exact Iff.rfl

theorem length_inOrder {α : Type} (o : Nat) (l : List α) : (inOrder o l).length = l.length := by
  unfold inOrder
  split
  · exact List.length_reverse
  · rfl

theorem getD_mem {l : List Nat} {j : Nat} (hj : j < l.length) : l.getD j 0 ∈ l := by
  rw [List.getD_eq_getElem l 0 hj]
  exact List.getElem_mem hj

namespace State

theorem portLane_injective (s : State) (p : Nat) : Function.Injective (s.portLane p) := fun i j h => by
  simp only [portLane] at h
  omega

theorem nodup_usedLanes (s : State) (p : Nat) : (s.usedLanes p).Nodup := by
  simp only [usedLanes, lanesOf]
  split
  · exact List.nodup_range.map (fun i j h => Nat.add_left_cancel (portLane_injective s p h))
  · exact List.nodup_range.map (portLane_injective s p)

theorem usedLanes_length_pos {s : State} {p : Nat} (formed : s.formed p = true) : 0 < (s.usedLanes p).length := by
  have lanes : 2 ≤ s.portLanes p := by
    simp only [State.formed] at formed
    simp only [portLanes]
    split at formed <;> simp_all
  simp only [usedLanes, lanesOf]
  split <;> simp only [List.length_map, List.length_range] <;> omega

/-! The health of a lane. -/

theorem unhealthy_setUnhealthy (s : State) (l k : Nat) : (s.setUnhealthy l).unhealthy k = (s.unhealthy k || decide (k = l)) := by
  simp only [unhealthy, setUnhealthy, bitOf]
  by_cases tile : k / 32 = l / 32
  · rw [tile, rd_wr_self, Nat.testBit_mod_two_pow, Nat.testBit_or, Nat.testBit_two_pow]
    have small : k % 32 < 32 := Nat.mod_lt _ (by decide)
    have same : l % 32 = k % 32 ↔ k = l := by omega
    simp only [small, decide_true, Bool.true_and, same]
  · have other : k ≠ l := fun h => tile (by rw [h])
    rw [rd_wr_ne s _ (by dsimp only; omega), decide_eq_false other, Bool.or_false]

/-- A lane whose corrected symbols of this window are at the limit is unhealthy (R89). -/
def LimitKept (s : State) (l : Nat) : Prop := 2 ^ s.healthExp (l / 32) ≤ (s.lane l).symWin → s.unhealthy l = true

theorem healthExp_congr {s t : State} {g : Nat} (cfg : t.rd (R.LT_HEALTH_CFG_HEALTH_EXP g) = s.rd (R.LT_HEALTH_CFG_HEALTH_EXP g)) :
    t.healthExp g = s.healthExp g := by
  simp only [healthExp, cfg]

/-- A step that lets no window grow and makes no lane healthy keeps the limit. -/
theorem LimitKept.of_le {s t : State} {l : Nat} (h : LimitKept s l)
    (cfg : t.rd (R.LT_HEALTH_CFG_HEALTH_EXP (l / 32)) = s.rd (R.LT_HEALTH_CFG_HEALTH_EXP (l / 32)))
    (win : (t.lane l).symWin ≤ (s.lane l).symWin) (ill : s.unhealthy l = true → t.unhealthy l = true) : LimitKept t l := fun full => by
  rw [healthExp_congr cfg] at full
  exact ill (h (full.trans win))

theorem LimitKept.setUnhealthy {s : State} {l : Nat} (h : LimitKept s l) (k : Nat) : LimitKept (s.setUnhealthy k) l := by
  refine h.of_le (rd_wr_ne s _ (by dsimp only; omega)) (Nat.le_of_eq rfl) (fun ill => ?_)
  rw [unhealthy_setUnhealthy, ill, Bool.true_or]

theorem LimitKept.judgeWindow {s : State} {l : Nat} (h : LimitKept s l) (k : Nat) : LimitKept (s.judgeWindow k) l := by
  have begun : LimitKept (s.newWindow k (s.winIdx 1000000)) l := by
    refine h.of_le rfl ?_ (fun ill => ill)
    rw [newWindow, lane_setLane]
    split
    · exact Nat.zero_le _
    · exact Nat.le_refl _
  rw [judgeWindow_eq]
  split_ifs
  · exact h
  · exact begun.setUnhealthy k
  · exact begun

/-- One corrected symbol counted against lane l in the window in progress. -/
def symCounted (s : State) (l : Nat) : State :=
  (s.bump (R.LT_LANE_SYM (l / 32) (l % 32))).setLane l { s.lane l with symWin := (s.lane l).symWin + 1 }

/-- A lane whose window has reached the limit is unhealthy. -/
def limitJudged (s : State) (l : Nat) : State := if (s.lane l).symWin ≥ 2 ^ s.healthExp (l / 32) then s.setUnhealthy l else s

/-- One corrected symbol in a window that is in progress. -/
def symTaken (s : State) (l : Nat) : State :=
  let s := s.bump (R.LT_LANE_SYM (l / 32) (l % 32))
  let n := (s.lane l).symWin + 1
  let s := s.setLane l { s.lane l with symWin := n }
  if n ≥ 2 ^ s.healthExp (l / 32) then s.setUnhealthy l else s

theorem symTaken_eq (s : State) (l : Nat) : s.symTaken l = (s.symCounted l).limitJudged l := by
  simp only [symTaken, limitJudged, symCounted, lane_setLane_self, lane_bump]
  rfl

theorem countSymbol_eq (s : State) (l : Nat) : s.countSymbol l = ((s.judgeWindow l).symCounted l).limitJudged l := symTaken_eq (s.judgeWindow l) l

section
variable (s : State) (l : Nat)

theorem keeps_symCounted : Keeps s (s.symCounted l) [(R.LT_LANE_SYM (l / 32) (l % 32)).key] := (keeps_bump s _).trans (keeps_setLane _ l _ _)

theorem lane_symCounted (k : Nat) :
    (s.symCounted l).lane k = if k = l then { s.lane l with symWin := (s.lane l).symWin + 1 } else s.lane k := lane_setLane _ l k _

theorem keeps_limitJudged : Keeps s (s.limitJudged l) [(R.LT_HEALTH_UNHEALTHY (l / 32)).key] := (keeps_setUnhealthy s l).ite (Keeps.refl s _)

/-- The fields of lane l that a corrected symbol changes. -/
abbrev symKeys (l : Nat) : List Nat := [(R.LT_LANE_SYM (l / 32) (l % 32)).key, (R.LT_HEALTH_UNHEALTHY (l / 32)).key]

theorem keeps_countSymbol : Keeps s (s.countSymbol l) (symKeys l) := by
  rw [countSymbol_eq]
  exact (((keeps_judgeWindow s l).mono (by simp)).trans ((keeps_symCounted _ l).mono (by simp))).trans ((keeps_limitJudged _ l).mono (by simp))

theorem port_setUnhealthy (p : Nat) : (s.setUnhealthy l).port p = s.port p := rfl
theorem port_newWindow (win p : Nat) : (s.newWindow l win).port p = s.port p := rfl
theorem port_symCounted (p : Nat) : (s.symCounted l).port p = s.port p := rfl

theorem port_judgeWindow (p : Nat) : (s.judgeWindow l).port p = s.port p := by
  rw [judgeWindow_eq]
  split_ifs
  · rfl
  · rw [port_setUnhealthy, port_newWindow]
  · rw [port_newWindow]

theorem port_limitJudged (p : Nat) : (s.limitJudged l).port p = s.port p := by
  unfold limitJudged
  split
  · exact port_setUnhealthy s l p
  · rfl

theorem port_countSymbol (p : Nat) : (s.countSymbol l).port p = s.port p := by
  rw [countSymbol_eq, port_limitJudged, port_symCounted, port_judgeWindow]

end

theorem LimitKept.limitJudged {s : State} {l : Nat} (h : LimitKept s l) (k : Nat) : LimitKept (s.limitJudged k) l := by
  unfold State.limitJudged
  split
  · exact h.setUnhealthy k
  · exact h

/-- The lane that is judged keeps the limit, whatever it was before. -/
theorem limitKept_limitJudged (s : State) (l : Nat) : LimitKept (s.limitJudged l) l := by
  unfold limitJudged
  split
  · exact fun _ => by rw [unhealthy_setUnhealthy, decide_eq_true rfl, Bool.or_true]
  next below => exact fun full => absurd full below

/-- A symbol that reaches the limit makes its lane unhealthy at once, and no other lane is touched (R89). -/
theorem LimitKept.countSymbol {s : State} {l : Nat} (h : LimitKept s l) (k : Nat) : LimitKept (s.countSymbol k) l := by
  rw [countSymbol_eq]
  by_cases same : l = k
  · rw [same]
    exact limitKept_limitJudged _ k
  · have counted := keeps_symCounted (s.judgeWindow k) k
    exact ((h.judgeWindow k).of_le (counted.rd_eq (by simp; omega)) (by rw [lane_symCounted, if_neg same])
      (fun ill => (congrArg (bitOf · (l % 32)) (counted.rd_eq (by simp; omega))).trans ill)).limitJudged k

/-! What the lanes of a port receive. -/

/-- t is s but for what its lanes keep of the levels they received; the count of their windows stands. -/
def LanesHeard (s t : State) : Prop := (∃ m, t = s.withLanes m) ∧ ∀ l, (t.lane l).symWin = (s.lane l).symWin

theorem keeps_withLanes (s : State) (m : SMap LaneSt) (ks : List Nat) : Keeps s (s.withLanes m) ks := (Keeps.refl s ks).of_flds_eq rfl rfl rfl

theorem LanesHeard.keeps {s t : State} (h : LanesHeard s t) (ks : List Nat) : Keeps s t ks := by
  obtain ⟨⟨m, rfl⟩, -⟩ := h
  exact keeps_withLanes s m ks

theorem LanesHeard.port {s t : State} (h : LanesHeard s t) (p : Nat) : t.port p = s.port p := by
  obtain ⟨⟨m, rfl⟩, -⟩ := h
  rfl

theorem LanesHeard.limitKept {s t : State} (h : LanesHeard s t) {l : Nat} (kept : LimitKept s l) : LimitKept t l :=
  kept.of_le ((h.keeps []).rd_eq List.not_mem_nil) (Nat.le_of_eq (h.2 l))
    (fun ill => (congrArg (bitOf · (l % 32)) ((h.keeps []).rd_eq List.not_mem_nil)).trans ill)

theorem laneRx_fst (s : State) (l : Nat) (v : List Level) : ∃ y, (s.laneRx l v).1 = s.setLane l { s.lane l with rxY := y } := by
  simp only [laneRx]
  exact ⟨_, rfl⟩

theorem LanesHeard.laneRx {s t : State} (h : LanesHeard s t) (l : Nat) (v : List Level) : LanesHeard s (t.laneRx l v).1 := by
  obtain ⟨⟨m, rfl⟩, win⟩ := h
  obtain ⟨y, e⟩ := laneRx_fst (s.withLanes m) l v
  rw [e]
  refine ⟨⟨_, rfl⟩, fun k => ?_⟩
  rw [lane_setLane]
  split
  next same => rw [same]; exact win l
  · exact win k

theorem LanesHeard.laneRx_snd {s t : State} (h : LanesHeard s t) {l : Nat} (lane : t.lane l = s.lane l) (v : List Level) :
    (t.laneRx l v).2 = (s.laneRx l v).2 := by
  have same : ∀ f, t.rdB f = s.rdB f := fun f => congrArg (· == 1) ((h.keeps []).rd_eq List.not_mem_nil)
  simp only [State.laneRx, upright, same, lane]

/-- The first n of the lanes take their levels of a codeword, one after another. -/
def heard (s : State) (lanes : List Nat) (lv : BitVec 5440) (n : Nat) : State × List (List Nat) :=
  (List.range n).foldl (fun acc j => match acc.1.laneRx (lanes.getD j 0) (cwLevels lv lanes.length j) with | (s, x) => (s, acc.2 ++ [x])) (s, [])

theorem heard_succ (s : State) (lanes : List Nat) (lv : BitVec 5440) (n : Nat) : s.heard lanes lv (n + 1) =
    (((s.heard lanes lv n).1.laneRx (lanes.getD n 0) (cwLevels lv lanes.length n)).1,
      (s.heard lanes lv n).2 ++ [((s.heard lanes lv n).1.laneRx (lanes.getD n 0) (cwLevels lv lanes.length n)).2]) := by
  rw [heard, List.range_succ, List.foldl_append]
  rfl

/-- Lanes that differ hear each its own levels. -/
theorem heard_spec (s : State) {lanes : List Nat} (distinct : lanes.Nodup) (lv : BitVec 5440) {n : Nat} (hn : n ≤ lanes.length) :
    LanesHeard s (s.heard lanes lv n).1 ∧ (∀ j, n ≤ j → j < lanes.length → (s.heard lanes lv n).1.lane (lanes.getD j 0) = s.lane (lanes.getD j 0)) ∧
      (s.heard lanes lv n).2 = (List.range n).map (fun j => (s.laneRx (lanes.getD j 0) (cwLevels lv lanes.length j)).2) := by
  induction n with
  | zero => exact ⟨⟨⟨s.lanes, rfl⟩, fun _ => rfl⟩, fun _ _ _ => rfl, rfl⟩
  | succ n ih =>
    obtain ⟨others, rest, syms⟩ := ih (by omega)
    obtain ⟨y, fst⟩ := laneRx_fst (s.heard lanes lv n).1 (lanes.getD n 0) (cwLevels lv lanes.length n)
    rw [heard_succ]
    refine ⟨others.laneRx _ _, fun j lo hi => ?_, ?_⟩
    · have apart : lanes.getD j 0 ≠ lanes.getD n 0 := fun h => by
        rw [List.getD_eq_getElem lanes 0 hi, List.getD_eq_getElem lanes 0 (by omega), distinct.getElem_inj_iff] at h
        omega
      rw [fst, lane_setLane, if_neg apart, rest j (by omega) hi]
    · rw [List.range_succ, List.map_append, syms, others.laneRx_snd (rest n (Nat.le_refl n) hn)]
      rfl

/-- The word of symbols that a port has received is decoded (R74, R88). -/
def decoded (s : State) (p : Nat) (lanes word : List Nat) : State :=
  match rsDecode word with
  | none => (s.bump (R.LT_FEC_UNCORR (p / 16) (p / 2 % 8))).streamBits p word true
  | some (fixed, pos) =>
    let s := if pos.isEmpty then s else (s.bump (R.LT_FEC_CORR (p / 16) (p / 2 % 8))).bumpBy (R.LT_FEC_SYM (p / 16) (p / 2 % 8)) pos.length
    (pos.foldl (fun s i => s.countSymbol ((inOrder (s.port p).order lanes).getD (i % lanes.length) 0)) s).streamBits p fixed false

theorem decodeWord_heard (s : State) (p : Nat) (lanes : List Nat) (lv : BitVec 5440) : s.decodeWord p lanes lv =
    (s.heard lanes lv lanes.length).1.decoded p lanes
      (gatherLanes lanes.length (inOrder ((s.heard lanes lv lanes.length).1.port p).order (s.heard lanes lv lanes.length).2)) := by
  unfold decodeWord decoded
  rcases h : s.heard lanes lv lanes.length with ⟨t, syms⟩
  rw [heard] at h
  simp only [h] <;> generalize rsDecode _ = r <;> rcases r with _ | ⟨fixed, pos⟩ <;> rfl

theorem decodeWord_eq (s : State) (p : Nat) (lv : BitVec 5440) : s.decodeWord p (s.usedLanes p) lv =
    (s.heard (s.usedLanes p) lv (s.usedLanes p).length).1.decoded p (s.usedLanes p) (receivedWord s p lv) := by
  obtain ⟨others, -, syms⟩ := heard_spec s (nodup_usedLanes s p) lv (Nat.le_refl _)
  rw [decodeWord_heard, others.port p, syms, receivedWord]

end State
end Sys2Proof.Machine
end

section
/-!
CODEWORD_RX, HEALTH_WINDOW_END, HEALTH_COMMA_TIMEOUT and LT_HEALTH_WRITE (R74, R75, R88, R89, R93).
-/
namespace Sys2Proof.Machine
open State

/-- What a codeword adds to the row stream of port p in u, which was `was` before: its message bits, descrambled (R73, R88). -/
def StreamGrows (was : PortSt) (p : Nat) (word : List Nat) (u : State) : Prop :=
  was.rxl.live = true → (u.port p).rxl.len = was.rxl.len + 5140 ∧
    (u.port p).rxl.msg = was.rxl.msg * 2 ^ 5140 + (scramble 5140 was.rxl.scr (ofSymbols (word.take 514))).2

/-- What n message bits of a word add to the row stream of a port, at fabric time ft (R73, R88). -/
def bitsTaken (n ft : Nat) (word : List Nat) (marked : Bool) (st : PortSt) : PortSt :=
  if !st.rxl.live then st
  else
    match scramble n st.rxl.scr (ofSymbols (word.take 514)) with
    | (e, v) => { st with rxl := { st.rxl with
        scr := e, msg := st.rxl.msg * 2 ^ n + v, len := st.rxl.len + n, bad := st.rxl.bad * 2 ^ n + (if marked then 2 ^ n - 1 else 0)
        times := st.rxl.times ++ [(n, ft)] } }

theorem rxl_bitsTaken (n ft : Nat) (word : List Nat) (marked : Bool) {st : PortSt} (live : st.rxl.live = true) :
    (bitsTaken n ft word marked st).rxl.len = st.rxl.len + n ∧
      (bitsTaken n ft word marked st).rxl.msg = st.rxl.msg * 2 ^ n + (scramble n st.rxl.scr (ofSymbols (word.take 514))).2 := by
  unfold bitsTaken
  rw [live]
  rcases scramble n st.rxl.scr (ofSymbols (word.take 514)) with ⟨e, v⟩
  exact ⟨rfl, rfl⟩

namespace State

/-- The corrected symbols at these places of a word are counted, each against the lane that carried it. -/
def countSymbols (s : State) (p : Nat) (lanes pos : List Nat) : State :=
  pos.foldl (fun s i => s.countSymbol ((inOrder (s.port p).order lanes).getD (i % lanes.length) 0)) s

section
variable (s : State) (p : Nat) (lanes : List Nat)

theorem decoded_of_none {word : List Nat} (h : rsDecode word = none) :
    s.decoded p lanes word = (s.bump (R.LT_FEC_UNCORR (p / 16) (p / 2 % 8))).streamBits p word true := by
  unfold decoded
  simp only [h]

theorem decoded_of_clean {word w : List Nat} (h : rsDecode word = some (w, [])) : s.decoded p lanes word = s.streamBits p w false := by
  unfold decoded
  simp only [h]
  rfl

theorem decoded_of_corrected {word w pos : List Nat} (h : rsDecode word = some (w, pos)) (some_ : pos ≠ []) : s.decoded p lanes word =
    (((s.bump (R.LT_FEC_CORR (p / 16) (p / 2 % 8))).bumpBy (R.LT_FEC_SYM (p / 16) (p / 2 % 8)) pos.length).countSymbols p lanes pos).streamBits
      p w false := by
  unfold decoded
  simp only [h, List.isEmpty_eq_false_iff.2 some_, Bool.false_eq_true, if_false, countSymbols]

theorem keeps_streamBits (word : List Nat) (marked : Bool) (ks : List Nat) : Keeps s (s.streamBits p word marked) ks := keeps_modPort s p _ ks

theorem streamBits_eq (word : List Nat) (marked : Bool) :
    s.streamBits p word marked = s.modPort p (bitsTaken cwBits s.time.ft word marked) := by
  unfold streamBits
  refine congrArg (s.modPort p) (funext fun st => ?_)
  unfold bitsTaken
  refine congrArg (ite _ st) ?_
  rcases scramble cwBits st.rxl.scr (ofSymbols (word.take 514)) with ⟨e, v⟩
  rfl

theorem streamGrows_streamBits (word : List Nat) (marked : Bool) : StreamGrows (s.port p) p word (s.streamBits p word marked) := by
  intro live
  rw [streamBits_eq, port_modPort_self]
  exact rxl_bitsTaken cwBits s.time.ft word marked live

/-- Each symbol of a word lies on a lane that carried it. -/
theorem symbolLane_mem {lanes : List Nat} (lane : 0 < lanes.length) (o i : Nat) : (inOrder o lanes).getD (i % lanes.length) 0 ∈ lanes :=
  mem_inOrder.1 (getD_mem (by rw [length_inOrder]; exact Nat.mod_lt _ lane))

theorem keeps_countSymbols {lanes : List Nat} (lane : 0 < lanes.length) (pos : List Nat) :
    Keeps s (s.countSymbols p lanes pos) (lanes.flatMap symKeys) :=
  (Keeps.refl s _).foldl (fun _ _ u => (keeps_countSymbol u _).mono
    (fun _ hk => List.mem_flatMap.2 ⟨_, symbolLane_mem lane _ _, hk⟩))

theorem port_countSymbols (pos : List Nat) (q : Nat) : (s.countSymbols p lanes pos).port q = s.port q :=
  foldl_eq_of_step (·.port q) (fun _ _ u => port_countSymbol u _ q) s

theorem LimitKept.countSymbols {s : State} {l : Nat} (h : LimitKept s l) (p : Nat) (lanes pos : List Nat) :
    LimitKept (s.countSymbols p lanes pos) l := by
  unfold State.countSymbols
  induction pos generalizing s with
  | nil => exact h
  | cons i pos ih => exact ih (h.countSymbol _)

end

/-- No field that counts codewords is one that a symbol is counted in. -/
theorem not_mem_symKeys {lanes : List Nat} {f : FRef} {t k : Nat} (k8 : k < 8) (at_ : 0x20401 + 0x2000 * t + 8 * k ≤ f.key / 64)
    (hi : f.key / 64 ≤ 0x20405 + 0x2000 * t + 8 * k) : f.key ∉ lanes.flatMap symKeys := by
  rw [List.mem_flatMap]
  rintro ⟨l, -, hk⟩
  simp only [List.mem_cons, List.not_mem_nil, or_false] at hk
  omega

end State

/-- CODEWORD_RX on lanes without a loopback (R74, R93). -/
theorem exec_codewordRx (p : Fin 256) (lv : BitVec 5440) (s : State)
    (line : ∀ l ∈ s.usedLanes p, s.laneSource l ≠ 4 ∧ s.nearLoop l = false) : exec (.codewordRx p lv) s =
      .next (if s.formed p && (s.port p).aligned then s.decodeWord p (s.usedLanes p) lv else s) := by
  have far : (s.usedLanes p).any s.nearLoop = false := List.any_eq_false.2 (fun l hl => by rw [(line l hl).2]; exact Bool.false_ne_true)
  have back : (List.range (s.usedLanes p).length).foldl
      (fun s' j => loopBack s' ((s.usedLanes p).getD j 0) (s'.upright ((s.usedLanes p).getD j 0) (cwLevels lv (s.usedLanes p).length j))) s = s :=
    foldl_eq_self_of_mem (fun j hj => loopBack_of_source s _ _ (line _ (getD_mem (List.mem_range.1 hj))).1)
  show execCodewordRx p lv s = _
  simp only [execCodewordRx, nearWord, far, Bool.false_eq_true, if_false, back]

/-- The codeword of an aligned port is decoded, and counted against its lanes (R74, R88, R89). -/
theorem exec_codewordRx_of_aligned (p : Fin 256) (lv : BitVec 5440) (s : State)
    (line : ∀ l ∈ s.usedLanes p, s.laneSource l ≠ 4 ∧ s.nearLoop l = false) (formed : s.formed p = true) (aligned : (s.port p).aligned = true) :
    ∃ t, LanesHeard s t ∧ exec (.codewordRx p lv) s = .next (t.decoded p (s.usedLanes p) (receivedWord s p lv)) := by
  refine ⟨_, (heard_spec s (nodup_usedLanes s p) lv (Nat.le_refl _)).1, ?_⟩
  rw [exec_codewordRx p lv s line, formed, aligned, ← decodeWord_eq, if_pos (show (true && true) = true from rfl)]

/-- A word with corrected symbols counts, each symbol against its lane. -/
theorem decoded_corrects {s t : State} {p : Nat} (h : LanesHeard s t) (formed : s.formed p = true) {word w pos : List Nat}
    (dec : rsDecode word = some (w, pos)) (some_ : pos ≠ []) :
    let corr := R.LT_FEC_CORR (p / 16) (p / 2 % 8); let sym := R.LT_FEC_SYM (p / 16) (p / 2 % 8); let lanes := s.usedLanes p
    let u := t.decoded p lanes word
    u.rd corr = (s.rd corr + 1) % 2 ^ corr.width ∧ u.rd sym = (s.rd sym + pos.length) % 2 ^ sym.width ∧ StreamGrows (s.port p) p w u ∧
      (∀ l, LimitKept s l → LimitKept u l) ∧ Keeps s u (corr.key :: sym.key :: lanes.flatMap symKeys) := by
  dsimp only
  have stays : ∀ f, t.rd f = s.rd f := fun f => (h.keeps []).rd_eq List.not_mem_nil
  have lane := usedLanes_length_pos formed
  rw [decoded_of_corrected t p _ dec some_]
  generalize hb : (t.bump (R.LT_FEC_CORR (p / 16) (p / 2 % 8))).bumpBy (R.LT_FEC_SYM (p / 16) (p / 2 % 8)) pos.length = b
  have bumped : Keeps t b [(R.LT_FEC_CORR (p / 16) (p / 2 % 8)).key, (R.LT_FEC_SYM (p / 16) (p / 2 % 8)).key] := by
    rw [← hb]
    exact ((Keeps.refl t _).wr _ (by simp)).wr _ (by simp)
  have corr : b.rd (R.LT_FEC_CORR (p / 16) (p / 2 % 8)) = (s.rd (R.LT_FEC_CORR (p / 16) (p / 2 % 8)) + 1) % 2 ^ 64 := by
    rw [← hb, bumpBy, rd_wr_ne _ _ (by dsimp only; omega), rd_bump_self, stays]
  have sym : b.rd (R.LT_FEC_SYM (p / 16) (p / 2 % 8)) = (s.rd (R.LT_FEC_SYM (p / 16) (p / 2 % 8)) + pos.length) % 2 ^ 64 := by
    rw [← hb, bumpBy, rd_wr_self, rd_bump_ne _ (by dsimp only; omega), stays]
  have port : b.port p = s.port p := by rw [← hb, port_bumpBy, port_bump, h.port]
  have counted := keeps_countSymbols b p lane pos
  have streamed := keeps_streamBits (b.countSymbols p (s.usedLanes p) pos) p w false []
  have grows := streamGrows_streamBits (b.countSymbols p (s.usedLanes p) pos) p w false
  rw [port_countSymbols, port] at grows
  refine ⟨?_, ?_, grows, fun l kept => ?_, ?_⟩
  · rw [streamed.rd_eq List.not_mem_nil, counted.rd_eq (not_mem_symKeys (t := p / 16) (Nat.mod_lt (p / 2) (by decide)) (by dsimp only; omega) (by dsimp only; omega)), corr]
  · rw [streamed.rd_eq List.not_mem_nil, counted.rd_eq (not_mem_symKeys (t := p / 16) (Nat.mod_lt (p / 2) (by decide)) (by dsimp only; omega) (by dsimp only; omega)), sym]
  · have kept' : LimitKept b l := (h.limitKept kept).of_le (bumped.rd_eq (by simp; omega)) (by rw [← hb, lane_bumpBy, lane_bump])
      (fun ill => (congrArg (bitOf · (l % 32)) (bumped.rd_eq (by simp; omega))).trans ill)
    exact (kept'.countSymbols p _ pos).of_le rfl (Nat.le_refl _) (fun ill => ill)
  · exact (((h.keeps _).trans (bumped.mono (by simp))).trans (counted.mono (by simp))).trans (streamed.mono (List.nil_subset _))

/-- HEALTH_WINDOW_END. -/
theorem healthWindowEnd_judges (l : Fin 512) (s : State) : let f := R.LT_HEALTH_UNHEALTHY (l.val / 32); let st := s.lane l
    let win := s.winIdx 1000000; let bad := ∃ k : Nat, st.limitFrom = some k ∧ (k ≤ st.symIdx ∨ k / 2 ^ 96 = win / 2 ^ 96 ∧ k < win)
    (win = st.symIdx → exec (.healthWindowEnd l) s = .next s) ∧
    (win ≠ st.symIdx → Does (.healthWindowEnd l) s (fun u => (u.lane l).symWin = 0 ∧ (u.lane l).symIdx = win ∧ Keeps s u [f.key] ∧
      (bad → u.rd f = (s.rd f ||| 2 ^ (l.val % 32)) % 2 ^ 32) ∧ (¬ bad → u.rd f = s.rd f))) := by
  dsimp only
  have run : exec (.healthWindowEnd l) s = .next (s.judgeWindow l) := rfl
  have whole : limitWhole (s.lane l) (s.winIdx 1000000) = true ↔ ∃ k : Nat, (s.lane l).limitFrom = some k ∧
      (k ≤ (s.lane l).symIdx ∨ k / 2 ^ 96 = s.winIdx 1000000 / 2 ^ 96 ∧ k < s.winIdx 1000000) := by
    unfold limitWhole
    cases (s.lane l).limitFrom <;> simp
  have begun : ((s.newWindow l (s.winIdx 1000000)).lane l).symWin = 0 ∧ ((s.newWindow l (s.winIdx 1000000)).lane l).symIdx = s.winIdx 1000000 := by
    rw [newWindow, lane_setLane_self]
    exact ⟨rfl, rfl⟩
  rw [run, judgeWindow_eq]
  refine ⟨fun same => by rw [if_pos same], fun other => ?_⟩
  refine ⟨_, run.trans (by rw [judgeWindow_eq, if_neg other]), ?_⟩
  have stays : ∀ f, (s.newWindow l (s.winIdx 1000000)).rd f = s.rd f := fun f => (keeps_newWindow s l _ []).rd_eq List.not_mem_nil
  by_cases bad : limitWhole (s.lane l) (s.winIdx 1000000) = true
  · rw [if_pos bad]
    refine ⟨begun.1, begun.2, (keeps_newWindow s l _ _).trans (keeps_setUnhealthy _ l), fun _ => ?_, fun no => absurd (whole.1 bad) no⟩
    exact (rd_wr_self _ _ _).trans (by rw [stays])
  · rw [if_neg bad]
    exact ⟨begun.1, begun.2, keeps_newWindow s l _ _, fun yes => absurd (whole.2 yes) bad, fun _ => stays _⟩

/-- HEALTH_COMMA_TIMEOUT. -/
theorem healthCommaTimeout_judges (l : Fin 512) (s : State) (t0 : Nat) (from_ : (s.lane l).detectAt = some t0) (late : t0 + 40000000 ≤ s.now)
    (unlocked : s.rd (R.LT_LANE_STAT_COMMA_LOCK (l.val / 32) (l.val % 32)) = 0) :
    Does (.healthCommaTimeout l) s (fun u => u.unhealthy l = true ∧ Keeps s u [(R.LT_HEALTH_UNHEALTHY (l.val / 32)).key]) := by
  have run : exec (.healthCommaTimeout l) s = .next (s.setUnhealthy l) := by
    show execHealthCommaTimeout l s = _
    simp only [execHealthCommaTimeout, from_]
    rw [if_pos ⟨late, unlocked⟩]
  exact ⟨_, run, by rw [unhealthy_setUnhealthy, decide_eq_true rfl, Bool.or_true], keeps_setUnhealthy s l⟩

/-- LT_HEALTH_WRITE: a 1 makes the lane healthy again. -/
theorem ltHealthWrite_clears (m : Master) (t : Fin 16) (mask : BitVec 32) (s : State) (reaches : Reaches s m (0x100008 + 0x10000 * t.val)) :
    Does (.ltHealthWrite m t mask) s (fun u => Keeps s u [(R.LT_HEALTH_UNHEALTHY t.val).key] ∧
      ∀ i : Fin 32, u.unhealthy (32 * t.val + i.val) = (s.unhealthy (32 * t.val + i.val) && !mask.toNat.testBit i.val)) := by
  have run : exec (.ltHealthWrite m t mask) s =
      .next (s.wr (R.LT_HEALTH_UNHEALTHY t.val) (s.rd (R.LT_HEALTH_UNHEALTHY t.val) &&& (mask.toNat ^^^ 0xFFFFFFFF))) := by
    show execLtHealthWrite m t mask s = _
    rw [execLtHealthWrite, gated_of_reaches reaches]
  refine ⟨_, run, keeps_wr s _ _, fun i => ?_⟩
  have tile : (32 * t.val + i.val) / 32 = t.val := by omega
  have place : (32 * t.val + i.val) % 32 = i.val := by omega
  simp only [unhealthy, tile, place, bitOf]
  rw [rd_wr_self, Nat.testBit_mod_two_pow, Nat.testBit_and, Nat.testBit_xor, show 0xFFFFFFFF = 2 ^ 32 - 1 from rfl, Nat.testBit_two_pow_sub_one]
  simp only [i.isLt, decide_true, Bool.true_and, Bool.xor_true]

/-- The meaning of CODEWORD_RX, HEALTH_WINDOW_END, HEALTH_COMMA_TIMEOUT and LT_HEALTH_WRITE. -/
theorem laneHealth : Claims.LaneHealth := by
  refine ⟨fun p lv s => ?_, fun l s => ?_, ltHealthWrite_clears⟩
  · intro t k lanes st corr sym unc word stream line full
    refine ⟨fun idle => ?_, fun formed aligned => ?_⟩
    · have off : (s.formed p && (s.port p).aligned) = false := Bool.and_eq_false_iff.2 idle
      rw [exec_codewordRx p lv s line, off]
      rfl
    · obtain ⟨u, h, run⟩ := exec_codewordRx_of_aligned p lv s line formed aligned
      have stays : ∀ f, u.rd f = s.rd f := fun f => (h.keeps []).rd_eq List.not_mem_nil
      refine ⟨fun bad => ?_, fun w clean => ?_, fun w pos dec some_ => ?_⟩
      · have grows := streamGrows_streamBits (u.bump (R.LT_FEC_UNCORR (p.val / 16) (p.val / 2 % 8))) p word true
        have streamed := keeps_streamBits (u.bump (R.LT_FEC_UNCORR (p.val / 16) (p.val / 2 % 8))) p word true
        rw [decoded_of_none u p _ bad] at run
        rw [port_bump, h.port] at grows
        refine ⟨_, run, ?_, grows, ((h.keeps _).trans (keeps_bump u _)).trans (streamed _)⟩
        rw [(streamed []).rd_eq List.not_mem_nil, rd_bump_self, stays]
      · have grows := streamGrows_streamBits u p w false
        rw [decoded_of_clean u p _ clean] at run
        rw [h.port] at grows
        exact ⟨_, run, grows, (h.keeps _).trans (keeps_streamBits u p w false _)⟩
      · obtain ⟨counts, syms, grows, kept, keep⟩ := decoded_corrects (word := receivedWord s p lv) h formed dec some_
        exact ⟨_, run, counts, syms, grows, fun before l hl => kept l (before l hl), keep⟩
  · obtain ⟨same, other⟩ := healthWindowEnd_judges l s
    exact ⟨same, other, fun t0 => healthCommaTimeout_judges l s t0⟩

end Sys2Proof.Machine
end

section
/-!
SUPPORT. Comma blocks at a lane (R79, R80, R85 to R87, R93, R104, R108): the steps of one, and what each leaves.
-/
namespace Sys2Proof.Machine
open State

/-- What a lane keeps of its comma blocks: runs at the exact spacing, skew, usable word, unusable blocks in a row. -/
def commaOf (st : LaneSt) : Nat × Nat × Option CommaWord × Nat := (st.runs, st.skew, st.word, st.badRun)

/-- The fields that a usable comma word gives to LT_LANE_STAT are in range (R80). -/
theorem commaUsable_bounds {a b : Option Nat} {c : CommaWord} (h : commaUsable a b = some c) : c.laneId < 2 ^ 9 ∧ c.plane < 2 ^ 3 ∧ c.mdl < 2 ^ 18 := by
  have word : ∃ w, commaFields w = c := by
    unfold commaUsable at h
    dsimp only at h
    split at h
    · split_ifs at h
      exact ⟨_, Option.some.inj h⟩
    · exact ⟨_, Option.some.inj h⟩
    · exact ⟨_, Option.some.inj h⟩
    · cases h
  obtain ⟨w, rfl⟩ := word
  exact ⟨bitsOf_lt w 67 9, bitsOf_lt w 64 3, bitsOf_lt w 41 18⟩

namespace State

/-- A receiver without lock takes the polarity of a comma run (R86). -/
def polSet (s : State) (l : Nat) (inv : Bool) : State :=
  if s.rdB (lnLock l) then s else s.wrB (R.LT_LANE_STAT_POL_INV (l / 32) (l % 32)) inv

/-- A comma run, at the exact spacing from the last one or not, and its skew are noted (R85, R87). -/
def runNoted (s : State) (l : Nat) (spaced : Bool) (skew : Nat) : State :=
  s.setLane l { s.lane l with
    runs := if spaced then (s.lane l).runs + 1 else 1, usable := if spaced then (s.lane l).usable else 0, skew := skew, rxY := 0 }

/-- The third run at the exact spacing, with two usable blocks, takes lock (R85). -/
def lockIfDue (s : State) (l : Nat) : State := if (s.lane l).runs ≥ 3 ∧ (s.lane l).usable ≥ 2 then s.takeLock l else s

/-- The port of a lane looks at a comma block. -/
def portLooks (s : State) (p : Nat) (w : Option CommaWord) : State := (if s.formed p then (s.commaBoundary p).widthSwitch p w else s).trainLanes p

/-- The lane's part of a comma block with these usable fields. -/
def laneTakes (s : State) (l : Nat) (spaced inv : Bool) (skew : Nat) (found : Option CommaWord) : State :=
  (commaFieldsRx ((s.polSet l inv).runNoted l spaced skew) l found).lockIfDue l

theorem blockRx_of_none {s : State} {lv : BitVec 800} (run : commaRun lv = none) (l : Nat) (spaced : Bool) (skew : Nat) : s.blockRx l spaced lv skew =
    s.loopBack l ((List.range 400).map (blockLevel lv (s.rdB (R.LT_LANE_STAT_POL_INV (l / 32) (l % 32))))) := by
  unfold blockRx
  rw [run]

theorem blockRx_of_run {s : State} {lv : BitVec 800} {inv : Bool} (run : commaRun lv = some inv) (l : Nat) (spaced : Bool) (skew : Nat)
    {pol : Bool} (hp : (s.polSet l inv).rdB (R.LT_LANE_STAT_POL_INV (l / 32) (l % 32)) = pol) : ∃ v : List Level,
    s.blockRx l spaced lv skew =
      (((s.laneTakes l spaced inv skew (commaUsable (commaCopy lv pol 0) (commaCopy lv pol 1))).loopBack l v).portLooks (s.portOfLane l)
        (((s.laneTakes l spaced inv skew (commaUsable (commaCopy lv pol 0) (commaCopy lv pol 1))).loopBack l v).lane l).word) := by
  subst hp
  unfold blockRx
  rw [run]
  exact ⟨_, rfl⟩

/-! The lane's part. -/

/-- The fields that a comma block gives to lane l, but for its lock. -/
abbrev blockKeys (l : Nat) : List Nat :=
  [(R.LT_LANE_STAT_REMOTE_LANE (l / 32) (l % 32)).key, (R.LT_LANE_STAT_REMOTE_PLANE (l / 32) (l % 32)).key,
    (R.LT_LANE_STAT_REMOTE_MODULE (l / 32) (l % 32)).key, (R.LT_LANE_STAT_PRECODE_ON (l / 32) (l % 32)).key,
    (R.LT_LANE_STAT_COMMA_LOCK (l / 32) (l % 32)).key, (R.LT_LANE_STAT_POL_INV (l / 32) (l % 32)).key,
    (R.LT_COMMA_ERR (l / 32) (l % 32 / 4)).key, (R.LT_HEALTH_UNHEALTHY (l / 32)).key]

section
variable (s : State) (l : Nat)

theorem keeps_polSet (inv : Bool) : Keeps s (s.polSet l inv) [(R.LT_LANE_STAT_POL_INV (l / 32) (l % 32)).key] :=
  (Keeps.refl s _).ite (keeps_wrB s _ inv)

theorem lane_polSet (inv : Bool) (k : Nat) : (s.polSet l inv).lane k = s.lane k := by
  unfold polSet
  split
  · rfl
  · exact lane_wrB s _ inv k

theorem rdB_polSet (inv : Bool) : (s.polSet l inv).rdB (R.LT_LANE_STAT_POL_INV (l / 32) (l % 32)) =
    if s.rdB (lnLock l) then s.rdB (R.LT_LANE_STAT_POL_INV (l / 32) (l % 32)) else inv := by
  unfold polSet
  split
  · rfl
  · exact rdB_wrB_self s rfl inv

theorem lane_runNoted (spaced : Bool) (skew : Nat) : (s.runNoted l spaced skew).lane l = { s.lane l with
    runs := if spaced then (s.lane l).runs + 1 else 1, usable := if spaced then (s.lane l).usable else 0, skew := skew, rxY := 0 } :=
  lane_setLane_self s l _

/-- The fields of a usable comma word at lane l (R80). -/
def fieldsShown (s : State) (l : Nat) (c : CommaWord) : State :=
  (((s.wr (R.LT_LANE_STAT_REMOTE_LANE (l / 32) (l % 32)) c.laneId).wr (R.LT_LANE_STAT_REMOTE_PLANE (l / 32) (l % 32)) c.plane).wr
    (R.LT_LANE_STAT_REMOTE_MODULE (l / 32) (l % 32)) c.mdl).wrB (R.LT_LANE_STAT_PRECODE_ON (l / 32) (l % 32)) c.precode

theorem commaFieldsRx_some (c : CommaWord) : commaFieldsRx s l (some c) =
    (s.fieldsShown l c).setLane l { s.lane l with word := some c, usable := (s.lane l).usable + 1, badRun := 0 } := rfl

/-- An unusable block is counted. -/
def badCounted (s : State) (l : Nat) : State :=
  (s.bump (R.LT_COMMA_ERR (l / 32) (l % 32 / 4))).setLane l { s.lane l with badRun := (s.lane l).badRun + 1 }

theorem commaFieldsRx_none : commaFieldsRx s l none =
    if (s.lane l).badRun + 1 ≥ 4 then (s.badCounted l).setUnhealthy l else s.badCounted l := rfl

theorem keeps_fieldsShown (c : CommaWord) : Keeps s (s.fieldsShown l c) (blockKeys l) :=
  ((((Keeps.refl s _).wr _ (by simp)).wr _ (by simp)).wr _ (by simp)).wr _ (by simp)

theorem rd_fieldsShown (c : CommaWord) : let u := s.fieldsShown l c
    u.rd (R.LT_LANE_STAT_REMOTE_LANE (l / 32) (l % 32)) = c.laneId % 2 ^ 9 ∧ u.rd (R.LT_LANE_STAT_REMOTE_PLANE (l / 32) (l % 32)) = c.plane % 2 ^ 3 ∧
      u.rd (R.LT_LANE_STAT_REMOTE_MODULE (l / 32) (l % 32)) = c.mdl % 2 ^ 18 ∧
      u.rdB (R.LT_LANE_STAT_PRECODE_ON (l / 32) (l % 32)) = c.precode ∧
      u.rd (R.LT_COMMA_ERR (l / 32) (l % 32 / 4)) = s.rd (R.LT_COMMA_ERR (l / 32) (l % 32 / 4)) ∧
      u.rd (R.LT_LANE_STAT_POL_INV (l / 32) (l % 32)) = s.rd (R.LT_LANE_STAT_POL_INV (l / 32) (l % 32)) ∧
      u.rd (R.LT_LANE_STAT_COMMA_LOCK (l / 32) (l % 32)) = s.rd (R.LT_LANE_STAT_COMMA_LOCK (l / 32) (l % 32)) := by
  dsimp only [fieldsShown]
  refine ⟨?_, ?_, ?_, rdB_wrB_self _ rfl _, ?_, ?_, ?_⟩ <;>
    simp (disch := (dsimp only; omega)) only [wrB_def, rd_wr_ne, rd_wr_self]

theorem keeps_badCounted : Keeps s (s.badCounted l) [(R.LT_COMMA_ERR (l / 32) (l % 32 / 4)).key] :=
  (keeps_bump s _).trans (keeps_setLane _ l _ _)

theorem lane_badCounted : (s.badCounted l).lane l = { s.lane l with badRun := (s.lane l).badRun + 1 } := lane_setLane_self _ l _

theorem keeps_badJudged : Keeps (s.badCounted l) (commaFieldsRx s l none) [(R.LT_HEALTH_UNHEALTHY (l / 32)).key] := by
  rw [commaFieldsRx_none]
  exact (keeps_setUnhealthy _ l).ite (Keeps.refl _ _)

theorem lane_setUnhealthy (k : Nat) : (s.setUnhealthy l).lane k = s.lane k := rfl

theorem lane_commaFieldsRx_none : (commaFieldsRx s l none).lane l = { s.lane l with badRun := (s.lane l).badRun + 1 } := by
  rw [commaFieldsRx_none, ← lane_badCounted]
  split
  · exact lane_setUnhealthy _ l l
  · rfl

theorem keeps_commaFieldsRx (w : Option CommaWord) : Keeps s (commaFieldsRx s l w) (blockKeys l) := by
  cases w with
  | some c => exact (keeps_fieldsShown s l c).trans (keeps_setLane _ l _ _)
  | none => exact ((keeps_badCounted s l).mono (by simp)).trans ((keeps_badJudged s l).mono (by simp))

/-- A usable or unusable block leaves polarity and lock. -/
theorem rd_commaFieldsRx (w : Option CommaWord) :
    (commaFieldsRx s l w).rd (R.LT_LANE_STAT_POL_INV (l / 32) (l % 32)) = s.rd (R.LT_LANE_STAT_POL_INV (l / 32) (l % 32)) ∧
      (commaFieldsRx s l w).rd (R.LT_LANE_STAT_COMMA_LOCK (l / 32) (l % 32)) = s.rd (R.LT_LANE_STAT_COMMA_LOCK (l / 32) (l % 32)) := by
  cases w with
  | some c =>
    obtain ⟨-, -, -, -, -, pol, lock⟩ := rd_fieldsShown s l c
    rw [commaFieldsRx_some]
    exact ⟨(rd_setLane _ l _ _).trans pol, (rd_setLane _ l _ _).trans lock⟩
  | none =>
    have counted := keeps_badCounted s l
    have judged := keeps_badJudged s l
    exact ⟨(judged.rd_eq (by simp; omega)).trans (counted.rd_eq (by simp; omega)),
      (judged.rd_eq (by simp; omega)).trans (counted.rd_eq (by simp; omega))⟩

theorem keeps_takeLock : Keeps s (s.takeLock l) [(R.LT_LANE_STAT_COMMA_LOCK (l / 32) (l % 32)).key, (R.LT_LANE_STAT_STATE (l / 32) (l % 32)).key] :=
  ((((Keeps.refl s _).wr (f := lnState l) 1 (by simp [lnState])).ite (Keeps.refl s _)).wr (f := lnLock l) 1 (by simp [lnLock]))

theorem takeLock_of_idle (idle : ¬ (2 ≤ s.linkState (s.portOfLane l) ∧ s.linkState (s.portOfLane l) ≤ 6)) : s.takeLock l = s.wr (lnLock l) 1 := by
  unfold takeLock
  dsimp only
  rw [if_neg idle]

theorem rd_takeLock : (s.takeLock l).rd (R.LT_LANE_STAT_COMMA_LOCK (l / 32) (l % 32)) = 1 := rd_wr_self _ (lnLock l) 1

theorem lane_takeLock (k : Nat) : (s.takeLock l).lane k = s.lane k := by
  unfold takeLock
  dsimp only
  split <;> rfl

theorem keeps_lockIfDue : Keeps s (s.lockIfDue l) [(R.LT_LANE_STAT_COMMA_LOCK (l / 32) (l % 32)).key, (R.LT_LANE_STAT_STATE (l / 32) (l % 32)).key] :=
  (keeps_takeLock s l).ite (Keeps.refl s _)

theorem keeps_lockIfDue_of_idle (idle : ¬ (2 ≤ s.linkState (s.portOfLane l) ∧ s.linkState (s.portOfLane l) ≤ 6)) :
    Keeps s (s.lockIfDue l) [(R.LT_LANE_STAT_COMMA_LOCK (l / 32) (l % 32)).key] := by
  unfold lockIfDue
  rw [takeLock_of_idle s l idle]
  exact (keeps_wr s (lnLock l) 1).ite (Keeps.refl s _)

theorem lane_lockIfDue (k : Nat) : (s.lockIfDue l).lane k = s.lane k := by
  unfold lockIfDue
  split
  · exact lane_takeLock s l k
  · rfl

theorem rdB_lockIfDue : (s.lockIfDue l).rdB (R.LT_LANE_STAT_COMMA_LOCK (l / 32) (l % 32)) =
    (s.rdB (R.LT_LANE_STAT_COMMA_LOCK (l / 32) (l % 32)) || decide (3 ≤ (s.lane l).runs ∧ 2 ≤ (s.lane l).usable)) := by
  unfold lockIfDue
  split
  next due => rw [rdB_eq_true (rd_takeLock s l), decide_eq_true due, Bool.or_true]
  next early => rw [decide_eq_false early, Bool.or_false]

end

end State
end Sys2Proof.Machine
end

section
/-!
COMMA_BLOCK_RX (R80, R85 to R87, R89, R93, R104), and the obligation of comma blocks, health and patterns.
-/
namespace Sys2Proof.Machine
open State

namespace State

/-! The lane's part of a comma block. -/

section
variable (s : State) (l : Nat) (spaced inv : Bool) (skew : Nat) (found : Option CommaWord)

/-- Lane l with polarity set, the run noted, and the fields taken. -/
def fieldsTaken : State := commaFieldsRx ((s.polSet l inv).runNoted l spaced skew) l found

theorem keeps_runNoted (ks : List Nat) : Keeps s (s.runNoted l spaced skew) ks := keeps_setLane s l _ ks

theorem keeps_fieldsTaken : Keeps s (s.fieldsTaken l spaced inv skew found) (blockKeys l) :=
  (((keeps_polSet s l inv).mono (by simp)).trans (keeps_runNoted _ l spaced skew _)).trans (keeps_commaFieldsRx _ l found)

theorem laneTakes_eq : s.laneTakes l spaced inv skew found = (s.fieldsTaken l spaced inv skew found).lockIfDue l := rfl

theorem keeps_laneTakes : Keeps s (s.laneTakes l spaced inv skew found) (blockKeys l ++ [(R.LT_LANE_STAT_STATE (l / 32) (l % 32)).key]) := by
  rw [laneTakes_eq]
  exact ((keeps_fieldsTaken s l spaced inv skew found).mono (List.subset_append_left _ _)).trans ((keeps_lockIfDue _ l).mono (by simp))

/-- The port and the link of a lane do not change with its fields. -/
theorem linkState_fieldsTaken (hl : l < 512) :
    (s.fieldsTaken l spaced inv skew found).linkState ((s.fieldsTaken l spaced inv skew found).portOfLane l) = s.linkState (s.portOfLane l) := by
  have keep := keeps_fieldsTaken s l spaced inv skew found
  have hp := portOfLane_lt s hl
  rw [portOfLane_congr (keep.rd_eq (by simp; omega))]
  exact keep.rd_eq (by simp; omega)

theorem keeps_laneTakes_of_idle (hl : l < 512) (idle : ¬ (2 ≤ s.linkState (s.portOfLane l) ∧ s.linkState (s.portOfLane l) ≤ 6)) :
    Keeps s (s.laneTakes l spaced inv skew found) (blockKeys l) := by
  rw [laneTakes_eq]
  exact (keeps_fieldsTaken s l spaced inv skew found).trans
    ((keeps_lockIfDue_of_idle _ l (by rwa [linkState_fieldsTaken s l spaced inv skew found hl])).mono (by simp))

theorem lane_noted : ((s.polSet l inv).runNoted l spaced skew).lane l = { s.lane l with
    runs := if spaced then (s.lane l).runs + 1 else 1, usable := if spaced then (s.lane l).usable else 0, skew := skew, rxY := 0 } := by
  rw [lane_runNoted, lane_polSet]

theorem lane_fieldsTaken : let u := (s.fieldsTaken l spaced inv skew found).lane l
    u.runs = (if spaced then (s.lane l).runs + 1 else 1) ∧ u.skew = skew ∧
      u.usable = (if spaced then (s.lane l).usable else 0) + b2n found.isSome ∧
      u.word = (found.or (s.lane l).word) ∧ (found = none → u.badRun = (s.lane l).badRun + 1) := by
  dsimp only
  cases found with
  | some c =>
    rw [fieldsTaken, commaFieldsRx_some, lane_setLane_self, lane_noted]
    exact ⟨rfl, rfl, rfl, rfl, nofun⟩
  | none =>
    rw [fieldsTaken, lane_commaFieldsRx_none, lane_noted]
    exact ⟨rfl, rfl, rfl, rfl, fun _ => rfl⟩

theorem laneTakes_lane : (s.laneTakes l spaced inv skew found).lane l = (s.fieldsTaken l spaced inv skew found).lane l := by
  rw [laneTakes_eq, lane_lockIfDue]

theorem rdB_laneTakes_pol : (s.laneTakes l spaced inv skew found).rdB (R.LT_LANE_STAT_POL_INV (l / 32) (l % 32)) =
    if s.rdB (R.LT_LANE_STAT_COMMA_LOCK (l / 32) (l % 32)) then s.rdB (R.LT_LANE_STAT_POL_INV (l / 32) (l % 32)) else inv := by
  have lock := keeps_lockIfDue (s.fieldsTaken l spaced inv skew found) l
  have noted := keeps_runNoted (s.polSet l inv) l spaced skew []
  have e : (s.laneTakes l spaced inv skew found).rd (R.LT_LANE_STAT_POL_INV (l / 32) (l % 32)) =
      (s.polSet l inv).rd (R.LT_LANE_STAT_POL_INV (l / 32) (l % 32)) := by
    rw [laneTakes_eq, lock.rd_eq (by simp), fieldsTaken, (rd_commaFieldsRx _ l found).1, noted.rd_eq List.not_mem_nil]
  exact (congrArg (· == 1) e).trans (rdB_polSet s l inv)

theorem rdB_laneTakes_lock : (s.laneTakes l spaced inv skew found).rdB (R.LT_LANE_STAT_COMMA_LOCK (l / 32) (l % 32)) =
    (s.rdB (R.LT_LANE_STAT_COMMA_LOCK (l / 32) (l % 32)) || decide (3 ≤ (if spaced then (s.lane l).runs + 1 else 1) ∧
      2 ≤ (if spaced then (s.lane l).usable else 0) + b2n found.isSome)) := by
  have noted := keeps_runNoted (s.polSet l inv) l spaced skew []
  obtain ⟨runs, -, usable, -, -⟩ := lane_fieldsTaken s l spaced inv skew found
  have e : (s.fieldsTaken l spaced inv skew found).rd (R.LT_LANE_STAT_COMMA_LOCK (l / 32) (l % 32)) =
      s.rd (R.LT_LANE_STAT_COMMA_LOCK (l / 32) (l % 32)) := by
    rw [fieldsTaken, (rd_commaFieldsRx _ l found).2, noted.rd_eq List.not_mem_nil, (keeps_polSet s l inv).rd_eq (by simp)]
  rw [laneTakes_eq, rdB_lockIfDue, runs, usable, rdB_def, e, rdB_def]

/-- A field that neither polarity nor lock is in reads after a block what its fields gave. -/
theorem rd_laneTakes {f : FRef} (h : f.key ∉ [(R.LT_LANE_STAT_COMMA_LOCK (l / 32) (l % 32)).key, (R.LT_LANE_STAT_STATE (l / 32) (l % 32)).key]) :
    (s.laneTakes l spaced inv skew found).rd f = (s.fieldsTaken l spaced inv skew found).rd f := by
  rw [laneTakes_eq, (keeps_lockIfDue _ l).rd_eq h]

/-- Before its fields are taken a block has given a lane only polarity. -/
theorem rd_noted {f : FRef} (h : f.key ≠ (R.LT_LANE_STAT_POL_INV (l / 32) (l % 32)).key) :
    ((s.polSet l inv).runNoted l spaced skew).rd f = s.rd f := by
  rw [(keeps_runNoted _ l spaced skew []).rd_eq List.not_mem_nil, (keeps_polSet s l inv).rd_eq (by simpa using h)]

theorem laneTakes_some {c : CommaWord} (fit : c.laneId < 2 ^ 9 ∧ c.plane < 2 ^ 3 ∧ c.mdl < 2 ^ 18) : let u := s.laneTakes l spaced inv skew (some c)
    u.rd (R.LT_LANE_STAT_REMOTE_LANE (l / 32) (l % 32)) = c.laneId ∧ u.rd (R.LT_LANE_STAT_REMOTE_PLANE (l / 32) (l % 32)) = c.plane ∧
      u.rd (R.LT_LANE_STAT_REMOTE_MODULE (l / 32) (l % 32)) = c.mdl ∧ u.rdB (R.LT_LANE_STAT_PRECODE_ON (l / 32) (l % 32)) = c.precode ∧
      u.rd (R.LT_COMMA_ERR (l / 32) (l % 32 / 4)) = s.rd (R.LT_COMMA_ERR (l / 32) (l % 32 / 4)) := by
  dsimp only
  obtain ⟨laneId, plane, mdl⟩ := fit
  obtain ⟨a, b, c', d, e, -, -⟩ := rd_fieldsShown ((s.polSet l inv).runNoted l spaced skew) l c
  rw [Nat.mod_eq_of_lt laneId] at a
  rw [Nat.mod_eq_of_lt plane] at b
  rw [Nat.mod_eq_of_lt mdl] at c'
  rw [rd_noted s l spaced inv skew (by dsimp only; omega)] at e
  have taken : ∀ f, (s.fieldsTaken l spaced inv skew (some c)).rd f = (((s.polSet l inv).runNoted l spaced skew).fieldsShown l c).rd f := fun f => by
    rw [fieldsTaken, commaFieldsRx_some]
    exact rd_setLane _ l _ f
  have away : ∀ f : FRef, f.key ∉ [(R.LT_LANE_STAT_COMMA_LOCK (l / 32) (l % 32)).key, (R.LT_LANE_STAT_STATE (l / 32) (l % 32)).key] →
      (s.laneTakes l spaced inv skew (some c)).rd f = (((s.polSet l inv).runNoted l spaced skew).fieldsShown l c).rd f := fun f h =>
    (rd_laneTakes s l spaced inv skew (some c) h).trans (taken f)
  exact ⟨(away _ (by simp)).trans a, (away _ (by simp)).trans b, (away _ (by simp)).trans c',
    (congrArg (· == 1) (away _ (by simp))).trans d, (away _ (by simp; omega)).trans e⟩

theorem laneTakes_none : let u := s.laneTakes l spaced inv skew none
    u.rd (R.LT_COMMA_ERR (l / 32) (l % 32 / 4)) = (s.rd (R.LT_COMMA_ERR (l / 32) (l % 32 / 4)) + 1) % 2 ^ 64 ∧
      (3 ≤ (s.lane l).badRun → u.unhealthy l = true) := by
  dsimp only
  have away := fun {f : FRef} h => rd_laneTakes s l spaced inv skew none (f := f) h
  have judged := keeps_badJudged ((s.polSet l inv).runNoted l spaced skew) l
  have lane := congrArg LaneSt.badRun (lane_noted s l spaced inv skew)
  dsimp only at lane
  refine ⟨?_, fun many => ?_⟩
  · rw [away (by simp; omega), fieldsTaken, judged.rd_eq (by simp; omega), badCounted, rd_setLane, rd_bump_self,
      rd_noted s l spaced inv skew (by dsimp only; omega)]
  · rw [unhealthy, away (by simp; omega), fieldsTaken, commaFieldsRx_none, lane, if_pos (by omega), ← unhealthy, unhealthy_setUnhealthy,
      decide_eq_true rfl, Bool.or_true]

end

/-! The port's part of a comma block. -/

theorem commaOf_lane_endLine (s : State) (p l : Nat) : commaOf ((s.endLine p).lane l) = commaOf (s.lane l) := by
  unfold endLine
  refine (foldl_eq_of_step (fun u : State => commaOf (u.lane l)) (fun k _ u => ?_) _).trans rfl
  rw [lane_setLane]
  split
  next same => rw [same]; rfl
  · rfl

theorem keeps_endLine (s : State) (p : Nat) (ks : List Nat) : Keeps s (s.endLine p) ks :=
  (keeps_modPort s p _ ks).foldl (fun l _ u => keeps_setLane u l _ ks)

theorem degrade_eq (s : State) (p : Nat) : s.degrade p = ((s.modPort p (fun st => { st with degraded := true })).endLine p).unalign p := rfl

theorem keeps_degrade (s : State) (p : Nat) : Keeps s (s.degrade p) (alignKeys s p) := by
  have ended : ∀ ks, Keeps s ((s.modPort p (fun st => { st with degraded := true })).endLine p) ks := fun ks =>
    (keeps_modPort s p _ ks).trans (keeps_endLine _ p ks)
  rw [degrade_eq]
  refine (ended _).trans ?_
  rw [← alignKeys_congr ((ended []).rd_eq List.not_mem_nil)]
  exact keeps_unalign _ p

theorem commaOf_lane_degrade (s : State) (p l : Nat) : commaOf ((s.degrade p).lane l) = commaOf (s.lane l) := by
  rw [degrade_eq, lane_unalign, commaOf_lane_endLine, lane_modPort]

theorem keeps_widthSwitch (s : State) (p : Nat) (w : Option CommaWord) : Keeps s (s.widthSwitch p w) (alignKeys s p) := by
  cases w with
  | none => exact Keeps.refl s _
  | some c => exact (keeps_degrade s p).ite (Keeps.refl s _)

theorem commaOf_lane_widthSwitch (s : State) (p l : Nat) (w : Option CommaWord) : commaOf ((s.widthSwitch p w).lane l) = commaOf (s.lane l) := by
  cases w with
  | none => rfl
  | some c =>
    simp only [widthSwitch]
    split
    · exact commaOf_lane_degrade s p l
    · rfl

/-- Outside training no width is switched (R108). -/
theorem widthSwitch_of_idle {s : State} {p : Nat} (idle : ¬ (2 ≤ s.linkState p ∧ s.linkState p ≤ 6)) (w : Option CommaWord) :
    s.widthSwitch p w = s := by
  cases w with
  | none => rfl
  | some c =>
    refine if_neg (fun h => idle ?_)
    simp only [Bool.and_eq_true, decide_eq_true_eq] at h
    obtain ⟨⟨-, lo⟩, hi⟩ := h
    exact ⟨lo, hi⟩

/-- The fields of port p that show what a check of its alignment found. -/
abbrev checkKeys (s : State) (p : Nat) : List Nat :=
  alignKeys s p ++ [(R.LT_ALIGN_ERR (p / 16) (p / 2 % 8)).key, (R.LNK_STAT_RX_HALF (p / 2) (p % 2)).key]

/-- The alignment of port p is as found, and a misalignment that begins counts (R87). -/
def alignNoted (s : State) (p order : Nat) (mismatch : Bool) (skew half : Nat) : State :=
  let ok := decide (order < 2) && !mismatch
  let t := (s.wr (R.LNK_STAT_RX_HALF (p / 2) (p % 2)) half).modPort p
    (fun st => { st with aligned := ok, order := order, mismatch := mismatch, skew := skew })
  if ok || (decide (2 ≤ (s.port p).order) || (s.port p).mismatch) then t else t.bump (R.LT_ALIGN_ERR (p / 16) (p / 2 % 8))

theorem portAlign_eq (s : State) (p : Nat) : s.portAlign p = s ∨
    ∃ order mismatch skew half, s.portAlign p = (s.alignNoted p order mismatch skew half).syncAlign (p / 2) := by
  unfold portAlign
  rcases s.alignFound p with ⟨_ | ⟨order, mismatch, skew⟩, half⟩
  · exact .inl rfl
  · exact .inr ⟨order, mismatch, skew, half, rfl⟩

theorem keeps_alignNoted (s : State) (p order : Nat) (mismatch : Bool) (skew half : Nat) : Keeps s (s.alignNoted p order mismatch skew half)
    [(R.LT_ALIGN_ERR (p / 16) (p / 2 % 8)).key, (R.LNK_STAT_RX_HALF (p / 2) (p % 2)).key] := by
  have found : Keeps s ((s.wr (R.LNK_STAT_RX_HALF (p / 2) (p % 2)) half).modPort p (fun st =>
      { st with aligned := decide (order < 2) && !mismatch, order := order, mismatch := mismatch, skew := skew }))
      [(R.LT_ALIGN_ERR (p / 16) (p / 2 % 8)).key, (R.LNK_STAT_RX_HALF (p / 2) (p % 2)).key] :=
    ((Keeps.refl s _).wr half (by simp)).trans (keeps_modPort _ p _ _)
  exact found.ite (found.trans ((keeps_bump _ _).mono (by simp)))

theorem lane_alignNoted (s : State) (p order : Nat) (mismatch : Bool) (skew half l : Nat) :
    (s.alignNoted p order mismatch skew half).lane l = s.lane l := by
  simp only [alignNoted]
  split
  · rw [lane_modPort, lane_wr]
  · rw [lane_bump, lane_modPort, lane_wr]

theorem keeps_portAlign (s : State) (p : Nat) : Keeps s (s.portAlign p) (checkKeys s p) := by
  obtain same | ⟨order, mismatch, skew, half, e⟩ := portAlign_eq s p
  · rw [same]
    exact Keeps.refl s _
  · have noted := keeps_alignNoted s p order mismatch skew half
    have shown := keeps_syncAlign (s.alignNoted p order mismatch skew half) p
    rw [alignKeys_congr (noted.rd_eq (by simp; omega))] at shown
    rw [e]
    exact (noted.mono (List.subset_append_right _ _)).trans (shown.mono (List.subset_append_left _ _))

theorem lane_portAlign (s : State) (p l : Nat) : (s.portAlign p).lane l = s.lane l := by
  obtain same | ⟨order, mismatch, skew, half, e⟩ := portAlign_eq s p
  · rw [same]
  · rw [e, lane_syncAlign, lane_alignNoted]

/-- The fields that a comma block gives to the port of its lane. -/
abbrev portBlockKeys (s : State) (p : Nat) : List Nat := checkKeys s p ++ [(R.LNK_STAT_STATE (p / 2) (p % 2)).key]

theorem trainLanes_of_idle {s : State} {p : Nat} (idle : s.linkState p < 2 ∨ s.linkState p = 7) : s.trainLanes p = s := by
  refine if_pos ?_
  simp only [Bool.or_eq_true, decide_eq_true_eq, beq_iff_eq]
  tauto

/-- A port in training is aligned, and leaves DETECT when every lane in use has lock (R87, R104). -/
theorem trainLanes_of_training {s : State} {p : Nat} (formed : s.formed p = true) (lo : 2 ≤ s.linkState p) (hi : s.linkState p ≠ 7) :
    s.trainLanes p = if (s.portAlign p).linkState p == 2 && ((s.portAlign p).usedLanes p).all (fun l => (s.portAlign p).rdB (lnLock l)) then
      (s.portAlign p).setLinkState p 3 else s.portAlign p := by
  refine if_neg ?_
  simp only [formed, Bool.not_true, Bool.false_or, Bool.or_eq_true, decide_eq_true_eq, beq_iff_eq]
  omega

theorem keeps_trainLanes (s : State) (p : Nat) : Keeps s (s.trainLanes p) (portBlockKeys s p) := by
  have aligns := (keeps_portAlign s p).mono (List.subset_append_left _ [(R.LNK_STAT_STATE (p / 2) (p % 2)).key])
  exact (Keeps.refl s _).ite ((aligns.wr (f := R.LNK_STAT_STATE (p / 2) (p % 2)) 3 (by simp)).ite aligns)

theorem lane_trainLanes (s : State) (p l : Nat) : (s.trainLanes p).lane l = s.lane l := by
  unfold trainLanes
  split
  · rfl
  · dsimp only
    split <;> exact lane_portAlign s p l

/-- No field of a link's state shows what a check of alignment found. -/
theorem linkState_portAlign {s : State} {p : Nat} (hp : p < 256) : (s.portAlign p).linkState p = s.linkState p := by
  refine (keeps_portAlign s p).rd_eq ?_
  rw [List.mem_append, not_or]
  exact ⟨not_mem_alignKeys hp (fun g hg => by dsimp only; omega), by simp; omega⟩

theorem linkState_trainLanes {s : State} {p : Nat} (hp : p < 256) (formed : s.formed p = true) (detect : s.linkState p = 2) :
    let u := s.trainLanes p; u.linkState p = if ∀ k ∈ u.usedLanes p, u.rd (lnLock k) = 1 then 3 else 2 := by
  dsimp only
  have link := (linkState_portAlign (s := s) hp).trans detect
  rw [trainLanes_of_training formed (by omega) (by omega), link]
  generalize s.portAlign p = a at link
  have all : (a.usedLanes p).all (fun l => a.rdB (lnLock l)) = true ↔ ∀ k ∈ a.usedLanes p, a.rd (lnLock k) = 1 := by
    simp only [List.all_eq_true, rdB_def, beq_iff_eq]
  have lanes : (a.setLinkState p 3).usedLanes p = a.usedLanes p :=
    usedLanes_congr (rd_wr_ne a 3 (by dsimp only; omega)) (rd_wr_ne a 3 (by dsimp only; omega)) rfl
  have locks : ∀ k, (a.setLinkState p 3).rd (lnLock k) = a.rd (lnLock k) := fun k => rd_wr_ne a 3 (by simp only [lnLock]; omega)
  by_cases locked : ∀ k ∈ a.usedLanes p, a.rd (lnLock k) = 1
  · rw [if_pos (by rw [all.2 locked]; rfl), lanes, if_pos (fun k hk => (locks k).trans (locked k hk))]
    exact rd_wr_self a (R.LNK_STAT_STATE (p / 2) (p % 2)) 3
  · rw [if_neg (fun h => locked (all.1 (Bool.and_eq_true_iff.1 h).2)), if_neg locked, link]

/-! The port's part as a whole. -/

/-- The port before it trains: the word bounds its decoding and may switch its width. -/
def portHears (s : State) (p : Nat) (w : Option CommaWord) : State := if s.formed p then (s.commaBoundary p).widthSwitch p w else s

theorem portLooks_eq (s : State) (p : Nat) (w : Option CommaWord) : s.portLooks p w = (s.portHears p w).trainLanes p := rfl

theorem keeps_commaBoundary (s : State) (p : Nat) (ks : List Nat) : Keeps s (s.commaBoundary p) ks := keeps_modPort s p _ ks

section
variable (s : State) (p : Nat) (w : Option CommaWord)

theorem keeps_portHears : Keeps s (s.portHears p w) (alignKeys s p) := by
  refine Keeps.ite ((keeps_commaBoundary s p _).trans ?_) (Keeps.refl s _)
  rw [← alignKeys_congr ((keeps_commaBoundary s p []).rd_eq List.not_mem_nil)]
  exact keeps_widthSwitch _ p w

theorem keeps_portHears_of_idle (idle : ¬ (2 ≤ s.linkState p ∧ s.linkState p ≤ 6)) (ks : List Nat) : Keeps s (s.portHears p w) ks := by
  refine Keeps.ite ?_ (Keeps.refl s _)
  have same : (s.commaBoundary p).linkState p = s.linkState p := (keeps_commaBoundary s p []).rd_eq List.not_mem_nil
  rw [widthSwitch_of_idle (by rwa [same])]
  exact keeps_commaBoundary s p ks

theorem width_portHears (hp : p < 256) : (s.portHears p w).rd (R.LT_TILE_STAT_WIDTH (p / 2 / 8)) = s.rd (R.LT_TILE_STAT_WIDTH (p / 2 / 8)) :=
  (keeps_portHears s p w).rd_eq (not_mem_alignKeys hp (fun g hg => by dsimp only; omega))

theorem keeps_portLooks (hp : p < 256) : Keeps s (s.portLooks p w) (portBlockKeys s p) := by
  have trains := keeps_trainLanes (s.portHears p w) p
  rw [portBlockKeys, checkKeys, alignKeys_congr (width_portHears s p w hp)] at trains
  exact ((keeps_portHears s p w).mono (by simp)).trans trains

theorem linkState_portHears (hp : p < 256) : (s.portHears p w).linkState p = s.linkState p :=
  (keeps_portHears s p w).rd_eq (not_mem_alignKeys hp (fun g hg => by dsimp only; omega))

/-- Outside training a comma block gives no field to its port. -/
theorem keeps_portLooks_of_idle (hp : p < 256) (idle : s.linkState p < 2 ∨ s.linkState p = 7) (ks : List Nat) : Keeps s (s.portLooks p w) ks := by
  rw [portLooks_eq, trainLanes_of_idle (by rwa [linkState_portHears s p w hp])]
  exact keeps_portHears_of_idle s p w (by omega) ks

theorem commaOf_lane_portLooks (l : Nat) : commaOf ((s.portLooks p w).lane l) = commaOf (s.lane l) := by
  rw [portLooks_eq, lane_trainLanes, portHears]
  split
  · rw [commaOf_lane_widthSwitch]
    rfl
  · rfl

theorem linkState_portLooks (hp : p < 256) (formed : s.formed p = true) (detect : s.linkState p = 2) :
    let u := s.portLooks p w; u.linkState p = if ∀ k ∈ u.usedLanes p, u.rd (lnLock k) = 1 then 3 else 2 :=
  linkState_trainLanes hp ((formed_congr (width_portHears s p w hp)).trans formed) ((linkState_portHears s p w hp).trans detect)

end

end State

/-- No field of a lane or of a tile belongs to a port's part of a comma block. -/
theorem not_mem_portBlockKeys {s : State} {p : Nat} {f : FRef} (hp : p < 256) (tile : f.key / 64 < 0x40000)
    (away : ∀ g, g < 128 → f.key / 64 ≠ 0x20400 + 0x2000 * (g / 8) + 8 * (g % 8))
    (err : f.key / 64 ≠ 0x20405 + 0x2000 * (p / 16) + 8 * (p / 2 % 8)) : f.key ∉ portBlockKeys s p := by
  simp only [List.mem_append, List.mem_cons, List.not_mem_nil, or_false, not_or]
  exact ⟨⟨not_mem_alignKeys hp away, by omega, by omega⟩, by omega⟩

/-- What a comma block leaves at lane l and its port, from the lane's part on. -/
theorem portLooks_keeps_lane {s x u : State} {l : Nat} (hl : l < 512) (looks : Keeps x u (portBlockKeys s (s.portOfLane l))) {f : FRef}
    (word : f.key / 64 = 0x20021 + 0x2000 * (l / 32) + 0x10 * (l % 32) ∨ f.key / 64 = 0x20404 + 0x2000 * (l / 32) + 8 * (l % 32 / 4) ∨
      f.key / 64 = 0x20001 + 0x2000 * (l / 32)) : u.rd f = x.rd f :=
  looks.rd_eq (not_mem_portBlockKeys (portOfLane_lt s hl) (by omega) (fun g hg => by omega) (by omega))

theorem exec_commaBlockRx (l : Fin 512) (spaced : Bool) (lv : BitVec 800) (skew : BitVec 16) {s : State} (far : s.nearLoop l = false) :
    exec (.commaBlockRx l spaced lv skew) s =
      .next (if s.rd (R.LT_LANE_STAT_LOS (l.val / 32) (l.val % 32)) = 1 then s else s.blockRx l spaced lv skew.toNat) := by
  show execCommaBlockRx l spaced lv skew s = _
  unfold execCommaBlockRx
  rw [far, if_neg Bool.false_ne_true]
  split <;> rfl

/-- A receiver under near-end loopback whose transmitter has sent too few levels takes none (R93). -/
theorem exec_commaBlockRx_of_near (l : Fin 512) (spaced : Bool) (lv : BitVec 800) (skew : BitVec 16) {s : State} (near : s.nearLoop l = true)
    (few : (s.lane l).near.length < 400) : exec (.commaBlockRx l spaced lv skew) s = .next s := by
  show execCommaBlockRx l spaced lv skew s = _
  unfold execCommaBlockRx
  rw [near, if_pos rfl, takeNear, if_pos few]

/-- A comma block at lane l: its lane's part, and then its port's (R80, R85 to R87, R104). -/
theorem blockRx_eq_portLooks {s : State} {l : Nat} (hl : l < 512) {lv : BitVec 800} {inv : Bool} (run : commaRun lv = some inv) (spaced : Bool)
    (skew : Nat) {pol : Bool} (hpol : (s.polSet l inv).rdB (R.LT_LANE_STAT_POL_INV (l / 32) (l % 32)) = pol) :
    let p := s.portOfLane l; let u := s.blockRx l spaced lv skew
    let lane := s.laneTakes l spaced inv skew (commaUsable (commaCopy lv pol 0) (commaCopy lv pol 1))
    Keeps lane u (portBlockKeys s p) ∧ (s.linkState p < 2 ∨ s.linkState p = 7 → Keeps lane u []) ∧
      commaOf (u.lane l) = commaOf (lane.lane l) ∧
      (s.formed p = true → s.linkState p = 2 → u.linkState p = if ∀ k ∈ u.usedLanes p, u.rd (lnLock k) = 1 then 3 else 2) := by
  dsimp only
  have hp := portOfLane_lt s hl
  obtain ⟨v, block⟩ := blockRx_of_run run l spaced skew hpol
  have part := keeps_laneTakes s l spaced inv skew (commaUsable (commaCopy lv pol 0) (commaCopy lv pol 1))
  rw [block]
  generalize s.laneTakes l spaced inv skew (commaUsable (commaCopy lv pol 0) (commaCopy lv pol 1)) = lane at part
  have back := keeps_loopBack lane l v
  have keep := part.trans (back _)
  have width : (lane.loopBack l v).rd (R.LT_TILE_STAT_WIDTH (s.portOfLane l / 2 / 8)) = s.rd (R.LT_TILE_STAT_WIDTH (s.portOfLane l / 2 / 8)) :=
    keep.rd_eq (by simp; omega)
  have link : (lane.loopBack l v).linkState (s.portOfLane l) = s.linkState (s.portOfLane l) := keep.rd_eq (by simp; omega)
  have looks := keeps_portLooks (lane.loopBack l v) _ ((lane.loopBack l v).lane l).word hp
  rw [portBlockKeys, checkKeys, alignKeys_congr width] at looks
  refine ⟨(back _).trans looks, fun idle => (back _).trans (keeps_portLooks_of_idle _ _ _ hp (by rwa [link]) []), ?_, fun formed detect => ?_⟩
  · rw [commaOf_lane_portLooks, lane_loopBack]
  · exact linkState_portLooks _ _ _ hp ((formed_congr width).trans formed) (link.trans detect)

/-- The meaning of COMMA_BLOCK_RX. -/
theorem commaBlock : Claims.CommaBlock := by
  intro l spaced lv skew inv s t i p st n locked pol runs usable found err
  refine ⟨fun far quiet => ?_, exec_commaBlockRx_of_near l spaced lv skew, fun signal far run => ?_⟩
  · rw [exec_commaBlockRx l spaced lv skew far]
    obtain los | ⟨none_, source⟩ := quiet
    · rw [if_pos los]
    · rw [blockRx_of_none none_, loopBack_of_source s l _ source, ite_self]
  · have exec_ := exec_commaBlockRx l spaced lv skew far
    rw [if_neg (by rw [signal]; exact Nat.zero_ne_one)] at exec_
    refine ⟨_, exec_, ?_⟩
    obtain ⟨looks, idle, comma, link⟩ := blockRx_eq_portLooks l.isLt run spaced skew.toNat (pol := pol) (rdB_polSet s l inv)
    have part := keeps_laneTakes s l spaced inv skew.toNat found
    have partIdle := keeps_laneTakes_of_idle s l spaced inv skew.toNat found l.isLt
    obtain ⟨runs', skew', -, word', bad'⟩ := lane_fieldsTaken s l spaced inv skew.toNat found
    rw [← laneTakes_lane] at runs' skew' word' bad'
    simp only [commaOf, Prod.mk.injEq] at comma
    obtain ⟨runs'', skew'', word'', bad''⟩ := comma
    have stays := fun {f : FRef} h => portLooks_keeps_lane l.isLt looks (f := f) h
    refine ⟨?_, runs''.trans runs', skew''.trans skew', ?_, fun c h => ?_, fun h => ?_, ⟨fun quiet => ?_, ?_⟩, link⟩
    · exact (congrArg (· == 1) (stays (.inl (by dsimp only; omega)))).trans (rdB_laneTakes_pol s l spaced inv skew.toNat found)
    · exact (congrArg (· == 1) (stays (.inl (by dsimp only; omega)))).trans (rdB_laneTakes_lock s l spaced inv skew.toNat found)
    · obtain ⟨laneId, plane, mdl, precode, count⟩ := laneTakes_some s l spaced inv skew.toNat (commaUsable_bounds h)
      rw [← h] at laneId plane mdl precode count
      refine ⟨(stays (.inl (by dsimp only; omega))).trans laneId, (stays (.inl (by dsimp only; omega))).trans plane,
        (stays (.inl (by dsimp only; omega))).trans mdl, (congrArg (· == 1) (stays (.inl (by dsimp only; omega)))).trans precode, ?_,
        (stays (f := R.LT_COMMA_ERR (l.val / 32) (l.val % 32 / 4)) (.inr (.inl (by dsimp only; omega)))).trans count⟩
      exact word''.trans (word'.trans (by rw [h]; rfl))
    · obtain ⟨count, ill⟩ := laneTakes_none s l spaced inv skew.toNat
      rw [← h] at count ill
      refine ⟨(stays (f := R.LT_COMMA_ERR (l.val / 32) (l.val % 32 / 4)) (.inr (.inl (by dsimp only; omega)))).trans count, bad''.trans (bad' h), word''.trans (word'.trans (by rw [h]; rfl)), fun many => ?_⟩
      exact (congrArg (bitOf · (l.val % 32)) (stays (.inr (.inr (by dsimp only; omega))))).trans (ill many)
    · have out : s.linkState (s.portOfLane l) < 2 ∨ s.linkState (s.portOfLane l) = 7 := quiet
      exact (partIdle (by omega)).trans ((idle quiet).mono (List.nil_subset _))
    · refine (part.mono (fun k hk => ?_)).trans (looks.mono (fun k hk => ?_))
      · obtain block | state := List.mem_append.1 hk
        · exact List.mem_append.2 (.inl (List.mem_append.2 (.inl block)))
        · exact List.mem_append.2 (.inr (List.mem_cons.2 (.inl (List.mem_singleton.1 state))))
      · simp only [portBlockKeys, checkKeys, List.mem_append, List.mem_cons, List.not_mem_nil, or_false] at hk
        obtain (align | count | half) | state := hk
        · exact List.mem_append.2 (.inl (List.mem_append.2 (.inr align)))
        · exact List.mem_append.2 (.inr (List.mem_cons_of_mem _ (List.mem_cons.2 (.inl count))))
        · exact List.mem_append.2 (.inr (List.mem_cons_of_mem _ (List.mem_cons_of_mem _ (List.mem_cons_of_mem _ (List.mem_singleton.2 half)))))
        · exact List.mem_append.2 (.inr (List.mem_cons_of_mem _ (List.mem_cons_of_mem _ (List.mem_cons.2 (.inl state)))))

/-- Settles O2: a comma block, a codeword and the health of a lane, and its pattern checker and eye scan, each change the fields named of them. -/
theorem commaHealthAndPatterns : Obligations.CommaHealthAndPatterns := ⟨commaBlock, laneHealth, lanePattern⟩

end Sys2Proof.Machine
end

section
/-!
SUPPORT. The line coding of a port (R72 to R80, R92, R93, R101): levels leave its lanes, and no register, no waiting square and no held row changes.
-/
namespace Sys2Proof.Machine
open State

/-- What a port holds for its sender: waiting squares, held rows, and the replay in progress. -/
def queued (st : PortSt) : List TxSq × List RepRow × Option (Nat × Nat × Nat) := (st.tx, st.replay, st.replaying)

theorem queued_iff {st : PortSt} {tx : List TxSq} {held : List RepRow} {runs : Option (Nat × Nat × Nat)} :
    queued st = (tx, held, runs) ↔ st.tx = tx ∧ st.replay = held ∧ st.replaying = runs := by
  simp only [queued, Prod.mk.injEq]

theorem queued_eq_iff {a b : PortSt} : queued a = queued b ↔ a.tx = b.tx ∧ a.replay = b.replay ∧ a.replaying = b.replaying := queued_iff

/-- t is s after its lanes were driven: registers, memory, and what ports hold to send are as before, and levels alone went out. -/
def Driven (s t : State) : Prop :=
  Keeps s t [] ∧ (∃ ls : List Output, t.out = ls ++ s.out ∧ ∀ o ∈ ls, ∃ (l : Nat) (v : List Level), o = .levels l v) ∧
    ∀ p, queued (t.port p) = queued (s.port p)

namespace Driven

theorem refl (s : State) : Driven s s := ⟨Keeps.refl s [], ⟨[], rfl, fun _ h => absurd h List.not_mem_nil⟩, fun _ => rfl⟩

theorem trans {s t u : State} (h : Driven s t) (h' : Driven t u) : Driven s u := by
  obtain ⟨keep, ⟨ls, out, levels⟩, ports⟩ := h
  obtain ⟨keep', ⟨ls', out', levels'⟩, ports'⟩ := h'
  refine ⟨keep.trans keep', ⟨ls' ++ ls, by rw [out', out, List.append_assoc], fun o ho => ?_⟩, fun p => (ports' p).trans (ports p)⟩
  obtain new | old := List.mem_append.1 ho
  · exact levels' o new
  · exact levels o old

theorem foldl {α : Type} {f : State → α → State} (step : ∀ u a, Driven u (f u a)) (l : List α) (s : State) : Driven s (l.foldl f s) := by
  induction l generalizing s with
  | nil => exact refl s
  | cons a l ih => exact (step s a).trans (ih _)

theorem ite {s t u : State} {c : Prop} [Decidable c] (ht : Driven s t) (hu : Driven s u) : Driven s (if c then t else u) := by
  split
  · exact ht
  · exact hu

theorem setLane (s : State) (l : Nat) (v : LaneSt) : Driven s (s.setLane l v) := ⟨keeps_setLane s l v [], ⟨[], rfl, fun _ h => absurd h List.not_mem_nil⟩, fun _ => rfl⟩

theorem emitLevels (s : State) (l : Nat) (v : List Level) : Driven s (s.emit (.levels l v)) :=
  ⟨keeps_emit s _ [], ⟨[.levels l v], rfl, fun _ ho => ⟨l, v, List.mem_singleton.1 ho⟩⟩, fun _ => rfl⟩

theorem modPort (s : State) (p : Nat) {f : PortSt → PortSt} (same : ∀ st, queued (f st) = queued st) : Driven s (s.modPort p f) := by
  refine ⟨keeps_modPort s p f [], ⟨[], rfl, fun _ h => absurd h List.not_mem_nil⟩, fun q => ?_⟩
  rw [port_modPort]
  split
  next h => rw [h, same]
  · rfl

/-- A change of the line alone is none of what a port holds to send. -/
theorem modLine (s : State) (p : Nat) (g : PortSt → TxLine) : Driven s (s.modPort p (fun st => { st with line := g st })) :=
  modPort s p fun _ => rfl

theorem rd_eq {s t : State} (h : Driven s t) (f : FRef) : t.rd f = s.rd f := h.1.rd_eq List.not_mem_nil

end Driven

namespace State

/-! One lane. -/

theorem driven_sendLevels (s : State) (l : Nat) (v : List Level) : Driven s (s.sendLevels l v) :=
  Driven.ite ((Driven.emitLevels s l v).trans (Driven.setLane _ l _)) (Driven.emitLevels s l v)

theorem driven_drivePattern (s : State) (l n : Nat) : Driven s (s.drivePattern l n) := by
  unfold drivePattern
  dsimp only
  exact (Driven.setLane s l _).trans (driven_sendLevels _ l _)

theorem driven_drive (s : State) (l : Nat) (v : List Level) : Driven s (s.drive l v) := by
  unfold drive
  split
  · exact driven_sendLevels s l v
  · exact Driven.refl s
  · exact driven_drivePattern s l _

theorem driven_sendComma (s : State) (w j l : Nat) : Driven s (s.sendComma w j l) := (Driven.setLane s l _).trans (driven_drive _ l _)

theorem driven_sendSymbols (s : State) (l : Nat) (syms : List Nat) : Driven s (s.sendSymbols l syms) := by
  unfold sendSymbols
  dsimp only
  exact (Driven.setLane s l _).trans (driven_drive _ l _)

/-! The stream of a port. -/

theorem driven_sendCommas (s : State) (p : Nat) : Driven s (s.sendCommas p) :=
  (Driven.foldl (fun u j => Driven.foldl (fun w l => (Driven.setLane w l _).trans (driven_sendComma _ _ j l)) _ u) _ s).trans
    (Driven.modLine _ p _)

theorem driven_noteMark (s : State) (p : Nat) : Driven s (s.noteMark p) := Driven.modPort s p fun st => by split <;> rfl

/-- The lanes of a stream send the symbols of a codeword. -/
def sendWord (s : State) (lanes : List (List Nat)) (cw : List Nat) : State :=
  (List.range lanes.length).foldl (fun s j => (lanes.getD j []).foldl (fun s l => s.sendSymbols l (laneSymbols lanes.length j cw)) s) s

theorem driven_sendWord (s : State) (lanes : List (List Nat)) (cw : List Nat) : Driven s (s.sendWord lanes cw) :=
  Driven.foldl (fun u _ => Driven.foldl (fun w l => driven_sendSymbols w l _) _ u) _ s

/-- The line once n message bits have left it in a codeword. -/
def lineTaken (ln : TxLine) (n scr : Nat) : TxLine :=
  { ln with scr := scr, cw := ln.cw + 1, msg := ln.msg % 2 ^ (ln.len - n), len := ln.len - n }

/-- A codeword leaves on the lanes of a port's stream. -/
def wordSent (s : State) (p : Nat) (x : Nat × List Nat) : State :=
  (s.modPort p (fun st => { st with line := lineTaken (s.port p).line cwBits x.1 })).sendWord (s.port p).line.lanes x.2

theorem sendCodeword_eq (s : State) (p : Nat) : s.sendCodeword p = (s.noteMark p).wordSent p
    (codeword ((s.noteMark p).port p).line.scr (((s.noteMark p).port p).line.msg / 2 ^ (((s.noteMark p).port p).line.len - cwBits))) := by
  rw [sendCodeword]
  rcases codeword ((s.noteMark p).port p).line.scr
    (((s.noteMark p).port p).line.msg / 2 ^ (((s.noteMark p).port p).line.len - cwBits)) with ⟨scr, cw⟩
  rfl

theorem driven_wordSent (s : State) (p : Nat) (x : Nat × List Nat) : Driven s (s.wordSent p x) :=
  (Driven.modLine s p _).trans (driven_sendWord _ _ _)

theorem driven_sendCodeword (s : State) (p : Nat) : Driven s (s.sendCodeword p) := by
  rw [sendCodeword_eq]
  exact (driven_noteMark s p).trans (driven_wordSent _ p _)

/-- The stream of a port that has not begun begins with comma blocks (R101). -/
def lineBegun (s : State) (p : Nat) : State :=
  if (s.port p).line.live then s else (s.modPort p (fun st => { st with line := { live := true, lanes := s.txLanes p } })).sendCommas p

/-- The bits of a row wait for their codeword. -/
def lineFed (s : State) (p : Nat) (bits : BitVec 4224) : State :=
  s.modPort p (fun st => { st with line := { st.line with msg := st.line.msg * 2 ^ 4224 + bits.toNat, len := st.line.len + 4224 } })

/-- A codeword leaves when its message bits are there, after comma blocks where they are due (R79). -/
def lineSent (s : State) (p : Nat) : State :=
  if (s.port p).line.len < cwBits then s
  else (if (s.port p).line.cw = 4096 * (s.port p).line.lanes.length then s.sendCommas p else s).sendCodeword p

theorem lineTx_eq (s : State) (p : Nat) (bits : BitVec 4224) : s.lineTx p bits = ((s.lineBegun p).lineFed p bits).lineSent p := rfl

theorem driven_lineTx (s : State) (p : Nat) (bits : BitVec 4224) : Driven s (s.lineTx p bits) := by
  have begins : Driven s (s.lineBegun p) :=
    (Driven.refl s).ite ((Driven.modLine s p _).trans (driven_sendCommas _ p))
  have feeds : ∀ u : State, Driven u (u.lineFed p bits) := fun u => Driven.modLine u p _
  have sends : ∀ u : State, Driven u (u.lineSent p) := fun u =>
    (Driven.refl u).ite (((driven_sendCommas u p).ite (Driven.refl u)).trans (driven_sendCodeword _ p))
  rw [lineTx_eq]
  exact (begins.trans (feeds _)).trans (sends _)

/-! A row that is sent. -/

/-- Row r goes to the line coding of port p, and nothing else changes but what the port holds to send. -/
theorem putRow_hands (s : State) (p : Nat) (r : Row) : Handed s (s.putRow p (rowEncode r)) p r ∧ Keeps s (s.putRow p (rowEncode r)) [] ∧
    ∀ q, queued ((s.putRow p (rowEncode r)).port q) = queued (s.port q) := by
  obtain ⟨keep, ⟨ls, out, levels⟩, ports⟩ := driven_lineTx (s.emit (.row p (rowEncode r))) p (rowEncode r)
  exact ⟨⟨ls, out, levels⟩, (keeps_emit s _ []).trans keep, ports⟩

end State

/-- What is handed to the line coding is so seen from any state with the same outputs. -/
theorem Handed.of_out {s s' t t' : State} {p : Nat} {r : Row} (h : Handed s t p r) (before : s.out = s'.out) (after : t'.out = t.out) :
    Handed s' t' p r := by
  obtain ⟨ls, out, levels⟩ := h
  exact ⟨ls, by rw [after, out, before], levels⟩

end Sys2Proof.Machine
end

section
/-!
ROW_TX (R72, R102, R104, R106, R110, R114, R115, R118, R503).
-/
namespace Sys2Proof.Machine
open State

/-- From s to t port p hands row r to its line coding, and nothing else changes but the fields with keys in ks. -/
def Sends (s t : State) (p : Nat) (r : Row) (ks : List Nat) : Prop := Handed s t p r ∧ Keeps s t ks ∧ queued (t.port p) = queued (s.port p)

namespace State

/-! A row in UP. -/

/-- The fields of a row's trailer that say what it is and what it carries. -/
def rowBody (r : Row) : List Square × BitVec 12 × Bool × BitVec 2 × BitVec 4 := (r.squares, r.seq, r.replay, r.ty, r.nsq)

theorem rowBody_iff {w : Row} {qs : List Square} {seq : BitVec 12} {rep : Bool} {ty : BitVec 2} {nsq : BitVec 4} :
    rowBody w = (qs, seq, rep, ty, nsq) ↔ w.squares = qs ∧ w.seq = seq ∧ w.replay = rep ∧ w.ty = ty ∧ w.nsq = nsq := by
  simp only [rowBody, Prod.mk.injEq]

/-- The trailer is completed: the row keeps its body (R99, R112). -/
theorem sendUp_sends (s : State) (p : Nat) (r : Row) : ∃ w : Row, rowBody w = rowBody r ∧ Sends s (s.sendUp p r) p w [] := by
  have hands : ∀ (st : PortSt) (w : Row), queued st = queued (s.port p) → Sends s ((s.setPort p st).putRow p (rowEncode w)) p w [] := fun st w same => by
    obtain ⟨handed, keep, ports⟩ := putRow_hands (s.setPort p st) p w
    refine ⟨handed.of_out rfl rfl, (keeps_setPort s p st []).trans keep, ?_⟩
    rw [ports, port_setPort_self, same]
  refine ⟨_, ?_, hands _ _ ?_⟩
  · rfl
  · split <;> rfl

/-- An idle row goes out: its SEQ is the next sequence number (R102). -/
theorem sendUp_idle (s : State) {t : State} (p : Nat) (out : t.out = s.out) :
    (∃ r : Row, Handed s (t.sendUp p (s.idleRow p)) p r ∧ r.ty = 0 ∧ r.nsq = 0 ∧ r.seq.toNat = s.rd (R.LNK_REPLAY_STAT_NEXT_SEQ (p / 2) (p % 2))) ∧
      Keeps t (t.sendUp p (s.idleRow p)) [] := by
  obtain ⟨w, body, handed, keep, -⟩ := sendUp_sends t p (s.idleRow p)
  obtain ⟨-, seq, -, ty, nsq⟩ := rowBody_iff.1 body
  refine ⟨⟨w, handed.of_out out rfl, ty, nsq, ?_⟩, keep⟩
  rw [seq]
  exact Nat.mod_eq_of_lt (rd_lt s (R.LNK_REPLAY_STAT_NEXT_SEQ (p / 2) (p % 2)))

/-! LNK_REPLAY_STAT. -/

/-- The fields of port p that show what its replay buffer holds. -/
abbrev replayKeys (p : Nat) : List Nat := [(R.LNK_REPLAY_STAT_OCCUPANCY (p / 2) (p % 2)).key, (R.LNK_REPLAY_STAT_OLDEST_SEQ (p / 2) (p % 2)).key,
  (R.LNK_REPLAY_STAT_REPLAYING (p / 2) (p % 2)).key]

theorem keeps_syncReplay (s : State) (p : Nat) : Keeps s (s.syncReplay p) (replayKeys p) :=
  (((Keeps.refl s _).wr _ (by simp)).wr _ (by simp)).wr _ (by simp)

theorem port_syncReplay (s : State) (p q : Nat) : (s.syncReplay p).port q = s.port q := rfl
theorem out_syncReplay (s : State) (p : Nat) : (s.syncReplay p).out = s.out := rfl

/-! A row of a replay. -/

/-- What a replay has next when a row has gone out: 4096 after the newest. -/
def afterRow (held : List RepRow) (r : RepRow) : Nat :=
  if (match held.getLast? with | some l => l.seq == r.seq | none => true) = true then 4096 else (r.seq + 1) % 4096

theorem afterRow_eq {held : List RepRow} {r : RepRow} (mem : r ∈ held) :
    afterRow held r = if held.getLast?.map RepRow.seq = some r.seq then 4096 else (r.seq + 1) % 4096 := by
  unfold afterRow
  cases last : held.getLast? with
  | none => exact absurd (List.getLast?_eq_none_iff.1 last ▸ mem) List.not_mem_nil
  | some l => simp

/-- Row r of a replay is counted and goes out. -/
def rowReplayed (s : State) (p e start : Nat) (r : RepRow) : State :=
  (((s.setPort p { s.port p with replaying := some (e, start, afterRow (s.port p).replay r) }).bump (R.LNK_ROWS_REPLAY (p / 2) (p % 2))).sendUp p
    (dataRow r true)).syncReplay p

theorem sendReplay_of_found {s : State} {p next : Nat} {r : RepRow} (found : (s.port p).replay.find? (fun r => r.seq == next) = some r)
    (e start : Nat) : s.sendReplay p e start next = s.rowReplayed p e start r := by
  unfold sendReplay
  simp only [found]
  rfl

theorem rowReplayed_sends (s : State) (p e start : Nat) (r : RepRow) : ∃ w : Row,
    rowBody w = (r.squares, BitVec.ofNat 12 r.seq, true, 1, BitVec.ofNat 4 r.squares.length) ∧ Handed s (s.rowReplayed p e start r) p w ∧
      (s.rowReplayed p e start r).rd (R.LNK_ROWS_REPLAY (p / 2) (p % 2)) = (s.rd (R.LNK_ROWS_REPLAY (p / 2) (p % 2)) + 1) % 2 ^ 64 ∧
      queued ((s.rowReplayed p e start r).port p) = ((s.port p).tx, (s.port p).replay, some (e, start, afterRow (s.port p).replay r)) ∧
      Keeps s (s.rowReplayed p e start r) ((R.LNK_ROWS_REPLAY (p / 2) (p % 2)).key :: replayKeys p) := by
  unfold rowReplayed
  generalize hst : { s.port p with replaying := some (e, start, afterRow (s.port p).replay r) } = st
  have counted := keeps_bump (s.setPort p st) (R.LNK_ROWS_REPLAY (p / 2) (p % 2))
  obtain ⟨w, body, handed, keep, same⟩ := sendUp_sends ((s.setPort p st).bump (R.LNK_ROWS_REPLAY (p / 2) (p % 2))) p (dataRow r true)
  have shown := keeps_syncReplay (((s.setPort p st).bump (R.LNK_ROWS_REPLAY (p / 2) (p % 2))).sendUp p (dataRow r true)) p
  refine ⟨w, body, handed.of_out rfl (out_syncReplay _ p), ?_, ?_, ?_⟩
  · rw [shown.rd_eq (by simp; omega), keep.rd_eq List.not_mem_nil, rd_bump_self]
    rfl
  · rw [port_syncReplay, same, port_bump, port_setPort_self, ← hst]
    rfl
  · exact (((keeps_setPort s p st _).trans (counted.mono (by simp))).trans (keep.mono (List.nil_subset _))).trans (shown.mono (by simp))

/-! A new data row. -/

theorem takeRow_length_le (n : Nat) (l : List TxSq) : (takeRow n l).length ≤ n := by
  induction n generalizing l with
  | zero => simp [takeRow]
  | succ n ih =>
    cases l with
    | nil => simp [takeRow]
    | cons q l =>
      simp only [takeRow]
      split
      · simp
      · simpa using ih l

/-- The least round trip that a window of a port gives: none where no data row was sent or acknowledged (R125). -/
def rttRead (st : PortSt) : Option Nat :=
  match st.rttSent, st.rttWin with
  | true, some v => some (min v 0xFFFFF)
  | _, _ => none

/-- The window of round trips of port p in progress begins. -/
def rttBegun (s : State) (p : Nat) : State := s.setPort p { s.port p with rttWin := none, rttSent := false, rttIdx := s.winIdx 1000000 }

theorem closeRtt_of_same {s : State} {p : Nat} (same : s.winIdx 1000000 = (s.port p).rttIdx) : s.closeRtt p = s := if_pos same

theorem closeRtt_of_other {s : State} {p : Nat} (other : s.winIdx 1000000 ≠ (s.port p).rttIdx) : s.closeRtt p =
    match rttRead (s.port p) with
    | some v => (s.rttBegun p).wr (R.LNK_RTT_RTT_MIN (p / 2) (p % 2)) v
    | none => s.rttBegun p := by
  unfold closeRtt rttRead
  dsimp only
  rw [if_neg other]
  cases (s.port p).rttSent <;> cases (s.port p).rttWin <;> rfl

theorem port_rttBegun (s : State) (p : Nat) : (s.rttBegun p).port p =
    { s.port p with rttWin := none, rttSent := false, rttIdx := s.winIdx 1000000 } := port_setPort_self s p _

theorem keeps_rttBegun (s : State) (p : Nat) (ks : List Nat) : Keeps s (s.rttBegun p) ks := keeps_setPort s p _ ks

theorem port_closeRtt_of_other {s : State} {p : Nat} (other : s.winIdx 1000000 ≠ (s.port p).rttIdx) : (s.closeRtt p).port p =
    { s.port p with rttWin := none, rttSent := false, rttIdx := s.winIdx 1000000 } := by
  rw [closeRtt_of_other other, ← port_rttBegun]
  split
  · exact port_wr _ _ _ p
  · rfl

theorem out_rttBegun (s : State) (p : Nat) : (s.rttBegun p).out = s.out := rfl
theorem now_rttBegun (s : State) (p : Nat) : (s.rttBegun p).now = s.now := rfl

/-- The end of a window of round trips changes nothing that is sent or held. -/
theorem closeRtt_spec (s : State) (p : Nat) : (s.closeRtt p).out = s.out ∧ (s.closeRtt p).now = s.now ∧ queued ((s.closeRtt p).port p) = queued (s.port p) ∧
    Keeps s (s.closeRtt p) [(R.LNK_RTT_RTT_MIN (p / 2) (p % 2)).key] := by
  by_cases same : s.winIdx 1000000 = (s.port p).rttIdx
  · rw [closeRtt_of_same same]
    exact ⟨rfl, rfl, rfl, Keeps.refl s _⟩
  · refine ⟨?_, ?_, by rw [port_closeRtt_of_other same]; rfl, ?_⟩ <;> rw [closeRtt_of_other same] <;> split
    · rw [wr_out, out_rttBegun]
    · rw [out_rttBegun]
    · rw [wr_now, now_rttBegun]
    · rw [now_rttBegun]
    · exact (keeps_rttBegun s p _).trans (keeps_wr _ _ _)
    · exact keeps_rttBegun s p _

/-- A header square is transmitted for the first time: what it changes is neither sent nor held. -/
theorem headerSent_spec (s : State) (p : Nat) (q : TxSq) : (((s.debit p q).countTx q.pid).stampTagged q.pid 4).out = s.out ∧
    queued ((((s.debit p q).countTx q.pid).stampTagged q.pid 4).port p) = queued (s.port p) := by
  have debits : (s.debit p q).out = s.out ∧ queued ((s.debit p q).port p) = queued (s.port p) := by
    unfold debit
    dsimp only
    rw [port_setPort_self]
    exact ⟨rfl, rfl⟩
  obtain ⟨v, e⟩ := countTx_eq_withFlds (s.debit p q) q.pid
  obtain ⟨v', e'⟩ := stampTagged_eq_withPmon ((s.debit p q).countTx q.pid) q.pid 4
  rw [e', e]
  exact debits

theorem endTagged_spec (s : State) (p pid flags : Nat) : (s.endTagged pid flags).out = s.out ∧ (s.endTagged pid flags).port p = s.port p := by
  obtain ⟨v, e⟩ := endTagged_eq_withPmon s pid flags
  rw [e]
  exact ⟨rfl, rfl⟩

/-- Header and last squares of a row go out: credits, counters and departures. -/
def squaresSent (s : State) (p : Nat) (qs : List TxSq) : State :=
  let s := (qs.filter TxSq.hdr).foldl (fun s q => ((s.debit p q).countTx q.pid).stampTagged q.pid 4) s
  let s := s.withDepartures (s.departures ++ (qs.filter TxSq.last).filterMap (fun (q : TxSq) => q.dep.map (fun d => (p, d))))
  (qs.filter TxSq.last).foldl (fun s q => s.endTagged q.pid 0) s

theorem squaresSent_spec (s : State) (p : Nat) (qs : List TxSq) :
    (s.squaresSent p qs).out = s.out ∧ queued ((s.squaresSent p qs).port p) = queued (s.port p) := by
  have headers := foldl_eq_of_step (fun u : State => (u.out, queued (u.port p))) (f := fun u q => ((u.debit p q).countTx q.pid).stampTagged q.pid 4)
    (l := qs.filter TxSq.hdr) (fun q _ u => by rw [(headerSent_spec u p q).1, (headerSent_spec u p q).2]) s
  have lasts := fun w => foldl_eq_of_step (fun u : State => (u.out, queued (u.port p))) (f := fun u (q : TxSq) => u.endTagged q.pid 0)
    (l := qs.filter TxSq.last) (fun q _ u => by rw [(endTagged_spec u p q.pid 0).1, (endTagged_spec u p q.pid 0).2]) w
  exact Prod.mk.inj ((lasts _).trans headers)

/-- The row of the squares that go out next. -/
def newRow (s : State) (p : Nat) : RepRow :=
  let qs := takeRow 8 (s.port p).tx
  { seq := s.rd (R.LNK_REPLAY_STAT_NEXT_SEQ (p / 2) (p % 2)), squares := qs.map TxSq.sq, hdr := maskOf qs TxSq.hdr, shared := maskOf qs TxSq.shared
    abort := qs.any (fun q => q.last && q.abort), firstTx := s.now }

theorem newRow_spec (s : State) (p : Nat) : (s.newRow p).seq = s.rd (R.LNK_REPLAY_STAT_NEXT_SEQ (p / 2) (p % 2)) ∧
    (s.newRow p).squares = (takeRow 8 (s.port p).tx).map TxSq.sq ∧ (s.newRow p).firstTx = s.now := ⟨rfl, rfl, rfl⟩

/-- A new row is held for replay. -/
def rowHeld (s : State) (p : Nat) : State :=
  let st := s.port p
  let qs := takeRow 8 st.tx
  s.setPort p { st with
    tx := st.tx.drop qs.length, replay := st.replay ++ [s.newRow p], rttSent := true
    sent := st.sent ++ (qs.map TxSq.cls).filter (· != 5)
    progressAt := if st.replay.isEmpty then s.now else st.progressAt }

/-- The next sequence number follows n, and a row is counted. -/
def rowNumbered (s : State) (p n : Nat) : State :=
  (s.wr (R.LNK_REPLAY_STAT_NEXT_SEQ (p / 2) (p % 2)) ((n + 1) % 4096)).bump (R.LNK_ROWS_TX (p / 2) (p % 2))

/-- The new row goes out, in a state whose window of round trips has been closed. -/
def sendHeld (s : State) (p : Nat) : State :=
  ((((s.rowHeld p).squaresSent p (takeRow 8 (s.port p).tx)).rowNumbered p (s.rd (R.LNK_REPLAY_STAT_NEXT_SEQ (p / 2) (p % 2)))).sendUp p
    (dataRow (s.newRow p) false)).syncReplay p

theorem sendNew_eq (s : State) (p : Nat) : s.sendNew p = (s.closeRtt p).sendHeld p := rfl

theorem rd_rowNumbered_next (s : State) (p n : Nat) :
    (s.rowNumbered p n).rd (R.LNK_REPLAY_STAT_NEXT_SEQ (p / 2) (p % 2)) = (n + 1) % 4096 % 2 ^ 12 := by
  rw [rowNumbered, rd_bump_ne _ (by dsimp only; omega), rd_wr_self]

theorem out_rowNumbered (s : State) (p n : Nat) : (s.rowNumbered p n).out = s.out := rfl
theorem port_rowNumbered (s : State) (p n q : Nat) : (s.rowNumbered p n).port q = s.port q := rfl
theorem out_rowHeld (s : State) (p : Nat) : (s.rowHeld p).out = s.out := rfl

theorem queued_rowHeld (s : State) (p : Nat) : queued ((s.rowHeld p).port p) =
    ((s.port p).tx.drop (takeRow 8 (s.port p).tx).length, (s.port p).replay ++ [s.newRow p], (s.port p).replaying) := by
  rw [rowHeld, port_setPort_self]
  rfl

/-- A new data row goes out with the next sequence number and is held (R110). -/
theorem sendHeld_spec (s : State) (p : Nat) : ∃ w : Row,
    rowBody w = ((s.newRow p).squares, BitVec.ofNat 12 (s.newRow p).seq, false, 1, BitVec.ofNat 4 (s.newRow p).squares.length) ∧
      Handed s (s.sendHeld p) p w ∧ (s.sendHeld p).rd (R.LNK_REPLAY_STAT_NEXT_SEQ (p / 2) (p % 2)) =
        (s.rd (R.LNK_REPLAY_STAT_NEXT_SEQ (p / 2) (p % 2)) + 1) % 4096 ∧
      queued ((s.sendHeld p).port p) =
        ((s.port p).tx.drop (takeRow 8 (s.port p).tx).length, (s.port p).replay ++ [s.newRow p], (s.port p).replaying) := by
  unfold sendHeld
  obtain ⟨out, held⟩ := squaresSent_spec (s.rowHeld p) p (takeRow 8 (s.port p).tx)
  generalize (s.rowHeld p).squaresSent p (takeRow 8 (s.port p).tx) = x at out held
  obtain ⟨w, body, handed, keep, same⟩ := sendUp_sends (x.rowNumbered p (s.rd (R.LNK_REPLAY_STAT_NEXT_SEQ (p / 2) (p % 2)))) p (dataRow (s.newRow p) false)
  refine ⟨w, body, handed.of_out ((out_rowNumbered x p _).trans (out.trans (out_rowHeld s p))) (out_syncReplay _ p), ?_, ?_⟩
  · rw [(keeps_syncReplay _ p).rd_eq (by simp), keep.rd_eq List.not_mem_nil, rd_rowNumbered_next]
    exact Nat.mod_eq_of_lt (Nat.mod_lt _ (by decide))
  · rw [port_syncReplay, same, port_rowNumbered, held, queued_rowHeld]

/-- What a port in UP sends while no replay runs (R110, R115). -/
theorem sendInUp_of_free {s : State} {p : Nat} (free : (s.port p).replaying = none ∨ ∃ e b : Nat, (s.port p).replaying = some (e, b, 4096)) :
    s.sendInUp p = if (s.port p).replay.length ≥ s.window p then (s.bump (R.LNK_FULL_IDLE (p / 2) (p % 2))).sendUp p (s.idleRow p)
      else if (s.port p).tx.isEmpty then s.sendUp p (s.idleRow p) else s.sendNew p := by
  unfold sendInUp
  obtain none_ | ⟨e, b, over_⟩ := free
  · simp only [none_]
  · simp only [over_, bne_self_eq_false, Bool.false_eq_true, if_false]

/-- A row of a replay that runs goes first (R114). -/
theorem sendInUp_of_replaying {s : State} {p e b n : Nat} (runs : (s.port p).replaying = some (e, b, n)) (more : n ≠ 4096) :
    s.sendInUp p = s.sendReplay p e b n := by
  unfold sendInUp
  simp only [runs, bne_iff_ne.2 more, if_true]

/-- No lane of a port sends a pattern. -/
theorem sendPatterns_of_none {s : State} {p : Nat} (quiet : ∀ l ∈ s.lanesOf p, s.laneSource l = 0 ∨ s.laneSource l = 4) : s.sendPatterns p = s :=
  foldl_eq_self_of_mem (fun l hl => if_pos (quiet l hl))

end State

theorem exec_rowTx_of_up (p : Fin 256) {s : State} (up : s.linkState p = 7) : exec (.rowTx p) s = .next (s.sendInUp p) := by
  show execRowTx p s = _
  simp only [execRowTx, up]

/-- In DISABLED the LRESET rows of the state that was left go out for a while (R104, R503). -/
theorem exec_rowTx_of_disabled (p : Fin 256) {s : State} (down : s.linkState p = 0)
    (quiet : ∀ l ∈ s.lanesOf p, s.laneSource l = 0 ∨ s.laneSource l = 4) : ((s.port p).lreset = none → exec (.rowTx p) s = .next s) ∧
      ∀ (t : Nat) (q : Square), (s.port p).lreset = some (t, q) →
        exec (.rowTx p) s = .next (if s.now < t then s.putRow p (rowEncode (ctrlRow q)) else s) := by
  refine ⟨fun none_ => ?_, fun t q row => ?_⟩
  · show execRowTx p s = _
    simp only [execRowTx, down, none_, sendPatterns_of_none quiet]
  · show execRowTx p s = _
    simp only [execRowTx, down, row, sendPatterns_of_none quiet]

/-- The control row of a state that trains (R104, R106). -/
theorem exec_rowTx_of_training (p : Fin 256) {s : State} :
    (s.linkState p = 1 → exec (.rowTx p) s = .next (if s.now < (s.port p).resetAt + 1000 then s.sendCtrl p 4 else s)) ∧
      (s.linkState p = 2 ∨ s.linkState p = 3 ∨ s.linkState p = 4 → exec (.rowTx p) s = .next (s.sendCtrl p 1)) ∧
      (s.linkState p = 5 → exec (.rowTx p) s = .next (s.sendCtrl p 2)) ∧ (s.linkState p = 6 → exec (.rowTx p) s = .next (s.sendCtrl p 3)) := by
  refine ⟨fun reset => ?_, fun early => ?_, fun eq => ?_, fun confirm => ?_⟩
  · show execRowTx p s = _
    simp only [execRowTx, reset]
  · show execRowTx p s = _
    obtain detect | align | config := early
    · simp only [execRowTx, detect]
    · simp only [execRowTx, align]
    · simp only [execRowTx, config]
  · show execRowTx p s = _
    simp only [execRowTx, eq]
  · show execRowTx p s = _
    simp only [execRowTx, confirm]

/-- In UP new squares go out as a data row (R110). -/
theorem rowTx_sends_new (p : Fin 256) (s : State) (up : s.linkState p = 7)
    (free : (s.port p).replaying = none ∨ ∃ e b : Nat, (s.port p).replaying = some (e, b, 4096)) (some_ : (s.port p).tx ≠ [])
    (room : (s.port p).replay.length < s.window p) : let next := R.LNK_REPLAY_STAT_NEXT_SEQ (p.val / 2) (p.val % 2); let qs := takeRow 8 (s.port p).tx
    Does (.rowTx p) s (fun t =>
      (∃ r : Row, Handed s t p r ∧ r.ty = 1 ∧ r.replay = false ∧ r.seq.toNat = s.rd next ∧ r.squares = qs.map TxSq.sq ∧ r.nsq.toNat = qs.length) ∧
      t.rd next = (s.rd next + 1) % 4096 ∧ (t.port p).tx = (s.port p).tx.drop qs.length ∧
      (t.port p).replay.map (fun r => (r.seq, r.squares, r.firstTx)) =
        (s.port p).replay.map (fun r => (r.seq, r.squares, r.firstTx)) ++ [(s.rd next, qs.map TxSq.sq, s.now)]) := by
  dsimp only
  have run := exec_rowTx_of_up p up
  rw [sendInUp_of_free free, if_neg (by omega), if_neg (by simpa using some_), sendNew_eq] at run
  obtain ⟨out, now, held, keep⟩ := closeRtt_spec s p
  have next : (s.closeRtt p).rd (R.LNK_REPLAY_STAT_NEXT_SEQ (p.val / 2) (p.val % 2)) = s.rd (R.LNK_REPLAY_STAT_NEXT_SEQ (p.val / 2) (p.val % 2)) :=
    keep.rd_eq (by simp; omega)
  obtain ⟨tx, replay, -⟩ := queued_eq_iff.1 held
  obtain ⟨seq, squares, firstTx⟩ := newRow_spec (s.closeRtt p) p
  rw [next] at seq
  rw [tx] at squares
  rw [now] at firstTx
  obtain ⟨w, body, handed, next', queue⟩ := sendHeld_spec (s.closeRtt p) p
  rw [next] at next'
  rw [tx, replay] at queue
  rw [seq, squares] at body
  obtain ⟨squares', seq', rep, ty, nsq⟩ := rowBody_iff.1 body
  obtain ⟨tx', held', -⟩ := queued_iff.1 queue
  have few := takeRow_length_le 8 (s.port p).tx
  refine ⟨_, run, ⟨w, handed.of_out out rfl, ty, rep, ?_, squares', ?_⟩, next', tx', ?_⟩
  · rw [seq']
    exact Nat.mod_eq_of_lt (rd_lt s (R.LNK_REPLAY_STAT_NEXT_SEQ (p.val / 2) (p.val % 2)))
  · rw [nsq, BitVec.toNat_ofNat, List.length_map, Nat.mod_eq_of_lt (by omega)]
  · rw [held', List.map_append, List.map_singleton, seq, squares, firstTx]

/-- In UP the next row of a replay goes out (R114). -/
theorem rowTx_sends_replay (p : Fin 256) (s : State) (up : s.linkState p = 7) {e b n : Nat} {r : RepRow}
    (runs : (s.port p).replaying = some (e, b, n)) (more : n ≠ 4096) (found : (s.port p).replay.find? (fun r => r.seq == n) = some r) :
    let i := p.val / 2; let j := p.val % 2
    Does (.rowTx p) s (fun t => (∃ w : Row, Handed s t p w ∧ w.ty = 1 ∧ w.replay = true ∧ w.seq.toNat = r.seq % 4096 ∧ w.squares = r.squares) ∧
      t.rd (R.LNK_ROWS_REPLAY i j) = (s.rd (R.LNK_ROWS_REPLAY i j) + 1) % 2 ^ (R.LNK_ROWS_REPLAY i j).width ∧
      (t.port p).replay = (s.port p).replay ∧
      (t.port p).replaying = some (e, b, if (s.port p).replay.getLast?.map RepRow.seq = some r.seq then 4096 else (r.seq + 1) % 4096) ∧
      Keeps s t [(R.LNK_ROWS_REPLAY i j).key, (R.LNK_REPLAY_STAT_OCCUPANCY i j).key, (R.LNK_REPLAY_STAT_OLDEST_SEQ i j).key,
        (R.LNK_REPLAY_STAT_REPLAYING i j).key]) := by
  dsimp only
  have run := exec_rowTx_of_up p up
  rw [sendInUp_of_replaying runs more, sendReplay_of_found found] at run
  obtain ⟨w, body, handed, count, queue, keep⟩ := rowReplayed_sends s p e b r
  rw [afterRow_eq (List.mem_of_find?_eq_some found)] at queue
  obtain ⟨squares, seq, rep, ty, -⟩ := rowBody_iff.1 body
  obtain ⟨-, held, replaying⟩ := queued_iff.1 queue
  exact ⟨_, run, ⟨w, handed, ty, rep, by rw [seq, BitVec.toNat_ofNat], squares⟩, count, held, replaying, keep⟩

/-- The meaning of ROW_TX. -/
theorem rowTransmit : Claims.RowTransmit := by
  intro p s st x ctrl i j next full idle free
  obtain ⟨reset, early, eq, confirm⟩ := exec_rowTx_of_training p (s := s)
  refine ⟨exec_rowTx_of_disabled p, reset, early, eq, confirm, fun up free none_ room => ?_, fun up free full_ => ?_,
    fun up free some_ room => rowTx_sends_new p s up free some_ room, fun e b n r up runs more found => rowTx_sends_replay p s up runs more found⟩
  · have run := exec_rowTx_of_up p up
    rw [sendInUp_of_free free, if_neg (Nat.not_le.2 room), if_pos (List.isEmpty_iff.2 none_)] at run
    exact ⟨_, run, sendUp_idle s p rfl⟩
  · have run := exec_rowTx_of_up p up
    rw [sendInUp_of_free free, if_pos full_] at run
    obtain ⟨idle, keep⟩ := sendUp_idle s (t := s.bump (R.LNK_FULL_IDLE (p.val / 2) (p.val % 2))) p rfl
    exact ⟨_, run, idle, (keep.rd_eq List.not_mem_nil).trans (rd_bump_self s _), (keeps_bump s _).trans (keep.mono (List.nil_subset _))⟩

end Sys2Proof.Machine
end

section
/-!
ROW_RX (R98, R100 to R102, R109, R111, R124), and the obligation of the rows of a link.
-/
namespace Sys2Proof.Machine
open State

/-- A receive stream without its oldest n bits. -/
def bitsDropped (n : Nat) (r : RxLine) : RxLine :=
  { r with msg := r.msg % 2 ^ (r.len - n), bad := r.bad % 2 ^ (r.len - n), len := r.len - n, times := dropTimes n r.times }

theorem len_bitsDropped (n : Nat) (r : RxLine) : (bitsDropped n r).len = r.len - n := rfl
theorem runs_bitsDropped (n : Nat) (r : RxLine) : (bitsDropped n r).runs = r.runs := rfl

namespace State

variable (s : State) (p : Nat)

theorem dropBits_eq (n : Nat) : s.dropBits p n = s.modPort p (fun st => { st with rxl := bitsDropped n st.rxl }) := rfl

theorem port_dropBits (n : Nat) : (s.dropBits p n).port p = { s.port p with rxl := bitsDropped n (s.port p).rxl } := by
  rw [dropBits_eq, port_modPort_self]

theorem keeps_dropBits (n : Nat) (ks : List Nat) : Keeps s (s.dropBits p n) ks := keeps_modPort s p _ ks

theorem port_takeHead : (s.takeHead p).port p =
    { s.port p with rxl := bitsDropped 4224 (s.port p).rxl, badRun := 0, rowFt := s.headTime p } := by
  rw [takeHead, port_modPort_self, port_dropBits]

/-- The row at the head changes the port alone. -/
theorem keeps_takeHead (ks : List Nat) : Keeps s (s.takeHead p) ks := by
  rw [takeHead]
  exact (keeps_dropBits s p 4224 ks).trans (keeps_modPort _ p _ ks)

theorem linkState_takeHead (q : Nat) : (s.takeHead p).linkState q = s.linkState q := (keeps_takeHead s p []).rd_eq List.not_mem_nil

/-! The search for rows. -/

/-- Runs of good rows, one for each phase. -/
def phaseRuns (r : RxLine) : List Nat := if r.runs.isEmpty then List.replicate 33 0 else r.runs

/-- The run of good rows at the phase of a stream, with the bits there judged. -/
def phaseRun (r : RxLine) (good : Bool) : Nat := if good then r.runs.getD (r.pos % 33) 0 + 1 else 0

theorem phaseRuns_getD (r : RxLine) : (phaseRuns r).getD (r.pos % 33) 0 = r.runs.getD (r.pos % 33) 0 := by
  unfold phaseRuns
  split
  next none_ =>
    have short : r.pos % 33 < 33 := Nat.mod_lt _ (by decide)
    rw [List.isEmpty_iff.1 none_, List.getD_replicate _ short]
    rfl
  · rfl

theorem phaseRuns_length {r : RxLine} (h : r.runs = [] ∨ r.runs.length = 33) : (phaseRuns r).length = 33 := by
  unfold phaseRuns
  split
  · exact List.length_replicate
  next some_ => exact h.resolve_left (fun none_ => some_ (List.isEmpty_iff.2 none_))

/-- The search goes on at the next phase. -/
def searchOn (good : Bool) : State :=
  (s.modPort p (fun st => { st with rxl := { (s.port p).rxl with
    pos := (s.port p).rxl.pos + 1
    runs := (phaseRuns (s.port p).rxl).set ((s.port p).rxl.pos % 33) (phaseRun (s.port p).rxl good) } })).dropBits p 128

theorem searchRow_eq (good : Bool) : s.searchRow p good =
    if 4 ≤ phaseRun (s.port p).rxl good then s.modPort p (fun st => { st with delineated := true, badRun := 0 }) else s.searchOn p good := by
  have e : s.searchRow p good = if 4 ≤ (if good then (phaseRuns (s.port p).rxl).getD ((s.port p).rxl.pos % 33) 0 + 1 else 0) then
      s.modPort p (fun st => { st with delineated := true, badRun := 0 })
      else (s.modPort p (fun st => { st with rxl := { (s.port p).rxl with
        pos := (s.port p).rxl.pos + 1
        runs := (phaseRuns (s.port p).rxl).set ((s.port p).rxl.pos % 33)
          (if good then (phaseRuns (s.port p).rxl).getD ((s.port p).rxl.pos % 33) 0 + 1 else 0) } })).dropBits p 128 := rfl
  rw [e, phaseRuns_getD]
  rfl

theorem keeps_searchOn (good : Bool) (ks : List Nat) : Keeps s (s.searchOn p good) ks := (keeps_modPort s p _ ks).trans (keeps_dropBits _ p 128 ks)

theorem port_searchOn (good : Bool) : (s.searchOn p good).port p = { s.port p with rxl := bitsDropped 128 { (s.port p).rxl with
    pos := (s.port p).rxl.pos + 1
    runs := (phaseRuns (s.port p).rxl).set ((s.port p).rxl.pos % 33) (phaseRun (s.port p).rxl good) } } := by
  rw [searchOn, port_dropBits, port_modPort_self]

/-! A bad row. -/

/-- A bad row is counted, and the row before the next is bad. -/
def badNoted (s : State) (p : Nat) : State := (s.countBad p).modPort p (fun st => { st with badRun := st.badRun + 1, frameRx := none })

theorem badRow_eq : s.badRow p = if ((s.badNoted p).port p).badRun ≥ 16 then ((s.badNoted p).loseRows p).requestReset p 4
    else if (s.badNoted p).linkState p = 7 then (s.badNoted p).enterNakWait p else s.badNoted p := rfl

theorem countBad_spec : Keeps s (s.countBad p) [(R.LNK_BAD_ROWS (p / 2) (p % 2)).key] ∧
    (s.countBad p).rd (R.LNK_BAD_ROWS (p / 2) (p % 2)) = (s.rd (R.LNK_BAD_ROWS (p / 2) (p % 2)) + 1) % 2 ^ 64 ∧
    ((s.countBad p).port p).badRun = (s.port p).badRun ∧ ((s.countBad p).port p).nakWait = (s.port p).nakWait ∧
    ((s.countBad p).port p).rxl = (s.port p).rxl := by
  unfold countBad
  dsimp only
  refine ⟨(keeps_bump s _).trans (keeps_modPort _ p _ _), (rd_modPort _ p _ _).trans (rd_bump_self s _), ?_⟩
  rw [port_modPort_self, port_bump]
  split <;> exact ⟨rfl, rfl, rfl⟩

theorem badNoted_spec : Keeps s (s.badNoted p) [(R.LNK_BAD_ROWS (p / 2) (p % 2)).key] ∧
    (s.badNoted p).rd (R.LNK_BAD_ROWS (p / 2) (p % 2)) = (s.rd (R.LNK_BAD_ROWS (p / 2) (p % 2)) + 1) % 2 ^ 64 ∧
    ((s.badNoted p).port p).badRun = (s.port p).badRun + 1 ∧ ((s.badNoted p).port p).nakWait = (s.port p).nakWait ∧
    ((s.badNoted p).port p).rxl = (s.port p).rxl := by
  obtain ⟨keep, count, run, wait, rxl⟩ := countBad_spec s p
  refine ⟨keep.trans (keeps_modPort _ p _ _), (rd_modPort _ p _ _).trans count, ?_⟩
  rw [badNoted, port_modPort_self]
  exact ⟨congrArg (· + 1) run, wait, rxl⟩

theorem linkState_badNoted : (s.badNoted p).linkState p = s.linkState p := (badNoted_spec s p).1.rd_eq (by simp)

theorem keeps_loseRows (ks : List Nat) : Keeps s (s.loseRows p) ks := keeps_modPort s p _ ks

theorem port_loseRows : (s.loseRows p).port p =
    { s.port p with delineated := false, badRun := 0, rxl := { (s.port p).rxl with pos := 0, runs := [] } } := port_modPort_self s p _

theorem keeps_enterNakWait : Keeps s (s.enterNakWait p) [(R.LNK_NAK_TX (p / 2) (p % 2)).key] :=
  (Keeps.refl s _).ite ((keeps_modPort s p _ _).trans (keeps_bump _ _))

theorem port_enterNakWait : (s.enterNakWait p).port p = { s.port p with nakWait := true } := by
  unfold enterNakWait
  split
  next waits => rw [← waits]
  · rw [port_bump, port_modPort_self]

end State

section
variable {p : Fin 256} {s : State}

theorem exec_rowRx_of_none (none_ : s.headRow p = none) : exec (.rowRx p) s = .next s := by
  show execRowRx p s = _
  simp only [execRowRx, none_]

variable {b : BitVec 4224} {marked : Bool} (head : s.headRow p = some (b, marked))
include head

theorem exec_rowRx_of_search (search : (s.port p).delineated = false) : exec (.rowRx p) s = .next (s.searchRow p (!marked && rowCrcOk b)) := by
  show execRowRx p s = _
  simp only [execRowRx, head, search, Bool.not_false, if_true]

theorem exec_rowRx_of_bad (rows : (s.port p).delineated = true) (bad : (!marked && rowCrcOk b) = false) :
    exec (.rowRx p) s = .next ((s.dropBits p 4224).badRow p) := by
  show execRowRx p s = _
  simp only [execRowRx, head, rows, bad, Bool.not_true, Bool.false_eq_true, if_false, Bool.not_false, if_true]

/-- A control row that a command names waits for it. -/
theorem exec_rowRx_of_named (rows : (s.port p).delineated = true) (good : (!marked && rowCrcOk b) = true) {q : Square}
    (ctrl : ctrlOf (rowDecode b) = some q) (lo : 1 ≤ cmType q) (hi : cmType q ≤ 4) : exec (.rowRx p) s = .next s := by
  show execRowRx p s = _
  simp only [execRowRx, head, rows, good, ctrl, lo, hi, Bool.not_true, Bool.false_eq_true, if_false, decide_true, Bool.and_self, if_true]

/-- A good row that no command names is taken. -/
theorem exec_rowRx_of_taken (rows : (s.port p).delineated = true) (good : (!marked && rowCrcOk b) = true) (other : ctrlOf (rowDecode b) = none) :
    exec (.rowRx p) s = (if (rowDecode b).ty = 3 || !nsqOk (rowDecode b) then .next ((s.takeHead p).requestReset p 7)
      else if (rowDecode b).ty = 2 then
        .next (if (s.takeHead p).linkState p = 7 then (s.takeHead p).ctrlInUp p ((rowDecode b).squares.getD 0 0) else s.takeHead p)
      else if (s.takeHead p).linkState p = 7 then .next ((s.takeHead p).upRow p (rowDecode b))
      else if (s.takeHead p).linkState p = 6 && !(s.takeHead p).rdB (R.LNK_STAT_LEADER (p.val / 2) (p.val % 2)) && ((s.takeHead p).port p).peerReady then
        .next (((s.takeHead p).enterUp p).upRow p (rowDecode b)).stackEvents
      else if (rowDecode b).ty = 1 then .next ((s.takeHead p).requestReset p 7) else .next (s.takeHead p)) := by
  show execRowRx p s = _
  simp only [execRowRx, head, rows, good, other, Bool.not_true, Bool.false_eq_true, if_false]

end

/-- The search for rows (R101). -/
theorem rowRx_searches (p : Fin 256) (s : State) {b : BitVec 4224} {marked : Bool} (head : s.headRow p = some (b, marked))
    (search : (s.port p).delineated = false) : let x := s.port p; let good := !marked && rowCrcOk b; let run := x.rxl.runs.getD (x.rxl.pos % 33) 0
    (good = true → 3 ≤ run → Does (.rowRx p) s (fun t => (t.port p).delineated = true ∧ (t.port p).rxl = x.rxl ∧ Keeps s t [])) ∧
    (good = false ∨ run < 3 → x.rxl.runs = [] ∨ x.rxl.runs.length = 33 →
      Does (.rowRx p) s (fun t => (t.port p).delineated = false ∧ (t.port p).rxl.pos = x.rxl.pos + 1 ∧
        (t.port p).rxl.len = x.rxl.len - 128 ∧ (t.port p).rxl.runs.getD (x.rxl.pos % 33) 0 = (if good then run + 1 else 0) ∧ Keeps s t [])) := by
  dsimp only
  have exec_ := exec_rowRx_of_search head search
  rw [searchRow_eq] at exec_
  refine ⟨fun good many => ?_, fun few phases => ?_⟩
  · rw [if_pos (by rw [phaseRun, if_pos good]; omega)] at exec_
    refine ⟨_, exec_, ?_, ?_, keeps_modPort s p _ []⟩ <;> rw [port_modPort_self]
  · have short : ¬ 4 ≤ phaseRun (s.port p).rxl (!marked && rowCrcOk b) := by
      unfold phaseRun
      obtain bad | few := few
      · rw [bad, if_neg Bool.false_ne_true]
        decide
      · split <;> omega
    rw [if_neg short] at exec_
    have inside : (s.port p).rxl.pos % 33 < (phaseRuns (s.port p).rxl).length := by
      rw [phaseRuns_length phases]
      exact Nat.mod_lt _ (by decide)
    refine ⟨_, exec_, ?_, ?_, ?_, ?_, keeps_searchOn s p _ []⟩ <;> rw [port_searchOn]
    · exact search
    · rfl
    · rfl
    · rw [runs_bitsDropped, List.getD_eq_getElem _ _ (by rwa [List.length_set]), List.getElem_set_self]
      rfl

/-- A bad row of a delineated stream (R100, R101, R111). -/
theorem rowRx_drops_bad (p : Fin 256) (s : State) {b : BitVec 4224} {marked : Bool} (head : s.headRow p = some (b, marked))
    (rows : (s.port p).delineated = true) (bad_ : (!marked && rowCrcOk b) = false) : let i := p.val / 2; let j := p.val % 2; let x := s.port p
    let st := s.linkState p; let bad := R.LNK_BAD_ROWS i j
    (x.badRun < 15 → Does (.rowRx p) s (fun t => t.rd bad = (s.rd bad + 1) % 2 ^ bad.width ∧
      (t.port p).nakWait = (x.nakWait || st == 7) ∧ (t.port p).badRun = x.badRun + 1 ∧ (t.port p).rxl.len = x.rxl.len - 4224 ∧
      Keeps s t [bad.key, (R.LNK_NAK_TX i j).key])) ∧
    (15 ≤ x.badRun → 1 ≤ st → st ≤ 6 → Does (.rowRx p) s (fun t => t.rd bad = (s.rd bad + 1) % 2 ^ bad.width ∧
      (t.port p).delineated = false ∧ (t.port p).badRun = 0 ∧
      t.rd (R.LNK_ABSORBED i j) = (s.rd (R.LNK_ABSORBED i j) + 1) % 2 ^ (R.LNK_ABSORBED i j).width ∧
      Keeps s t [bad.key, (R.LNK_ABSORBED i j).key])) ∧
    (15 ≤ x.badRun → st = 7 → exec (.rowRx p) s = .next
      (((((s.dropBits p 4224).countBad p).modPort p (fun y => { y with badRun := y.badRun + 1, frameRx := none })).loseRows p).linkReset p 4)) := by
  dsimp only
  have run := exec_rowRx_of_bad head rows bad_
  obtain ⟨keep, count, badRun, wait, rxl⟩ := badNoted_spec (s.dropBits p 4224) p
  have drops := keeps_dropBits s p 4224
  have link : ((s.dropBits p 4224).badNoted p).linkState p = s.linkState p :=
    (linkState_badNoted (s.dropBits p 4224) p).trans ((drops []).rd_eq List.not_mem_nil)
  rw [port_dropBits] at badRun wait rxl
  dsimp only at badRun wait rxl
  rw [badRow_eq, badRun] at run
  rw [(drops []).rd_eq List.not_mem_nil] at count
  have sofar := (drops _).trans keep
  refine ⟨fun few => ?_, fun many lo hi => ?_, fun many up => ?_⟩
  · rw [if_neg (by omega), link] at run
    by_cases up : s.linkState p = 7
    · have naks := keeps_enterNakWait ((s.dropBits p 4224).badNoted p) p
      have port := port_enterNakWait ((s.dropBits p 4224).badNoted p) p
      rw [if_pos up] at run
      refine ⟨_, run, (naks.rd_eq (by simp)).trans count, ?_, ?_, ?_, (sofar.mono (by simp)).trans (naks.mono (by simp))⟩ <;> rw [port]
      · simp [up]
      · dsimp only
        exact badRun
      · rw [rxl, len_bitsDropped]
    · rw [if_neg up] at run
      refine ⟨_, run, count, ?_, badRun, by rw [rxl, len_bitsDropped], sofar.mono (by simp)⟩
      rw [wait, beq_eq_false_iff_ne.2 up, Bool.or_false]
  · have lost := keeps_loseRows ((s.dropBits p 4224).badNoted p) p
    have link' : (((s.dropBits p 4224).badNoted p).loseRows p).linkState p = s.linkState p := ((lost []).rd_eq List.not_mem_nil).trans link
    rw [if_pos (by omega), requestReset_of_training (by rwa [link']) (by rwa [link'])] at run
    have absorbs := keeps_bump (((s.dropBits p 4224).badNoted p).loseRows p) (R.LNK_ABSORBED (p.val / 2) (p.val % 2))
    refine ⟨_, run, ?_, ?_, ?_, ?_, ((sofar.mono (by simp)).trans (lost _)).trans (absorbs.mono (by simp))⟩
    · rw [absorbs.rd_eq (by simp), (lost []).rd_eq List.not_mem_nil, count]
    · rw [port_bump, port_loseRows]
    · rw [port_bump, port_loseRows]
    · rw [rd_bump_self, (lost []).rd_eq List.not_mem_nil, sofar.rd_eq (by simp)]
  · have link' : (((s.dropBits p 4224).badNoted p).loseRows p).linkState p = s.linkState p :=
      ((keeps_loseRows ((s.dropBits p 4224).badNoted p) p []).rd_eq List.not_mem_nil).trans link
    rw [if_pos (by omega), requestReset_of_up (link'.trans up), badNoted] at run
    exact run

/-- The meaning of ROW_RX. -/
theorem rowReceive : Claims.RowReceive := by
  intro p s i j x st
  refine ⟨exec_rowRx_of_none, ?_⟩
  intro b marked head good u run r bad
  refine ⟨fun search ok many => (rowRx_searches p s head search).1 ok many, fun search few phases => (rowRx_searches p s head search).2 few phases,
    fun rows bad_ => rowRx_drops_bad p s head rows bad_, fun rows ok => ?_⟩
  refine ⟨fun q ctrl lo hi => exec_rowRx_of_named head rows ok ctrl lo hi, fun wrong => ?_, fun kind count => ?_⟩
  · have other : ctrlOf r = none := if_neg (by rintro ⟨two, fit⟩; obtain three | unfit := wrong <;> simp_all)
    rw [exec_rowRx_of_taken head rows ok other, if_pos (by simpa using wrong)]
  · have two : (rowDecode b).ty ≠ 2 := fun h => absurd kind (by rw [show r = rowDecode b from rfl, h]; decide)
    have three : (rowDecode b).ty ≠ 3 := fun h => absurd kind (by rw [show r = rowDecode b from rfl, h]; decide)
    have fits : nsqOk (rowDecode b) = true := count
    have taken := exec_rowRx_of_taken head rows ok (if_neg (fun h => two h.1))
    have leader : (s.takeHead p).rd (R.LNK_STAT_LEADER (p.val / 2) (p.val % 2)) = s.rd (R.LNK_STAT_LEADER (p.val / 2) (p.val % 2)) :=
      (keeps_takeHead s p []).rd_eq List.not_mem_nil
    have peer : ((s.takeHead p).port p).peerReady = (s.port p).peerReady := by rw [port_takeHead]
    rw [if_neg (by rw [decide_eq_false three, fits]; exact Bool.false_ne_true), if_neg two, linkState_takeHead, rdB_def, leader, peer] at taken
    refine ⟨fun up => ?_, fun confirm follower ready => ?_, fun idle early => ?_, fun data early => ?_⟩
    · rw [if_pos up] at taken
      exact taken
    · have six : s.linkState p = 6 := confirm
      have zero : s.rd (R.LNK_STAT_LEADER (p.val / 2) (p.val % 2)) = 0 := follower
      have told : (s.port p).peerReady = true := ready
      rw [if_neg (by omega), if_pos (by rw [decide_eq_true six, zero, told]; rfl)] at taken
      exact taken
    · have low : s.linkState p < 6 := early
      have zero : (rowDecode b).ty ≠ 1 := fun h => absurd (h.symm.trans idle) (by decide)
      rw [if_neg (by omega), if_neg (by rw [decide_eq_false (by omega)]; exact Bool.false_ne_true), if_neg zero] at taken
      exact taken
    · have low : s.linkState p < 6 := early
      rw [if_neg (by omega), if_neg (by rw [decide_eq_false (by omega)]; exact Bool.false_ne_true), if_pos data] at taken
      exact taken

/-- Settles O6: the row a port sends follows from its link's state and what it holds, and a received row from the stream's delineation. -/
theorem rowsOfALink : Obligations.RowsOfALink := ⟨rowTransmit, rowReceive⟩

end Sys2Proof.Machine
end

section
/-!
SUPPORT. An error that reaches the collector (R429 to R438) leaves every register beyond the fault block.
-/
namespace Sys2Proof.Machine
open State

/-- t reads as s in every register from map offset 0x80000 on. -/
def BeyondFaults (s t : State) : Prop := ∀ f : FRef, 8 * 0x80000 ≤ f.key → t.rd f = s.rd f

namespace BeyondFaults

theorem refl (s : State) : BeyondFaults s s := fun _ _ => rfl
theorem trans {s t u : State} (h : BeyondFaults s t) (h' : BeyondFaults t u) : BeyondFaults s u := fun f hf => (h' f hf).trans (h f hf)

theorem of_keeps {s t : State} {ks : List Nat} (keep : Keeps s t ks) (low : ∀ k ∈ ks, k < 8 * 0x80000) : BeyondFaults s t := fun _ hf =>
  keep.rd_eq (fun mem => absurd (low _ mem) (by omega))

theorem wr (s : State) {g : FRef} (v : Nat) (low : g.key < 8 * 0x80000) : BeyondFaults s (s.wr g v) := fun _ hf => rd_wr_ne s v (by omega)

theorem ite {s t u : State} {c : Prop} [Decidable c] (ht : BeyondFaults s t) (hu : BeyondFaults s u) : BeyondFaults s (if c then t else u) := by
  split
  · exact ht
  · exact hu

theorem foldl {α : Type} {f : State → α → State} (step : ∀ u a, BeyondFaults u (f u a)) (l : List α) (s : State) : BeyondFaults s (l.foldl f s) := by
  induction l generalizing s with
  | nil => exact refl s
  | cons a l ih => exact (step s a).trans (ih _)

theorem withFlt (s : State) (v : FltSt) : BeyondFaults s (s.withFlt v) := fun _ _ => rfl

end BeyondFaults

namespace State

theorem beyond_capture (s : State) (e : FaultIn) (hc : e.cls < 4) : BeyondFaults s (s.capture e) :=
  (((((((BeyondFaults.wr s _ (by dsimp only; omega)).trans (BeyondFaults.wr _ _ (by dsimp only; omega))).trans
    (BeyondFaults.wr _ _ (by dsimp only; omega))).trans (BeyondFaults.wr _ _ (by dsimp only; omega))).trans
    (BeyondFaults.wr _ _ (by dsimp only; omega))).trans (BeyondFaults.wr _ _ (by dsimp only; omega))).trans
    (BeyondFaults.wr _ _ (by dsimp only; omega))).trans (BeyondFaults.wr _ _ (by dsimp only; omega))

theorem beyond_merge (s : State) {c : Nat} (hc : c < 4) : BeyondFaults s (s.merge c) :=
  (BeyondFaults.wr s _ (by dsimp only; omega)).trans (BeyondFaults.wr _ _ (by dsimp only; omega))

theorem beyond_satAdd (s : State) {g : FRef} (n : Nat) (low : g.key < 8 * 0x80000) : BeyondFaults s (s.satAdd g n) := BeyondFaults.wr s _ low

theorem beyond_countUnit (s : State) (e : FaultIn) (hu : e.unit < 1024) : BeyondFaults s (s.countUnit e) := by
  unfold countUnit
  have counted : ∀ v, BeyondFaults s (((s.satAdd (R.FLT_UNIT_ERRORS e.unit) 1).wr (R.FLT_UNIT_LAST_CODE e.unit) e.code).withFlt v) := fun v =>
    ((beyond_satAdd s 1 (by dsimp only; omega)).trans (BeyondFaults.wr _ _ (by dsimp only; omega))).trans (BeyondFaults.withFlt _ v)
  refine BeyondFaults.ite ((counted _).trans (BeyondFaults.trans (BeyondFaults.ite (BeyondFaults.refl _) ?_) (beyond_satAdd _ 1 ?_))) (counted _)
  · exact (BeyondFaults.wr _ 0 (by dsimp only; omega)).trans (BeyondFaults.withFlt _ _)
  · dsimp only; omega

theorem beyond_stopClock (s : State) (c : Nat) : BeyondFaults s (s.stopClock c) :=
  (BeyondFaults.withFlt s _).trans (BeyondFaults.wr _ _ (by dsimp only; omega))

theorem beyond_setCls (s : State) (c : Nat) (v : ClassSt) : BeyondFaults s (s.setCls c v) := BeyondFaults.withFlt s _

theorem beyond_vector (s : State) (n : Nat) : BeyondFaults s (s.vector n) := BeyondFaults.of_keeps (keeps_vector s n []) (fun _ h => absurd h List.not_mem_nil)

theorem beyond_openRound (s : State) (u : Nat) : BeyondFaults s (s.openRound u) := (BeyondFaults.refl s).ite (BeyondFaults.withFlt s _)

theorem beyond_scheduleTest (s : State) (c : Nat) {u : Nat} (hu : u < 1024) (r : TestRegion) : BeyondFaults s (s.scheduleTest c u r) := by
  refine BeyondFaults.ite ((BeyondFaults.wr s 2 ?_).trans (BeyondFaults.withFlt _ _))
    ((BeyondFaults.refl s).ite ((BeyondFaults.withFlt s _).trans (BeyondFaults.wr _ _ ?_))) <;> dsimp only <;> omega

theorem clsCounter_low (c : Nat) : (clsCounter c).key < 8 * 0x80000 := by
  unfold clsCounter
  split <;> decide

/-- The first error of a class is captured and starts its clock. -/
def firstSeen (s : State) (e : FaultIn) : State :=
  let s := s.capture e
  let s := s.wr R.FLT_STATUS_SET (s.rd R.FLT_STATUS_SET ||| 2 ^ e.cls)
  let s := if e.cls = 0 then s else s.setCls e.cls { s.cls e.cls with clock := some s.now }
  let s := if bitOf (s.rd R.FLT_POLICY1_HANDLER) e.cls || s.rd R.FLT_ARB_STAT_STATE != 0 then s else s.stopClock e.cls
  s.vector 0

theorem beyond_firstSeen (s : State) (e : FaultIn) (hc : e.cls < 4) : BeyondFaults s (s.firstSeen e) :=
  ((((beyond_capture s e hc).trans (BeyondFaults.wr _ _ (by decide))).trans ((BeyondFaults.refl _).ite (beyond_setCls _ _ _))).trans
    ((BeyondFaults.refl _).ite (beyond_stopClock _ _))).trans (beyond_vector _ 0)

theorem beyond_report (s : State) (e : FaultIn) (hu : e.unit < 1024) (hc : e.cls < 4) : BeyondFaults s (s.report e) := by
  have counted : BeyondFaults s (s.bump (clsCounter e.cls)) := BeyondFaults.wr s _ (clsCounter_low e.cls)
  refine counted.trans (BeyondFaults.trans ((BeyondFaults.wr _ _ (by decide)).ite (BeyondFaults.refl _)) (BeyondFaults.trans (beyond_countUnit _ e hu)
    (BeyondFaults.trans ((beyond_firstSeen _ e hc).ite (beyond_merge _ hc)) (BeyondFaults.trans ((BeyondFaults.refl _).ite (beyond_setCls _ _ _))
      (BeyondFaults.trans (beyond_openRound _ e.unit) (BeyondFaults.trans (BeyondFaults.foldl (fun u r => beyond_scheduleTest u e.cls hu r) _ _)
        (BeyondFaults.wr _ _ (by decide))))))))

theorem raisedClass_lt (u code : Nat) : raisedClass u code < 4 := by
  have known : ∀ c, codeClass code = some c → c < 4 := fun c h => by
    unfold codeClass at h
    split at h <;> cases h <;> decide
  unfold raisedClass
  split
  · split <;> decide
  next c _ h => exact known c h
  · decide

/-- A checker's error leaves every register beyond the fault block. -/
theorem beyond_fault (s : State) {u : Nat} (hu : u < 1024) (code addr access : Nat) : BeyondFaults s (s.fault u code addr access) :=
  beyond_report s _ hu (raisedClass_lt u code)

end State
end Sys2Proof.Machine
end

section
/-!
The replay and error timers of a port in UP (R116, R124, R125).
-/
namespace Sys2Proof.Machine
open State

namespace State

/-- A replay begins at sequence e, now. -/
def replayBegun (s : State) (p e : Nat) : State :=
  (s.setPort p { s.port p with replaying := some (e, s.now, e), advanced := false }).syncReplay p

/-- REPLAY_RUN counts a replay that starts before an acknowledgement has advanced. -/
def runCounted (s : State) (p : Nat) : State :=
  if (s.port p).advanced then s
  else s.wr (R.LNK_REPLAY_STAT_REPLAY_RUN (p / 2) (p % 2)) (min 15 (s.rd (R.LNK_REPLAY_STAT_REPLAY_RUN (p / 2) (p % 2)) + 1))

theorem keeps_runCounted (s : State) (p : Nat) : Keeps s (s.runCounted p) [(R.LNK_REPLAY_STAT_REPLAY_RUN (p / 2) (p % 2)).key] :=
  (Keeps.refl s _).ite (keeps_wr s _ _)

theorem port_runCounted (s : State) (p q : Nat) : (s.runCounted p).port q = s.port q := by
  unfold runCounted
  split <;> rfl

theorem now_runCounted (s : State) (p : Nat) : (s.runCounted p).now = s.now := by
  unfold runCounted
  split <;> rfl

theorem rd_runCounted (s : State) (p : Nat) : (s.runCounted p).rd (R.LNK_REPLAY_STAT_REPLAY_RUN (p / 2) (p % 2)) =
    if (s.port p).advanced then s.rd (R.LNK_REPLAY_STAT_REPLAY_RUN (p / 2) (p % 2))
    else min 15 (s.rd (R.LNK_REPLAY_STAT_REPLAY_RUN (p / 2) (p % 2)) + 1) := by
  unfold runCounted
  split
  · rfl
  · exact (rd_wr_self s _ _).trans (Nat.mod_eq_of_lt (by dsimp only; omega))

theorem startReplay_eq (s : State) (p e : Nat) : s.startReplay p e = (s.runCounted p).replayBegun p e := by
  rw [replayBegun, port_runCounted, now_runCounted]
  unfold startReplay runCounted
  by_cases adv : (s.port p).advanced = true
  · dsimp only
    rw [if_pos adv]
  · dsimp only
    rw [if_neg adv]
    rfl

theorem keeps_replayBegun (s : State) (p e : Nat) : Keeps s (s.replayBegun p e) (replayKeys p) := (keeps_setPort s p _ _).trans (keeps_syncReplay _ p)

theorem port_replayBegun (s : State) (p e : Nat) : (s.replayBegun p e).port p =
    { s.port p with replaying := some (e, s.now, e), advanced := false } := by
  rw [replayBegun, port_syncReplay, port_setPort_self]

/-- A timeout is counted; the next one runs from now. -/
def timeoutNoted (s : State) (p : Nat) : State := (s.bump (R.LNK_REPLAY_TO (p / 2) (p % 2))).setPort p { s.port p with progressAt := s.now }

theorem keeps_timeoutNoted (s : State) (p : Nat) : Keeps s (s.timeoutNoted p) [(R.LNK_REPLAY_TO (p / 2) (p % 2)).key] :=
  (keeps_bump s _).trans (keeps_setPort _ p _ _)

theorem rd_timeoutNoted (s : State) (p : Nat) : (s.timeoutNoted p).rd (R.LNK_REPLAY_TO (p / 2) (p % 2)) =
    (s.rd (R.LNK_REPLAY_TO (p / 2) (p % 2)) + 1) % 2 ^ 64 :=
  ((keeps_setPort _ p _ []).rd_eq List.not_mem_nil).trans (rd_bump_self s _)

theorem port_timeoutNoted (s : State) (p : Nat) : (s.timeoutNoted p).port p = { s.port p with progressAt := s.now } := port_setPort_self _ p _
theorem now_timeoutNoted (s : State) (p : Nat) : (s.timeoutNoted p).now = s.now := rfl

/-- The least round trip of a window that ends, where it sent data rows and saw them acknowledged. -/
theorem rd_closeRtt_of_other {s : State} {p : Nat} (other : s.winIdx 1000000 ≠ (s.port p).rttIdx) :
    (s.closeRtt p).rd (R.LNK_RTT_RTT_MIN (p / 2) (p % 2)) = match (s.port p).rttSent, (s.port p).rttWin with
      | true, some v => min v 0xFFFFF
      | _, _ => s.rd (R.LNK_RTT_RTT_MIN (p / 2) (p % 2)) := by
  have kept := (keeps_rttBegun s p []).rd_eq (g := R.LNK_RTT_RTT_MIN (p / 2) (p % 2)) List.not_mem_nil
  rw [closeRtt_of_other other, rttRead]
  cases (s.port p).rttSent <;> cases (s.port p).rttWin
  case true.some v => exact (rd_wr_self _ _ _).trans (Nat.mod_eq_of_lt (by dsimp only; omega))
  all_goals exact kept

end State

/-- BADROW_LIMIT: the error is reported once in a window, and retrains the link where RETRAIN_ON_LIMIT says so (R124). -/
theorem exec_badrowLimit (p : Fin 256) (s : State) (many : max 1 (s.rd (R.LNK_ERR_CFG_BADROW_LIMIT (p.val / 2) (p.val % 2))) ≤ (s.port p).badWin)
    (first : (s.port p).badHit = false) : let u := (s.setPort p { s.port p with badHit := true }).fault (16 + p.val / 2) 0x0204 p
    exec (.badrowLimit p) s = .next (if s.rdB (R.LNK_CTL_RETRAIN_ON_LIMIT (p.val / 2) (p.val % 2)) then u.requestReset p 8 else u) := by
  have away := beyond_fault (s.setPort p { s.port p with badHit := true }) (u := 16 + p.val / 2) (by omega) 0x0204 p 0
    (R.LNK_CTL_RETRAIN_ON_LIMIT (p.val / 2) (p.val % 2)) (by dsimp only; omega)
  show execBadrowLimit p s = _
  unfold execBadrowLimit
  dsimp only
  rw [if_pos (by rw [first, decide_eq_true many]; rfl), rdB_def, away, (keeps_setPort s p _ []).rd_eq List.not_mem_nil, ← rdB_def]

theorem exec_replayTimeout (p : Fin 256) (s : State) {r : RepRow} {rest : List RepRow} (held : (s.port p).replay = r :: rest)
    (up : s.linkState p = 7) (late : (s.port p).progressAt + s.replayTimeout p ≤ s.now) :
    exec (.replayTimeout p) s = .next ((s.timeoutNoted p).startReplay p r.seq) := by
  show execReplayTimeout p s = _
  unfold execReplayTimeout timeoutNoted
  simp only [held]
  rw [if_pos (by rw [up, decide_eq_true late]; rfl)]

/-- The meaning of BADROW_LIMIT, REPLAY_TIMEOUT, REPLAY_LIMIT and RTT_WINDOW_END. -/
theorem replayTimers : Claims.ReplayTimers := by
  intro p s i j st
  refine ⟨fun many first => ⟨fun stays => ?_, fun retrains => ?_⟩, fun r rest held up late => ?_, fun up limit => ?_, fun other => ?_, fun same => ?_⟩
  · rw [exec_badrowLimit p s many first, rdB_eq_false stays, if_neg Bool.false_ne_true]
  · rw [exec_badrowLimit p s many first, rdB_eq_true retrains, if_pos rfl]
  · have ran := exec_replayTimeout p s held up late
    rw [startReplay_eq] at ran
    have noted := keeps_timeoutNoted s p
    have counted := keeps_runCounted (s.timeoutNoted p) p
    have begun := keeps_replayBegun ((s.timeoutNoted p).runCounted p) p r.seq
    have same : (((s.timeoutNoted p).runCounted p).replayBegun p r.seq).port p =
        { s.port p with progressAt := s.now, replaying := some (r.seq, s.now, r.seq), advanced := false } := by
      rw [port_replayBegun, port_runCounted, now_runCounted, port_timeoutNoted, now_timeoutNoted]
    refine ⟨_, ran, by rw [same], by rw [same], ?_, ?_, ((noted.mono (by simp [i, j])).trans (counted.mono (by simp [i, j]))).trans (begun.mono (by simp [i, j]))⟩
    · rw [begun.rd_eq (by simp; omega), counted.rd_eq (by simp; omega), rd_timeoutNoted]
    · rw [begun.rd_eq (by simp; omega), rd_runCounted, port_timeoutNoted, noted.rd_eq (by simp; omega)]
  · show execReplayLimit p s = _
    unfold execReplayLimit
    rw [if_pos limit, requestReset_of_up up]
  · refine ⟨_, rfl, ?_, ?_, ?_, ?_, (closeRtt_spec s p).2.2.2⟩
    · rw [port_closeRtt_of_other other]
    · rw [port_closeRtt_of_other other]
    · rw [port_closeRtt_of_other other]
    · exact rd_closeRtt_of_other other
  · exact congrArg Host.Outcome.next (closeRtt_of_same same)

end Sys2Proof.Machine
end

section
/-!
Training rows from ALIGN to CONFIRM (R82, R104 to R106, R109), and the obligation of link timers and training.
-/
namespace Sys2Proof.Machine
open State

namespace State

variable (s : State) (p : Nat)

/-! Requests of the peer's receivers (R82). -/

theorem keeps_requestLane (l req : Nat) : Keeps s (requestLane s l req).1
    [(R.LT_TX_EQ_ACT_PRE (l / 32) (l % 32)).key, (R.LT_TX_EQ_ACT_MAIN (l / 32) (l % 32)).key, (R.LT_TX_EQ_ACT_POST (l / 32) (l % 32)).key] := by
  unfold requestLane
  dsimp only
  split
  · exact Keeps.refl s _
  · exact (((Keeps.refl s _).wr _ (by simp)).wr _ (by simp)).wr _ (by simp)

theorem port_requestLane (l req q : Nat) : (requestLane s l req).1.port q = s.port q := by
  unfold requestLane
  dsimp only
  split <;> rfl

/-- Each transmit lane in use is a lane of the port. -/
theorem mem_lanesOf_of_mem_txLanes {x : List Nat} {l : Nat} (hx : x ∈ s.txLanes p) (hl : l ∈ x) : l ∈ s.lanesOf p := by
  obtain ⟨j, hj, rfl⟩ := List.mem_map.1 hx
  have short : j < s.runningLanes p := List.mem_range.1 hj
  unfold runningLanes at short hl
  refine List.mem_map.2 ?_
  by_cases deg : (s.port p).degraded = true
  · rw [if_pos deg] at short hl
    rw [if_pos deg] at hl
    rcases List.mem_cons.1 hl with rfl | hl
    · exact ⟨j, List.mem_range.2 (by omega), rfl⟩
    · exact ⟨s.portLanes p / 2 + j, List.mem_range.2 (by omega), (List.mem_singleton.1 hl).symm⟩
  · rw [if_neg deg] at short hl
    exact ⟨j, List.mem_range.2 short, (List.mem_singleton.1 hl).symm⟩

/-- From s to t, only the sets in force of port p's transmitters may change. -/
def Equalised (s t : State) (p : Nat) : Prop := Keeps s t (eqActKeys s p) ∧ ∀ q, t.port q = s.port q

theorem Equalised.requestLane {s t : State} {p : Nat} (h : Equalised s t p) {l : Nat} (hl : l ∈ s.lanesOf p) (req : Nat) :
    Equalised s (requestLane t l req).1 p :=
  ⟨h.1.trans ((keeps_requestLane t l req).mono (fun _ hk => List.mem_flatMap.2 ⟨l, hl, hk⟩)),
    fun q => (port_requestLane t l req q).trans (h.2 q)⟩

/-- What a fold over a state and a number keeps of the state. -/
theorem foldl_fst_of_step {β : Type} (φ : State → Prop) {f : State × Nat → β → State × Nat} {l : List β}
    (step : ∀ b ∈ l, ∀ a, φ a.1 → φ (f a b).1) {a : State × Nat} (h : φ a.1) : φ (l.foldl f a).1 :=
  List.foldlRecOn (motive := fun a => φ a.1) l f h (fun a ha b hb => step b hb a ha)

/-- One request byte of a peer goes to the lanes of its index, and their answers are collected. -/
def requestByte (s : State) (p : Nat) (q : Square) (acc : State × Nat) (i : Nat) : State × Nat :=
  let w := (s.txLanes p).length
  let j := if (s.port p).order = 1 then w - 1 - i else i
  let r := ((s.txLanes p).getD j []).foldl (fun (a : State × Nat) l => State.requestLane a.1 l (cmEqReq q i)) (acc.1, 0)
  (r.1, acc.2 + r.2 * 2 ^ (8 * (7 - j)))

/-- The peer's requests, all applied. -/
def requested (s : State) (p : Nat) (q : Square) : State × Nat := (List.range (s.txLanes p).length).foldl (s.requestByte p q) (s, 0)

theorem applyRequests_eq (s : State) (p : Nat) (q : Square) : s.applyRequests p q =
    (s.requested p q).1.modPort p (fun st => { st with eqResp := (s.requested p q).2, peerToken := bitsOf (cmToken q) 0 4 }) := rfl

theorem exists_mem_of_mem_getD {α : Type} {ls : List (List α)} {j : Nat} {a : α} (h : a ∈ ls.getD j []) : ∃ x ∈ ls, a ∈ x := by
  rcases Nat.lt_or_ge j ls.length with hj | hj
  · rw [List.getD_eq_getElem _ _ hj] at h
    exact ⟨_, List.getElem_mem hj, h⟩
  · rw [List.getD_eq_default _ _ hj] at h
    exact absurd h List.not_mem_nil

theorem equalised_requested (s : State) (p : Nat) (q : Square) : Equalised s (s.requested p q).1 p := by
  refine foldl_fst_of_step (fun t => Equalised s t p) (fun i _ acc hacc => ?_) ⟨Keeps.refl s _, fun _ => rfl⟩
  refine foldl_fst_of_step (fun t => Equalised s t p) (fun l hl a ha => ?_) hacc
  obtain ⟨x, hx, hl⟩ := exists_mem_of_mem_getD hl
  exact ha.requestLane (mem_lanesOf_of_mem_txLanes s p hx hl) _

theorem keeps_applyRequests (s : State) (p : Nat) (q : Square) : Keeps s (s.applyRequests p q) (eqActKeys s p) := by
  rw [applyRequests_eq]
  exact (equalised_requested s p q).1.trans (keeps_modPort _ p _ _)

theorem port_applyRequests (s : State) (p : Nat) (q : Square) : (s.applyRequests p q).port p =
    { s.port p with eqResp := (s.requested p q).2, peerToken := bitsOf (cmToken q) 0 4 } := by
  rw [applyRequests_eq, port_modPort_self, (equalised_requested s p q).2]

/-! The equalisation session (R82, R105, R106). -/

/-- A session message's requests are applied where its token is new. -/
def tokenTaken (s : State) (p : Nat) (q : Square) : State :=
  if bitsOf (cmToken q) 0 4 != (s.port p).peerToken then s.applyRequests p q else s

theorem keeps_tokenTaken (s : State) (p : Nat) (q : Square) : Keeps s (s.tokenTaken p q) (eqActKeys s p) :=
  (keeps_applyRequests s p q).ite (Keeps.refl s _)

theorem port_tokenTaken (s : State) (p : Nat) (q : Square) :
    ((s.tokenTaken p q).port p).eqDone = (s.port p).eqDone ∧ ((s.tokenTaken p q).port p).aligned = (s.port p).aligned := by
  unfold tokenTaken
  split
  · rw [port_applyRequests]
    exact ⟨rfl, rfl⟩
  · exact ⟨rfl, rfl⟩

/-- The port after a session message: its flags and precoding, and the next request set where the last one was answered. -/
def sessionPort (q : Square) (done : Bool) (reqs : Nat) (st : PortSt) : PortSt :=
  let st := { st with peerDone := bitOf (cmFlags q) 1, precodeReq := some (cmPrecode q), eqDone := st.eqDone || done
                      tokenAnswered := st.tokenAnswered || bitsOf (cmToken q) 4 4 == st.token }
  if reqs != 0 && st.tokenAnswered && !done then { st with token := (st.token + 1) % 16, eqReq := reqs, tokenAnswered := false } else st

theorem sessionPort_spec (q : Square) (done : Bool) (reqs : Nat) (st : PortSt) : (sessionPort q done reqs st).peerDone = bitOf (cmFlags q) 1 ∧
    (sessionPort q done reqs st).eqDone = (st.eqDone || done) ∧ (sessionPort q done reqs st).aligned = st.aligned := by
  unfold sessionPort
  dsimp only
  split <;> exact ⟨rfl, rfl, rfl⟩

theorem eqSession_eq (s : State) (p : Nat) (q : Square) (done : Bool) (reqs : Nat) :
    s.eqSession p q done reqs = (s.tokenTaken p q).modPort p (sessionPort q done reqs) := rfl

theorem keeps_eqSession (s : State) (p : Nat) (q : Square) (done : Bool) (reqs : Nat) :
    Keeps s (s.eqSession p q done reqs) (eqActKeys s p) := by
  rw [eqSession_eq]
  exact (keeps_tokenTaken s p q).trans (keeps_modPort _ p _ _)

theorem port_eqSession (s : State) (p : Nat) (q : Square) (done : Bool) (reqs : Nat) :
    ((s.eqSession p q done reqs).port p).peerDone = bitOf (cmFlags q) 1 ∧
    ((s.eqSession p q done reqs).port p).eqDone = ((s.port p).eqDone || done) ∧
    ((s.eqSession p q done reqs).port p).aligned = (s.port p).aligned := by
  obtain ⟨peerDone, eqDone, aligned⟩ := sessionPort_spec q done reqs ((s.tokenTaken p q).port p)
  obtain ⟨done_, aligned_⟩ := port_tokenTaken s p q
  rw [eqSession_eq, port_modPort_self]
  exact ⟨peerDone, eqDone.trans (by rw [done_]), aligned.trans aligned_⟩

theorem portLanes_le_eight (s : State) (p : Nat) : s.portLanes p ≤ 8 := by
  unfold portLanes
  split <;> decide

theorem portLane_lt {s : State} {p x : Nat} (hx : x ∈ List.range (s.portLanes p)) : s.portLane p x < 4 * (p / 2) + 10 := by
  have few := portLanes_le_eight s p
  have below := List.mem_range.1 hx
  unfold portLane
  split <;> omega

/-- The sets in force of a port's lanes lie in tiles, away from the module's and from the port's own registers. -/
theorem not_mem_eqActKeys {s : State} {p k : Nat} (hp : p < 256) (away : k < 8 * 0x100000 ∨ 8 * (0x200000 + 0x1000 * (p / 2)) ≤ k) :
    k ∉ eqActKeys s p := by
  intro hk
  obtain ⟨l, hl, hk⟩ := List.mem_flatMap.1 hk
  obtain ⟨x, hx, rfl⟩ := List.mem_map.1 hl
  have small := portLane_lt hx
  simp only [List.mem_cons, List.not_mem_nil, or_false] at hk
  omega

/-! EQ_ACT keys aside, the checks of CONFIG settle the peer and the leader (R106). -/

theorem sqGet_lt (q : Square) (off len : Nat) : sqGet q off len < 2 ^ (8 * len) := bitsOf_lt _ _ _

/-- The peer of a port as its control message gives it. -/
def peerNoted (s : State) (p : Nat) (q : Square) : State :=
  (((s.wr (R.LNK_PEER_ID_IDENTITY (p / 2) (p % 2)) (cmIdentity q)).wr (R.LNK_STAT_PEER_LPORT (p / 2) (p % 2)) (cmLport q)).wr
    (R.LNK_CRED_SHARED_GRANT (p / 2) (p % 2)) (cmGrant q)).wr (R.LNK_CRED_SHARED_PEER_VL_MASK (p / 2) (p % 2)) (cmVlMask q)

theorem keeps_peerNoted (s : State) (p : Nat) (q : Square) : Keeps s (s.peerNoted p q)
    [(R.LNK_PEER_ID_IDENTITY (p / 2) (p % 2)).key, (R.LNK_STAT_PEER_LPORT (p / 2) (p % 2)).key, (R.LNK_CRED_SHARED_GRANT (p / 2) (p % 2)).key,
      (R.LNK_CRED_SHARED_PEER_VL_MASK (p / 2) (p % 2)).key] :=
  ((((Keeps.refl s _).wr _ (by simp)).wr _ (by simp)).wr _ (by simp)).wr _ (by simp)

theorem rd_peerNoted_identity (s : State) (p : Nat) (q : Square) : (s.peerNoted p q).rd (R.LNK_PEER_ID_IDENTITY (p / 2) (p % 2)) = cmIdentity q := by
  unfold peerNoted
  rw [rd_wr_ne _ _ (by dsimp only; omega), rd_wr_ne _ _ (by dsimp only; omega), rd_wr_ne _ _ (by dsimp only; omega), rd_wr_self]
  exact Nat.mod_eq_of_lt (sqGet_lt q 2 8)

theorem rd_peerNoted_vlMask (s : State) (p : Nat) (q : Square) : (s.peerNoted p q).rd (R.LNK_CRED_SHARED_PEER_VL_MASK (p / 2) (p % 2)) = cmVlMask q :=
  (rd_wr_self _ _ _).trans (Nat.mod_eq_of_lt (sqGet_lt q 14 2))

/-- A peer with VL0 and another identity passes the checks; the greater identity leads. -/
theorem configCheck_of_other {s : State} {p : Nat} {q : Square} (vl0 : bitOf (cmVlMask q) 0 = true)
    (other : cmIdentity q ≠ s.rd R.GLB_IDENTITY_IDENTITY) : s.configCheck p q =
      ((s.peerNoted p q).wrB (R.LNK_STAT_LEADER (p / 2) (p % 2)) (decide (s.rd R.GLB_IDENTITY_IDENTITY < cmIdentity q))).setLinkState p 5 := by
  unfold configCheck peerNoted
  dsimp only
  rw [if_neg (by rw [vl0]; exact Bool.false_ne_true), if_neg (fun h => other h.1), beq_false_of_ne (Ne.symm other), Bool.false_and, Bool.or_false]

end State
end Sys2Proof.Machine
end

section
/-!
CAP_ROW_RX, EQ_ROW_RX and CONFIRM_ROW_RX (R104 to R106, R109), and the obligation of link timers and training.
-/
namespace Sys2Proof.Machine
open State

namespace State

theorem onCtrl_of_none {s : State} {p c : Nat} (none_ : s.headCtrl p c = none) (f : State → Square → State) : s.onCtrl p c f = s := by
  rw [onCtrl, none_]

theorem onCtrl_of_some {s : State} {p c : Nat} {q : Square} (some_ : s.headCtrl p c = some q) (f : State → Square → State) :
    s.onCtrl p c f = f (s.takeHead p) q := by
  rw [onCtrl, some_]

theorem linkState_setLinkState_self (s : State) (p v : Nat) : (s.setLinkState p v).linkState p = v % 2 ^ 3 := rd_wr_self s _ v

theorem port_setLinkState (s : State) (p v q : Nat) : (s.setLinkState p v).port q = s.port q := rfl

theorem keeps_setLinkState (s : State) (p v : Nat) : Keeps s (s.setLinkState p v) [(R.LNK_STAT_STATE (p / 2) (p % 2)).key] := keeps_wr s _ v

section
variable {p : Nat} (done : Bool) (reqs : Nat)

/-- A session message at the head of the stream leaves the link's state. -/
theorem linkState_eqSession (hp : p < 256) (s : State) (msg : Square) : (s.eqSession p msg done reqs).linkState p = s.linkState p :=
  (keeps_eqSession s p msg done reqs).rd_eq (not_mem_eqActKeys hp (.inr (by dsimp only; omega)))

theorem eqActKeys_congr {s t : State} {p : Nat} (width : t.rd (R.LT_TILE_STAT_WIDTH (p / 2 / 8)) = s.rd (R.LT_TILE_STAT_WIDTH (p / 2 / 8))) :
    eqActKeys t p = eqActKeys s p := by rw [eqActKeys, lanesOf_congr width, ← eqActKeys]

/-- A session message is taken off the head of the stream. -/
def sessionTaken (s : State) (p : Nat) (msg : Square) (done : Bool) (reqs : Nat) : State := (s.takeHead p).eqSession p msg done reqs

theorem keeps_sessionTaken (s : State) (p : Nat) (msg : Square) : Keeps s (s.sessionTaken p msg done reqs) (eqActKeys s p) := by
  have taken := keeps_takeHead s p
  have session := keeps_eqSession (s.takeHead p) p msg done reqs
  rw [eqActKeys_congr ((taken []).rd_eq List.not_mem_nil)] at session
  exact (taken _).trans session

theorem port_sessionTaken (s : State) (p : Nat) (msg : Square) :
    ((s.sessionTaken p msg done reqs).port p).peerDone = bitOf (cmFlags msg) 1 ∧
    ((s.sessionTaken p msg done reqs).port p).eqDone = ((s.port p).eqDone || done) ∧
    ((s.sessionTaken p msg done reqs).port p).aligned = (s.port p).aligned := by
  have session := port_eqSession (s.takeHead p) p msg done reqs
  rw [port_takeHead] at session
  exact session

theorem linkState_sessionTaken (hp : p < 256) (s : State) (msg : Square) : (s.sessionTaken p msg done reqs).linkState p = s.linkState p := by
  rw [sessionTaken, linkState_eqSession done reqs hp, linkState_takeHead]

/-- EQ ends with EQ_DONE on both sides. -/
theorem linkState_eqAdvance (s : State) (p : Nat) : (s.eqAdvance p).linkState p =
    if s.linkState p = 5 ∧ ((s.port p).eqDone && (s.port p).peerDone) = true then 6 else s.linkState p := by
  unfold eqAdvance
  by_cases ends : s.linkState p = 5 ∧ ((s.port p).eqDone && (s.port p).peerDone) = true
  · rw [if_pos ends, if_pos (by rw [Bool.and_assoc, ends.2, ends.1]; rfl), linkState_setLinkState_self, Nat.mod_eq_of_lt (by decide)]
  · rw [if_neg ends, if_neg (by rwa [Bool.and_assoc, Bool.and_eq_true, decide_eq_true_iff])]

theorem port_eqAdvance (s : State) (p q : Nat) : (s.eqAdvance p).port q = s.port q := by
  unfold eqAdvance
  split <;> rfl

theorem keeps_eqAdvance (s : State) (p : Nat) : Keeps s (s.eqAdvance p) [(R.LNK_STAT_STATE (p / 2) (p % 2)).key] :=
  (keeps_setLinkState s p 6).ite (Keeps.refl s _)

end

end State

section
variable (p : Fin 256) (done : Bool) (reqs : BitVec 64) {s : State} {msg : Square}

theorem exec_capRowRx_of_align (here : s.headCtrl p 1 = some msg) (three : s.linkState p = 3) : exec (.capRowRx p done reqs) s = .next
    (if (s.port p).aligned then ((s.sessionTaken p msg done reqs.toNat).setLinkState p 4).configCheck p msg
      else s.sessionTaken p msg done reqs.toNat) := by
  obtain ⟨peerDone, eqDone, aligned⟩ := port_sessionTaken done reqs.toNat s p msg
  show execCapRowRx p done reqs s = _
  unfold execCapRowRx
  rw [onCtrl_of_some here, linkState_takeHead, three, ← aligned]
  rfl

theorem exec_capRowRx_of_config (here : s.headCtrl p 1 = some msg) (four : s.linkState p = 4) :
    exec (.capRowRx p done reqs) s = .next ((s.sessionTaken p msg done reqs.toNat).configCheck p msg) := by
  show execCapRowRx p done reqs s = _
  unfold execCapRowRx
  rw [onCtrl_of_some here, linkState_takeHead, four]
  rfl

theorem exec_eqRowRx_of_session (here : s.headCtrl p 2 = some msg) (session : s.linkState p = 3 ∨ s.linkState p = 4 ∨ s.linkState p = 5) :
    exec (.eqRowRx p done reqs) s = .next ((s.sessionTaken p msg done reqs.toNat).eqAdvance p) := by
  show execEqRowRx p done reqs s = _
  unfold execEqRowRx
  rw [onCtrl_of_some here, linkState_takeHead]
  rcases session with h | h | h <;> rw [h] <;> rfl

end

/-- Keys of the checks of CONFIG. -/
abbrev configKeys (p : Nat) : List Nat := [(R.LNK_STAT_STATE (p / 2) (p % 2)).key, (R.LNK_STAT_LEADER (p / 2) (p % 2)).key,
  (R.LNK_PEER_ID_IDENTITY (p / 2) (p % 2)).key, (R.LNK_STAT_PEER_LPORT (p / 2) (p % 2)).key, (R.LNK_CRED_SHARED_GRANT (p / 2) (p % 2)).key,
  (R.LNK_CRED_SHARED_PEER_VL_MASK (p / 2) (p % 2)).key]

/-- The checks of CONFIG, passed with a peer of another identity: EQ begins with the peer's identity and the leader settled. -/
theorem configCheck_spec {s : State} {p : Nat} {msg : Square} (vl0 : bitOf (cmVlMask msg) 0 = true)
    (other : cmIdentity msg ≠ s.rd R.GLB_IDENTITY_IDENTITY) : (s.configCheck p msg).linkState p = 5 ∧
      (s.configCheck p msg).rdB (R.LNK_STAT_LEADER (p / 2) (p % 2)) = decide (s.rd R.GLB_IDENTITY_IDENTITY < cmIdentity msg) ∧
      (s.configCheck p msg).rd (R.LNK_PEER_ID_IDENTITY (p / 2) (p % 2)) = cmIdentity msg ∧
      (s.configCheck p msg).rd (R.LNK_CRED_SHARED_PEER_VL_MASK (p / 2) (p % 2)) = cmVlMask msg ∧ Keeps s (s.configCheck p msg) (configKeys p) := by
  rw [configCheck_of_other vl0 other]
  generalize decide (s.rd R.GLB_IDENTITY_IDENTITY < cmIdentity msg) = leads
  have noted := keeps_peerNoted s p msg
  have led := keeps_wrB (s.peerNoted p msg) (R.LNK_STAT_LEADER (p / 2) (p % 2)) leads
  have begun := keeps_setLinkState ((s.peerNoted p msg).wrB (R.LNK_STAT_LEADER (p / 2) (p % 2)) leads) p 5
  refine ⟨linkState_setLinkState_self _ p 5, ?_, ?_, ?_, ((noted.mono (by simp)).trans (led.mono (by simp))).trans (begun.mono (by simp))⟩
  · rw [rdB_def, begun.rd_eq (by simp), ← rdB_def, rdB_wrB_self _ rfl]
  · rw [begun.rd_eq (by simp), led.rd_eq (by simp; omega), rd_peerNoted_identity]
  · rw [begun.rd_eq (by simp; omega), led.rd_eq (by simp; omega), rd_peerNoted_vlMask]

/-- The same from a state that a session message leaves. -/
theorem configCheck_of_keeps {s t : State} {p : Nat} {msg : Square} (hp : p < 256)
    (kept : Keeps s t ([(R.LNK_STAT_STATE (p / 2) (p % 2)).key] ++ eqActKeys s p)) (vl0 : bitOf (cmVlMask msg) 0 = true)
    (other : cmIdentity msg ≠ s.rd R.GLB_IDENTITY_IDENTITY) : (t.configCheck p msg).linkState p = 5 ∧
      (t.configCheck p msg).rdB (R.LNK_STAT_LEADER (p / 2) (p % 2)) = decide (s.rd R.GLB_IDENTITY_IDENTITY < cmIdentity msg) ∧
      (t.configCheck p msg).rd (R.LNK_PEER_ID_IDENTITY (p / 2) (p % 2)) = cmIdentity msg ∧
      (t.configCheck p msg).rd (R.LNK_CRED_SHARED_PEER_VL_MASK (p / 2) (p % 2)) = cmVlMask msg ∧
      Keeps s (t.configCheck p msg) (configKeys p ++ eqActKeys s p) := by
  have own : t.rd R.GLB_IDENTITY_IDENTITY = s.rd R.GLB_IDENTITY_IDENTITY :=
    kept.rd_eq (List.mem_append.not.2 (not_or.2 ⟨by simp, not_mem_eqActKeys hp (.inl (by decide))⟩))
  rw [← own] at other ⊢
  obtain ⟨five, leader, identity, mask, checked⟩ := configCheck_spec (p := p) vl0 other
  exact ⟨five, leader, identity, mask,
    (kept.mono (List.append_subset.2 ⟨by simp, List.subset_append_right _ _⟩)).trans (checked.mono (List.subset_append_left _ _))⟩

section
variable (p : Fin 256) {s : State} {msg : Square}

theorem exec_confirmRowRx_of_eq (here : s.headCtrl p 3 = some msg) (five : s.linkState p = 5) :
    exec (.confirmRowRx p) s = .next (((s.takeHead p).modPort p (fun st => { st with peerDone := bitOf (cmFlags msg) 1 })).eqAdvance p) := by
  show execConfirmRowRx p s = _
  unfold execConfirmRowRx
  rw [onCtrl_of_some here, linkState_takeHead, five]
  rfl

/-- A CONFIRM row with READY (R109). -/
theorem exec_confirmRowRx_of_ready (here : s.headCtrl p 3 = some msg) (six : s.linkState p = 6) (ready : bitOf (cmFlags msg) 2 = true) :
    exec (.confirmRowRx p) s = .next (if s.rdB (R.LNK_STAT_LEADER (p.val / 2) (p.val % 2)) then
        (if (s.takeHead p).readyNow p then ((s.takeHead p).enterUp p).stackEvents else s.takeHead p)
      else (s.takeHead p).modPort p (fun st => { st with peerReady := true })) := by
  show execConfirmRowRx p s = _
  unfold execConfirmRowRx
  rw [onCtrl_of_some here, linkState_takeHead, six, rdB_def s, ← (keeps_takeHead s p []).rd_eq List.not_mem_nil, ← rdB_def]
  exact congrArg Host.Outcome.next (if_pos ready)

end

/-- The meaning of CAP_ROW_RX, EQ_ROW_RX and CONFIRM_ROW_RX. -/
theorem trainingRows : Claims.TrainingRows := by
  intro p done reqs s i j u st
  refine ⟨fun none_ => congrArg Host.Outcome.next (onCtrl_of_none none_ _), fun none_ => congrArg Host.Outcome.next (onCtrl_of_none none_ _),
    fun none_ => congrArg Host.Outcome.next (onCtrl_of_none none_ _), ?_⟩
  intro msg both
  have session := keeps_sessionTaken (p := p) done reqs.toNat s msg
  have state := linkState_sessionTaken done reqs.toNat p.isLt s msg
  obtain ⟨peerDone, eqDone, aligned⟩ := port_sessionTaken (p := p) done reqs.toNat s msg
  refine ⟨fun here => ⟨fun three al => ?_, fun three al => ?_, fun from_ vl0 other => ?_⟩, fun here => ⟨fun from_ => ?_, fun seven => ?_⟩,
    fun here => ⟨fun five => ?_, fun six ready => ⟨fun follows => ?_, fun leads can => ?_⟩⟩⟩
  · exact (exec_capRowRx_of_align p done reqs here three).trans (by rw [if_pos al]; rfl)
  · exact ⟨_, (exec_capRowRx_of_align p done reqs here three).trans (by rw [if_neg (by rw [al]; exact Bool.false_ne_true)]),
      state.trans three, peerDone, session⟩
  · rcases from_ with ⟨three, al⟩ | four
    · have entered := keeps_setLinkState (s.sessionTaken p msg done reqs.toNat) p 4
      exact ⟨_, (exec_capRowRx_of_align p done reqs here three).trans (by rw [if_pos al]), configCheck_of_keeps p.isLt
        ((session.mono (List.subset_append_right _ _)).trans (entered.mono (List.subset_append_left _ _))) vl0 other⟩
    · exact ⟨_, exec_capRowRx_of_config p done reqs here four, configCheck_of_keeps p.isLt (session.mono (List.subset_append_right _ _)) vl0 other⟩
  · have advanced := keeps_eqAdvance (s.sessionTaken p msg done reqs.toNat) p
    refine ⟨_, exec_eqRowRx_of_session p done reqs here from_, ?_, ?_, ?_, ?_⟩
    · rw [linkState_eqAdvance, state, peerDone, eqDone]
    · rw [port_eqAdvance, peerDone]
    · rw [port_eqAdvance, eqDone]
    · exact (session.mono (List.subset_cons_self _ _)).trans (advanced.mono (by simp [i, j]))
  · show execEqRowRx p done reqs s = _
    unfold execEqRowRx
    rw [onCtrl_of_some here, linkState_takeHead, show s.linkState p = 7 from seven]
    rfl
  · have taken := keeps_takeHead s p [(R.LNK_STAT_STATE (p.val / 2) (p.val % 2)).key]
    have told := keeps_modPort (s.takeHead p) p (fun st => { st with peerDone := bitOf (cmFlags msg) 1 }) [(R.LNK_STAT_STATE (p.val / 2) (p.val % 2)).key]
    have advanced := keeps_eqAdvance ((s.takeHead p).modPort p (fun st => { st with peerDone := bitOf (cmFlags msg) 1 })) p
    refine ⟨_, exec_confirmRowRx_of_eq p here five, ?_, ?_, (taken.trans told).trans advanced⟩
    · rw [port_eqAdvance, port_modPort_self]
    · have state : ((s.takeHead p).modPort p (fun st => { st with peerDone := bitOf (cmFlags msg) 1 })).linkState p = 5 :=
        ((keeps_modPort (s.takeHead p) p _ []).rd_eq List.not_mem_nil).trans ((linkState_takeHead s p p).trans five)
      rw [linkState_eqAdvance, state, port_modPort_self, port_takeHead]
      simp only [true_and, Bool.and_eq_true]
  · refine ⟨_, (exec_confirmRowRx_of_ready p here six ready).trans (by rw [rdB_eq_false follows, if_neg Bool.false_ne_true]), ?_,
      (keeps_takeHead s p []).trans (keeps_modPort _ p _ [])⟩
    rw [port_modPort_self]
  · exact (exec_confirmRowRx_of_ready p here six ready).trans (by rw [rdB_eq_true leads, if_pos rfl, if_pos can])

/-- Settles O7: the timers of a replay and its errors, and the training rows from ALIGN to CONFIRM. -/
theorem linkTimersAndTraining : Obligations.LinkTimersAndTraining := ⟨replayTimers, trainingRows⟩

end Sys2Proof.Machine
end

section
/-!
Resets of a link and the start of training (R83, R104, R105, R107, R108, R503).
-/
namespace Sys2Proof.Machine
open State

namespace State

theorem port_endLine (s : State) (p : Nat) : (s.endLine p).port p = { s.port p with line := {}, precodeReq := none } := by
  unfold endLine
  refine (foldl_eq_of_step (fun u : State => u.port p) (fun l _ u => ?_) _).trans (port_modPort_self s p _)
  rfl

theorem now_endLine (s : State) (p : Nat) : (s.endLine p).now = s.now := by
  refine foldl_eq_of_step (fun u : State => u.now) (fun _ _ _ => ?_) _
  rfl

theorem port_degrade (s : State) (p : Nat) : ((s.degrade p).port p).degraded = true ∧ ((s.degrade p).port p).aligned = false ∧
    ((s.degrade p).port p).line = {} := by
  rw [degrade_eq, port_unalign, port_endLine, port_modPort_self]
  exact ⟨rfl, rfl, rfl⟩

/-! The start of training (R83, R85, R104). -/

/-- Training of port p begins, now, at the width that the health map gives. -/
def trainingBegun (s : State) (p : Nat) (deg : Bool) : State :=
  ((s.endLine p).unalign p).modPort p (fun st => { st with
    lastTrain := some ((s.endLine p).unalign p).now, trainAt := ((s.endLine p).unalign p).now, degraded := deg, token := 0, tokenAnswered := true
    eqReq := 0, eqResp := 0, eqDone := false, peerDone := false, peerToken := 0, peerReady := false })

theorem port_trainingBegun (s : State) (p : Nat) (deg : Bool) :
    ((s.trainingBegun p deg).port p).trainAt = s.now ∧ ((s.trainingBegun p deg).port p).lastTrain = some s.now ∧
    ((s.trainingBegun p deg).port p).aligned = false ∧ ((s.trainingBegun p deg).port p).degraded = deg := by
  have now_ : ((s.endLine p).unalign p).now = s.now := by rw [now_unalign, now_endLine]
  rw [trainingBegun, port_modPort_self, port_unalign, now_]
  exact ⟨rfl, rfl, rfl, rfl⟩

/-- The transmitters of a port take their active banks. -/
def banksInForce (s : State) (p : Nat) : State := (s.lanesOf p).foldl (fun s l => s.inForce l (s.lane l).bank) s

/-- The receivers of a port that have a signal adapt. -/
def receiversStart (s : State) (p : Nat) : State :=
  (s.lanesOf p).foldl (fun s l => if s.rd (R.LT_LANE_STAT_LOS (l / 32) (l % 32)) = 0 then s.adaptLane l else s) s

theorem port_banksInForce (s : State) (p q : Nat) : (s.banksInForce p).port q = s.port q := by
  refine foldl_eq_of_step (fun u : State => u.port q) (fun _ _ _ => ?_) s
  rfl

theorem port_setLanes (s : State) (p v q : Nat) : (s.setLanes p v).port q = s.port q := by
  refine foldl_eq_of_step (fun u : State => u.port q) (fun _ _ _ => ?_) s
  rfl

theorem port_adaptLane (s : State) (l q : Nat) : (s.adaptLane l).port q = s.port q := by
  unfold adaptLane
  dsimp only
  split <;> rfl

theorem port_receiversStart (s : State) (p q : Nat) : (s.receiversStart p).port q = s.port q := by
  refine foldl_eq_of_step (fun u : State => u.port q) (fun l _ u => ?_) s
  split
  · exact port_adaptLane u l q
  · rfl

/-- The lanes of a port show a state. -/
theorem rd_setLanes (s : State) (p v : Nat) {l : Nat} (hl : l ∈ s.lanesOf p) : (s.setLanes p v).rd (lnState l) = v % 2 ^ (lnState l).width := by
  unfold setLanes
  generalize s.lanesOf p = ls at hl
  induction ls generalizing s with
  | nil => exact absurd hl List.not_mem_nil
  | cons k ls ih =>
    rw [List.foldl_cons]
    by_cases later : l ∈ ls
    · exact ih _ later
    · obtain rfl : l = k := (List.mem_cons.1 hl).resolve_right later
      have others : Keeps (s.wr (lnState l) v) (ls.foldl (fun s k => s.wr (lnState k) v) (s.wr (lnState l) v)) (ls.map (fun k => (lnState k).key)) :=
        (Keeps.refl _ _).foldl (fun k hk u => (Keeps.refl u _).wr v (List.mem_map_of_mem hk))
      refine (others.rd_eq fun clash => ?_).trans (rd_wr_self s _ v)
      obtain ⟨k, hk, same⟩ := List.mem_map.1 clash
      unfold lnState at same
      exact later ((show k = l by dsimp only at same; omega) ▸ hk)

/-- Receivers that adapt leave the lanes in training. -/
theorem rd_receiversStart_state (s : State) (p : Nat) {l : Nat} (training : s.rd (lnState l) = 1) : (s.receiversStart p).rd (lnState l) = 1 := by
  refine List.foldlRecOn (motive := fun u : State => u.rd (lnState l) = 1) _ _ training fun u hu k _ => ?_
  split
  · unfold adaptLane
    dsimp only
    rw [rd_setLane]
    have adapting : (u.wr (R.LT_RX_ADAPT_ADAPT (k / 32) (k % 32)) 1).rd (lnState l) = 1 :=
      (rd_wr_ne u 1 (by unfold lnState; dsimp only; omega)).trans hu
    split
    · by_cases same : k = l
      · rw [same]
        exact rd_wr_self _ _ 1
      · exact (rd_wr_ne _ 1 (by unfold lnState; dsimp only; omega)).trans adapting
    · exact adapting
  · exact hu

/-- Fields of the lanes that the start of training writes. -/
def startKeys (l : Nat) : List Nat :=
  [(R.LT_TX_EQ_ACT_PRE (l / 32) (l % 32)).key, (R.LT_TX_EQ_ACT_MAIN (l / 32) (l % 32)).key, (R.LT_TX_EQ_ACT_POST (l / 32) (l % 32)).key,
    (R.LT_TX_EQ_ACT_ADAPT_EN (l / 32) (l % 32)).key, (R.LT_RX_ADAPT_ADAPT (l / 32) (l % 32)).key, (R.LT_LANE_STAT_STATE (l / 32) (l % 32)).key]

theorem keeps_banksInForce (s : State) (p : Nat) : Keeps s (s.banksInForce p) ((s.lanesOf p).flatMap startKeys) := by
  refine (Keeps.refl s _).foldl fun l hl u => Keeps.mono (ks := startKeys l) ?_ (fun _ hk => List.mem_flatMap.2 ⟨l, hl, hk⟩)
  exact ((((Keeps.refl u _).wr _ (by simp [startKeys])).wr _ (by simp [startKeys])).wr _ (by simp [startKeys])).wr _ (by simp [startKeys])

theorem keeps_setLanes (s : State) (p v : Nat) : Keeps s (s.setLanes p v) ((s.lanesOf p).flatMap startKeys) :=
  (Keeps.refl s _).foldl fun l hl u => (Keeps.refl u _).wr v (List.mem_flatMap.2 ⟨l, hl, by simp [startKeys, lnState]⟩)

theorem keeps_receiversStart (s : State) (p : Nat) : Keeps s (s.receiversStart p) ((s.lanesOf p).flatMap startKeys) :=
  (Keeps.refl s _).foldl fun l hl u => ((keeps_adaptLane u l).mono (fun _ hk => List.mem_flatMap.2 ⟨l, hl, by
    rcases List.mem_cons.1 hk with rfl | hk
    · simp [startKeys]
    · rw [List.mem_singleton.1 hk]; simp [startKeys]⟩)).ite (Keeps.refl u _)

end State
end Sys2Proof.Machine
end

section
/-!
LRESET_RX, RESET_INTERVAL_END, TRAIN_TIMEOUT, DEGRADE_TIMEOUT, RETRAIN and DISABLE (R83, R104, R105, R107, R108, R503).
-/
namespace Sys2Proof.Machine
open State

namespace State

/-- The lanes of a port lie in tiles, away from the port's own registers and from the width of its group. -/
theorem not_mem_startKeys {s : State} {p k : Nat} (hp : p < 256)
    (away : k = (R.LT_TILE_STAT_WIDTH (p / 2 / 8)).key ∨ 8 * (0x200000 + 0x1000 * (p / 2)) ≤ k) : k ∉ (s.lanesOf p).flatMap startKeys := by
  intro hk
  obtain ⟨l, hl, hk⟩ := List.mem_flatMap.1 hk
  obtain ⟨x, hx, rfl⟩ := List.mem_map.1 hl
  have small : s.portLane p x < 4 * (p / 2) + 10 := portLane_lt hx
  simp only [startKeys, List.mem_cons, List.not_mem_nil, or_false] at hk
  dsimp only at away
  omega

/-- Training of port p begins: its line, its lanes and its state. -/
def trainingStarted (s : State) (p : Nat) (deg : Bool) : State :=
  let s := (s.trainingBegun p deg).wr (R.LNK_STAT_SELF_LOOP (p / 2) (p % 2)) 0
  (((s.banksInForce p).setLanes p 1).setLinkState p 2).receiversStart p

theorem port_trainingStarted (s : State) (p : Nat) (deg : Bool) : (s.trainingStarted p deg).port p = (s.trainingBegun p deg).port p := by
  unfold trainingStarted
  dsimp only
  rw [port_receiversStart, port_setLinkState, port_setLanes, port_banksInForce, port_wr]

theorem keeps_trainingBegun (s : State) (p : Nat) (deg : Bool) : Keeps s (s.trainingBegun p deg) (alignKeys s p) := by
  have ended := keeps_endLine s p
  refine (ended _).trans (Keeps.trans ?_ (keeps_modPort _ p _ _))
  rw [← alignKeys_congr ((ended []).rd_eq List.not_mem_nil)]
  exact keeps_unalign _ p

theorem linkState_trainingStarted {p : Nat} (hp : p < 256) (s : State) (deg : Bool) : (s.trainingStarted p deg).linkState p = 2 := by
  unfold trainingStarted
  exact ((keeps_receiversStart _ p).rd_eq (not_mem_startKeys hp (.inr (by dsimp only; omega)))).trans (linkState_setLinkState_self _ p 2)

theorem selfLoop_trainingStarted {p : Nat} (hp : p < 256) (s : State) (deg : Bool) :
    (s.trainingStarted p deg).rd (R.LNK_STAT_SELF_LOOP (p / 2) (p % 2)) = 0 := by
  have own : ∀ u : State, (R.LNK_STAT_SELF_LOOP (p / 2) (p % 2)).key ∉ (u.lanesOf p).flatMap startKeys := fun u =>
    not_mem_startKeys hp (.inr (by dsimp only; omega))
  unfold trainingStarted
  dsimp only
  rw [(keeps_receiversStart _ p).rd_eq (own _), (keeps_setLinkState _ p 2).rd_eq (by simp), (keeps_setLanes _ p 1).rd_eq (own _),
    (keeps_banksInForce _ p).rd_eq (own _), rd_wr_self, Nat.zero_mod]

/-- The lanes of a port whose training starts train (R83, R85). -/
theorem laneState_trainingStarted {p : Nat} (hp : p < 256) (s : State) (deg : Bool) {l : Nat} (hl : l ∈ s.lanesOf p) :
    (s.trainingStarted p deg).rd (lnState l) = 1 := by
  have small : l < 4 * (p / 2) + 10 := by
    obtain ⟨x, hx, rfl⟩ := List.mem_map.1 hl
    exact portLane_lt hx
  have shown := keeps_wr (s.trainingBegun p deg) (R.LNK_STAT_SELF_LOOP (p / 2) (p % 2)) 0
  have width : (((s.trainingBegun p deg).wr (R.LNK_STAT_SELF_LOOP (p / 2) (p % 2)) 0).banksInForce p).rd (R.LT_TILE_STAT_WIDTH (p / 2 / 8)) =
      s.rd (R.LT_TILE_STAT_WIDTH (p / 2 / 8)) := by
    rw [(keeps_banksInForce _ p).rd_eq (not_mem_startKeys hp (.inl rfl)), shown.rd_eq (by simp; omega),
      (keeps_trainingBegun s p deg).rd_eq (not_mem_alignKeys hp (fun g hg => by dsimp only; omega))]
  unfold trainingStarted
  refine rd_receiversStart_state _ p ?_
  rw [(keeps_setLinkState _ p 2).rd_eq (by unfold lnState; simp; omega)]
  exact rd_setLanes _ p 1 (by rwa [lanesOf_congr width])

end State

section
variable (p : Fin 256) {s : State}

/-- RESET_INTERVAL_END when the port is in RESET, the interval is over and a training may start (R104, R107). -/
theorem exec_resetIntervalEnd (one : s.linkState p = 1) (reset : (s.port p).resetAt + 11000 ≤ s.now)
    (start : ∀ t0 : Nat, (s.port p).lastTrain = some t0 → t0 + 1000000 ≤ s.now) : exec (.resetIntervalEnd p) s = .next (s.trainingStarted p
      (s.rdB (R.LNK_CTL_DEGRADE_EN (p.val / 2) (p.val % 2)) && decide (2 < s.portLanes p) && (s.lanesOf p).any s.unhealthy)) := by
  show execResetIntervalEnd p s = _
  unfold execResetIntervalEnd
  dsimp only
  rw [if_pos (by
    rw [one, decide_eq_true reset]
    cases last : (s.port p).lastTrain with
    | some t0 => simp only [ge_iff_le, start t0 last, decide_true, Bool.and_self]
    | none => rfl)]
  rfl

theorem exec_trainTimeout (lo : 2 ≤ s.linkState p) (hi : s.linkState p ≤ 6)
    (late : (s.port p).trainAt + max 10 (s.rd (R.LNK_ERR_CFG_TRAIN_TIMEOUT (p.val / 2) (p.val % 2))) * 1000000 ≤ s.now) :
    exec (.trainTimeout p) s = .next (s.trainFail p (if (s.port p).order = 2 ∨ (s.port p).mismatch = true then 10 else 9)) := by
  show execTrainTimeout p s = _
  unfold execTrainTimeout
  dsimp only
  rw [if_pos ⟨lo, hi, late⟩]
  simp only [Bool.or_eq_true, decide_eq_true_eq]

theorem exec_degradeTimeout (two : s.linkState p = 2) (late : (s.port p).trainAt + 20000000 ≤ s.now)
    (enabled : s.rd (R.LNK_CTL_DEGRADE_EN (p.val / 2) (p.val % 2)) = 1) (wide : 2 < s.portLanes p) (full : (s.port p).degraded = false) :
    exec (.degradeTimeout p) s = .next (s.degrade p) := by
  show execDegradeTimeout p s = _
  unfold execDegradeTimeout
  dsimp only
  rw [two, decide_eq_true late, rdB_eq_true enabled, decide_eq_true wide, full]
  rfl

theorem exec_lresetRx {q : Square} (here : s.headCtrl p 4 = some q) :
    exec (.lresetRx p) s = .next (if s.linkState p = 1 then s.takeHead p else (s.takeHead p).requestReset p 2) := by
  show execLresetRx p s = _
  unfold execLresetRx
  rw [onCtrl_of_some here, linkState_takeHead]

variable {m : Master} (reaches : Reaches s m (0x200000 + 0x1000 * (p.val / 2) + 0x800 * (p.val % 2))) (formed : s.formed p = true)
include reaches formed

theorem exec_retrain : exec (.retrain m p) s = .next (s.requestReset p 1) := by
  show execRetrain m p s = _
  unfold execRetrain lnkOff
  rw [Nat.add_zero, gated_of_reaches reaches, if_pos formed]

theorem exec_disable (on : Bool) : exec (.disable m p on) s = .next (if on = true then
      if (s.wrB (R.LNK_CTL_DISABLE (p.val / 2) (p.val % 2)) on).linkState p = 0 then s.wrB (R.LNK_CTL_DISABLE (p.val / 2) (p.val % 2)) on
      else (s.wrB (R.LNK_CTL_DISABLE (p.val / 2) (p.val % 2)) on).linkDisable p
    else (s.wrB (R.LNK_CTL_DISABLE (p.val / 2) (p.val % 2)) on).leaveDisabled p) := by
  show execDisable m p on s = _
  unfold execDisable lnkOff
  rw [Nat.add_zero, gated_of_reaches reaches, if_pos formed]

end

/-- The meaning of LRESET_RX, RESET_INTERVAL_END, TRAIN_TIMEOUT, DEGRADE_TIMEOUT, RETRAIN and DISABLE. -/
theorem linkResets : Claims.LinkResets := by
  intro p m s i j st u
  refine ⟨fun none_ => congrArg Host.Outcome.next (onCtrl_of_none none_ _), fun q here => ⟨fun up => ?_, fun one => ?_, fun lo hi => ?_⟩,
    fun one reset start => ?_, fun lo hi late => exec_trainTimeout p lo hi late, fun two late enabled wide full => ?_, fun reaches formed => ?_⟩
  · rw [exec_lresetRx p here, if_neg (by omega), requestReset_of_up ((linkState_takeHead s p p).trans up)]
  · rw [exec_lresetRx p here, if_pos one]
  · rw [exec_lresetRx p here, if_neg (by omega), requestReset_of_training (by rw [linkState_takeHead]; omega) (by rwa [linkState_takeHead])]
  · obtain ⟨trainAt, lastTrain, aligned, degraded⟩ := port_trainingBegun s p
      (s.rdB (R.LNK_CTL_DEGRADE_EN (p.val / 2) (p.val % 2)) && decide (2 < s.portLanes p) && (s.lanesOf p).any s.unhealthy)
    rw [← port_trainingStarted] at trainAt lastTrain aligned degraded
    exact ⟨_, exec_resetIntervalEnd p one reset start, linkState_trainingStarted p.isLt s _, selfLoop_trainingStarted p.isLt s _,
      trainAt, lastTrain, aligned, degraded, fun l hl => laneState_trainingStarted p.isLt s _ hl⟩
  · obtain ⟨degraded, aligned, line⟩ := port_degrade s p
    exact ⟨_, exec_degradeTimeout p two late enabled wide full, degraded, aligned, line, keeps_degrade s p⟩
  · have state : ∀ on, (s.wrB (R.LNK_CTL_DISABLE (p.val / 2) (p.val % 2)) on).linkState p = s.linkState p := fun on =>
      (keeps_wrB s _ on).rd_eq (by simp; omega)
    have written : ∀ on, (s.wrB (R.LNK_CTL_DISABLE (p.val / 2) (p.val % 2)) on).rd (R.LNK_CTL_DISABLE (p.val / 2) (p.val % 2)) = b2n on := fun on =>
      (rd_wrB_self s _ on).trans (by cases on <;> rfl)
    refine ⟨fun up => ?_, fun lo hi => ?_, fun up => ?_, fun down => ?_, fun down free => ?_⟩
    · rw [exec_retrain p reaches formed, requestReset_of_up up]
    · rw [exec_retrain p reaches formed, requestReset_of_training lo hi]
    · rw [exec_disable p reaches formed, if_pos rfl, if_neg (by rwa [state])]
      rfl
    · exact ⟨_, (exec_disable p reaches formed true).trans (by rw [if_pos rfl, if_pos ((state _).trans down)]), written true, keeps_wrB s _ true⟩
    · have left := leaveDisabled_of_free ⟨(state false).trans down, free⟩
      have told := keeps_leaveDisabled (s.wrB (R.LNK_CTL_DISABLE (p.val / 2) (p.val % 2)) false) p
      refine ⟨_, (exec_disable p reaches formed false).trans (by rw [if_neg Bool.false_ne_true]), ?_, ?_, ?_,
        ((keeps_wrB s _ false).mono (by simp [i, j])).trans (told.mono (by simp [i, j]))⟩
      · exact (told.rd_eq (by simp [i, j]; omega)).trans (written false)
      · rw [linkState_leaveDisabled, if_pos ⟨rfl, (state false).trans down, free⟩]
      · rw [left, port_modPort_self]
        rfl

end Sys2Proof.Machine
end

section
/-!
TIME_FRAME (R122, R123, R451), and the obligation of link resets and time frames.
-/
namespace Sys2Proof.Machine
open State

namespace State

/-- A time source takes no parent. -/
theorem selectParent_of_source {s : State} (source : s.rd R.TIM_CFG_ROLE = 1) : s.selectParent = s := by
  unfold selectParent
  rw [if_pos (by rw [rdB_eq_true source]; rfl)]

theorem selectParent_of_parent {s : State} (parent : s.rd R.TIM_STAT_PARENT ≠ 0x1FF) : s.selectParent = s := by
  unfold selectParent
  rw [if_pos (by rw [bne_iff_ne.2 parent, Bool.or_true, Bool.true_or])]

end State

/-- A complete frame pairs with the peer's last one, and echoes an own mark (R123). -/
def framePairs (st : PortSt) (f : FrameRx) : Bool :=
  bitOf (f.slots.getD 11 0) 0 && bitOf (f.slots.getD 11 0) 1 && decide (SMap.get 0 st.marks (f.slots.getD 10 0 % 256) ≠ 0) &&
    (match st.lastFrame with | some (_, n) => n == f.slots.getD 10 0 / 256 | none => false)

/-- The link delay that a frame and the last one's T2 give. -/
def frameDelay (st : PortSt) (f : FrameRx) : Int :=
  (((slotTime f.slots 5 : Int) - ((SMap.get 0 st.marks (f.slots.getD 10 0 % 256) - 1 : Nat) : Int)) +
    (((st.lastFrame.getD (0, 0)).1 : Int) - slotTime f.slots 0)) / 2

namespace State

/-- Delay and offset of a pair of frames are shown. -/
def pairShown (s : State) (p : Nat) (f : FrameRx) : State :=
  (s.wr (R.LNK_TIME_DELAY_DELAY (p / 2) (p % 2)) (unsignedOf 48 (frameDelay (s.port p) f))).wr (R.LNK_TIME_OFFSET_OFFSET (p / 2) (p % 2))
    (unsignedOf 64 (slotTime f.slots 0 + frameDelay (s.port p) f - ((s.port p).lastFrame.getD (0, 0)).1))

/-- Port p, which was st, takes the frame. -/
def frameNoted (s : State) (st : PortSt) (p : Nat) (f : FrameRx) (pair : Bool) : State := s.setPort p { st with
  frameRx := none, lastFrame := some (f.t2, (f.slots.getD 10 0 / 256 + 1) % 256), peerSteps := f.slots.getD 11 0 / 256
  peerT1T2 := bitOf (f.slots.getD 11 0) 0 && bitOf (f.slots.getD 11 0) 1, pairAt := if pair then s.now else st.pairAt, pairNew := pair }

theorem keeps_frameNoted (s : State) (st : PortSt) (p : Nat) (f : FrameRx) (pair : Bool) (ks : List Nat) : Keeps s (s.frameNoted st p f pair) ks :=
  keeps_setPort s p _ ks

theorem port_frameNoted (s : State) (st : PortSt) (p : Nat) (f : FrameRx) (pair : Bool) : (s.frameNoted st p f pair).port p = { st with
    frameRx := none, lastFrame := some (f.t2, (f.slots.getD 10 0 / 256 + 1) % 256), peerSteps := f.slots.getD 11 0 / 256
    peerT1T2 := bitOf (f.slots.getD 11 0) 0 && bitOf (f.slots.getD 11 0) 1, pairAt := if pair then s.now else st.pairAt, pairNew := pair } :=
  port_setPort_self s p _

theorem keeps_pairShown (s : State) (p : Nat) (f : FrameRx) : Keeps s (s.pairShown p f)
    [(R.LNK_TIME_DELAY_DELAY (p / 2) (p % 2)).key, (R.LNK_TIME_OFFSET_OFFSET (p / 2) (p % 2)).key] :=
  ((Keeps.refl s _).wr _ (by simp)).wr _ (by simp)

theorem rd_pairShown_delay (s : State) (p : Nat) (f : FrameRx) : (s.pairShown p f).rd (R.LNK_TIME_DELAY_DELAY (p / 2) (p % 2)) =
    unsignedOf 48 (frameDelay (s.port p) f) % 2 ^ (R.LNK_TIME_DELAY_DELAY (p / 2) (p % 2)).width :=
  (rd_wr_ne _ _ (by dsimp only; omega)).trans (rd_wr_self s _ _)

theorem rd_pairShown_offset (s : State) (p : Nat) (f : FrameRx) : (s.pairShown p f).rd (R.LNK_TIME_OFFSET_OFFSET (p / 2) (p % 2)) =
    unsignedOf 64 (slotTime f.slots 0 + frameDelay (s.port p) f - ((s.port p).lastFrame.getD (0, 0)).1) %
      2 ^ (R.LNK_TIME_OFFSET_OFFSET (p / 2) (p % 2)).width := rd_wr_self _ _ _

/-- A follower's STEPS follow its parent's (R451). -/
def stepsFollow (s : State) (p : Nat) (f : FrameRx) : State :=
  if s.rd R.TIM_STAT_PARENT = p then
    if f.slots.getD 11 0 / 256 ≥ s.rd R.TIM_STAT_STEPS then s.loseParent else s.wr R.TIM_STAT_STEPS (f.slots.getD 11 0 / 256 + 1)
  else s

end State

/-- TIME_FRAME with a complete frame. -/
theorem exec_timeFrame_of_complete (p : Fin 256) {s : State} {f : FrameRx} (here : (s.port p).frameRx = some f) (complete : f.complete = true) :
    exec (.timeFrame p) s = .next ((((if framePairs (s.port p) f = true then s.pairShown p f else s).frameNoted (s.port p) p f
      (framePairs (s.port p) f)).stepsFollow p f).selectParent) := by
  show execTimeFrame p s = _
  unfold execTimeFrame
  simp only [here]
  rw [if_pos complete]
  rfl

/-- At a time source, TIME_FRAME over a port that is not the parent leaves STEPS and the parent. -/
theorem exec_timeFrame_of_source (p : Fin 256) {s : State} {f : FrameRx} (here : (s.port p).frameRx = some f) (complete : f.complete = true)
    (source : s.rd R.TIM_CFG_ROLE = 1) (apart : s.rd R.TIM_STAT_PARENT ≠ p.val) : exec (.timeFrame p) s = .next
      ((if framePairs (s.port p) f = true then s.pairShown p f else s).frameNoted (s.port p) p f (framePairs (s.port p) f)) := by
  have told : Keeps s ((if framePairs (s.port p) f = true then s.pairShown p f else s).frameNoted (s.port p) p f (framePairs (s.port p) f))
      [(R.LNK_TIME_DELAY_DELAY (p.val / 2) (p.val % 2)).key, (R.LNK_TIME_OFFSET_OFFSET (p.val / 2) (p.val % 2)).key] :=
    ((keeps_pairShown s p f).ite (Keeps.refl s _)).trans (keeps_frameNoted _ _ p f _ _)
  rw [exec_timeFrame_of_complete p here complete, stepsFollow, if_neg (by rwa [told.rd_eq (by simp; omega)]),
    selectParent_of_source (by rwa [told.rd_eq (by simp; omega)])]

/-- The first frame of a peer pairs with none. -/
theorem framePairs_of_first {st : PortSt} (f : FrameRx) (first : st.lastFrame = none) : framePairs st f = false := by
  unfold framePairs
  rw [first]
  exact Bool.and_false _

theorem framePairs_of_pair {st : PortSt} {f : FrameRx} {t2 : Nat} (last : st.lastFrame = some (t2, f.slots.getD 10 0 / 256))
    (echo : SMap.get 0 st.marks (f.slots.getD 10 0 % 256) ≠ 0) (flags : f.slots.getD 11 0 % 4 = 3) : framePairs st f = true := by
  have t1 : bitOf (f.slots.getD 11 0) 0 = true := by
    rw [bitOf, Nat.testBit_eq_decide_div_mod_eq]
    exact decide_eq_true (by omega)
  have t2 : bitOf (f.slots.getD 11 0) 1 = true := by
    rw [bitOf, Nat.testBit_eq_decide_div_mod_eq]
    exact decide_eq_true (by omega)
  unfold framePairs
  rw [last, t1, t2, decide_eq_true echo]
  exact beq_self_eq_true _

/-- The meaning of TIME_FRAME. -/
theorem timeFrames : Claims.TimeFrames := by
  refine ⟨?_, ?_⟩
  · intro p f s i j flags no t3 here complete source apart
    have ran := exec_timeFrame_of_source p here complete source apart
    refine ⟨fun first => ?_, fun t2 last echo both => ?_⟩
    · rw [framePairs_of_first f first, if_neg Bool.false_ne_true] at ran
      have taken := port_frameNoted s (s.port p) p f false
      exact ⟨_, ran, by rw [taken], by rw [taken], by rw [taken], by rw [taken], keeps_frameNoted s _ p f _ _⟩
    · rw [framePairs_of_pair last echo both, if_pos rfl] at ran
      have taken := port_frameNoted (s.pairShown p f) (s.port p) p f true
      have told := keeps_frameNoted (s.pairShown p f) (s.port p) p f true []
      have delayed : frameDelay (s.port p) f = (((slotTime f.slots 5 : Int) - (t3 - 1)) + (t2 - slotTime f.slots 0)) / 2 := by
        rw [frameDelay, last, Int.natCast_sub (Nat.one_le_iff_ne_zero.2 echo)]
        rfl
      refine ⟨_, ran, by rw [taken], by rw [taken]; rfl, ?_, ?_, (keeps_pairShown s p f).trans (keeps_frameNoted _ _ p f _ _)⟩
      · rw [told.rd_eq List.not_mem_nil, rd_pairShown_delay, delayed]
      · rw [told.rd_eq List.not_mem_nil, rd_pairShown_offset, delayed, last]
        rfl
  · intro p f s steps here complete role parent first less
    have ran := exec_timeFrame_of_complete p here complete
    rw [framePairs_of_first f first, if_neg Bool.false_ne_true] at ran
    have taken := port_frameNoted s (s.port p) p f false
    have told := keeps_frameNoted s (s.port p) p f false []
    have followed : (s.frameNoted (s.port p) p f false).stepsFollow p f = (s.frameNoted (s.port p) p f false).wr R.TIM_STAT_STEPS (steps + 1) := by
      rw [stepsFollow, told.rd_eq List.not_mem_nil, told.rd_eq List.not_mem_nil, if_pos parent, if_neg (Nat.not_le.2 less)]
    have shown := keeps_wr (s.frameNoted (s.port p) p f false) R.TIM_STAT_STEPS (steps + 1)
    have small : s.rd R.TIM_STAT_STEPS < 2 ^ 8 := rd_lt s _
    rw [followed, selectParent_of_parent (by rw [shown.rd_eq (by decide), told.rd_eq List.not_mem_nil, parent]; omega)] at ran
    refine ⟨_, ran, ?_, by rw [port_wr, taken], (told.mono (List.nil_subset _)).trans shown⟩
    exact (rd_wr_self _ _ _).trans (Nat.mod_eq_of_lt (by dsimp only; omega))

/-- Settles O8: the resets of a link, and offset and delay from a complete time frame. -/
theorem linkResetsAndTimeFrames : Obligations.LinkResetsAndTimeFrames := ⟨linkResets, timeFrames⟩

end Sys2Proof.Machine
end
